-- ==== Sys2Proof/Word.lean ====
section
/-! DEFINITION. The word types of the block and their plainest arithmetic: bytes, byte strings in the little-endian
order of R5, ceiling division, and the rounding of times that records carry. -/

namespace Sys2Proof

/-- One byte, as it crosses an interface. -/
abbrev Byte := BitVec 8

/-- A byte string, lowest address first. -/
abbrev Bytes := List Byte

/-- A grain is 16 KiB (R22). -/
def grainBytes : Nat := 16384

/-- One microsecond is 470 ticks (00_scope, "Device time and ticks"). -/
def ticksPerUs : Nat := 470

/-- Ceiling division, written ⌈a / b⌉ in the manual's formulas. -/
def cdiv (a b : Nat) : Nat := (a + b - 1) / b

/-- `a` rounded up to a multiple of `b`. -/
def roundUp (a b : Nat) : Nat := cdiv a b * b

/-- The `n` bytes of `v`, little-endian (R5). -/
def leBytes : Nat → Nat → Bytes
  | 0, _ => []
  | n + 1, v => BitVec.ofNat 8 v :: leBytes n (v / 256)

/-- The number that a little-endian byte string spells (R5). -/
def ofLeBytes : Bytes → Nat
  | [] => 0
  | b :: bs => b.toNat + 256 * ofLeBytes bs

/-- Bits [lo + w - 1 : lo] of a number, as field maps write them. -/
def bits (v lo w : Nat) : Nat := v / 2 ^ lo % 2 ^ w

/-- Bit `i` of a number. -/
def bit (v i : Nat) : Bool := v / 2 ^ i % 2 == 1

/-- Replace the element at position `i`; a position beyond the end changes nothing. -/
def setAt {α : Type} (l : List α) (i : Nat) (a : α) : List α := l.set i a

/-- Apply `f` to every element that satisfies `p`. -/
def mapIf {α : Type} (p : α → Bool) (f : α → α) (l : List α) : List α :=
  l.map fun a => if p a then f a else a

/-- Sum of `f` over a list. -/
def sumBy {α : Type} (f : α → Nat) (l : List α) : Nat := l.foldl (fun n a => n + f a) 0

end Sys2Proof
end

