-- ==== Sys2Proof/Syntax.lean ====
section
/-! DEFINITION. The commands of the block: one constructor of `Instr` for each row of spec/opcode_table.json, with the
operands the chapters give it, and the records those operands are made of (descriptor bodies of R190 to R195, Asvis
frames of R254, image records of 16_startup_and_image, the debug token of 14_identity_and_tenants). -/

namespace Sys2Proof

/-! ### Descriptors (09_zarfy_requests) -/

/-- How a descriptor reaches a request window: the aperture written, the stamp of its first slot (R181, R182), whether it
occupies two slots (R185), and the common header (R188). -/
structure Sub where
  group    : Nat      -- module group whose UCIe modules carry the write
  fn       : Nat      -- function whose aperture is written
  seq      : Nat      -- stamp [14:0]
  phase    : Nat      -- stamp [15]
  long     : Bool     -- the descriptor takes slots k and k + 1
  cls      : Nat      -- service_class [10:8]
  tag      : Nat      -- user_tag [63:32]
  deadline : Nat      -- deadline [127:64]
  deriving DecidableEq, Repr

/-- The flow key that OPEN_SEQUENCE and FORK_SEQUENCE carry (R79, R190). -/
structure FlowKeyF where
  flow     : Nat
  maskMode : Nat
  zone     : Nat
  protocol : Nat
  srcPort  : Nat
  dstPort  : Nat
  srcAddr  : Nat
  dstAddr  : Nat
  deriving DecidableEq, Repr

structure AttachFnF where
  version  : Nat
  ringLog2 : Nat
  ringBase : Nat
  deriving DecidableEq, Repr

structure FenceF where
  mode : Nat
  seq  : Nat
  deriving DecidableEq, Repr

structure OpenF where
  model    : Nat
  layout   : Nat
  fmt      : Nat
  floor    : Nat
  seqClass : Nat
  horizon  : Nat
  window   : Nat
  globals  : Nat
  t1res    : Nat
  key      : FlowKeyF
  deriving DecidableEq, Repr

structure ForkF where
  parent : Nat
  n      : Nat
  t1res  : Nat
  key    : FlowKeyF
  deriving DecidableEq, Repr

/-- APPEND_BLOCKS and EDIT_BLOCKS share one body (R190). -/
structure BlocksF where
  seq          : Nat
  checkVersion : Bool
  expected     : Nat
  firstBlock   : Nat
  blockCount   : Nat
  blockList    : Nat
  pageBase     : Nat
  pageStride   : Nat
  deriving DecidableEq, Repr

/-- PIN_RANGE, UNPIN_RANGE and PREFETCH_HINT share one body. -/
structure RangeF where
  seq        : Nat
  firstBlock : Nat
  blockCount : Nat
  firstLayer : Nat
  layerCount : Nat
  target     : Nat
  deriving DecidableEq, Repr

structure FetchF where
  seq        : Nat
  firstBlock : Nat
  blockCount : Nat
  firstLayer : Nat
  layerCount : Nat
  form       : Nat
  buffer     : Nat
  bufferLen  : Nat
  deriving DecidableEq, Repr

/-- One pair of a hash-form LOOKUP_PREFIX (R192). -/
structure PairF where
  depth : Nat
  hash  : BitVec 128
  deriving DecidableEq, Repr

structure LookupHashF where
  model : Nat
  pairs : List PairF
  deriving DecidableEq, Repr

structure LookupTokenF where
  model       : Nat
  tokenBlocks : Nat
  hasStart    : Bool
  startDepth  : Nat
  startHash   : BitVec 128
  tokenAddr   : Nat
  resultAddr  : Nat
  deriving DecidableEq, Repr

structure LookupFlowF where
  maxMatches : Nat
  resultAddr : Nat
  family     : Nat
  dscp       : Nat
  zone       : Nat
  protocol   : Nat
  srcPort    : Nat
  dstPort    : Nat
  leadCount  : Nat
  srcAddr    : Nat
  dstAddr    : Nat
  leadBytes  : Nat
  deriving DecidableEq, Repr

structure AttachPrefixF where
  seq    : Nat
  depth  : Nat
  handle : Nat
  deriving DecidableEq, Repr

structure PublishF where
  seq        : Nat
  depth      : Nat
  digestAddr : Nat
  deriving DecidableEq, Repr

structure AttendF where
  seq          : Nat
  layer        : Nat
  kvFirst      : Nat
  kvCount      : Nat
  qTokens      : Nat
  qFormat      : Nat
  causal       : Bool
  segMask      : Bool
  oFormat      : Nat
  multiPartial : Bool
  qRequant     : Bool
  qPos         : Nat
  curdMode     : Nat
  curdExpect   : Nat
  keyPrecision : Nat
  qSegment     : Nat
  windowTokens : Nat
  sinkTokens   : Nat
  scale        : BitVec 32
  softcap      : BitVec 32
  blockLo      : Nat
  blockHi      : Nat
  query        : Nat
  result       : Nat
  resultLen    : Nat
  deriving DecidableEq, Repr

structure LoadTableF where
  tableId    : Nat
  model      : Nat
  fmt        : Nat
  layerFirst : Nat
  layerCount : Nat
  image      : Nat
  deriving DecidableEq, Repr

structure RetireF where
  tableId : Nat
  defer   : Bool
  deriving DecidableEq, Repr

structure WeightsF where
  model  : Nat
  offset : Nat
  length : Nat
  buffer : Nat
  deriving DecidableEq, Repr

/-- A memory operand (R193). For kind 2 `address` holds the packed block and layer range. -/
structure MemOpF where
  kind    : Nat
  handle  : Nat
  address : Nat
  length  : Nat
  deriving DecidableEq, Repr

structure FillF where
  dst     : MemOpF
  pattern : BitVec 64
  deriving DecidableEq, Repr

/-- COPY and COMPARE: two memory operands. -/
structure TwoOpF where
  a : MemOpF
  b : MemOpF
  deriving DecidableEq, Repr

structure ReduceF where
  dest      : MemOpF
  outFormat : Nat
  srcKind   : Nat
  srcCount  : Nat
  count     : Nat
  headDim   : Nat
  srcBase   : Nat
  srcStride : Nat
  deriving DecidableEq, Repr

/-- The body of one descriptor, by opcode (R187, R190 to R195). `invalidForm` is a descriptor of a listed opcode whose
form, op or length selector has no meaning (R185, R190, R192), and `unknown` one whose opcode is unlisted (R209). -/
inductive Desc where
  | attachFn (f : AttachFnF)
  | detach (mode : Nat)
  | fence (f : FenceF)
  | openSeq (f : OpenF)
  | closeSeq (seq : Nat)
  | forkSeq (f : ForkF)
  | truncate (f : BlocksF)
  | replace (f : BlocksF)
  | append (f : BlocksF)
  | pinRange (f : RangeF)
  | unpinRange (f : RangeF)
  | prefetchHint (f : RangeF)
  | lookupHash (f : LookupHashF)
  | lookupToken (f : LookupTokenF)
  | lookupFlow (f : LookupFlowF)
  | attachPrefix (f : AttachPrefixF)
  | publish (f : PublishF)
  | withdraw (handle : Nat)
  | fetch (f : FetchF)
  | attend (f : AttendF)
  | tableLoad (f : LoadTableF)
  | tableSelect (f : LoadTableF)
  | tableExport (f : LoadTableF)
  | retire (f : RetireF)
  | fill (f : FillF)
  | copy (f : TwoOpF)
  | compare (f : TwoOpF)
  | reduceSum (f : ReduceF)
  | reduceMax (f : ReduceF)
  | lseMerge (f : ReduceF)
  | weights (f : WeightsF)
  | invalidForm (opcode : Nat)
  | unknown (opcode : Nat)
  deriving DecidableEq, Repr

/-- One entry of a block list (R191). -/
structure BlockEntry where
  segment     : Nat
  validTokens : Nat
  hashed      : Bool
  tokens      : Bool
  chainHash   : BitVec 128
  tokenAddr   : Nat
  deriving DecidableEq, Repr

/-! ### Asvis Link (12_fabric_and_pool) -/

/-- The header fields of an Asvis frame that its receiver uses (R254). `tagOk` says whether the AES-GCM tag passes under
the key the header names (R255). -/
structure Frame where
  version   : Nat
  cls       : Nat
  last      : Bool
  coded     : Bool
  own       : Bool
  src       : Nat
  dst       : Nat
  fn        : Nat
  tenant    : Nat
  domain    : Nat
  keyKind   : Nat
  status    : Nat
  keyEpoch  : Nat
  frameSeq  : Nat
  xid       : Nat
  object    : Nat
  offset    : Nat
  aux       : Nat
  tagOk     : Bool
  deriving DecidableEq, Repr

/-- The fields of HELLO (R252). `versions` has bit 0 for v1, bit 1 for v2, bit 2 for v3. -/
structure HelloF where
  versions  : Nat
  tray      : Bool
  device    : Nat
  bootEpoch : Nat
  direct    : Bool
  deriving DecidableEq, Repr

/-- One entry of a gate schedule (R242). -/
structure GateEntry where
  duration : Nat
  opened   : Nat
  deriving DecidableEq, Repr

/-- What CONFIG tells of one sharing domain (R252). -/
structure DomainCheck where
  domain : Nat
  keyGen : Nat
  check  : BitVec 64
  deriving DecidableEq, Repr

structure ConfigF where
  credits    : List Nat
  cycleTicks : Nat
  gates      : List GateEntry
  homeDigest : BitVec 128
  domains    : List DomainCheck
  deriving DecidableEq, Repr

/-- The key and content fields of a directory entry that directory messages carry, in the entry's own terms (R61, R256,
"Messages"). -/
structure DirKeyF where
  domain       : Nat
  fingerprint  : BitVec 64
  depth        : Nat
  hash         : BitVec 128
  digest       : BitVec 256
  fmt          : Nat
  parent       : Nat
  parentDepth  : Nat
  holder       : Nat
  publisher    : Nat
  deriving DecidableEq, Repr

/-- The link kinds of R261: Asvis link 0 to 95, CXL port of a cluster, NVMe root port (c, p). -/
inductive PortId where
  | asvis (link : Nat)
  | cxl (cluster : Nat)
  | nvme (cluster p : Nat)
  deriving DecidableEq, Repr

/-- How training of a link or port ended (R261, R405). -/
inductive TrainResult where
  | pass (rate width : Nat) (cxl31 : Bool := true)   -- of a CXL port: whether the other end supports CXL 3.1 (R251)
  | fail
  | crossed
  deriving DecidableEq, Repr

/-- What the duplicated computations of a step find (R175, R339): nothing; two SHA/HMAC engines disagree, with whether each fails its
known-answer test; or the page coder's check decoder disagrees a second time. -/
inductive SelfCheck where
  | pass
  | hash (a b : Nat) (aFails bFails : Bool)
  | coder
  deriving DecidableEq, Repr

/-- A lane fault that training corrects (R405): the physical lane, whether its polarity and whether its place were wrong. -/
structure LaneFix where
  lane     : Nat
  polarity : Bool
  order    : Bool
  deriving DecidableEq, Repr

/-- What the training of a UCIe group tells: the modules repaired, and whether its modules run UCIe 1.1 (R322). -/
structure UcieTrained where
  repaired : List Nat := []
  ucie11   : Bool := false
  deriving DecidableEq, Repr

/-- How a step of securing a link or port ended (R261, R315, R321). -/
inductive SecureResult where
  | more (offersIde : Bool := true)                -- a step is answered, with whether the device offers IDE (R321)
  | authenticated (peerRoot : BitVec 256 := 0)     -- digest of the root of the peer's slot 1 chain, 0 for none (R321)
  | failed
  deriving DecidableEq, Repr

/-! ### The configuration image (16_startup_and_image) -/

structure ModelRec where
  index        : Nat
  layers       : Nat
  kvHeads      : Nat
  headDim      : Nat
  group        : Nat
  blockTokens  : Nat
  kvFormats    : Nat
  walkHorizon  : Nat
  lookahead    : Nat
  fingerprint  : BitVec 64
  curdWindow   : Nat
  curdMembers  : Nat
  curdRows     : Nat
  curdEngines  : Nat
  weightsTier  : Nat
  deriving DecidableEq, Repr

structure DomainRec where
  domain         : Nat
  hashSource     : Nat
  crossTenant    : Bool
  keyGen         : Nat
  publishGrains  : Nat
  idleWithdrawMs : Nat
  tableQuota     : Nat
  hashKey        : BitVec 256   -- K_s, as the island unwraps it (R314)
  deriving DecidableEq, Repr

structure TenantRec where
  tenant      : Nat
  domain      : Nat
  prefixAdmin : Bool
  tableAdmin  : Bool
  t1Region    : Nat
  resvRank    : Nat
  seqQuota    : Nat
  quotaT1     : Nat
  quotaT2     : Nat
  quotaT3     : Nat
  pinT0       : Nat
  pinT1       : Nat
  deriving DecidableEq, Repr

structure FunctionRec where
  fn      : Nat
  enabled : Bool
  group   : Nat
  tenant  : Nat
  deriving DecidableEq, Repr

structure UcieRec where
  group        : Nat
  rateGts      : Nat
  readLatency  : Nat
  spdm         : Bool
  apertureBase : Nat
  deriving DecidableEq, Repr

/-- A flash volume: of a namespace behind a root port, or of a tray (R269). -/
structure VolumeRec where
  index    : Nat
  local_   : Bool
  cluster  : Nat
  port     : Nat
  device   : Nat          -- the tray
  grains   : Nat
  nsid     : Nat := 1
  firstLba : Nat := 0
  volume   : Nat := 0     -- the tray's volume number
  deriving DecidableEq, Repr

/-- A policy rule: its four-unit entry, the care bits, result word, rank (R80, section 0x41). -/
structure PolicyRec where
  tenant : Nat
  rank   : Nat
  value  : Nat
  care   : Nat
  result : Nat
  deriving DecidableEq, Repr

/-- A scheduling queue of R236: its egress point, the function or peer it carries, its class, weight and buckets. -/
structure QueueRec where
  egress  : Nat
  fn      : Nat
  cls     : Nat
  weight  : Nat
  rate    : Nat
  burst   : Nat
  peak    : Nat
  peakB   : Nat
  quantum : Nat
  deriving DecidableEq, Repr

/-- A gate schedule of R242. -/
structure GateRec where
  egress : Nat
  base   : Nat
  cycle  : Nat
  gates  : List GateEntry
  deriving DecidableEq, Repr

structure AccountRec where
  key    : BitVec 256
  role   : Nat
  tenant : Nat
  deriving DecidableEq, Repr

/-- Parameters whose owning chapters state a default (R412, R283 and the others). -/
inductive ParamName where
  | protectedGb | scrubHours | rowCeLimit | rebuildGbps | protectedFillPct | farVersionGrains | t0Grains | t0LowWater | t1LowWater
  | t2LowWater | t2Latency | t3Latency | halfLifeMs | newCount | promoteT1 | demoteT1 | promoteT0 | demoteT0 | wheyMbps | stagingTtlUs
  | weightsCache | importReserve | watchdogMs | aslTimeoutUs | mgmtIdleS | tcpPort | spares
  deriving DecidableEq, Repr

/-- The device parameters (section 0x10 and the parameter entries of the other sections), under their dotted names with
dots read as capitals. Defaults: R93, R99, R167, R257, R283, R291, R292, R297, R298, R340, R349, R380, R412. -/
structure Params where
  protectedGb      : Nat := 18
  scrubHours       : Nat := 24
  rowCeLimit       : Nat := 4
  rebuildGbps      : Nat := 200
  protectedFillPct : Nat := 80
  farVersionGrains : Nat := 2147483648
  t0Grains         : Nat := 8192
  t0LowWater       : Nat := 256
  t1LowWater       : Nat := 65536
  t2LowWater       : Nat := 1048576
  t2Latency        : Nat := 2350
  t3Latency        : Nat := 47000
  directoryEntries : Nat := 65536
  halfLifeMs       : Nat := 100
  newCount         : Nat := 8
  promoteT1        : Nat := 6
  demoteT1         : Nat := 2
  promoteT0        : Nat := 64
  demoteT0         : Nat := 16
  wheyMbps         : Nat := 25600
  stagingTtlUs     : Nat := 50
  weightsCache     : Nat := 16384
  importReserve    : Nat := 1024
  watchdogMs       : Nat := 10000
  aslTimeoutUs     : Nat := 200
  aslRetryMs       : Nat := 1
  leaseMs          : Nat := 1
  evacuateMs       : Nat := 1
  nvmeTimeoutMs    : Nat := 1
  recallUs         : Nat := 10
  mgmtIdleS        : Nat := 300
  i3cStatic        : Nat := 0
  ipv4             : Nat := 0            -- mgmt.ipv4 and its prefix length (R378)
  ipv4Prefix       : Nat := 0
  ipv6             : Nat := 0            -- mgmt.ipv6 and its prefix length
  ipv6Prefix       : Nat := 0
  gateway          : Nat := 0            -- mgmt.gateway
  tcpPort          : Nat := 9608         -- mgmt.tcp_port
  deviceId         : Nat := 0
  members          : Nat := 1
  directBytes      : Nat := 0
  directGroup      : Nat := 0
  directModule     : Nat := 0
  directTenant     : Nat := 0
  metadataGrains   : Nat := 0
  trayNewCount     : Nat := 8
  trayHalfLifeMs   : Nat := 100
  trayPromote      : Nat := 6
  trayWheyClass    : Nat := 7        -- tray.whey_class (log entry 143)
  trayDemote       : Nat := 2
  spares           : List Nat := [1, 16, 1, 1, 1, 2, 1, 1, 1, 1, 1, 4, 1, 1, 1, 1]
  deriving DecidableEq, Repr

/-- The parameters with one field at the default that its owning chapter states (R412; 16, "Parameter entry"). -/
def Params.withDefault (p : Params) (n : ParamName) : Params :=
  let d : Params := {}
  match n with
  | .protectedGb => { p with protectedGb := d.protectedGb }
  | .scrubHours => { p with scrubHours := d.scrubHours }
  | .rowCeLimit => { p with rowCeLimit := d.rowCeLimit }
  | .rebuildGbps => { p with rebuildGbps := d.rebuildGbps }
  | .protectedFillPct => { p with protectedFillPct := d.protectedFillPct }
  | .farVersionGrains => { p with farVersionGrains := d.farVersionGrains }
  | .t0Grains => { p with t0Grains := d.t0Grains }
  | .t0LowWater => { p with t0LowWater := d.t0LowWater }
  | .t1LowWater => { p with t1LowWater := d.t1LowWater }
  | .t2LowWater => { p with t2LowWater := d.t2LowWater }
  | .t2Latency => { p with t2Latency := d.t2Latency }
  | .t3Latency => { p with t3Latency := d.t3Latency }
  | .halfLifeMs => { p with halfLifeMs := d.halfLifeMs }
  | .newCount => { p with newCount := d.newCount }
  | .promoteT1 => { p with promoteT1 := d.promoteT1 }
  | .demoteT1 => { p with demoteT1 := d.demoteT1 }
  | .promoteT0 => { p with promoteT0 := d.promoteT0 }
  | .demoteT0 => { p with demoteT0 := d.demoteT0 }
  | .wheyMbps => { p with wheyMbps := d.wheyMbps }
  | .stagingTtlUs => { p with stagingTtlUs := d.stagingTtlUs }
  | .weightsCache => { p with weightsCache := d.weightsCache }
  | .importReserve => { p with importReserve := d.importReserve }
  | .watchdogMs => { p with watchdogMs := d.watchdogMs }
  | .aslTimeoutUs => { p with aslTimeoutUs := d.aslTimeoutUs }
  | .mgmtIdleS => { p with mgmtIdleS := d.mgmtIdleS }
  | .tcpPort => { p with tcpPort := d.tcpPort }
  | .spares => { p with spares := d.spares }

/-- A configuration image, as its header, sections and signature block spell it. The last five fields say what the
published algorithms (X.509 path validation, RSASSA-PSS, SHA-256, AES Key Wrap) answer on its bits (R360, R314). -/
structure Image where
  headerOk        : Bool
  tray            : Bool
  ownerChange     : Bool
  imageBytes      : Nat
  securityVersion : Nat
  firmware        : Nat
  ownerKey        : BitVec 256
  boundDevice     : BitVec 256
  digest          : BitVec 256
  sections        : List Nat
  params          : Params
  homeTable       : List Nat
  models          : List ModelRec
  domains         : List DomainRec
  tenants         : List TenantRec
  functions       : List FunctionRec
  ucie            : List UcieRec
  weightGrants    : List (Nat × Nat)
  queues          : List QueueRec
  strictModes     : List (Nat × Nat)      -- egress point and sched.egress.mode: 0 strict-plus-weighted, 1 deficit round robin
  strictClasses   : List (Nat × Nat)      -- sched.egress.strict: egress point and class
  gates           : List GateRec
  linkModes       : List Nat              -- link.cluster[c].mode, c from 0 to 23
  volumes         : List VolumeRec
  nvmeIde         : Bool
  arrayBanks      : List Nat              -- array.bank[n].table, n from 0 to 63
  policies        : List PolicyRec
  accounts        : List AccountRec
  ownerChain      : Option (BitVec 256)   -- leaf key digest of identity.owner_chain
  brokerRoot      : BitVec 256
  peerOwnerRoot   : BitVec 256 := 0       -- identity.peer_owner_root, 0 where the image does not set it
  debugKey        : BitVec 256
  trayExtents     : List (Nat × Nat × Bool)   -- tray: base, grains, resident
  trayCxlHosts    : List (Nat × Nat)          -- tray.cxl_port[n].host_id
  chainOk         : Bool
  vendorSigOk     : Bool
  ownerSigOk      : Bool
  sectionDigestsOk : Bool
  unwrapOk        : Bool
  linkClocks      : List Nat := []        -- link.cluster[c].clock, c from 0 to 23 (R398)
  omits           : List ParamName := []  -- parameters with a stated default that the image omits
  deriving DecidableEq, Repr

/-- The image as the controller takes it: a parameter that it omits has its default (R412; 16, "Parameter entry"). -/
def Image.taken (i : Image) : Image := { i with params := i.omits.foldl Params.withDefault i.params }

/-! ### Identity, management and power -/

/-- The transports on which the controller answers SPDM (R315). -/
inductive Transport where
  | mgmt (conn : Nat)
  | i3c
  | asvis (link : Nat)
  | cxl (cluster : Nat)
  | ucie (group : Nat)
  deriving DecidableEq, Repr

/-- SPDM request that the chunks of a large message carry (R315). -/
inductive SpdmRequest where
  | getVersion (versions : Nat)
  | getCapabilities
  | negotiateAlgorithms (supported : Bool)
  | getDigests
  | getCertificate (slot : Nat)
  | challenge (slot : Nat) (nonce : BitVec 256)
  | getMeasurements (index : Nat) (nonce : BitVec 256)
  | keyExchange (supported : Bool)
  | finish (verified : Bool) (requesterRoot : BitVec 256)
  | heartbeat
  | keyUpdate
  | endSession
  | modelKeyDeliver (fingerprint : BitVec 64) (key : BitVec 256) (keyCheck : BitVec 64)
  | modelKeyWithdraw (fingerprint : BitVec 64)
  | other (code : Nat)
  deriving DecidableEq, Repr

/-- What a region command names, and whose command it is (R273): one of a CXL host's mailbox, or of the operator on a management connection.
-/
structure RegionScope where
  domain : Nat
  conn   : Option Nat := none
  deriving DecidableEq, Repr

/-- Whether a chunk is the last of its large message, with the request that the message then is. -/
inductive ChunkEnd where
  | more
  | last (m : SpdmRequest)
  deriving DecidableEq, Repr

/-- A debug unlock token; `ownerSigOk` and `vendorSigOk` say what RSASSA-PSS verification answers (R334, R335). -/
structure Token where
  layout      : Nat
  scope       : Nat
  device      : BitVec 256
  nonce       : BitVec 256
  ownerSigOk  : Bool
  vendorSigOk : Bool
  deriving DecidableEq, Repr

/-- A header of a sealed weight image (14_identity_and_tenants). -/
structure SealedHeader where
  layout      : Nat
  fingerprint : BitVec 64
  serial      : Nat
  chunks      : Nat
  plainBytes  : Nat
  keyCheck    : BitVec 64
  deriving DecidableEq, Repr

/-- What a stack line read answers (R289). -/
inductive LineResult where
  | clean
  | one
  | few                 -- 2 or 3 symbols corrected
  | uncorrectable (reconstructs : Bool)
  deriving DecidableEq, Repr

/-- What a read of stored data finds on its way: a line with errors (R289); a stack sector that fails its tag and is repaired from a second
read or from parity, or not (R304); a shelf grain that cannot be read (R304, R343); a cipher lane that fails where another passes (R346); or
a read of a request that is refused: its two paths differ in owner or slot (R303), or its consumer finds another echo or CRC-32C than it
asked for (R304). -/
inductive ReadFault where
  | line (stack row sector : Nat) (r : LineResult)
  | tag (stack row : Nat) (repaired : Bool) (sector : Nat := 0)
  | shelf (grain : Nat)
  | lane (unit lane : Nat)
  | refused (req : Nat) (echo : Bool)
  deriving DecidableEq, Repr

/-- A PAGE_GET frame, with what the read that it asks for finds (R304, R338). -/
structure PageRead where
  fr    : Frame
  found : List ReadFault := []
  deriving DecidableEq, Repr

/-- The proxy whose copy is verified, with what its page reads and the two engines of its digest find (R338, R339). -/
structure CopyCheck where
  slot  : Nat
  found : List ReadFault := []
  check : SelfCheck := .pass
  deriving DecidableEq, Repr

/-- The image in a TABLE_DATA, with what the two engines of its digest find (R339). -/
structure TableImage where
  bytes : Bytes
  check : SelfCheck := .pass
  deriving DecidableEq, Repr

/-- The request whose entry the watchdog looks at, with the bits of the completion writer's copy that a fault has changed since (R340). -/
structure Expiry where
  req   : Nat
  upset : Nat := 0
  deriving DecidableEq, Repr

/-- Why a full reset begins (R356). -/
inductive ResetCause where
  | powerOn
  | resetN
  | command
  deriving DecidableEq, Repr

/-- One sensor pair reading, in degrees Celsius (R401, R403). -/
structure PairReading where
  a : Nat
  b : Nat
  deriving DecidableEq, Repr

/-- A row of an associative-array bank found different from its shadow (R89). -/
structure RowMismatch where
  bank       : Nat
  row        : Nat
  again      : Bool     -- it mismatches again after the rewrite
  bothShadow : Bool     -- both mirrors of the shadow row fail their check
  oneShadow  : Bool := false                  -- one mirror fails it
  upset      : Option (Nat × Nat) := none     -- key and care bits that the row takes after this comparison (log entry 121)
  deriving DecidableEq, Repr

/-- A client asks for a connection: the TCP port it names and how its TLS handshake ends (R378, R379). -/
structure Handshake where
  port  : Nat
  tlsOk : Bool
  deriving DecidableEq, Repr

/-- The commands of the block: one constructor per row of spec/opcode_table.json, in the table's order. -/
inductive Instr where
  | attachFunction (sub : Sub) (f : AttachFnF)
  | detachFunction (sub : Sub) (mode : Nat)
  | fence (sub : Sub) (f : FenceF)
  | openSequence (sub : Sub) (f : OpenF)
  | closeSequence (sub : Sub) (seq : Nat)
  | forkSequence (sub : Sub) (f : ForkF)
  | editBlocksTruncate (sub : Sub) (f : BlocksF)
  | editBlocksReplace (sub : Sub) (f : BlocksF)
  | appendBlocks (sub : Sub) (f : BlocksF)
  | sequenceCommit (req : Nat)
  | pinAfterWait (req : Nat)
  | pinRange (sub : Sub) (f : RangeF)
  | unpinRange (sub : Sub) (f : RangeF)
  | lookupPrefixHashForm (sub : Sub) (f : LookupHashF)
  | lookupPrefixTokenForm (sub : Sub) (f : LookupTokenF)
  | lookupPrefixFlowForm (sub : Sub) (f : LookupFlowF)
  | attachPrefix (sub : Sub) (f : AttachPrefixF)
  | publishPrefix (sub : Sub) (f : PublishF)
  | readAndRekeyEnd (req : Nat) (found : List ReadFault) (check : SelfCheck)
  | withdrawPrefix (sub : Sub) (handle : Nat)
  | fetchPages (sub : Sub) (f : FetchF)
  | prefetchHint (sub : Sub) (f : RangeF)
  | attend (sub : Sub) (f : AttendF)
  | loadTableLoad (sub : Sub) (f : LoadTableF)
  | loadTableSelect (sub : Sub) (f : LoadTableF)
  | loadTableExport (sub : Sub) (f : LoadTableF)
  | retireTable (sub : Sub) (f : RetireF)
  | fill (sub : Sub) (f : FillF)
  | copy (sub : Sub) (f : TwoOpF)
  | compare (sub : Sub) (f : TwoOpF)
  | reduceSum (sub : Sub) (f : ReduceF)
  | reduceMax (sub : Sub) (f : ReduceF)
  | lseMerge (sub : Sub) (f : ReduceF)
  | fetchWeights (sub : Sub) (f : WeightsF)
  | unknownOpcode (sub : Sub) (opcode : Nat)
  | abortByTag (group fn abortSeq tag : Nat)
  | abortBySeqRange (group fn abortSeq first count : Nat)
  | abortAll (group fn abortSeq : Nat)
  | apertureWrite (group fn offset : Nat) (data : Bytes)
  | drainGraceEnd (fn : Nat)
  | shutdownEnd (fn : Nat)
  | fenceComplete (req : Nat)
  | curdOffer (req part : Nat)
  | curdWindowEnd (curd : Nat)
  | queryBlockArrival (req : Nat) (ok : Bool) (data : Bytes)
  | walkBlock (pass : Nat) (found : List ReadFault)
  | partEnd (req part : Nat)
  | curdPassEnd (curd : Nat)
  | passYield (pass : Nat)
  | passResume (pass slot : Nat) (found : List ReadFault)
  | prefetchArrival (req part block layer : Nat) (ok : Bool)
  | stagingTtlEnd (copy : Nat)
  | tierMoveEnd (move : Nat) (sourceOk : Bool)
  | pinRelease (index version : Nat)
  | ripeningSweep (weight : Bool) (rec layer : Nat)
  | deadlineReached (req : Nat)
  | shadowCompare (found : List RowMismatch)
  | bankRebuildEnd (bank : Nat)
  | holeRemoval (table : Nat)
  | idleWithdraw (slot : Nat)
  | copyVerify (copy : CopyCheck)
  | decodeRecheck (rec layer : Nat) (decodes : Bool)
  | memberUnreachable (device : Nat)
  | hello (link : Nat) (f : HelloF)
  | spdmFrame (link : Nat) (r : SecureResult)
  | config (link : Nat) (fr : Frame) (f : ConfigF)
  | keepalive (link : Nat) (fr : Frame)
  | keepaliveInterval (link : Nat)
  | keepaliveTimeout (link : Nat)
  | credit (link : Nat) (fr : Frame)
  | replay (link : Nat) (fr : Frame)
  | epoch (link : Nat) (fr : Frame)
  | pageGet (link : Nat) (rd : PageRead)
  | pageData (link : Nat) (fr : Frame) (data : Bytes)
  | pagePut (link : Nat) (fr : Frame) (data : Bytes)
  | putDone (link : Nat) (fr : Frame)
  | tableGet (link : Nat) (fr : Frame)
  | tableData (link : Nat) (fr : Frame) (image : TableImage)
  | dirPublish (link : Nat) (fr : Frame) (k : DirKeyF)
  | dirLookup (link : Nat) (fr : Frame) (fingerprint : BitVec 64) (pairs : List PairF)
  | dirAttach (link : Nat) (fr : Frame)
  | dirRelease (link : Nat) (fr : Frame)
  | dirWithdrawn (link : Nat) (fr : Frame) (prefixAdmin : Bool)
  | withdrawNotice (link : Nat) (fr : Frame)
  | dirAnswer (link : Nat) (fr : Frame) (k : DirKeyF)
  | aslResponseTimeout (xid : Nat)
  | extentOffer (link : Nat) (fr : Frame)
  | extentClaim (link : Nat) (fr : Frame)
  | extentRelease (link : Nat) (fr : Frame)
  | extentDone (link : Nat) (fr : Frame)
  | addCapacity (cluster tag base grains : Nat)
  | releaseCapacity (cluster tag : Nat)
  | forcedCapacityRelease (cluster tag : Nat)
  | evacuateTimeout (extent : Nat)
  | drainTimeout (extent : Nat)
  | drainEnd (extent : Nat)
  | extentSweepEnd (extent : Nat)
  | regionRead (link : Nat) (fr : Frame) (length : Nat)
  | regionWrite (link : Nat) (fr : Frame) (data : Bytes)
  | regionRecall (link : Nat) (fr : Frame)
  | recallDone (link : Nat) (fr : Frame)
  | recallTimeout (region version host : Nat)
  | nmo (link : Nat) (fr : Frame) (op : Desc)
  | nmoDone (link : Nat) (fr : Frame)
  | regionOpen (host : Nat) (domain : RegionScope) (region version grains : Nat)
  | regionGrant (domain : RegionScope) (region version host : Nat)
  | regionPublish (host : Nat) (domain : RegionScope) (region version : Nat) (check : SelfCheck)
  | regionWithdraw (domain : RegionScope) (region version : Nat)
  | regionRelease (domain : RegionScope) (region version host : Nat)
  | destage (object : Nat)
  | traySsdFailure (pair : Bool) (group ssd : Nat)
  | cxlMemRead (line : Nat) (checkOk viral : Bool)
  | cxlMemWrite (line : Nat) (data : Bytes)
  | nvmeCommandCompletion (cluster p command : Nat) (error : Bool)
  | nvmeCommandTimeout (cluster p command : Nat)
  | nvmeResetEnd (cluster p : Nat) (ok : Bool)
  | linkTrainingEnd (port : PortId) (r : TrainResult) (retired : List (Nat × Nat)) (corrected : List LaneFix)
  | laneFailure (cluster lane : Nat)
  | retryIntervalEnd (port : PortId)
  | patrolScrub (stack grain sector : Nat) (r : LineResult)
  | refresh (stack tempC : Nat)
  | stackLost (stack : Nat)
  | evacuationEnd (pgroup : Nat)
  | rebuildMetadataEnd (pgroup : Nat)
  | engineFault (cluster slot check : Nat)
  | engineRemapped (cluster slot : Nat) (clean : Bool)
  | shelfBankFault (bank : Nat) (badGrains : List Nat)
  | shelfBankRemapped (bank : Nat)
  | controlCheckpoint (pair : Nat)
  | controlPairFault (pair : Nat)
  | controlPairTakeover (partition : Nat)
  | keyBankReplaced (bank : Nat)
  | keyBankCopyEnd (bank : Nat)
  | aesKnownAnswerTest (unit : Nat) (failed : List Nat)
  | deadlineMonitorFault
  | watchdogExpiry (x : Expiry)
  | arbiterFault (arbiter block : Nat)
  | ucieModuleLoss (group module : Nat)
  | eventRecordWrite
  | drbgHealthFailure
  | tenantRemove (conn tenant : Nat)
  | tenantRemovalDrained (tenant : Nat)
  | tenantRemoved (tenant : Nat)
  | reclaimSweepEnd (tenant : Nat)
  | tenantRestore (conn tenant : Nat)
  | debugNonce (conn : Nat)
  | nonceLapse
  | debugUnlock (conn : Nat) (t : Token)
  | deviceBrine (conn : Nat)
  | getVersion (t : Transport) (versions : Nat)
  | getCapabilities (t : Transport)
  | negotiateAlgorithms (t : Transport) (supported : Bool)
  | getDigests (t : Transport)
  | getCertificate (t : Transport) (slot : Nat)
  | challenge (t : Transport) (slot : Nat) (nonce : BitVec 256)
  | getMeasurements (t : Transport) (index : Nat) (nonce : BitVec 256)
  | keyExchange (t : Transport) (supported : Bool)
  | finish (t : Transport) (verified : Bool) (requesterRoot : BitVec 256)
  | heartbeat (t : Transport)
  | keyUpdate (t : Transport)
  | endSession (t : Transport)
  | chunkSend (t : Transport) (data : Bytes) (last : ChunkEnd)
  | chunkGet (t : Transport) (index : Nat)
  | modelKeyDeliver (conn : Nat) (fingerprint : BitVec 64) (key : BitVec 256) (keyCheck : BitVec 64)
  | modelKeyWithdraw (conn : Nat) (fingerprint : BitVec 64)
  | fullReset (cause : ResetCause)
  | imageCheckEnd (identityOk : Bool) (image : Option Image)
  | hbmTrainingEnd (failed : List Nat) (weakRows : List Nat)
  | memorySetupEnd
  | trialTimeout
  | statusRead (conn : Nat)
  | telemetryRead (conn group inst : Nat)
  | eventRead (conn first count : Nat)
  | traceRead (conn fn : Nat)
  | imageUpload (conn offset length : Nat) (image : Image)
  | imageActivate (conn : Nat)
  | imageCancel (conn : Nat)
  | resetFull (conn : Nat)
  | resetPartialFunction (conn fn : Nat)
  | resetPartialModuleGroup (conn group : Nat)
  | resetPartialLinkCluster (conn cluster : Nat)
  | resetPartialEngineCluster (conn cluster : Nat)
  | moduleGroupLinkLoss (group : Nat)
  | linkHold (conn : Nat) (port : PortId)
  | linkRelease (conn : Nat) (port : PortId)
  | weightsLoad (conn model : Nat) (h : SealedHeader)
  | volumeRelease (conn volume : Nat)
  | mgmtConnection (tls : Handshake) (certKey : Option (BitVec 256)) (ownerChained : Bool)
  | mgmtIdleTimeout (conn : Nat)
  | entdaa (address : Nat)
  | setdasa (static address : Nat)
  | timePageUpdate
  | thymeWheelTick (egress : Nat)
  | gateEntryBoundary (egress : Nat)
  | queueSample
  | thermalSample (pairs : List PairReading) (stackTemps : List Nat)
  | railFault (rail : Nat)
  | vddAonLow
  | avsRetry (acknowledged : Bool)
  | clockMonitorWindow (priEdges secEdges : Nat)
  | refclkSwitchover
  | holdoverExpiry
  | hbmRefclkMissing (stack : Nat)
  | linkRefclkMissing (cluster : Nat)
  | laneShort (cluster lane : Nat)
  | curdLatestClose (curd : Nat)
  | dmaTransferEnd (req : Nat) (ok : Bool) (found : List ReadFault) (check : SelfCheck) (data : Bytes)
  | tierMoveStart
  | cxlMemResponse (cluster read : Nat) (ok : Bool)
  | doeResponse (port : PortId) (r : SecureResult)
  | surpriseDown (port : PortId)
  | resetNRelease (priPresent secPresent : Bool)
  | refreshManagementRequest (stack : Nat)
  | mgmtConnectionClose (conn : Nat)
  | mgmtUnknownCommand (conn kind command bodyBytes : Nat)
  | spdmUnsupportedRequest (t : Transport) (code : Nat)
  | arrayBankFault (bank : Nat)
  | drbgRetestPass
  | ucieLaneRepair (group module : Nat)
  | ucieTrainingEnd (group : Nat) (repaired : UcieTrained) (corrected : List (Nat × LaneFix))
  | metadataPairRebuildEnd
  | backInvalidateResponse (host region version : Nat) (dirty : List (Nat × Bytes))
  | poolCxlMemAccess (host region version line : Nat) (write : Option Bytes)
  | partialResetEnd (domain inst : Nat)
  deriving DecidableEq, Repr

end Sys2Proof
end

