-- ==== Sys2Proof/Decode.lean ====
section
/-! DEFINITION. The block decodes no words: spec/opcode_table.json gives no row bits, so no word spells a command. -/

namespace Sys2Proof

/-- The command that a word spells by the table's bits: none, since the table gives no row bits. -/
def decodeTableWord (nbits w : Nat) : Option Instr :=
  match nbits, w with
  | _, _ => none

end Sys2Proof
end

