-- ==== Sys2Proof/Config.lean ====
section
/-! DEFINITION. The free values: what the manual leaves open, and what an implementation fixes outside it. Each is an
opaque constant, so no proof can see which value it takes; the log entries named say where it is used. -/

namespace Sys2Proof

/-- Free choice of the bits of exp2_e inside R130's limit, by argument (log entry 10). -/
opaque Config.exp2Slack : BitVec 32 → Nat

/-- Free choice of the bits of tanh_e inside R130's limit, by argument (log entry 10). -/
opaque Config.tanhSlack : BitVec 32 → Nat

/-- Outputs of the island's DRBG, in draw order (R310; log entry 11). -/
opaque Config.drbg : Nat → BitVec 256

/-- SHA-256 digest of this device's identity public key (R307, R308; log entry 11). -/
opaque Config.deviceDigest : BitVec 256

/-- A signature by the device identity key over the given words (R315; log entry 11). -/
opaque Config.sign : List Nat → BitVec 3072

/-- AES-256-GCM: ciphertext and tag of (key, IV, additional data, plaintext) (R325; log entry 11). -/
opaque Config.aesGcm : BitVec 256 → BitVec 96 → Bytes → Bytes → Bytes × BitVec 128

/-- AES-256-GCM decryption: the plaintext of (key, IV, additional data, ciphertext, tag), none where the tag fails (R323; log entry 11). -/
opaque Config.aesGcmOpen : BitVec 256 → BitVec 96 → Bytes → Bytes → BitVec 128 → Option Bytes

/-- AES-256-XTS of one data unit under (key 1, key 2, tweak) (IEEE 1619, R300; log entry 11). -/
opaque Config.aesXts : BitVec 256 → BitVec 256 → BitVec 128 → Bytes → Bytes

/-- GMAC under (key, IV) over a ciphertext, 16 bytes in output order (NIST SP 800-38D, R300; log entry 11). -/
opaque Config.gmac : BitVec 256 → BitVec 96 → Bytes → Bytes

/-- The seven check symbols of a stored line: of its 64 bytes and its tag byte (R289; log entry 11: the manual gives no generator). -/
opaque Config.rsSymbols : Bytes → Bytes

/-- Application secret of an SPDM session in one direction, by session number: false the request's, true the response's (R311, R321;
log entry 11). -/
opaque Config.sessionSecret : Nat → Bool → BitVec 256

/-- A chunk of a sealed weight image as its file holds it, by image_serial and chunk: ciphertext and tag (R323; log entry 11). -/
opaque Config.sealedChunk : Nat → Nat → Bytes × BitVec 128

/-- Measurement block digests of the boot ROM and of the firmware that an image carries, by image digest and block (R316; log
entry 12). -/
opaque Config.measurement : BitVec 256 → Nat → BitVec 256

/-- Certificate chain of SPDM slot 0, which the flash carries (R309; log entry 12). -/
opaque Config.certChain : Bytes

/-- Certificate chain of SPDM slot 1, identity.owner_chain of the image with the digest named (R309; log entry 12). -/
opaque Config.ownerChain : BitVec 256 → Bytes

/-- Bytes of one SPDM chunk (R315; log entry 12). -/
opaque Config.chunkBytes : Nat

/-- Silicon stepping (R178; log entry 12). -/
opaque Config.stepping : Nat

/-- Chunks that a sealed weight image may take of a home tier's allotment (14, "Sealed weight header"; log entry 12). -/
opaque Config.weightChunks : Nat → Nat

/-- Tile power in watts, by draw (R383's status block; log entry 12). -/
opaque Config.powerW : Nat → Nat

/-- The calibrated VDD_CORE point in millivolts for a die temperature, before R392's limits (log entry 12). -/
opaque Config.coreMv : Nat → Nat

/-- Repair rows that a stack reports for the bank of a row to be repaired, by draw (R292, R349; log entry 12). -/
opaque Config.rowRepairs : Nat → Nat

/-- The lane-repair scheme's redundant lanes per UCIe module (R348, R349; log entry 12). -/
opaque Config.ucieSpareLanes : Nat

/-- Data bytes of an LBA of the namespace behind a local flash volume, by volume; 0 for a format with metadata (R269; log entry 12). -/
opaque Config.lbaBytes : Nat → Nat

/-- Chain hash of an inner block of a prefix whose records stand on another device, by handle and block: the manual gives a device no
way to learn it (R43, R44, R191; log entry 91). -/
opaque Config.remoteHash : Nat → Nat → BitVec 128

/-- Where the controller puts a piece of metadata in the protected region, by the piece's number (R25; log entry 85). -/
opaque Config.metaPlace : Nat → Nat

/-- Page of the metadata space from which a table of equal records runs, by the table's number (R25, R284; log entry 85). -/
opaque Config.metaTable : Nat → Nat

/-- Tray on which a shared region lies, by region id: the manual gives a cache-role controller no way to tell it (R272, R280; log entry
129). -/
opaque Config.regionTray : Nat → Nat

/-- A free byte, by draw: bytes the manual leaves undefined (log entry 13). -/
opaque Config.freeByte : Nat → Byte

/-- A free number, by draw: a choice among several the manual leaves open (log entry 13). -/
opaque Config.freeNat : Nat → Nat

end Sys2Proof
end

