-- ==== Sys2Proof/Machine/Crypto.lean ====
section
/-! DEFINITION. The published functions the chapters name: SHA-256 (FIPS 180-4), HMAC-SHA-256 (FIPS 198-1, RFC 2104) and
CRC-32C (Castagnoli). Log entry 14 marks them as taken from their own standards. -/

namespace Sys2Proof.Machine

/-- The 64 round constants of SHA-256 (FIPS 180-4, 4.2.2). -/
def sha256K : List (BitVec 32) :=
  [0x428a2f98, 0x71374491, 0xb5c0fbcf, 0xe9b5dba5, 0x3956c25b, 0x59f111f1, 0x923f82a4, 0xab1c5ed5] ++
  [0xd807aa98, 0x12835b01, 0x243185be, 0x550c7dc3, 0x72be5d74, 0x80deb1fe, 0x9bdc06a7, 0xc19bf174] ++
  [0xe49b69c1, 0xefbe4786, 0x0fc19dc6, 0x240ca1cc, 0x2de92c6f, 0x4a7484aa, 0x5cb0a9dc, 0x76f988da] ++
  [0x983e5152, 0xa831c66d, 0xb00327c8, 0xbf597fc7, 0xc6e00bf3, 0xd5a79147, 0x06ca6351, 0x14292967] ++
  [0x27b70a85, 0x2e1b2138, 0x4d2c6dfc, 0x53380d13, 0x650a7354, 0x766a0abb, 0x81c2c92e, 0x92722c85] ++
  [0xa2bfe8a1, 0xa81a664b, 0xc24b8b70, 0xc76c51a3, 0xd192e819, 0xd6990624, 0xf40e3585, 0x106aa070] ++
  [0x19a4c116, 0x1e376c08, 0x2748774c, 0x34b0bcb5, 0x391c0cb3, 0x4ed8aa4a, 0x5b9cca4f, 0x682e6ff3] ++
  [0x748f82ee, 0x78a5636f, 0x84c87814, 0x8cc70208, 0x90befffa, 0xa4506ceb, 0xbef9a3f7, 0xc67178f2]

/-- The initial hash value of SHA-256 (FIPS 180-4, 5.3.3). -/
def sha256Init : List (BitVec 32) :=
  [0x6a09e667, 0xbb67ae85, 0x3c6ef372, 0xa54ff53a, 0x510e527f, 0x9b05688c, 0x1f83d9ab, 0x5be0cd19]

/-- Big-endian bytes of a number. -/
def beBytes (n v : Nat) : Bytes := (leBytes n v).reverse

/-- The number that a big-endian byte string spells. -/
def ofBeBytes (b : Bytes) : Nat := ofLeBytes b.reverse

/-- Cut a byte string into pieces of `n` bytes; `fuel` bounds the pieces. -/
def chunksOf (n : Nat) : Nat → Bytes → List Bytes
  | 0, _ => []
  | fuel + 1, b => if b.isEmpty then [] else b.take n :: chunksOf n fuel (b.drop n)

/-- Padding of FIPS 180-4, 5.1.1. -/
def sha256Pad (m : Bytes) : Bytes :=
  m ++ [0x80] ++ List.replicate ((119 - m.length % 64) % 64) 0 ++ beBytes 8 (8 * m.length)

/-- The message schedule, newest word first: each new word from the 16 before it. -/
def sha256Schedule : Nat → List (BitVec 32) → List (BitVec 32)
  | 0, w => w
  | n + 1, w =>
    let g (i : Nat) : BitVec 32 := w.getD i 0
    let s0 := (g 14).rotateRight 7 ^^^ (g 14).rotateRight 18 ^^^ (g 14) >>> 3
    let s1 := (g 1).rotateRight 17 ^^^ (g 1).rotateRight 19 ^^^ (g 1) >>> 10
    sha256Schedule n ((g 15 + s0 + g 6 + s1) :: w)

def sha256Round (h : List (BitVec 32)) (kw : BitVec 32) : List (BitVec 32) :=
  match h with
  | [a, b, c, d, e, f, g, i] =>
    let s1 := e.rotateRight 6 ^^^ e.rotateRight 11 ^^^ e.rotateRight 25
    let t1 := i + s1 + ((e &&& f) ^^^ (~~~e &&& g)) + kw
    let s0 := a.rotateRight 2 ^^^ a.rotateRight 13 ^^^ a.rotateRight 22
    let t2 := s0 + ((a &&& b) ^^^ (a &&& c) ^^^ (b &&& c))
    [t1 + t2, a, b, c, d + t1, e, f, g]
  | _ => h

def sha256Block (h : List (BitVec 32)) (b : Bytes) : List (BitVec 32) :=
  let w0 := (chunksOf 4 16 b).map fun x => BitVec.ofNat 32 (ofBeBytes x)
  let w := (sha256Schedule 48 w0.reverse).reverse
  let h' := (List.zipWith (· + ·) sha256K w).foldl sha256Round h
  List.zipWith (· + ·) h h'

/-- SHA-256, its 32 bytes in output order. -/
def sha256 (m : Bytes) : Bytes :=
  let p := sha256Pad m
  ((chunksOf 64 (p.length / 64) p).foldl sha256Block sha256Init).flatMap fun w => beBytes 4 w.toNat

/-- HMAC-SHA-256 with a key of at most 64 bytes. -/
def hmac (key m : Bytes) : Bytes :=
  let k := key ++ List.replicate (64 - key.length) 0
  sha256 (k.map (· ^^^ 0x5c) ++ sha256 (k.map (· ^^^ 0x36) ++ m))

/-- Bytes of an ASCII label. -/
def asciiBytes (s : String) : Bytes := s.toList.map fun c => BitVec.ofNat 8 c.toNat

/-- HKDF-Expand with SHA-256 (RFC 5869) of a secret under a label and context: the first `n` bytes of its first block, `n` at most 32. -/
def hkdfExpand (secret : BitVec 256) (name : String) (context : Bytes := []) (n : Nat := 32) : Bytes :=
  (hmac (leBytes 32 secret.toNat) (asciiBytes name ++ context ++ [1])).take n

/-- A key that HKDF-Expand gives. -/
def hkdfKey (secret : BitVec 256) (name : String) (context : Bytes := []) : BitVec 256 :=
  BitVec.ofNat 256 (ofLeBytes (hkdfExpand secret name context))

/-- A session secret after `n` SPDM key updates (DSP0277; log entry 14). -/
def updatedSecret : Nat → BitVec 256 → BitVec 256
  | 0, k => k
  | n + 1, k => updatedSecret n (hkdfKey k "traffic upd")

/-- The CRC-32C remainder after one more byte (reflected polynomial 0x82F6_3B78). -/
def crcByte (c : BitVec 32) (b : Byte) : BitVec 32 :=
  (List.range 8).foldl (fun c _ => if c &&& 1 = 1 then (c >>> 1) ^^^ 0x82f63b78 else c >>> 1)
    (c ^^^ b.setWidth 32)

/-- CRC-32C (Castagnoli), as R162 and the record checks use it. -/
def crc32c (m : Bytes) : BitVec 32 := ~~~ (m.foldl crcByte 0xffffffff)

/-- T(x) of R43: the first 16 bytes of an HMAC value, kept as the record's 128-bit field (byte 0 in [7:0]). -/
def hashT (h : Bytes) : BitVec 128 := BitVec.ofNat 128 (ofLeBytes (h.take 16))

/-- The 16 bytes of a chain hash in output order. -/
def hashBytes (h : BitVec 128) : Bytes := leBytes 16 h.toNat

/-- H_0 = T(HMAC(K_s, F)) (R43). -/
def chainHash0 (key : BitVec 256) (fingerprint : BitVec 64) : BitVec 128 :=
  hashT (hmac (leBytes 32 key.toNat) (leBytes 8 fingerprint.toNat))

/-- H_k from H_(k-1) and the block's token identifiers (R43). -/
def chainHashNext (key : BitVec 256) (prev : BitVec 128) (tokens : List Nat) : BitVec 128 :=
  hashT (hmac (leBytes 32 key.toNat) (hashBytes prev ++ tokens.flatMap (leBytes 4)))

/-- A 256-bit digest as the record's field (byte 0 in [7:0]). -/
def digest256 (m : Bytes) : BitVec 256 := BitVec.ofNat 256 (ofLeBytes (sha256 m))

/-- The key check value of R252: the first 8 bytes of HMAC(K_s, "KT-KEYCHECK"). -/
def keyCheckValue (key : BitVec 256) : BitVec 64 :=
  BitVec.ofNat 64 (ofLeBytes ((hmac (leBytes 32 key.toNat)
    (asciiBytes "KT-KEYCHECK")).take 8))

/-- key_check of a model key: the first 8 bytes of HMAC(model key, "KT-MODELCHECK") (R323, R324). -/
def modelKeyCheck (key : BitVec 256) : BitVec 64 :=
  BitVec.ofNat 64 (ofLeBytes ((hmac (leBytes 32 key.toNat)
    (asciiBytes "KT-MODELCHECK")).take 8))

end Sys2Proof.Machine
end

