-- ==== Sys2Proof/Machine/Float.lean ====
section
/-! DEFINITION. The exact arithmetic of 06_near_cache_attention: element formats (R119, R120), exact products and sums with
one rounding (R121), FP32 rounding to nearest even, and the functions exp2_e and tanh_e inside the limits of R130. -/

namespace Sys2Proof.Machine

/-- An exact value: m × 2^e, an infinity, or NaN. -/
inductive Ex where
  | nan
  | inf (neg : Bool)
  | num (m e : Int)
  deriving DecidableEq, Repr

def Ex.zero : Ex := .num 0 0

def Ex.neg : Ex → Ex
  | .nan => .nan
  | .inf s => .inf !s
  | .num m e => .num (-m) e

/-- Exact product; zero times infinity is NaN. -/
def Ex.mul : Ex → Ex → Ex
  | .num m e, .num n f => .num (m * n) (e + f)
  | .inf s, .inf t => .inf (s != t)
  | .inf s, .num m _ => if m = 0 then .nan else .inf (s != decide (m < 0))
  | .num m _, .inf s => if m = 0 then .nan else .inf (s != decide (m < 0))
  | _, _ => .nan

/-- Exact sum; opposite infinities give NaN. -/
def Ex.add : Ex → Ex → Ex
  | .num m e, .num n f =>
    if e ≤ f then .num (m + n * 2 ^ (f - e).toNat) e else .num (m * 2 ^ (e - f).toNat + n) f
  | .inf s, .inf t => if s = t then .inf s else .nan
  | .inf s, .num _ _ => .inf s
  | .num _ _, .inf s => .inf s
  | _, _ => .nan

def Ex.sum (l : List Ex) : Ex := l.foldl Ex.add .zero

/-- Strict order of values; false when either side is NaN. -/
def Ex.lt : Ex → Ex → Bool
  | .num m e, .num n f =>
    if e ≤ f then decide (m < n * 2 ^ (f - e).toNat) else decide (m * 2 ^ (e - f).toNat < n)
  | .inf true, .num _ _ => true
  | .num _ _, .inf false => true
  | .inf true, .inf false => true
  | _, _ => false

/-- A binary format: mantissa bits, exponent of the least subnormal unit, and the largest exponent field. -/
structure Fmt where
  mant : Nat
  emin : Int
  top  : Nat
  deriving DecidableEq, Repr

def fmtF32 : Fmt := { mant := 23, emin := -149, top := 255 }
def fmtBF16 : Fmt := { mant := 7, emin := -133, top := 255 }
def fmtF16 : Fmt := { mant := 10, emin := -24, top := 31 }
def fmtE4M3 : Fmt := { mant := 3, emin := -9, top := 16 }
def fmtE2M1 : Fmt := { mant := 1, emin := -1, top := 4 }

/-- Round a × 2^e to nearest, ties to even, in a format: the significand and the exponent of its unit. -/
def roundMag (f : Fmt) (a : Nat) (e : Int) : Nat × Int :=
  let q := max ((Nat.log2 a : Int) + e - f.mant) f.emin
  if q ≤ e then (a * 2 ^ (e - q).toNat, q)
  else
    let s := (q - e).toNat
    let r := a / 2 ^ s
    let rem := a % 2 ^ s
    let half := 2 ^ (s - 1)
    (if rem > half || (rem == half && r % 2 == 1) then r + 1 else r, q)

/-- Exponent field and mantissa field of a rounded magnitude (fields run together, as the formats pack them). -/
def packMag (f : Fmt) (r : Nat) (q : Int) : Nat :=
  if r < 2 ^ f.mant then r
  else if r = 2 ^ (f.mant + 1) then ((q - f.emin).toNat + 2) * 2 ^ f.mant
  else ((q - f.emin).toNat + 1) * 2 ^ f.mant + (r - 2 ^ f.mant)

def signBit (m : Int) (w : Nat) : Nat := if m < 0 then 2 ^ w else 0

/-- RN into FP32 bits: overflow gives infinity, NaN is 0x7FC0_0000. -/
def rn32 : Ex → BitVec 32
  | .nan => 0x7fc00000
  | .inf s => if s then 0xff800000 else 0x7f800000
  | .num m e =>
    if m = 0 then 0 else
    let (r, q) := roundMag fmtF32 m.natAbs e
    let p := packMag fmtF32 r q
    BitVec.ofNat 32 (signBit m 31 + min p (255 * 2 ^ 23))

/-- Value of an IEEE-style word: `w` mantissa bits, `x` exponent bits, infinities and NaNs in the top exponent. -/
def ieeeEx (mant expb : Nat) (emin : Int) (v : Nat) : Ex :=
  let s := bit v (mant + expb)
  let x := bits v mant expb
  let m := bits v 0 mant
  if x = 2 ^ expb - 1 then (if m = 0 then .inf s else .nan)
  else
    let mag : Int := if x = 0 then m else (m + 2 ^ mant : Nat)
    .num (if s then -mag else mag) (if x = 0 then emin else emin + (x : Int) - 1)

/-- Value of FP32 bits. -/
def exF32 (b : BitVec 32) : Ex := ieeeEx 23 8 (-149) b.toNat

/-- Value of a format without infinities whose all-ones magnitude is NaN when `nanTop` is set. -/
def finiteEx (mant expb : Nat) (emin : Int) (nanTop : Bool) (v : Nat) : Ex :=
  let s := bit v (mant + expb)
  let x := bits v mant expb
  let m := bits v 0 mant
  if nanTop && x == 2 ^ expb - 1 && m == 2 ^ mant - 1 then .nan
  else
    let mag : Int := if x = 0 then m else (m + 2 ^ mant : Nat)
    .num (if s then -mag else mag) (if x = 0 then emin else emin + (x : Int) - 1)

/-- Two's complement integer of `w` bits. -/
def intEx (w v : Nat) : Ex := .num (if bit v (w - 1) then (v : Int) - 2 ^ w else v) 0

/-- Element value by storage format (R119). -/
def elemEx (fmt v : Nat) : Ex :=
  match fmt with
  | 0 => ieeeEx 7 8 (-133) v
  | 1 => ieeeEx 10 5 (-24) v
  | 2 => finiteEx 3 4 (-9) true v
  | 3 => ieeeEx 2 5 (-16) v
  | 4 => finiteEx 3 4 (-9) true v
  | 5 => finiteEx 3 2 (-3) false v
  | 6 => finiteEx 1 2 (-1) false v
  | 7 => intEx 8 v
  | _ => intEx 4 v

/-- Group scale by storage format: E8M0 for formats 4 to 6 (0xFF is NaN, R121), BF16 for 7 and 8. -/
def scaleEx (fmt v : Nat) : Ex :=
  if fmt ≤ 6 then (if v = 255 then .nan else .num 1 ((v : Int) - 127)) else ieeeEx 7 8 (-133) v

/-- Element width in bits (R119). -/
def elemBits (fmt : Nat) : Nat :=
  match fmt with
  | 0 => 16 | 1 => 16 | 2 => 8 | 3 => 8 | 4 => 8 | 5 => 6 | 6 => 4 | 7 => 8 | _ => 4

/-- Elements per scale, 0 where the format has no scale (R119). -/
def groupSize (fmt : Nat) : Nat :=
  match fmt with
  | 4 => 32 | 5 => 32 | 6 => 32 | 7 => 64 | 8 => 32 | _ => 0

/-- Bytes of one scale. -/
def scaleBytes (fmt : Nat) : Nat := if fmt ≤ 6 then 1 else 2

/-- Precision rank (R119); 31 ranks below every format (R125). -/
def precisionRank (fmt : Nat) : Nat :=
  match fmt with
  | 0 => 5 | 1 => 5 | 2 => 4 | 3 => 4 | 4 => 4 | 5 => 2 | 6 => 1 | 7 => 3 | 8 => 1 | _ => 0

/-- Element `i` of a packed element array (R120): a little-endian bit stream at the format's width. -/
def elemAt (fmt : Nat) (b : Bytes) (i : Nat) : Nat :=
  let w := elemBits fmt
  bits (ofLeBytes ((b.drop (w * i / 8)).take 3)) (w * i % 8) w

/-- Round FP32 bits to BF16, to nearest even (R133, R195). -/
def bf16Of (b : BitVec 32) : BitVec 16 :=
  match exF32 b with
  | .nan => 0x7fc0
  | .inf s => if s then 0xff80 else 0x7f80
  | .num m e =>
    if m = 0 then b.extractLsb' 16 16 else
    let (r, q) := roundMag fmtBF16 m.natAbs e
    BitVec.ofNat 16 (signBit m 15 + min (packMag fmtBF16 r q) (255 * 2 ^ 7))

/-- Round a value to a query format (R131): 0 BF16, 1 FP16, 2 FP8 E4M3. -/
def roundQ (qf : Nat) (v : Ex) : Ex :=
  match v with
  | .num m e =>
    if m = 0 then .zero else
    let f := if qf = 0 then fmtBF16 else if qf = 1 then fmtF16 else fmtE4M3
    let (r, q) := roundMag f m.natAbs e
    .num (if m < 0 then -(r : Int) else r) q
  | x => x

/-- Default scale of R124: the FP32 value nearest 1/√D. The nearest value y has y² × D nearest 1: the integer square root
of 2^k / D carries enough bits to round it once. -/
def isqrtLoop : Nat → Nat → Nat → Nat
  | 0, _, r => r
  | n + 1, v, r => let c := r + 2 ^ n; isqrtLoop n v (if c * c ≤ v then c else r)

def defaultScale (d : Nat) : BitVec 32 :=
  let v := 2 ^ 120 / d
  let r := isqrtLoop 64 v 0
  rn32 (.num (2 * r + (if r * r * d = 2 ^ 120 then 0 else 1) : Nat) (-61))

/-- Fraction bits that the approximations of exp2 and tanh carry: no FP32 argument lies so near a bound of R130 that fewer
would decide otherwise (log entry 10). -/
def fracBits : Nat := 128

/-- 2^(2^-i) in units of 2^-128, rounded down, for i from 1 on: each is the square root of the one before. -/
def rootTable : Nat → Nat → List Nat
  | 0, _ => []
  | n + 1, c => let r := isqrtLoop (fracBits + 2) (c * 2 ^ fracBits) 0; r :: rootTable n r

/-- 2^f for 0 ≤ f < 1, f given by its first 128 fraction bits, in units of 2^-128. -/
def pow2Frac (f : Nat) : Nat :=
  ((rootTable fracBits (2 ^ (fracBits + 1))).zipIdx).foldl
    (fun acc (r, i) => if bit f (fracBits - 1 - i) then acc * r / 2 ^ fracBits else acc) (2 ^ fracBits)

/-- Floor of v × 2^s for an exact number. -/
def floorScaled (m e : Int) (s : Nat) : Int :=
  let t := e + s
  if 0 ≤ t then m * 2 ^ t.toNat else m / 2 ^ (-t).toNat

/-- FP32 bits of the numbers from 0 on that lie within 2 ulp of m × 2^e, the ulp being that of the exact value's own binade
(R130; log entry 10), lowest first. -/
def within2 (m : Nat) (e : Int) : List Nat :=
  let b := (rn32 (.num m e)).toNat
  let q := max ((Nat.log2 m : Int) + e - 23) (-149)
  ((List.range 11).filterMap fun i => if b + i < 5 then none else some (b + i - 5)).filter fun c =>
    let d := (exF32 (BitVec.ofNat 32 c)).add (Ex.neg (.num m e))
    !(Ex.lt (.num 2 q) d || Ex.lt d (.num (-2) q))

/-- One of the values within 2 ulp of m × 2^e, chosen by a free number. -/
def pickWithin (m : Nat) (e : Int) (c : Nat) : Nat :=
  let l := within2 m e
  l.getD (c % max 1 l.length) (rn32 (.num m e)).toNat

/-- exp2_e (R130): exact at integers from -126 to 0, +0 below -126 and at -∞, NaN at NaN, else free within the limit. -/
def exp2E (x : BitVec 32) : BitVec 32 :=
  match exF32 x with
  | .nan => 0x7fc00000
  | .inf s => if s then 0 else 0x7f800000
  | .num m e =>
    if m = 0 then 0x3f800000 else
    let n := floorScaled m e 0
    if n < -126 then 0
    else if Ex.lt (.num n 0) (.num m e) then
      let f := (floorScaled m e fracBits - n * 2 ^ fracBits).toNat
      BitVec.ofNat 32 (pickWithin (pow2Frac f) (n - fracBits) (Config.exp2Slack x))
    else BitVec.ofNat 32 ((n + 127).toNat * 2 ^ 23)

/-- tanh of a positive number below 9, near enough to place R130's limit: y - y³/3 + 2y⁵/15 for small y, else from
2^(-2y log2 e). -/
def tanhNear (m e : Int) : Nat × Int :=
  if Ex.lt (.num m e) (.num 1 (-12)) then
    let y : Ex := .num m e
    let y2 := y.mul y
    match Ex.add (.mul (.num 15 0) y) ((Ex.mul y y2).mul (Ex.add (.num (-5) 0) (.mul (.num 2 0) y2))) with
    | .num a b => ((a * 2 ^ fracBits / 15).toNat, b - fracBits)
    | _ => (0, 0)
  else
    let t := floorScaled (m * 981847366517593131492738692572186475043) (e - fracBits) fracBits    -- 2 log2 e in units of 2^-128
    let n := -(t / 2 ^ fracBits) - 1
    let q := pow2Frac (-t - n * 2 ^ fracBits).toNat
    let d := 2 ^ fracBits * 2 ^ (-n).toNat
    ((d - q) * 2 ^ fracBits / (d + q), -fracBits)

/-- A free value within 2 ulp of tanh of the positive FP32 number with bits `b`, 1 from 9 on. -/
def tanhPick (b : Nat) : Nat :=
  match exF32 (BitVec.ofNat 32 b) with
  | .num m e =>
    if Ex.lt (.num m e) (.num 9 0) then
      let v := tanhNear m e
      min 0x3f800000 (pickWithin v.1 v.2 (Config.tanhSlack (BitVec.ofNat 32 b)))
    else 0x3f800000
  | _ => 0x3f800000

/-- tanh_e of the nonnegative FP32 numbers, by their bits in rising order: the largest free value up to an argument, so that
the function is monotone (R130) and any monotone function within the limit is one of its values. -/
def tanhMag : Nat → Nat
  | 0 => 0
  | b + 1 => max (tanhMag b) (tanhPick (b + 1))

/-- tanh_e (R130): odd, monotone, ±1 from 9 on, else free within the limit. -/
def tanhE (y : BitVec 32) : BitVec 32 :=
  match exF32 y with
  | .nan => 0x7fc00000
  | .inf s => if s then 0xbf800000 else 0x3f800000
  | .num m e =>
    if m = 0 then y
    else
      let r := if Ex.lt (.num m.natAbs e) (.num 9 0) then BitVec.ofNat 32 (tanhMag (y &&& 0x7fffffff).toNat) else 0x3f800000
      if m < 0 then r ||| 0x80000000 else r

end Sys2Proof.Machine
end

