-- ==== Sys2Proof/Machine/Coding.lean ====
section
/-! DEFINITION. Raw page layout (R120) and exponent coding of pages (R159 to R166, R174): table images, canonical codes,
coded blocks and coded pages, byte for byte. -/

namespace Sys2Proof.Machine

/-- What fixes the shape of a page: storage format, KV heads, head dimension and tokens per block. -/
structure PageShape where
  fmt    : Nat
  heads  : Nat
  dim    : Nat
  tokens : Nat
  deriving DecidableEq, Repr

/-- Elements of one section (R120). -/
def PageShape.elems (p : PageShape) : Nat := p.heads * p.tokens * p.dim

/-- Bytes of one section's element array. -/
def PageShape.elemBytes (p : PageShape) : Nat := cdiv (elemBits p.fmt * p.elems) 8

/-- Bytes of one section's scale array. -/
def PageShape.scaleLen (p : PageShape) : Nat :=
  if groupSize p.fmt = 0 then 0 else p.heads * p.tokens * (p.dim / groupSize p.fmt) * scaleBytes p.fmt

def PageShape.sectionBytes (p : PageShape) : Nat := p.elemBytes + p.scaleLen

/-- Raw page length (R120). -/
def PageShape.rawBytes (p : PageShape) : Nat := 2 * p.sectionBytes

/-- Value of element (head, token, d) of a section in raw form, its group scale applied exactly (R121). -/
def PageShape.value (p : PageShape) (section_ : Bytes) (head token d : Nat) : Ex :=
  let e := elemEx p.fmt (elemAt p.fmt section_ ((head * p.tokens + token) * p.dim + d))
  let g := groupSize p.fmt
  if g = 0 then e
  else
    let i := (head * p.tokens + token) * (p.dim / g) + d / g
    let w := scaleBytes p.fmt
    Ex.mul e (scaleEx p.fmt (ofLeBytes ((section_.drop (p.elemBytes + i * w)).take w)))

/-- Bit i of a little-endian byte string, counted from its first byte's least significant bit. -/
def bitOf (b : Bytes) (i : Nat) : Bool := (b.getD (i / 8) 0).getLsbD (i % 8)

/-- A byte string with the bits cleared whose numbers fail `keep`. -/
def clearBits (b : Bytes) (keep : Nat → Bool) : Bytes :=
  (List.range b.length).map fun i => BitVec.ofNat 8 (sumBy (fun j => if keep (8 * i + j) && bitOf b (8 * i + j) then 2 ^ j else 0) (List.range 8))

/-- A section with all-zero elements and scales in the tokens at and beyond `valid` (R120). -/
def PageShape.clearSection (p : PageShape) (valid : Nat) (section_ : Bytes) : Bytes :=
  let token := fun (perToken i : Nat) => i / max 1 perToken % max 1 p.tokens
  clearBits (section_.take p.elemBytes) (fun i => decide (token (elemBits p.fmt * p.dim) i < valid)) ++
    clearBits (section_.drop p.elemBytes) fun i =>
      decide (token (8 * scaleBytes p.fmt * (p.dim / max 1 (groupSize p.fmt))) i < valid)

/-- A raw page with all-zero elements and scales in the tokens at and beyond `valid` (R120; log entry 75). -/
def PageShape.clearTail (p : PageShape) (valid : Nat) (raw : Bytes) : Bytes :=
  if p.tokens ≤ valid then raw
  else p.clearSection valid (raw.take p.sectionBytes) ++ p.clearSection valid (raw.drop p.sectionBytes)

/-! ### The split of an element (R160) -/

/-- Exponent width w_e. -/
def expWidth (fmt : Nat) : Nat :=
  match fmt with
  | 0 => 8 | 1 => 5 | 2 => 4 | 3 => 5 | 4 => 4 | _ => 2

/-- Remainder width w_r. -/
def remWidth (fmt : Nat) : Nat := elemBits fmt - expWidth fmt

/-- Exponent field of an element. -/
def expOf (fmt v : Nat) : Nat := bits v (remWidth fmt - 1) (expWidth fmt)

/-- Remainder: the sign bit followed by the mantissa field. -/
def remOf (fmt v : Nat) : Nat :=
  bits v (elemBits fmt - 1) 1 * 2 ^ (remWidth fmt - 1) + bits v 0 (remWidth fmt - 1)

/-- Rejoin an exponent and a remainder. -/
def rejoin (fmt e r : Nat) : Nat :=
  bits r (remWidth fmt - 1) 1 * 2 ^ (elemBits fmt - 1) + e * 2 ^ (remWidth fmt - 1) + bits r 0 (remWidth fmt - 1)

/-! ### Table images and canonical codes (R165, R166) -/

def imageByte (im : Bytes) (i : Nat) : Nat := (im.getD i 0).toNat

def imageFormat (im : Bytes) : Nat := bits (imageByte im 0) 0 5

/-- The lengths of one code, exponent symbols first and the escape symbol last. -/
def imageLens (im : Bytes) (v : Bool) : List Nat :=
  let n := 2 ^ expWidth (imageFormat im)
  let base := if v then 280 else 16
  (List.range n).map (fun s => imageByte im (base + s)) ++ [imageByte im (base + 256)]

/-- Kraft sum in units of 2^-15. -/
def kraft (lens : List Nat) : Nat := sumBy (fun l => if l = 0 then 0 else 2 ^ (15 - l)) lens

/-- One code of an image is sound under R165. -/
def codeOk (lens : List Nat) : Bool :=
  lens.all (· ≤ 15) && kraft lens ≤ 2 ^ 15 && lens.any (· ≠ 0)
    && (lens.getLastD 0 ≠ 0 || lens.dropLast.all (· ≠ 0))

/-- The fields of an image hold values of the Values column (R165). -/
def imageFieldsOk (im : Bytes) : Bool :=
  let n := 2 ^ expWidth (imageFormat im)
  im.length == 544 && imageFormat im ≤ 5 && imageByte im 1 == 1
    && (List.range 256).all (fun s => s < n || (imageByte im (16 + s) == 0 && imageByte im (280 + s) == 0))

/-- A table image that LOAD_TABLE takes (R165). -/
def imageOk (im : Bytes) : Bool := imageFieldsOk im && codeOk (imageLens im false) && codeOk (imageLens im true)

/-- Digest of an image (R167): bits [63:0], little-endian, of SHA-256 over it. -/
def imageDigest (im : Bytes) : BitVec 64 := BitVec.ofNat 64 (ofLeBytes ((sha256 im).take 8))

/-- First codeword of each length (R166). -/
def firstCode (lens : List Nat) : Nat → Nat
  | 0 => 0
  | n + 1 => (firstCode lens n + (if n = 0 then 0 else lens.count n)) * 2

/-- Canonical code: length and codeword of every symbol in order (R166); length 0 where the symbol has none. -/
def canon (lens : List Nat) : List (Nat × Nat) :=
  let firsts := (List.range 16).map (firstCode lens)
  lens.zipIdx.map fun (l, s) =>
    (l, if l = 0 then 0 else firsts.getD l 0 + (lens.take s).count l)

/-- The `n` bits of `v`, most significant first. -/
def msbBits (n v : Nat) : List Bool := (List.range n).map fun i => bit v (n - 1 - i)

/-- Bits of one exponent: its codeword, or the escape codeword and the w_e exponent bits (R161). -/
def codeExp (we : Nat) (code : List (Nat × Nat)) (e : Nat) : List Bool :=
  let (l, c) := code.getD e (0, 0)
  if l ≠ 0 then msbBits l c
  else
    let (l', c') := code.getLastD (0, 0)
    msbBits l' c' ++ msbBits we e

/-- Find the symbol with a codeword of length `n` and value `c`. -/
def symbolOf (code : List (Nat × Nat)) (n c : Nat) : Option Nat := code.findIdx? fun x => x.1 == n && x.2 == c

/-- Read one codeword, bit by bit up to 15 bits. -/
def readCode (code : List (Nat × Nat)) : Nat → Nat → Nat → List Bool → Option (Nat × List Bool)
  | 0, _, _, _ => none
  | _ + 1, _, _, [] => none
  | fuel + 1, n, c, b :: bs =>
    let c' := 2 * c + b.toNat
    match symbolOf code (n + 1) c' with
    | some s => some (s, bs)
    | none => readCode code fuel (n + 1) c' bs

/-- The number spelled by bits, most significant first. -/
def ofMsb (l : List Bool) : Nat := l.foldl (fun n b => 2 * n + b.toNat) 0

/-- Read one exponent (R161): a codeword of an exponent symbol, or the escape and w_e bits. -/
def readExp (we : Nat) (code : List (Nat × Nat)) (l : List Bool) : Option (Nat × List Bool) :=
  match readCode code 15 0 0 l with
  | none => none
  | some (s, rest) =>
    if s < 2 ^ we then some (s, rest)
    else if rest.length < we then none
    else some (ofMsb (rest.take we), rest.drop we)

/-- Read `n` exponents; answer them and the bits left over. -/
def readExps (we : Nat) (code : List (Nat × Nat)) : Nat → List Bool → Option (List Nat × List Bool)
  | 0, l => some ([], l)
  | n + 1, l =>
    match readExp we code l with
    | none => none
    | some (e, rest) =>
      match readExps we code n rest with
      | none => none
      | some (es, left) => some (e :: es, left)

/-- Bits into bytes, bit 7 first, padded with 0 bits (R161). -/
def packMsb : Nat → List Bool → Bytes
  | 0, _ => []
  | n + 1, l => BitVec.ofNat 8 (ofMsb ((l.take 8) ++ List.replicate (8 - (l.take 8).length) false)) :: packMsb n (l.drop 8)

/-- Bits of bytes, bit 7 first. -/
def unpackMsb (b : Bytes) : List Bool := b.flatMap fun x => msbBits 8 x.toNat

/-- A little-endian bit stream of `w`-bit values, padded to a whole byte. -/
def packLe (w : Nat) (l : List Nat) : Bytes := leBytes (cdiv (w * l.length) 8) (l.foldr (fun e acc => e + 2 ^ w * acc) 0)

def unpackLe (w : Nat) : Nat → Nat → List Nat
  | 0, _ => []
  | n + 1, v => v % 2 ^ w :: unpackLe w n (v / 2 ^ w)

/-! ### Coded blocks (R161 to R163) -/

/-- One code table in use: both codes and the check bits of its digest (R164, R174). -/
structure Coder where
  fmt   : Nat
  kCode : List (Nat × Nat)
  vCode : List (Nat × Nat)
  check : Nat
  deriving DecidableEq, Repr

/-- Bytes `lo` to `hi - 1` of a byte string set to 0. -/
def zeroBytes (lo hi : Nat) (b : Bytes) : Bytes := b.take lo ++ List.replicate (min (hi - lo) (b.length - lo)) 0 ++ b.drop hi

/-- A code-table image with its unused bits 0: [7:5], [127:16], [2239:2184] and [4351:4296] (R6, R165). -/
def cleanImage (b : Bytes) : Bytes :=
  zeroBytes 537 544 (zeroBytes 273 280 (zeroBytes 2 16 ((b.take 1).map (fun x => x &&& 0x1F) ++ b.drop 1)))

def coderOf (im : Bytes) : Coder :=
  { fmt := imageFormat im, kCode := canon (imageLens im false), vCode := canon (imageLens im true),
    check := (imageDigest im).toNat % 65536 }

/-- Elements of lane `i` of a block. -/
def laneOf (els : List Nat) (i : Nat) : List Nat := (els.drop (64 * i)).take 64

def blockHeader (raw : Bool) (n body : Nat) (lanes : List Nat) (check : Nat) (data : BitVec 32) : Bytes :=
  leBytes 32 (raw.toNat + n * 2 ^ 2 + body * 2 ^ 16
    + (lanes.zipIdx.foldl (fun acc (l, i) => acc + l * 2 ^ (11 * i + 32)) 0)
    + check * 2 ^ 208 + data.toNat * 2 ^ 224)

/-- Code one block of at most 1,024 elements (R161 to R163). -/
def encodeBlock (fmt : Nat) (code : List (Nat × Nat)) (check : Nat) (els : List Nat) : Bytes :=
  let rawB := packLe (elemBits fmt) els
  let lanes := (List.range 16).map fun i => (laneOf els i).flatMap fun v => codeExp (expWidth fmt) code (expOf fmt v)
  let body := (lanes.flatMap fun l => packMsb (cdiv l.length 8) l) ++ packLe (remWidth fmt) (els.map (remOf fmt))
  let crc := crc32c rawB
  if body.length < rawB.length then
    blockHeader false els.length body.length (lanes.map List.length) check crc ++ body
  else blockHeader true els.length rawB.length [] check crc ++ rawB

/-- Decode the lanes of a block: each must yield its element count in its lane_bits, padded with 0 bits only (R174). -/
def decodeLanes (we : Nat) (code : List (Nat × Nat)) (laneBits : List Nat) : Nat → Nat → Bytes → Option (List Nat × Bytes)
  | _, 0, b => some ([], b)
  | n, k + 1, b =>
    let lb := laneBits.getD (15 - k) 0
    let bytes := cdiv lb 8
    if b.length < bytes then none
    else
      let st := unpackMsb (b.take bytes)
      if (st.drop lb).any id then none
      else
        match readExps we code (min n 64) (st.take lb) with
        | some (es, []) =>
          match decodeLanes we code laneBits (n - min n 64) k (b.drop bytes) with
          | some (rest, b') => some (es ++ rest, b')
          | none => none
        | _ => none

/-- Decode one block that must hold `n` elements; answer its elements and the bytes after it (R162, R174). -/
def decodeBlock (fmt : Nat) (code : List (Nat × Nat)) (check n : Nat) (b : Bytes) : Option (List Nat × Bytes) :=
  if b.length < 32 then none
  else
    let h := ofLeBytes (b.take 32)
    let body := bits h 16 12
    let raw := bit h 0
    let laneBits := (List.range 16).map fun i => bits h (11 * i + 32) 11
    let rawLen := cdiv (elemBits fmt * n) 8
    if bits h 2 11 ≠ n ∨ b.length < 32 + body ∨ bits h 208 16 ≠ check then none
    else if raw then
      if body ≠ rawLen ∨ laneBits.any (· ≠ 0) then none
      else
        let els := unpackLe (elemBits fmt) n (ofLeBytes ((b.drop 32).take body))
        if (crc32c ((b.drop 32).take body)).toNat = bits h 224 32 then some (els, b.drop (32 + body)) else none
    else if rawLen ≤ body ∨ laneBits.any (1472 < ·) ∨ body ≠ sumBy (fun l => cdiv l 8) laneBits + cdiv (remWidth fmt * n) 8 then none
    else
      match decodeLanes (expWidth fmt) code laneBits n 16 ((b.drop 32).take body) with
      | none => none
      | some (es, rb) =>
        let v := ofLeBytes rb
        if rb.length ≠ cdiv (remWidth fmt * n) 8 ∨ v / 2 ^ (remWidth fmt * n) ≠ 0 then none
        else
          let els := List.zipWith (rejoin fmt) es (unpackLe (remWidth fmt) n v)
          if (crc32c (packLe (elemBits fmt) els)).toNat = bits h 224 32 then some (els, b.drop (32 + body)) else none

/-- The elements of a section in raw form. -/
def PageShape.unpack (p : PageShape) (section_ : Bytes) : List Nat :=
  unpackLe (elemBits p.fmt) p.elems (ofLeBytes (section_.take p.elemBytes))

/-- Cut a list into pieces of 1,024 (R161); `fuel` bounds the pieces. -/
def cut1024 : Nat → List Nat → List (List Nat)
  | 0, _ => []
  | fuel + 1, l => if l.isEmpty then [] else l.take 1024 :: cut1024 fuel (l.drop 1024)

def encodeSection (p : PageShape) (code : List (Nat × Nat)) (check : Nat) (section_ : Bytes) : Bytes :=
  ((cut1024 (cdiv p.elems 1024) (p.unpack section_)).flatMap (encodeBlock p.fmt code check)) ++ section_.drop p.elemBytes

/-- Code a raw page with table `id` (R164); `none` where the coded page would not be shorter (R163), where a section would pass its raw
length, which the page header cannot name (log entry 99), or the format is never coded (R159). -/
def encodePage (p : PageShape) (c : Coder) (id : Nat) (raw : Bytes) : Option Bytes :=
  if 5 < p.fmt then none
  else
    let k := encodeSection p c.kCode c.check (raw.take p.sectionBytes)
    let v := encodeSection p c.vCode c.check (raw.drop p.sectionBytes)
    if k.length ≤ p.sectionBytes ∧ v.length ≤ p.sectionBytes ∧ 32 + k.length + v.length < p.rawBytes then
      some (leBytes 32 (k.length + v.length * 2 ^ 32 + id * 2 ^ 64 + p.fmt * 2 ^ 80 + cdiv p.elems 1024 * 2 ^ 96) ++ k ++ v)
    else none

/-- Decode `n` elements of blocks; `fuel` bounds the blocks. -/
def decodeBlocks (fmt : Nat) (code : List (Nat × Nat)) (check : Nat) : Nat → Nat → Bytes → Option (List Nat × Bytes)
  | 0, _, b => some ([], b)
  | fuel + 1, n, b =>
    match decodeBlock fmt code check (min n 1024) b with
    | none => none
    | some (els, rest) =>
      match decodeBlocks fmt code check fuel (n - min n 1024) rest with
      | none => none
      | some (more, left) => some (els ++ more, left)

/-- Decode one coded section into raw form. -/
def decodeSection (p : PageShape) (code : List (Nat × Nat)) (check : Nat) (b : Bytes) : Option Bytes :=
  match decodeBlocks p.fmt code check (cdiv p.elems 1024) p.elems b with
  | none => none
  | some (els, rest) => if rest.length = p.scaleLen then some (packLe (elemBits p.fmt) els ++ rest) else none

/-- A coded page whose header names table `id`: a page that comes from another device takes this device's id (R171; log entry 95). -/
def relabel (id : Nat) (b : Bytes) : Bytes := b.take 8 ++ leBytes 2 id ++ b.drop 10

/-- Decode a coded page that its locator names with `id` and `grains` (R174). -/
def decodePage (p : PageShape) (c : Coder) (id grains : Nat) (b : Bytes) : Option Bytes :=
  let h := ofLeBytes (b.take 32)
  let kb := bits h 0 32
  let vb := bits h 32 32
  if b.length < 32 + kb + vb ∨ kb = 0 ∨ vb = 0 ∨ p.sectionBytes < kb ∨ p.sectionBytes < vb ∨ bits h 64 16 ≠ id ∨ bits h 80 5 ≠ p.fmt ∨ bits h 96 16 ≠ cdiv p.elems 1024
      ∨ grains * grainBytes < 32 + kb + vb ∨ c.fmt ≠ p.fmt then none
  else
    match decodeSection p c.kCode c.check ((b.drop 32).take kb), decodeSection p c.vCode c.check ((b.drop (32 + kb)).take vb) with
    | some k, some v => some (k ++ v)
    | _, _ => none

end Sys2Proof.Machine
end

