-- ==== Sys2Proof/Machine/State.lean ====
section
/-! DEFINITION. The state of the controller as plain data: every piece of state the manual names, the queue of waiting
commands, and `State.reset`. INVENTORY.md lists each field with the rule that names it and its value at reset. -/

namespace Sys2Proof.Machine

/-- Why the block stops with a fault. -/
inductive Fault where
  /-- Raised by CXL_MEM_READ and CXL_MEM_WRITE for a line outside the HDM range of R197 (or with no direct region at
  all): the manual gives such an address no existence. Safe: the model stops where the hardware would answer the access
  in some way CXL leaves to it. -/
  | outsideDirectRegion (line : Nat)
  deriving DecidableEq, Repr

/-- Why the block has no meaning for a command. -/
inductive Refusal where
  /-- Raised by `exec` alone for a command of the table that has no meaning in the model yet. Safe: nothing is claimed of
  it. -/
  | notModelled (mnemonic : String)
  deriving DecidableEq, Repr

/-- Byte memory: address and byte pairs in the canonical form of `Memory.wf`. -/
abbrev Memory := List Host.Cell

/-! ### Boot, flash and updates (16) -/

/-- Why the controller is stopped (R396, R399, R403). -/
inductive StopCause where
  | rail | clock | thermal
  deriving DecidableEq, Repr

/-- Boot lifecycle (R367 to R372, R391, R396). -/
inductive Phase where
  | aonOff          -- VDD_AON is off (R396)
  | inReset         -- RESET_N is low (R356)
  | heldInReset     -- both core references missing at reset release (R399)
  | identity
  | training
  | service
  | failed          -- boot failed (R370)
  | failedNoId      -- boot failed without identity (R371)
  | stopped (c : StopCause)
  deriving DecidableEq, Repr

/-- A boot-control entry (R359). -/
structure BootEntry where
  generation  : Nat
  bootEpoch   : Nat
  activeB     : Bool
  pending     : Bool
  trial       : Bool
  svFloor     : Nat
  ownerDigest : BitVec 256
  deriving DecidableEq, Repr

/-- What the controller knows of one configuration flash device (R358, R359, R373). -/
structure Flash where
  writable : Bool
  idAreaOk : Bool
  log      : List BootEntry     -- valid entries, newest first
  slot     : Option Image       -- the image staged into it since this model's first state
  deriving DecidableEq, Repr

structure Boot where
  phase       : Phase
  bootEpoch   : Nat
  entry       : BootEntry       -- the current entry
  selB        : Bool            -- device whose image is being booted
  triedOther  : Bool
  trial       : Bool
  firstFailB  : Option Bool
  identityBad : Bool
  trained     : Bool            -- HBM training has ended (R367)
  deriving DecidableEq, Repr

structure Update where
  st     : Nat                  -- update_state, R316
  staged : Option Image
  next   : Nat                  -- offset the next chunk must have (R383)
  total  : Nat
  recovery : Bool
  deriving DecidableEq, Repr

/-- Partial resets (R318, R376, R377). -/
structure Resets where
  epoch      : Nat
  active     : List (Nat × Nat × List Nat) -- domain code, instance, and the connections that wait for its end
  lastDomain : Nat
  deriving DecidableEq, Repr

/-! ### Functions and requests (09, 10) -/

/-- Function states of R211 and R215; the codes of the time page are 0 to 5 in this order. -/
inductive FnCode where
  | unattached | ready | draining | drainingHeld | revoked | absent
  deriving DecidableEq, Repr

/-- One completion ring: the attachment it belongs to, its place, and the next completion number (R202). -/
structure Ring where
  attach : Nat
  group  : Nat
  base   : Nat
  log2   : Nat
  next   : Nat
  deriving DecidableEq, Repr

/-- A slot whose stamp is recorded and that is not taken yet (R182, R184). `desc` is the descriptor that a request command
spells; it is `none` where the stamp came by an aperture write and the descriptor stands in the window bytes. -/
structure Stamped where
  k    : Nat
  cont : Bool
  sub  : Sub
  desc : Option Desc
  tick : Nat
  deriving DecidableEq, Repr

/-- An ATTACH_FUNCTION held behind a shutdown (R214). -/
structure HeldAttach where
  attach  : Nat
  version : Nat
  tag     : Nat
  tick    : Nat
  deriving DecidableEq, Repr

/-- A shutdown in progress (R213): the DETACH_FUNCTION's record is owed unless a reset caused it (R215). -/
structure Shutdown where
  attach  : Nat
  tag     : Nat
  slotSeq : Nat
  mode    : Nat
  tick    : Nat
  record  : Bool
  deriving DecidableEq, Repr

structure Fn where
  fn           : Nat
  group        : Nat
  tenant       : Nat
  code         : FnCode
  version      : Nat            -- version of the layout in force, 0 in attach mode
  attach       : Nat            -- attachment whose layout is in force
  k            : Nat            -- first slot since the attach that is not taken (intake_slots)
  early        : List Nat       -- slots taken out of order by an abort (R216)
  stamped      : List Stamped
  window       : List (Nat × Byte)   -- bytes written to the window, by offset
  abortSlot    : List (Nat × Byte)
  abortCount   : Nat
  staleStamps  : Nat
  attachStatus : Nat
  rings        : List Ring
  held         : Option HeldAttach
  shutdown     : Option Shutdown
  lastFence    : Nat            -- id of its latest FENCE (R219)
  fails        : List (List Nat)  -- handles named by each failed request taken since that FENCE (R219)
  deriving DecidableEq, Repr

/-- The pin of R38: the sequence's index and the version pinned, whose metadata the sequence keeps while pinned. -/
structure Pin where
  index   : Nat
  version : Nat
  deriving DecidableEq, Repr

/-- The running state (m, l, o) of one row (R131), FP32 bits. -/
structure RowState where
  m : BitVec 32
  l : BitVec 32
  o : List (BitVec 32)
  deriving DecidableEq, Repr

inductive PartSt where
  | waiting            -- eligible for a curd and not offered yet
  | alone              -- runs alone: its passes have not begun
  | inCurd (curd : Nat)
  | walking
  | done
  | ended              -- ended without a partial
  deriving DecidableEq, Repr

/-- One part of an ATTEND (R134). -/
structure Part where
  lo        : Nat
  hi        : Nat
  prefix_   : Nat            -- handle whose own blocks it covers, 0 for a private part (R145)
  st        : PartSt
  curd      : Bool           -- it ran in a curd of two or more members (R158)
  due       : Option Nat     -- part deadline (R231)
  rows      : List RowState  -- its partials once done
  deriving DecidableEq, Repr

/-- How far a request has gone (R216). -/
inductive ReqPhase where
  | waiting            -- behind earlier changes of R40 or a FENCE of R219
  | started            -- reads, passes, moves or transfers run
  | ready              -- page reads and writes ended, before its commit point
  | committed          -- past its commit point
  | remote             -- an answer from another device is awaited
  | fencing            -- a FENCE waiting for the requests it covers
  | writing            -- its result bytes are on their way to host memory or to a tray (R189, R280)
  deriving DecidableEq, Repr

/-- A new page of a command that has not committed (R33): supplied block and layer, and the locator it will get. -/
structure NewPage where
  block : Nat
  layer : Nat
  tier  : Nat
  addr  : Nat
  grains : Nat
  table : Nat
  uncoded : Bool
  version : Nat
  charged : Bool := true            -- to the tenant's quota, not to a reservation (R97) or a domain (R59)
  deriving DecidableEq, Repr

/-- Flags of a completion record (R205). -/
structure RecFlags where
  nonfinite : Bool := false
  curd      : Bool := false
  remote    : Bool := false
  multi     : Bool := false
  deriving DecidableEq, Repr

/-- What the record of a request will say once its result bytes are written (R17, R189). -/
structure Answer where
  status : Nat
  result : Nat
  flags  : RecFlags
  deriving DecidableEq, Repr

/-- An outstanding request: one entry of the outstanding table (R203, R340). -/
structure Req where
  id        : Nat
  fn        : Nat
  attach    : Nat            -- attachment it was taken from: its record goes to that ring
  k         : Nat
  slotSeq   : Nat
  tag       : Nat
  version   : Nat            -- of the layout it was taken from
  opcode    : Nat
  cls       : Nat
  deadline  : Nat            -- 0 at classes 1 to 7
  stamp     : Nat
  decided   : Nat
  tenant    : Nat
  desc      : Desc
  phase     : ReqPhase
  pin       : Option Pin
  pin2      : Option Pin         -- of the second operand of a COMPARE of two sequences (R193)
  entries   : List BlockEntry    -- block list read
  readyAt   : Nat := 0           -- tick at which its commit became ready (R40)
  pages     : List NewPage
  tables    : List (Nat × Nat)   -- current table per layer, held under R168
  parts     : List Part
  query     : List Bytes         -- query rows, once arrived (R126)
  done      : Nat                -- pages done (R113), bytes done, pairs answered
  data      : Bytes              -- source bytes gathered, digest input or answer so far
  raw       : Bytes := []        -- pages of a supply that wait for the demotions that make room for them (R96)
  handle    : Nat                -- prefix handle, table id or found handle
  found     : Nat                -- found depth
  remote    : Bool
  waits     : List Nat           -- ids of the moves or transactions it waits for
  regionVers : List (Nat × Nat) := []  -- version that its reads of a shared region name, by region id (R273)
  ended     : Option Nat         -- status it ends with at the next page boundary (R143)
  endedAt   : Nat := 0           -- tick of the event that decided it (R143)
  endBlock  : Nat                -- fault_block and fault_layer (R207)
  endLayer  : Nat
  answer    : Option Answer := none  -- of a request whose result bytes are being written
  chain     : List (Nat × DirKeyF)   -- entries that other homes have answered for its prefix, outermost parent first (R56)
  order     : Nat                -- acceptance order (R247)
  writerSeq : Nat                -- the completion writer's copy of its outstanding entry; the request front end's is slotSeq (R340)
  deriving DecidableEq, Repr

/-- A FENCE's running count of failed covered requests (R219). -/
structure FenceCount where
  req     : Nat      -- id of the FENCE
  fn      : Nat
  after   : Nat      -- id of the function's previous FENCE
  seq     : Option Nat
  failed  : Nat
  deriving DecidableEq, Repr

/-! ### Sequences, records and pages (02, 05, 13) -/

inductive SeqSt where
  | opened | closing | revoking | faulted
  deriving DecidableEq, Repr

/-- One block-map version (R37, R38, R41). -/
structure Version where
  num          : Nat
  slots        : List (Nat × Nat)   -- slot and block record; empty slots are not listed
  blockCount   : Nat
  tokenCount   : Nat
  prefixHandle : Nat
  prefixDepth  : Nat
  pins         : Nat
  twoLevel     : Bool := false          -- map_root is a root page (R27)
  mapRoot      : Nat := 0               -- metadata address of the root or only leaf page, 0 for none (R25)
  leaves       : List (Nat × Nat) := [] -- leaf page of each 512 slots: its number and metadata address (R27)
  deriving DecidableEq, Repr

/-- A sequence slot in use: the descriptor of R25. -/
structure Seq where
  index        : Nat
  gen          : Nat
  tenant       : Nat
  domain       : Nat
  layout       : Nat
  model        : Nat
  fmt          : Nat
  floor        : Nat
  cls          : Nat
  st           : SeqSt
  horizon      : Nat
  window       : Nat
  globals      : Nat
  t1res        : Nat
  t1held       : Bool
  sharesBlocks : Bool
  hasPins      : Bool
  segmented    : Bool
  openedAt     : Nat
  cur          : Version
  old          : List Version       -- versions no longer current that are still held
  places       : Nat                -- version places reserved by PUBLISH_PREFIX (R59)
  homeStack    : Nat                -- R225
  rehome       : Bool               -- it lost its home stack: t1held returns once its held pages lie on the new one (R296)
  resident     : Bool               -- its descriptor is kept resident (R224)
  mirrorA      : Bool               -- the copy in G0 passes its check (R26)
  mirrorB      : Bool
  order        : Nat                -- when its T1 reservation was accepted (R248)
  deriving DecidableEq, Repr

/-- A page locator (R31). -/
structure Loc where
  tier      : Nat
  grains    : Nat
  addr      : Nat
  table     : Nat
  fmt       : Nat
  version   : Nat
  ripening  : Nat
  uncoded   : Bool
  moving    : Bool
  pinned    : Bool
  published : Bool
  lost      : Bool
  sweptAt   : Nat                   -- last ripening period whose sweep has visited it (R99)
  pinBy     : Option (Nat × Nat)    -- tenant and target tier whose pin quota it is charged to (R109)
  deriving DecidableEq, Repr

/-- A block record (R30) with its locator array. -/
structure Rec where
  id         : Nat
  address    : Nat := 0            -- its metadata address, 64-byte aligned (R25)
  locators   : Nat := 0            -- metadata address of its locator array, 16-byte aligned
  firstToken : Nat
  segment    : Nat
  valid      : Nat
  published  : Bool
  shared     : Bool
  pinned     : Bool
  global     : Bool
  hashed     : Bool
  chainHash  : BitVec 128
  refs       : Nat
  tenant     : Nat
  domain     : Nat
  born       : Nat
  locs       : List Loc
  mirrorA    : Bool
  mirrorB    : Bool
  deriving DecidableEq, Repr

/-- A run of grains that holds one page: what the Rind binds (R300) and the stored bytes. `keep` lists the requests whose
walks may still read it after its locator moved on (R31, R103). -/
structure Page where
  tier      : Nat
  addr      : Nat
  grains    : Nat
  ownerKind : Nat
  owner     : Nat
  version   : Nat
  intact    : Bool                  -- every sector's tag passes
  data      : Bytes
  keep      : List Nat
  freed     : Bool                  -- no locator names it any more
  table     : Nat                   -- code table it is coded with, 0 for none (R170)
  deriving DecidableEq, Repr

/-- A written row of a parity group (R285, R286): the data grains as stored, by stack, and their parity grain. -/
structure ParityRow where
  group  : Nat
  row    : Nat
  grains : List (Nat × Bytes)
  parity : Bytes
  deriving DecidableEq, Repr

/-- A tier move of the whey path (R103) with its place in the order of precedence of 05. -/
structure Move where
  id      : Nat
  blk     : Nat
  layer   : Nat
  grains  : Nat
  target  : Nat
  rank    : Nat                     -- 1 to 5
  req     : Option Nat              -- command that waits for it
  dest    : Option Nat              -- destination grain address once taken
  started : Bool := false           -- it has set moving (R103, step 1)
  again   : Bool := false           -- its source failed its seal once and is read once more (R263)
  deriving DecidableEq, Repr

/-- A prefetched copy in staging (R105 to R107). A copy of an own far page names its block record, whose stored bytes are
the page's; a page fetched from a remote holder (`blk = 0`) carries its bytes, its table digest and its format here. -/
structure StagingCopy where
  id      : Nat
  handle  : Nat := 0                -- prefix whose own page it is, where a remote holder sends it (R71)
  req     : Nat                     -- the request it was issued for, 0 for a lookahead copy
  pin     : Option Pin              -- pinned version of the walk that asked
  blk     : Nat
  block   : Nat
  layer   : Nat
  grains  : Nat
  arrived : Bool
  retried : Bool                    -- its seal has failed once (R263)
  failed  : Option Nat := none      -- the read has failed, with this status (R113, R152, R257)
  ahead   : Bool                    -- a lookahead copy of R107
  since   : Nat
  coded   : Bool
  digest  : BitVec 64
  data    : Bytes
  loc     : Option Loc := none      -- locator under which the bytes of an own page came, which its extent's loss does not take back (R266)
  deriving DecidableEq, Repr

/-! ### Directory and array (03, 04) -/

inductive DirSt where
  | published | withdrawn | faulted
  deriving DecidableEq, Repr

/-- A directory entry in use (R45). -/
structure DirEntry where
  slot         : Nat
  gen          : Nat
  hash         : BitVec 128
  fingerprint  : BitVec 64
  domain       : Nat
  depth        : Nat
  st           : DirSt
  proxy        : Bool
  copyVerified : Bool
  keyGen       : Nat
  handle       : Nat
  digest       : BitVec 256
  refs         : Nat
  publisher    : Nat
  holder       : Nat
  fmt          : Nat
  map          : List (Nat × Nat)   -- block and block record
  twoLevel     : Bool := false          -- mapRoot is a root page (R27, R46)
  mapRoot      : Nat := 0               -- prefix_map: metadata address of the root or only leaf page, 0 for none (R46)
  leaves       : List (Nat × Nat) := [] -- leaf page of each 512 slots that hold a block: its number and metadata address
  refetch      : List (Nat × Nat) := [] -- proxy: block and layer of the pages to be fetched again from the holder (R71)
  parent       : Nat
  parentDepth  : Nat
  publishedAt  : Nat
  idleSince    : Nat
  proxies      : List Nat           -- home: devices whose proxies hold a reference (R48)
  homeRef      : Bool               -- proxy: its reference at the home is held
  holderProxy  : Bool               -- R62
  homeStack    : Nat                -- R225
  grainsTaken  : Nat                -- counted against sharing_domain.publish_grains (R59, R69)
  mirrorA      : Bool
  mirrorB      : Bool
  deriving DecidableEq, Repr

/-- A key entry or handle entry of the prefix table (R76, R77). `upset` is what its array row holds where that differs from the shadow row:
key bits and care bits (R87, R89); so in every table. -/
structure PrefixRow where
  row      : Nat                    -- row of the table, its banks taken in rank order
  isHandle : Bool
  domain   : Nat
  fold     : Nat
  depth    : Nat
  hashLow  : Nat
  handle   : Nat
  slot     : Nat
  gen      : Nat
  proxy    : Bool
  mirrorA  : Bool := true           -- its shadow row stands in copy A, and in copy B (R83, R89)
  mirrorB  : Bool := true
  upset    : Option (Nat × Nat) := none
  deriving DecidableEq, Repr

/-- A flow entry (R79). -/
structure FlowRow where
  tenant   : Nat
  zone     : Nat
  protocol : Nat
  srcAddr  : Nat
  dstAddr  : Nat
  srcPort  : Nat
  dstPort  : Nat
  mode     : Nat
  handle   : Nat
  mirrorA  : Bool := true           -- its shadow rows, as PrefixRow's
  mirrorB  : Bool := true
  upset    : Option (Nat × Nat) := none
  deriving DecidableEq, Repr

/-- A flow table: the three consecutive groups of R82, a hole being `none`. -/
structure FlowTable where
  g0 : List (Option FlowRow)
  g1 : List (Option FlowRow)
  g2 : List (Option FlowRow)
  deriving DecidableEq, Repr

/-- A policy row as written; `present` is false after a purge until a restore (R91, R92). -/
structure PolicyRow where
  rule    : PolicyRec
  present : Bool
  lost    : Bool := false           -- its rows have been cleared with their shadow since they were last written (R89)
  mirrorA : Bool := true            -- its shadow rows, as PrefixRow's
  mirrorB : Bool := true
  upset   : Option (Nat × Nat) := none
  deriving DecidableEq, Repr

inductive BankSt where
  | working | failing | spare | rebuilding (forBank : Nat) | lost
  deriving DecidableEq, Repr

/-- A bank of the associative array (R74, R90). -/
structure Bank where
  n         : Nat
  tag       : Nat
  st        : BankSt
  rowsSpent : Nat                   -- spare rows in use (R89)
  deriving DecidableEq, Repr

/-- A grant: an entry of a tray's directory table, the grain range of a region version, the host, and the record that its result word
indexes (R78, R272). -/
structure GrantRow where
  domain  : Nat
  region  : Nat
  version : Nat
  host    : Nat
  base    : Nat
  grains  : Nat
  mirrorA : Bool := true
  mirrorB : Bool := true
  upset   : Option (Nat × Nat) := none
  deriving DecidableEq, Repr

/-- A search that is held while its table is short of a bank (R90): one that a frame from a peer or an access of a host asks for. -/
inductive HeldSearch where
  | dirLookup (link : Nat) (fr : Frame) (fingerprint : BitVec 64) (pairs : List PairF)
  | regionRead (link : Nat) (fr : Frame) (length : Nat)
  | regionWrite (link : Nat) (fr : Frame) (data : Bytes)
  | dirPublish (link : Nat) (fr : Frame) (k : DirKeyF)
  | pageGet (link : Nat) (fr : Frame)
  | nmo (link : Nat) (fr : Frame) (op : Desc)
  | poolMem (host region version line : Nat) (write : Option Bytes)
  deriving DecidableEq, Repr

structure ArraySt where
  banks    : List Bank
  rows     : List PrefixRow
  flow4    : FlowTable
  flow6    : FlowTable
  policy   : List PolicyRow
  grants   : List GrantRow          -- tray directory table (R78, R272)
  compared : Nat                    -- device time of the last shadow comparison
  suspects : List Nat := []         -- banks that await an immediate comparison (R87, R88)
  held     : List HeldSearch := []  -- searches of peers that wait for a bank, oldest first
  deriving DecidableEq, Repr

/-- A page that failed a decode with a good tag and waits for its second decode (R175): the engines that decoded it. -/
structure Recheck where
  blk     : Nat
  layer   : Nat
  engines : List (Nat × Nat)
  deriving DecidableEq, Repr

/-! ### Code tables (08) -/

inductive TableSt where
  | live | retiring | faulted
  deriving DecidableEq, Repr

structure CodeTable where
  id         : Nat
  st         : TableSt
  domain     : Nat
  fmt        : Nat
  image      : Bytes
  digest     : BitVec 64
  pageRefs   : Nat
  streamRefs : Nat
  mirrorA    : Bool := true           -- R167: its record is mirrored and checked as R26 gives
  mirrorB    : Bool := true
  deriving DecidableEq, Repr

/-- A coding stream with a current table other than 0 (R168). -/
structure Stream where
  domain : Nat
  model  : Nat
  fmt    : Nat
  layer  : Nat
  table  : Nat
  deriving DecidableEq, Repr

/-- A FIFO free list whose never-issued ids still stand in ascending order from `fresh` (R23, R45, R167). -/
structure FreeList where
  fresh : Nat
  limit : Nat
  freed : List Nat
  deriving DecidableEq, Repr

/-! ### Engines, passes and curds (06, 07) -/

inductive EngineSt where
  | active (logical : Nat) | spare
  | brining (logical : Nat)         -- a spare being brined for a failed engine's logical number
  | failed (was : Nat)              -- 16 where it held no logical number
  deriving DecidableEq, Repr

structure Engine where
  cluster : Nat
  slot    : Nat
  st      : EngineSt
  dirty   : List (Nat × Nat)        -- owners (tenant, domain) whose state it holds since its last brine (R327)
  brined  : Nat                     -- device time of its last brine
  stands  : Nat := 0                -- a spare brined: the physical slot that has failed and that it stands in for (R342)
  deriving DecidableEq, Repr

/-- One row of a pass: the request, part and row index it belongs to, the engine it is dealt to, and its state. -/
structure PassRow where
  req    : Nat
  part   : Nat
  r      : Nat
  engine : Nat
  idle   : Bool
  st     : RowState
  deriving DecidableEq, Repr

/-- A pass (R117), alone or of a curd (R150, R151). -/
structure Pass where
  id      : Nat
  curd    : Option Nat
  cluster : Nat
  engines : List Nat                -- physical slots
  lo      : Nat
  hi      : Nat
  next    : Nat
  layer   : Nat
  cls     : Nat
  parked  : Bool
  fin     : Bool := false           -- it has walked its part's last block (R117)
  spared  : Bool := false           -- it goes on for the members that skip a block whose page failed (R19, R152)
  rows    : List PassRow
  deriving DecidableEq, Repr

structure CurdKey where
  prefix_ : Nat
  lo      : Nat
  hi      : Nat
  layer   : Nat
  qFormat : Nat
  requant : Bool
  tenant  : Option Nat              -- only where curd_cross_tenant is 0 (R147)
  deriving DecidableEq, Repr

structure Member where
  req    : Nat
  part   : Nat
  tenant : Nat
  rows   : Nat
  expect : Nat
  due    : Option Nat
  deriving DecidableEq, Repr

structure Curd where
  id       : Nat
  key      : CurdKey
  model    : Nat
  members  : List Member            -- in join order
  openedAt : Nat
  lastJoin : Nat
  running  : Bool                   -- closed: it takes no member again
  closing  : Bool := false          -- a join of this tick makes it close at the tick's end (R148)
  cluster  : Nat
  engines  : Nat
  slots    : List Nat := []         -- physical slots taken at the close (R150)
  deriving DecidableEq, Repr

/-! ### Admission and scheduling (11) -/

inductive Cal where
  | engine (cluster logical : Nat)
  | stack (n : Nat)
  | ucieIn (group : Nat)
  | ucieOut (group : Nat)
  | fabric (route : Nat)
  | staging
  | lookup
  deriving DecidableEq, Repr

/-- A reservation: `amount` spread evenly over the ticks from `lo` to `hi` (R227, R230). -/
structure Resv where
  req    : Nat
  cal    : Cal
  lo     : Nat
  hi     : Nat
  amount : Nat
  part   : Option Nat := none       -- first block of the part whose pass it is (R230)
  deriving DecidableEq, Repr

/-- The deadline monitor (R226, R347). -/
structure Monitor where
  held   : List (Nat × Nat)         -- request and deadline
  ends   : List (Nat × List Nat) := []  -- reserved end of each pass of a request
  count  : Nat
  failed : Bool
  deriving DecidableEq, Repr

/-- A scheduling queue at work (R236 to R241, R246). -/
structure Queue where
  cfg       : QueueRec
  frames    : List (Nat × Nat)      -- length and the tick at which it became ready
  committed : Int
  peakTok   : Int
  level     : Nat                   -- 0 not on the wheel, 1, 2, 3 overflow
  eligible  : Nat
  finish    : Nat
  deficit   : Nat
  depthHist : List Nat
  delayHist : List Nat
  maxDepth  : Nat
  maxDelay  : Nat
  excessOnly : Bool                 -- R248
  order     : Nat
  deriving DecidableEq, Repr

/-- An egress point: virtual time, rotating pointer, round-robin place, last tick served, open gate entry. -/
structure Egress where
  n       : Nat
  mode    : Nat
  v       : Nat
  pointer : Nat
  served  : Nat
  gate    : Nat
  busy    : Nat                    -- tick at which the frame being sent ends
  visit   : Nat := 0               -- order of the queue that deficit round robin visits (R241)
  deriving DecidableEq, Repr

/-! ### Fabric, pool and tray (12) -/

inductive PortSt where
  | held | training | securing | up | down | quarantined
  deriving DecidableEq, Repr

/-- Header fields of a frame that say whose traffic it is (R254). -/
structure Hdr where
  cls      : Nat := 7
  own      : Bool := true           -- it serves the controller's own work
  fn       : Nat := 0
  tenant   : Nat := 0
  domain   : Nat := 0               -- sharing domain
  keyKind  : Nat := 0
  keyEpoch : Nat := 0
  deriving DecidableEq, Repr

/-- A frame as it was sent (R254): its frame_seq, its header and its payload. -/
structure Sent where
  version  : Nat := 0
  src      : Nat := 0
  dst      : Nat := 0
  hdr      : Hdr := {}
  frameSeq : Nat
  msg      : Nat
  xid      : Nat
  object   : Nat
  aux      : Nat
  status   : Nat
  offset   : Nat
  last     : Bool
  coded    : Bool
  data     : Bytes                  -- payload before the frame cipher
  wire     : Bytes := []            -- payload as the link carries it (R255)
  tag      : BitVec 128 := 0
  deriving DecidableEq, Repr

structure Port where
  id        : PortId
  st        : PortSt
  version   : Nat
  rate      : Nat
  width     : Nat
  peer      : Option HelloF
  session   : Bool
  dirOk     : Bool
  txSeq     : Nat
  rxSeq     : Nat
  discards  : List Nat              -- ticks of the frames discarded
  errors    : Nat
  credits   : List Nat              -- credits the peer has granted, per class
  peerCycle : Nat
  peerGates : List GateEntry
  buffer    : List Sent             -- replay buffer: the last 256 frames sent, newest first (R255)
  lastRx    : Nat
  lastTx    : Nat
  since     : Nat                   -- tick of the last state change
  left      : Option Nat            -- tick at which it last left up, none while up (R51)
  resetting : Bool                  -- NVMe controller reset (R270)
  hello     : Bool := false         -- the peer's HELLO of this link-up has come (R252)
  responder : Bool := false         -- this end answered the session's KEY_EXCHANGE (R321)
  ownerKeys : List (Nat × Nat × Nat) := []  -- owner keys that the frame cipher holds: key_kind, owner, epoch (R321)
  narrow    : Bool := false         -- a lane without a spare has failed on it (R250)
  gen31     : Bool := false         -- CXL: both ends support CXL 3.1, so it runs 256-byte flits (R251)
  asked     : Nat := 0              -- steps of its securing that are answered (R261)
  ide       : Bool := true          -- its device offers IDE (R321)
  deriving DecidableEq, Repr

structure LinkCluster where
  n          : Nat
  mode       : Nat
  lanesBad   : List Nat
  spareSpent : Bool
  pclk       : Bool := false        -- LNK_c_PCLK is sent to the attached device: common clock (R398)
  deriving DecidableEq, Repr

/-- What the controller issues on a port while it secures it (R251, R261, R268, R269, R321). -/
inductive SecureStep where
  | enumerate                        -- configuration space over CXL.io or PCIe
  | hdmDecoders
  | dynamicCapacityConfig            -- Get Dynamic Capacity Configuration
  | dynamicCapacityExtents           -- Get Dynamic Capacity Extent List
  | enable                           -- NVMe controller enable
  | identify
  | setQueues (pairs : Nat)          -- Set Features
  | createQueues (pairs depth : Nat)
  | spdm (code : Nat)                -- an SPDM request of the requester role
  | ideKey (transmit : Bool)         -- key programming of CXL_IDE_KM or IDE_KM
  | ideGo
  | keyUpdate                        -- SPDM KEY_UPDATE of an Asvis session (R321)
  deriving DecidableEq, Repr

/-- Who waits for a pool object that is read from flash (R277). -/
inductive TrayGet where
  | page (link : Nat) (fr : Frame)
  | line (host line : Nat) (write : Option Bytes)
  deriving DecidableEq, Repr

/-- A Read or Write of an SSD (R269): its namespace, its first LBA, its LBAs, and the bytes of a Write. -/
structure NvmeCmd where
  nsid   : Nat
  lba    : Nat
  blocks : Nat
  data   : Option Bytes
  deriving DecidableEq, Repr

/-- What an open transaction is for. -/
inductive TxnKind where
  | farPage (copy : Nat)
  | tableFetch (domain : Nat) (digest : BitVec 64)
  | lookup (req : Nat)
  | attach (req : Nat)
  | publish (req : Nat)
  | dirParent (link xid tenant : Nat) (key : DirKeyF)  -- a publication from that link waits for its parent's entry (R48, R59)
  | withdraw (req : Nat)
  | release (handle : Nat)
  | put (move : Nat)
  | chunk (req model chunk : Nat)    -- a weight chunk is read for a FETCH_WEIGHTS, or written at its load (req 0) (R115)
  | spill (req : Nat)                -- a new page of a supply or a publication is written to T2 or T3 (R61, R96)
  | rekey (req block layer : Nat)    -- a far page of a publication is read (R61)
  | claim (extent : Nat)
  | region (req : Nat)
  | nmo (req : Nat)
  | destage (object : Nat)           -- grains of a pool object, or their stripe's parity, are written to an SSD group (R277, R281)
  | trayRead (object grain : Nat) (who : TrayGet) (rebuilt : Bool)  -- a grain of it is read, or the rest of its stripe (R277, R281)
  deriving DecidableEq, Repr

structure Txn where
  xid    : Nat
  port   : PortId
  kind   : TxnKind
  tenant : Nat
  due    : Nat
  extent : Option Nat
  data   : Bytes
  table  : BitVec 64
  nvme   : Option NvmeCmd := none    -- command of an NVMe port
  deriving DecidableEq, Repr

inductive ExtentSt where
  | claiming | active | draining | revoked
  deriving DecidableEq, Repr

/-- An extent in use (R263, R264). -/
structure Extent where
  id         : Nat
  route      : Nat
  resident   : Bool
  st         : ExtentSt
  forced     : Bool
  releasing  : Bool
  poolBase   : Nat
  grains     : Nat
  targetBase : Nat
  tag        : Nat
  source     : Nat
  since      : Nat
  drainAt    : Nat
  mirrorA    : Bool := true         -- its rows of the extent table, as PrefixRow's
  mirrorB    : Bool := true
  upset      : Option (Nat × Nat) := none
  deriving DecidableEq, Repr

inductive RegionSt where
  | draft | published | withdrawn | recalling | faulted
  deriving DecidableEq, Repr

inductive RecallFor where
  | publish | withdraw | free
  deriving DecidableEq, Repr

/-- A region version of a tray (R272 to R275). -/
structure Region where
  id       : Nat
  version  : Nat
  domain   : Nat
  st       : RegionSt
  writer   : Nat
  grains   : Nat
  base     : Nat := 0               -- first grain of its range (R78)
  grants   : List Nat               -- hosts with a grant on it
  digest   : BitVec 256
  bytes    : Memory
  waiting  : List Nat               -- hosts whose recall answer is awaited
  recallFor : Option RecallFor
  recallAt : Nat
  conflict : Bool := false          -- a draft that another content's version has refused (R274)
  by_      : Option Nat := none     -- management connection that a publication in progress came on (R273)
  deriving DecidableEq, Repr

/-- A pool object of a tray: the grain run of one PAGE_PUT (R277, R278). -/
structure PoolObj where
  id       : Nat
  host     : Nat
  addr     : Nat
  grains   : Nat
  version  : Nat
  data     : Bytes
  count    : Nat
  resident : Bool
  inStack  : Bool
  onFlash  : Bool
  swept    : Nat                    -- last ripening period whose sweep has visited it (R99, R278)
  ssdGroup : Nat
  lost     : Bool
  place    : Option Nat := none     -- first grain of its place on the group, while it lies there or is being written there (R281)
  deriving DecidableEq, Repr

structure TrayExtent where
  base     : Nat
  grains   : Nat
  resident : Bool
  owner    : Option Nat
  deriving DecidableEq, Repr

/-- A PAGE_PUT whose frames are still arriving: link, transaction, host tenant and the bytes so far (R259). -/
structure PutPart where
  link   : Nat
  xid    : Nat
  tenant : Nat
  domain : Nat
  keyKind : Nat
  data   : Bytes
  deriving DecidableEq, Repr

structure Tray where
  regions    : List Region
  puts       : List PutPart
  objects    : List PoolObj
  extents    : List TrayExtent
  gets       : List (Nat × TrayGet) := []   -- reads from flash that wait for staging, by object (R277)
  volumes    : List (Nat × Nat) := []   -- volumes granted, and the host that each is granted to (R276, R279)
  ssdFailed  : List (Nat × Nat)     -- group and SSD
  pairFailed : Nat
  pairSpare  : Bool                 -- the hot spare of the metadata pair is free
  rebuilding : Bool
  deriving DecidableEq, Repr

/-! ### On-package memory (13) -/

structure Stack where
  n        : Nat
  lost     : Bool
  ueTicks  : List Nat
  doubled  : Bool                   -- refresh at twice the rate (R293)
  served   : Nat                    -- refresh-management requests served
  rowErrs  : List (Nat × Nat × Nat) -- row, scrub period and its corrected errors in it (R292)
  retired  : List Nat               -- rows out of use (R290, R292)
  deriving DecidableEq, Repr

inductive GroupSt where
  | healthy | degraded | exposed | failed
  deriving DecidableEq, Repr

/-- A parity group (R285, R299). -/
structure PGroup where
  n         : Nat
  st        : GroupSt
  layout    : List Nat
  copyOk    : Bool                  -- its metadata copy is complete
  rebuild   : Nat                   -- 0 none, 1 evacuating, 2 metadata being written (R297)
  deriving DecidableEq, Repr

/-! ### Identity and tenants (14) -/

/-- What a key slot's keys are for (R311, "Allocation of key slots"). -/
inductive KeyUse where
  | controller | tenant | poolHost | domain | hash | model | link | cxlIde | pcieIde | group | session | unused
  deriving DecidableEq, Repr

/-- A unit with cipher key registers (R313): the Rinds of the stack quarters and, 12, of the shelf; the far sealer of a link cluster; the
frame cipher of a link; the IDE engine of a port. -/
inductive CipherUnit where
  | rind (k : Nat) | sealer (cluster : Nat) | frame (link : Nat) | ide (port : PortId)
  deriving DecidableEq, Repr

/-- A key slot that is filled (R311): its epoch, up to three keys, owner, purpose, and the cipher units whose key registers hold it. -/
structure KeySlot where
  n     : Nat
  epoch : Nat
  key   : BitVec 256                -- XTS key 1, request secret, transmit key, weights key, or the one key
  key2  : BitVec 256 := 0           -- XTS key 2, response secret, receive key, or the weights salt
  key3  : BitVec 256 := 0           -- GMAC tag key
  use   : KeyUse := .controller
  owner : Nat := 0
  regs  : List CipherUnit := []
  deriving DecidableEq, Repr

inductive SessionSt where
  | negotiated | exchanged | established
  | ended              -- by a partial reset or a debug unlock (R318, R336)
  deriving DecidableEq, Repr

structure Session where
  transport : Transport
  st        : SessionSt
  secret    : Nat                   -- names the session's secrets among the free values of Config
  version   : Nat
  slot      : Option Nat
  root      : BitVec 256            -- digest of the requester chain's root, 0 for none
  chunks    : Bytes                 -- large request being received in chunks
  large     : Bytes                 -- large response that CHUNK_GET reads
  updates   : Nat
  deriving DecidableEq, Repr

inductive TenantLife where
  | undefined | active | removing | removed
  deriving DecidableEq, Repr

structure TenantSt where
  tenant      : Nat
  life        : TenantLife
  activeSince : Nat
  swept       : Bool                -- its reclaim sweep has ended
  drained     : Bool                -- steps 1 to 4 of R331 have ended
  epoch       : Nat
  removeTick  : Nat
  answerTo    : Option Nat          -- connection that waits for the removal's response
  deriving DecidableEq, Repr

structure Debug where
  st      : Nat
  unlocks : Nat
  nonce   : Option (BitVec 256 × Nat)
  stands  : Bool
  opening : List (Nat × Nat)        -- accepted tokens whose steps run: connection and scope (R336, R389)
  deriving DecidableEq, Repr

structure Weights where
  model  : Nat
  header : SealedHeader
  counts : List Nat                 -- ripening count per chunk
  swept  : List Nat                 -- period of each chunk's last sweep visit, plus one (R99)
  cached : List (Nat × Nat)         -- chunks with a copy in the weight cache, and the place of 64 grains there that holds it
  locs   : List (Nat × Nat) := []   -- weight locator of each chunk: tier and first grain address of its 64 grains at home (R115)
  lost   : List Nat := []           -- chunks whose weight locator has lost set
  deriving DecidableEq, Repr

structure Island where
  keys      : List KeySlot
  banksBad  : List Nat              -- key-slot banks out of service
  copying   : Bool
  drbgOn    : Bool
  draws     : Nat                   -- DRBG requests since the last reseed
  sessions  : List Session
  counters  : List (Nat × Nat)      -- weights counter per UCIe group with a session (R325)
  slot1     : Bool                  -- certificate slot 1 is present (R309)
  domEpochs : List (Nat × Nat)
  shaBad    : List Nat              -- SHA/HMAC engines out of service, of 0 to 8 (R339)
  shaDoubt  : List (Nat × Nat × Nat)  -- mismatches of two engines that both passed their tests, with their ticks (R339)
  aesBad    : List (Nat × Nat)      -- cipher unit and lanes failed
  fnTable   : List (Nat × Nat) := [] -- path B's copy of the function table: function and tenant (R319)
  deriving DecidableEq, Repr

/-! ### Recorder, spares and control (15) -/

/-- An event record (R351). `code` is `none` for an event whose code the manual leaves to the builder's list. -/
structure Event where
  seq    : Nat
  code   : Option Nat
  name   : String
  source : Nat
  first  : Nat
  last   : Nat
  count  : Nat
  detail : Nat
  deriving DecidableEq, Repr

structure Recorder where
  ring     : List Event             -- newest first, at most 65,536
  firsts   : List Event             -- seq 0 to 1,023, newest first
  next     : Nat                    -- records written since VDD_AON was applied
  queue    : List Event             -- oldest first, at most 1,024
  dropped  : Nat
  booted   : Bool                   -- this reset's BOOT record has been queued for writing
  deriving DecidableEq, Repr

structure ControlPair where
  n          : Nat
  partition  : Option Nat           -- partition it runs
  halted     : Bool
  checkpoint : Nat
  deriving DecidableEq, Repr

inductive ShelfSt where
  | working
  | copying (spare lost : Nat)      -- being copied to a spare bank, with the grains found lost
  | onSpare (spare : Nat)           -- the spare bank stands in for it
  | gone | spare | used
  deriving DecidableEq, Repr

structure Faults where
  sparesUsed  : List (Nat × Nat × Nat)    -- pool row of R349, instance, spares spent
  service     : Bool                      -- tray service advised
  shelf       : List (Nat × ShelfSt)
  pairs       : List ControlPair
  blocksOut   : List Nat                  -- blocks out of service after R341
  modulesOut  : List (Nat × Nat)          -- UCIe group and module
  lanesFixed  : List (Nat × Nat × Nat)    -- group, module and lanes repaired
  groupsUp    : List Nat                  -- UCIe module groups trained
  groups11    : List Nat := []            -- those whose modules run UCIe 1.1 (R322)
  directAlone : Bool := false             -- the direct module works on after its group's last Zarfy module has left (R197)
  codersOut   : List Nat                  -- page coders out of service (R175)
  deriving DecidableEq, Repr

/-! ### Management, power and clocks (17, 18) -/

structure Conn where
  n      : Nat
  role   : Nat                      -- 0 for the account-less client of boot failed
  tenant : Nat
  last   : Nat
  owner  : Bool                     -- its certificate chains to the owner key (R383)
  deriving DecidableEq, Repr

structure Mgmt where
  conns     : List Conn
  i3cAddr   : Option Nat
  deriving DecidableEq, Repr

structure Power where
  pwrFault   : Bool
  clkAlarm   : Bool
  thermAlert : Bool
  thermTrip  : Bool
  resetN     : Bool                 -- RESET_N is high
  vddCoreMv  : Nat
  avsWaiting : Option Nat           -- set point of an AVSBus command that is unacknowledged (R392)
  onPrimary  : Bool
  priGone    : Bool
  secGone    : Bool
  holdover   : Option Nat           -- tick at which holdover began
  present    : Option Nat           -- held in reset: tick from which an input has been present (R399)
  stage      : Nat
  leaveSince : Option Nat
  disagree   : List Nat             -- samples in a row in which each pair differs by more than 5 °C
  dieC       : Nat
  stackC     : Nat
  powerW     : Nat
  deriving DecidableEq, Repr

/-! ### What leaves the block -/

/-- A completion record (R205, R207); `result` holds bits [255:128]. -/
structure Completion where
  fn        : Nat
  attach    : Nat
  c         : Nat
  addr      : Nat
  status    : Nat
  opcode    : Nat
  phase     : Bool
  nonfinite : Bool
  curd      : Bool
  remote    : Bool
  multi     : Bool
  slotSeq   : Nat
  tag       : Nat
  timeUs    : Nat
  result    : Nat
  deriving DecidableEq, Repr

/-- What an observer outside sees leave the block. -/
inductive Output where
  | completion (r : Completion)
  | hostWrite (group addr : Nat) (data : Bytes)
  | frame (link : Nat) (f : Sent)
  | mgmt (conn mstatus : Nat) (body : List Nat)
  | events (conn newest : Nat) (rs : List Event)
  | traces (conn : Nat) (rs : List (List Nat))
  | closed (conn : Nat)
  | spdm (t : Transport) (code : Nat) (body : List Nat)
  | secure (port : PortId) (m : SecureStep)
  | inBand                                             -- I3C In-Band Interrupt (R387)
  | cxlData (line : Nat) (data : Bytes)
  | cxlDone (line : Nat)
  | cxlError (line : Nat)
  | cxlRegion (host line : Nat) (data : Bytes)
  | cxlCapacity (cluster tag : Nat) (accepted : Bool)
  | cxlRelease (cluster tag : Nat)
  | recallMsg (host region version : Nat)
  | region (host domain region version status : Nat) (digest : BitVec 256)   -- answer to a region command (R273, R274)
  | cxlPoolRead (cluster read line lines : Nat)        -- a CXL.mem read of each of `lines` 64-byte lines from `line` (R268)
  | cxlPoolWrite (cluster write line : Nat) (data : Bytes)
  | cxlOffer (cluster base grains : Nat)               -- a tray's Add Capacity event to its CXL host (R264, R276)
  | nvmeRead (cluster p command nsid lba blocks : Nat) -- one Read for each grain (R269)
  | nvmeWrite (cluster p command nsid lba : Nat) (data : Bytes)
  | nvmeDeallocate (cluster p nsid lba blocks : Nat)
  | nvmeReset (cluster p : Nat)
  | nvmeFlush (volume : Nat)
  | avs (millivolts : Nat)
  deriving DecidableEq, Repr

/-- One entry of a function's completion trace (R386). -/
structure Trace where
  fn        : Nat
  stamp     : Nat
  admission : Nat
  firstByte : Nat
  slotSeq   : Nat
  status    : Nat
  opcode    : Nat
  tag       : Nat
  deriving DecidableEq, Repr

/-- Counters read on the management port (R158, R384). -/
structure Telemetry where
  served      : List (Nat × Nat × Nat)    -- function, status, count
  curdsFormed : List (Nat × Nat)          -- model and curds of two or more members
  curdMembers : List (Nat × Nat)
  corrected   : Nat
  uncorrect   : Nat
  repairs     : Nat
  deriving DecidableEq, Repr

/-- The readings that stood at the last whole millisecond (counters) and the last whole second (power, temperature): what a reader
without a management role is offered (R326). -/
structure Coarse where
  served : List (Nat × Nat × Nat)         -- function, status, count
  queues : List Queue
  held   : List (Nat × Nat × Nat)         -- tenant, tier, grains
  second : Nat                            -- second at which the next two were taken
  powerW : Nat
  tempC  : Nat
  deriving DecidableEq, Repr

/-- Bytes of the direct region with no defined value: their address, how many, and the position of the first in the free bytes. -/
structure OpenRange where
  address : Nat
  length  : Nat
  draw    : Nat
  deriving DecidableEq, Repr

/-- The state of the controller. -/
structure State where
  pending   : List Instr
  now       : Nat                   -- device time in ticks (R7)
  timePage  : Nat                   -- device_time of the time pages (R179)
  ids       : Nat                   -- next identifier of the model's own objects
  free      : Nat                   -- position in the free values of Config
  boot      : Boot
  flashA    : Flash
  flashB    : Flash
  image     : Image                 -- the running image
  update    : Update
  resets    : Resets
  fns       : List Fn
  reqs      : List Req
  fences    : List FenceCount
  seqs      : List Seq
  seqGens   : List (Nat × Nat)      -- generation of slots freed at least once
  seqFree   : FreeList
  recs      : List Rec
  pages     : List Page
  parity    : List ParityRow        -- rows of the protected region that hold pages, once written (R285, R286)
  grainVers : List (Nat × Nat × Nat)    -- tier, grain, version table entry (R301, R302)
  moves     : List Move
  staging   : List StagingCopy
  demoting  : List (Nat × Nat × Nat)    -- tier, stack and region whose free grains the whey path brings to twice the low-water mark (R102)
  weights   : List Weights
  direct    : Memory
  directOpen : List OpenRange       -- bytes of the direct region that the manual leaves undefined (R194, R216), newest first
  directBad : List Nat              -- lines of the direct region that fail their check (R201)
  viral     : Bool
  dir       : List DirEntry
  dirGens   : List (Nat × Nat)
  dirFree   : FreeList
  array     : ArraySt
  tables    : List CodeTable
  streams   : List Stream
  rechecks  : List Recheck
  tabFree   : FreeList
  impFree   : FreeList
  engines   : List Engine
  passes    : List Pass
  curds     : List Curd
  calendar  : List Resv
  monitor   : Monitor
  queues    : List Queue
  egress    : List Egress
  ports     : List Port
  clusters  : List LinkCluster
  txns      : List Txn
  extents   : List Extent
  volumes   : List Nat              -- flash volumes in use (R269, R302)
  peerEpochs : List (Nat × Nat × Nat)  -- link, owner and the key epoch its peer announced (R256); domain d is 4,096 + d
  tray      : Tray
  dram      : List Stack
  groups    : List PGroup
  island    : Island
  tenants   : List TenantSt
  dbg       : Debug
  recorder  : Recorder
  faults    : Faults
  mgmt      : Mgmt
  power     : Power
  telemetry : Telemetry
  coarse    : Coarse
  trace     : List Trace
  out       : List Output           -- newest first
  deriving DecidableEq, Repr

/-! ### Reset -/

/-- No image has been read: every section is empty. -/
def imageNone : Image :=
  { headerOk := false, tray := false, ownerChange := false, imageBytes := 0, securityVersion := 0, firmware := 0,
    ownerKey := 0, boundDevice := 0, digest := 0, sections := [], params := {}, homeTable := [], models := [],
    domains := [], tenants := [], functions := [], ucie := [], weightGrants := [], queues := [], strictModes := [], strictClasses := [],
    gates := [], linkModes := [], volumes := [], nvmeIde := false, arrayBanks := [], policies := [], accounts := [],
    ownerChain := Option.none, brokerRoot := 0, debugKey := 0, trayExtents := [], trayCxlHosts := [], chainOk := false,
    vendorSigOk := false, ownerSigOk := false, sectionDigestsOk := false, unwrapOk := false }

/-- With no valid entry in either device: boot_epoch 0, active A, sv_floor 0 and no owner (R359). -/
def BootEntry.none : BootEntry :=
  { generation := 0, bootEpoch := 0, activeB := false, pending := false, trial := false, svFloor := 0, ownerDigest := 0 }

def Flash.blank : Flash := { writable := true, idAreaOk := true, log := [], slot := Option.none }

/-- Twelve clusters of sixteen engines; slots 14 and 15 are the spares at manufacture (R342). -/
def Engine.atBoot (c s : Nat) : Engine :=
  { cluster := c, slot := s, st := if s < 14 then .active s else .spare, dirty := [], brined := 0 }

def Engine.all : List Engine :=
  (List.range 12).flatMap fun c => (List.range 16).map fun s => Engine.atBoot c s

def Stack.atBoot (n : Nat) : Stack :=
  { n := n, lost := false, ueTicks := [], doubled := false, served := 0, rowErrs := [], retired := [] }

/-- A parity group as a full reset leaves it when all six stacks train (R299). -/
def PGroup.atBoot (g : Nat) : PGroup :=
  { n := g, st := .healthy, layout := (List.range 6).map fun i => 6 * g + i, copyOk := true, rebuild := 0 }

/-- Banks 0 to 63 belong to no table until the image assigns them; 64 and 65 are the spares (R74). -/
def Bank.atBoot (n : Nat) : Bank :=
  { n := n, tag := 0, st := if n < 64 then .working else .spare, rowsSpent := 0 }

def FlowTable.empty : FlowTable := { g0 := [], g1 := [], g2 := [] }

def ArraySt.atBoot : ArraySt :=
  { banks := (List.range 66).map Bank.atBoot, rows := [], flow4 := .empty, flow6 := .empty, policy := [], grants := [],
    compared := 0 }

def Tray.atBoot : Tray :=
  { regions := [], puts := [], objects := [], extents := [], ssdFailed := [], pairFailed := 0, pairSpare := true,
    rebuilding := false }

def Island.atBoot : Island :=
  { keys := [], banksBad := [], copying := false, drbgOn := true, draws := 0, sessions := [], counters := [],
    slot1 := false, domEpochs := [], shaBad := [], shaDoubt := [], aesBad := [] }

def ControlPair.atBoot (n : Nat) : ControlPair :=
  { n := n, partition := if n < 4 then some n else Option.none, halted := false, checkpoint := 0 }

def Faults.atBoot : Faults :=
  { sparesUsed := [], service := false,
    shelf := (List.range 68).map fun n => (n, if n < 64 then .working else .spare),
    pairs := (List.range 5).map ControlPair.atBoot, blocksOut := [], modulesOut := [], lanesFixed := [],
    groupsUp := [], codersOut := [] }

def Recorder.empty : Recorder :=
  { ring := [], firsts := [], next := 0, queue := [], dropped := 0, booted := false }

/-- VDD_CORE starts at 0.75 V (R392); the primary core reference drives the root PLL (R399). -/
def Power.atBoot : Power :=
  { pwrFault := false, clkAlarm := false, thermAlert := false, thermTrip := false, resetN := true, vddCoreMv := 750,
    avsWaiting := Option.none, onPrimary := true, priGone := false, secGone := false, holdover := Option.none, present := Option.none, stage := 0,
    leaveSince := Option.none, disagree := [], dieC := 0, stackC := 0, powerW := 0 }

/-- The controller at the release of a full reset (R7, R357, R367): device time 0, everything but the flash and the event
recorder lost, the identity step about to run. Log entry 3 names the values the manual does not give. -/
def State.reset : State :=
  { pending := [], now := 0, timePage := 0, ids := 1, free := 0,
    boot := { phase := .identity, bootEpoch := 0, entry := .none, selB := false, triedOther := false, trial := false,
              firstFailB := Option.none, identityBad := false, trained := false },
    flashA := .blank, flashB := .blank, image := imageNone,
    update := { st := 0, staged := Option.none, next := 0, total := 0, recovery := false },
    resets := { epoch := 0, active := [], lastDomain := 0 },
    fns := [], reqs := [], fences := [], seqs := [], seqGens := [],
    seqFree := { fresh := 0, limit := 16777216, freed := [] },
    recs := [], pages := [], parity := [], grainVers := [], moves := [], staging := [], demoting := [], weights := [], direct := [], directOpen := [], directBad := [],
    viral := false,
    dir := [], dirGens := [], dirFree := { fresh := 0, limit := 65536, freed := [] }, array := .atBoot, tables := [],
    streams := [], rechecks := [], tabFree := { fresh := 1, limit := 64512, freed := [] },
    impFree := { fresh := 64512, limit := 65536, freed := [] },
    engines := Engine.all, passes := [], curds := [], calendar := [],
    monitor := { held := [], count := 0, failed := false }, queues := [], egress := [], ports := [], clusters := [],
    txns := [], extents := [], volumes := [], peerEpochs := [], tray := .atBoot, dram := (List.range 12).map Stack.atBoot,
    groups := [PGroup.atBoot 0, PGroup.atBoot 1], island := .atBoot, tenants := [],
    dbg := { st := 0, unlocks := 0, nonce := Option.none, stands := false, opening := [] }, recorder := .empty, faults := .atBoot,
    mgmt := { conns := [], i3cAddr := Option.none }, power := .atBoot,
    telemetry := { served := [], curdsFormed := [], curdMembers := [], corrected := 0, uncorrect := 0, repairs := 0 },
    coarse := { served := [], queues := [], held := [], second := 0, powerW := 0, tempC := 0 },
    trace := [], out := [] }

end Sys2Proof.Machine
end

