-- ==== Sys2Proof/Machine/Flags.lean ====
section
/-! DEFINITION. Status codes (R208), opcodes (R187), and the result and flag fields of completion records (R205, R207). -/

namespace Sys2Proof.Machine

/-! ### Status codes (R208) -/

def stOk : Nat := 0x00
def stOkPartial : Nat := 0x01
def stEnabledAfterDrain : Nat := 0x02
def stOkMerged : Nat := 0x03
def stRefusedCapacity : Nat := 0x10
def stRefusedDeadline : Nat := 0x11
def stFunctionNotReady : Nat := 0x12
def stPrecisionFloor : Nat := 0x13
def stNotOffloadable : Nat := 0x14
def stTableInUse : Nat := 0x15
def stInvalidField : Nat := 0x16
def stUnknownOpcode : Nat := 0x17
def stPublishConflict : Nat := 0x20
def stPrefixNotFound : Nat := 0x21
def stVersionStale : Nat := 0x22
def stHandleStale : Nat := 0x23
def stFlowNotFound : Nat := 0x24
def stFlowExists : Nat := 0x25
def stWeightsSealed : Nat := 0x26
def stExtentRevoked : Nat := 0x30
def stTenantRevoked : Nat := 0x31
def stAborted : Nat := 0x32
def stRescinded : Nat := 0x33
def stDeadlineFault : Nat := 0x40
def stDataIntegrity : Nat := 0x41
def stDecodeFault : Nat := 0x42
def stLinkFault : Nat := 0x43
def stInternalFault : Nat := 0x4F

/-- Precedence of the events that end a request in one tick, first wins (R143). A status outside the list ranks last. -/
def endRank (st : Nat) : Nat :=
  ([stTenantRevoked, stDataIntegrity, stDecodeFault, stInternalFault, stExtentRevoked, stLinkFault, stAborted, stRescinded,
    stDeadlineFault].findIdx? (· == st)).getD 9

/-! ### Opcodes (R187) -/

/-- Opcode of a descriptor, as its record carries it (R205). -/
def opcodeOf : Desc → Nat
  | .attachFn _ => 0x01
  | .detach _ => 0x02
  | .fence _ => 0x08
  | .openSeq _ => 0x10
  | .closeSeq _ => 0x11
  | .forkSeq _ => 0x12
  | .truncate _ => 0x13
  | .replace _ => 0x13
  | .append _ => 0x14
  | .pinRange _ => 0x18
  | .unpinRange _ => 0x19
  | .lookupHash _ => 0x20
  | .lookupToken _ => 0x20
  | .lookupFlow _ => 0x20
  | .attachPrefix _ => 0x21
  | .publish _ => 0x22
  | .withdraw _ => 0x23
  | .fetch _ => 0x30
  | .prefetchHint _ => 0x31
  | .attend _ => 0x38
  | .tableLoad _ => 0x40
  | .tableSelect _ => 0x40
  | .tableExport _ => 0x40
  | .retire _ => 0x41
  | .fill _ => 0x50
  | .copy _ => 0x51
  | .compare _ => 0x52
  | .reduceSum _ => 0x53
  | .reduceMax _ => 0x53
  | .lseMerge _ => 0x53
  | .weights _ => 0x60
  | .invalidForm o => o
  | .unknown o => o

/-- Opcodes every version lists (R187, R196). -/
def opcodesZ1 : List Nat := [0x01, 0x02, 0x08, 0x10, 0x11, 0x12, 0x13, 0x14, 0x18, 0x19, 0x20, 0x21, 0x30, 0x31]

/-- Opcodes that Z2 and Z3 add. -/
def opcodesZ2 : List Nat := opcodesZ1 ++ [0x22, 0x23, 0x38, 0x40, 0x41, 0x50, 0x51, 0x52, 0x53, 0x60]

/-- The function's version offers the opcode (R196). -/
def opcodeOffered (version opcode : Nat) : Bool :=
  if version = 1 then opcodesZ1.contains opcode else opcodesZ2.contains opcode

/-! ### Result fields (R207); a field at descriptor bit `lo` sits at bit `lo - 128` of `result` -/

/-- A field of `w` bits at record bit `lo`. -/
def resField (lo w v : Nat) : Nat := v % 2 ^ w * 2 ^ (lo - 128)

def resHandle (h : Nat) : Nat := resField 128 32 h
def resVersion (v : Nat) : Nat := resField 128 32 v
def resAttach (waitUs version : Nat) : Nat := resField 128 32 waitUs + resField 160 2 version
def resLookup (handle depth pair home : Nat) : Nat :=
  resField 128 64 handle + resField 192 20 depth + resField 212 3 pair + resField 216 12 home
def resHome (home : Nat) : Nat := resField 216 12 home
def resFlow (handle mode count : Nat) : Nat := resField 128 32 handle + resField 160 2 mode + resField 162 3 count
def resPolicy (count word : Nat) : Nat := resField 162 3 count + resField 192 64 word
def resPublish (handle : Nat) (linked : Bool) : Nat := resField 128 64 handle + resField 192 1 linked.toNat
def resPagesDone (n : Nat) : Nat := resField 128 13 n
def resPagesLeft (n : Nat) : Nat := resField 128 32 n
def resParts (n : Nat) : Nat := resField 128 16 n
def resTable (id : Nat) : Nat := resField 128 16 id
def resRetire (pageRefs streamRefs : Nat) : Nat := resField 128 32 pageRefs + resField 160 32 streamRefs
def resDiff (off : Nat) : Nat := resField 128 64 off
def resFailed (n : Nat) : Nat := resField 128 32 n

/-- REFUSED_DEADLINE: the earliest deadline admission would have accepted, rounded up to a multiple of 470. -/
def resEarliest (t : Nat) : Nat := resField 128 64 (roundUp t 470)

/-- Statuses 0x41 to 0x43: block and layer of the fault; all ones when not a page. -/
def resFaultAt (block layer : Nat) : Nat := resField 192 18 block + resField 210 8 layer

/-- "Not a page" in the fault fields (R207). -/
def noBlock : Nat := 0x3FFFF
def noLayer : Nat := 0xFF

/-- Result of a status that names no page (R207). -/
def faultResult (st : Nat) : Nat := if 0x41 ≤ st ∧ st ≤ 0x43 then resFaultAt noBlock noLayer else 0

end Sys2Proof.Machine
end

