-- ==== Sys2Proof/Machine/Ops.lean ====
section
/-! DEFINITION. The named operations over the state: look-ups and updates of its tables, byte memory, outputs, events,
completion records, the freeing of pages, tables and block records, and the end of a request. -/

namespace Sys2Proof.Machine

/-! ### Look-ups and updates -/

def State.fn? (s : State) (n : Nat) : Option Fn := s.fns.find? fun f => f.fn == n
def State.req? (s : State) (id : Nat) : Option Req := s.reqs.find? fun r => r.id == id
def State.seq? (s : State) (i : Nat) : Option Seq := s.seqs.find? fun q => q.index == i
def State.rec? (s : State) (id : Nat) : Option Rec := s.recs.find? fun r => r.id == id
def State.dir? (s : State) (slot : Nat) : Option DirEntry := s.dir.find? fun e => e.slot == slot
def State.pass? (s : State) (id : Nat) : Option Pass := s.passes.find? fun p => p.id == id
def State.curd? (s : State) (id : Nat) : Option Curd := s.curds.find? fun c => c.id == id
def State.table? (s : State) (id : Nat) : Option CodeTable := s.tables.find? fun t => t.id == id
def State.port? (s : State) (p : PortId) : Option Port := s.ports.find? fun q => q.id == p
def State.extent? (s : State) (id : Nat) : Option Extent := s.extents.find? fun e => e.id == id
def State.move? (s : State) (id : Nat) : Option Move := s.moves.find? fun m => m.id == id
def State.txn? (s : State) (x : Nat) : Option Txn := s.txns.find? fun t => t.xid == x
def State.tenant? (s : State) (t : Nat) : Option TenantSt := s.tenants.find? fun x => x.tenant == t

def State.model? (s : State) (i : Nat) : Option ModelRec := s.image.models.find? fun m => m.index == i
def State.domain? (s : State) (d : Nat) : Option DomainRec := s.image.domains.find? fun x => x.domain == d
def State.tenantRec? (s : State) (t : Nat) : Option TenantRec := s.image.tenants.find? fun x => x.tenant == t
def State.fnRec? (s : State) (n : Nat) : Option FunctionRec := s.image.functions.find? fun x => x.fn == n
def State.ucie? (s : State) (g : Nat) : Option UcieRec := s.image.ucie.find? fun x => x.group == g

def State.modFn (s : State) (n : Nat) (g : Fn → Fn) : State := { s with fns := mapIf (·.fn == n) g s.fns }
def State.modReq (s : State) (id : Nat) (g : Req → Req) : State := { s with reqs := mapIf (·.id == id) g s.reqs }
def State.modSeq (s : State) (i : Nat) (g : Seq → Seq) : State := { s with seqs := mapIf (·.index == i) g s.seqs }
def State.modRec (s : State) (id : Nat) (g : Rec → Rec) : State := { s with recs := mapIf (·.id == id) g s.recs }
def State.modDir (s : State) (slot : Nat) (g : DirEntry → DirEntry) : State :=
  { s with dir := mapIf (·.slot == slot) g s.dir }
def State.modPass (s : State) (id : Nat) (g : Pass → Pass) : State := { s with passes := mapIf (·.id == id) g s.passes }
def State.modCurd (s : State) (id : Nat) (g : Curd → Curd) : State := { s with curds := mapIf (·.id == id) g s.curds }
def State.modTable (s : State) (id : Nat) (g : CodeTable → CodeTable) : State :=
  { s with tables := mapIf (·.id == id) g s.tables }
def State.modPort (s : State) (p : PortId) (g : Port → Port) : State := { s with ports := mapIf (·.id == p) g s.ports }
def State.modExtent (s : State) (id : Nat) (g : Extent → Extent) : State :=
  { s with extents := mapIf (·.id == id) g s.extents }
def State.modMove (s : State) (id : Nat) (g : Move → Move) : State := { s with moves := mapIf (·.id == id) g s.moves }
def State.modTenant (s : State) (t : Nat) (g : TenantSt → TenantSt) : State :=
  { s with tenants := mapIf (·.tenant == t) g s.tenants }
def State.modEngine (s : State) (c p : Nat) (g : Engine → Engine) : State :=
  { s with engines := mapIf (fun e => e.cluster == c && e.slot == p) g s.engines }

/-- The image parameters in force. -/
def State.params (s : State) : Params := s.image.params

/-- A fresh identifier of the model's own objects. -/
def State.bumpId (s : State) : State := { s with ids := s.ids + 1 }

/-- The controller is in service (R367): it has an image, its stacks are trained and nothing has stopped it. -/
def State.inService (s : State) : Bool := s.boot.phase == .service

/-- Work of the service phase: a controller that boots, has failed, is held or has stopped does none of it (R370, R396). -/
def State.live (s : State) (g : State → State) : State := if s.inService then g s else s

/-- The running role is the tray role (R1). -/
def State.isTray (s : State) : Bool := s.image.tray

/-! ### Outputs, events and free values -/

def State.emit (s : State) (o : Output) : State := { s with out := o :: s.out }

/-- Function number of an egress point's default queues (R236). -/
def defaultFn : Nat := 1024

/-- Key of the queues of the controller's own tier moves, the whey path. -/
def wheyFn : Nat := 1025

/-- A queue at work with its shaper just set (R239). -/
def Queue.ofCfg (c : QueueRec) (order : Nat) : Queue :=
  { cfg := c, frames := [], committed := c.burst, peakTok := 0, level := 0, eligible := 0, finish := 0, deficit := 0, depthHist := [],
    delayHist := [], maxDepth := 0, maxDelay := 0, excessOnly := false, order := order }

/-- Burst of the whey path's committed bucket: one page of 64 KiB (log entry 50). -/
def wheyBurst : Nat := 65536

/-- Queue `n` bytes of a function and class at an egress point (R236): in the function's own queue where the image defines
one, otherwise in the point's default queue of the class. The whey path has a background queue of its own with the committed rate of
whey.committed_mbps, in bytes a tick (R220, R99). Points 0 to 3 are the module groups, 4 to 99 the Asvis links, 100
to 123 the other link clusters and 124 to 135 the page feeds of the engine clusters. -/
def State.enqueue (s : State) (egress fn cls n : Nat) : State :=
  let mine := fun (f : Nat) (q : Queue) => q.cfg.egress == egress && q.cfg.fn == f && q.cfg.cls == cls
  let put := fun (q : Queue) => { q with frames := q.frames ++ [(n, s.now)] }
  if s.queues.any (mine fn) then { s with queues := mapIf (mine fn) put s.queues }
  else if fn ≠ wheyFn ∧ s.queues.any (mine defaultFn) then { s with queues := mapIf (mine defaultFn) put s.queues }
  else
    let whey := fn == wheyFn
    let c : QueueRec := { egress := egress, fn := if whey then fn else defaultFn, cls := cls, weight := 1,
                          rate := if whey then cdiv s.params.wheyMbps 470 else 0, burst := if whey then wheyBurst else 0, peak := 0, peakB := 0,
                          quantum := 4096 }
    { s with queues := s.queues ++ [put (.ofCfg c s.ids)] }

/-- Source field of an event record (15_faults_and_recorder, "Event sources"). -/
def evSource (kind inst : Nat) : Nat := inst % 4096 + kind * 4096

/-- Raise an event: it enters the queue of R354, or is counted as dropped when the queue is full. -/
def State.event (s : State) (name : String) (code : Option Nat) (source detail : Nat) : State :=
  let q := s.recorder
  if q.queue.length < 1024 then
    let e : Event := { seq := 0, code := code, name := name, source := source, first := s.now, last := s.now, count := 1,
                       detail := detail % 2 ^ 48 }
    { s with recorder := { q with queue := q.queue ++ [e] } }
  else { s with recorder := { q with dropped := q.dropped + 1 } }

/-- An event the manual names without giving its code. -/
def State.note (s : State) (name : String) (source detail : Nat) : State := s.event name none source detail

/-- Draw one free number (log entry 13). -/
def State.freeNat (s : State) : Nat × State := (Config.freeNat s.free, { s with free := s.free + 1 })

/-! ### Key slots (R311 to R313) -/

/-- Memory-key slot of an owner: the controller (0), a tenant (1) or a sharing domain (2). -/
def ownerSlot (kind owner : Nat) : Nat :=
  match kind with
  | 0 => 0
  | 1 => 1 + owner
  | _ => 4097 + owner

def hashKeySlot (domain : Nat) : Nat := 5121 + domain
def modelKeySlot (index : Nat) : Nat := 6145 + index
def groupKeySlot (g : Nat) : Nat := 6569 + g

/-- Slot of the session keys of a link or port. -/
def portSlot : PortId → Nat
  | .asvis i => 6401 + i
  | .cxl c => 6497 + c
  | .nvme c p => 6521 + 2 * c + p

def State.slotFilled (s : State) (n : Nat) : Bool := s.island.keys.any fun k => k.n == n

/-- Zeroisation of a slot: it reads as empty, and its keys leave the cipher key registers with it (R313). -/
def State.zeroise (s : State) (n : Nat) : State :=
  { s with island := { s.island with keys := s.island.keys.filter fun k => k.n != n } }

/-- Purpose and owner of a slot (R311, "Allocation of key slots"). -/
def slotUse (tray : Bool) (n : Nat) : KeyUse × Nat :=
  if n = 0 then (.controller, 0)
  else if n < 4097 then (if tray then .poolHost else .tenant, n - 1)
  else if n < 5121 then (.domain, n - 4097)
  else if n < 6145 then (.hash, n - 5121)
  else if n < 6401 then (.model, n - 6145)
  else if n < 6497 then (.link, n - 6401)
  else if n < 6521 then (.cxlIde, n - 6497)
  else if n < 6569 then (.pcieIde, n - 6521)
  else if n < 6573 then (.group, n - 6569)
  else if n < 6637 then (.session, n - 6573)
  else (.unused, 0)

/-- Cipher units whose key registers a slot's keys are loaded into (R313). -/
def slotUnits (n : Nat) : List CipherUnit :=
  match slotUse false n with
  | (.controller, _) => (List.range 13).map .rind
  | (.tenant, _) => (List.range 13).map .rind ++ (List.range 24).map .sealer
  | (.domain, _) => (List.range 13).map .rind ++ (List.range 24).map .sealer
  | (.link, l) => [.frame l]
  | (.cxlIde, c) => [.ide (.cxl c)]
  | (.pcieIde, i) => [.ide (.nvme (i / 2) (i % 2))]
  | _ => []

/-- Keys that the DRBG gives a slot: three of a memory slot, two of an IDE slot (R311). -/
def slotKeys (n : Nat) : Nat := if n < 5121 then 3 else if 6497 ≤ n ∧ n < 6569 then 2 else 1

/-- Write keys to a slot, which replaces what it and the registers held. -/
def State.setKey (s : State) (n epoch : Nat) (key : BitVec 256) (key2 : BitVec 256 := 0) (key3 : BitVec 256 := 0) : State :=
  let u := slotUse s.isTray n
  let k : KeySlot := { n := n, epoch := epoch, key := key, key2 := key2, key3 := key3, use := u.1, owner := u.2, regs := slotUnits n }
  { s with island := { s.island with keys := k :: s.island.keys.filter fun k => k.n != n } }

/-- Keys of a slot. -/
def State.keySlot? (s : State) (n : Nat) : Option KeySlot := s.island.keys.find? fun k => k.n == n

/-- One output of the DRBG, which reseeds before every 2^20 requests (R310). -/
def State.draw (s : State) : BitVec 256 × State :=
  (Config.drbg s.free, { s with free := s.free + 1, island := { s.island with draws := (s.island.draws + 1) % 2 ^ 20 } })

/-- Fill a slot from the DRBG. -/
def State.fillSlot (s : State) (n epoch : Nat) : State :=
  let (a, s) := s.draw
  if slotKeys n < 2 then s.setKey n epoch a
  else
    let (b, s) := s.draw
    if slotKeys n < 3 then s.setKey n epoch a b
    else
      let (c, s) := s.draw
      s.setKey n epoch a b c

/-! ### SPDM sessions -/

def State.session? (s : State) (t : Transport) : Option Session := s.island.sessions.find? fun x => x.transport == t

def State.modSession (s : State) (t : Transport) (g : Session → Session) : State :=
  { s with island := { s.island with sessions := mapIf (fun x => x.transport == t) g s.island.sessions } }

/-! ### Byte memory (direct region and region drafts) -/

/-- What an address that is not listed reads as (log entry 5). -/
def memDefault : Byte := 0

/-- Read one byte. -/
def Memory.read (m : Memory) (a : Nat) : Byte :=
  match m with
  | [] => memDefault
  | (b, v) :: rest => if b = a then v else if a < b then memDefault else Memory.read rest a

/-- Write one byte, keeping addresses strictly rising and no entry equal to `memDefault`. -/
def Memory.write (m : Memory) (a : Nat) (v : Byte) : Memory :=
  match m with
  | [] => if v = memDefault then [] else [(a, v)]
  | (b, w) :: rest =>
    if a < b then (if v = memDefault then (b, w) :: rest else (a, v) :: (b, w) :: rest)
    else if a = b then (if v = memDefault then rest else (a, v) :: rest)
    else (b, w) :: Memory.write rest a v

/-- The `n` bytes from `a`, lowest address first. -/
def Memory.readN (m : Memory) (a : Nat) : Nat → Bytes
  | 0 => []
  | n + 1 => m.read a :: m.readN (a + 1) n

/-- Write a byte string from `a` upwards, in ascending address order. -/
def Memory.writeN (m : Memory) (a : Nat) : Bytes → Memory
  | [] => m
  | b :: bs => (m.write a b).writeN (a + 1) bs

/-- Bytes of an undefined range of the direct region that lie outside a run of `n` bytes from `a`. -/
def cutOpen (a n : Nat) (x : OpenRange) : List OpenRange :=
  [{ x with length := min x.length (a - x.address) },
   { address := max x.address (a + n), length := x.address + x.length - max x.address (a + n),
     draw := x.draw + (max x.address (a + n) - x.address) }].filter fun (y : OpenRange) => y.length != 0

/-- `n` bytes of the direct region: those the manual leaves undefined are free (R194, R216; log entry 13). -/
def State.directRead (s : State) (a n : Nat) : Bytes :=
  (List.range n).map fun i =>
    match s.directOpen.find? fun x => decide (x.address ≤ a + i ∧ a + i < x.address + x.length) with
    | some x => Config.freeByte (x.draw + (a + i - x.address))
    | none => s.direct.read (a + i)

/-- Write bytes to the direct region. A line that failed its check passes again once all of it is written (R199). -/
def State.directWrite (s : State) (a : Nat) (data : Bytes) : State :=
  { s with direct := s.direct.writeN a data, directOpen := s.directOpen.flatMap (cutOpen a data.length)
           directBad := s.directBad.filter fun l => !(decide (a ≤ 64 * l) && decide (64 * l + 64 ≤ a + data.length)) }

/-- A run of the direct region is undefined from here on. -/
def State.directUndefined (s : State) (a n : Nat) : State :=
  if n = 0 then s
  else { s with directOpen := { address := a, length := n, draw := s.free } :: s.directOpen.flatMap (cutOpen a n), free := s.free + n }

/-- The canonical form: strictly rising addresses above `lo`, and no entry equal to what an unlisted address reads as. -/
def Memory.wfFrom (lo : Nat) : Memory → Bool
  | [] => true
  | (a, v) :: rest => decide (lo ≤ a) && (v != memDefault) && Memory.wfFrom (a + 1) rest

def Memory.wf (m : Memory) : Bool := Memory.wfFrom 0 m

/-! ### FIFO free lists (R23, R45, R167) -/

/-- The id at the head of the list and the list without it. -/
def FreeList.take (f : FreeList) : Option (Nat × FreeList) :=
  if f.fresh < f.limit then some (f.fresh, { f with fresh := f.fresh + 1 })
  else
    match f.freed with
    | [] => none
    | i :: rest => some (i, { f with freed := rest })

/-- Enter a freed id at the tail. -/
def FreeList.put (f : FreeList) (i : Nat) : FreeList := { f with freed := f.freed ++ [i] }

def FreeList.any (f : FreeList) : Bool := f.fresh < f.limit || !f.freed.isEmpty

/-- Generation of a slot: 1 until it has been freed once, then the table's entry (R23, R45). -/
def genOf (gens : List (Nat × Nat)) (i : Nat) : Nat :=
  match gens.find? fun g => g.1 == i with
  | some g => g.2
  | none => 1

/-- Set a slot's generation. -/
def setGen (gens : List (Nat × Nat)) (i g : Nat) : List (Nat × Nat) := (i, g) :: gens.filter fun x => x.1 != i

/-- The generation after one more return to the free state, 255 followed by 1 (R23). -/
def nextGen (g : Nat) : Nat := if g = 255 then 1 else g + 1

/-! ### Sequences -/

def Seq.handle (q : Seq) : Nat := q.index + q.gen * 2 ^ 24

/-- The live sequence that a handle names for a tenant (R24): slot in use, generation equal and never 0, tenant equal. -/
def State.seqOf (s : State) (tenant h : Nat) : Option Seq :=
  s.seqs.find? fun q => q.index == h % 2 ^ 24 && q.gen == h / 2 ^ 24 && q.gen != 0 && q.tenant == tenant

/-- Every version a sequence still holds, the current one first. -/
def Seq.versions (q : Seq) : List Version := q.cur :: q.old

/-- The version a pin copies (R38). -/
def State.pinned? (s : State) (p : Pin) : Option (Seq × Version) :=
  match s.seq? p.index with
  | none => none
  | some q => (q.versions.find? fun v => v.num == p.version).map fun v => (q, v)

/-- The slot of block `b` in a layout (R28). -/
def slotOf (layout window globals b : Nat) : Nat :=
  match layout with
  | 0 => b
  | 1 => b % window
  | _ => if b < globals then b else globals + (b - globals) % window

/-- Block `b` lies where its layout holds it (R28): always in a linear layout and below the global set, otherwise within
the last `window` blocks. -/
def Seq.windowHolds (q : Seq) (v : Version) (b : Nat) : Bool :=
  q.layout == 0 || (q.layout == 2 && b < q.globals) || v.blockCount ≤ b + q.window

/-- The block record in a slot of a version. -/
def Version.slotRec (v : Version) (slot : Nat) : Option Nat :=
  (v.slots.find? fun x => x.1 == slot).map Prod.snd

/-- The record of block `b` below the prefix depth: looked up through the handle's entry and its parent chain (R28, R46).
`fuel` bounds the chain. -/
def State.prefixRec (s : State) : Nat → Nat → Nat → Option Nat
  | 0, _, _ => none
  | fuel + 1, handle, b =>
    match s.dir.find? fun e => e.handle == handle with
    | none => none
    | some e =>
      if e.parent ≠ 0 ∧ b < e.parentDepth then s.prefixRec fuel e.parent b
      else (e.map.find? fun x => x.1 == b).map Prod.snd

/-- Longest parent chain that a walk of the directory follows; every link lowers the depth, which is at most 2^18. -/
def chainFuel : Nat := 262144

/-- Resolve block `b` at a version to its block record (R28). -/
def State.resolve (s : State) (q : Seq) (v : Version) (b : Nat) : Option Nat :=
  if v.blockCount ≤ b then none
  else if v.prefixHandle ≠ 0 ∧ b < v.prefixDepth then s.prefixRec chainFuel v.prefixHandle b
  else if q.windowHolds v b then v.slotRec (slotOf q.layout q.window q.globals b)
  else none

/-- Locator of a layer in a record. -/
def Rec.loc? (r : Rec) (layer : Nat) : Option Loc := r.locs[layer]?

/-- Change one locator by a single write (R31). -/
def State.modLoc (s : State) (id layer : Nat) (g : Loc → Loc) : State :=
  s.modRec id fun r => { r with locs := r.locs.zipIdx.map fun (l, i) => if i = layer then g l else l }

/-- An absent page. -/
def Loc.absent (fmt : Nat) : Loc :=
  { tier := 1, grains := 0, addr := 0, table := 0, fmt := fmt, version := 0, ripening := 0, uncoded := true,
    moving := false, pinned := false, published := false, lost := false, sweptAt := 0,
    pinBy := none }

/-! ### Code tables: page references (R170) -/

/-- Return a freed table id to the list it came from (R167). -/
def State.putTableId (s : State) (id : Nat) : State :=
  if s.params.importReserve + id < 65536 then { s with tabFree := s.tabFree.put id }
  else { s with impFree := s.impFree.put id }

/-- Free a retiring or faulted table that no page names any more, with an event (R170). -/
def State.tableSweep (s : State) (id : Nat) : State :=
  match s.table? id with
  | some t =>
    if t.st ≠ .live ∧ t.pageRefs = 0 then
      (({ s with tables := s.tables.filter fun x => x.id != id }).putTableId id).note "TABLE_FREED" (evSource 11 t.domain) id
    else s
  | none => s

/-- The live or retiring table of a domain with a digest (R171). -/
def State.tableByDigest (s : State) (domain : Nat) (digest : BitVec 64) : Option CodeTable :=
  s.tables.find? fun t => t.domain == domain && t.digest == digest && t.st != .faulted

def State.tableRef (s : State) (id : Nat) : State :=
  if id = 0 then s else s.modTable id fun t => { t with pageRefs := t.pageRefs + 1 }

def State.tableUnref (s : State) (id : Nat) : State :=
  if id = 0 then s else (s.modTable id fun t => { t with pageRefs := t.pageRefs - 1 }).tableSweep id

/-! ### Pages and block records -/

def State.page? (s : State) (tier addr : Nat) : Option Page :=
  s.pages.find? fun p => p.tier == tier && p.addr == addr && !p.freed

def State.modPage (s : State) (tier addr : Nat) (g : Page → Page) : State :=
  { s with pages := mapIf (fun p => p.tier == tier && p.addr == addr && !p.freed) g s.pages }

/-- LBAs of one grain of a local volume's namespace (R269; log entry 12). -/
def grainLbas (v : VolumeRec) : Nat := 16384 / Config.lbaBytes v.index

/-- A command on grains of a local volume (R269). -/
def volumeCmd (v : VolumeRec) (grain grains : Nat) (data : Option Bytes) : NvmeCmd :=
  { nsid := v.nsid, lba := v.firstLba + grain * grainLbas v, blocks := grains * grainLbas v, data := data }

/-- Asvis link to the tray of a remote volume: the lowest that is up, else the lowest that it was last known on (R269). -/
def State.trayLink (s : State) (v : VolumeRec) : Option Nat :=
  let find := fun (up : Bool) => s.ports.findSome? fun p => match p.id with
    | .asvis l => if (!up || p.st == .up) && (p.peer.elim false fun h => h.tray && h.device == v.device) then some l else none
    | .cxl _ => none
    | .nvme _ _ => none
  (find true).orElse fun _ => find false

/-- Freed grains of a local flash volume are deallocated (R269). -/
def State.deallocate (s : State) (p : Page) : State :=
  if p.tier ≠ 3 then s
  else match s.image.volumes.find? fun v => v.index == p.addr / 2 ^ 32 && v.local_ with
    | some v =>
      let n := volumeCmd v (p.addr % 2 ^ 32) p.grains none
      s.emit (.nvmeDeallocate v.cluster v.port n.nsid n.lba n.blocks)
    | none => s

/-- Return to the free grains every page that no locator names and no walk may still read; its table reference goes with
it (R31, R103, R170). -/
def State.sweepPages (s : State) : State :=
  let gone := s.pages.filter fun p => p.freed && p.keep.isEmpty
  gone.foldl (fun s p => (s.tableUnref p.table).deallocate p)
    { s with pages := s.pages.filter fun p => !(p.freed && p.keep.isEmpty) }

/-- Requests that hold a pin: their walks keep old grains (R31). -/
def State.pinnedReqs (s : State) : List Nat := (s.reqs.filter fun r => r.pin.isSome).map (·.id)

/-- Free the grains of a page, kept until every walk with a pin from before now has ended (R31, R103). -/
def State.freePage (s : State) (tier addr : Nat) : State :=
  (s.modPage tier addr fun p => { p with freed := true, keep := s.pinnedReqs }).sweepPages

/-- Free the pages a record's locators name, with its moves. -/
def State.freeLocs (s : State) (r : Rec) : State :=
  let s := r.locs.foldl (fun s l => if l.grains = 0 then s else s.freePage l.tier l.addr) s
  { s with moves := s.moves.filter (fun m => m.blk != r.id), staging := s.staging.filter fun c => c.blk != r.id }

/-- The metadata copies that a write reaches now: the copy in G0 and the copy in G1 (R12, R287). -/
def State.newMirrors (s : State) : Bool × Bool :=
  let ok := fun (n : Nat) => (s.groups.find? fun g => g.n == n).elim true (·.copyOk)
  (ok 0, ok 1)

/-- No metadata copy is left: nothing that changes metadata can be written (R12, R299). -/
def State.metaGone (s : State) : Bool := !s.newMirrors.1 && !s.newMirrors.2

/-- Status of a command whose new record or entry found no place: the memory for it is lost, or it is taken (R12, R208). -/
def State.noPlace (s : State) : Nat := if s.metaGone then stDataIntegrity else stRefusedCapacity

/-- Metadata address of a new piece of metadata: 48 bits, aligned, never 0 (R25). -/
def metaAddr (align id : Nat) : Nat := (1 + Config.metaPlace id % (2 ^ 48 / align - 1)) * align

/-- Entries of leaf page k of a block map. -/
def leafOf (slots : List (Nat × Nat)) (k : Nat) : List (Nat × Nat) := slots.filter fun x => x.1 / 512 == k

/-- The leaf pages `ks` of a new block map after an earlier one: a leaf whose entries the earlier map has stays that map's; every other is
a new page, placed from `id` on (R27, R37). -/
def newLeaves (old oldLeaves slots : List (Nat × Nat)) (id : Nat) (ks : List Nat) : List (Nat × Nat) :=
  let same := fun (k : Nat) => (leafOf old k).all (fun x => (leafOf slots k).contains x) && (leafOf slots k).all fun x => (leafOf old k).contains x
  ks.map fun k => ((if same k then oldLeaves.find? fun x => x.1 == k else none)).getD (k, metaAddr 4096 (id + k))

/-- The map root: a root page placed by `id` above one leaf, otherwise that leaf, 0 for no page (R25, R27). -/
def mapRootOf (two : Bool) (leaves : List (Nat × Nat)) (id : Nat) : Nat :=
  if leaves.isEmpty then 0 else if two then metaAddr 4096 id else leaves.head?.elim 0 Prod.snd

/-- Leaf pages that a map of `slots` slots spans. -/
def leafCount (slots : Nat) : Nat := max 1 (cdiv slots 512)

/-- A directory entry with its prefix map set: the pages of R27, and a leaf only where one of its own blocks stands (R46). -/
def DirEntry.withMap (e : DirEntry) (id : Nat) (map : List (Nat × Nat)) : DirEntry :=
  let leaves := newLeaves e.map e.leaves map id ((List.range (leafCount e.depth)).filter fun k => !(leafOf map k).isEmpty)
  { e with map := map, twoLevel := decide (512 < e.depth), leaves := leaves, mapRoot := mapRootOf (decide (512 < e.depth)) leaves (id + leafCount e.depth) }

/-- Write the prefix map of an entry (R46). -/
def State.putMap (s : State) (slot : Nat) (map : List (Nat × Nat)) : State :=
  let n := (s.dir? slot).elim 0 fun e => leafCount e.depth
  { s with ids := s.ids + n + 1 }.modDir slot fun e => e.withMap s.ids map

/-- The shares_blocks bit of every sequence follows its records' shared bits (R25, R34). -/
def State.refreshShares (s : State) : State :=
  { s with seqs := s.seqs.map fun (q : Seq) => { q with sharesBlocks := (q.cur.slots.filterMap fun x => s.rec? x.2).any (·.shared) } }

/-- One reference to a record less; at 0 the record and its grains are freed (R36, R41). -/
def State.unrefRec (s : State) (id : Nat) : State :=
  match s.rec? id with
  | none => s
  | some r =>
    if r.refs ≤ 1 then ({ s with recs := s.recs.filter fun x => x.id != id }).freeLocs r
    else s.modRec id fun r => { r with refs := r.refs - 1, shared := decide (2 < r.refs) }

/-- One reference more (R34). -/
def State.refRec (s : State) (id : Nat) : State :=
  s.modRec id fun r => { r with refs := r.refs + 1, shared := true }

/-- Records of a version, each once. -/
def Version.recIds (v : Version) : List Nat := (v.slots.map Prod.snd).eraseDups

/-- Free a version of sequence `i` that is not current and has no pin: its leaf pages go, and every record reachable only
from it loses the sequence's reference (R41). -/
def State.reclaimVersion (s : State) (i num : Nat) : State :=
  match s.seq? i with
  | none => s
  | some q =>
    match q.old.find? fun v => v.num == num && v.pins == 0 with
    | none => s
    | some v =>
      let q' := { q with old := q.old.filter fun x => x.num != num }
      let live := q'.versions.flatMap Version.recIds
      (v.recIds.filter fun r => !live.contains r).foldl (fun s r => s.unrefRec r) (s.modSeq i fun _ => q')

/-- A copy of a directory entry or record can be written from the other: while a group's metadata copy is gone the other serves
alone (R297). -/
def State.repairable (s : State) : Bool := s.groups.all (·.copyOk)

/-- Both copies of a table's record have failed: the streams naming it revert to 0, and with no page left it is freed (R167, R170). -/
def State.faultTable (s : State) (id : Nat) : State :=
  match s.table? id with
  | none => s
  | some t =>
    if t.st = .faulted then s
    else
      let s := (s.modTable id fun t => { t with st := .faulted, streamRefs := 0 }).note "TABLE_FAULTED" (evSource 11 t.domain) id
      { s with streams := s.streams.filter fun x => x.table != id }.tableSweep id

/-- Load a table's record (R26, R167): a bad mirror is repaired from the other; with both bad the table is faulted. -/
def State.loadTable (s : State) (id : Nat) : State :=
  match s.table? id with
  | none => s
  | some t =>
    if t.mirrorA && t.mirrorB then s
    else if t.mirrorA || t.mirrorB then
      if !s.repairable then s
      else (s.modTable id fun t => { t with mirrorA := true, mirrorB := true }).note "METADATA_REPAIRED" (evSource 11 t.domain) id
    else s.faultTable id

/-! ### Completion records (R202 to R206) -/

/-- Write one record to the ring of an attachment at completion number `c`. -/
def State.putRecord (s : State) (fn : Nat) (g : Ring) (c opcode slotSeq tag status result : Nat) (fl : RecFlags) : State :=
  s.emit (.completion
    { fn := fn, attach := g.attach, c := c, addr := g.base + 32 * (c % 2 ^ g.log2), status := status, opcode := opcode,
      phase := (c / 2 ^ g.log2 + 1) % 2 == 1, nonfinite := fl.nonfinite, curd := fl.curd, remote := fl.remote,
      multi := fl.multi, slotSeq := slotSeq, tag := tag, timeUs := s.now / ticksPerUs % 2 ^ 32, result := result })

/-- Write the next record of an attachment's ring; an attachment whose ring is gone gets none (R203, R215). -/
def State.record (s : State) (fn attach opcode slotSeq tag status result : Nat) (fl : RecFlags) : State :=
  match s.fn? fn with
  | none => s
  | some f =>
    match f.rings.find? fun g => g.attach == attach with
    | none => s
    | some g =>
      (s.putRecord fn g g.next opcode slotSeq tag status result fl).modFn fn fun f =>
        { f with rings := mapIf (·.attach == attach) (fun g => { g with next := g.next + 1 }) f.rings }

/-- The 32 bytes of a completion record (R205). -/
def Completion.bytes (c : Completion) : Bytes :=
  let flag := fun (b : Bool) (i : Nat) => if b then 2 ^ i else 0
  leBytes 32 (c.status + c.opcode * 2 ^ 8 + flag c.phase 16 + flag c.nonfinite 17 + flag c.curd 18 + flag c.remote 19 + flag c.multi 20
    + c.slotSeq * 2 ^ 32 + c.tag * 2 ^ 64 + c.timeUs * 2 ^ 96 + c.result * 2 ^ 128)

/-! ### The end of a request -/

/-- Handles that a descriptor carries: it names these sequences (R40). -/
def namesOf : Desc → List Nat
  | .closeSeq h => [h]
  | .forkSeq f => [f.parent]
  | .truncate f => [f.seq]
  | .replace f => [f.seq]
  | .append f => [f.seq]
  | .pinRange f => [f.seq]
  | .unpinRange f => [f.seq]
  | .prefetchHint f => [f.seq]
  | .attachPrefix f => [f.seq]
  | .publish f => [f.seq]
  | .fetch f => [f.seq]
  | .attend f => [f.seq]
  | .fill f => if f.dst.kind = 2 then [f.dst.handle] else []
  | .copy f => (if f.a.kind = 2 then [f.a.handle] else []) ++ if f.b.kind = 2 then [f.b.handle] else []
  | .compare f => (if f.a.kind = 2 then [f.a.handle] else []) ++ if f.b.kind = 2 then [f.b.handle] else []
  | .fence f => if f.mode = 1 then [f.seq] else []
  | _ => []

/-- The sequence that a descriptor changes, in the sense of R40. -/
def changeOf : Desc → Option Nat
  | .closeSeq h => some h
  | .truncate f => some f.seq
  | .replace f => some f.seq
  | .append f => some f.seq
  | .attachPrefix f => some f.seq
  | .publish f => some f.seq
  | _ => none

/-- A FENCE counts a request: taken after the function's previous FENCE, before it, and in its scope (R219). -/
def FenceCount.covers (c : FenceCount) (r : Req) : Bool :=
  c.fn == r.fn && c.after < r.id && r.id < c.req &&
    (match c.seq with
     | none => true
     | some h => (namesOf r.desc).contains h)

/-- Count a failed request at its FENCEs (R219). -/
def State.fenceCount (s : State) (r : Req) (status : Nat) : State :=
  if status < 0x10 then s
  else
    let s := { s with fences := s.fences.map fun (c : FenceCount) => if c.covers r then { c with failed := c.failed + 1 } else c }
    s.modFn r.fn fun f => if f.lastFence < r.id then { f with fails := namesOf r.desc :: f.fails } else f

/-- Completions kept per function for TRACE_READ (R386). -/
def traceKept : Nat := 4096

/-- Note a completion in the function's trace and counters (R384, R386). -/
def State.trackRecord (s : State) (r : Req) (status : Nat) : State :=
  let e : Trace := { fn := r.fn, stamp := r.stamp, admission := r.decided, firstByte := s.now, slotSeq := r.slotSeq,
                     status := status, opcode := r.opcode, tag := r.tag }
  let mine := (e :: s.trace.filter fun x => x.fn == r.fn).take traceKept
  let key := fun (x : Nat × Nat × Nat) => x.1 == r.fn && x.2.1 == status
  let served := if s.telemetry.served.any key then mapIf key (fun x => (x.1, x.2.1, x.2.2 + 1)) s.telemetry.served
    else (r.fn, status, 1) :: s.telemetry.served
  { s with trace := mine ++ s.trace.filter (fun x => x.fn != r.fn), telemetry := { s.telemetry with served := served } }

/-- End the pin of a request: the version loses one pin (R38). -/
def State.unpin1 (s : State) (p : Option Pin) : State :=
  match p with
  | none => s
  | some p =>
    s.modSeq p.index fun q =>
      if q.cur.num = p.version then { q with cur := { q.cur with pins := q.cur.pins - 1 } }
      else { q with old := mapIf (·.num == p.version) (fun v => { v with pins := v.pins - 1 }) q.old }

def State.unpin (s : State) (r : Req) : State := (s.unpin1 r.pin).unpin1 r.pin2

/-- A request waits: behind an earlier change of its function to a sequence it names (R40), or, at classes 1 to 7, behind
an earlier FENCE whose scope holds it (R219). Lookups neither pin nor commit, so no FENCE holds them. -/
def State.blocked (s : State) (r : Req) : Bool :=
  s.reqs.any fun x => x.fn == r.fn && decide (x.id < r.id) &&
    ((match changeOf x.desc with
      | some h => (namesOf r.desc).contains h
      | none => false) ||
     (r.cls != 0 && (match x.desc, r.desc with
      | .fence _, .lookupHash _ => false
      | .fence _, .lookupToken _ => false
      | .fence _, .lookupFlow _ => false
      | .fence _, .fence _ => false
      | .fence f, _ => f.mode == 0 || (namesOf r.desc).contains f.seq
      | _, _ => false)))

/-- Commits that the end of request `id` leaves no longer blocked became ready in this tick (R40). -/
def State.unblock (s : State) (id : Nat) : State :=
  let t := { s with reqs := s.reqs.filter fun x => x.id != id }
  { t with reqs := mapIf (fun (x : Req) => x.phase == .ready && s.blocked x && !t.blocked x) (fun x => { x with readyAt := s.now }) t.reqs }

/-- The transaction is forgotten when request `id` ends: nothing waits for its answer any more. -/
def TxnKind.endsWith (k : TxnKind) (id : Nat) : Bool :=
  match k with
  | .region r => r == id
  | .spill r => r == id
  | .rekey r _ _ => r == id
  | .farPage _ => false
  | .tableFetch _ _ => false
  | .lookup _ => false
  | .attach _ => false
  | .publish _ => false
  | .dirParent _ _ _ _ => false
  | .withdraw _ => false
  | .release _ => false
  | .put _ => false
  | .chunk _ _ _ => false
  | .claim _ => false
  | .nmo _ => false
  | .destage _ => false
  | .trayRead _ _ _ _ => false

/-- Everything a request holds is released: its pin, reservations, monitor entry, staging copies, table references, the
grains kept for its walk, and its places in open curds (R41, R106, R168, R228). -/
def State.dropReq (s : State) (r : Req) : State :=
  let s := s.unpin r
  let s := s.unblock r.id
  let s := { s with
    calendar := s.calendar.filter fun (c : Resv) => c.req != r.id
    monitor := { s.monitor with held := s.monitor.held.filter (fun (m : Nat × Nat) => m.1 != r.id)
                                ends := s.monitor.ends.filter fun (m : Nat × List Nat) => m.1 != r.id }
    staging := s.staging.filter (fun c => c.req != r.id)
    txns := s.txns.filter (fun (t : Txn) => !t.kind.endsWith r.id)
    moves := s.moves.map (fun (m : Move) => if m.req = some r.id then { m with req := none } else m)
    curds := s.curds.map (fun (c : Curd) => if c.running then c else { c with members := c.members.filter fun (m : Member) => m.req != r.id })
    pages := s.pages.map fun (p : Page) => { p with keep := p.keep.filter fun i => i != r.id } }
  let s := (r.tables.map Prod.snd).eraseDups.foldl (fun s t => s.tableUnref t) s
  s.sweepPages

/-- Module group of a function. -/
def State.groupOfFn (s : State) (fn : Nat) : Nat := (s.fn? fn).elim 0 (·.group)

/-- Write result bytes of a request to host memory behind its function's module group (R189). -/
def State.hostPut (s : State) (r : Req) (addr : Nat) (data : Bytes) : State :=
  (s.emit (.hostWrite (s.groupOfFn r.fn) addr data)).enqueue (s.groupOfFn r.fn) r.fn r.cls data.length

/-- Complete a request: exactly one record, and everything it holds released (R203, R208, R228). -/
def State.finish (s : State) (r : Req) (status result : Nat) (fl : RecFlags := {}) : State :=
  ((((s.record r.fn r.attach r.opcode r.slotSeq r.tag status result fl).enqueue (s.groupOfFn r.fn) r.fn r.cls 32).trackRecord r status).fenceCount
    r status).dropReq r

/-- Write the result bytes of a request; its record follows once they are written (R17, R189). -/
def State.answerWith (s : State) (r : Req) (addr : Nat) (data : Bytes) (status result : Nat) (fl : RecFlags := {}) : State :=
  (s.hostPut r addr data).modReq r.id fun r => { r with phase := .writing, answer := some { status := status, result := result, flags := fl } }

/-- The writes of a request's result have ended, or one was rejected or failed: the request completes, with `failure` in the
second case (R189). -/
def State.writeEnds (s : State) (r : Req) (failure : Option (Nat × Nat)) : State :=
  match r.answer, failure with
  | none, _ => s
  | some a, none => s.finish r a.status a.result a.flags
  | some a, some (st, res) => s.finish r st res { curd := a.flags.curd }

/-- A request that an event of the tick `now` marks to end: the first event decides, and among events of one tick the
precedence of R143. A request whose result is being written has its status (log entry 102). -/
def Req.mark (r : Req) (now status block layer : Nat) : Req :=
  let m := { r with ended := some status, endedAt := now, endBlock := block, endLayer := layer }
  if r.phase = .writing then r
  else match r.ended with
  | some st => if r.endedAt = now ∧ endRank status < endRank st then m else r
  | none => m

/-- Mark a request to end with `status` at its next page boundary (R143). -/
def State.markEnd (s : State) (id status block layer : Nat) : State := s.modReq id fun r => r.mark s.now status block layer

/-- The request has been decided to end and does nothing more. One whose deadline tick this is may still send its own record in it
(R226). -/
def Req.stops (r : Req) : Bool := r.ended.any fun st => st != stDeadlineFault

/-- An outstanding request that still runs. -/
def State.run? (s : State) (id : Nat) : Option Req := (s.req? id).filter fun r => !r.stops

/-- A fault ends a request: the events of the tick decide its status together, and its record follows at the tick's end (R143, R218). -/
def State.faultReq (s : State) (r : Req) (status block layer : Nat) : State :=
  if r.phase = .writing then s.writeEnds r (some (status, if 0x41 ≤ status ∧ status ≤ 0x43 then resFaultAt block layer else 0))
  else s.markEnd r.id status block layer

/-- Pin the current version of a sequence for a request (R38). -/
def State.pinCurrent (s : State) (id : Nat) (q : Seq) : State :=
  (s.modSeq q.index fun q => { q with cur := { q.cur with pins := q.cur.pins + 1 } }).modReq id fun r =>
    { r with pin := some { index := q.index, version := q.cur.num } }

/-- Pin the current version of the sequence of a second operand (R193). -/
def State.pinSecond (s : State) (id : Nat) (q : Seq) : State :=
  (s.modSeq q.index fun q => { q with cur := { q.cur with pins := q.cur.pins + 1 } }).modReq id fun r =>
    { r with pin2 := some { index := q.index, version := q.cur.num } }

end Sys2Proof.Machine
end

