-- ==== Sys2Proof/Machine/Operands.lean ====
section
/-! DEFINITION. Operands: the bit maps of descriptors, block lists, memory operands and abort slots (R186 to R195), what
each version offers of them (R196), and the checks of single fields (R25, R124, R190). -/

namespace Sys2Proof.Machine

/-- A descriptor or other record as a number: bit 0 is bit 0 of byte 0 (R5). -/
abbrev Raw := Nat

def rawOf (b : Bytes) : Raw := ofLeBytes b

/-! ### Bodies (R190 to R195) -/

/-- The flow key of OPEN_SEQUENCE and FORK_SEQUENCE, bits [543:224]. -/
def parseFlowKey (d : Raw) : FlowKeyF :=
  { flow := bits d 224 2, maskMode := bits d 226 2, zone := bits d 232 8, protocol := bits d 240 8,
    srcPort := bits d 248 16, dstPort := bits d 264 16, srcAddr := bits d 288 128, dstAddr := bits d 416 128 }

def parseOpen (d : Raw) : OpenF :=
  { model := bits d 128 8, layout := bits d 136 2, fmt := bits d 138 5, floor := bits d 143 5, seqClass := bits d 148 3,
    horizon := bits d 152 8, window := bits d 160 20, globals := bits d 180 8, t1res := bits d 192 32,
    key := parseFlowKey d }

def parseFork (d : Raw) : ForkF :=
  { parent := bits d 128 32, n := bits d 160 20, t1res := bits d 192 32, key := parseFlowKey d }

def parseBlocks (d : Raw) : BlocksF :=
  { seq := bits d 128 32, checkVersion := bit d 161, expected := bits d 192 32, firstBlock := bits d 224 18,
    blockCount := bits d 242 7, blockList := bits d 256 64, pageBase := bits d 320 64, pageStride := bits d 384 32 }

def parseRange (d : Raw) : RangeF :=
  { seq := bits d 128 32, firstBlock := bits d 160 18, blockCount := bits d 192 19, firstLayer := bits d 224 8,
    layerCount := bits d 232 9, target := bits d 241 1 }

def parseFetch (d : Raw) : FetchF :=
  { seq := bits d 128 32, firstBlock := bits d 160 18, blockCount := bits d 178 7, firstLayer := bits d 192 8,
    layerCount := bits d 200 9, form := bits d 209 1, buffer := bits d 256 64, bufferLen := bits d 320 40 }

/-- Start of hash-form pair `i` (R192). -/
def pairBit (i : Nat) : Nat := if i < 4 then 192 + 160 * i else 1024 + 160 * (i - 4)

def parsePair (d : Raw) (i : Nat) : PairF :=
  { hash := BitVec.ofNat 128 (bits d (pairBit i) 128), depth := bits d (pairBit i + 128) 19 }

def parseLookupToken (d : Raw) : LookupTokenF :=
  { model := bits d 136 8, tokenBlocks := bits d 192 16, hasStart := bit d 208, startDepth := bits d 209 19,
    startHash := BitVec.ofNat 128 (bits d 384 128), tokenAddr := bits d 256 64, resultAddr := bits d 320 64 }

def parseLookupFlow (d : Raw) : LookupFlowF :=
  { maxMatches := bits d 148 3, resultAddr := bits d 320 64, family := bits d 512 2, dscp := bits d 514 6,
    zone := bits d 520 8, protocol := bits d 528 8, srcPort := bits d 536 16, dstPort := bits d 552 16,
    leadCount := bits d 568 5, srcAddr := bits d 576 128, dstAddr := bits d 704 128, leadBytes := bits d 832 128 }

/-- A LOOKUP_PREFIX of any form; a form without a meaning stays an invalid form (R190). -/
def parseLookup (d : Raw) : Desc :=
  match bits d 128 2 with
  | 0 => .lookupHash { model := bits d 136 8, pairs := (List.range (bits d 144 4)).map (parsePair d) }
  | 1 => .lookupToken (parseLookupToken d)
  | 2 => .lookupFlow (parseLookupFlow d)
  | _ => .invalidForm 0x20

def parseAttachPrefix (d : Raw) : AttachPrefixF :=
  { seq := bits d 128 32, depth := bits d 160 20, handle := bits d 192 64 }

def parsePublish (d : Raw) : PublishF :=
  { seq := bits d 128 32, depth := bits d 160 20, digestAddr := bits d 256 64 }

def parseAttend (d : Raw) : AttendF :=
  { seq := bits d 128 32, layer := bits d 160 8, kvFirst := bits d 168 6, kvCount := bits d 174 7, qTokens := bits d 181 4,
    qFormat := bits d 185 2, causal := bit d 187, segMask := bit d 188, oFormat := bits d 189 1, multiPartial := bit d 190,
    qRequant := bit d 191, qPos := bits d 192 22, curdMode := bits d 214 2, curdExpect := bits d 216 8,
    keyPrecision := bits d 224 5, qSegment := bits d 232 16, windowTokens := bits d 256 23, sinkTokens := bits d 288 23,
    scale := BitVec.ofNat 32 (bits d 320 32), softcap := BitVec.ofNat 32 (bits d 352 32), blockLo := bits d 384 19,
    blockHi := bits d 416 19, query := bits d 448 64, result := bits d 512 64, resultLen := bits d 576 40 }

def parseLoadTable (d : Raw) : LoadTableF :=
  { tableId := bits d 144 16, model := bits d 160 8, fmt := bits d 168 5, layerFirst := bits d 176 8,
    layerCount := bits d 184 9, image := bits d 256 64 }

/-- A LOAD_TABLE by its op (R169). -/
def parseTableOp (d : Raw) : Desc :=
  match bits d 128 2 with
  | 0 => .tableLoad (parseLoadTable d)
  | 1 => .tableSelect (parseLoadTable d)
  | 2 => .tableExport (parseLoadTable d)
  | _ => .invalidForm 0x40

def parseWeights (d : Raw) : WeightsF :=
  { model := bits d 128 8, offset := bits d 192 64, length := bits d 256 32, buffer := bits d 320 64 }

/-- A memory operand at bit `lo` (R193). -/
def parseMemOp (d : Raw) (lo : Nat) : MemOpF :=
  { kind := bits d lo 2, handle := bits d (lo + 32) 32, address := bits d (lo + 64) 64, length := bits d (lo + 128) 40 }

def parseReduce (d : Raw) : ReduceF :=
  { dest := parseMemOp d 128, outFormat := bits d 322 1, srcKind := bits d 323 1, srcCount := bits d 324 5,
    count := bits d 352 32, headDim := bits d 384 10, srcBase := bits d 448 64, srcStride := bits d 512 40 }

/-- A REDUCE by its op (R194, R195). -/
def parseReduceOp (d : Raw) : Desc :=
  match bits d 320 2 with
  | 0 => .reduceSum (parseReduce d)
  | 1 => .reduceMax (parseReduce d)
  | 2 => .lseMerge (parseReduce d)
  | _ => .invalidForm 0x53

/-- The descriptor that 64, 128 or 256 bytes of slots spell (R187, R188). -/
def parseDesc (d : Raw) : Desc :=
  match bits d 0 8 with
  | 0x01 => .attachFn { version := bits d 128 2, ringLog2 := bits d 136 5, ringBase := bits d 192 64 }
  | 0x02 => .detach (bits d 128 1)
  | 0x08 => .fence { mode := bits d 128 1, seq := bits d 160 32 }
  | 0x10 => .openSeq (parseOpen d)
  | 0x11 => .closeSeq (bits d 128 32)
  | 0x12 => .forkSeq (parseFork d)
  | 0x13 => if bit d 160 then .replace (parseBlocks d) else .truncate (parseBlocks d)
  | 0x14 => .append (parseBlocks d)
  | 0x18 => .pinRange (parseRange d)
  | 0x19 => .unpinRange (parseRange d)
  | 0x20 => parseLookup d
  | 0x21 => .attachPrefix (parseAttachPrefix d)
  | 0x22 => .publish (parsePublish d)
  | 0x23 => .withdraw (bits d 192 64)
  | 0x30 => .fetch (parseFetch d)
  | 0x31 => .prefetchHint (parseRange d)
  | 0x38 => .attend (parseAttend d)
  | 0x40 => parseTableOp d
  | 0x41 => .retire { tableId := bits d 144 16, defer := bit d 130 }
  | 0x50 => .fill { dst := parseMemOp d 128, pattern := BitVec.ofNat 64 (bits d 320 64) }
  | 0x51 => .copy { a := parseMemOp d 128, b := parseMemOp d 320 }
  | 0x52 => .compare { a := parseMemOp d 128, b := parseMemOp d 320 }
  | 0x53 => parseReduceOp d
  | 0x60 => .weights (parseWeights d)
  | o => .unknown o

/-- The header of a descriptor (R188), its stamp taken apart (R181). -/
def parseSub (d : Raw) (group fn k n : Nat) (long : Bool) : Sub :=
  { group := group, fn := fn, seq := k % 32768, phase := k / n % 2, long := long, cls := bits d 8 3, tag := bits d 32 32,
    deadline := bits d 64 64 }

/-- One entry of a block list (R191). -/
def parseBlockEntry (e : Raw) : BlockEntry :=
  { segment := bits e 0 16, validTokens := bits e 16 7, hashed := bit e 23, tokens := bit e 24,
    chainHash := BitVec.ofNat 128 (bits e 64 128), tokenAddr := bits e 192 64 }

/-- The entries of a block list of `n` blocks. -/
def parseBlockList (n : Nat) (b : Bytes) : List BlockEntry :=
  (List.range n).map fun i => parseBlockEntry (rawOf ((b.drop (32 * i)).take 32))

/-- The fields of an abort slot (R186). -/
structure AbortF where
  scope : Nat
  tag   : Nat
  first : Nat
  count : Nat
  seq   : Nat
  deriving DecidableEq, Repr

def parseAbort (d : Raw) : AbortF :=
  { scope := bits d 0 2, tag := bits d 32 32, first := bits d 64 15, count := bits d 80 16, seq := bits d 448 16 }

/-! ### What a version reads of a body (R123, R190, R196) -/

/-- Under Z1 a body ends at bit 447: address bits above it are 0 and stay 0. -/
def z1Key (k : FlowKeyF) : FlowKeyF := { k with dstAddr := k.dstAddr % 2 ^ 32 }

/-- A descriptor as its function's version reads it: under Z1 the fields above bit 447 are 0, and under Z1 and Z2 the
fields that Z3 adds to ATTEND read as 0. -/
def normDesc (version : Nat) (d : Desc) : Desc :=
  match d with
  | .openSeq f => if version = 1 then .openSeq { f with key := z1Key f.key } else d
  | .forkSeq f => if version = 1 then .forkSeq { f with key := z1Key f.key } else d
  | .attend f =>
    if version = 3 then d
    else .attend { f with multiPartial := false, qRequant := false, curdMode := 0, curdExpect := 0 }
  | _ => d

/-- Slots of a window layout (R180). -/
def slotCount (version : Nat) : Nat := if version = 1 then 256 else 128

/-- Bytes of a slot. -/
def slotBytes (version : Nat) : Nat := if version = 1 then 64 else 128

/-- A descriptor that the slots' shape refuses with INVALID_FIELD (R185): only a hash-form lookup of more than four pairs is long. -/
def shapeBad (version : Nat) (long : Bool) (d : Desc) : Bool :=
  match d with
  | .lookupHash f => decide (f.pairs.length < 1 ∨ 8 < f.pairs.length) || (version == 1 && 1 < f.pairs.length) || long != decide (4 < f.pairs.length)
  | .lookupToken _ => long || version != 3
  | .lookupFlow _ => long || version == 1
  | .invalidForm _ => true
  | _ => long

/-! ### Class 0 by opcode and form (R222) -/

inductive ClassZero where
  | yes | explicit | no
  deriving DecidableEq, Repr

def memKinds (l : List MemOpF) : ClassZero := if l.any (fun m => m.kind == 3) then .no else .explicit

def classZero : Desc → ClassZero
  | .lookupHash _ => .yes
  | .fetch _ => .yes
  | .attend _ => .explicit
  | .openSeq _ => .explicit
  | .closeSeq _ => .explicit
  | .attachPrefix _ => .explicit
  | .append _ => .explicit
  | .fill f => memKinds [f.dst]
  | .copy f => memKinds [f.a, f.b]
  | .compare f => memKinds [f.a, f.b]
  | .reduceSum f => memKinds [f.dest]
  | .reduceMax f => memKinds [f.dest]
  | .lseMerge f => memKinds [f.dest]
  | _ => .no

/-- The header checks of R188: each that fails completes INVALID_FIELD. `deadline` is 0 under Z1. -/
def headerOk (cls deadline : Nat) (d : Desc) : Bool :=
  if cls = 0 then
    match classZero d with
    | .yes => true
    | .explicit => deadline != 0
    | .no => false
  else deadline == 0

/-! ### Sequence-level fields -/

/-- The flow key's own fields are legal: no `3`, no IPv6 entry under Z1 (R190). -/
def flowFieldOk (version : Nat) (k : FlowKeyF) : Bool := k.flow ≤ 1 || (k.flow == 2 && version != 1)

/-- A precision floor is a format id or 31 (R25). -/
def floorOk (f : Nat) : Bool := f ≤ 8 || f == 31

/-- Rank of a floor: 31 ranks below every format (R125). -/
def floorRank (f : Nat) : Nat := if f = 31 then 0 else precisionRank f

/-- Legal fields of OPEN_SEQUENCE (R25, R29, R32). -/
def openFieldsOk (s : State) (version : Nat) (f : OpenF) : Bool :=
  match s.model? f.model with
  | none => false
  | some m =>
    decide (f.layout ≤ 2) && decide (f.fmt ≤ 8) && bit m.kvFormats f.fmt && floorOk f.floor && flowFieldOk version f.key
      && (match f.layout with
          | 0 => f.window == 0 && f.globals == 0
          | 1 => decide (2 ≤ f.window ∧ f.window ≤ 262144) && f.globals == 0
          | _ => decide (2 ≤ f.window ∧ f.window ≤ 262144 ∧ 1 ≤ f.globals ∧ f.globals + f.window ≤ 262144))

/-- FP32 bits of 0 or of a positive normal finite value (R124). The bits of -0 are not taken for the value 0 (DESIGN CHOICE, log
entry 116). -/
def scaleOk (b : BitVec 32) : Bool := b == 0 || (decide (0x00800000 ≤ b.toNat) && decide (b.toNat < 0x7f800000))

/-- Legal fields of ATTEND against its model and the version that the request reads (R29, R124). `held` is the version's
block count. -/
def attendFieldsOk (m : ModelRec) (layout window held : Nat) (f : AttendF) : Bool :=
  let hi := if f.blockHi = 0 then held else f.blockHi
  decide (f.layer < m.layers) && decide (1 ≤ f.kvCount ∧ f.kvFirst + f.kvCount ≤ m.kvHeads)
    && decide (1 ≤ f.qTokens ∧ f.qTokens ≤ 8) && decide (f.qFormat ≤ 2) && decide (f.qPos + f.qTokens ≤ 4194304)
    && decide (f.windowTokens ≤ 4194304) && decide (f.sinkTokens ≤ 4194304)
    && (layout == 0 || decide (1 ≤ f.windowTokens ∧ f.windowTokens ≤ (window - 1) * m.blockTokens + 1))
    && scaleOk f.scale && scaleOk f.softcap && floorOk f.keyPrecision && decide (f.oFormat ≤ 1)
    && decide (f.blockLo ≤ hi ∧ hi ≤ held) && (!f.multiPartial || f.oFormat == 0) && decide (f.curdMode ≤ 2)
    && f.query % 256 == 0 && f.result % 256 == 0

/-! ### Page shapes -/

/-- The page shape of a model in a storage format (R22, R120). -/
def shapeOf (m : ModelRec) (fmt : Nat) : PageShape :=
  { fmt := fmt, heads := m.kvHeads, dim := m.headDim, tokens := m.blockTokens }

/-- Grains of a page of `n` bytes (R22). -/
def grainsOf (n : Nat) : Nat := max 1 (cdiv n grainBytes)

/-- Worst-case page length W (R173). -/
def pageWorst (p : PageShape) : Nat := max p.rawBytes 10240

end Sys2Proof.Machine
end

