-- ==== Sys2Proof/Machine/Calendars.lean ====
section
/-! DEFINITION. Resource calendars and the shared arithmetic of admission (R222 to R235, R244, R248). -/

namespace Sys2Proof.Machine

/-- Ticks of a bucket. -/
def bucketTicks : Nat := 256

/-- Buckets of the horizon beyond the current one. -/
def horizonBuckets : Nat := 4096

/-- First tick beyond the calendar horizon. -/
def State.horizonEnd (s : State) : Nat := (s.now / bucketTicks + horizonBuckets + 1) * bucketTicks

/-- An engine cluster is being reset: its calendar has no capacity (R376). -/
def State.clusterResets (s : State) (cluster : Nat) : Bool := s.resets.active.any fun x => x.1 == 1 && x.2.1 == cluster

/-- Active engines of a cluster: logical number and physical slot, lowest logical number first. -/
def State.activeEngines (s : State) (cluster : Nat) : List (Nat × Nat) :=
  if s.clusterResets cluster then [] else
  let es := s.engines.filterMap fun e =>
    match e.st with
    | .active l => if e.cluster = cluster then some (l, e.slot) else none
    | _ => none
  (List.range 16).flatMap fun l => es.filter fun x => x.1 == l

/-- Ticks of engine work in the throttle stage in force: divided by the engine fraction (R401, R402). -/
def State.slowed (s : State) (t : Nat) : Nat :=
  match s.power.stage with
  | 0 => t
  | 1 => cdiv (4 * t) 3
  | _ => 2 * t

/-- The module is the direct module, which carries CXL in place of Zarfy (R197). -/
def State.isDirect (s : State) (g m : Nat) : Bool := s.params.directBytes != 0 && s.params.directGroup == g && s.params.directModule == m

/-- Modules of a group that carry Zarfy and are in service (R197, R348). -/
def State.zarfyModules (s : State) (g : Nat) : List Nat :=
  (List.range 4).filter fun m => !s.isDirect g m && !s.faults.modulesOut.contains (g, m)

/-- UCIe rate of a module group in GT/s over the modules that carry Zarfy; those out of service take their share (R348). -/
def State.ucieRate (s : State) (g : Nat) : Nat :=
  match s.ucie? g with
  | some u => u.rateGts * (s.zarfyModules g).length
  | none => 0

/-- Open share of class 0 in a gate cycle, as numerator over the cycle: the whole cycle where there is no schedule. -/
def gateShare (cycle : Nat) (gates : List GateEntry) : Nat × Nat :=
  if gates.isEmpty ∨ cycle = 0 then (1, 1)
  else (sumBy (fun g => if bit g.opened 0 then g.duration else 0) gates, cycle)

/-- A far route (R225): the number of an Asvis link, 96 plus the cluster of a CXL port as in the extent table (R249), or
256 plus a link cluster in NVMe mode. -/
def routePort (s : State) (route : Nat) : Option Port :=
  if route < 96 then s.port? (.asvis route)
  else if route < 256 then s.port? (.cxl (route - 96))
  else s.ports.find? fun p => match p.id with
    | .nvme c _ => c == route - 256
    | .cxl _ => false
    | .asvis _ => false

/-- Payload bytes of a route per bucket (R227): 30,032 for a 224 Gb/s Asvis link, times its class-0 gate share (R244). -/
def State.fabricCapacity (s : State) (route : Nat) : Nat :=
  match routePort s route with
  | none => 0
  | some p =>
    let (n, d) := gateShare p.peerCycle p.peerGates
    30032 * p.rate * n / (224 * d)

/-- Grains of staging (R93): the shelf's grains above T0, less those of banks out of service (R343). -/
def State.stagingGrains (s : State) : Nat :=
  16384 - s.params.t0Grains - sumBy (fun b => match b.2 with
    | .gone => min 256 (256 * (b.1 + 1) - s.params.t0Grains)
    | _ => 0) s.faults.shelf

/-- Class-0 limit of a calendar in one bucket (R227). -/
def State.classZeroLimit (s : State) (c : Cal) : Nat :=
  match c with
  | .engine k _ => 1433 * (s.activeEngines k).length / 14
  | .stack n => if s.dram.any fun x => x.n == n && x.lost then 0 else if s.power.stage = 2 then 522893 * 3 / 4 else 522893
  | .ucieIn g => 446202 * s.ucieRate g / 256
  | .ucieOut g => 446202 * s.ucieRate g / 256
  | .fabric r => s.fabricCapacity r * 2 / 5
  | .staging => s.stagingGrains * 2 / 5
  | .lookup => 136

/-- s0, u0 and f0 of the formulas: class-0 bytes a tick. -/
def rateStack : Nat := 2042
def State.rateUcie (s : State) (g : Nat) : Nat := s.classZeroLimit (.ucieOut g) / bucketTicks
def State.rateFabric (s : State) (route : Nat) : Nat := s.classZeroLimit (.fabric route) / bucketTicks

/-- Part of a reservation that falls in bucket `b`: `amount` spread evenly over its ticks. Staging counts grains held,
not grains a tick. -/
def Resv.inBucket (r : Resv) (b : Nat) : Nat :=
  let lo := max r.lo (b * bucketTicks)
  let hi := min r.hi ((b + 1) * bucketTicks)
  if hi ≤ lo then 0
  else if r.cal = .staging then r.amount
  else cdiv (r.amount * (hi - lo)) (r.hi - r.lo)

/-- Both reservations count against one limit: the same calendar, where the engines of a cluster share theirs. -/
def Cal.sameLimit (a b : Cal) : Bool :=
  match a, b with
  | .engine c _, .engine d _ => c == d
  | _, _ => a == b

/-- Buckets a reservation touches. -/
def Resv.buckets (r : Resv) : List Nat :=
  if r.hi ≤ r.lo then [] else
  (List.range ((r.hi - 1) / bucketTicks - r.lo / bucketTicks + 1)).map fun i => r.lo / bucketTicks + i

/-- One reservation fits within R227 among `held`. -/
def State.fits (s : State) (held : List Resv) (r : Resv) : Bool :=
  decide (r.hi ≤ s.horizonEnd) &&
    r.buckets.all fun b =>
      decide (sumBy (fun x => if x.cal.sameLimit r.cal then x.inBucket b else 0) (r :: held) ≤ s.classZeroLimit r.cal)

/-- Every reservation of a list fits, one after the other. -/
def State.fitsAll (s : State) (held : List Resv) : List Resv → Bool
  | [] => true
  | r :: rest => s.fits held r && s.fitsAll (r :: held) rest

/-- Earliest tick from `t0` at which an engine is free of class-0 reservations for `d` ticks. -/
def earliestFree (held : List Resv) (cal : Cal) (t0 d : Nat) : Nat :=
  let mine := held.filter fun r => r.cal == cal
  let free := fun (t : Nat) => mine.all fun r => decide (t + d ≤ r.lo ∨ r.hi ≤ t)
  let ends := (mine.map (·.hi)).filter fun t => t0 ≤ t
  if free t0 then t0
  else (ends.filter free).foldl min (mine.foldl (fun n r => max n r.hi) t0)

/-- Yield of a pass of classes 1 to 7 that runs on an engine (R228, R229): the rest of its page feed and its park. -/
def yieldMax : Nat := 2048 + 1184

/-- Ticks of a trailing brine (R327). -/
def brineTicks : Nat := 2162

/-- A brine is in progress on an engine (R327). -/
def State.brining (s : State) (cluster slot : Nat) : Bool :=
  s.engines.any fun e => e.cluster == cluster && e.slot == slot && e.brined != 0 && decide (s.now < e.brined + brineTicks)

/-- Earliest start on an engine: after the yield of a pass of classes 1 to 7 that runs there, or a brine in progress (R229, "Engine start",
R327). -/
def State.engineStart (s : State) (slot cluster : Nat) (t0 : Nat) : Nat :=
  if s.brining cluster slot || s.passes.any fun p => p.cluster == cluster && p.engines.contains slot && p.cls != 0 && !p.parked
  then max t0 (s.now + yieldMax) else t0

/-- The engine of a cluster on which a pass of `d` ticks starts earliest, the lowest logical number among equals. -/
def State.placePass (s : State) (held : List Resv) (cluster t0 d : Nat) : Option (Nat × Nat) :=
  (s.activeEngines cluster).foldl
    (fun best e =>
      let t := earliestFree held (.engine cluster e.1) (s.engineStart e.2 cluster t0) d
      match best with
      | some (l, b) => if t < b then some (e.1, t) else some (l, b)
      | none => some (e.1, t)) none

/-! ### The outcome of admission (R223) -/

inductive Decision where
  | accept (resvs : List Resv)
  | capacity
  | deadline (earliest : Nat)
  deriving DecidableEq, Repr

/-- Every bank of a table is in service: searches of the table run (R90). -/
def State.tableUp (s : State) (tag : Nat) : Bool := s.array.banks.all fun b => b.tag != tag || b.st == .working

/-- R223, points 3 to 5, for a price. Far pages of a class-0 request lie on extents (R225), whose table must be whole (R90): reservations that fit and a completion time `c` no later than the deadline. -/
def State.judge (s : State) (deadline c : Nat) (resvs : List Resv) : Decision :=
  if !s.fitsAll s.calendar resvs ∨ ((resvs.any fun r => match r.cal with
      | .fabric _ => true
      | _ => false) ∧ !s.tableUp 2) then .capacity
  else if deadline ≤ s.now ∨ deadline < c then .deadline c
  else .accept resvs

/-- Places in the deadline monitor (R226). -/
def monitorPlaces : Nat := 65536

/-- R223, point 2: a free place in the deadline monitor, and a monitor that works. -/
def State.monitorFree (s : State) : Bool := !s.monitor.failed && decide (s.monitor.held.length < monitorPlaces)

/-- An uncommitted change of classes 1 to 7 that the request must wait behind (R223, point 2). -/
def State.slowChangeAhead (s : State) (r : Req) : Bool :=
  s.reqs.any fun x => x.fn == r.fn && decide (x.id < r.id) && x.cls != 0 &&
    (match changeOf x.desc with
     | some h => (namesOf r.desc).contains h
     | none => false)

/-- Wait under R40: the latest reserved end among the earlier class-0 changes of the function to the sequence (R229). -/
def State.waitEnd (s : State) (r : Req) : Nat :=
  let mine := s.reqs.filter fun x => x.fn == r.fn && decide (x.id < r.id) && x.cls == 0 &&
    (match changeOf x.desc with
     | some h => (namesOf r.desc).contains h
     | none => false)
  mine.foldl (fun n x => s.calendar.foldl (fun n c => if c.req = x.id then max n c.hi else n) n) s.now

/-- Host memory read time L_u of a group: 10 to 470 as declared, 470 when the image omits it (R229). -/
def State.hostRead (s : State) (g : Nat) : Nat :=
  match s.ucie? g with
  | some u => if u.readLatency = 0 then 470 else u.readLatency
  | none => 470

/-- Reserved ends of the passes among a request's reservations. -/
def passEnds (resvs : List Resv) : List Nat := resvs.filterMap fun c => match c.cal with
  | .engine _ _ => some c.hi
  | _ => none

/-- Enter an accepted request's reservations and its place in the monitor (R223, R226). -/
def State.reserve (s : State) (r : Req) (resvs : List Resv) : State :=
  { s with calendar := resvs ++ s.calendar
           monitor := { s.monitor with held := (r.id, r.deadline) :: s.monitor.held
                                       ends := (r.id, passEnds resvs) :: s.monitor.ends } }

/-- R233: the completion of a commit that reads pages of `lens` raw bytes from host memory. The reservation of the commit
itself stands on the group's inbound calendar, so that later requests can read its end. -/
def State.commitPrice (s : State) (r : Req) (group : Nat) (lens : List Nat) : Nat × List Resv :=
  let u := max 1 (s.rateUcie group)
  let w := s.waitEnd r - s.now
  let sum := sumBy (fun n => max (cdiv n 512) (cdiv n u)) lens
  let t := s.now + w + 1410 + sum
  (t + 16, [{ req := r.id, cal := .ucieIn group, lo := s.now + w, hi := t, amount := sumBy id lens },
            { req := r.id, cal := .ucieOut group, lo := t, hi := t + 16, amount := 32 }])

end Sys2Proof.Machine
end

