-- ==== Sys2Proof/Machine/Rind.lean ====
section
/-! DEFINITION. Stored form of a grain (13_on_package_memory): the map of a T1 address (R284), where a sector lies in its stack (R282),
the check bytes of a line (R289), and the Rind's encryption and tag of a sector (R300), which the far seal shares (R263). -/

namespace Sys2Proof.Machine

/-! ### T1 grain addresses (R284) -/

def t1Stack (a : Nat) : Nat := bits a 36 4
def t1Region (a : Nat) : Nat := bits a 23 1
def t1Slot (a : Nat) : Nat := bits a 0 23

/-! ### Sectors (R282, R300) -/

def sectorBytes : Nat := 512

/-- Channel of sector k of the grain on physical row g. -/
def sectorChannel (g k : Nat) : Nat := (k + g) % 32

/-- Pseudo-channel of the grain on physical row g. -/
def sectorPseudo (g : Nat) : Nat := g % 2

/-- Unit of a grain for the tweak and the tag: its stack, 12 the shelf, 13 a far grain. -/
def unitOf (tier addr : Nat) : Nat := if tier = 1 then t1Stack addr else if tier = 0 then 12 else 13

/-- XTS tweak. -/
def xtsTweak (unit grain sector : Nat) : BitVec 128 := BitVec.ofNat 128 (unit + grain % 2 ^ 40 * 2 ^ 4 + sector * 2 ^ 44)

/-- Tag IV. -/
def tagIv (kind owner unit grain sector version : Nat) : BitVec 96 :=
  BitVec.ofNat 96 (kind + owner * 2 ^ 2 + unit * 2 ^ 16 + grain % 2 ^ 40 * 2 ^ 20 + sector * 2 ^ 60 + version * 2 ^ 65)

/-- A sector under its owner's keys: 512 bytes of ciphertext and the 8 bytes of its tag. -/
def rindSector (x : KeySlot) (kind owner tier addr version k : Nat) (plain : Bytes) : Bytes × Bytes :=
  let u := unitOf tier addr
  let ct := Config.aesXts x.key x.key2 (xtsTweak u addr k) plain
  (ct, (Config.gmac x.key3 (tagIv kind owner u addr k version) ct).take 8)

/-- Lines of a sector as the parity covers them: line j is 64 bytes of ciphertext and tag byte j (R285, R289). -/
def taggedLines (c : Bytes × Bytes) : List Bytes :=
  (List.range 8).map fun j => (c.1.drop (64 * j)).take 64 ++ (c.2.drop j).take 1

/-- A line as a stack stores it: with the seven check symbols that make up its eight check bytes. -/
def storedLine (tagged : Bytes) : Bytes := tagged ++ Config.rsSymbols tagged

/-- Content of a page's grain k: bytes beyond the page are 0 (R301). -/
def grainContent (data : Bytes) (k : Nat) : Bytes :=
  let d := (data.drop (grainBytes * k)).take grainBytes
  d ++ List.replicate (grainBytes - d.length) 0

/-- A grain under its owner's keys, sector by sector; nothing where the owner's slot is empty (R313). -/
def State.sealedGrain (s : State) (kind owner tier addr version : Nat) (content : Bytes) : List (Bytes × Bytes) :=
  match s.keySlot? (ownerSlot kind owner) with
  | none => []
  | some x => (List.range 32).map fun k => rindSector x kind owner tier addr version k ((content.drop (sectorBytes * k)).take sectorBytes)

/-- A grain as parity covers it: ciphertext and tags, line by line. -/
def State.storedGrain (s : State) (kind owner tier addr version : Nat) (content : Bytes) : Bytes :=
  ((s.sealedGrain kind owner tier addr version content).flatMap taggedLines).flatten

/-- A page sealed for a far tier: its grains as above, each with its tags, bound to its far address and version (R263, R302). -/
def State.sealPage (s : State) (kind owner tier addr grains version : Nat) (data : Bytes) : Bytes :=
  (List.range grains).flatMap fun k => s.storedGrain kind owner tier (addr + k) version (grainContent data k)

/-- The grain at an address of T0 or T1 as written: the page's bytes, then zeros (R301). -/
def State.grainAt (s : State) (tier addr : Nat) : Option Bytes :=
  (s.pages.find? fun p => p.tier == tier && decide (p.addr ≤ addr ∧ addr < p.addr + p.grains)).map fun p => grainContent p.data (addr - p.addr)

/-- Sector k of a page's grain at an address, as its stack stores it on physical row `row`: channel, pseudo-channel and 576 bytes. -/
def State.storedSector (s : State) (p : Page) (addr row k : Nat) : Nat × Nat × Bytes :=
  let c := (s.sealedGrain p.ownerKind p.owner p.tier addr p.version (grainContent p.data (addr - p.addr))).getD k ([], [])
  (sectorChannel row k, sectorPseudo row, ((taggedLines c).map storedLine).flatten)

/-! ### Sealed weight chunks (R115, R323) -/

/-- Header bytes 0 to 39 of a sealed image. -/
def headerBytes (h : SealedHeader) : Bytes :=
  leBytes 2 h.layout ++ leBytes 2 0 ++ leBytes 8 h.fingerprint.toNat ++ leBytes 8 h.serial ++ leBytes 4 h.chunks
    ++ leBytes 8 h.plainBytes ++ leBytes 8 h.keyCheck.toNat

/-- Ciphertext of chunk c of a loaded image. -/
def Weights.sealedBytes (w : Weights) (c : Nat) : Bytes := (Config.sealedChunk w.header.serial c).1

/-- Plaintext of chunk c under the model key, none where its tag fails; beyond plain_bytes it is zero. -/
def Weights.opened (w : Weights) (key : BitVec 256) (c : Nat) : Option Bytes :=
  let x := Config.sealedChunk w.header.serial c
  (Config.aesGcmOpen key (BitVec.ofNat 96 (w.header.serial % 2 ^ 64 + c * 2 ^ 64)) (headerBytes w.header) x.1 x.2).map fun p =>
    let p := p.take (w.header.plainBytes - c * 1048576)
    p ++ List.replicate (1048576 - p.length) 0

end Sys2Proof.Machine
end

