-- ==== Sys2Proof/Machine/Tiers.lean ====
section
/-! DEFINITION. Grains and tiers: where grains lie (R282 to R287, R298), grain allocation (R94, R96, R104), the versions a
write takes (R301, R302), page reads (R290, R300, R303, R304), ripening (R98 to R102), held pages (R97) and tier moves
(R103). -/

namespace Sys2Proof.Machine

/-! ### T1 addresses and capacity (R283 to R287) -/

/-- Whole grains of one stack (13_on_package_memory). -/
def stackGrains : Nat := 4394531

/-- R: protected rows of each stack (R283). -/
def State.protRows (s : State) : Nat := 60 * (1000000000 * s.params.protectedGb / 16384 / 60)

/-- Grains of each stack's cache region (R283). -/
def State.cacheGrains (s : State) : Nat := if s.params.protectedGb = 72 then 0 else stackGrains - s.protRows

def State.stack? (s : State) (n : Nat) : Option Stack := s.dram.find? fun x => x.n == n

/-- Parity group that lays out a stack's protected rows: its layout names the stack. -/
def State.groupOf (s : State) (stack : Nat) : Option PGroup := s.groups.find? fun g => g.layout.contains stack

/-- A stack is in service. -/
def State.stackUp (s : State) (n : Nat) : Bool :=
  match s.stack? n with
  | some x => !x.lost
  | none => false

/-- Protected data slots of each stack of a layout of `n` stacks (R285). -/
def State.dataSlots (s : State) (n : Nat) : Nat := s.protRows * (n - 1) / n

/-- Data slots of a stack kept from pages: its share of the metadata copy (R287), and its share of the direct region and of the weight
cache (log entry 15). -/
def State.keptSlots (s : State) (n : Nat) : Nat :=
  cdiv s.params.metadataGrains n + cdiv (s.params.directBytes / grainBytes + s.params.weightsCache) 12

/-- Compose a T1 grain address (R284). -/
def t1Addr (stack region slot : Nat) : Nat := slot + region * 2 ^ 23 + stack * 2 ^ 36


/-- A T1 address lies inside the current layout (R284). The protected grains of a lost stack stay readable while its
group is degraded or exposed (R296). -/
def State.t1AddrOk (s : State) (a : Nat) : Bool :=
  bits a 24 12 == 0 &&
    (if t1Region a = 1 then s.stackUp (t1Stack a) && decide (t1Slot a < s.cacheGrains)
     else match s.groupOf (t1Stack a) with
      | some g => g.st != .failed && decide (t1Slot a < s.dataSlots g.layout.length)
      | none => false)

/-- Physical row of a protected data slot: the slot-th row whose parity stack is another (R285). -/
def rowOfSlot (layout : List Nat) (stack slot : Nat) : Nat :=
  let n := layout.length
  let j := (layout.findIdx? (· == stack)).getD 0
  let q := slot / (n - 1)
  let r := slot % (n - 1)
  q * n + if r < j then r else r + 1

/-! ### Free grains -/

/-- Grains of a weight chunk (R115). -/
def chunkGrains : Nat := 64

/-- Grains that the weight chunks at home in a tier take (R115). -/
def State.weightRuns (s : State) (tier : Nat) : List (Nat × Nat) :=
  s.weights.flatMap fun w => w.locs.filterMap fun (t, a) => if t = tier then some (a, chunkGrains) else none

/-- Runs of grains that pages take in a tier: first grain and length. Grains whose page waits for a walk count (R31), and so do the
grains a move has taken (R103). -/
def State.pageRuns (s : State) (tier : Nat) : List (Nat × Nat) :=
  (s.pages.filterMap fun p => if p.tier = tier then some (p.addr, p.grains) else none) ++
    s.moves.filterMap fun m => if m.target = tier then m.dest.map fun a => (a, m.grains) else none

/-- Runs of grains in use in a tier. -/
def State.usedRuns (s : State) (tier : Nat) : List (Nat × Nat) := s.pageRuns tier ++ s.weightRuns tier

/-- T0 grains out of use: a shelf bank is 4 MiB, 256 grains (R343). -/
def State.shelfRuns (s : State) : List (Nat × Nat) :=
  s.faults.shelf.filterMap fun b =>
    match b.2 with
    | .gone => some (256 * b.1, 256)
    | _ => none

/-- Grains of a stack out of use because their row cannot be repaired (R292). -/
def State.retiredRuns (s : State) (stack region : Nat) : List (Nat × Nat) :=
  match s.stack? stack with
  | none => []
  | some x =>
    if region = 1 then (x.retired.filter (fun r => s.protRows ≤ r)).map fun r => (t1Addr stack 1 (r - s.protRows), 1)
    else match s.groupOf stack with
      | none => []
      | some g => x.retired.flatMap fun r =>
          ((List.range (s.dataSlots g.layout.length)).filter fun i => rowOfSlot g.layout stack i == r).map fun i =>
            (t1Addr stack 0 i, 1)

/-- The lowest run of `n` free grains in [lo, hi) (log entry 15). -/
def firstFit (used : List (Nat × Nat)) (lo hi n : Nat) : Option Nat :=
  let ok := fun (a : Nat) => decide (lo ≤ a ∧ a + n ≤ hi) && used.all fun u => decide (u.1 + u.2 ≤ a ∨ a + n ≤ u.1)
  let cands := (lo :: used.map (fun u => u.1 + u.2)).filter ok
  match cands with
  | [] => none
  | c :: cs => some (cs.foldl min c)

/-- Grains in use within [lo, hi). -/
def usedIn (used : List (Nat × Nat)) (lo hi : Nat) : Nat :=
  sumBy (fun u => if lo ≤ u.1 ∧ u.1 < hi then u.2 else 0) used

/-- First and last-plus-one address of a stack's region for pages. -/
def State.regionSpan (s : State) (stack region : Nat) : Nat × Nat :=
  if region = 1 then (t1Addr stack 1 0, t1Addr stack 1 s.cacheGrains)
  else match s.groupOf stack with
    | none => (0, 0)
    | some g => (t1Addr stack 0 (s.keptSlots g.layout.length), t1Addr stack 0 (s.dataSlots g.layout.length))

/-- A region of a stack takes new pages: the stack is in service and, for protected grains, its group is healthy. -/
def State.regionOpen (s : State) (stack region : Nat) : Bool :=
  s.stackUp stack &&
    (region == 1 || (match s.groupOf stack with
      | some g => g.st == .healthy
      | none => false))

/-- Pages of a group's protected region, in grains. -/
def State.groupPages (s : State) (g : PGroup) : Nat :=
  sumBy (fun u => if t1Region u.1 = 0 ∧ g.layout.contains (t1Stack u.1) then u.2 else 0) (s.pageRuns 1)

/-- Room left under memory.protected_fill_pct in a stack's group (R298). -/
def State.fillRoom (s : State) (stack : Nat) : Nat :=
  match s.groupOf stack with
  | none => 0
  | some g =>
    let n := g.layout.length
    (n * s.dataSlots n - s.params.metadataGrains) * s.params.protectedFillPct / 100 - s.groupPages g

/-- Free grains of a stack's region (R102). -/
def State.freeRegion (s : State) (stack region : Nat) : Nat :=
  if !s.regionOpen stack region then 0
  else
    let (lo, hi) := s.regionSpan stack region
    let free := hi - lo - usedIn (s.usedRuns 1 ++ s.retiredRuns stack region) lo hi
    if region = 0 then min free (s.fillRoom stack) else free

/-- T0 grains the shelf still has for T0 (R93, R343). -/
def State.freeT0 (s : State) : Nat :=
  s.params.t0Grains - usedIn (s.usedRuns 0 ++ s.shelfRuns) 0 s.params.t0Grains

/-- A free run of `n` grains in one stack's region. -/
def State.allocStack (s : State) (stack region n : Nat) : Option Nat :=
  if s.freeRegion stack region < n then none
  else
    let (lo, hi) := s.regionSpan stack region
    firstFit (s.usedRuns 1 ++ s.retiredRuns stack region) lo hi n

/-- Stacks of a region by free grains, most first and the lower stack first among equals (R225). -/
def State.stacksByRoom (s : State) (region : Nat) : List Nat :=
  let l := (List.range 12).map fun k => (k, s.freeRegion k region)
  (l.mergeSort fun a b => decide (b.2 < a.2 ∨ (a.2 = b.2 ∧ a.1 ≤ b.1))).map Prod.fst

def State.allocT0 (s : State) (n : Nat) : Option Nat := firstFit (s.usedRuns 0 ++ s.shelfRuns) 0 s.params.t0Grains n

/-- How an allocation is bound to far routes (R225, R262): `none` without a class-0 sequence, `some rs` where class-0 sequences
hold the page and have their far pages behind the routes `rs`, each of them one. -/
abbrev FarBound := Option (List Nat)

/-- Extents that take new pages: active and not being released; for class-0 sequences resident and of their one route (R262,
R265). -/
def State.openExtents (s : State) (route : FarBound) : List Extent :=
  s.extents.filter fun e => e.st == .active && !e.releasing &&
    (match route with
     | some rs => e.resident && rs.all (· == e.route)
     | none => true)

def State.freeT2 (s : State) : Nat :=
  sumBy (fun e => e.grains - usedIn (s.usedRuns 2) e.poolBase (e.poolBase + e.grains)) (s.openExtents none)

def State.allocT2 (s : State) (n : Nat) (route : FarBound) : Option Nat :=
  (s.openExtents route).findSome? fun e => firstFit (s.usedRuns 2) e.poolBase (e.poolBase + e.grains) n

/-- Route of a flash volume: its own link cluster for a local volume, the link to its tray otherwise, none while that is down (R225, R269).
-/
def State.volumeRoute (s : State) (v : VolumeRec) : Option Nat := if v.local_ then some (256 + v.cluster) else s.trayLink v

/-- A volume's port or link is up (R269). -/
def State.volumeUp (s : State) (v : VolumeRec) : Bool :=
  let up := fun (port : PortId) => (s.port? port).elim false fun p => p.st == .up
  if v.local_ then up (.nvme v.cluster v.port) else (s.trayLink v).elim false fun l => up (.asvis l)

def State.allocT3 (s : State) (n : Nat) (route : FarBound) : Option Nat :=
  (s.image.volumes.filter fun v => s.volumes.contains v.index && s.volumeUp v && (match route with
    | some rs => rs.all fun x => s.volumeRoute v == some x
    | none => true)).findSome?
    fun v => firstFit (s.usedRuns 3) (v.index * 2 ^ 32) (v.index * 2 ^ 32 + v.grains) n

/-! ### Page versions and writes (R301, R302) -/

def State.grainVer (s : State) (tier g : Nat) : Nat :=
  match s.grainVers.find? fun x => x.1 == tier && x.2.1 == g with
  | some x => x.2.2
  | none => 0

/-- Version that a page written to a grain set takes (R301): the largest entry of its grains plus one, modulo 256. -/
def State.nextVersion (s : State) (tier addr n : Nat) : Nat :=
  (((List.range n).foldl (fun v i => max v (s.grainVer tier (addr + i))) 0) + 1) % 256

def State.setGrainVers (s : State) (tier addr n v : Nat) : State :=
  { s with grainVers := (List.range n).map (fun i => (tier, addr + i, v)) ++
      s.grainVers.filter fun x => !(x.1 == tier && decide (addr ≤ x.2.1 ∧ x.2.1 < addr + n)) }

/-! ### Stack transfers of class 0 (R288) -/

/-- Stacks of a lost stack's group that serve its grains by reconstruction: the others in service. -/
def State.survivors (s : State) (k : Nat) : List Nat := (s.groupOf k).elim [] fun g => g.layout.filter s.stackUp

/-- Stack reservations as they are charged: a read of a grain of a lost stack is one read on every stack that reconstructs it (R288,
R296). -/
def State.chargeLost (s : State) (rs : List Resv) : List Resv :=
  rs.flatMap fun c => match c.cal with
    | .stack k => if s.stackUp k || (s.survivors k).isEmpty then [c] else (s.survivors k).map fun j => { c with cal := .stack j }
    | _ => [c]

/-- Stack transfers of `bytes` written to the T1 grains of a stack: in the protected region a read and a write on the data stack and on the
parity stacks, which are the group's others in turn (log entry 147); in the cache region one write. -/
def State.writeCharge (s : State) (req stack region bytes lo hi : Nat) : List Resv :=
  if bytes = 0 then []
  else if region = 1 then [{ req := req, cal := .stack stack, lo := lo, hi := hi, amount := bytes }]
  else
    let others := (s.survivors stack).filter (· != stack)
    { req := req, cal := .stack stack, lo := lo, hi := hi, amount := 2 * bytes } ::
      others.map fun k => { req := req, cal := .stack k, lo := lo, hi := hi, amount := cdiv (2 * bytes) others.length }

/-! ### Parity (R285, R286) -/

/-- Exclusive-or, byte by byte; the shorter is taken to end in zeros. -/
def xorBytes : Bytes → Bytes → Bytes
  | [], b => b
  | a, [] => a
  | x :: xs, y :: ys => (x ^^^ y) :: xorBytes xs ys

/-- The grain of a row that a stack stores; nothing, which counts as zero, while it is unwritten. -/
def ParityRow.grain (r : ParityRow) (stack : Nat) : Bytes := (r.grains.find? fun x => x.1 == stack).elim [] (·.2)

/-- Write one data grain of a row: both changes are folded into the old parity. In an unwritten row the parity becomes the grain itself
(R285, R286). -/
def ParityRow.write (r : ParityRow) (stack : Nat) (new : Bytes) : ParityRow :=
  { r with grains := (stack, new) :: r.grains.filter fun x => x.1 != stack
           parity := xorBytes (xorBytes r.parity (r.grain stack)) new }

/-- The row of a group, as written so far. -/
def State.parityRow (s : State) (group row : Nat) : ParityRow :=
  (s.parity.find? fun r => r.group == group && r.row == row).getD { group := group, row := row, grains := [], parity := [] }

/-- A stored grain of T1 updates the parity of its row before its write completes; the cache region has none (R286, R287). -/
def State.foldParity (s : State) (a : Nat) (stored : Bytes) : State :=
  if t1Region a ≠ 0 then s
  else match s.groupOf (t1Stack a) with
    | none => s
    | some g =>
      let r := (s.parityRow g.n (rowOfSlot g.layout (t1Stack a) (t1Slot a))).write (t1Stack a) stored
      { s with parity := r :: s.parity.filter fun x => !(x.group == r.group && x.row == r.row) }

/-- The grains of a page written to T1 update the parity of their rows, in order (log entry 112). -/
def State.pageParity (s : State) (tier addr n kind owner v : Nat) (data : Bytes) : State :=
  if tier ≠ 1 then s
  else (List.range n).foldl (fun (s : State) k =>
    s.foldParity (addr + k) (s.storedGrain kind owner tier (addr + k) v (grainContent data k))) s

/-- Write a page to free grains: it takes its version and, for a coded page, a reference to its table, and the
parity of its rows follows (R170, R286, R301). -/
def State.writePage (s : State) (tier addr n kind owner table : Nat) (data : Bytes) : Nat × State :=
  let v := s.nextVersion tier addr n
  let s := (s.setGrainVers tier addr n v).tableRef table
  let p : Page := { tier := tier, addr := addr, grains := n, ownerKind := kind, owner := owner, version := v, intact := true,
                    data := data, keep := [], freed := false, table := table }
  (v, { s with pages := p :: s.pages }.pageParity tier addr n kind owner v data)

/-! ### Page reads -/

/-- Bits set in a number below 2^40: power-of-two ranges that cover a run (R78). -/
def coverRanges (n : Nat) : Nat := sumBy (fun i => (bit n i).toNat) (List.range 40)

/-- A search key matches an array row: as its shadow says (`plain`), unless an upset has changed the row's bits (R87). -/
def rowHits (upset : Option (Nat × Nat)) (key : Nat) (plain : Bool) : Bool :=
  match upset with
  | none => plain
  | some (value, care) => (key ^^^ value) &&& care == 0

/-- Search key of the extent table: tag and grain address. -/
def extentKey (a : Nat) : Nat := 2 + a * 2 ^ 4

/-- The grain lies in the extent: its shadow rows match (R78, R87). -/
def Extent.covers (e : Extent) (a : Nat) : Bool := decide (e.poolBase ≤ a ∧ a < e.poolBase + e.grains)

/-- Extent that a search of the extent table finds for a T2 address: the hit that verifies against its shadow rows (R78, R87). -/
def State.extentAt (s : State) (a : Nat) : Option Extent :=
  s.extents.find? fun e => e.covers a && rowHits e.upset (extentKey a) true

/-- A status that a read of a page meets before its bytes: EXTENT_REVOKED on an extent that drains (R266), DATA_INTEGRITY on
a revoked one (R267). -/
def State.tierFault (s : State) (l : Loc) : Option Nat :=
  match l.tier with
  | 0 => none
  | 1 => if (List.range l.grains).all fun k => s.t1AddrOk (l.addr + k) then none else some stDataIntegrity
  | 2 =>
    match s.extentAt l.addr with
    | none => some stDataIntegrity
    | some e => if e.st = .active then none else if e.st = .draining then some stExtentRevoked else some stDataIntegrity
  | _ => if s.image.volumes.any fun v => v.index == l.addr / 2 ^ 32 then none else some stDataIntegrity

/-- The stored bytes of a locator's page, checked as the Rind or the far seal checks them: owner, address and version
(R263, R300, R304). -/
def State.readSealed (s : State) (kind owner : Nat) (l : Loc) : Except Nat Bytes :=
  if !s.slotFilled (ownerSlot kind owner) then .error stInternalFault
  else if l.lost || l.grains == 0 then .error stDataIntegrity
  else match s.page? l.tier l.addr with
    | none => .error stDataIntegrity
    | some p =>
      if p.intact && p.version == l.version && p.ownerKind == kind && p.owner == owner then .ok p.data
      else .error stDataIntegrity

/-- The stored bytes of a locator's page, where its tier can be read. -/
def State.readStored (s : State) (kind owner : Nat) (l : Loc) : Except Nat Bytes :=
  if l.lost || l.grains == 0 then .error stDataIntegrity
  else match s.tierFault l with
    | some st => .error st
    | none => s.readSealed kind owner l

/-- The stored bytes of a page whose transfer was issued before its extent drained count as read (R266). -/
def State.readIssued (s : State) (kind owner : Nat) (l : Loc) : Except Nat Bytes :=
  if s.tierFault l = some stExtentRevoked then s.readSealed kind owner l else s.readStored kind owner l

/-- Decode stored bytes into the raw layout (R174); raw pages pass as they are. -/
def State.decodeStored (s : State) (m : ModelRec) (l : Loc) (b : Bytes) : Except Nat Bytes :=
  if l.uncoded then .ok b
  else match s.table? l.table with
    | none => .error stDecodeFault
    | some t =>
      if t.st = .faulted then .error stDecodeFault
      else match decodePage (shapeOf m l.fmt) (coderOf t.image) l.table l.grains b with
        | some raw => .ok raw
        | none => .error stDecodeFault

/-- Path B of R303 and R319: the island's copy of the function table gives the request's tenant a second time. -/
def State.pathsAgree (s : State) (r : Req) : Bool := (s.island.fnTable.find? fun x => x.1 == r.fn).any fun x => x.2 == r.tenant

/-- Tenant of a function by path B; none is 4,096 (R319). -/
def State.pathB (s : State) (fn : Nat) : Nat := (s.island.fnTable.find? fun x => x.1 == fn).elim 4096 (·.2)

/-- Owner of a record's grains: its sharing domain once published, its tenant before (13, "Owners of stored grains"). -/
def Rec.ownerKind (r : Rec) : Nat := if r.published then 2 else 1
def Rec.owner (r : Rec) : Nat := if r.published then r.domain else r.tenant

/-- A page of a record in raw form, its stored bytes read as `get` reads them. The record's owner must be the owner that
admission expects (R303). -/
def State.readPageBy (s : State) (get : Nat → Nat → Loc → Except Nat Bytes) (m : ModelRec) (tenant domain : Nat) (r : Rec)
    (layer : Nat) : Except Nat Bytes :=
  match r.loc? layer with
  | none => .error stDataIntegrity
  | some l =>
    if (r.published && r.domain != domain) || (!r.published && r.tenant != tenant) then .error stInternalFault
    else match get r.ownerKind r.owner l with
      | .error e => .error e
      | .ok b => s.decodeStored m l b

def State.readPage (s : State) (m : ModelRec) (tenant domain : Nat) (r : Rec) (layer : Nat) : Except Nat Bytes :=
  s.readPageBy s.readStored m tenant domain r layer

/-- A far page of a record that has arrived in staging. -/
def State.readStaged (s : State) (m : ModelRec) (tenant domain : Nat) (r : Rec) (layer : Nat) : Except Nat Bytes :=
  s.readPageBy s.readSealed m tenant domain r layer

/-- Physical row of a T1 grain on its stack (R284, R285). -/
def State.rowOfAddr (s : State) (a : Nat) : Nat :=
  if t1Region a = 1 then s.protRows + t1Slot a else (s.groupOf (t1Stack a)).elim 0 fun g => rowOfSlot g.layout (t1Stack a) (t1Slot a)

/-- Source and detail of an event that names where a stored sector lies: stack, row and sector; a shelf grain's bank, grain and sector; a
far page's first grain (R290). -/
def State.spotEvent (s : State) (tier a sector : Nat) : Nat × Nat :=
  match tier with
  | 1 => (evSource 4 (t1Stack a), s.rowOfAddr a * 32 + sector)
  | 0 => (evSource 3 (a / 256), a * 32 + sector)
  | 2 => (evSource 12 ((s.extentAt a).elim 0 (·.id)), a % 2 ^ 32)
  | _ => (evSource 13 (a / 2 ^ 32), a % 2 ^ 32)

/-- A page that fails is marked lost and its grains are freed, with an event that names stack, row and sector, the page's first where no one
sector failed (R290, R304, R338). Its grains stay retired until the row is repaired, which the step that finds the row does at once
(R292). -/
def State.losePage (s : State) (blk layer : Nat) (spot : Option (Nat × Nat) := none) : State :=
  match (s.rec? blk).bind (fun r => r.loc? layer) with
  | none => s
  | some l =>
    let (src, detail) := s.spotEvent l.tier (spot.elim l.addr (·.1)) (spot.elim 0 (·.2))
    let s := if l.grains = 0 then s else s.freePage l.tier l.addr
    (s.modLoc blk layer fun l => { l with lost := true, grains := 0, moving := false, pinned := false, pinBy := none }).note "PAGE_LOST" src detail

/-! ### Held pages (R97) -/

/-- Own block records of a version with their block numbers, newest first. -/
def Seq.ownBlocks (q : Seq) (v : Version) : List (Nat × Nat) :=
  ((List.range v.blockCount).filterMap fun b =>
    if b < v.prefixDepth ∧ v.prefixHandle ≠ 0 then none
    else if q.windowHolds v b then (v.slotRec (slotOf q.layout q.window q.globals b)).map fun r => (b, r) else none).reverse

/-- The held pages, as (record, layer): newest blocks first, ascending layers, while the reservation lasts. -/
def heldWalk (res : Nat) : List (Nat × Nat × Nat) → List (Nat × Nat)
  | [] => []
  | (r, l, g) :: rest => if g ≤ res then (r, l) :: heldWalk (res - g) rest else []

def State.heldPages (s : State) (q : Seq) : List (Nat × Nat) :=
  if !q.t1held then []
  else
    let pages := (q.ownBlocks q.cur).flatMap fun (_, id) =>
      match s.rec? id with
      | some r => if r.published then [] else r.locs.zipIdx.map fun (l, i) => (id, i, l.grains)
      | none => []
    heldWalk q.t1res pages

def State.isHeld (s : State) (blk layer : Nat) : Bool := s.seqs.any fun q => (s.heldPages q).contains (blk, layer)

/-! ### Quotas -/

/-- Grains of a tenant's private pages in a tier that no reservation carries, uncommitted new pages included. -/
def State.tenantGrains (s : State) (tenant tier : Nat) : Nat :=
  let held := (s.seqs.filter fun q => q.tenant == tenant).flatMap s.heldPages
  sumBy (fun r => if r.tenant = tenant ∧ !r.published then
      sumBy (fun (l, i) => if l.tier = tier ∧ !(held.contains (r.id, i)) then l.grains else 0) r.locs.zipIdx else 0) s.recs
    + sumBy (fun r => if r.tenant = tenant then sumBy (fun p => if p.tier = tier ∧ p.charged then p.grains else 0) r.pages else 0) s.reqs
    + sumBy (fun m => match s.rec? m.blk with
        | some r => if r.tenant = tenant ∧ !r.published ∧ m.target = tier ∧ m.dest.isSome ∧ !(held.contains (r.id, m.layer)) then m.grains else 0
        | none => 0) s.moves

/-- T1 reservations of a tenant's sequences (R97). -/
def State.tenantReserved (s : State) (tenant : Nat) : Nat :=
  sumBy (fun q => if q.tenant = tenant then q.t1res else 0) s.seqs

/-- The tenant's quota of a tier takes `n` more grains (R96). T0 is charged to no quota. -/
def State.quotaRoom (s : State) (tenant tier n : Nat) : Bool :=
  match s.tenantRec? tenant with
  | none => false
  | some t =>
    match tier with
    | 0 => true
    | 1 => decide (s.tenantReserved tenant + s.tenantGrains tenant 1 + n ≤ t.quotaT1)
    | 2 => decide (s.tenantGrains tenant 2 + n ≤ t.quotaT2)
    | _ => decide (s.tenantGrains tenant 3 + n ≤ t.quotaT3)

/-- Region of a tenant's T1 pages (R94). -/
def State.t1RegionOf (s : State) (tenant : Nat) : Nat :=
  match s.tenantRec? tenant with
  | some t => t.t1Region
  | none => 0

/-! ### Copies of remote prefixes (R71) -/

/-- Pages of the entry's own blocks lie on another device, so that records of it here hold copies (R71, R72). -/
def State.heldAway (s : State) (e : DirEntry) : Bool := e.holder != s.params.deviceId

/-- The record's pages are copies of a remote prefix (R71). -/
def State.isCopy (s : State) (blk : Nat) : Bool := s.dir.any fun e => s.heldAway e && e.map.any fun x => x.2 == blk

/-! ### Allocation by content (R94) -/

/-- Grains of `n` supplied blocks of a sequence at their raw length (R233). -/
def State.rawGrains (s : State) (q : Seq) (n : Nat) : Nat :=
  match s.model? q.model with
  | some m => n * m.layers * grainsOf (shapeOf m q.fmt).rawBytes
  | none => 0

/-- Grains that admission reserved for the pages of class-0 APPEND_BLOCKS to a sequence, until they are written (R233). -/
def State.appendGrains (s : State) (q : Seq) : Nat :=
  sumBy (fun (r : Req) => match r.desc with
    | .append f => if r.cls = 0 ∧ r.done < 4 ∧ s.seqOf r.tenant f.seq = some q then s.rawGrains q f.blockCount else 0
    | _ => 0) s.reqs

/-- Grains of T1 reservations that held pages or accepted class-0 appends do not fill yet, over a region, or over one home
stack of it (R97, R225, R233). -/
def State.unfilled (s : State) (region : Nat) (home : Option Nat) : Nat :=
  sumBy (fun q =>
    if s.t1RegionOf q.tenant = region ∧ (home = none ∨ (q.cls = 0 ∧ home = some q.homeStack)) then
      max (s.appendGrains q) (if !q.t1held then 0 else
        q.t1res - sumBy (fun (id, i) => match (s.rec? id).bind fun r => r.loc? i with
          | some l => l.grains
          | none => 0) (s.heldPages q))
    else 0) s.seqs

/-- A free run in T1: in `home` alone when given, otherwise in the stack with the most room (log entry 15), out of the grains that no
class-0 reservation there waits for (R225, R233). -/
def State.allocT1 (s : State) (region n : Nat) (home : Option Nat) : Option Nat :=
  match home with
  | some k => s.allocStack k region n
  | none => (s.stacksByRoom region).findSome? fun k =>
      if s.unfilled region (some k) + n ≤ s.freeRegion k region then s.allocStack k region n else none

/-- Grains for `n` grains of a private page of a tenant in a tier; `home` and `route` bind class-0 sequences (R225). -/
def State.allocPrivate (s : State) (tenant tier n : Nat) (home : Option Nat) (route : FarBound) : Option Nat :=
  match tier with
  | 0 => s.allocT0 n
  | 1 => s.allocT1 (s.t1RegionOf tenant) n home
  | 2 => s.allocT2 n route
  | _ => s.allocT3 n route

/-- Grains for a published page: T1 only in the protected region (R94). -/
def State.allocPublished (s : State) (tier n : Nat) (home : Option Nat) (route : FarBound) : Option Nat :=
  match tier with
  | 0 => s.allocT0 n
  | 1 => s.allocT1 0 n home
  | 2 => s.allocT2 n route
  | _ => s.allocT3 n route

/-- Grains for a record's page in a tier. -/
def State.allocFor (s : State) (r : Rec) (tier n : Nat) (home : Option Nat) (route : FarBound) : Option Nat :=
  if r.published then s.allocPublished tier n home route else s.allocPrivate r.tenant tier n home route

/-- Route over which a far page is reached: its extent's, or its volume's (R225). -/
def State.routeOfLoc (s : State) (tier addr : Nat) : Option Nat :=
  match tier with
  | 2 => (s.extentAt addr).map (·.route)
  | 3 => (s.image.volumes.find? fun v => v.index == addr / 2 ^ 32).bind s.volumeRoute
  | _ => none

/-- Route of the far pages of a list of records, those that a move under way will make far among them (R225). -/
def State.routeOfRecs (s : State) (ids : List Nat) : Option Nat :=
  (ids.findSome? fun id => (s.rec? id).bind fun r => r.locs.findSome? fun l =>
    if l.grains = 0 then none else s.routeOfLoc l.tier l.addr).orElse fun _ =>
      s.moves.findSome? fun m => if ids.contains m.blk then m.dest.bind fun a => s.routeOfLoc m.target a else none

/-- The far route of a sequence's own pages (R225). -/
def State.seqRoute (s : State) (q : Seq) : Option Nat := s.routeOfRecs q.cur.recIds

/-- Every class-0 sequence that holds the record binds its far pages to its route (R225). -/
def State.farBound (s : State) (blk : Nat) : FarBound :=
  match s.seqs.filter fun q => q.cls == 0 && q.cur.recIds.contains blk with
  | [] => none
  | qs => some (qs.filterMap s.seqRoute).eraseDups

/-- A record belongs to a sequence that is moving to a new home stack. -/
def State.rehoming (s : State) (blk : Nat) : Bool := s.seqs.any fun q => q.rehome && q.cur.recIds.contains blk

/-- A stack number that no stack has: two sequences bind one page to different stacks. -/
def noStack : Nat := 12

/-- The one stack of a list, if it names any. -/
def oneStack : List Nat → Option Nat
  | [] => none
  | k :: ks => some (if ks.all (· == k) then k else noStack)

/-- The stack that the T1 grains of a page are bound to: the home stack of every class-0 sequence that holds it under R97, or that
moves to a new home with it, and that of the entry whose own page it is (R225, R296). -/
def State.homeFor (s : State) (blk layer : Nat) : Option Nat :=
  let seqs := s.seqs.filter fun q => q.cls == 0 && ((s.heldPages q).contains (blk, layer) || (q.rehome && q.cur.recIds.contains blk))
  let dirs := s.dir.filter fun e => !s.heldAway e && s.regionOpen e.homeStack 0 && e.map.any fun x => x.2 == blk
  oneStack (seqs.map (·.homeStack) ++ dirs.map (·.homeStack))

/-! ### Moves (R101 to R103) -/

/-- The same move waits already. -/
def Move.waitsFor (m : Move) (blk layer target : Nat) : Bool := m.blk == blk && m.layer == layer && m.target == target && !m.started

/-- Ask the whey path for a move. A move that waits already takes the better rank; one asked for a page that moves now waits, and is
decided again when that move has ended (R103). -/
def State.askMove (s : State) (blk layer target rank : Nat) (req : Option Nat) : State :=
  if s.moves.any (·.waitsFor blk layer target) then
    { s with moves := mapIf (·.waitsFor blk layer target) (fun m => { m with rank := min m.rank rank, req := m.req.orElse fun _ => req }) s.moves }
  else
    let g := ((s.rec? blk).bind fun r => r.loc? layer).elim 0 (·.grains)
    let m : Move := { id := s.ids, blk := blk, layer := layer, grains := g, target := target, rank := rank, req := req, dest := none }
    { s.bumpId with moves := s.moves ++ [m] }

/-- Raise a page's ripening count by `n`, saturating at 255, and ask for the promotion that R101 gives a read: a held page below T1
goes up ahead of the others whatever its count. -/
def State.ripen (s : State) (blk layer n : Nat) : State :=
  match (s.rec? blk).bind fun r => (r.loc? layer).map fun l => (r, l) with
  | none => s
  | some (_, l) =>
    let c := min 255 (l.ripening + n)
    let s := s.modLoc blk layer fun l => { l with ripening := c }
    if l.pinned || l.moving || l.lost || l.grains == 0 then s
    else if 2 ≤ l.tier ∧ s.isHeld blk layer then s.askMove blk layer 1 3 none
    else if 2 ≤ l.tier ∧ s.params.promoteT1 ≤ c then s.askMove blk layer 1 5 none
    else if l.tier = 1 ∧ s.params.promoteT0 ≤ c then s.askMove blk layer 0 5 none
    else s

/-- A record's page may be demoted: not lost, not pinned, not moving, not held, no proxy copy (R97, R102). -/
def State.demotable (s : State) (r : Rec) (layer : Nat) (l : Loc) : Bool :=
  l.grains != 0 && !l.lost && !l.pinned && !l.moving && !s.isHeld r.id layer && !s.isCopy r.id

/-- The demote threshold of a tier (R99, R102); T2 takes that of T1 (log entry 93). -/
def State.demoteAt (s : State) (tier : Nat) : Nat := if tier = 0 then s.params.demoteT0 else s.params.demoteT1

/-- The page is on its way down already: a queued move takes it to a lower tier. -/
def State.goesDown (s : State) (blk layer : Nat) (l : Loc) : Bool :=
  s.moves.any fun m => m.blk == blk && m.layer == layer && decide (l.tier < m.target)

/-- Candidates for demotion in a tier (a stack's region for T1) that no queued move takes down: first those at or below the threshold
that the sweep has visited, then the others, each in ascending count order (R102). Equal counts stand in the order of the record list
(log entry 93, DESIGN CHOICE). -/
def State.demoteList (s : State) (tier : Nat) (inSpan : Nat → Bool) : List (Nat × Nat × Nat) :=
  let pick := fun (first : Bool) => (s.recs.flatMap fun r => r.locs.zipIdx.filterMap fun (l, i) =>
    if l.tier = tier ∧ inSpan l.addr ∧ s.demotable r i l ∧ !s.goesDown r.id i l ∧ (decide (l.ripening ≤ s.demoteAt tier) && decide (0 < l.sweptAt)) = first then
      some (l.ripening, r.id, i) else none).mergeSort fun a b => decide (a.1 ≤ b.1)
  pick true ++ pick false

/-- Tier to which a page of a tier is demoted (R102): T0 to T1; T1 to T2 if the tenant has quota there and the pool free
grains, otherwise to T3; T2 to T3. -/
def State.demoteTarget (s : State) (r : Rec) (l : Loc) : Option Nat :=
  match l.tier with
  | 0 => some 1
  | 1 =>
    let route := s.farBound r.id
    if (r.published || s.quotaRoom r.tenant 2 l.grains) && (s.allocT2 l.grains route).isSome then some 2
    else if (r.published || s.quotaRoom r.tenant 3 l.grains) && (s.allocT3 l.grains route).isSome then some 3 else none
  | 2 => if r.published || s.quotaRoom r.tenant 3 l.grains then some 3 else none
  | _ => none

/-- Drop a copy of a remote page: its locator is cleared, it is read again from the holder, and the copy is no longer one that a digest
has verified (R71, R102, R290). -/
def State.dropProxyCopy (s : State) (blk layer : Nat) : State :=
  match (s.rec? blk).bind fun r => r.loc? layer with
  | none => s
  | some l =>
    if l.grains = 0 then s
    else
      let s := (s.freePage l.tier l.addr).modLoc blk layer fun l => { Loc.absent l.fmt with published := true }
      { s with dir := mapIf (fun e => s.heldAway e && e.map.any fun x => x.2 == blk) (fun e => { e with copyVerified := false }) s.dir,
               moves := s.moves.filter fun m => !(m.blk == blk && m.layer == layer) }

/-- Copies in a stack's region whose count is at or below demote_t1, neither pinned nor moving (R102). -/
def State.coldProxies (s : State) (inSpan : Nat → Bool) : List (Nat × Nat) :=
  (s.dir.filter s.heldAway).flatMap fun e => e.map.flatMap fun (_, id) =>
    match s.rec? id with
    | some r => r.locs.zipIdx.filterMap fun (l, i) =>
        if l.tier = 1 ∧ l.grains ≠ 0 ∧ inSpan l.addr ∧ l.ripening ≤ s.params.demoteT1 ∧ !l.pinned ∧ !l.moving then some (id, i) else none
    | none => []

/-- Drop cold copies one by one until `need` more grains are free (R102); answers the grains still needed. -/
def State.dropCold (s : State) : Nat → List (Nat × Nat) → Nat × State
  | need, [] => (need, s)
  | need, (id, i) :: rest =>
    if need = 0 then (0, s)
    else (s.dropProxyCopy id i).dropCold (need - ((s.rec? id).bind fun r => r.loc? i).elim 0 (·.grains)) rest

/-- Ask for demotions out of the candidates until `need` grains are on their way; `rank` and `req` name the command that waits for
them, if any. -/
def State.askDemotions (s : State) (rank : Nat) (req : Option Nat) (need : Nat) : List (Nat × Nat × Nat) → State
  | [] => s
  | (_, id, i) :: rest =>
    if need = 0 then s
    else match (s.rec? id).bind fun r => (r.loc? i).map fun l => (r, l) with
      | none => s.askDemotions rank req need rest
      | some (r, l) =>
        match s.demoteTarget r l with
        | none => s.askDemotions rank req need rest
        | some t => (s.askMove id i t rank req).askDemotions rank req (need - l.grains) rest

/-- Moves asked for that take a page of a span down. -/
def State.leavingMoves (s : State) (tier : Nat) (inSpan : Nat → Bool) : List Move :=
  s.moves.filter fun m => ((s.rec? m.blk).bind fun r => r.loc? m.layer).any fun l => l.tier == tier && inSpan l.addr && decide (tier < m.target)

/-- Grains of a list of moves. -/
def moveGrains (l : List Move) : Nat := sumBy (·.grains) l

/-- The demotions of one span: they begin when its free grains are below the low-water mark and go on until they reach twice the mark
(R102). `key` names the span: tier, stack and region. -/
def State.demoteSpan (s : State) (key : Nat × Nat × Nat) (low free : Nat) (inSpan : Nat → Bool) : State :=
  let tier := key.1
  let others := s.demoting.filter (· != key)
  if 2 * low ≤ free ∨ (low ≤ free ∧ !s.demoting.contains key) then { s with demoting := others }
  else
    let want := 2 * low - free - moveGrains (s.leavingMoves tier inSpan)
    let (need, s) := if tier = 1 then { s with demoting := key :: others }.dropCold want (s.coldProxies inSpan) else (want, { s with demoting := key :: others })
    s.askDemotions 5 none need (s.demoteList tier inSpan)

/-- Queue every demotion that the low-water marks ask for (R102). -/
def State.demoteAll (s : State) : State :=
  let s := s.demoteSpan (0, 0, 0) s.params.t0LowWater s.freeT0 fun _ => true
  let s := (List.range 12).foldl (fun s k => (List.range 2).foldl (fun s g =>
    let (lo, hi) := s.regionSpan k g
    if s.regionOpen k g && decide (lo < hi) then
      s.demoteSpan (1, k, g) s.params.t1LowWater (s.freeRegion k g) fun a => decide (lo ≤ a ∧ a < hi)
    else s) s) s
  if s.extents.isEmpty then s else s.demoteSpan (2, 0, 0) s.params.t2LowWater s.freeT2 fun _ => true

/-- Free T1 grains of a region, or of one stack of it. -/
def State.freeT1 (s : State) (region : Nat) (home : Option Nat) : Nat :=
  match home with
  | some k => s.freeRegion k region
  | none => sumBy (fun k => s.freeRegion k region) (List.range 12)

/-- Place `n` grains of a new private page (R96): T1 within the quota and the region's grains that no reservation waits for, then T2,
then T3. A held page goes to T1 whatever the rest of the quota (R97). -/
def State.placeNew (s : State) (tenant n : Nat) (held : Bool) (home : Option Nat) (route : FarBound) : Option (Nat × Nat) :=
  let region := s.t1RegionOf tenant
  let t1 := if held || (s.quotaRoom tenant 1 n && decide (s.unfilled region none + n ≤ s.freeT1 region none)) then s.allocT1 region n home else none
  match t1 with
  | some a => some (1, a)
  | none =>
    if held then none
    else match (if s.quotaRoom tenant 2 n then s.allocT2 n route else none) with
      | some a => some (2, a)
      | none => (if s.quotaRoom tenant 3 n then s.allocT3 n route else none).map fun a => (3, a)

/-- Before a supply is placed (R96): cold copies go, and the demotions that make room for its pages are asked for, beside those that are
on their way already. Answers the moves that the supply waits for, none where room is there. `held` grains go to the home stack, if
there is one; `rest` grains are charged to the quota and need free grains that no reservation waits for. -/
def State.makeRoom (s : State) (req tenant held rest : Nat) (home : Option Nat) : List Nat × State :=
  let region := s.t1RegionOf tenant
  let quota := (s.tenantRec? tenant).elim 0 (·.quotaT1)
  let mine := fun (blk : Nat) => (s.rec? blk).any fun r => r.tenant == tenant && !r.published
  let inRegion := fun (a : Nat) => t1Region a == region
  let inHome := fun (a : Nat) => inRegion a && home.all (· == t1Stack a)
  let excess := if rest = 0 then 0 else s.tenantReserved tenant + s.tenantGrains tenant 1 + rest - quota
  let s := s.askDemotions 4 (some req) (excess - moveGrains ((s.leavingMoves 1 inRegion).filter fun m => mine m.blk))
    ((s.demoteList 1 inRegion).filter fun x => mine x.2.1)
  let (lack, s) := s.dropCold (if held = 0 then 0 else held - s.freeT1 region home) (s.coldProxies inHome)
  let s := s.askDemotions 4 (some req) (lack - moveGrains (s.leavingMoves 1 inHome)) (s.demoteList 1 inHome)
  let (short, s) := s.dropCold (if rest = 0 then 0 else s.unfilled region none + rest - s.freeT1 region none) (s.coldProxies inRegion)
  let s := s.askDemotions 4 (some req) (short - moveGrains (s.leavingMoves 1 inRegion)) (s.demoteList 1 inRegion)
  (if excess = 0 ∧ lack = 0 ∧ short = 0 then [] else (s.leavingMoves 1 inRegion).map (·.id), s)

/-- A T1 reservation can be held now (R32): free grains that no other reservation waits for cover it. -/
def State.canHold (s : State) (tenant res : Nat) (home : Option Nat) : Bool :=
  let region := s.t1RegionOf tenant
  decide (res + s.unfilled region home ≤ s.freeT1 region home)

/-- A class-0 sequence that lost its home stack holds its reservation again once its held pages lie on the new one (R296). -/
def State.settleRehome (s : State) (i : Nat) : State :=
  match s.seq? i with
  | none => s
  | some q =>
    let there := fun (x : Nat × Nat) => match (s.rec? x.1).bind fun r => r.loc? x.2 with
      | some l => l.grains != 0 && !l.lost && (l.tier == 0 || (l.tier == 1 && t1Stack l.addr == q.homeStack))
      | none => false
    if q.rehome ∧ (s.heldPages { q with t1held := true }).all there then s.modSeq i fun q => { q with rehome := false, t1held := true } else s

/-- After a commit: pages that entered the held set and lie below T1 are promoted ahead of every other promotion (R97). -/
def State.promoteHeld (s : State) (i : Nat) : State :=
  let s := s.settleRehome i
  match s.seq? i with
  | none => s
  | some q => (s.heldPages q).foldl (fun s (id, l) =>
      match (s.rec? id).bind fun r => r.loc? l with
      | some x => if 2 ≤ x.tier ∧ x.grains ≠ 0 then s.askMove id l 1 3 none else s
      | none => s) s

end Sys2Proof.Machine
end

