-- ==== Sys2Proof/Machine/Directory.lean ====
section
/-! DEFINITION. The prefix directory and its array entries: handles (R45), homes (R49), key and handle entries (R76, R77),
directory messages (R50, R254, R257), references and freeing (R48, R57, R62, R69). -/

namespace Sys2Proof.Machine

/-! ### Handles and homes -/

def handleMk (home slot gen : Nat) : Nat := gen + slot * 2 ^ 26 + home * 2 ^ 52
def handleGen (h : Nat) : Nat := bits h 0 26
def handleHome (h : Nat) : Nat := bits h 52 12

/-- Generation after one more free of a directory slot, 67,108,863 followed by 1 (R45). -/
def nextDirGen (g : Nat) : Nat := if g = 67108863 then 1 else g + 1

/-- Asvis link that is up, runs directory messages and leads to a device (R253). -/
def State.linkTo (s : State) (dev : Nat) : Option Nat :=
  s.ports.findSome? fun p =>
    match p.id, p.peer with
    | .asvis l, some h => if p.st = .up ∧ p.dirOk ∧ h.device = dev then some l else none
    | _, _ => none

/-- Asvis link that is up, runs v3 and leads to a device: a link whose check of R253 failed still carries pages (R72, R253). -/
def State.pageLink (s : State) (dev : Nat) : Option Nat :=
  s.ports.findSome? fun p =>
    match p.id, p.peer with
    | .asvis l, some h => if p.st = .up ∧ p.version = 3 ∧ h.device = dev then some l else none
    | _, _ => none

/-- A device without Asvis Link v3 peers, or with one member, is its own store domain (R49). A peer whose link is down for the moment
still is one. -/
def State.ownDomain (s : State) : Bool :=
  s.params.members ≤ 1 || !(s.ports.any fun p => (match p.id with
    | .asvis _ => true
    | .cxl _ => false
    | .nvme _ _ => false) && p.version == 3 && p.peer.elim false fun h => !h.tray)

/-- Home of a key: home_table at bits [11:0] of its chain hash; a device that is its own store domain is home for every bucket
(R49). -/
def State.homeOf (s : State) (hash : BitVec 128) : Nat :=
  if s.ownDomain then s.params.deviceId else s.image.homeTable.getD (hash.toNat % 4096) s.params.deviceId

/-- Sharing domain of a tenant. -/
def State.domainOf (s : State) (tenant : Nat) : Nat :=
  match s.tenantRec? tenant with
  | some t => t.domain
  | none => 0

/-- Key generation of a sharing domain (R43). -/
def State.keyGen (s : State) (d : Nat) : Nat :=
  match s.domain? d with
  | some x => x.keyGen
  | none => 0

/-- K_s of a sharing domain, in its key slot (R43, R311). -/
def State.hashKey (s : State) (d : Nat) : BitVec 256 :=
  match s.keySlot? (hashKeySlot d) with
  | some x => x.key
  | none => 0

/-! ### Look-ups -/

/-- The entry or proxy that a handle names here, whatever its state. -/
def State.entryOf (s : State) (h : Nat) : Option DirEntry := s.dir.find? fun e => e.handle == h && h != 0

/-- A published home entry of a domain and model (R45); none of the cases of "not found" tells them apart. -/
def State.publishedHome (s : State) (h domain : Nat) (fp : BitVec 64) : Option DirEntry :=
  s.dir.find? fun e => e.handle == h && !e.proxy && e.st == .published && e.domain == domain && e.fingerprint == fp
    && handleGen h != 0 && handleHome h == s.params.deviceId

/-- The entry whose own blocks hold block `b` of a handle's prefix, through its parent chain (R46). -/
def State.ownerEntry (s : State) : Nat → Nat → Nat → Option DirEntry
  | 0, _, _ => none
  | fuel + 1, h, b =>
    match s.entryOf h with
    | none => none
    | some e => if e.parent ≠ 0 ∧ b < e.parentDepth then s.ownerEntry fuel e.parent b else some e

/-- Handles of a prefix and its parents, nearest first (R134). -/
def State.chainOf (s : State) : Nat → Nat → List Nat
  | 0, _ => []
  | fuel + 1, h =>
    match s.entryOf h with
    | none => []
    | some e => h :: (if e.parent = 0 then [] else s.chainOf fuel e.parent)

/-! ### Prefix-table rows (R76, R77) -/

/-- XOR of the four 16-bit words of a fingerprint. -/
def foldFp (f : BitVec 64) : Nat :=
  (f.extractLsb' 0 16 ^^^ f.extractLsb' 16 16 ^^^ f.extractLsb' 32 16 ^^^ f.extractLsb' 48 16).toNat

def lowHash (h : BitVec 128) : Nat := h.toNat % 2 ^ 96

/-- Working banks of a table, in rank order (R74, R80). -/
def State.banksOf (s : State) (tag : Nat) : List Bank :=
  s.array.banks.filter fun b => b.tag == tag && (b.st == .working || b.st == .failing)

/-- Entries that a bank of a table holds. -/
def bankEntries (tag : Nat) : Nat := if tag = 4 then 4096 else if tag = 5 then 2048 else 8192

/-- Entries that a table holds. -/
def State.tableRoom (s : State) (tag : Nat) : Nat := (s.banksOf tag).length * bankEntries tag

/-- Lowest free row among the table's first `n`. -/
def freeRow (used : List Nat) (n : Nat) : Option Nat := (List.range n).find? fun i => !used.contains i

/-- Directory slots and prefix-table rows that publications sent to other homes will need when these answer OK (R62; log entry 118). -/
def State.promised (s : State) : Nat :=
  (s.txns.filter fun t => match t.kind with
    | .publish _ => true
    | _ => false).length

/-- Whether the prefix table has a free row beside those promised. -/
def State.prefixRoom (s : State) : Bool := decide (s.array.rows.length + s.promised < s.tableRoom 1)

/-- Whether the directory has a free slot beside those promised. -/
def State.dirRoom (s : State) : Bool := decide (s.promised < s.dirFree.limit - s.dirFree.fresh + s.dirFree.freed.length)

def State.putRow (s : State) (r : PrefixRow) : State :=
  match freeRow (s.array.rows.map (·.row)) (s.tableRoom 1) with
  | none => s
  | some i =>
    let m := s.newMirrors
    { s with array := { s.array with rows := { r with row := i, mirrorA := m.1, mirrorB := m.2 } :: s.array.rows } }

def keyRowOf (e : DirEntry) : PrefixRow :=
  { row := 0, isHandle := false, domain := e.domain, fold := foldFp e.fingerprint, depth := e.depth,
    hashLow := lowHash e.hash, handle := 0, slot := e.slot, gen := e.gen, proxy := e.proxy }

def handleRowOf (e : DirEntry) : PrefixRow :=
  { row := 0, isHandle := true, domain := e.domain, fold := 0, depth := 0, hashLow := 0, handle := e.handle,
    slot := e.slot, gen := e.gen, proxy := true }

/-- A key row matches a search of the prefix table (the key entry's map). -/
def PrefixRow.hits (r : PrefixRow) (domain : Nat) (fp : BitVec 64) (depth : Nat) (hash : BitVec 128) : Bool :=
  rowHits r.upset (1 + domain * 2 ^ 5 + foldFp fp * 2 ^ 15 + depth * 2 ^ 31 + lowHash hash * 2 ^ 64)
    (!r.isHandle && r.domain == domain && r.fold == foldFp fp && r.depth == depth && r.hashLow == lowHash hash)

/-- Remove an entry's key row (R66, R70). -/
def State.dropKeyRow (s : State) (slot : Nat) : State :=
  { s with array := { s.array with rows := s.array.rows.filter fun r => !(r.slot == slot && !r.isHandle) } }

/-- Remove every row of an entry. -/
def State.dropRows (s : State) (slot : Nat) : State :=
  { s with array := { s.array with rows := s.array.rows.filter fun r => r.slot != slot } }

/-- A hit of a key row is verified against the directory entry (R52, R87): generation, state, domain, fingerprint, depth,
chain hash and key generation. -/
def State.verifyKey (s : State) (r : PrefixRow) (domain : Nat) (fp : BitVec 64) (depth : Nat) (hash : BitVec 128) :
    Option DirEntry :=
  match s.dir? r.slot with
  | none => none
  | some e =>
    if e.gen = r.gen ∧ e.st = .published ∧ e.domain = domain ∧ e.fingerprint = fp ∧ e.depth = depth ∧ e.hash = hash
        ∧ e.keyGen = s.keyGen domain then some e else none

/-- Load a directory entry (R47): a bad mirror is repaired from the other; an entry with both bad never matches, and is made faulted
where its references are known (`State.faultBad`). -/
def State.loadEntry (s : State) (slot : Nat) : State :=
  match s.dir? slot with
  | none => s
  | some e =>
    if (e.mirrorA && e.mirrorB) || (!e.mirrorA && !e.mirrorB) || !s.repairable then s
    else (s.modDir slot fun e => { e with mirrorA := true, mirrorB := true }).note "METADATA_REPAIRED" (evSource 11 e.domain) slot

/-- An immediate comparison of banks is due (R87, R88). -/
def State.suspect (s : State) (banks : List Nat) : State :=
  { s with array := { s.array with suspects := s.array.suspects ++ banks.filter fun b => !s.array.suspects.contains b } }

/-- Bank that holds the entry at a position of a table. -/
def State.bankAt (s : State) (tag pos : Nat) : Option Nat := ((s.banksOf tag)[pos / bankEntries tag]?).map (·.n)

/-- A hit fails its verification: it counts as no match, with an event and a comparison of its bank (R87). -/
def State.hitFails (s : State) (tag pos source detail : Nat) : State :=
  (s.note "ARRAY_HIT_UNVERIFIED" source detail).suspect (s.bankAt tag pos).toList

/-- Hits at several positions fail their verification. -/
def State.hitsFail (s : State) (tag : Nat) (ps : List Nat) : State :=
  ps.foldl (fun s p => s.hitFails tag p (evSource 2 ((s.bankAt tag p).getD 0)) tag) s

/-- Position of an extent's first row in the extent table (log entry 33). -/
def State.extentPos (s : State) (e : Extent) : Nat :=
  sumBy (fun x => coverRanges x.grains) (s.extents.takeWhile fun x => x.id != e.id)

/-- Extents whose upset rows match a grain that they do not cover: hits that fail (R87). -/
def State.extentFalse (s : State) (a : Nat) : State :=
  s.hitsFail 2 ((s.extents.filter fun e => !e.covers a && rowHits e.upset (extentKey a) false).map s.extentPos)

/-- Search one key: the verified entry, if any, and the state with an event for each hit before it that fails (R52, R87). Each entry
that a hit names is loaded (R47). -/
def State.searchKey (s : State) (domain : Nat) (fp : BitVec 64) (depth : Nat) (hash : BitVec 128) : Option DirEntry × State :=
  let hits := s.array.rows.filter fun r => r.hits domain fp depth hash
  let s := hits.foldl (fun s r => s.loadEntry r.slot) s
  let bad := hits.takeWhile fun r => (s.verifyKey r domain fp depth hash).isNone
  (hits.findSome? fun r => s.verifyKey r domain fp depth hash, bad.foldl (fun s r => s.hitFails 1 r.row (evSource 11 domain) depth) s)

/-- Chain hash of block b of an entry's own blocks whose records are not here (R43). -/
def DirEntry.hashAt (e : DirEntry) (b : Nat) : BitVec 128 := if b + 1 = e.depth then e.hash else Config.remoteHash e.handle b

/-! ### Frames and transactions (R254, R257) -/

/-- Asvis message codes. -/
def msgHello : Nat := 0x01
def msgSpdm : Nat := 0x02
def msgConfig : Nat := 0x03
def msgKeepalive : Nat := 0x04
def msgCredit : Nat := 0x05
def msgReplay : Nat := 0x06
def msgEpoch : Nat := 0x07
def msgPageGet : Nat := 0x10
def msgPageData : Nat := 0x11
def msgPagePut : Nat := 0x12
def msgPutDone : Nat := 0x13
def msgTableGet : Nat := 0x14
def msgTableData : Nat := 0x15
def msgDirPublish : Nat := 0x20
def msgDirLookup : Nat := 0x21
def msgDirAttach : Nat := 0x22
def msgDirRelease : Nat := 0x23
def msgDirWithdrawn : Nat := 0x24
def msgDirAnswer : Nat := 0x25
def msgExtentOffer : Nat := 0x30
def msgExtentClaim : Nat := 0x31
def msgExtentRelease : Nat := 0x32
def msgExtentDone : Nat := 0x33
def msgRegionRead : Nat := 0x40
def msgRegionWrite : Nat := 0x41
def msgRegionRecall : Nat := 0x42
def msgRecallDone : Nat := 0x43
def msgNmo : Nat := 0x44
def msgNmoDone : Nat := 0x45

/-- Frames of the replay buffer (R255). -/
def replayFrames : Nat := 256

/-- A port carries frames, reads and writes now: it is up, or an Asvis link is being secured, and its SSD controller is not
being reset (R252, R261, R270). -/
def State.portIssues (s : State) (port : PortId) : Bool :=
  match s.port? port with
  | some p => !p.resetting && (p.st == .up || (p.st == .securing && (match port with
      | .asvis _ => true
      | .cxl _ => false
      | .nvme _ _ => false)))
  | none => false

/-- Issue something on a CXL or NVMe port. -/
def State.emitOn (s : State) (port : PortId) (o : Output) : State := if s.portIssues port then s.emit o else s

/-- key_kind of a message (R254, "Messages"): `page` is the kind of the owner that a page or an NMO carries. -/
def keyKindOf (msg page : Nat) : Nat :=
  if msg < 0x10 ∨ (0x30 ≤ msg ∧ msg < 0x40) then 0
  else if msg < 0x14 ∨ msg = msgNmo ∨ msg = msgNmoDone then (if page = 0 then 1 else page)
  else 2

/-- The key epoch that this device holds on a link for the owner of a key; `none` for the link key (R256). -/
def State.keyEpochOf (s : State) (link kind tenant domain : Nat) : Option Nat :=
  let peer := fun (o : Nat) => (s.peerEpochs.find? fun x => x.1 == link && x.2.1 == o).map (·.2.2)
  match kind with
  | 1 => some (if s.isTray then (peer tenant).getD 0 else (s.tenant? tenant).elim 0 (·.epoch))
  | 2 => some ((peer (4096 + domain)).getD (((s.island.domEpochs.find? fun x => x.1 == domain).map Prod.snd).getD 0))
  | _ => none

/-- A header with the key of its message and that key's epoch (R254, R256); an own frame names no function. -/
def State.keyHdr (s : State) (link msg : Nat) (h : Hdr) : Hdr :=
  let k := keyKindOf msg h.keyKind
  { h with keyKind := k, keyEpoch := (s.keyEpochOf link k h.tenant h.domain).getD 0, fn := if h.own then 0 else h.fn }

/-- The header of an answer carries whose traffic its request was (R254). -/
def hdrOf (fr : Frame) : Hdr :=
  { cls := fr.cls, own := fr.own, fn := fr.fn, tenant := fr.tenant, domain := fr.domain, keyKind := fr.keyKind }

/-- Queue of a frame or transfer: its function's; for the controller's own, the whey path's where it moves a page (R236, R220). -/
def Hdr.queueFn (h : Hdr) (page : Bool) : Nat := if !h.own then h.fn else if page then wheyFn else defaultFn

/-- Header bytes 0 to 47 of a frame (R254). -/
def Sent.header (f : Sent) : Bytes :=
  leBytes 48 (f.msg + f.version * 2 ^ 8 + f.hdr.cls * 2 ^ 10 + f.last.toNat * 2 ^ 13 + f.coded.toNat * 2 ^ 14 + f.hdr.own.toNat * 2 ^ 15
    + f.data.length * 2 ^ 16 + f.src * 2 ^ 32 + f.dst * 2 ^ 44 + f.hdr.fn * 2 ^ 64 + f.hdr.tenant * 2 ^ 80 + f.hdr.domain * 2 ^ 92
    + f.hdr.keyKind * 2 ^ 102 + f.status * 2 ^ 104 + f.hdr.keyEpoch * 2 ^ 112 + f.frameSeq * 2 ^ 128 + f.xid * 2 ^ 192
    + f.object * 2 ^ 224 + f.offset * 2 ^ 288 + f.aux * 2 ^ 320)

/-- Owner of a frame's key: 0 for the link, the tenant, or the sharing domain (R321). -/
def Hdr.keyOwner (h : Hdr) : Nat := if h.keyKind = 1 then h.tenant else if h.keyKind = 2 then h.domain else 0

/-- Frames in one direction after which its secret is updated (R321). -/
def updateFrames : Nat := 2 ^ 31

/-- Frame key and salt of a direction, of its application secret (R321). -/
def frameKey (secret : BitVec 256) (h : Hdr) : BitVec 256 :=
  hkdfKey secret "KT-ASL key" (leBytes 1 h.keyKind ++ leBytes 2 h.keyOwner ++ leBytes 2 h.keyEpoch)

def frameSalt (secret : BitVec 256) : Nat := ofLeBytes (hkdfExpand secret "KT-ASL salt" [] 4)

/-- A frame under the session's keys (R255): the requester sends under the request secret, the responder under the response secret (R311).
-/
def Sent.protect (f : Sent) (x : KeySlot) (responder : Bool) : Sent :=
  let secret := updatedSecret (f.frameSeq / updateFrames) (if responder then x.key2 else x.key)
  let (ct, tag) := Config.aesGcm (frameKey secret f.hdr) (BitVec.ofNat 96 (frameSalt secret + f.frameSeq * 2 ^ 32)) f.header f.data
  { f with wire := ct, tag := tag }

/-- The frame cipher derives an owner's key when it is first needed (R321). -/
def Port.deriveKey (p : Port) (h : Hdr) : Port :=
  let k := (h.keyKind, h.keyOwner, h.keyEpoch)
  if h.keyKind = 0 ∨ p.ownerKeys.contains k then p else { p with ownerKeys := k :: p.ownerKeys }

/-- The frame ciphers discard an owner's keys when its epoch changes (R321). -/
def Port.dropKeys (p : Port) (kind owner : Nat) : Port := { p with ownerKeys := p.ownerKeys.filter fun k => !(k.1 == kind && k.2.1 == owner) }

/-- Send a frame on an Asvis link: it takes the next frame_seq of the session and stays in the replay buffer; after 2^31 frames KEY_UPDATE
runs first (R321). A link that is down, or whose key slot is empty, sends nothing (R313). -/
def State.sendFrame (s : State) (link : Nat) (f : Sent) : State :=
  match s.keySlot? (portSlot (.asvis link)) with
  | none => s
  | some x =>
    if !s.portIssues (.asvis link) then s else
    let p := s.port? (.asvis link)
    let n := p.elim 0 (·.txSeq)
    let f := { f with frameSeq := n, version := p.elim 0 (·.version), src := s.params.deviceId,
                      dst := (p.bind (·.peer)).elim 0 (·.device), hdr := s.keyHdr link f.msg f.hdr }
    let f := f.protect x (p.elim false (·.responder))
    let s := if n ≠ 0 ∧ n % updateFrames = 0 then s.emit (.secure (.asvis link) .keyUpdate) else s
    ((s.emit (.frame link f)).enqueue (4 + link) (f.hdr.queueFn (f.msg == msgPageGet || f.msg == msgPagePut)) f.hdr.cls
      (64 + f.data.length)).modPort (.asvis link) fun p =>
      { p.deriveKey f.hdr with txSeq := p.txSeq + 1, lastTx := s.now, buffer := (f :: p.buffer).take replayFrames }

/-- Send a message of one frame. -/
def State.send (s : State) (link msg xid object aux status : Nat) (data : Bytes) (h : Hdr := {}) : State :=
  s.sendFrame link { hdr := h, frameSeq := 0, msg := msg, xid := xid, object := object, aux := aux, status := status, offset := 0, last := true,
                     coded := false, data := data }

/-- Payload bytes of one frame (R254). -/
def frameBytes : Nat := 4096

/-- Send a page in frames of 4,096 bytes in ascending offset order, the last of them marked (R259). `fuel` bounds them. -/
def State.sendPage (link msg xid object aux : Nat) (coded : Bool) (h : Hdr := {}) : Nat → Nat → State → Bytes → State
  | 0, _, s, _ => s
  | n + 1, off, s, data =>
    let rest := data.drop frameBytes
    let s := s.sendFrame link { hdr := h, frameSeq := 0, msg := msg, xid := xid, object := object, aux := aux, status := 0, offset := off,
                                last := rest.isEmpty, coded := coded, data := data.take frameBytes }
    if rest.isEmpty then s else State.sendPage link msg xid object aux coded h n (off + frameBytes) s rest

/-- Frames that a page of any length may take. -/
def pageFrames (data : Bytes) : Nat := data.length / frameBytes + 1

/-- Tick by which a transaction on a port must be answered (R257, R270). -/
def State.dueOn (s : State) (port : PortId) : Nat :=
  s.now + (match port with
    | .asvis _ => s.params.aslTimeoutUs * ticksPerUs
    | .cxl _ => s.params.aslTimeoutUs * ticksPerUs
    | .nvme _ _ => s.params.nvmeTimeoutMs * 470000)

/-- Open a transaction on a port. -/
def State.openTxn (s : State) (port : PortId) (kind : TxnKind) (tenant : Nat) (extent : Option Nat) (nvme : Option NvmeCmd := none) : State :=
  let t : Txn := { xid := s.ids, port := port, kind := kind, tenant := tenant, due := s.dueOn port, extent := extent, data := [], table := 0,
                   nvme := nvme }
  { s with txns := t :: s.txns, ids := s.ids + 1 }

/-- The request that a transaction serves; moves and the spills of new pages serve the controller's own whey path. -/
def State.servedReq (s : State) (kind : TxnKind) : Option Req :=
  match kind with
  | .farPage c => (s.staging.find? fun x => x.id == c).bind fun x => s.req? x.req
  | .lookup r => s.req? r
  | .attach r => s.req? r
  | .publish r => s.req? r
  | .withdraw r => s.req? r
  | .region r => s.req? r
  | .nmo r => s.req? r
  | .chunk r _ _ => s.req? r
  | .rekey r _ _ => s.req? r
  | .tableFetch _ _ => none
  | .dirParent _ _ _ _ => none
  | .release _ => none
  | .put _ => none
  | .spill _ => none
  | .claim _ => none
  | .destage _ => none
  | .trayRead _ _ _ _ => none

/-- A header as the traffic of the request that a transaction serves: its function and its class (R220, R254). -/
def State.hdrFor (s : State) (kind : TxnKind) (h : Hdr) : Hdr :=
  match s.servedReq kind with
  | some r => { h with own := false, cls := r.cls, fn := r.fn }
  | none => h

/-- Open a transaction and send its request. -/
def State.request (s : State) (link msg object aux tenant : Nat) (kind : TxnKind) (data : Bytes) : State :=
  (s.send link msg s.ids object aux 0 data (s.hdrFor kind { tenant := tenant, domain := s.domainOf tenant })).openTxn (.asvis link) kind tenant none

/-- The table of an arrived page is here: it is uncoded, or a live or retiring table of its domain has its digest (R171). -/
def State.tableHere (s : State) (e : DirEntry) (c : StagingCopy) : Bool := !c.coded || (s.tableByDigest e.domain c.digest).isSome

/-- Ask a remote holder for the image that a page of it names, unless it is here or on its way (R171). -/
def State.askTable (s : State) (e : DirEntry) (c : StagingCopy) : State :=
  if s.tableHere e c || s.txns.any fun t => t.kind == TxnKind.tableFetch e.domain c.digest then s
  else match s.pageLink e.holder with
    | some l => s.request l msgTableGet 0 c.digest.toNat 0 (.tableFetch e.domain c.digest) []
    | none => s

/-- Issue a command on an SSD (R269). -/
def State.nvmeIssue (s : State) (c p command : Nat) (n : NvmeCmd) : State :=
  s.emitOn (.nvme c p) (match n.data with
    | some d => .nvmeWrite c p command n.nsid n.lba d
    | none => .nvmeRead c p command n.nsid n.lba n.blocks)

/-- Whole 64-byte lines that hold some bytes (R268). -/
def wholeLines (d : Bytes) : Bytes := d ++ List.replicate (roundUp d.length 64 - d.length) 0

/-- How a volume grain is named to its tray (log entry 40): bit 63 tells it from a pool grain, then the tray's volume number and the grain. -/
def volObject (v : VolumeRec) (a : Nat) : Nat := 2 ^ 63 + v.volume * 2 ^ 32 + a % 2 ^ 32

/-- Grain at the source of a pool address (R78). -/
def targetGrain (e : Extent) (a : Nat) : Nat := e.targetBase + (a - e.poolBase)

/-- Header of a frame that carries a page of an owner: a tenant (1) or a sharing domain (2) (R254). -/
def ownerHdr (kind owner : Nat) : Hdr :=
  { tenant := if kind = 1 then owner else 0, domain := if kind = 2 then owner else 0, keyKind := kind }

/-- PAGE_PUT in frames, or PAGE_GET, of a page of an owner (R259). -/
def State.sendPut (s : State) (link object aux : Nat) (h : Hdr) (data : Option Bytes) : State :=
  match data with
  | some d => State.sendPage link msgPagePut s.ids object aux false h (pageFrames d) 0 s d
  | none => s.send link msgPageGet s.ids object aux 0 [] h

/-- Read a page from its far tier, or write it there, as transaction `kind` (R259, R263, R268, R269). `data` is none for a read. -/
def State.pageTransfer (s : State) (kind : TxnKind) (owner : Hdr) (tier addr grains version : Nat) (data : Option Bytes) : State :=
  let h := s.hdrFor kind owner
  let queued := fun (s : State) (cluster : Nat) => s.enqueue (100 + cluster) (h.queueFn true) h.cls (data.elim 64 (·.length))
  match tier with
  | 2 =>
    let s := s.extentFalse addr
    match s.extentAt addr with
    | none => s
    | some e =>
      let g := targetGrain e addr
      if e.route < 96 then
        (s.sendPut e.route g (grains + version * 256) h data).openTxn (.asvis e.route) kind h.tenant (some e.id)
      else
        (s.emitOn (.cxl (e.route - 96)) (match data with
          | some d => .cxlPoolWrite (e.route - 96) s.ids (g * 256) (wholeLines d)
          | none => .cxlPoolRead (e.route - 96) s.ids (g * 256) (grains * 256)) |> (queued · (e.route - 96))).openTxn (.cxl (e.route - 96)) kind h.tenant (some e.id)
  | 3 =>
    match s.image.volumes.find? fun v => v.index == addr / 2 ^ 32 with
    | none => s
    | some v =>
      if v.local_ then
        let n := volumeCmd v (addr % 2 ^ 32) grains data
        (s.nvmeIssue v.cluster v.port s.ids n |> (queued · v.cluster)).openTxn (.nvme v.cluster v.port) kind h.tenant none (some n)
      else match s.trayLink v with
        | some l => (s.sendPut l (volObject v addr) (grains + version * 256) h data).openTxn (.asvis l) kind h.tenant none
        | none => s
  | _ => s

/-- Status that an Asvis status gives the request it serves (R258); `pages` selects the page reading of status 3. -/
def asvisStatus (st : Nat) (pages : Bool) : Nat :=
  match st with
  | 0 => stOk
  | 1 => stOkMerged
  | 2 => stPublishConflict
  | 3 => if pages then stDataIntegrity else stPrefixNotFound
  | 4 => stRefusedCapacity
  | 5 => stExtentRevoked
  | 6 => stLinkFault
  | 7 => stDataIntegrity
  | _ => stLinkFault

/-- A directory entry's 128 bytes without its map, state and check, as directory messages carry its fields. -/
def dirBytes (e : DirEntry) : Bytes :=
  leBytes 128 (e.hash.toNat + e.fingerprint.toNat * 2 ^ 128 + e.domain * 2 ^ 192 + e.depth * 2 ^ 208 + e.keyGen * 2 ^ 240
    + e.handle * 2 ^ 256 + e.digest.toNat * 2 ^ 320 + e.publisher * 2 ^ 608 + e.holder * 2 ^ 620 + e.fmt * 2 ^ 632
    + e.parent * 2 ^ 704 + e.parentDepth * 2 ^ 768)

/-! ### References (R48, R57, R62, R69) -/

/-- Tell a device that a reference of this one ends, or, from the home, that the entry it holds is freed (R57, R62). -/
def State.sendRelease (s : State) (dev : Nat) (e : DirEntry) : State :=
  match s.linkTo dev with
  | none => s
  | some l => (s.send l msgDirRelease s.ids e.handle e.keyGen 0 [] { domain := e.domain }).openTxn (.asvis l) (.release e.handle) 0 none

/-- Give back a reference that a home has counted for a request of this device (R57, R208). -/
def State.giveBack (s : State) (r : Req) (h : Nat) : State :=
  match s.linkTo (handleHome h) with
  | none => s
  | some l => s.request l msgDirRelease h (s.keyGen (s.domainOf r.tenant)) r.tenant (.release h) []

/-- Give back every entry of a chain that a request has gathered. -/
def State.dropChain (s : State) (r : Req) (chain : List (Nat × DirKeyF)) : State := chain.foldl (fun (s : State) x => s.giveBack r x.1) s

/-- A proxy holds a copied page. -/
def State.hasCopies (s : State) (e : DirEntry) : Bool :=
  e.map.any fun x => match s.rec? x.2 with
    | some r => r.locs.any fun l => l.grains != 0
    | none => false

/-- Free an entry's slot (R45, R69): its records lose the entry's reference, its rows leave the array, and its grains
return to the domain's quota with it. -/
def State.freeSlot (s : State) (e : DirEntry) : State :=
  let s := (e.map.map Prod.snd).foldl (fun s r => s.unrefRec r) s
  let s := s.dropRows e.slot
  { s with dir := s.dir.filter (fun x => x.slot != e.slot), dirFree := s.dirFree.put e.slot,
           dirGens := setGen s.dirGens e.slot (nextDirGen e.gen) }

/-- The entry or proxy that this device holds of an entry's parent. -/
def State.parentOf (s : State) (e : DirEntry) : Option DirEntry := if e.parent = 0 then none else s.entryOf e.parent

/-- One local reference to an entry ends (R48, R58). `fuel` bounds the parent chain. -/
def State.releaseRef : Nat → State → Nat → State
  | 0, s, _ => s
  | fuel + 1, s, slot =>
    match s.dir? slot with
    | none => s
    | some e =>
      let n := e.refs - 1
      let s := s.modDir slot fun e => { e with refs := n, idleSince := if n = 0 then s.now else e.idleSince }
      if n ≠ 0 then s
      else if e.proxy then
        if e.holderProxy ∧ e.st ≠ .faulted then
          if e.homeRef then (s.sendRelease (handleHome e.handle) e).modDir slot fun e => { e with homeRef := false } else s
        else if s.hasCopies e ∧ e.st ≠ .faulted then s
        else
          let s := (if e.homeRef then s.sendRelease (handleHome e.handle) e else s).freeSlot e
          match s.parentOf e with
          | some p => State.releaseRef fuel s p.slot
          | none => s
      else if e.st = .published then s
      else
        let s := (if e.holder = s.params.deviceId then s else s.sendRelease e.holder e).freeSlot e
        match s.parentOf e with
        | some p => State.releaseRef fuel s p.slot
        | none => s

/-- Release the reference on the entry a handle names here. -/
def State.releaseHandle (s : State) (h : Nat) : State :=
  match s.entryOf h with
  | some e => State.releaseRef chainFuel s e.slot
  | none => s

/-- Free an entry that has no reference and no reason to stay (R57, R69). -/
def State.freeIdle (s : State) (slot : Nat) : State :=
  match s.dir? slot with
  | some e => if e.refs = 0 then State.releaseRef chainFuel (s.modDir slot fun e => { e with refs := 1 }) slot else s
  | none => s

/-- Proxies without references whose last copied page has gone are freed (R57). -/
def State.freeIdleProxies (s : State) : State :=
  (s.dir.filter fun e => e.proxy && !e.holderProxy && e.refs == 0 && !s.hasCopies e).foldl (fun s e => s.freeIdle e.slot) s

/-- A new entry counts as a reference of its parent's entry here (R48). -/
def State.takeParent (s : State) (e : DirEntry) : State :=
  match s.parentOf e with
  | some p => s.modDir p.slot fun p => { p with refs := p.refs + 1 }
  | none => s

def State.takeRef (s : State) (slot : Nat) : State := s.modDir slot fun e => { e with refs := e.refs + 1 }

/-- A device holds a proxy of this home entry, or no longer (R48). -/
def State.addProxy (s : State) (slot dev : Nat) : State :=
  (s.takeRef slot).modDir slot fun e => { e with proxies := dev :: e.proxies }

/-- Withdraw a published home entry (R66): its key entry leaves the array and every device with a proxy is told. -/
def State.withdraw (s : State) (e : DirEntry) : State :=
  let s := (s.modDir e.slot fun e => { e with st := .withdrawn }).dropKeyRow e.slot
  -- R62, R66: a holder proxy that has released its reference still stands at the holder
  let devices := ((if s.heldAway e then [e.holder] else []) ++ e.proxies).eraseDups
  let s := devices.foldl (fun s d => match s.linkTo d with
    | some l => s.send l msgDirWithdrawn 0 e.handle e.keyGen 0 [] { domain := e.domain }
    | none => s) s
  -- R69: an entry without references is freed by the withdrawal itself
  s.freeIdle e.slot

/-- Grains that a domain's published prefixes hold here (R59). -/
def State.domainGrains (s : State) (d : Nat) : Nat :=
  sumBy (fun e => if e.domain = d then e.grainsTaken else 0) s.dir

/-- Fault an entry: both mirrors failed, a page of it is lost, or its device is unreachable (R47, R51, R290). -/
def State.faultEntry (s : State) (slot : Nat) : State :=
  match s.dir? slot with
  | none => s
  | some e =>
    (((s.modDir slot fun e => { e with st := .faulted }).dropKeyRow slot).note "DIRECTORY_ENTRY_FAULTED" (evSource 11 e.domain) slot).freeIdle slot

/-- Entries whose mirrors have both failed are faulted (R47). -/
def State.faultBad (s : State) : State :=
  (s.dir.filter fun e => !e.mirrorA && !e.mirrorB && e.st != .faulted).foldl (fun (s : State) e => s.faultEntry e.slot) s

/-- Load the entry that a handle names here (R47). -/
def State.loadHandle (s : State) (h : Nat) : State :=
  let s := s.faultBad
  (s.entryOf h).elim s fun e => s.loadEntry e.slot

/-- Load a prefix's entry and its parents' (R46, R47). -/
def State.loadChain (s : State) (h : Nat) : State :=
  ((s.chainOf chainFuel h).filterMap s.entryOf).foldl (fun s e => s.loadEntry e.slot) s.faultBad

/-- A directory entry whose own pages a block record holds becomes faulted (R47, R175, R267). -/
def State.faultOwner (s : State) (blk : Nat) : State :=
  (s.dir.filter fun e => !s.heldAway e && e.st != .faulted && e.map.any fun x => x.2 == blk).foldl (fun s e => s.faultEntry e.slot) s

/-- A page is lost (R290): a proxy copy is dropped instead, and a lost published page makes its entry faulted. -/
def State.pageLost (s : State) (blk layer : Nat) (spot : Option (Nat × Nat) := none) : State :=
  match (s.rec? blk).bind fun r => (r.loc? layer).map fun l => (r, l) with
  | none => s
  | some (r, l) =>
    if l.lost then s
    else if s.dir.any fun e => s.heldAway e && e.map.any fun x => x.2 == blk then (s.dropProxyCopy blk layer).freeIdleProxies
    else if r.published then (s.losePage blk layer spot).faultOwner blk
    else s.losePage blk layer spot

/-- Events of a read that its check refuses before any byte is read: the two paths differ, or a key slot is empty (R303, R313); a T1 address
outside the current layout (R284). -/
def State.refusalEvent (s : State) (l : Loc) (st : Nat) : State :=
  if st = stInternalFault then s.note "READ_OWNER_REFUSED" (s.spotEvent l.tier l.addr 0).1 (s.spotEvent l.tier l.addr 0).2
  else if st = stDataIntegrity ∧ l.tier = 1 ∧ l.grains ≠ 0 ∧ (s.tierFault l).isSome then
    s.note "T1_ADDRESS_OUTSIDE_LAYOUT" (evSource 4 (t1Stack l.addr)) (l.addr % 2 ^ 32)
  else s

/-- A page has failed a decode with a good tag: it waits for its second decode on an engine of another cluster (R175). -/
def State.addRecheck (s : State) (blk layer : Nat) (engines : List (Nat × Nat)) : State :=
  if s.rechecks.any fun x => x.blk == blk && x.layer == layer then s
  else { s with rechecks := s.rechecks ++ [{ blk := blk, layer := layer, engines := engines }] }

/-- The engine whose expander decodes a page outside a pass: the first active one of the cluster whose stack holds the page, cluster 0's
for a page in no stack (log entry 97). -/
def State.decoderAt (s : State) (blk layer : Nat) : List (Nat × Nat) :=
  let k := ((s.rec? blk).bind fun r => r.loc? layer).elim 0 fun l => if l.tier = 1 then t1Stack l.addr else 0
  ((s.activeEngines k).head?.map fun e => (k, e.2)).toList

/-- What a failed read of a record's page does to the page (R175, R290, R304): a page whose check fails is lost; one that fails to decode
waits for its second decode; a read refused before it reads anything leaves the page as it is, with an event (R284, R303). -/
def State.recFailed (s : State) (blk layer st : Nat) (engines : List (Nat × Nat)) : State :=
  let l := ((s.rec? blk).bind fun r => r.loc? layer).getD (Loc.absent 0)
  let s := s.refusalEvent l st
  if st = stDataIntegrity then (if l.tier = 1 ∧ (s.tierFault l).isSome then s else s.pageLost blk layer)
  else if st = stDecodeFault then s.addRecheck blk layer engines
  else s

/-- Move one page to grains already free in another tier: the coded bytes are copied, the locator written once, and the source freed for
everyone but the walks that read the old locator; a source that fails its check is lost (R95, R103, R290). -/
def State.movePage (s : State) (blk layer tier addr : Nat) : State :=
  match s.rec? blk with
  | none => s
  | some r =>
    match r.loc? layer with
    | none => s
    | some l =>
      match s.readIssued r.ownerKind r.owner l with
      | .error st => if st = stDataIntegrity then s.pageLost blk layer else s.modLoc blk layer fun l => { l with moving := false }
      | .ok b =>
        let (v, s) := s.writePage tier addr l.grains r.ownerKind r.owner l.table b
        (s.modLoc blk layer fun l => { l with tier := tier, addr := addr, version := v, moving := false }).freePage l.tier l.addr

/-- Create a home entry for a key (R61): a free slot, a free row, no colliding key row and a metadata copy to write (R12); the state is
unchanged where one is missing. -/
def State.createHome (s : State) (k : DirKeyF) (map : List (Nat × Nat)) (grains : Nat) : Option (DirEntry × State) :=
  let collide := s.array.rows.any fun r => r.hits k.domain k.fingerprint k.depth k.hash
  if !s.prefixRoom || !s.dirRoom || collide || s.metaGone then none
  else match s.dirFree.take with
    | none => none
    | some (slot, fl) =>
      let g := genOf s.dirGens slot
      let e : DirEntry :=
        { slot := slot, gen := g, hash := k.hash, fingerprint := k.fingerprint, domain := k.domain, depth := k.depth,
          st := .published, proxy := false, copyVerified := false, keyGen := s.keyGen k.domain,
          handle := handleMk s.params.deviceId slot g, digest := k.digest, refs := 1, publisher := k.publisher,
          holder := k.holder, fmt := k.fmt, map := map, parent := k.parent, parentDepth := k.parentDepth,
          publishedAt := s.now, idleSince := 0, proxies := [], homeRef := false, holderProxy := false,
          homeStack := 0, grainsTaken := grains, mirrorA := s.newMirrors.1, mirrorB := s.newMirrors.2 }
      let s := { s with dir := e :: s.dir, dirFree := fl }
      some (e, (s.putRow (keyRowOf e)).takeParent e)

/-- Create a proxy entry (R57, R62) with its handle row, and a key row where the table has room (R77). It counts the entries here that
extend it (R48). A holder's proxy takes the slot and the row that were promised to its publication (R62; log entry 118). -/
def State.createProxy (s : State) (k : DirKeyF) (handle : Nat) (map : List (Nat × Nat)) (holderProxy : Bool) (grains : Nat) :
    Option (DirEntry × State) :=
  if s.metaGone || (!holderProxy && (!s.prefixRoom || !s.dirRoom)) then none
  else match s.dirFree.take with
    | none => none
    | some (slot, fl) =>
      let e : DirEntry :=
        { slot := slot, gen := genOf s.dirGens slot, hash := k.hash, fingerprint := k.fingerprint, domain := k.domain,
          depth := k.depth, st := .published, proxy := true, copyVerified := holderProxy, keyGen := s.keyGen k.domain,
          handle := handle, digest := k.digest, refs := (s.dir.filter fun x => x.parent == handle).length, publisher := k.publisher, holder := k.holder, fmt := k.fmt,
          map := map, parent := k.parent, parentDepth := k.parentDepth, publishedAt := s.now, idleSince := 0, proxies := [],
          homeRef := true, holderProxy := holderProxy, homeStack := 0, grainsTaken := grains, mirrorA := s.newMirrors.1, mirrorB := s.newMirrors.2 }
      let s := { s with dir := e :: s.dir, dirFree := fl }
      let s := (s.putRow (handleRowOf e)).takeParent e
      some (e, if s.prefixRoom then s.putRow (keyRowOf e) else s)

/-- What the compare-and-set of R61 answers at the home. -/
inductive CasAnswer where
  | created (e : DirEntry)
  | merged (e : DirEntry)
  | conflict (e : DirEntry)
  | full
  | lost                             -- no metadata copy is left to write the entry to (R12, R299)
  | noParent
  deriving DecidableEq, Repr

/-- A parent that the home must first ask another device for: one homed elsewhere, of which it holds no entry (R48, R57, R59). -/
def State.parentAway (s : State) (k : DirKeyF) : Bool :=
  k.parent != 0 && (s.entryOf k.parent).isNone && handleHome k.parent != s.params.deviceId

/-- A shadow row's two copies after a comparison: a bad one is repaired from the other where it can be written (R26, R89). -/
def State.mended (s : State) (a b : Bool) : Bool × Bool := if s.repairable then (a || b, a || b) else (a, b)

/-- Repairs that a comparison makes of shadow rows, an event each (R26). -/
def State.mendNotes (s : State) (tag n : Nat) : State :=
  (List.range n).foldl (fun s _ => s.note "METADATA_REPAIRED" (evSource 2 ((s.bankAt tag 0).getD 0)) tag) s

/-- Every bank of the prefix table is compared with its shadow: an entry with both copies of its shadow bad is lost, and its directory entry
faulted; a bad copy is repaired from the other; and the rows are rewritten from the shadow (R88, R89). -/
def State.comparePrefix (s : State) : State :=
  let lost := s.array.rows.filter fun (r : PrefixRow) => !r.mirrorA && !r.mirrorB
  let n := if s.repairable then (s.array.rows.filter fun (r : PrefixRow) => r.mirrorA != r.mirrorB).length else 0
  let mend := fun (r : PrefixRow) => { r with mirrorA := (s.mended r.mirrorA r.mirrorB).1, mirrorB := (s.mended r.mirrorA r.mirrorB).2, upset := none }
  let s := { s with array := { s.array with rows := (s.array.rows.filter fun (r : PrefixRow) => r.mirrorA || r.mirrorB).map mend } }.mendNotes 1 n
  lost.foldl (fun s r => (s.note "ARRAY_ENTRY_LOST" (evSource 2 ((s.bankAt 1 r.row).getD 0)) r.row).faultEntry r.slot) s

/-- The home's entry for a key, found in the array: on a miss every bank of the prefix table is compared with its shadow and repaired, and
searched again (R88). -/
def State.findKey (s : State) (k : DirKeyF) : Option DirEntry × State :=
  match s.searchKey k.domain k.fingerprint k.depth k.hash with
  | (some e, s) => (some e, s)
  | (none, s) => s.comparePrefix.searchKey k.domain k.fingerprint k.depth k.hash

/-- A comparison by the environment of the banks that a publication's miss asks for is due too: what it finds is SHADOW_COMPARE's operand
(R88; log entry 109). -/
def State.missSuspects (s : State) : State := s.suspect ((s.banksOf 1).map (·.n))

/-- The home applies a publication indivisibly (R59, R61, R63), after the search of R88. The parent, if any, has its entry or a proxy here. -/
def State.compareAndSet (s : State) (k : DirKeyF) (map : List (Nat × Nat)) (grains : Nat) : CasAnswer × State :=
  let s := s.loadHandle k.parent
  let parentOk := k.parent = 0 || (match s.entryOf k.parent with
    | some p => p.st == .published
    | none => false)
  if !parentOk then (.noParent, s)
  else match s.findKey k with
    | (some e, s) =>
      if e.digest = k.digest then (.merged e, s.takeRef e.slot) else (.conflict e, s)
    | (none, s) =>
      let s := s.missSuspects
      match s.createHome k map grains with
      | some (e, s) => (.created e, s)
      | none =>
        if s.metaGone then (.lost, s) else
        (.full, if s.array.rows.any fun r => r.hits k.domain k.fingerprint k.depth k.hash
                then s.note "PREFIX_KEY_COLLISION" (evSource 11 k.domain) k.depth else s)

end Sys2Proof.Machine
end

