-- ==== Sys2Proof/Machine/Flows.lean ====
section
/-! DEFINITION. Flow and policy tables of the associative array: keys (R79), priority among matches (R80, R81), ordered
insertion and removal (R82), and the purge of a tenant (R91). -/

namespace Sys2Proof.Machine

/-- A flow key of a tenant as a table row (R79); IPv4 addresses are the low 32 bits. -/
def flowRow (tenant handle : Nat) (k : FlowKeyF) : FlowRow :=
  let w := if k.flow = 1 then 32 else 128
  { tenant := tenant, zone := k.zone, protocol := k.protocol, srcAddr := k.srcAddr % 2 ^ w, dstAddr := k.dstAddr % 2 ^ w,
    srcPort := k.srcPort, dstPort := k.dstPort, mode := k.maskMode, handle := handle }

/-- Two rows have equal keys under their mode's care bits and equal modes (R79). -/
def FlowRow.sameEntry (a b : FlowRow) : Bool :=
  a.tenant == b.tenant && a.mode == b.mode && a.zone == b.zone && a.protocol == b.protocol && a.dstAddr == b.dstAddr
    && a.dstPort == b.dstPort && (a.mode == 2 || a.srcAddr == b.srcAddr) && (a.mode != 0 || a.srcPort == b.srcPort)

/-- A row matches a search key (care bits of R79's modes). -/
def FlowRow.hits (e : FlowRow) (tenant zone protocol src dst sport dport : Nat) : Bool :=
  e.tenant == tenant && e.zone == zone && e.protocol == protocol && e.dstAddr == dst && e.dstPort == dport
    && (e.mode == 2 || e.srcAddr == src) && (e.mode != 0 || e.srcPort == sport)

/-! ### Shadow rows (R83, R87) -/

/-- A shadow row: what the protected region holds, in both mirrors, for one row of a bank. -/
structure ShadowRow where
  value  : Nat
  care   : Nat
  result : Nat
  valid  : Bool
  first  : Bool
  width  : Nat
  tag    : Nat
  owner  : Nat
  deriving DecidableEq, Repr

/-- The shadow rows of an entry of 2^`width` units: unit u holds key bits [160u + 159:160u], and the first row its result word. -/
def shadowRows (width value care result tag owner : Nat) : List ShadowRow :=
  (List.range (2 ^ width)).map fun u =>
    { value := value / 2 ^ (160 * u) % 2 ^ 160, care := care / 2 ^ (160 * u) % 2 ^ 160, result := if u = 0 then result else 0, valid := true,
      first := u == 0, width := width, tag := tag, owner := owner }

/-- A hit verifies against the shadow rows of its entry: every unit matches the key under the care bits, and the owner is the
function's (R87). -/
def shadowVerifies (key owner : Nat) (rows : List ShadowRow) : Bool :=
  rows.zipIdx.all fun (r, u) => r.valid && r.owner == owner && (key / 2 ^ (160 * u) % 2 ^ 160 ^^^ r.value) &&& r.care == 0

/-- Key bits of a flow table's map. -/
def flowBits (v6 : Bool) (tenant zone protocol src dst sport dport : Nat) : Nat :=
  if v6 then 4 + tenant * 2 ^ 4 + zone * 2 ^ 16 + protocol * 2 ^ 24 + sport * 2 ^ 32 + dport * 2 ^ 48 + src * 2 ^ 64 + dst * 2 ^ 192
  else 3 + tenant * 2 ^ 4 + zone * 2 ^ 16 + protocol * 2 ^ 24 + src * 2 ^ 32 + dst * 2 ^ 64 + sport * 2 ^ 96 + dport * 2 ^ 112

/-- Care bits of a flow entry: the mask mode clears the source port, and with mode 2 the source address. -/
def flowCare (v6 : Bool) (mode : Nat) : Nat :=
  let free := fun (src sport : Nat) => if mode = 0 then 0 else if mode = 1 then sport else src + sport
  if v6 then 2 ^ 320 - 1 - free ((2 ^ 128 - 1) * 2 ^ 64) (65535 * 2 ^ 32) else 2 ^ 160 - 1 - free ((2 ^ 32 - 1) * 2 ^ 32) (65535 * 2 ^ 96)

/-- Result word of a flow entry. -/
def FlowRow.word (e : FlowRow) : Nat := e.handle + e.tenant * 2 ^ 32 + e.mode * 2 ^ 44

def FlowRow.shadow (v6 : Bool) (e : FlowRow) : List ShadowRow :=
  shadowRows v6.toNat (flowBits v6 e.tenant e.zone e.protocol e.srcAddr e.dstAddr e.srcPort e.dstPort) (flowCare v6 e.mode) e.word
    (if v6 then 4 else 3) e.tenant

def PolicyRow.shadow (p : PolicyRow) : List ShadowRow := shadowRows 2 p.rule.value p.rule.care p.rule.result 5 p.rule.tenant

/-! ### Flow tables (R80, R82) -/

/-- Rows in rank order: mode 0, then 1, then 2, which is descending care count (R80, R82). -/
def FlowTable.entries (t : FlowTable) : List FlowRow := (t.g0 ++ t.g1 ++ t.g2).filterMap id

/-- Rows that the three ranges take, holes included. -/
def FlowTable.size (t : FlowTable) : Nat := t.g0.length + t.g1.length + t.g2.length

def FlowTable.group (t : FlowTable) (k : Nat) : List (Option FlowRow) :=
  match k with
  | 0 => t.g0
  | 1 => t.g1
  | _ => t.g2

def FlowTable.setGroup (t : FlowTable) (k : Nat) (g : List (Option FlowRow)) : FlowTable :=
  match k with
  | 0 => { t with g0 := g }
  | 1 => { t with g1 := g }
  | _ => { t with g2 := g }

/-- Move the first row of a range to the row after its last (R82, insertion step 2). -/
def rotateUp (g : List (Option FlowRow)) : List (Option FlowRow) :=
  match g with
  | [] => []
  | x :: xs => xs ++ [x]

/-- Move the last row of a range into the row before its first (R82, removal). -/
def rotateDown (g : List (Option FlowRow)) : List (Option FlowRow) :=
  match g.getLast? with
  | none => []
  | some x => x :: g.dropLast

/-- Insert an entry of mode k (R82). -/
def FlowTable.insert (t : FlowTable) (e : FlowRow) : FlowTable :=
  let g := t.group e.mode
  match g.findIdx? (·.isNone) with
  | some i => t.setGroup e.mode (g.set i (some e))
  | none =>
    let t := if e.mode ≤ 1 then { t with g2 := rotateUp t.g2 } else t
    let t := if e.mode = 0 then { t with g1 := rotateUp t.g1 } else t
    t.setGroup e.mode (t.group e.mode ++ [some e])

/-- Free row `i` of group k by the reverse chain (R82). -/
def FlowTable.removeAt (t : FlowTable) (k i : Nat) : FlowTable :=
  let g := t.group k
  let g' := match g.getLast? with
    | some x => (g.set i x).dropLast
    | none => g
  let t := t.setGroup k g'
  let t := if k = 0 then { t with g1 := rotateDown t.g1 } else t
  if k ≤ 1 then { t with g2 := rotateDown t.g2 } else t

/-- First group and index whose row satisfies `p`. -/
def FlowTable.locate (t : FlowTable) (p : Option FlowRow → Bool) : Option (Nat × Nat) :=
  match t.g0.findIdx? p with
  | some i => some (0, i)
  | none => match t.g1.findIdx? p with
    | some i => some (1, i)
    | none => (t.g2.findIdx? p).map fun i => (2, i)

/-- Remove the entry of a sequence (R79). -/
def FlowTable.removeSeq (t : FlowTable) (handle : Nat) : FlowTable :=
  match t.locate fun r => match r with
    | some e => e.handle == handle
    | none => false with
  | some (k, i) => t.removeAt k i
  | none => t

/-- Bulk clear of a tenant's entries: they become holes (R91). -/
def FlowTable.purge (t : FlowTable) (tenant : Nat) : FlowTable :=
  let f := fun (r : Option FlowRow) => match r with
    | some e => if e.tenant = tenant then none else some e
    | none => none
  { g0 := t.g0.map f, g1 := t.g1.map f, g2 := t.g2.map f }

/-- Clear the rows at positions [lo, hi): their entries are lost, and each leaves a hole in its group's range (R89; log entry 108). -/
def FlowTable.clear (t : FlowTable) (lo hi : Nat) : FlowTable :=
  let f := fun (off : Nat) (g : List (Option FlowRow)) =>
    g.zipIdx.map fun (x, i) => if lo ≤ off + i ∧ off + i < hi then none else x
  { g0 := f 0 t.g0, g1 := f t.g0.length t.g1, g2 := f (t.g0.length + t.g1.length) t.g2 }

/-- Change every entry of a table. -/
def FlowTable.mapRows (t : FlowTable) (f : FlowRow → FlowRow) : FlowTable :=
  { g0 := t.g0.map (Option.map f), g1 := t.g1.map (Option.map f), g2 := t.g2.map (Option.map f) }

/-- Change every entry of a table, given its position. -/
def FlowTable.mapAt (t : FlowTable) (f : Nat → FlowRow → FlowRow) : FlowTable :=
  let go := fun (off : Nat) (g : List (Option FlowRow)) => g.zipIdx.map fun (x, i) => x.map (f (off + i))
  { g0 := go 0 t.g0, g1 := go t.g0.length t.g1, g2 := go (t.g0.length + t.g1.length) t.g2 }

/-- Entries with their positions. -/
def FlowTable.placed (t : FlowTable) : List (Nat × FlowRow) :=
  (t.g0 ++ t.g1 ++ t.g2).zipIdx.filterMap fun (x, i) => x.map fun e => (i, e)

/-- Remove one hole, by the removal chain (R91): the lowest of the lowest group (DESIGN CHOICE, log entry 122). -/
def FlowTable.dropHole (t : FlowTable) : FlowTable :=
  match t.locate (·.isNone) with
  | some (k, i) => t.removeAt k i
  | none => t

def State.flowTable (s : State) (v6 : Bool) : FlowTable := if v6 then s.array.flow6 else s.array.flow4

def State.setFlowTable (s : State) (v6 : Bool) (t : FlowTable) : State :=
  { s with array := if v6 then { s.array with flow6 := t } else { s.array with flow4 := t } }

def flowTag (v6 : Bool) : Nat := if v6 then 4 else 3

/-- Insert a sequence's flow entry (R79), its shadow rows written to each copy that stands (R83): FLOW_EXISTS with the live entry's handle,
or REFUSED_CAPACITY, or done. A table is full when its ranges take every row and the entry's own group has no hole (R91; log entry 123). -/
def State.insertFlow (s : State) (tenant handle : Nat) (k : FlowKeyF) : Except (Nat × Nat) State :=
  if k.flow = 0 then .ok s
  else
    let v6 := k.flow == 2
    let e := { flowRow tenant handle k with mirrorA := s.newMirrors.1, mirrorB := s.newMirrors.2 }
    let t := s.flowTable v6
    match t.entries.find? fun x => x.sameEntry e with
    | some x => .error (stFlowExists, resHandle x.handle)
    | none =>
      if (t.group e.mode).any (·.isNone) || decide (t.size < s.tableRoom (flowTag v6)) then
        .ok (s.setFlowTable v6 (t.insert e))
      else .error (stRefusedCapacity, 0)

/-- Remove a sequence's flow entry from both tables (R79). -/
def State.removeFlow (s : State) (handle : Nat) : State :=
  { s with array := { s.array with flow4 := s.array.flow4.removeSeq handle, flow6 := s.array.flow6.removeSeq handle } }

/-- Number of set bits of a `n`-bit number. -/
def popCount (n v : Nat) : Nat := ((List.range n).filter fun i => v.testBit i).length

/-- Policy rows in the order of R80: descending care count, then ascending rank. -/
def policyOrder (l : List PolicyRow) : List PolicyRow :=
  l.mergeSort fun a b =>
    let x := popCount 640 a.rule.care
    let y := popCount 640 b.rule.care
    decide (y < x ∨ (x = y ∧ a.rule.rank ≤ b.rule.rank))

/-- Search key of the policy table for a flow form (the policy entry's map): bytes past lead_count read 0. -/
def policyKey (tenant : Nat) (f : LookupFlowF) : Nat :=
  let w := if f.family = 0 then 32 else 128
  5 + tenant * 2 ^ 4 + f.zone * 2 ^ 16 + f.family * 2 ^ 24 + f.dscp * 2 ^ 25 + f.protocol * 2 ^ 32 + f.srcPort * 2 ^ 40
    + f.dstPort * 2 ^ 56 + f.srcAddr % 2 ^ w * 2 ^ 160 + f.dstAddr % 2 ^ w * 2 ^ 320
    + f.leadBytes % 2 ^ (8 * min f.leadCount 16) * 2 ^ 480

/-- A rule's rows match a key in the array (R80, R87). -/
def policyHits (key : Nat) (p : PolicyRow) : Bool := p.present && rowHits p.upset key ((key ^^^ p.rule.value) &&& p.rule.care == 0)

/-- Key bits of a flow search. -/
def flowKeyOf (tenant : Nat) (f : LookupFlowF) : Nat :=
  let w := if f.family = 1 then 128 else 32
  flowBits (f.family == 1) tenant f.zone f.protocol (f.srcAddr % 2 ^ w) (f.dstAddr % 2 ^ w) f.srcPort f.dstPort

/-- An entry's rows match a flow search in the array. -/
def FlowRow.found (e : FlowRow) (tenant : Nat) (f : LookupFlowF) : Bool :=
  let w := if f.family = 1 then 128 else 32
  rowHits e.upset (flowKeyOf tenant f) (e.hits tenant f.zone f.protocol (f.srcAddr % 2 ^ w) (f.dstAddr % 2 ^ w) f.srcPort f.dstPort)

/-- A hit of an entry verifies against its shadow rows, and its owner is the function's tenant by the second path, `owner` (R87, R319). -/
def FlowRow.verifies (e : FlowRow) (tenant owner : Nat) (f : LookupFlowF) : Bool :=
  shadowVerifies (flowKeyOf tenant f) owner (e.shadow (f.family == 1))

/-- What the flow form finds (R81, R86): the flow entries that match and verify (R87). -/
def State.flowMatches (s : State) (tenant owner : Nat) (f : LookupFlowF) : List FlowRow :=
  (s.flowTable (f.family == 1)).entries.filter fun e => e.found tenant f && e.verifies tenant owner f

/-- The hits of a flow search that do not verify (R87). -/
def State.flowFalse (s : State) (tenant owner : Nat) (f : LookupFlowF) : State :=
  s.hitsFail (flowTag (f.family == 1)) (((s.flowTable (f.family == 1)).placed.filter fun x => x.2.found tenant f && !x.2.verifies tenant owner f).map Prod.fst)

/-- Rules that match and verify, in the order of their rows, which is that of R80. -/
def State.policyMatches (s : State) (tenant owner : Nat) (f : LookupFlowF) : List PolicyRow :=
  let key := policyKey tenant f
  s.array.policy.filter fun p => policyHits key p && shadowVerifies key owner p.shadow

/-- The hits of a policy search that do not verify (R87). -/
def State.policyFalse (s : State) (tenant owner : Nat) (f : LookupFlowF) : State :=
  let key := policyKey tenant f
  s.hitsFail 5 ((s.array.policy.zipIdx.filter fun x => policyHits key x.1 && !shadowVerifies key owner x.1.shadow).map Prod.snd)

end Sys2Proof.Machine
end

