-- ==== Sys2Proof/Machine/Sequences.lean ====
section
/-! DEFINITION. Commands on sequences (02_sequences_and_page_lists): the checks of each, what each begins, the commit of a
new version (R37, R39, R41) and the freeing of a sequence (R36). -/

namespace Sys2Proof.Machine

/-! ### Loads, ends and order -/

/-- Both copies of a sequence's metadata have failed: it enters the faulted state, and its flow entry goes (R26, R42, R79). -/
def State.faultSeq (s : State) (i : Nat) : State :=
  match s.seq? i with
  | none => s
  | some q =>
    if q.st = .opened then
      ((s.modSeq i fun q => { q with st := .faulted }).removeFlow q.handle).note "SEQUENCE_FAULTED" (evSource 10 q.tenant) i
    else s

/-- Load a descriptor (R26): a bad mirror is repaired from the other; with both bad the sequence is faulted. -/
def State.loadSeq (s : State) (i : Nat) : State :=
  match s.seq? i with
  | none => s
  | some q =>
    if q.mirrorA && q.mirrorB then s
    else if q.mirrorA || q.mirrorB then
      if !s.repairable then s
      else (s.modSeq i fun q => { q with mirrorA := true, mirrorB := true }).note "METADATA_REPAIRED" (evSource 10 q.tenant) i
    else s.faultSeq i

/-- Load a block record of a sequence (R26). -/
def State.loadRec (s : State) (q : Seq) (id : Nat) : State :=
  match s.rec? id with
  | none => s
  | some r =>
    if r.mirrorA && r.mirrorB then s
    else if r.mirrorA || r.mirrorB then
      if !s.repairable then s
      else (s.modRec id fun r => { r with mirrorA := true, mirrorB := true }).note "METADATA_REPAIRED" (evSource 10 q.tenant) id
    else if r.published then s else s.faultSeq q.index

/-- Load what a read of block `b` goes through: the directory entry that holds it, below the prefix depth (R47), and its record (R26). -/
def State.loadBlock (s : State) (q : Seq) (v : Version) (b : Nat) : State :=
  let s := if v.prefixHandle ≠ 0 ∧ b < v.prefixDepth then
      (match s.ownerEntry chainFuel v.prefixHandle b with | some e => s.loadEntry e.slot | none => s)
    else s
  match s.resolve q v b with
  | some id => s.loadRec q id
  | none => s

/-- Load `n` blocks from `lo`. -/
def State.loadBlocks (s : State) (q : Seq) (v : Version) (lo n : Nat) : State :=
  (List.range n).foldl (fun s i => s.loadBlock q v (lo + i)) s

/-- Load what a change of a sequence reads: its descriptor, the block before its first, whose tokens and hash it follows, and the blocks
that it replaces or cuts off (R26). -/
def State.loadChange (s : State) (r : Req) (h : Nat) : State :=
  let s := s.loadSeq (h % 2 ^ 24)
  match s.seqOf r.tenant h with
  | none => s
  | some q =>
    match r.desc with
    | .append _ => s.loadBlocks q q.cur (q.cur.blockCount - 1) 1
    | .truncate f => s.loadBlocks q q.cur (f.firstBlock - 1) (q.cur.blockCount + 1 - f.firstBlock)
    | .replace f => s.loadBlocks q q.cur (f.firstBlock - 1) (min f.blockCount q.cur.blockCount + 1)
    | _ => s

/-- Remove grains that a command took and nobody reads (R33, R208). -/
def State.dropPage (s : State) (tier addr : Nat) : State :=
  match s.page? tier addr with
  | none => s
  | some p => ({ s with pages := s.pages.filter fun x => !(x.tier == tier && x.addr == addr && !x.freed) }).tableUnref p.table

/-- Destination of a near-memory operation. -/
def destOf : Desc → Option MemOpF
  | .fill f => some f.dst
  | .copy f => some f.b
  | .reduceSum f => some f.dest
  | .reduceMax f => some f.dest
  | .lseMerge f => some f.dest
  | _ => none

/-- A near-memory operation that runs ends without its result: its destination in the direct region is undefined (R194, R216). -/
def State.spoil (s : State) (r : Req) : State :=
  match destOf r.desc with
  | some o => if r.phase = .started ∧ o.kind = 1 then s.directUndefined o.address o.length else s
  | none => s

/-- Fail a command that took grains or, for a prefix, references at other homes: it frees every one and completes (R33, R39, R208). -/
def State.failReq (s : State) (r : Req) (status result : Nat) : State :=
  (((r.pages.foldl (fun s p => s.dropPage p.tier p.addr) s).spoil r).dropChain r r.chain).finish r status result

/-- A running request ends with the status that another device answers: a fault as R143's events do, a refusal at once (R258). -/
def State.endWith (s : State) (r : Req) (st : Nat) : State :=
  if endRank st < 9 then s.faultReq r st noBlock noLayer else s.failReq r st 0

/-- Free a sequence's slot (R36, R42): its records, its prefix reference and its flow entry are released, the generation
advances and the slot enters the free list's tail. -/
def State.freeSeq (s : State) (i : Nat) : State :=
  match s.seq? i with
  | none => s
  | some q =>
    let s := s.removeFlow q.handle
    let s := { s with seqs := s.seqs.filter fun x => x.index != i }
    let s := (((q.versions.flatMap Version.recIds).eraseDups).foldl (fun s r => s.unrefRec r) s).refreshShares
    let s := if q.cur.prefixHandle = 0 then s else s.releaseHandle q.cur.prefixHandle
    { s with seqGens := setGen s.seqGens i (nextGen q.gen), seqFree := s.seqFree.put i }

/-- Every pin on a sequence has ended. -/
def Seq.unpinned (q : Seq) : Bool := q.versions.all fun v => v.pins == 0

/-- State of a sequence: from its tenant's removal on it counts as revoking, without any descriptor being written (R42, R330). -/
def State.seqLife (s : State) (q : Seq) : SeqSt :=
  if (s.tenant? q.tenant).any fun (x : TenantSt) => x.life == .removing || x.life == .removed then .revoking else q.st

/-- A closing sequence without pins is freed (R36); a revoking one only when its tenant's removal completes (R42). -/
def State.freeIfClosed (s : State) (i : Nat) : State :=
  match s.seq? i with
  | some q => if s.seqLife q = .closing ∧ q.unpinned then s.freeSeq i else s
  | none => s

/-! ### Checks shared by commands that name a sequence -/

/-- A refusal: status and result field. -/
abbrev Bad := Nat × Nat

/-- What a refusal found after admission does to a request: at class 0 every refusal but a VERSION_STALE found at the commit was decided
at admission, so the request is withdrawn; a fault ends it as at any class (R208, R221). -/
def zeroEnd (r : Req) (b : Bad) : Bad := if r.cls = 0 ∧ b.1 < 0x30 ∧ b.1 ≠ stVersionStale then (stRescinded, 0) else b

/-- DATA_INTEGRITY with "not a page" (R207). -/
def badData : Bad := (stDataIntegrity, resFaultAt noBlock noLayer)

/-- The open sequence that a request names (R24, R26, R36, R42). -/
def State.openSeqOf (s : State) (r : Req) (h : Nat) : Except Bad Seq :=
  match s.seqOf r.tenant h with
  | none => .error (stHandleStale, 0)
  | some q =>
    match s.seqLife q with
    | .opened => if q.mirrorA || q.mirrorB then .ok q else .error badData
    | .faulted => .error badData
    | .closing => .error (stHandleStale, 0)
    | .revoking => .error (stTenantRevoked, 0)

/-- R32 and R223, point 1: no request of a better class than the sequence's. -/
def classOk (r : Req) (q : Seq) : Bool := decide (q.cls ≤ r.cls)

/-- Admitted changes to a sequence that have not committed and will take a version; PUBLISH_PREFIX counts in `places` (R41). -/
def State.changesComing (s : State) (r : Req) (q : Seq) : Nat :=
  (s.reqs.filter fun x => x.id != r.id && x.tenant == q.tenant && changeOf x.desc == some q.handle && (match x.desc with
    | .closeSeq _ => false
    | .publish _ => false
    | _ => x.phase != .committed)).length

/-- One more version, with `n` places taken, would be the 65th (R41): a current version without a pin is freed by the commit. -/
def Seq.overfull (q : Seq) (n : Nat) : Bool := decide (64 < q.old.length + q.places + n + 1 + if q.cur.pins = 0 then 0 else 1)

/-- Checks after a command's own (R32, R41, R39, in this order): class, the 65th version, the expected version. -/
def State.changeChecks (s : State) (r : Req) (q : Seq) (needsPlace : Bool) (expected : Option Nat) : Option Bad :=
  if !classOk r q then some (stRefusedCapacity, 0)
  else if needsPlace && q.overfull (s.changesComing r q) then some (stRefusedCapacity, 0)
  else match expected with
    | some v => if v = q.cur.num then none else some (stVersionStale, resVersion q.cur.num)
    | none => none

def expectedOf (f : BlocksF) : Option Nat := if f.checkVersion then some f.expected else none

/-- Block `b` is held at a version (R28): it lies below the prefix depth, whether or not its records are on this device
(R71), or its slot holds its own record. -/
def State.holds (s : State) (q : Seq) (v : Version) (b : Nat) : Bool :=
  decide (b < v.blockCount) &&
    ((v.prefixHandle != 0 && decide (b < v.prefixDepth)) || (s.resolve q v b).isSome)

/-- Blocks lo to lo + n - 1 are all held. -/
def State.holdsRange (s : State) (q : Seq) (v : Version) (lo n : Nat) : Bool :=
  (List.range n).all fun i => s.holds q v (lo + i)

/-- Tokens of the first `n` blocks of a version (R30): blocks of ring layouts and of prefixes are full. -/
def State.tokensAt (s : State) (q : Seq) (v : Version) (n blockTokens : Nat) : Nat :=
  if n = v.blockCount then v.tokenCount
  else if n = 0 then 0
  else match (s.resolve q v (n - 1)).bind s.rec? with
    | some r => if v.prefixHandle ≠ 0 ∧ n ≤ v.prefixDepth then n * blockTokens else r.firstToken + r.valid
    | none => n * blockTokens

/-! ### Commit of a version (R37) -/

/-- Slots that the layout of a sequence needs (R27). -/
def Seq.slotsNeeded (q : Seq) (blocks : Nat) : Nat :=
  match q.layout with
  | 0 => blocks
  | 1 => q.window
  | _ => q.globals + q.window

/-- The block-map pages of a version: a leaf whose entries an earlier version has stays that version's; every other leaf, and the
root where the layout needs more than 512 slots, is a new page (R27, R37). -/
def State.mapPages (s : State) (q : Seq) (old v : Version) : Version × State :=
  let n := leafCount (q.slotsNeeded v.blockCount)
  let leaves := newLeaves old.slots old.leaves v.slots s.ids (List.range n)
  let two := decide (512 < q.slotsNeeded v.blockCount)
  ({ v with twoLevel := two, mapRoot := mapRootOf two leaves (s.ids + n), leaves := leaves }, { s with ids := s.ids + n + 1 })

/-- Commit `v` as the next version of a sequence: map_version + 1 modulo 2^32; the version before is freed at once when it
has no pin (R37, R41). -/
def State.commitVersion (s : State) (i : Nat) (v : Version) : State :=
  match s.seq? i with
  | none => s
  | some q =>
    let (v, s) := s.mapPages q q.cur { v with num := (q.cur.num + 1) % 2 ^ 32, pins := 0 }
    let s := s.modSeq i fun q =>
      { q with cur := v, old := q.cur :: q.old, mirrorA := s.newMirrors.1, mirrorB := s.newMirrors.2 }
    let s := s.reclaimVersion i q.cur.num
    let flags := fun (s : State) => v.recIds.filterMap s.rec?
    let s := (s.modSeq i fun q =>
      { q with hasPins := (flags s).any (·.pinned), segmented := (flags s).any fun r => r.segment != 0 }).refreshShares
    (s.promoteHeld i).demoteAll.freeIdleProxies

/-- Map version of a sequence now. -/
def State.mapVersion (s : State) (i : Nat) : Nat :=
  match s.seq? i with
  | some q => q.cur.num
  | none => 0

/-! ### OPEN_SEQUENCE (R32) -/

/-- Resident class-0 descriptors (R224). -/
def State.residents (s : State) : Nat := (s.seqs.filter (·.resident)).length

/-- Steps 4 to 6 of R32, for OPEN_SEQUENCE and FORK_SEQUENCE. -/
def State.openRoom (s : State) (tenant cls res : Nat) : Bool :=
  match s.tenantRec? tenant with
  | none => false
  | some t =>
    s.seqFree.any && decide ((s.seqs.filter fun q => q.tenant == tenant).length < t.seqQuota)
      && (cls != 0 || decide (s.residents < 49152))
      && s.quotaRoom tenant 1 res
      && (cls != 0 || s.canHold tenant res (some ((s.stacksByRoom t.t1Region).headD 0)))

def State.checkOpen (s : State) (r : Req) (f : OpenF) : Option Bad :=
  if !openFieldsOk s r.version f then some (stInvalidField, 0)
  else if f.key.flow ≠ 0 ∧ f.key.maskMode = 3 then some (stInvalidField, 0)
  else if precisionRank f.fmt < floorRank f.floor then some (stPrecisionFloor, 0)
  else if !s.openRoom r.tenant f.seqClass f.t1res then some (stRefusedCapacity, 0)
  else none

/-- The empty version 1 of a sequence. -/
def Version.first : Version :=
  { num := 1, slots := [], blockCount := 0, tokenCount := 0, prefixHandle := 0, prefixDepth := 0, pins := 0 }

/-- Write a new sequence descriptor in the open state and complete with its handle, or with what the flow table answers
(R32, R79); held pages of a fork that lie below T1 are promoted at once (R97). With no metadata copy left the change cannot be written (R12). -/
def State.enterSeq (s : State) (r : Req) (q : Seq) (k : FlowKeyF) : State :=
  if s.metaGone then s.finish r badData.1 badData.2 else
  match s.seqFree.take with
  | none => s.finish r stRefusedCapacity 0
  | some (i, fl) =>
    let q := { q with index := i, gen := genOf s.seqGens i, order := s.ids }
    match s.insertFlow r.tenant q.handle k with
    | .error (st, res) => s.finish r st res
    | .ok s =>
      let (v, s) := s.mapPages q q.cur q.cur
      let q := { q with cur := v }
      let s := { s.bumpId with seqs := s.seqs ++ [q], seqFree := fl }
      let s := q.cur.recIds.foldl (fun s id => s.refRec id) s
      let s := if q.cur.prefixHandle = 0 then s else match s.entryOf q.cur.prefixHandle with
        | some e => s.takeRef e.slot
        | none => s
      (s.refreshShares.promoteHeld i).finish r stOk (resHandle q.handle)

/-- A descriptor of the tenant with the fields every new sequence shares. -/
def State.newSeq (s : State) (tenant cls res : Nat) : Seq :=
  let region := s.t1RegionOf tenant
  let home := (s.stacksByRoom region).headD 0
  { index := 0, gen := 1, tenant := tenant,
    domain := (match s.tenantRec? tenant with | some t => t.domain | none => 0), layout := 0, model := 0, fmt := 0,
    floor := 31, cls := cls, st := .opened, horizon := 0, window := 0, globals := 0, t1res := res,
    t1held := s.canHold tenant res (if cls = 0 then some home else none), sharesBlocks := false, hasPins := false,
    segmented := false, openedAt := s.now, cur := .first, old := [], places := 0, homeStack := home, rehome := false,
    resident := cls == 0, mirrorA := s.newMirrors.1, mirrorB := s.newMirrors.2, order := 0 }

def State.beginOpen (s : State) (r : Req) (f : OpenF) : State :=
  match s.checkOpen r f with
  | some (st, res) => s.finish r st res
  | none =>
    let q := s.newSeq r.tenant f.seqClass f.t1res
    let q := { q with layout := f.layout, model := f.model, fmt := f.fmt, floor := f.floor, horizon := f.horizon,
                      window := f.window, globals := f.globals }
    s.enterSeq r q f.key

/-! ### FORK_SEQUENCE (R34) -/

/-- The slots of a version cut at block n: those of its own blocks below n (R28, R34). -/
def Seq.cutSlots (q : Seq) (v : Version) (n : Nat) : List (Nat × Nat) :=
  (List.range n).filterMap fun b =>
    if v.prefixHandle ≠ 0 ∧ b < v.prefixDepth then none
    else if q.windowHolds v b then
      let sl := slotOf q.layout q.window q.globals b
      (v.slotRec sl).map fun id => (sl, id)
    else none

/-- The refusals of FORK_SEQUENCE against the version `v` of its parent (R34): admission decides on the version that the function's
earlier changes leave (R40). -/
def State.checkForkAt (s : State) (r : Req) (f : ForkF) (q : Seq) (v : Version) : Option Bad :=
  if f.n = 0 ∨ v.blockCount < f.n ∨ f.n < v.prefixDepth ∨ !flowFieldOk r.version f.key
      ∨ (f.key.flow ≠ 0 ∧ f.key.maskMode = 3) then some (stInvalidField, 0)
  else if (q.cutSlots v f.n).any fun x => match s.rec? x.2 with
      | some x => decide (65535 ≤ x.refs)
      | none => false then some (stRefusedCapacity, 0)
  else if !s.openRoom r.tenant q.cls f.t1res then some (stRefusedCapacity, 0)
  else none

def State.checkFork (s : State) (r : Req) (f : ForkF) : Option Bad :=
  match s.openSeqOf r f.parent with
  | .error b => some b
  | .ok q => s.checkForkAt r f q q.cur

def State.blockTokens (s : State) (q : Seq) : Nat :=
  match s.model? q.model with
  | some m => m.blockTokens
  | none => 0

def State.beginFork (s : State) (r : Req) (f : ForkF) : State :=
  let s := (s.seqOf r.tenant f.parent).elim s fun q => s.loadBlocks q q.cur 0 (min f.n q.cur.blockCount)
  match s.checkFork r f with
  | some (st, res) => s.finish r st res
  | none =>
    match s.openSeqOf r f.parent with
    | .error (st, res) => s.finish r st res
    | .ok p =>
      let base := s.newSeq r.tenant p.cls f.t1res
      let v : Version := { num := 1, slots := p.cutSlots p.cur f.n, blockCount := f.n,
                           tokenCount := s.tokensAt p p.cur f.n (s.blockTokens p), prefixHandle := p.cur.prefixHandle,
                           prefixDepth := p.cur.prefixDepth, pins := 0 }
      let q := { base with layout := p.layout, model := p.model, fmt := p.fmt, floor := p.floor, horizon := p.horizon,
                           window := p.window, globals := p.globals, cur := v, hasPins := p.hasPins, segmented := p.segmented, domain := p.domain }
      s.enterSeq r q f.key

/-! ### CLOSE_SEQUENCE (R36) -/

/-- CLOSE_SEQUENCE is accepted of an open or faulted sequence. -/
def State.checkClose (s : State) (r : Req) (h : Nat) : Option Bad :=
  match s.seqOf r.tenant h with
  | none => some (stHandleStale, 0)
  | some q =>
    if q.st = .opened ∨ q.st = .faulted then (if classOk r q then none else some (stRefusedCapacity, 0))
    else some (stHandleStale, 0)

/-- The request is an admitted change to the sequence before its commit point (R36, R216). -/
def overtaken (h : Nat) (x : Req) : Bool :=
  changeOf x.desc == some h && (x.phase == .started || x.phase == .ready || x.phase == .waiting || x.phase == .remote)
    && (match x.desc with
        | .publish _ => x.phase != .remote && x.phase != .committed
        | .closeSeq _ => false
        | _ => true)

def State.beginClose (s : State) (r : Req) (h : Nat) : State :=
  match s.checkClose r h, s.seqOf r.tenant h with
  | none, some q =>
    let s := (s.modSeq q.index fun q => { q with st := .closing }).removeFlow h
    let s := s.finish r stOk 0
    let s := (s.reqs.filter fun x => x.id != r.id && overtaken h x && x.tenant == r.tenant && !x.stops).foldl
      (fun s x => s.failReq x stHandleStale 0) s
    s.freeIfClosed q.index
  | some (st, res), _ => s.finish r st res
  | none, none => s.finish r stHandleStale 0

/-! ### Block lists (R30, R33, R191) -/

/-- Where supplied block `i` of a command goes, at a version: APPEND_BLOCKS after the last block, the replace operation
from first_block (R33, R35). -/
def supplyBase (d : Desc) (v : Version) : Nat :=
  match d with
  | .replace f => f.firstBlock
  | _ => v.blockCount

/-- Segment and valid tokens of the block before `b`, if any; a prefix block is full and of segment 0. -/
def State.segmentAt (s : State) (q : Seq) (v : Version) (blockTokens b : Nat) : Nat × Nat :=
  if b = 0 then (0, blockTokens)
  else match (s.resolve q v (b - 1)).bind s.rec? with
    | some r => (r.segment, r.valid)
    | none => (0, blockTokens)

/-- R30 over supplied entries: segments never decrease, a short block ends its segment, and only linear layouts hold
either. -/
def segmentsOk (linear : Bool) (blockTokens : Nat) : Nat × Nat → List BlockEntry → Bool
  | _, [] => true
  | (seg, valid), e :: rest =>
    decide (1 ≤ e.validTokens ∧ e.validTokens ≤ blockTokens)
      && decide (seg ≤ e.segment) && (valid == blockTokens || decide (seg < e.segment))
      && (linear || (e.segment == 0 && e.validTokens == blockTokens))
      && segmentsOk linear blockTokens (e.segment, e.validTokens) rest

/-- R191 over supplied entries; `prev` says whether the block before is hashed, `version` is the function's. -/
def hashFormsOk (version : Nat) (controllerSource : Bool) : Bool → List BlockEntry → Bool
  | _, [] => true
  | prev, e :: rest =>
    !(e.hashed && e.tokens) && !(e.tokens && version != 3) && !(e.tokens && !prev)
      && !(e.hashed && controllerSource) && !(e.tokens && e.tokenAddr % 64 != 0)
      && hashFormsOk version controllerSource (e.hashed || e.tokens) rest

/-- Block `b - 1` is hashed, or `b` is block 0, which takes H_0 (R191). Every block of a published prefix is (R59). -/
def State.prevHashed (s : State) (q : Seq) (v : Version) (b : Nat) : Bool :=
  b = 0 || (v.prefixHandle != 0 && decide (b ≤ v.prefixDepth)) || (match (s.resolve q v (b - 1)).bind s.rec? with
    | some r => r.hashed
    | none => false)

/-- Chain hash before block `b`: of a prefix block without a record here, what its entry gives (R43). -/
def State.prevHash (s : State) (q : Seq) (v : Version) (m : ModelRec) (b : Nat) : BitVec 128 :=
  if b = 0 then chainHash0 (s.hashKey q.domain) m.fingerprint
  else match (s.resolve q v (b - 1)).bind s.rec? with
    | some r => r.chainHash
    | none => (s.ownerEntry chainFuel v.prefixHandle (b - 1)).elim 0 fun e => e.hashAt (b - 1)

/-- Checks of a block list against a version (R30, R33, R191). -/
def State.checkEntries (s : State) (r : Req) (q : Seq) (v : Version) (m : ModelRec) (es : List BlockEntry) : Option Bad :=
  let b := supplyBase r.desc v
  let ctl := match s.domain? q.domain with
    | some d => d.hashSource == 1
    | none => false
  if !hashFormsOk r.version ctl (s.prevHashed q v b) es then some (stInvalidField, 0)
  else match r.desc with
    | .append _ =>
      if !segmentsOk (q.layout == 0) m.blockTokens (s.segmentAt q v m.blockTokens b) es then some (stInvalidField, 0)
      else if 4194304 < v.tokenCount + sumBy (·.validTokens) es then some (stRefusedCapacity, 0)
      else none
    | _ => none

/-- Chain hashes of supplied blocks (R43, R44): taken from the entry in hash form, computed in token form, 0 otherwise.
`toks` are the identifiers of the token-form blocks, in order. -/
def blockHashes (key : BitVec 256) (blockTokens : Nat) : BitVec 128 → List BlockEntry → List Nat → List (BitVec 128)
  | _, [], _ => []
  | prev, e :: rest, toks =>
    if e.tokens then
      let h := chainHashNext key prev (toks.take blockTokens)
      h :: blockHashes key blockTokens h rest (toks.drop blockTokens)
    else if e.hashed then e.chainHash :: blockHashes key blockTokens e.chainHash rest toks
    else 0 :: blockHashes key blockTokens 0 rest toks

/-- Token identifiers of a byte string: 4 bytes each (R43). -/
def tokenIds (b : Bytes) : List Nat := (List.range (b.length / 4)).map fun i => ofLeBytes ((b.drop (4 * i)).take 4)

/-! ### APPEND_BLOCKS and EDIT_BLOCKS (R33, R35) -/

/-- Host addresses and strides of a supply (R190). -/
def supplyFieldsOk (m : ModelRec) (fmt : Nat) (f : BlocksF) : Bool :=
  decide (1 ≤ f.blockCount ∧ f.blockCount ≤ 64) && f.blockList % 64 == 0 && f.pageBase % 256 == 0
    && f.pageStride % 256 == 0 && decide ((shapeOf m fmt).rawBytes ≤ f.pageStride)

/-- Checks of a change that depend on the version it applies to (R33, R35). -/
def State.checkRange (s : State) (q : Seq) (v : Version) (d : Desc) : Option Bad :=
  match d with
  | .append f => if 262144 < v.blockCount + f.blockCount then some (stRefusedCapacity, 0) else none
  | .truncate f =>
    if v.blockCount < f.firstBlock ∨ f.firstBlock < v.prefixDepth then some (stInvalidField, 0) else none
  | .replace f =>
    if f.firstBlock < v.prefixDepth ∨ !s.holdsRange q v f.firstBlock f.blockCount then some (stInvalidField, 0) else none
  | _ => none

/-- Admission's checks of APPEND_BLOCKS and EDIT_BLOCKS. -/
def State.checkBlocks (s : State) (r : Req) (f : BlocksF) : Option Bad :=
  match s.openSeqOf r f.seq with
  | .error b => some b
  | .ok q =>
    match s.model? q.model with
    | none => some (stInvalidField, 0)
    | some m =>
      let supplies := match r.desc with
        | .truncate _ => false
        | _ => true
      if supplies && !supplyFieldsOk m q.fmt f then some (stInvalidField, 0)
      else match s.checkRange q q.cur r.desc with
        | some b => some b
        | none => s.changeChecks r q true (expectedOf f)

/-- Current table of a coding stream (R168). -/
def State.streamTable (s : State) (domain model fmt layer : Nat) : Nat :=
  match s.streams.find? fun x => x.domain == domain && x.model == model && x.fmt == fmt && x.layer == layer with
  | some x => x.table
  | none => 0

/-- Admission of a supply reads the current table of each stream once and holds a reference on each (R168). -/
def State.takeTables (s : State) (r : Req) (q : Seq) (m : ModelRec) : State :=
  let s := ((List.range m.layers).map fun l => s.streamTable q.domain q.model q.fmt l).eraseDups.foldl (fun s t => s.loadTable t) s
  let ts := (List.range m.layers).map fun l => (l, s.streamTable q.domain q.model q.fmt l)
  ((ts.map Prod.snd).eraseDups.foldl (fun s t => s.tableRef t) s).modReq r.id fun r => { r with tables := ts }

/-- A supply takes its tables at admission, also one that waits behind earlier changes (R168). -/
def State.supplyTables (s : State) (r : Req) (f : BlocksF) : State :=
  match s.openSeqOf r f.seq with
  | .error _ => s
  | .ok q => (s.model? q.model).elim s fun m => s.takeTables r q m

/-- An APPEND_BLOCKS or replace is admitted: its reads from host memory begin. -/
def State.beginSupply (s : State) (r : Req) (f : BlocksF) : State :=
  match s.openSeqOf r f.seq with
  | .error (st, res) => s.finish r st res
  | .ok q =>
    match s.model? q.model with
    | none => s.finish r stInvalidField 0
    | some _ => (if r.tables.isEmpty then s.supplyTables r f else s).modReq r.id fun r => { r with phase := .started }

/-- A truncate reads nothing: it is ready for its commit at once. -/
def State.beginTruncate (s : State) (r : Req) : State := s.modReq r.id fun r => { r with phase := .ready, readyAt := s.now }

/-- The block list of a supply arrives (R33, R191). An accepted class-0 request is not refused any more: it ends RESCINDED where an
entry fails (R208; log entry 103). -/
def State.listArrives (s : State) (r : Req) (f : BlocksF) (data : Bytes) : State :=
  let s := s.loadChange r f.seq
  match s.openSeqOf r f.seq with
  | .error (st, res) => s.failReq r st res
  | .ok q =>
    match s.model? q.model with
    | none => s.failReq r stInvalidField 0
    | some m =>
      let es := parseBlockList f.blockCount data
      match s.checkEntries r q q.cur m es with
      | some b => s.failReq r (zeroEnd r b).1 (zeroEnd r b).2
      | none => s.modReq r.id fun r => { r with entries := es, done := if es.any (·.tokens) then 1 else 2 }

/-- The token identifiers arrive (R44). -/
def State.tokensArrive (s : State) (r : Req) (data : Bytes) : State :=
  s.modReq r.id fun r => { r with data := data, done := 2 }

/-- Which of the new pages the recomputed held set will hold (R97): the private pages of the version that the command makes, newest
block first, layers ascending, while the reservation lasts. New pages are (supplied block, layer, grains). -/
def State.newHeld (s : State) (q : Seq) (d : Desc) (new : List (Nat × Nat × Nat)) : List (Nat × Nat) :=
  let base := supplyBase d q.cur
  let count := max q.cur.blockCount (new.foldl (fun n x => max n (base + x.1 + 1)) 0)
  let v := { q.cur with blockCount := count }
  let old := (q.ownBlocks q.cur).flatMap fun (b, id) => match s.rec? id with
    | some r => if r.published || new.any (fun x => base + x.1 == b) then [] else r.locs.zipIdx.map fun (l, i) => (b, i, l.grains)
    | none => []
  let all := (old ++ new.map fun x => (base + x.1, x.2)).filter fun x => q.windowHolds v x.1
  let held := heldWalk q.t1res (all.mergeSort fun a b => decide (b.1 < a.1 ∨ (a.1 = b.1 ∧ a.2.1 ≤ b.2.1)))
  (new.map fun x => (x.1, x.2.1)).filter fun x => held.contains (base + x.1, x.2)

/-- Code one raw page with a table (R159, R163): bytes, whether it stays raw, and its table. -/
def State.codePage (s : State) (p : PageShape) (table : Nat) (raw : Bytes) : Bytes × Bool × Nat :=
  match s.table? table with
  | some t =>
    match encodePage p (coderOf t.image) table raw with
    | some b => (b, false, table)
    | none => (raw, true, 0)
  | none => (raw, true, 0)

/-- A new page of a supply: block, layer, coded bytes, whether they are raw, and the table. -/
abbrev CodedPage := Nat × Nat × Bytes × Bool × Nat

/-- Write the pages of a supply one by one, each counted against the quota with those before it; `false` when no tier can take one
(R96). A page written to T2 or T3 leaves over its link or port. -/
def State.writeNew (s : State) (id : Nat) (q : Seq) (held : List (Nat × Nat)) : List CodedPage → List NewPage → List NewPage × Bool × State
  | [], acc => (acc, true, s)
  | (b, l, data, raw, table) :: rest, acc =>
    let n := grainsOf data.length
    let h := held.contains (b, l)
    let route := ((s.seqRoute q).orElse fun _ => acc.findSome? fun p => s.routeOfLoc p.tier p.addr).toList
    match s.placeNew q.tenant n h (if q.cls = 0 ∧ h then some q.homeStack else none) (if q.cls = 0 then some route else none) with
    | none => (acc, false, s)
    | some (tier, addr) =>
      let (v, s) := s.writePage tier addr n 1 q.tenant table data
      let p : NewPage := { block := b, layer := l, tier := tier, addr := addr, grains := n, table := table, uncoded := raw, version := v, charged := !h }
      let s := s.modReq id fun r => { r with pages := r.pages ++ [p] }
      let s := if tier ≤ 1 then s else
        s.pageTransfer (.spill id) (ownerHdr 1 q.tenant) tier addr n v (some (s.sealPage 1 q.tenant tier addr n v data))
      s.writeNew id q held rest (acc ++ [p])

/-- Valid tokens of supplied block i: its entry's, or those of the block that it replaces (R33, R35). -/
def State.validOf (s : State) (r : Req) (q : Seq) (m : ModelRec) (i : Nat) : Nat :=
  match r.desc with
  | .replace f => ((s.resolve q q.cur (f.firstBlock + i)).bind s.rec?).elim m.blockTokens (·.valid)
  | _ => (r.entries[i]?).elim m.blockTokens (·.validTokens)

/-- The pages of a supply, coded each with the table of its stream; the tokens past the valid ones are 0 (R33, R120, R168). -/
def State.codedPages (s : State) (r : Req) (q : Seq) (m : ModelRec) (n : Nat) (data : Bytes) : List CodedPage :=
  let p := shapeOf m q.fmt
  (List.range (n * m.layers)).map fun i =>
    let layer := i % m.layers
    let t := (r.tables.find? fun x => x.1 == layer).elim 0 Prod.snd
    let valid := s.validOf r q m (i / m.layers)
    let c := s.codePage p t (p.clearTail valid ((data.drop (i * p.rawBytes)).take p.rawBytes))
    (i / m.layers, layer, c.1, c.2.1, c.2.2)

/-- The new pages that will be held, of a sequence whose reservation is held. -/
def State.heldNew (s : State) (r : Req) (q : Seq) (coded : List CodedPage) : List (Nat × Nat) :=
  if q.t1held then s.newHeld q r.desc (coded.map fun x => (x.1, x.2.1, grainsOf x.2.2.1.length)) else []

/-- A supply whose page writes have all ended is ready for its commit (R33, R96). -/
def State.supplyReady (s : State) (id : Nat) : State :=
  if s.txns.any fun t => t.kind == .spill id then s
  else s.modReq id fun r => if r.phase = .started then { r with phase := .ready, readyAt := s.now } else r

/-- The coded pages of a supply are written to grains (R96). A class-0 command that can no longer take grains is withdrawn (R208). -/
def State.supplyPlace (s : State) (r : Req) (f : BlocksF) (data : Bytes) : State :=
  match s.openSeqOf r f.seq with
  | .error (st, res) => s.failReq r st res
  | .ok q =>
    match s.model? q.model with
    | none => s.failReq r stInvalidField 0
    | some m =>
      if !s.slotFilled (ownerSlot 1 q.tenant) then s.failReq r stInternalFault 0 else
      let coded := s.codedPages r q m f.blockCount data
      match (s.modReq r.id fun r => { r with done := 4, raw := [] }).writeNew r.id q (s.heldNew r q coded) coded [] with
      | (ps, false, s) => s.failReq { r with pages := ps } (if r.cls = 0 then stRescinded else stRefusedCapacity) 0
      | (_, true, s) => s.supplyReady r.id

/-- The pages of a supply arrive (R33, R96): where T1 lacks room the demotions that make it are asked for, and the pages wait for them. -/
def State.pagesArrive (s : State) (r : Req) (f : BlocksF) (data : Bytes) : State :=
  match s.openSeqOf r f.seq with
  | .error (st, res) => s.failReq r st res
  | .ok q =>
    match s.model? q.model with
    | none => s.failReq r stInvalidField 0
    | some m =>
      if !s.slotFilled (ownerSlot 1 q.tenant) then s.failReq r stInternalFault 0 else
      let coded := s.codedPages r q m f.blockCount data
      let held := s.heldNew r q coded
      let grains := fun (h : Bool) => sumBy (fun x => if held.contains (x.1, x.2.1) = h then grainsOf x.2.2.1.length else 0) coded
      match (s.modReq r.id fun r => { r with done := 4 }).makeRoom r.id q.tenant (grains true) (grains false) (if q.cls = 0 then some q.homeStack else none) with
      | ([], s) => s.supplyPlace r f data
      | (ids, s) => s.modReq r.id fun r => { r with done := 3, raw := data, waits := ids }

/-- A supply that waits for demotions is placed once they have ended (R96). -/
def State.supplySettle (s : State) (r : Req) (f : BlocksF) : State :=
  if r.phase = .started ∧ !r.stops ∧ r.done = 3 ∧ !(s.moves.any fun m => r.waits.contains m.id) then s.supplyPlace r f r.raw else s

/-- A transfer of a supply ends: the block list first, then token identifiers where an entry names them, then the pages. A
failed page names its block and layer (R33, R207). -/
def State.supplyTransfer (s : State) (r : Req) (f : BlocksF) (ok : Bool) (data : Bytes) : State :=
  if !ok then
    match s.openSeqOf r f.seq with
    | .ok q =>
      match s.model? q.model with
      | some m =>
        let n := data.length / max 1 (shapeOf m q.fmt).rawBytes
        if r.done = 2 then s.faultReq r stLinkFault (supplyBase r.desc q.cur + n / m.layers) (n % m.layers)
        else s.faultReq r stLinkFault noBlock noLayer
      | none => s.faultReq r stLinkFault noBlock noLayer
    | .error _ => s.faultReq r stLinkFault noBlock noLayer
  else match r.done with
    | 0 => s.listArrives r f data
    | 1 => s.tokensArrive r data
    | 2 => s.pagesArrive r f data
    | _ => s

/-- Locators of one supplied block, in layer order (R31, R96). -/
def newLocs (q : Seq) (newCount : Nat) (m : ModelRec) (ps : List NewPage) (i : Nat) : List Loc :=
  (List.range m.layers).map fun l =>
    match ps.find? fun p => p.block == i && p.layer == l with
    | some p => { tier := p.tier, grains := p.grains, addr := p.addr, table := p.table, fmt := q.fmt, version := p.version,
                  ripening := newCount, uncoded := p.uncoded, moving := false, pinned := false, published := false,
                  lost := false, sweptAt := 0, pinBy := none }
    | none => Loc.absent q.fmt

/-- Write the block records of supplied blocks; answer their numbers and ids. -/
def State.newRecs (s : State) (r : Req) (q : Seq) (m : ModelRec) (base : Nat) (born : Nat) :
    Nat → Nat → List BlockEntry → List (BitVec 128) → List (Nat × Nat) × State
  | _, _, [], _ => ([], s)
  | i, first, e :: es, hs =>
    let b := base + i
    let h := hs.headD 0
    let old := match r.desc with
      | .replace _ => (s.resolve q q.cur b).bind s.rec?
      | _ => none
    let x : Rec :=
      { id := s.ids, firstToken := (old.elim first (·.firstToken)), segment := (old.elim e.segment (·.segment)),
        valid := (old.elim e.validTokens (·.valid)), published := false, shared := false, pinned := false,
        global := q.layout == 2 && decide (b < q.globals), hashed := e.hashed || e.tokens, chainHash := h, refs := 1,
        tenant := q.tenant, domain := q.domain, born := born, locs := newLocs q s.params.newCount m r.pages i,
        mirrorA := s.newMirrors.1, mirrorB := s.newMirrors.2, address := metaAddr 64 s.ids, locators := metaAddr 16 (s.ids + 1) }
    let s := { s.bumpId.bumpId with recs := x :: s.recs }
    let (l, s) := s.newRecs r q m base born (i + 1) (first + e.validTokens) es hs.tail
    ((b, x.id) :: l, s)

/-- Slots of a version after blocks are entered, dropping every slot that a ring's window has left (R28, R33). -/
def Seq.enterBlocks (q : Seq) (v : Version) (count : Nat) (l : List (Nat × Nat)) : List (Nat × Nat) :=
  let v' := { v with blockCount := count }
  let all := l.foldl (fun sl (b, id) =>
    let k := slotOf q.layout q.window q.globals b
    (k, id) :: sl.filter fun x => x.1 != k) v.slots
  all.filter fun x => q.layout == 0 || (List.range (min count (q.window + q.globals))).any fun j =>
    let b := if q.layout = 2 ∧ j < q.globals then j else count - 1 - (if q.layout = 2 then j - q.globals else j)
    q.windowHolds v' b && slotOf q.layout q.window q.globals b == x.1

/-- Records that a commit wrote and its version does not hold: blocks that a ring's window has already left (R33). -/
def State.dropUnheld (s : State) (v : Version) (l : List (Nat × Nat)) : State :=
  (l.filter fun x => !v.recIds.contains x.2).foldl (fun s x => s.unrefRec x.2) s

/-- Expected version of a change (R39). -/
def expectedBy : Desc → Option Nat
  | .append f => expectedOf f
  | .truncate f => expectedOf f
  | .replace f => expectedOf f
  | _ => none

/-- The checks of a commit on the version that it applies to: the expected version (R39), then those of admission and of the block
list, then the 65th version (R41; log entry 90), then a metadata copy to write the version to (R12). -/
def State.commitBad (s : State) (r : Req) (q : Seq) (m : ModelRec) : Option Bad :=
  let v := q.cur
  if (expectedBy r.desc).any fun e => e != v.num then some (stVersionStale, resVersion v.num)
  else (s.checkRange q v r.desc).orElse fun _ => (s.checkEntries r q v m r.entries).orElse fun _ =>
    if q.overfull 0 then some (stRefusedCapacity, 0) else if s.metaGone then some badData else none

/-- The new version of a change, once its checks pass: the chain hashes follow the version that it applies to (R33, R35, R37). -/
def State.applyChange (s : State) (r : Req) (q : Seq) (m : ModelRec) : State :=
  let v := q.cur
  let base := supplyBase r.desc v
  let hs := blockHashes (s.hashKey q.domain) m.blockTokens (s.prevHash q v m base) r.entries (tokenIds r.data)
  match r.desc with
  | .append f =>
    let (l, s) := s.newRecs r q m base (v.num + 1) 0 v.tokenCount r.entries hs
    let count := v.blockCount + f.blockCount
    let v' := { v with slots := q.enterBlocks v count l, blockCount := count,
                       tokenCount := v.tokenCount + sumBy (·.validTokens) r.entries }
    (s.commitVersion q.index v').dropUnheld v' l
  | .replace f =>
    let (l, s) := s.newRecs r q m f.firstBlock (v.num + 1) 0 0 r.entries hs
    s.commitVersion q.index { v with slots := q.enterBlocks v v.blockCount l }
  | .truncate f =>
    s.commitVersion q.index { v with slots := q.cutSlots v f.firstBlock, blockCount := f.firstBlock,
                                     tokenCount := s.tokensAt q v f.firstBlock m.blockTokens }
  | _ => s

/-- The commit of an APPEND_BLOCKS, or of either operation of EDIT_BLOCKS (R33, R35, R37, R39). Its checks are made again
on the version that it applies to; one that fails now gives its own status, or withdraws a class-0 request (`zeroEnd`). -/
def State.commitChange (s : State) (r : Req) : State :=
  let bad := fun (s : State) (b : Bad) => s.failReq r (zeroEnd r b).1 (zeroEnd r b).2
  match namesOf r.desc with
  | [] => s
  | h :: _ =>
    let s := s.loadChange r h
    match s.openSeqOf r h with
    | .error b => bad s b
    | .ok q =>
      match s.model? q.model with
      | none => bad s (stInvalidField, 0)
      | some m =>
        match s.commitBad r q m with
        | some b => bad s b
        | none =>
          let s := s.applyChange r q m
          s.finish r stOk (resVersion (s.mapVersion q.index))

/-! ### Order of commits (R40) -/

/-- Changes of the same sequence whose commits are ready and come before that of `r`: ready in an earlier tick, or in the same one from a
lower (port, function) (R40). -/
def State.commitsAhead (s : State) (r : Req) : List Req :=
  let key := fun (x : Req) => (x.readyAt, s.groupOfFn x.fn, x.fn, x.id)
  let lt := fun (a b : Nat × Nat × Nat × Nat) =>
    decide (a.1 < b.1 ∨ (a.1 = b.1 ∧ (a.2.1 < b.2.1 ∨ (a.2.1 = b.2.1 ∧ (a.2.2.1 < b.2.2.1 ∨ (a.2.2.1 = b.2.2.1 ∧ a.2.2.2 < b.2.2.2))))))
  (s.reqs.filter fun x => x.tenant == r.tenant && changeOf x.desc == changeOf r.desc && x.phase == .ready && !x.stops && !s.blocked x
    && lt (key x) (key r)).mergeSort fun a b => lt (key a) (key b)

/-- Commit the changes named, each as it stands when its turn comes. -/
def State.commitAll (s : State) (ids : List Nat) : State :=
  ids.foldl (fun s id => match s.req? id with
    | some x => if x.phase = .ready ∧ !x.stops ∧ !s.blocked x then s.commitChange x else s
    | none => s) s

/-- A link or a relink is ready for its commit now: the commits that became ready before it come first (R40). -/
def State.commitAhead (s : State) (r : Req) : State :=
  s.commitAll ((s.commitsAhead { r with readyAt := s.now }).map (·.id))

/-! ### Staging (R93) -/

/-- Storage format of block b: its prefix entry's, or the sequence's. -/
def State.blockFmt (s : State) (q : Seq) (v : Version) (b : Nat) : Nat :=
  if v.prefixHandle ≠ 0 ∧ b < v.prefixDepth then
    (match s.ownerEntry chainFuel v.prefixHandle b with | some e => e.fmt | none => q.fmt)
  else q.fmt

/-- Worst-case page length W of block b (R173). -/
def State.worstBytes (s : State) (q : Seq) (v : Version) (m : ModelRec) (b : Nat) : Nat :=
  pageWorst (shapeOf m (s.blockFmt q v b))

/-- Grains of the largest page of a part, worst case: one format throughout. -/
def State.worstGrains (s : State) (q : Seq) (v : Version) (m : ModelRec) (lo : Nat) : Nat := grainsOf (s.worstBytes q v m lo)

/-- A page's grains: its locator's, or the worst case where it is not on this device. -/
def State.pageGrains (s : State) (q : Seq) (v : Version) (m : ModelRec) (layer b : Nat) : Nat :=
  match ((s.resolve q v b).bind s.rec?).bind fun r => r.loc? layer with
  | some l => if l.grains = 0 then s.worstGrains q v m b else l.grains
  | none => s.worstGrains q v m b

/-- Grains that a FETCH_PAGES reads into staging now: its next page, where no prefetched copy of it stands there (R93; log entry 94). -/
def State.fetchReads (s : State) (r : Req) : Nat :=
  match r.desc, r.pin.bind s.pinned? with
  | .fetch f, some (q, v) =>
    let b := f.firstBlock + r.done / max 1 f.layerCount
    let layer := f.firstLayer + r.done % max 1 f.layerCount
    if r.phase ≠ .started ∨ (s.staging.any fun c => c.req == r.id && c.block == b && c.layer == layer) then 0
    else (s.model? q.model).elim 0 fun m => s.pageGrains q v m layer b
  | _, _ => 0

/-- A tier move whose page is read from T2 or T3, or written there (R93). -/
def State.moveFar (s : State) (m : Move) : Bool :=
  decide (2 ≤ m.target) || ((s.rec? m.blk).bind fun r => r.loc? m.layer).any fun l => decide (2 ≤ l.tier)

/-- Grains of a transfer under way that no copy, move or supply counts: a weight chunk, or a far page of a publication (R61, R93,
R115). -/
def State.txnGrains (s : State) (t : Txn) : Nat :=
  match t.kind with
  | .chunk _ _ _ => chunkGrains
  | .rekey id b l => ((((s.req? id).bind fun r => r.pin.bind s.pinned?).bind fun x => s.resolve x.1 x.2 b).bind s.rec?).elim 0
      fun x => (x.loc? l).elim 0 (·.grains)
  | .destage _ => 1
  | .trayRead _ _ _ _ => 1
  | _ => 0

/-- The request has reserved staging for its copies (R106, R230). -/
def State.reservesStaging (s : State) (req : Nat) : Bool := s.calendar.any fun c => c.req == req && c.cal == .staging

/-- Grains of staging in use outside the class-0 reservations (R93): prefetched copies, link and flash transfers in progress, and
FETCH_PAGES reads. -/
def State.stagingUsed (s : State) : Nat :=
  sumBy (fun c => if s.reservesStaging c.req then 0 else c.grains) s.staging
    + sumBy (fun m => if m.started && s.moveFar m then m.grains else 0) s.moves
    + sumBy (fun (r : Req) => if s.txns.any (fun t => t.kind == .spill r.id) then sumBy (fun p => if 2 ≤ p.tier then p.grains else 0) r.pages else 0) s.reqs
    + sumBy s.fetchReads s.reqs + sumBy s.txnGrains s.txns

/-- Staging that a copy of `n` grains may take: its walk's own class-0 reservation, or what reservations and other transfers leave
(R93, R106, R107). -/
def State.stagingFree (s : State) (req n : Nat) : Bool :=
  s.reservesStaging req ||
    (let used := s.stagingUsed
     let held := sumBy (fun c => if c.cal = .staging ∧ c.lo ≤ s.now ∧ s.now < c.hi then c.amount else 0) s.calendar
     decide (used + held + n ≤ s.stagingGrains))

end Sys2Proof.Machine
end

