-- ==== Sys2Proof/Machine/Attend.lean ====
section
/-! DEFINITION. The arithmetic of ATTEND (06_near_cache_attention): rows, positions and masks (R126 to R128), scores (R129),
the running softmax (R131, R132), partials and their merge (R133, R135, R138), requantisation (R142), and the times of
blocks and passes (R118, R139, R140). -/

namespace Sys2Proof.Machine

/-! ### Rows and masks (R126, R127) -/

/-- Rows per query token: G × kv_head_count. -/
def rowsPerToken (m : ModelRec) (f : AttendF) : Nat := m.group * f.kvCount

/-- Rows of a request. -/
def rowCount (m : ModelRec) (f : AttendF) : Nat := f.qTokens * rowsPerToken m f

/-- Query token j of row r, j in the outer loop. -/
def rowToken (m : ModelRec) (f : AttendF) (r : Nat) : Nat := r / max 1 (rowsPerToken m f)

/-- KV head of row r: query head h uses KV head ⌊h / G⌋. -/
def rowHead (m : ModelRec) (f : AttendF) (r : Nat) : Nat :=
  (m.group * f.kvFirst + r % max 1 (rowsPerToken m f)) / max 1 m.group

/-- Bytes of one query element: BF16, FP16 or FP8. -/
def qWidth (f : AttendF) : Nat := if f.qFormat ≤ 1 then 2 else 1

/-- Bytes of one query row. -/
def rowBytes (m : ModelRec) (f : AttendF) : Nat := m.headDim * qWidth f

/-- What the masks need to know of a block: position of its first token, its valid tokens and its segment. -/
structure BlockView where
  first   : Nat
  valid   : Nat
  segment : Nat
  deriving DecidableEq, Repr

/-- The token at position `i`, of a block below the global set or not, is visible to a row at position `p` (R127). -/
def tokenVisible (f : AttendF) (globalBlock : Bool) (segment i p : Nat) : Bool :=
  (!f.causal || decide (i ≤ p)) && (!f.segMask || segment == f.qSegment) &&
    (f.windowTokens == 0 || decide (p + 1 ≤ i + f.windowTokens) || globalBlock || decide (i < f.sinkTokens))

/-- Some token of a block is visible to a row at position `p`. -/
def blockVisible (f : AttendF) (globalBlock : Bool) (v : BlockView) (p : Nat) : Bool :=
  (List.range v.valid).any fun t => tokenVisible f globalBlock v.segment (v.first + t) p

/-- Block b lies in the global set of the walking sequence (R127). -/
def globalBlock (q : Seq) (b : Nat) : Bool := q.layout == 2 && decide (b < q.globals)

/-! ### Query rows (R126, R142) -/

/-- Elements of a query row. -/
def queryRow (f : AttendF) (dim : Nat) (bytes : Bytes) : List Ex :=
  (List.range dim).map fun d => elemEx f.qFormat (elemAt f.qFormat bytes d)

/-- ⌊log2 |m × 2^e|⌋ of a nonzero number. -/
def log2Ex (m e : Int) : Int := (Nat.log2 m.natAbs : Int) + e

/-- Largest magnitude, as an exact number. -/
def amax (l : List Ex) : Ex :=
  l.foldl (fun a x => match x with
    | .num m e => if a.lt (.num m.natAbs e) then .num m.natAbs e else a
    | _ => a) .zero

/-- Round to E2M1, saturated to ±6.0 (R142). -/
def toE2M1 (x : Ex) : Ex :=
  match x with
  | .num m e =>
    if m = 0 then .zero else
    let (r, q) := roundMag fmtE2M1 m.natAbs e
    let v : Ex := if Ex.lt (.num 6 0) (.num r q) then .num 6 0 else .num r q
    if m < 0 then v.neg else v
  | x => x

/-- Requantise one block of 32 elements under its shared exponent (R142); a NaN or infinity passes as it is. -/
def requantBlock (l : List Ex) : List Ex :=
  let sh : Int := match amax l with
    | .num m e => if m = 0 then -127 else max (-127) (min 127 (log2Ex m e - 2))
    | _ => -127
  l.map fun x => (toE2M1 (x.mul (.num 1 (-sh)))).mul (.num 1 sh)

def requantRow : Nat → List Ex → List Ex
  | 0, l => l
  | n + 1, l => if l.isEmpty then [] else requantBlock (l.take 32) ++ requantRow n (l.drop 32)

/-- The query row that the QK product takes. -/
def queryOf (f : AttendF) (dim : Nat) (bytes : Bytes) : List Ex :=
  let l := queryRow f dim bytes
  if f.qRequant then requantRow (dim / 32 + 1) l else l

/-! ### Scores (R129) -/

def negInf : BitVec 32 := 0xff800000
def nan32 : BitVec 32 := 0x7fc00000

/-- FP32 bits of a NaN or an infinity. -/
def nonFinite (b : BitVec 32) : Bool := b.toNat / 2 ^ 23 % 256 == 255

def isNan32 (b : BitVec 32) : Bool := nonFinite b && b.toNat % 2 ^ 23 != 0

/-- LOG2E. -/
def log2E : BitVec 32 := 0x3fb8aa3b

def mul32 (a b : BitVec 32) : BitVec 32 := rn32 ((exF32 a).mul (exF32 b))
def sub32 (a b : BitVec 32) : BitVec 32 := rn32 ((exF32 a).add (exF32 b).neg)

/-- a × x + b × y, formed exactly and rounded once. An exact zero is +0, also where every term is -0 (DESIGN CHOICE, log entry 9). -/
def fma32 (a x b y : BitVec 32) : BitVec 32 := rn32 (((exF32 a).mul (exF32 x)).add ((exF32 b).mul (exF32 y)))

def lt32 (a b : BitVec 32) : Bool := (exF32 a).lt (exF32 b)

/-- The larger of two numbers; of two zeros the positive one, so that the order of the operands does not show (R131, R135). -/
def max32 (a b : BitVec 32) : BitVec 32 := if lt32 a b then b else if lt32 b a then a else a &&& b

/-- RN(1 / c) of a positive normal c (R129): the quotient to 100 bits with its sticky bit. -/
def recip32 (c : BitVec 32) : BitVec 32 :=
  match exF32 c with
  | .num m e =>
    if m ≤ 0 then nan32
    else
      let q := 2 ^ 100 / m.toNat
      rn32 (.num (2 * q + (if q * m.toNat = 2 ^ 100 then 0 else 1) : Nat) (-e - 101))
  | _ => nan32

/-- The scale of a request: 0 selects the FP32 value nearest 1/√D. -/
def scaleOf (m : ModelRec) (f : AttendF) : BitVec 32 := if f.scale = 0 then defaultScale m.headDim else f.scale

/-- Score, x and z of one visible token from its exact dot product; `none` where one of them is NaN or infinite (R132). -/
def scoreZ (scale softcap cinv : BitVec 32) (dot : Ex) : Option (BitVec 32) :=
  let score := rn32 dot
  let x := mul32 score scale
  let x' := if softcap = 0 then x else mul32 softcap (tanhE (mul32 x cinv))
  let z := mul32 x' log2E
  if nonFinite score || nonFinite x || nonFinite x' || nonFinite z then none else some z

/-! ### The running softmax (R131, R132) -/

def RowState.start (dim : Nat) : RowState := { m := negInf, l := 0, o := List.replicate dim 0 }

/-- The canonical NaN triple (R132). -/
def RowState.nan (dim : Nat) : RowState := { m := nan32, l := nan32, o := List.replicate dim nan32 }

def RowState.isNan (r : RowState) : Bool := r.m == nan32

/-- One block of a row: `toks` holds, for each visible token, its exact dot product with the query and its values. -/
def RowState.block (r : RowState) (dim qf : Nat) (scale softcap cinv : BitVec 32) (toks : List (Ex × List Ex)) : RowState :=
  if toks.isEmpty || r.isNan then r
  else
    let zs := toks.map fun t => scoreZ scale softcap cinv t.1
    if zs.any (·.isNone) then .nan dim
    else
      let zs := zs.filterMap id
      let mb := zs.foldl max32 negInf
      let m' := max32 r.m mb
      let a := if r.m = negInf then 0 else exp2E (sub32 r.m m')
      let ps := zs.map fun z => roundQ qf (exF32 (exp2E (sub32 z m')))
      let s := rn32 (Ex.sum ps)
      let one : BitVec 32 := 0x3f800000
      let l := fma32 a r.l one s
      let o := (List.range dim).map fun d =>
        let u := rn32 (Ex.sum ((ps.zip toks).map fun (p, t) => p.mul (t.2.getD d .zero)))
        fma32 a (r.o.getD d 0) one u
      if nonFinite l || o.any nonFinite then .nan dim else { m := m', l := l, o := o }

/-- Visible tokens of a row in a page, with dot products and values (R121, R127). `raw` is the page in its raw layout. -/
def pageTokens (f : AttendF) (p : PageShape) (raw : Bytes) (gb : Bool) (v : BlockView) (head pos : Nat) (query : List Ex) :
    List (Ex × List Ex) :=
  let k := raw.take p.sectionBytes
  let w := raw.drop p.sectionBytes
  (List.range v.valid).filterMap fun t =>
    if tokenVisible f gb v.segment (v.first + t) pos then
      some (Ex.sum (query.zipIdx.map fun (x, d) => x.mul (p.value k head t d)),
            (List.range p.dim).map fun d => p.value w head t d)
    else none

/-- The update of row `r` of a request by one page. -/
def rowStep (m : ModelRec) (f : AttendF) (p : PageShape) (raw : Bytes) (gb : Bool) (v : BlockView) (qrows : List Bytes)
    (r : Nat) (st : RowState) : RowState :=
  let query := queryOf f m.headDim (qrows.getD r [])
  st.block m.headDim (if f.qRequant then 2 else f.qFormat) (scaleOf m f) f.softcap (if f.softcap = 0 then 0 else recip32 f.softcap)
    (pageTokens f p raw gb v (rowHead m f r) (f.qPos + rowToken m f r) query)

/-! ### Partials (R133, R135) -/

/-- A partial is nonfinite (R135). -/
def RowState.nonfinite (r : RowState) : Bool :=
  isNan32 r.m || r.m == 0x7f800000 || nonFinite r.l || r.o.any nonFinite

/-- The LSE merge of an earlier partial with a later one. -/
def lseMerge (a b : RowState) : RowState :=
  let dim := a.o.length
  if a.nonfinite || b.nonfinite then .nan dim
  else if a.m = negInf then b
  else if b.m = negInf then a
  else
    let m := max32 a.m b.m
    let x := exp2E (sub32 a.m m)
    let y := exp2E (sub32 b.m m)
    let l := fma32 x a.l y b.l
    let o := (a.o.zip b.o).map fun (u, v) => fma32 x u y v
    if nonFinite l || o.any nonFinite then .nan dim else { m := m, l := l, o := o }

/-- A left fold of partials in order (R136, R138). -/
def lseFold : List RowState → Option RowState
  | [] => none
  | p :: ps => some (ps.foldl lseMerge p)

/-- Bytes of a partial, o in FP32 (`fmt` 0) or BF16 (`fmt` 1). -/
def RowState.bytes (r : RowState) (fmt : Nat) : Bytes :=
  leBytes 4 r.m.toNat ++ leBytes 4 r.l.toNat ++
    r.o.flatMap fun x => if fmt = 0 then leBytes 4 x.toNat else leBytes 2 (bf16Of x).toNat

/-- Size of a partial. -/
def partialBytes (dim fmt : Nat) : Nat := 8 + (if fmt = 0 then 4 else 2) * dim

/-- A partial from its FP32 layout. -/
def readPartial (dim : Nat) (b : Bytes) : RowState :=
  let w := fun (i : Nat) => BitVec.ofNat 32 (ofLeBytes ((b.drop (4 * i)).take 4))
  { m := w 0, l := w 1, o := (List.range dim).map fun d => w (d + 2) }

/-- Header of a part record (R137). -/
def partHeader (lo hi index count rows : Nat) (below : Bool) : Bytes :=
  leBytes 32 (lo + hi * 2 ^ 32 + index * 2 ^ 64 + count * 2 ^ 80 + below.toNat * 2 ^ 96 + rows * 2 ^ 128)

/-! ### Times (R118, R122, R139, R140) -/

/-- Multiply-accumulates per A-clock for two operand widths (R122). -/
def arrayRate (a b : Nat) : Nat :=
  if 8 < max a b then 16384 else if 4 < max a b then 32768 else 65536

/-- Width of a format's elements as the array takes them. -/
def arrayWidth (fmt : Nat) : Nat := elemBits fmt

/-- t_block of R118 for `rows` rows of a request's fields over a page of `bytes` bytes in format `fmt`. -/
def blockTicks (m : ModelRec) (f : AttendF) (rows fmt bytes : Nat) : Nat :=
  let half := if 256 < m.headDim then 2 else 1
  let qk := arrayRate (if f.qRequant then 4 else elemBits f.qFormat) (arrayWidth fmt) / half
  let pv := arrayRate (if f.qRequant then 8 else elemBits f.qFormat) (arrayWidth fmt) / half
  let n := rows * m.blockTokens
  max (cdiv bytes 512) (max (cdiv (n * m.headDim * (qk + pv)) (2 * qk * pv)) (cdiv n 512))

/-- rows_max of R139; `grains` is the largest page of the part. -/
def rowsMax (m : ModelRec) (f : AttendF) (grains : Nat) : Nat :=
  max 1 (min (131072 / max 1 (rowBytes m f)) ((262144 + 2097152 - 2 * grains * grainBytes) / partialBytes m.headDim 0))

/-- Ticks of a merge of two partials (R229). -/
def mergeTicks (m : ModelRec) (rows : Nat) : Nat := cdiv (rows * (m.headDim + 2)) 512

end Sys2Proof.Machine
end

