-- ==== Sys2Proof/Machine/Prefixes.lean ====
section
/-! DEFINITION. Published prefixes (03_published_prefixes): LOOKUP_PREFIX in its three forms, ATTACH_PREFIX,
PUBLISH_PREFIX with its read-and-rekey pass and compare-and-set, WITHDRAW_PREFIX, and the directory messages. -/

namespace Sys2Proof.Machine

/-! ### LOOKUP_PREFIX, hash and token forms (R52 to R55) -/

def State.fingerprintOf (s : State) (model : Nat) : BitVec 64 :=
  match s.model? model with
  | some m => m.fingerprint
  | none => 0

/-- Two pairs of equal depth (R52). -/
def depthsRepeat (l : List PairF) : Bool := decide (l.length ≠ ((l.map (·.depth)).eraseDups).length)

def State.checkLookupHash (s : State) (f : LookupHashF) : Option Bad :=
  if (s.model? f.model).isNone ∨ f.pairs.isEmpty ∨ f.pairs.any (fun p => p.depth = 0 ∨ 262144 < p.depth) ∨ depthsRepeat f.pairs then
    some (stInvalidField, 0)
  else none

def State.checkLookupToken (s : State) (f : LookupTokenF) : Option Bad :=
  if (s.model? f.model).isNone ∨ f.tokenBlocks = 0 ∨ 4096 < f.tokenBlocks ∨ f.tokenAddr % 64 ≠ 0 ∨ f.resultAddr % 64 ≠ 0
      ∨ (f.hasStart ∧ (f.startDepth = 0 ∨ 262143 < f.startDepth)) then some (stInvalidField, 0)
  else none

/-- Greatest depth asked. -/
def maxDepth (l : List PairF) : Nat := l.foldl (fun n p => max n p.depth) 0

/-- Local answers to a list of pairs: (depth, index, handle) of each verified hit. -/
def State.localHits (s : State) (domain : Nat) (fp : BitVec 64) : Nat → List PairF → List (Nat × Nat × Nat) × State
  | _, [] => ([], s)
  | i, p :: ps =>
    match s.searchKey domain fp p.depth p.hash with
    | (some e, s) =>
      let (l, s) := s.localHits domain fp (i + 1) ps
      ((p.depth, i, e.handle) :: l, s)
    | (none, s) => s.localHits domain fp (i + 1) ps

/-- Hit of greatest depth. -/
def bestHit (l : List (Nat × Nat × Nat)) : Option (Nat × Nat × Nat) :=
  l.foldl (fun b x => match b with
    | some y => if y.1 < x.1 then some x else some y
    | none => some x) none

/-- Complete a lookup. The token form's last chain hash goes to its result buffer first (R54). -/
def State.lookupDone (s : State) (r : Req) (status result : Nat) (fl : RecFlags) : State :=
  match r.desc with
  | .lookupToken f => if r.raw.isEmpty then s.finish r status result fl else s.answerWith r f.resultAddr r.raw status result fl
  | _ => s.finish r status result fl

/-- Home of the greatest depth asked, where that is another device: the remote flag is set then (R53, R205). -/
def State.lookupHome (s : State) (pairs : List PairF) : Option Nat :=
  (pairs.find? fun p => p.depth == maxDepth pairs && s.homeOf p.hash != s.params.deviceId).map fun p => s.homeOf p.hash

/-- Complete a lookup with the greatest verified depth; a miss names the home of the greatest depth asked where the remote flag is set
(R52, R53, R207; log entry 119). -/
def State.answerLookup (s : State) (r : Req) (pairs : List PairF) (found : Option (Nat × Nat × Nat)) (token : Bool) : State :=
  let home := s.lookupHome pairs
  match found with
  | some (d, i, h) =>
    s.lookupDone r (if d = maxDepth pairs then stOk else stOkPartial) (resLookup h d (if token then 0 else i) (handleHome h))
      { remote := home.isSome }
  | none => s.lookupDone r stPrefixNotFound (home.elim 0 resHome) { remote := home.isSome }

/-- Pairs in pieces of 8, as DIR_LOOKUP carries them. -/
def cut8 : Nat → List PairF → List (List PairF)
  | 0, _ => []
  | n + 1, l => if l.isEmpty then [] else l.take 8 :: cut8 n (l.drop 8)

def pairBytes (l : List PairF) : Bytes := l.flatMap fun p => hashBytes p.hash ++ leBytes 4 p.depth

/-- Ask every other home of the pairs that no local entry verifies (R53); `none` when a home cannot be reached. -/
def State.askHomes (s : State) (r : Req) (domain : Nat) (fp : BitVec 64) : List (Nat × List PairF) → Option State
  | [] => some s
  | (home, ps) :: rest =>
    match s.linkTo home with
    | none => none
    | some l =>
      let s := (cut8 512 ps).foldl (fun s c =>
        (s.request l msgDirLookup 0 (s.keyGen domain) r.tenant (.lookup r.id) (leBytes 8 fp.toNat ++ pairBytes c)).modReq r.id
          fun r => { r with waits := (s.ids) :: r.waits }) s
      s.askHomes r domain fp rest

/-- Run a lookup of pairs (R52, R53): `r` is outstanding. -/
def State.runLookup (s : State) (r : Req) (model : Nat) (pairs : List PairF) (token : Bool) : State :=
  let domain := s.domainOf r.tenant
  let fp := s.fingerprintOf model
  let (hits, s) := s.localHits domain fp 0 pairs
  let best := bestHit hits
  let missing := pairs.filter fun p => !(hits.any fun h => h.1 == p.depth) && s.homeOf p.hash != s.params.deviceId
  if r.cls = 0 ∨ missing.isEmpty ∨ s.ownDomain then s.answerLookup r pairs best token
  else
    let homes := (missing.map fun p => s.homeOf p.hash).eraseDups
    match s.askHomes r domain fp (homes.map fun h => (h, missing.filter fun p => s.homeOf p.hash == h)) with
    | none => s.finish r stLinkFault (resFaultAt noBlock noLayer)
    | some s =>
      s.modReq r.id fun r =>
        { r with phase := .remote, remote := true,
                 found := best.elim 0 (·.1), done := best.elim 0 (·.2.1), handle := best.elim 0 (·.2.2) }

def State.beginLookupHash (s : State) (r : Req) (f : LookupHashF) : State :=
  if s.tableUp 1 then s.runLookup r f.model f.pairs false else s.modReq r.id fun r => { r with phase := .waiting }

/-- A token-form lookup reads its tokens first (R54). -/
def State.beginLookupToken (s : State) (r : Req) : State := s.modReq r.id fun r => { r with phase := .started }

/-- Pairs of a token-form lookup: every depth from a + 1 to the last (R54). -/
def tokenPairs (key : BitVec 256) (blockTokens : Nat) : Nat → Nat → BitVec 128 → List Nat → List PairF
  | 0, _, _, _ => []
  | n + 1, a, prev, toks =>
    let h := chainHashNext key prev (toks.take blockTokens)
    { depth := a + 1, hash := h } :: tokenPairs key blockTokens n (a + 1) h (toks.drop blockTokens)

/-- The tokens of a token-form lookup arrive: the chain hashes are computed and every depth looked up; the last hash is kept for the
result buffer (R54). -/
def State.lookupTokens (s : State) (r : Req) (f : LookupTokenF) (ok : Bool) (data : Bytes) : State :=
  if !ok then s.faultReq r stLinkFault noBlock noLayer
  else match s.model? f.model with
    | none => s.finish r stInvalidField 0
    | some m =>
      if !s.slotFilled (hashKeySlot (s.domainOf r.tenant)) then s.finish r stInternalFault 0 else
      let key := s.hashKey (s.domainOf r.tenant)
      let start := if f.hasStart then f.startHash else chainHash0 key m.fingerprint
      let ps := tokenPairs key m.blockTokens f.tokenBlocks (if f.hasStart then f.startDepth else 0) start (tokenIds data)
      let last := if f.resultAddr = 0 then [] else hashBytes (ps.getLastD { depth := 0, hash := 0 }).hash
      let s := s.modReq r.id fun r => { r with raw := last, data := data }
      if s.tableUp 1 then s.runLookup { r with raw := last } f.model ps true
      else s.modReq r.id fun r => { r with phase := .waiting, data := data }

/-! ### LOOKUP_PREFIX, flow form (R86) -/

def State.checkLookupFlow (f : LookupFlowF) : Option Bad :=
  if 1 < f.family ∨ 16 < f.leadCount ∨ f.maxMatches = 0 ∨ 4 < f.maxMatches ∨ f.resultAddr % 64 ≠ 0
      ∨ (1 < f.maxMatches ∧ f.resultAddr = 0) then some (stInvalidField, 0) else none

/-- The flow table is searched, and on a miss the policy table, a search that is held while the policy table is short of a bank (R86,
R90). -/
def State.runLookupFlow (s : State) (r : Req) (f : LookupFlowF) : State :=
  let all := s.flowMatches r.tenant (s.pathB r.fn) f
  let s := s.flowFalse r.tenant (s.pathB r.fn) f
  let got := all.take f.maxMatches
  let answer := fun (s : State) (ws : List Nat) (st res : Nat) (fl : RecFlags) =>
    if f.maxMatches ≤ 1 ∨ ws.isEmpty then s.finish r st res fl else s.answerWith r f.resultAddr (ws.flatMap (leBytes 8)) st res fl
  match got with
  | e :: _ => answer s (got.map FlowRow.word) stOk (resFlow e.handle e.mode got.length) { multi := decide (1 < all.length) }
  | [] =>
    if !s.tableUp 5 then s.modReq r.id fun r => { r with phase := .waiting } else
    let pall := s.policyMatches r.tenant (s.pathB r.fn) f
    let s := s.policyFalse r.tenant (s.pathB r.fn) f
    let ps := pall.take f.maxMatches
    let word := if f.maxMatches = 1 then (ps.head?.elim 0 (·.rule.result)) else 0
    answer s (ps.map (·.rule.result)) stFlowNotFound (resPolicy ps.length word) { multi := decide (1 < pall.length) }

def State.beginLookupFlow (s : State) (r : Req) (f : LookupFlowF) : State :=
  if s.tableUp (flowTag (f.family == 1)) then s.runLookupFlow r f
  else s.modReq r.id fun r => { r with phase := .waiting }

/-! ### ATTACH_PREFIX (R56, R57) -/

/-- Formats of the blocks below `a`: each entry of a chain counts that has a block of its own in the range (R56). -/
def formatsBelow : Nat → List DirEntry → List Nat
  | _, [] => []
  | a, e :: es => (if e.parentDepth < a then [e.fmt] else []) ++ formatsBelow (min a e.parentDepth) es

def State.attachedFormats (s : State) (h a : Nat) : List Nat := formatsBelow a ((s.chainOf chainFuel h).filterMap s.entryOf)

/-- Steps 4 to 8 of R56 against an entry's fields. -/
def State.attachChecks (s : State) (q : Seq) (m : ModelRec) (a depth fmt holder : Nat) (formats : List Nat) : Option Bad :=
  if depth < a then some (stInvalidField, 0)
  else if q.layout = 1 ∨ (q.layout = 2 ∧ q.globals < a) then some (stInvalidField, 0)
  else if !bit m.kvFormats fmt then some (stInvalidField, 0)
  else if formats.any fun x => precisionRank x < floorRank q.floor then some (stPrecisionFloor, 0)
  else if q.cls = 0 ∧ holder ≠ s.params.deviceId ∧ q.t1res < a * m.layers * grainsOf (shapeOf m fmt).rawBytes then
    some (stRefusedCapacity, 0)
  else none

/-- Entry that an ATTACH_PREFIX may link here (R45, R57): a published home entry, or the published proxy of a remote one. -/
def State.linkable (s : State) (h domain : Nat) (fp : BitVec 64) : Option DirEntry :=
  match s.publishedHome h domain fp with
  | some e => some e
  | none => s.dir.find? fun e => e.handle == h && e.proxy && e.st == .published && e.domain == domain && e.fingerprint == fp
      && handleHome h != s.params.deviceId

/-- A holder proxy that has released its reference at the home takes one again with its next link (R57, R62). -/
def State.needsRef (s : State) (e : DirEntry) : Bool := e.proxy && !e.homeRef && handleHome e.handle != s.params.deviceId

/-- The nearest parent of a prefix that is homed elsewhere and has no proxy here yet; `fuel` bounds the chain. -/
def State.missingParent (s : State) : Nat → Nat → Option Nat
  | 0, _ => none
  | fuel + 1, h =>
    if h = 0 then none
    else match s.entryOf h with
      | some e => s.missingParent fuel e.parent
      | none => if handleHome h = s.params.deviceId then none else some h

def State.checkAttachPrefix (s : State) (r : Req) (f : AttachPrefixF) : Option Bad :=
  match s.openSeqOf r f.seq with
  | .error b => some b
  | .ok q =>
    match s.model? q.model with
    | none => some (stInvalidField, 0)
    | some m =>
      if q.cur.blockCount ≠ 0 ∨ q.cur.prefixHandle ≠ 0 ∨ f.depth = 0 then some (stInvalidField, 0)
      else match s.linkable f.handle (s.domainOf r.tenant) m.fingerprint with
        | some e =>
          match s.attachChecks q m f.depth e.depth e.fmt e.holder (s.attachedFormats f.handle f.depth) with
          | some b => some b
          | none => if r.cls = 0 ∧ (s.needsRef e ∨ (s.missingParent chainFuel e.handle).isSome) then some (stRefusedCapacity, 0) else s.changeChecks r q true none
        | none =>
          if handleGen f.handle = 0 ∨ handleHome f.handle = s.params.deviceId ∨ s.ownDomain
              ∨ (s.entryOf f.handle).isSome then some (stPrefixNotFound, 0)
          else if r.cls = 0 ∨ !s.prefixRoom then some (stRefusedCapacity, 0)
          else s.changeChecks r q true none

/-- Ask another home for one of its entries, for a request that needs it here (R57). -/
def State.askEntry (s : State) (r : Req) (h : Nat) (chain : List (Nat × DirKeyF)) : State :=
  match s.linkTo (handleHome h) with
  | none => s.finish r stLinkFault (resFaultAt noBlock noLayer)
  | some l =>
    (s.request l msgDirAttach h (s.keyGen (s.domainOf r.tenant)) r.tenant (.attach r.id) []).modReq r.id fun r =>
      { r with phase := .remote, remote := true, chain := chain }

/-- Commit the link (R56): prefix_handle and prefix_depth a, block_count a, token_count a × block_tokens. -/
def State.commitLink (s : State) (r : Req) (q : Seq) (m : ModelRec) (e : DirEntry) (a : Nat) : State :=
  let s := s.takeRef e.slot
  let s := s.commitVersion q.index { q.cur with prefixHandle := e.handle, prefixDepth := a, blockCount := a, tokenCount := a * m.blockTokens }
  s.finish r stOk (resVersion (s.mapVersion q.index))

/-- An attach of a remote handle searches the prefix table, and is held while that is short of a bank (R57, R90). -/
def State.attachSearches (s : State) (f : AttachPrefixF) : Bool := handleHome f.handle != s.params.deviceId && !s.tableUp 1

/-- An accepted ATTACH_PREFIX. The changes of its sequence that other functions have ready commit first (R40), and its checks are made on
the version that they leave. -/
def State.beginAttachPrefix (s : State) (r : Req) (f : AttachPrefixF) : State :=
  if s.attachSearches f then s.modReq r.id fun r => { r with phase := .waiting } else
  let s := (s.commitAhead r).loadChain f.handle
  match s.checkAttachPrefix r f with
  | some b => s.finish r (zeroEnd r b).1 (zeroEnd r b).2
  | none =>
    match s.openSeqOf r f.seq with
    | .error (st, res) => s.finish r st res
    | .ok q =>
      match s.model? q.model with
      | none => s.finish r stInvalidField 0
      | some m =>
        match s.linkable f.handle (s.domainOf r.tenant) m.fingerprint with
        | none => s.askEntry r f.handle []
        | some e =>
          if s.needsRef e then s.askEntry r f.handle [] else
          match s.missingParent chainFuel e.handle with
          | some h => s.askEntry r h []
          | none => s.commitLink r q m e f.depth

/-! ### PUBLISH_PREFIX (R59 to R62) -/

/-- Blocks that a publication at depth d of a version takes: from the linked prefix's depth to d - 1. -/
def publishFrom (v : Version) : Nat := if v.prefixHandle = 0 then 0 else v.prefixDepth

/-- Stored grains of blocks lo to d - 1 at a version. -/
def State.grainsOfBlocks (s : State) (q : Seq) (v : Version) (lo d : Nat) : Nat :=
  sumBy (fun i => match (s.resolve q v (lo + i)).bind s.rec? with
    | some r => sumBy (·.grains) r.locs
    | none => 0) (List.range (d - lo))

/-- A block may be published: hashed, segment 0, full, and no page of it lost (R59). -/
def State.publishable (s : State) (q : Seq) (v : Version) (blockTokens b : Nat) : Bool :=
  match (s.resolve q v b).bind s.rec? with
  | some r => r.hashed && r.segment == 0 && r.valid == blockTokens && r.locs.all fun l => !l.lost && l.grains != 0
  | none => false

/-- Grains that publications of a domain under way here have been granted, until the home's answer gives them to an entry or frees them
(R59). -/
def State.publishing (s : State) (domain : Nat) : Nat :=
  sumBy (fun r => match r.desc with
    | .publish _ => if s.domainOf r.tenant = domain ∧ r.phase ≠ .writing then r.done else 0
    | _ => 0) s.reqs

/-- An earlier change of the function still has to write block `b`: what R59 asks of its record is checked at the pin (R40). -/
def State.pendingBlock (s : State) (r : Req) (q : Seq) (b : Nat) : Bool :=
  decide (q.cur.blockCount ≤ b) || s.reqs.any fun x => x.fn == r.fn && decide (x.id < r.id) && (match x.desc with
    | .replace f => f.seq == q.handle && decide (f.firstBlock ≤ b) && decide (b < f.firstBlock + f.blockCount)
    | _ => false)

/-- The refusals of R59 against the version `v` of the sequence: admission decides on the version that the function's earlier changes
leave (R40). -/
def State.checkPublishAt (s : State) (r : Req) (f : PublishF) (q : Seq) (v : Version) : Option Bad :=
    match s.model? q.model with
    | none => some (stInvalidField, 0)
    | some m =>
      let p := publishFrom v
      if f.digestAddr = 0 ∨ f.digestAddr % 32 ≠ 0 ∨ f.depth ≤ p ∨ v.blockCount < f.depth ∨ q.layout = 1
          ∨ (q.layout = 2 ∧ q.globals < f.depth)
          ∨ !((List.range (f.depth - p)).all fun i => s.pendingBlock r q (p + i) || s.publishable q v m.blockTokens (p + i)) then some (stInvalidField, 0)
      else
        let parentOk := v.prefixHandle = 0 || (match s.entryOf v.prefixHandle with
          | some e => e.st == .published
          | none => false)
        if !parentOk then some (stPrefixNotFound, 0)
        else
          let quota := match s.domain? q.domain with
            | some d => d.publishGrains
            | none => 0
          if quota < s.domainGrains q.domain + s.publishing q.domain + s.grainsOfBlocks q v p f.depth then some (stRefusedCapacity, 0)
          else s.changeChecks r q true none

def State.checkPublish (s : State) (r : Req) (f : PublishF) : Option Bad :=
  match s.openSeqOf r f.seq with
  | .error b => some b
  | .ok q => s.checkPublishAt r f q q.cur

/-- Pages of the pass: block, layer and locator, in the order of R60. -/
def State.publishPages (s : State) (q : Seq) (v : Version) (lo d : Nat) : List (Nat × Nat × Rec × Loc) :=
  (List.range (d - lo)).flatMap fun i =>
    match (s.resolve q v (lo + i)).bind s.rec? with
    | some r => r.locs.zipIdx.map fun (l, j) => (lo + i, j, r, l)
    | none => []

/-- Far pages of the pass that have not been asked for yet; the request keeps the number of each page it has asked for. -/
def Req.rekeyLeft (r : Req) (pages : List (Nat × Nat × Rec × Loc)) : List (Nat × Nat × Rec × Loc) :=
  pages.filter fun x => decide (2 ≤ x.2.2.2.tier) && !r.waits.contains (256 * x.1 + x.2.1)

/-- The far pages of the pass are read over their links and ports, as many as staging takes (R61, R93, R263). -/
def State.readForRekey (s : State) (id : Nat) : List (Nat × Nat × Rec × Loc) → State
  | [] => s
  | (b, l, x, loc) :: rest =>
    if !s.stagingFree id loc.grains then s
    else
      let s := s.pageTransfer (.rekey id b l) (ownerHdr x.ownerKind x.owner) loc.tier loc.addr loc.grains loc.version none
      (s.modReq id fun r => { r with waits := (256 * b + l) :: r.waits }).readForRekey id rest

/-- Ask for the far pages of a publication that staging has room for now. -/
def State.rekeyMore (s : State) (id : Nat) : State :=
  match (s.req? id).bind fun r => (r.pin.bind s.pinned?).map fun x => (r, x) with
  | none => s
  | some (r, q, v) => match r.desc with
    | .publish f => if r.phase = .started ∧ r.data.isEmpty then s.readForRekey id (r.rekeyLeft (s.publishPages q v (publishFrom v) f.depth)) else s
    | _ => s

/-- What admission of a publication loads: the parent's entries (R47) and the records of the blocks named (R26). -/
def State.loadPublish (s : State) (r : Req) (f : PublishF) : State :=
  match s.seqOf r.tenant f.seq with
  | none => s
  | some q =>
    let s := s.loadChain q.cur.prefixHandle
    s.loadBlocks q q.cur (publishFrom q.cur) (min f.depth q.cur.blockCount - publishFrom q.cur)

/-- Admission pins the version and reserves one version place for the relink (R59). -/
def State.beginPublish (s : State) (r : Req) (f : PublishF) : State :=
  let s := s.loadPublish r f
  match s.checkPublish r f with
  | some (st, res) => s.finish r st res
  | none =>
    match s.openSeqOf r f.seq with
    | .error (st, res) => s.finish r st res
    | .ok q =>
      let n := s.grainsOfBlocks q q.cur (publishFrom q.cur) f.depth
      let s := (s.pinCurrent r.id q).modReq r.id fun r => { r with phase := .started, done := n }
      (s.modSeq q.index fun q => { q with places := q.places + 1 }).rekeyMore r.id

/-- Return the version place of a publication (R59). -/
def State.freePlace (s : State) (r : Req) : State :=
  match r.pin with
  | some p => s.modSeq p.index fun q => { q with places := q.places - 1 }
  | none => s

/-- End a publication without an effect: its new grains and its version place are freed. -/
def State.failPublish (s : State) (r : Req) (status result : Nat) : State := (s.freePlace r).failReq r status result

/-- Digest of a parent, 32 zero bytes with none (R60). -/
def State.parentDigest (s : State) (h : Nat) : Bytes :=
  match s.entryOf h with
  | some e => leBytes 32 e.digest.toNat
  | none => List.replicate 32 0

/-- Head of the content that R60 digests. -/
def digestHead (fp : BitVec 64) (fmt d : Nat) (parent : Bytes) : Bytes :=
  leBytes 8 fp.toNat ++ leBytes 1 fmt ++ leBytes 4 d ++ parent

/-- Grains for a new copy of a published page: T1, then T2, T3 and, where only it has room, T0 (R61, R94; log entry 92). -/
def State.placePublished (s : State) (n home : Nat) : Option (Nat × Nat) :=
  [1, 2, 3, 0].findSome? fun t => (s.allocPublished t n (if t = 1 then some home else none) none).map fun a => (t, a)

/-- Read, digest and rekey the pages one by one (R60, R61 step 1); a copy placed in T2 or T3 is written over its link or port. The answer
is the raw content in order, the new pages, and the status with its place where one fails. -/
def State.rekeyPages (s : State) (id : Nat) (q : Seq) (m : ModelRec) (home : Nat) :
    List (Nat × Nat × Rec × Loc) → Bytes → List NewPage → Bytes × List NewPage × Option (Nat × Nat × Nat) × State
  | [], raw, acc => (raw, acc, none, s)
  | (b, l, r, loc) :: rest, raw, acc =>
    match (if s.slotFilled (ownerSlot 2 q.domain) && (s.req? id).all s.pathsAgree then s.readPage m q.tenant q.domain r l else .error stInternalFault) with
    | .error st => (raw, acc, some (st, b, l), s)
    | .ok bytes =>
      match s.readStored r.ownerKind r.owner loc with
      | .error st => (raw, acc, some (st, b, l), s)
      | .ok stored =>
        match s.placePublished loc.grains home with
        | none => (raw, acc, some (stRefusedCapacity, noBlock, noLayer), s)
        | some (tier, addr) =>
          let (v, s) := s.writePage tier addr loc.grains 2 q.domain loc.table stored
          let s := if tier ≤ 1 then s else
            s.pageTransfer (.spill id) (ownerHdr 2 q.domain) tier addr loc.grains v (some (s.sealPage 2 q.domain tier addr loc.grains v stored))
          s.rekeyPages id q m home rest (raw ++ bytes)
            (acc ++ [{ block := b, layer := l, tier := tier, addr := addr, grains := loc.grains, table := loc.table,
                       uncoded := loc.uncoded, version := v, charged := false }])

/-- The relink's condition (R61 step 3): the sequence is open, its current version refers to the same records for the
published blocks as the pinned one, and links the same prefix. -/
def State.relinkOk (s : State) (q : Seq) (v : Version) (lo d : Nat) : Bool :=
  q.st == .opened && q.cur.prefixHandle == v.prefixHandle && q.cur.prefixDepth == v.prefixDepth
    && decide (d ≤ q.cur.blockCount)
    && (List.range (d - lo)).all fun i => s.resolve q q.cur (lo + i) == s.resolve q v (lo + i)

/-- Locators of a published record: the new grains, published set (R46, R61). -/
def rekeyLocs (r : Rec) (b : Nat) (ps : List NewPage) : List Loc :=
  r.locs.zipIdx.map fun (l, i) =>
    match ps.find? fun p => p.block == b && p.layer == i with
    | some p =>
      { l with tier := p.tier, grains := p.grains, addr := p.addr, table := p.table, uncoded := p.uncoded, version := p.version,
               published := true, pinned := false, moving := false, lost := false, pinBy := none }
    | none => l

/-- The published blocks and their records at the pinned version. -/
def State.blockRecs (s : State) (q : Seq) (v : Version) (lo d : Nat) : List (Nat × Nat) :=
  (List.range (d - lo)).filterMap fun i => (s.resolve q v (lo + i)).map fun id => (lo + i, id)

/-- The records pass to the new entry: their locators take the new grains in one write each, and the old grains are freed
once no walk reads them (R61 step 3, R31). -/
def State.adoptRecs (s : State) (ps : List NewPage) : List (Nat × Nat) → State
  | [] => s
  | (b, id) :: rest =>
    match s.rec? id with
    | none => s.adoptRecs ps rest
    | some r =>
      let s := (s.refRec id).modRec id fun x => { x with published := true, shared := decide (1 < x.refs - 1), locs := rekeyLocs r b ps }
      let s := { s with moves := s.moves.filter fun m => m.blk != id }
      let s := r.locs.foldl (fun s l => if l.grains = 0 then s else s.freePage l.tier l.addr) s
      s.adoptRecs ps rest

/-- Fresh records for the new entry, copied from the pinned ones (R61 step 3, no relink). -/
def State.copyRecs (s : State) (ps : List NewPage) : List (Nat × Nat) → List (Nat × Nat) × State
  | [] => ([], s)
  | (b, id) :: rest =>
    match s.rec? id with
    | none => s.copyRecs ps rest
    | some r =>
      let x := { r with id := s.ids, published := true, shared := false, pinned := false, refs := 1, locs := rekeyLocs r b ps,
                        address := metaAddr 64 s.ids, locators := metaAddr 16 (s.ids + 1), mirrorA := s.newMirrors.1, mirrorB := s.newMirrors.2 }
      let s := { s.bumpId.bumpId with recs := x :: s.recs }
      let (l, s) := s.copyRecs ps rest
      ((b, x.id) :: l, s)

/-- The version that a relink commits (R61 step 3). -/
def relinked (q : Seq) (handle d lo : Nat) : Version :=
  { q.cur with prefixHandle := handle, prefixDepth := d,
               slots := q.cur.slots.filter fun x =>
                 !((List.range (d - lo)).any fun i => slotOf q.layout q.window q.globals (lo + i) == x.1) }

/-- Write the digest of the entry that the completion names, then complete (R61 step 4). -/
def State.putDigest (s : State) (r : Req) (f : PublishF) (digest : BitVec 256) (status result : Nat) : State :=
  s.answerWith r f.digestAddr (leBytes 32 digest.toNat) status result

/-- Home stack of a publication: the stack with the most room, in which its pass placed its T1 pages (R225). -/
def State.homeOfNew (s : State) (ps : List NewPage) : Nat :=
  (ps.find? fun p => p.tier == 1).elim ((s.stacksByRoom 0).headD 0) fun p => t1Stack p.addr

/-- Free every new grain of the pass. -/
def State.dropNew (s : State) (r : Req) : State := r.pages.foldl (fun s p => s.dropPage p.tier p.addr) s

/-- The home answered OK: the entry in slot `slot` here (home entry or holder proxy) takes the records and grains; the
sequence is relinked where R61 allows it, after the commits that were ready before (R40). `ref` says that the entry holds a reference for the sequence already. -/
def State.publishCreated (s : State) (r : Req) (f : PublishF) (q : Seq) (v : Version) (slot handle : Nat) (digest : BitVec 256)
    (ref : Bool) : State :=
  let lo := publishFrom v
  let s := s.commitAhead r
  let q := (s.seq? q.index).getD q
  let recs := s.blockRecs q v lo f.depth
  if s.relinkOk q v lo f.depth then
    let s := ((s.adoptRecs r.pages recs).putMap slot recs).modDir slot fun e => { e with homeStack := s.homeOfNew r.pages }
    let s := if ref then s else s.takeRef slot
    let s := s.freePlace r
    let s := s.commitVersion q.index (relinked q handle f.depth lo)
    let s := if v.prefixHandle = 0 then s else s.releaseHandle v.prefixHandle
    s.putDigest r f digest stOk (resPublish handle true)
  else
    let (l, s) := s.copyRecs r.pages recs
    let s := (s.putMap slot l).modDir slot fun e => { e with homeStack := s.homeOfNew r.pages }
    let s := s.freePlace r
    let s := if ref then State.releaseRef chainFuel s slot
      else State.releaseRef chainFuel (s.takeRef slot) slot
    s.putDigest r f digest stOk (resPublish handle false)

/-- The home answered OK_MERGED: the new grains are freed; the sequence links the entry where R61 allows it. -/
def State.publishMerged (s : State) (r : Req) (f : PublishF) (q : Seq) (v : Version) (slot handle : Nat) (digest : BitVec 256)
    (ref : Bool) : State :=
  let lo := publishFrom v
  let s := (s.dropNew r).commitAhead r
  let q := (s.seq? q.index).getD q
  if s.relinkOk q v lo f.depth then
    let s := if ref then s else s.takeRef slot
    let s := s.freePlace r
    let s := s.commitVersion q.index (relinked q handle f.depth lo)
    let s := if v.prefixHandle = 0 then s else s.releaseHandle v.prefixHandle
    s.putDigest r f digest stOkMerged (resPublish handle true)
  else
    let s := s.freePlace r
    let s := if ref then State.releaseRef chainFuel s slot else State.releaseRef chainFuel (s.takeRef slot) slot
    s.putDigest r f digest stOkMerged (resPublish handle false)

/-- The home answered PUBLISH_CONFLICT (R61). -/
def State.publishConflict (s : State) (r : Req) (f : PublishF) (handle : Nat) (digest : BitVec 256) : State :=
  (((s.freePlace r).dropNew r).dropChain r r.chain).putDigest r f digest stPublishConflict (resPublish handle false)

/-- The key that a publication gives its home, with its digest, format, parent and holder (R61, step 2). -/
def State.publishKey (s : State) (f : PublishF) (q : Seq) (v : Version) (m : ModelRec) (digest : BitVec 256) : DirKeyF :=
  { domain := q.domain, fingerprint := m.fingerprint, depth := f.depth,
    hash := ((s.resolve q v (f.depth - 1)).bind s.rec?).elim 0 (·.chainHash), digest := digest, fmt := q.fmt, parent := v.prefixHandle,
    parentDepth := if v.prefixHandle = 0 then 0 else v.prefixDepth, holder := s.params.deviceId, publisher := q.tenant }

/-- The entry that DIR_PUBLISH carries, without the home's own fields. -/
def State.keyEntryOf (s : State) (k : DirKeyF) : DirEntry :=
  { slot := 0, gen := 0, hash := k.hash, fingerprint := k.fingerprint, domain := k.domain, depth := k.depth, st := .published, proxy := false,
    copyVerified := false, keyGen := s.keyGen k.domain, handle := 0, digest := k.digest, refs := 0, publisher := k.publisher,
    holder := k.holder, fmt := k.fmt, map := [], parent := k.parent, parentDepth := k.parentDepth, publishedAt := 0, idleSince := 0,
    proxies := [], homeRef := false, holderProxy := false, homeStack := 0, grainsTaken := 0, mirrorA := true, mirrorB := true }

/-- The compare-and-set: made here, or sent to the home, once this device has a slot and a row promised for its proxy (R61, R62; log
entry 118). -/
def State.publishSend (s : State) (r : Req) (f : PublishF) (q : Seq) (v : Version) (m : ModelRec) : State :=
  let digest := BitVec.ofNat 256 (ofLeBytes r.data)
  let k := s.publishKey f q v m digest
  let dest := s.homeOf k.hash
  if dest = s.params.deviceId then
    match s.compareAndSet k [] (sumBy (·.grains) r.pages) with
    | (.created e, s) => s.publishCreated r f q v e.slot e.handle digest true
    | (.merged e, s) => s.publishMerged r f q v e.slot e.handle e.digest true
    | (.conflict e, s) => s.publishConflict r f e.handle e.digest
    | (.full, s) => s.failPublish r stRefusedCapacity 0
    | (.lost, s) => s.failPublish r badData.1 badData.2
    | (.noParent, s) => s.failPublish r stPrefixNotFound 0
  else if s.metaGone || !s.prefixRoom || !s.dirRoom then s.failPublish r s.noPlace (faultResult s.noPlace)
  else match s.linkTo dest with
    | none => s.failPublish r stLinkFault (resFaultAt noBlock noLayer)
    | some l =>
      (s.request l msgDirPublish 0 (s.keyGen k.domain) r.tenant (.publish r.id) (dirBytes (s.keyEntryOf k))).modReq r.id fun x =>
        { x with phase := .remote, remote := true }

/-- The compare-and-set of a publication is made here and searches the prefix table, which is short of a bank: the search is held (R90). -/
def State.homeTableHeld (s : State) (r : Req) : Bool :=
  !s.tableUp 1 && ((r.pin.bind s.pinned?).bind fun x => match r.desc with
    | .publish f => (s.resolve x.1 x.2 (f.depth - 1)).bind s.rec?
    | _ => none).elim true fun b => s.homeOf b.chainHash == s.params.deviceId

/-- The pass of a publication has ended, and so have the writes of its copies in T2 and T3: step 2 follows. -/
def State.publishGoes (s : State) (r : Req) (f : PublishF) : State :=
  if r.phase ≠ .started ∨ r.stops ∨ r.data.isEmpty ∨ (s.homeTableHeld r) ∨ (s.txns.any fun t => t.kind == .spill r.id) then s
  else match r.pin.bind s.pinned? with
    | none => s.failPublish r stHandleStale 0
    | some (q, v) =>
      match s.model? q.model with
      | none => s.failPublish r stInvalidField 0
      | some m => s.publishSend r f q v m

/-- A write of a new page in T2 or T3 has ended: a supply, or a publication, whose last it was goes on (R33, R61, R96). -/
def State.writesEnd (s : State) (id : Nat) : State :=
  match s.req? id with
  | none => s
  | some r =>
    match r.desc with
    | .publish f => s.publishGoes r f
    | _ => s.supplyReady id

/-- Far pages of the pass are still on their way. -/
def State.rekeyReads (s : State) (id : Nat) : Bool :=
  s.txns.any fun t => match t.kind with
    | .rekey r _ _ => r == id
    | _ => false

/-- READ_AND_REKEY_END: the read-and-rekey pass ends (R60, R61, step 1). -/
def State.rekeyEnd (s : State) (r : Req) (f : PublishF) : State :=
  match r.pin.bind s.pinned? with
  | none => s.failPublish r stHandleStale 0
  | some (q, v) =>
    let lo := publishFrom v
    let s := s.loadBlocks q v lo (f.depth - lo)
    let s := s.rekeyMore r.id
    if s.rekeyReads r.id ∨ !r.data.isEmpty ∨ r.stops then s
    else match s.openSeqOf r f.seq, s.model? q.model with
    | .error (st, res), _ => s.failPublish r st res
    | .ok _, none => s.failPublish r stInvalidField 0
    | .ok _, some m =>
      match s.rekeyPages r.id q m ((s.stacksByRoom 0).headD 0) (s.publishPages q v lo f.depth) [] [] with
      | (_, ps, some (st, b, l), s) =>
        let s := ((s.resolve q v b).elim s fun id => s.recFailed id l st (s.decoderAt id l))
        if endRank st < 9 then (s.modReq r.id fun x => { x with pages := ps }).faultReq r st b l else s.failPublish { r with pages := ps } st 0
      | (raw, ps, none, s) =>
        let digest := digest256 (digestHead m.fingerprint q.fmt f.depth (s.parentDigest v.prefixHandle) ++ raw)
        let r := { r with pages := ps, data := leBytes 32 digest.toNat }
        (s.modReq r.id fun x => { x with pages := ps, data := r.data }).publishGoes r f

/-! ### WITHDRAW_PREFIX (R66, R67, R320) -/

def State.activeSince (s : State) (tenant : Nat) : Nat :=
  match s.tenant? tenant with
  | some t => t.activeSince
  | none => 0

def State.prefixAdmin (s : State) (tenant : Nat) : Bool :=
  match s.tenantRec? tenant with
  | some t => t.prefixAdmin
  | none => false

/-- A tenant of device `dev` counts as the publishing tenant of an entry (R66, R67, R320). -/
def State.isPublisher (s : State) (e : DirEntry) (dev tenant : Nat) : Bool :=
  e.holder == dev && e.publisher == tenant && (dev != s.params.deviceId || decide (s.activeSince tenant ≤ e.publishedAt))

/-- The published home entry that a caller may withdraw (R45, R66). -/
def State.withdrawable (s : State) (h domain dev tenant : Nat) (admin : Bool) : Option DirEntry :=
  match s.dir.find? fun e => e.handle == h && !e.proxy && e.st == .published && e.domain == domain && handleGen h != 0 with
  | some e => if admin || s.isPublisher e dev tenant then some e else none
  | none => none

def State.beginWithdraw (s : State) (r : Req) (h : Nat) : State :=
  let s := s.loadHandle h
  let domain := s.domainOf r.tenant
  let admin := s.prefixAdmin r.tenant
  if handleHome h = s.params.deviceId then
    match s.withdrawable h domain s.params.deviceId r.tenant admin with
    | some e => (s.withdraw e).finish r stOk 0
    | none => s.finish r stPrefixNotFound 0
  else
    let own := match s.entryOf h with
      | some e => s.isPublisher e s.params.deviceId r.tenant && e.domain == domain
      | none => false
    if s.ownDomain ∨ handleGen h = 0 ∨ !(own || admin) then s.finish r stPrefixNotFound 0
    else match s.linkTo (handleHome h) with
      | none => s.finish r stLinkFault (resFaultAt noBlock noLayer)
      | some l =>
        (s.request l msgDirWithdrawn h (s.keyGen domain) r.tenant (.withdraw r.id) (leBytes 2 r.tenant ++ leBytes 1 admin.toNat)).modReq r.id
          fun r => { r with phase := .remote, remote := true }

/-! ### Directory messages at the home and the holder (R50, R57, R61, R62, R70) -/

/-- A message whose hash_key_gen differs is refused with Asvis status 6 and an event (R50). -/
def State.genOk (s : State) (fr : Frame) : Bool := fr.aux % 65536 == s.keyGen fr.domain

def State.answer (s : State) (link : Nat) (fr : Frame) (object status : Nat) (data : Bytes) : State :=
  s.send link msgDirAnswer fr.xid object (s.keyGen fr.domain) status data { domain := fr.domain, tenant := fr.tenant }

def State.refuseGen (s : State) (link : Nat) (fr : Frame) : State :=
  (s.note "HASH_KEY_GEN_DIFFERS" (evSource 11 fr.domain) link).answer link fr fr.object 6 []

/-- Answer a publication from another device, whose key names its holder and publisher, by the compare-and-set here. -/
def State.publishHere (s : State) (link : Nat) (fr : Frame) (k : DirKeyF) : State :=
  match s.compareAndSet k [] 0 with
  | (.created e, s) => (s.modDir e.slot fun e => { e with proxies := k.holder :: e.proxies }).answer link fr e.handle 0 (dirBytes e)
  | (.merged e, s) => (s.modDir e.slot fun e => { e with proxies := k.holder :: e.proxies }).answer link fr e.handle 1 (dirBytes e)
  | (.conflict e, s) => s.answer link fr e.handle 2 (dirBytes e)
  | (.full, s) => s.answer link fr 0 4 []
  | (.lost, s) => s.answer link fr 0 7 []
  | (.noParent, s) => s.answer link fr 0 3 []

/-- DIR_PUBLISH: the home first takes a reference at the home of a parent that it has no entry of (R48, R57, R59). Where that home cannot
be reached it cannot serve the publication: status 9, which ends the command LINK_FAULT (log entry 120). -/
def State.onDirPublish (s : State) (link : Nat) (fr : Frame) (k : DirKeyF) : State :=
  if !s.genOk fr then s.refuseGen link fr
  else
    let k := { k with domain := fr.domain, holder := fr.src, publisher := fr.tenant }
    if !s.parentAway k then s.publishHere link fr k
    else match s.linkTo (handleHome k.parent) with
      | none => s.answer link fr 0 9 []
      | some l =>
        (s.send l msgDirAttach s.ids k.parent (s.keyGen fr.domain) 0 [] { domain := fr.domain, tenant := fr.tenant }).openTxn (.asvis l)
          (.dirParent link fr.xid fr.tenant k) fr.tenant none

/-- The parent's home answers: the parent gets a proxy here and the publication goes on (R59); a parent that only the failed
publication needed is given back. -/
def State.parentAnswer (s : State) (link : Nat) (fr : Frame) (key : DirKeyF) (status handle : Nat) (parent : DirKeyF) : State :=
  if status = 6 ∨ status = 9 then s.answer link fr 0 9 []
  else if status ≠ 0 then s.answer link fr 0 3 []
  else match (if (s.entryOf handle).isSome then some s else (s.createProxy parent handle [] false 0).map Prod.snd) with
    | none => s.answer link fr 0 (if s.metaGone then 7 else 4) []
    | some s =>
      let s := s.publishHere link fr key
      match s.entryOf handle with
      | some e => if e.proxy then s.freeIdle e.slot else s
      | none => s

def State.onDirLookup (s : State) (link : Nat) (fr : Frame) (fp : BitVec 64) (pairs : List PairF) : State :=
  if !s.genOk fr then s.refuseGen link fr
  else
    let (hits, s) := s.localHits fr.domain fp 0 pairs
    match (bestHit (hits.filter fun h => handleHome h.2.2 == s.params.deviceId)).bind fun h => s.entryOf h.2.2 with
    | some e => s.answer link fr e.handle 0 (dirBytes e)
    | none => s.answer link fr 0 3 []

def State.onDirAttach (s : State) (link : Nat) (fr : Frame) : State :=
  if !s.genOk fr then s.refuseGen link fr
  else
    let s := s.loadHandle fr.object
    match s.dir.find? fun e => e.handle == fr.object && !e.proxy && e.st == .published && e.domain == fr.domain with
    | some e => (s.addProxy e.slot fr.src).answer link fr e.handle 0 (dirBytes e)
    | none => s.answer link fr fr.object 3 []

/-- The home has freed the entry of a holder proxy (R62): its pages, its slot and its count on the parent go. -/
def State.freeHolder (s : State) (e : DirEntry) : State :=
  let s := s.freeSlot e
  match s.parentOf e with
  | some p => State.releaseRef chainFuel s p.slot
  | none => s

/-- A release: at the home, a proxy's reference ends; at a holder, the home has freed the entry (R57, R62). -/
def State.onDirRelease (s : State) (link : Nat) (fr : Frame) : State :=
  if !s.genOk fr then s.refuseGen link fr else
  let s := s.loadHandle fr.object
  let s' := match s.entryOf fr.object with
    | some e =>
      if e.proxy then (if e.holderProxy then s.freeHolder e else s)
      else if e.proxies.contains fr.src then
        State.releaseRef chainFuel (s.modDir e.slot fun e => { e with proxies := e.proxies.erase fr.src }) e.slot
      else s
    | none => s
  s'.answer link fr fr.object 0 []

/-- A forwarded WITHDRAW_PREFIX at the home (R67). -/
def State.onDirWithdrawn (s : State) (link : Nat) (fr : Frame) (admin : Bool) : State :=
  if !s.genOk fr then s.refuseGen link fr
  else
  let s := s.loadHandle fr.object
  match s.withdrawable fr.object fr.domain fr.src fr.tenant admin with
    | some e => (s.withdraw e).answer link fr fr.object 0 []
    | none => s.answer link fr fr.object 3 []

/-- A withdraw notice at a device with a proxy (R70); one of another key generation is refused (R50). -/
def State.onWithdrawNotice (s : State) (link : Nat) (fr : Frame) : State :=
  if !s.genOk fr then s.refuseGen link fr else
  let s := s.loadHandle fr.object
  match s.entryOf fr.object with
  | some e =>
    if e.proxy ∧ e.st = .published ∧ handleHome e.handle = fr.src then
      (s.modDir e.slot fun e => { e with st := .withdrawn }).dropKeyRow e.slot
    else s
  | none => s

/-- The answer to a lookup at another home (R53): a status other than done and not found ends the lookup (R258). -/
def State.lookupAnswer (s : State) (r : Req) (xid : Nat) (fr : Frame) (k : DirKeyF) : State :=
  let pairs := match r.desc with
    | .lookupHash f => f.pairs
    | .lookupToken f =>
      match s.model? f.model with
      | some m =>
        let key := s.hashKey (s.domainOf r.tenant)
        tokenPairs key m.blockTokens f.tokenBlocks (if f.hasStart then f.startDepth else 0)
          (if f.hasStart then f.startHash else chainHash0 key m.fingerprint) (tokenIds r.data)
      | none => []
    | _ => []
  let better := fr.status = 0 ∧ r.found < k.depth
  let i := (pairs.findIdx? fun p => p.depth == k.depth).getD 0
  let r' := { r with waits := r.waits.filter (· != xid), found := if better then k.depth else r.found,
                     done := if better then i else r.done, handle := if better then fr.object else r.handle }
  let s := s.modReq r.id fun _ => r'
  let st := asvisStatus fr.status false
  if fr.status ≠ 0 ∧ st ≠ stPrefixNotFound then s.endWith r' st
  else if r'.waits.isEmpty then
    s.answerLookup r' pairs (if r'.found = 0 then none else some (r'.found, r'.done, r'.handle))
      (match r.desc with | .lookupToken _ => true | _ => false)
  else s

/-- Proxies of a gathered chain, the outermost parent's first (R57); `none` when the directory or the array has no room for one. -/
def State.createChain (s : State) (r : Req) : List (Nat × DirKeyF) → Option State
  | [] => some s
  | (h, k) :: rest =>
    match s.entryOf h with
    | some e =>
      if s.needsRef e then (s.modDir e.slot fun e => { e with homeRef := true }).createChain r rest
      else (s.giveBack r h).createChain r rest
    | none =>
      match s.createProxy k h [] false 0 with
      | none => none
      | some (_, s) => s.createChain r rest

/-- An ATTACH_PREFIX or PUBLISH_PREFIX asks for one more parent where its chain needs it (R56: its formats count; R46: its blocks
resolve through it), `none` where the chain is whole. -/
def State.nextParent (s : State) (k : DirKeyF) : Option Nat := s.missingParent chainFuel k.parent

/-- The answer to the attach of a remote entry (R56, R57): a proxy is made once the whole parent chain is known here, and the checks
are made with it. -/
def State.attachAnswer (s : State) (r : Req) (f : AttachPrefixF) (fr : Frame) (k : DirKeyF) : State :=
  if fr.status ≠ 0 then s.endWith r (asvisStatus fr.status false)
  else
    let chain := (fr.object, k) :: r.chain
    match s.nextParent k with
    | some h => if (s.linkTo (handleHome h)).isNone then (s.dropChain r chain).askEntry r h [] else s.askEntry r h chain
    | none =>
      match s.createChain r chain with
      | none => (s.dropChain r chain).finish r s.noPlace (faultResult s.noPlace)
      | some s =>
        let r := { r with chain := [] }
        let s := (s.modReq r.id fun x => { x with chain := [] }).beginAttachPrefix r f
        match s.entryOf f.handle with
        | some e => if e.proxy then s.freeIdle e.slot else s
        | none => s

/-- A merged publication links an entry that another home holds, once its parent chain is known here (R61, R62). -/
def State.publishLinked (s : State) (r : Req) (f : PublishF) (q : Seq) (v : Version) : State :=
  match r.chain.getLast? with
  | none => s
  | some (h, k) =>
    match s.createChain r r.chain with
    | none => s.failPublish r s.noPlace (faultResult s.noPlace)
    | some s =>
      match s.entryOf h with
      | some e => s.publishMerged r f q v e.slot h k.digest false
      | none => s.failPublish r stRefusedCapacity 0

/-- The answer to a publication homed elsewhere (R61, R62), or to the attach of a parent that it needs here. -/
def State.publishAnswer (s : State) (r : Req) (f : PublishF) (fr : Frame) (k : DirKeyF) : State :=
  match r.pin.bind s.pinned? with
  | none => s.failPublish r stHandleStale 0
  | some (q, v) =>
    let fail := fun (s : State) (n : Nat) =>
      let st := asvisStatus n false
      s.failPublish r st (faultResult st)
    let gather := fun (s : State) =>
      let r := { r with chain := (fr.object, k) :: r.chain }
      match s.nextParent k with
      | some h =>
        if (s.linkTo (handleHome h)).isNone then fail (s.giveBack r fr.object) 6
        else s.askEntry r h r.chain
      | none => s.publishLinked r f q v
    if !r.chain.isEmpty then (if fr.status = 0 then gather s else fail s fr.status)
    else match fr.status with
      | 0 =>
        match s.createProxy k fr.object [] true (sumBy (·.grains) r.pages) with
        | some (e, s) => s.publishCreated r f q v e.slot fr.object k.digest false
        | none => (s.giveBack r fr.object).failPublish r badData.1 badData.2
      | 1 =>
        match s.entryOf fr.object with
        | some e =>
          (if s.needsRef e then s.modDir e.slot fun e => { e with homeRef := true } else s.giveBack r fr.object).publishMerged r f q v e.slot
            fr.object k.digest false
        | none => gather s
      | 2 => s.publishConflict r f fr.object k.digest
      | n => fail s n

/-- DIR_ANSWER: its Asvis status becomes the waiting command's status (R258). -/
def State.onDirAnswer (s : State) (link : Nat) (fr : Frame) (k : DirKeyF) : State :=
  let s := if fr.status = 6 then s.note "HASH_KEY_GEN_DIFFERS" (evSource 11 fr.domain) link else s
  match s.txn? fr.xid with
  | none => s
  | some t =>
    let s := { s with txns := s.txns.filter fun x => x.xid != fr.xid }
    match t.kind with
    | .dirParent l xid tenant key =>
      s.parentAnswer l { fr with xid := xid, domain := key.domain, tenant := tenant, object := key.parent } key fr.status fr.object k
    | .lookup id => match s.run? id with
      | some r => s.lookupAnswer r fr.xid fr k
      | none => s
    | .attach id => match s.run? id with
      | some r => match r.desc with
        | .attachPrefix f => s.attachAnswer r f fr k
        | .publish f => s.publishAnswer r f fr k
        | _ => s
      | none => if fr.status = 0 then s.request link msgDirRelease fr.object (s.keyGen fr.domain) fr.tenant (.release fr.object) [] else s
    | .publish id => match s.req? id with
      | some r => match r.desc with
        | .publish f => s.publishAnswer r f fr k
        | _ => s
      | none => s
    | .withdraw id => match s.run? id with
      | some r => if fr.status = 0 then s.finish r stOk 0 else s.endWith r (asvisStatus fr.status false)
      | none => s
    | _ => s

/-- A member's directory service becomes unreachable (R51): its proxies here are faulted and its references dropped. -/
def State.memberLost (s : State) (dev : Nat) : State :=
  let mine := s.dir.filter fun e => e.proxy && (handleHome e.handle == dev || e.holder == dev) && e.st != .faulted
  let s := mine.foldl (fun s e => s.faultEntry e.slot) s
  let homes := s.dir.filter fun e => !e.proxy && e.proxies.contains dev
  homes.foldl (fun s e =>
    (e.proxies.filter (· == dev)).foldl (fun s d =>
      State.releaseRef chainFuel (s.modDir e.slot fun e => { e with proxies := e.proxies.erase d }) e.slot) s) s

end Sys2Proof.Machine
end

