-- ==== Sys2Proof/Machine/Walks.lean ====
section
/-! DEFINITION. Walks: the version a request is decided on (R40, R413), the cut into parts (R134), the price of ATTEND (R230,
R231), far pages and staging (R105 to R107), the pages a walk meets (R128, R143), and passes on engines (R117, R139,
R327). -/

namespace Sys2Proof.Machine

/-! ### The version a request is decided on (R40, R413) -/

/-- Block count and prefix link that an earlier change leaves. -/
def afterChange (v : Version) : Desc → Version
  | .append f => { v with blockCount := v.blockCount + f.blockCount }
  | .truncate f => { v with blockCount := min v.blockCount f.firstBlock }
  | .attachPrefix f => { v with blockCount := f.depth, prefixHandle := f.handle, prefixDepth := f.depth }
  | _ => v

/-- Earlier changes of the function to the sequence that have not committed, in order. -/
def State.changesAhead (s : State) (r : Req) (h : Nat) : List Req :=
  s.reqs.filter fun x => x.fn == r.fn && decide (x.id < r.id) && changeOf x.desc == some h

/-- The current version, with the block count that the earlier changes will leave. -/
def State.versionAhead (s : State) (r : Req) (q : Seq) : Version :=
  (s.changesAhead r q.handle).foldl (fun v x => afterChange v x.desc) q.cur

/-! ### Blocks of a version -/

/-- What the masks see of block b; a block below the prefix depth is full and of segment 0 (R30, R59). -/
def State.blockView (s : State) (q : Seq) (v : Version) (m : ModelRec) (b : Nat) : Option BlockView :=
  if v.prefixHandle ≠ 0 ∧ b < v.prefixDepth then some { first := b * m.blockTokens, valid := m.blockTokens, segment := 0 }
  else ((s.resolve q v b).bind s.rec?).map fun r => { first := r.firstToken, valid := r.valid, segment := r.segment }

/-- Last block walked plus one. -/
def attendHi (v : Version) (f : AttendF) : Nat := if f.blockHi = 0 then v.blockCount else f.blockHi

/-- Positions of a list of rows. -/
def rowPositions (m : ModelRec) (f : AttendF) (rows : List Nat) : List Nat :=
  (rows.map fun r => f.qPos + rowToken m f r).eraseDups

/-- Block b is read for some of the rows (R128). A block that an earlier change still has to append counts as read. -/
def State.readsBlock (s : State) (q : Seq) (v : Version) (m : ModelRec) (f : AttendF) (rows : List Nat) (b : Nat) : Bool :=
  match s.blockView q v m b with
  | some w => (rowPositions m f rows).any fun p => blockVisible f (globalBlock q b) w p
  | none => decide (q.cur.blockCount ≤ b) && decide (b < v.blockCount) && v.num == q.cur.num

/-- Blocks of [lo, hi) that a pass of the rows reads, in order. -/
def State.readBlocks (s : State) (q : Seq) (v : Version) (m : ModelRec) (f : AttendF) (rows : List Nat) (lo hi : Nat) : List Nat :=
  ((List.range (hi - lo)).map fun i => lo + i).filter fun b => s.readsBlock q v m f rows b

/-! ### Parts (R134) -/

/-- Boundaries inside (lo, hi): multiples of 256, the prefix depth, and the parent depths below it. -/
def State.cutPoints (s : State) (v : Version) (lo hi : Nat) : List Nat :=
  let chain := if v.prefixHandle = 0 then [] else s.chainOf chainFuel v.prefixHandle
  let parents := (chain.filterMap fun h => (s.entryOf h).map (·.parentDepth)).filter fun d => decide (d < v.prefixDepth)
  let all := ((List.range (hi / 256 + 1)).map (256 * ·)) ++ (if v.prefixHandle = 0 then [] else v.prefixDepth :: parents)
  ((all.filter fun x => decide (lo < x ∧ x < hi)).eraseDups).mergeSort fun a b => decide (a ≤ b)

/-- The pieces of [lo, hi) between boundaries. -/
def pieces : Nat → Nat → List Nat → List (Nat × Nat)
  | lo, hi, [] => if lo < hi then [(lo, hi)] else []
  | lo, hi, c :: cs => (lo, c) :: pieces c hi cs

/-- Parts of a request: a part below the prefix depth names the entry whose own blocks it covers (R145). -/
def State.partsOf (s : State) (v : Version) (f : AttendF) : List Part :=
  let hi := attendHi v f
  (pieces f.blockLo hi (s.cutPoints v f.blockLo hi)).map fun (a, b) =>
    { lo := a, hi := b,
      prefix_ := if v.prefixHandle ≠ 0 ∧ a < v.prefixDepth then
        (match s.ownerEntry chainFuel v.prefixHandle a with | some e => e.handle | none => v.prefixHandle) else 0,
      st := .alone, curd := false, due := none, rows := [] }

/-- Rows of a request, cut into passes of at most `n` (R139). -/
def cutRows (n : Nat) : Nat → List Nat → List (List Nat)
  | 0, _ => []
  | fuel + 1, l => if l.isEmpty then [] else l.take n :: cutRows n fuel (l.drop n)

/-- Blocks of a part that have a page: those held at the version, and those that an earlier change will append (R28, R413). -/
def State.partBlocks (s : State) (q : Seq) (v : Version) (lo hi : Nat) : List Nat :=
  ((List.range (hi - lo)).map fun i => lo + i).filter fun b => s.holds q v b || (v.num == q.cur.num && decide (q.cur.blockCount ≤ b))

/-- Fewest grains of a page of a part: the engine consumes no block of it sooner (R105; log entry 87). -/
def State.leastGrains (s : State) (q : Seq) (v : Version) (m : ModelRec) (layer lo hi : Nat) : Nat :=
  (s.partBlocks q v lo hi).foldl (fun n b => min n (s.pageGrains q v m layer b)) (s.worstGrains q v m lo)

/-- Largest page of a part, in grains (R139). -/
def State.partGrains (s : State) (q : Seq) (v : Version) (m : ModelRec) (layer lo hi : Nat) : Nat :=
  (s.partBlocks q v lo hi).foldl (fun n b => max n (s.pageGrains q v m layer b)) 1

/-! ### Result size (R133, R137) -/

/-- Parts in which some row sees a visible token. -/
def State.visibleParts (s : State) (q : Seq) (v : Version) (m : ModelRec) (f : AttendF) : List Part :=
  (s.partsOf v f).filter fun p => !(s.readBlocks q v m f (List.range (rowCount m f)) p.lo p.hi).isEmpty

def State.resultBytes (s : State) (q : Seq) (v : Version) (m : ModelRec) (f : AttendF) : Nat :=
  let rows := rowCount m f
  if f.multiPartial then max 1 (s.visibleParts q v m f).length * (32 + rows * partialBytes m.headDim 0)
  else rows * partialBytes m.headDim f.oFormat

/-! ### Tier summaries (R225, R229) -/

/-- Lowest tier that a list of records holds. -/
def State.lowestTier (s : State) (ids : List Nat) : Nat :=
  ids.foldl (fun n id => match s.rec? id with
    | some r => r.locs.foldl (fun n l => if l.grains = 0 then n else max n l.tier) n
    | none => n) 0

/-- Every page of an entry's own blocks lies on this device. -/
def State.copyComplete (s : State) (e : DirEntry) : Bool :=
  (List.range (e.depth - e.parentDepth)).all fun i =>
    match (e.map.find? fun x => x.1 == e.parentDepth + i).bind fun x => s.rec? x.2 with
    | some r => r.locs.all fun l => l.grains != 0
    | none => false

/-- Tier summary of an entry: a page held only by a remote holder counts as T2 (R72). -/
def State.entryTier (s : State) (e : DirEntry) : Nat :=
  let t := s.lowestTier (e.map.map Prod.snd)
  if s.heldAway e && !s.copyComplete e then max 2 t else t

/-- Far route of an entry's pages: the link to its holder, or its far pages' own. -/
def State.entryRoute (s : State) (e : DirEntry) : Option Nat :=
  if s.heldAway e then s.pageLink e.holder else s.routeOfRecs (e.map.map Prod.snd)

/-- Latency of the first far page of a tier. -/
def State.farLatency (s : State) (tier : Nat) : Nat := if tier = 3 then s.params.t3Latency else s.params.t2Latency

/-- A far route may carry class-0 pages (R244, R260): a direct Asvis link, up, whose peer opens class 0 in every cycle. -/
def State.routeForZero (s : State) (route : Nat) : Bool :=
  match routePort s route with
  | some p =>
    (match p.id with | .asvis _ => true | _ => false) && p.st == .up
      && (match p.peer with | some h => h.direct | none => false)
      && (p.peerGates.isEmpty || p.peerGates.any fun g => bit g.opened 0)
  | none => false

/-- Where a part's pages are priced: home stack, tier summary and far route (R225, R229). -/
def State.partHome (s : State) (q : Seq) (p : Part) : Nat × Nat × Option Nat :=
  if p.prefix_ = 0 then (q.homeStack, s.lowestTier q.cur.recIds, s.seqRoute q)
  else match s.entryOf p.prefix_ with
    | some e => (e.homeStack, s.entryTier e, s.entryRoute e)
    | none => (0, 0, none)

/-- Block b's page of the layer is a held page of the sequence, or one that an earlier change will append (R229, R413). -/
def State.pricedHeld (s : State) (q : Seq) (held : List (Nat × Nat)) (v : Version) (layer b : Nat) : Bool :=
  match s.resolve q v b with
  | some id => held.contains (id, layer)
  | none => decide (q.cur.blockCount ≤ b)

/-! ### Effective horizon (R105) -/

/-- H: the walk_horizon of the descriptor, or of the model where that is 0. -/
def horizonBase (q : Seq) (m : ModelRec) : Nat := if q.horizon = 0 then m.walkHorizon else q.horizon

/-- H_eff of a walk with `rows` rows whose pages take `grains` grains in format `fmt`. -/
def State.horizonOf (s : State) (q : Seq) (m : ModelRec) (f : AttendF) (rows fmt grains : Nat) (tier3 : Bool) : Nat :=
  let h := horizonBase q m
  let l := if tier3 then s.params.t3Latency else s.params.t2Latency
  let t := max 1 (blockTicks m f rows fmt (grains * grainBytes))
  min 255 (max h (cdiv l t + 1))

/-! ### The price of ATTEND (R230, R327) -/

/-- A pass to be priced. -/
structure PricedPass where
  part : Part
  rows : List Nat
  deriving DecidableEq, Repr

/-- Passes of a request in block order. -/
def State.pricedPasses (s : State) (q : Seq) (v : Version) (m : ModelRec) (f : AttendF) : List PricedPass :=
  (s.partsOf v f).flatMap fun p =>
    (cutRows (rowsMax m f (s.worstGrains q v m p.lo)) (rowCount m f) (List.range (rowCount m f))).map fun rs =>
      { part := p, rows := rs }

/-- Blocks of a list priced as far, for a part whose summary is `tier`. -/
def State.farBlocks (s : State) (q : Seq) (v : Version) (f : AttendF) (heldPages : List (Nat × Nat)) (p : Part) (tier : Nat)
    (blocks : List Nat) : Nat :=
  if tier < 2 then 0
  else (blocks.filter fun b => p.prefix_ != 0 || !s.pricedHeld q heldPages v f.layer b).length

/-- Worst-case time of the blocks of a pass (R230, step 3), without L_far. -/
def State.blocksTime (s : State) (q : Seq) (v : Version) (m : ModelRec) (f : AttendF) (p : Part) (rows nFar nNear f0 : Nat) : Nat :=
  let w := s.worstBytes q v m p.lo
  let tb := s.slowed (blockTicks m f rows (s.blockFmt q v p.lo) w)
  nNear * tb + nFar * max tb (cdiv w (max 1 f0))

/-- Price one pass: its end and its reservations; `none` where no engine, no route or no rate can carry it. -/
def State.pricePass (s : State) (r : Req) (q : Seq) (v : Version) (m : ModelRec) (f : AttendF) (held : List Resv)
    (heldPages : List (Nat × Nat)) (t0 : Nat) (x : PricedPass) : Option (Nat × List Resv) :=
  let (home, tier, route) := s.partHome q x.part
  let fmt := s.blockFmt q v x.part.lo
  let w := s.worstBytes q v m x.part.lo
  let blocks := s.readBlocks q v m f x.rows x.part.lo x.part.hi
  let nFar := s.farBlocks q v f heldPages x.part tier blocks
  let nNear := blocks.length - nFar
  let f0 := route.elim 0 s.rateFabric
  if 0 < nFar && !((route.elim false s.routeForZero) && decide (0 < f0)) then none
  else
    let d := s.blocksTime q v m f x.part x.rows.length nFar nNear f0 + (if 0 < nFar then s.farLatency tier else 0)
    match s.placePass held home t0 (d + brineTicks) with
    | none => none
    | some (l, e) =>
      let grains := s.leastGrains q v m f.layer x.part.lo x.part.hi
      let h := s.horizonOf q m f x.rows.length fmt grains (tier == 3)
      some (e + d, s.chargeLost <|
        [{ req := r.id, cal := .engine home l, lo := e, hi := e + d + brineTicks, amount := d + brineTicks, part := some x.part.lo }] ++
        (if nNear = 0 then [] else [{ req := r.id, cal := .stack home, lo := e, hi := e + d, amount := nNear * w }]) ++
        (if nFar = 0 then [] else
          [{ req := r.id, cal := .fabric (route.getD 0), lo := e, hi := e + d, amount := nFar * w },
           { req := r.id, cal := .staging, lo := e, hi := e + d, amount := h * s.partGrains q v m f.layer x.part.lo x.part.hi }]))

/-- Price the passes one after the other: latest end and reservations. -/
def State.pricePasses (s : State) (r : Req) (q : Seq) (v : Version) (m : ModelRec) (f : AttendF) (heldPages : List (Nat × Nat))
    (t0 : Nat) : List PricedPass → Nat → List Resv → Option (Nat × List Resv)
  | [], best, acc => some (best, acc)
  | x :: xs, best, acc =>
    match s.pricePass r q v m f (acc ++ s.calendar) heldPages t0 x with
    | none => none
    | some (t, rs) => s.pricePasses r q v m f heldPages t0 xs (max best t) (acc ++ rs)

/-- t_fold + t_out + 16 of R230 and R231. -/
def State.attendTail (s : State) (r : Req) (q : Seq) (v : Version) (m : ModelRec) (f : AttendF) : Nat :=
  let u0 := max 1 (s.rateUcie (s.groupOfFn r.fn))
  let fold := if f.multiPartial then 0 else mergeTicks m (rowCount m f) * ((s.partsOf v f).length - 1)
  fold + cdiv (s.resultBytes q v m f) u0 + 16

/-- The price of an ATTEND (R230): its completion and its reservations; `none` where no deadline would be accepted. -/
def State.attendPrice (s : State) (r : Req) (q : Seq) (v : Version) (m : ModelRec) (f : AttendF) : Option (Nat × List Resv) :=
  let g := s.groupOfFn r.fn
  let u0 := s.rateUcie g
  if u0 = 0 then none
  else
    let qb := rowCount m f * rowBytes m f
    let start := s.waitEnd r
    let t0 := start + max (s.hostRead g + cdiv qb u0) 160 + 47
    match s.pricePasses r q v m f (s.heldPages q) t0 (s.pricedPasses q v m f) t0 [] with
    | none => none
    | some (t, rs) =>
      let c := t + s.attendTail r q v m f
      let out := cdiv (s.resultBytes q v m f) u0 + 16
      some (c, rs ++ [{ req := r.id, cal := .ucieIn g, lo := start, hi := t0, amount := qb },
                      { req := r.id, cal := .ucieOut g, lo := c - out, hi := c, amount := s.resultBytes q v m f + 32 }])

/-- R223, point 2, for a request that names sequences: what no calendar holds is lacking. -/
def State.zeroLacks (s : State) (r : Req) (qs : List Seq) : Bool :=
  !s.monitorFree || s.slowChangeAhead r || qs.any fun q => !q.t1held

/-- A price that no deadline within the horizon would meet, or R223's points 3 to 5 on it. -/
def State.judgePrice (s : State) (deadline : Nat) : Option (Nat × List Resv) → Decision
  | none => .capacity
  | some (c, rs) => s.judge deadline c rs

/-! ### Staging and far pages (R105 to R107) -/

/-- The request is of class 0. -/
def State.isZero (s : State) (id : Nat) : Bool :=
  match s.req? id with
  | some r => r.cls == 0
  | none => false

/-- Where a page that a walk needs lies. -/
inductive PagePlace where
  | near (id : Nat)                          -- T0 or T1, under this record's locator
  | far (id : Nat) (l : Loc)                 -- T2 or T3
  | remote (e : DirEntry)                    -- only at a remote holder
  | bad (status : Nat)
  deriving DecidableEq, Repr

/-- Place of block b's page of a layer, at a version (R28, R47, R72, R267). -/
def State.placeOf (s : State) (q : Seq) (v : Version) (layer b : Nat) : PagePlace :=
  let own := fun (id : Nat) (s : State) => match (s.rec? id).bind fun r => if r.mirrorA || r.mirrorB then r.loc? layer else none with
    | none => PagePlace.bad stDataIntegrity
    | some l =>
      if l.lost || l.grains == 0 then .bad stDataIntegrity
      else match s.tierFault l with
        | some st => .bad st
        | none => if l.tier ≤ 1 then .near id else .far id l
  if v.prefixHandle ≠ 0 ∧ b < v.prefixDepth then
    match s.ownerEntry chainFuel v.prefixHandle b with
    | none => .bad stDataIntegrity
    | some e =>
      if e.st = .faulted then .bad stDataIntegrity
      else
        let id := (e.map.find? fun x => x.1 == b).map Prod.snd
        let absent := match (id.bind s.rec?).bind fun r => r.loc? layer with
          | some l => l.grains == 0 && !l.lost
          | none => true
        if s.heldAway e && absent then .remote e
        else match id with
          | some id => own id s
          | none => .bad stDataIntegrity
  else match s.resolve q v b with
    | some id => own id s
    | none => .bad stDataIntegrity

/-- Some page of the layer in [lo, hi) is in T3 (R105). -/
def State.rangeT3 (s : State) (q : Seq) (v : Version) (layer lo hi : Nat) : Bool :=
  (List.range (hi - lo)).any fun i => match s.placeOf q v layer (lo + i) with
    | .far _ l => l.tier == 3
    | .near _ => false
    | .remote _ => false
    | .bad _ => false

/-- H_eff of a walk of [lo, hi) with `rows` rows (R105). -/
def State.walkHorizon (s : State) (q : Seq) (v : Version) (m : ModelRec) (f : AttendF) (layer rows lo hi : Nat) : Nat :=
  s.horizonOf q m f rows (s.blockFmt q v lo) (s.leastGrains q v m layer lo hi) (s.rangeT3 q v layer lo hi)

/-- A part that is in a curd or will be offered to one. -/
def Part.joins (p : Part) : Bool := match p.st with
  | .waiting => true
  | .inCurd _ => true
  | _ => false

/-- Requests that walk block b's page of the layer in one curd with `r`, or may: their parts have an equal key, so one read serves them
(R145, R151; log entry 127). -/
def State.curdMates (s : State) (r : Req) (b layer : Nat) : List Nat :=
  let cross := (s.domain? (s.domainOf r.tenant)).elim false (·.crossTenant)
  match r.parts.find? fun p => p.joins && decide (p.lo ≤ b ∧ b < p.hi) with
  | none => []
  | some p => (s.reqs.filter fun x => x.id != r.id && (cross || x.tenant == r.tenant) && (match x.desc with
      | .attend g => g.layer == layer && x.parts.any fun y => y.joins && y.prefix_ == p.prefix_ && y.lo == p.lo && y.hi == p.hi
      | _ => false)).map (·.id)

/-- The staging copy of a request's page. -/
def State.copyOf? (s : State) (r : Req) (b layer : Nat) : Option StagingCopy :=
  s.staging.find? fun c => c.req == r.id && c.pin == r.pin && c.block == b && c.layer == layer

/-- The staging copy that a walk of the request reads: its own, or one of a request that shares its curd (R151). -/
def State.copyFor? (s : State) (r : Req) (b layer : Nat) : Option StagingCopy :=
  (s.copyOf? r b layer).orElse fun _ =>
    s.staging.find? fun c => c.block == b && c.layer == layer && !c.ahead && (s.curdMates r b layer).contains c.req

/-- Send the read of a far page: PAGE_GET on an Asvis link, CXL.mem reads, or an NVMe Read (R259, R268, R269). -/
def State.sendFar (s : State) (copy tenant b layer : Nat) (p : PagePlace) : State :=
  match p with
  | .far id l =>
    let h := match s.rec? id with
      | some r => ownerHdr r.ownerKind r.owner
      | none => {}
    s.pageTransfer (.farPage copy) { h with own := false, tenant := tenant } l.tier l.addr l.grains l.version none
  | .remote e =>
    match s.pageLink e.holder with
    | some k =>
      (s.send k msgPageGet s.ids e.handle (b * 2 ^ 16 + layer * 2 ^ 34) 0 [] { ownerHdr 2 e.domain with own := false, tenant := tenant }).openTxn
        (.asvis k) (.farPage copy) tenant none
    | none => s
  | _ => s

/-- A lookahead copy that a request pinned on the same version may claim (R107). -/
def StagingCopy.claims (c : StagingCopy) (r : Req) (b layer : Nat) : Bool :=
  c.ahead && c.pin == r.pin && c.block == b && c.layer == layer

/-- The far page can be asked for now: its extent table is whole, or its holder can be reached (R72, R90). -/
def State.reachable (s : State) : PagePlace → Bool
  | .far _ l => l.tier != 2 || s.tableUp 2
  | .remote e => (s.pageLink e.holder).isSome
  | .near _ => false
  | .bad _ => false

/-- A copy of the page is there or under way for the request, or for a curd that it is a member of (R151). -/
def State.asked (s : State) (r : Req) (b layer : Nat) : Bool := (s.copyFor? r b layer).isSome

/-- Request a far page of a walk, unless a copy of it is there or under way; a lookahead copy for the same pinned version is
claimed (R105 to R107, R151). A page on an extent waits while the extent table is short of a bank (R90). -/
def State.askFar (s : State) (r : Req) (q : Seq) (v : Version) (m : ModelRec) (layer b : Nat) (ahead : Bool) : State :=
  if s.asked r b layer then s
  else if s.staging.any fun c => c.claims r b layer then
    if ahead then s
    else { s with staging := mapIf (StagingCopy.claims · r b layer) (fun c => { c with req := r.id, ahead := false }) s.staging }
  else
    let p := s.placeOf q v layer b
    let n := s.pageGrains q v m layer b
    if !s.reachable p || !s.stagingFree (if ahead then 0 else r.id) n then s
    else
      let c : StagingCopy :=
        { id := s.ids, req := if ahead then 0 else r.id, pin := r.pin, blk := match p with | .far id _ => id | _ => 0, block := b,
          layer := layer, grains := n, arrived := false, retried := false, ahead := ahead, since := s.now, coded := false, digest := 0,
          data := [], handle := match p with | .remote e => e.handle | _ => 0 }
      { s.bumpId with staging := c :: s.staging }.sendFar c.id r.tenant b layer p

/-- Request the far pages of a run of blocks in block order (R105). Where staging is short the walk's horizon is lowered to the pages that
have room: no later page is asked before an earlier one, and pages left out are asked again as the walk goes on (R106; log entry
125). -/
def State.askRun (s : State) (r : Req) (q : Seq) (v : Version) (m : ModelRec) (layer : Nat) (ahead : Bool) : List Nat → State
  | [] => s
  | b :: bs =>
    let t := s.askFar r q v m layer b ahead
    if t.asked r b layer || t.staging.any (fun c => c.claims r b layer) || !s.reachable (s.placeOf q v layer b) then t.askRun r q v m layer ahead bs
    else t

/-! ### The pages a walk meets -/

/-- What a walk finds when it begins a block. -/
inductive WalkPage where
  | wait                                  -- its far page has not arrived
  | bad (status : Nat)
  | ok (raw : Bytes) (shape : PageShape) (blk : Nat)

/-- Bytes of a page fetched from a remote holder, in raw form (R171, R174). -/
def State.decodeCopy (s : State) (m : ModelRec) (e : DirEntry) (c : StagingCopy) : Except Nat Bytes :=
  if !c.coded then .ok c.data
  else match s.tableByDigest e.domain c.digest with
    | none => .error stDecodeFault
    | some t =>
      match decodePage (shapeOf m e.fmt) (coderOf t.image) t.id c.grains (relabel t.id c.data) with
      | some raw => .ok raw
      | none => .error stDecodeFault

/-- A copy whose read was issued before its extent drained: its page is used, also once the extent is revoked (R266). -/
def State.issuedCopy (s : State) (c : StagingCopy) (st : Nat) : Bool :=
  c.blk != 0 && c.failed.isNone && (st == stExtentRevoked || (c.arrived && c.loc.any fun l => l.tier == 2 && (s.extentAt l.addr).all (·.st != .active)))

/-- Content of an own page that staging holds, as it came. -/
def State.readCopy (s : State) (m : ModelRec) (tenant domain : Nat) (c : StagingCopy) : Except Nat Bytes :=
  match s.rec? c.blk, c.loc with
  | some r, some l =>
    if (r.published && r.domain != domain) || (!r.published && r.tenant != tenant) then .error stInternalFault else s.decodeStored m l c.data
  | _, _ => .error stDataIntegrity

/-- The page of block b for a walk of request r (R128, R143, R263): nothing is read where the two paths of R303 differ. -/
def State.walkPage (s : State) (r : Req) (q : Seq) (v : Version) (m : ModelRec) (layer b : Nat) : WalkPage :=
  let read := fun (id : Nat) => match s.rec? id with
    | none => WalkPage.bad stDataIntegrity
    | some x =>
      match s.readPage m q.tenant q.domain x layer with
      | .ok raw => .ok raw (shapeOf m ((x.loc? layer).elim q.fmt (·.fmt))) id
      | .error st => .bad st
  let staged := fun (id : Nat) => match s.rec? id with
    | none => WalkPage.bad stDataIntegrity
    | some x =>
      match s.readStaged m q.tenant q.domain x layer with
      | .ok raw => .ok raw (shapeOf m ((x.loc? layer).elim q.fmt (·.fmt))) id
      | .error st => .bad st
  if !s.pathsAgree r then .bad stInternalFault
  else match s.placeOf q v layer b with
  | .bad st =>
    match s.copyFor? r b layer with
    | some c =>
      if !s.issuedCopy c st then .bad st
      else if !c.arrived then .wait
      else (match s.readCopy m q.tenant q.domain c with
        | .ok raw => .ok raw (shapeOf m (c.loc.elim q.fmt (·.fmt))) c.blk
        | .error st => .bad st)
    | none => .bad st
  | .near id => read id
  | .far id _ =>
    match s.copyFor? r b layer with
    | some c => match c.failed with
      | some st => .bad st
      | none => if c.arrived then staged id else .wait
    | none => .wait
  | .remote e =>
    match s.copyFor? r b layer with
    | some c =>
      match c.failed with
      | some st => .bad st
      | none =>
      if c.arrived && s.tableHere e c then
        match s.decodeCopy m e c with
        | .ok raw => .ok raw (shapeOf m e.fmt) 0
        | .error st => .bad st
      else .wait
    | none => if (s.pageLink e.holder).isSome then .wait else .bad stLinkFault

/-- The request is a PREFETCH_HINT: its copies of remote pages are for T1, not for a walk (R108). -/
def State.isHint (s : State) (id : Nat) : Bool :=
  match s.req? id with
  | some r => (match r.desc with
    | .prefetchHint _ => true
    | _ => false)
  | none => false

/-- The read of a far page has failed for good: whoever consumes the page finds the status when its turn comes (R113, R143, R152), and a
page whose check failed is lost (R263). A copy that no request waits for goes. -/
def State.copyFails (s : State) (id st : Nat) : State :=
  match s.staging.find? fun c => c.id == id with
  | none => s
  | some c =>
    let s := if st = stDataIntegrity ∧ c.blk ≠ 0 then s.pageLost c.blk c.layer else s
    if c.req = 0 ∨ s.isHint c.req then { s with staging := s.staging.filter fun x => x.id != id }
    else { s with staging := mapIf (fun (x : StagingCopy) => x.id == id) (fun x => { x with arrived := true, failed := some st }) s.staging }

/-- A copy that its walk has consumed leaves staging (R106). -/
def State.consumeCopy (s : State) (req b layer : Nat) : State :=
  { s with staging := s.staging.filter fun c => !(c.req == req && c.block == b && c.layer == layer) }

/-- Record of block b's page on this device. -/
def State.placedRec (s : State) (q : Seq) (v : Version) (layer b : Nat) : Option Nat :=
  match s.placeOf q v layer b with
  | .near id => some id
  | .far id _ => some id
  | .remote _ => none
  | .bad _ => none

/-- What a failed read of block b's page does to the page. -/
def State.pageFailed (s : State) (r : Req) (q : Seq) (v : Version) (layer b st : Nat) (engines : List (Nat × Nat)) : State :=
  match s.placedRec q v layer b with
  | some id => s.recFailed id layer st engines
  | none =>
    let s := (((s.resolve q v b).bind s.rec?).bind fun x => x.loc? layer).elim s fun l => s.refusalEvent l st
    -- R175: a remote page decoded from staging is decoded again under its copy's number
    match s.copyFor? r b layer with
    | some c => if st = stDecodeFault ∧ c.failed.isNone then s.addRecheck c.id layer engines else s
    | none => s

/-- Staged pages of remote holders whose table has been freed or has become faulted since they came. -/
def State.tableless (s : State) : List (DirEntry × StagingCopy) :=
  (s.staging.filter fun c => c.blk == 0 && c.arrived && c.failed.isNone).filterMap fun c =>
    (s.entryOf c.handle).bind fun e => if s.tableHere e c then none else some (e, c)

/-- Their images are fetched again from the holder (R171); with no link to it the read ends LINK_FAULT. -/
def State.askTables (s : State) : State :=
  s.tableless.foldl (fun (s : State) x => if (s.pageLink x.1.holder).isSome then s.askTable x.1 x.2 else s.copyFails x.2.id stLinkFault) s

/-- The engine that decodes block b's page outside a pass. -/
def State.decoder (s : State) (q : Seq) (v : Version) (layer b : Nat) : List (Nat × Nat) :=
  (s.placedRec q v layer b).elim [] fun id => s.decoderAt id layer

/-! ### Engines (R117, R327) -/

/-- A closed curd whose passes have not begun. -/
def State.curdWaits (s : State) (c : Curd) : Bool := c.running && !(s.passes.any fun p => p.curd == some c.id)

/-- Physical slots of a cluster that run a pass. -/
def State.runEngines (s : State) (cluster : Nat) : List Nat :=
  (s.passes.filter fun p => p.cluster == cluster).flatMap (·.engines)

/-- Physical slots of a cluster that run a pass or that a closed curd has taken (R150). -/
def State.busyEngines (s : State) (cluster : Nat) : List Nat :=
  s.runEngines cluster ++ (s.curds.filter fun c => c.cluster == cluster && s.curdWaits c).flatMap (·.slots)

/-- Free active engines of a cluster, lowest logical number first. -/
def State.idleEngines (s : State) (cluster : Nat) : List (Nat × Nat) :=
  (s.activeEngines cluster).filter fun e => !(s.busyEngines cluster).contains e.2

/-- An engine takes work of an owner: it is brined first unless what it holds is of that one owner (R327). -/
def State.takeEngine (s : State) (cluster slot : Nat) (owners : List (Nat × Nat)) : State :=
  s.modEngine cluster slot fun e =>
    if e.dirty.isEmpty ∨ (e.dirty = owners ∧ owners.length = 1) then { e with dirty := owners }
    else { e with dirty := owners, brined := s.now }

/-- Engines that no pass holds are brined (R156, R327). -/
def State.brineIdle (s : State) : State :=
  { s with engines := s.engines.map fun (e : Engine) =>
      if e.dirty.isEmpty || (s.runEngines e.cluster).contains e.slot then e else { e with dirty := [], brined := s.now } }

/-- Cluster of a part: the one whose stack holds the most grains of its pages, the lower first; pages in T0 count toward
none, and a cluster without engines is passed over (R150). -/
def State.clusterOf (s : State) (q : Seq) (v : Version) (layer lo hi : Nat) : Nat :=
  let locs := (List.range (hi - lo)).filterMap fun i =>
    ((s.resolve q v (lo + i)).bind s.rec?).bind fun r => r.loc? layer
  let weight := fun (k : Nat) => sumBy (fun l => if l.tier = 1 ∧ t1Stack l.addr = k then l.grains else 0) locs
  let best := (List.range 12).foldl
    (fun b k => if (s.activeEngines k).isEmpty then b else match b with
      | some j => if weight j < weight k then some k else some j
      | none => some k) (none : Option Nat)
  best.getD 0

/-- Owner pairs of a pass: tenant of its rows and sharing domain of its pages. -/
def State.passOwners (s : State) (p : Pass) : List (Nat × Nat) :=
  ((p.rows.filterMap fun x => (s.req? x.req).map fun r => (r.tenant, s.domainOf r.tenant))).eraseDups

/-- A pass that waits for an engine. -/
def Pass.queued (p : Pass) : Bool := p.engines.isEmpty && !p.parked && !p.fin && p.curd.isNone

/-- The reservation is one of the pass: its request's, for its part (R230). -/
def Pass.owns (p : Pass) (c : Resv) : Bool := (p.rows.any fun x => x.req == c.req) && c.part == some p.lo

/-- A class-0 reservation of a request outside `reqs` covers this tick on an engine. -/
def State.reservedNow (s : State) (cluster slot : Nat) (reqs : List Nat) : Bool :=
  (s.activeEngines cluster).any fun e => e.2 == slot && s.calendar.any fun c =>
    c.cal == .engine cluster e.1 && decide (c.lo ≤ s.now) && decide (s.now < c.hi) && !reqs.contains c.req

/-- Engine for a pass: for class 0 one that its reservation names, else one that no other reservation holds now (R230); for the other
classes any that is idle (R228). -/
def State.engineFor (s : State) (p : Pass) : Option Nat :=
  let idle := s.idleEngines p.cluster
  if p.cls ≠ 0 then idle.head?.map (·.2)
  else
    let mine := idle.filter fun e => s.calendar.any fun c => p.owns c && c.cal == .engine p.cluster e.1
    let open_ := idle.filter fun e => !s.reservedNow p.cluster e.2 (p.rows.map (·.req))
    (mine ++ open_).head?.map (·.2)

/-- Put a waiting pass on a free engine of its cluster. -/
def State.placeQueued (s : State) (id : Nat) : State :=
  match s.pass? id with
  | none => s
  | some p =>
    match s.engineFor p with
    | some e => (s.takeEngine p.cluster e (s.passOwners p)).modPass id fun p => { p with engines := [e] }
    | none => s

/-- Cluster of a part that runs alone: the one whose engines its class-0 reservation holds (R150, R230), else that of its pages. -/
def State.aloneCluster (s : State) (r : Req) (q : Seq) (v : Version) (layer : Nat) (p : Part) : Nat :=
  (s.calendar.findSome? fun c => match c.cal with
    | .engine k _ => if c.req = r.id ∧ c.part = some p.lo then some k else none
    | _ => none).getD (s.clusterOf q v layer p.lo p.hi)

/-- Cut a part that runs alone into passes and queue them (R139). -/
def State.startAlone (s : State) (r : Req) (q : Seq) (v : Version) (m : ModelRec) (f : AttendF) (i : Nat) (p : Part) : State :=
  let cluster := s.aloneCluster r q v f.layer p
  let n := rowsMax m f (s.partGrains q v m f.layer p.lo p.hi)
  let s := (cutRows n (rowCount m f) (List.range (rowCount m f))).foldl (fun s rs =>
    let x : Pass := { id := s.ids, curd := none, cluster := cluster, engines := [], lo := p.lo, hi := p.hi, next := p.lo,
                      layer := f.layer, cls := r.cls, parked := false,
                      rows := rs.map fun k => { req := r.id, part := i, r := k, engine := 0, idle := false, st := .start m.headDim } }
    { s.bumpId with passes := s.passes ++ [x] }) s
  s.modReq r.id fun r => { r with parts := setAt r.parts i { p with st := .walking } }

/-- Pinned sequence, version, model and fields of an ATTEND. -/
def State.attendOf (s : State) (r : Req) : Option (Seq × Version × ModelRec × AttendF) :=
  match r.desc, r.pin.bind s.pinned? with
  | .attend f, some (q, v) => (s.model? q.model).map fun m => (q, v, m, f)
  | _, _ => none

/-- Start every part of a request that runs alone, once its query rows are here (R126). -/
def State.startParts (s : State) (r : Req) : State :=
  match s.attendOf r with
  | none => s
  | some (q, v, m, f) =>
    if r.query.isEmpty then s
    else r.parts.zipIdx.foldl (fun s (p, i) => if p.st = .alone then s.startAlone r q v m f i p else s) s

end Sys2Proof.Machine
end

