-- ==== Sys2Proof/Machine/Curds.lean ====
section
/-! DEFINITION. ATTEND from admission to its result, and curds (06, 07): the checks of R124, the Rennet's joins and closes
(R145 to R151), the walk block by block (R131, R143, R152), the end of a part and of a curd's pass (R136, R137, R153),
yield and resume (R228). -/

namespace Sys2Proof.Machine

/-! ### Admission of ATTEND (R124, R125, R142) -/

/-- Held blocks of the range a request names. -/
def State.heldIn (s : State) (q : Seq) (v : Version) (lo hi : Nat) : List Nat :=
  ((List.range (hi - lo)).map fun i => lo + i).filter fun b => s.holds q v b

/-- Steps 2 to 5 of R124 against a version, and the class of step 6. -/
def State.attendChecks (s : State) (r : Req) (q : Seq) (v : Version) (m : ModelRec) (f : AttendF) : Option Bad :=
  let fmts := ((s.heldIn q v f.blockLo (attendHi v f)).map fun b => s.blockFmt q v b).eraseDups
  if 512 < m.headDim then some (stNotOffloadable, 0)
  else if !attendFieldsOk m q.layout q.window v.blockCount f then some (stInvalidField, 0)
  else if f.resultLen < s.resultBytes q v m f then some (stInvalidField, 0)
  else if f.qRequant && !(fmts.all fun x => x == 6 || x == 8) then some (stInvalidField, 0)
  else if fmts.any fun x => precisionRank x < max (floorRank f.keyPrecision) (floorRank q.floor) then some (stPrecisionFloor, 0)
  else if !classOk r q then some (stRefusedCapacity, 0)
  else none

def State.checkAttend (s : State) (r : Req) (f : AttendF) : Option Bad :=
  match s.openSeqOf r f.seq with
  | .error b => some b
  | .ok q =>
    match s.model? q.model with
    | none => some (stInvalidField, 0)
    | some m => s.attendChecks r q (s.versionAhead r q) m f

/-- R223 for an ATTEND of class 0. -/
def State.decideAttend (s : State) (r : Req) (f : AttendF) : Decision :=
  match s.openSeqOf r f.seq with
  | .error _ => .capacity
  | .ok q =>
    match s.model? q.model with
    | none => .capacity
    | some m =>
      if s.zeroLacks r [q] then .capacity else s.judgePrice r.deadline (s.attendPrice r q (s.versionAhead r q) m f)

/-- Curds for a model are off, or the request stays out of them (R146). -/
def runsAlone (m : ModelRec) (f : AttendF) : Bool :=
  m.curdWindow == 0 || f.curdMode == 1 || decide (m.curdRows < rowCount m f)

/-- Request the far pages of the first H_eff blocks of a walk of [lo, hi) (R105). -/
def State.prefetchPart (s : State) (r : Req) (q : Seq) (v : Version) (m : ModelRec) (f : AttendF) (layer : Nat) (ahead : Bool)
    (lo hi : Nat) : State :=
  let n := rowCount m f
  let rows := min n (rowsMax m f (s.partGrains q v m layer lo hi))
  s.askRun r q v m layer ahead ((s.readBlocks q v m f (List.range n) lo hi).take (s.walkHorizon q v m f layer rows lo hi))

/-- An accepted ATTEND pins its version, is cut into parts, and its far pages are requested (R38, R105, R107, R134, R231). -/
def State.beginAttend (s : State) (r : Req) (f : AttendF) : State :=
  match s.openSeqOf r f.seq with
  | .error (st, res) => s.finish r st res
  | .ok q =>
    match s.model? q.model with
    | none => s.finish r stInvalidField 0
    | some m =>
      let v := q.cur
      let tail := s.attendTail r q v m f
      let ps := (s.partsOf v f).map fun p =>
        if p.prefix_ = 0 then p
        else { p with st := if runsAlone m f then .alone else .waiting, due := if r.cls = 0 then some (r.deadline - tail) else none }
      let s := (s.pinCurrent r.id q).modReq r.id fun r => { r with phase := .started, parts := ps }
      let r := (s.req? r.id).getD r
      let s := ps.foldl (fun s p => s.prefetchPart r q v m f f.layer false p.lo p.hi) s
      (List.range m.lookahead).foldl (fun s i =>
        let l := f.layer + 1 + i
        if l < m.layers then s.prefetchPart r q v m f l true f.blockLo (attendHi v f) else s) s

/-! ### The result (R132, R133, R136, R137) -/

/-- The whole result of a request whose parts are done: bytes, part count and the nonfinite flag. -/
def State.attendResult (s : State) (r : Req) (q : Seq) (v : Version) (m : ModelRec) (f : AttendF) : Bytes × Nat × Bool :=
  let n := rowCount m f
  if f.multiPartial then
    let vis := r.parts.filter fun p => !(s.readBlocks q v m f (List.range n) p.lo p.hi).isEmpty
    let recs := vis.zipIdx.flatMap fun (p, i) =>
      partHeader p.lo p.hi i vis.length n (p.prefix_ != 0) ++ p.rows.flatMap fun x => x.bytes 0
    if vis.isEmpty then
      (partHeader f.blockLo (attendHi v f) 0 1 n (v.prefixHandle != 0 && decide (attendHi v f ≤ v.prefixDepth)) ++
        (List.range n).flatMap fun _ => (RowState.start m.headDim).bytes 0, 1, false)
    else (recs, vis.length, vis.any fun p => p.rows.any (·.isNan))
  else
    let rows := (List.range n).map fun k =>
      (lseFold (r.parts.map fun p => p.rows.getD k (.start m.headDim))).getD (.start m.headDim)
    (rows.flatMap fun x => x.bytes f.oFormat, 0, rows.any (·.isNan))

/-- Every part is done: the parts are folded and the result written; the request completes OK once it is (R17, R189). -/
def State.completeAttend (s : State) (r : Req) : State :=
  match s.attendOf r with
  | none => s
  | some (q, v, m, f) =>
    if r.phase ≠ .writing ∧ !r.stops ∧ r.parts.all fun p => p.st == .done then
      let (data, count, nonfin) := s.attendResult r q v m f
      s.answerWith r f.result data stOk (resParts count) { nonfinite := nonfin, curd := r.parts.any (·.curd) }
    else s

/-! ### Curd keys and projections (R145, R149, R151) -/

/-- The members of a curd that have not ended: their parts are in it (R155). -/
def State.liveMembers (s : State) (c : Curd) : List Member :=
  c.members.filter fun x => match s.req? x.req with
    | some r => (r.parts[x.part]?).elim false fun p => p.st == .inCurd c.id
    | none => false

/-- R154, R148: best class among the members. A running pass keeps the class it began with (log entry 88). -/
def State.curdClass (s : State) (c : Curd) : Nat :=
  (s.liveMembers c).foldl (fun n x => match s.req? x.req with
    | some r => min n r.cls
    | none => n) 7

/-- The dealing of R151: whole members, in order, to `e` engines; each engine's members. `cap` is ⌈R / e⌉. -/
def dealMembers (cap : Nat) : Nat → List Member → List Member → Nat → List (List Member)
  | _, [], acc, _ => if acc.isEmpty then [] else [acc.reverse]
  | left, x :: xs, acc, load =>
    if !acc.isEmpty && decide (0 < left) && (decide (cap < load + x.rows) || decide (xs.length + 1 ≤ left)) then
      acc.reverse :: dealMembers cap (left - 1) xs [x] x.rows
    else dealMembers cap left xs (x :: acc) (load + x.rows)

/-- Rows of the engines of a curd: for each engine the (member, row) pairs in order. -/
def curdDeal (ms : List Member) (e : Nat) : List (List (Member × Nat)) :=
  (dealMembers (cdiv (sumBy (·.rows) ms) (max 1 e)) (e - 1) ms [] 0).map fun l =>
    l.flatMap fun x => (List.range x.rows).map fun k => (x, k)

/-- Passes of a curd: pass p takes the p-th piece of every engine (R151). -/
def curdPasses (ms : List Member) (e n : Nat) : List (List (List (Member × Nat))) :=
  let per := (curdDeal ms e).map fun l => (List.range (cdiv l.length n)).map fun i => (l.drop (i * n)).take n
  let count := per.foldl (fun c l => max c l.length) 0
  (List.range count).map fun p => per.map fun l => l.getD p []

/-- What the first member of a curd that has not ended gives for its times. -/
def State.curdBase (s : State) (ms : List Member) : Option (Seq × Version × ModelRec × AttendF) :=
  ms.findSome? fun x => (s.req? x.req).bind fun r => s.attendOf r

/-- Block b is read for some of the rows of a pass. -/
def State.curdReads (s : State) (rows : List (Member × Nat)) (b : Nat) : Bool :=
  ((rows.map fun x => x.1.req).eraseDups).any fun id =>
    match (s.req? id).bind s.attendOf with
    | some (q, v, m, f) => s.readsBlock q v m f ((rows.filter fun x => x.1.req == id).map (·.2)) b
    | none => false

/-- t_curd of R149 over e engines, from block `from_` on. -/
def State.curdTicks (s : State) (key : CurdKey) (ms : List Member) (e : Nat) : Nat :=
  match s.curdBase ms with
  | none => 0
  | some (q, v, m, f) =>
    let w := s.worstBytes q v m key.lo
    let fmt := s.blockFmt q v key.lo
    let n := rowsMax m f (s.partGrains q v m key.layer key.lo key.hi)
    sumBy (fun pass =>
      let t := pass.foldl (fun t rows => max t (if rows.isEmpty then 0 else s.slowed (blockTicks m f rows.length fmt w))) 0
      let blocks := (List.range (key.hi - key.lo)).filter fun i => s.curdReads pass.flatten (key.lo + i)
      blocks.length * t) (curdPasses ms e n)

/-- Engines of a cluster free of class-0 reservations of requests outside the curd from `lo` to `hi` (R149, R154). -/
def State.unreserved (s : State) (cluster lo hi : Nat) (ms : List Member) : List (Nat × Nat) :=
  (s.activeEngines cluster).filter fun e => !(s.calendar.any fun c =>
    c.cal == .engine cluster e.1 && decide (lo < c.hi) && decide (c.lo < hi) && !(ms.any fun x => x.req == c.req))

/-- First tick of the projected pass of a curd whose latest join is at `last` (R149). -/
def State.curdStart (s : State) (last : Nat) : Nat := max s.now (last + 128)

/-- The projected end E of a curd over e engines whose latest join is at `last` (R149). -/
def State.curdEnd (s : State) (key : CurdKey) (ms : List Member) (last e : Nat) : Nat :=
  s.curdStart last + s.curdTicks key ms e

/-- R149's conditions over e engines of a cluster for members whose latest join is at `last`. -/
def State.curdFits (s : State) (key : CurdKey) (ms : List Member) (cluster last e : Nat) : Bool :=
  let t := s.curdEnd key ms last e
  decide (e ≤ (s.unreserved cluster (s.curdStart last) t ms).length) && ms.all fun x => match x.due with
    | some d => decide (t ≤ d)
    | none => true

/-- Cluster that R150 chooses for a curd now. -/
def State.curdCluster (s : State) (key : CurdKey) (ms : List Member) : Nat :=
  match s.curdBase ms with
  | some (q, v, _, _) => s.clusterOf q v key.layer key.lo key.hi
  | none => 0

/-- The fewest engines for which R149 holds. -/
def State.curdEngines (s : State) (key : CurdKey) (m : ModelRec) (ms : List Member) (last : Nat) : Option Nat :=
  let k := s.curdCluster key ms
  ((List.range (min m.curdEngines ms.length)).map (· + 1)).find? fun e => s.curdFits key ms k last e

/-- The largest number of engines of a cluster that is free to the curd; one where none is (R150). -/
def State.curdMost (s : State) (key : CurdKey) (m : ModelRec) (ms : List Member) (cluster last : Nat) : Nat :=
  (((List.range (min m.curdEngines ms.length)).map (· + 1)).reverse.find? fun e =>
    decide (e ≤ (s.unreserved cluster (s.curdStart last) (s.curdEnd key ms last e) ms).length)).getD 1

/-- R149: the part may join. -/
def State.mayJoin (s : State) (m : ModelRec) (c : Curd) (x : Member) : Bool :=
  let ms := c.members ++ [x]
  decide (sumBy (·.rows) ms ≤ m.curdRows) && decide (ms.length ≤ m.curdMembers) && (s.curdEngines c.key m ms s.now).isSome

/-! ### Closing (R148, R150) -/

/-- A part leaves the Rennet and runs alone on its own reservation. -/
def State.goAlone (s : State) (x : Member) : State :=
  let s := s.modReq x.req fun r =>
    { r with parts := r.parts.zipIdx.map fun (p, i) => if i = x.part then { p with st := .alone } else p }
  match s.req? x.req with
  | some r => s.startParts r
  | none => s

/-- Engine time that a member's own reservation holds on a cluster for the part of a curd, without its brines (R154, R230). -/
def State.memberTime (s : State) (cluster lo : Nat) (x : Member) : Nat :=
  sumBy (fun c => match c.cal with
    | .engine k _ => if k = cluster ∧ c.req = x.req ∧ c.part = some lo then c.amount - brineTicks else 0
    | _ => 0) s.calendar

/-- Engine time that the class-0 members' own reservations hold on a cluster for the part of a curd: the longest of them (R154). -/
def State.chargedTime (s : State) (cluster lo : Nat) (ms : List Member) : Nat :=
  (ms.filter (·.due.isSome)).foldl (fun n x => max n (s.memberTime cluster lo x)) 0

/-- The engines that a closing curd takes: of those free to it, those that no pass runs on and no curd holds come first. -/
def State.curdTakes (s : State) (key : CurdKey) (ms : List Member) (cluster last e : Nat) : List (Nat × Nat) :=
  let free := s.unreserved cluster (s.curdStart last) (s.curdEnd key ms last e) ms
  let others := (s.activeEngines cluster).filter fun x => !free.contains x
  let busy := s.busyEngines cluster
  ((free.filter fun x => !busy.contains x.2) ++ (free.filter fun x => busy.contains x.2) ++ others).take e

/-- Time of a class-0 curd's pass beyond its class-0 members' reservations is booked on its engines until the curd ends (R154). -/
def State.bookCurd (s : State) (c : Nat) (key : CurdKey) (ms : List Member) (cluster last e : Nat) (taken : List (Nat × Nat)) : State :=
  let hi := s.curdEnd key ms last e
  let lo := s.curdStart last + s.chargedTime cluster key.lo ms
  if !(ms.any (·.due.isSome)) || decide (hi ≤ lo) then s
  else { s with calendar := (taken.map fun (x : Nat × Nat) => { req := c, cal := .engine cluster x.1, lo := lo, hi := hi, amount := hi - lo }) ++ s.calendar }

/-- Count a curd of two or more members (R158). DESIGN CHOICE (log entry 134): its members join one running total of their model. -/
def Telemetry.addCurd (t : Telemetry) (model members : Nat) : Telemetry :=
  let add := fun (l : List (Nat × Nat)) (n : Nat) =>
    if l.any (fun x => x.1 == model) then mapIf (fun x => x.1 == model) (fun x => (x.1, x.2 + n)) l else (model, n) :: l
  { t with curdsFormed := add t.curdsFormed 1, curdMembers := add t.curdMembers members }

/-- A curd closes with these members over `e` engines of a cluster. -/
def State.runCurd (s : State) (c : Curd) (ms : List Member) (cluster e : Nat) : State :=
  let taken := s.curdTakes c.key ms cluster c.lastJoin e
  ({ s with telemetry := s.telemetry.addCurd c.model ms.length }.bookCurd c.id c.key ms cluster c.lastJoin e taken).modCurd c.id fun x =>
    { x with members := ms, running := true, closing := false, cluster := cluster, engines := e, slots := taken.map Prod.snd }

/-- A curd is gone, with the calendar time booked for it. -/
def State.dropCurd (s : State) (c : Nat) : State :=
  { s with curds := s.curds.filter (fun x => x.id != c), calendar := s.calendar.filter fun x => x.req != c }

/-- Close an open curd (R150): one member runs alone; a class-0 member that would be late is taken out. -/
def State.closeCurd (s : State) (c : Curd) : State :=
  match s.curdBase c.members with
  | none => s.dropCurd c.id
  | some (_, _, m, _) =>
    match c.members with
    | [x] => (s.dropCurd c.id).goAlone x
    | ms =>
      let k := s.curdCluster c.key ms
      match s.curdEngines c.key m ms c.lastJoin with
      | some e => s.runCurd c ms k e
      | none =>
        let e := s.curdMost c.key m ms k c.lastJoin
        let t := s.curdEnd c.key ms c.lastJoin e
        let late := ms.filter fun x => match x.due with
          | some d => decide (d < t)
          | none => false
        let ms' := ms.filter fun x => !late.contains x
        if 2 ≤ ms'.length then late.foldl (fun s x => s.goAlone x) (s.runCurd c ms' k (min e ms'.length))
        else ms.foldl (fun s x => s.goAlone x) (s.dropCurd c.id)

/-! ### Dispatch to engines -/

/-- Rows of a pass of a running curd; those of members that have left are idle (R155). -/
def curdRows (dim : Nat) (live : List Member) (pass : List (List (Member × Nat))) : List PassRow :=
  pass.zipIdx.flatMap fun (rows, i) => rows.map fun (x, k) =>
    { req := x.req, part := x.part, r := k, engine := i, idle := !live.contains x, st := .start dim }

/-- Engines that a closed curd holds and may start on now: the ones it took, or, in place of any that left service, others that are idle
and that no request outside the curd has reserved (R149, R154). -/
def State.curdSlots (s : State) (c : Curd) : List Nat :=
  let up := (s.activeEngines c.cluster).map (·.2)
  let mine := c.slots.filter fun k => up.contains k
  let free := (s.unreserved c.cluster s.now (s.now + s.curdTicks c.key c.members c.engines) c.members).map (·.2)
  (mine ++ (((s.idleEngines c.cluster).map (·.2)).filter fun k => !mine.contains k && free.contains k)).take (min c.engines up.length)

/-- A member's part runs in a curd of two or more (R158). -/
def State.markCurd (s : State) (x : Member) : State :=
  s.modReq x.req fun r => { r with parts := r.parts.zipIdx.map fun (p, i) => if i = x.part then { p with curd := true } else p }

/-- Begin the passes of a closed curd: the query rows of the members that are left are here and its engines run no other pass. A
curd that every member has left is dropped. Its passes keep the class of the best member at this moment, whoever leaves later
(DESIGN CHOICE, log entry 88). -/
def State.beginCurd (s : State) (c : Curd) : State :=
  let live := s.liveMembers c
  match s.curdBase live with
  | none => s.dropCurd c.id
  | some (q, v, m, f) =>
    let here := live.all fun x => match s.req? x.req with
      | some r => !r.query.isEmpty
      | none => false
    let slots := s.curdSlots c
    let e := min c.engines (s.activeEngines c.cluster).length
    if !here || e == 0 || decide (slots.length < e) || slots.any (fun k => (s.runEngines c.cluster).contains k) then s
    else
      let n := rowsMax m f (s.partGrains q v m c.key.layer c.key.lo c.key.hi)
      let cls := s.curdClass c
      let s := (curdPasses c.members e n).foldl (fun s pass =>
        let x : Pass := { id := s.ids, curd := some c.id, cluster := c.cluster, engines := slots, lo := c.key.lo, hi := c.key.hi,
                          next := c.key.lo, layer := c.key.layer, cls := cls, parked := false, rows := curdRows m.headDim live pass }
        { s.bumpId with passes := s.passes ++ [x] }) s
      let s := live.foldl (fun s x => s.markCurd x) s
      let owners := (live.map fun x => (x.tenant, s.domainOf x.tenant)).eraseDups
      slots.foldl (fun s k => s.takeEngine c.cluster k owners) s

/-- Give engines to waiting curds and passes: better classes first, curds before lone passes of a class; then brine every
engine that stays idle (R327). -/
def State.placeWork (s : State) : State :=
  let s := (List.range 8).foldl (fun s k =>
    let s := (s.curds.filter fun c => s.curdWaits c && s.curdClass c == k).foldl (fun s c => s.beginCurd c) s
    (s.passes.filter fun p => p.queued && p.cls == k).foldl (fun s p => s.placeQueued p.id) s) s
  s.brineIdle

/-- The tick's close decision, once every join of the tick has been applied: the curds that it closes (R148; log entry 89). -/
def State.closeDue (s : State) : State :=
  (s.curds.filter fun c => c.closing && !c.running).foldl (fun s c => s.closeCurd c) s

/-- Give out the engines. -/
def State.dispatch (s : State) : State := s.placeWork

/-! ### Endings (R143, R155) -/

/-- Set the state of one part. -/
def State.setPart (s : State) (id i : Nat) (st : PartSt) : State :=
  s.modReq id fun r => { r with parts := r.parts.zipIdx.map fun (p, j) => if j = i then { p with st := st } else p }

/-- Take a member out of an open curd; an empty curd disappears. -/
def State.leaveCurd (s : State) (id part : Nat) : State :=
  let cs := s.curds.map fun (c : Curd) =>
    if c.running then c else { c with members := c.members.filter fun x => !(x.req == id && x.part == part) }
  { s with curds := cs.filter fun c => !c.members.isEmpty }

/-- A part that no engine runs ends at once; the part of a member whose curd waits for its pass leaves it (R143, R155). -/
def State.settlePart (s : State) (id i : Nat) (st : PartSt) : State :=
  match st with
  | .alone => s.setPart id i .ended
  | .waiting => s.setPart id i .ended
  | .inCurd c =>
    if s.passes.any fun x => x.curd == some c then s else (s.leaveCurd id i).setPart id i .ended
  | .walking => if s.passes.any fun x => x.rows.any fun y => y.req == id && y.part == i then s else s.setPart id i .ended
  | .done => s
  | .ended => s

/-- A request that has been marked to end: parts no engine runs end now. Its record follows at the end of the tick in which its last part
ends, and no byte of the result is written (R143). -/
def State.settleAttend (s : State) (id : Nat) : State :=
  match s.req? id with
  | none => s
  | some r =>
    if r.ended.isNone then s
    else
      let s := { s with passes := s.passes.filter fun p =>
        !(p.curd.isNone && (p.engines.isEmpty) && p.rows.any fun x => x.req == id) }
      r.parts.zipIdx.foldl (fun s (p, i) => s.settlePart id i p.st) s

/-- The state of a row whose partition is zeroed (R156). -/
def RowState.scrubbed (r : RowState) : RowState := { m := 0, l := 0, o := r.o.map fun _ => 0 }

/-- Requests of a curd's members that belong to removed tenants. -/
def Curd.reqsOf (c : Curd) (tenants : List Nat) : List Nat := (c.members.filter fun x => tenants.contains x.tenant).map (·.req)

/-- The rows of a curd's passes that belong to requests which have ended go idle (R155); every row of a removed tenant is zeroed
(R156). -/
def State.idleRows (s : State) (c : Nat) (gone revoked : List Nat) : State :=
  let idle := fun (y : PassRow) => { y with idle := y.idle || gone.contains y.req, st := if revoked.contains y.req then y.st.scrubbed else y.st }
  { s with passes := mapIf (fun (x : Pass) => x.curd == some c) (fun x => { x with rows := x.rows.map idle }) s.passes }

/-- The member scrub of R156: the removed tenants own nothing more on the engines of a curd. -/
def State.scrubMembers (s : State) (p : Pass) (tenants : List Nat) : State :=
  p.engines.foldl (fun s k => s.modEngine p.cluster k fun e => { e with dirty := e.dirty.filter fun o => !tenants.contains o.1 }) s

/-- A curd has had members of more than one tenant. -/
def Curd.mixed (c : Curd) : Bool := decide (1 < (c.members.map (·.tenant)).eraseDups.length)

/-- The engines of a curd with members of more than one tenant are brined at its end, in their calendar time (R156). -/
def State.bookBrine (s : State) (p : Pass) : State :=
  let mine := fun (e : Engine) => e.cluster == p.cluster && p.engines.contains e.slot
  let ls := s.engines.filterMap fun e => match e.st with
    | .active l => if mine e then some l else none
    | _ => none
  { s with
    engines := mapIf mine (fun e => { e with dirty := [], brined := s.now }) s.engines
    calendar := (ls.map fun l => { req := 0, cal := .engine p.cluster l, lo := s.now, hi := s.now + brineTicks, amount := brineTicks }) ++
      s.calendar.filter fun x => x.req != 0 || decide (s.now < x.hi) }

/-- A curd ends, with its passes: its engines are released, to a brine where members of several tenants ran (R153, R156). -/
def State.endCurd (s : State) (c : Nat) : State :=
  let s := if (s.curd? c).any (·.mixed) then (s.passes.find? fun p => p.curd == some c).elim s s.bookBrine else s
  { s with passes := s.passes.filter fun p => p.curd != some c }.dropCurd c

/-- A curd whose every row is idle ends with its passes. -/
def State.dropIdle (s : State) (c : Nat) : State :=
  if s.passes.all fun x => x.curd != some c || x.rows.all (·.idle) then s.endCurd c else s

/-- The passes that end together with a pass: itself, or every pass of its curd. -/
def State.passGroup (s : State) (p : Pass) : List Pass :=
  match p.curd with
  | none => [p]
  | some c => s.passes.filter fun x => x.curd == some c

/-- At a page boundary: rows of requests that are to end leave their pass; a pass without rows ends, and a curd whose rows
are all idle releases its engines (R143, R155, R156). -/
def State.pageBoundary (s : State) (id : Nat) : State :=
  match s.pass? id with
  | none => s
  | some p =>
    let rows := ((s.passGroup p).flatMap (·.rows)).filter (!·.idle)
    let gone := ((rows.map (·.req)).eraseDups).filter fun k => match s.req? k with
      | some r => r.ended.isSome
      | none => true
    if gone.isEmpty then s
    else
      let revoked := (gone.filterMap s.req?).filter fun r => r.ended == some stTenantRevoked
      let s := match p.curd with
        | none => { s with passes := s.passes.filter fun x => x.id != id }
        | some c =>
          let tenants := revoked.map (·.tenant)
          let s := s.idleRows c gone ((s.curd? c).elim [] fun x => x.reqsOf tenants)
          (((rows.filter fun y => gone.contains y.req).foldl (fun (s : State) (y : PassRow) => s.setPart y.req y.part .ended) s).scrubMembers p
            tenants).dropIdle c
      (gone.foldl (fun (s : State) k => s.settleAttend k) s).dispatch

/-- End a request with a status: an ATTEND at its next page boundaries (R143). -/
def State.endAttend (s : State) (id status block layer : Nat) : State :=
  ((s.markEnd id status block layer).settleAttend id).dispatch

/-! ### The walk (R131, R152, R226) -/

/-- Some row of the pass reads block b. -/
def State.passReads (s : State) (p : Pass) (b : Nat) : Bool :=
  ((p.rows.map (·.req)).eraseDups).any fun id =>
    match (s.req? id).bind s.attendOf with
    | some (q, v, m, f) =>
      s.readsBlock q v m f ((p.rows.filter fun x => x.req == id && !x.idle).map (·.r)) b
    | none => false

/-- The next block that a pass reads. -/
def State.nextBlock (s : State) (p : Pass) : Option Nat :=
  ((List.range (p.hi - p.next)).map fun i => p.next + i).find? fun b => s.passReads p b

/-- The pass has walked its part's last block (R117). -/
def State.passEnded (s : State) (p : Pass) : Bool := p.fin || (!p.engines.isEmpty && !p.parked && (s.nextBlock p).isNone)

/-- The pass may run now: it is on engines and has not ended, and an earlier pass of its curd does not come first (R151). -/
def State.passRuns (s : State) (p : Pass) : Bool :=
  !p.engines.isEmpty && !p.parked && !p.fin &&
    !(s.passes.any fun x => x.curd.isSome && x.curd == p.curd && decide (x.id < p.id) && !s.passEnded x)

/-- Requests of a pass that consume block b (R152). -/
def State.consumers (s : State) (p : Pass) (b : Nat) : List Req :=
  (((p.rows.filter fun x => !x.idle).map (·.req)).eraseDups).filterMap fun id =>
    match s.req? id with
    | some r => match s.attendOf r with
      | some (q, v, m, f) =>
        if s.readsBlock q v m f ((p.rows.filter fun x => x.req == id && !x.idle).map (·.r)) b then some r else none
      | none => none
    | none => none

/-- Entries faulted by a page that a running pass has met: the pass reads their other blocks on for the members that skip that page, as
they were (R19, R152; log entry 127). -/
def State.sparing (s : State) (p : Pass) (b : Nat) : State :=
  if !p.spared then s
  else match (s.reqs.find? fun r => p.rows.any fun x => !x.idle && x.req == r.id).bind s.attendOf with
    | some (_, v, _, _) => (match s.ownerEntry chainFuel v.prefixHandle b with
      | some e => if e.st = .faulted then s.modDir e.slot fun e => { e with st := .published } else s
      | none => s)
    | none => s

/-- What the pass finds for block b: the first consumer's page that has arrived, else a fault, else a wait. -/
def State.passPage (s : State) (p : Pass) (b : Nat) : List Req → WalkPage
  | [] => .wait
  | r :: rs =>
    match s.attendOf r with
    | none => s.passPage p b rs
    | some (q, v, m, _) =>
      match s.walkPage r q v m p.layer b with
      | .ok raw sh blk => .ok raw sh blk
      | .bad st => (match s.passPage p b rs with | .ok raw sh blk => .ok raw sh blk | _ => .bad st)
      | .wait => (match s.passPage p b rs with | .wait => .wait | x => x)

/-- Update the rows of a pass by block b's page. -/
def State.updateRows (s : State) (p : Pass) (b : Nat) (raw : Bytes) (sh : PageShape) : List PassRow :=
  p.rows.map fun x =>
    if x.idle then x
    else match (s.req? x.req).bind fun r => (s.attendOf r).map fun a => (r, a) with
      | none => x
      | some (r, q, v, m, f) =>
        match s.blockView q v m b with
        | some w => { x with st := rowStep m f sh raw (globalBlock q b) w r.query x.r x.st }
        | none => x

/-- Late progress of R226: a class-0 request whose projected completion passes its deadline is rescinded. -/
def State.lateProgress (s : State) (p : Pass) (r : Req) : State :=
  if r.cls ≠ 0 then s
  else match s.attendOf r with
    | none => s
    | some (q, v, m, f) =>
      let rows := (p.rows.filter fun x => x.engine == (p.rows.find? (fun y => y.req == r.id)).elim 0 (·.engine)).length
      let blocks := ((List.range (p.hi - p.next)).map fun i => p.next + i).filter fun b => s.passReads p b
      let part : Part := { lo := p.lo, hi := p.hi, prefix_ := (r.parts.find? fun x => x.lo == p.lo).elim 0 (·.prefix_), st := .walking,
                           curd := false, due := none, rows := [] }
      let (_, tier, route) := s.partHome q part
      let nFar := s.farBlocks q v f (s.heldPages q) part tier blocks
      let t := s.now + s.blocksTime q v m f part rows nFar (blocks.length - nFar) (route.elim 0 s.rateFabric)
      if r.deadline < t + s.attendTail r q v m f then s.markEnd r.id stRescinded noBlock noLayer else s

/-- A pass that has walked its last block ends: a lone pass leaves its engine to other work (R117, R139). -/
def State.endWalked (s : State) (id : Nat) : State :=
  match s.pass? id with
  | none => s
  | some p =>
    if p.fin || !s.passEnded p then s
    else if p.curd.isSome then s.modPass id fun p => { p with fin := true }
    else (s.modPass id fun p => { p with fin := true, engines := [] }).dispatch

/-- Pages of the blocks after b that lie within the walk's horizon are requested, in block order; those that staging had no room
for are asked again (R105, R106). -/
def State.askAhead (s : State) (p : Pass) (b : Nat) (r : Req) : State :=
  match s.attendOf r with
  | none => s
  | some (q, v, m, f) =>
    let h := s.walkHorizon q v m f p.layer p.rows.length p.lo p.hi
    s.askRun r q v m p.layer false (((List.range h).map fun i => b + 1 + i).filter fun x => decide (x < p.hi) && s.passReads p x)

/-- A page of block b cannot be used: every request that consumes it, with rows of this pass or of another pass of its curd, is marked to
end; the curd goes on for the others (R19, R143, R152). -/
def State.pageBad (s : State) (p : Pass) (b status : Nat) : State :=
  let s := ((s.passGroup p).flatMap fun x => s.consumers x b).foldl (fun s r => s.markEnd r.id status b p.layer) s
  ({ s with passes := mapIf (fun (x : Pass) => p.curd.isSome && x.curd == p.curd) (fun x => { x with spared := true }) s.passes } : State).pageBoundary p.id

/-- Bytes of a page feed: the page's stored length (R21, R236). -/
def State.feedBytes (s : State) (rs : List Req) (b layer blk raw : Nat) : Nat :=
  if blk ≠ 0 then (((s.rec? blk).bind fun r => r.loc? layer).bind fun l => s.page? l.tier l.addr).elim raw fun p => p.data.length
  else (rs.findSome? fun r => s.copyFor? r b layer).elim raw fun c => c.data.length

/-- The walk has met block b's page. -/
def State.walkOk (s : State) (p : Pass) (b : Nat) (rs : List Req) (raw : Bytes) (sh : PageShape) (blk : Nat) : State :=
  let inc := match p.curd with
    | some c => (s.curd? c).elim 1 fun c => min 8 c.members.length
    | none => 1
  let rows := s.updateRows p b raw sh
  let s := s.modPass p.id fun p => { p with next := b + 1, rows := rows }
  let s := s.enqueue (124 + p.cluster) (rs.head?.elim defaultFn (·.fn)) p.cls (s.feedBytes rs b p.layer blk raw.length)
  let mates := (p.curd.bind s.curd?).elim [] fun c => c.members.map (·.req)
  let s := (rs.map (·.id) ++ mates).foldl (fun s id => s.consumeCopy id b p.layer) s
  let s := s.ripen blk p.layer inc
  let s := rs.head?.elim s fun r => s.askAhead p b r
  let s := (((p.rows.map (·.req)).eraseDups).filterMap s.req?).foldl (fun s r => match s.pass? p.id with
    | some p => s.lateProgress p r
    | none => s) s
  (s.pageBoundary p.id).endWalked p.id

/-- The page of block b has failed: it leaves use as its failure says, and its consumers end. -/
def State.walkBad (s : State) (p : Pass) (b : Nat) (rs : List Req) (st : Nat) : State :=
  let s := match rs.head?.bind fun r => (s.attendOf r).map fun a => (r, a) with
    | some (r, q, v, _, _) => s.pageFailed r q v p.layer b st (p.engines.map fun e => (p.cluster, e))
    | none => s
  ((s.pageBad p b st).modPass p.id fun p => { p with next := b + 1 }).endWalked p.id

/-- WALK_BLOCK: a page boundary, the next block's page for every row that sees it, and the next boundary. -/
def State.walkBlock (s : State) (id : Nat) : State :=
  let s := s.pageBoundary id
  match s.pass? id with
  | none => s
  | some p =>
    if !s.passRuns p then s
    else match s.nextBlock p with
      | none => s.endWalked id
      | some b =>
        let rs := s.consumers p b
        let s := rs.foldl (fun s r => (s.attendOf r).elim s fun a => s.loadBlock a.1 a.2.1 b) s
        match (s.sparing p b).passPage p b rs with
        | .wait =>
          match rs.head?.bind fun r => (s.attendOf r).map fun a => (r, a) with
          | some (r, q, v, m, _) => { (s.sparing p b).askFar r q v m p.layer b false with dir := s.dir }
          | none => s
        | .ok raw sh blk => s.walkOk p b rs raw sh blk
        | .bad st => s.walkBad p b rs st

/-- QUERY_BLOCK_ARRIVAL: the query rows arrive and every pass that has an engine begins; a failed read ends the request. -/
def State.queryArrives (s : State) (r : Req) (ok : Bool) (data : Bytes) : State :=
  match s.attendOf r with
  | none => s
  | some (_, _, m, f) =>
    if r.phase ≠ .started || !r.query.isEmpty then s
    else if !ok then s.endAttend r.id stLinkFault noBlock noLayer
    else
      let rows := (List.range (rowCount m f)).map fun i => (data.drop (i * rowBytes m f)).take (rowBytes m f)
      let s := s.modReq r.id fun r => { r with query := rows }
      match s.req? r.id with
      | none => s
      | some r => if r.parts.isEmpty then s.completeAttend r else (s.startParts r).dispatch

/-- Every pass of a part has walked its last block. -/
def State.passesEnded (s : State) (ps : List Pass) : Bool := ps.all fun p => s.passEnded p

/-- Rows of a part, in order r. -/
def gatherRows (ps : List Pass) (id i : Nat) : List RowState :=
  let rows := ps.flatMap fun p => p.rows.filter fun x => x.req == id && x.part == i
  (rows.mergeSort fun a b => decide (a.r ≤ b.r)).map (·.st)

/-- A part's passes have ended: its rows are gathered and the request completes once every part has. -/
def State.endPart (s : State) (r : Req) (i : Nat) (ps : List Pass) : State :=
  let s := s.modReq r.id fun r =>
    { r with parts := r.parts.zipIdx.map fun (p, j) => if j = i then { p with st := .done, rows := gatherRows ps r.id i } else p }
  let s := { s with passes := s.passes.filter fun x => !(ps.any fun y => y.id == x.id) }
  match s.req? r.id with
  | some r => (s.completeAttend r).dispatch
  | none => s

/-- PART_END: the passes of a part that runs alone have ended; once every part is done the result follows. -/
def State.partEnd (s : State) (r : Req) (i : Nat) : State :=
  let ps := s.passes.filter fun p => p.curd.isNone && p.rows.any fun x => x.req == r.id && x.part == i
  match r.parts[i]? with
  | none => s
  | some p =>
    if p.st ≠ .walking ∨ ps.isEmpty then s
    else if r.ended.isSome then ps.foldl (fun s x => s.pageBoundary x.id) s
    else if !s.passesEnded ps then s
    else s.endPart r i ps

/-- A member's part is done, with the rows that the curd's passes leave for it. -/
def State.memberDone (s : State) (ps : List Pass) (x : Member) : State :=
  s.modReq x.req fun r =>
    { r with parts := r.parts.zipIdx.map fun (p, j) =>
        if j = x.part then { p with st := .done, curd := true, rows := gatherRows ps x.req x.part } else p }

/-- The request of a member completes once its parts have ended. -/
def State.completeMember (s : State) (x : Member) : State :=
  match s.req? x.req with
  | some r => s.completeAttend r
  | none => s

/-- The pass of a curd is split among its members (R153). -/
def State.splitCurd (s : State) (c : Curd) (ps : List Pass) : State :=
  let live := s.liveMembers c
  let s := (live.foldl (fun (s : State) x => s.memberDone ps x) s).endCurd c.id
  (live.foldl (fun (s : State) x => s.completeMember x) s).dispatch

/-- CURD_PASS_END: the passes of a curd have ended; each remaining member's rows hold its partial (R153). -/
def State.curdPassEnd (s : State) (c : Curd) : State :=
  let ps := s.passes.filter fun p => p.curd == some c.id
  if ps.isEmpty || !s.passesEnded ps then s
  else
    let s := ps.foldl (fun (s : State) p => s.pageBoundary p.id) s
    if (s.curd? c.id).isSome then s.splitCurd c ps else s

/-! ### The Rennet (R145 to R149, R157) -/

/-- The curd key of a part. -/
def State.curdKeyOf (s : State) (r : Req) (f : AttendF) (p : Part) : CurdKey :=
  let d := s.domain? (s.domainOf r.tenant)
  { prefix_ := p.prefix_, lo := p.lo, hi := p.hi, layer := f.layer, qFormat := f.qFormat, requant := f.qRequant,
    tenant := if d.elim true (·.crossTenant) then none else some r.tenant }

/-- A hint of a member has the curd close in the tick of a join: the largest curd_expect is reached, or a member with curd_mode 2
has joined (R148, R157). -/
def hintCloses (m : ModelRec) (mode : Nat) (ms : List Member) : Bool :=
  let expect := ms.foldl (fun n x => max n x.expect) 0
  (expect != 0 && decide (min expect m.curdMembers ≤ ms.length)) || mode == 2

/-- An open curd closes at the end of this tick, after the joins of the tick (R148). -/
def State.closeThisTick (s : State) (c : Curd) : State := s.modCurd c.id fun c => { c with closing := true }

/-- What a join does to its curd: a full curd closes at once; a hint closes it when every join of the tick has been applied
(R148; log entry 89). -/
def State.afterJoin (s : State) (m : ModelRec) (mode id : Nat) : State :=
  match s.curd? id with
  | none => s
  | some c =>
    if m.curdMembers ≤ c.members.length then (s.closeCurd c).placeWork
    else if hintCloses m mode c.members then s.closeThisTick c
    else s

/-- CURD_OFFER: an eligible part opens a curd, joins the open one, or closes it and opens a new one (R147). -/
def State.curdOffer (s : State) (r : Req) (i : Nat) : State :=
  match s.attendOf r, r.parts[i]? with
  | some (q, _, m, f), some p =>
    if p.st ≠ .waiting ∨ r.ended.isSome then s
    else
      let key := s.curdKeyOf r f p
      let x : Member := { req := r.id, part := i, tenant := r.tenant, rows := rowCount m f, expect := f.curdExpect, due := p.due }
      let fresh := fun (s : State) =>
        let c : Curd := { id := s.ids, key := key, model := q.model, members := [x], openedAt := s.now, lastJoin := s.now,
                          running := false, cluster := 0, engines := 0 }
        ({ s.bumpId with curds := s.curds ++ [c] }.setPart r.id i (.inCurd c.id)).afterJoin m f.curdMode c.id
      match s.curds.find? fun c => !c.running && c.key == key with
      | none => fresh s
      | some c =>
        if s.mayJoin m c x then
          ((s.modCurd c.id fun c => { c with members := c.members ++ [x], lastJoin := s.now }).setPart r.id i (.inCurd c.id)).afterJoin m
            f.curdMode c.id
        else (fresh (s.closeCurd c)).placeWork
  | _, _ => s

/-- CURD_WINDOW_END: the window of an open curd has passed (R148). -/
def State.curdWindowEnd (s : State) (c : Curd) : State :=
  let w := (s.model? c.model).elim 0 (·.curdWindow)
  if c.running ∨ s.now < c.openedAt + w then s else s.closeThisTick c

/-- Closing any later would break R149 for a class-0 member (R148): the projection of the next tick fails. -/
def State.mustClose (s : State) (c : Curd) : Bool :=
  c.members.any (·.due.isSome) &&
    match s.model? c.model with
    | some m =>
      let t := { s with now := s.now + 1 }
      (t.curdEngines c.key m c.members c.lastJoin).isNone
    | none => true

/-- CURD_LATEST_CLOSE. -/
def State.curdLatestClose (s : State) (c : Curd) : State :=
  if !c.running && s.mustClose c then s.closeThisTick c else s

/-! ### Yield and resume (R228) -/

/-- A closed curd whose best member is class 0 has taken an engine and waits for it: its pass runs on its members' reservations (R20,
R154). -/
def State.wantedByCurd (s : State) (cluster slot : Nat) : Bool :=
  s.curds.any fun c => s.curdWaits c && c.cluster == cluster && c.slots.contains slot && s.curdClass c == 0

/-- PASS_YIELD: a pass of classes 1 to 7 parks at its page boundary when a class-0 reservation begins on its engine. All
passes of a curd park together. -/
def State.passYield (s : State) (id : Nat) : State :=
  match s.pass? id with
  | none => s
  | some p =>
    if p.cls = 0 ∨ p.parked ∨ !(p.engines.any fun e => s.reservedNow p.cluster e (p.rows.map (·.req)) || s.wantedByCurd p.cluster e) then s
    else
      let s := s.pageBoundary id
      let mine := fun (x : Pass) => x.id == id || (p.curd.isSome && x.curd == p.curd)
      { s with passes := mapIf mine (fun x => { x with parked := !x.fin, engines := [] }) s.passes }.dispatch

/-- PASS_RESUME: a parked pass goes on from its next block on an engine of its cluster. -/
def State.passResume (s : State) (id slot : Nat) : State :=
  match s.pass? id with
  | none => s
  | some p =>
    let idle := (s.idleEngines p.cluster).map (·.2)
    let need := 1 + (((s.passGroup p).flatMap (·.rows)).foldl (fun n x => max n x.engine) 0)
    let rest := idle.filter (· != slot)
    if !p.parked ∨ !idle.contains slot ∨ rest.length + 1 < need then s
    else
      let slots := slot :: rest.take (need - 1)
      let mine := fun (x : Pass) => x.id == id || (p.curd.isSome && x.curd == p.curd)
      let s := { s with passes := mapIf mine (fun x => { x with parked := false, engines := slots }) s.passes }
      slots.foldl (fun s e => s.takeEngine p.cluster e (s.passOwners p)) s

/-! ### The commands of engines and curds -/

def execCurdOffer (req part : Nat) (s : State) : Host.Outcome State Fault Refusal :=
  .next (s.live fun s => (s.req? req).elim s fun r => s.curdOffer r part)

def execCurdWindowEnd (curd : Nat) (s : State) : Host.Outcome State Fault Refusal :=
  .next (s.live fun s => (s.curd? curd).elim s s.curdWindowEnd)

def execCurdLatestClose (curd : Nat) (s : State) : Host.Outcome State Fault Refusal :=
  .next (s.live fun s => (s.curd? curd).elim s s.curdLatestClose)

def execQueryBlockArrival (req : Nat) (ok : Bool) (data : Bytes) (s : State) : Host.Outcome State Fault Refusal :=
  .next (s.live fun s => (s.req? req).elim s fun r => s.queryArrives r ok data)

def execPartEnd (req part : Nat) (s : State) : Host.Outcome State Fault Refusal :=
  .next (s.live fun s => (s.req? req).elim s fun r => s.partEnd r part)

def execCurdPassEnd (curd : Nat) (s : State) : Host.Outcome State Fault Refusal :=
  .next (s.live fun s => (s.curd? curd).elim s s.curdPassEnd)

def execPassYield (pass : Nat) (s : State) : Host.Outcome State Fault Refusal := .next (s.live fun s => s.passYield pass)

end Sys2Proof.Machine
end

