-- ==== Sys2Proof/Machine/Whey.lean ====
section
/-! DEFINITION. Tiers at work (05_tiers_and_delivery): PIN_RANGE, UNPIN_RANGE and PREFETCH_HINT (R108 to R110), the moves of
the whey path (R101 to R103), the ripening sweep (R99), prefetched pages (R105 to R107, R263, R71) and the release of a
version (R41). -/

namespace Sys2Proof.Machine

/-! ### Ranges (R108 to R110) -/

/-- Pages of a range on this device that are not lost: record, layer and locator. -/
def State.rangePages (s : State) (q : Seq) (v : Version) (f : RangeF) : List (Nat × Nat × Loc) :=
  (List.range f.blockCount).flatMap fun i =>
    match (s.resolve q v (f.firstBlock + i)).bind s.rec? with
    | none => []
    | some r => (List.range f.layerCount).filterMap fun j =>
        match r.loc? (f.firstLayer + j) with
        | some l => if l.lost ∨ l.grains = 0 then none else some (r.id, f.firstLayer + j, l)
        | none => none

/-- Checks shared by the range commands; `admin` says that the range below the prefix depth is for a prefix administrator
alone (R109, R110). -/
def State.checkRangeCmd (s : State) (r : Req) (f : RangeF) (admin : Bool) : Option Bad :=
  match s.openSeqOf r f.seq with
  | .error b => some b
  | .ok q =>
    match s.model? q.model with
    | none => some (stInvalidField, 0)
    | some m =>
      let v := s.versionAhead r q
      if f.blockCount = 0 ∨ f.layerCount = 0 ∨ m.layers < f.firstLayer + f.layerCount ∨ v.blockCount < f.firstBlock + f.blockCount then
        some (stInvalidField, 0)
      else if !((List.range f.blockCount).all fun i =>
          s.holds q v (f.firstBlock + i) || decide (q.cur.blockCount ≤ f.firstBlock + i)) then some (stInvalidField, 0)
      else if admin && v.prefixHandle != 0 && decide (f.firstBlock < v.prefixDepth) && !s.prefixAdmin r.tenant then
        some (stInvalidField, 0)
      else if !classOk r q then some (stRefusedCapacity, 0)
      else none

/-- Layers of a range. -/
def rangeLayers (f : RangeF) : List Nat := (List.range f.layerCount).map fun j => f.firstLayer + j

/-- A PIN_RANGE under way will pin this page under a quota (R109). -/
def Req.pinsPage (r : Req) (tenant tier id layer : Nat) : Bool :=
  r.phase == .started && r.tenant == tenant && (match r.desc with
    | .pinRange f => f.target == tier && r.waits.contains id && (rangeLayers f).contains layer
    | _ => false)

/-- A page is charged to a tenant's pin quota of a tier: it is pinned under it, or a PIN_RANGE under way will pin it (R109). -/
def State.pinCharged (s : State) (tenant tier : Nat) (id layer : Nat) (l : Loc) : Bool :=
  l.pinBy == some (tenant, tier) || (!l.lost && s.reqs.any fun r => r.pinsPage tenant tier id layer)

/-- Grains charged to a tenant's pin quota of a tier. -/
def State.pinGrains (s : State) (tenant tier : Nat) : Nat :=
  sumBy (fun r => sumBy (fun (l, i) => if s.pinCharged tenant tier r.id i l then l.grains else 0) r.locs.zipIdx) s.recs

/-- Grains that a PIN_RANGE would add to a pin quota. -/
def State.newPinGrains (s : State) (tenant tier : Nat) (ps : List (Nat × Nat × Loc)) : Nat :=
  sumBy (fun x => if s.pinCharged tenant tier x.1 x.2.1 x.2.2 then 0 else x.2.2.grains) ps

def State.pinQuota (s : State) (tenant tier : Nat) : Nat :=
  match s.tenantRec? tenant with
  | some t => if tier = 0 then t.pinT0 else t.pinT1
  | none => 0

/-- Abandon a move: its destination grains are free and the page stays where it is (R103). -/
def State.dropMove (s : State) (m : Move) : State :=
  let s := { s with moves := s.moves.filter fun x => x.id != m.id,
                    txns := s.txns.filter fun (t : Txn) => t.kind != TxnKind.put m.id }
  if m.started then s.modLoc m.blk m.layer fun l => { l with moving := false } else s

def State.moveOf? (s : State) (blk layer : Nat) : Option Move := s.moves.find? fun m => m.blk == blk && m.layer == layer

/-- A private page may take T1 grains: it is held, or the quota has room (R97). -/
def State.roomFor (s : State) (r : Rec) (layer tier n : Nat) : Bool :=
  r.published || tier == 0 || (tier == 1 && s.isHeld r.id layer) || s.quotaRoom r.tenant tier n

/-- Take destination grains for a page and queue its move for a command (R109); `none` where quota or grains lack. -/
def State.takeMove (s : State) (id layer : Nat) (l : Loc) (target req : Nat) : Option State :=
  match s.rec? id with
  | none => none
  | some r =>
    if !s.roomFor r layer target l.grains then none
    else match s.allocFor r target l.grains (s.homeFor id layer) (s.farBound id) with
      | none => none
      | some a =>
        let m : Move := { id := s.ids, blk := id, layer := layer, grains := l.grains, target := target, rank := 4, req := some req,
                          dest := some a }
        some { s.bumpId with moves := s.moves ++ [m] }

/-- The moves down of a page give way to a command that wants the page where it is, or higher (R103). -/
def State.dropDemotion (s : State) (id i : Nat) (l : Loc) : State :=
  (s.moves.filter fun m => m.blk == id && m.layer == i && decide (l.tier < m.target)).foldl (fun s m => s.dropMove m) s

/-- Take grains for every page of a PIN_RANGE that must move up: a demotion under way is abandoned, and a promotion that reaches the
target is waited for; the target's grains are taken for one that ends below it (R103, R109). -/
def State.takeAll (s : State) (target req : Nat) : List (Nat × Nat × Loc) → Option State
  | [] => some s
  | (id, i, l) :: rest =>
    let s := s.dropDemotion id i l
    if l.tier ≤ target || s.moves.any (fun m => m.blk == id && m.layer == i && m.dest.isSome && decide (m.target ≤ target)) then
      s.takeAll target req rest
    else match s.takeMove id i l target req with
      | some s => s.takeAll target req rest
      | none => none

def State.checkPinRange (s : State) (r : Req) (f : RangeF) : Option Bad :=
  match s.checkRangeCmd r f true with
  | some b => some b
  | none =>
    match s.openSeqOf r f.seq with
    | .error b => some b
    | .ok q =>
      let ps := s.rangePages q q.cur f
      if s.pinQuota r.tenant f.target < s.pinGrains r.tenant f.target + s.newPinGrains r.tenant f.target ps then some (stRefusedCapacity, 0)
      else if (s.takeAll f.target r.id ps).isNone then some (stRefusedCapacity, 0)
      else none

/-- Set the pins of a PIN_RANGE (R109): locators, records and the descriptor. -/
def State.setPins (s : State) (tenant : Nat) (f : RangeF) (ids : List Nat) : State :=
  let s := ids.foldl (fun s id => s.modRec id fun r =>
    let locs := r.locs.zipIdx.map fun (l, i) =>
      if (rangeLayers f).contains i && !l.lost && l.grains != 0 then { l with pinned := true, pinBy := some (tenant, f.target) } else l
    { r with locs := locs, pinned := locs.any (·.pinned) }) s
  match s.seqOf tenant f.seq with
  | some q => s.modSeq q.index fun q => { q with hasPins := true }
  | none => s

/-- Ask for the promotions of a PREFETCH_HINT that quota and free grains allow: to T1, of pages below it that nothing moves up (R108). A
queued demotion gives way. -/
def State.hintMoves (s : State) (req : Nat) (ps : List (Nat × Nat × Loc)) : State :=
  ps.foldl (fun s (id, i, l) =>
    if l.tier ≤ 1 || l.pinned || l.lost || l.grains == 0 || s.isCopy id
        || s.moves.any (fun m => m.blk == id && m.layer == i && m.dest.isSome && decide (m.target ≤ 1)) then s
    else (s.takeMove id i l 1 req).getD s) s

/-- The registered model with a fingerprint. -/
def State.modelOf (s : State) (fingerprint : BitVec 64) : Option ModelRec := s.image.models.find? fun m => m.fingerprint == fingerprint

/-- Read a page of a remote prefix from its holder into staging, for no walk: for request `req`, or for none (R71, R108). -/
def State.readRemote (s : State) (e : DirEntry) (m : ModelRec) (req b l : Nat) : State :=
  let c : StagingCopy := { id := s.ids, req := req, pin := none, blk := 0, block := b, layer := l, grains := grainsOf (pageWorst (shapeOf m e.fmt)),
                           arrived := false, retried := false, ahead := false, since := s.now, coded := false, digest := 0, data := [], handle := e.handle }
  { s.bumpId with staging := c :: s.staging }.sendFar c.id 0 b l (.remote e)

/-- Read pages of a remote prefix in order, as many as staging takes; answers those left (R71, R93). -/
def State.readRemotes (s : State) (e : DirEntry) (m : ModelRec) : List (Nat × Nat) → List (Nat × Nat) × State
  | [] => ([], s)
  | (b, l) :: rest =>
    if !s.stagingFree 0 (grainsOf (pageWorst (shapeOf m e.fmt))) || (s.pageLink e.holder).isNone then ((b, l) :: rest, s)
    else (s.readRemote e m 0 b l).readRemotes e m rest

/-- Pages that a discarded copy still has to be fetched for are asked for, as many as staging takes now (R71). -/
def State.refetch (s : State) : State :=
  (s.dir.filter fun e => !e.refetch.isEmpty && e.st != .faulted).foldl (fun (s : State) e => match s.modelOf e.fingerprint with
    | some m =>
      let (left, s) := s.readRemotes e m e.refetch
      s.modDir e.slot fun e => { e with refetch := left }
    | none => s) s

/-- Fetch every page of an entry's own blocks from its holder again, for no request (R71). -/
def State.fetchCopy (s : State) (e : DirEntry) (m : ModelRec) : State :=
  let ps := (List.range (e.depth - e.parentDepth)).flatMap fun i => (List.range m.layers).map fun l => (e.parentDepth + i, l)
  (s.modDir e.slot fun e => { e with refetch := ps }).refetch

/-- Named pages of a hint that only a remote holder has, with their numbers: they count as T2 (R72, R108). -/
def State.remotePages (s : State) (r : Req) (f : RangeF) : List (DirEntry × Nat × Nat) :=
  match s.seqOf r.tenant f.seq with
  | none => []
  | some q => (List.range f.blockCount).flatMap fun i => (List.range f.layerCount).filterMap fun j =>
      match s.placeOf q q.cur (f.firstLayer + j) (f.firstBlock + i) with
      | .remote e => some (e, f.firstBlock + i, f.firstLayer + j)
      | _ => none

/-- Number of a page in the order in which a hint asks for its remote pages. -/
def pageNo (b l : Nat) : Nat := 256 * b + l

/-- Ask the holders for the remote pages of a hint in order, each once, where T1 has room for its copy; with staging short the rest waits
(R93, R108). -/
def State.hintReads (s : State) (id : Nat) : List (DirEntry × Nat × Nat) → State
  | [] => s
  | (e, b, l) :: rest =>
    let next := fun (s : State) => s.modReq id fun r => { r with found := pageNo b l + 1 }
    match s.modelOf e.fingerprint with
    | none => (next s).hintReads id rest
    | some m =>
      let n := grainsOf (pageWorst (shapeOf m e.fmt))
      if (s.pageLink e.holder).isNone || ((s.allocT1 1 n none).orElse fun _ => s.allocT1 0 n none).isNone then (next s).hintReads id rest
      else if !s.stagingFree 0 n then s
      else (next (s.readRemote e m id b l)).hintReads id rest

/-- Remote pages that a hint has not asked for yet. -/
def State.hintLeft (s : State) (r : Req) (f : RangeF) : List (DirEntry × Nat × Nat) :=
  (s.remotePages r f).filter fun x => decide (r.found ≤ pageNo x.2.1 x.2.2)

/-- A hint still waits for remote pages. -/
def State.hintWaits (s : State) (id : Nat) (f : RangeF) : Bool :=
  s.staging.any (fun c => c.req == id) || (s.req? id).any fun r => !(s.hintLeft r f).isEmpty

/-- Settle one command that waits for moves: a range command completes once none of its pages has a move under way, a page that was in
another move being decided again once (R103, R108, R109); a supply takes its grains once the demotions have ended (R96). DESIGN CHOICE
(log entry 130): a page of a PIN_RANGE whose move ended elsewhere, and which finds no grains or quota when it is decided again, is pinned
where it stands. -/
def State.rangeSettle1 (s : State) (r : Req) : State :=
  let pages : State → RangeF → List (Nat × Nat × Loc) := fun s f => r.waits.flatMap fun id => (rangeLayers f).filterMap fun i =>
    ((s.rec? id).bind fun x => x.loc? i).map fun l => (id, i, l)
  let busy := fun (s : State) (f : RangeF) => (pages s f).any fun x => (s.moveOf? x.1 x.2.1).isSome
  if r.phase ≠ .started || r.stops then s
  else match r.desc with
    | .pinRange f =>
      if busy s f then s
      else
        let up := (pages s f).filter fun x => !x.2.2.lost && x.2.2.grains != 0 && decide (f.target < x.2.2.tier)
        let s' := up.foldl (fun s x => (s.takeMove x.1 x.2.1 x.2.2 f.target r.id).getD s) s
        if busy s' f then s' else (s.setPins r.tenant f r.waits).finish r stOk 0
    | .prefetchHint f =>
      let s := s.hintReads r.id (s.hintLeft r f)
      if busy s f ∨ s.hintWaits r.id f then s
      else
        let s' := if r.done = 0 then (s.modReq r.id fun r => { r with done := 1 }).hintMoves r.id (pages s f) else s
        if busy s' f then s'
        else
        let left := ((pages s f).filter fun x => !x.2.2.lost && x.2.2.grains != 0 && decide (2 ≤ x.2.2.tier)).length + (s.remotePages r f).length
        if left = 0 then s'.finish r stOk 0 else s'.finish r stOkPartial (resPagesLeft left)
    | .append f => s.supplySettle r f
    | .replace f => s.supplySettle r f
    | _ => s

/-- Settle every range command after a move has ended. -/
def State.rangeSettle (s : State) : State :=
  s.reqs.foldl (fun s r => match s.req? r.id with
    | some r => s.rangeSettle1 r
    | none => s) s

/-- Staging has been freed: reads that waited for it are asked for (R71, R93, R108). -/
def State.stagingFreed (s : State) : State := s.refetch.rangeSettle

def State.beginPinRange (s : State) (r : Req) (f : RangeF) : State :=
  match s.checkPinRange r f with
  | some (st, res) => s.finish r st res
  | none =>
    match s.openSeqOf r f.seq with
    | .error (st, res) => s.finish r st res
    | .ok q =>
      let ps := s.rangePages q q.cur f
      let s := (s.takeAll f.target r.id ps).getD s
      (s.modReq r.id fun r => { r with phase := .started, waits := (ps.map (·.1)).eraseDups }).rangeSettle

def State.beginUnpin (s : State) (r : Req) (f : RangeF) : State :=
  match s.checkRangeCmd r f true with
  | some (st, res) => s.finish r st res
  | none =>
    match s.openSeqOf r f.seq with
    | .error (st, res) => s.finish r st res
    | .ok q =>
      let ids := ((s.rangePages q q.cur f).map (·.1)).eraseDups
      let s := ids.foldl (fun s id => s.modRec id fun x =>
        let locs := x.locs.zipIdx.map fun (l, i) => if (rangeLayers f).contains i then { l with pinned := false, pinBy := none } else l
        { x with locs := locs, pinned := locs.any (·.pinned) }) s
      let s := s.modSeq q.index fun q => { q with hasPins := q.cur.recIds.any fun id => (s.rec? id).elim false (·.pinned) }
      s.finish r stOk 0

/-- PREFETCH_HINT promotes every named page in T2 or T3 for which quota and free grains allow it, and brings a copy of every page that
only a remote holder has (R72, R108). -/
def State.beginHint (s : State) (r : Req) (f : RangeF) : State :=
  match s.checkRangeCmd r f false with
  | some (st, res) => s.finish r st res
  | none =>
    match s.openSeqOf r f.seq with
    | .error (st, res) => s.finish r st res
    | .ok q =>
      let ps := s.rangePages q q.cur f
      let s := s.hintMoves r.id ps
      (s.modReq r.id fun r => { r with phase := .started, waits := (ps.map (·.1)).eraseDups }).rangeSettle

/-! ### Moves of the whey path (R101 to R103) -/

/-- The move the whey path takes next: the best rank, the oldest first. -/
def State.nextMove (s : State) : Option Move :=
  let waiting := s.moves.filter fun m => match (s.rec? m.blk).bind fun r => r.loc? m.layer with
    | some l => !l.moving
    | none => true
  waiting.foldl (fun b m => match b with
    | some x => if m.rank < x.rank then some m else some x
    | none => some m) none

/-- A queued move still has its reason: the page is there and below, above or on the extent it must leave (R101, R102). -/
def State.moveStands (s : State) (m : Move) (r : Rec) (l : Loc) : Bool :=
  !l.lost && l.grains != 0 &&
    (if m.rank ≤ 2 then true
     else if m.target < l.tier then (m.req.isSome || !l.pinned)
     else if l.tier < m.target then s.demotable r m.layer l
     else false)

/-- Grains for a queued move: those taken already, or new ones. The evacuation of an extent may use T3 in place of T2 (R265),
that of a parity group the lower tiers for pages that may leave T1 (R94, R297). -/
def State.moveDest (s : State) (m : Move) (r : Rec) (l : Loc) : Option (Nat × Nat) :=
  match m.dest with
  | some a => some (m.target, a)
  | none =>
    let try_ := fun (t : Nat) =>
      if t = l.tier || s.roomFor r m.layer t l.grains then
        (s.allocFor r t l.grains (if m.rank = 1 ∧ r.published then none else s.homeFor r.id m.layer) (s.farBound r.id)).map fun a => (t, a)
      else none
    match try_ m.target with
    | some x => some x
    | none =>
      if m.rank = 2 ∧ m.target = 2 then try_ 3
      else if m.rank = 1 ∧ !l.pinned ∧ !s.isHeld r.id m.layer ∧ !s.isCopy r.id then (try_ 2).orElse fun _ => try_ 3
      else none

/-- TIER_MOVE_START: the next queued move sets moving and takes its destination grains; one that cannot is dropped (R101, R103), and one
whose link or flash transfer finds no staging, or an extent table short of a bank, waits (R90, R93). -/
def State.moveStart (s : State) : State :=
  match s.nextMove with
  | none => s
  | some m =>
    match (s.rec? m.blk).bind fun r => (r.loc? m.layer).map fun l => (r, l) with
    | none => (s.dropMove m).rangeSettle
    | some (r, l) =>
      if !s.moveStands m r l then (s.dropMove m).rangeSettle
      else if l.tier = 2 ∧ (s.tierFault l).isSome then ((s.dropMove m).pageLost m.blk m.layer).rangeSettle
      else match s.moveDest m r l with
        | none => (s.dropMove m).rangeSettle
        | some (t, a) =>
          if ((2 ≤ t ∨ 2 ≤ l.tier) ∧ !s.stagingFree 0 l.grains) ∨ ((t = 2 ∨ l.tier = 2) ∧ !s.tableUp 2) then s
          else
          let s := (s.modMove m.id fun m => { m with target := t, dest := some a, grains := l.grains, started := true }).modLoc m.blk m.layer
            fun l => { l with moving := true }
          let h := ownerHdr r.ownerKind r.owner
          let s := s.pageTransfer (.put m.id) h l.tier l.addr l.grains l.version none
          match s.readStored r.ownerKind r.owner l with
          | .ok b =>
            let v := s.nextVersion t a l.grains
            s.pageTransfer (.put m.id) h t a l.grains v (some (s.sealPage r.ownerKind r.owner t a l.grains v b))
          | .error _ => s

/-- TIER_MOVE_END without what an emptied extent brings (R265): the locator is rewritten. A source that fails its check is lost, a far one
once its second read fails too (R103, R263, R290). -/
def State.moveFinish (s : State) (m : Move) (ok : Bool) : State :=
  match (s.rec? m.blk).bind fun r => r.loc? m.layer with
  | none => (s.dropMove m).rangeSettle
  | some l =>
    if !l.moving ∨ s.txns.any (fun t => t.kind == .put m.id) then s
    else match m.dest with
      | none => s
      | some a =>
        let gone : Bool := match m.target with
          | 2 => (match s.extentAt a with | some e => e.st != .active | none => true)
          | _ => false
        if !ok ∧ 2 ≤ l.tier ∧ !m.again then
          let h := ((s.rec? m.blk).elim {} fun r => ownerHdr r.ownerKind r.owner)
          (s.modMove m.id fun m => { m with again := true }).pageTransfer (.put m.id) h l.tier l.addr l.grains l.version none
        else if !ok then ((s.dropMove m).pageLost m.blk m.layer).rangeSettle
        else if gone then (s.dropMove m).rangeSettle
        else
          let s := (s.dropMove m).movePage m.blk m.layer m.target a
          -- R97: a page that entered the held set while it moved down goes up again
          let s := if 2 ≤ m.target ∧ s.isHeld m.blk m.layer then s.askMove m.blk m.layer 1 3 none else s
          let s := s.demoteAll.freeIdleProxies.stagingFreed
          s.seqs.foldl (fun (s : State) q => s.settleRehome q.index) s

/-- A transfer of a move fails on its link: the move is abandoned. -/
def State.moveFails (s : State) (id : Nat) : State :=
  match s.move? id with
  | some m => (s.dropMove m).rangeSettle
  | none => s

/-! ### Ripening (R99) -/

/-- Ticks of a ripening period. -/
def State.ripePeriod (s : State) : Nat := max 1 (s.params.halfLifeMs * 470000)

/-- RIPENING_SWEEP: the sweep visits one page locator, or one weight locator, at most once in a period; on a tray, one pool
object (R278). -/
def State.sweep (s : State) (weight : Bool) (id layer : Nat) : State :=
  let k := s.now / s.ripePeriod + 1
  let kt := s.now / max 1 (s.params.trayHalfLifeMs * 470000) + 1
  if weight then
    { s with weights := s.weights.map fun (w : Weights) =>
        if w.model = id ∧ w.swept.getD layer 0 < k ∧ layer < w.counts.length then
          { w with counts := w.counts.set layer (w.counts.getD layer 0 / 2), swept := w.swept.set layer k } else w }
  else if s.isTray then
    let objs := s.tray.objects.map fun (o : PoolObj) => if o.id = id ∧ o.swept < kt then { o with count := o.count / 2, swept := kt } else o
    { s with tray := { s.tray with objects := objs } }
  else s.modLoc id layer fun l => if l.sweptAt < k then { l with ripening := l.ripening / 2, sweptAt := k } else l

/-! ### Prefetched pages (R71, R105 to R107, R171, R263) -/

/-- The block record of a proxy's block, made on demand with absent pages (R71). -/
def State.proxyRec (s : State) (e : DirEntry) (m : ModelRec) (b : Nat) : Nat × State :=
  match e.map.find? fun x => x.1 == b with
  | some x => (x.2, s)
  | none =>
    let r : Rec := { id := s.ids, firstToken := b * m.blockTokens, segment := 0, valid := m.blockTokens, published := true,
                     shared := false, pinned := false, global := false, hashed := true, chainHash := e.hashAt b, refs := 1,
                     tenant := e.publisher, domain := e.domain, born := 0,
                     locs := List.replicate m.layers { Loc.absent e.fmt with published := true }, mirrorA := s.newMirrors.1,
                     mirrorB := s.newMirrors.2, address := metaAddr 64 s.ids, locators := metaAddr 16 (s.ids + 1) }
    (r.id, { s.bumpId.bumpId with recs := r :: s.recs }.putMap e.slot (e.map ++ [(b, r.id)]))

/-- Keep a fetched page of a remote prefix under its own locator, where T1 has room in either region; a page that is here already is
never written again (R71, R94, R171). The cache region comes first (log entry 96, DESIGN CHOICE). The grains it takes may call for
demotions (R102). -/
def State.keepCopy (s : State) (e : DirEntry) (m : ModelRec) (c : StagingCopy) : State :=
  let n := grainsOf c.data.length
  let table := if c.coded then
      ((s.tableByDigest e.domain c.digest).map (·.id)) else some 0
  let here := ((e.map.find? fun x => x.1 == c.block).bind fun x => s.rec? x.2).any fun r => (r.loc? c.layer).any fun l => l.grains != 0
  match table, (s.allocT1 1 n none).orElse fun _ => s.allocT1 0 n none with
  | some t, some a =>
    if here then s
    else
      let (id, s) := s.proxyRec e m c.block
      let (v, s) := s.writePage 1 a n 2 e.domain t (if c.coded then relabel t c.data else c.data)
      (s.modLoc id c.layer fun l =>
        { l with tier := 1, grains := n, addr := a, table := t, fmt := e.fmt, version := v, uncoded := !c.coded,
                 ripening := s.params.newCount, lost := false, published := true }).demoteAll
  | _, _ => s

/-- Send the read of a copy once more (R263). -/
def State.readAgain (s : State) (c : StagingCopy) : State :=
  match c.pin.bind s.pinned?, s.entryOf c.handle with
  | some (q, v), _ => s.sendFar c.id q.tenant c.block c.layer (s.placeOf q v c.layer c.block)
  | none, some e => s.sendFar c.id 0 c.block c.layer (.remote e)
  | none, none => { s with staging := s.staging.filter fun x => x.id != c.id }

/-- PREFETCH_ARRIVAL: a page lands in staging once its transfer has ended. A seal that fails is read once more; failing again, the page is
lost and its readers end DATA_INTEGRITY (R263). A page of a remote holder is kept (R71). -/
def State.prefetchLands (s : State) (req b layer : Nat) (ok : Bool) : State :=
  match s.staging.find? fun c => c.req == req && c.block == b && c.layer == layer && !c.arrived with
  | none => s
  | some c =>
    let set := fun (g : StagingCopy → StagingCopy) (s : State) => { s with staging := mapIf (fun x => x.id == c.id) g s.staging }
    let entry := if c.blk = 0 then s.entryOf c.handle else none
    if s.txns.any (fun t => t.kind == .farPage c.id) then s
    else if !ok && !c.retried then (set (fun x => { x with retried := true }) s).readAgain c
    else if !ok then (s.copyFails c.id stDataIntegrity).stagingFreed
    else if entry.any fun e => !s.tableHere e c then entry.elim s fun e => s.askTable e c
    else
      let own := (s.rec? c.blk).bind fun x => (x.loc? layer).map fun l => (l, (s.page? l.tier l.addr).elim [] (·.data))
      let s := set (fun x => { x with arrived := true, since := s.now, loc := own.map Prod.fst, data := own.elim x.data Prod.snd }) s
      let s := match entry, entry.bind fun e => s.modelOf e.fingerprint with
        | some e, some m => s.keepCopy e m c
        | _, _ => s
      if (c.req = 0 && !c.ahead) || s.isHint c.req then ({ s with staging := s.staging.filter fun x => x.id != c.id } : State).stagingFreed else s

/-- STAGING_TTL_END: a lookahead copy that has waited in staging for its time without a claim is discarded (R107). The wait begins when
the copy lands (log entry 126, DEDUCED). -/
def State.stagingTtl (s : State) (id : Nat) : State :=
  ({ s with staging := s.staging.filter fun c =>
      !(c.id == id && c.ahead && c.arrived && decide (c.since + s.params.stagingTtlUs * ticksPerUs ≤ s.now)) } : State).stagingFreed

/-! ### The commands -/

def execTierMoveStart (s : State) : Host.Outcome State Fault Refusal := .next (s.live State.moveStart)

def execRipeningSweep (weight : Bool) (rec layer : Nat) (s : State) : Host.Outcome State Fault Refusal :=
  .next (s.live fun s => s.sweep weight rec layer)

def execPrefetchArrival (req part block layer : Nat) (ok : Bool) (s : State) : Host.Outcome State Fault Refusal :=
  .next (s.live fun s => if part < ((s.req? req).elim 1 fun r => max 1 r.parts.length) then s.prefetchLands req block layer ok else s)

def execStagingTtlEnd (copy : Nat) (s : State) : Host.Outcome State Fault Refusal := .next (s.live fun s => s.stagingTtl copy)

/-- PIN_RELEASE: a version without pins that is no longer current goes, and a closing sequence without pins is freed (R36,
R41). -/
def execPinRelease (index version : Nat) (s : State) : Host.Outcome State Fault Refusal :=
  .next (s.live fun s => (s.reclaimVersion index version).freeIfClosed index)

end Sys2Proof.Machine
end

