-- ==== Sys2Proof/Machine/Fetch.lean ====
section
/-! DEFINITION. FETCH_PAGES (R111 to R114, R232) and FETCH_WEIGHTS (R115, R116, R323, R325). -/

namespace Sys2Proof.Machine

/-! ### FETCH_PAGES -/

/-- P_max: the model's largest raw page over its formats (R112). -/
def largestPage (m : ModelRec) : Nat :=
  (List.range 9).foldl (fun n f => if bit m.kvFormats f then max n (shapeOf m f).rawBytes else n) 0

/-- Slot stride (R112). -/
def fetchStride (m : ModelRec) (form : Nat) : Nat :=
  if form = 0 then roundUp (largestPage m) 256 else 64 + roundUp (largestPage m) grainBytes

/-- Pages of a request. -/
def fetchCount (f : FetchF) : Nat := f.blockCount * f.layerCount

/-- Block and layer of slot i. -/
def fetchSlot (f : FetchF) (i : Nat) : Nat × Nat :=
  (f.firstBlock + i / max 1 f.layerCount, f.firstLayer + i % max 1 f.layerCount)

/-- Checks of R111 against a version. -/
def State.fetchChecks (s : State) (r : Req) (q : Seq) (v : Version) (m : ModelRec) (f : FetchF) : Option Bad :=
  if f.blockCount = 0 ∨ 64 < f.blockCount ∨ f.layerCount = 0 ∨ m.layers < f.firstLayer + f.layerCount ∨ 4096 < fetchCount f
      ∨ (f.form = 1 ∧ r.version ≠ 3) ∨ f.buffer % 256 ≠ 0 ∨ f.bufferLen < fetchCount f * fetchStride m f.form then
    some (stInvalidField, resPagesDone 0)
  else if !((List.range f.blockCount).all fun i =>
      s.holds q v (f.firstBlock + i) ||
        (v.num == q.cur.num && decide (q.cur.blockCount ≤ f.firstBlock + i) && decide (f.firstBlock + i < v.blockCount))) then
    some (stInvalidField, resPagesDone 0)
  else if !classOk r q then some (stRefusedCapacity, resPagesDone 0)
  else none

def State.checkFetch (s : State) (r : Req) (f : FetchF) : Option Bad :=
  match s.openSeqOf r f.seq with
  | .error b => some b
  | .ok q =>
    match s.model? q.model with
    | none => some (stInvalidField, 0)
    | some m => s.fetchChecks r q (s.versionAhead r q) m f

/-- Terms of R232 for one page: its time on the engine, the link and the far route, its worst length, and whether it is
far. -/
structure FetchTerm where
  ticks : Nat
  bytes : Nat
  home  : Nat
  route : Option Nat
  tier  : Nat
  deriving DecidableEq, Repr

/-- A route that no link or port is: of a far page that nothing reaches (R244). -/
def noRoute : Nat := 4096

/-- The page of a slot, priced from the tier summaries alone (R229). -/
def State.fetchTerm (s : State) (q : Seq) (v : Version) (m : ModelRec) (form : Nat) (u0 : Nat) (held : List (Nat × Nat))
    (b layer : Nat) : FetchTerm :=
  let below := v.prefixHandle != 0 && decide (b < v.prefixDepth)
  let entry := if below then s.ownerEntry chainFuel v.prefixHandle b else none
  let (home, tier, route) := match entry with
    | some e => (e.homeStack, s.entryTier e, s.entryRoute e)
    | none => (q.homeStack, if s.pricedHeld q held v layer b then 1 else s.lowestTier q.cur.recIds, s.seqRoute q)
  let w := s.worstBytes q v m b
  let far := decide (2 ≤ tier)
  let f0 := route.elim 0 s.rateFabric
  { ticks := max (cdiv w 512) (max (cdiv (fetchStride m form) (max 1 u0)) (if far then cdiv w (max 1 f0) else 0)),
    bytes := w, home := home, route := if far then some (route.getD noRoute) else none, tier := tier }

/-- The price of a FETCH_PAGES (R232): its record's tick and its reservations. -/
def State.fetchPrice (s : State) (r : Req) (q : Seq) (v : Version) (m : ModelRec) (f : FetchF) : Option (Nat × List Resv) :=
  let g := s.groupOfFn r.fn
  let u0 := s.rateUcie g
  let held := s.heldPages q
  let ts := (List.range (fetchCount f)).map fun i => s.fetchTerm q v m f.form u0 held (fetchSlot f i).1 (fetchSlot f i).2
  let far := ts.filter fun t => t.route.isSome
  if u0 = 0 ∨ !(far.all fun t => t.route.elim true fun k => s.routeForZero k && decide (0 < s.rateFabric k)) then none
  else
    let lat := far.foldl (fun n t => max n (s.farLatency t.tier)) 0
    let start := s.waitEnd r
    let last := start + 186 + lat + sumBy (·.ticks) ts
    let near := (ts.filter fun t => t.route.isNone).map (·.home)
    some (last + 16, s.chargeLost <|
      [{ req := r.id, cal := .ucieOut g, lo := start, hi := last + 16, amount := fetchCount f * fetchStride m f.form + 32 }] ++
      (near.eraseDups.map fun k =>
        { req := r.id, cal := .stack k, lo := start, hi := last, amount := sumBy (fun t => if t.route.isNone ∧ t.home = k then t.bytes else 0) ts }) ++
      ((far.filterMap (·.route)).eraseDups.map fun k =>
        { req := r.id, cal := .fabric k, lo := start, hi := last, amount := sumBy (fun t => if t.route = some k then t.bytes else 0) ts }))

def State.decideFetch (s : State) (r : Req) (f : FetchF) : Decision :=
  match s.openSeqOf r f.seq with
  | .error _ => .capacity
  | .ok q =>
    match s.model? q.model with
    | none => .capacity
    | some m =>
      let v := s.versionAhead r q
      match s.fetchPrice r q v m f with
      | none => .capacity
      | some (c, rs) =>
        if s.zeroLacks r [q] then .capacity
        else s.judge r.deadline c rs

/-- Deadline of a class-0 request whose descriptor gives 0 (R222): the bound of R232, its record's 16 ticks with it, taken from the stamp
tick plus 96 (log entry 104). -/
def State.fetchDeadline (s : State) (r : Req) (f : FetchF) : Nat :=
  match s.openSeqOf r f.seq with
  | .error _ => 0
  | .ok q =>
    match s.model? q.model with
    | none => 0
    | some m => (s.fetchPrice r q (s.versionAhead r q) m f).elim 0 fun x => x.1 - s.now + r.stamp + 96

/-- End a FETCH_PAGES: pages_done goes with every status (R113, R207). -/
def State.endFetch (s : State) (r : Req) (st block layer : Nat) : State :=
  s.finish r st (resPagesDone r.done + if 0x41 ≤ st ∧ st ≤ 0x43 then resFaultAt block layer else 0)

/-- Request far pages slot by slot, as far as staging takes them (R106, R113). -/
def State.askSlots (s : State) (r : Req) (q : Seq) (v : Version) (m : ModelRec) : List (Nat × Nat) → State
  | [] => s
  | (b, layer) :: rest =>
    let t := s.askFar r q v m layer b false
    if t.asked r b layer || !s.reachable (s.placeOf q v layer b) then t.askSlots r q v m rest else t

/-- An accepted FETCH_PAGES pins its version and requests its far pages in slot order. -/
def State.beginFetch (s : State) (r : Req) (f : FetchF) : State :=
  match s.openSeqOf r f.seq with
  | .error (st, res) => s.finish r st res
  | .ok q =>
    match s.model? q.model with
    | none => s.finish r stInvalidField 0
    | some m =>
      let s := (s.pinCurrent r.id q).modReq r.id fun r => { r with phase := .started }
      let r := (s.req? r.id).getD r
      s.askSlots r q q.cur m ((List.range (fetchCount f)).map (fetchSlot f))

/-- The delivery header of the coded form (R112). -/
def fetchHeader (b layer fmt : Nat) (uncoded : Bool) (table len : Nat) : Bytes :=
  leBytes 64 (b + layer * 2 ^ 24 + fmt * 2 ^ 32 + uncoded.toNat * 2 ^ 37 + (if uncoded then 0 else table) * 2 ^ 48 + len * 2 ^ 64)

/-- What a slot of the coded form finds. -/
inductive StoredPage where
  | wait
  | bad (status : Nat)
  | ok (data : Bytes) (fmt : Nat) (uncoded : Bool) (table blk : Nat)

/-- The stored bytes of a page for the coded form: checked as any read checks them, and not decoded (R112, R300). -/
def State.storedPage (s : State) (r : Req) (q : Seq) (v : Version) (layer b : Nat) : StoredPage :=
  let read := fun (get : Nat → Nat → Loc → Except Nat Bytes) (id : Nat) =>
    match (s.rec? id).bind fun x => (x.loc? layer).map fun l => (x, l) with
    | none => StoredPage.bad stDataIntegrity
    | some (x, l) =>
      if (x.published && x.domain != q.domain) || (!x.published && x.tenant != q.tenant) then .bad stInternalFault
      else match get x.ownerKind x.owner l with
        | .ok d => .ok d l.fmt l.uncoded l.table id
        | .error st => .bad st
  if !s.pathsAgree r then .bad stInternalFault
  else match s.placeOf q v layer b, s.copyOf? r b layer with
  | .near id, _ => read s.readStored id
  | .bad st, some c =>
    if !s.issuedCopy c st then .bad st
    else if !c.arrived then .wait
    else (match s.rec? c.blk, c.loc with
      | some x, some l => if (x.published && x.domain != q.domain) || (!x.published && x.tenant != q.tenant) then .bad stInternalFault
        else .ok c.data l.fmt l.uncoded l.table c.blk
      | _, _ => .bad st)
  | .bad st, none => .bad st
  | .far id _, some c => c.failed.elim (if c.arrived then read s.readSealed id else .wait) .bad
  | .far _ _, none => .wait
  | .remote e, some c =>
    c.failed.elim (if !c.arrived then .wait
      else if !c.coded then .ok c.data e.fmt true 0 0
      else match s.tableByDigest e.domain c.digest with
        | some t => .ok (relabel t.id c.data) e.fmt false t.id 0
        | none => .wait) .bad
  | .remote e, none => if (s.pageLink e.holder).isSome then .wait else .bad stLinkFault

/-- The body of a slot: the raw page, or the delivery header and the stored page. -/
def State.slotPage (s : State) (r : Req) (q : Seq) (v : Version) (m : ModelRec) (form layer b : Nat) : StoredPage :=
  if form = 0 then match s.walkPage r q v m layer b with
    | .wait => .wait
    | .bad st => .bad st
    | .ok raw sh blk => .ok raw sh.fmt true 0 blk
  else match s.storedPage r q v layer b with
    | .ok d fmt un t blk => .ok (fetchHeader b layer fmt un t d.length ++ d) fmt un t blk
    | x => x

/-- One slot is written in full, in slot order (R112, R113), and its page's count rises by one (R98). The first slot that fails decides
the status. -/
def State.fetchTransfer (s : State) (r : Req) (f : FetchF) (ok : Bool) : State :=
  match r.pin.bind s.pinned? with
  | none => s
  | some (q, v) =>
    match s.model? q.model with
    | none => s
    | some m =>
      let (b, layer) := fetchSlot f r.done
      let s := s.loadBlock q v b
      if r.phase ≠ .started then s
      else if !ok then s.faultReq r stLinkFault b layer
      else match s.slotPage r q v m f.form layer b with
        | .wait => s.askSlots r q v m (((List.range (fetchCount f)).drop r.done).map (fetchSlot f))
        | .bad st => (s.pageFailed r q v layer b st (s.decoder q v layer b)).faultReq r st b layer
        | .ok d _ _ _ blk =>
          let stride := fetchStride m f.form
          let s := s.hostPut r (f.buffer + r.done * stride) (d ++ List.replicate (stride - d.length) 0)
          let s := ((s.consumeCopy r.id b layer).ripen blk layer 1).modReq r.id fun r => { r with done := r.done + 1 }
          if r.done + 1 = fetchCount f then s.finish r stOk (resPagesDone (r.done + 1)) else s

/-! ### FETCH_WEIGHTS -/

/-- The sealed image of a model, when the tenant may fetch it (R116, step 2). -/
def State.weightsFor (s : State) (tenant : Nat) (m : ModelRec) : Option Weights :=
  if s.image.weightGrants.contains (m.index, tenant) && s.slotFilled (modelKeySlot m.index) then
    s.weights.find? fun w => w.model == m.index
  else none

def State.checkWeights (s : State) (r : Req) (f : WeightsF) : Option Bad :=
  match s.model? f.model with
  | none => some (stInvalidField, 0)
  | some m =>
    if f.offset % 4096 ≠ 0 ∨ f.length % 4096 ≠ 0 ∨ f.length < 4096 ∨ 67108864 < f.length ∨ f.buffer % 256 ≠ 0 then
      some (stInvalidField, 0)
    else match s.weightsFor r.tenant m with
      | none => some (stWeightsSealed, 0)
      | some w => if w.header.chunks * 1048576 < f.offset + f.length then some (stInvalidField, 0) else none

/-- The established SPDM session of a UCIe group (R322). -/
def State.groupSession (s : State) (g : Nat) : Option Session :=
  s.island.sessions.find? fun x => x.transport == .ucie g && x.st == .established

/-- Chunks that a byte range touches, in ascending order. -/
def chunksTouched (offset length : Nat) : List Nat :=
  (List.range ((offset + length - 1) / 1048576 - offset / 1048576 + 1)).map fun i => offset / 1048576 + i

/-- The chunk is read over a link or a port: its home is far, and the weight cache does not hold it (R115). -/
def Weights.farChunk (w : Weights) (c : Nat) : Bool :=
  (w.locs[c]?).any fun x => decide (2 ≤ x.1) && !w.lost.contains c && !w.cached.any (·.1 == c)

/-- Far chunks of a request that have not been asked for yet, in ascending order; it keeps the number of each chunk it has asked for. -/
def State.chunksLeft (s : State) (r : Req) (f : WeightsF) : List (Weights × Nat) :=
  match s.weights.find? fun w => w.model == f.model with
  | some w => ((chunksTouched f.offset f.length).filter fun c => w.farChunk c && !r.waits.contains c).map fun c => (w, c)
  | none => []

/-- Read the far chunks over their links or ports in ascending order, as many as staging takes (R93, R115, R116). -/
def State.readChunks (s : State) (id tenant : Nat) : List (Weights × Nat) → State
  | [] => s
  | (w, c) :: rest =>
    let (tier, addr) := (w.locs[c]?).getD (1, 0)
    let gone := if tier = 2 then (match s.extentAt addr with
      | some e => if e.st = .active then none else if e.st = .draining then some stExtentRevoked else some stDataIntegrity
      | none => some stDataIntegrity) else none
    match gone with
    | some st => (s.req? id).elim s fun r => s.faultReq r st noBlock noLayer
    | none =>
    if !s.stagingFree id chunkGrains then s
    else
      let s := s.pageTransfer (.chunk id w.model c) { ownerHdr 1 tenant with own := false } tier addr chunkGrains 0 none
      (s.modReq id fun r => { r with waits := c :: r.waits }).readChunks id tenant rest

/-- Ask for the far chunks of a FETCH_WEIGHTS that staging has room for now. -/
def State.chunksMore (s : State) (id : Nat) : State :=
  match s.req? id with
  | none => s
  | some r => match r.desc with
    | .weights f => if r.phase = .started then s.readChunks id r.tenant (s.chunksLeft r f) else s
    | _ => s

/-- A FETCH_WEIGHTS on a group without a session ends LINK_FAULT (R325). -/
def State.beginWeights (s : State) (r : Req) (f : WeightsF) : State :=
  match s.checkWeights r f with
  | some (st, res) => s.finish r st res
  | none =>
    match s.groupSession (s.groupOfFn r.fn), s.weights.find? fun w => w.model == f.model with
    | some _, some _ => (s.modReq r.id fun r => { r with phase := .started }).chunksMore r.id
    | _, _ => s.finish r stLinkFault (resFaultAt noBlock noLayer)

def State.modWeights (s : State) (model : Nat) (g : Weights → Weights) : State := { s with weights := mapIf (·.model == model) g s.weights }

/-- Places of 64 grains in the weight cache that hold a chunk. -/
def State.cachePlaces (s : State) : List Nat := s.weights.flatMap fun w => w.cached.map Prod.snd

/-- A full weight cache drops the copy with the lowest count (R115), the first in the list of images and chunks among equals (log entry
98, DESIGN CHOICE). -/
def State.roomInCache (s : State) : State :=
  let held := s.weights.flatMap fun w => w.cached.map fun k => (w.model, k.1, w.counts.getD k.1 0)
  if chunkGrains * (held.length + 1) ≤ s.params.weightsCache then s
  else match held.foldl (fun b x => match b with
      | some y => if x.2.2 < y.2.2 then some x else some y
      | none => some x) (none : Option (Nat × Nat × Nat)) with
    | none => s
    | some y => s.modWeights y.1 fun w => { w with cached := w.cached.filter (·.1 != y.2.1) }

/-- A read of chunk `c` raises its count, and a chunk whose home is T2 or T3 is copied into the weight cache (R98, R115). -/
def State.readChunk (s : State) (model tier c : Nat) : State :=
  let s := s.modWeights model fun w => { w with counts := w.counts.set c (min 255 (w.counts.getD c 0 + 1)) }
  if tier ≤ 1 || (s.weights.any fun w => w.model == model && w.cached.any (·.1 == c)) || decide (s.params.weightsCache < chunkGrains) then s
  else
    let s := s.roomInCache
    let place := (freeRow s.cachePlaces (s.params.weightsCache / chunkGrains)).getD 0
    s.modWeights model fun w => { w with cached := w.cached ++ [(c, place)] }

/-- A chunk whose home has lost it, or that fails its seal there, is lost: its locator says so (R115, R267). -/
def State.chunkLost (s : State) (model c : Nat) : State := s.modWeights model fun w => { w with lost := c :: w.lost.filter (· != c) }

/-- Weights counter of a group (R325). -/
def State.weightCounter (s : State) (g : Nat) : Nat := (s.island.counters.find? fun c => c.1 == g).elim 0 (·.2)

/-- Plaintext of the chunks that a FETCH_WEIGHTS reads, each checked whole under the key in the model's slot; none where a chunk is lost or
fails its tag (R115, R323). -/
def openChunks (w : Weights) (key : BitVec 256) (cs : List Nat) : Option Bytes :=
  if cs.any fun c => w.lost.contains c && !w.cached.any (·.1 == c) then none
  else cs.foldl (fun (b : Option Bytes) c => b.bind fun b => (w.opened key c).map fun p => b ++ p) (some [])

/-- The chunks are read, checked, and written as ciphertext with its trailer, under the keys of the group's slot (R323, R325). The weights
counter rises with each FETCH_WEIGHTS that is served, however it ends; an empty slot is INTERNAL_FAULT (R313). -/
def State.weightsTransfer (s : State) (r : Req) (f : WeightsF) (ok : Bool) : State :=
  match s.model? f.model, s.groupSession (s.groupOfFn r.fn) with
  | some m, some _ =>
    let s := s.chunksMore r.id
    let reads := s.txns.any fun t => match t.kind with
      | .chunk id _ _ => id == r.id
      | _ => false
    if r.phase ≠ .started ∨ reads ∨ !(((s.req? r.id).elim [] fun r => s.chunksLeft r f).isEmpty) then s
    else
      let g := s.groupOfFn r.fn
      let n := s.weightCounter g
      let s := { s with island := { s.island with counters := (g, n + 1) :: s.island.counters.filter fun c => c.1 != g } }
      if !ok then s.faultReq r stLinkFault noBlock noLayer
      else
        let cs := chunksTouched f.offset f.length
        let s := cs.foldl (fun s c => s.readChunk m.index m.weightsTier c) s
        match s.keySlot? (modelKeySlot m.index), s.keySlot? (groupKeySlot g), s.weights.find? fun w => w.model == m.index with
        | some key, some gk, some w =>
          (match openChunks w key.key cs with
          | none => s.faultReq r stDataIntegrity noBlock noLayer
          | some b =>
            let plain := (b.drop (f.offset % 1048576)).take f.length
            let iv : BitVec 96 := BitVec.ofNat 96 (gk.key2.toNat % 2 ^ 32 + n % 2 ^ 64 * 2 ^ 32)
            let aad := leBytes 8 m.fingerprint.toNat ++ leBytes 8 f.offset ++ leBytes 4 f.length
            let (ct, tag) := Config.aesGcm gk.key iv aad plain
            (s.hostPut r f.buffer (ct ++ leBytes 32 (tag.toNat + n % 2 ^ 64 * 2 ^ 128))).finish r stOk 0)
        | none, _, _ => s.faultReq r stInternalFault noBlock noLayer
        | _, none, _ => s.faultReq r stInternalFault noBlock noLayer
        | _, _, none => s.faultReq r stDataIntegrity noBlock noLayer
  | _, none => s.finish r stLinkFault (resFaultAt noBlock noLayer)
  | none, _ => s.finish r stInvalidField 0

end Sys2Proof.Machine
end

