-- ==== Sys2Proof/Machine/Tables.lean ====
section
/-! DEFINITION. Code tables (08_exponent_coding): LOAD_TABLE in its three ops and RETIRE_TABLE (R165, R167 to R170),
how a peer's table comes in (R171), and the second decode of a page that failed one (R175). -/

namespace Sys2Proof.Machine

/-! ### LOAD_TABLE (R169) -/

/-- The table of a domain under an id that a command names; an id that is free or of another domain is none (R167). -/
def State.domainTable (s : State) (domain id : Nat) : Option CodeTable :=
  s.tables.find? fun t => t.id == id && t.domain == domain

def State.tableAdmin (s : State) (tenant : Nat) : Bool := (s.tenantRec? tenant).elim false (·.tableAdmin)

/-- Stream fields of LOAD_TABLE: a registered model, a format of it from 0 to 5, and layers of the model (R168). -/
def State.streamFieldsOk (s : State) (f : LoadTableF) : Bool :=
  match s.model? f.model with
  | none => false
  | some m => decide (f.fmt ≤ 5) && bit m.kvFormats f.fmt && decide (f.layerFirst + f.layerCount ≤ m.layers)

def State.checkTableLoad (s : State) (r : Req) (f : LoadTableF) : Option Bad :=
  if !s.streamFieldsOk f ∨ f.image % 64 ≠ 0 ∨ (0 < f.layerCount ∧ !s.tableAdmin r.tenant) then some (stInvalidField, 0) else none

def State.checkTableSelect (s : State) (r : Req) (f : LoadTableF) : Option Bad :=
  let tableOk := f.tableId = 0 || (match s.domainTable (s.domainOf r.tenant) f.tableId with
    | some t => t.st == .live && t.fmt == f.fmt
    | none => false)
  if !s.streamFieldsOk f ∨ !tableOk ∨ !s.tableAdmin r.tenant then some (stInvalidField, 0) else none

def State.checkTableExport (s : State) (r : Req) (f : LoadTableF) : Option Bad :=
  let tableOk := match s.domainTable (s.domainOf r.tenant) f.tableId with
    | some t => t.st != .faulted
    | none => false
  if f.image % 64 ≠ 0 ∨ !tableOk then some (stInvalidField, 0) else none

/-- One stream reference more or less on a table. -/
def State.streamRef (s : State) (id : Nat) (g : Nat → Nat) : State :=
  if id = 0 then s else s.modTable id fun t => { t with streamRefs := g t.streamRefs }

/-- Make a table current for one stream: one stream reference moves from its previous table (R169). -/
def State.setStream (s : State) (domain model fmt layer table : Nat) : State :=
  let old := s.streamTable domain model fmt layer
  if old = table then s
  else
    let s := (s.streamRef old fun n => n - 1).streamRef table fun n => n + 1
    let rest := s.streams.filter fun x => !(x.domain == domain && x.model == model && x.fmt == fmt && x.layer == layer)
    { s with streams := if table = 0 then rest else { domain := domain, model := model, fmt := fmt, layer := layer, table := table } :: rest }

/-- Make a table current for every layer named. -/
def State.setStreams (s : State) (domain table : Nat) (f : LoadTableF) : State :=
  (List.range f.layerCount).foldl (fun s i => s.setStream domain f.model f.fmt (f.layerFirst + i) table) s

/-- Enter a table under an id. -/
def State.enterTable (s : State) (id domain : Nat) (image : Bytes) : State :=
  { s with tables := { id := id, st := .live, domain := domain, fmt := imageFormat image, image := image, digest := imageDigest image,
                       pageRefs := 0, streamRefs := 0, mirrorA := s.newMirrors.1, mirrorB := s.newMirrors.2 } :: s.tables }

/-- Bytes of a table image (R165). -/
def tableImageBytes : Nat := 544

/-- The image of op 0 arrives: it is checked, merged or entered, and made current (R165, R169). -/
def State.tableLoadArrives (s : State) (r : Req) (f : LoadTableF) (data : Bytes) : State :=
  let im := cleanImage (data.take tableImageBytes)
  let d := s.domainOf r.tenant
  if im.length ≠ tableImageBytes ∨ !imageOk im ∨ imageFormat im ≠ f.fmt then s.finish r stInvalidField 0
  else match s.tables.find? fun t => t.domain == d && t.st == .live && t.image == im with
    | some t => (s.setStreams d t.id f).finish r stOkMerged (resTable t.id)
    | none =>
      let quota := (s.domain? d).elim 0 (·.tableQuota)
      if quota ≤ (s.tables.filter fun t => t.domain == d).length then s.finish r stRefusedCapacity 0
      else if s.metaGone then s.finish r s.noPlace 0
      else match s.tabFree.take with
        | none => s.finish r stRefusedCapacity 0
        | some (id, fl) => (({ s with tabFree := fl }.enterTable id d im).setStreams d id f).finish r stOk (resTable id)

/-- The transfer of a LOAD_TABLE ends: the image of op 0 has come, or that of op 2 goes (R169). -/
def State.tableTransfer (s : State) (r : Req) (ok : Bool) (data : Bytes) : State :=
  if r.phase ≠ .started then s
  else if !ok then s.faultReq r stLinkFault noBlock noLayer
  else match r.desc with
    | .tableLoad f => s.tableLoadArrives r f data
    | .tableExport f => (s.hostPut r f.image r.data).finish r stOk (resTable f.tableId)
    | _ => s

def State.beginTableLoad (s : State) (r : Req) : State := s.modReq r.id fun r => { r with phase := .started }

def State.selectTable (s : State) (r : Req) (f : LoadTableF) : State :=
  match s.checkTableSelect r f with
  | some (st, res) => s.finish r st res
  | none => (s.setStreams (s.domainOf r.tenant) f.tableId f).finish r stOk (resTable f.tableId)

/-- Op 1. The command loads the table first, and one that the load makes faulted is refused (R26, R167, R171); so do op 2 and
RETIRE_TABLE. -/
def State.beginTableSelect (s : State) (r : Req) (f : LoadTableF) : State := (s.loadTable f.tableId).selectTable r f

def State.exportTable (s : State) (r : Req) (f : LoadTableF) : State :=
  match s.checkTableExport r f, s.domainTable (s.domainOf r.tenant) f.tableId with
  | none, some t => s.modReq r.id fun r => { r with phase := .started, data := t.image }
  | some (st, res), _ => s.finish r st res
  | none, none => s.finish r stInvalidField 0

def State.beginTableExport (s : State) (r : Req) (f : LoadTableF) : State := (s.loadTable f.tableId).exportTable r f

/-! ### RETIRE_TABLE (R170) -/

def State.checkRetire (s : State) (r : Req) (f : RetireF) : Option Bad :=
  let tableOk := match s.domainTable (s.domainOf r.tenant) f.tableId with
    | some t => t.st != .faulted
    | none => false
  if !tableOk ∨ !s.tableAdmin r.tenant then some (stInvalidField, 0) else none

def State.retireTable (s : State) (r : Req) (f : RetireF) : State :=
  match s.checkRetire r f, s.domainTable (s.domainOf r.tenant) f.tableId with
  | none, some t =>
    if t.st = .live ∧ t.pageRefs = 0 ∧ t.streamRefs = 0 then
      ({ s with tables := s.tables.filter fun x => x.id != t.id }.putTableId t.id).finish r stOk 0
    else
      let s := if f.defer ∧ t.streamRefs = 0 then s.modTable t.id fun t => { t with st := .retiring } else s
      s.finish r stTableInUse (resRetire t.pageRefs t.streamRefs)
  | some (st, res), _ => s.finish r st res
  | none, none => s.finish r stInvalidField 0

def State.beginRetire (s : State) (r : Req) (f : RetireF) : State := (s.loadTable f.tableId).retireTable r f

/-! ### Import (R171) -/

/-- Id for an imported table: from the import reserve first. -/
def State.takeImportId (s : State) : Option (Nat × State) :=
  match s.impFree.take with
  | some (id, fl) => some (id, { s with impFree := fl })
  | none => s.tabFree.take.map fun (id, fl) => (id, { s with tabFree := fl })

/-- Install a fetched image of a domain; with no id left an event names the shortage. `false` says that it is not here, as where no
memory holds either copy of the records (R12). -/
def State.importTable (s : State) (domain : Nat) (digest : BitVec 64) (image : Bytes) : Bool × State :=
  let image := cleanImage image
  if (s.tableByDigest domain digest).isSome then (true, s)
  else if image.length ≠ tableImageBytes ∨ !imageOk image ∨ imageDigest image ≠ digest ∨ s.metaGone then (false, s)
  else match s.takeImportId with
    | some (id, s) => (true, s.enterTable id domain image)
    | none => (false, s.note "TABLE_IDS_EXHAUSTED" (evSource 11 domain) 0)

/-! ### The second decode of a page (R175) -/

/-- A private page that fails twice is lost, as a cache-region loss is; a published one makes its entry faulted. DEDUCED (log entry 128):
a proxy's copy of a published page is dropped and its entry stays, since R73 has no such row for a proxy entry and R290 has the page read
again from its holder; a page decoded from staging has nothing of its own to lose. -/
def State.recheckFails (s : State) (blk layer : Nat) : State :=
  match s.rec? blk with
  | none => s
  | some r => if r.published ∧ !s.isCopy blk then s.faultOwner blk else s.pageLost blk layer

end Sys2Proof.Machine
end

