-- ==== Sys2Proof/Machine/NearMemory.lean ====
section
/-! DEFINITION. Near-memory operations (R193 to R195, R138, R234, R280): FILL, COPY, COMPARE and REDUCE over memory
operands. -/

namespace Sys2Proof.Machine

/-! ### Memory operands (R193) -/

/-- The pages of a kind-2 operand as a raw-form request for pages (R111, R193). -/
def opFetch (o : MemOpF) : FetchF :=
  { seq := o.handle, firstBlock := bits o.address 0 18, blockCount := bits o.address 18 7, firstLayer := bits o.address 32 8,
    layerCount := bits o.address 40 9, form := 0, buffer := 0, bufferLen := 2 ^ 40 }

/-- The function's tenant may name the direct region. -/
def State.directFor (s : State) (tenant : Nat) : Bool := s.params.directBytes != 0 && s.params.directTenant == tenant

/-- Bytes of an operand; a kind-2 operand has its page count times its stride (R194). -/
def State.opLength (s : State) (r : Req) (o : MemOpF) : Nat :=
  if o.kind ≠ 2 then o.length
  else match s.openSeqOf r o.handle with
    | .error _ => 0
    | .ok q =>
      match s.model? q.model with
      | none => 0
      | some m => fetchCount (opFetch o) * fetchStride m 0

/-- Checks of one operand: its kind's alignment, length and range, and, for pages, those of R111. -/
def State.checkOp (s : State) (r : Req) (kinds : List Nat) (o : MemOpF) : Option Bad :=
  if !kinds.contains o.kind then some (stInvalidField, 0)
  else if o.kind = 2 then
    if o.length ≠ 0 then some (stInvalidField, 0) else s.checkFetch r (opFetch o)
  else if o.address % 64 ≠ 0 ∨ o.length % 64 ≠ 0 ∨ o.length < 64 ∨ (o.kind ≤ 1 ∧ o.handle ≠ 0) then some (stInvalidField, 0)
  else if o.kind = 1 ∧ (!s.directFor r.tenant ∨ s.params.directBytes < o.address + o.length) then some (stInvalidField, 0)
  else none

/-- Two operands of one kind that overlap (R194). -/
def opsOverlap (a b : MemOpF) : Bool :=
  a.kind == b.kind && a.handle == b.handle && decide (a.address < b.address + b.length ∧ b.address < a.address + a.length)

/-- The first failing check. -/
def firstBad : List (Option Bad) → Option Bad
  | [] => none
  | some b :: _ => some b
  | none :: rest => firstBad rest

def State.checkFill (s : State) (r : Req) (f : FillF) : Option Bad := s.checkOp r [1, 3] f.dst

def State.checkCopy (s : State) (r : Req) (f : TwoOpF) : Option Bad :=
  firstBad [s.checkOp r [0, 1, 2, 3] f.a, s.checkOp r [0, 1, 3] f.b,
    if s.opLength r f.a ≠ s.opLength r f.b ∨ opsOverlap f.a f.b then some (stInvalidField, 0) else none]

def State.checkCompare (s : State) (r : Req) (f : TwoOpF) : Option Bad :=
  firstBad [s.checkOp r [0, 1, 2, 3] f.a, s.checkOp r [0, 1, 2, 3] f.b,
    if s.opLength r f.a ≠ s.opLength r f.b then some (stInvalidField, 0) else none]

/-- Bytes of one source and of the output of a REDUCE (R195). -/
def reduceSource (f : ReduceF) (lse : Bool) : Nat := if lse then f.count * (8 + 4 * f.headDim) else f.count * 4
def reduceOutput (f : ReduceF) (lse : Bool) : Nat :=
  let w := if f.outFormat = 0 then 4 else 2
  if lse then f.count * (8 + w * f.headDim) else f.count * w

def State.checkReduce (s : State) (r : Req) (f : ReduceF) (lse : Bool) : Option Bad :=
  let size := reduceSource f lse
  let last := f.srcBase + (f.srcCount - 1) * f.srcStride + size
  if f.srcCount < 2 ∨ 16 < f.srcCount ∨ f.count = 0 ∨ (lse ∧ (f.headDim = 0 ∨ 512 < f.headDim)) ∨ f.srcBase % 64 ≠ 0
      ∨ f.srcStride % 64 ≠ 0 ∨ f.srcStride < size ∨ (f.srcKind = 1 ∧ (!s.directFor r.tenant ∨ s.params.directBytes < last)) then
    some (stInvalidField, 0)
  else firstBad [s.checkOp r [0, 1, 3] f.dest, if f.dest.length < reduceOutput f lse then some (stInvalidField, 0) else none]

/-- Operands of an operation: sources, then destinations. -/
def nearOps : Desc → List MemOpF × List MemOpF
  | .fill f => ([], [f.dst])
  | .copy f => ([f.a], [f.b])
  | .compare f => ([f.a, f.b], [])
  | .reduceSum f => ([], [f.dest])
  | .reduceMax f => ([], [f.dest])
  | .lseMerge f => ([], [f.dest])
  | _ => ([], [])

/-- Fields of a REDUCE. -/
def reduceOf : Desc → Option (ReduceF × Bool)
  | .reduceSum f => some (f, false)
  | .reduceMax f => some (f, false)
  | .lseMerge f => some (f, true)
  | _ => none

/-- Check of a near-memory operation. -/
def State.checkNear (s : State) (r : Req) : Option Bad :=
  match r.desc with
  | .fill f => s.checkFill r f
  | .copy f => s.checkCopy r f
  | .compare f => s.checkCompare r f
  | .reduceSum f => s.checkReduce r f false
  | .reduceMax f => s.checkReduce r f false
  | .lseMerge f => s.checkReduce r f true
  | _ => some (stInvalidField, 0)

/-! ### Price (R234) -/

/-- Bytes the engine reads for an operand: W for each page of a kind-2 source. -/
def State.opReads (s : State) (r : Req) (o : MemOpF) : Nat :=
  if o.kind ≠ 2 then o.length
  else match s.openSeqOf r o.handle with
    | .error _ => 0
    | .ok q =>
      match s.model? q.model with
      | none => 0
      | some m => sumBy (fun i => s.worstBytes q (s.versionAhead r q) m (fetchSlot (opFetch o) i).1) (List.range (fetchCount (opFetch o)))

/-- Sequences that an operation's kind-2 operands name. -/
def State.nearSeqs (s : State) (r : Req) : List Seq := (namesOf r.desc).filterMap fun h => s.seqOf r.tenant h

/-- Cluster and engine on which a near-memory operation starts earliest. -/
def State.placeNear (s : State) (t0 d : Nat) : Option (Nat × Nat × Nat) :=
  (List.range 12).foldl (fun (best : Option (Nat × Nat × Nat)) k => match s.placePass s.calendar k t0 d with
    | none => best
    | some (l, t) => match best with
      | some b => if t < b.2.2 then some (k, l, t) else some b
      | none => some (k, l, t)) none

/-- Terms B_e, B_h inbound, B_h outbound, B_d and E of R234. -/
def State.nearTerms (s : State) (r : Req) : Nat × Nat × Nat × Nat × Nat :=
  let (src, dst) := nearOps r.desc
  let len := fun (k : Nat) (l : List MemOpF) => sumBy (fun o => if o.kind = k then o.length else 0) l
  match reduceOf r.desc with
  | some (f, lse) =>
    let b := f.srcCount * reduceSource f lse
    let out := reduceOutput f lse
    let host := f.srcKind = 0
    (b, if host then b else 0, if f.dest.kind = 0 then out else 0, (if host then 0 else b) + (if f.dest.kind = 1 then out else 0),
      f.count * f.srcCount * if lse then f.headDim + 2 else 1)
  | none => (sumBy (s.opReads r) src, len 0 src, len 0 dst, len 1 src + len 1 dst, 0)

/-- Bytes that an operation writes to the direct region. -/
def directWrites (d : Desc) : Nat :=
  match reduceOf d with
  | some (f, lse) => if f.dest.kind = 1 then reduceOutput f lse else 0
  | none => sumBy (fun (o : MemOpF) => if o.kind = 1 then o.length else 0) (nearOps d).2

/-- Pages of the kind-2 operands, each priced from the tier summaries (R229). -/
def State.opTerms (s : State) (r : Req) : List FetchTerm :=
  (nearOps r.desc).1.flatMap fun o =>
    if o.kind ≠ 2 then []
    else match s.openSeqOf r o.handle with
      | .error _ => []
      | .ok q =>
        match s.model? q.model with
        | none => []
        | some m => (List.range (fetchCount (opFetch o))).map fun i =>
            s.fetchTerm q (s.versionAhead r q) m 0 1 (s.heldPages q) (fetchSlot (opFetch o) i).1 (fetchSlot (opFetch o) i).2

/-- Every far route of the operation's pages is open to class 0 (R244). -/
def State.nearRoutesOk (s : State) (r : Req) : Bool := (s.opTerms r).all fun t => t.route.elim true s.routeForZero

/-- Bytes of pages on one stack, and over one far route. -/
def nearBytes (ts : List FetchTerm) (n : Nat) : Nat := sumBy (fun t => if t.route.isNone ∧ t.home = n then t.bytes else 0) ts
def farBytes (ts : List FetchTerm) (k : Nat) : Nat := sumBy (fun t => if t.route = some k then t.bytes else 0) ts

/-- The price of a near-memory operation (R234) and its reservations (R227): the bytes of the direct region fall evenly on the twelve
stacks (log entry 105), a written byte as four transfers (R288). -/
def State.nearPrice (s : State) (r : Req) : Option (Nat × List Resv) :=
  let g := s.groupOfFn r.fn
  let u0 := max 1 (s.rateUcie g)
  let (be, bin, bout, bd, e) := s.nearTerms r
  let d := max (max (cdiv be 512) (cdiv (bin + bout) u0)) (max (cdiv bd rateStack) (cdiv e 512))
  if !s.nearRoutesOk r then none
  else
    let t0 := s.waitEnd r + max (s.hostRead g) 160 + 47
    match s.placeNear t0 d with
    | none => none
    | some (k, l, t) =>
      let c := t + d + 16
      let ts := s.opTerms r
      let far := (ts.filterMap (·.route)).eraseDups
      some (c, s.chargeLost <| [{ req := r.id, cal := .engine k l, lo := t, hi := t + d + brineTicks, amount := d + brineTicks },
                { req := r.id, cal := .ucieIn g, lo := s.waitEnd r, hi := t + d, amount := bin },
                { req := r.id, cal := .ucieOut g, lo := t, hi := c, amount := bout + 32 }] ++
        (List.range 12).map (fun n => { req := r.id, cal := .stack n, lo := t, hi := t + d, amount := cdiv (bd + 3 * directWrites r.desc) 12 + nearBytes ts n }) ++
        far.map fun f => { req := r.id, cal := .fabric f, lo := s.waitEnd r, hi := t + d, amount := farBytes ts f })

def State.decideNear (s : State) (r : Req) : Decision :=
  if s.zeroLacks r (s.nearSeqs r) then .capacity else s.judgePrice r.deadline (s.nearPrice r)

/-! ### Running an operation -/

/-- Link to the tray of a region (R273): the lowest Asvis link that is up to it. -/
def State.regionLink (s : State) (id : Nat) : Option Nat :=
  s.ports.findSome? fun p => match p.id, p.peer with
    | .asvis l, some h => if p.st = .up ∧ h.tray ∧ h.device = Config.regionTray id then some l else none
    | _, _ => none

/-- Request the far pages of a kind-2 operand for a request that holds its pin. -/
def State.askOp (s : State) (r : Req) (o : MemOpF) : State :=
  match r.pin.bind s.pinned? with
  | none => s
  | some (q, v) =>
    match s.model? q.model with
    | none => s
    | some m =>
      s.askSlots r q v m ((List.range (fetchCount (opFetch o))).map (fetchSlot (opFetch o)))

/-- The request as it reads its second kind-2 operand: its pin is the second one. -/
def Req.second (r : Req) : Req := { r with pin := r.pin2 }

/-- Kind-2 operands, in order. -/
def pageOps (d : Desc) : List MemOpF := (nearOps d).1.filter fun o => o.kind == 2

/-- Pin the sequences of the kind-2 operands and ask for their far pages. -/
def State.pinOps (s : State) (r : Req) : State :=
  let seqAt := fun (s : State) (i : Nat) => ((pageOps r.desc)[i]?).bind fun o => (s.seqOf r.tenant o.handle).map fun q => (o, q)
  let s := match seqAt s 0 with
    | some (o, q) =>
      let s := s.pinCurrent r.id q
      s.askOp ((s.req? r.id).getD r) o
    | none => s
  match seqAt s 1 with
  | some (o, q) =>
    let s := s.pinSecond r.id q
    s.askOp (((s.req? r.id).getD r).second) o
  | none => s

/-- Operands of an operation that are shared regions, sources first. -/
def regionOps (d : Desc) : List MemOpF := ((nearOps d).1 ++ (nearOps d).2).filter fun o => o.kind == 3

/-- Every operand is a shared region on one tray (R280). -/
def allRegions (d : Desc) : Bool :=
  let (src, dst) := nearOps d
  (reduceOf d).isNone && (src ++ dst).all (fun o => o.kind == 3) &&
    (src ++ dst).all fun o => Config.regionTray o.handle == Config.regionTray ((src ++ dst).headD o).handle

/-- Fields of an operation as NMO carries them. -/
def nmoBytes (d : Desc) : Bytes :=
  let (src, dst) := nearOps d
  let pat := match d with
    | .fill f => leBytes 8 f.pattern.toNat
    | _ => []
  (src ++ dst).flatMap (fun o => leBytes 4 o.handle ++ leBytes 8 o.address ++ leBytes 8 o.length) ++ pat

/-- Kind-3 sources, in order. -/
def regionSources (d : Desc) : List MemOpF := (nearOps d).1.filter fun o => o.kind == 3

/-- Send a read of one kind-3 source to its tray (R280). It names the version that the operation has pinned of the region, or 0, which the
tray answers from the highest published one (R273; log entry 107). -/
def State.readRegion (s : State) (r : Req) (o : MemOpF) : State :=
  let v := ((r.regionVers.find? fun x => x.1 == o.handle).map (·.2)).getD 0
  match s.regionLink o.handle with
  | some l => s.request l msgRegionRead (o.handle + v * 2 ^ 32) o.address r.tenant (.region r.id) []
  | none => s.faultReq r stLinkFault noBlock noLayer

/-- Kind-3 sources that are read first: one of each region, whose answer pins the version for the others. -/
def firstReads (d : Desc) : List MemOpF :=
  (regionSources d).foldl (fun l o => if l.any fun x => x.handle == o.handle then l else l ++ [o]) []

def State.readRegions (s : State) (r : Req) : State := (firstReads r.desc).foldl (fun s o => s.readRegion r o) s

/-- A near-memory operation begins: with every operand on one tray it goes there as NMO, otherwise an engine here runs it. -/
def State.beginNear (s : State) (r : Req) : State :=
  match s.checkNear r with
  | some (st, res) => s.finish r st res
  | none =>
    if (regionOps r.desc).any fun o => (s.regionLink o.handle).isNone then s.finish r stLinkFault (resFaultAt noBlock noLayer)
    else match (if allRegions r.desc then (regionOps r.desc).head?.bind fun o => s.regionLink o.handle else none) with
      | some l => (s.request l msgNmo 0 (opcodeOf r.desc) r.tenant (.nmo r.id) (nmoBytes r.desc)).modReq r.id fun r => { r with phase := .remote }
      | none => ((s.modReq r.id fun r => { r with phase := .started }).readRegions r).pinOps r

/-- Slots of the kind-2 operands that an operation has still to read, in order: operand, block and layer. -/
def Req.slotsLeft (r : Req) : List (Nat × Nat × Nat) :=
  (((pageOps r.desc).zipIdx).flatMap fun x => (List.range (fetchCount (opFetch x.1))).map fun i => (x.2, fetchSlot (opFetch x.1) i)).drop r.done

/-- The request as it reads kind-2 operand `i`. -/
def Req.reader (r : Req) (i : Nat) : Req := if i = 0 then r else r.second

/-- Bytes of one slot of a kind-2 operand, in the raw layout of R112 (R193). -/
def State.opStride (s : State) (r : Req) (i : Nat) : Nat :=
  ((((r.reader i).pin.bind s.pinned?).bind fun x => s.model? x.1.model).map fun m => fetchStride m 0).getD 0

/-- One slot of a kind-2 operand: its page is read (R38, R193), its staged copy leaves and its count rises (R98). An error is a status;
`none` says that a far page is still awaited. -/
def State.readSlot (s : State) (r : Req) (i b layer : Nat) : State × Option (Except Nat Unit) :=
  let r' := r.reader i
  match r'.pin.bind s.pinned? with
  | none => (s, some (.error stHandleStale))
  | some (q, v) =>
    match s.model? q.model with
    | none => (s, some (.error stInvalidField))
    | some m =>
      let s := s.loadBlock q v b
      match s.walkPage r' q v m layer b with
      | .wait => (s.askSlots r' q v m ((r.slotsLeft.filter fun x => x.1 == i).map (·.2)), none)
      | .bad st => (s.pageFailed r' q v layer b st (s.decoder q v layer b), some (.error st))
      | .ok raw _ blk =>
        let s := (s.copyFor? r' b layer).elim s fun c => { s with staging := s.staging.filter fun x => x.id != c.id }
        ((s.ripen blk layer 1).modReq r.id fun r =>
          { r with data := r.data ++ raw ++ List.replicate (fetchStride m 0 - raw.length) 0, done := r.done + 1 }, some (.ok ()))

/-- The pages of the kind-2 operands, read in slot order as far as they are here; `some` says that the first page that fails ends the
operation so. -/
def State.readSlots (id : Nat) : List (Nat × Nat × Nat) → State → State × Option (Nat × Nat × Nat)
  | [], s => (s, none)
  | (i, b, layer) :: rest, s =>
    match s.req? id with
    | none => (s, none)
    | some r =>
      match s.readSlot r i b layer with
      | (s, some (.ok _)) => State.readSlots id rest s
      | (s, some (.error st)) => (s, some (st, b, layer))
      | (s, none) => (s, none)

/-- A run of the direct region holds a line that fails its check (R201). -/
def State.directFails (s : State) (address length : Nat) : Bool :=
  s.directBad.any fun l => decide (address < 64 * l + 64 ∧ 64 * l < address + length)

/-- Bytes of each source in order: `pages` holds those of the kind-2 operands, `data` those that come from host memory and from regions,
one after the other. -/
def State.sourceBytes (s : State) (r : Req) : List MemOpF → Nat → Bytes → Bytes → List Bytes
  | [], _, _, _ => []
  | o :: rest, i, pages, data =>
    match o.kind with
    | 1 => s.directRead o.address o.length :: s.sourceBytes r rest i pages data
    | 2 =>
      let n := fetchCount (opFetch o) * s.opStride r i
      pages.take n :: s.sourceBytes r rest (i + 1) (pages.drop n) data
    | _ => data.take o.length :: s.sourceBytes r rest i pages (data.drop o.length)

/-- A write to the direct region covers a sector in part whose old content fails its check: it cannot be merged (R305). -/
def State.directBlocked (s : State) (a n : Nat) : Bool :=
  s.directBad.any fun l =>
    let k := l / 8
    decide (a < 512 * k + 512 ∧ 512 * k < a + n) && !decide (a ≤ 512 * k ∧ 512 * k + 512 ≤ a + n)

/-- Write the destination of an operation and complete it (R194, R195). A region's bytes go to its tray, whose answer decides (R273,
R280). Where a sector that is written in part fails its check, nothing is written (R305; log entry 145). -/
def State.putDest (s : State) (r : Req) (o : MemOpF) (data : Bytes) (fl : RecFlags := {}) : State :=
  match o.kind with
  | 0 => (s.hostPut r o.address data).finish r stOk 0 fl
  | 1 => if s.directBlocked o.address data.length then s.finish r stDataIntegrity (resFaultAt noBlock noLayer)
    else (s.directWrite o.address data).finish r stOk 0 fl
  | _ => match s.regionLink o.handle with
    | some l =>
      let h := s.hdrFor (.region r.id) { tenant := r.tenant, domain := s.domainOf r.tenant }
      ((State.sendPage l msgRegionWrite s.ids o.handle o.address false h (pageFrames data) 0 s data).openTxn (.asvis l) (.region r.id)
        r.tenant none).modReq r.id fun r => { r with phase := .writing, answer := some { status := stOk, result := 0, flags := fl } }
    | none => s.finish r stLinkFault (resFaultAt noBlock noLayer)

/-- Offset of the first byte in which two byte strings differ, all ones when they are equal (R194). -/
def firstDiff (a b : Bytes) : Nat := (((a.zip b).findIdx? fun x => x.1 != x.2)).getD (2 ^ 64 - 1)

/-- FP32 element `i` of a source. -/
def f32At (b : Bytes) (i : Nat) : BitVec 32 := BitVec.ofNat 32 (ofLeBytes ((b.drop (4 * i)).take 4))

/-- IEEE maximum of elements that are not NaN; of zeros the positive one. -/
def ieeeMax (a b : BitVec 32) : BitVec 32 :=
  if lt32 a b then b
  else if lt32 b a then a
  else if a.toNat ≤ b.toNat then a else b

/-- One output element of SUM or MAX as FP32 bits (R195). -/
def reduceElem (sum : Bool) (l : List (BitVec 32)) : BitVec 32 :=
  if sum then rn32 (Ex.sum (l.map exF32))
  else if l.any isNan32 then nan32
  else match l with
    | [] => 0
    | x :: xs => xs.foldl ieeeMax x

/-- Output bytes of one FP32 value in the format named. -/
def outBytes (fmt : Nat) (v : BitVec 32) : Bytes := if fmt = 0 then leBytes 4 v.toNat else leBytes 2 (bf16Of v).toNat

/-- Result of a REDUCE over its sources' bytes, and its nonfinite flag (R138, R195). -/
def reduceResult (d : Desc) (f : ReduceF) (srcs : List Bytes) : Bytes × Bool :=
  match d with
  | .lseMerge _ =>
    let n := 8 + 4 * f.headDim
    let rows := (List.range f.count).map fun k =>
      (lseFold (srcs.map fun b => readPartial f.headDim ((b.drop (k * n)).take n))).getD (.start f.headDim)
    (rows.flatMap fun x => x.bytes f.outFormat, rows.any (·.isNan))
  | .reduceSum _ => ((List.range f.count).flatMap fun i => outBytes f.outFormat (reduceElem true (srcs.map fun b => f32At b i)), false)
  | _ => ((List.range f.count).flatMap fun i => outBytes f.outFormat (reduceElem false (srcs.map fun b => f32At b i)), false)

/-- Source arrays of a REDUCE: from the direct region, or `data` cut into arrays. -/
def State.reduceSources (s : State) (f : ReduceF) (lse : Bool) (data : Bytes) : List Bytes :=
  let n := reduceSource f lse
  (List.range f.srcCount).map fun i =>
    if f.srcKind = 1 then s.directRead (f.srcBase + i * f.srcStride) n else (data.drop (i * n)).take n

/-- Runs of the direct region that an operation reads. -/
def directSources (d : Desc) : List (Nat × Nat) :=
  (((nearOps d).1.filter fun o => o.kind == 1).map fun o => (o.address, o.length)) ++ (match reduceOf d with
    | some (f, lse) => if f.srcKind = 1 then (List.range f.srcCount).map fun i => (f.srcBase + i * f.srcStride, reduceSource f lse) else []
    | none => [])

/-- Some bytes of an operation come from or go to host memory or a region. -/
def outsideOps (d : Desc) : Bool :=
  ((nearOps d).1 ++ (nearOps d).2).any (fun o => o.kind == 0 || o.kind == 3) || (match reduceOf d with
    | some (f, _) => f.srcKind == 0
    | none => false)

/-- Status of an operation whose transfer fails: DATA_INTEGRITY where a direct source fails its check (R194), which a failed transfer
says that has no outside bytes, or comes with the bytes from outside (log entry 106); else LINK_FAULT (R189). -/
def transferFault (d : Desc) (data : Bytes) : Nat :=
  if outsideOps d && (directSources d).isEmpty then stLinkFault
  else if outsideOps d && data.isEmpty then stLinkFault
  else stDataIntegrity

/-- The result of an operation whose sources are here: `pages` are those of its kind-2 operands (R194, R195). -/
def State.nearResult (s : State) (r : Req) (pages data : Bytes) : State :=
  let bs := s.sourceBytes r (nearOps r.desc).1 0 pages data
  match r.desc with
  | .fill f => s.putDest r f.dst ((List.range (f.dst.length / 8)).flatMap fun _ => leBytes 8 f.pattern.toNat)
  | .copy f => s.putDest r f.b (bs.headD [])
  | .compare _ => s.finish r stOk (resDiff (firstDiff (bs.headD []) (bs.getD 1 [])))
  | d =>
    match reduceOf d with
    | none => s
    | some (f, lse) =>
      let (out, bad) := reduceResult d f (s.reduceSources f lse data)
      s.putDest r f.dest out { nonfinite := bad }

/-- A region that the operation reads has still to answer. -/
def State.regionWaits (s : State) (r : Req) : Bool := s.txns.any fun t => t.kind == .region r.id

/-- The transfers of a near-memory operation end: the pages of its kind-2 operands are read as far as they are here, and with all of them
it completes (R193 to R195). -/
def State.nearTransfer (s : State) (r : Req) (ok : Bool) (data : Bytes) : State :=
  if r.phase ≠ .started then s
  else if !ok then s.faultReq r (transferFault r.desc data) noBlock noLayer
  else if (directSources r.desc).any fun x => s.directFails x.1 x.2 then s.faultReq r stDataIntegrity noBlock noLayer
  else match State.readSlots r.id r.slotsLeft s with
    | (s, some (st, b, layer)) => s.faultReq r st b layer
    | (s, none) =>
      match s.req? r.id with
      | none => s
      | some r => if !r.slotsLeft.isEmpty ∨ s.regionWaits r then s else s.nearResult r r.data data

/-- The tray refuses an access to a region. It names the region's version where the access is to a region that it has for the host and is
out of its range, or a write without the grant: INVALID_FIELD (R193, R273). Else a read is a region lookup (R258; log entry 107). -/
def regionFault (st : Nat) (there : Bool) : Nat := if st = 3 ∧ there then stInvalidField else asvisStatus st false

/-- A read of region `id` has been answered from version `v`: the operation has pinned it, and its other sources there are read from it
(R273). -/
def State.pinRegion (s : State) (r : Req) (id v : Nat) : State :=
  if r.regionVers.any fun x => x.1 == id then s
  else
    let r' : Req := { r with regionVers := (id, v) :: r.regionVers }
    let s := s.modReq r.id fun _ => r'
    (((regionSources r.desc).filter fun o => o.handle == id).drop 1).foldl (fun s o => s.readRegion r' o) s

/-- The tray answers an access to a region: a write's answer completes the operation; a read's bytes end as a transfer does, a
refusal ends the operation (R193, R280). A read's bytes come in frames, of which the last ends its transaction. -/
def State.onRegionAnswer (s : State) (id : Nat) (fr : Frame) (write : Bool) : State :=
  if fr.status = 0 ∧ !fr.last then s
  else
    let s := { s with txns := s.txns.filter fun x => x.xid != fr.xid }
    match s.run? id with
    | none => s
    | some r =>
      let st := regionFault fr.status (write || fr.object / 2 ^ 32 != 0)
      if r.phase = .writing then s.writeEnds r (if fr.status = 0 then none else some (st, faultResult st))
      else if fr.status = 0 then s.pinRegion r (fr.object % 2 ^ 32) (fr.object / 2 ^ 32)
      else s.endWith r st

/-- NMO_DONE: the tray's answer becomes the command's (R258, R280). A refusal whose object is not 0 says that a range or the write grant is
what lacks (log entry 107). -/
def State.onNmoDone (s : State) (fr : Frame) : State :=
  match s.txn? fr.xid with
  | none => s
  | some t =>
    let s := { s with txns := s.txns.filter fun x => x.xid != fr.xid }
    match t.kind with
    | .nmo id => match s.run? id with
      | some r =>
        let st := regionFault fr.status (fr.object != 0)
        if st = stOk then s.finish r st (match r.desc with | .compare _ => resDiff fr.object | _ => 0) else s.endWith r st
      | none => s
    | _ => s

end Sys2Proof.Machine
end

