-- ==== Sys2Proof/Machine/Requests.lean ====
section
/-! DEFINITION. From an aperture write to a completion record: stamps, slots and the abort slot (09_zarfy_requests), admission
(R188, R209, R223), the function lifecycle, aborts and fences (10_completions_and_lifecycle), the deadline monitor (R226), and
the ends of transfers and waits. -/

namespace Sys2Proof.Machine

/-! ### Admission -/

/-- FENCE mode 1 names a sequence, which must be open (R24, R36, R42) and no better than the request (R188, R223). -/
def State.checkFence (s : State) (r : Req) (f : FenceF) : Option Bad :=
  if f.mode = 0 then none
  else match s.openSeqOf r f.seq with
    | .error b => some b
    | .ok q => if classOk r q then none else some (stRefusedCapacity, 0)

/-- The checks an opcode's own chapter lists, in its order. -/
def State.checkReq (s : State) (r : Req) : Option Bad :=
  match r.desc with
  | .attachFn _ => some (stInvalidField, 0)
  | .detach _ => none
  | .fence f => s.checkFence r f
  | .openSeq f => s.checkOpen r f
  | .closeSeq h => s.checkClose r h
  | .forkSeq f => s.checkFork r f
  | .truncate f => s.checkBlocks r f
  | .replace f => s.checkBlocks r f
  | .append f => s.checkBlocks r f
  | .pinRange f => s.checkPinRange r f
  | .unpinRange f => s.checkRangeCmd r f true
  | .prefetchHint f => s.checkRangeCmd r f false
  | .lookupHash f => s.checkLookupHash f
  | .lookupToken f => s.checkLookupToken f
  | .lookupFlow f => checkLookupFlow f
  | .attachPrefix f => s.checkAttachPrefix r f
  | .publish f => s.checkPublish r f
  | .withdraw _ => none
  | .fetch f => s.checkFetch r f
  | .attend f => s.checkAttend r f
  | .tableLoad f => s.checkTableLoad r f
  | .tableSelect f => s.checkTableSelect r f
  | .tableExport f => s.checkTableExport r f
  | .retire f => s.checkRetire r f
  | .fill _ => s.checkNear r
  | .copy _ => s.checkNear r
  | .compare _ => s.checkNear r
  | .reduceSum _ => s.checkNear r
  | .reduceMax _ => s.checkNear r
  | .lseMerge _ => s.checkNear r
  | .weights f => s.checkWeights r f
  | .invalidForm _ => some (stInvalidField, 0)
  | .unknown _ => some (stUnknownOpcode, 0)

/-- Checks at admission: FORK_SEQUENCE and PUBLISH_PREFIX behind earlier changes are decided on the version that those leave (R40). -/
def State.checkAdmit (s : State) (r : Req) : Option Bad :=
  match r.desc with
  | .forkSeq f => match s.openSeqOf r f.parent with
    | .error b => some b
    | .ok q => s.checkForkAt r f q (s.versionAhead r q)
  | .publish f => match s.openSeqOf r f.seq with
    | .error b => some b
    | .ok q => s.checkPublishAt r f q (s.versionAhead r q)
  | _ => s.checkReq r

/-- Price of a class-0 commit, with the stack transfers of the pages that it writes to its home stack (R233, R288). -/
def State.commitTerms (s : State) (r : Req) (home : Option Nat) (lens : List Nat) : Nat × List Resv :=
  let (c, rs) := s.commitPrice r (s.groupOfFn r.fn) lens
  let bytes := sumBy (fun n => grainsOf n * grainBytes) lens
  (c, rs ++ home.elim [] fun k => s.writeCharge r.id k (s.t1RegionOf r.tenant) bytes (s.waitEnd r) (c - 16))

/-- R233 for a command that names sequences and supplies pages of the lengths given. -/
def State.decideCommit (s : State) (r : Req) (lens : List Nat) (home : Option Nat := none) : Decision :=
  if s.zeroLacks r ((namesOf r.desc).filterMap fun h => s.seqOf r.tenant h) then .capacity
  else
    let (c, rs) := s.commitTerms r home lens
    s.judge r.deadline c rs

/-- T1 quota takes `u` more grains of a tenant once its own unheld pages are demoted as far as they can be (R96). -/
def State.quotaAfterDemotion (s : State) (tenant u : Nat) : Bool :=
  let region := s.t1RegionOf tenant
  let own := sumBy (fun (x : Nat × Nat × Nat) => match s.rec? x.2.1 with
    | some r => if r.tenant = tenant ∧ !r.published then (r.loc? x.2.2).elim 0 (·.grains) else 0
    | none => 0) (s.demoteList 1 fun a => t1Region a == region)
  s.quotaRoom tenant 1 (u - own)

/-- R233 for APPEND_BLOCKS: its raw pages must fit in free T1 grains of the home stack; those that the reservation does not
take must fit in the rest of the tenant's T1 quota, demotions counted (R96, R208). -/
def State.decideAppend (s : State) (r : Req) (f : BlocksF) : Decision :=
  match s.openSeqOf r f.seq with
  | .error _ => .capacity
  | .ok q =>
    match s.model? q.model with
    | none => .capacity
    | some m =>
      let taken := sumBy (fun x => if x.homeStack = q.homeStack ∧ s.t1RegionOf x.tenant = s.t1RegionOf q.tenant then s.appendGrains x
        else 0) s.seqs
      let u := s.rawGrains q f.blockCount - (if q.t1held then q.t1res else 0)
      if s.freeRegion q.homeStack (s.t1RegionOf q.tenant) < taken + s.rawGrains q f.blockCount then .capacity
      else if u ≠ 0 ∧ !s.quotaAfterDemotion q.tenant u then .capacity
      else s.decideCommit r (List.replicate (f.blockCount * m.layers) (shapeOf m q.fmt).rawBytes) (some q.homeStack)

/-- Search slots of one bucket that class 0 may hold (R227). -/
def lookupLimit : Nat := 136

/-- Ticks from the stamp within which a class-0 lookup's record is sent (R235). -/
def lookupBound : Nat := 117

/-- Search slots reserved in the bucket of a tick (R235). -/
def State.lookupsAt (s : State) (tick : Nat) : Nat :=
  sumBy (fun c => if c.cal = Cal.lookup ∧ c.lo / bucketTicks = tick / bucketTicks then c.amount else 0) s.calendar

/-- R235 for a hash-form lookup. -/
def State.decideLookup (s : State) (r : Req) (f : LookupHashF) : Decision :=
  if !s.monitorFree ∨ !s.tableUp 1 ∨ lookupLimit < s.lookupsAt r.stamp + f.pairs.length then .capacity
  else if r.deadline < r.stamp + lookupBound then .deadline (r.stamp + lookupBound)
  else .accept [{ req := r.id, cal := .lookup, lo := r.stamp, hi := r.stamp + 1, amount := f.pairs.length }]

/-- A table bank in service where the opening enters a flow entry (R90, R223). -/
def State.flowBanksUp (s : State) (k : FlowKeyF) : Bool := k.flow == 0 || s.tableUp (flowTag (k.flow == 2))

/-- Points 2 to 5 of R223 for a class-0 request whose checks have passed. -/
def State.decideZero (s : State) (r : Req) : Decision :=
  match r.desc with
  | .lookupHash f => s.decideLookup r f
  | .fetch f => s.decideFetch r f
  | .attend f => s.decideAttend r f
  | .openSeq f => if s.flowBanksUp f.key then s.decideCommit r [] else .capacity
  | .closeSeq _ => s.decideCommit r []
  | .attachPrefix f => if s.attachSearches f then .capacity else s.decideCommit r []
  | .append f => s.decideAppend r f
  | _ => s.decideNear r

/-- The deadline of a class-0 request that gives 0 (R188, R222). -/
def State.implicitDeadline (s : State) (r : Req) : Nat :=
  match r.desc with
  | .lookupHash _ => r.stamp + lookupBound
  | .fetch f => s.fetchDeadline r f
  | _ => 0

/-- Begin an admitted request that nothing holds back. -/
def State.beginReq (s : State) (r : Req) : State :=
  match r.desc with
  | .openSeq f => s.beginOpen r f
  | .closeSeq h => s.beginClose r h
  | .forkSeq f => s.beginFork r f
  | .truncate _ => s.beginTruncate r
  | .replace f => s.beginSupply r f
  | .append f => s.beginSupply r f
  | .pinRange f => s.beginPinRange r f
  | .unpinRange f => s.beginUnpin r f
  | .prefetchHint f => s.beginHint r f
  | .lookupHash f => s.beginLookupHash r f
  | .lookupToken _ => s.beginLookupToken r
  | .lookupFlow f => s.beginLookupFlow r f
  | .attachPrefix f => s.beginAttachPrefix r f
  | .publish f => s.beginPublish r f
  | .withdraw h => s.beginWithdraw r h
  | .fetch f => s.beginFetch r f
  | .attend f => s.beginAttend r f
  | .tableLoad _ => s.beginTableLoad r
  | .tableSelect f => s.beginTableSelect r f
  | .tableExport f => s.beginTableExport r f
  | .retire f => s.beginRetire r f
  | .fill _ => s.beginNear r
  | .copy _ => s.beginNear r
  | .compare _ => s.beginNear r
  | .reduceSum _ => s.beginNear r
  | .reduceMax _ => s.beginNear r
  | .lseMerge _ => s.beginNear r
  | .weights f => s.beginWeights r f
  | .attachFn _ => s
  | .detach _ => s
  | .fence _ => s
  | .invalidForm _ => s
  | .unknown _ => s

/-! ### Endings (R143, R208, R216) -/

/-- Drop the unfinished moves that a request asked for. -/
def State.dropMovesOf (s : State) (id : Nat) : State :=
  (s.moves.filter fun m => m.req == some id).foldl (fun s m => s.dropMove m) s

/-- The request is past its commit point (R216), or its result is being written (log entry 102). -/
def Req.past (r : Req) : Bool :=
  r.phase == .committed || r.phase == .writing || (match r.desc with
    | .publish _ => r.phase == .remote
    | _ => false)

/-- End a request before its commit point with a status: the events of the tick decide together (R143, R218), and an ATTEND ends at its
next page boundaries. -/
def State.endReq (s : State) (r : Req) (st block layer : Nat) : State :=
  if r.past then s
  else match r.desc with
    | .attend _ => s.endAttend r.id st block layer
    | .fence _ => s
    | _ => s.markEnd r.id st block layer

/-- The end of an ATTEND that has been decided: once every part has ended, or at its deadline (R143, R226). -/
def State.endWalk (s : State) (r : Req) (st res : Nat) : State :=
  if st = stDeadlineFault then
    { s with passes := s.passes.filter fun p => !(p.curd.isNone && p.engines.isEmpty && p.rows.any fun x => x.req == r.id) }.finish r st 0
      { curd := r.parts.any (·.curd) }
  else if r.parts.all fun p => p.st == .done || p.st == .ended then s.finish r st res { curd := r.parts.any (·.curd) }
  else s

/-- A request whose end the events of a tick have decided commits nothing, frees every grain it took, and completes (R143, R208, R216). -/
def State.endNow (s : State) (r : Req) : State :=
  match r.ended with
  | none => s
  | some st =>
    let res := if 0x41 ≤ st ∧ st ≤ 0x43 then resFaultAt r.endBlock r.endLayer else 0
    match r.desc with
    | .attend _ => s.endWalk r st res
    | .fetch _ => s.endFetch r st r.endBlock r.endLayer
    | .publish _ => s.failPublish r st res
    | .pinRange _ => (s.dropMovesOf r.id).failReq r st res
    | .prefetchHint _ => (s.dropMovesOf r.id).failReq r st res
    | .fence _ => s
    | _ => s.failReq r st res

/-- The tick ends: the requests that its events have ended complete. -/
def State.settleEnds (s : State) : State :=
  (s.reqs.filter fun r => r.ended.isSome).foldl (fun (s : State) r => match s.req? r.id with
    | some r => s.endNow r
    | none => s) s

/-- End several requests, each as it stands when its turn comes. -/
def State.endAll (s : State) (ids : List Nat) (st : Nat) : State :=
  ids.foldl (fun s id => match s.req? id with
    | some r => s.endReq r st noBlock noLayer
    | none => s) s

/-! ### The function lifecycle (R212 to R215) -/

/-- The window is in attach mode. -/
def Fn.attachMode (f : Fn) : Bool := f.code == .unattached || f.code == .draining

/-- A discarded stamp raises stale_stamps, saturating (R179, R180, R182). -/
def State.stale (s : State) (fn : Nat) : State :=
  s.modFn fn fun f => { f with staleStamps := min (f.staleStamps + 1) (2 ^ 32 - 1) }

/-- The tenant exists and is not being removed. -/
def State.tenantActive (s : State) (t : Nat) : Bool :=
  match s.tenant? t with
  | some x => x.life == .active
  | none => false

/-- The status R212 gives an ATTACH_FUNCTION, `none` when it passes. -/
def State.attachCheck (s : State) (f : Fn) (a : AttachFnF) : Option Nat :=
  if !(s.fnRec? f.fn).elim false (·.enabled) then some stFunctionNotReady
  else if !s.tenantActive f.tenant then some stTenantRevoked
  else if a.version < 1 ∨ 3 < a.version ∨ a.ringLog2 < 6 ∨ 16 < a.ringLog2 ∨ a.ringBase % 4096 ≠ 0 then some stInvalidField
  else none

/-- The record of an accepted ATTACH_FUNCTION, at position 0 of its ring (R203). -/
def State.attachRecord (s : State) (fn attach tag status result : Nat) : State :=
  match (s.fn? fn).bind fun f => f.rings.find? fun g => g.attach == attach with
  | some g => s.putRecord fn g 0 0x01 0 tag status result {}
  | none => s

/-- An ATTACH_FUNCTION is taken in attach mode (R180, R212, R214). DESIGN CHOICE (log entry 132): the three steps of R212 are its only checks,
so its header's class and deadline go unread, and the counts of R219 run on across the attachment. -/
def State.takeAttach (s : State) (f : Fn) (tag : Nat) (a : AttachFnF) : State :=
  match s.attachCheck f a with
  | some st => s.modFn f.fn fun f => { f with attachStatus := st }
  | none =>
    let id := s.ids
    let ring : Ring := { attach := id, group := f.group, base := a.ringBase, log2 := a.ringLog2, next := 1 }
    let lay := fun (f : Fn) (code : FnCode) (h : Option HeldAttach) =>
      { f with code := code, version := a.version, attach := id, k := 0, early := [], stamped := [], abortCount := 0,
               rings := f.rings ++ [ring], held := h }
    if f.code = .unattached then
      (s.bumpId.modFn f.fn fun f => lay f .ready none).attachRecord f.fn id tag stOk (resAttach 0 a.version)
    else
      s.bumpId.modFn f.fn fun f =>
        lay f .drainingHeld (some { attach := id, version := a.version, tag := tag, tick := s.now })

/-- Requests of one attachment of a function that an abort may cover (R216). -/
def State.abortable (s : State) (fn : Nat) (p : Req → Bool) : List Nat :=
  (s.reqs.filter fun r => r.fn == fn && p r && r.phase != .fencing).map (·.id)

/-- Shutdown begins (R213): the window enters attach mode and takes no further slot of the old layout. -/
def State.beginShutdown (s : State) (f : Fn) (tag slotSeq mode : Nat) (record : Bool) : State :=
  let sd : Shutdown := { attach := f.attach, tag := tag, slotSeq := slotSeq, mode := mode, tick := s.now, record := record }
  let s := s.modFn f.fn fun f =>
    { f with code := .draining, version := 0, stamped := [], early := [], held := none, shutdown := some sd }
  if mode = 0 then s else s.endAll (s.abortable f.fn fun r => r.attach == f.attach) stAborted

/-- A held attach is refused: its layout, its ring and every descriptor still in its window go (R214, R215). -/
def State.refuseHeld (s : State) (fn st : Nat) : State :=
  s.modFn fn fun f =>
    match f.held with
    | some h => { f with code := .draining, version := 0, stamped := [], early := [], held := none, attachStatus := st,
                         rings := f.rings.filter fun g => g.attach != h.attach }
    | none => f

/-- A function reset or module-group reset reaches a function (R215): as a DETACH_FUNCTION of mode 1 without a record. -/
def State.resetFn (s : State) (fn : Nat) : State :=
  match s.fn? fn with
  | none => s
  | some f =>
    match f.code with
    | .ready => s.beginShutdown f 0 0 1 false
    | .revoked => s.beginShutdown f 0 0 1 false
    | .draining | .drainingHeld =>
      let s := (s.refuseHeld fn stFunctionNotReady).modFn fn fun f =>
        { f with shutdown := f.shutdown.map fun (d : Shutdown) => { d with mode := 1, record := false } }
      s.endAll (s.abortable fn fun r => f.shutdown.elim false fun d => r.attach == d.attach) stAborted
    | .unattached => s
    | .absent => s

/-- DRAIN_GRACE_END: what still runs 14,100 ticks after a DETACH of mode 0 ends as by an abort of scope 2 (R213). -/
def State.drainGrace (s : State) (fn : Nat) : State :=
  match (s.fn? fn).bind (·.shutdown) with
  | some d =>
    if d.mode = 0 ∧ d.tick + 14100 ≤ s.now then
      (s.modFn fn fun f => { f with shutdown := some { d with mode := 1 } }).endAll (s.abortable fn fun r => r.attach == d.attach) stAborted
    else s
  | none => s

/-- SHUTDOWN_END: the last request of a shutdown has ended (R213, R214). -/
def State.shutdownEnd (s : State) (fn : Nat) : State :=
  match s.fn? fn with
  | none => s
  | some f =>
    match f.shutdown with
    | none => s
    | some d =>
      if s.reqs.any fun r => r.fn == fn && r.attach == d.attach then s
      else
        let s := if d.record then s.record fn d.attach 0x02 d.slotSeq d.tag stOk 0 {} else s
        let s := s.modFn fn fun f => { f with shutdown := none, rings := f.rings.filter fun g => g.attach != d.attach }
        match f.held with
        | none => s.modFn fn fun f => { f with code := .unattached }
        | some h =>
          (s.attachRecord fn h.attach h.tag stEnabledAfterDrain (resAttach (cdiv (s.now - h.tick) ticksPerUs) h.version)).modFn fn fun f =>
            { f with code := .ready, held := none }

/-! ### FENCE (R219) -/

/-- A FENCE is taken: it counts what its predecessor's successors have failed so far, and waits. DESIGN CHOICE (log entry 133): a FENCE that
is refused is no predecessor. -/
def State.beginFence (s : State) (r : Req) (f : FenceF) : State :=
  match s.fn? r.fn with
  | none => s
  | some fn =>
    let scope := if f.mode = 1 then some f.seq else none
    let failed := (fn.fails.filter fun l => match scope with
      | some h => l.contains h
      | none => true).length
    let c : FenceCount := { req := r.id, fn := r.fn, after := fn.lastFence, seq := scope, failed := failed }
    (({ s with fences := s.fences ++ [c] }).modFn r.fn fun f => { f with lastFence := r.id, fails := [] }).modReq r.id fun r =>
      { r with phase := .fencing }

/-- FENCE_COMPLETE: every request that the FENCE covers has its record (R219). -/
def State.fenceComplete (s : State) (id : Nat) : State :=
  match s.req? id, s.fences.find? fun c => c.req == id with
  | some r, some c =>
    let waits := s.reqs.any fun x => x.fn == c.fn && decide (x.id < id) && (match c.seq with
      | some h => (namesOf x.desc).contains h
      | none => true)
    if waits then s
    else { s.finish r stOk (resFailed c.failed) with fences := s.fences.filter fun x => x.req != id }
  | _, _ => s

/-! ### Taking slots (R182, R184, R185, R209) -/

/-- A request for a descriptor that is taken now. -/
def State.mkReq (s : State) (f : Fn) (sub : Sub) (d : Desc) (k tick : Nat) : Req :=
  let d := normDesc f.version d
  { id := s.ids, fn := f.fn, attach := f.attach, k := k, slotSeq := k % 32768, tag := sub.tag, version := f.version,
    opcode := opcodeOf d, cls := sub.cls, deadline := if f.version = 1 then 0 else sub.deadline, stamp := tick, decided := s.now,
    tenant := f.tenant, desc := d, phase := .waiting, pin := none, pin2 := none, entries := [], pages := [],
    tables := [], parts := [], query := [], done := 0, data := [], handle := 0, found := 0, remote := false, waits := [],
    ended := none, endBlock := noBlock, endLayer := noLayer, chain := [], order := s.ids, writerSeq := k % 32768 }

/-- An accepted request enters the outstanding table and begins unless it must wait (R40, R219). A supply holds its stream's tables from
its admission on (R168). -/
def State.enter (s : State) (f : Fn) (r : Req) : State :=
  let s := { s with reqs := s.reqs ++ [r] }
  match r.desc with
  | .detach mode => ({ s with reqs := s.reqs.filter fun x => x.id != r.id }).beginShutdown f r.tag r.slotSeq mode true
  | .fence g => s.beginFence r g
  | .replace g => if s.blocked r then s.supplyTables r g else s.beginReq r
  | .append g => if s.blocked r then s.supplyTables r g else s.beginReq r
  | _ => if s.blocked r then s else s.beginReq r

/-- Load the metadata that a request's checks read (R26, R47): the sequences it names, and for the prefix commands their entries. -/
def State.loadNamed (s : State) (r : Req) : State :=
  let s := (namesOf r.desc).foldl (fun s h => s.loadSeq (h % 2 ^ 24)) s
  match r.desc with
  | .attachPrefix f => if s.attachSearches f then s else s.loadChain f.handle
  | .publish f => s.loadPublish r f
  | _ => s

/-- Admission of a taken descriptor (R188, R209, R211, R223). `bad` says that its two stamps do not make a long descriptor
(R185). -/
def State.admitReq (s : State) (f : Fn) (r : Req) (long bad : Bool) : State :=
  let isDetach := match r.desc with
    | .detach _ => true
    | _ => false
  let unknown := !opcodeOffered f.version r.opcode || (match r.desc with
    | .unknown _ => true
    | _ => false)
  if f.code = .drainingHeld then s.finish r stFunctionNotReady 0
  else if (f.code = .revoked ∨ !s.tenantActive f.tenant) ∧ !isDetach then s.finish r stTenantRevoked 0
  else if unknown then s.finish r (if long then stInvalidField else stUnknownOpcode) 0
  else if bad || shapeBad f.version long r.desc || !headerOk r.cls r.deadline r.desc then s.finish r stInvalidField 0
  else
    let s := s.loadNamed r
    match s.checkAdmit r with
    | some (st, res) => s.finish r st res
    | none =>
      if r.cls ≠ 0 then s.enter f r
      else
        let given := r.deadline
        let r := if given = 0 then { r with deadline := s.implicitDeadline r } else r
        match s.decideZero r with
        | .capacity => s.finish r stRefusedCapacity 0
        | .deadline e => s.finish r stRefusedDeadline (resEarliest e)
        | .accept rs => (s.reserve r rs).enter f r

/-- The bytes of slot k in the window. -/
def Fn.slotOf (f : Fn) (k : Nat) : Bytes :=
  let b := k % slotCount f.version * slotBytes f.version
  (List.range (slotBytes f.version)).map fun i => ((f.window.find? fun x => x.1 == b + i).map (·.2)).getD 0

/-- The stamp recorded for slot k. -/
def Fn.stampAt (f : Fn) (k : Nat) : Option Stamped := f.stamped.find? fun x => x.k == k

/-- A submitted descriptor at slot k (R182, R185): its stamp with the tick of the later stamp write, whether it is long, and whether
both its stamps have cont set. -/
structure Submitted where
  st   : Stamped
  long : Bool
  bad  : Bool
  deriving DecidableEq, Repr

def Fn.submittedAt (f : Fn) (k : Nat) : Option Submitted :=
  match f.stampAt k with
  | none => none
  | some st =>
    if st.cont && f.version != 1 then
      match f.stampAt (k + 1) with
      | some st' => some { st := { st with tick := max st.tick st'.tick }, long := true, bad := st'.cont }
      | none => none
    else some { st := st, long := false, bad := false }

/-- The header and body of a submitted descriptor: as a request command spells them, or as the window's bytes do. -/
def Fn.read (f : Fn) (x : Submitted) : Sub × Desc :=
  match x.st.desc with
  | some d => (x.st.sub, d)
  | none =>
    let raw := rawOf (f.slotOf x.st.k ++ if x.long then f.slotOf (x.st.k + 1) else [])
    (parseSub raw f.group f.fn x.st.k (slotCount f.version) x.long, parseDesc raw)

/-- Slots taken in order advance k; one taken out of order is remembered (R184, R216). -/
def Fn.taken (f : Fn) (k n : Nat) : Fn :=
  let f := { f with stamped := f.stamped.filter fun x => x.k < k || k + n ≤ x.k }
  if k = f.k then { f with k := k + n } else { f with early := f.early ++ (List.range n).map fun i => k + i }

/-- Slot k is the second slot of a long descriptor that begins below it; `fuel` bounds the run of such stamps. -/
def Fn.isSecond : Nat → Fn → Nat → Bool
  | 0, _, _ => false
  | n + 1, f, k =>
    k != 0 && f.version != 1 && (match f.stampAt (k - 1) with
      | some x => x.cont && !Fn.isSecond n f (k - 1)
      | none => false)

/-- Skip the slots that aborts took out of order; `fuel` bounds them. -/
def Fn.skip : Nat → Fn → Fn
  | 0, f => f
  | n + 1, f => if f.early.contains f.k then Fn.skip n { f with early := f.early.filter fun x => x != f.k, k := f.k + 1 } else f

/-- Take the descriptor at slot k. With `aborted` an abort covers it and it completes ABORTED unadmitted (R216). -/
def State.takeSlot (s : State) (f : Fn) (k : Nat) (x : Submitted) (aborted : Bool) : State :=
  let (sub, d) := f.read x
  let r := s.mkReq f sub d k x.st.tick
  let s := s.bumpId.modFn f.fn fun f => Fn.skip f.early.length (f.taken k (if x.long then 2 else 1))
  if aborted then s.finish r stAborted 0 else s.admitReq f r x.long x.bad

/-- The window's slots are taken. -/
def Fn.takes (f : Fn) : Bool := f.code == .ready || f.code == .revoked || f.code == .drainingHeld

/-- Take every slot that can be taken, in the order of k; the number bounds the descriptors. -/
def State.takeAllSlots : Nat → State → Nat → State
  | 0, s, _ => s
  | n + 1, s, fn =>
    match s.fn? fn with
    | none => s
    | some f =>
      if !f.takes then s
      else match f.submittedAt f.k with
        | none => s
        | some x => State.takeAllSlots n (s.takeSlot f f.k x false) fn

/-! ### Stamps and aperture writes (R176, R177, R180 to R184) -/

/-- The slot that a stamp names: the next expected k or a later one of the same lap (R182). -/
def Fn.stampSlot (f : Fn) (seq phase : Nat) : Option Nat :=
  let n := slotCount f.version
  let k := f.k + (seq + 32768 - f.k % 32768) % 32768
  if k < f.k + n ∧ k / n % 2 = phase ∧ seq < 32768 ∧ !f.early.contains k ∧ (f.stampAt k).isNone then some k else none

/-- An event of a function's aperture. -/
def State.apertureNote (s : State) (name : String) (fn detail : Nat) : State := s.note name (evSource 9 fn) detail

/-- A stamp is discarded: it counts in stale_stamps and an event is recorded (R182). -/
def State.discardStamp (s : State) (fn seq : Nat) : State := (s.stale fn).apertureNote "STAMP_DISCARDED" fn seq

/-- The function that a write to an aperture of a module group reaches; a foreign aperture is an event (R176). A tray has no Zarfy (R13). -/
def State.aperture (s : State) (group fn : Nat) (k : Fn → State → State) : State :=
  s.live fun s =>
    match s.fn? fn with
    | none => s
    | some f =>
      if s.isTray ∨ !s.faults.groupsUp.contains group then s
      else if f.group ≠ group then s.apertureNote "APERTURE_FOREIGN" fn group
      else if f.code = .absent then s
      else k f s

/-- Record a stamp at the slot that it names, or discard it (R182). -/
def State.recordStamp (s : State) (fn seq phase : Nat) (st : Nat → Stamped) : State :=
  match (s.fn? fn).bind fun f => f.stampSlot seq phase with
  | none => s.discardStamp fn seq
  | some k => s.modFn fn fun f => { f with stamped := f.stamped ++ [st k] }

/-- A request command: a host writes the descriptor into the next slots and its stamps last (R181 to R183); each of a long descriptor's
two stamps is recorded or discarded by itself (R182, R185). In attach mode cont is not looked at, in this path and in the byte path alike
(DESIGN CHOICE, log entry 100). -/
def State.submit (s : State) (sub : Sub) (d : Desc) : State :=
  s.aperture sub.group sub.fn fun f s =>
    if f.attachMode then
      match d with
      | .attachFn a => if sub.seq = 0 ∧ sub.phase = 0 then s.takeAttach f sub.tag a else s.stale f.fn
      | _ => s.stale f.fn
    else
      let long := sub.long && f.version != 1
      let n := slotCount f.version
      let s := s.recordStamp f.fn sub.seq sub.phase fun k => { k := k, cont := long, sub := sub, desc := some d, tick := s.now }
      let s := if long then
          s.recordStamp f.fn ((sub.seq + 1) % 32768) (if (sub.seq + 1) % n = 0 then 1 - sub.phase else sub.phase) fun k =>
            { k := k, cont := false, sub := sub, desc := none, tick := s.now }
        else s
      State.takeAllSlots (f.stamped.length + 1) s f.fn

/-- Put bytes into a store of (offset, byte) pairs. -/
def putBytes (w : List (Nat × Byte)) (off : Nat) (data : Bytes) : List (Nat × Byte) :=
  let l := data.zipIdx.map fun (b, i) => (off + i, b)
  l ++ w.filter fun x => !(decide (off ≤ x.1) && decide (x.1 < off + data.length))

/-- The `n` bytes of a store from `off`. -/
def getBytes (w : List (Nat × Byte)) (off n : Nat) : Bytes :=
  (List.range n).map fun i => ((w.find? fun x => x.1 == off + i).map (·.2)).getD 0

/-- Slot positions whose stamp bytes a write of [off, off + len) covers in part (`whole` false) or in full. -/
def stampsCovered (version off len : Nat) (whole : Bool) : List Nat :=
  let sb := slotBytes version
  (List.range (slotCount version)).filter fun p =>
    let a := p * sb + sb - 8
    let inAll := decide (off ≤ a ∧ a + 8 ≤ off + len)
    if whole then inAll else !inAll && decide (off < a + 8 ∧ a < off + len)

/-- What a stamp written over the window says; the header stands in the slot's bytes. -/
def stampSub (f : Fn) (w : Nat) : Sub :=
  { group := f.group, fn := f.fn, seq := bits w 0 15, phase := bits w 15 1, long := bit w 16, cls := 0, tag := 0, deadline := 0 }

/-- One 8-byte word of a write to the request window outside attach mode: it is discarded in a slot that is submitted and not
yet taken (R184), else written, its stamp last. DESIGN CHOICE (log entry 131): the recorded first stamp of a long descriptor owns its slot
before the second has landed. -/
def State.windowWord (s : State) (fn off : Nat) (data : Bytes) : State :=
  match s.fn? fn with
  | none => s
  | some f =>
    let n := slotCount f.version
    let p := off / slotBytes f.version
    let isStamp := off % slotBytes f.version == slotBytes f.version - 8
    if f.stamped.any fun x => x.k % n == p then
      if isStamp then s.discardStamp fn (ofLeBytes data % 32768) else s.apertureNote "WINDOW_WRITE_DISCARDED" fn off
    else
      let s := s.modFn fn fun f => { f with window := putBytes f.window off data }
      if !isStamp then s
      else
        let w := ofLeBytes data
        match f.stampSlot (bits w 0 15) (bits w 15 1) with
        | some k =>
          if k % n = p then
            let st : Stamped := { k := k, cont := bit w 16, sub := stampSub f w, desc := none, tick := s.now }
            s.modFn fn fun f => { f with stamped := f.stamped ++ [st] }
          else s.discardStamp fn (bits w 0 15)
        | none => s.discardStamp fn (bits w 0 15)

/-- Cut a write into its 8-byte words; `fuel` bounds them. -/
def words8 : Nat → Nat → Bytes → List (Nat × Bytes)
  | 0, _, _ => []
  | n + 1, off, b => if b.isEmpty then [] else (off, b.take 8) :: words8 n (off + 8) (b.drop 8)

/-- Requests and submitted slots that an abort matches (R216). A count above 32,768, which the map of R186 does not list, covers every seq,
as the same count of successive seqs modulo 32,768 would (DESIGN CHOICE, log entry 101). -/
def abortMatches (scope tag first count : Nat) (t seq : Nat) : Bool :=
  match scope with
  | 0 => t == tag
  | 1 => decide ((seq + 32768 - first % 32768) % 32768 < count)
  | _ => true

/-- The descriptor is one that no abort covers (R216). -/
def unabortable : Desc → Bool
  | .attachFn _ => true
  | .detach _ => true
  | .fence _ => true
  | _ => false

/-- An abort whose final 8 bytes land (R186, R216). -/
def State.abort (s : State) (f : Fn) (scope tag first count abortSeq : Nat) : State :=
  if f.attachMode then s
  else if abortSeq ≠ f.abortCount % 65536 ∨ 3 ≤ scope ∨ (scope = 1 ∧ count = 0) then s.stale f.fn
  else
    let s := s.modFn f.fn fun f => { f with abortCount := (f.abortCount + 1) % 65536 }
    let s := s.endAll (s.abortable f.fn fun r => abortMatches scope tag first count r.tag r.slotSeq) stAborted
    let ks := ((f.stamped.map (·.k)).mergeSort fun a b => decide (a ≤ b))
    let s := ks.foldl (fun (s : State) k => match s.fn? f.fn with
      | none => s
      | some f =>
        match if Fn.isSecond (slotCount f.version) f k then none else f.submittedAt k with
        | none => s
        | some x =>
          let (sub, d) := f.read x
          if abortMatches scope tag first count sub.tag (k % 32768) && !unabortable d then s.takeSlot f k x true else s) s
    State.takeAllSlots (slotCount f.version + 1) s f.fn

/-- A write to the abort slot (R186). -/
def State.abortWord (s : State) (f : Fn) (off : Nat) (data : Bytes) : State :=
  if f.attachMode then s
  else
    let w := putBytes f.abortSlot off data
    let s := s.modFn f.fn fun f => { f with abortSlot := w }
    if off ≠ 56 then s
    else
      let a := parseAbort (rawOf (getBytes w 0 64))
      s.abort f a.scope a.tag a.first a.count a.seq

/-- One word of an aperture write: the request window, the abort slot, or an area whose writes are discarded (R176). -/
def State.apertureWord (s : State) (fn off : Nat) (data : Bytes) : State :=
  match s.fn? fn with
  | none => s
  | some f =>
    if off < 0x4000 then
      if f.attachMode then
        let w := putBytes f.window off data
        let s := s.modFn fn fun f => { f with window := w }
        if off ≠ 56 then s
        else
          let raw := rawOf (getBytes w 0 64)
          match parseDesc raw with
          | .attachFn a => if bits raw 448 16 = 0 then s.takeAttach f (bits raw 32 32) a else s.stale fn
          | _ => s.stale fn
      else s.windowWord fn off data
    else if off < 0x4040 then s.abortWord f (off - 0x4000) data
    else s

/-- The word at an offset carries a stamp: of the window's layout, or the abort slot's last word (R180, R182, R186). -/
def Fn.stampWord (f : Fn) (off : Nat) : Bool :=
  if off < 0x4000 then (if f.attachMode then off == 56 else off % slotBytes f.version == slotBytes f.version - 8) else off == 0x4000 + 56

/-- APERTURE_WRITE (R177, R182): the bytes of one write land before the stamps among them (R183). -/
def State.apertureWrite (s : State) (group fn off : Nat) (data : Bytes) : State :=
  s.aperture group fn fun f s =>
    let n := data.length
    if n < 8 ∨ 256 < n ∨ n % 8 ≠ 0 ∨ off % 8 ≠ 0 then
      let s := s.apertureNote "APERTURE_WRITE_REFUSED" fn (off + n * 65536)
      if f.attachMode then s else (stampsCovered f.version off n false).foldl (fun (s : State) _ => s.stale fn) s
    else
      let ws := words8 32 off data
      let s := (ws.filter (fun w => !f.stampWord w.1) ++ ws.filter fun w => f.stampWord w.1).foldl
        (fun (s : State) w => s.apertureWord fn w.1 w.2) s
      State.takeAllSlots (slotCount f.version + 1) s fn

/-! ### The end of waits and transfers -/

/-- A new price fits the reservations that a request holds: on every calendar it takes no more than they hold, the engines of a cluster
taken together (R413). -/
def fitsHeld (held new : List Resv) : Bool :=
  new.all fun c => decide (sumBy (fun x => if x.cal.sameLimit c.cal then x.amount else 0) new
    ≤ sumBy (fun x => if x.cal.sameLimit c.cal then x.amount else 0) held)

/-- The reservations that the price of a class-0 request takes on the version it pins (R230 to R234, R413); `none` where nothing can carry
it. Where they lie on the calendars is as admission placed them, so they are priced on empty ones. -/
def State.priceAtPin (s : State) (r : Req) : Option (List Resv) :=
  let free := { s with calendar := [] }
  let on := fun (h : Nat) (g : Seq → ModelRec → Option (List Resv)) => match s.openSeqOf r h with
    | .error _ => none
    | .ok q => (s.model? q.model).bind fun m => g q m
  match r.desc with
  | .append f => on f.seq fun q m => some (free.commitTerms r (some q.homeStack) (List.replicate (f.blockCount * m.layers) (shapeOf m q.fmt).rawBytes)).2
  | .fetch f => on f.seq fun q m => (free.fetchPrice r q q.cur m f).map (·.2)
  | .attend f => on f.seq fun q m => (free.attendPrice r q q.cur m f).map (·.2)
  | .fill _ => (free.nearPrice r).map (·.2)
  | .copy _ => (free.nearPrice r).map (·.2)
  | .compare _ => (free.nearPrice r).map (·.2)
  | .reduceSum _ => (free.nearPrice r).map (·.2)
  | .reduceMax _ => (free.nearPrice r).map (·.2)
  | .lseMerge _ => (free.nearPrice r).map (·.2)
  | _ => some []

/-- PIN_AFTER_WAIT: nothing holds the request back any more. Its checks are made again on the version it now finds; one that
fails gives its status, RESCINDED at class 0, where the price must still fit the reservations made (R40, R413). -/
def State.afterWait (s : State) (r : Req) : State :=
  let again : Bool := match r.desc with
    | .lookupToken _ => !r.data.isEmpty
    | _ => false
  if r.phase ≠ .waiting ∨ r.stops ∨ s.blocked r ∨ again then s
  else
    let s := s.loadNamed r
    match s.checkReq r with
    | some (st, res) => if r.cls = 0 ∧ st < 0x30 then s.endReq r stRescinded noBlock noLayer else s.failReq r st res
    | none =>
      if r.cls ≠ 0 then s.beginReq r
      else if (s.priceAtPin r).any fun rs => fitsHeld (s.calendar.filter fun c => c.req == r.id) rs then s.beginReq r
      else s.endReq r stRescinded noBlock noLayer

/-- SEQUENCE_COMMIT: a change whose reads have ended commits once every earlier change of its function has (R37), after the commits that
became ready before it (R40). -/
def State.sequenceCommit (s : State) (r : Req) : State :=
  if r.phase = .ready ∧ !r.stops ∧ !s.blocked r then
    s.commitAll ((s.commitsAhead r).map (·.id) ++ [r.id])
  else s

/-- READ_AND_REKEY_END. -/
def State.rekeyEnds (s : State) (r : Req) : State :=
  match r.desc with
  | .publish f => if r.phase = .started ∧ !s.blocked r then s.rekeyEnd r f else s
  | _ => s

/-- DMA_TRANSFER_END: a transfer of a running request, or the write of its result, ends or is rejected by the host's side of UCIe (R33,
R113, R189). -/
def State.transferEnd (s : State) (r : Req) (ok : Bool) (data : Bytes) : State :=
  if r.phase = .writing then s.writeEnds r (if ok then none else some (stLinkFault, resFaultAt noBlock noLayer))
  else if r.phase ≠ .started || (ok && r.stops) then s
  else match r.desc with
    | .replace f => s.supplyTransfer r f ok data
    | .append f => s.supplyTransfer r f ok data
    | .lookupToken f => s.lookupTokens r f ok data
    | .fetch f => s.fetchTransfer r f ok
    | .weights f => s.weightsTransfer r f ok
    | .tableLoad _ => s.tableTransfer r ok data
    | .tableExport _ => s.tableTransfer r ok data
    | .fill _ => s.nearTransfer r ok data
    | .copy _ => s.nearTransfer r ok data
    | .compare _ => s.nearTransfer r ok data
    | .reduceSum _ => s.nearTransfer r ok data
    | .reduceMax _ => s.nearTransfer r ok data
    | .lseMerge _ => s.nearTransfer r ok data
    | _ => s

/-- The deadline of a class-0 request, as the monitor holds it. -/
def State.monitored (s : State) (id : Nat) : Option Nat := (s.monitor.held.find? fun m => m.1 == id).map (·.2)

/-- DEADLINE_REACHED: the record of a class-0 request has not begun by its deadline tick; unless it begins in it, it is DEADLINE_FAULT
(R226). An aborted one keeps its ABORTED (R216), and so does what an event of the deadline tick decided, which precedes the deadline in
R143's order. -/
def State.deadlineReached (s : State) (r : Req) : State :=
  match s.monitored r.id with
  | none => s
  | some d =>
    if s.now < d ∨ r.ended = some stAborted ∨ (r.ended.isSome ∧ r.endedAt = d) then s
    else s.modReq r.id fun r => { r with ended := some stDeadlineFault, endedAt := s.now, endBlock := noBlock, endLayer := noLayer }

/-! ### Commands -/

/-- Apply a meaning to an outstanding request, in service. -/
def State.withReq (s : State) (id : Nat) (g : State → Req → State) : State :=
  s.live fun s => match s.req? id with
    | some r => g s r
    | none => s

def execAttachFunction (sub : Sub) (f : AttachFnF) (s : State) : Host.Outcome State Fault Refusal := .next (s.submit sub (.attachFn f))

def execDetachFunction (sub : Sub) (mode : Nat) (s : State) : Host.Outcome State Fault Refusal := .next (s.submit sub (.detach mode))

def execFence (sub : Sub) (f : FenceF) (s : State) : Host.Outcome State Fault Refusal := .next (s.submit sub (.fence f))

def execOpenSequence (sub : Sub) (f : OpenF) (s : State) : Host.Outcome State Fault Refusal := .next (s.submit sub (.openSeq f))

def execCloseSequence (sub : Sub) (seq : Nat) (s : State) : Host.Outcome State Fault Refusal := .next (s.submit sub (.closeSeq seq))

def execForkSequence (sub : Sub) (f : ForkF) (s : State) : Host.Outcome State Fault Refusal := .next (s.submit sub (.forkSeq f))

def execEditBlocksTruncate (sub : Sub) (f : BlocksF) (s : State) : Host.Outcome State Fault Refusal := .next (s.submit sub (.truncate f))

def execEditBlocksReplace (sub : Sub) (f : BlocksF) (s : State) : Host.Outcome State Fault Refusal := .next (s.submit sub (.replace f))

def execAppendBlocks (sub : Sub) (f : BlocksF) (s : State) : Host.Outcome State Fault Refusal := .next (s.submit sub (.append f))

def execPinRange (sub : Sub) (f : RangeF) (s : State) : Host.Outcome State Fault Refusal := .next (s.submit sub (.pinRange f))

def execUnpinRange (sub : Sub) (f : RangeF) (s : State) : Host.Outcome State Fault Refusal := .next (s.submit sub (.unpinRange f))

def execLookupPrefixHashForm (sub : Sub) (f : LookupHashF) (s : State) : Host.Outcome State Fault Refusal := .next (s.submit sub (.lookupHash f))

def execLookupPrefixTokenForm (sub : Sub) (f : LookupTokenF) (s : State) : Host.Outcome State Fault Refusal := .next (s.submit sub (.lookupToken f))

def execLookupPrefixFlowForm (sub : Sub) (f : LookupFlowF) (s : State) : Host.Outcome State Fault Refusal := .next (s.submit sub (.lookupFlow f))

def execAttachPrefix (sub : Sub) (f : AttachPrefixF) (s : State) : Host.Outcome State Fault Refusal := .next (s.submit sub (.attachPrefix f))

def execPublishPrefix (sub : Sub) (f : PublishF) (s : State) : Host.Outcome State Fault Refusal := .next (s.submit sub (.publish f))

def execWithdrawPrefix (sub : Sub) (handle : Nat) (s : State) : Host.Outcome State Fault Refusal := .next (s.submit sub (.withdraw handle))

def execFetchPages (sub : Sub) (f : FetchF) (s : State) : Host.Outcome State Fault Refusal := .next (s.submit sub (.fetch f))

def execPrefetchHint (sub : Sub) (f : RangeF) (s : State) : Host.Outcome State Fault Refusal := .next (s.submit sub (.prefetchHint f))

def execAttend (sub : Sub) (f : AttendF) (s : State) : Host.Outcome State Fault Refusal := .next (s.submit sub (.attend f))

def execLoadTableLoad (sub : Sub) (f : LoadTableF) (s : State) : Host.Outcome State Fault Refusal := .next (s.submit sub (.tableLoad f))

def execLoadTableSelect (sub : Sub) (f : LoadTableF) (s : State) : Host.Outcome State Fault Refusal := .next (s.submit sub (.tableSelect f))

def execLoadTableExport (sub : Sub) (f : LoadTableF) (s : State) : Host.Outcome State Fault Refusal := .next (s.submit sub (.tableExport f))

def execRetireTable (sub : Sub) (f : RetireF) (s : State) : Host.Outcome State Fault Refusal := .next (s.submit sub (.retire f))

def execFill (sub : Sub) (f : FillF) (s : State) : Host.Outcome State Fault Refusal := .next (s.submit sub (.fill f))

def execCopy (sub : Sub) (f : TwoOpF) (s : State) : Host.Outcome State Fault Refusal := .next (s.submit sub (.copy f))

def execCompare (sub : Sub) (f : TwoOpF) (s : State) : Host.Outcome State Fault Refusal := .next (s.submit sub (.compare f))

def execReduceSum (sub : Sub) (f : ReduceF) (s : State) : Host.Outcome State Fault Refusal := .next (s.submit sub (.reduceSum f))

def execReduceMax (sub : Sub) (f : ReduceF) (s : State) : Host.Outcome State Fault Refusal := .next (s.submit sub (.reduceMax f))

def execLseMerge (sub : Sub) (f : ReduceF) (s : State) : Host.Outcome State Fault Refusal := .next (s.submit sub (.lseMerge f))

def execFetchWeights (sub : Sub) (f : WeightsF) (s : State) : Host.Outcome State Fault Refusal := .next (s.submit sub (.weights f))

def execUnknownOpcode (sub : Sub) (opcode : Nat) (s : State) : Host.Outcome State Fault Refusal := .next (s.submit sub (.unknown opcode))

def execAbortByTag (group fn abortSeq tag : Nat) (s : State) : Host.Outcome State Fault Refusal :=
  .next (s.aperture group fn fun f s => s.abort f 0 tag 0 0 abortSeq)

def execAbortBySeqRange (group fn abortSeq first count : Nat) (s : State) : Host.Outcome State Fault Refusal :=
  .next (s.aperture group fn fun f s => s.abort f 1 0 first count abortSeq)

def execAbortAll (group fn abortSeq : Nat) (s : State) : Host.Outcome State Fault Refusal :=
  .next (s.aperture group fn fun f s => s.abort f 2 0 0 0 abortSeq)

def execApertureWrite (group fn offset : Nat) (data : Bytes) (s : State) : Host.Outcome State Fault Refusal :=
  .next (s.apertureWrite group fn offset data)

def execDrainGraceEnd (fn : Nat) (s : State) : Host.Outcome State Fault Refusal := .next (s.live fun s => s.drainGrace fn)

def execShutdownEnd (fn : Nat) (s : State) : Host.Outcome State Fault Refusal := .next (s.live fun s => s.shutdownEnd fn)

def execFenceComplete (req : Nat) (s : State) : Host.Outcome State Fault Refusal := .next (s.live fun s => s.fenceComplete req)

def execSequenceCommit (req : Nat) (s : State) : Host.Outcome State Fault Refusal := .next (s.withReq req State.sequenceCommit)

def execPinAfterWait (req : Nat) (s : State) : Host.Outcome State Fault Refusal := .next (s.withReq req State.afterWait)

def execDeadlineReached (req : Nat) (s : State) : Host.Outcome State Fault Refusal := .next (s.withReq req State.deadlineReached)

end Sys2Proof.Machine
end

