-- ==== Sys2Proof/Machine/Faults.lean ====
section
/-! DEFINITION. What a single fault does (15_faults_and_recorder): spares and the tray-service flag (R349, R350), the
recomputation of R248, engines, shelf banks, control pairs, key banks, AES lanes and UCIe modules leaving service, the tracker
and watchdog of R340, and the event recorder (R351 to R354). -/

namespace Sys2Proof.Machine

/-! ### Spares (R349, R350) -/

/-- Raise "tray service advised": an event each time, an in-band interrupt when the flag is first set. -/
def State.advise (s : State) (detail : Nat) : State :=
  let s := s.event "TRAY_SERVICE_ADVISED" (some 0xC801) (evSource 0 0) detail
  if s.faults.service then s else { s with faults := { s.faults with service := true } }.emit .inBand

/-- Pool and instance as the event names them. -/
def poolDetail (pool inst : Nat) : Nat := pool + inst * 65536

/-- Spares per instance of a pool, by its row. -/
def poolSize (pool : Nat) : Nat :=
  match pool with
  | 0 => 2
  | 1 => 128
  | 2 => 2
  | 4 => Config.ucieSpareLanes
  | 5 => 4
  | 8 => 2
  | 11 => 4
  | _ => 1

def State.sparesUsed (s : State) (pool inst : Nat) : Nat :=
  (s.faults.sparesUsed.find? fun x => x.1 == pool && x.2.1 == inst).elim 0 (·.2.2)

/-- The spares still available fall below the image threshold; a threshold of 0 turns the report off. -/
def State.lowSpares (s : State) (pool inst left : Nat) : State :=
  let t := s.params.spares.getD pool 0
  if 0 < t ∧ left < t then s.advise (poolDetail pool inst) else s

/-- One spare of a pool instance is counted. -/
def State.countSpare (s : State) (pool inst : Nat) : State :=
  let n := s.sparesUsed pool inst + 1
  { s with faults := { s.faults with sparesUsed :=
    (pool, inst, n) :: s.faults.sparesUsed.filter fun x => !(x.1 == pool && x.2.1 == inst) } }

/-- One spare of a pool instance enters service or fails. Before an image is read there is no threshold yet: the spare is counted, and the
image that boots is asked (`State.bootSpares`; R349). -/
def State.spend (s : State) (pool inst : Nat) : State :=
  if !s.image.headerOk then s.countSpare pool inst
  else (s.countSpare pool inst).lowSpares pool inst (poolSize pool - (s.sparesUsed pool inst + 1))

/-- A spare goes before an image gives the threshold: only a pool that fails with none left reports (R349). -/
def State.lostSpare (s : State) (pool inst : Nat) : State :=
  let t := s.countSpare pool inst
  if poolSize pool ≤ s.sparesUsed pool inst then t.advise (poolDetail pool inst) else t

/-- Detail of LANE_CORRECTED (18, "Event codes of this chapter"). -/
def laneFixDetail (x : LaneFix) : Nat := x.lane % 16 + x.polarity.toNat * 16 + x.order.toNat * 32

/-! ### Self-checks of hash engines and page coders (R175, R339) -/

/-- SHA/HMAC engines in service: the lowest eight of the nine that have not failed (15, "Spares and their use"). -/
def State.hashEngines (s : State) : List Nat := ((List.range 9).filter fun n => !s.island.shaBad.contains n).take 8

/-- SHA/HMAC engines leave service, each replaced by the spare engine while there is one: HASH_ENGINE_REMAPPED (15, "Event codes of this
chapter"). -/
def State.hashOut (s : State) (out : List Nat) : State :=
  out.foldl (fun (s : State) n =>
    let s := { s with island := { s.island with shaBad := n :: s.island.shaBad } }
    (if s.sparesUsed 9 0 = 0 then s.event "HASH_ENGINE_REMAPPED" (some 0x8404) (evSource 8 0) n else s).spend 9 0) s

/-- Two SHA/HMAC engines disagree: one that fails its known-answer test leaves service; where both pass, a second such mismatch within
1 s takes both out. The value is computed again. -/
def State.hashMismatch (s : State) (a b : Nat) (aFails bFails : Bool) : State :=
  if a = b ∨ !s.hashEngines.contains a ∨ !s.hashEngines.contains b then s
  else if aFails || bFails then s.hashOut ((if aFails then [a] else []) ++ (if bFails then [b] else []))
  else
    let late := s.island.shaDoubt.filter fun x => decide (s.now ≤ x.2.2 + 470000000)
    if late.any fun x => x.1 == min a b && x.2.1 == max a b then s.hashOut [a, b]
    else { s with island := { s.island with shaDoubt := (min a b, max a b, s.now) :: late } }

/-- What a step that computes such a hash finds. -/
def State.hashCheck (s : State) (c : SelfCheck) (computes : Bool) : State :=
  match c with
  | .hash a b x y => if computes then s.hashMismatch a b x y else s
  | _ => s

/-- A transfer's end computes chain hashes or a table digest (R43, R167). -/
def Req.hashesNow (r : Req) (ok : Bool) : Bool :=
  ok && r.phase == .started && (match r.desc with
    | .append _ => r.done == 2 && r.entries.any (·.tokens)
    | .replace _ => r.done == 2 && r.entries.any (·.tokens)
    | .lookupToken _ => true
    | .tableLoad _ => true
    | _ => false)

/-- A transfer's end brings the pages of a supply, some of which are coded (R168, R175). -/
def Req.codesNow (r : Req) (ok : Bool) : Bool :=
  ok && r.phase == .started && r.done == 2 && r.tables.any (fun x => x.2 != 0) && (match r.desc with
    | .append _ => true
    | .replace _ => true
    | _ => false)

/-- Quarter whose page coder codes the pages of a sequence at home on a stack: the stack's own, or the next with a coder in service. -/
def State.coderFor (s : State) (home : Nat) : Nat :=
  (((List.range 12).map fun i => (home + i) % 12).find? fun c => !s.faults.codersOut.contains c).getD home

/-- A page coder disagrees with its check decoder twice: it leaves service, and the command commits nothing (R175). -/
def State.coderFails (s : State) (r : Req) (handle : Nat) : State :=
  let c := s.coderFor ((s.seqOf r.tenant handle).elim 0 (·.homeStack))
  (({ s with faults := { s.faults with codersOut := c :: s.faults.codersOut } }).note "PAGE_CODER_FAILED" (evSource 0 0) c).faultReq r
    stInternalFault noBlock noLayer

/-- DMA_TRANSFER_END with what the step's duplicated computations find. -/
def State.checkedTransfer (s : State) (r : Req) (ok : Bool) (check : SelfCheck) (data : Bytes) : State :=
  if check = .coder ∧ r.codesNow ok then
    match r.desc with
    | .append f => s.coderFails r f.seq
    | .replace f => s.coderFails r f.seq
    | _ => s
  else (s.hashCheck check (r.hashesNow ok)).transferEnd r ok data

/-- READ_AND_REKEY_END with what the digest's two engines find. -/
def State.checkedRekey (s : State) (r : Req) (check : SelfCheck) : State :=
  (s.hashCheck check (r.phase == .started && !s.blocked r)).rekeyEnds r

/-! ### Recomputation (R247, R248) -/

/-- A reservation counts in the recomputation: its request is not already on its way out. -/
def State.counts (s : State) (c : Resv) : Bool :=
  match s.req? c.req with
  | some r => r.ended.isNone
  | none => c.cal == .lookup

/-- The calendar of a reservation is over its limit in a bucket the reservation touches, from this tick on. -/
def State.overfull (s : State) (held : List Resv) (r : Resv) : Bool :=
  r.buckets.any fun b => decide (s.now / bucketTicks ≤ b) &&
    decide (s.classZeroLimit r.cal < sumBy (fun x => if x.cal.sameLimit r.cal then x.inBucket b else 0) held)

/-- Rescind accepted class-0 requests, the most recently accepted first, until the rest fit; one past its commit point stays.
`fuel` bounds the requests. -/
def State.rescindZero : Nat → State → State
  | 0, s => s
  | n + 1, s =>
    let held := s.calendar.filter fun c => s.counts c
    let full := held.filter fun c => s.overfull held c
    let cand := s.reqs.filter fun r => r.cls == 0 && r.ended.isNone && !r.past && full.any fun c => c.req == r.id
    match cand.foldl (fun (b : Option Req) r => match b with
      | some x => if x.order < r.order then some r else some x
      | none => some r) none with
    | none => s
    | some r => State.rescindZero n (s.endReq r stRescinded noBlock noLayer)

/-- Rank of a tenant's reservations. -/
def State.resvRank (s : State) (t : Nat) : Nat := (s.tenantRec? t).elim 0 (·.resvRank)

/-- The T1 reservations of a sequence's region, or of its home stack at class 0, no longer fit. -/
def State.resvOver (s : State) (q : Seq) : Bool :=
  let g := s.t1RegionOf q.tenant
  decide (s.freeT1 g none < s.unfilled g none) ||
    (q.cls == 0 && decide (s.freeT1 g (some q.homeStack) < s.unfilled g (some q.homeStack)))

/-- Shrink T1 reservations until the rest fit: the highest reservation_rank first, within it the most recently accepted. -/
def State.shrinkT1 : Nat → State → State
  | 0, s => s
  | n + 1, s =>
    let cand := s.seqs.filter fun q => q.t1held && q.t1res != 0 && s.resvOver q
    match cand.foldl (fun (b : Option Seq) q => match b with
      | some x => if s.resvRank x.tenant < s.resvRank q.tenant ∨ (s.resvRank x.tenant = s.resvRank q.tenant ∧ x.order < q.order)
          then some q else some x
      | none => some q) none with
    | none => s
    | some q => State.shrinkT1 n (s.modSeq q.index fun q => { q with t1held := false })

/-- Bytes that the lanes of a CXL or NVMe port carry in 256 ticks, while it is up (DEDUCED; log entry 137): its lane rate in GT/s times
its width, one bit a transfer, at 470 MHz. -/
def State.laneBytes (s : State) (port : PortId) : Nat :=
  match s.port? port with
  | some p => if p.st = .up then p.rate * p.width * 25 * bucketTicks / 94 else 0
  | none => 0

/-- Bytes of an egress point in 256 ticks: a UCIe group, an Asvis link, a cluster's CXL or NVMe ports, or its page feed. -/
def State.egressCapacity (s : State) (e : Nat) : Nat :=
  if e < 4 then 1115506 * s.ucieRate e / 256
  else if e < 100 then (match s.port? (.asvis (e - 4)) with
    | some p => if p.st = .up then 30032 * p.rate / 224 else 0
    | none => 0)
  else if e < 124 then s.laneBytes (.cxl (e - 100)) + s.laneBytes (.nvme (e - 100) 0) + s.laneBytes (.nvme (e - 100) 1)
  else 512 * bucketTicks * (s.activeEngines (e - 124)).length

/-- Serve as excess only the queues whose shapers were set most recently, until the committed rates of an egress point fit. -/
def State.shrinkRates : Nat → State → Nat → State
  | 0, s, _ => s
  | n + 1, s, e =>
    let qs := s.queues.filter fun q => q.cfg.egress == e && !q.excessOnly && (q.cfg.fn == wheyFn || decide (1 ≤ q.cfg.cls ∧ q.cfg.cls ≤ 3))
    if sumBy (fun q => q.cfg.rate * bucketTicks) qs ≤ s.egressCapacity e then s
    else match qs.foldl (fun (b : Option Queue) q => match b with
      | some x => if x.order ≤ q.order then some q else some x
      | none => some q) none with
      | none => s
      | some q =>
        let qs := mapIf (fun (x : Queue) => x.cfg == q.cfg && x.order == q.order) (fun x => { x with excessOnly := true }) s.queues
        State.shrinkRates n { s with queues := qs } e

/-- R248 on the capacity that remains. -/
def State.recompute (s : State) : State :=
  let s := State.rescindZero s.reqs.length s
  let s := State.shrinkT1 s.seqs.length s
  ((s.queues.map (·.cfg.egress)).eraseDups).foldl (fun s e => State.shrinkRates s.queues.length s e) s

/-! ### Engines (R144, R342) -/

/-- Completion tick that a request's reservations reach. -/
def State.reservedEnd (s : State) (id : Nat) : Nat := s.calendar.foldl (fun n c => if c.req = id then max n c.hi else n) 0

/-- Place one engine reservation on another engine of its cluster within its request's deadline, or rescind the request. -/
def State.replaceResv (s : State) (cluster logical : Nat) (c : Resv) : State :=
  match s.req? c.req with
  | none => s
  | some r =>
    if r.ended.isSome then s
    else
      let rest := s.calendar.filter fun x => x != c
      let others := (s.activeEngines cluster).filter fun e => e.1 != logical
      let d := c.hi - c.lo
      let best := others.foldl (fun (b : Option (Nat × Nat)) e =>
        let t := earliestFree rest (.engine cluster e.1) (s.engineStart e.2 cluster (max s.now c.lo)) d
        match b with
        | some (l, t') => if t < t' then some (e.1, t) else some (l, t')
        | none => some (e.1, t)) none
      match best with
      | some (l, t) =>
        let c' : Resv := { c with cal := .engine cluster l, lo := t, hi := t + d }
        if s.fits rest c' ∧ s.reservedEnd r.id + (t - c.lo) ≤ r.deadline then { s with calendar := c' :: rest }
        else s.endReq r stRescinded noBlock noLayer
      | none => s.endReq r stRescinded noBlock noLayer

/-- Class-0 passes reserved on a logical number that begin before tick `before` (R342, point 4). -/
def State.moveResvs (s : State) (cluster logical before : Nat) : State :=
  (s.calendar.filter fun c => c.cal == .engine cluster logical && decide (s.now ≤ c.lo) && decide (c.lo < before)).foldl
    (fun s c => if s.calendar.contains c then s.replaceResv cluster logical c else s) s

/-- Requests with rows on one engine of a pass. -/
def Pass.reqsOn (p : Pass) (slot : Nat) : List Nat :=
  ((p.rows.filter fun x => p.engines[x.engine]? == some slot).map (·.req)).eraseDups

/-- End every pass on an engine under R143 with INTERNAL_FAULT. -/
def State.endPasses (s : State) (cluster slot : Nat) : State :=
  (s.passes.filter fun p => p.cluster == cluster && p.engines.contains slot).foldl (fun s p =>
    ((p.reqsOn slot).foldl (fun (s : State) id => s.markEnd id stInternalFault noBlock noLayer) s).pageBoundary p.id) s

/-- The lowest-numbered spare slot of a cluster is brined for the logical number of the failed physical slot `slot`; with none left the
cluster runs one engine short. R248 recomputes on the engines that remain (R342, point 4). -/
def State.callSpare (s : State) (cluster logical slot : Nat) : State :=
  match (List.range 16).find? fun p => s.engines.any fun e => e.cluster == cluster && e.slot == p && e.st == .spare with
  | some p =>
    ((s.modEngine cluster p fun e => { e with st := .brining logical, dirty := [], brined := s.now, stands := slot }).moveResvs cluster
      logical (s.now + brineTicks)).recompute
  | none => ((s.advise (poolDetail 0 cluster)).moveResvs cluster logical (2 ^ 64)).recompute

/-- An engine leaves service (R144, R328, R342). -/
def State.engineOut (s : State) (cluster slot : Nat) : State :=
  match s.engines.find? fun e => e.cluster == cluster && e.slot == slot with
  | none => s
  | some e =>
    match e.st with
    | .active l =>
      let s := s.endPasses cluster slot
      let s := s.modEngine cluster slot fun e => { e with st := .failed l, dirty := [] }
      (s.callSpare cluster l slot).dispatch
    | .brining l => ((s.modEngine cluster slot fun e => { e with st := .failed l }).spend 0 cluster).callSpare cluster l e.stands
    | .spare => (s.modEngine cluster slot fun e => { e with st := .failed 16 }).spend 0 cluster
    | .failed _ => s

/-- ENGINE_FAULT: a check of an engine fails. -/
def State.engineFault (s : State) (cluster slot check : Nat) : State :=
  if s.engines.any fun e => e.cluster == cluster && e.slot == slot && (match e.st with
      | .failed _ => false
      | _ => true) then
    (s.event "ENGINE_FAULT" (some 0xC201) (evSource 1 (cluster * 16 + slot)) check).engineOut cluster slot
  else s

/-- ENGINE_REMAPPED: the brine of a spare ends; a clean read-back gives it the failed engine's logical number. -/
def State.engineRemapped (s : State) (cluster slot : Nat) (clean : Bool) : State :=
  match s.engines.find? fun e => e.cluster == cluster && e.slot == slot with
  | none => s
  | some e =>
    match e.st with
    | .brining l =>
      if s.now < e.brined + brineTicks then s
      else if !clean then s.engineFault cluster slot 4
      else
        let s := s.modEngine cluster slot fun e => { e with st := .active l }
        let s := s.event "ENGINE_REMAPPED" (some 0x8202) (evSource 1 (cluster * 16 + e.stands)) (slot + l * 256)
        (s.spend 0 cluster).dispatch
    | _ => s

/-- DECODE_RECHECK: the page is decoded again on an engine of another cluster (R175). -/
def State.decodeRecheck (s : State) (blk layer : Nat) (decodes : Bool) : State :=
  match s.rechecks.find? fun x => x.blk == blk && x.layer == layer with
  | none => s
  | some x =>
    let s := { s with rechecks := s.rechecks.filter fun y => !(y.blk == blk && y.layer == layer) }
    if !decodes then s.recheckFails blk layer
    else match x.engines with
      | (c, p) :: _ => s.engineFault c p 6
      | [] => s

/-! ### The shelf (R343) -/

/-- Pages of T0 that overlap a run of grains: record and layer. -/
def State.t0PagesIn (s : State) (lo n : Nat) : List (Nat × Nat) :=
  s.recs.flatMap fun r => r.locs.zipIdx.filterMap fun (l, i) =>
    if l.tier = 0 ∧ l.grains ≠ 0 ∧ !l.lost ∧ l.addr < lo + n ∧ lo < l.addr + l.grains then some (r.id, i) else none

/-- Staging grains of the copies, in their order, from the first staging grain up (log entry 15). -/
def State.stagingAt (s : State) : List (Nat × StagingCopy) :=
  (s.staging.foldl (fun (b : Nat × List (Nat × StagingCopy)) c => (b.1 + c.grains, (b.1, c) :: b.2)) (s.params.t0Grains, [])).2

/-- Ask again for the far page of a copy that is discarded (R105, R343). -/
def State.askAgain (s : State) (c : StagingCopy) : State :=
  let s := { s with staging := s.staging.filter fun x => x.id != c.id }
  match s.req? c.req with
  | none => s
  | some r =>
    match (c.pin.bind s.pinned?) with
    | some (q, v) =>
      match s.model? q.model with
      | some m => s.askFar { r with pin := c.pin } q v m c.layer c.block c.ahead
      | none => s
    | none => s

/-- Parked passes, each in a grain of its own from the top of the shelf down (log entry 15). -/
def State.parkedAt (s : State) : List (Nat × Pass) := (s.passes.filter (·.parked)).zipIdx.map fun x => (16383 - x.2, x.1)

/-- What the loss of one shelf grain costs its use. -/
def State.loseGrain (s : State) (g : Nat) : State :=
  let s := (s.t0PagesIn g 1).foldl (fun (s : State) x => s.pageLost x.1 x.2) s
  let s := (s.stagingAt.filter fun x => decide (x.1 ≤ g ∧ g < x.1 + x.2.grains)).foldl (fun (s : State) x => s.askAgain x.2) s
  (s.parkedAt.filter fun x => x.1 == g).foldl (fun (s : State) x =>
    let s := ((x.2.rows.map (·.req)).eraseDups).foldl (fun (s : State) id => s.markEnd id stInternalFault noBlock noLayer) s
    s.pageBoundary x.2.id) s

def State.setShelf (s : State) (n : Nat) (st : ShelfSt) : State :=
  { s with faults := { s.faults with shelf := mapIf (fun b => b.1 == n) (fun b => (b.1, st)) s.faults.shelf } }

def State.shelfSt (s : State) (n : Nat) : ShelfSt := (s.faults.shelf.find? fun b => b.1 == n).elim .gone (·.2)

def State.spareShelf (s : State) : Option Nat :=
  (List.range 68).find? fun n => s.faults.shelf.any fun b => b.1 == n && b.2 == .spare

/-- The bank of grains that a physical shelf bank serves: its own, or the one it stands in for. -/
def State.shelfServes (s : State) (bank : Nat) : Option Nat :=
  if bank < 64 then (match s.shelfSt bank with
    | .working => some bank
    | .copying _ _ => some bank
    | _ => none)
  else (s.faults.shelf.find? fun b => match b.2 with
    | .copying k _ => k == bank
    | .onSpare k => k == bank
    | _ => false).map (·.1)

/-- SHELF_BANK_FAULT: a bank leaves service; its copy to the lowest spare begins, or, with none, it leaves without one. -/
def State.shelfFault (s : State) (bank : Nat) (bad : List Nat) : State :=
  match s.shelfServes bank with
  | none => if s.shelfSt bank = .spare then (s.setShelf bank .gone).spend 5 0 else s
  | some n =>
    let s := if 64 ≤ bank then s.setShelf bank .gone else s
    match s.spareShelf with
    | some k =>
      let lost := bad.eraseDups.filter fun g => g / 256 == n
      let s := ((s.setShelf n (.copying k lost.length)).setShelf k .used).spend 5 0
      lost.foldl (fun (s : State) g => s.loseGrain g) s
    | none =>
      let s := (List.range 256).foldl (fun (s : State) i => s.loseGrain (256 * n + i)) s
      let s := (s.setShelf n .gone).advise (poolDetail 5 0)
      s.demoteAll.freeIdleProxies.recompute

/-- SHELF_BANK_REMAPPED: the copy to the spare bank ends; the event counts the grains found lost. -/
def State.shelfRemapped (s : State) (bank : Nat) : State :=
  match (s.shelfServes bank).map fun n => (n, s.shelfSt n) with
  | some (n, .copying k lost) => (s.setShelf n (.onSpare k)).event "SHELF_BANK_REMAPPED" (some 0x8301) (evSource 3 bank) (k + lost * 256)
  | _ => s

/-! ### Control pairs, key banks, AES lanes, the monitor (R344 to R347) -/

def State.modPair (s : State) (n : Nat) (g : ControlPair → ControlPair) : State :=
  { s with faults := { s.faults with pairs := mapIf (fun p => p.n == n) g s.faults.pairs } }

/-- CONTROL_CHECKPOINT: a working pair writes its checkpoint. -/
def State.checkpoint (s : State) (pair : Nat) : State :=
  s.modPair pair fun p => if p.partition.isSome ∧ !p.halted then { p with checkpoint := s.now } else p

/-- Class-0 requests of a partition that depend on its pair: those it still has to pin or commit (R344). -/
def State.dependOn (s : State) (part : Nat) : List Nat :=
  (s.reqs.filter fun r => r.cls == 0 && !r.past && (r.phase == .waiting || (changeOf r.desc).isSome) &&
    (namesOf r.desc).any fun h => h % 2 ^ 24 % 4 == part).map (·.id)

/-- CONTROL_PAIR_FAULT: a lockstep mismatch halts a pair. -/
def State.pairFault (s : State) (pair : Nat) : State :=
  match s.faults.pairs.find? fun p => p.n == pair with
  | none => s
  | some p =>
    if p.halted then s
    else
      let s := s.modPair pair fun p => { p with halted := true }
      match p.partition with
      | none => s.spend 6 0
      | some j =>
        let spare := s.faults.pairs.any fun x => !x.halted && x.partition.isNone
        let s := s.event "CONTROL_PAIR_FAULT" (some 0xC401) (evSource 7 pair) (j + spare.toNat * 256)
        let s := s.endAll (s.dependOn j) stRescinded
        if spare then s.spend 6 0 else (s.advise (poolDetail 6 0)).recompute

/-- CONTROL_PAIR_TAKEOVER: the spare pair takes the partition of the halted one. -/
def State.pairTakeover (s : State) (part : Nat) : State :=
  match s.faults.pairs.find? (fun p => p.halted && p.partition == some part), s.faults.pairs.find? fun p => !p.halted && p.partition.isNone with
  | some old, some new =>
    (s.modPair old.n fun p => { p with partition := none }).modPair new.n fun p =>
      { p with partition := some part, checkpoint := old.checkpoint }
  | _, _ => s

/-- Key-slot banks in service: 0 and 1, and 2 once it is called. -/
def State.keyBanks (s : State) : List Nat :=
  (if s.sparesUsed 7 0 = 0 then [0, 1] else [0, 1, 2]).filter fun b => !s.island.banksBad.contains b

/-- KEY_BANK_REPLACED: the failing bank leaves service and the surviving one is copied to the spare. With no complete copy
left every slot is zeroised (R345). -/
def State.keyBankFault (s : State) (bank : Nat) : State :=
  if !s.keyBanks.contains bank then s
  else
    let whole := s.keyBanks.filter fun b => b != bank && !(s.island.copying && b == 2)
    let s := { s with island := { s.island with banksBad := bank :: s.island.banksBad } }
    if whole.isEmpty then ({ s with island := { s.island with keys := [], copying := false } }).advise (poolDetail 7 0)
    else
      let s := s.event "KEY_BANK_REPLACED" (some 0x8402) (evSource 8 0) bank
      if s.sparesUsed 7 0 = 0 then ({ s with island := { s.island with copying := true } }).spend 7 0 else s.advise (poolDetail 7 0)

def State.keyBankCopied (s : State) (bank : Nat) : State :=
  if bank = 2 then { s with island := { s.island with copying := false } } else s

/-- AES_KNOWN_ANSWER_TEST: each lane that fails is remapped to a spare lane of its unit; with none left the unit runs with
fewer lanes (R346). -/
def State.aesTest (s : State) (unit : Nat) (failed : List Nat) : State :=
  ((failed.eraseDups).filter fun l => !s.island.aesBad.contains (unit, l)).foldl (fun (s : State) l =>
    let left := 2 - (s.island.aesBad.filter fun x => x.1 == unit).length
    let s := { s with island := { s.island with aesBad := (unit, l) :: s.island.aesBad } }
    if left = 0 then (s.advise (poolDetail 8 unit)).recompute
    else (s.event "AES_LANE_REMAPPED" (some 0x8403) (evSource 8 unit) (unit % 65536 + l * 65536)).spend 8 unit) s

/-- DEADLINE_MONITOR_FAULT: the monitor counts as failed until the next full reset (R347). How far its count is off, and what
pool the event names for a fault that belongs to none, are free. -/
def State.monitorFault (s : State) : State :=
  if s.monitor.failed then s
  else
    let (d, s) := s.freeNat
    let (p, s) := s.freeNat
    let s := s.event "DEADLINE_MONITOR_FAULT" (some 0xC405) (evSource 0 0) (d % 2 ^ 32)
    let s := { s with monitor := { s.monitor with failed := true } }
    (s.endAll (s.monitor.held.map Prod.fst) stRescinded).advise (p % 2 ^ 32)

/-! ### The tracker and the watchdog (R340) -/

/-- End a request with INTERNAL_FAULT, a FENCE included. -/
def State.internalEnd (s : State) (r : Req) : State :=
  match r.desc with
  | .fence _ => { s.finish r stInternalFault 0 with fences := s.fences.filter fun x => x.req != r.id }
  | _ => s.endReq r stInternalFault noBlock noLayer

/-- The two copies of a request's outstanding entry agree (R340). -/
def Req.trackOk (r : Req) : Bool := r.writerSeq == r.slotSeq

/-- WATCHDOG_EXPIRY: a request of classes 1 to 7 is outstanding too long. Copies of its entry that disagree end it at any class, with an
event; `upset` is what a fault has changed in the writer's copy. -/
def State.watchdog (s : State) (r : Req) (upset : Nat) : State :=
  let s := s.modReq r.id fun r => { r with writerSeq := r.writerSeq ^^^ upset }
  let r := { r with writerSeq := r.writerSeq ^^^ upset }
  if !r.trackOk then (s.event "TRACKER_MISMATCH" (some 0xC406) (evSource 9 r.fn) r.slotSeq).internalEnd r
  else if r.cls ≠ 0 ∧ r.decided + s.params.watchdogMs * 470000 ≤ s.now then s.internalEnd r
  else s

/-! ### UCIe modules (R348) -/

/-- Functions of a module group end as its reset ends them. -/
def State.resetGroupFns (s : State) (g : Nat) : State :=
  ((s.fns.filter fun f => f.group == g).map (·.fn)).foldl (fun s n => s.resetFn n) s

/-- A group with no Zarfy module in service ends its functions as a module-group reset does (R197, R348). -/
def State.groupGone (s : State) (g : Nat) : State :=
  let ups := s.faults.groupsUp.filter fun (x : Nat) => x != g
  let alone := s.faults.directAlone || (s.faults.groupsUp.contains g && s.params.directGroup == g)
  if !(s.zarfyModules g).isEmpty then s else ({ s with faults := { s.faults with groupsUp := ups, directAlone := alone } }).resetGroupFns g

/-- UCIE_MODULE_LOSS: a module leaves service; its group goes on with the others. In tray role the modules are held in reset and none is in
service (R13). -/
def State.moduleLoss (s : State) (g m : Nat) : State :=
  if s.isTray || s.faults.modulesOut.contains (g, m) || decide (4 ≤ m) then s
  else
    let s := { s with faults := { s.faults with modulesOut := (g, m) :: s.faults.modulesOut } }
    let s := (s.note "UCIE_MODULE_LOST" (evSource 6 (g * 4 + m)) 0).advise (poolDetail 4 (g * 4 + m))
    s.recompute.groupGone g

/-- UCIE_LANE_REPAIR: a lane is repaired by a retrain of the module (R348, R349), which a module held in reset does not make (R13). -/
def State.laneRepair (s : State) (g m : Nat) : State :=
  if s.isTray ∨ s.faults.modulesOut.contains (g, m) ∨ Config.ucieSpareLanes ≤ s.sparesUsed 4 (g * 4 + m) then s
  else
    let key := fun (x : Nat × Nat × Nat) => x.1 == g && x.2.1 == m
    let fixed := if s.faults.lanesFixed.any key then mapIf key (fun x => (x.1, x.2.1, x.2.2 + 1)) s.faults.lanesFixed
      else (g, m, 1) :: s.faults.lanesFixed
    (({ s with faults := { s.faults with lanesFixed := fixed } }).note "UCIE_LANE_REPAIRED" (evSource 6 (g * 4 + m)) 0).spend 4 (g * 4 + m)

/-! ### The event recorder (R352 to R354) -/

/-- The event repeats the last record written, within 1 ms of its latest occurrence (R353). -/
def Event.repeats (e last : Event) : Bool :=
  e.code == last.code && e.name == last.name && e.source == last.source && decide (e.first ≤ last.last + 470000)

/-- The last record with one occurrence more. -/
def Event.again (last e : Event) : Event := { last with last := e.first, count := min (last.count + 1) 65535 }

/-- Write one event: a repeat updates the last record in both copies, another takes the next sequence number. -/
def Recorder.write (q : Recorder) (e : Event) : Recorder :=
  match q.ring with
  | last :: rest =>
    if e.repeats last then
      let l := last.again e
      { q with ring := l :: rest, firsts := match q.firsts with
                                             | x :: xs => if x.seq = last.seq ∧ q.next ≤ 1024 then l :: xs else x :: xs
                                             | [] => [] }
    else
      let x := { e with seq := q.next % 2 ^ 32 }
      { q with ring := (x :: q.ring).take 65536, next := q.next + 1, firsts := if q.next < 1024 then x :: q.firsts else q.firsts }
  | [] =>
    let x := { e with seq := q.next % 2 ^ 32 }
    { q with ring := [x], next := q.next + 1, firsts := if q.next < 1024 then x :: q.firsts else q.firsts }

/-- EVENT_RECORD_WRITE: the recorder takes one queued event, once this boot's BOOT record leads the queue. Room in a queue
that was full first takes the count of the events lost. -/
def State.recordEvent (s : State) : State :=
  let q := s.recorder
  if !q.booted then s
  else match q.queue with
    | [] => s
    | e :: rest =>
      let w := ({ q with queue := rest }).write e
      if w.dropped = 0 then { s with recorder := w }
      else ({ s with recorder := { w with dropped := 0 } }).event "EVENTS_LOST" (some 0x0002) (evSource 0 0) (w.dropped % 2 ^ 32)

/-! ### Commands -/

def execEngineFault (cluster slot check : Nat) (s : State) : Host.Outcome State Fault Refusal :=
  .next (s.live fun s => s.engineFault cluster slot check)

def execEngineRemapped (cluster slot : Nat) (clean : Bool) (s : State) : Host.Outcome State Fault Refusal :=
  .next (s.live fun s => s.engineRemapped cluster slot clean)

def execDecodeRecheck (rec layer : Nat) (decodes : Bool) (s : State) : Host.Outcome State Fault Refusal :=
  .next (s.live fun s => s.decodeRecheck rec layer decodes)

def execShelfBankFault (bank : Nat) (badGrains : List Nat) (s : State) : Host.Outcome State Fault Refusal :=
  .next (s.live fun s => s.shelfFault bank badGrains)

def execShelfBankRemapped (bank : Nat) (s : State) : Host.Outcome State Fault Refusal := .next (s.live fun s => s.shelfRemapped bank)

def execControlCheckpoint (pair : Nat) (s : State) : Host.Outcome State Fault Refusal := .next (s.live fun s => s.checkpoint pair)

def execControlPairFault (pair : Nat) (s : State) : Host.Outcome State Fault Refusal := .next (s.live fun s => s.pairFault pair)

def execControlPairTakeover (partition : Nat) (s : State) : Host.Outcome State Fault Refusal :=
  .next (s.live fun s => s.pairTakeover partition)

def execKeyBankReplaced (bank : Nat) (s : State) : Host.Outcome State Fault Refusal := .next (s.keyBankFault bank)

def execKeyBankCopyEnd (bank : Nat) (s : State) : Host.Outcome State Fault Refusal := .next (s.keyBankCopied bank)

def execAesKnownAnswerTest (unit : Nat) (failed : List Nat) (s : State) : Host.Outcome State Fault Refusal :=
  .next (s.live fun s => s.aesTest unit failed)

def execDeadlineMonitorFault (s : State) : Host.Outcome State Fault Refusal := .next (s.live State.monitorFault)

def execWatchdogExpiry (x : Expiry) (s : State) : Host.Outcome State Fault Refusal := .next (s.withReq x.req fun s r => s.watchdog r x.upset)

def execUcieModuleLoss (group module : Nat) (s : State) : Host.Outcome State Fault Refusal :=
  .next (s.live fun s => s.moduleLoss group module)

def execUcieLaneRepair (group module : Nat) (s : State) : Host.Outcome State Fault Refusal :=
  .next (s.live fun s => s.laneRepair group module)

def execEventRecordWrite (s : State) : Host.Outcome State Fault Refusal := .next s.recordEvent

end Sys2Proof.Machine
end

