-- ==== Sys2Proof/Machine/Flash.lean ====
section
/-! DEFINITION. The flash path of a tray (12_fabric_and_pool): the stripes of its SSD groups (R281), the destaging of pool objects, and
their reads through staging (R277, R278). -/

namespace Sys2Proof.Machine

def State.modTray (s : State) (g : Tray → Tray) : State := { s with tray := g s.tray }

/-- Change the pool objects that satisfy a test. -/
def State.modObjects (s : State) (p : PoolObj → Bool) (g : PoolObj → PoolObj) : State :=
  s.modTray fun t => { t with objects := mapIf p g t.objects }

def State.object? (s : State) (id : Nat) : Option PoolObj := s.tray.objects.find? fun o => o.id == id

/-! ### Stripes (R281) -/

/-- SSD ports of a tray in order: nine to a group, then the metadata pair and its spare. -/
def State.ssdPorts (s : State) : List PortId :=
  (s.ports.map (·.id)).filter fun p => match p with
    | .nvme _ _ => true
    | .asvis _ => false
    | .cxl _ => false

/-- SSD groups of nine, the metadata pair and its spare apart. -/
def State.ssdGroups (s : State) : Nat := max 1 ((s.ssdPorts.length - 3) / 9)

/-- SSD of a group that holds the parity of a stripe: it rotates. -/
def paritySsd (stripe : Nat) : Nat := stripe % 9

/-- SSD of a group that holds grain x of the group: one of the eight beside its stripe's parity. -/
def grainSsd (x : Nat) : Nat := if x % 8 < paritySsd (x / 8) then x % 8 else x % 8 + 1

def State.ssdDown (s : State) (group ssd : Nat) : Bool := s.tray.ssdFailed.contains (group, ssd)

/-- Grain k of an object as the flash path stores it: under its host's pool key, bound to the host, its address and version (R279). -/
def State.flashBytes (s : State) (o : PoolObj) (k : Nat) : Bytes :=
  s.storedGrain 1 o.host 3 (o.addr + k) o.version (grainContent o.data k)

/-- What grain x of a group holds; nothing reads as zeros. -/
def State.flashGrain (s : State) (group x : Nat) : Bytes :=
  match s.tray.objects.find? fun o => o.ssdGroup == group && o.place.any fun p => decide (p ≤ x ∧ x < p + o.grains) with
  | some o => s.flashBytes o (x - o.place.getD 0)
  | none => []

/-- Parity of a stripe. -/
def State.stripeParity (s : State) (group stripe : Nat) : Bytes :=
  (List.range 8).foldl (fun b i => xorBytes b (s.flashGrain group (8 * stripe + i))) []

/-- Command on the stripe of an SSD: one grain, in LBAs of a grain each (log entry 142). -/
def stripeCmd (stripe : Nat) (data : Option Bytes) : NvmeCmd := { nsid := 1, lba := stripe, blocks := 1, data := data }

/-- Issue a command on an SSD of a group that has not failed. -/
def State.ssdIssue (s : State) (group ssd cls : Nat) (kind : TxnKind) (n : NvmeCmd) : State :=
  match s.ssdPorts[9 * group + ssd]? with
  | some (.nvme c p) =>
    if s.ssdDown group ssd then s
    else ((s.nvmeIssue c p s.ids n).enqueue (100 + c) wheyFn cls (n.data.elim 64 (·.length))).openTxn (.nvme c p) kind 0 none (some n)
  | _ => s

/-! ### Destaging (R277, R281) -/

/-- Runs of a group that are taken. -/
def State.flashRuns (s : State) (group : Nat) : List (Nat × Nat) :=
  s.tray.objects.filterMap fun o => if o.ssdGroup = group then o.place.map fun p => (p, o.grains) else none

/-- Stripes that a run of grains touches. -/
def stripesOf (x n : Nat) : List Nat := (List.range (n + 1)).map (fun i => x / 8 + i) |>.filter fun t => decide (8 * t < x + n)

/-- DESTAGE: a flash-backed page that stack memory alone holds is written to its SSD group at tray.whey_class, its grains and the parity of
their stripes; the group takes writes with one SSD failed. -/
def State.destage (s : State) (id : Nat) : State :=
  match s.object? id with
  | none => s
  | some o =>
    let failed := (s.tray.ssdFailed.filter fun x => x.1 == o.ssdGroup).length
    if o.resident ∨ o.lost ∨ o.onFlash ∨ o.place.isSome ∨ 2 ≤ failed ∨ s.ssdPorts.length < 9 * o.ssdGroup + 9 ∨ !s.stagingFree 0 o.grains then s
    else match firstFit (s.flashRuns o.ssdGroup) 0 (2 ^ 40) o.grains with
      | none => s
      | some x =>
        let s := s.modObjects (fun y => y.id == id) fun y => { y with place := some x }
        let cls := s.params.trayWheyClass
        let s := (List.range o.grains).foldl (fun (s : State) k =>
          s.ssdIssue o.ssdGroup (grainSsd (x + k)) cls (.destage id) (stripeCmd ((x + k) / 8) (some (s.flashBytes o k)))) s
        (stripesOf x o.grains).foldl (fun (s : State) t =>
          s.ssdIssue o.ssdGroup (paritySsd t) cls (.destage id) (stripeCmd t (some (s.stripeParity o.ssdGroup t)))) s

/-- The last write of a destaging has ended: the object lies on flash, and a cold one leaves stack memory (R278). -/
def State.destaged (s : State) (id : Nat) : State :=
  if s.txns.any fun t => t.kind == TxnKind.destage id then s
  else s.modObjects (fun o => o.id == id && o.place.isSome && !o.lost) fun o =>
    { o with onFlash := true, inStack := o.inStack && decide (s.params.trayDemote < o.count) }

/-- A write of a destaging fails: the object stays in stack memory. -/
def State.destageFails (s : State) (id : Nat) : State :=
  let s := { s with txns := s.txns.filter fun t => t.kind != TxnKind.destage id }
  s.modObjects (fun o => o.id == id && !o.onFlash) fun o => { o with place := none }

/-! ### Reads (R272, R276 to R278, R281) -/

/-- Byte offset of a pool line in the object that holds it. -/
def PoolObj.lineAt (o : PoolObj) (line : Nat) : Nat := 64 * line - o.addr * grainBytes

/-- Replace the 64 bytes at an offset. -/
def putLine (b : Bytes) (off : Nat) (line : Bytes) : Bytes := b.take off ++ line ++ b.drop (off + 64)

/-- Serve who reads an object: a page's bytes, a line's, or a store to a line, which stack memory then holds. A lost object gives Asvis
status 7, or an error on CXL (R258, R281). -/
def State.serveGet (s : State) (o : PoolObj) (who : TrayGet) : State :=
  match who with
  | .page link fr =>
    if o.lost then s.send link msgPageData fr.xid fr.object 0 7 [] (hdrOf fr)
    else State.sendPage link msgPageData fr.xid fr.object 0 false (hdrOf fr) (pageFrames o.data) 0 s o.data
  | .line host line write =>
    if o.lost then s.emit (.cxlError line)
    else match write with
      | none => s.emit (.cxlRegion host line ((o.data.drop (o.lineAt line)).take 64))
      | some b => (s.modObjects (fun x => x.id == o.id) fun x =>
          { x with data := putLine x.data (x.lineAt line) (b.take 64), onFlash := false, inStack := true, place := none }).emit (.cxlDone line)

/-- Class of a read from flash: that of the frame that asks. -/
def TrayGet.cls : TrayGet → Nat
  | .page _ fr => fr.cls
  | .line _ _ _ => 7

/-- Read grain x of an object from its SSD, or from the eight others of its stripe where that SSD has failed (R281). -/
def State.readGrain (s : State) (o : PoolObj) (x : Nat) (who : TrayGet) (rebuild : Bool) : State :=
  let own := grainSsd x
  if rebuild || s.ssdDown o.ssdGroup own then
    (List.range 9).foldl (fun (s : State) i =>
      if i = own then s else s.ssdIssue o.ssdGroup i who.cls (.trayRead o.id x who true) (stripeCmd (x / 8) none)) s
  else s.ssdIssue o.ssdGroup own who.cls (.trayRead o.id x who false) (stripeCmd (x / 8) none)

/-- Read an object for someone: from stack memory when it is there, otherwise from flash through staging, which it may wait for (R277). -/
def State.getObject (s : State) (o : PoolObj) (who : TrayGet) : State :=
  if o.lost ∨ o.inStack then s.serveGet o who
  else if !s.stagingFree 0 o.grains then s.modTray fun t => { t with gets := t.gets ++ [(o.id, who)] }
  else (List.range o.grains).foldl (fun (s : State) k => s.readGrain o (o.place.getD 0 + k) who false) s

/-- Reads that waited for staging follow. -/
def State.nextGets (s : State) : State :=
  s.tray.gets.foldl (fun (s : State) g =>
    match s.object? g.1 with
    | some o => (s.modTray fun t => { t with gets := t.gets.erase g }).getObject o g.2
    | none => s.modTray fun t => { t with gets := t.gets.erase g }) s

/-- A transaction that reads an object for someone. -/
def Txn.reads (t : Txn) (id : Nat) (who : TrayGet) : Bool :=
  match t.kind with
  | .trayRead o _ w _ => o == id && w == who
  | _ => false

/-- A read of an object ends; after the last one the object is served. -/
def State.getDone (s : State) (id : Nat) (who : TrayGet) : State :=
  if s.txns.any fun t => t.reads id who then s
  else match s.object? id with
    | some o => (s.serveGet o who).nextGets
    | none => s.nextGets

/-- A read of a grain fails: the rest of its stripe is read; where that fails in its check too, the object is lost, and where an SSD does
not answer no bytes go out (R281). -/
def State.getFails (s : State) (id x : Nat) (who : TrayGet) (rebuilt check : Bool) : State :=
  match s.object? id with
  | none => s.nextGets
  | some o =>
    if check ∧ !rebuilt then s.readGrain o x who true
    else
      let s := { s with txns := s.txns.filter fun t => !t.reads id who }
      let s := if check then s.modObjects (fun y => y.id == id) fun y => { y with lost := true, onFlash := false } else s
      if check then (s.serveGet { o with lost := true } who).nextGets
      else match who with
        | .page _ _ => s.nextGets
        | .line _ line _ => (s.emit (.cxlError line)).nextGets

/-- The flash part of a finished transaction. -/
def State.flashDone (s : State) (kind : TxnKind) : State :=
  match kind with
  | .destage id => (s.destaged id).nextGets
  | .trayRead id _ who _ => s.getDone id who
  | _ => s

end Sys2Proof.Machine
end

