-- ==== Sys2Proof/Machine/Links.lean ====
section
/-! DEFINITION. Links and ports (12_fabric_and_pool): what ends an open transaction (R257, R258), the acceptance of a frame
(R254 to R256), and the lifecycle of R250, R252 and R261. -/

namespace Sys2Proof.Machine

/-! ### Open transactions -/

def State.dropTxn (s : State) (xid : Nat) : State := { s with txns := s.txns.filter fun t => t.xid != xid }

/-- A transaction has ended well: a supply or a publication whose last page write it was goes on (R33, R61, R96), and reads that
staging had no room for follow (R93). -/
def State.txnDone (s : State) (t : Txn) : State :=
  match t.kind with
  | .spill id => (s.dropTxn t.xid).writesEnd id
  | .rekey id _ _ => (s.dropTxn t.xid).rekeyMore id
  | .chunk id _ _ => (s.dropTxn t.xid).chunksMore id
  | k => (s.dropTxn t.xid).flashDone k

/-- The transaction carries the source read of a move, not its write. -/
def State.readsSource (s : State) (t : Txn) (l : Loc) : Bool :=
  if l.tier = 3 then t.extent.isNone
  else if l.tier = 2 then t.extent.isSome && t.extent == (s.extentAt l.addr).map (·.id)
  else false

/-- A transfer of a move fails: a source whose check failed loses the page (R268, R270), otherwise the move is abandoned. -/
def State.endMoveTxn (s : State) (t : Txn) (move st : Nat) : State :=
  match s.move? move with
  | none => s
  | some m =>
    match (s.rec? m.blk).bind fun r => r.loc? m.layer with
    | some l =>
      if st = stDataIntegrity ∧ s.readsSource t l then ((s.dropMove m).pageLost m.blk m.layer).rangeSettle else s.moveFails move
    | none => s.moveFails move

/-- Reads whose page has come coded with a table that is still missing here (R171): copies of a remote prefix of the domain. -/
def State.tableWaits (s : State) (domain : Nat) (digest : BitVec 64) : List StagingCopy :=
  s.staging.filter fun c => c.blk == 0 && !c.arrived && c.coded && c.digest == digest
    && (s.entryOf c.handle).elim false fun e => e.domain == domain

/-- The read of a far page of a publication fails: a page whose check failed is lost (R61, R267, R290). -/
def State.rekeyFails (s : State) (r : Req) (b l st : Nat) : State :=
  match (r.pin.bind s.pinned?).bind fun x => s.resolve x.1 x.2 b with
  | some id => if st = stDataIntegrity then s.pageLost id l else s
  | none => s

/-- End a transaction with the status of the request it serves (R257, R258). -/
def State.endTxn (s : State) (t : Txn) (st : Nat) : State :=
  let s := s.dropTxn t.xid
  let fail := fun (id : Nat) => match s.req? id with
    | some r => s.faultReq r st noBlock noLayer
    | none => s
  match t.kind with
  | .farPage copy => (s.copyFails copy st).stagingFreed
  | .tableFetch d g => (s.tableWaits d g).foldl (fun (s : State) c => s.copyFails c.id st) s
  | .lookup id => fail id
  | .attach id => fail id
  | .publish id => fail id
  | .rekey id b l => match s.req? id with
    | some r => (s.rekeyFails r b l st).faultReq r st b l
    | none => s
  | .withdraw id => fail id
  | .release _ => s
  | .put m => s.endMoveTxn t m st
  | .claim e => { s with extents := s.extents.filter fun x => !(x.id == e && x.st == .claiming) }
  | .region id => fail id
  | .nmo id => fail id
  | .spill id => fail id
  | .chunk id model c => (fun s : State => if id = 0 then s else match s.req? id with
      | some r => s.faultReq r st noBlock noLayer
      | none => s) (if st = stDataIntegrity ∨ id = 0 then s.chunkLost model c else s)
  | .destage id => (s.destageFails id).nextGets
  | .trayRead id x who rebuilt => s.getFails id x who rebuilt (st == stDataIntegrity)
  | .dirParent l xid tenant k => s.send l msgDirAnswer xid 0 (s.keyGen k.domain) 9 [] { domain := k.domain, tenant := tenant }

/-- End every open transaction of a port. -/
def State.endTxns (s : State) (port : PortId) (st : Nat) : State :=
  (s.txns.filter fun t => t.port == port).foldl (fun (s : State) t => match s.txn? t.xid with
    | some t => s.endTxn t st
    | none => s) s

/-! ### Lifecycle (R261) -/

def clusterOfPort : PortId → Nat
  | .asvis l => l / 4
  | .cxl c => c
  | .nvme c _ => c

def State.linkNote (s : State) (name : String) (port : PortId) (detail : Nat) : State :=
  s.note name (evSource 5 (clusterOfPort port)) detail

/-- The island completes a key exchange on a link or port: its DRBG runs and no debug unlock stands (R310, R336). -/
def State.linkKeys (s : State) : Bool := s.island.drbgOn && !s.dbg.stands

/-- A port in another state, with nothing of the old session. -/
def Port.enter (p : Port) (st : PortSt) (now : Nat) : Port :=
  { p with st := st, session := false, dirOk := false, txSeq := 0, rxSeq := 0, discards := [], credits := [], peerGates := [],
           peerCycle := 0, buffer := [], since := now, resetting := false, hello := false, responder := false, ownerKeys := [], asked := 0, ide := true,
           left := if p.st = .up then some now else p.left }

/-- SPDM transport of a port that has one of its own (R315). -/
def transportOf : PortId → Option Transport
  | .asvis l => some (.asvis l)
  | .cxl c => some (.cxl c)
  | .nvme _ _ => none

/-- The sessions whose cipher state a port holds end (R318). -/
def State.endSessions (s : State) (port : PortId) : State :=
  match transportOf port with
  | some t => (((s.session? t).bind (·.slot)).elim s fun n => s.zeroise n).modSession t fun x => { x with st := .ended, slot := none }
  | none => s

/-- Move a port out of traffic: its session ends, and its open transactions end LINK_FAULT. -/
def State.leaveUp (s : State) (port : PortId) (st : PortSt) : State :=
  (((s.modPort port fun p => p.enter st s.now).endSessions port).zeroise (portSlot port)).endTxns port stLinkFault

def State.linkDown (s : State) (port : PortId) : State := s.leaveUp port .down
def State.toTraining (s : State) (port : PortId) : State := s.leaveUp port .training
def State.quarantine (s : State) (port : PortId) : State := s.leaveUp port .quarantined

/-- Grains of a list of volumes. -/
def State.volumeGrains (s : State) (l : List Nat) : Nat :=
  sumBy (fun v => if l.contains v.index then v.grains else 0) s.image.volumes

/-- Grains that the far version table covers now (R302). -/
def State.farGrains (s : State) : Nat := sumBy (·.grains) s.extents + s.volumeGrains s.volumes

/-- Bring the flash volumes behind a port into use: a namespace in a format that serves, with room in the far version table,
freshly deallocated (R269, R271, R302). -/
def State.joinVolumes (s : State) (port : PortId) : State :=
  let mine := s.image.volumes.filter fun v => !s.volumes.contains v.index &&
    (match port with
     | .nvme c p => v.local_ && v.cluster == c && v.port == p
     | .asvis l => !v.local_ && s.trayLink v == some l
     | .cxl _ => false)
  mine.foldl (fun (s : State) v =>
    if (v.local_ && !([4096, 16384].contains (Config.lbaBytes v.index))) || decide (s.params.farVersionGrains < s.farGrains + v.grains) then s.note "VOLUME_HELD_DOWN" (evSource 13 v.index) 0
    else
      let s := { s with volumes := s.volumes ++ [v.index], grainVers := s.grainVers.filter fun x => !(x.1 == 3 && x.2.1 / 2 ^ 32 == v.index) }
      let n := volumeCmd v 0 v.grains none
      if v.local_ then s.emitOn port (.nvmeDeallocate v.cluster v.port n.nsid n.lba n.blocks) else s) s

/-- A tray offers the extents that no host holds to the host at the other end of a port: EXTENT_OFFER to a cache-role controller, an Add
Capacity event to a CXL 3.1 host (R264, R276; log entry 139). -/
def State.offerExtents (s : State) (port : PortId) : State :=
  if !s.isTray then s
  else (s.tray.extents.filter fun e => e.owner.isNone).foldl (fun (s : State) e =>
    match port with
    | .asvis l => if (s.port? port).any fun p => p.peer.any fun h => !h.tray then
        s.bumpId.send l msgExtentOffer s.ids e.base (e.grains + e.resident.toNat * 2 ^ 32) 0 [] else s
    | .cxl c => if (s.port? port).any (·.gen31) then s.emitOn port (.cxlOffer c e.base e.grains) else s
    | .nvme _ _ => s) s

/-- Securing has passed: the port carries traffic, its volumes come into use, and a tray makes its offers. -/
def State.portUp (s : State) (port : PortId) : State :=
  ((s.modPort port fun p => { p with st := .up, since := s.now, left := none, lastRx := s.now }).joinVolumes port).offerExtents port

/-- Versions that both ends list: the highest of them (R252). -/
def topVersion (a b : Nat) : Option Nat := [3, 2, 1].find? fun v => bit a (v - 1) && bit b (v - 1)

/-- Versions this controller lists. -/
def ownVersions : Nat := 7

/-- Its own HELLO, in clear, with tag 0 and outside the session's frame count (R252, R255): versions, role, device, boot_epoch and the
direct bit. It goes as a frame of v1, to the device last known there (log entry 138, DESIGN CHOICE). -/
def State.sendHello (s : State) (link : Nat) : State :=
  let b := leBytes 1 ownVersions ++ leBytes 1 s.isTray.toNat ++ leBytes 2 s.params.deviceId ++ leBytes 4 s.boot.bootEpoch ++ leBytes 1 1
  s.emit (.frame link { version := 1, src := s.params.deviceId, dst := ((s.port? (.asvis link)).bind (·.peer)).elim 0 (·.device),
                        frameSeq := 0, msg := msgHello, xid := 0, object := 0, aux := 0, status := 0, offset := 0, last := true,
                        coded := false, data := b, wire := b })

/-! ### Lanes (R250) -/

/-- Port of a cluster that a logical lane belongs to. -/
def lanePort (mode c lane : Nat) : PortId :=
  match mode with
  | 1 => .asvis (4 * c + lane / 2)
  | 2 => .cxl c
  | _ => .nvme c (lane / 4)

/-- Logical lane that a physical lane carries: lanes 0 to 7 their own, lane 8 the one it was mapped to, if any. -/
def LinkCluster.logical (x : LinkCluster) (lane : Nat) : Option Nat :=
  if x.lanesBad.contains lane then none
  else if lane < 8 then some lane
  else if x.lanesBad.contains 8 then none
  else x.lanesBad.find? fun l => decide (l < 8)

/-- A lane is retired, for cause 1 short, 2 open, 3 in-service errors (R405): the spare takes the lane at a retrain; a second failure falls
back in width, or takes an Asvis link down. -/
def State.laneFails (s : State) (c lane cause : Nat) : State :=
  match s.clusters.find? fun x => x.n == c with
  | none => s
  | some x =>
    if x.mode = 0 ∨ 8 < lane ∨ x.lanesBad.contains lane then s
    else
      let first := !x.spareSpent
      let s := { s with clusters := mapIf (fun y => y.n == c) (fun y => { y with lanesBad := y.lanesBad ++ [lane], spareSpent := true }) s.clusters }
      let s := s.event "LANE_RETIRED" (some 0x8E06) (evSource 5 c) (lane + cause * 16)
      let s := if first then s.spend 3 c else s
      match x.logical lane with
      | none => s
      | some l =>
        let port := lanePort x.mode c l
        let st : Option PortSt := (s.port? port).map (·.st)
        let s := if !first ∧ x.mode ≠ 1 then s.modPort port fun p => { p with narrow := true } else s
        if st ≠ some .up ∧ st ≠ some .training then s
        else if !first ∧ x.mode = 1 then s.linkDown port
        else if st = some .up then s.toTraining port else s

/-- What training finds about lanes (R405): faulty ones retired, for cause 1 short or 2 open, and polarity and order corrected. -/
def State.trainingLanes (s : State) (c : Nat) (retired : List (Nat × Nat)) (corrected : List LaneFix) : State :=
  let s := retired.foldl (fun (s : State) x => s.laneFails c x.1 x.2) s
  corrected.foldl (fun (s : State) x => s.event "LANE_CORRECTED" (some 0x0E05) (evSource 5 c) (laneFixDetail x)) s

/-- Lanes a port may still use after a fallback (R250). -/
def State.portLanes (s : State) (port : PortId) : Nat :=
  let narrow := (s.port? port).elim false (·.narrow)
  match port with
  | .asvis _ => 2
  | .cxl _ => if narrow then 4 else 8
  | .nvme _ _ => if narrow then 2 else 4

/-! ### Securing (R251, R261, R268, R269, R315, R321) -/

/-- I/O queue pairs of an NVMe port, and their depth (R269). -/
def queuePairs : Nat := 64
def queueDepth : Nat := 1024

/-- Requests of the SPDM requester role in their order, as DSP0274 codes them (log entry 14). -/
def spdmRequests : List SecureStep := [0x84, 0xE1, 0xE3, 0x81, 0x82, 0x83, 0xE4, 0xE5].map .spdm

/-- Steps that bring a port's device into use, before its authentication. A tray's CXL port is the device: its host takes them. -/
def State.deviceSteps (s : State) (p : Port) : List SecureStep :=
  match p.id with
  | .asvis _ => []
  | .cxl _ => if s.isTray then [] else
    [.enumerate, .hdmDecoders] ++ (if p.gen31 then [.dynamicCapacityConfig, .dynamicCapacityExtents] else [])
  | .nvme _ _ => [.enumerate, .enable, .identify, .setQueues queuePairs, .createQueues queuePairs queueDepth]

/-- The port authenticates the other end: every Asvis link and CXL port, and an NVMe port with nvme.port.ide whose SSD offers IDE. -/
def State.authenticates (s : State) (p : Port) : Bool :=
  match p.id with
  | .asvis _ => true
  | .cxl _ => true
  | .nvme _ _ => s.image.nvmeIde && p.ide

/-- IDE runs on the port: CXL IDE of the CXL 3.1 subset, or the selective IDE of an NVMe port. -/
def Port.runsIde (p : Port) : Bool :=
  match p.id with
  | .asvis _ => false
  | .cxl _ => p.gen31 && p.ide
  | .nvme _ _ => p.ide

/-- Everything the controller issues while it secures a port, in order; a tray's CXL port and a link whose peer is the requester answer
only. -/
def State.secureSteps (s : State) (p : Port) : List SecureStep :=
  let asks : Bool := match p.id with
    | .asvis l => (s.session? (.asvis l)).all fun x => x.st == .ended
    | .cxl _ => !s.isTray
    | .nvme _ _ => true
  s.deviceSteps p ++ (if s.authenticates p && asks then spdmRequests ++ (if p.runsIde then [.ideKey true, .ideKey false, .ideGo] else []) else [])

/-- Issue the step of a port's securing that stands next. -/
def State.askStep (s : State) (port : PortId) : State :=
  match s.port? port with
  | none => s
  | some p => ((s.secureSteps p)[p.asked]?).elim s fun m => s.emit (.secure port m)

/-- IDE keys of a port, drawn by the requester; those that a host programs into a tray's port are free. -/
def State.setIdeKeys (s : State) (p : Port) : State :=
  if !p.runsIde then s
  else if s.isTray then s.bumpId.setKey (portSlot p.id) 0 (Config.sessionSecret s.ids false) (Config.sessionSecret s.ids true)
  else s.fillSlot (portSlot p.id) 0

/-- A lane rate and width that the mode lists (R249, R250, R251): two Asvis lanes at 224 or 112 Gb/s; CXL at 32, 64 or 128 GT/s
and NVMe at 32 or 64 GT/s, at a width of the PCIe physical layers that the port's lanes carry. -/
def State.listedRate (s : State) (port : PortId) (rate width : Nat) : Bool :=
  match port with
  | .asvis _ => (rate == 224 || rate == 112) && width == 2
  | .cxl _ => [32, 64, 128].contains rate && [1, 2, 4, 8].contains width && decide (width ≤ s.portLanes port)
  | .nvme _ _ => [32, 64].contains rate && [1, 2, 4].contains width && decide (width ≤ s.portLanes port)

/-- The end of training of a port that still trains. A rate or width outside the supported parts of the standards is no pass
(R3, R251): training fails. -/
def State.trained (s : State) (port : PortId) (r : TrainResult) : State :=
  if (s.port? port).map (·.st) ≠ some .training then s
  else match r with
    | .pass rate width cxl31 =>
      if !s.listedRate port rate width then (s.quarantine port).linkNote "LINK_TRAINING_FAILED" port 0
      else
      let s := s.modPort port fun p => { p with st := .securing, rate := rate, width := width, since := s.now, gen31 := cxl31, asked := 0, ide := true }
      (match port with
      | .asvis l => s.sendHello l
      | .cxl _ => s.askStep port
      | .nvme _ _ => s.askStep port)
    | .fail => (s.quarantine port).linkNote "LINK_TRAINING_FAILED" port 0
    | .crossed => (s.quarantine port).event "LINK_CROSSED" (some 0xCE07) (evSource 5 (clusterOfPort port)) 0

/-- LINK_TRAINING_END (R252, R261, R405): what training found about lanes comes first. -/
def State.trainingEnd (s : State) (port : PortId) (r : TrainResult) (retired : List (Nat × Nat)) (corrected : List LaneFix) : State :=
  if (s.port? port).map (·.st) ≠ some .training ∨ s.resets.active.any (fun x => x.1 == 2 && x.2.1 == clusterOfPort port) then s
  else (s.trainingLanes (clusterOfPort port) retired corrected).trained port r

/-- RETRY_INTERVAL_END: a port that has been down for asl.retry_ms trains again. -/
def State.retryEnd (s : State) (port : PortId) : State :=
  match s.port? port with
  | some p => if p.st = .down ∧ p.since + s.params.aslRetryMs * 470000 ≤ s.now then s.toTraining port else s
  | none => s

/-- A step of a port's securing is answered: the next one follows, and a port that authenticates nothing is up after the last. -/
def State.stepDone (s : State) (port : PortId) (offersIde : Bool) : State :=
  let s := s.modPort port fun p => { p with asked := p.asked + 1, ide := p.ide && offersIde }
  match s.port? port with
  | none => s
  | some p => if !s.authenticates p ∧ (s.deviceSteps p).length ≤ p.asked then s.portUp port else s.askStep port

/-- DOE_RESPONSE: enumeration, the SSD's controller and queues, SPDM and the IDE keys of a CXL or NVMe port (R261, R268, R269, R321).
Authentication ends the securing of a port whose device is in use; before that its answer is one more step. -/
def State.doeStep (s : State) (port : PortId) (r : SecureResult) : State :=
  match s.port? port, port with
  | some _, .asvis _ => s
  | some p, _ =>
    if p.st ≠ .securing then s
    else match r with
      | .more ide => s.stepDone port ide
      | .authenticated _ =>
        if p.asked < (s.deviceSteps p).length then s.stepDone port true
        else if s.linkKeys then (s.setIdeKeys p).portUp port
        else (s.quarantine port).linkNote "PORT_AUTHENTICATION_FAILED" port 0
      | .failed => (s.quarantine port).linkNote "PORT_AUTHENTICATION_FAILED" port 0
  | none, _ => s

/-- SURPRISE_DOWN of a CXL or NVMe port (R251). -/
def State.surpriseDown (s : State) (port : PortId) : State :=
  match s.port? port, port with
  | some _, .asvis _ => s
  | some p, _ => if p.st = .up ∨ p.st = .securing then (s.linkDown port).linkNote "SURPRISE_DOWN" port 0 else s
  | none, _ => s

/-! ### Frames (R254 to R256) -/

/-- Every field of a frame's header is one its receiver accepts (R254). -/
def frameLegal (p : Port) (fr : Frame) (kinds : List Nat) (payload : Nat) : Bool :=
  fr.version == p.version && decide (fr.cls ≤ 7) && (!fr.coded || decide (2 ≤ p.version)) && kinds.contains fr.keyKind
    && decide (fr.status ≤ 9) && fr.offset % 64 == 0 && (!fr.own || fr.fn == 0) && decide (payload ≤ frameBytes)

/-- Discard a frame: an illegal one counts as an error, with an event; another is asked for again. More than eight within 1 ms
take the link down (R254, R255). -/
def State.discard (s : State) (link : Nat) (illegal : Bool) : State :=
  let port := PortId.asvis link
  let s := s.modPort port fun p =>
    { p with discards := s.now :: p.discards.filter (fun t => decide (s.now < t + 470000)), errors := if illegal then p.errors + 1 else p.errors }
  let s := if illegal then s.linkNote "FRAME_ILLEGAL" port link else s
  match s.port? port with
  | none => s
  | some p =>
    if 8 < p.discards.length then s.linkDown port
    else if illegal then s
    else s.send link msgReplay 0 p.rxSeq 0 0 []

/-- The epoch that this device holds for the owner of a frame's key; `none` for the link key (R256). -/
def State.frameEpoch (s : State) (link : Nat) (fr : Frame) : Option Nat := s.keyEpochOf link fr.keyKind fr.tenant fr.domain

/-- Open transaction of a link that a frame answers. -/
def State.answered (s : State) (link : Nat) (fr : Frame) : Option Txn :=
  s.txns.find? fun t => t.xid == fr.xid && t.port == .asvis link

/-- Receive a protected frame on a link that is up (R254 to R257): `k` runs on the state that has accepted it. A frame of a
message its version lacks takes the link down; one under an old epoch is dropped undecrypted, and a transaction it answers ends
TENANT_REVOKED. -/
def State.takeFrame (s : State) (link : Nat) (fr : Frame) (minVersion : Nat) (kinds : List Nat) (payload : Nat) (answer : Bool)
    (k : State → Port → State) : State :=
  s.live fun s => match s.port? (.asvis link) with
  | none => s
  | some p =>
    if p.st ≠ .up then s
    else if p.version < minVersion then ((s.linkNote "FRAME_OF_LATER_VERSION" (.asvis link) link).linkDown (.asvis link))
    else if !frameLegal p fr kinds payload then s.discard link true
    else if fr.frameSeq ≠ p.rxSeq then s.discard link false
    else
      let old : Bool := match s.frameEpoch link fr with
        | some e => fr.keyEpoch != e
        | none => false
      let took := s.modPort (.asvis link) fun p =>
        { (if old then p else p.deriveKey { hdrOf fr with keyEpoch := fr.keyEpoch }) with rxSeq := p.rxSeq + 1, lastRx := s.now }
      if old then
        match (if answer then s.answered link fr else none) with
        | some t => took.endTxn t stTenantRevoked
        | none => took
      else if !fr.tagOk then s.discard link false
      else k took p

/-- Receive the answer to an open transaction. -/
def State.takeAnswer (s : State) (link : Nat) (fr : Frame) (minVersion : Nat) (kinds : List Nat) (payload : Nat)
    (k : State → Txn → State) : State :=
  s.takeFrame link fr minVersion kinds payload true fun s _ => match s.answered link fr with
    | some t => k s t
    | none => s

/-! ### Link-up (R252, R253) -/

/-- First 16 bytes of SHA-256 over store_domain.home_table (R252). -/
def State.homeDigest (s : State) : BitVec 128 := hashT (sha256 (s.image.homeTable.flatMap (leBytes 2)))

/-- CONFIG's payload (R252): credits granted, the gate schedule toward the peer, the home_table digest and the domain checks. -/
def State.configBytes (s : State) (link : Nat) : Bytes :=
  let g := s.image.gates.find? fun x => x.egress == 4 + link
  (List.range 8).flatMap (fun _ => leBytes 1 255) ++ leBytes 4 (g.elim 0 (·.cycle))
    ++ (g.elim [] (·.gates)).flatMap (fun e => leBytes 4 e.duration ++ leBytes 1 e.opened) ++ hashBytes s.homeDigest
    ++ s.image.domains.flatMap fun d => leBytes 2 d.domain ++ leBytes 2 d.keyGen ++ leBytes 8 (keyCheckValue (s.hashKey d.domain)).toNat

/-- The session of a link is set up: its secrets stand in the link's slot, where KEY_EXCHANGE put them if this end was the responder (R311,
R312). -/
def State.openSession (s : State) (link : Nat) : State :=
  let port := PortId.asvis link
  let answered := ((s.session? (.asvis link)).any fun x => x.st == .established) && s.slotFilled (portSlot port)
  let s := if answered then s else s.bumpId.setKey (portSlot port) 0 (Config.sessionSecret s.ids false) (Config.sessionSecret s.ids true)
  let s := s.modPort port fun p => { p with session := true, txSeq := 0, rxSeq := 0, responder := answered, ownerKeys := [] }
  s.send link msgConfig 0 0 0 0 (s.configBytes link)

/-- SPDM_FRAME: on a link that is up it takes the link down; the end of authentication opens the session and sends CONFIG. Where the image
sets identity.peer_owner_root the peer's slot 1 chain must end in that root too (R321). -/
def State.onSpdm (s : State) (link : Nat) (r : SecureResult) : State :=
  let port := PortId.asvis link
  match s.port? port with
  | none => s
  | some p =>
    if p.st = .up then s.linkDown port
    else if p.st ≠ .securing ∨ p.session ∨ !p.hello then s
    else match r with
      | .more _ => (s.modPort port fun p => { p with asked := p.asked + 1 }).askStep port
      | .failed => (s.quarantine port).linkNote "LINK_AUTHENTICATION_FAILED" port link
      | .authenticated root =>
        if s.linkKeys ∧ (s.image.peerOwnerRoot = 0 ∨ root = s.image.peerOwnerRoot) then s.openSession link
        else (s.quarantine port).linkNote "LINK_AUTHENTICATION_FAILED" port link

/-- A sharing domain that both ends serve with another hash_key_gen or key check value (R253). -/
def State.domainDiffers (s : State) (f : ConfigF) : Option Nat :=
  (f.domains.find? fun d => match s.domain? d.domain with
    | some x => !(x.keyGen == d.keyGen && keyCheckValue (s.hashKey d.domain) == d.check)
    | none => false).map (·.domain)

/-- Directory messages may run on the link (R253). -/
def State.dirAgrees (s : State) (p : Port) (f : ConfigF) : Bool :=
  p.version == 3 && !s.isTray && (match p.peer with | some h => !h.tray | none => false) && f.homeDigest == s.homeDigest
    && (s.domainDiffers f).isNone

/-- Which checks of R253 failed, and the first sharing domain that differs, as the event's detail names them: the link in [7:0], then bit
8 the version, 9 the roles, 10 the home_table, 11 a domain, with the domain in [31:16]. -/
def State.dirMismatch (s : State) (p : Port) (link : Nat) (f : ConfigF) : Nat :=
  link + (p.version != 3).toNat * 2 ^ 8 + (s.isTray || (match p.peer with | some h => h.tray | none => true)).toNat * 2 ^ 9
    + (f.homeDigest != s.homeDigest).toNat * 2 ^ 10 + ((s.domainDiffers f).elim 0 fun d => 2 ^ 11 + d * 2 ^ 16)

/-- CONFIG: the link comes up, with or without directory messages (R252, R253, R260). -/
def State.onConfig (s : State) (link : Nat) (fr : Frame) (f : ConfigF) : State :=
  let port := PortId.asvis link
  match s.port? port with
  | none => s
  | some p =>
    if p.st ≠ .securing ∨ !p.session then s
    else if !frameLegal p fr [0] 0 then s.discard link true
    else if fr.frameSeq ≠ p.rxSeq ∨ !fr.tagOk then s.discard link false
    else
      let ok := s.dirAgrees p f
      let s := s.modPort port fun p =>
        { p with rxSeq := p.rxSeq + 1, credits := f.credits, peerCycle := f.cycleTicks, peerGates := f.gates, dirOk := ok }
      let s := if ok then s else s.linkNote "DIRECTORY_CHECK_DIFFERS" port (s.dirMismatch p link f)
      s.portUp port

/-! ### Keepalive, credits and replay -/

def State.keepaliveSend (s : State) (link : Nat) : State :=
  if (s.port? (.asvis link)).elim false fun p => p.st == .up then s.send link msgKeepalive 0 0 s.boot.bootEpoch 0 [] else s

def State.keepaliveLost (s : State) (link : Nat) : State :=
  if (s.port? (.asvis link)).elim false fun p => p.st == .up then s.linkDown (.asvis link) else s

/-- CREDIT: eight bits per class (R256, "Messages"). -/
def State.onCredit (s : State) (link : Nat) (fr : Frame) : State :=
  s.modPort (.asvis link) fun p =>
    { p with credits := (List.range 8).map fun c => p.credits.getD c 0 + fr.object / 2 ^ (8 * c) % 256 }

/-- REPLAY: frames from the one named are sent again out of the buffer, each under its own frame_seq (R255). -/
def State.onReplay (s : State) (link : Nat) (fr : Frame) : State :=
  match s.port? (.asvis link) with
  | none => s
  | some p => (p.buffer.filter fun f => decide (fr.object ≤ f.frameSeq)).reverse.foldl (fun (s : State) f => s.emit (.frame link f)) s

/-- EPOCH: the peer's epoch of an owner; a tray discards what it still gathers and
the answers it still reads from flash under the old one, and their staging is free (R256). -/
def State.onEpoch (s : State) (link : Nat) (fr : Frame) : State :=
  let owner := if bit fr.object 63 then 4096 + fr.object % 1024 else fr.object % 4096
  let s := { s with peerEpochs := (link, owner, fr.aux % 65536) :: s.peerEpochs.filter fun x => !(x.1 == link && x.2.1 == owner) }
  let s := s.modPort (.asvis link) fun p => p.dropKeys (if owner < 4096 then 1 else 2) (owner % 4096)
  let owns := fun (x : PutPart) => x.link == link && ((x.keyKind == 1 && x.tenant == owner) || (x.keyKind == 2 && 4096 + x.domain == owner))
  let waits := fun (w : TrayGet) => match w with
    | .page l f => l == link && ((f.keyKind == 1 && f.tenant == owner) || (f.keyKind == 2 && 4096 + f.domain == owner))
    | .line _ _ _ => false
  let s := { s with tray := { s.tray with puts := s.tray.puts.filter (fun (x : PutPart) => !owns x),
                                          gets := s.tray.gets.filter fun (g : Nat × TrayGet) => !waits g.2 } }
  { s with txns := s.txns.filter fun t => match t.kind with
      | .trayRead _ _ w _ => !waits w
      | _ => true }.nextGets

/-- The message table lists an answer beside the request of the transaction (R257). -/
def TxnKind.hasAnswer : TxnKind → Bool
  | .region _ => true
  | .rekey _ _ _ => true
  | .farPage _ => true
  | .tableFetch _ _ => true
  | .lookup _ => true
  | .attach _ => true
  | .publish _ => true
  | .withdraw _ => true
  | .release _ => true
  | .put _ => true
  | .claim _ => true
  | .nmo _ => true
  | .spill _ => true
  | .chunk _ _ _ => true
  | .dirParent _ _ _ _ => true
  | .destage _ => true
  | .trayRead _ _ _ _ => true

/-- ASL_RESPONSE_TIMEOUT (R257). -/
def State.aslTimeout (s : State) (xid : Nat) : State :=
  match s.txn? xid with
  | some t =>
    (match t.port with
    | .asvis _ => if t.kind.hasAnswer ∧ t.due ≤ s.now then s.endTxn t stLinkFault else s
    | .cxl _ => s
    | .nvme _ _ => s)
  | none => s

/-! ### Commands -/

def execSpdmFrame (link : Nat) (r : SecureResult) (s : State) : Host.Outcome State Fault Refusal := .next (s.live fun s => s.onSpdm link r)

def execConfig (link : Nat) (fr : Frame) (f : ConfigF) (s : State) : Host.Outcome State Fault Refusal :=
  .next (if (s.port? (.asvis link)).elim false fun p => p.st == .up then s.takeFrame link fr 1 [0] 0 false fun s _ => s
         else s.live fun s => s.onConfig link fr f)

def execKeepaliveInterval (link : Nat) (s : State) : Host.Outcome State Fault Refusal := .next (s.live fun s => s.keepaliveSend link)

def execKeepaliveTimeout (link : Nat) (s : State) : Host.Outcome State Fault Refusal := .next (s.live fun s => s.keepaliveLost link)

def execCredit (link : Nat) (fr : Frame) (s : State) : Host.Outcome State Fault Refusal :=
  .next (s.takeFrame link fr 1 [0] 0 false fun s _ => s.onCredit link fr)

def execReplay (link : Nat) (fr : Frame) (s : State) : Host.Outcome State Fault Refusal :=
  .next (s.takeFrame link fr 1 [0] 0 false fun s _ => s.onReplay link fr)

def execEpoch (link : Nat) (fr : Frame) (s : State) : Host.Outcome State Fault Refusal :=
  .next (s.takeFrame link fr 1 [0] 0 false fun s _ => s.onEpoch link fr)

def execAslResponseTimeout (xid : Nat) (s : State) : Host.Outcome State Fault Refusal := .next (s.live fun s => s.aslTimeout xid)

def execLinkTrainingEnd (port : PortId) (r : TrainResult) (retired : List (Nat × Nat)) (corrected : List LaneFix) (s : State) :
    Host.Outcome State Fault Refusal :=
  .next (s.live fun s => s.trainingEnd port r retired corrected)

def execLaneFailure (cluster lane : Nat) (s : State) : Host.Outcome State Fault Refusal := .next (s.live fun s => s.laneFails cluster lane 3)

def execRetryIntervalEnd (port : PortId) (s : State) : Host.Outcome State Fault Refusal := .next (s.live fun s => s.retryEnd port)

def execDoeResponse (port : PortId) (r : SecureResult) (s : State) : Host.Outcome State Fault Refusal :=
  .next (s.live fun s => s.doeStep port r)

def execSurpriseDown (port : PortId) (s : State) : Host.Outcome State Fault Refusal := .next (s.live fun s => s.surpriseDown port)

end Sys2Proof.Machine
end

