-- ==== Sys2Proof/Machine/Extents.lean ====
section
/-! DEFINITION. Pool extents (R262 to R267, R302), the end of a tier move with what an emptied extent brings (R103, R265), and
the responses of CXL and NVMe devices (R268 to R270). -/

namespace Sys2Proof.Machine

/-! ### Room for an extent (R78, R262, R264, R302) -/

/-- Smallest power of two at or above `n`, for `n` up to 2^31. -/
def pow2Up (n : Nat) : Nat := 2 ^ (((List.range 32).find? fun k => decide (n ≤ 2 ^ k)).getD 31)

/-- Rows of the extent table in use. -/
def State.extentRows (s : State) : Nat := sumBy (fun e => coverRanges e.grains) s.extents

/-- Lowest aligned base in the 40-bit pool grain space that no extent overlaps. -/
def State.poolBaseFor (s : State) (grains : Nat) : Option Nat :=
  let al := pow2Up grains
  let ok := fun (b : Nat) => decide (b + grains ≤ 2 ^ 40) &&
    s.extents.all fun e => decide (e.poolBase + e.grains ≤ b ∨ b + grains ≤ e.poolBase)
  let cands := ((0 :: s.extents.map fun e => roundUp (e.poolBase + e.grains) al).filter ok)
  match cands with
  | [] => none
  | c :: cs => some (cs.foldl min c)

/-- Lowest free extent id. -/
def State.extentId (s : State) : Option Nat := freeRow (s.extents.map (·.id)) (min 65536 (s.extents.length + 1))

/-- An extent of this size has a legal size, and room in the pool grain space, the extent table and the far version table:
its id and base. -/
def State.extentRoom (s : State) (grains : Nat) : Option (Nat × Nat) :=
  if grains = 0 ∨ grains % 16384 ≠ 0 ∨ 2 ^ 30 < grains ∨ s.tableRoom 2 < s.extentRows + coverRanges grains
      ∨ s.params.farVersionGrains < s.farGrains + grains then none
  else match s.extentId, s.poolBaseFor grains with
    | some i, some b => some (i, b)
    | _, _ => none

/-- Clear the far version table's entries of a run of pool grains (R302). -/
def State.clearVers (s : State) (base grains : Nat) : State :=
  { s with grainVers := s.grainVers.filter fun x => !(x.1 == 2 && decide (base ≤ x.2.1 ∧ x.2.1 < base + grains)) }

/-- Enter an extent. -/
def State.enterExtent (s : State) (st : ExtentSt) (id base route target tag source grains : Nat) (resident : Bool) : State :=
  let m := s.newMirrors
  let e : Extent := { id := id, mirrorA := m.1, mirrorB := m.2, route := route, resident := resident, st := st, forced := false, releasing := false, poolBase := base,
                      grains := grains, targetBase := target, tag := tag, source := source, since := s.now, drainAt := 0 }
  { s.clearVers base grains with extents := s.extents ++ [e] }

/-- Free an extent. -/
def State.freeExtent (s : State) (e : Extent) : State :=
  { s.clearVers e.poolBase e.grains with extents := s.extents.filter fun x => x.id != e.id }

/-! ### Releases (R265 to R267) -/

/-- Acknowledge a release to its source: EXTENT_DONE, or Release Dynamic Capacity. -/
def State.ackRelease (s : State) (e : Extent) : State :=
  if e.route < 96 then s.send e.route msgExtentDone 0 e.targetBase 1 0 []
  else s.emitOn (.cxl (e.route - 96)) (.cxlRelease (e.route - 96) e.tag)

/-- Pages on an extent: record and layer. -/
def State.extentPages (s : State) (e : Extent) : List (Nat × Nat) :=
  s.recs.flatMap fun r => r.locs.zipIdx.filterMap fun (l, i) =>
    if l.tier = 2 ∧ l.grains ≠ 0 ∧ !l.lost ∧ e.poolBase ≤ l.addr ∧ l.addr < e.poolBase + e.grains then some (r.id, i) else none

/-- Weight chunks whose home is on an extent: model, chunk and place (R115). -/
def State.extentChunks (s : State) (e : Extent) : List (Nat × Nat × Nat) :=
  s.weights.flatMap fun w => w.locs.zipIdx.filterMap fun ((t, a), c) =>
    if t = 2 ∧ e.poolBase ≤ a ∧ a < e.poolBase + e.grains ∧ !w.lost.contains c then some (w.model, c, a) else none

/-- Move a weight chunk off an extent, still sealed, to another extent or to T3, where there is room (R115, R265). -/
def State.moveChunk (s : State) (model c : Nat) : State :=
  let free := fun (t : Nat) => (s.allocPublished t chunkGrains none none).map fun a => (t, a)
  match (free 2).orElse fun _ => free 3 with
  | none => s
  | some (t, a) =>
    (s.modWeights model fun w => { w with locs := w.locs.set c (t, a) }).pageTransfer (.chunk 0 model c) {} t a chunkGrains 0
      (some ((s.weights.find? fun w => w.model == model).elim [] fun w => w.sealedBytes c))

/-- Ask the whey path to move every page off an extent that is being released. -/
def State.evacuate (s : State) (e : Extent) : State :=
  (s.extentChunks e).foldl (fun (s : State) x => s.moveChunk x.1 x.2.1) ((s.extentPages e).foldl (fun (s : State) x => s.askMove x.1 x.2 2 2 none) s)

/-- A released extent that holds no page is acknowledged and freed at once; one that holds pages or chunks asks for their moves. -/
def State.settleExtent (s : State) (e : Extent) : State :=
  if e.st ≠ .active ∨ !e.releasing then s
  else
    let s := s.evacuate e
    if (s.extentPages e).isEmpty && (s.extentChunks e).isEmpty then (s.ackRelease e).freeExtent e else s

def State.settleExtents (s : State) : State := s.extents.foldl (fun (s : State) e => s.settleExtent e) s

/-- A requested release begins (R265). -/
def State.requestRelease (s : State) (e : Extent) : State :=
  if e.st ≠ .active ∨ e.releasing then s
  else (s.modExtent e.id fun e => { e with releasing := true, since := s.now }).settleExtents

/-- A transfer of a move has been issued on an extent and is still out. -/
def State.issuedOn (s : State) (e : Extent) (m : Move) : Bool := s.txns.any fun t => t.kind == .put m.id && t.extent == some e.id

/-- A forced release: the extent drains. A queued move that was leaving it leaves its page lost, one that was coming to it is
abandoned, and what has been issued completes (R266). -/
def State.drainExtent (s : State) (e : Extent) : State :=
  let inside := fun (a : Nat) => decide (e.poolBase ≤ a ∧ a < e.poolBase + e.grains)
  let s := s.modExtent e.id fun e => { e with st := .draining, forced := true, releasing := false, since := s.now, drainAt := s.now }
  s.moves.foldl (fun (s : State) m =>
    if s.issuedOn e m then s
    else match (s.rec? m.blk).bind fun r => r.loc? m.layer with
      | none => s
      | some l =>
        if l.tier = 2 ∧ inside l.addr then ((s.dropMove m).pageLost m.blk m.layer).rangeSettle
        else if m.target = 2 ∧ (m.dest.elim false inside) then (s.dropMove m).rangeSettle
        else s) s

def State.forceRelease (s : State) (e : Extent) : State :=
  match e.st with
  | .active => s.drainExtent e
  | .claiming => s
  | .draining => s
  | .revoked => s

/-- A release that reaches an extent in claiming ends the claim (R267). -/
def State.endClaim (s : State) (e : Extent) : State :=
  { s with extents := s.extents.filter (fun x => x.id != e.id), txns := s.txns.filter fun t => t.kind != TxnKind.claim e.id }

/-- A release reaches an extent. -/
def State.releaseExtent (s : State) (e : Extent) (forced : Bool) : State :=
  if e.st = .claiming then s.endClaim e else if forced then s.forceRelease e else s.requestRelease e

/-- Extent of a link that a tray names by its grain base. -/
def State.extentOn (s : State) (link base : Nat) : Option Extent := s.extents.find? fun e => e.route == link && e.targetBase == base

/-- Extent of a CXL port that a device names by its tag. -/
def State.extentTagged (s : State) (cluster tag : Nat) : Option Extent :=
  s.extents.find? fun e => e.route == 96 + cluster && e.tag == tag

/-- EXTENT_OFFER: claimed where there is room, otherwise left unclaimed with an event (R264). -/
def State.onOffer (s : State) (link : Nat) (p : Port) (fr : Frame) : State :=
  let grains := fr.aux % 2 ^ 32
  if s.isTray ∨ (s.extentOn link fr.object).isSome then s
  else match s.extentRoom grains with
    | none => s.linkNote "EXTENT_LEFT_UNCLAIMED" (.asvis link) grains
    | some (i, b) =>
      let s := s.enterExtent .claiming i b link fr.object fr.object (p.peer.elim 0 (·.device)) grains (bit fr.aux 32)
      s.request link msgExtentClaim fr.object 0 0 (.claim i) []

/-- EXTENT_DONE with a claim's answer (R264): the claim is confirmed, or the extent is not taken. -/
def State.claimAnswer (s : State) (link : Nat) (fr : Frame) : State :=
  match s.answered link fr with
  | some t =>
    (match t.kind with
    | .claim id =>
      let s := s.dropTxn t.xid
      if fr.status = 0 then s.modExtent id fun e => { e with st := .active, since := s.now }
      else { s with extents := s.extents.filter fun e => !(e.id == id && e.st == .claiming) }
    | _ => s)
  | none => s

/-- ADD_CAPACITY (R264). -/
def State.addCapacity (s : State) (cluster tag base grains : Nat) : State :=
  let port := PortId.cxl cluster
  if s.isTray ∨ !s.portIssues port ∨ !((s.port? port).elim false (·.gen31)) then s
  else match s.extentRoom grains with
    | none => (s.emitOn port (.cxlCapacity cluster tag false)).linkNote "CAPACITY_DECLINED" port grains
    | some (i, b) => (s.enterExtent .active i b (96 + cluster) base tag 0 grains false).emitOn port (.cxlCapacity cluster tag true)

/-- EVACUATE_TIMEOUT: a requested release becomes forced (R265). -/
def State.evacuateTimeout (s : State) (id : Nat) : State :=
  match s.extent? id with
  | some e => if e.st = .active ∧ e.releasing ∧ e.since + s.params.evacuateMs * 470000 ≤ s.now then s.drainExtent e else s
  | none => s

/-- Ticks after the draining write by which issued operations must have returned (R266). -/
def drainTicks : Nat := 70500

/-- DRAIN_TIMEOUT: issued operations still out end LINK_FAULT. -/
def State.drainTimeout (s : State) (id : Nat) : State :=
  match s.extent? id with
  | some e =>
    if e.st = .draining ∧ e.drainAt + drainTicks ≤ s.now then
      (s.txns.filter fun t => t.extent == some id).foldl (fun (s : State) t => match s.txn? t.xid with
        | some t => s.endTxn t stLinkFault
        | none => s) s
    else s
  | none => s

/-- DRAIN_END: no issued operation remains (R266). -/
def State.drainEnd (s : State) (id : Nat) : State :=
  match s.extent? id with
  | some e =>
    if e.st = .draining ∧ !(s.txns.any fun t => t.extent == some id) then
      (s.modExtent id fun e => { e with st := .revoked, since := s.now }).ackRelease e
    else s
  | none => s

/-- EXTENT_SWEEP_END: every locator that names the extent is lost, and the extent is free (R267). -/
def State.sweepExtent (s : State) (id : Nat) : State :=
  match s.extent? id with
  | some e => if e.st = .revoked then ((s.extentChunks e).foldl (fun (s : State) x => s.chunkLost x.1 x.2.1)
      ((s.extentPages e).foldl (fun (s : State) x => s.pageLost x.1 x.2) s)).freeExtent e else s
  | none => s

/-! ### Tier moves -/

/-- TIER_MOVE_END. -/
def State.moveEnd (s : State) (id : Nat) (ok : Bool) : State :=
  match s.move? id with
  | some m => (s.moveFinish m ok).settleExtents
  | none => s

/-! ### CXL and NVMe devices (R268 to R270) -/

/-- Transaction of a port. -/
def State.portTxn (s : State) (port : PortId) (xid : Nat) : Option Txn := s.txns.find? fun t => t.xid == xid && t.port == port

/-- The answer of a device to an open transaction: done, or failed in its check. -/
def State.deviceAnswer (s : State) (port : PortId) (xid : Nat) (ok : Bool) : State :=
  match s.portTxn port xid with
  | some t => if ok then s.txnDone t else s.endTxn t stDataIntegrity
  | none => s

/-- NVME_COMMAND_TIMEOUT: the request ends LINK_FAULT and the SSD's controller is reset. -/
def State.nvmeTimeout (s : State) (c p command : Nat) : State :=
  let port := PortId.nvme c p
  match s.portTxn port command with
  | some t =>
    if s.now < t.due then s
    else
      let s := s.endTxn t stLinkFault
      if (s.port? port).elim true (·.resetting) then s
      else (s.emitOn port (.nvmeReset c p)).modPort port fun p => { p with resetting := true }
  | none => s

/-- Issue a transaction of an NVMe port again. -/
def State.reissue (s : State) (c p : Nat) (t : Txn) : State :=
  match t.nvme with
  | some n => s.nvmeIssue c p t.xid n
  | none => s

/-- NVME_RESET_END: requests that waited go on, or end LINK_FAULT. -/
def State.nvmeResetEnd (s : State) (c p : Nat) (ok : Bool) : State :=
  let port := PortId.nvme c p
  if !((s.port? port).elim false (·.resetting)) then s
  else
    let s := s.modPort port fun p => { p with resetting := false }
    if ok then (s.txns.filter fun t => t.port == port).foldl (fun (s : State) t => s.reissue c p t) s else s.endTxns port stLinkFault

/-! ### Commands -/

def execTierMoveEnd (move : Nat) (sourceOk : Bool) (s : State) : Host.Outcome State Fault Refusal := .next (s.live fun s => s.moveEnd move sourceOk)

def execExtentOffer (link : Nat) (fr : Frame) (s : State) : Host.Outcome State Fault Refusal :=
  .next (s.takeFrame link fr 1 [0] 0 false fun s p => s.onOffer link p fr)

def execExtentRelease (link : Nat) (fr : Frame) (s : State) : Host.Outcome State Fault Refusal :=
  .next (s.takeFrame link fr 1 [0] 0 false fun s _ => match s.extentOn link fr.object with
    | some e => s.releaseExtent e (bit fr.aux 0)
    | none => s)

def execForcedCapacityRelease (cluster tag : Nat) (s : State) : Host.Outcome State Fault Refusal :=
  .next (s.live fun s => match s.extentTagged cluster tag with
    | some e => s.releaseExtent e true
    | none => s)

def execEvacuateTimeout (extent : Nat) (s : State) : Host.Outcome State Fault Refusal := .next (s.live fun s => s.evacuateTimeout extent)

def execDrainTimeout (extent : Nat) (s : State) : Host.Outcome State Fault Refusal := .next (s.live fun s => s.drainTimeout extent)

def execDrainEnd (extent : Nat) (s : State) : Host.Outcome State Fault Refusal := .next (s.live fun s => s.drainEnd extent)

def execExtentSweepEnd (extent : Nat) (s : State) : Host.Outcome State Fault Refusal := .next (s.live fun s => s.sweepExtent extent)

def execCxlMemResponse (cluster read : Nat) (ok : Bool) (s : State) : Host.Outcome State Fault Refusal :=
  .next (s.live fun s => s.deviceAnswer (.cxl cluster) read ok)

def execNvmeCommandCompletion (cluster p command : Nat) (error : Bool) (s : State) : Host.Outcome State Fault Refusal :=
  .next (s.live fun s => s.deviceAnswer (.nvme cluster p) command (!error))

def execNvmeCommandTimeout (cluster p command : Nat) (s : State) : Host.Outcome State Fault Refusal :=
  .next (s.live fun s => s.nvmeTimeout cluster p command)

def execNvmeResetEnd (cluster p : Nat) (ok : Bool) (s : State) : Host.Outcome State Fault Refusal :=
  .next (s.live fun s => s.nvmeResetEnd cluster p ok)

end Sys2Proof.Machine
end

