-- ==== Sys2Proof/Machine/Fabric.lean ====
section
/-! DEFINITION. Messages between controllers (R256 to R259): pages, tables, directory messages, keepalives, and the loss of a
member (R51). -/

namespace Sys2Proof.Machine

/-! ### A member is lost (R51) -/

def State.memberPorts (s : State) (dev : Nat) : List Port :=
  s.ports.filter fun p => (match p.id with | .asvis _ => true | _ => false) && (p.peer.elim false fun h => h.device == dev)

/-- R51 on a peer: its proxies and references go, its transactions end LINK_FAULT, the extents it lent drain, and a tray
destroys its pool key (R279). -/
def State.memberGone (s : State) (dev : Nat) : State :=
  let ports := (s.memberPorts dev).map (·.id)
  let s := s.memberLost dev
  let s := ports.foldl (fun (s : State) p => s.endTxns p stLinkFault) s
  let s := (s.extents.filter fun e => e.source == dev && decide (e.route < 96)).foldl (fun (s : State) e =>
    if e.st = .claiming then s.endClaim e else s.forceRelease e) s
  let objs := s.tray.objects.map fun (o : PoolObj) => if o.host = dev then { o with lost := true } else o
  let s := { s with tray := { s.tray with objects := objs, volumes := s.tray.volumes.filter fun (x : Nat × Nat) => x.2 != dev } }
  if s.isTray then s.zeroise (ownerSlot 1 dev) else s

/-- MEMBER_UNREACHABLE: every link to the member has been down for store_domain.lease_ms. -/
def State.memberUnreachable (s : State) (dev : Nat) : State :=
  let gone := fun (p : Port) => p.st != .up && decide (p.left.getD 0 + s.params.leaseMs * 470000 ≤ s.now)
  if (s.memberPorts dev).all gone ∧ s.params.leaseMs * 470000 ≤ s.now then s.memberGone dev else s

/-- No link to the device knows it under this boot_epoch yet (R51): the loss of its directory has not been applied for it. -/
def State.epochNew (s : State) (dev epoch : Nat) : Bool :=
  (s.memberPorts dev).all fun p => p.peer.elim true fun h => h.bootEpoch != epoch

/-- KEEPALIVE: another boot_epoch than the HELLO's takes the link down, and R51 applies at once (R257). -/
def State.onKeepalive (s : State) (link : Nat) (p : Port) (fr : Frame) : State :=
  match p.peer with
  | some h =>
    if fr.aux = h.bootEpoch then s
    else
      let s' := s.linkDown (.asvis link)
      (if s.epochNew h.device fr.aux then s'.memberGone h.device else s').modPort (.asvis link) fun p =>
        { p with peer := some { h with bootEpoch := fr.aux } }
  | none => s

/-- A member whose HELLO names a boot_epoch that no link knows it under has fully reset: R51 applies to it at once, and only once for all
its links (R51, R257). -/
def State.memberReset (s : State) (f : HelloF) : State :=
  if !(s.memberPorts f.device).isEmpty ∧ s.epochNew f.device f.bootEpoch then s.memberGone f.device else s

/-- HELLO: on a link that is up it takes the link down; while securing it settles the version. -/
def State.onHello (s : State) (link : Nat) (f : HelloF) : State :=
  let port := PortId.asvis link
  match s.port? port with
  | none => s
  | some p =>
    if p.st = .up then s.linkDown port
    else if p.st ≠ .securing ∨ p.session then s
    else match topVersion ownVersions f.versions with
      | none => (s.quarantine port).linkNote "NO_COMMON_VERSION" port link
      | some v =>
        let s := (s.memberReset f).modPort port fun p => { p with peer := some f, version := v, hello := true }
        if v = 1 ∧ p.rate = 224 then s.modPort port fun p => { p.enter .training s.now with rate := 112 } else s.askStep port

/-! ### Pages (R259, R263, R71, R72) -/

/-- Statuses in which a holder answers a PAGE_GET that it cannot serve (R258). -/
def pageStatus (st : Nat) : Nat := if st = stExtentRevoked then 5 else 7

/-- PAGE_GET at a holder, by handle, block and layer: the stored bytes with the digest of their table (R72, R171, R259). -/
def State.servePage (s : State) (link : Nat) (p : Port) (fr : Frame) : State :=
  let refuse := fun (st : Nat) => s.send link msgPageData fr.xid fr.object 0 st [] (hdrOf fr)
  let b := bits fr.aux 16 18
  let layer := bits fr.aux 34 8
  if p.version < 3 ∨ fr.keyKind ≠ 2 then refuse 9
  else
  let s := s.loadHandle fr.object
  match s.dir.find? fun e => e.handle == fr.object && e.domain == fr.domain && e.holder == s.params.deviceId && e.st != .faulted with
    | none => refuse 3
    | some e =>
      match ((e.map.find? fun x => x.1 == b).bind fun x => s.rec? x.2).bind fun r => (r.loc? layer).map fun l => (r, l) with
      | none => refuse 3
      | some (r, l) =>
        match s.readStored r.ownerKind r.owner l with
        | .error st => refuse (pageStatus st)
        | .ok data =>
          let digest := if l.uncoded then 0 else (s.table? l.table).elim 0 fun t => t.digest.toNat
          State.sendPage link msgPageData fr.xid fr.object digest (!l.uncoded) (hdrOf fr) (pageFrames data) 0 s data

/-- A copy of a remote prefix's page has come whole: its bytes are kept with it, and a table that is missing here is asked
for (R171). -/
def State.copyFilled (s : State) (link : Nat) (copy : Nat) (fr : Frame) (data : Bytes) : State :=
  match s.staging.find? fun c => c.id == copy with
  | none => s
  | some c =>
    if c.blk ≠ 0 then s
    else
      let g := BitVec.ofNat 64 fr.aux
      let fill := fun (x : StagingCopy) => { x with data := data, coded := fr.coded, digest := if fr.coded then g else 0 }
      let s := { s with staging := mapIf (fun (x : StagingCopy) => x.id == copy) fill s.staging }
      let known := !fr.coded || (s.tableByDigest fr.domain g).isSome
        || s.txns.any fun t => t.kind == TxnKind.tableFetch fr.domain g
      if known then s else s.request link msgTableGet 0 fr.aux 0 (.tableFetch fr.domain g) []

/-- PAGE_DATA: the page's frames gather; the last one ends the transaction, and PREFETCH_ARRIVAL or TIER_MOVE_END follows. -/
def State.onPageData (s : State) (link : Nat) (t : Txn) (fr : Frame) (data : Bytes) : State :=
  if fr.status ≠ 0 then s.endTxn t (asvisStatus fr.status true)
  else if !fr.last then
    let more := fun (x : Txn) => { x with data := x.data ++ data }
    { s with txns := mapIf (fun (x : Txn) => x.xid == t.xid) more s.txns }
  else
    let s := s.dropTxn t.xid
    match t.kind with
    | .farPage copy => s.copyFilled link copy fr (t.data ++ data)
    | _ => s

/-- PUT_DONE: the far write is complete, or the tray refused it. -/
def State.onPutDone (s : State) (t : Txn) (fr : Frame) : State :=
  if fr.status = 0 then s.txnDone t else s.endTxn t (asvisStatus fr.status true)

/-! ### Tables (R171) -/

/-- TABLE_GET: the image of a live or retiring table of the domain. -/
def State.serveTable (s : State) (link : Nat) (fr : Frame) : State :=
  if s.isTray then s.send link msgTableData fr.xid 0 fr.aux 9 [] (hdrOf fr)
  else match s.tableByDigest fr.domain (BitVec.ofNat 64 fr.aux) with
    | some t => s.send link msgTableData fr.xid 0 fr.aux 0 t.image (hdrOf fr)
    | none => s.send link msgTableData fr.xid 0 fr.aux 3 [] (hdrOf fr)

/-- TABLE_DATA: the image is installed under an id of the import reserve; where it cannot be, the reads that wait for it end
LINK_FAULT. -/
def State.onTableData (s : State) (t : Txn) (fr : Frame) (image : Bytes) : State :=
  match t.kind with
  | .tableFetch d g =>
    if fr.status ≠ 0 then s.endTxn t stLinkFault
    else match s.importTable d g image with
      | (true, s) => s.dropTxn t.xid
      | (false, s) => s.endTxn t stLinkFault
  | _ => s

/-! ### Directory messages (R50, R253) -/

/-- A directory request on a link that runs none is answered status 9 (R258). -/
def State.dirRequest (s : State) (link : Nat) (fr : Frame) (k : State → State) : Host.Outcome State Fault Refusal :=
  .next (s.takeFrame link fr 3 [2] 0 false fun s p => if p.dirOk then k s else s.answer link fr fr.object 9 [])

/-- A peer's search is held while its table is short of a bank (R90). -/
def State.holdSearch (s : State) (x : HeldSearch) : State := { s with array := { s.array with held := s.array.held ++ [x] } }

/-! ### Commands -/

def execHello (link : Nat) (f : HelloF) (s : State) : Host.Outcome State Fault Refusal := .next (s.live fun s => s.onHello link f)

def execKeepalive (link : Nat) (fr : Frame) (s : State) : Host.Outcome State Fault Refusal :=
  .next (s.takeFrame link fr 1 [0] 0 false fun s p => s.onKeepalive link p fr)

def execMemberUnreachable (device : Nat) (s : State) : Host.Outcome State Fault Refusal := .next (s.live fun s => s.memberUnreachable device)

def execPageData (link : Nat) (fr : Frame) (data : Bytes) (s : State) : Host.Outcome State Fault Refusal :=
  .next (s.takeAnswer link fr 1 [1, 2] data.length fun s t => s.onPageData link t fr data)

def execPutDone (link : Nat) (fr : Frame) (s : State) : Host.Outcome State Fault Refusal :=
  .next (s.takeAnswer link fr 1 [1, 2] 0 fun s t => s.onPutDone t fr)

def execTableGet (link : Nat) (fr : Frame) (s : State) : Host.Outcome State Fault Refusal :=
  .next (s.takeFrame link fr 2 [2] 0 false fun s _ => s.serveTable link fr)

def execTableData (link : Nat) (fr : Frame) (image : TableImage) (s : State) : Host.Outcome State Fault Refusal :=
  .next (s.takeAnswer link fr 2 [2] image.bytes.length fun s t => (s.hashCheck image.check true).onTableData t fr image.bytes)

def execDirPublish (link : Nat) (fr : Frame) (k : DirKeyF) (s : State) : Host.Outcome State Fault Refusal :=
  s.dirRequest link fr fun s => if s.tableUp 1 then s.onDirPublish link fr k else s.holdSearch (.dirPublish link fr k)

def execDirLookup (link : Nat) (fr : Frame) (fingerprint : BitVec 64) (pairs : List PairF) (s : State) :
    Host.Outcome State Fault Refusal :=
  s.dirRequest link fr fun s => if s.tableUp 1 then s.onDirLookup link fr fingerprint pairs
    else s.holdSearch (.dirLookup link fr fingerprint pairs)

def execDirAttach (link : Nat) (fr : Frame) (s : State) : Host.Outcome State Fault Refusal :=
  s.dirRequest link fr fun s => s.onDirAttach link fr

def execDirRelease (link : Nat) (fr : Frame) (s : State) : Host.Outcome State Fault Refusal :=
  s.dirRequest link fr fun s => s.onDirRelease link fr

def execDirWithdrawn (link : Nat) (fr : Frame) (prefixAdmin : Bool) (s : State) : Host.Outcome State Fault Refusal :=
  s.dirRequest link fr fun s => s.onDirWithdrawn link fr prefixAdmin

def execWithdrawNotice (link : Nat) (fr : Frame) (s : State) : Host.Outcome State Fault Refusal :=
  .next (s.takeFrame link fr 3 [2] 0 false fun s p => if p.dirOk then s.onWithdrawNotice link fr else s)

def execDirAnswer (link : Nat) (fr : Frame) (k : DirKeyF) (s : State) : Host.Outcome State Fault Refusal :=
  .next (s.takeAnswer link fr 3 [2] 0 fun s _ => s.onDirAnswer link fr k)

def execNmoDone (link : Nat) (fr : Frame) (s : State) : Host.Outcome State Fault Refusal :=
  .next (s.takeAnswer link fr 2 [1, 2] 0 fun s _ => s.onNmoDone fr)

end Sys2Proof.Machine
end

