-- ==== Sys2Proof/Machine/Port.lean ====
section
/-! DEFINITION. What every management command shares (17_management_port): the statuses, the check of role and boot state of
R382, connections and their end, and the sessions whose key slots the island holds (R312, R318, R388). -/

namespace Sys2Proof.Machine

/-! ### Statuses -/

def msOk : Nat := 0
def msRoleDenied : Nat := 1
def msNotInService : Nat := 2
def msBusy : Nat := 3
def msInvalid : Nat := 4
def msCheckFailed : Nat := 5
def msOverwritten : Nat := 6
def msUnknown : Nat := 7

/-! ### Connections -/

/-- The board attachment, as a connection number: the network attachment holds connections 0 to 7 (R380, R387). -/
def boardConn : Nat := 8

def State.conn? (s : State) (n : Nat) : Option Conn := s.mgmt.conns.find? fun c => c.n == n

/-- The one response to a request; a connection that has gone gets none. -/
def State.reply (s : State) (conn st : Nat) (body : List Nat) : State :=
  if conn = boardConn ∨ (s.conn? conn).isSome then s.emit (.mgmt conn st body) else s

/-- A message on a connection restarts its idle time (R380). -/
def State.touch (s : State) (conn : Nat) : State :=
  { s with mgmt := { s.mgmt with conns := mapIf (fun c => c.n == conn) (fun c => { c with last := s.now }) s.mgmt.conns } }

/-- The controller answers management traffic: it is neither off, in reset nor stopped (R391, R396). -/
def State.portOn (s : State) : Bool :=
  match s.boot.phase with
  | .identity => true
  | .training => true
  | .service => true
  | .failed => true
  | .failedNoId => true
  | .aonOff => false
  | .inReset => false
  | .heldInReset => false
  | .stopped _ => false

/-- Serve a command on a connection: its role first, then the boot state (R382). `before` says that the command is offered
before service; boot failed is each command's own matter. -/
def State.serve (s : State) (conn : Nat) (roles : List Nat) (before : Bool) (k : State → Conn → State) : State :=
  match s.conn? conn with
  | none => s
  | some c =>
    if !s.portOn then s
    else
      let s := s.touch conn
      if s.boot.phase = .failed then s.reply conn msNotInService []
      else if !roles.contains c.role then s.reply conn msRoleDenied []
      else if s.inService || before then k s c
      else s.reply conn msNotInService []

/-! ### Sessions -/



/-- The keys of a session go: its pool slot and, for a group session, the group's slot and weights counter (R312, R325). -/
def State.dropKeys (s : State) (x : Session) : State :=
  let s := match x.slot with
    | some n => s.zeroise n
    | none => s
  match x.transport with
  | .ucie g =>
    let s := s.zeroise (groupKeySlot g)
    { s with island := { s.island with counters := s.island.counters.filter fun c => c.1 != g } }
  | .mgmt _ => s
  | .i3c => s
  | .asvis _ => s
  | .cxl _ => s

/-- End a session, leaving the transport in state `st`. -/
def State.endSession (s : State) (t : Transport) (st : SessionSt) : State :=
  match s.session? t with
  | none => s
  | some x => (s.dropKeys x).modSession t fun x => { x with st := st, slot := none, root := 0 }

/-- A partial reset or a debug unlock ends a session that was set up (R318, R336). -/
def State.cutSession (s : State) (t : Transport) : State :=
  match s.session? t with
  | some x => if x.st = .negotiated then s else s.endSession t .ended
  | none => s

/-- Nothing of a transport is left. -/
def State.forgetSession (s : State) (t : Transport) : State :=
  let s := s.endSession t .ended
  { s with island := { s.island with sessions := s.island.sessions.filter fun x => x.transport != t } }

/-- Close a connection with close_notify; its SPDM session ends and its slot is zeroised (R388). -/
def State.closeConn (s : State) (n : Nat) : State :=
  let conns := s.mgmt.conns.filter fun c => c.n != n
  ({ s with mgmt := { s.mgmt with conns := conns } }.forgetSession (.mgmt n)).emit (.closed n)

end Sys2Proof.Machine
end

