-- ==== Sys2Proof/Machine/Tray.lean ====
section
/-! DEFINITION. The tray role (R272 to R281): grants, region versions and recalls, pool objects, extents granted to hosts,
near-memory operations, SSD groups and the metadata pair; and the messages that both roles answer. -/

namespace Sys2Proof.Machine

/-- Device at the other end of a port. -/
def Port.device (p : Port) : Nat := p.peer.elim 0 (·.device)

/-! ### Hosts and grants (R272, R279) -/

/-- Cluster of a CXL host on this tray, by its identity. -/
def State.cxlHostCluster (s : State) (host : Nat) : Option Nat := (s.image.trayCxlHosts.find? fun x => x.2 == host).map Prod.fst

/-- Asvis link that is up to a cache-role controller. -/
def State.hostLink (s : State) (host : Nat) : Option Nat :=
  s.ports.findSome? fun p => match p.id, p.peer with
    | .asvis l, some h => if p.st = .up ∧ !h.tray ∧ h.device = host then some l else none
    | _, _ => none

/-- A host that can be recalled: a cache-role controller, or a CXL host that runs the CXL 3.1 subset (R275). -/
def State.canRecall (s : State) (host : Nat) : Bool :=
  match s.cxlHostCluster host with
  | some c => (s.port? (.cxl c)).elim false (·.gen31)
  | none => true

/-- A host holds a grant of an extent, a volume or a region. -/
def State.hasGrant (s : State) (host : Nat) : Bool :=
  (s.tray.extents.any fun e => e.owner == some host) || (s.tray.volumes.any fun v => v.2 == host)
    || s.tray.regions.any fun r => r.grants.contains host

/-- The island makes a host's pool key at its first grant, in slot 1 + h (R279, R311). -/
def State.makeKey (s : State) (host : Nat) : State := if s.slotFilled (ownerSlot 1 host) then s else s.fillSlot (ownerSlot 1 host) 0

/-- It destroys the key when the host's last grant has ended. -/
def State.settleKey (s : State) (host : Nat) : State := if s.hasGrant host then s else s.zeroise (ownerSlot 1 host)

/-- The record that a region command or access names. -/
def Region.named (r : Region) (domain id version : Nat) : Bool := r.domain == domain && r.id == id && r.version == version

def State.modRegion (s : State) (r : Region) (g : Region → Region) : State :=
  s.modTray fun t => { t with regions := mapIf (fun x => x == r) g t.regions }

/-- Rows that a grant takes: one for each aligned power-of-two range of the version's grains (R78). -/
def GrantRow.rows (g : GrantRow) : Nat := coverRanges g.grains

/-- Position of a grant's first row in the directory table. -/
def State.grantPos (s : State) (g : GrantRow) : Nat := sumBy GrantRow.rows (s.array.grants.takeWhile fun x => x != g)

/-- The grant entry names the record. -/
def GrantRow.names (g : GrantRow) (r : Region) : Bool := g.domain == r.domain && g.region == r.id && g.version == r.version

/-- Search key of the directory table: tag, grain address and host (R78). -/
def grantKey (host grain : Nat) : Nat := 6 + grain * 2 ^ 4 + host * 2 ^ 44

/-- The shadow rows of a grant match: the grain lies in its range and the host is its own (R78, R87). -/
def GrantRow.covers (g : GrantRow) (host grain : Nat) : Bool := g.host == host && decide (g.base ≤ grain ∧ grain < g.base + g.grains)

/-- The grant that a search of the directory table finds, verified (R87, R272). -/
def State.grantAt (s : State) (host grain : Nat) : Option GrantRow :=
  s.array.grants.find? fun g => g.covers host grain && rowHits g.upset (grantKey host grain) true

/-- Hits of the directory table that do not verify (R87). -/
def State.grantFalse (s : State) (host grain : Nat) : State :=
  s.hitsFail 6 ((s.array.grants.filter fun g => !g.covers host grain && rowHits g.upset (grantKey host grain) false).map s.grantPos)

/-- Grains of an access to a region version: `len` bytes from offset `off`. -/
def Region.grainsOf (r : Region) (off len : Nat) : List Nat :=
  (List.range ((off + len - 1) / grainBytes + 1 - off / grainBytes)).map fun i => r.base + off / grainBytes + i

/-- An access is checked against its grant: every grain of it is found for the host with this record (R272). -/
def State.reaches (s : State) (r : Region) (host off len : Nat) : Bool :=
  (r.grainsOf off len).all fun g => (s.grantAt host g).any fun x => x.names r

/-- The failing hits of an access's searches. -/
def State.reachFalse (s : State) (r : Region) (host off len : Nat) : State := (r.grainsOf off len).foldl (fun s g => s.grantFalse host g) s

/-- One grant more: an entry of the directory table and of the record's list. -/
def State.addGrant (s : State) (r : Region) (host : Nat) : State :=
  if r.grants.contains host then s
  else
    let s := s.modRegion r fun r => { r with grants := r.grants ++ [host] }
    let m := s.newMirrors
    let g : GrantRow := { domain := r.domain, region := r.id, version := r.version, host := host, base := r.base, grains := r.grains,
                          mirrorA := m.1, mirrorB := m.2 }
    ({ s with array := { s.array with grants := g :: s.array.grants } }).makeKey host

/-- One grant less. -/
def State.dropGrant (s : State) (r : Region) (host : Nat) : State :=
  if !r.grants.contains host then s
  else
    let s := s.modRegion r fun r => { r with grants := r.grants.filter fun h => h != host }
    ({ s with array := { s.array with grants := s.array.grants.filter fun g => !(g.names r && g.host == host) } }).settleKey host

/-- The directory table has the free rows that a grant of a version of `grains` grains takes. -/
def State.grantRoom (s : State) (grains : Nat) : Bool :=
  decide (sumBy GrantRow.rows s.array.grants + coverRanges grains ≤ s.tableRoom 6)

/-- Free a region version: its grants end with it. -/
def State.freeRegion_ (s : State) (r : Region) : State :=
  let s := s.modTray fun t => { t with regions := t.regions.filter fun x => x != r }
  let s := { s with array := { s.array with grants := s.array.grants.filter fun g => !g.names r } }
  r.grants.foldl (fun (s : State) h => s.settleKey h) s

/-! ### Region records -/

/-- Draft of a writer. -/
def State.draft? (s : State) (host domain id version : Nat) : Option Region :=
  s.tray.regions.find? fun r => r.named domain id version && r.st == .draft && r.writer == host

/-- The published record of a key. -/
def State.publishedRegion (s : State) (domain id version : Nat) : Option Region :=
  s.tray.regions.find? fun r => r.named domain id version && r.st == .published

/-- Highest published version of a region on which a host holds a grant (R273). -/
def State.topRegion (s : State) (host domain id : Nat) : Option Region :=
  (s.tray.regions.filter fun r => r.domain == domain && r.id == id && r.st == .published && r.grants.contains host).foldl
    (fun (b : Option Region) r => match b with
      | some x => if x.version < r.version then some r else some x
      | none => some r) none

/-- What a host reads under a grant: a published version, 0 naming the highest, or its own draft. -/
def State.readable (s : State) (host domain id version : Nat) : Option Region :=
  if version = 0 then s.topRegion host domain id
  else s.tray.regions.find? fun r => r.named domain id version && r.grants.contains host
    && (r.st == .published || (r.st == .draft && r.writer == host))

/-- What a host writes: the draft for which it holds the write grant, 0 naming its only or lowest one. -/
def State.writable (s : State) (host domain id version : Nat) : Option Region :=
  s.tray.regions.find? fun r => r.domain == domain && r.id == id && (version == 0 || r.version == version) && r.st == .draft
    && r.writer == host && r.grants.contains host

def Region.size (r : Region) : Nat := r.grains * grainBytes

/-! ### Region commands and recalls (R273 to R275) -/

/-- The answer to a region command: of a CXL host's mailbox, or on the operator's management connection (R273; log entry 141). -/
def State.regionAnswer (s : State) (conn : Option Nat) (host domain id version status : Nat) (digest : BitVec 256) : State :=
  match conn with
  | none => s.emit (.region host domain id version status digest)
  | some c => s.reply c msOk [status, digest.toNat]

/-- First grain of a new region version: the lowest run, aligned to its size, that no other version's range overlaps (R78; log entry 124). -/
def State.regionBase (s : State) (grains : Nat) : Nat :=
  let ok := fun (b : Nat) => s.tray.regions.all fun r => decide (r.base + r.grains ≤ b ∨ b + grains ≤ r.base)
  ((0 :: s.tray.regions.map fun r => roundUp (r.base + r.grains) (pow2Up grains)).filter ok).foldl min (2 ^ 40)

/-- REGION_OPEN: a draft for a writer, with its write grant. -/
def State.regionOpenFor (s : State) (host : Nat) (d : RegionScope) (id version grains : Nat) : State :=
  if !s.isTray then s
  else if version = 0 ∨ grains = 0 ∨ (s.draft? host d.domain id version).isSome ∨ !s.canRecall host then
    s.regionAnswer d.conn host d.domain id version stInvalidField 0
  else if !s.grantRoom grains ∨ 2 ^ 40 < s.regionBase grains + grains then s.regionAnswer d.conn host d.domain id version stRefusedCapacity 0
  else
    let r : Region := { id := id, base := s.regionBase grains, version := version, domain := d.domain, st := .draft, writer := host, grains := grains, grants := [],
                        digest := 0, bytes := [], waiting := [], recallFor := none, recallAt := 0 }
    ((s.modTray fun t => { t with regions := t.regions ++ [r] }).addGrant r host).regionAnswer d.conn host d.domain id version stOk 0

/-- REGION_GRANT: read on a published version. -/
def State.regionGrantTo (s : State) (d : RegionScope) (id version host : Nat) : State :=
  if !s.isTray then s
  else match s.publishedRegion d.domain id version with
    | none => s.regionAnswer d.conn host d.domain id version stPrefixNotFound 0
    | some r =>
      if !s.canRecall host then s.regionAnswer d.conn host d.domain id version stInvalidField 0
      else if !r.grants.contains host ∧ !s.grantRoom r.grains then s.regionAnswer d.conn host d.domain id version stRefusedCapacity 0
      else (s.addGrant r host).regionAnswer d.conn host d.domain id version stOk 0

/-- Ask a host to give back what it holds of a version: a back-invalidate on CXL, REGION_RECALL on a link. -/
def State.askRecall (s : State) (r : Region) (host : Nat) : State :=
  match s.cxlHostCluster host, s.hostLink host with
  | some _, _ => s.emit (.recallMsg host r.id r.version)
  | none, some l => s.bumpId.send l msgRegionRecall s.ids (r.id + r.version * 2 ^ 32) 0 0 [] { domain := r.domain }
  | none, none => s

/-- A draft's bytes as they are digested. -/
def Region.content (r : Region) : Bytes := r.bytes.readN 0 r.size

/-- The compare-and-set of R65 and R274, once the writer's draft is recalled. -/
def State.publishRegion (s : State) (r : Region) : State :=
  let d := digest256 r.content
  let calm := fun (x : Region) (st : RegionSt) => { x with st := st, recallFor := none, waiting := [], conflict := false, by_ := none }
  match s.publishedRegion r.domain r.id r.version with
  | none =>
    (s.modRegion r fun x => { calm x .published with digest := d }).regionAnswer r.by_ r.writer r.domain r.id r.version stOk d
  | some old =>
    if old.digest = d then
      ((s.freeRegion_ r).addGrant old r.writer).regionAnswer r.by_ r.writer r.domain r.id r.version stOkMerged d
    else (s.modRegion r fun x => { calm x .draft with conflict := true }).regionAnswer r.by_ r.writer r.domain r.id r.version stPublishConflict old.digest

/-- A recall is complete: what it was for is done. -/
def State.recallComplete (s : State) (r : Region) : State :=
  match r.recallFor with
  | some .publish => s.publishRegion r
  | some .withdraw => s.freeRegion_ r
  | some .free => s.freeRegion_ r
  | none => s

/-- Begin a recall from hosts; with none to wait for it completes at once. -/
def State.beginRecall (s : State) (r : Region) (hosts : List Nat) (why : RecallFor) : State :=
  let r' : Region := { r with st := .recalling, waiting := hosts, recallFor := some why, recallAt := s.now }
  let s := s.modRegion r fun _ => r'
  if hosts.isEmpty then s.recallComplete r' else hosts.foldl (fun (s : State) h => s.askRecall r h) s

/-- A host has answered a recall, or lost its place in it. -/
def State.recallAnswered (s : State) (r : Region) (host : Nat) : State :=
  let r' : Region := { r with waiting := r.waiting.filter fun h => h != host }
  let s := s.modRegion r fun _ => r'
  if r'.waiting.isEmpty then s.recallComplete r' else s

/-- The recall in progress that a host still has to answer. -/
def State.recallOf (s : State) (host id version : Nat) : Option Region :=
  s.tray.regions.find? fun r => r.id == id && r.version == version && r.st == .recalling && r.waiting.contains host

/-- A draft takes a later version: its record, and its directory-table entries. -/
def State.renameDraft (s : State) (r : Region) (version : Nat) : State :=
  let s := s.modRegion r fun x => { x with version := version }
  { s with array := { s.array with grants := mapIf (fun g => g.names r) (fun g => { g with version := version }) s.array.grants } }

/-- The draft that a publication names: that of the version, or the writer's oldest one that PUBLISH_CONFLICT has refused, as a later version
(R274; log entry 144). -/
def State.draftFor (s : State) (host domain id version : Nat) : Option Region :=
  (s.draft? host domain id version).orElse fun _ =>
    s.tray.regions.find? fun r => r.domain == domain && r.id == id && r.st == .draft && r.writer == host && r.conflict && decide (r.version < version)

/-- REGION_PUBLISH: the writer's draft is recalled first. -/
def State.regionPublishBy (s : State) (host : Nat) (d : RegionScope) (id version : Nat) : State :=
  if !s.isTray then s
  else match s.draftFor host d.domain id version with
    | some r =>
      let r' : Region := { r with version := version, by_ := d.conn }
      ((s.renameDraft r version).modRegion { r with version := version } fun _ => r').beginRecall r' (r.grants.filter fun h => h == host) .publish
    | none => s.regionAnswer d.conn host d.domain id version stPrefixNotFound 0

/-- REGION_WITHDRAW: the version takes no further grant, and is recalled from every host that still holds one. -/
def State.regionWithdrawn (s : State) (d : RegionScope) (id version : Nat) : State :=
  if !s.isTray then s
  else match (s.publishedRegion d.domain id version).orElse fun _ =>
      s.tray.regions.find? fun r => r.named d.domain id version && r.st == .draft with
    | some r =>
      let r' : Region := { r with st := .withdrawn }
      ((s.modRegion r fun _ => r').regionAnswer d.conn 0 d.domain id version stOk 0).beginRecall r' r.grants .withdraw
    | none => s.regionAnswer d.conn 0 d.domain id version stPrefixNotFound 0

/-- REGION_RELEASE: a host's grant ends; a recall that waited for it goes on. A draft whose writer gives it up is recalled from it, and then
its grains are freed (R275). -/
def State.regionReleased (s : State) (d : RegionScope) (id version host : Nat) : State :=
  if !s.isTray then s
  else match s.tray.regions.find? fun r => r.named d.domain id version && r.grants.contains host with
    | none => s.regionAnswer d.conn host d.domain id version stPrefixNotFound 0
    | some r =>
      let r' : Region := { r with grants := r.grants.filter fun h => h != host }
      let s := (s.dropGrant r host).regionAnswer d.conn host d.domain id version stOk 0
      if r.st = .recalling ∧ r.waiting.contains host then s.recallAnswered r' host
      else if r.st = .draft then s.beginRecall r' [host] .free
      else s

/-- RECALL_TIMEOUT: a host that has not answered loses its grant, with an event, and the recall goes on (R275). -/
def State.recallTimeout (s : State) (id version host : Nat) : State :=
  match s.recallOf host id version with
  | none => s
  | some r =>
    if s.now < r.recallAt + s.params.recallUs * ticksPerUs then s
    else
      let r' : Region := { r with grants := r.grants.filter fun h => h != host }
      ((s.dropGrant r host).note "RECALL_UNANSWERED" (evSource 11 r.domain) host).recallAnswered r' host

/-- BACK_INVALIDATE_RESPONSE: modified lines are taken, and the host has answered. -/
def State.backInvalidate (s : State) (host id version : Nat) (dirty : List (Nat × Bytes)) : State :=
  match s.recallOf host id version with
  | none => s
  | some r =>
    let lines := if r.writer = host ∧ r.recallFor = some .publish then dirty.filter fun x => decide (64 * x.1 + 64 ≤ r.size) else []
    let r' : Region := { r with bytes := lines.foldl (fun m x => m.writeN (64 * x.1) (x.2.take 64)) r.bytes }
    (s.modRegion r fun _ => r').recallAnswered r' host

/-! ### Region messages -/

/-- Region and version that a region message names. -/
def regionNamed (fr : Frame) : Nat × Nat := (fr.object % 2 ^ 32, fr.object / 2 ^ 32)

/-- REGION_READ at a tray: the bytes, or Asvis status 3 without a grant (R272). The answer names the version read; a refusal names none
unless the host has the version and asks beyond it (log entry 107). -/
def State.onRegionRead (s : State) (link : Nat) (p : Port) (fr : Frame) (length : Nat) : State :=
  let (id, v) := regionNamed fr
  let refuse := fun (st : Nat) => s.send link msgRegionRead fr.xid id fr.aux st [] (hdrOf fr)
  if !s.isTray then refuse 9
  else match s.readable p.device fr.domain id v with
    | none => refuse 3
    | some r =>
      let ok := s.reaches r p.device fr.aux length
      let s := s.reachFalse r p.device fr.aux length
      let named := id + r.version * 2 ^ 32
      if r.size < fr.aux + length then s.send link msgRegionRead fr.xid named fr.aux 3 [] (hdrOf fr)
      else if !ok then s.send link msgRegionRead fr.xid id fr.aux 3 [] (hdrOf fr)
      else
        let data := r.bytes.readN fr.aux length
        State.sendPage link msgRegionRead fr.xid named fr.aux false (hdrOf fr) (pageFrames data) 0 s data

/-- The frames of one message gather until its last comes: the bytes so far, and the state without them. -/
def State.gathered (s : State) (link : Nat) (fr : Frame) : Bytes × State :=
  let mine := fun (x : PutPart) => x.link == link && x.xid == fr.xid
  ((s.tray.puts.find? mine).elim [] (·.data), s.modTray fun t => { t with puts := t.puts.filter fun x => !mine x })

/-- A frame that is not its message's last is held. -/
def State.gather (s : State) (link : Nat) (fr : Frame) (data : Bytes) : State :=
  let (sofar, s) := s.gathered link fr
  s.modTray fun t => { t with puts := { link := link, xid := fr.xid, tenant := fr.tenant, domain := fr.domain, keyKind := fr.keyKind,
                                        data := sofar ++ data } :: t.puts }

/-- REGION_WRITE at a tray: only to the draft for which the host holds the write grant. The bytes of a write of several frames are
written, and answered, as the last comes. -/
def State.onRegionWrite (s : State) (link : Nat) (p : Port) (fr : Frame) (data : Bytes) : State :=
  let (id, v) := regionNamed fr
  let answer := fun (s : State) (st : Nat) => s.send link msgRegionWrite fr.xid fr.object fr.aux st [] (hdrOf fr)
  if !s.isTray then (if fr.last then answer s 9 else s)
  else if !fr.last then s.gather link fr data
  else
    let (sofar, s) := s.gathered link fr
    let data := sofar ++ data
    match s.writable p.device fr.domain id v with
    | none => answer s 3
    | some r =>
      let ok := s.reaches r p.device fr.aux data.length
      let s := s.reachFalse r p.device fr.aux data.length
      if !ok ∨ r.size < fr.aux + data.length then answer s 3
      else answer (s.modRegion r fun r => { r with bytes := r.bytes.writeN fr.aux data }) 0

/-- A region version whose directory-table entry is lost is faulted, and every grant on it ends (R89; log entry 111). -/
def State.faultRegion (s : State) (r : Region) : State :=
  let s := r.grants.foldl (fun (s : State) h => s.settleKey h) (s.freeRegion_ r)
  s.modTray fun t => { t with regions := t.regions ++ [{ r with st := .faulted, grants := [], waiting := [], recallFor := none }] }

/-- The request of this device that a REGION_READ or REGION_WRITE frame answers: it carries the transaction of one (R257). -/
def State.regionTxn (s : State) (link : Nat) (fr : Frame) : Option Nat :=
  if s.isTray then none
  else s.txns.findSome? fun t => match t.kind with
    | .region id => if t.xid = fr.xid ∧ t.port = .asvis link then some id else none
    | _ => none

/-- A request has an operand in a version of a region: a source that it has pinned to that version, a destination, or an operand whose
version no answer has named yet. -/
def Req.onRegion (r : Req) (id version : Nat) : Bool :=
  let on := fun (o : MemOpF) => o.kind == 3 && o.handle == id
  (nearOps r.desc).2.any on || ((nearOps r.desc).1.any on && (r.regionVers.find? fun x => x.1 == id).elim true fun x => x.2 == version)

/-- REGION_RECALL at a cache-role controller: the pending operations of the sharing domain's tenants on that version end, as on a region
that is gone, and RECALL_DONE goes back (R275). -/
def State.onRegionRecall (s : State) (link : Nat) (fr : Frame) : State :=
  let (id, v) := regionNamed fr
  let s := s.endAll ((s.reqs.filter fun r => r.onRegion id v && s.domainOf r.tenant == fr.domain &&
    (r.phase == .started || r.phase == .remote || (r.phase == .writing && s.regionWaits r))).map (·.id)) stPrefixNotFound
  s.send link msgRecallDone fr.xid fr.object fr.aux 0 [] (hdrOf fr)

/-! ### Near-memory operations on a tray (R280) -/

/-- Bytes of a kind-3 source for a host. -/
def State.regionSource (s : State) (host domain : Nat) (o : MemOpF) : Option Bytes :=
  match s.readable host domain o.handle 0 with
  | some r => if o.kind = 3 ∧ o.address + o.length ≤ r.size ∧ s.reaches r host o.address o.length then some (r.bytes.readN o.address o.length) else none
  | none => none

/-- Write a kind-3 destination for a host. -/
def State.regionDest (s : State) (host domain : Nat) (o : MemOpF) (data : Bytes) : Option State :=
  match s.writable host domain o.handle 0 with
  | some r =>
    if o.kind = 3 ∧ o.address + data.length ≤ r.size ∧ s.reaches r host o.address data.length then some (s.modRegion r fun r => { r with bytes := r.bytes.writeN o.address data })
    else none
  | none => none

/-- How a source that gives no bytes is refused: 1 where the host has the region and asks beyond it, 0 where it has none (R193, R272). -/
def State.sourceLack (s : State) (host domain : Nat) (o : MemOpF) : Nat :=
  if ((s.readable host domain o.handle 0).any fun r => decide (r.size < o.address + o.length)) then 1 else 0

/-- Run an operation: its Asvis status, its difference offset, or after status 3 what lacks (log entry 107), and the state after it. -/
def State.runNmo (s : State) (host domain : Nat) (op : Desc) : Nat × Nat × State :=
  let put := fun (o : MemOpF) (d : Bytes) => match s.regionDest host domain o d with
    | some s' => (0, 0, s')
    | none => (3, 1, s)
  match op with
  | .fill f => put f.dst ((List.range (f.dst.length / 8)).flatMap fun _ => leBytes 8 f.pattern.toNat)
  | .copy f => match s.regionSource host domain f.a with
    | some d => put f.b d
    | none => (3, s.sourceLack host domain f.a, s)
  | .compare f =>
    (match s.regionSource host domain f.a, s.regionSource host domain f.b with
    | some a, some b => (0, firstDiff a b, s)
    | none, _ => (3, s.sourceLack host domain f.a, s)
    | some _, none => (3, s.sourceLack host domain f.b, s))
  | d =>
    match reduceOf d with
    | none => (9, 0, s)
    | some (f, lse) =>
      let n := reduceSource f lse
      let ops := (List.range f.srcCount).map fun i =>
        ({ kind := 3, handle := f.dest.handle, address := f.srcBase + i * f.srcStride, length := n } : MemOpF)
      match ops.find? fun o => (s.regionSource host domain o).isNone with
      | some o => (3, s.sourceLack host domain o, s)
      | none => put f.dest (reduceResult d f (ops.filterMap (s.regionSource host domain))).1

/-- NMO: a tray runs it; a misrouted ATTEND is refused (R14), as is everything in cache role. -/
def State.onNmo (s : State) (link : Nat) (p : Port) (fr : Frame) (op : Desc) : State :=
  let answer := fun (s : State) (st diff : Nat) => s.send link msgNmoDone fr.xid diff fr.aux st [] (hdrOf fr)
  if !s.isTray then answer s 9 0
  else
    let (st, diff, s') := s.runNmo p.device fr.domain op
    answer s' st diff

/-! ### Pool objects (R276 to R279) -/

/-- Flash volume of this tray that a volume grain names, with its grains. -/
def State.trayVolume (s : State) (addr : Nat) : Option VolumeRec :=
  if addr < 2 ^ 63 then none else s.image.volumes.find? fun v => v.local_ && v.index == bits addr 32 8

/-- A volume that the host holds, or that no host holds yet: the first to use it takes it (R276, R279; log entry 140). -/
def State.volumeFor (s : State) (host : Nat) (v : VolumeRec) : Bool := s.tray.volumes.all fun x => x.1 != v.index || x.2 == host

/-- Tray extent or volume of a host that covers a run of grains, and whether stack memory holds it for good (R276). -/
def State.hostMay (s : State) (host addr grains : Nat) : Option Bool :=
  if 2 ^ 63 ≤ addr then
    (s.trayVolume addr).bind fun v => if s.volumeFor host v ∧ addr % 2 ^ 32 + grains ≤ v.grains then some false else none
  else (s.tray.extents.find? fun e => e.owner == some host && decide (e.base ≤ addr ∧ addr + grains ≤ e.base + e.grains)).map (·.resident)

/-- A host's first use of a volume grants it, and its key is there (R279). -/
def State.takeVolume (s : State) (host addr : Nat) : State :=
  match s.trayVolume addr with
  | some v => if s.tray.volumes.any fun x => x.1 == v.index then s
    else (s.modTray fun t => { t with volumes := (v.index, host) :: t.volumes }).makeKey host
  | none => s

/-- Objects of a host that overlap a run. -/
def PoolObj.overlaps (o : PoolObj) (host addr grains : Nat) : Bool :=
  o.host == host && decide (o.addr < addr + grains ∧ addr < o.addr + o.grains)

/-- PAGE_PUT at a tray: its frames gather; the whole page is held in the protected region, then answered (R277). -/
def State.onPagePut (s : State) (link : Nat) (p : Port) (fr : Frame) (data : Bytes) : State :=
  let answer := fun (s : State) (st : Nat) => s.send link msgPutDone fr.xid fr.object 0 st [] (hdrOf fr)
  if !s.isTray then (if fr.last then answer s 9 else s)
  else if !fr.last then s.gather link fr data
  else
    let (sofar, s) := s.gathered link fr
    let grains := fr.aux % 128
    match s.hostMay p.device fr.object grains with
    | none => answer s 3
    | some resident =>
      let s := s.takeVolume p.device fr.object
      if !s.slotFilled (ownerSlot 1 p.device) then answer s 7 else
      let o : PoolObj := { id := s.ids, host := p.device, addr := fr.object, grains := grains, version := bits fr.aux 8 8,
                           data := sofar ++ data, count := s.params.trayNewCount, resident := resident, inStack := true,
                           onFlash := false, swept := 0, ssdGroup := fr.object % s.ssdGroups, lost := false }
      answer (s.bumpId.modTray fun t =>
        { t with objects := o :: t.objects.filter fun x => !x.overlaps p.device fr.object grains }) 0

/-- Raise an object's counter by a read; one that is on flash comes to stack memory once its count asks for it (R278). -/
def PoolObj.read (o : PoolObj) (promote : Nat) : PoolObj :=
  let c := min 255 (o.count + 1)
  { o with count := c, inStack := o.inStack || decide (promote ≤ c) }

/-- PAGE_GET at a tray: the object's bytes; status 3 for a grain it does not hold for the host, 7 for a lost one or without the host's key
(R258, R281, R313). -/
def State.trayPage (s : State) (link : Nat) (p : Port) (fr : Frame) : State :=
  let refuse := fun (st : Nat) => s.send link msgPageData fr.xid fr.object 0 st [] (hdrOf fr)
  match s.tray.objects.find? fun o => o.host == p.device && o.addr == fr.object with
  | none => refuse 3
  | some o =>
    if o.lost ∨ !s.slotFilled (ownerSlot 1 p.device) then refuse 7
    else (s.modObjects (fun x => x.id == o.id) fun x => x.read s.params.trayPromote).getObject o (.page link fr)

/-! ### Extents of a tray (R264) -/

def State.modTrayExtent (s : State) (base : Nat) (g : TrayExtent → TrayExtent) : State :=
  s.modTray fun t => { t with extents := mapIf (fun e => e.base == base) g t.extents }

/-- EXTENT_CLAIM: the first claim takes the extent; every other is answered status 8 with the winner's device. A claim of the holder's makes
its key again where R51 destroyed it (R279). -/
def State.onClaim (s : State) (link : Nat) (p : Port) (fr : Frame) : State :=
  let answer := fun (s : State) (object st : Nat) => s.send link msgExtentDone fr.xid object 0 st []
  if !s.isTray then answer s fr.object 9
  else match s.tray.extents.find? fun e => e.base == fr.object with
    | none => answer s fr.object 3
    | some e =>
      match e.owner with
      | some w => if w = p.device then answer (s.makeKey w) fr.object 0 else answer s w 8
      | none => answer ((s.modTrayExtent e.base fun e => { e with owner := some p.device }).makeKey p.device) fr.object 0

/-- An extent is the tray's again: the host's objects on it go, and it is offered anew. -/
def State.extentBack (s : State) (e : TrayExtent) (host : Nat) : State :=
  let s := (s.modTrayExtent e.base fun e => { e with owner := none }).modTray fun t =>
    { t with objects := t.objects.filter fun o => !o.overlaps host e.base e.grains }
  let s := s.settleKey host
  ((s.ports.filter fun p => p.st == .up).map (·.id)).foldl (fun (s : State) p => s.offerExtents p) s

/-- A host has acknowledged a release. -/
def State.releaseAcked (s : State) (p : Port) (fr : Frame) : State :=
  match s.tray.extents.find? fun e => e.base == fr.object && e.owner == some p.device with
  | none => s
  | some e => s.extentBack e p.device

/-- CXL host of a tray's port: that of the cluster. -/
def State.cxlHost? (s : State) (cluster : Nat) : Option Nat := (s.image.trayCxlHosts.find? fun x => x.1 == cluster).map Prod.snd

/-- Add Dynamic Capacity Response of a tray's CXL host to an offer: the extent is the host's, if none has it yet (R264, R276; log entry 139).
-/
def State.capacityTaken (s : State) (cluster base grains : Nat) : State :=
  match s.cxlHost? cluster, s.tray.extents.find? fun e => e.base == base && e.grains == grains with
  | some host, some e => if e.owner.isNone ∧ s.canRecall host then (s.modTrayExtent base fun e => { e with owner := some host }).makeKey host else s
  | _, _ => s

/-- Release Dynamic Capacity of a tray's CXL host, whose tag is the extent's base (log entry 139). -/
def State.capacityBack (s : State) (cluster base : Nat) : State :=
  match s.cxlHost? cluster with
  | none => s
  | some host => (s.tray.extents.find? fun e => e.base == base && e.owner == some host).elim s fun e => s.extentBack e host

/-! ### SSDs (R281) -/

/-- TRAY_SSD_FAILURE: one failure of a group is covered by its parity; a second loses what lies on flash alone. The metadata
pair's spare is rebuilt from the survivor. -/
def State.ssdFails (s : State) (pair : Bool) (group ssd : Nat) : State :=
  if !s.isTray then s
  else if pair then
    let s := s.modTray fun t => { t with pairFailed := t.pairFailed + 1 }
    if s.tray.pairSpare then (s.modTray fun t => { t with pairSpare := false, rebuilding := true }).spend 15 0
    else s.advise (poolDetail 15 0)
  else if s.tray.ssdFailed.contains (group, ssd) then s
  else
    let first := !(s.tray.ssdFailed.any fun x => x.1 == group)
    let s := s.modTray fun t => { t with ssdFailed := (group, ssd) :: t.ssdFailed }
    if first then s.spend 14 group
    else
      let s := s.modObjects (fun o => o.ssdGroup == group && o.onFlash) fun o => { o with lost := !o.inStack, onFlash := false }
      (s.note "SSD_GROUP_LOST" (evSource 13 group) ssd).advise (poolDetail 14 group)

/-- METADATA_PAIR_REBUILD_END: the spare takes its place in the pair. -/
def State.pairRebuilt (s : State) : State :=
  if s.tray.rebuilding then s.modTray fun t => { t with rebuilding := false, pairFailed := t.pairFailed - 1 } else s

/-! ### Loads and stores of CXL hosts (R272, R276) -/

/-- A load or store of the pool itself: the host's extents alone, under its key (R276, R279). -/
def State.poolAccess (s : State) (host line : Nat) (write : Option Bytes) : State :=
  let g := line / 256
  match s.hostMay host g 1 with
  | none => s.emit (.cxlError line)
  | some resident =>
    if !s.slotFilled (ownerSlot 1 host) then s.emit (.cxlError line)
    else match s.tray.objects.find? (fun o => o.overlaps host g 1), write with
      | some o, _ => s.getObject o (.line host line write)
      | none, none => s.emit (.cxlRegion host line (List.replicate 64 memDefault))
      | none, some b =>
        let o : PoolObj := { id := s.ids, host := host, addr := g, grains := 1, version := 0,
                             data := putLine (List.replicate grainBytes memDefault) (64 * (line % 256)) (b.take 64),
                             count := s.params.trayNewCount, resident := resident, inStack := true, onFlash := false, swept := 0,
                             ssdGroup := g % s.ssdGroups, lost := false }
        (s.bumpId.modTray fun t => { t with objects := o :: t.objects }).emit (.cxlDone line)

/-- Shared region that a CXL host reaches under a grant, whatever its domain. -/
def State.cxlRegionOf (s : State) (host id version : Nat) (write : Bool) : Option Region :=
  s.tray.regions.find? fun r => r.id == id && r.version == version && r.grants.contains host
    && ((r.st == .draft && r.writer == host) || (!write && r.st == .published))

/-- POOL_CXL_MEM_ACCESS: version 0 names the pool, another a region version; without a grant no data goes out (R272). -/
def State.poolMem (s : State) (host id version line : Nat) (write : Option Bytes) : State :=
  if !s.isTray then s
  else if version = 0 then s.poolAccess host line write
  else match s.cxlRegionOf host id version write.isSome with
    | none => s.emit (.cxlError line)
    | some r =>
      let ok := s.reaches r host (64 * line) 64
      let s := s.reachFalse r host (64 * line) 64
      if !ok ∨ r.size < 64 * line + 64 then s.emit (.cxlError line)
      else match write with
        | none => s.emit (.cxlRegion host line (r.bytes.readN (64 * line) 64))
        | some b => (s.modRegion r fun r => { r with bytes := r.bytes.writeN (64 * line) (b.take 64) }).emit (.cxlDone line)

/-! ### Commands -/

def execPagePut (link : Nat) (fr : Frame) (data : Bytes) (s : State) : Host.Outcome State Fault Refusal :=
  .next (s.takeFrame link fr 1 [1, 2] data.length false fun s p => s.onPagePut link p fr data)

def execExtentClaim (link : Nat) (fr : Frame) (s : State) : Host.Outcome State Fault Refusal :=
  .next (s.takeFrame link fr 1 [0] 0 false fun s p => s.onClaim link p fr)

def execExtentDone (link : Nat) (fr : Frame) (s : State) : Host.Outcome State Fault Refusal :=
  .next (s.takeFrame link fr 1 [0] 0 false fun s p => if bit fr.aux 0 then s.releaseAcked p fr else s.claimAnswer link fr)

def execRegionRead (link : Nat) (fr : Frame) (length : Nat) (s : State) : Host.Outcome State Fault Refusal :=
  .next (s.takeFrame link fr 3 [2] 0 false fun s p => match s.regionTxn link fr with
    | some id => s.onRegionAnswer id fr false
    | none => if s.isTray ∧ !s.tableUp 6 then s.holdSearch (.regionRead link fr length) else s.onRegionRead link p fr length)

def execRegionWrite (link : Nat) (fr : Frame) (data : Bytes) (s : State) : Host.Outcome State Fault Refusal :=
  .next (s.takeFrame link fr 3 [2] data.length false fun s p => match s.regionTxn link fr with
    | some id => s.onRegionAnswer id fr true
    | none => if s.isTray ∧ !s.tableUp 6 then s.holdSearch (.regionWrite link fr data) else s.onRegionWrite link p fr data)

def execRegionRecall (link : Nat) (fr : Frame) (s : State) : Host.Outcome State Fault Refusal :=
  .next (s.takeFrame link fr 3 [2] 0 false fun s _ => s.onRegionRecall link fr)

def execRecallDone (link : Nat) (fr : Frame) (s : State) : Host.Outcome State Fault Refusal :=
  .next (s.takeFrame link fr 3 [2] 0 false fun s p => match s.recallOf p.device (regionNamed fr).1 (regionNamed fr).2 with
    | some r => s.recallAnswered r p.device
    | none => s)

def execRecallTimeout (region version host : Nat) (s : State) : Host.Outcome State Fault Refusal :=
  .next (s.live fun s => s.recallTimeout region version host)

def execNmo (link : Nat) (fr : Frame) (op : Desc) (s : State) : Host.Outcome State Fault Refusal :=
  .next (s.takeFrame link fr 2 [1, 2] 0 false fun s p =>
    if s.isTray ∧ !s.tableUp 6 then s.holdSearch (.nmo link fr op) else s.onNmo link p fr op)

/-- A region command: of a CXL host's mailbox, or of the operator, to whom a cache-role controller answers INVALID (R273). -/
def State.regionCmd (s : State) (d : RegionScope) (k : State → State) : State :=
  match d.conn with
  | none => s.live k
  | some c => s.serve c [1] false fun s _ => if s.isTray then k s else s.reply c msInvalid []

def execRegionOpen (host : Nat) (domain : RegionScope) (region version grains : Nat) (s : State) : Host.Outcome State Fault Refusal :=
  .next (s.regionCmd domain fun s => s.regionOpenFor host domain region version grains)

def execRegionGrant (domain : RegionScope) (region version host : Nat) (s : State) : Host.Outcome State Fault Refusal :=
  .next (s.regionCmd domain fun s => s.regionGrantTo domain region version host)

def execRegionPublish (host : Nat) (domain : RegionScope) (region version : Nat) (check : SelfCheck) (s : State) :
    Host.Outcome State Fault Refusal :=
  .next (s.regionCmd domain fun s => (s.hashCheck check (s.isTray && (s.draftFor host domain.domain region version).isSome)).regionPublishBy
    host domain region version)

def execRegionWithdraw (domain : RegionScope) (region version : Nat) (s : State) : Host.Outcome State Fault Refusal :=
  .next (s.regionCmd domain fun s => s.regionWithdrawn domain region version)

def execRegionRelease (domain : RegionScope) (region version host : Nat) (s : State) : Host.Outcome State Fault Refusal :=
  .next (s.regionCmd domain fun s => s.regionReleased domain region version host)

/-- ADD_CAPACITY: an Add Capacity event in cache role, the response of its CXL host in tray role (R264, R276). -/
def execAddCapacity (cluster tag base grains : Nat) (s : State) : Host.Outcome State Fault Refusal :=
  .next (s.live fun s => if s.isTray then s.capacityTaken cluster base grains else s.addCapacity cluster tag base grains)

/-- RELEASE_CAPACITY: a Release Capacity event in cache role, Release Dynamic Capacity of its CXL host in tray role. -/
def execReleaseCapacity (cluster tag : Nat) (s : State) : Host.Outcome State Fault Refusal :=
  .next (s.live fun s => if s.isTray then s.capacityBack cluster tag else match s.extentTagged cluster tag with
    | some e => s.releaseExtent e false
    | none => s)

def execDestage (object : Nat) (s : State) : Host.Outcome State Fault Refusal := .next (s.live fun s => if s.isTray then s.destage object else s)

def execTraySsdFailure (pair : Bool) (group ssd : Nat) (s : State) : Host.Outcome State Fault Refusal :=
  .next (s.live fun s => s.ssdFails pair group ssd)

def execMetadataPairRebuildEnd (s : State) : Host.Outcome State Fault Refusal := .next (s.live State.pairRebuilt)

def execBackInvalidateResponse (host region version : Nat) (dirty : List (Nat × Bytes)) (s : State) : Host.Outcome State Fault Refusal :=
  .next (s.live fun s => s.backInvalidate host region version dirty)

def execPoolCxlMemAccess (host region version line : Nat) (write : Option Bytes) (s : State) : Host.Outcome State Fault Refusal :=
  .next (s.live fun s => if s.isTray ∧ version ≠ 0 ∧ !s.tableUp 6 then s.holdSearch (.poolMem host region version line write)
    else s.poolMem host region version line write)

end Sys2Proof.Machine
end

