-- ==== Sys2Proof/Machine/Array.lean ====
section
/-! DEFINITION. The upkeep of the associative array and the directory (04_associative_array, R68, R71): shadow comparison and
repair (R89), bank replacement (R90), hole removal (R91), idle withdrawal and the verification of copies. -/

namespace Sys2Proof.Machine

/-! ### Entries lost with their rows (R89) -/

def State.arrayNote (s : State) (name : String) (bank detail : Nat) : State := s.note name (evSource 2 bank) detail

def State.bank? (s : State) (n : Nat) : Option Bank := s.array.banks.find? fun b => b.n == n

def State.modBank (s : State) (n : Nat) (g : Bank → Bank) : State :=
  { s with array := { s.array with banks := mapIf (fun b => b.n == n) g s.array.banks } }

/-- Rank of a bank in its table. -/
def State.bankRank (s : State) (b : Bank) : Nat := ((s.banksOf b.tag).findIdx? fun x => x.n == b.n).getD 0

/-- Array rows of one entry of a table. -/
def entryRows (tag : Nat) : Nat := 8192 / bankEntries tag

/-- Remove the rows at positions [lo, hi) of a flow table, which are gone with their bank (R90; log entry 33). -/
def FlowTable.cut (t : FlowTable) (lo hi : Nat) : FlowTable :=
  let keep := fun (off : Nat) (g : List (Option FlowRow)) =>
    (g.zipIdx.filter fun x => !(decide (lo ≤ off + x.2 ∧ off + x.2 < hi))).map Prod.fst
  { g0 := keep 0 t.g0, g1 := keep t.g0.length t.g1, g2 := keep (t.g0.length + t.g1.length) t.g2 }

/-- Members of a list, each of the given number of positions, with a position in [lo, hi) (log entry 33). -/
def spanAt {α : Type} (width : α → Nat) (lo hi : Nat) : Nat → List α → List α
  | _, [] => []
  | at_, x :: xs =>
    let n := width x
    (if at_ < hi ∧ lo < at_ + n then [x] else []) ++ spanAt width lo hi (at_ + n) xs

/-- The entries at positions [lo, hi) of a table are lost, and their owners act (R89). A lost row is cleared; rows of a lost bank are
gone (R90). -/
def State.loseEntries (s : State) (tag lo hi : Nat) (bank : Bool) : State :=
  let here := fun (i : Nat) => decide (lo ≤ i ∧ i < hi)
  match tag with
  | 1 =>
    let lost := s.array.rows.filter fun r => decide (lo ≤ r.row ∧ r.row < hi)
    let s := { s with array := { s.array with rows := s.array.rows.filter fun r => !(decide (lo ≤ r.row ∧ r.row < hi)) } }
    ((lost.map (·.slot)).eraseDups).foldl (fun (s : State) i => s.faultEntry i) s
  | 2 => (spanAt (fun e => coverRanges e.grains) lo hi 0 s.extents).foldl (fun (s : State) e => s.forceRelease e) s
  | 3 => s.setFlowTable false (if bank then s.array.flow4.cut lo hi else s.array.flow4.clear lo hi)
  | 4 => s.setFlowTable true (if bank then s.array.flow6.cut lo hi else s.array.flow6.clear lo hi)
  | 5 =>
    let rows := if bank then (s.array.policy.zipIdx.filter fun x => !here x.2).map Prod.fst
      else s.array.policy.zipIdx.map fun (x : PolicyRow × Nat) => if here x.2 then { x.1 with present := false, lost := true } else x.1
    { s with array := { s.array with policy := rows } }
  | 6 =>
    let lost := spanAt GrantRow.rows lo hi 0 s.array.grants
    lost.foldl (fun (s : State) g => match s.tray.regions.find? fun r => r.named g.domain g.region g.version && r.grants.contains g.host with
      | some r => s.faultRegion r
      | none => s) s
  | _ => s

/-! ### Banks (R90) -/

/-- A lookup or attach that was held while its table was short of a bank runs (R90). -/
def State.runHeld (s : State) (r : Req) : State :=
  if r.phase ≠ .waiting ∨ s.blocked r then s
  else match r.desc with
    | .lookupHash f => s.beginLookupHash r f
    | .lookupFlow f => s.beginLookupFlow r f
    | .lookupToken f => if r.data.isEmpty then s else s.lookupTokens r f true r.data
    | .attachPrefix f => s.beginAttachPrefix r f
    | _ => s

/-- A publication whose compare-and-set was held runs it (R90). -/
def State.runPublish (s : State) (r : Req) : State :=
  match r.desc with
  | .publish f => s.publishGoes r f
  | _ => s

/-- Run something for a link that is up. -/
def State.onUp (s : State) (link : Nat) (g : Port → State) : State :=
  (s.port? (.asvis link)).elim s fun p => if p.st = .up then g p else s

/-- A peer's search that was held runs on its link, if that is up. -/
def State.runSearch (s : State) (x : HeldSearch) : State :=
  match x with
  | .dirLookup l fr fp ps => if (s.port? (.asvis l)).any fun p => p.dirOk then s.onDirLookup l fr fp ps else s
  | .regionRead l fr n => s.onUp l fun p => s.onRegionRead l p fr n
  | .regionWrite l fr data => s.onUp l fun p => s.onRegionWrite l p fr data
  | .dirPublish l fr k => if (s.port? (.asvis l)).any fun p => p.dirOk then s.onDirPublish l fr k else s
  | .pageGet l fr => s.onUp l fun p => s.servePage l p fr
  | .nmo l fr op => s.onUp l fun p => s.onNmo l p fr op
  | .poolMem host region version line write => s.poolMem host region version line write

/-- Table that a held search searches. -/
def HeldSearch.tag : HeldSearch → Nat
  | .dirLookup _ _ _ _ => 1
  | .regionRead _ _ _ => 6
  | .regionWrite _ _ _ => 6
  | .dirPublish _ _ _ => 1
  | .pageGet _ _ => 1
  | .nmo _ _ _ => 6
  | .poolMem _ _ _ _ _ => 6

/-- Held searches run once their table has its banks (R90). -/
def State.heldRun (s : State) : State :=
  let s := s.reqs.foldl (fun (s : State) r => match s.req? r.id with
    | some r => (s.runHeld r).runPublish r
    | none => s) s
  let go := s.array.held.filter fun x => s.tableUp x.tag
  let s := { s with array := { s.array with held := s.array.held.filter fun x => !s.tableUp x.tag } }
  go.foldl (fun (s : State) x => s.runSearch x) s

/-- With no spare bank, a bank leaves its table for good: its entries are lost and the later banks move up. -/
def State.bankLost (s : State) (b : Bank) : State :=
  let n := bankEntries b.tag
  let lo := s.bankRank b * n
  let s := s.loseEntries b.tag lo (lo + n) true
  let s := s.modBank b.n fun b => { b with tag := 0, st := .lost }
  let up := fun (r : PrefixRow) => if lo + n ≤ r.row then { r with row := r.row - n } else r
  let s := if b.tag = 1 then { s with array := { s.array with rows := s.array.rows.map up } } else s
  ((s.arrayNote "ARRAY_BANK_LOST" b.n b.tag).advise (poolDetail 2 0)).heldRun

/-- The lowest spare bank begins to rebuild a failing bank's rows, or the bank is lost. -/
def State.rebuildBank (s : State) (b : Bank) : State :=
  match s.array.banks.find? fun x => x.st == .spare with
  | some x => (s.modBank x.n fun x => { x with st := .rebuilding b.n }).spend 2 0
  | none => s.bankLost b

/-- ARRAY_BANK_FAULT: the failing bank leaves service at once; its rows go to a spare bank. -/
def State.bankFault (s : State) (n : Nat) : State :=
  match s.bank? n with
  | none => s
  | some b =>
    match b.st with
    | .working =>
      if b.tag = 0 then s
      else ((s.modBank n fun b => { b with st := .failing }).arrayNote "ARRAY_BANK_FAULT" n b.tag).rebuildBank b
    | .spare => (s.modBank n fun b => { b with st := .lost }).spend 2 0
    | .rebuilding old =>
      let s := s.modBank n fun b => { b with st := .lost }
      (match s.bank? old with
      | some b => s.rebuildBank b
      | none => s)
    | .failing => s
    | .lost => s

/-- BANK_REBUILD_END: the spare takes the failing bank's rank and enters service, and held searches run. -/
def State.bankRebuilt (s : State) (n : Nat) : State :=
  match s.bank? n with
  | none => s
  | some x =>
    match x.st with
    | .rebuilding old =>
      (match s.bank? old with
      | none => s
      | some b =>
        let new : Bank := { x with tag := b.tag, st := .working }
        let out : Bank := { b with tag := 0, st := .lost }
        let banks := s.array.banks.map fun (y : Bank) => if y.n = old then new else if y.n = n then out else y
        (({ s with array := { s.array with banks := banks } }).arrayNote "ARRAY_BANK_REPLACED" old n).heldRun)
    | _ => s

/-! ### Shadow comparison (R89) -/

/-- Spare rows of a bank (R89, R349). -/
def spareRows : Nat := 128

/-- The shadow copies of an array entry and the bits of its rows. -/
structure Shadow where
  mirrorA : Bool
  mirrorB : Bool
  upset   : Option (Nat × Nat)
  deriving DecidableEq, Repr

/-- Change the shadow and rows of every entry, given its table and position. -/
def State.mapShadow (s : State) (f : Nat → Nat → Shadow → Shadow) : State :=
  let flow := fun (tag i : Nat) (e : FlowRow) =>
    let x := f tag i ⟨e.mirrorA, e.mirrorB, e.upset⟩
    { e with mirrorA := x.mirrorA, mirrorB := x.mirrorB, upset := x.upset }
  { s with
    extents := s.extents.map fun (e : Extent) =>
      let x := f 2 (s.extentPos e) ⟨e.mirrorA, e.mirrorB, e.upset⟩
      { e with mirrorA := x.mirrorA, mirrorB := x.mirrorB, upset := x.upset }
    array := { s.array with
      rows := s.array.rows.map fun (r : PrefixRow) =>
        let x := f 1 r.row ⟨r.mirrorA, r.mirrorB, r.upset⟩
        { r with mirrorA := x.mirrorA, mirrorB := x.mirrorB, upset := x.upset }
      flow4 := s.array.flow4.mapAt (flow 3)
      flow6 := s.array.flow6.mapAt (flow 4)
      policy := s.array.policy.zipIdx.map fun (p, i) =>
        let x := f 5 i ⟨p.mirrorA, p.mirrorB, p.upset⟩
        { p with mirrorA := x.mirrorA, mirrorB := x.mirrorB, upset := x.upset }
      grants := s.array.grants.map fun (g : GrantRow) =>
        let x := f 6 (s.grantPos g) ⟨g.mirrorA, g.mirrorB, g.upset⟩
        { g with mirrorA := x.mirrorA, mirrorB := x.mirrorB, upset := x.upset } } }

/-- Every live entry of the array: its table, its position, its shadow and its rows. -/
def State.shadows (s : State) : List (Nat × Nat × Shadow) :=
  (s.array.rows.map fun (r : PrefixRow) => (1, r.row, ⟨r.mirrorA, r.mirrorB, r.upset⟩))
    ++ ((s.extents.filter fun e => e.st == .active).map fun e => (2, s.extentPos e, ⟨e.mirrorA, e.mirrorB, e.upset⟩))
    ++ (s.array.flow4.placed.map fun x => (3, x.1, ⟨x.2.mirrorA, x.2.mirrorB, x.2.upset⟩))
    ++ (s.array.flow6.placed.map fun x => (4, x.1, ⟨x.2.mirrorA, x.2.mirrorB, x.2.upset⟩))
    ++ ((s.array.policy.zipIdx.filter fun x => x.1.present).map fun x => (5, x.2, ⟨x.1.mirrorA, x.1.mirrorB, x.1.upset⟩))
    ++ s.array.grants.map fun g => (6, s.grantPos g, ⟨g.mirrorA, g.mirrorB, g.upset⟩)

/-- The entry at a position is lost with both copies of its shadow (R89). -/
def State.loseAt (s : State) (tag pos : Nat) : State :=
  (s.arrayNote "ARRAY_ENTRY_LOST" ((s.bankAt tag pos).getD 0) pos).loseEntries tag pos (pos + 1) false

/-- Entries whose shadow has gone in both copies are lost, the last of a table first (R89). -/
def State.dropShadowless (s : State) (p : Nat → Nat → Bool) : State :=
  ((s.shadows.filter fun x => p x.1 x.2.1 && !x.2.2.mirrorA && !x.2.2.mirrorB).map fun x => (x.1, x.2.1)).reverse.foldl
    (fun s x => s.loseAt x.1 x.2) s

/-- A comparison of the entries that satisfy `p`: one without a shadow is lost, a bad copy is repaired from the other, and every row is
rewritten from its shadow (R26, R89). -/
def State.compareEntries (s : State) (p : Nat → Nat → Bool) : State :=
  let s := s.dropShadowless p
  let odd := s.shadows.filter fun x => p x.1 x.2.1 && x.2.2.mirrorA != x.2.2.mirrorB
  let mend := fun (tag pos : Nat) (x : Shadow) =>
    if p tag pos then { mirrorA := (s.mended x.mirrorA x.mirrorB).1, mirrorB := (s.mended x.mirrorA x.mirrorB).2, upset := none } else x
  (if s.repairable then odd.foldl (fun s x => s.arrayNote "METADATA_REPAIRED" ((s.bankAt x.1 x.2.1).getD 0) x.2.1) s else s).mapShadow mend

/-- Position of the entry on a row of a bank. -/
def State.posOf (s : State) (b : Bank) (row : Nat) : Nat := s.bankRank b * bankEntries b.tag + row / entryRows b.tag

/-- What one mismatch asks for: a rewrite, a spare row, a spare bank, or, with both shadows bad, the loss of the entry. A shadow row with one
bad copy is repaired from the other (R26). -/
def State.rowMismatch (s : State) (x : RowMismatch) : State :=
  match s.bank? x.bank with
  | none => s
  | some b =>
    if b.tag = 0 ∨ b.st ≠ .working ∨ 8192 ≤ x.row then s
    else if x.bothShadow then
      let i := s.posOf b x.row
      (s.arrayNote "ARRAY_ENTRY_LOST" b.n x.row).loseEntries b.tag i (i + 1) false
    else
      let s := if x.oneShadow && s.repairable then s.arrayNote "METADATA_REPAIRED" b.n x.row else s
      if !x.again then s
      else if b.rowsSpent < spareRows then
        ((s.modBank b.n fun b => { b with rowsSpent := b.rowsSpent + 1 }).arrayNote "ARRAY_ROW_REMAPPED" b.n x.row).spend 1 b.n
      else s.bankFault b.n

/-- The bits that an array row takes after a comparison (log entry 121). -/
def State.rowUpset (s : State) (x : RowMismatch) : State :=
  match x.upset, s.bank? x.bank with
  | some u, some b =>
    let pos := s.posOf b x.row
    s.mapShadow fun tag i y => if tag = b.tag ∧ i = pos then { y with upset := some u } else y
  | _, _ => s

/-- Ticks between two shadow comparisons (R89). -/
def compareTicks : Nat := 235000

/-- SHADOW_COMPARE: every in-use row is read back, and what differs is repaired; between the periodic comparisons only the banks that an
unverified hit or a publication's miss put under suspicion are compared (R87 to R89). -/
def State.shadowCompare (s : State) (found : List RowMismatch) : State :=
  let due := decide (s.array.compared + compareTicks ≤ s.now)
  let t := { s with array := { s.array with compared := if due then s.now else s.array.compared, suspects := [] } }
  let mine := fun (bank : Nat) => due || s.array.suspects.contains bank
  let t := (found.filter fun x => mine x.bank).foldl (fun (s : State) x => s.rowMismatch x)
    (t.compareEntries fun tag pos => (s.bankAt tag pos).any mine)
  found.foldl (fun (s : State) x => s.rowUpset x) t

/-- HOLE_REMOVAL: one hole of a flow table goes, by the removal chain (R91). -/
def State.holeRemoval (s : State) (tag : Nat) : State :=
  if tag = 3 then s.setFlowTable false s.array.flow4.dropHole
  else if tag = 4 then s.setFlowTable true s.array.flow6.dropHole
  else s

/-! ### The directory's own upkeep (R68, R71) -/

/-- IDLE_WITHDRAW: a published home entry whose references have stayed 0 for idle_withdraw_ms is withdrawn, with an event. -/
def State.idleWithdraw (s : State) (slot : Nat) : State :=
  match s.dir? slot with
  | none => s
  | some e =>
    let ms := (s.domain? e.domain).elim 0 (·.idleWithdrawMs)
    if ms = 0 ∨ e.proxy ∨ e.st ≠ .published ∨ e.refs ≠ 0 ∨ s.now < e.idleSince + ms * 470000 then s
    else (s.withdraw e).note "PREFIX_IDLE_WITHDRAWN" (evSource 11 e.domain) e.handle

/-- Raw bytes of a proxy's own blocks, in order; or the first record and layer that cannot be read, with its status. -/
def State.copyContent (s : State) (e : DirEntry) (m : ModelRec) : Except (Nat × Nat × Nat) Bytes :=
  (List.range (e.depth - e.parentDepth)).foldl (fun (acc : Except (Nat × Nat × Nat) Bytes) i =>
    match acc, (e.map.find? fun x => x.1 == e.parentDepth + i).bind fun x => s.rec? x.2 with
    | .error x, _ => .error x
    | .ok _, none => .error (0, 0, stDataIntegrity)
    | .ok bs, some r =>
      (List.range m.layers).foldl (fun (acc : Except (Nat × Nat × Nat) Bytes) l => match acc with
        | .error x => .error x
        | .ok bs => match s.readPage m r.tenant e.domain r l with
          | .ok b => .ok (bs ++ b)
          | .error st => .error (r.id, l, st)) (.ok bs)) (.ok [])

/-- Discard every page a proxy has copied. -/
def State.discardCopy (s : State) (e : DirEntry) : State :=
  e.map.foldl (fun (s : State) x => match s.rec? x.2 with
    | some r => (List.range r.locs.length).foldl (fun (s : State) l => s.dropProxyCopy x.2 l) s
    | none => s) s

/-- COPY_VERIFY: the digest of a complete copy is compared with the entry's (R60, R71): a copy that differs is discarded and fetched
again, and a page that fails its check or its decode fails as any read of it (R175, R290). -/
def State.copyVerify (s : State) (slot : Nat) : State :=
  match s.dir? slot with
  | none => s
  | some e =>
    let parentKnown := e.parent = 0 || (s.entryOf e.parent).isSome
    if !e.proxy ∨ e.copyVerified ∨ !s.copyComplete e ∨ !parentKnown then s
    else match s.modelOf e.fingerprint with
      | none => s
      | some m =>
        match s.copyContent e m with
        | .error (id, l, st) => s.recFailed id l st (s.decoderAt id l)
        | .ok raw =>
          if digest256 (digestHead m.fingerprint e.fmt e.depth (s.parentDigest e.parent) ++ raw) = e.digest then
            s.modDir slot fun e => { e with copyVerified := true }
          else
            let s := (s.discardCopy e).freeIdleProxies.note "PREFIX_COPY_DIFFERS" (evSource 11 e.domain) e.handle
            match s.dir? slot with
            | some e => s.fetchCopy e m
            | none => s

/-! ### Commands -/

def execShadowCompare (found : List RowMismatch) (s : State) : Host.Outcome State Fault Refusal := .next (s.live fun s => s.shadowCompare found)

def execArrayBankFault (bank : Nat) (s : State) : Host.Outcome State Fault Refusal := .next (s.live fun s => s.bankFault bank)

def execBankRebuildEnd (bank : Nat) (s : State) : Host.Outcome State Fault Refusal := .next (s.live fun s => s.bankRebuilt bank)

def execHoleRemoval (table : Nat) (s : State) : Host.Outcome State Fault Refusal := .next (s.live fun s => s.holeRemoval table)

def execIdleWithdraw (slot : Nat) (s : State) : Host.Outcome State Fault Refusal := .next (s.live fun s => s.idleWithdraw slot)

end Sys2Proof.Machine
end

