-- ==== Sys2Proof/Machine/Records.lean ====
section
/-! DEFINITION. The metadata space as stored bytes: the maps of its records (R25, R27, R30, R31, R45, R83, R263, R271), the grains that they
make (R287), and the parity and reconstruction of a protected row (R285, R286). -/

namespace Sys2Proof.Machine

/-! ### Record maps -/

/-- A record from its map: fields as (lowest bit, width, value); bits that no field takes are 0. -/
def packFields (fs : List (Nat × Nat × Nat)) : Nat := sumBy (fun f => f.2.2 % 2 ^ f.2.1 * 2 ^ f.1) fs

/-- `n` bytes of a record whose last four are its check, the CRC-32C of the others. -/
def checkedBytes (n : Nat) (fs : List (Nat × Nat × Nat)) : Bytes :=
  let b := leBytes (n - 4) (packFields fs)
  b ++ leBytes 4 (crc32c b).toNat

def seqStCode : SeqSt → Nat
  | .opened => 1
  | .closing => 2
  | .revoking => 3
  | .faulted => 4

def dirStCode : DirSt → Nat
  | .published => 1
  | .withdrawn => 2
  | .faulted => 3

def extentStCode : ExtentSt → Nat
  | .claiming => 1
  | .active => 2
  | .draining => 3
  | .revoked => 4

def regionStCode : RegionSt → Nat
  | .draft => 1
  | .published => 2
  | .withdrawn => 3
  | .recalling => 4
  | .faulted => 5

/-- Grains of a sequence's private pages in all tiers (grains_held). -/
def State.grainsHeld (s : State) (q : Seq) : Nat :=
  sumBy (fun id => match s.rec? id with
    | some r => if r.published then 0 else sumBy (·.grains) r.locs
    | none => 0) (q.versions.flatMap Version.recIds).eraseDups

/-- Sequence descriptor (R25). -/
def State.seqBytes (s : State) (q : Seq) : Bytes :=
  checkedBytes 256 [(0, 32, q.handle), (32, 12, q.tenant), (44, 10, q.domain), (54, 2, q.layout), (56, 8, q.model), (64, 5, q.fmt),
    (69, 5, q.floor), (74, 3, q.cls), (77, 3, seqStCode q.st), (80, 8, q.horizon), (88, 1, q.cur.twoLevel.toNat), (89, 1, q.sharesBlocks.toNat),
    (90, 1, q.hasPins.toNat), (91, 1, q.segmented.toNat), (92, 1, q.t1held.toNat), (96, 23, q.cur.tokenCount), (128, 20, q.window),
    (148, 20, q.cur.blockCount), (168, 8, q.globals), (192, 32, q.cur.num), (224, 48, q.cur.mapRoot), (288, 64, q.cur.prefixHandle),
    (352, 20, q.cur.prefixDepth), (384, 32, q.t1res), (416, 32, s.grainsHeld q), (448, 8, q.versions.length), (512, 64, q.openedAt)]

/-- Block record (R30). -/
def Rec.bytes (r : Rec) : Bytes :=
  checkedBytes 64 [(0, 23, r.firstToken), (32, 16, r.segment), (48, 7, r.valid), (56, 1, r.published.toNat), (57, 1, r.shared.toNat),
    (58, 1, r.pinned.toNat), (59, 1, r.global.toNat), (60, 1, r.hashed.toNat), (64, 128, r.chainHash.toNat), (192, 48, r.locators),
    (256, 16, r.refs), (272, 8, r.locs.length - 1), (288, 12, r.tenant), (300, 10, r.domain), (320, 32, r.born)]

/-- Page locator (R31). -/
def Loc.bytes (l : Loc) : Bytes :=
  leBytes 16 (packFields [(0, 2, l.tier), (2, 7, l.grains), (9, 40, l.addr), (49, 16, l.table), (65, 5, l.fmt), (70, 8, l.version),
    (78, 8, l.ripening), (86, 1, l.uncoded.toNat), (87, 1, l.moving.toNat), (88, 1, l.pinned.toNat), (89, 1, l.published.toNat),
    (90, 1, l.lost.toNat)])

/-- Directory entry (R45). -/
def DirEntry.bytes (e : DirEntry) : Bytes :=
  checkedBytes 128 [(0, 128, e.hash.toNat), (128, 64, e.fingerprint.toNat), (192, 10, e.domain), (208, 20, e.depth), (228, 3, dirStCode e.st),
    (231, 1, e.proxy.toNat), (232, 1, e.twoLevel.toNat), (233, 1, e.copyVerified.toNat), (240, 16, e.keyGen), (256, 64, e.handle),
    (320, 256, e.digest.toNat), (576, 32, e.refs), (608, 12, e.publisher), (620, 12, e.holder), (632, 5, e.fmt), (640, 48, e.mapRoot),
    (704, 64, e.parent), (768, 20, e.parentDepth), (800, 64, e.publishedAt), (864, 64, e.idleSince)]

/-- Extent record (R263). -/
def State.extentBytes (s : State) (e : Extent) : Bytes :=
  checkedBytes 64 [(0, 16, e.id), (16, 7, e.route), (23, 1, e.resident.toNat), (24, 3, extentStCode e.st), (27, 1, e.forced.toNat),
    (32, 40, e.poolBase), (72, 32, e.grains), (104, 40, e.targetBase), (144, 128, e.tag), (272, 12, e.source), (288, 64, e.since),
    (352, 32, usedIn (s.usedRuns 2) e.poolBase (e.poolBase + e.grains))]

/-- Region version record (R271). -/
def Region.bytesOf (r : Region) : Bytes :=
  checkedBytes 64 [(0, 32, r.id), (32, 32, r.version), (64, 10, r.domain), (74, 3, regionStCode r.st), (80, 12, r.writer), (96, 40, r.base),
    (136, 32, r.grains), (168, 32, r.grants.length), (256, 224, r.digest.toNat)]

/-- Shadow row (R83). -/
def ShadowRow.bytes (x : ShadowRow) : Bytes :=
  checkedBytes 64 [(0, 160, x.value), (160, 160, x.care), (320, 64, x.result), (384, 1, x.valid.toNat), (385, 1, x.first.toNat),
    (386, 2, x.width), (388, 4, x.tag), (392, 12, x.owner)]

/-- Shadow row of a prefix-table entry (R76, R77). -/
def PrefixRow.shadow (r : PrefixRow) : List ShadowRow :=
  let key := if r.isHandle then packFields [(0, 4, 1), (4, 1, 1), (5, 10, r.domain), (15, 64, r.handle)]
    else packFields [(0, 4, 1), (5, 10, r.domain), (15, 16, r.fold), (31, 19, r.depth), (64, 96, r.hashLow)]
  shadowRows 0 key (2 ^ 160 - 1) (packFields [(0, 26, r.slot), (26, 26, r.gen), (52, 1, r.proxy.toNat)]) 1 r.domain

/-- The aligned power-of-two ranges that cover `n` grains from an aligned base, the largest first: base and log of the size (R78). -/
def pow2Ranges (base n : Nat) : List (Nat × Nat) :=
  ((List.range 40).reverse.filter fun i => bit n i).map fun i => (base + n / 2 ^ (i + 1) * 2 ^ (i + 1), i)

/-- Shadow rows of an extent, one for each of its ranges (R78). -/
def Extent.shadow (e : Extent) : List ShadowRow :=
  (pow2Ranges e.poolBase e.grains).flatMap fun (a, i) =>
    shadowRows 0 (extentKey a) (2 ^ 160 - 1 - (2 ^ i - 1) * 2 ^ 4)
      (packFields [(0, 16, e.id), (16, 7, e.route), (23, 1, (e.st == .draining).toNat), (24, 40, e.targetBase + (a - e.poolBase))]) 2 0

/-- Shadow rows of a grant; its result word indexes the region version record (R78). -/
def State.grantShadow (s : State) (g : GrantRow) : List ShadowRow :=
  let n := (s.tray.regions.findIdx? fun r => g.names r).getD 0
  (pow2Ranges g.base g.grains).flatMap fun (a, i) => shadowRows 0 (grantKey g.host a) (2 ^ 160 - 1 - (2 ^ i - 1) * 2 ^ 4) n 6 0

/-- Pages of a block map: each leaf, and above them the root page of a two-level map (R27). -/
def State.mapPieces (s : State) (two : Bool) (root : Nat) (leaves slots : List (Nat × Nat)) : List (Nat × Bytes) :=
  let page := fun (at_ : Nat → Option Nat) => (List.range 512).flatMap fun i => leBytes 8 ((at_ i).getD 0)
  (leaves.map fun (k, a) => (a, page fun i => ((slots.find? fun x => x.1 == 512 * k + i).bind fun x => s.rec? x.2).map (·.address))) ++
    if two then [(root, page fun i => (leaves.find? fun x => x.1 == i).map Prod.snd)] else []

/-! ### The metadata space (R25, R284, R287) -/

/-- The kinds of tables that the metadata space holds, each from an address of its own. -/
inductive MetaTable where
  | seqs | dir | codeTables | extents | regions | grainVersions | farVersions
  | shadows (tag : Nat)
  deriving DecidableEq, Repr

def MetaTable.no : MetaTable → Nat
  | .seqs => 0
  | .dir => 1
  | .codeTables => 2
  | .extents => 3
  | .regions => 4
  | .grainVersions => 5
  | .farVersions => 6
  | .shadows tag => 7 + tag

/-- Where entry `i` of a table of `size`-byte entries lies (log entry 85). -/
def MetaTable.entry (t : MetaTable) (size i : Nat) : Nat := Config.metaTable t.no * 4096 + size * i

/-- Index in the grain version table: the shelf's grains, then each stack's in the order of their addresses (R301). -/
def grainIndex (tier a : Nat) : Nat := if tier = 0 then a else 16384 + t1Stack a * 2 ^ 24 + t1Region a * 2 ^ 23 + t1Slot a

/-- Every shadow row in use: its table, its row there, and the row. -/
def State.shadowPieces (s : State) : List (Nat × Nat × ShadowRow) :=
  let put := fun (tag base : Nat) (l : List ShadowRow) => l.zipIdx.map fun (x : ShadowRow × Nat) => (tag, base + x.2, x.1)
  (s.array.rows.flatMap fun r => put 1 r.row r.shadow)
  ++ (s.extents.flatMap fun e => put 2 (s.extentPos e) e.shadow)
  ++ (s.array.flow4.placed.flatMap fun p => put 3 p.1 (p.2.shadow false))
  ++ (s.array.flow6.placed.flatMap fun p => put 4 (2 * p.1) (p.2.shadow true))
  ++ (s.array.policy.zipIdx.flatMap fun p => put 5 (4 * p.2) p.1.shadow)
  ++ s.array.grants.flatMap fun g => put 6 (s.grantPos g) (s.grantShadow g)

/-- Every record of the metadata space: its address and bytes. -/
def State.metaPieces (s : State) : List (Nat × Bytes) :=
  (s.seqs.flatMap fun q => (MetaTable.seqs.entry 256 q.index, s.seqBytes q) ::
      q.versions.flatMap fun v => s.mapPieces v.twoLevel v.mapRoot v.leaves v.slots)
  ++ (s.recs.flatMap fun r => [(r.address, r.bytes), (r.locators, r.locs.flatMap Loc.bytes)])
  ++ (s.dir.flatMap fun e => (MetaTable.dir.entry 128 e.slot, e.bytes) :: s.mapPieces e.twoLevel e.mapRoot e.leaves e.map)
  ++ (s.tables.map fun t => (MetaTable.codeTables.entry 544 t.id, t.image))
  ++ (s.extents.zipIdx.map fun (e, i) => (MetaTable.extents.entry 64 i, s.extentBytes e))
  ++ (s.tray.regions.zipIdx.map fun (r, i) => (MetaTable.regions.entry 64 i, r.bytesOf))
  ++ (s.grainVers.map fun (tier, a, v) =>
      (if tier ≤ 1 then MetaTable.grainVersions.entry 1 (grainIndex tier a) else MetaTable.farVersions.entry 1 (a + (tier - 2) * 2 ^ 40), leBytes 1 v))
  ++ s.shadowPieces.map fun (x : Nat × Nat × ShadowRow) => ((MetaTable.shadows x.1).entry 64 x.2.1, x.2.2.bytes)

/-- The part of a piece of metadata that lies in [lo, lo + n), behind zeros up to where it begins. -/
def pieceIn (lo n : Nat) (x : Nat × Bytes) : Bytes :=
  if x.1 + x.2.length ≤ lo ∨ lo + n ≤ x.1 then []
  else List.replicate (x.1 - lo) 0 ++ ((x.2.drop (lo - x.1)).take (n - (x.1 - lo)))

/-- Content of metadata grain m: its records, and 0 elsewhere. -/
def State.metaGrain (s : State) (m : Nat) : Bytes :=
  (s.metaPieces.map (pieceIn (m * grainBytes) grainBytes)).foldl xorBytes (List.replicate grainBytes 0)

/-! ### Protected rows (R285 to R287) -/

/-- Data slot of a stack that lies on a protected row; none where the row's parity lies on the stack (R285). -/
def slotOfRow (layout : List Nat) (stack row : Nat) : Option Nat :=
  let n := layout.length
  let j := (layout.findIdx? (· == stack)).getD 0
  let t := row % n
  if t = j then none else some (row / n * (n - 1) + if t < j then t else t - 1)

/-- Metadata grain in a data slot: grain m lies in slot m / n of stack L[m mod n] (R287). -/
def State.metaAt (s : State) (g : PGroup) (stack slot : Nat) : Option Nat :=
  let n := g.layout.length
  match g.layout.findIdx? (· == stack) with
  | none => none
  | some j => if slot * n + j < s.params.metadataGrains then some (slot * n + j) else none

/-- Grain of the direct region, then of the weight cache, in a data slot: behind the metadata copy, one stack after the other (log
entry 15). -/
def State.keptAt (s : State) (g : PGroup) (stack slot : Nat) : Option Nat :=
  let base := cdiv s.params.metadataGrains g.layout.length
  if base ≤ slot ∧ slot < s.keptSlots g.layout.length then some ((slot - base) * 12 + stack) else none

/-- The sealed chunk, and the grain of it, that lies at a place of the weight cache or at a T1 address (R115, R116). -/
def State.chunkGrain (s : State) (cache : Bool) (a : Nat) : Option Bytes :=
  s.weights.findSome? fun w =>
    let hit := if cache then (w.cached.find? fun x => x.2 == a / chunkGrains).map fun x => (x.1, a % chunkGrains)
      else w.locs.zipIdx.findSome? fun ((t, b), c) => if t = 1 ∧ b ≤ a ∧ a < b + chunkGrains then some (c, a - b) else none
    hit.map fun (c, k) => grainContent (w.sealedBytes c) k

/-- A data grain of a protected row that holds no page, as stored: a metadata grain, a grain of the direct region, or one of a sealed weight
chunk, each under its owner at version 0 (R285, R300); nothing where the grain is not written. -/
def State.plainGrain (s : State) (g : PGroup) (stack slot : Nat) : Bytes :=
  let a := t1Addr stack 0 slot
  match s.metaAt g stack slot with
  | some m => s.storedGrain 0 0 1 a 0 (s.metaGrain m)
  | none =>
    match s.keptAt g stack slot with
    | some d =>
      let direct := s.params.directBytes / grainBytes
      if d < direct then s.storedGrain 1 s.params.directTenant 1 a 0 (s.directRead (d * grainBytes) grainBytes)
      else (s.chunkGrain true (d - direct)).elim [] (s.storedGrain 0 0 1 a 0)
    | none => (s.chunkGrain false a).elim [] (s.storedGrain 0 0 1 a 0)

/-- A data grain of a protected row as its stack stores it: a page's, as the row holds it, or one of the others. -/
def State.dataGrain (s : State) (g : PGroup) (row stack : Nat) : Bytes :=
  match slotOfRow g.layout stack row with
  | none => []
  | some i => xorBytes ((s.parityRow g.n row).grain stack) (s.plainGrain g stack i)

/-- The parity grain of a protected row. Its pages' share is folded in write by write; the share of metadata, of the direct region and of
weight chunks follows their content, so that each write of theirs leaves it complete (R285 to R287). -/
def State.parityGrain (s : State) (g : PGroup) (row : Nat) : Bytes :=
  g.layout.foldl (fun b k => match slotOfRow g.layout k row with
    | some i => xorBytes b (s.plainGrain g k i)
    | none => b) (s.parityRow g.n row).parity

/-- A grain of a row reconstructed from the row's other data grains and its parity (R285). -/
def State.reconstruct (s : State) (g : PGroup) (row stack : Nat) : Bytes :=
  (g.layout.filter (· != stack)).foldl (fun b k => xorBytes b (s.dataGrain g row k)) (s.parityGrain g row)

/-! ### A sector of metadata that no reconstruction mends (R26, R289, R291) -/

/-- Records of the metadata space that overlap a sector. -/
def inSector (lo : Nat) (x : Nat × Nat) : Bool := decide (x.1 < lo + sectorBytes ∧ lo < x.1 + x.2)

/-- The copy of a group fails its check in a sector of metadata grain m. Every record there loses that copy, and is loaded at once: it is
repaired from the other, or faulted where none is left (R26, R47, R89, R167, R291). -/
def State.metaSectorFails (s : State) (g : PGroup) (m sector : Nat) : State :=
  let lo := m * grainBytes + sector * sectorBytes
  let bad := fun (hit a b : Bool) => if !hit then (a, b) else if g.n = 0 then (false, b) else (a, false)
  let seqHit := fun (q : Seq) => inSector lo (MetaTable.seqs.entry 256 q.index, 256)
  let recHit := fun (r : Rec) => inSector lo (r.address, 64) || inSector lo (r.locators, 16 * r.locs.length)
  let dirHit := fun (e : DirEntry) => inSector lo (MetaTable.dir.entry 128 e.slot, 128)
  let tableHit := fun (t : CodeTable) => inSector lo (MetaTable.codeTables.entry 544 t.id, 544)
  let shadowHit := fun (tag i : Nat) =>
    let n := if tag = 5 then 4 else if tag = 4 then 2 else 1
    inSector lo ((MetaTable.shadows tag).entry 64 (n * i), 64 * n)
  let seqs := (s.seqs.filter seqHit).map (·.index)
  let recs := (s.recs.filter recHit).map (·.id)
  let dir := (s.dir.filter dirHit).map (·.slot)
  let tables := (s.tables.filter tableHit).map (·.id)
  let s := { s with
    seqs := s.seqs.map fun (q : Seq) => let x := bad (seqHit q) q.mirrorA q.mirrorB; { q with mirrorA := x.1, mirrorB := x.2 }
    recs := s.recs.map fun (r : Rec) => let x := bad (recHit r) r.mirrorA r.mirrorB; { r with mirrorA := x.1, mirrorB := x.2 }
    dir := s.dir.map fun (e : DirEntry) => let x := bad (dirHit e) e.mirrorA e.mirrorB; { e with mirrorA := x.1, mirrorB := x.2 }
    tables := s.tables.map fun (t : CodeTable) => let x := bad (tableHit t) t.mirrorA t.mirrorB; { t with mirrorA := x.1, mirrorB := x.2 } }
  let hit := s.shadows.filter fun x => shadowHit x.1 x.2.1
  let s := s.mapShadow fun tag i x => let y := bad (shadowHit tag i) x.mirrorA x.mirrorB; { x with mirrorA := y.1, mirrorB := y.2 }
  let s := seqs.foldl (fun (s : State) i => s.loadSeq i) s
  let s := s.seqs.foldl (fun (s : State) q => (q.ownBlocks q.cur).foldl (fun (s : State) b => if recs.contains b.2 then s.loadRec q b.2 else s) s) s
  let s := dir.foldl (fun (s : State) i => s.loadEntry i) s.faultBad
  let s := tables.foldl (fun (s : State) i => s.loadTable i) s
  let s := s.dropShadowless shadowHit
  if hit.isEmpty || !s.repairable then s
  else (s.mapShadow fun tag i x => if shadowHit tag i then { x with mirrorA := true, mirrorB := true } else x).note "METADATA_REPAIRED" (evSource 4 (6 * g.n)) m

end Sys2Proof.Machine
end

