-- ==== Sys2Proof/Machine/Memory.lean ====
section
/-! DEFINITION. On-package memory at work (13_on_package_memory): patrol scrub and row repair (R289 to R292), refresh (R293),
the loss of a stack (R295, R296), the rebuild of a parity group (R297) and its lifecycle (R299). -/

namespace Sys2Proof.Machine

def State.modStack (s : State) (n : Nat) (g : Stack → Stack) : State := { s with dram := mapIf (fun x => x.n == n) g s.dram }

def State.modGroup (s : State) (n : Nat) (g : PGroup → PGroup) : State := { s with groups := mapIf (fun x => x.n == n) g s.groups }

def State.memNote (s : State) (name : String) (stack detail : Nat) : State := s.note name (evSource 4 stack) detail

/-! ### Rows, slots and pages -/

/-- T1 address of the grain on a physical row of a stack. -/
def State.addrOfRow (s : State) (stack row : Nat) : Option Nat :=
  if s.protRows ≤ row then some (t1Addr stack 1 (row - s.protRows))
  else match s.groupOf stack with
    | some g => (slotOfRow g.layout stack row).map fun i => t1Addr stack 0 i
    | none => none

/-- Pages of T1 that hold a grain whose address satisfies a test: record and layer. -/
def State.t1PagesAt (s : State) (p : Nat → Bool) : List (Nat × Nat) :=
  s.recs.flatMap fun r => r.locs.zipIdx.filterMap fun (l, i) =>
    if l.tier = 1 ∧ l.grains ≠ 0 ∧ !l.lost ∧ (List.range l.grains).any (fun k => p (l.addr + k)) then some (r.id, i) else none

def State.losePages (s : State) (l : List (Nat × Nat)) : State := l.foldl (fun (s : State) x => s.pageLost x.1 x.2) s

/-- Weight chunks at home in T1 whose grains satisfy a test: model, chunk and first grain (R115). -/
def State.t1ChunksAt (s : State) (p : Nat → Bool) : List (Nat × Nat × Nat) :=
  s.weights.flatMap fun w => w.locs.zipIdx.filterMap fun ((t, a), c) =>
    if t = 1 ∧ !w.lost.contains c ∧ (List.range chunkGrains).any (fun k => p (a + k)) then some (w.model, c, a) else none

def State.loseChunks (s : State) (l : List (Nat × Nat × Nat)) : State := l.foldl (fun (s : State) x => s.chunkLost x.1 x.2.1) s

/-- The group's protected grains. -/
def PGroup.holds (g : PGroup) (a : Nat) : Bool := t1Region a == 0 && g.layout.contains (t1Stack a)

/-- Copies in the weight cache go: each lies on grains of both groups (log entry 15), and is made again when its chunk is read. -/
def State.dropCached (s : State) : State := { s with weights := s.weights.map fun (w : Weights) => { w with cached := [] } }

/-- Pages in a group's protected region. -/
def State.pagesOfGroup (s : State) (g : PGroup) : List (Nat × Nat) :=
  s.t1PagesAt g.holds

/-! ### Metadata copies (R26, R287, R299) -/

/-- Change what stands of every array entry's shadow rows in the two copies. -/
def State.mapMirrors (s : State) (f : Bool → Bool → Bool × Bool) : State :=
  s.mapShadow fun _ _ x => { x with mirrorA := (f x.mirrorA x.mirrorB).1, mirrorB := (f x.mirrorA x.mirrorB).2 }

/-- Every row of a group is unwritten: its relayout, or its loss (R285). -/
def State.unwriteRows (s : State) (g : Nat) : State := { s with parity := s.parity.filter fun r => r.group != g }

/-- The metadata copy in a group is gone: G0 holds copy A, G1 copy B. -/
def State.copyGone (s : State) (g : Nat) : State :=
  let bad := fun (a b : Bool) => if g = 0 then (false, b) else (a, false)
  { s with
    seqs := s.seqs.map fun (q : Seq) => { q with mirrorA := (bad q.mirrorA q.mirrorB).1, mirrorB := (bad q.mirrorA q.mirrorB).2 }
    recs := s.recs.map fun (r : Rec) => { r with mirrorA := (bad r.mirrorA r.mirrorB).1, mirrorB := (bad r.mirrorA r.mirrorB).2 }
    dir := s.dir.map fun (e : DirEntry) => { e with mirrorA := (bad e.mirrorA e.mirrorB).1, mirrorB := (bad e.mirrorA e.mirrorB).2 }
    tables := s.tables.map fun (t : CodeTable) => { t with mirrorA := (bad t.mirrorA t.mirrorB).1, mirrorB := (bad t.mirrorA t.mirrorB).2 } }.mapMirrors bad

/-- Every record lost in both copies is faulted: sequences and block records (R26), directory entries (R47), code tables (R167) and array
entries (R89). -/
def State.faultUnmirrored (s : State) : State :=
  let s := s.seqs.foldl (fun (s : State) q => s.loadSeq q.index) s
  let s := s.seqs.foldl (fun (s : State) q => (q.ownBlocks q.cur).foldl (fun (s : State) b => s.loadRec q b.2) s) s
  let s := s.tables.foldl (fun (s : State) t => s.loadTable t.id) s.faultBad
  s.dropShadowless fun _ _ => true

/-- The copy is written afresh from the other one. -/
def State.copyWritten (s : State) : State :=
  let ok := fun (a b : Bool) => a || b
  { s with
    seqs := s.seqs.map fun (q : Seq) => { q with mirrorA := ok q.mirrorA q.mirrorB, mirrorB := ok q.mirrorA q.mirrorB }
    recs := s.recs.map fun (r : Rec) => { r with mirrorA := ok r.mirrorA r.mirrorB, mirrorB := ok r.mirrorA r.mirrorB }
    dir := s.dir.map fun (e : DirEntry) => { e with mirrorA := ok e.mirrorA e.mirrorB, mirrorB := ok e.mirrorA e.mirrorB }
    tables := s.tables.map fun (t : CodeTable) => { t with mirrorA := ok t.mirrorA t.mirrorB, mirrorB := ok t.mirrorA t.mirrorB } }.mapMirrors fun a b => (ok a b, ok a b)

/-! ### A stack is lost (R295, R296, R299) -/

/-- Class-0 sequences whose home stack is gone take a new home stack, and hold no reservation until their pages lie there (R225, R296). -/
def State.rehomeSeqs (s : State) (gone : Seq → Bool) : State :=
  (s.seqs.filter fun q => q.cls == 0 && gone q).foldl (fun (s : State) q =>
    s.modSeq q.index fun q => { q with homeStack := (s.stacksByRoom (s.t1RegionOf q.tenant)).headD 0, rehome := q.rehome || q.t1held,
                                       t1held := false }) s

/-- Move a weight chunk out of a group, still sealed: to protected grains of the other group, or down the tiers (R94, R297). -/
def State.moveChunkOut (s : State) (model c : Nat) : State :=
  match s.allocPublished 1 chunkGrains none none with
  | some a => s.modWeights model fun w => { w with locs := w.locs.set c (1, a) }
  | none => s.moveChunk model c

/-- Ask the whey path to move every page out of a group, ahead of every other move, and move its weight chunks (R297). Class-0 sequences at
home in it take a home outside, so that their held pages can leave (log entry 146). -/
def State.evacuateGroup (s : State) (g : PGroup) : State :=
  let s := s.rehomeSeqs fun q => s.t1RegionOf q.tenant == 0 && g.layout.contains q.homeStack && !s.regionOpen q.homeStack 0
  let s := (s.t1ChunksAt g.holds).foldl (fun (s : State) x => s.moveChunkOut x.1 x.2.1) s
  (s.pagesOfGroup g).foldl (fun (s : State) x => s.askMove x.1 x.2 1 1 none) s

/-- Every page and weight chunk still in a group is lost, its rows are unwritten and its metadata copy is gone (R299). -/
def State.emptyGroup (s : State) (g : PGroup) (f : PGroup → PGroup) : State :=
  let s := (((s.losePages (s.pagesOfGroup g)).loseChunks (s.t1ChunksAt g.holds)).dropCached.unwriteRows g.n).modGroup g.n f
  (s.copyGone g.n).faultUnmirrored

/-- The group of a lost stack changes state (R299). -/
def State.groupLoses (s : State) (g : PGroup) : State :=
  let left := g.layout.filter fun k => s.stackUp k
  if left.isEmpty then
    (s.emptyGroup g fun g => { g with st := .failed, copyOk := false, rebuild := 0 }).note "GROUP_FAILED" (evSource 4 (6 * g.n)) g.n
  else match g.st with
    | .healthy =>
      if 3 ≤ g.layout.length then (s.modGroup g.n fun g => { g with st := .degraded, rebuild := 1 }).evacuateGroup g
      else ((s.modGroup g.n fun g => { g with st := .exposed }).note "GROUP_EXPOSED" (evSource 4 (6 * g.n)) g.n).advise (poolDetail 11 g.n)
    | .degraded | .exposed =>
      (s.emptyGroup g fun g => { g with st := .healthy, layout := left, copyOk := false, rebuild := 2 }).note "GROUP_LAID_OUT_AGAIN"
        (evSource 4 (6 * g.n)) left.length
    | .failed => s

/-- STACK_LOST: it stays out of service until the next full reset; its cache region's pages are lost, and reads reserved on it are charged to
the stacks that reconstruct its grains (R288, R296). -/
def State.loseStack (s : State) (stack : Nat) : State :=
  if !s.stackUp stack then s
  else
    let cache := s.t1PagesAt fun a => t1Region a == 1 && t1Stack a == stack
    let s := { s with calendar := { s with dram := mapIf (fun x => x.n == stack) (fun x => { x with lost := true }) s.dram }.chargeLost s.calendar }
    let s := (s.modStack stack fun x => { x with lost := true }).memNote "STACK_LOST" stack stack
    let s := match s.groupOf stack with
      | some g => (s.spend 11 g.n).groupLoses g
      | none => s
    ((s.losePages cache).rehomeSeqs fun q => q.homeStack == stack).recompute

/-! ### Scrub and row repair (R289 to R292) -/

/-- Index of the scrub period. -/
def State.scrubPeriod (s : State) : Nat := s.now / max 1 (s.params.scrubHours * 3600 * 470000000)

/-- Corrected errors of a row in this scrub period. -/
def State.rowCount (s : State) (stack row : Nat) : Nat :=
  ((s.stack? stack).bind fun x => x.rowErrs.find? fun e => e.1 == row && e.2.1 == s.scrubPeriod).elim 0 (·.2.2)

def State.setRowCount (s : State) (stack row n : Nat) : State :=
  let k := s.scrubPeriod
  s.modStack stack fun x => { x with rowErrs := (row, k, n) :: x.rowErrs.filter fun e => e.1 != row }

/-- A row without a repair left goes out of use: for a protected row, on every stack of its group. -/
def State.retireRow (s : State) (stack row : Nat) : State :=
  let where_ := if row < s.protRows then (s.groupOf stack).elim [stack] (·.layout) else [stack]
  where_.foldl (fun (s : State) k => s.modStack k fun x => { x with retired := row :: x.retired.filter fun r => r != row }) s

/-- A soft post-package repair of a row, or its retirement (R292). How many repair rows its bank has left is as the stack reports. -/
def State.repairRow (s : State) (stack row : Nat) : State :=
  let s := s.setRowCount stack row 0
  let left := Config.rowRepairs s.free
  let s := { s with free := s.free + 1 }
  if left = 0 then (s.retireRow stack row).advise (poolDetail 10 stack)
  else ({ s with telemetry := { s.telemetry with repairs := s.telemetry.repairs + 1 } }).lowSpares 10 stack (left - 1)

/-- Uncorrectable lines within 1 ms that lose a stack (R295). -/
def lostLines : Nat := 16

/-- Lines lost in the last millisecond, with one more now. -/
def ueNow (now : Nat) (l : List Nat) : List Nat := now :: l.filter fun t => decide (now < t + 470000)

/-- An uncorrectable line is counted and recorded (R289, R295). -/
def State.noteLost (s : State) (stack row sector : Nat) : State :=
  (({ s with telemetry := { s.telemetry with uncorrect := s.telemetry.uncorrect + 1 } }).modStack stack
    fun x => { x with ueTicks := ueNow s.now x.ueTicks }).memNote "LINE_UNCORRECTABLE" stack (row * 32 + sector)

/-- Sector `sector` of kept grain `d` is lost: the lines of the direct region are bad until they are written (R304), a chunk cached
beside it is dropped (R117). -/
def State.keptLost (s : State) (d sector : Nat) : State :=
  let direct := s.params.directBytes / grainBytes
  if d < direct then
    let lines := (List.range 8).map fun j => 256 * d + 8 * sector + j
    { s with directBad := lines ++ s.directBad.filter fun l => !lines.contains l }
  else { s with weights := s.weights.map fun (w : Weights) =>
           { w with cached := w.cached.filter fun x => x.2 != (d - direct) / chunkGrains } }

/-- What a row holds in a sector that no reconstruction mends is lost with it (R289 to R291, R304): a page; a sealed weight chunk at home
there; a line of the direct region, which fails its check from now on (R201); a copy in the weight cache, which goes; a sector of
metadata, whose records are repaired from the other copy at once (R26). A parity grain holds nothing of its own. -/
def State.sectorLost (s : State) (stack row sector : Nat) : State :=
  match s.addrOfRow stack row with
  | none => s
  | some a =>
    let s := (s.t1PagesAt fun x => x == a).foldl (fun (s : State) x => s.pageLost x.1 x.2 (some (a, sector))) s
    let s := s.loseChunks (s.t1ChunksAt fun x => x == a)
    match (if t1Region a = 0 then s.groupOf stack else none) with
    | none => s
    | some g =>
      match s.metaAt g stack (t1Slot a), s.keptAt g stack (t1Slot a) with
      | some m, _ => s.metaSectorFails g m sector
      | none, some d => s.keptLost d sector
      | none, none => s

/-- Owner kind of what lies on a row: a page's; the tenant's for the direct region; the controller's for everything else. -/
def State.ownerKindAt (s : State) (stack row : Nat) : Nat :=
  match s.addrOfRow stack row with
  | none => 0
  | some a =>
    match s.pages.find? fun p => p.tier == 1 && decide (p.addr ≤ a ∧ a < p.addr + p.grains) with
    | some p => p.ownerKind
    | none => match (if t1Region a = 0 then s.groupOf stack else none).bind fun g => s.keptAt g stack (t1Slot a) with
      | some d => (decide (d < s.params.directBytes / grainBytes)).toNat
      | none => 0

/-- A tag that fails (R304): where the second read or the reconstruction passes, the sector is used and rewritten; otherwise its content is
lost, and the row is repaired (R292). The event names stack, grain, sector and owner kind. -/
def State.tagFails (s : State) (stack row sector : Nat) (repaired : Bool) : State :=
  let detail := row * 32 + sector + s.ownerKindAt stack row * 2 ^ 28
  if repaired then s.memNote "SECTOR_REPAIRED" stack detail
  else ((s.memNote "SECTOR_TAG_FAILED" stack detail).sectorLost stack row sector).repairRow stack row

/-- A shelf grain that cannot be read, with the owner kind of its page (R304, R343). -/
def State.shelfFails (s : State) (grain : Nat) : State :=
  let kind := (s.pages.find? fun p => p.tier == 0 && decide (p.addr ≤ grain ∧ grain < p.addr + p.grains)).elim 0 (·.ownerKind)
  (s.note "SECTOR_TAG_FAILED" (evSource 3 (grain / 256)) (grain * 32 + kind * 2 ^ 28)).loseGrain grain

/-- A read of a request is refused, and the request ends INTERNAL_FAULT with an event (R303): its two paths differ, or its consumer does not
accept the sector's echo or CRC-32C (R304; DEDUCED from R338, log entry 148). -/
def State.readRefused (s : State) (req : Nat) (echo : Bool) : State :=
  match s.req? req with
  | none => s
  | some r => (s.faultReq r stInternalFault noBlock noLayer).note (if echo then "READ_ECHO_REFUSED" else "READ_OWNER_REFUSED") (evSource 9 r.fn) req

/-- What the controller does with the result of a line read (R289), at the row and sector where it lies. -/
def State.lineRead (s : State) (stack row sector : Nat) (r : LineResult) : State :=
  if !s.stackUp stack then s
  else match r with
    | .clean => s
    | .one => s
    | .few =>
      let n := s.rowCount stack row + 1
      let s := ({ s with telemetry := { s.telemetry with corrected := s.telemetry.corrected + 1 } }).setRowCount stack row n
      if s.params.rowCeLimit ≤ n then s.repairRow stack row else s
    | .uncorrectable again =>
      let s := s.noteLost stack row sector
      let s := (if row < s.protRows ∧ again then s else s.sectorLost stack row sector).repairRow stack row
      if lostLines ≤ ((s.stack? stack).elim 0 fun x => x.ueTicks.length) then s.loseStack stack else s

/-- What one finding of a read does, before the command that reads goes on (R289, R303, R304, R343, R346). -/
def State.readFault (s : State) (f : ReadFault) : State :=
  match f with
  | .line stack row sector r => s.lineRead stack row sector r
  | .tag stack row repaired sector => if s.stackUp stack then s.tagFails stack row sector repaired else s
  | .shelf grain => s.shelfFails grain
  | .refused req echo => s.readRefused req echo
  | .lane unit lane => s.aesTest unit [lane]

/-- The findings of the reads of a command, in their order. -/
def State.readFaults (s : State) (found : List ReadFault) : State :=
  s.live fun s => found.foldl (fun (s : State) f => s.readFault f) s

/-! ### Rebuild (R297) -/

/-- EVACUATION_END: an empty degraded group is laid out over its survivors; one that still holds pages or weight chunks asks for them again,
with an event where none of them has a place to go. -/
def State.evacuationEnd (s : State) (n : Nat) : State :=
  match s.groups.find? fun g => g.n == n with
  | none => s
  | some g =>
    if g.st ≠ .degraded ∨ g.rebuild ≠ 1 then s
    else if s.groupPages g = 0 ∧ (s.t1ChunksAt g.holds).isEmpty then
      let left := g.layout.filter fun k => s.stackUp k
      ((s.unwriteRows n).modGroup n fun g => { g with layout := left, rebuild := 2, copyOk := false }).copyGone n
    else
      let stuck := !(s.moves.any fun m => m.rank == 1)
      let s := s.evacuateGroup g
      if stuck then (s.note "EVACUATION_WAITS" (evSource 4 (6 * n)) (s.groupPages g)).advise (poolDetail 11 n) else s

/-- REBUILD_METADATA_END: the group's copy is written afresh; a rebuilt group is healthy again. -/
def State.rebuildEnd (s : State) (n : Nat) : State :=
  match s.groups.find? fun g => g.n == n with
  | none => s
  | some g =>
    if g.rebuild ≠ 2 then s
    else ((s.modGroup n fun g => { g with st := .healthy, rebuild := 0, copyOk := true }).copyWritten).note "GROUP_HEALTHY" (evSource 4 (6 * n))
      g.layout.length

/-! ### Commands -/

def execPatrolScrub (stack grain sector : Nat) (r : LineResult) (s : State) : Host.Outcome State Fault Refusal :=
  .next (s.live fun s => s.lineRead stack grain sector r)

/-- REFRESH: twice the rate at 85 °C and above (R293). -/
def execRefresh (stack tempC : Nat) (s : State) : Host.Outcome State Fault Refusal :=
  .next (s.live fun s => s.modStack stack fun x => { x with doubled := decide (85 ≤ tempC) })

def execRefreshManagementRequest (stack : Nat) (s : State) : Host.Outcome State Fault Refusal :=
  .next (s.live fun s => s.modStack stack fun x => { x with served := x.served + 1 })

def execStackLost (stack : Nat) (s : State) : Host.Outcome State Fault Refusal := .next (s.live fun s => s.loseStack stack)

def execEvacuationEnd (pgroup : Nat) (s : State) : Host.Outcome State Fault Refusal := .next (s.live fun s => s.evacuationEnd pgroup)

def execRebuildMetadataEnd (pgroup : Nat) (s : State) : Host.Outcome State Fault Refusal := .next (s.live fun s => s.rebuildEnd pgroup)

/-! ### Commands that read stored data -/

def execWalkBlock (pass : Nat) (found : List ReadFault) (s : State) : Host.Outcome State Fault Refusal :=
  .next ((s.readFaults found).live fun s => s.walkBlock pass)

def execPassResume (pass slot : Nat) (found : List ReadFault) (s : State) : Host.Outcome State Fault Refusal :=
  .next ((s.readFaults found).live fun s => s.passResume pass slot)

def execReadAndRekeyEnd (req : Nat) (found : List ReadFault) (check : SelfCheck) (s : State) : Host.Outcome State Fault Refusal :=
  .next ((s.readFaults found).withReq req fun s r => s.checkedRekey r check)

def execDmaTransferEnd (req : Nat) (ok : Bool) (found : List ReadFault) (check : SelfCheck) (data : Bytes) (s : State) :
    Host.Outcome State Fault Refusal :=
  .next ((s.readFaults found).withReq req fun s r => s.checkedTransfer r ok check data)

def execPageGet (link : Nat) (rd : PageRead) (s : State) : Host.Outcome State Fault Refusal :=
  .next (s.takeFrame link rd.fr 1 [1, 2] 0 false fun s p => if s.isTray then (s.readFaults rd.found).trayPage link p rd.fr
    else if handleHome rd.fr.object ≠ s.params.deviceId ∧ !s.tableUp 1 then s.holdSearch (.pageGet link rd.fr)
    else (s.readFaults rd.found).servePage link p rd.fr)

def execCopyVerify (x : CopyCheck) (s : State) : Host.Outcome State Fault Refusal :=
  .next ((s.readFaults x.found).live fun s => (s.hashCheck x.check true).copyVerify x.slot)

end Sys2Proof.Machine
end

