-- ==== Sys2Proof/Machine/Direct.lean ====
section
/-! DEFINITION. The direct region (R197 to R201): CXL.mem reads and writes of its 64-byte lines by the host. -/

namespace Sys2Proof.Machine

/-- Lines of the HDM range. -/
def State.directLines (s : State) : Nat := s.params.directBytes / 64

/-- The direct module serves CXL.mem: its group is trained and the module in service. -/
def State.directUp (s : State) : Bool :=
  (s.faults.groupsUp.contains s.params.directGroup || s.faults.directAlone) && !s.faults.modulesOut.contains (s.params.directGroup, s.params.directModule)

/-- The direct region has the keys of its tenant: they go with the tenant's removal (R332). -/
def State.directKeyed (s : State) : Bool := s.slotFilled (ownerSlot 1 s.params.directTenant)

/-- The line could not be served: an error on CXL.io, Viral where the host enabled it, and an event (R201). -/
def State.cxlFails (s : State) (line : Nat) (viral : Bool) : State :=
  (({ s with viral := s.viral || viral }).emit (.cxlError line)).note "DIRECT_LINE_FAILED"
    (evSource 6 (s.params.directGroup * 4 + s.params.directModule)) line

/-- A read: the whole line, or, where its check fails or the tenant's keys are gone, no data response, an error, Viral where the
host enabled it, and an event (R200, R201, R332). -/
def State.cxlRead (s : State) (line : Nat) (checkOk viral : Bool) : State :=
  if s.directKeyed && checkOk && !s.directBad.contains line then s.emit (.cxlData line (s.directRead (64 * line) 64))
  else { s with directBad := if checkOk then s.directBad else line :: s.directBad.filter (· != line) }.cxlFails line viral

/-- A write: the line is merged into its sector, made visible to every engine, then completed (R198, R305); discarded where the tenant's keys
are gone (R332). A sector that fails its check takes no merge: nothing is written, and the error is reported (R305; log entry 145). -/
def State.cxlWrite (s : State) (line : Nat) (data : Bytes) : State :=
  if !s.directKeyed then s.emit (.cxlDone line)
  else if s.directBlocked (64 * line) 64 then s.cxlFails line false
  else (s.directWrite (64 * line) (data.take 64)).emit (.cxlDone line)

def execCxlMemRead (line : Nat) (checkOk viral : Bool) (s : State) : Host.Outcome State Fault Refusal :=
  if !s.inService then .next s
  else if s.directLines ≤ line then .fault (.outsideDirectRegion line)
  else .next (if s.directUp then s.cxlRead line checkOk viral else s)

def execCxlMemWrite (line : Nat) (data : Bytes) (s : State) : Host.Outcome State Fault Refusal :=
  if !s.inService then .next s
  else if s.directLines ≤ line then .fault (.outsideDirectRegion line)
  else .next (if s.directUp then s.cxlWrite line data else s)

end Sys2Proof.Machine
end

