-- ==== Sys2Proof/Machine/Identity.lean ====
section
/-! DEFINITION. Identity, tenants and debug unlock (14_identity_and_tenants): the DRBG (R310), SPDM (R315 to R318, R321, R322), model
keys (R324), the whole-device brine (R329), removal and restore of a tenant (R330 to R333) and the debug unlock (R334 to R336). -/

namespace Sys2Proof.Machine

/-- A status that the manual leaves open among BUSY, INVALID and CHECK_FAILED for a refusal (log entry 13). -/
def State.openRefusal (s : State) (conn : Nat) : State :=
  let (d, s) := s.freeNat
  s.reply conn (msBusy + d % 3) []

/-! ### The DRBG -/

def State.drbgFails (s : State) : State :=
  ({ s with island := { s.island with drbgOn := false } }).note "DRBG_HEALTH_FAILURE" (evSource 8 0) 0

def State.drbgPasses (s : State) : State := { s with island := { s.island with drbgOn := true } }

/-! ### The whole-device brine (R329) -/

/-- Every pass ends as by an abort of scope 2 for every function; T0 and staging are lost, and every engine is clean. -/
def State.brineDevice (s : State) : State :=
  let s := s.endAll ((s.reqs.filter fun r => r.phase != .fencing).map (·.id)) stAborted
  let s := s.passes.foldl (fun (s : State) p => s.pageBoundary p.id) s
  let s := { s with staging := [], passes := [], curds := [] }
  let s := (s.t0PagesIn 0 s.params.t0Grains).foldl (fun (s : State) x => s.pageLost x.1 x.2) s
  { s with engines := s.engines.map fun (e : Engine) => { e with dirty := [], brined := s.now } }

def State.commandBrine (s : State) (conn : Nat) : State := s.brineDevice.reply conn msOk []

/-! ### Removing a tenant (R330 to R332) -/

/-- EPOCH goes to every peer (R256, R330). -/
def State.sendEpoch (s : State) (tenant epoch : Nat) : State :=
  let s : State := { s with ports := s.ports.map fun (p : Port) => p.dropKeys 1 tenant }
  s.ports.foldl (fun (s : State) p => match p.id, p.st with
    | .asvis l, .up => s.send l msgEpoch 0 tenant epoch 0 []
    | _, _ => s) s

/-- The tenant's functions as the removal rows of R215 give. -/
def State.revokeFns (s : State) (tenant : Nat) : State :=
  (s.fns.filter fun f => f.tenant == tenant).foldl (fun (s : State) f =>
    match f.code with
    | .ready => s.modFn f.fn fun f => { f with code := .revoked }
    | .drainingHeld => s.refuseHeld f.fn stTenantRevoked
    | .revoked => s
    | .draining => s
    | .unattached => s
    | .absent => s) s

/-- Requests of a tenant that its removal ends: all but a FENCE (R331). -/
def State.workOf (s : State) (tenant : Nat) : List Nat :=
  (s.reqs.filter fun r => r.tenant == tenant && r.phase != .fencing).map (·.id)

/-- Moves of a tenant's own pages. -/
def State.movesOf (s : State) (tenant : Nat) : List Move :=
  s.moves.filter fun m => (s.rec? m.blk).elim false fun r => !r.published && r.tenant == tenant

/-- The removal of an active tenant is taken (R330, and steps 1 and 2 of R331). -/
def State.beginRemoval (s : State) (tenant : Nat) (conn : Option Nat) : State :=
  match s.tenant? tenant with
  | none => s
  | some x =>
    if x.life ≠ .active then s
    else
      let e := (x.epoch + 1) % 65536
      let s := s.modTenant tenant fun x =>
        { x with life := .removing, epoch := e, removeTick := s.now, swept := false, drained := false, answerTo := conn }
      let s := (s.sendEpoch tenant e).revokeFns tenant
      let s := s.endAll (s.workOf tenant) stTenantRevoked
      (s.movesOf tenant).foldl (fun (s : State) m => s.dropMove m) s

/-- A copy in staging is read for a tenant. -/
def State.copyOf (s : State) (tenant : Nat) (c : StagingCopy) : Bool :=
  (c.pin.bind fun p => s.seq? p.index).elim false fun q => q.tenant == tenant

/-- An engine holds rows or private pages of the tenant and runs no curd for others (R331, step 5). -/
def State.holdsTenant (s : State) (tenant : Nat) (e : Engine) : Bool :=
  (e.dirty.any fun o => o.1 == tenant) && !(s.passes.any fun p => p.cluster == e.cluster && p.engines.contains e.slot)

/-- Steps 4 to 6 of R331: keys, engines, array entries. -/
def State.scrubTenant (s : State) (tenant : Nat) : State :=
  let s := { s with staging := s.staging.filter (fun c => !s.copyOf tenant c)
                    txns := s.txns.filter fun (t : Txn) => t.tenant != tenant || (match t.kind with
                      | .release _ => true
                      | .claim _ => true
                      | _ => false) }
  let s := s.zeroise (ownerSlot 1 tenant)
  let clean := fun (e : Engine) => { e with dirty := [], brined := s.now }
  let s := { s with engines := mapIf (s.holdsTenant tenant) clean s.engines }
  { s with array := { s.array with
      flow4 := s.array.flow4.purge tenant
      flow6 := s.array.flow6.purge tenant
      policy := s.array.policy.map fun (p : PolicyRow) => if p.rule.tenant = tenant then { p with present := false } else p } }

/-- TENANT_REMOVAL_DRAINED: the tenant's running work has ended. -/
def State.removalDrained (s : State) (tenant : Nat) : State :=
  match s.tenant? tenant with
  | none => s
  | some x =>
    if x.life ≠ .removing ∨ x.drained ∨ !(s.workOf tenant).isEmpty then s
    else (s.scrubTenant tenant).modTenant tenant fun x => { x with drained := true }

/-- No removal is running. -/
def State.noneRemoving (s : State) : Bool := s.tenants.all fun x => x.life != .removing

/-! ### Debug unlock (R334 to R336, R389) -/

/-- Steps 2 to 5 of R336, once every tenant is removed: the tokens' commands are answered, and other connections close. -/
def State.openJtag (s : State) : State :=
  let tokens := s.dbg.opening
  let s := (s.ports.filter fun p => p.st != .held).foldl (fun (s : State) p => s.quarantine p.id) s
  let s := s.island.sessions.foldl (fun (s : State) x => s.cutSession x.transport) s
  let s := { s with island := { s.island with keys := [], counters := [] } }
  let s := s.brineDevice
  let level := tokens.foldl (fun n (x : Nat × Nat) => max n x.2) s.dbg.st
  let s := { s with dbg := { s.dbg with st := level, unlocks := s.dbg.unlocks + tokens.length, opening := [] } }
  let s := tokens.foldl (fun (s : State) x => (s.note "DEBUG_UNLOCKED" (evSource 8 0) x.2).reply x.1 msOk []) s
  (s.mgmt.conns.filter fun c => !(tokens.any fun x => x.1 == c.n)).foldl (fun (s : State) c => s.closeConn c.n) s

/-- Go on with an accepted unlock once no removal runs. -/
def State.settleUnlock (s : State) : State := if !s.dbg.opening.isEmpty ∧ s.noneRemoving then s.openJtag else s

/-- Debug state that the accepted tokens reach. -/
def State.debugLevel (s : State) : Nat := s.dbg.opening.foldl (fun n x => max n x.2) s.dbg.st

/-- The check of a token that fails, in the order of its fields; 0 when it passes (R334, R335). -/
def State.tokenFails (s : State) (t : Token) : Nat :=
  if t.layout ≠ 1 then 1
  else if t.scope ≠ 1 ∧ t.scope ≠ 2 then 2
  else if t.device ≠ Config.deviceDigest then 3
  else if !(s.dbg.nonce.elim false fun n => n.1 == t.nonce && decide (s.now < n.2 + 28200000000)) then 4
  else if !t.ownerSigOk then 5
  else if t.scope = 2 ∧ !t.vendorSigOk then 6
  else if t.scope ≤ s.debugLevel then 7
  else 0

/-- DEBUG_UNLOCK: a token that fails a check is refused; one that passes starts the removal of every active tenant. Either way
the nonce is consumed. -/
def State.unlock (s : State) (conn : Nat) (t : Token) : State :=
  let n := s.tokenFails t
  let s := { s with dbg := { s.dbg with nonce := none } }
  if n ≠ 0 then (s.note "DEBUG_TOKEN_REFUSED" (evSource 8 0) n).reply conn msCheckFailed [n]
  else
    let s := { s with dbg := { s.dbg with stands := true, opening := s.dbg.opening ++ [(conn, t.scope)] } }
    (s.tenants.foldl (fun (s : State) x => s.beginRemoval x.tenant none) s).settleUnlock

/-- DEBUG_NONCE: a fresh nonce from the DRBG, which fails while the DRBG has stopped (R310, R334). -/
def State.issueNonce (s : State) (conn : Nat) : State :=
  if !s.island.drbgOn then s.openRefusal conn
  else
    let (v, s) := s.draw
    ({ s with dbg := { s.dbg with nonce := some (v, s.now) } }).reply conn msOk [v.toNat]

/-- NONCE_LAPSE: 60 s after issue (R334). -/
def State.lapseNonce (s : State) : State :=
  match s.dbg.nonce with
  | some (_, t) => if t + 28200000000 ≤ s.now then { s with dbg := { s.dbg with nonce := none } } else s
  | none => s

/-! ### Removed, swept, restored -/

/-- TENANT_REMOVED: brine and purge have ended (R331, step 7). -/
def State.tenantGone (s : State) (tenant : Nat) : State :=
  match s.tenant? tenant with
  | none => s
  | some x =>
    if x.life ≠ .removing ∨ !x.drained then s
    else
      let s := s.modTenant tenant fun x => { x with life := .removed, answerTo := none }
      (match x.answerTo with
      | some n => s.reply n msOk []
      | none => s).settleUnlock

/-- Pins that a tenant holds go with it (R333). -/
def State.dropPins (s : State) (tenant : Nat) : State :=
  let loose := fun (l : Loc) => if l.pinBy.elim false (fun p => p.1 == tenant) then { l with pinned := false, pinBy := none } else l
  { s with recs := s.recs.map fun (r : Rec) =>
      let locs := r.locs.map loose
      { r with locs := locs, pinned := locs.any (·.pinned) } }

/-- RECLAIM_SWEEP_END: each sequence of the tenant is freed (R42, R332). -/
def State.reclaimEnds (s : State) (tenant : Nat) : State :=
  match s.tenant? tenant with
  | none => s
  | some x =>
    if x.life ≠ .removed ∨ x.swept then s
    else
      let s := (s.seqs.filter fun q => q.tenant == tenant).foldl (fun (s : State) q => s.freeSeq q.index) s
      ((s.dropPins tenant).modTenant tenant fun x => { x with swept := true }).note "TENANT_SWEPT" (evSource 10 tenant) 0

/-- A policy rule is written again into its rows: the shadow rows to each copy that stands, then the array rows (R92). -/
def PolicyRow.rewritten (p : PolicyRow) (mirrors : Bool × Bool) : PolicyRow :=
  { p with present := true, lost := false, upset := none, mirrorA := mirrors.1, mirrorB := mirrors.2 }

/-- What a restore does (R333). The rows of a rule that were lost for good are not there to be written (R90, R92). -/
def State.restore (s : State) (x : TenantSt) : State :=
  let t := x.tenant
  let s := { s with island := { s.island with draws := 0 } }.fillSlot (ownerSlot 1 t) x.epoch
  let s := s.modTenant t fun x => { x with life := .active, activeSince := s.now, removeTick := 0 }
  let s := if s.params.directBytes ≠ 0 ∧ s.params.directTenant = t then { s with direct := [], directOpen := [], directBad := [] } else s
  let ready := fun (f : Fn) => { f with code := .ready }
  let s := { s with fns := mapIf (fun (f : Fn) => f.tenant == t && f.code == FnCode.revoked) ready s.fns }
  { s with array := { s.array with
      policy := s.array.policy.map fun (p : PolicyRow) => if p.rule.tenant = t then p.rewritten s.newMirrors else p } }

/-- TENANT_RESTORE (R333). -/
def State.restoreCmd (s : State) (conn tenant : Nat) : State :=
  match s.tenant? tenant with
  | none => s.reply conn msInvalid []
  | some x =>
    match x.life with
    | .undefined => s.reply conn msInvalid []
    | .active => s.reply conn msInvalid []
    | .removing => s.reply conn msBusy []
    | .removed =>
      if !x.swept then s.reply conn msBusy []
      else if s.dbg.stands ∨ !s.island.drbgOn then s.openRefusal conn
      else (s.restore x).reply conn msOk []

/-- TENANT_REMOVE: of an active tenant it is answered when the tenant is removed; a second one changes nothing (R330, R382). -/
def State.removeCmd (s : State) (conn tenant : Nat) : State :=
  match s.tenant? tenant with
  | none => s.reply conn msInvalid []
  | some x =>
    match x.life with
    | .undefined => s.reply conn msInvalid []
    | .active => s.beginRemoval tenant (some conn)
    | .removing => s.reply conn msOk []
    | .removed => s.reply conn msOk []

/-! ### SPDM (R315 to R318) -/

/-- Response and error codes of SPDM, as DSP0274 gives them (log entry 14). -/
def spdmDigests : Nat := 0x01
def spdmCertificate : Nat := 0x02
def spdmChallengeAuth : Nat := 0x03
def spdmVersion : Nat := 0x04
def spdmChunkSendAck : Nat := 0x05
def spdmChunkResponse : Nat := 0x06
def spdmMeasurements : Nat := 0x60
def spdmCapabilities : Nat := 0x61
def spdmAlgorithms : Nat := 0x63
def spdmKeyExchangeRsp : Nat := 0x64
def spdmFinishRsp : Nat := 0x65
def spdmHeartbeatAck : Nat := 0x68
def spdmKeyUpdateAck : Nat := 0x69
def spdmEndSessionAck : Nat := 0x6C
def spdmVendorResponse : Nat := 0x7E
def spdmErrorCode : Nat := 0x7F
def errInvalidRequest : Nat := 0x01
def errBusy : Nat := 0x03
def errUnexpectedRequest : Nat := 0x04
def errDecryptError : Nat := 0x06
def errUnsupportedRequest : Nat := 0x07
def errVersionMismatch : Nat := 0x41
def errRequestResynch : Nat := 0x43

def State.spdm (s : State) (t : Transport) (code : Nat) (body : List Nat) : State := s.emit (.spdm t code body)
def State.spdmError (s : State) (t : Transport) (code : Nat) : State := s.spdm t spdmErrorCode [code]

/-- The responder answers on a transport now. -/
def State.spdmOn (s : State) (t : Transport) : Bool :=
  match t with
  | .mgmt n => s.inService && (s.conn? n).isSome
  | .i3c => s.mgmt.i3cAddr.isSome && (s.boot.phase == .training || s.boot.phase == .service || s.boot.phase == .failed)
  | .asvis l => s.inService && (s.port? (.asvis l)).elim false fun p => p.st == .securing
  | .cxl c => s.inService && s.isTray && (s.port? (.cxl c)).elim false fun p => p.st == .securing || p.st == .up
  | .ucie g => s.inService && s.faults.groupsUp.contains g && !s.faults.groups11.contains g && (s.ucie? g).elim false (·.spdm)

/-- Answer a request: `k` runs on the transport's session record. Without a GET_VERSION before it the request is unexpected; after one
that offered no version of R315, its version is declined (R3). -/
def State.respond (s : State) (t : Transport) (k : State → Session → State) : State :=
  if !s.spdmOn t then s
  else
    let s := match t with
      | .mgmt n => s.touch n
      | .i3c => s
      | .asvis _ => s
      | .cxl _ => s
      | .ucie _ => s
    match s.session? t with
    | some x => if x.version = 0 then s.spdmError t errVersionMismatch else k s x
    | none => s.spdmError t errUnexpectedRequest

/-- Answer a request that runs inside an established session; an ended one asks for a resynchronisation (R318). -/
def State.inSession (s : State) (t : Transport) (k : State → Session → State) : State :=
  s.respond t fun s x =>
    match x.st with
    | .established => k s x
    | .ended => s.spdmError t errRequestResynch
    | .negotiated => s.spdmError t errUnexpectedRequest
    | .exchanged => s.spdmError t errUnexpectedRequest

/-- GET_VERSION: the controller speaks 1.2 and 1.3 and uses the highest that the requester offers (`versions` has bit 0 for 1.2 and
bit 1 for 1.3), 0 where it offers neither; what the transport had agreed before goes. -/
def State.spdmGetVersion (s : State) (t : Transport) (versions : Nat) : State :=
  if !s.spdmOn t then s
  else
    let s := s.forgetSession t
    let v := if bit versions 1 then 0x13 else if bit versions 0 then 0x12 else 0
    let s : State := { s with island := { s.island with sessions := s.island.sessions ++
        [{ transport := t, st := .negotiated, secret := 0, version := v, slot := none, root := 0, chunks := [], large := [], updates := 0 }] } }
    s.spdm t spdmVersion [0x12, 0x13]

def State.spdmCaps (s : State) (t : Transport) : State := s.respond t fun s x => s.spdm t spdmCapabilities [x.version]

/-- Algorithms of R315: RSASSA-PSS 3072 with SHA-256, ffdhe3072, AES-256-GCM. -/
def spdmAlgorithmSet : List Nat := [3072, 256, 3072, 256]

def State.spdmAlgos (s : State) (t : Transport) (supported : Bool) : State :=
  s.respond t fun s _ => if supported then s.spdm t spdmAlgorithms spdmAlgorithmSet else s.spdmError t errUnsupportedRequest

/-- A certificate slot is present (R309). -/
def State.certSlot (s : State) (slot : Nat) : Bool := slot == 0 || (slot == 1 && s.island.slot1)

/-- Chain in a certificate slot: the flash's, or the one that the running image carries (R309). -/
def State.certChain (s : State) (slot : Nat) : Bytes := if slot = 0 then Config.certChain else Config.ownerChain s.image.digest

/-- Send a response, and hold its bytes for CHUNK_GET (R315). -/
def State.spdmLarge (s : State) (t : Transport) (code : Nat) (body : List Nat) (bytes : Bytes) : State :=
  (s.modSession t fun x => { x with large := bytes }).spdm t code body

def State.spdmDigests (s : State) (t : Transport) : State :=
  s.respond t fun s _ =>
    let l := ((List.range 8).filter fun i => s.certSlot i).map fun i => (i, (digest256 (s.certChain i)).toNat)
    s.spdmLarge t Machine.spdmDigests (l.flatMap fun x => [x.1, x.2]) (l.flatMap fun x => leBytes 32 x.2)

def State.spdmCert (s : State) (t : Transport) (slot : Nat) : State :=
  s.respond t fun s _ =>
    if !s.certSlot slot then s.spdmError t errInvalidRequest
    else s.spdmLarge t spdmCertificate (slot :: (s.certChain slot).map (·.toNat)) (s.certChain slot)

def State.spdmChallenge (s : State) (t : Transport) (slot : Nat) (nonce : BitVec 256) : State :=
  s.respond t fun s _ =>
    if !s.certSlot slot then s.spdmError t errInvalidRequest
    else s.spdm t spdmChallengeAuth [slot, (Config.sign [spdmChallengeAuth, slot, nonce.toNat]).toNat]

/-- Domain code of the partial reset in progress, or of the last one (R316). -/
def State.resetDomain (s : State) : Nat := (s.resets.active.getLast?).elim s.resets.lastDomain (·.1)

/-- Bit i set: the model key of model index i is held (R316). -/
def State.keyBits (s : State) : Nat := sumBy (fun i => if s.slotFilled (modelKeySlot i) then 2 ^ i else 0) (List.range 256)

/-- Device state, measurement block 8. -/
def State.deviceState (s : State) : Nat :=
  1 + s.isTray.toNat * 2 ^ 16 + Config.stepping % 256 * 2 ^ 24 + s.boot.bootEpoch % 2 ^ 32 * 2 ^ 32 + s.resets.epoch % 2 ^ 32 * 2 ^ 64
    + (!s.resets.active.isEmpty).toNat * 2 ^ 96 + s.resetDomain % 8 * 2 ^ 97 + s.update.st % 4 * 2 ^ 104
    + (if 2 ≤ s.update.st then (s.update.staged.elim 0 fun i => i.digest.toNat) else 0) * 2 ^ 128 + s.keyBits * 2 ^ 384

/-- Value of a measurement block (R316, R317). -/
def State.block (s : State) (i : Nat) : Nat :=
  match i with
  | 1 => (Config.measurement 0 1).toNat
  | 2 => (Config.measurement s.image.digest 2).toNat
  | 3 => (Config.measurement s.image.digest 3).toNat
  | 4 => s.image.digest.toNat
  | 5 => s.image.firmware
  | 6 => s.image.securityVersion
  | 7 => s.dbg.st + s.dbg.unlocks % 256 * 256
  | _ => s.deviceState

/-- DMTF value type of a measurement block, whether its form is raw, and the bytes of its value (R316). -/
def blockForm (i : Nat) : Nat × Bool × Nat :=
  match i with
  | 1 => (0x00, false, 32)
  | 2 => (0x01, false, 32)
  | 3 => (0x01, false, 32)
  | 4 => (0x03, false, 32)
  | 5 => (0x06, true, 4)
  | 6 => (0x07, true, 4)
  | 7 => (0x05, true, 4)
  | _ => (0x04, true, 80)

/-- Value type of a block as the response gives it: bit 7 says that the value is raw. -/
def blockType (i : Nat) : Nat := (blockForm i).1 + (blockForm i).2.1.toNat * 0x80

/-- A block as the response carries it (DSP0274; log entry 14). -/
def State.blockBytes (s : State) (i : Nat) : Bytes :=
  let n := (blockForm i).2.2
  leBytes 1 i ++ leBytes 1 1 ++ leBytes 2 (n + 3) ++ leBytes 1 (blockType i) ++ leBytes 2 n ++ leBytes n (s.block i)

/-- Blocks that a GET_MEASUREMENTS index asks for: all of them, or one. -/
def blocksAsked (index : Nat) : List Nat :=
  if index = 0xFF then [1, 2, 3, 4, 5, 6, 7, 8] else if 1 ≤ index ∧ index ≤ 8 then [index] else []

/-- GET_MEASUREMENTS: index 0 asks for the number of blocks; another answer gives each block's index, type and value. It is signed over the
requester's nonce. -/
def State.spdmMeasure (s : State) (t : Transport) (index : Nat) (nonce : BitVec 256) : State :=
  s.respond t fun s _ =>
    if index ≠ 0 ∧ (blocksAsked index).isEmpty then s.spdmError t errInvalidRequest
    else
      let body := if index = 0 then [8] else (blocksAsked index).flatMap fun i => [i, blockType i, s.block i]
      let sig := (Config.sign (spdmMeasurements :: nonce.toNat :: body)).toNat
      s.spdmLarge t Machine.spdmMeasurements (body ++ [sig]) ((blocksAsked index).flatMap s.blockBytes ++ leBytes 384 sig)

/-- The session pool (R312). -/
def poolSlots : List Nat := (List.range 64).map fun i => 6573 + i

/-- After a debug unlock no KEY_EXCHANGE completes but on the management port and the I3C target (R336). -/
def State.exchangeOpen (s : State) (t : Transport) : Bool :=
  !s.dbg.stands || (match t with
    | .mgmt _ => true
    | .i3c => true
    | .asvis _ => false
    | .cxl _ => false
    | .ucie _ => false)

/-- Slot that a session begun on a transport takes: that of its Asvis link, or the first free one of the pool (R311, R312). -/
def State.sessionSlot (s : State) (t : Transport) : Option Nat :=
  match t with
  | .asvis l => some (portSlot (.asvis l))
  | .mgmt _ => poolSlots.find? fun n => !s.slotFilled n
  | .i3c => poolSlots.find? fun n => !s.slotFilled n
  | .cxl _ => poolSlots.find? fun n => !s.slotFilled n
  | .ucie _ => poolSlots.find? fun n => !s.slotFilled n

/-- KEY_EXCHANGE: a session begins, its secrets in the slot of its link or one of the pool; a full pool answers Busy, with an event. Which ERROR a stopped DRBG or
a debug unlock gives is open. -/
def State.spdmExchange (s : State) (t : Transport) (supported : Bool) : State :=
  s.respond t fun s _ =>
    if !supported then s.spdmError t errUnsupportedRequest
    else if !s.exchangeOpen t ∨ !s.island.drbgOn then
      let (d, s) := s.freeNat
      s.spdmError t (d % 256)
    else
      let s := s.endSession t .negotiated
      match s.sessionSlot t with
      | none => (s.spdmError t errBusy).note "SESSION_POOL_FULL" (evSource 8 0) 0
      | some n =>
        let id := s.ids
        let s := s.bumpId.setKey n 0 (Config.sessionSecret id false) (Config.sessionSecret id true)
        (s.modSession t fun x => { x with st := .exchanged, secret := id, slot := some n, updates := 0 }).spdm t spdmKeyExchangeRsp [n]

/-- FINISH: the session is established; a group session gives the group its weights key and salt, of the response secret, and a counter
from 0 (R322, R325). -/
def State.spdmFinish (s : State) (t : Transport) (verified : Bool) (root : BitVec 256) : State :=
  s.respond t fun s x =>
    match x.st with
    | .negotiated => s.spdmError t errUnexpectedRequest
    | .established => s.spdmError t errUnexpectedRequest
    | .ended => s.spdmError t errRequestResynch
    | .exchanged =>
      if !verified then (s.endSession t .negotiated).spdmError t errDecryptError
      else
        let s := s.modSession t fun x => { x with st := .established, root := root }
        let s := match t with
          | .ucie g =>
            let secret := (x.slot.bind s.keySlot?).elim 0 (·.key2)
            let s := s.setKey (groupKeySlot g) 0 (hkdfKey secret "KT-ZW key") (BitVec.ofNat 256 (ofLeBytes (hkdfExpand secret "KT-ZW salt" [] 4)))
            { s with island := { s.island with counters := (g, 0) :: s.island.counters.filter fun c => c.1 != g } }
          | .mgmt _ => s
          | .i3c => s
          | .asvis _ => s
          | .cxl _ => s
        s.spdm t spdmFinishRsp []

def State.spdmHeartbeat (s : State) (t : Transport) : State := s.inSession t fun s _ => s.spdm t spdmHeartbeatAck []

/-- KEY_UPDATE: the secrets of both directions are updated in the session's slot (log entry 14). -/
def State.spdmUpdate (s : State) (t : Transport) : State :=
  s.inSession t fun s x =>
    let s := match x.slot.bind s.keySlot? with
      | some k => s.setKey k.n k.epoch (updatedSecret 1 k.key) (updatedSecret 1 k.key2)
      | none => s
    (s.modSession t fun x => { x with updates := x.updates + 1 }).spdm t spdmKeyUpdateAck []

/-- END_SESSION: the session's slot is zeroised. -/
def State.spdmEnd (s : State) (t : Transport) : State :=
  s.inSession t fun s _ => (s.spdm t spdmEndSessionAck []).endSession t .negotiated

/-- CHUNK_GET: part of the last response that the transport may take in chunks. -/
def State.spdmChunkOut (s : State) (t : Transport) (index : Nat) : State :=
  s.respond t fun s x =>
    let part := (x.large.drop (index * Config.chunkBytes)).take Config.chunkBytes
    if part.isEmpty then s.spdmError t errInvalidRequest else s.spdm t spdmChunkResponse (index :: part.map (·.toNat))

/-- A request outside the supported set (R315). -/
def State.spdmOther (s : State) (t : Transport) (code : Nat) : State :=
  if s.spdmOn t then s.spdm t spdmErrorCode [errUnsupportedRequest, code] else s

/-! ### Model keys (R324) -/

/-- A session over the management port with a requester chain to the broker root. -/
def State.brokerSession (s : State) (conn : Nat) : Bool :=
  match s.session? (.mgmt conn) with
  | some x => x.st == .established && s.image.brokerRoot != 0 && x.root == s.image.brokerRoot
  | none => false

/-- The check value that the stored header of a model holds. -/
def State.headerCheck (s : State) (model : Nat) : Option (BitVec 64) :=
  (s.weights.find? fun w => w.model == model).map fun w => w.header.keyCheck

/-- Everything R324 checks of a delivery. -/
def State.keyAccepted (s : State) (conn : Nat) (m : ModelRec) (key : BitVec 256) (check : BitVec 64) : Bool :=
  !s.dbg.stands && s.brokerSession conn && modelKeyCheck key == check && s.headerCheck m.index == some (modelKeyCheck key)

def State.deliverKey (s : State) (conn : Nat) (fingerprint : BitVec 64) (key : BitVec 256) (check : BitVec 64) : State :=
  if !s.spdmOn (.mgmt conn) then s
  else
    let s := s.touch conn
    match s.modelOf fingerprint with
    | some m =>
      if s.keyAccepted conn m key check then (s.setKey (modelKeySlot m.index) 0 key).spdm (.mgmt conn) spdmVendorResponse []
      else s.spdmError (.mgmt conn) errInvalidRequest
    | none => s.spdmError (.mgmt conn) errInvalidRequest

def State.withdrawKey (s : State) (conn : Nat) (fingerprint : BitVec 64) : State :=
  if !s.spdmOn (.mgmt conn) then s
  else
    let s := s.touch conn
    match s.modelOf fingerprint with
    | some m =>
      if s.brokerSession conn then (s.zeroise (modelKeySlot m.index)).spdm (.mgmt conn) spdmVendorResponse []
      else s.spdmError (.mgmt conn) errInvalidRequest
    | none => s.spdmError (.mgmt conn) errInvalidRequest

/-! ### Commands -/

/-- Answer an SPDM request. A model key is released to the management port alone (R324). -/
def State.spdmRun (s : State) (t : Transport) : SpdmRequest → State
  | .getVersion v => s.spdmGetVersion t v
  | .getCapabilities => s.spdmCaps t
  | .negotiateAlgorithms ok => s.spdmAlgos t ok
  | .getDigests => s.spdmDigests t
  | .getCertificate slot => s.spdmCert t slot
  | .challenge slot nonce => s.spdmChallenge t slot nonce
  | .getMeasurements index nonce => s.spdmMeasure t index nonce
  | .keyExchange ok => s.spdmExchange t ok
  | .finish ok root => s.spdmFinish t ok root
  | .heartbeat => s.spdmHeartbeat t
  | .keyUpdate => s.spdmUpdate t
  | .endSession => s.spdmEnd t
  | .modelKeyDeliver f key check => (match t with
    | .mgmt conn => s.deliverKey conn f key check
    | _ => if s.spdmOn t then s.spdmError t errInvalidRequest else s)
  | .modelKeyWithdraw f => (match t with
    | .mgmt conn => s.withdrawKey conn f
    | _ => if s.spdmOn t then s.spdmError t errInvalidRequest else s)
  | .other code => s.spdmOther t code

/-- CHUNK_SEND: the chunks gather; after the last the message they make is answered as any other request (R315). -/
def State.spdmChunkIn (s : State) (t : Transport) (data : Bytes) (last : ChunkEnd) : State :=
  let got := (s.session? t).elim data fun x => x.chunks ++ data
  let s' := s.respond t fun s _ =>
    (s.modSession t fun x => { x with chunks := if last = .more then got else [] }).spdm t spdmChunkSendAck [got.length]
  match last with
  | .more => s'
  | .last m => s'.spdmRun t m

/-- The security island runs: VDD_AON is in its window and no full reset holds it. -/
def State.islandOn (s : State) : Bool :=
  match s.boot.phase with
  | .aonOff => false
  | .inReset => false
  | .identity => true
  | .training => true
  | .service => true
  | .failed => true
  | .failedNoId => true
  | .heldInReset => true
  | .stopped _ => true

def execDrbgHealthFailure (s : State) : Host.Outcome State Fault Refusal := .next (if s.islandOn then s.drbgFails else s)

def execDrbgRetestPass (s : State) : Host.Outcome State Fault Refusal := .next (if s.islandOn then s.drbgPasses else s)

def execTenantRemove (conn tenant : Nat) (s : State) : Host.Outcome State Fault Refusal :=
  .next (s.serve conn [2] false fun s _ => s.removeCmd conn tenant)

def execTenantRemovalDrained (tenant : Nat) (s : State) : Host.Outcome State Fault Refusal := .next (s.live fun s => s.removalDrained tenant)

def execTenantRemoved (tenant : Nat) (s : State) : Host.Outcome State Fault Refusal := .next (s.live fun s => s.tenantGone tenant)

def execReclaimSweepEnd (tenant : Nat) (s : State) : Host.Outcome State Fault Refusal := .next (s.live fun s => s.reclaimEnds tenant)

def execTenantRestore (conn tenant : Nat) (s : State) : Host.Outcome State Fault Refusal :=
  .next (s.serve conn [2] false fun s _ => s.restoreCmd conn tenant)

def execDebugNonce (conn : Nat) (s : State) : Host.Outcome State Fault Refusal := .next (s.serve conn [2] false fun s _ => s.issueNonce conn)

def execNonceLapse (s : State) : Host.Outcome State Fault Refusal := .next s.lapseNonce

def execDebugUnlock (conn : Nat) (t : Token) (s : State) : Host.Outcome State Fault Refusal :=
  .next (s.serve conn [2] false fun s _ => s.unlock conn t)

def execDeviceBrine (conn : Nat) (s : State) : Host.Outcome State Fault Refusal := .next (s.serve conn [2] false fun s _ => s.commandBrine conn)

def execGetVersion (t : Transport) (versions : Nat) (s : State) : Host.Outcome State Fault Refusal := .next (s.spdmGetVersion t versions)

def execGetCapabilities (t : Transport) (s : State) : Host.Outcome State Fault Refusal := .next (s.spdmCaps t)

def execNegotiateAlgorithms (t : Transport) (supported : Bool) (s : State) : Host.Outcome State Fault Refusal := .next (s.spdmAlgos t supported)

def execGetDigests (t : Transport) (s : State) : Host.Outcome State Fault Refusal := .next (s.spdmDigests t)

def execGetCertificate (t : Transport) (slot : Nat) (s : State) : Host.Outcome State Fault Refusal := .next (s.spdmCert t slot)

def execChallenge (t : Transport) (slot : Nat) (nonce : BitVec 256) (s : State) : Host.Outcome State Fault Refusal :=
  .next (s.spdmChallenge t slot nonce)

def execGetMeasurements (t : Transport) (index : Nat) (nonce : BitVec 256) (s : State) : Host.Outcome State Fault Refusal :=
  .next (s.spdmMeasure t index nonce)

def execKeyExchange (t : Transport) (supported : Bool) (s : State) : Host.Outcome State Fault Refusal := .next (s.spdmExchange t supported)

def execFinish (t : Transport) (verified : Bool) (requesterRoot : BitVec 256) (s : State) : Host.Outcome State Fault Refusal :=
  .next (s.spdmFinish t verified requesterRoot)

def execHeartbeat (t : Transport) (s : State) : Host.Outcome State Fault Refusal := .next (s.spdmHeartbeat t)

def execKeyUpdate (t : Transport) (s : State) : Host.Outcome State Fault Refusal := .next (s.spdmUpdate t)

def execEndSession (t : Transport) (s : State) : Host.Outcome State Fault Refusal := .next (s.spdmEnd t)

def execChunkSend (t : Transport) (data : Bytes) (last : ChunkEnd) (s : State) : Host.Outcome State Fault Refusal :=
  .next (s.spdmChunkIn t data last)

def execChunkGet (t : Transport) (index : Nat) (s : State) : Host.Outcome State Fault Refusal := .next (s.spdmChunkOut t index)

def execSpdmUnsupportedRequest (t : Transport) (code : Nat) (s : State) : Host.Outcome State Fault Refusal :=
  .next (s.spdmOther t code)

def execModelKeyDeliver (conn : Nat) (fingerprint : BitVec 64) (key : BitVec 256) (keyCheck : BitVec 64) (s : State) :
    Host.Outcome State Fault Refusal := .next (s.deliverKey conn fingerprint key keyCheck)

def execModelKeyWithdraw (conn : Nat) (fingerprint : BitVec 64) (s : State) : Host.Outcome State Fault Refusal :=
  .next (s.withdrawKey conn fingerprint)

end Sys2Proof.Machine
end

