-- ==== Sys2Proof/Machine/ImageCheck.lean ====
section
/-! DEFINITION. The check of a configuration image (16_startup_and_image, R360 to R364): its eight checks in their order, with the
Values columns and cross-references of the records. -/

namespace Sys2Proof.Machine

/-- `lo ≤ n ≤ hi`. -/
def within (lo hi n : Nat) : Bool := decide (lo ≤ n) && decide (n ≤ hi)

/-- No value stands twice. -/
def distinct {α : Type} [BEq α] (l : List α) : Bool := l.eraseDups.length == l.length

/-! ### Sections (R361) -/

/-- Sections that a role allows; 0x01, 0x02 and 0x10 stand in every image. -/
def sectionsFor (tray : Bool) : List Nat :=
  [0x01, 0x02, 0x10, 0x11, 0x12, 0x13, 0x30, 0x31, 0x32, 0x40] ++ if tray then [0x60] else [0x20, 0x21, 0x22, 0x23, 0x24, 0x25, 0x41]

/-- Records and parameters stand in the sections that hold them (16, "Sections"): an image without a section has none of its records.
With the sections a role allows this leaves a tray without models, tenants, functions, UCIe groups or policy rules (R13, R361). -/
def recordsPlaced (i : Image) : Bool :=
  let none_ := fun (id : Nat) (empty : Bool) => empty || i.sections.contains id
  none_ 0x20 i.models.isEmpty && none_ 0x21 i.domains.isEmpty && none_ 0x22 i.tenants.isEmpty && none_ 0x23 i.functions.isEmpty
    && none_ 0x24 (i.ucie.isEmpty && i.params.directBytes == 0) && none_ 0x25 i.weightGrants.isEmpty
    && none_ 0x30 (i.queues.isEmpty && i.strictModes.isEmpty && i.strictClasses.isEmpty) && none_ 0x31 i.gates.isEmpty
    && none_ 0x32 (i.linkModes.isEmpty && i.linkClocks.isEmpty && i.volumes.isEmpty) && none_ 0x40 i.arrayBanks.isEmpty
    && none_ 0x41 i.policies.isEmpty && none_ 0x60 (i.trayExtents.isEmpty && i.trayCxlHosts.isEmpty)

def sectionsOk (i : Image) : Bool :=
  recordsPlaced i && within 3 64 i.sections.length && distinct i.sections && [0x01, 0x02, 0x10].all (fun x => i.sections.contains x)
    && i.sections.all fun x => (sectionsFor i.tray).contains x

/-! ### Records (R364) -/

def modelOk (m : ModelRec) : Bool :=
  within 0 255 m.index && within 1 256 m.layers && within 1 64 m.kvHeads && within 16 1008 m.headDim && within 1 32 m.group
    && [16, 32, 64].contains m.blockTokens && within 1 511 m.kvFormats && within 1 255 m.walkHorizon && within 0 3 m.lookahead
    && within 0 47000 m.curdWindow && within 1 256 m.curdMembers && within 1 16384 m.curdRows && within 1 14 m.curdEngines
    && within 0 3 m.weightsTier

def domainOk (d : DomainRec) : Bool :=
  within 0 1023 d.domain && within 0 1 d.hashSource && within 0 65535 d.keyGen && within 0 (2 ^ 32 - 1) d.publishGrains
    && within 0 86400000 d.idleWithdrawMs && within 0 65535 d.tableQuota

def tenantOk (i : Image) (t : TenantRec) : Bool :=
  within 0 4095 t.tenant && (i.domains.any fun d => d.domain == t.domain) && within 0 (if i.params.protectedGb = 72 then 0 else 1) t.t1Region
    && within 0 255 t.resvRank && within 0 16777215 t.seqQuota && within 0 (2 ^ 32 - 1) t.quotaT1 && within 0 (2 ^ 32 - 1) t.quotaT2
    && within 0 (2 ^ 32 - 1) t.quotaT3 && within 0 i.params.t0Grains t.pinT0 && within 0 t.quotaT1 t.pinT1

def functionOk (i : Image) (f : FunctionRec) : Bool :=
  within 0 1023 f.fn && (i.ucie.any fun u => u.group == f.group) && i.tenants.any fun t => t.tenant == f.tenant

def ucieOk (u : UcieRec) : Bool :=
  within 0 3 u.group && (u.readLatency == 0 || within 10 470 u.readLatency) && u.apertureBase % 2 ^ 26 == 0

def grantOk (i : Image) (g : Nat × Nat) : Bool := (i.models.any fun m => m.index == g.1) && i.tenants.any fun t => t.tenant == g.2

/-- A scheduling queue (R236, R241): the peak rate of one with buckets is at least its committed rate. -/
def queueOk (q : QueueRec) : Bool :=
  within 0 135 q.egress && within 0 7 q.cls && within 1 65535 q.weight && decide (q.rate ≤ q.peak) && within 256 (2 ^ 20) q.quantum

/-- A gate schedule (R242). -/
def gateOk (g : GateRec) : Bool :=
  within 470 470000 g.cycle && within 1 64 g.gates.length && g.gates.all fun e => within 1 470000 e.duration && within 0 255 e.opened

def volumeOk (v : VolumeRec) : Bool :=
  within 0 255 v.index && within 1 (2 ^ 32) v.grains && (if v.local_ then within 0 23 v.cluster && within 0 1 v.port else within 0 4095 v.device && within 0 255 v.volume)

def accountOk (i : Image) (a : AccountRec) : Bool := within 1 5 a.role && (a.role != 4 || i.tenants.any fun t => t.tenant == a.tenant)

/-- Tags that a role allows in a bank; 0 assigns the bank to no table (R74, R75). -/
def bankTagOk (tray : Bool) (t : Nat) : Bool := if tray then [0, 2, 6].contains t else within 0 5 t

/-- A policy rule (R76): tag 5 and its tenant in value bits [15:0], with every care bit of them set; its model is registered. -/
def policyOk (i : Image) (p : PolicyRec) : Bool :=
  (i.tenants.any fun t => t.tenant == p.tenant) && p.value % 2 ^ 16 == 5 + p.tenant * 16 && p.care % 2 ^ 16 == 2 ^ 16 - 1
    && decide (p.value < 2 ^ 640) && decide (p.care < 2 ^ 640) && (i.models.any fun m => m.index == p.result / 2 ^ 16 % 256)

/-- Counts and thresholds of the ripening counters, of this device or of a tray (R99). -/
def ripeningOk (newCount halfLife promote demote : Nat) : Bool :=
  within 0 255 newCount && within 1 60000 halfLife && within 1 255 promote && within 0 254 demote

/-- Ranges of the spare-pool thresholds (R349). -/
def spareRanges : List Nat := [2, 128, 2, 1, 8, 4, 1, 1, 2, 1, 16, 4, 1, 1, 1, 1]

/-- Protected data slots of the device with six stacks to a group (R283, R285). -/
def protectedSlots (gb : Nat) : Nat := gb * 1000000000 / 16384 / 60 * 60 * 10

/-- Ranges of the device parameters. -/
def paramsOk (p : Params) : Bool :=
  within 1 72 p.protectedGb && within 1 168 p.scrubHours && within 1 255 p.rowCeLimit && within 50 100 p.protectedFillPct
    && within 0 15360 p.t0Grains && within 0 7680 p.t0LowWater && within 0 2097152 p.t1LowWater && within 0 (2 ^ 36) p.t2LowWater
    && within 47 4700000 p.t2Latency && within 47 47000000 p.t3Latency && within 100 2000000 p.wheyMbps && within 1 1000 p.stagingTtlUs
    && ripeningOk p.newCount p.halfLifeMs p.promoteT1 p.demoteT1 && within 1 255 p.promoteT0 && within 0 254 p.demoteT0
    && ripeningOk p.trayNewCount p.trayHalfLifeMs p.trayPromote p.trayDemote && within 1 7 p.trayWheyClass && within 1 60000 p.evacuateMs && within 1 30000 p.nvmeTimeoutMs && within 10 10000 p.recallUs
    && within 10 10000 p.aslTimeoutUs && within 10 3600 p.mgmtIdleS && within 1 65535 p.tcpPort && within 0 (2 ^ 32 - 1) p.ipv4
    && within 0 32 p.ipv4Prefix && within 0 (2 ^ 128 - 1) p.ipv6 && within 0 128 p.ipv6Prefix && within 0 (2 ^ 128 - 1) p.gateway
    && within 0 4095 p.deviceId
    && p.directBytes % 268435456 == 0 && within 0 68719476736 p.directBytes && within 0 3 p.directGroup && within 0 3 p.directModule
    && within 10 2000 p.rebuildGbps && within 0 (2 ^ 36) p.farVersionGrains && ((List.range 11).any fun k => p.directoryEntries == 2 ^ (16 + k))
    && within 0 (protectedSlots p.protectedGb) p.weightsCache && within 0 32768 p.importReserve && within 10 600000 p.watchdogMs
    && within 1 10000 p.leaseMs && (p.spares.zip spareRanges).all fun x => decide (x.1 ≤ x.2)

/-- The direct region names a tenant and a group that the image defines (R197). -/
def directOk (i : Image) : Bool :=
  i.params.directBytes == 0 || ((i.tenants.any fun t => t.tenant == i.params.directTenant) && i.ucie.any fun u => u.group == i.params.directGroup)

/-- At most two strict classes at one egress point (R240). -/
def strictOk (i : Image) : Bool :=
  i.strictClasses.all fun c => within 1 7 c.2 && decide ((i.strictClasses.filter fun d => d.1 == c.1).length ≤ 2)

/-- Every record and parameter of the image is legal (R364). -/
def valuesOk (i : Image) : Bool :=
  paramsOk i.params && directOk i && strictOk i && i.models.all modelOk && distinct (i.models.map (·.index)) && distinct (i.models.map (·.fingerprint))
    && i.domains.all domainOk && distinct (i.domains.map (·.domain)) && i.tenants.all (tenantOk i) && distinct (i.tenants.map (·.tenant))
    && i.functions.all (functionOk i) && distinct (i.functions.map (·.fn)) && i.ucie.all ucieOk && distinct (i.ucie.map (·.group))
    && i.weightGrants.all (grantOk i) && i.queues.all queueOk && i.volumes.all volumeOk && within 0 64 i.accounts.length
    && i.accounts.all (accountOk i) && within 0 64 i.arrayBanks.length && i.arrayBanks.all (bankTagOk i.tray)
    && within 0 131072 i.policies.length && i.policies.all (policyOk i) && within 0 24 i.linkModes.length
    && i.linkModes.all (within 0 3) && within 0 24 i.linkClocks.length && i.linkClocks.all (within 0 1) && within 0 32768 i.queues.length && i.gates.all gateOk

/-! ### The eight checks (R360) -/

/-- The owner rule (R363). -/
def ownerOk (e : BootEntry) (i : Image) : Bool :=
  (e.ownerDigest != 0 && i.ownerKey == e.ownerDigest) || (i.ownerChange && i.boundDevice == Config.deviceDigest)

/-- The first check of R360 that an image fails, 0 when it passes; check 8 where `unwrap` asks for it (R373). -/
def imageFails (e : BootEntry) (unwrap : Bool) (i : Image) : Nat :=
  if !i.headerOk || i.imageBytes % 4096 != 0 || !within 1 33554432 i.imageBytes then 1
  else if !i.chainOk then 2
  else if !i.vendorSigOk then 3
  else if i.ownerKey == 0 || !i.ownerSigOk then 4
  else if !ownerOk e i then 5
  else if i.securityVersion < e.svFloor then 6
  else if !i.sectionDigestsOk || !sectionsOk i.taken || !valuesOk i.taken then 7
  else if unwrap && !i.unwrapOk then 8
  else 0

end Sys2Proof.Machine
end

