-- ==== Sys2Proof/Machine/Boot.lean ====
section
/-! DEFINITION. Full resets and the boot (16_startup_and_image): what a full reset leaves (R356, R357), the boot-control log (R359), the
image step with its fallback (R369 to R371), training, memory set-up and service (R367, R368), trials (R372), and partial resets (R318,
R376, R377). -/

namespace Sys2Proof.Machine

/-! ### The boot-control log (R359) -/

/-- The newer of two entries. -/
def newer (a b : Option BootEntry) : Option BootEntry :=
  match a, b with
  | some x, some y => if x.generation < y.generation then some y else some x
  | some x, none => some x
  | none, y => y

/-- The current entry: the valid entry with the highest generation in either device. -/
def State.currentEntry (s : State) : BootEntry := (newer s.flashA.log.head? s.flashB.log.head?).getD .none

/-- Entries of a log, and of one of its four sectors. -/
def logEntries : Nat := 2048
def sectorEntries : Nat := 512

/-- Append an entry: a full log erases its oldest sector first; a device used for reading only takes none. -/
def Flash.append (f : Flash) (e : BootEntry) : Flash :=
  if !f.writable then f
  else { f with log := e :: if logEntries ≤ f.log.length then f.log.take (logEntries - sectorEntries) else f.log }

/-- Write the next entry to device A, then to device B. -/
def State.writeEntry (s : State) (e : BootEntry) : State :=
  let e := { e with generation := s.boot.entry.generation + 1 }
  { s with flashA := s.flashA.append e, flashB := s.flashB.append e, boot := { s.boot with entry := e } }

def State.flash (s : State) (b : Bool) : Flash := if b then s.flashB else s.flashA

def State.setFlash (s : State) (b : Bool) (g : Flash → Flash) : State :=
  if b then { s with flashB := g s.flashB } else { s with flashA := g s.flashA }

/-! ### Full reset (R356, R357, R391, R399) -/

/-- Event records that wait in the queue belong to the boot that ends: they are written before the next BOOT record, unless that boot
has none yet (R352, R354). -/
def Recorder.flush (q : Recorder) : Recorder :=
  if !q.booted then q
  else
    let w := q.queue.foldl (fun (w : Recorder) e => w.write e) { q with queue := [], dropped := 0 }
    let lost : Event := { seq := 0, code := some 0x0002, name := "EVENTS_LOST", source := evSource 0 0, first := 0, last := 0, count := 1,
                          detail := q.dropped % 2 ^ 32 }
    { (if q.dropped = 0 then w else w.write lost) with booted := false }

/-- What a full reset leaves: the flash, the event recorder, and what is outside the controller (R357). An upload in progress is
abandoned, with an event (R375). -/
def State.wiped (s : State) (phase : Phase) : State :=
  let fresh := State.reset
  let t : State := { fresh with
    pending := s.pending, ids := s.ids, free := s.free, flashA := s.flashA, flashB := s.flashB, recorder := s.recorder.flush, out := s.out,
    boot := { fresh.boot with phase := phase } }
  if s.update.st = 1 then t.note "UPLOAD_ABANDONED" (evSource 0 0) 0 else t

/-- The boot begins: the current entry names the device to boot, the other one on trial when pending is set (R369). -/
def State.beginBoot (s : State) : State :=
  let e := s.currentEntry
  { s with
    now := 0
    boot := { s.boot with phase := .identity, bootEpoch := e.bootEpoch, entry := e, selB := if e.pending then !e.activeB else e.activeB,
                          triedOther := false, trial := e.pending, firstFailB := none, identityBad := false, trained := false } }

/-- Reset release: the root PLL takes the primary input, or else the secondary with an event; with neither the controller is held in
reset (R399). -/
def State.release (s : State) (priGone secGone : Bool) : State :=
  let p := s.power
  let s := { s with power := { p with resetN := true, priGone := priGone, secGone := secGone, onPrimary := !priGone,
                                      clkAlarm := priGone || secGone } }
  if priGone && secGone then { s with boot := { s.boot with phase := .heldInReset } }
  else
    let s := s.beginBoot
    if priGone then s.event "REFCLK_SWITCHOVER" (some 0x8E02) (evSource 14 0) 1 else s

/-- A reset by command: it releases itself. -/
def State.commandReset (s : State) : State := (s.wiped .identity).release s.power.priGone s.power.secGone

/-- FULL_RESET: power-on loses the event recorder as well (R351, R356); a command is taken where the controller runs a boot. -/
def State.fullReset (s : State) (cause : ResetCause) : State :=
  let low := fun (s : State) => { s with power := { s.power with resetN := false } }
  match cause with
  | .powerOn => low { s.wiped .inReset with recorder := .empty }
  | .resetN => if s.boot.phase = .aonOff then s else low (s.wiped .inReset)
  | .command =>
    match s.boot.phase with
    | .identity => s.commandReset
    | .training => s.commandReset
    | .service => s.commandReset
    | .failed => s
    | .failedNoId => s
    | .aonOff => s
    | .inReset => s
    | .heldInReset => s
    | .stopped _ => s

/-- RESET_N_RELEASE. -/
def State.resetRelease (s : State) (pri sec : Bool) : State := if s.boot.phase = .inReset then s.release (!pri) (!sec) else s

/-! ### The image step (R352, R360, R369 to R371) -/

/-- The BOOT record goes ahead of every event of the boot. -/
def State.bootRecord (s : State) (flashB failed noId : Bool) : State :=
  let e : Event := { seq := 0, code := some 0x0001, name := "BOOT", source := evSource 0 0, first := s.now, last := s.now, count := 1,
                     detail := s.boot.bootEpoch % 2 ^ 32 + flashB.toNat * 2 ^ 32 + failed.toNat * 2 ^ 33 + noId.toNat * 2 ^ 34 }
  { s with recorder := { s.recorder with queue := e :: s.recorder.queue, booted := true } }

/-- Keys that a boot makes: from the DRBG for the controller, the tenants and the sharing domains, and each K_s unwrapped from the image
(R312, R314). The island loads its own copy of the function table (R319). -/
def State.bootKeys (s : State) (i : Image) : State :=
  let s := { s with island := { s.island with fnTable := i.functions.map fun (f : FunctionRec) => (f.fn, f.tenant) } }.fillSlot 0 0
  let s := i.tenants.foldl (fun (s : State) t => s.fillSlot (ownerSlot 1 t.tenant) 0) s
  i.domains.foldl (fun (s : State) d => (s.fillSlot (ownerSlot 2 d.domain) 0).setKey (hashKeySlot d.domain) 0 d.hashKey) s

/-- The certificate slot of the owner chain: present when its leaf certifies the device's key (R309). -/
def State.ownerChain (s : State) (i : Image) : State :=
  match i.ownerChain with
  | none => s
  | some d =>
    if d = Config.deviceDigest then { s with island := { s.island with slot1 := true } }
    else s.note "OWNER_CHAIN_REFUSED" (evSource 8 0) 0

/-- The image that boots gives the thresholds: spares lost before it was read, a flash device, a core reference or a key-slot bank, count
against them now (R2, R349, R359). -/
def State.bootSpares (s : State) : State :=
  s.faults.sparesUsed.foldl (fun s x => s.lowSpares x.1 x.2.1 (poolSize x.1 - x.2.2)) s

/-- The selected image passes R360: an entry is written, and training begins. On trial the active device stands. -/
def State.imagePasses (s : State) (i : Image) : State :=
  let b := s.boot
  let epoch := (b.entry.bootEpoch + 1) % 2 ^ 32
  let i := i.taken
  let s := { s with boot := { b with phase := .training, bootEpoch := epoch }, image := i }
  let s := s.writeEntry { b.entry with bootEpoch := epoch, pending := false, trial := b.trial, activeB := if b.trial then b.entry.activeB else b.selB }
  (((s.bootKeys i).ownerChain i).bootRecord b.selB false false).bootSpares

/-- The selected image fails R360: the other device's is tried, and after both the controller enters boot failed. -/
def State.imageRefused (s : State) : State :=
  let b := s.boot
  let first := b.firstFailB.getD b.selB
  if b.triedOther then
    { s with boot := { b with phase := .failed, firstFailB := some first } }.bootRecord b.selB true false
  else
    { s with boot := { b with triedOther := true, selB := !b.selB, trial := false, firstFailB := some first } }.note "IMAGE_FALLBACK"
      (evSource 0 0) b.selB.toNat

/-- The identity areas: one that fails its check is rewritten from the other (R358). -/
def State.repairIdentity (s : State) : State :=
  if s.flashA.idAreaOk = s.flashB.idAreaOk then s
  else ((s.setFlash true fun f => { f with idAreaOk := true }).setFlash false fun f => { f with idAreaOk := true }).note "IDENTITY_AREA_REPAIRED"
    (evSource 0 0) s.flashA.idAreaOk.toNat

/-- A flash device cannot be read (R405). No image has given spares.flash yet: the report waits for the one that boots, but a pool that
fails with no spare left is reported whatever its threshold (R349). -/
def State.flashGone (s : State) (b : Bool) : State :=
  let (pin, s) := s.freeNat
  ((s.event "FLASH_SWITCH" (some 0x8E08) (evSource 14 0) (b.toNat + pin % 128 * 2)).setFlash b fun f => { f with writable := false }).lostSpare 13 0

/-- IMAGE_CHECK_END: the image of the selected device, as the flash holds it, with what the identity step found. No image means that
the device cannot be read. -/
def State.imageEnd (s : State) (identityOk : Bool) (image : Option Image) : State :=
  if s.boot.phase ≠ .identity then s
  else
    let idOk := identityOk && (s.flashA.idAreaOk || s.flashB.idAreaOk)
    let s := if idOk then s.repairIdentity else s
    if !idOk then { s with boot := { s.boot with phase := .failedNoId, identityBad := true } }.bootRecord s.boot.selB true true
    else
      let b := s.boot.selB
      match image.map fun i => (s.flash b).slot.getD i with
      | none => (s.flashGone b).imageRefused
      | some i =>
        let n := imageFails s.boot.entry true i
        if n = 0 then s.imagePasses i else (s.note "IMAGE_CHECK_FAILED" (evSource 0 0) (b.toNat + n * 2)).imageRefused

/-! ### Training, memory set-up and service (R367, R368) -/

/-- Stack of a weak row as HBM_TRAINING_END names it: the stack above the row's 23 bits. -/
def weakRow (w : Nat) : Nat × Nat := (w / 2 ^ 23, w % 2 ^ 23)

/-- The calibrated point for the die temperature, within 0.55 to 0.75 V in steps of 5 mV (R392). -/
def State.corePoint (s : State) : Nat := max 550 (min 750 (Config.coreMv s.power.dieC / 5 * 5))

/-- Command the VDD_CORE regulator; the set point moves once it acknowledges. -/
def State.setCore (s : State) : State :=
  { s with power := { s.power with avsWaiting := some s.corePoint } }.emit (.avs s.corePoint)

/-- HBM_TRAINING_END: a stack that fails is lost, and its group starts with the rest (R295, R299); weak rows are repaired (R292). -/
def State.hbmTrained (s : State) (failed weak : List Nat) : State :=
  if s.boot.phase ≠ .training ∨ s.boot.trained then s
  else
    let lose := fun (x : Stack) => if failed.contains x.n then { x with lost := true } else x
    let start := fun (g : PGroup) =>
      let l := g.layout.filter fun k => !failed.contains k
      { g with layout := l, st := if l.isEmpty then .failed else .healthy, copyOk := !l.isEmpty }
    let s := { s with dram := s.dram.map lose, groups := s.groups.map start, boot := { s.boot with trained := true } }
    let s := (failed.eraseDups.filter fun k => k < 12).foldl (fun (s : State) k => (s.memNote "STACK_LOST" k k).spend 11 (k / 6)) s
    (weak.foldl (fun (s : State) w => s.repairRow (weakRow w).1 (weakRow w).2) s).setCore

/-- The function table of a boot (R215). -/
def bootFns (i : Image) : List Fn :=
  i.functions.map fun f =>
    { fn := f.fn, group := f.group, tenant := f.tenant, code := if f.enabled then .unattached else .absent, version := 0, attach := 0, k := 0,
      early := [], stamped := [], window := [], abortSlot := [], abortCount := 0, staleStamps := 0, attachStatus := 0xFF, rings := [],
      held := none, shutdown := none, lastFence := 0, fails := [] }

/-- Tenants that the image defines are active (R333, "Tenant lifecycle"). -/
def bootTenants (i : Image) (now : Nat) : List TenantSt :=
  i.tenants.map fun t =>
    { tenant := t.tenant, life := .active, activeSince := now, swept := false, drained := false, epoch := 0, removeTick := 0, answerTo := none }

/-- A link or port as it boots. -/
def bootPort (id : PortId) (st : PortSt) (now : Nat) : Port :=
  { id := id, st := st, version := 0, rate := 0, width := 0, peer := none, session := false, dirOk := false, txSeq := 0, rxSeq := 0,
    discards := [], errors := 0, credits := [], peerCycle := 0, peerGates := [], buffer := [], lastRx := 0, lastTx := 0, since := now,
    left := some now, resetting := false }

/-- Ports of a cluster by its mode (R249, R261). -/
def clusterPorts (c mode now : Nat) : List Port :=
  match mode with
  | 1 => (List.range 4).map fun k => bootPort (.asvis (4 * c + k)) .training now
  | 2 => [bootPort (.cxl c) .training now]
  | 3 => (List.range 2).map fun p => bootPort (.nvme c p) .training now
  | _ => (List.range 4).map fun k => bootPort (.asvis (4 * c + k)) .held now

/-- Array banks with the table that the image gives each (R74). -/
def bootBanks (i : Image) : List Bank :=
  (List.range 66).map fun n => { Bank.atBoot n with tag := i.arrayBanks.getD n 0 }

/-- Policy rows as the boot lays them out, in the order of R80, with their shadow rows in each copy that stands (R92). -/
def bootPolicy (i : Image) (mirrors : Bool × Bool) : List PolicyRow :=
  policyOrder (i.policies.map fun p => { rule := p, present := true, mirrorA := mirrors.1, mirrorB := mirrors.2 })

/-- Egress points with their selector modes (R240, R241). -/
def bootEgress (i : Image) : List Egress :=
  (List.range 136).map fun n =>
    { n := n, mode := ((i.strictModes.find? fun m => m.1 == n).elim 0 (·.2)), v := 0, pointer := 0, served := 0, gate := 0, busy := 0 }

/-- MEMORY_SETUP_END: the tables of the image are written, and the controller enters service. -/
def State.memorySetup (s : State) : State :=
  let i := s.image
  let mode := fun (c : Nat) => i.linkModes.getD c 0
  { s with
    fns := bootFns i
    tenants := bootTenants i s.now
    ports := (List.range 24).flatMap fun c => clusterPorts c (mode c) s.now
    clusters := (List.range 24).map fun c =>
      { n := c, mode := mode c, lanesBad := [], spareSpent := false, pclk := 2 ≤ mode c && i.linkClocks.getD c 0 == 0 }
    array := { s.array with banks := bootBanks i, policy := bootPolicy i s.newMirrors }
    dirFree := { fresh := 0, limit := i.params.directoryEntries, freed := [] }
    tabFree := { fresh := 1, limit := 65536 - i.params.importReserve, freed := [] }
    impFree := { fresh := 65536 - i.params.importReserve, limit := 65536, freed := [] }
    queues := i.queues.zipIdx.map fun (c, k) => Queue.ofCfg c k
    egress := bootEgress i
    tray := { s.tray with extents := i.trayExtents.map fun (b, n, r) => { base := b, grains := n, resident := r, owner := none } } }

/-- The image has proven itself: an entry with its device active, trial clear, and the floor and owner of R362 and R363. -/
def State.proven (s : State) : State :=
  let b := s.boot
  let i := s.image
  let e := { b.entry with trial := false, activeB := b.selB, svFloor := max b.entry.svFloor i.securityVersion, ownerDigest := i.ownerKey }
  let s := { s with boot := { b with trial := false } }
  if e = b.entry then s else s.writeEntry e

def State.serviceBegins (s : State) : State :=
  if s.boot.phase ≠ .training ∨ !s.boot.trained then s
  else
    let s := s.memorySetup.proven
    { s with boot := { s.boot with phase := .service } }

/-- Ticks from release within which service begins (R367). -/
def serviceBound : Nat := 2820000000

/-- TRIAL_TIMEOUT: a trial image has not reached service; the controller resets onto the previous image (R372). -/
def State.trialTimeout (s : State) : State :=
  if s.boot.phase ≠ .training ∨ !s.boot.trial ∨ s.now < serviceBound then s
  else
    let s := s.note "TRIAL_FAILED" (evSource 0 0) s.boot.selB.toNat
    (s.writeEntry { s.boot.entry with pending := false, trial := false }).commandReset

/-- UCIE_TRAINING_END: a group with a Zarfy module in service comes up; its functions may attach (R197, R368). In tray role the modules
are held (R13). -/
def State.ucieUp (s : State) (g : Nat) (x : UcieTrained) (corrected : List (Nat × LaneFix)) : State :=
  let left := (s.zarfyModules g).length
  if s.isTray ∨ (s.boot.phase ≠ .training ∧ s.boot.phase ≠ .service) ∨ (s.ucie? g).isNone ∨ left = 0 ∨ s.faults.groupsUp.contains g then s
  else
    let s := x.repaired.foldl (fun (s : State) m => s.laneRepair g m) s
    let s := corrected.foldl (fun (s : State) x =>
      s.event "LANE_CORRECTED" (some 0x0E05) (evSource 6 (g * 4 + x.1)) (laneFixDetail x.2)) s
    let old := s.faults.groups11.filter (· != g)
    { s with faults := { s.faults with groupsUp := g :: s.faults.groupsUp, groups11 := if x.ucie11 then g :: old else old } }

/-! ### Partial resets (R318, R376, R377) -/

/-- Domain codes of R316. -/
def domEngines : Nat := 1
def domLinks : Nat := 2
def domGroup : Nat := 3
def domFunction : Nat := 4

/-- Ports of a link cluster. -/
def State.portsOf (s : State) (c : Nat) : List PortId := (s.ports.filter fun p => clusterOfPort p.id == c && p.st != .held).map (·.id)

/-- A supply whose pages an engine cluster's page coder codes has not committed: its sequence's home stack stands there. -/
def State.codedBy (s : State) (c : Nat) (r : Req) : Bool :=
  (r.phase == .started || r.phase == .ready) && (match r.desc with
    | .append f => (s.seqOf r.tenant f.seq).elim false fun q => s.coderFor q.homeStack == c
    | .replace f => (s.seqOf r.tenant f.seq).elim false fun q => s.coderFor q.homeStack == c
    | _ => false)

/-- The engine cluster resets: its passes end, commits with its page coder end, and its calendar has no capacity. -/
def State.resetEngines (s : State) (c : Nat) : State :=
  let s := (List.range 16).foldl (fun (s : State) p => s.endPasses c p) s
  let s := s.endAll ((s.reqs.filter fun r => s.codedBy c r).map (·.id)) stInternalFault
  s.recompute

/-- The module group resets: its functions as by a function reset, its session, its gate state. -/
def State.resetGroup (s : State) (g : Nat) : State :=
  let s := (s.resetGroupFns g).cutSession (.ucie g)
  { s with faults := { s.faults with groupsUp := s.faults.groupsUp.filter (· != g)
                                     directAlone := s.faults.directAlone && s.params.directGroup != g }
           egress := mapIf (fun (e : Egress) => e.n == g) (fun e => { e with gate := 0 }) s.egress }

/-- SPDM sessions that a link or port carried end (R318). -/
def State.cutPort (s : State) (p : PortId) : State :=
  match p with
  | .asvis l => s.cutSession (.asvis l)
  | .cxl c => s.cutSession (.cxl c)
  | .nvme _ _ => s

/-- What a partial reset does at its start. -/
def State.resetDomainNow (s : State) (domain inst : Nat) : State :=
  if domain = domFunction then s.resetFn inst
  else if domain = domGroup then s.resetGroup inst
  else if domain = domLinks then (s.portsOf inst).foldl (fun (s : State) p => (s.cutPort p).toTraining p) s
  else s.resetEngines inst
/-- Begin a partial reset, or join the one that its domain is in. -/
def State.beginPartial (s : State) (domain inst : Nat) (conn : Option Nat) : State :=
  let wait := conn.toList
  let here := fun (x : Nat × Nat × List Nat) => x.1 == domain && x.2.1 == inst
  if s.resets.active.any here then
    { s with resets := { s.resets with active := mapIf here (fun x => (x.1, x.2.1, x.2.2 ++ wait)) s.resets.active } }
  else
    let r := s.resets
    let s := { s with resets := { epoch := (r.epoch + 1) % 2 ^ 32, active := r.active ++ [(domain, inst, wait)], lastDomain := domain } }
    s.resetDomainNow domain inst

/-- Every request of a function has its record and the window is in attach mode. -/
def State.fnReset (s : State) (fn : Nat) : State :=
  (s.shutdownEnd fn).modFn fn fun f => if f.shutdown.isNone then { f with window := [], abortSlot := [], abortCount := 0 } else f

/-- What a partial reset does at its end: engines are clean, and capacity returns. -/
def State.endDomain (s : State) (domain inst : Nat) : State :=
  if domain = domFunction then s.fnReset inst
  else if domain = domGroup then ((s.fns.filter fun f => f.group == inst).map (·.fn)).foldl (fun (s : State) n => s.fnReset n) s
  else if domain = domLinks then s
  else
    let clean := fun (e : Engine) => { e with dirty := [], brined := s.now }
    ({ s with engines := mapIf (fun e => e.cluster == inst) clean s.engines }).dispatch

/-- The functions of the domain have left their shutdowns. -/
def State.domainSettled (s : State) (domain inst : Nat) : Bool :=
  s.fns.all fun f => !((domain == domFunction && f.fn == inst) || (domain == domGroup && f.group == inst)) || f.shutdown.isNone

/-- PARTIAL_RESET_END: the commands that asked for it are answered. -/
def State.partialEnd (s : State) (domain inst : Nat) : State :=
  match s.resets.active.find? fun x => x.1 == domain && x.2.1 == inst with
  | none => s
  | some x =>
    let r := s.resets
    let left := r.active.filter fun y => !(y.1 == domain && y.2.1 == inst)
    let t := { s with resets := { r with active := left, lastDomain := domain } }.endDomain domain inst
    if !t.domainSettled domain inst then s
    else x.2.2.foldl (fun (s : State) n => s.reply n msOk []) t

/-- MODULE_GROUP_LINK_LOSS: the controller resets the group on its own (R376). -/
def State.groupLinkLoss (s : State) (g : Nat) : State := if s.faults.groupsUp.contains g then s.beginPartial domGroup g none else s

/-! ### Commands -/

def execFullReset (cause : ResetCause) (s : State) : Host.Outcome State Fault Refusal := .next (s.fullReset cause)

def execResetNRelease (priPresent secPresent : Bool) (s : State) : Host.Outcome State Fault Refusal := .next (s.resetRelease priPresent secPresent)

def execImageCheckEnd (identityOk : Bool) (image : Option Image) (s : State) : Host.Outcome State Fault Refusal :=
  .next (s.imageEnd identityOk image)

def execHbmTrainingEnd (failed weakRows : List Nat) (s : State) : Host.Outcome State Fault Refusal := .next (s.hbmTrained failed weakRows)

def execMemorySetupEnd (s : State) : Host.Outcome State Fault Refusal := .next s.serviceBegins

def execTrialTimeout (s : State) : Host.Outcome State Fault Refusal := .next s.trialTimeout

def execUcieTrainingEnd (group : Nat) (repaired : UcieTrained) (corrected : List (Nat × LaneFix)) (s : State) :
    Host.Outcome State Fault Refusal :=
  .next (s.ucieUp group repaired corrected)

def execPartialResetEnd (domain inst : Nat) (s : State) : Host.Outcome State Fault Refusal := .next (s.live fun s => s.partialEnd domain inst)

def execModuleGroupLinkLoss (group : Nat) (s : State) : Host.Outcome State Fault Refusal := .next (s.live fun s => s.groupLinkLoss group)

end Sys2Proof.Machine
end

