-- ==== Sys2Proof/Machine/Mgmt.lean ====
section
/-! DEFINITION. The commands of the management port (17_management_port): connections (R378 to R381), the status block, telemetry, events
and traces (R384 to R386) with the coarsening of R326, staged updates and the recovery upload (R370, R373 to R375, R383), resets, link
holds, weights and volumes, and the board attachment (R387). -/

namespace Sys2Proof.Machine

/-! ### Connections (R379 to R381) -/

/-- MGMT_CONNECTION: a TCP connection to another port than mgmt.tcp_port is not answered (R378). A ninth connection, a failed handshake
and a certificate without an account are refused. In boot failed there are no accounts: the connection has role 0 (R370, R383). -/
def State.connect (s : State) (port : Nat) (tlsOk : Bool) (cert : Option (BitVec 256)) (owner : Bool) : State :=
  if !s.portOn ∨ s.boot.phase = .failedNoId ∨ port ≠ s.params.tcpPort then s
  else
    match (List.range 8).find? fun n => (s.conn? n).isNone with
    | none => s.note "CONNECTION_REFUSED" (evSource 0 0) 0
    | some n =>
      let add := fun (role tenant : Nat) =>
        { s with mgmt := { s.mgmt with conns := s.mgmt.conns ++ [{ n := n, role := role, tenant := tenant, last := s.now, owner := owner }] } }
      if !tlsOk then s
      else if s.boot.phase = .failed then add 0 0
      else match cert.bind fun k => s.image.accounts.find? fun a => a.key == k with
        | some a => add a.role a.tenant
        | none => s.note "CERTIFICATE_UNKNOWN" (evSource 0 0) 0

/-- MGMT_IDLE_TIMEOUT (R380). -/
def State.idleClose (s : State) (conn : Nat) : State :=
  match s.conn? conn with
  | some c => if s.portOn ∧ c.last + s.params.mgmtIdleS * 470000000 ≤ s.now then s.closeConn conn else s
  | none => s

/-- A client closes its connection: its session ends (R388). -/
def State.clientClose (s : State) (conn : Nat) : State := if (s.conn? conn).isSome ∧ s.portOn then s.closeConn conn else s

/-- Largest body of a message. -/
def bodyLimit : Nat := 65600

/-- MGMT_UNKNOWN_COMMAND: an illegal kind or body length closes the connection; an unlisted command is answered UNKNOWN. -/
def State.unknownCommand (s : State) (conn kind bodyBytes : Nat) : State :=
  match s.conn? conn with
  | none => s
  | some _ =>
    if !s.portOn then s
    else if 3 ≤ kind ∨ bodyLimit < bodyBytes then s.closeConn conn
    else (s.touch conn).reply conn msUnknown []

/-! ### Coarsened readings (R326) -/

/-- A counter as a reader without a management role sees it. -/
def coarseCount (n : Nat) : Nat := n / 1024 * 1024

/-- A role that reads exactly. -/
def exactRole (role : Nat) : Bool := role == 1 || role == 2 || role == 3

/-- Power and hottest temperature for a reader. -/
def State.powerFor (s : State) (exact : Bool) : Nat := if exact then s.power.powerW else s.coarse.powerW / 5 * 5
def State.tempFor (s : State) (exact : Bool) : Nat := if exact then max s.power.dieC s.power.stackC else s.coarse.tempC / 2 * 2

/-- boot_state of the status block. -/
def bootState : Phase → Nat
  | .identity => 0
  | .training => 1
  | .service => 2
  | .failed => 3
  | .failedNoId => 3
  | .stopped _ => 4
  | .aonOff => 0
  | .inReset => 0
  | .heldInReset => 0

/-- The status block. -/
def State.statusBlock (s : State) (exact : Bool) : Nat :=
  let time := if exact then s.now else s.now / 470 * 470
  bootState s.boot.phase + s.isTray.toNat * 2 ^ 3 + s.faults.service.toNat * 2 ^ 4 + s.update.st % 4 * 2 ^ 5
    + (decide (0 < s.dbg.st)).toNat * 2 ^ 7 + (decide (s.boot.phase = .failedNoId)).toNat * 2 ^ 8 + s.boot.bootEpoch % 2 ^ 32 * 2 ^ 16
    + s.resets.epoch % 2 ^ 32 * 2 ^ 48 + time % 2 ^ 64 * 2 ^ 80 + s.powerFor exact % 2 ^ 16 * 2 ^ 144 + s.tempFor exact % 2 ^ 8 * 2 ^ 160
    + s.power.stage % 2 ^ 8 * 2 ^ 168

/-- The board attachment answers: it has its address and the controller is not stopped or in reset (R387). -/
def State.boardOn (s : State) : Bool := s.portOn && s.mgmt.i3cAddr.isSome

/-- A client that boot failed serves its reads to: one that chains to the owner's key, or any where no owner is set (R383). -/
def State.failedReader (s : State) (c : Conn) : Bool := s.boot.entry.ownerDigest == 0 || c.owner

/-- Serve a read that boot failed offers too: on the board attachment where `board`, and on a connection of a role. -/
def State.serveRead (s : State) (conn : Nat) (roles : List Nat) (board : Bool) (k : State → Bool → State) : State :=
  if conn = boardConn then (if s.boardOn ∧ board then k s false else s)
  else if s.boot.phase = .failed then
    match s.conn? conn with
    | some c => if s.failedReader c then k (s.touch conn) false else (s.touch conn).reply conn msRoleDenied []
    | none => s
  else s.serve conn roles true fun s c => k s (exactRole c.role)

/-- STATUS_READ. A thermal trip leaves it answered, with boot_state 4 (log entry 21). -/
def State.statusRead (s : State) (conn : Nat) : State :=
  if s.boot.phase = .stopped .thermal then
    match s.conn? conn with
    | some c => if c.role = 5 then s.reply conn msRoleDenied [] else s.reply conn msOk [s.statusBlock (exactRole c.role)]
    | none => s
  else s.serveRead conn [1, 2, 3, 4] true fun s exact => s.reply conn msOk [s.statusBlock exact]

/-! ### Events and traces (R385, R386) -/

/-- Oldest sequence number that the ring still holds. -/
def Recorder.oldest (q : Recorder) : Nat := q.next - 65536

/-- The record with a sequence number: in the ring, or in the first-events area. -/
def Recorder.find (q : Recorder) (seq : Nat) : Option Event :=
  match q.ring.find? fun e => e.seq == seq with
  | some e => some e
  | none => q.firsts.find? fun e => e.seq == seq

/-- EVENT_READ: records in order up to the newest one. -/
def State.eventsFrom (s : State) (conn first count : Nat) : State :=
  let q := s.recorder
  if count = 0 ∨ 64 < count then s.reply conn msInvalid []
  else
    let want := (List.range count).map fun i => first + i
    let want := want.filter fun n => n < q.next
    if want.any fun n => decide (1024 ≤ n ∧ n < q.oldest) then s.reply conn msOverwritten [q.oldest]
    else s.emit (.events conn (q.next - 1) (want.filterMap q.find))

/-- EVENT_READ is for roles 1 to 3, and for the board attachment where the controller failed without identity (R371, R387). -/
def State.eventRead (s : State) (conn first count : Nat) : State :=
  s.serveRead conn [1, 2, 3] (s.boot.phase == .failedNoId) fun s _ => s.eventsFrom conn first count

/-- TRACE_READ: a function's last 4,096 completions. -/
def State.traceRead (s : State) (conn fn : Nat) : State :=
  s.serve conn [1, 3] false fun s _ =>
    if (s.fn? fn).isNone then s.reply conn msInvalid []
    else s.emit (.traces conn (((s.trace.filter fun x => x.fn == fn).take traceKept).map fun x =>
      [x.stamp, x.admission, x.firstByte, x.slotSeq, x.status, x.opcode]))

/-! ### Telemetry (R384) -/

/-- Telemetry groups, numbered in the order of their table. -/
def tgQueues : Nat := 0
def tgRequests : Nat := 1
def tgCapacity : Nat := 2
def tgCurds : Nat := 3
def tgEngines : Nat := 4
def tgMemory : Nat := 5
def tgFabric : Nat := 6
def tgPower : Nat := 7

/-- What a queue counts. -/
def Queue.counts (q : Queue) : List Nat := q.depthHist ++ q.delayHist ++ [q.maxDepth, q.maxDelay]

/-- Queues of an egress point, each led by its function and class. -/
def queueBody (qs : List Queue) (f : Nat → Nat) : List Nat := qs.flatMap fun q => [q.cfg.fn, q.cfg.cls] ++ q.counts.map f

def servedBody (l : List (Nat × Nat × Nat)) (fn : Nat) (f : Nat → Nat) : List Nat :=
  (l.filter fun x => x.1 == fn).flatMap fun x => [x.2.1, f x.2.2]

/-- Grains a tenant holds in each tier. -/
def State.heldBody (s : State) (tenant : Nat) : List Nat := (List.range 4).map fun t => s.tenantGrains tenant t

def phaseOfEngine : EngineSt → Nat
  | .active _ => 0
  | .spare => 1
  | .brining _ => 2
  | .failed _ => 3

def stateOfPort : PortSt → Nat
  | .held => 0
  | .training => 1
  | .securing => 2
  | .up => 3
  | .down => 4
  | .quarantined => 5

def stateOfGroup : GroupSt → Nat
  | .healthy => 0
  | .degraded => 1
  | .exposed => 2
  | .failed => 3

def stateOfExtent : ExtentSt → Nat
  | .claiming => 0
  | .active => 1
  | .draining => 2
  | .revoked => 3

/-- A group as a role of exact readings gets it. -/
def State.exactGroup (s : State) (group inst : Nat) : List Nat :=
  if group = tgQueues then queueBody (s.queues.filter fun q => q.cfg.egress == inst) id
  else if group = tgRequests then servedBody s.telemetry.served inst id
  else if group = tgCapacity then s.heldBody inst ++ [s.tenantReserved inst, s.pinGrains inst 0, s.pinGrains inst 1]
  else if group = tgCurds then
    let n := fun (l : List (Nat × Nat)) => (l.find? fun x => x.1 == inst).elim 0 (·.2)
    [n s.telemetry.curdsFormed, n s.telemetry.curdMembers]
  else if group = tgEngines then
    ((s.engines.filter fun e => e.cluster == inst).flatMap fun e =>
      [e.slot, phaseOfEngine e.st, (s.passes.any fun p => p.cluster == inst && p.engines.contains e.slot).toNat]) ++ [s.sparesUsed 0 inst]
  else if group = tgMemory then
    [s.telemetry.corrected, s.telemetry.uncorrect, s.telemetry.repairs] ++ s.groups.map fun g => stateOfGroup g.st
  else if group = tgFabric then
    ((s.ports.filter fun p => clusterOfPort p.id == inst).flatMap fun p => [stateOfPort p.st, p.errors])
      ++ s.extents.flatMap fun e => [e.id, stateOfExtent e.st]
  else [s.power.powerW, s.power.dieC, s.power.stackC, s.power.vddCoreMv]

/-- A group as a tenant reader gets it: its own queues, functions and grains, and the tile totals, coarsened; `none` is ROLE_DENIED. -/
def State.coarseGroup (s : State) (tenant group inst : Nat) : Option (List Nat) :=
  let mine := fun (fn : Nat) => (s.fn? fn).elim false fun f => f.tenant == tenant
  if group = tgQueues then some (queueBody (s.coarse.queues.filter fun q => q.cfg.egress == inst && mine q.cfg.fn) coarseCount)
  else if group = tgRequests then (if mine inst then some (servedBody s.coarse.served inst coarseCount) else none)
  else if group = tgCapacity then
    (if inst = tenant then some ((s.coarse.held.filter fun x => x.1 == tenant).map fun x => coarseCount x.2.2) else none)
  else if group = tgPower then some [s.powerFor false, s.tempFor false]
  else none

/-- TELEMETRY_READ; the board attachment gets the tile totals only (R387). -/
def State.telemetryRead (s : State) (conn group inst : Nat) : State :=
  if conn = boardConn then
    (if !s.boardOn ∨ !s.inService then s
     else if group = tgPower then s.reply conn msOk [s.powerFor false, s.tempFor false] else s.reply conn msRoleDenied [])
  else s.serve conn [1, 2, 3, 4] false fun s c =>
    if 7 < group then s.reply conn msInvalid []
    else if exactRole c.role then s.reply conn msOk (s.exactGroup group inst)
    else match s.coarseGroup c.tenant group inst with
      | some b => s.reply conn msOk b
      | none => s.reply conn msRoleDenied []

/-! ### Staged update (R373 to R375, R383) -/

/-- Largest chunk. -/
def chunkLimit : Nat := 65536

/-- Device that an upload goes to: the inactive one, or, for a recovery, the one whose image failed first (R370, R373). -/
def State.stageB (s : State) : Bool := if s.update.recovery then s.boot.firstFailB.getD false else !s.boot.entry.activeB

/-- The slot holds no bootable image. -/
def State.eraseSlot (s : State) : State := s.setFlash s.stageB fun f => if f.writable then { f with slot := some imageNone } else f

/-- Staging begins: pending is cleared where it was set, and the slot is erased. -/
def State.beginStaging (s : State) (recovery : Bool) (total : Nat) : State :=
  let s := if s.update.st = 3 then s.writeEntry { s.boot.entry with pending := false } else s
  { s with update := { st := 1, staged := none, next := 0, total := total, recovery := recovery } }.eraseSlot

/-- Staging ends without an image. -/
def State.abandon (s : State) : State :=
  { s.eraseSlot with update := { s.update with st := 0, staged := none, next := 0, total := 0 } }.note "UPLOAD_FAILED" (evSource 0 0) 0

/-- Checks of a whole staged image: those of R360, with the key unwrap tried on a scratch slot; a device that takes no write fails the
read-back (R359, R373). -/
def State.stagedFails (s : State) (i : Image) : Nat := if !(s.flash s.stageB).writable then 7 else imageFails s.boot.entry true i

/-- The last chunk has arrived. -/
def State.endStaging (s : State) (conn : Nat) (i : Image) : State :=
  let n := s.stagedFails i
  if n ≠ 0 then s.abandon.reply conn msCheckFailed [n]
  else
    let s := s.setFlash s.stageB fun f => { f with slot := some i }
    if s.update.recovery then
      let s := s.reply conn msOk []
      (s.mgmt.conns.foldl (fun (s : State) c => s.closeConn c.n) s).commandReset
    else { s with update := { s.update with st := 2, staged := some i } }.reply conn msOk []

/-- A chunk of the staging in progress. -/
def State.chunk (s : State) (conn offset length : Nat) (i : Image) : State :=
  if offset ≠ s.update.next ∨ s.update.total < offset + length then s.abandon.reply conn msInvalid []
  else
    let s := { s with update := { s.update with next := offset + length } }
    if s.update.next = s.update.total then s.endStaging conn i else s.reply conn msOk []

/-- IMAGE_UPLOAD. A chunk at offset 0 begins staging, and is refused BUSY while another image is staging. -/
def State.upload (s : State) (conn offset length : Nat) (i : Image) (recovery : Bool) : State :=
  if length = 0 ∨ chunkLimit < length then s.reply conn msInvalid []
  else if offset = 0 then
    (if s.update.st = 1 then s.reply conn msBusy [] else (s.beginStaging recovery i.imageBytes).chunk conn 0 length i)
  else if s.update.st = 1 then s.chunk conn offset length i
  else s.reply conn msInvalid []

/-- An upload on a connection of the operator, or of a client without an account in boot failed (R370, R383). -/
def State.uploadCmd (s : State) (conn offset length : Nat) (i : Image) : State :=
  if s.boot.phase = .failed then
    (if (s.conn? conn).isSome then (s.touch conn).upload conn offset length i true else s)
  else s.serve conn [1] false fun s _ => s.upload conn offset length i false

/-- IMAGE_ACTIVATE: the entry with pending must be read back from both devices. -/
def State.activate (s : State) (conn : Nat) : State :=
  if s.update.st = 1 then s.reply conn msBusy []
  else if s.update.st ≠ 2 then s.reply conn msInvalid []
  else if !(s.flashA.writable && s.flashB.writable) then s.openRefusal conn
  else
    let s := s.writeEntry { s.boot.entry with pending := true }
    { s with update := { s.update with st := 3 } }.reply conn msOk []

/-- IMAGE_CANCEL. -/
def State.cancel (s : State) (conn : Nat) : State :=
  if s.update.st = 1 then s.reply conn msBusy []
  else if s.update.st = 0 then s.reply conn msInvalid []
  else
    let s := if s.update.st = 3 then s.writeEntry { s.boot.entry with pending := false } else s
    { s with update := { s.update with st := 0, staged := none } }.reply conn msOk []

/-! ### Resets, links, weights, volumes -/

/-- RESET_FULL: answered, every connection closed, and the reset begins. -/
def State.resetCmd (s : State) (conn : Nat) : State :=
  let s := s.reply conn msOk []
  (s.mgmt.conns.foldl (fun (s : State) c => s.closeConn c.n) s).commandReset

/-- A partial reset of a domain that exists; its response follows at its end. -/
def State.partialCmd (s : State) (conn domain inst : Nat) (there : Bool) : State :=
  if there then s.beginPartial domain inst (some conn) else s.reply conn msInvalid []

/-- LINK_HOLD (R261). -/
def State.holdLink (s : State) (conn : Nat) (port : PortId) : State :=
  if (s.port? port).isNone then s.reply conn msInvalid [] else (s.quarantine port).reply conn msOk []

/-- LINK_RELEASE: a quarantined port trains again. -/
def State.releaseLink (s : State) (conn : Nat) (port : PortId) : State :=
  match s.port? port with
  | some p => if p.st = .quarantined then (s.toTraining port).reply conn msOk [] else s.reply conn msInvalid []
  | none => s.reply conn msInvalid []

/-- The header of a sealed image is legal for a model ("Sealed weight header"). -/
def headerLegal (m : ModelRec) (h : SealedHeader) : Bool :=
  h.layout == 1 && h.fingerprint == m.fingerprint && m.weightsTier != 0 && within 1 (Config.weightChunks m.weightsTier) h.chunks
    && within 1 (h.chunks * 1048576) h.plainBytes

/-- Grains for the chunks of a sealed image in their home tier (R94, R115), one chunk after the other. -/
def State.placeChunks (s : State) (tier : Nat) : Nat → Weights → Option Weights
  | 0, w => some w
  | n + 1, w =>
    match ({ s with weights := w :: s.weights } : State).allocPublished tier chunkGrains none none with
    | some a => s.placeChunks tier n { w with locs := w.locs ++ [(tier, a)] }
    | none => none

/-- Chunks whose home is T2 or T3 are written there, sealed (R115, R263). -/
def State.writeChunks (s : State) (model : Nat) (w : Weights) : State :=
  w.locs.zipIdx.foldl (fun s ((tier, a), c) =>
    if tier ≤ 1 then s else s.pageTransfer (.chunk 0 model c) {} tier a chunkGrains 0 (some (w.sealedBytes c))) s

/-- WEIGHTS_LOAD: the sealed image goes to its home tier unopened (R115); one for which the tier has no room is past its allotment. -/
def State.loadWeights (s : State) (conn model : Nat) (h : SealedHeader) : State :=
  match s.model? model with
  | none => s.reply conn msInvalid []
  | some m =>
    if !headerLegal m h then s.reply conn msInvalid []
    else
      let w : Weights := { model := model, header := h, counts := List.replicate h.chunks 0, swept := List.replicate h.chunks 0, cached := [] }
      let t := { s with weights := s.weights.filter fun x => x.model != model }
      match t.placeChunks m.weightsTier h.chunks w with
      | none => s.reply conn msInvalid []
      | some w => ({ t with weights := w :: t.weights }.writeChunks model w).reply conn msOk []

/-- VOLUME_RELEASE: a Flush comes before the acknowledgement (R269). -/
def State.releaseVolume (s : State) (conn volume : Nat) : State :=
  if !s.volumes.contains volume then s.reply conn msInvalid []
  else ({ s with volumes := s.volumes.filter (· != volume) }.emit (.nvmeFlush volume)).reply conn msOk []

/-! ### The I3C target (R387) -/

/-- ENTDAA: the target takes the address it is given. -/
def State.takeAddress (s : State) (address : Nat) : State :=
  if s.portOn then { s with mgmt := { s.mgmt with i3cAddr := some address } } else s

/-- SETDASA: from the static address of the image. -/
def State.setAddress (s : State) (static address : Nat) : State :=
  if static = s.params.i3cStatic ∧ static ≠ 0 then s.takeAddress address else s

/-! ### Commands -/

def execStatusRead (conn : Nat) (s : State) : Host.Outcome State Fault Refusal := .next (s.statusRead conn)

def execTelemetryRead (conn group inst : Nat) (s : State) : Host.Outcome State Fault Refusal := .next (s.telemetryRead conn group inst)

def execEventRead (conn first count : Nat) (s : State) : Host.Outcome State Fault Refusal := .next (s.eventRead conn first count)

def execTraceRead (conn fn : Nat) (s : State) : Host.Outcome State Fault Refusal := .next (s.traceRead conn fn)

def execImageUpload (conn offset length : Nat) (image : Image) (s : State) : Host.Outcome State Fault Refusal :=
  .next (s.uploadCmd conn offset length image)

def execImageActivate (conn : Nat) (s : State) : Host.Outcome State Fault Refusal := .next (s.serve conn [1] false fun s _ => s.activate conn)

def execImageCancel (conn : Nat) (s : State) : Host.Outcome State Fault Refusal := .next (s.serve conn [1] false fun s _ => s.cancel conn)

def execResetFull (conn : Nat) (s : State) : Host.Outcome State Fault Refusal := .next (s.serve conn [1] true fun s _ => s.resetCmd conn)

def execResetPartialFunction (conn fn : Nat) (s : State) : Host.Outcome State Fault Refusal :=
  .next (s.serve conn [1] false fun s _ => s.partialCmd conn domFunction fn (s.fn? fn).isSome)

def execResetPartialModuleGroup (conn group : Nat) (s : State) : Host.Outcome State Fault Refusal :=
  .next (s.serve conn [1] false fun s _ => s.partialCmd conn domGroup group (s.ucie? group).isSome)

def execResetPartialLinkCluster (conn cluster : Nat) (s : State) : Host.Outcome State Fault Refusal :=
  .next (s.serve conn [1] false fun s _ => s.partialCmd conn domLinks cluster (decide (cluster < 24)))

def execResetPartialEngineCluster (conn cluster : Nat) (s : State) : Host.Outcome State Fault Refusal :=
  .next (s.serve conn [1] false fun s _ => s.partialCmd conn domEngines cluster (decide (cluster < 12)))

def execLinkHold (conn : Nat) (port : PortId) (s : State) : Host.Outcome State Fault Refusal :=
  .next (s.serve conn [1] false fun s _ => s.holdLink conn port)

def execLinkRelease (conn : Nat) (port : PortId) (s : State) : Host.Outcome State Fault Refusal :=
  .next (s.serve conn [1] false fun s _ => s.releaseLink conn port)

def execWeightsLoad (conn model : Nat) (h : SealedHeader) (s : State) : Host.Outcome State Fault Refusal :=
  .next (s.serve conn [1] false fun s _ => s.loadWeights conn model h)

def execVolumeRelease (conn volume : Nat) (s : State) : Host.Outcome State Fault Refusal :=
  .next (s.serve conn [1] false fun s _ => s.releaseVolume conn volume)

def execMgmtConnection (tls : Handshake) (certKey : Option (BitVec 256)) (ownerChained : Bool) (s : State) : Host.Outcome State Fault Refusal :=
  .next (s.connect tls.port tls.tlsOk certKey ownerChained)

def execMgmtIdleTimeout (conn : Nat) (s : State) : Host.Outcome State Fault Refusal := .next (s.idleClose conn)

def execMgmtConnectionClose (conn : Nat) (s : State) : Host.Outcome State Fault Refusal := .next (s.clientClose conn)

def execMgmtUnknownCommand (conn kind _command bodyBytes : Nat) (s : State) : Host.Outcome State Fault Refusal :=
  .next (s.unknownCommand conn kind bodyBytes)

def execEntdaa (address : Nat) (s : State) : Host.Outcome State Fault Refusal := .next (s.takeAddress address)

def execSetdasa (static address : Nat) (s : State) : Host.Outcome State Fault Refusal := .next (s.setAddress static address)

end Sys2Proof.Machine
end

