-- ==== Sys2Proof/Machine/Power.lean ====
section
/-! DEFINITION. Power, clocks, temperature and connection faults (18_tile_signals_power): rail faults (R396), AVSBus (R392), the clock
monitor (R399, R400), throttle stages and the trip (R401 to R403), and shorted lanes (R405). -/

namespace Sys2Proof.Machine

/-- The controller runs: reset is released and nothing stops it. -/
def State.running (s : State) : Bool :=
  match s.boot.phase with
  | .identity => true
  | .training => true
  | .service => true
  | .failed => true
  | .failedNoId => true
  | .aonOff => false
  | .inReset => false
  | .heldInReset => false
  | .stopped _ => false

/-- The controller stops (R396): it does nothing more until RESET_N or power-on. -/
def State.stop (s : State) (c : StopCause) : State := { s with boot := { s.boot with phase := .stopped c } }

/-! ### Rails (R392, R396) -/

/-- VDD_AON among the rails of the rails table, the one that RAIL_FAULT does not watch. -/
def railAon : Nat := 6

/-- RAIL_FAULT: an event, PWR_FAULT_N, and the stop. -/
def State.railFault (s : State) (rail : Nat) : State :=
  if rail = railAon ∨ !(s.running || s.boot.phase == .heldInReset) then s
  else
    let s := s.event "RAIL_FAULT" (some 0xCE04) (evSource 14 0) (rail % 16)
    { s with power := { s.power with pwrFault := true } }.stop .rail

/-- VDD_AON_LOW: the island holds itself in reset; what lies on VDD_AON is lost when it returns, which counts as power-on. -/
def State.aonLow (s : State) : State := s.wiped .aonOff

/-- AVS_RETRY: an acknowledged command moves the set point; otherwise the last one is kept, with an event, and the command is sent
again. -/
def State.avsRetry (s : State) (ack : Bool) : State :=
  match s.power.avsWaiting with
  | none => s
  | some mv =>
    if !s.running then s
    else if ack then { s with power := { s.power with vddCoreMv := mv, avsWaiting := none } }
    else (s.note "AVS_NOT_ACKNOWLEDGED" (evSource 14 0) mv).emit (.avs mv)

/-! ### The clock monitor (R399, R400) -/

/-- A window finds an input missing. -/
def edgesMissing (n : Nat) : Bool := decide (n < 38) || decide (42 < n)

/-- CLK_ALARM_N: an input is missing, or a switchover has occurred since the last full reset (R391). -/
def State.setAlarm (s : State) : State :=
  let on := s.power.priGone || s.power.secGone || s.sparesUsed 12 0 != 0
  { s with power := { s.power with clkAlarm := on } }

/-- Event 0x8E02: the input that is, or will be, in use, and whether both are missing. -/
def State.clockEvent (s : State) : State :=
  let p := s.power
  let inUse := !p.onPrimary || (p.priGone && !p.secGone)
  s.event "REFCLK_SWITCHOVER" (some 0x8E02) (evSource 14 0) (inUse.toNat + (p.priGone && p.secGone).toNat * 2)

/-- The selected input is missing. -/
def Power.lostClock (p : Power) : Bool := if p.onPrimary then p.priGone else p.secGone

/-- A window in a running controller: a newly missing input is an event, and the loss of the selected one starts holdover; its return ends
it. -/
def State.windowRuns (s : State) (pri sec : Bool) : State :=
  let old := s.power
  let s := { s with power := { old with priGone := pri, secGone := sec } }
  let s := if (pri && !old.priGone) || (sec && !old.secGone) then s.clockEvent else s
  let h := if s.power.lostClock then some (old.holdover.getD s.now) else none
  { s with power := { s.power with holdover := h } }.setAlarm

/-- A window in a controller held in reset: the boot goes on once an input has been present for 1 ms. Device time starts there, with the
boot, and not when RESET_N returned high: R7 does not say which (DESIGN CHOICE, log entry 115). -/
def State.windowHeld (s : State) (pri sec : Bool) : State :=
  let s := { s with power := { s.power with priGone := pri, secGone := sec } }
  if pri && sec then { s with power := { s.power with present := none } }
  else
    let t := s.power.present.getD s.now
    if t + 470000 ≤ s.now then { s with power := { s.power with present := none } }.release pri sec
    else { s with power := { s.power with present := some t } }

/-- CLOCK_MONITOR_WINDOW. -/
def State.clockWindow (s : State) (priEdges secEdges : Nat) : State :=
  let pri := edgesMissing priEdges
  let sec := edgesMissing secEdges
  if s.boot.phase = .heldInReset then s.windowHeld pri sec
  else if s.running then s.windowRuns pri sec
  else s

/-- REFCLK_SWITCHOVER: the root PLL relocks to the secondary input, and never returns before the next full reset. -/
def State.switchover (s : State) : State :=
  if s.power.holdover.isNone ∨ s.power.secGone ∨ !s.running then s
  else
    let first := s.power.onPrimary
    let s := { s with power := { s.power with onPrimary := false, holdover := none } }
    (if first then s.spend 12 0 else s).setAlarm

/-- HOLDOVER_EXPIRY: both inputs have been missing for 1 ms. -/
def State.holdoverEnds (s : State) : State :=
  match s.power.holdover with
  | some t =>
    if s.running ∧ s.power.priGone ∧ s.power.secGone ∧ t + 470000 ≤ s.now then
      { s.clockEvent with power := { s.power with clkAlarm := true } }.stop .clock
    else s
  | none => s

/-- LINK_REFCLK_MISSING: every link or port of the cluster is quarantined (R400). -/
def State.linkClockGone (s : State) (c : Nat) : State :=
  ((s.portsOf c).foldl (fun (s : State) p => s.quarantine p) s).note "LINK_REFERENCE_MISSING" (evSource 5 c) 0

/-! ### Temperature (R401 to R403) -/

/-- The highest die sensor. -/
def dieReading (pairs : List PairReading) : Nat := pairs.foldl (fun n p => max n (max p.a p.b)) 0

def stackReading (temps : List Nat) : Nat := temps.foldl max 0

/-- The pair that trips the device: both of its sensors read 110 °C or more. -/
def trippedPair (pairs : List PairReading) : Option (PairReading × Nat) :=
  pairs.zipIdx.find? fun x => decide (110 ≤ x.1.a) && decide (110 ≤ x.1.b)

def diff (a b : Nat) : Nat := max a b - min a b

/-- Samples in a row in which each pair has disagreed. -/
def disagreeing (old : List Nat) (pairs : List PairReading) : List Nat :=
  pairs.zipIdx.map fun (p, i) => if 5 < diff p.a p.b then old.getD i 0 + 1 else 0

/-- Stage that the readings enter. -/
def stageEntered (die stack : Nat) : Nat :=
  if 100 ≤ die ∨ 93 ≤ stack then 2 else if 95 ≤ die ∨ 90 ≤ stack then 1 else 0

/-- The leave condition of a stage holds. -/
def stageLeaves (stage die stack : Nat) : Bool :=
  match stage with
  | 0 => false
  | 1 => decide (die < 92) && decide (stack < 87)
  | _ => decide (die < 97) && decide (stack < 90)

/-- Ticks that a leave condition must hold. -/
def leaveTicks : Nat := 4700000

/-- Engine work priced in one stage costs this part more in a slower one: numerator and denominator of the ratio of their engine
fractions. -/
def stageRatio (old new : Nat) : Nat × Nat :=
  let f := fun (n : Nat) => if n = 0 then 4 else if n = 1 then 3 else 2
  (f old, f new)

/-- Reservations of engine time are priced on the reduced capacity (R402). -/
def State.reprice (s : State) (old new : Nat) : State :=
  let (n, d) := stageRatio old new
  let g := fun (c : Resv) => match c.cal with
    | .engine _ _ => { c with amount := cdiv (c.amount * n) d }
    | .stack _ => c
    | .ucieIn _ => c
    | .ucieOut _ => c
    | .fabric _ => c
    | .staging => c
    | .lookup => c
  { s with calendar := s.calendar.map g }

/-- Change of stage: the calendars are recomputed on entering a slower one; each change is an event and an in-band interrupt. -/
def State.toStage (s : State) (new : Nat) : State :=
  let old := s.power.stage
  let s := { s with power := { s.power with stage := new, leaveSince := none, thermAlert := decide (0 < new) } }
  let s := (s.event "THERMAL_STAGE" (some 0x0E01) (evSource 14 0) (new + s.power.dieC % 256 * 256 + s.power.stackC % 256 * 65536)).emit .inBand
  if old < new then (s.reprice old new).recompute else s

/-- The stage follows the readings. -/
def State.stageStep (s : State) : State :=
  let p := s.power
  let e := stageEntered p.dieC p.stackC
  if p.stage < e then s.toStage e
  else if stageLeaves p.stage p.dieC p.stackC then
    let t := p.leaveSince.getD s.now
    if t + leaveTicks ≤ s.now then s.toStage (p.stage - 1) else { s with power := { p with leaveSince := some t } }
  else { s with power := { p with leaveSince := none } }

/-- Power, and what stood at the last whole second for coarse readers (R326). -/
def State.readPower (s : State) : State :=
  let old := s.power
  let w := Config.powerW s.free
  let s := { s with free := s.free + 1, power := { old with powerW := w } }
  if s.now / 470000000 = s.coarse.second then s
  else
    let whole := s.now % 470000000 == 0
    { s with coarse := { s.coarse with second := s.now / 470000000, powerW := if whole then w else old.powerW
                                       tempC := if whole then max s.power.dieC s.power.stackC else max old.dieC old.stackC } }

/-- Event 0x4E09 of each pair whose third sample in a row disagrees. -/
def State.sensorEvents (s : State) (pairs : List PairReading) : State :=
  (pairs.zipIdx.filter fun x => s.power.disagree.getD x.2 0 == 3).foldl (fun (s : State) x =>
    s.event "SENSOR_DISAGREE" (some 0x4E09) (evSource 14 0) (x.2 % 32 + x.1.a % 256 * 256 + x.1.b % 256 * 65536)) s

/-- THERMAL_SAMPLE. -/
def State.thermalSample (s : State) (pairs : List PairReading) (temps : List Nat) : State :=
  if s.boot.phase ≠ .training ∧ s.boot.phase ≠ .service then s
  else
    let old := s.power
    let s := { s with power := { old with dieC := dieReading pairs, stackC := stackReading temps, disagree := disagreeing old.disagree pairs } }
    let s := s.readPower.sensorEvents pairs
    match trippedPair pairs with
    | some (p, i) =>
      let s := s.event "THERMAL_TRIP" (some 0xCE03) (evSource 14 0) (i % 32 + min p.a p.b % 256 * 256)
      { s with power := { s.power with thermTrip := true } }.stop .thermal
    | none => s.stageStep

/-! ### Arbiters (R341) -/

/-- Requests of the running passes whose next page's locator satisfies a test. -/
def State.readingAt (s : State) (p : Loc → Bool) : List Nat :=
  s.passes.flatMap fun x => match (if x.parked then none else s.nextBlock x) with
    | none => []
    | some b => ((s.consumers x b).filter fun r => (s.attendOf r).any fun a =>
        ((s.resolve a.1 a.2.1 b).bind s.rec?).any fun y => (y.loc? x.layer).any p).map (·.id)

/-- Table of the array that a waiting look-up searches. -/
def searchTag : Desc → Option Nat
  | .lookupHash _ => some 1
  | .lookupToken _ => some 1
  | .lookupFlow f => some (flowTag (f.family == 1))
  | _ => none

/-- A command for which the island hashes or ciphers while it runs (R43, R60, R116, R167). -/
def islandWork : Desc → Bool
  | .lookupToken _ => true
  | .publish _ => true
  | .tableLoad _ => true
  | .weights _ => true
  | _ => false

/-- Requests that a block serves as it leaves service on an arbiter's fault (R341; log entry 149): passes that read from a stack or from a
shelf bank, and the far pages staged there; look-ups held for an array bank's table; transfers of the functions of a UCIe module's
group; every request of a control pair's partition; commands the island works on. Those of an engine and of a link cluster end with it
(R144, R261). -/
def State.servedBy (s : State) (kind i : Nat) : List Nat :=
  let moving := fun (r : Req) => r.phase == .started || r.phase == .writing
  match kind with
  | 2 => match (s.bank? i).map (·.tag) with
    | some tag => (s.reqs.filter fun r => r.phase == .waiting && searchTag r.desc == some tag).map (·.id)
    | none => []
  | 3 => match s.shelfServes i with
    | some n =>
      let inBank := fun (a g : Nat) => decide (a < 256 * n + 256 ∧ 256 * n < a + g)
      (s.readingAt fun l => l.tier == 0 && inBank l.addr l.grains) ++ (s.stagingAt.filter fun x => inBank x.1 x.2.grains).map (·.2.req)
    | none => []
  | 4 => s.readingAt fun l => l.tier == 1 && t1Stack l.addr == i
  | 6 => (s.reqs.filter fun r => s.groupOfFn r.fn == i / 4 && moving r).map (·.id)
  | 7 => match (s.faults.pairs.find? fun p => p.n == i).bind (·.partition) with
    | some j => (s.reqs.filter fun r => (namesOf r.desc).any fun h => h % 2 ^ 24 % 4 == j).map (·.id)
    | none => []
  | 8 => (s.reqs.filter fun r => islandWork r.desc && moving r).map (·.id)
  | _ => []

/-- The requests of a block end INTERNAL_FAULT (R341); one past its commit point stands (R216). -/
def State.endServed (s : State) (ids : List Nat) : State :=
  ids.eraseDups.foldl (fun (s : State) id => match s.req? id with
    | some r => if r.past then s else s.faultReq r stInternalFault noBlock noLayer
    | none => s) s

/-- Unit `i` of the security island leaves service: SHA/HMAC engines 0 to 8, then key-slot banks 0 to 2 (log entry 149). -/
def State.islandOut (s : State) (i : Nat) : State :=
  if i < 9 then (if s.hashEngines.contains i then s.hashOut [i] else s) else s.keyBankFault (i - 9)

/-- The block of an event source leaves service as its own section provides, and the requests it was serving end INTERNAL_FAULT (R341); a
link cluster's ports are quarantined. -/
def State.blockOut (s : State) (block : Nat) : State :=
  let i := block % 4096
  let s := { s with faults := { s.faults with blocksOut := block :: s.faults.blocksOut.filter (· != block) } }
  let s := s.endServed (s.servedBy (block / 4096) i)
  match block / 4096 with
  | 1 => s.engineOut (i / 16) (i % 16)
  | 2 => s.bankFault i
  | 3 => s.shelfFault i []
  | 4 => s.loseStack i
  | 5 => (s.portsOf i).foldl (fun (s : State) p => (s.endTxns p stInternalFault).quarantine p) s
  | 6 => s.moduleLoss (i / 4) (i % 4)
  | 7 => s.pairFault i
  | 8 => s.islandOut i
  | _ => s

/-- ARBITER_FAULT: the third failed grant within 256 cycles. -/
def State.arbiterFault (s : State) (arbiter block : Nat) : State :=
  (s.event "ARBITER_FAULT" (some 0xC407) (block % 65536) (arbiter % 65536)).blockOut (block % 65536)

/-! ### Commands -/

def execThermalSample (pairs : List PairReading) (stackTemps : List Nat) (s : State) : Host.Outcome State Fault Refusal :=
  .next (s.thermalSample pairs stackTemps)

def execRailFault (rail : Nat) (s : State) : Host.Outcome State Fault Refusal := .next (s.railFault rail)

def execVddAonLow (s : State) : Host.Outcome State Fault Refusal := .next s.aonLow

def execAvsRetry (acknowledged : Bool) (s : State) : Host.Outcome State Fault Refusal := .next (s.avsRetry acknowledged)

def execClockMonitorWindow (priEdges secEdges : Nat) (s : State) : Host.Outcome State Fault Refusal := .next (s.clockWindow priEdges secEdges)

def execRefclkSwitchover (s : State) : Host.Outcome State Fault Refusal := .next s.switchover

def execHoldoverExpiry (s : State) : Host.Outcome State Fault Refusal := .next s.holdoverEnds

def execHbmRefclkMissing (stack : Nat) (s : State) : Host.Outcome State Fault Refusal := .next (s.live fun s => s.loseStack stack)

def execLinkRefclkMissing (cluster : Nat) (s : State) : Host.Outcome State Fault Refusal := .next (s.live fun s => s.linkClockGone cluster)

def execLaneShort (cluster lane : Nat) (s : State) : Host.Outcome State Fault Refusal := .next (s.live fun s => s.laneFails cluster lane 1)

def execArbiterFault (arbiter block : Nat) (s : State) : Host.Outcome State Fault Refusal := .next (s.live fun s => s.arbiterFault arbiter block)

end Sys2Proof.Machine
end

