-- ==== Sys2Proof/Machine/Sched.lean ====
section
/-! DEFINITION. Scheduling at the egress points (11_classes_admission_thyme): the Thyme wheel (R237), shapers (R238), the selectors (R240,
R241), time gates (R242, R243) and queue sampling (R246), with the update of the time page (R179). -/

namespace Sys2Proof.Machine

/-! ### Shapers (R238) -/

/-- A background queue of the controller's own: it has a committed rate at its class, and no peak (R220). -/
def Queue.background (q : Queue) : Bool := q.cfg.fn == wheyFn

/-- A queue with buckets: a class 1 to 3 queue that the image gives rates, or a background queue; a default queue has none. -/
def Queue.shaped (q : Queue) : Bool :=
  (q.background && q.cfg.rate != 0) || (decide (1 ≤ q.cfg.cls ∧ q.cfg.cls ≤ 3) && (q.cfg.rate != 0 || q.cfg.peak != 0))

/-- Both buckets gain their rate for `n` ticks, up to their bursts. -/
def Queue.refill (q : Queue) (n : Nat) : Queue :=
  { q with committed := min (q.cfg.burst : Int) (q.committed + q.cfg.rate * n), peakTok := min (q.cfg.peakB : Int) (q.peakTok + q.cfg.peak * n) }

/-- A frame of length n may go as committed. -/
def Queue.asCommitted (q : Queue) (n : Nat) : Bool := q.shaped && !q.excessOnly && decide ((n : Int) ≤ q.committed)

/-- A frame of length n may go as excess. -/
def Queue.asExcess (q : Queue) (n : Nat) : Bool := !q.shaped || (!q.asCommitted n && (q.background || decide ((n : Int) ≤ q.peakTok)))

/-- Ticks until a bucket that gains `rate` a tick holds n; `none` if it never does. -/
def ticksTo (have_ : Int) (rate burst n : Nat) : Option Nat :=
  if (n : Int) ≤ have_ then some 0 else if rate = 0 ∨ burst < n then none else some (cdiv ((n : Int) - have_).toNat rate)

/-- Earliest tick at which the head frame may go: `none` where no bucket ever lets it. -/
def Queue.nextEligible (q : Queue) (now n : Nat) : Option Nat :=
  if !q.shaped || q.background then some now
  else
    let c := if q.excessOnly then none else ticksTo q.committed q.cfg.rate q.cfg.burst n
    let e := ticksTo q.peakTok q.cfg.peak q.cfg.peakB n
    match c, e with
    | some a, some b => some (now + min a b)
    | some a, none => some (now + a)
    | none, some b => some (now + b)
    | none, none => none

/-- Debit a frame: from both buckets as committed, the peak bucket no lower than −B_p; from the peak bucket alone as excess. -/
def Queue.debit (q : Queue) (n : Nat) : Queue :=
  if !q.shaped then q
  else if q.background then (if q.asCommitted n then { q with committed := q.committed - n } else q)
  else if q.asCommitted n then { q with committed := q.committed - n, peakTok := max (-(q.cfg.peakB : Int)) (q.peakTok - n) }
  else { q with peakTok := q.peakTok - n }

/-! ### The wheel (R237) -/

/-- Level of a time on the wheel: 1 within 4,096 ticks, 2 within 16,777,216, 3 the overflow list. -/
def wheelLevel (now t : Nat) : Nat := if t < now + 4096 then 1 else if t < now + 16777216 then 2 else 3

/-- A queue at a tick of its wheel: released at its exact tick; the next level-2 slot spreads into level 1 as level 1 completes a turn, and
overflow entries move to level 2 as level 2 does. -/
def Queue.turn (q : Queue) (now : Nat) : Queue :=
  if q.level = 0 then q
  else if q.eligible ≤ now then { q with level := 0 }
  else
    let q := if q.level = 3 ∧ now % 16777216 = 0 ∧ q.eligible < now + 16777216 then { q with level := 2 } else q
    if q.level = 2 ∧ now % 4096 = 0 ∧ q.eligible < now + 4096 then { q with level := 1 } else q

/-- A queue that holds traffic and cannot send is entered on the wheel. -/
def Queue.enter (q : Queue) (now : Nat) : Queue :=
  match q.frames with
  | [] => { q with level := 0, deficit := 0, finish := 0 }
  | (n, _) :: _ =>
    if q.asCommitted n || q.asExcess n then { q with level := 0 }
    else if q.level ≠ 0 then q
    else match q.nextEligible now n with
      | some t => { q with eligible := t, level := wheelLevel now t }
      | none => { q with eligible := now + 16777216, level := 3 }

/-! ### Gates (R242, R243) -/

/-- Place of a tick in a gate cycle; `none` before cycle 0 begins. -/
def gatePlace (g : GateRec) (now : Nat) : Option Nat :=
  if g.cycle = 0 ∨ g.gates.isEmpty ∨ now < g.base then none else some ((now - g.base) % g.cycle)

/-- Entry of a cycle that a place lies in, with the end of that entry. -/
def entryAt : List GateEntry → Nat → Nat → Nat → Nat × Nat
  | [], i, start, _ => (i, start)
  | e :: rest, i, start, place => if place < start + e.duration then (i, start + e.duration) else entryAt rest (i + 1) (start + e.duration) place

/-- End of entry i of a cycle. -/
def entryEnd (l : List GateEntry) (i : Nat) : Nat := sumBy (·.duration) (l.take (i + 1))

/-- Class c stays open for `n` more ticks through the entries from i on; `fuel` bounds the entries. -/
def openOn (l : List GateEntry) (c : Nat) : Nat → Nat → Nat → Bool
  | 0, _, n => n == 0
  | fuel + 1, i, n =>
    if n = 0 then true
    else match l[i % l.length]? with
      | some e => bit e.opened c && openOn l c fuel (i + 1) (n - e.duration)
      | none => true

/-- A frame of class c that takes `n` ticks may begin: the class is open in the entry that is open now and for the whole sending time. -/
def State.gateOpen (s : State) (e : Egress) (c n : Nat) : Bool :=
  match s.image.gates.find? fun g => g.egress == e.n with
  | none => true
  | some g =>
    match gatePlace g s.now with
    | none => true
    | some p =>
      let left := entryEnd g.gates e.gate - p
      match g.gates[e.gate]? with
      | some x => bit x.opened c && decide (0 < left) && openOn g.gates c (n + 1) (e.gate + 1) (n - left)
      | none => true

/-! ### Selectors (R240, R241) -/

/-- Ticks that a frame takes on an egress point. -/
def State.sendTicks (s : State) (e n : Nat) : Nat :=
  if 4 ≤ e ∧ e < 100 then
    match s.port? (.asvis (e - 4)) with
    | some p => max 1 (cdiv (n * 47 * 224) (5600 * max 1 p.rate))
    | none => 1
  else if s.egressCapacity e = 0 then 1
  else max 1 (cdiv (n * bucketTicks) (s.egressCapacity e))

/-- Fractional bits of virtual time. -/
def vtBits : Nat := 2 ^ 32

/-- Head frame of a queue. -/
def Queue.head (q : Queue) : Nat := (q.frames.head?).elim 0 (·.1)

/-- The queue may send its head frame now. -/
def State.canSend (s : State) (e : Egress) (q : Queue) : Bool :=
  q.cfg.egress == e.n && !q.frames.isEmpty && q.level == 0 && (q.asCommitted q.head || q.asExcess q.head)
    && s.gateOpen e q.cfg.cls (s.sendTicks e.n q.head)

/-- A queue that wakes from empty takes S = V for its head frame. -/
def Queue.wake (q : Queue) (v : Nat) : Queue :=
  if q.frames.isEmpty ∨ q.finish ≠ 0 then q else { q with finish := max 1 (v + q.head * vtBits / max 1 q.cfg.weight) }

/-- Place of a queue behind the rotating pointer. -/
def Queue.behind (q : Queue) (pointer : Nat) : Nat := if pointer ≤ q.order then q.order - pointer else q.order + 2 ^ 32 - pointer

/-- The queue that comes first behind the pointer. -/
def firstBehind (pointer : Nat) (l : List Queue) : Option Queue :=
  l.foldl (fun (b : Option Queue) q => match b with
    | some x => if q.behind pointer < x.behind pointer then some q else some x
    | none => some q) none

/-- The queue with the smallest finish, ties by the pointer. -/
def firstFinish (pointer : Nat) (l : List Queue) : Option Queue :=
  l.foldl (fun (b : Option Queue) q => match b with
    | some x => if q.finish < x.finish ∨ (q.finish = x.finish ∧ q.behind pointer < x.behind pointer) then some q else some x
    | none => some q) none

/-- Strict-plus-weighted: class 0, then the strict classes in class order, then the weighted group, committed before excess. -/
def State.pickWeighted (s : State) (e : Egress) (can : List Queue) : Option Queue :=
  let strict := (List.range 8).filter fun c => c != 0 && s.image.strictClasses.contains (e.n, c)
  match (0 :: strict).findSome? fun c => firstBehind e.pointer (can.filter fun q => q.cfg.cls == c) with
  | some q => some q
  | none =>
    match firstFinish e.pointer (can.filter fun q => q.asCommitted q.head) with
    | some q => some q
    | none => firstFinish e.pointer can

/-- Deficit round robin among the queues behind the pointer: a visited queue's deficit rises by its quantum, and it sends while its head
fits. Answers the queue that sends and the deficits as the visits leave them; `fuel` bounds the visits. -/
def drrVisit : Nat → List Queue → List Queue → Option (Queue × List Queue)
  | 0, _, _ => none
  | _ + 1, [], [] => none
  | fuel + 1, [], done => drrVisit fuel done.reverse []
  | fuel + 1, q :: rest, done =>
    let q := { q with deficit := q.deficit + q.cfg.quantum }
    if q.head ≤ q.deficit then some (q, q :: rest ++ done) else drrVisit fuel rest (q :: done)

/-- Queues from the pointer on, in the order of the round. -/
def roundFrom (pointer : Nat) (l : List Queue) : List Queue := l.mergeSort fun a b => decide (a.behind pointer ≤ b.behind pointer)

/-- Visits that a round of deficit round robin may take at most: a queue's deficit rises by at least one byte a visit. -/
def drrFuel (can : List Queue) : Nat := (can.foldl (fun n q => max n q.head) 0 + 2) * (can.length + 1)

/-- The queue that deficit round robin serves, and the queues with their deficits. The queue whose visit is under way goes on while its
head fits; else the round goes on behind it. -/
def pickDrr (pointer visit : Nat) (can : List Queue) : Option (Queue × List Queue) :=
  match firstBehind pointer (can.filter fun q => q.cfg.cls == 0) with
  | some q => some (q, [])
  | none =>
    match roundFrom visit can with
    | [] => none
    | q :: rest =>
      if q.order ≠ visit then drrVisit (drrFuel can) (q :: rest) []
      else if q.head ≤ q.deficit then some (q, []) else drrVisit (drrFuel can) (rest ++ [q]) []

/-- The same queue. -/
def Queue.same (a b : Queue) : Bool := a.cfg == b.cfg && a.order == b.order

/-- The queue sends its head frame. -/
def Queue.sendHead (q : Queue) (drr : Bool) (v : Nat) : Queue :=
  let n := q.head
  let q := { q.debit n with frames := q.frames.tail, deficit := if drr ∧ q.cfg.cls ≠ 0 then q.deficit - n else q.deficit }
  if q.frames.isEmpty then { q with finish := 0, deficit := 0 }
  else { q with finish := max v q.finish + q.head * vtBits / max 1 q.cfg.weight }

/-- Serve one queue of an egress point: the frame takes its sending time, virtual time advances, the pointer moves on; the round of deficit
round robin stands at the queue it serves, and class 0 does not move it. -/
def State.serveQueue (s : State) (e : Egress) (q : Queue) : State :=
  let drr := e.mode == 1
  let n := q.head
  let weights := sumBy (fun (x : Queue) => if x.cfg.egress = e.n ∧ !x.frames.isEmpty then x.cfg.weight else 0) s.queues
  let v := e.v + n * vtBits / max 1 weights
  let visit := if drr ∧ q.cfg.cls ≠ 0 then q.order else e.visit
  let point := fun (x : Egress) => { x with v := v, pointer := q.order + 1, visit := visit, busy := s.now + s.sendTicks e.n n }
  { s with queues := mapIf (fun x => x.same q) (fun x => x.sendHead drr e.v) s.queues
           egress := mapIf (fun x => x.n == e.n) point s.egress }

/-- One selection of an egress point. -/
def State.select (s : State) (e : Egress) : State :=
  let can := s.queues.filter fun q => s.canSend e q
  if e.mode = 1 then
    match pickDrr e.pointer e.visit can with
    | none => s
    | some (q, seen) =>
      let grown := fun (x : Queue) => (seen.find? fun y => y.same x).elim x fun y => { x with deficit := y.deficit }
      { s with queues := s.queues.map grown }.serveQueue e q
  else match s.pickWeighted e can with
    | some q => s.serveQueue e q
    | none => s

/-- The queues of an egress point at a tick: buckets filled, the wheel turned, waiting queues entered. -/
def Queue.tick (q : Queue) (e : Egress) (now : Nat) : Queue := (((q.refill (now - e.served)).turn now).enter now).wake e.v

/-- THYME_WHEEL_TICK: the wheel releases the queues of this tick and takes those that must wait, and the selector begins a frame where
none is being sent. -/
def State.wheelTick (s : State) (n : Nat) : State :=
  match s.egress.find? fun e => e.n == n with
  | none => s
  | some e =>
    let s := { s with queues := mapIf (fun q => q.cfg.egress == n) (fun q => q.tick e s.now) s.queues
                      egress := mapIf (fun x => x.n == n) (fun x => { x with served := s.now }) s.egress }
    if s.now < e.busy then s else s.select e

/-- GATE_ENTRY_BOUNDARY: the entry that device time gives opens its classes. -/
def State.gateBoundary (s : State) (n : Nat) : State :=
  match s.image.gates.find? fun g => g.egress == n with
  | none => s
  | some g =>
    match gatePlace g s.now with
    | none => s
    | some p => { s with egress := mapIf (fun x => x.n == n) (fun x => { x with gate := (entryAt g.gates 0 0 p).1 }) s.egress }

/-! ### Sampling (R246) -/

/-- Ticks between samples. -/
def sampleTicks : Nat := 65536

/-- Bin of a value. -/
def binOf (shift v : Nat) : Nat := if v = 0 then 0 else min 15 (max 1 (Nat.log2 v - shift))

/-- Count a value in a histogram of 16 bins that saturate. -/
def binAdd (l : List Nat) (i : Nat) : List Nat :=
  let l := if l.length = 16 then l else List.replicate 16 0
  l.set i (min (2 ^ 32 - 1) (l.getD i 0 + 1))

def Queue.sample (q : Queue) (now : Nat) : Queue :=
  let depth := sumBy (·.1) q.frames
  let delay := (q.frames.head?).elim 0 fun x => now - x.2
  { q with depthHist := binAdd q.depthHist (binOf 7 depth), delayHist := binAdd q.delayHist (binOf 1 delay)
           maxDepth := max q.maxDepth depth, maxDelay := max q.maxDelay delay }

/-- QUEUE_SAMPLE: at a multiple of 65,536 ticks. -/
def State.sampleQueues (s : State) : State :=
  if s.now % sampleTicks ≠ 0 then s else { s with queues := s.queues.map fun q => q.sample s.now }

/-! ### The time page (R179) -/

/-- What stands at a whole millisecond for readers without a management role (R326). -/
def State.snapshot (s : State) : State :=
  { s with coarse := { s.coarse with
      served := s.telemetry.served
      queues := s.queues
      held := s.tenants.flatMap fun x => (List.range 4).map fun t => (x.tenant, t, s.tenantGrains x.tenant t) } }

/-- TIME_PAGE_UPDATE: device time rounded down to a whole microsecond. -/
def State.updateTime (s : State) : State :=
  let s := { s with timePage := s.now / ticksPerUs * ticksPerUs }
  if s.now % 470000 = 0 then s.snapshot else s

/-! ### Time -/

/-- What the end of a tick decides: the curds that close in it (R148; log entry 89) and the requests that its events have ended (R143,
R218). -/
def State.endTick (s : State) : State := s.closeDue.settleEnds.askTables.dispatch

/-- The tick has something to decide. -/
def State.undecided (s : State) : Bool := (s.curds.any fun c => c.closing && !c.running) || (s.reqs.any fun r => r.ended.isSome) || !s.tableless.isEmpty

/-- One tick of device time, with no command in it (log entry 1). First the tick that ends decides what its events brought about. -/
def State.tick (s : State) : State :=
  let s := if s.undecided then s.live State.endTick else s
  { s with now := s.now + 1, monitor := { s.monitor with count := s.monitor.count + 1 } }

/-! ### Commands -/

def execTimePageUpdate (s : State) : Host.Outcome State Fault Refusal := .next (s.live State.updateTime)

def execThymeWheelTick (egress : Nat) (s : State) : Host.Outcome State Fault Refusal := .next (s.live fun s => s.wheelTick egress)

def execGateEntryBoundary (egress : Nat) (s : State) : Host.Outcome State Fault Refusal := .next (s.live fun s => s.gateBoundary egress)

def execQueueSample (s : State) : Host.Outcome State Fault Refusal := .next (s.live State.sampleQueues)

end Sys2Proof.Machine
end

