-- ==== Sys2Proof/Machine/Dispatch.lean ====
section
/-! DEFINITION. The dispatch of commands to their meanings: one arm per row of spec/opcode_table.json. -/

namespace Sys2Proof.Machine

def exec (i : Instr) (s : State) : Host.Outcome State Fault Refusal :=
  match i with
  | .attachFunction sub f => Sys2Proof.Machine.execAttachFunction sub f s
  | .detachFunction sub mode => Sys2Proof.Machine.execDetachFunction sub mode s
  | .fence sub f => Sys2Proof.Machine.execFence sub f s
  | .openSequence sub f => Sys2Proof.Machine.execOpenSequence sub f s
  | .closeSequence sub seq => Sys2Proof.Machine.execCloseSequence sub seq s
  | .forkSequence sub f => Sys2Proof.Machine.execForkSequence sub f s
  | .editBlocksTruncate sub f => Sys2Proof.Machine.execEditBlocksTruncate sub f s
  | .editBlocksReplace sub f => Sys2Proof.Machine.execEditBlocksReplace sub f s
  | .appendBlocks sub f => Sys2Proof.Machine.execAppendBlocks sub f s
  | .sequenceCommit req => Sys2Proof.Machine.execSequenceCommit req s
  | .pinAfterWait req => Sys2Proof.Machine.execPinAfterWait req s
  | .pinRange sub f => Sys2Proof.Machine.execPinRange sub f s
  | .unpinRange sub f => Sys2Proof.Machine.execUnpinRange sub f s
  | .lookupPrefixHashForm sub f => Sys2Proof.Machine.execLookupPrefixHashForm sub f s
  | .lookupPrefixTokenForm sub f => Sys2Proof.Machine.execLookupPrefixTokenForm sub f s
  | .lookupPrefixFlowForm sub f => Sys2Proof.Machine.execLookupPrefixFlowForm sub f s
  | .attachPrefix sub f => Sys2Proof.Machine.execAttachPrefix sub f s
  | .publishPrefix sub f => Sys2Proof.Machine.execPublishPrefix sub f s
  | .readAndRekeyEnd req found check => Sys2Proof.Machine.execReadAndRekeyEnd req found check s
  | .withdrawPrefix sub handle => Sys2Proof.Machine.execWithdrawPrefix sub handle s
  | .fetchPages sub f => Sys2Proof.Machine.execFetchPages sub f s
  | .prefetchHint sub f => Sys2Proof.Machine.execPrefetchHint sub f s
  | .attend sub f => Sys2Proof.Machine.execAttend sub f s
  | .loadTableLoad sub f => Sys2Proof.Machine.execLoadTableLoad sub f s
  | .loadTableSelect sub f => Sys2Proof.Machine.execLoadTableSelect sub f s
  | .loadTableExport sub f => Sys2Proof.Machine.execLoadTableExport sub f s
  | .retireTable sub f => Sys2Proof.Machine.execRetireTable sub f s
  | .fill sub f => Sys2Proof.Machine.execFill sub f s
  | .copy sub f => Sys2Proof.Machine.execCopy sub f s
  | .compare sub f => Sys2Proof.Machine.execCompare sub f s
  | .reduceSum sub f => Sys2Proof.Machine.execReduceSum sub f s
  | .reduceMax sub f => Sys2Proof.Machine.execReduceMax sub f s
  | .lseMerge sub f => Sys2Proof.Machine.execLseMerge sub f s
  | .fetchWeights sub f => Sys2Proof.Machine.execFetchWeights sub f s
  | .unknownOpcode sub opcode => Sys2Proof.Machine.execUnknownOpcode sub opcode s
  | .abortByTag group fn abortSeq tag => Sys2Proof.Machine.execAbortByTag group fn abortSeq tag s
  | .abortBySeqRange group fn abortSeq first count => Sys2Proof.Machine.execAbortBySeqRange group fn abortSeq first count s
  | .abortAll group fn abortSeq => Sys2Proof.Machine.execAbortAll group fn abortSeq s
  | .apertureWrite group fn offset data => Sys2Proof.Machine.execApertureWrite group fn offset data s
  | .drainGraceEnd fn => Sys2Proof.Machine.execDrainGraceEnd fn s
  | .shutdownEnd fn => Sys2Proof.Machine.execShutdownEnd fn s
  | .fenceComplete req => Sys2Proof.Machine.execFenceComplete req s
  | .curdOffer req part => Sys2Proof.Machine.execCurdOffer req part s
  | .curdWindowEnd curd => Sys2Proof.Machine.execCurdWindowEnd curd s
  | .queryBlockArrival req ok data => Sys2Proof.Machine.execQueryBlockArrival req ok data s
  | .walkBlock pass found => Sys2Proof.Machine.execWalkBlock pass found s
  | .partEnd req part => Sys2Proof.Machine.execPartEnd req part s
  | .curdPassEnd curd => Sys2Proof.Machine.execCurdPassEnd curd s
  | .passYield pass => Sys2Proof.Machine.execPassYield pass s
  | .passResume pass slot found => Sys2Proof.Machine.execPassResume pass slot found s
  | .prefetchArrival req part block layer ok => Sys2Proof.Machine.execPrefetchArrival req part block layer ok s
  | .stagingTtlEnd copy => Sys2Proof.Machine.execStagingTtlEnd copy s
  | .tierMoveEnd move sourceOk => Sys2Proof.Machine.execTierMoveEnd move sourceOk s
  | .pinRelease index version => Sys2Proof.Machine.execPinRelease index version s
  | .ripeningSweep weight rec layer => Sys2Proof.Machine.execRipeningSweep weight rec layer s
  | .deadlineReached req => Sys2Proof.Machine.execDeadlineReached req s
  | .shadowCompare found => Sys2Proof.Machine.execShadowCompare found s
  | .bankRebuildEnd bank => Sys2Proof.Machine.execBankRebuildEnd bank s
  | .holeRemoval table => Sys2Proof.Machine.execHoleRemoval table s
  | .idleWithdraw slot => Sys2Proof.Machine.execIdleWithdraw slot s
  | .copyVerify slot => Sys2Proof.Machine.execCopyVerify slot s
  | .decodeRecheck rec layer decodes => Sys2Proof.Machine.execDecodeRecheck rec layer decodes s
  | .memberUnreachable device => Sys2Proof.Machine.execMemberUnreachable device s
  | .hello link f => Sys2Proof.Machine.execHello link f s
  | .spdmFrame link r => Sys2Proof.Machine.execSpdmFrame link r s
  | .config link fr f => Sys2Proof.Machine.execConfig link fr f s
  | .keepalive link fr => Sys2Proof.Machine.execKeepalive link fr s
  | .keepaliveInterval link => Sys2Proof.Machine.execKeepaliveInterval link s
  | .keepaliveTimeout link => Sys2Proof.Machine.execKeepaliveTimeout link s
  | .credit link fr => Sys2Proof.Machine.execCredit link fr s
  | .replay link fr => Sys2Proof.Machine.execReplay link fr s
  | .epoch link fr => Sys2Proof.Machine.execEpoch link fr s
  | .pageGet link fr => Sys2Proof.Machine.execPageGet link fr s
  | .pageData link fr data => Sys2Proof.Machine.execPageData link fr data s
  | .pagePut link fr data => Sys2Proof.Machine.execPagePut link fr data s
  | .putDone link fr => Sys2Proof.Machine.execPutDone link fr s
  | .tableGet link fr => Sys2Proof.Machine.execTableGet link fr s
  | .tableData link fr image => Sys2Proof.Machine.execTableData link fr image s
  | .dirPublish link fr k => Sys2Proof.Machine.execDirPublish link fr k s
  | .dirLookup link fr fingerprint pairs => Sys2Proof.Machine.execDirLookup link fr fingerprint pairs s
  | .dirAttach link fr => Sys2Proof.Machine.execDirAttach link fr s
  | .dirRelease link fr => Sys2Proof.Machine.execDirRelease link fr s
  | .dirWithdrawn link fr prefixAdmin => Sys2Proof.Machine.execDirWithdrawn link fr prefixAdmin s
  | .withdrawNotice link fr => Sys2Proof.Machine.execWithdrawNotice link fr s
  | .dirAnswer link fr k => Sys2Proof.Machine.execDirAnswer link fr k s
  | .aslResponseTimeout xid => Sys2Proof.Machine.execAslResponseTimeout xid s
  | .extentOffer link fr => Sys2Proof.Machine.execExtentOffer link fr s
  | .extentClaim link fr => Sys2Proof.Machine.execExtentClaim link fr s
  | .extentRelease link fr => Sys2Proof.Machine.execExtentRelease link fr s
  | .extentDone link fr => Sys2Proof.Machine.execExtentDone link fr s
  | .addCapacity cluster tag base grains => Sys2Proof.Machine.execAddCapacity cluster tag base grains s
  | .releaseCapacity cluster tag => Sys2Proof.Machine.execReleaseCapacity cluster tag s
  | .forcedCapacityRelease cluster tag => Sys2Proof.Machine.execForcedCapacityRelease cluster tag s
  | .evacuateTimeout extent => Sys2Proof.Machine.execEvacuateTimeout extent s
  | .drainTimeout extent => Sys2Proof.Machine.execDrainTimeout extent s
  | .drainEnd extent => Sys2Proof.Machine.execDrainEnd extent s
  | .extentSweepEnd extent => Sys2Proof.Machine.execExtentSweepEnd extent s
  | .regionRead link fr length => Sys2Proof.Machine.execRegionRead link fr length s
  | .regionWrite link fr data => Sys2Proof.Machine.execRegionWrite link fr data s
  | .regionRecall link fr => Sys2Proof.Machine.execRegionRecall link fr s
  | .recallDone link fr => Sys2Proof.Machine.execRecallDone link fr s
  | .recallTimeout region version host => Sys2Proof.Machine.execRecallTimeout region version host s
  | .nmo link fr op => Sys2Proof.Machine.execNmo link fr op s
  | .nmoDone link fr => Sys2Proof.Machine.execNmoDone link fr s
  | .regionOpen host domain region version grains => Sys2Proof.Machine.execRegionOpen host domain region version grains s
  | .regionGrant domain region version host => Sys2Proof.Machine.execRegionGrant domain region version host s
  | .regionPublish host domain region version check => Sys2Proof.Machine.execRegionPublish host domain region version check s
  | .regionWithdraw domain region version => Sys2Proof.Machine.execRegionWithdraw domain region version s
  | .regionRelease domain region version host => Sys2Proof.Machine.execRegionRelease domain region version host s
  | .destage object => Sys2Proof.Machine.execDestage object s
  | .traySsdFailure pair group ssd => Sys2Proof.Machine.execTraySsdFailure pair group ssd s
  | .cxlMemRead line checkOk viral => Sys2Proof.Machine.execCxlMemRead line checkOk viral s
  | .cxlMemWrite line data => Sys2Proof.Machine.execCxlMemWrite line data s
  | .nvmeCommandCompletion cluster p command error => Sys2Proof.Machine.execNvmeCommandCompletion cluster p command error s
  | .nvmeCommandTimeout cluster p command => Sys2Proof.Machine.execNvmeCommandTimeout cluster p command s
  | .nvmeResetEnd cluster p ok => Sys2Proof.Machine.execNvmeResetEnd cluster p ok s
  | .linkTrainingEnd port r retired corrected => Sys2Proof.Machine.execLinkTrainingEnd port r retired corrected s
  | .laneFailure cluster lane => Sys2Proof.Machine.execLaneFailure cluster lane s
  | .retryIntervalEnd port => Sys2Proof.Machine.execRetryIntervalEnd port s
  | .patrolScrub stack grain sector r => Sys2Proof.Machine.execPatrolScrub stack grain sector r s
  | .refresh stack tempC => Sys2Proof.Machine.execRefresh stack tempC s
  | .stackLost stack => Sys2Proof.Machine.execStackLost stack s
  | .evacuationEnd pgroup => Sys2Proof.Machine.execEvacuationEnd pgroup s
  | .rebuildMetadataEnd pgroup => Sys2Proof.Machine.execRebuildMetadataEnd pgroup s
  | .engineFault cluster slot check => Sys2Proof.Machine.execEngineFault cluster slot check s
  | .engineRemapped cluster slot clean => Sys2Proof.Machine.execEngineRemapped cluster slot clean s
  | .shelfBankFault bank badGrains => Sys2Proof.Machine.execShelfBankFault bank badGrains s
  | .shelfBankRemapped bank => Sys2Proof.Machine.execShelfBankRemapped bank s
  | .controlCheckpoint pair => Sys2Proof.Machine.execControlCheckpoint pair s
  | .controlPairFault pair => Sys2Proof.Machine.execControlPairFault pair s
  | .controlPairTakeover partition => Sys2Proof.Machine.execControlPairTakeover partition s
  | .keyBankReplaced bank => Sys2Proof.Machine.execKeyBankReplaced bank s
  | .keyBankCopyEnd bank => Sys2Proof.Machine.execKeyBankCopyEnd bank s
  | .aesKnownAnswerTest unit failed => Sys2Proof.Machine.execAesKnownAnswerTest unit failed s
  | .deadlineMonitorFault => Sys2Proof.Machine.execDeadlineMonitorFault s
  | .watchdogExpiry req => Sys2Proof.Machine.execWatchdogExpiry req s
  | .arbiterFault arbiter block => Sys2Proof.Machine.execArbiterFault arbiter block s
  | .ucieModuleLoss group module => Sys2Proof.Machine.execUcieModuleLoss group module s
  | .eventRecordWrite => Sys2Proof.Machine.execEventRecordWrite s
  | .drbgHealthFailure => Sys2Proof.Machine.execDrbgHealthFailure s
  | .tenantRemove conn tenant => Sys2Proof.Machine.execTenantRemove conn tenant s
  | .tenantRemovalDrained tenant => Sys2Proof.Machine.execTenantRemovalDrained tenant s
  | .tenantRemoved tenant => Sys2Proof.Machine.execTenantRemoved tenant s
  | .reclaimSweepEnd tenant => Sys2Proof.Machine.execReclaimSweepEnd tenant s
  | .tenantRestore conn tenant => Sys2Proof.Machine.execTenantRestore conn tenant s
  | .debugNonce conn => Sys2Proof.Machine.execDebugNonce conn s
  | .nonceLapse => Sys2Proof.Machine.execNonceLapse s
  | .debugUnlock conn t => Sys2Proof.Machine.execDebugUnlock conn t s
  | .deviceBrine conn => Sys2Proof.Machine.execDeviceBrine conn s
  | .getVersion t versions => Sys2Proof.Machine.execGetVersion t versions s
  | .getCapabilities t => Sys2Proof.Machine.execGetCapabilities t s
  | .negotiateAlgorithms t supported => Sys2Proof.Machine.execNegotiateAlgorithms t supported s
  | .getDigests t => Sys2Proof.Machine.execGetDigests t s
  | .getCertificate t slot => Sys2Proof.Machine.execGetCertificate t slot s
  | .challenge t slot nonce => Sys2Proof.Machine.execChallenge t slot nonce s
  | .getMeasurements t index nonce => Sys2Proof.Machine.execGetMeasurements t index nonce s
  | .keyExchange t supported => Sys2Proof.Machine.execKeyExchange t supported s
  | .finish t verified requesterRoot => Sys2Proof.Machine.execFinish t verified requesterRoot s
  | .heartbeat t => Sys2Proof.Machine.execHeartbeat t s
  | .keyUpdate t => Sys2Proof.Machine.execKeyUpdate t s
  | .endSession t => Sys2Proof.Machine.execEndSession t s
  | .chunkSend t data last => Sys2Proof.Machine.execChunkSend t data last s
  | .chunkGet t index => Sys2Proof.Machine.execChunkGet t index s
  | .modelKeyDeliver conn fingerprint key keyCheck => Sys2Proof.Machine.execModelKeyDeliver conn fingerprint key keyCheck s
  | .modelKeyWithdraw conn fingerprint => Sys2Proof.Machine.execModelKeyWithdraw conn fingerprint s
  | .fullReset cause => Sys2Proof.Machine.execFullReset cause s
  | .imageCheckEnd identityOk image => Sys2Proof.Machine.execImageCheckEnd identityOk image s
  | .hbmTrainingEnd failed weakRows => Sys2Proof.Machine.execHbmTrainingEnd failed weakRows s
  | .memorySetupEnd => Sys2Proof.Machine.execMemorySetupEnd s
  | .trialTimeout => Sys2Proof.Machine.execTrialTimeout s
  | .statusRead conn => Sys2Proof.Machine.execStatusRead conn s
  | .telemetryRead conn group inst => Sys2Proof.Machine.execTelemetryRead conn group inst s
  | .eventRead conn first count => Sys2Proof.Machine.execEventRead conn first count s
  | .traceRead conn fn => Sys2Proof.Machine.execTraceRead conn fn s
  | .imageUpload conn offset length image => Sys2Proof.Machine.execImageUpload conn offset length image s
  | .imageActivate conn => Sys2Proof.Machine.execImageActivate conn s
  | .imageCancel conn => Sys2Proof.Machine.execImageCancel conn s
  | .resetFull conn => Sys2Proof.Machine.execResetFull conn s
  | .resetPartialFunction conn fn => Sys2Proof.Machine.execResetPartialFunction conn fn s
  | .resetPartialModuleGroup conn group => Sys2Proof.Machine.execResetPartialModuleGroup conn group s
  | .resetPartialLinkCluster conn cluster => Sys2Proof.Machine.execResetPartialLinkCluster conn cluster s
  | .resetPartialEngineCluster conn cluster => Sys2Proof.Machine.execResetPartialEngineCluster conn cluster s
  | .moduleGroupLinkLoss group => Sys2Proof.Machine.execModuleGroupLinkLoss group s
  | .linkHold conn port => Sys2Proof.Machine.execLinkHold conn port s
  | .linkRelease conn port => Sys2Proof.Machine.execLinkRelease conn port s
  | .weightsLoad conn model h => Sys2Proof.Machine.execWeightsLoad conn model h s
  | .volumeRelease conn volume => Sys2Proof.Machine.execVolumeRelease conn volume s
  | .mgmtConnection tls certKey ownerChained => Sys2Proof.Machine.execMgmtConnection tls certKey ownerChained s
  | .mgmtIdleTimeout conn => Sys2Proof.Machine.execMgmtIdleTimeout conn s
  | .entdaa address => Sys2Proof.Machine.execEntdaa address s
  | .setdasa static address => Sys2Proof.Machine.execSetdasa static address s
  | .timePageUpdate => Sys2Proof.Machine.execTimePageUpdate s
  | .thymeWheelTick egress => Sys2Proof.Machine.execThymeWheelTick egress s
  | .gateEntryBoundary egress => Sys2Proof.Machine.execGateEntryBoundary egress s
  | .queueSample => Sys2Proof.Machine.execQueueSample s
  | .thermalSample pairs stackTemps => Sys2Proof.Machine.execThermalSample pairs stackTemps s
  | .railFault rail => Sys2Proof.Machine.execRailFault rail s
  | .vddAonLow => Sys2Proof.Machine.execVddAonLow s
  | .avsRetry acknowledged => Sys2Proof.Machine.execAvsRetry acknowledged s
  | .clockMonitorWindow priEdges secEdges => Sys2Proof.Machine.execClockMonitorWindow priEdges secEdges s
  | .refclkSwitchover => Sys2Proof.Machine.execRefclkSwitchover s
  | .holdoverExpiry => Sys2Proof.Machine.execHoldoverExpiry s
  | .hbmRefclkMissing stack => Sys2Proof.Machine.execHbmRefclkMissing stack s
  | .linkRefclkMissing cluster => Sys2Proof.Machine.execLinkRefclkMissing cluster s
  | .laneShort cluster lane => Sys2Proof.Machine.execLaneShort cluster lane s
  | .curdLatestClose curd => Sys2Proof.Machine.execCurdLatestClose curd s
  | .dmaTransferEnd req ok found check data => Sys2Proof.Machine.execDmaTransferEnd req ok found check data s
  | .tierMoveStart => Sys2Proof.Machine.execTierMoveStart s
  | .cxlMemResponse cluster read ok => Sys2Proof.Machine.execCxlMemResponse cluster read ok s
  | .doeResponse port r => Sys2Proof.Machine.execDoeResponse port r s
  | .surpriseDown port => Sys2Proof.Machine.execSurpriseDown port s
  | .resetNRelease priPresent secPresent => Sys2Proof.Machine.execResetNRelease priPresent secPresent s
  | .refreshManagementRequest stack => Sys2Proof.Machine.execRefreshManagementRequest stack s
  | .mgmtConnectionClose conn => Sys2Proof.Machine.execMgmtConnectionClose conn s
  | .mgmtUnknownCommand conn kind command bodyBytes => Sys2Proof.Machine.execMgmtUnknownCommand conn kind command bodyBytes s
  | .spdmUnsupportedRequest t code => Sys2Proof.Machine.execSpdmUnsupportedRequest t code s
  | .arrayBankFault bank => Sys2Proof.Machine.execArrayBankFault bank s
  | .drbgRetestPass => Sys2Proof.Machine.execDrbgRetestPass s
  | .ucieLaneRepair group module => Sys2Proof.Machine.execUcieLaneRepair group module s
  | .ucieTrainingEnd group repaired corrected => Sys2Proof.Machine.execUcieTrainingEnd group repaired corrected s
  | .metadataPairRebuildEnd => Sys2Proof.Machine.execMetadataPairRebuildEnd s
  | .backInvalidateResponse host region version dirty => Sys2Proof.Machine.execBackInvalidateResponse host region version dirty s
  | .poolCxlMemAccess host region version line write => Sys2Proof.Machine.execPoolCxlMemAccess host region version line write s
  | .partialResetEnd domain inst => Sys2Proof.Machine.execPartialResetEnd domain inst s

end Sys2Proof.Machine
end

