-- ==== Sys2Proof/Safety.lean ====
section
/-! DEFINITION. The terms in which claims about the block are made. -/

namespace Sys2Proof

/-- Areas of the state that only a few commands may change. -/
inductive Area where
  | queue | time | timePage | coarse | image | flash | dbg | tenants | boot | update | resets | power | direct | directBad | viral
  | egress | clusters | peerEpochs | dram | groups
  deriving DecidableEq, Repr

namespace Instr

/-- The command is, or may end in, a full reset, or the loss of the supply that all but the flash stands on. -/
def carriesReset : Instr → Bool
  | .fullReset _ | .trialTimeout | .imageUpload .. | .resetFull _ | .vddAonLow => true
  | _ => false

/-- What the command may change, of the areas of `Area`, where it carries no full reset. -/
def changes : Instr → List Area
  | .timePageUpdate => [.timePage, .coarse]
  | .thermalSample .. => [.boot, .power, .coarse]
  | .imageCheckEnd .. => [.boot, .flash, .image]
  | .hbmTrainingEnd .. => [.boot, .power, .dram, .groups]
  | .memorySetupEnd => [.boot, .flash, .egress, .clusters, .tenants]
  | .imageActivate _ | .imageCancel _ => [.boot, .flash, .update]
  | .railFault _ | .holdoverExpiry => [.boot, .power]
  | .clockMonitorWindow .. | .resetNRelease .. => [.boot, .power, .time]
  | .avsRetry _ | .refclkSwitchover => [.power]
  | .resetPartialFunction .. | .resetPartialModuleGroup .. | .resetPartialLinkCluster .. | .resetPartialEngineCluster ..
  | .moduleGroupLinkLoss _ => [.resets, .egress]
  | .partialResetEnd .. => [.resets]
  | .thymeWheelTick _ | .gateEntryBoundary _ => [.egress]
  | .cxlMemRead .. => [.directBad, .viral]
  | .cxlMemWrite .. => [.direct, .directBad]
  | .dmaTransferEnd .. => [.direct, .directBad, .dram, .groups]
  | .tenantRestore .. => [.tenants, .direct, .directBad]
  | .tenantRemove .. | .tenantRemovalDrained _ | .reclaimSweepEnd _ => [.tenants]
  | .tenantRemoved _ | .debugUnlock .. => [.tenants, .dbg]
  | .debugNonce _ | .nonceLapse => [.dbg]
  | .linkTrainingEnd .. | .laneFailure .. | .laneShort .. => [.clusters]
  | .epoch .. => [.peerEpochs]
  | .refresh .. | .refreshManagementRequest _ => [.dram]
  | .walkBlock .. | .passResume .. | .readAndRekeyEnd .. | .pageGet .. | .copyVerify _ | .patrolScrub .. => [.directBad, .dram, .groups]
  | .stackLost _ | .hbmRefclkMissing _ | .arbiterFault .. => [.dram, .groups]
  | .evacuationEnd _ | .rebuildMetadataEnd _ => [.groups]
  | _ => []

/-- The commands that the boot, the management port, the security island, the always-on domain and the event recorder take without the
controller being in service (R340, R351, R358, R382, R391). -/
def anytime : Instr → Bool
  | .keyBankReplaced _ | .keyBankCopyEnd _ | .eventRecordWrite | .drbgHealthFailure | .drbgRetestPass | .nonceLapse
  | .getVersion .. | .getCapabilities _ | .negotiateAlgorithms .. | .getDigests _ | .getCertificate .. | .challenge .. | .getMeasurements ..
  | .keyExchange .. | .finish .. | .heartbeat _ | .keyUpdate _ | .endSession _ | .chunkSend .. | .chunkGet .. | .spdmUnsupportedRequest ..
  | .modelKeyDeliver .. | .modelKeyWithdraw ..
  | .fullReset _ | .resetNRelease .. | .imageCheckEnd .. | .hbmTrainingEnd .. | .memorySetupEnd | .trialTimeout | .ucieTrainingEnd ..
  | .statusRead _ | .telemetryRead .. | .eventRead .. | .traceRead .. | .imageUpload .. | .imageActivate _ | .imageCancel _ | .resetFull _
  | .resetPartialFunction .. | .resetPartialModuleGroup .. | .resetPartialLinkCluster .. | .resetPartialEngineCluster ..
  | .linkHold .. | .linkRelease .. | .weightsLoad .. | .volumeRelease .. | .mgmtConnection .. | .mgmtConnectionClose _ | .mgmtIdleTimeout _
  | .mgmtUnknownCommand .. | .entdaa _ | .setdasa .. | .tenantRemove .. | .tenantRestore .. | .debugNonce _ | .debugUnlock .. | .deviceBrine _
  | .thermalSample .. | .railFault _ | .vddAonLow | .avsRetry _ | .clockMonitorWindow .. | .refclkSwitchover | .holdoverExpiry => true
  -- an operator's region command is answered outside service too (log entry 141)
  | .regionOpen _ d _ _ _ | .regionPublish _ d _ _ _ | .regionGrant d _ _ _ | .regionWithdraw d _ _ | .regionRelease d _ _ _ => d.conn.isSome
  | _ => false

/-- The commands that may change the windows of functions: those a host writes to its function's aperture, the end of a shutdown, and
what resets or revokes functions (R176, R180, R212, R213, R330, R333, R376). -/
def reachesWindows : Instr → Bool
  | .attachFunction .. | .detachFunction .. | .fence .. | .openSequence .. | .closeSequence .. | .forkSequence .. | .editBlocksTruncate ..
  | .editBlocksReplace .. | .appendBlocks .. | .pinRange .. | .unpinRange .. | .lookupPrefixHashForm .. | .lookupPrefixTokenForm ..
  | .lookupPrefixFlowForm .. | .attachPrefix .. | .publishPrefix .. | .withdrawPrefix .. | .fetchPages .. | .prefetchHint .. | .attend ..
  | .loadTableLoad .. | .loadTableSelect .. | .loadTableExport .. | .retireTable .. | .fill .. | .copy .. | .compare .. | .reduceSum ..
  | .reduceMax .. | .lseMerge .. | .fetchWeights .. | .unknownOpcode .. | .abortByTag .. | .abortBySeqRange .. | .abortAll ..
  | .apertureWrite .. | .drainGraceEnd _ | .shutdownEnd _ | .arbiterFault .. | .ucieModuleLoss .. | .tenantRemove .. | .tenantRestore ..
  | .debugUnlock .. | .fullReset _ | .memorySetupEnd | .trialTimeout | .imageUpload .. | .resetFull _ | .resetPartialFunction ..
  | .resetPartialModuleGroup .. | .resetPartialLinkCluster .. | .resetPartialEngineCluster .. | .moduleGroupLinkLoss _ | .vddAonLow
  | .partialResetEnd .. => true
  | _ => false

end Instr

end Sys2Proof

namespace Sys2Proof.Machine

/-- The command answers a next state, and `P` holds of it. -/
def Leaves (c : Instr) (s : State) (P : State → Prop) : Prop := ∃ t, exec c s = .next t ∧ P t

/-- A function but for its completion rings and the failures it counts for its next FENCE: its lifecycle, its window, its abort slot
and its counters. -/
def Fn.bare (f : Fn) : Fn := { f with rings := [], fails := [] }

/-- The functions' windows. -/
def State.windows (s : State) : List Fn := s.fns.map Fn.bare

/-! ### Request commands (R180 to R188, R209, R223) -/

/-- The controller with the descriptor's slots taken: k is past them and the request has its identifier (R184). -/
def State.slotTaken (s : State) (sub : Sub) (d : Desc) (f : Fn) : State :=
  let long := sub.long && f.version != 1
  let first : Stamped := { k := f.k, cont := long, sub := sub, desc := some d, tick := s.now }
  let second : Stamped := { k := f.k + 1, cont := false, sub := sub, desc := none, tick := s.now }
  let s := s.modFn f.fn fun x => { x with stamped := x.stamped ++ [first] }
  let s := if long then s.modFn f.fn fun x => { x with stamped := x.stamped ++ [second] } else s
  s.bumpId.modFn f.fn fun x => Fn.skip x.early.length (x.taken f.k (if long then 2 else 1))

/-- The descriptor lands in the next slots of the window of function `f`, which is attached, in service on a controller with Zarfy (R13),
and has no other descriptor standing. -/
def State.lands (s : State) (sub : Sub) (f : Fn) : Bool :=
  let n := slotCount f.version
  s.inService && !s.isTray && s.faults.groupsUp.contains sub.group && f.group == sub.group && f.code == .ready && f.stamped == [] && f.early == [] &&
    f.stampSlot sub.seq sub.phase == some f.k &&
    (!sub.long || f.version == 1 ||
      f.stampSlot ((sub.seq + 1) % 32768) (if (sub.seq + 1) % n = 0 then 1 - sub.phase else sub.phase) == some (f.k + 1))

/-- Where admission accepts the descriptor of a request command: the state, the function, and the request that enters the
outstanding table; `none` where it lands elsewhere or is refused (R188, R209, R211, R223). -/
def State.admits (s : State) (sub : Sub) (d : Desc) : Option (State × Fn × Req) :=
  match s.fn? sub.fn with
  | none => none
  | some f =>
    let long := sub.long && f.version != 1
    let r := s.mkReq f sub d f.k s.now
    let u := (s.slotTaken sub d f).loadNamed r
    if !s.lands sub f || !s.tenantActive f.tenant || !opcodeOffered f.version r.opcode || shapeBad f.version long r.desc ||
      !headerOk r.cls r.deadline r.desc || (u.checkAdmit r).isSome then none
    else if r.cls ≠ 0 then some (u, f, r)
    else
      let r := if r.deadline = 0 then { r with deadline := u.implicitDeadline r } else r
      match u.decideZero r with
      | .accept rs => some (u.reserve r rs, f, r)
      | _ => none

/-- Where a request command begins: the state, its request in the outstanding table, and the request, with which its own effect
starts; its identifier is fresh, and nothing taken before it holds it back (R40, R219). -/
def State.begins (s : State) (sub : Sub) (d : Desc) : Option (State × Req) :=
  match s.admits sub d with
  | none => none
  | some (u, _, r) =>
    let t := { u with reqs := u.reqs ++ [r] }
    if t.blocked r || t.req? r.id != some r then none else some (t, r)

/-- The completion ring of a request's attachment. -/
def State.ringOf (s : State) (r : Req) : Option Ring := (s.fn? r.fn).bind fun f => f.rings.find? fun g => g.attach == r.attach

/-- Between `s` and `t` the request has got its completion record: the next one of its ring, with its opcode, tag and slot, and with
this status and result (R202 to R205). -/
def State.completes (s t : State) (r : Req) (status result : Nat) : Prop :=
  ∃ g c, s.ringOf r = some g ∧ Output.completion c ∈ t.out ∧ c.fn = r.fn ∧ c.attach = g.attach ∧ c.c = g.next ∧
    c.addr = g.base + 32 * (g.next % 2 ^ g.log2) ∧ c.phase = ((g.next / 2 ^ g.log2 + 1) % 2 == 1) ∧ c.opcode = r.opcode ∧ c.tag = r.tag ∧
    c.slotSeq = r.slotSeq ∧ c.status = status ∧ c.result = result

/-- The request is on its way out: the end of this tick completes it with this status, at this block and layer, unless an event of higher
rank decides otherwise within the tick (R143, R218). -/
def State.ends (t : State) (r : Req) (status block layer : Nat) : Prop :=
  ∃ x, t.req? r.id = some x ∧ x.ended = some status ∧ x.endBlock = block ∧ x.endLayer = layer

/-- A completion record of the request's slot with this status has left the block (R205). -/
def State.recorded (t : State) (r : Req) (status : Nat) : Prop :=
  ∃ c, Output.completion c ∈ t.out ∧ c.fn = r.fn ∧ c.attach = r.attach ∧ c.opcode = r.opcode ∧ c.tag = r.tag ∧ c.slotSeq = r.slotSeq ∧
    c.status = status

/-- The request stands in this phase. -/
def State.stands (t : State) (r : Req) (p : ReqPhase) : Prop := ∃ x, t.req? r.id = some x ∧ x.phase = p

/-- Between `s` and `t` the request's result bytes have left for host memory, and it stands until that write ends, with this status and
result to come (R189, R202). -/
def State.answers (s t : State) (r : Req) (addr : Nat) (data : Bytes) (status result : Nat) : Prop :=
  Output.hostWrite (s.groupOfFn r.fn) addr data ∈ t.out ∧
    ∃ x a, t.req? r.id = some x ∧ x.phase = .writing ∧ x.answer = some a ∧ a.status = status ∧ a.result = result

/-- What the end of moves may carry on: a running range command, or a supply that waits for room. -/
def Req.settles (r : Req) : Bool :=
  r.phase == .started && match r.desc with
    | .pinRange _ | .prefetchHint _ | .append _ | .replace _ => true
    | _ => false

/-! ### Sequences, prefixes, links and connections -/

/-- Block count and token count of the version that the commit of a change makes (R33, R35). -/
def State.countsAfter (s : State) (r : Req) (q : Seq) (m : ModelRec) : Nat × Nat :=
  match r.desc with
  | .append f => (q.cur.blockCount + f.blockCount, q.cur.tokenCount + sumBy (·.validTokens) r.entries)
  | .truncate f => (f.firstBlock, s.tokensAt q q.cur f.firstBlock m.blockTokens)
  | _ => (q.cur.blockCount, q.cur.tokenCount)

/-- The part in position i of an outstanding request. -/
def State.partOf (t : State) (id i : Nat) : Option Part := (t.req? id).bind fun r => r.parts[i]?

/-- The link is up and accepts this frame: of its session, whose keys stand in the link's slot, legal, in sequence, under its owner's key
epoch, and with a good tag (R254 to R256, R313). -/
def State.hears (s : State) (link : Nat) (p : Port) (fr : Frame) (minVersion : Nat) (kinds : List Nat) (payload : Nat) : Bool :=
  s.inService && s.port? (.asvis link) == some p && p.st == .up && !p.resetting && decide (minVersion ≤ p.version) &&
    frameLegal p fr kinds payload && fr.frameSeq == p.rxSeq && ((s.frameEpoch link fr).all fun e => fr.keyEpoch == e) && fr.tagOk &&
    s.slotFilled (portSlot (.asvis link))

/-- The state that has accepted a frame on a link, its key derived and cached, before what its message does (R255, R321). -/
def State.heard (s : State) (link : Nat) (fr : Frame) : State :=
  s.modPort (.asvis link) fun p => { p.deriveKey { hdrOf fr with keyEpoch := fr.keyEpoch } with rxSeq := p.rxSeq + 1, lastRx := s.now }

/-- A frame with this message, transaction, object, status and payload has left on the link. -/
def State.sent (t : State) (link msg xid object status : Nat) (data : Bytes) : Prop :=
  ∃ f, Output.frame link f ∈ t.out ∧ f.msg = msg ∧ f.xid = xid ∧ f.object = object ∧ f.status = status ∧ f.data = data

/-- The engine in a slot of a cluster. -/
def State.engineAt (s : State) (c p : Nat) : Option Engine := s.engines.find? fun e => e.cluster == c && e.slot == p

/-- The lowest-numbered spare slot of a cluster (R342). -/
def State.spareEngine (s : State) (c : Nat) : Option Nat :=
  (List.range 16).find? fun p => s.engines.any fun e => e.cluster == c && e.slot == p && e.st == .spare

/-- No open transaction of the port. -/
def State.quiet (s : State) (port : PortId) : Bool := s.txns.all fun x => x.port != port

/-- The bytes have left on the link in frames of at most 4,096, in ascending order, the last one marked (R259). -/
def State.sentPage (t : State) (link msg xid object : Nat) (data : Bytes) : Prop :=
  ∀ i, 4096 * i < data.length → ∃ f, Output.frame link f ∈ t.out ∧ f.msg = msg ∧ f.xid = xid ∧ f.object = object ∧ f.status = 0 ∧
    f.offset = 4096 * i ∧ f.data = (data.drop (4096 * i)).take 4096 ∧ f.last = decide (data.length ≤ 4096 * i + 4096)

/-- A command on a management connection is served: its connection, role and boot state allow it (R382). -/
def State.serves (s : State) (conn : Nat) (c : Conn) (roles : List Nat) (before : Bool) : Bool :=
  s.conn? conn == some c && s.portOn && s.boot.phase != .failed && roles.contains c.role && (s.inService || before)

/-- A response with this status and body has left on a management connection. -/
def State.says (t : State) (conn status : Nat) (body : List Nat) : Prop := Output.mgmt conn status body ∈ t.out

/-- A region command is heard: from the pool's side in service, or from an operator on a management connection (log entry 141). -/
def State.heeds (s : State) (d : RegionScope) : Prop :=
  match d.conn with
  | none => s.inService = true
  | some c => ∃ k, s.serves c k [1] false = true

/-- A region command's answer, that it is done, has left where the command came from. -/
def State.regionTold (t : State) (d : RegionScope) (host id version : Nat) : Prop :=
  match d.conn with
  | none => Output.region host d.domain id version stOk 0 ∈ t.out
  | some c => t.says c msOk [stOk, 0]

/-- An SPDM response has left on a transport. -/
def State.tells (t : State) (tr : Transport) (code : Nat) (body : List Nat) : Prop := Output.spdm tr code body ∈ t.out

/-! ### Frames -/

/-- The area is the same in both states. -/
def Same : Area → State → State → Prop
  | .queue, s, t => t.pending = s.pending
  | .time, s, t => t.now = s.now
  | .timePage, s, t => t.timePage = s.timePage
  | .coarse, s, t => t.coarse = s.coarse
  | .image, s, t => t.image = s.image
  | .flash, s, t => t.flashA = s.flashA ∧ t.flashB = s.flashB
  | .dbg, s, t => t.dbg = s.dbg
  | .tenants, s, t => t.tenants = s.tenants
  | .boot, s, t => t.boot = s.boot
  | .update, s, t => t.update = s.update
  | .resets, s, t => t.resets = s.resets
  | .power, s, t => t.power = s.power
  | .direct, s, t => t.direct = s.direct
  | .directBad, s, t => t.directBad = s.directBad
  | .viral, s, t => t.viral = s.viral
  | .egress, s, t => t.egress = s.egress
  | .clusters, s, t => t.clusters = s.clusters
  | .peerEpochs, s, t => t.peerEpochs = s.peerEpochs
  | .dram, s, t => t.dram = s.dram
  | .groups, s, t => t.groups = s.groups

/-- A next state of the command is `f s t`: the state before with the fields that the command may change taken from the state after. -/
def ChangesOnly (c : Instr) (f : State → State → State) : Prop := ∀ s t, exec c s = .next t → t = f s t

/-- While the first-events area still fills, a head of it and of the ring that bear one number are one record. -/
def Recorder.paired (q : Recorder) : Prop :=
  ∀ x l, q.firsts.head? = some x → q.ring.head? = some l → q.next ≤ 1024 → x.seq = l.seq → x = l

/-- Bytes that the end of a near-memory operation writes to its destination, once the pages that it reads are in. -/
def State.nearBytes (s : State) (r : Req) (data : Bytes) : Nat :=
  match r.desc with
  | .fill f => f.dst.length / 8 * 8
  | .copy f => ((s.sourceBytes r [f.a] 0 r.data data).headD []).length
  | d => match reduceOf d with
    | some (f, lse) => (reduceResult d f (s.reduceSources f lse data)).1.length
    | none => 0

/-- Bytes that the end of a transfer writes to the destination of its near-memory operation; none where a page that it reads is still to
come, or cannot be read. -/
def State.writtenBytes (s : State) (r : Req) (data : Bytes) : Nat :=
  match State.readSlots r.id r.slotsLeft s with
  | (s, none) => (s.req? r.id).elim 0 fun r => s.nearBytes r data
  | (_, some _) => 0

/-- Both copies of every metadata record and of every row of the array are good: a read of one repairs and loses nothing (R26, R47, R89). -/
def State.mirrored (s : State) : Bool :=
  s.seqs.all (fun q => q.mirrorA && q.mirrorB) && s.recs.all (fun r => r.mirrorA && r.mirrorB) && s.dir.all (fun e => e.mirrorA && e.mirrorB) &&
    s.tables.all (fun t => t.mirrorA && t.mirrorB)

end Sys2Proof.Machine
end

