-- ==== Sys2Proof/Certificates/Slice0/Obligations.lean ====
section
/-! DEFINITION. Statements about the block, for the provers. First the block as a whole, then its families of commands in the order of the
opcode table: where each command has its own effect (`Leaves c s P` says that the command answers a next state and what that state holds),
under hypotheses on the state before and the operands alone; then frames. -/

open Sys2Proof Sys2Proof.Machine

/-! ### The block as a whole (01, 02, 09, 14, 15) -/

/-- One step runs the command at the front of the queue on the state with the queue's rest; with none waiting, one tick passes, at whose end
the curds that are due close, the requests on their way out complete, and the tables that arrived pages lack are asked for (R148, R171, R218;
log entries 1, 89 and 136, the model's choice). -/
def Obligations.StepRunsFront : Prop :=
  (∀ (s : State) (c : Instr) (rest : List Instr), s.pending = c :: rest → step s = exec c { s with pending := rest }) ∧
  ∀ (s : State), s.pending = [] →
    let after := fun (u : State) => { u with now := u.now + 1, monitor := { u.monitor with count := u.monitor.count + 1 } }
    (s.undecided = false → step s = .next (after s)) ∧
    (s.undecided = true → step s = .next (after (s.live State.endTick)) ∧ (s.live State.endTick).now = s.now)

/-- What the release of a full reset leaves (R7, R23, R334, R356, R357, R367): device time 0, no request, sequence, prefix, table or
page, every sequence slot free with slot 0 at generation 1 first, debug locked, and an empty direct region in canonical form. -/
def Obligations.ResetLeaves : Prop :=
  let s := State.reset
  s.pending = [] ∧ s.now = 0 ∧ s.boot.phase = .identity ∧ s.fns = [] ∧ s.reqs = [] ∧ s.seqs = [] ∧ s.dir = [] ∧ s.tables = [] ∧
    s.recs = [] ∧ s.pages = [] ∧ s.staging = [] ∧ s.calendar = [] ∧ s.update.st = 0 ∧ s.island.keys = [] ∧ s.dbg.st = 0 ∧
    s.dbg.nonce = none ∧ s.parity = [] ∧ (s.seqFree.take).map (·.1) = some 0 ∧ genOf s.seqGens 0 = 1 ∧ s.direct.wf = true ∧
    ∀ a, s.directRead a 1 = [memDefault]

/-- The direct region keeps its canonical form in every step (log entry 5): addresses strictly rising, no entry equal to what an unlisted
address reads as. -/
def Obligations.DirectMemoryKeepsForm : Prop := ∀ (s t : State), s.direct.wf = true → step s = .next t → t.direct.wf = true

/-- Device time (R7, with a tick of the model as log entry 1 has it): a step with no command waiting adds one; a command never sets, stops
or restarts it, but for a full reset, after which the controller is not in service and counts from 0. -/
def Obligations.DeviceTimeRuns : Prop :=
  ∀ (s t : State), step s = .next t →
    (s.pending = [] → t.now = s.now + 1) ∧
    ∀ c rest, s.pending = c :: rest →
      t.now = s.now ∨ t.now = 0 ∧ t.inService = false ∧
        (c.carriesReset = true ∨ (∃ a b, c = .resetNRelease a b) ∨ ∃ a b, c = .clockMonitorWindow a b)

/-- Which commands change what, in the areas that few commands touch (R7, R179, R326, R331, R335, R356, R373, R377, R392): the queue of
waiting commands never; device time, the time page, the running image, the flash, the debug state and the direct region only the commands
that `Instr.changes` lists for them, and full resets. -/
def Obligations.GuardedAreasStand : Prop :=
  ∀ (c : Instr) (s t : State), exec c s = .next t →
    Same .queue s t ∧
    (c.carriesReset = false →
      ∀ a ∈ [Area.time, .timePage, .image, .flash, .dbg, .direct], a ∉ c.changes → Same a s t)

/-- The same for the boot, staging, partial resets, tenants, power, the coarse figures, the direct region's bad lines and viral state, the
egress shapers, the link clusters, the peers' epochs, and memory stacks and groups (R201, R242, R256, R263, R293, R299, R318, R326, R330,
R367, R374, R392). -/
def Obligations.ColdAreasStand : Prop :=
  ∀ (c : Instr) (s t : State), exec c s = .next t → c.carriesReset = false →
    ∀ a ∈ [Area.coarse, .tenants, .boot, .update, .resets, .power, .directBad, .viral, .egress, .clusters, .peerEpochs, .dram, .groups],
      a ∉ c.changes → Same a s t

/-- Windows, abort slots and lifecycle of functions change only by commands at the functions' apertures, by the end of a shutdown, and by
resets and revocations (R176, R182, R186, R212, R330, R376). -/
def Obligations.WindowsStand : Prop :=
  ∀ (c : Instr) (s t : State), exec c s = .next t → c.reachesWindows = false → t.windows = s.windows

/-- Outside service, the commands that need it do nothing (log entry 22). -/
def Obligations.OutOfService : Prop :=
  ∀ (c : Instr) (s : State), c.anytime = false → s.inService = false → exec c s = .next s

/-- Records of the event ring and of the first-events area stand (R351): no command but EVENT_RECORD_WRITE and full resets touches them;
and after any command but a power-on reset, the next number has not fallen, and, where heads of the two that bear one number are one record,
they still are, and every record of the first-events area is there with its number, code, source, first time and detail. -/
def Obligations.RecordsStand : Prop :=
  ∀ (c : Instr) (s t : State), exec c s = .next t → c ≠ .fullReset .powerOn →
    (c.carriesReset = false → c ≠ .eventRecordWrite → t.recorder.ring = s.recorder.ring ∧ t.recorder.firsts = s.recorder.firsts ∧
      t.recorder.next = s.recorder.next) ∧
    s.recorder.next ≤ t.recorder.next ∧
    (s.recorder.paired → t.recorder.paired ∧ ∀ x ∈ s.recorder.firsts, ∃ y ∈ t.recorder.firsts, y.seq = x.seq ∧ y.code = x.code ∧ y.source = x.source ∧ y.first = x.first ∧
      y.detail = x.detail)

/-- A token may raise the debug state from 0 to 1, from 0 to 2, or from 1 to 2, and does so once nothing of a tenant is left; no command
lowers it; and only a full reset locks JTAG again (R335). -/
def Obligations.DebugStateOnlyRises : Prop :=
  (∀ (c : Instr) (s t : State), s.dbg.st ≤ 2 → (∀ x ∈ s.dbg.opening, x.2 ≤ 2) → exec c s = .next t →
    t.dbg.st ≤ 2 ∧ (∀ x ∈ t.dbg.opening, x.2 ≤ 2) ∧ (s.dbg.st ≤ t.dbg.st ∨ c.carriesReset = true ∧ t.dbg.st = 0) ∧
      (s.dbg.st < t.dbg.st → (∃ n k, c = .debugUnlock n k) ∨ ∃ n, c = .tenantRemoved n)) ∧
  ∀ (s : State) (conn : Nat) (c : Conn) (k : Token),
    s.serves conn c [2] false = true → s.tokenFails k = 0 → (∀ x ∈ s.tenants, x.life ≠ .active ∧ x.life ≠ .removing) →
    s.dbg.opening = [] → (s.dbg.st, k.scope) ∈ [(0, 1), (0, 2), (1, 2)] →
    Leaves (.debugUnlock conn k) s fun t => t.dbg.st = k.scope

/-- A repeat of the last record within 1 ms of its last time writes no new record: it writes last_time and raises repeat_count up to
65,535, where it still writes last_time, and the first occurrence's detail stays; any other event writes a new record with repeat_count 1
(R353). An event's name stands for its code where the manual gives no number. -/
def Obligations.RepeatsCount : Prop :=
  ∀ (s : State) (e : Event) (rest : List Event),
    s.recorder.booted = true → s.recorder.queue = e :: rest → e.count = 1 →
    (∀ l ls, s.recorder.ring = l :: ls → e.code = l.code → e.name = l.name → e.source = l.source → e.first ≤ l.last + 470000 →
      Leaves .eventRecordWrite s fun t => t.recorder.next = s.recorder.next ∧
        t.recorder.ring = { l with last := e.first, count := if l.count < 65535 then l.count + 1 else 65535 } :: ls) ∧
    ((∀ l ls, s.recorder.ring = l :: ls → ¬(e.code = l.code ∧ e.name = l.name ∧ e.source = l.source ∧ e.first ≤ l.last + 470000)) →
      Leaves .eventRecordWrite s fun t => t.recorder.next = s.recorder.next + 1 ∧
        t.recorder.ring = ({ e with seq := s.recorder.next % 2 ^ 32, count := 1 } :: s.recorder.ring).take 65536)

/-- A tray-role controller accepts no ATTEND: one that a link message brings is refused with NOT_OFFLOADABLE and does nothing, and a tray
takes none at a window, whatever functions its image names (R13, R14). -/
def Obligations.TrayRefusesAttend : Prop :=
  (∀ (s : State) (link : Nat) (p : Port) (fr : Frame) (f : AttendF),
    s.hears link p fr 2 [1, 2] 0 = true → s.isTray = true →
    Leaves (.nmo link fr (.attend f)) s fun t => t.sent link msgNmoDone fr.xid 0 9 [] ∧ t.reqs = s.reqs ∧ t.passes = s.passes ∧
      t.curds = s.curds ∧ t.tray = s.tray) ∧
  ∀ (s : State) (sub : Sub) (f : AttendF), s.isTray = true → exec (.attend sub f) s = .next s

/-- Bytes of the direct region outside what a command stores read as before (R194, R198, R199, log entry 13): a CXL.mem write stores its
line; the end of a transfer stores to the destination of its near-memory operation, and an operation without a destination there stores
nothing. -/
def Obligations.DirectBytesStand : Prop :=
  (∀ (s t : State) (line : Nat) (data : Bytes) (a : Nat),
    exec (.cxlMemWrite line data) s = .next t → s.direct.wf = true → (a < 64 * line ∨ 64 * line + 64 ≤ a) →
    t.directRead a 1 = s.directRead a 1) ∧
  ∀ (s t : State) (ok : Bool) (check : SelfCheck) (data : Bytes) (r : Req) (a : Nat),
    exec (.dmaTransferEnd r.id ok [] check data) s = .next t → s.req? r.id = some r → s.direct.wf = true →
    (∀ o, destOf r.desc = some o → o.kind = 1 → a < o.address ∨ o.address + max o.length (s.writtenBytes r data) ≤ a) →
    t.directRead a 1 = s.directRead a 1

/-- Sequence slots (R23): freeing a sequence advances its slot's generation, 255 followed by 1, and puts the slot at the tail of the free
list; the slot at the head is the next one taken; and after a full reset slots are taken in ascending order. -/
def Obligations.SequenceSlotsInTurn : Prop :=
  (∀ (s : State) (i : Nat) (q : Seq), s.seq? i = some q →
    let t := s.freeSeq i
    genOf t.seqGens i = (if q.gen = 255 then 1 else q.gen + 1) ∧ t.seqFree.freed = s.seqFree.freed ++ [i] ∧
      t.seqFree.fresh = s.seqFree.fresh ∧ (∀ p ∈ t.seqs, p.index ≠ i) ∧ ∀ j, j ≠ i → genOf t.seqGens j = genOf s.seqGens j) ∧
  (∀ (l : FreeList) (i : Nat) (rest : List Nat), l.limit ≤ l.fresh → l.freed = i :: rest → l.take = some (i, { l with freed := rest })) ∧
  ∀ n, n < 16777216 → FreeList.take { State.reset.seqFree with fresh := n } = some (n, { State.reset.seqFree with fresh := n + 1 })

/-! ### Function lifecycle (09, 10) -/

/-- The commands of the function lifecycle have their own effects: an attach of an unattached function makes it ready with its
record, and one during a drain is held (R180, R203, R212, R214); a detach begins the shutdown that its grace and its end carry on
(R213); a FENCE stands until nothing it covers is outstanding and then completes with its count (R219); an abort that its counter
expects is counted (R186, R216); a word written to the window or to the abort slot that is no stamp is kept (R176, R182). -/
def Obligations.LifecycleCommandsComplete : Prop :=
  (∀ (s : State) (sub : Sub) (a : AttachFnF) (f : Fn),
    s.inService = true → s.isTray = false → s.faults.groupsUp.contains sub.group = true → s.fn? sub.fn = some f → f.group = sub.group →
    f.code = .unattached → sub.seq = 0 → sub.phase = 0 → s.attachCheck f a = none →
    Leaves (.attachFunction sub a) s fun t =>
      (∃ g, t.fn? sub.fn = some g ∧ g.code = .ready ∧ g.version = a.version ∧ g.attach = s.ids ∧ g.k = 0 ∧ g.stamped = [] ∧
        g.abortCount = 0) ∧
      ∃ c, Output.completion c ∈ t.out ∧ c.fn = sub.fn ∧ c.attach = s.ids ∧ c.c = 0 ∧ c.status = stOk ∧ c.opcode = 0x01 ∧ c.tag = sub.tag) ∧
  (∀ (s : State) (sub : Sub) (a : AttachFnF) (f : Fn),
    s.inService = true → s.isTray = false → s.faults.groupsUp.contains sub.group = true → s.fn? sub.fn = some f → f.group = sub.group →
    f.code = .draining → sub.seq = 0 → sub.phase = 0 → s.attachCheck f a = none →
    Leaves (.attachFunction sub a) s fun t =>
      ∃ g, t.fn? sub.fn = some g ∧ g.code = .drainingHeld ∧ g.version = a.version ∧ g.k = 0 ∧ g.shutdown = f.shutdown ∧
        g.held = some { attach := s.ids, version := a.version, tag := sub.tag, tick := s.now }) ∧
  (∀ (s u : State) (sub : Sub) (mode : Nat) (f g : Fn) (r : Req),
    s.admits sub (.detach mode) = some (u, f, r) → u.fn? f.fn = some g →
    Leaves (.detachFunction sub mode) s fun t =>
      ∃ h, t.fn? f.fn = some h ∧ h.code = .draining ∧ h.version = 0 ∧ h.stamped = [] ∧
        h.shutdown = some { attach := f.attach, tag := r.tag, slotSeq := r.slotSeq, mode := mode, tick := u.now, record := true }) ∧
  (∀ (s u : State) (sub : Sub) (a : FenceF) (f g : Fn) (r : Req),
    s.admits sub (.fence a) = some (u, f, r) → u.fn? r.fn = some g →
    Leaves (.fence sub a) s fun t =>
      (∃ h, t.fn? r.fn = some h ∧ h.lastFence = r.id ∧ h.fails = []) ∧
      (∃ x ∈ t.reqs, x.id = r.id ∧ x.phase = .fencing) ∧
      ∃ c ∈ t.fences, c.req = r.id ∧ c.after = g.lastFence ∧ c.seq = if a.mode = 1 then some a.seq else none) ∧
  (∀ (s : State) (n : Nat) (f : Fn) (d : Shutdown),
    s.inService = true → s.fn? n = some f → f.shutdown = some d → d.mode = 0 → d.tick + 14100 ≤ s.now →
    Leaves (.drainGraceEnd n) s fun t => ∃ g, t.fn? n = some g ∧ g.shutdown = some { d with mode := 1 }) ∧
  (∀ (s : State) (n : Nat) (f : Fn) (d : Shutdown),
    s.inService = true → s.fn? n = some f → f.shutdown = some d → (∀ r ∈ s.reqs, r.fn = n → r.attach ≠ d.attach) →
    Leaves (.shutdownEnd n) s fun t =>
      ∃ g, t.fn? n = some g ∧ g.shutdown = none ∧ g.code = (if f.held.isSome then .ready else .unattached) ∧
        ∀ x ∈ g.rings, x.attach ≠ d.attach) ∧
  (∀ (s : State) (id : Nat) (r : Req) (c : FenceCount),
    s.inService = true → s.req? id = some r → (s.fences.find? fun c => c.req == id) = some c → (s.ringOf r).isSome = true →
    (∀ x ∈ s.reqs, x.fn = c.fn → x.id < id → ∃ h, c.seq = some h ∧ h ∉ namesOf x.desc) →
    Leaves (.fenceComplete id) s fun t => s.completes t r stOk (resFailed c.failed) ∧ ∀ x ∈ t.fences, x.req ≠ id) ∧
  (∀ (s : State) (group n q : Nat) (f : Fn),
    s.inService = true → s.isTray = false → s.faults.groupsUp.contains group = true → s.fn? n = some f → f.group = group →
    f.code = .ready → f.stamped = [] → q = f.abortCount % 65536 →
    (∀ tag, Leaves (.abortByTag group n q tag) s fun t => ∃ g, t.fn? n = some g ∧ g.abortCount = (f.abortCount + 1) % 65536) ∧
    (∀ first count, count ≠ 0 →
      Leaves (.abortBySeqRange group n q first count) s fun t => ∃ g, t.fn? n = some g ∧ g.abortCount = (f.abortCount + 1) % 65536) ∧
    Leaves (.abortAll group n q) s fun t => ∃ g, t.fn? n = some g ∧ g.abortCount = (f.abortCount + 1) % 65536) ∧
  ∀ (s : State) (group n off : Nat) (data : Bytes) (f : Fn),
    s.inService = true → s.isTray = false → s.faults.groupsUp.contains group = true → s.fn? n = some f → f.group = group → f.code = .ready → f.stamped = [] →
    data.length = 8 → off % 8 = 0 →
    (off < 0x4000 → off % slotBytes f.version ≠ slotBytes f.version - 8 →
      Leaves (.apertureWrite group n off data) s fun t =>
        ∃ g, t.fn? n = some g ∧ g.window = putBytes f.window off data ∧ g.stamped = [] ∧ g.k = f.k) ∧
    (0x4000 ≤ off → off < 0x4038 →
      Leaves (.apertureWrite group n off data) s fun t =>
        ∃ g, t.fn? n = some g ∧ g.abortSlot = putBytes f.abortSlot (off - 0x4000) data ∧ g.window = f.window)

/-! ### Sequences (02) -/

/-- OPEN_SEQUENCE, FORK_SEQUENCE and CLOSE_SEQUENCE have their effects and their records (R23, R32, R34, R36): an opened sequence
takes the slot at the head of the free list with version 1 and no blocks, a fork shares the parent's blocks below n, and a closed
sequence's handle names no open sequence any more. -/
def Obligations.OpeningAndClosingComplete : Prop :=
  (∀ (s u w : State) (sub : Sub) (f g : OpenF) (r : Req) (i : Nat) (fl : FreeList),
    s.begins sub (.openSeq f) = some (u, r) → r.desc = .openSeq g → (u.ringOf r).isSome = true → u.checkOpen r g = none → u.metaGone = false →
    u.seqFree.take = some (i, fl) → u.insertFlow r.tenant (i + genOf u.seqGens i * 2 ^ 24) g.key = .ok w →
    Leaves (.openSequence sub f) s fun t =>
      (∃ q ∈ t.seqs, q.index = i ∧ q.gen = genOf u.seqGens i ∧ q.tenant = r.tenant ∧ q.st = .opened ∧ q.cls = g.seqClass ∧
        q.layout = g.layout ∧ q.model = g.model ∧ q.fmt = g.fmt ∧ q.floor = g.floor ∧ q.horizon = g.horizon ∧ q.window = g.window ∧
        q.globals = g.globals ∧ q.t1res = g.t1res ∧ q.cur.num = 1 ∧ q.cur.slots = [] ∧ q.cur.blockCount = 0 ∧ q.cur.tokenCount = 0 ∧
        q.cur.prefixHandle = 0 ∧ q.cur.pins = 0 ∧ q.cur.twoLevel = false ∧ q.old = []) ∧
      t.seqFree = fl ∧ u.completes t r stOk (resHandle (i + genOf u.seqGens i * 2 ^ 24))) ∧
  (∀ (s u w : State) (sub : Sub) (f g : ForkF) (r : Req) (p : Seq) (i : Nat) (fl : FreeList),
    s.begins sub (.forkSeq f) = some (u, r) → r.desc = .forkSeq g → (u.ringOf r).isSome = true → u.checkFork r g = none →
    u.mirrored = true → u.metaGone = false → u.openSeqOf r g.parent = .ok p → u.seqFree.take = some (i, fl) →
    u.insertFlow r.tenant (i + genOf u.seqGens i * 2 ^ 24) g.key = .ok w →
    Leaves (.forkSequence sub f) s fun t =>
      (∃ q ∈ t.seqs, q.index = i ∧ q.gen = genOf u.seqGens i ∧ q.tenant = r.tenant ∧ q.st = .opened ∧ q.cls = p.cls ∧
        q.layout = p.layout ∧ q.model = p.model ∧ q.fmt = p.fmt ∧ q.t1res = g.t1res ∧ q.cur.num = 1 ∧ q.cur.blockCount = g.n ∧
        q.cur.slots = p.cutSlots p.cur g.n ∧ q.cur.prefixHandle = p.cur.prefixHandle ∧ q.cur.prefixDepth = p.cur.prefixDepth) ∧
      t.seqFree = fl ∧ u.completes t r stOk (resHandle (i + genOf u.seqGens i * 2 ^ 24))) ∧
  (∀ (s u : State) (sub : Sub) (h : Nat) (r : Req) (q : Seq),
    s.begins sub (.closeSeq h) = some (u, r) → (u.ringOf r).isSome = true → u.checkClose r h = none → u.seqOf r.tenant h = some q →
    Leaves (.closeSequence sub h) s fun t =>
      (∀ p, t.seqOf r.tenant h = some p → p.st = .closing) ∧ u.completes t r stOk 0)

/-- Changes of a sequence begin (R33, R35, R168): a truncate is ready for its commit at once; a replace or an append begins its reads
from host memory with the current table of every layer's stream. -/
def Obligations.SequenceChangesBegin : Prop :=
  (∀ (s u : State) (sub : Sub) (f : BlocksF) (r : Req),
    s.begins sub (.truncate f) = some (u, r) → Leaves (.editBlocksTruncate sub f) s fun t => t.stands r .ready) ∧
  ∀ (s u : State) (sub : Sub) (f : BlocksF) (r : Req) (q : Seq) (m : ModelRec),
    u.openSeqOf r f.seq = .ok q → u.model? q.model = some m →
    let begun : State → Prop := fun t => ∃ x, t.req? r.id = some x ∧ x.phase = .started ∧
      x.tables = (List.range m.layers).map fun l => (l, u.streamTable q.domain q.model q.fmt l)
    (∀ t ∈ u.tables, (t.mirrorA && t.mirrorB) = true) →
    (s.begins sub (.replace f) = some (u, r) → Leaves (.editBlocksReplace sub f) s begun) ∧
    (s.begins sub (.append f) = some (u, r) → Leaves (.appendBlocks sub f) s begun)

/-- A change commits, and a waiting request begins (R37, R39, R40, R413): SEQUENCE_COMMIT of an append, a replace or a truncate whose
checks pass makes the next version, map_version + 1 modulo 2^32, and completes with it; PIN_AFTER_WAIT of a request that nothing holds
back any more runs the request's own effect, where in class 0 the price at the pin still fits the request's reservations, and rescinds it
where it does not. -/
def Obligations.WaitsEnd : Prop :=
  (∀ (s : State) (r : Req) (h : Nat) (q : Seq) (m : ModelRec),
    s.inService = true → s.req? r.id = some r → r.phase = .ready → r.ended = none → s.blocked r = false → s.commitsAhead r = [] →
    (s.ringOf r).isSome = true → s.mirrored = true →
    (∃ f, r.desc = .append f ∨ r.desc = .replace f ∨ r.desc = .truncate f) → namesOf r.desc = [h] → s.openSeqOf r h = .ok q →
    s.seq? q.index = some q → s.model? q.model = some m → s.commitBad r q m = none →
    Leaves (.sequenceCommit r.id) s fun t =>
      (∃ p, t.seq? q.index = some p ∧ p.cur.num = (q.cur.num + 1) % 2 ^ 32 ∧ p.cur.blockCount = (s.countsAfter r q m).1 ∧
        p.cur.tokenCount = (s.countsAfter r q m).2 ∧ p.cur.prefixHandle = q.cur.prefixHandle) ∧
      s.completes t r stOk (resVersion ((q.cur.num + 1) % 2 ^ 32))) ∧
  (∀ (s : State) (r : Req),
    s.inService = true → s.req? r.id = some r → r.phase = .waiting → r.ended = none → s.blocked r = false → s.mirrored = true →
    s.checkReq r = none → r.cls ≠ 0 →
    (∀ f, r.desc = .lookupToken f → r.data = []) → exec (.pinAfterWait r.id) s = .next (s.beginReq r)) ∧
  ∀ (s : State) (r : Req),
    s.inService = true → s.req? r.id = some r → r.phase = .waiting → r.ended = none → s.blocked r = false → s.mirrored = true →
    s.checkReq r = none → r.cls = 0 →
    (∀ f, r.desc = .lookupToken f → r.data = []) →
    exec (.pinAfterWait r.id) s = .next (
      if (s.priceAtPin r).any (fun rs => fitsHeld (s.calendar.filter fun c => c.req == r.id) rs) then s.beginReq r
      else s.endReq r stRescinded noBlock noLayer)

/-! ### Ranges, lookups and prefixes (03, 05) -/

/-- Range commands (R108 to R110): PIN_RANGE of pages that already lie high enough pins each of them and completes, and one with a
page to promote stands while its moves run; UNPIN_RANGE clears the pins; a PREFETCH_HINT whose pages lie in T0 or T1 completes. -/
def Obligations.RangeCommandsComplete : Prop :=
  (∀ (s u : State) (sub : Sub) (f : RangeF) (r : Req) (q : Seq),
    s.begins sub (.pinRange f) = some (u, r) → (u.ringOf r).isSome = true → u.checkPinRange r f = none → u.openSeqOf r f.seq = .ok q →
    (∀ p ∈ u.rangePages q q.cur f, p.2.2.tier ≤ f.target ∧ ∀ m ∈ u.moves, m.blk ≠ p.1) →
    (∀ x ∈ u.reqs, x.id ≠ r.id → x.settles = false) →
    Leaves (.pinRange sub f) s fun t =>
      (∀ p ∈ u.rangePages q q.cur f, ∃ x l, t.rec? p.1 = some x ∧ x.loc? p.2.1 = some l ∧ l.pinned = true) ∧ t.recorded r stOk) ∧
  (∀ (s u : State) (sub : Sub) (f : RangeF) (r : Req) (q : Seq) (p : Nat × Nat × Loc),
    s.begins sub (.pinRange f) = some (u, r) → u.checkPinRange r f = none → u.openSeqOf r f.seq = .ok q →
    p ∈ u.rangePages q q.cur f → f.target < p.2.2.tier → (∀ x ∈ u.reqs, x.id ≠ r.id → x.settles = false) →
    Leaves (.pinRange sub f) s fun t => t.stands r .started ∧ ∃ m ∈ t.moves, m.blk = p.1 ∧ m.layer = p.2.1) ∧
  (∀ (s u : State) (sub : Sub) (f : RangeF) (r : Req) (q : Seq),
    s.begins sub (.unpinRange f) = some (u, r) → (u.ringOf r).isSome = true → u.checkRangeCmd r f true = none →
    u.openSeqOf r f.seq = .ok q →
    Leaves (.unpinRange sub f) s fun t =>
      (∀ p ∈ u.rangePages q q.cur f, ∃ x l, t.rec? p.1 = some x ∧ x.loc? p.2.1 = some l ∧ l.pinned = false) ∧ u.completes t r stOk 0) ∧
  ∀ (s u : State) (sub : Sub) (f : RangeF) (r : Req) (q : Seq),
    s.begins sub (.prefetchHint f) = some (u, r) → (u.ringOf r).isSome = true → u.checkRangeCmd r f false = none →
    u.openSeqOf r f.seq = .ok q → (∀ p ∈ u.rangePages q q.cur f, p.2.2.tier ≤ 1 ∧ ∀ m ∈ u.moves, m.blk ≠ p.1) →
    u.remotePages r f = [] → (∀ c ∈ u.staging, c.req ≠ r.id) →
    (∀ x ∈ u.reqs, x.id ≠ r.id → x.settles = false) →
    Leaves (.prefetchHint sub f) s fun t => t.recorded r stOk

/-- Lookups (R52 to R55, R81, R86): a hash form that needs no other home answers with the deepest hit, OK at the largest depth asked
and OK_PARTIAL below it, or PREFIX_NOT_FOUND; a token form begins to read its tokens; a flow form answers with the first matching flow
entry whose shadow agrees with the admitted owner, or FLOW_NOT_FOUND with what the policy table says, and of several matches writes the
words first (R87); it waits while its table is short of a bank (R90). -/
def Obligations.LookupsComplete : Prop :=
  (∀ (s u : State) (sub : Sub) (f : LookupHashF) (r : Req) (d i h : Nat),
    s.begins sub (.lookupHash f) = some (u, r) → (u.ringOf r).isSome = true → u.tableUp 1 = true →
    (r.cls = 0 ∨ u.ownDomain = true ∨ ∀ p ∈ f.pairs, u.homeOf p.hash = u.params.deviceId) →
    bestHit (u.localHits (u.domainOf r.tenant) (u.fingerprintOf f.model) 0 f.pairs).1 = some (d, i, h) →
    Leaves (.lookupPrefixHashForm sub f) s fun t =>
      u.completes t r (if d = maxDepth f.pairs then stOk else stOkPartial) (resLookup h d i (handleHome h))) ∧
  (∀ (s u : State) (sub : Sub) (f : LookupHashF) (r : Req),
    s.begins sub (.lookupHash f) = some (u, r) → (u.ringOf r).isSome = true → u.tableUp 1 = true →
    (∀ p ∈ f.pairs, u.homeOf p.hash = u.params.deviceId) →
    bestHit (u.localHits (u.domainOf r.tenant) (u.fingerprintOf f.model) 0 f.pairs).1 = none →
    Leaves (.lookupPrefixHashForm sub f) s fun t => u.completes t r stPrefixNotFound 0) ∧
  (∀ (s u : State) (sub : Sub) (f : LookupTokenF) (r : Req),
    s.begins sub (.lookupToken f) = some (u, r) → Leaves (.lookupPrefixTokenForm sub f) s fun t => t.stands r .started) ∧
  (∀ (s u : State) (sub : Sub) (f : LookupFlowF) (r : Req) (e : FlowRow) (rest : List FlowRow),
    s.begins sub (.lookupFlow f) = some (u, r) → (u.ringOf r).isSome = true → u.tableUp (flowTag (f.family == 1)) = true →
    (u.flowMatches r.tenant (u.pathB r.fn) f).take f.maxMatches = e :: rest →
    Leaves (.lookupPrefixFlowForm sub f) s fun t =>
      let result := resFlow e.handle e.mode (rest.length + 1)
      if f.maxMatches ≤ 1 then u.completes t r stOk result
      else u.answers t r f.resultAddr ((e :: rest).flatMap fun x => leBytes 8 x.word) stOk result) ∧
  (∀ (s u : State) (sub : Sub) (f : LookupFlowF) (r : Req),
    s.begins sub (.lookupFlow f) = some (u, r) → u.tableUp (flowTag (f.family == 1)) = false →
    Leaves (.lookupPrefixFlowForm sub f) s fun t => t.stands r .waiting) ∧
  ∀ (s u : State) (sub : Sub) (f : LookupFlowF) (r : Req),
    s.begins sub (.lookupFlow f) = some (u, r) → (u.ringOf r).isSome = true → u.tableUp (flowTag (f.family == 1)) = true →
    (u.flowMatches r.tenant (u.pathB r.fn) f).take f.maxMatches = [] →
    let v := u.flowFalse r.tenant (u.pathB r.fn) f
    v.tableUp 5 = true →
    Leaves (.lookupPrefixFlowForm sub f) s fun t =>
      let ps := (v.policyMatches r.tenant (v.pathB r.fn) f).take f.maxMatches
      let result := resPolicy ps.length (if f.maxMatches = 1 then (ps.head?.elim 0 (·.rule.result)) else 0)
      if f.maxMatches ≤ 1 ∨ ps = [] then u.completes t r stFlowNotFound result
      else u.answers t r f.resultAddr (ps.flatMap fun x => leBytes 8 x.rule.result) stFlowNotFound result

/-- Prefix commands (R46, R57, R59, R63, R67, R69): ATTACH_PREFIX of an entry this device holds with its whole chain links the sequence
to it; PUBLISH_PREFIX pins the version it publishes, and the end of its reads makes or merges the entry and writes its digest, with the record
to follow, after what they find (R304, log entry 30); WITHDRAW_PREFIX at the home leaves no published entry in the slot. -/
def Obligations.PrefixCommandsComplete : Prop :=
  (∀ (s u : State) (sub : Sub) (f : AttachPrefixF) (r : Req) (q : Seq) (m : ModelRec) (e : DirEntry),
    s.begins sub (.attachPrefix f) = some (u, r) → (u.ringOf r).isSome = true → u.attachSearches f = false →
    u.commitsAhead { r with readyAt := u.now } = [] →
    let v := u.loadChain f.handle
    v.checkAttachPrefix r f = none → v.openSeqOf r f.seq = .ok q → v.seq? q.index = some q → v.model? q.model = some m →
    v.linkable f.handle (v.domainOf r.tenant) m.fingerprint = some e → v.needsRef e = false →
    v.missingParent chainFuel e.handle = none →
    Leaves (.attachPrefix sub f) s fun t =>
      (∃ p, t.seq? q.index = some p ∧ p.cur.prefixHandle = e.handle ∧ p.cur.prefixDepth = f.depth ∧ p.cur.blockCount = f.depth ∧
        p.cur.tokenCount = f.depth * m.blockTokens ∧ p.cur.num = (q.cur.num + 1) % 2 ^ 32) ∧
      u.completes t r stOk (resVersion ((q.cur.num + 1) % 2 ^ 32))) ∧
  (∀ (s u : State) (sub : Sub) (f : PublishF) (r : Req) (q : Seq),
    s.begins sub (.publish f) = some (u, r) → u.mirrored = true → u.checkPublish r f = none → u.openSeqOf r f.seq = .ok q → u.seq? q.index = some q →
    Leaves (.publishPrefix sub f) s fun t =>
      (∃ x, t.req? r.id = some x ∧ x.phase = .started ∧ x.pin = some { index := q.index, version := q.cur.num }) ∧
      ∃ p, t.seq? q.index = some p ∧ p.cur.pins = q.cur.pins + 1 ∧ p.places = q.places + 1) ∧
  (∀ (s w x : State) (f : PublishF) (r : Req) (q : Seq) (v : Version) (m : ModelRec) (raw : Bytes) (ps : List NewPage) (e : DirEntry),
    s.inService = true → s.req? r.id = some r → r.desc = .publish f → r.phase = .started → s.blocked r = false → r.ended = none →
    r.data = [] → s.mirrored = true → r.pin.bind s.pinned? = some (q, v) → s.openSeqOf r f.seq = .ok q → s.model? q.model = some m →
    (s.ringOf r).isSome = true → s.rekeyReads r.id = false → (∀ y ∈ s.reqs, y.id ≠ r.id → y.phase ≠ .ready) →
    let pages := s.publishPages q v (publishFrom v) f.depth
    r.rekeyLeft pages = [] →
    s.rekeyPages r.id q m ((s.stacksByRoom 0).headD 0) pages [] [] = (raw, ps, none, w) →
    let digest := digest256 (digestHead m.fingerprint q.fmt f.depth (w.parentDigest v.prefixHandle) ++ raw)
    let r' := { r with pages := ps, data := leBytes 32 digest.toNat }
    let u := w.modReq r.id fun x => { x with pages := ps, data := r'.data }
    r.pin.bind u.pinned? = some (q, v) → u.model? q.model = some m → u.homeTableHeld r' = false → (∀ y ∈ u.txns, y.kind ≠ .spill r.id) →
    let k := u.publishKey f q v m digest
    u.homeOf k.hash = u.params.deviceId →
    (u.compareAndSet k [] (sumBy (·.grains) ps) = (.created e, x) → Leaves (.readAndRekeyEnd r.id [] .pass) s fun t =>
      ∃ linked, s.answers t r f.digestAddr (leBytes 32 digest.toNat) stOk (resPublish e.handle linked)) ∧
    (u.compareAndSet k [] (sumBy (·.grains) ps) = (.merged e, x) → Leaves (.readAndRekeyEnd r.id [] .pass) s fun t =>
      ∃ linked, s.answers t r f.digestAddr (leBytes 32 e.digest.toNat) stOkMerged (resPublish e.handle linked))) ∧
  (∀ (s : State) (id : Nat) (found : List ReadFault) (check : SelfCheck),
    exec (.readAndRekeyEnd id found check) s = exec (.readAndRekeyEnd id [] check) (s.readFaults found)) ∧
  ∀ (s u : State) (sub : Sub) (h : Nat) (r : Req) (e : DirEntry),
    s.begins sub (.withdraw h) = some (u, r) → (u.ringOf r).isSome = true → u.mirrored = true → handleHome h = u.params.deviceId →
    u.withdrawable h (u.domainOf r.tenant) u.params.deviceId r.tenant (u.prefixAdmin r.tenant) = some e →
    Leaves (.withdrawPrefix sub h) s fun t => (∀ x ∈ t.dir, x.slot = e.slot → x.st ≠ .published) ∧ u.completes t r stOk 0

/-! ### Pages, attention, code tables, near memory and weights (05 to 09) -/

/-- Requests that read pages or weights, or that a near-memory engine runs, begin (R38, R113, R115, R126, R134, R193, R194): FETCH_PAGES
and ATTEND pin the version they read and stand started, ATTEND cut into its parts; FETCH_WEIGHTS and every near-memory operation that
this device can run stand started; an operation whose operands all lie in shared regions of one tray goes to it (R280). -/
def Obligations.RunningRequestsBegin : Prop :=
  (∀ (s u : State) (sub : Sub) (f : FetchF) (r : Req) (q : Seq) (m : ModelRec),
    s.begins sub (.fetch f) = some (u, r) → u.openSeqOf r f.seq = .ok q → u.model? q.model = some m →
    Leaves (.fetchPages sub f) s fun t =>
      ∃ x, t.req? r.id = some x ∧ x.phase = .started ∧ x.pin = some { index := q.index, version := q.cur.num }) ∧
  (∀ (s u : State) (sub : Sub) (f g : AttendF) (r : Req) (q : Seq) (m : ModelRec),
    s.begins sub (.attend f) = some (u, r) → r.desc = .attend g → u.openSeqOf r g.seq = .ok q → u.model? q.model = some m →
    Leaves (.attend sub f) s fun t =>
      ∃ x, t.req? r.id = some x ∧ x.phase = .started ∧ x.pin = some { index := q.index, version := q.cur.num } ∧
        x.parts.map (fun p => (p.lo, p.hi)) = (u.partsOf q.cur g).map fun p => (p.lo, p.hi)) ∧
  (∀ (s u : State) (sub : Sub) (f : WeightsF) (r : Req) (x : Session),
    s.begins sub (.weights f) = some (u, r) → u.checkWeights r f = none → u.groupSession (u.groupOfFn r.fn) = some x →
    u.weights.any (fun w => w.model == f.model) = true →
    Leaves (.fetchWeights sub f) s fun t => t.stands r .started) ∧
  (∀ (s u : State) (sub : Sub) (r : Req),
    u.checkNear r = none → ((nearOps r.desc).1 ++ (nearOps r.desc).2).any (fun o => o.kind == 3) = false →
    (∀ f, s.begins sub (.fill f) = some (u, r) → Leaves (.fill sub f) s fun t => t.stands r .started) ∧
    (∀ f, s.begins sub (.copy f) = some (u, r) → Leaves (.copy sub f) s fun t => t.stands r .started) ∧
    (∀ f, s.begins sub (.compare f) = some (u, r) → Leaves (.compare sub f) s fun t => t.stands r .started) ∧
    (∀ f, s.begins sub (.reduceSum f) = some (u, r) → Leaves (.reduceSum sub f) s fun t => t.stands r .started) ∧
    (∀ f, s.begins sub (.reduceMax f) = some (u, r) → Leaves (.reduceMax sub f) s fun t => t.stands r .started) ∧
    ∀ f, s.begins sub (.lseMerge f) = some (u, r) → Leaves (.lseMerge sub f) s fun t => t.stands r .started) ∧
  ∀ (s u : State) (sub : Sub) (r : Req),
    u.checkNear r = none → (∀ o ∈ regionOps r.desc, (u.regionLink o.handle).isSome = true) → allRegions r.desc = true →
    (∀ f, s.begins sub (.fill f) = some (u, r) → Leaves (.fill sub f) s fun t => t.stands r .remote) ∧
    (∀ f, s.begins sub (.copy f) = some (u, r) → Leaves (.copy sub f) s fun t => t.stands r .remote) ∧
    ∀ f, s.begins sub (.compare f) = some (u, r) → Leaves (.compare sub f) s fun t => t.stands r .remote

/-- Code-table commands (R167 to R170): LOAD_TABLE of a new image begins to read it, op 1 makes a table current for every layer named,
op 2 begins to send a table's image; RETIRE_TABLE of a table that nothing uses frees it. An opcode that the manual does not define
completes UNKNOWN_OPCODE (R187, R209). -/
def Obligations.TableCommandsComplete : Prop :=
  (∀ (s u : State) (sub : Sub) (f : LoadTableF) (r : Req),
    s.begins sub (.tableLoad f) = some (u, r) → Leaves (.loadTableLoad sub f) s fun t => t.stands r .started) ∧
  (∀ (s u : State) (sub : Sub) (f : LoadTableF) (r : Req),
    s.begins sub (.tableSelect f) = some (u, r) → (u.ringOf r).isSome = true → (u.loadTable f.tableId).checkTableSelect r f = none →
    Leaves (.loadTableSelect sub f) s fun t =>
      (∀ i, i < f.layerCount → t.streamTable (u.domainOf r.tenant) f.model f.fmt (f.layerFirst + i) = f.tableId) ∧
      u.completes t r stOk (resTable f.tableId)) ∧
  (∀ (s u : State) (sub : Sub) (f : LoadTableF) (r : Req) (x : CodeTable),
    s.begins sub (.tableExport f) = some (u, r) → (u.loadTable f.tableId).checkTableExport r f = none →
    (u.loadTable f.tableId).domainTable (u.domainOf r.tenant) f.tableId = some x →
    Leaves (.loadTableExport sub f) s fun t => ∃ y, t.req? r.id = some y ∧ y.phase = .started ∧ y.data = x.image) ∧
  (∀ (s u : State) (sub : Sub) (f : RetireF) (r : Req) (x : CodeTable),
    s.begins sub (.retire f) = some (u, r) → (u.ringOf r).isSome = true → (u.loadTable f.tableId).checkRetire r f = none →
    (u.loadTable f.tableId).domainTable (u.domainOf r.tenant) f.tableId = some x → x.st = .live → x.pageRefs = 0 → x.streamRefs = 0 →
    Leaves (.retireTable sub f) s fun t => (∀ y ∈ t.tables, y.id ≠ x.id) ∧ u.completes t r stOk 0) ∧
  ∀ (s : State) (sub : Sub) (opcode : Nat) (f : Fn),
    s.fn? sub.fn = some f → s.lands sub f = true → s.tenantActive f.tenant = true → sub.long = false →
    let r := s.mkReq f sub (.unknown opcode) f.k s.now
    (s.ringOf r).isSome = true → Leaves (.unknownOpcode sub opcode) s fun t => s.completes t r stUnknownOpcode 0

/-- The end of a transfer carries a running request on (R33, R54, R113, R169, R189, R194, R195, R304): the block list and the token
identifiers of a supply; the token identifiers of a lookup, whose last hash leaves where a result address is given, and which waits while the
prefix table is short of a bank; the last slot of a FETCH_PAGES; a table image in either direction; and the result of a near-memory operation
on host memory or the direct region, written where its destination says; the end of a request's result bytes brings its record, LINK_FAULT
where the host rejected them; what the reads of the end find comes first (log entry 30). -/
def Obligations.TransfersEnd : Prop :=
  (∀ (s : State) (r : Req) (f : BlocksF) (data : Bytes) (q : Seq) (m : ModelRec),
    s.inService = true → s.req? r.id = some r → r.phase = .started → r.ended = none → (r.desc = .append f ∨ r.desc = .replace f) →
    s.openSeqOf r f.seq = .ok q → s.model? q.model = some m → s.mirrored = true →
    (r.done = 0 → s.checkEntries r q q.cur m (parseBlockList f.blockCount data) = none →
      Leaves (.dmaTransferEnd r.id true [] .pass data) s fun t => ∃ x, t.req? r.id = some x ∧ x.entries = parseBlockList f.blockCount data) ∧
    (r.done = 1 → Leaves (.dmaTransferEnd r.id true [] .pass data) s fun t => ∃ x, t.req? r.id = some x ∧ x.data = data ∧ x.done = 2)) ∧
  (∀ (s : State) (r : Req) (f : LookupTokenF) (data : Bytes) (m : ModelRec),
    s.inService = true → s.req? r.id = some r → r.phase = .started → r.ended = none → r.desc = .lookupToken f → (s.ringOf r).isSome = true →
    s.model? f.model = some m → s.slotFilled (hashKeySlot (s.domainOf r.tenant)) = true →
    let key := s.hashKey (s.domainOf r.tenant)
    let ps := tokenPairs key m.blockTokens f.tokenBlocks (if f.hasStart then f.startDepth else 0)
      (if f.hasStart then f.startHash else chainHash0 key m.fingerprint) (tokenIds data)
    let last := if f.resultAddr = 0 then [] else hashBytes (ps.getLastD { depth := 0, hash := 0 }).hash
    let u := s.modReq r.id fun r => { r with raw := last, data := data }
    (s.tableUp 1 = false → Leaves (.dmaTransferEnd r.id true [] .pass data) s fun t => t.stands r .waiting) ∧
    ∀ d i h, s.tableUp 1 = true → (∀ p ∈ ps, s.homeOf p.hash = s.params.deviceId) →
      bestHit (u.localHits (s.domainOf r.tenant) (s.fingerprintOf f.model) 0 ps).1 = some (d, i, h) →
      let status := if d = maxDepth ps then stOk else stOkPartial
      Leaves (.dmaTransferEnd r.id true [] .pass data) s fun t =>
        if f.resultAddr = 0 then s.completes t r status (resLookup h d 0 (handleHome h))
        else s.answers t r f.resultAddr last status (resLookup h d 0 (handleHome h))) ∧
  (∀ (s : State) (r : Req) (f : FetchF) (data d : Bytes) (fmt table blk : Nat) (uncoded : Bool) (q : Seq) (v : Version) (m : ModelRec),
    s.inService = true → s.req? r.id = some r → r.phase = .started → r.ended = none → r.desc = .fetch f → (s.ringOf r).isSome = true →
    r.pin.bind s.pinned? = some (q, v) → s.model? q.model = some m → r.done + 1 = fetchCount f →
    (s.loadBlock q v (fetchSlot f r.done).1).slotPage r q v m f.form (fetchSlot f r.done).2 (fetchSlot f r.done).1 =
      .ok d fmt uncoded table blk →
    Leaves (.dmaTransferEnd r.id true [] .pass data) s fun t =>
      Output.hostWrite (s.groupOfFn r.fn) (f.buffer + r.done * fetchStride m f.form)
        (d ++ List.replicate (fetchStride m f.form - d.length) 0) ∈ t.out ∧ t.recorded r stOk) ∧
  (∀ (s : State) (r : Req) (f : LoadTableF) (data : Bytes) (id : Nat) (fl : FreeList),
    s.inService = true → s.req? r.id = some r → r.phase = .started → r.ended = none → r.desc = .tableLoad f → (s.ringOf r).isSome = true →
    let im := cleanImage (data.take tableImageBytes)
    im.length = tableImageBytes → imageOk im = true → imageFormat im = f.fmt →
    (∀ t ∈ s.tables, t.domain = s.domainOf r.tenant → t.st = .live → t.image ≠ im) → s.metaGone = false →
    (s.tables.filter fun t => t.domain == s.domainOf r.tenant).length < ((s.domain? (s.domainOf r.tenant)).elim 0 (·.tableQuota)) →
    s.tabFree.take = some (id, fl) →
    Leaves (.dmaTransferEnd r.id true [] .pass data) s fun t =>
      (∃ x ∈ t.tables, x.id = id ∧ x.domain = s.domainOf r.tenant ∧ x.image = im ∧ x.st = .live) ∧
      s.completes t r stOk (resTable id)) ∧
  (∀ (s : State) (r : Req) (f : LoadTableF) (data : Bytes),
    s.inService = true → s.req? r.id = some r → r.phase = .started → r.ended = none → r.desc = .tableExport f → (s.ringOf r).isSome = true →
    Leaves (.dmaTransferEnd r.id true [] .pass data) s fun t =>
      Output.hostWrite (s.groupOfFn r.fn) f.image r.data ∈ t.out ∧ t.recorded r stOk) ∧
  (∀ (s : State) (r : Req) (f : FillF) (data : Bytes),
    s.inService = true → s.req? r.id = some r → r.phase = .started → r.ended = none → r.desc = .fill f → (s.ringOf r).isSome = true →
    s.regionWaits r = false →
    let bytes := (List.range (f.dst.length / 8)).flatMap fun _ => leBytes 8 f.pattern.toNat
    (f.dst.kind = 0 → Leaves (.dmaTransferEnd r.id true [] .pass data) s fun t =>
      Output.hostWrite (s.groupOfFn r.fn) f.dst.address bytes ∈ t.out ∧ t.recorded r stOk) ∧
    (f.dst.kind = 1 → s.directBlocked f.dst.address bytes.length = false →
      Leaves (.dmaTransferEnd r.id true [] .pass data) s fun t => t.direct = s.direct.writeN f.dst.address bytes ∧ t.recorded r stOk)) ∧
  (∀ (s : State) (r : Req) (f : TwoOpF) (data : Bytes),
    s.inService = true → s.req? r.id = some r → r.phase = .started → r.ended = none → r.desc = .copy f → (s.ringOf r).isSome = true →
    s.regionWaits r = false → f.a.kind = 0 → f.b.kind = 1 → s.directBlocked f.b.address (data.take f.a.length).length = false →
    Leaves (.dmaTransferEnd r.id true [] .pass data) s fun t =>
      t.direct = s.direct.writeN f.b.address (data.take f.a.length) ∧ t.recorded r stOk) ∧
  (∀ (s : State) (r : Req) (f : TwoOpF) (data : Bytes),
    s.inService = true → s.req? r.id = some r → r.phase = .started → r.ended = none → r.desc = .compare f → (s.ringOf r).isSome = true →
    s.regionWaits r = false → f.a.kind = 0 → f.b.kind = 0 →
    Leaves (.dmaTransferEnd r.id true [] .pass data) s fun t =>
      s.completes t r stOk (resDiff (firstDiff (data.take f.a.length) ((data.drop f.a.length).take f.b.length)))) ∧
  (∀ (s : State) (id : Nat) (ok : Bool) (found : List ReadFault) (check : SelfCheck) (data : Bytes),
    exec (.dmaTransferEnd id ok found check data) s = exec (.dmaTransferEnd id ok [] check data) (s.readFaults found)) ∧
  (∀ (s : State) (r : Req) (a : Answer) (check : SelfCheck) (data : Bytes),
    s.inService = true → s.req? r.id = some r → r.phase = .writing → r.answer = some a → (s.ringOf r).isSome = true →
    (Leaves (.dmaTransferEnd r.id true [] check data) s fun t => s.completes t r a.status a.result) ∧
    Leaves (.dmaTransferEnd r.id false [] check data) s fun t => s.completes t r stLinkFault (resFaultAt noBlock noLayer)) ∧
  ∀ (s : State) (r : Req) (f : ReduceF) (data : Bytes),
    s.inService = true → s.req? r.id = some r → r.phase = .started → r.ended = none → (s.ringOf r).isSome = true →
    s.regionWaits r = false → f.srcKind = 0 → f.dest.kind = 0 →
    (r.desc = .reduceSum f ∨ r.desc = .reduceMax f ∨ r.desc = .lseMerge f) →
    Leaves (.dmaTransferEnd r.id true [] .pass data) s fun t => t.recorded r stOk ∧
      ∃ lse, reduceOf r.desc = some (f, lse) ∧
        Output.hostWrite (s.groupOfFn r.fn) f.dest.address (reduceResult r.desc f (s.reduceSources f lse data)).1 ∈ t.out

/-- DEADLINE_REACHED marks a class-0 request whose record has not begun by its deadline to end with DEADLINE_FAULT (R226, R208); a request
that is marked to end completes with its status at the end of the tick, unless it is an ATTEND, whose parts end at their page boundaries
(R143, R218; log entry 136). -/
def Obligations.DeadlinesEnd : Prop :=
  (∀ (s : State) (r : Req) (tick : Nat),
    s.inService = true → s.req? r.id = some r → s.monitored r.id = some tick → tick ≤ s.now → r.ended ≠ some stAborted →
    ¬(r.ended.isSome = true ∧ r.endedAt = tick) →
    Leaves (.deadlineReached r.id) s fun t => t.ends r stDeadlineFault noBlock noLayer) ∧
  ∀ (s : State) (r : Req) (st : Nat),
    s.pending = [] → s.inService = true → s.reqs = [r] → r.ended = some st → (∀ f, r.desc ≠ .attend f) → (∀ f, r.desc ≠ .fence f) →
    (s.ringOf r).isSome = true → r.pages = [] → r.chain = [] → s.curds = [] → s.passes = [] → s.staging = [] →
    ∃ t, step s = .next t ∧ t.req? r.id = none ∧ t.recorded r st

/-! ### Passes, curds, moves and staging (05, 06, 07) -/

/-- Curds (R145 to R150, R153): the first eligible part of a key opens a curd, and one that may join is added to the open one; a window
that has passed, or a latest close, marks a curd to close at the end of the tick, after every join of it, and there a curd whose members may
still run together takes the fewest engines that suffice (log entry 136, the model's choice of what ends a tick); the end of its passes ends
the curd. -/
def Obligations.CurdCommandsComplete : Prop :=
  (∀ (s : State) (r : Req) (i : Nat) (q : Seq) (v : Version) (m : ModelRec) (f : AttendF) (p : Part),
    s.inService = true → s.req? r.id = some r → s.attendOf r = some (q, v, m, f) → r.parts[i]? = some p → p.st = .waiting → r.ended = none →
    (∀ c ∈ s.curds, c.id ≠ s.ids ∧ (c.running = true ∨ c.key ≠ s.curdKeyOf r f p)) →
    let x : Member := { req := r.id, part := i, tenant := r.tenant, rows := rowCount m f, expect := f.curdExpect, due := p.due }
    1 < m.curdMembers →
    Leaves (.curdOffer r.id i) s fun t =>
      (∃ c ∈ t.curds, c.id = s.ids ∧ c.key = s.curdKeyOf r f p ∧ c.members = [x] ∧ c.running = false ∧ c.closing = hintCloses m f.curdMode [x]) ∧
      ∃ y, t.partOf r.id i = some y ∧ y.st = .inCurd s.ids) ∧
  (∀ (s : State) (r : Req) (i : Nat) (q : Seq) (v : Version) (m : ModelRec) (f : AttendF) (p : Part) (c : Curd),
    s.inService = true → s.req? r.id = some r → s.attendOf r = some (q, v, m, f) → r.parts[i]? = some p → p.st = .waiting → r.ended = none →
    (s.curds.find? fun c => !c.running && c.key == s.curdKeyOf r f p) = some c → s.curd? c.id = some c →
    let x : Member := { req := r.id, part := i, tenant := r.tenant, rows := rowCount m f, expect := f.curdExpect, due := p.due }
    s.mayJoin m c x = true → c.members.length + 1 < m.curdMembers →
    Leaves (.curdOffer r.id i) s fun t => ∃ d ∈ t.curds, d.id = c.id ∧ d.members = c.members ++ [x] ∧ d.lastJoin = s.now ∧
      d.closing = (c.closing || hintCloses m f.curdMode (c.members ++ [x]))) ∧
  (∀ (s : State) (c : Curd), s.inService = true → s.curd? c.id = some c → c.running = false →
    (c.openedAt + ((s.model? c.model).elim 0 (·.curdWindow)) ≤ s.now →
      Leaves (.curdWindowEnd c.id) s fun t => t.curd? c.id = some { c with closing := true }) ∧
    (s.mustClose c = true → Leaves (.curdLatestClose c.id) s fun t => t.curd? c.id = some { c with closing := true })) ∧
  (∀ (s : State) (c : Curd) (q : Seq) (v : Version) (m : ModelRec) (f : AttendF) (e : Nat),
    s.pending = [] → s.inService = true → s.curds = [c] → c.running = false → c.closing = true → 2 ≤ c.members.length →
    s.curdBase c.members = some (q, v, m, f) → s.liveMembers c = c.members → s.curdEngines c.key m c.members c.lastJoin = some e →
    (∀ r ∈ s.reqs, r.ended = none) → s.staging = [] →
    ∃ t, step s = .next t ∧ ∃ d ∈ t.curds, d.id = c.id ∧ d.running = true ∧ d.members = c.members ∧ d.engines = e) ∧
  ∀ (s : State) (c : Curd),
    s.inService = true → s.curd? c.id = some c → (∃ p ∈ s.passes, p.curd = some c.id) →
    (∀ p ∈ s.passes, p.curd = some c.id → s.pass? p.id = some p ∧ s.passEnded p = true ∧
      ∀ x ∈ p.rows, ∃ r, s.req? x.req = some r ∧ r.ended = none) →
    Leaves (.curdPassEnd c.id) s fun t => (∀ d ∈ t.curds, d.id ≠ c.id) ∧ ∀ p ∈ t.passes, p.curd ≠ some c.id

/-- Passes (R117, R126, R131, R228): the query rows arrive; a pass that runs reads its next block and moves every row on by it, or ends
where no block is left; the end of a part's passes gathers its rows, and the last part's writes the result, with the record to follow; a pass gives way to a class-0
reservation and goes on from where it stopped; what their reads find comes first (R289, R304,
log entry 30). -/
def Obligations.PassCommandsComplete : Prop :=
  (∀ (s : State) (r : Req) (q : Seq) (v : Version) (m : ModelRec) (f : AttendF) (data : Bytes),
    s.inService = true → s.req? r.id = some r → s.attendOf r = some (q, v, m, f) → r.phase = .started → r.query = [] → r.parts ≠ [] →
    Leaves (.queryBlockArrival r.id true data) s fun t =>
      ∃ x, t.req? r.id = some x ∧ x.query = (List.range (rowCount m f)).map fun i => (data.drop (i * rowBytes m f)).take (rowBytes m f)) ∧
  (∀ (s : State) (p : Pass),
    s.inService = true → s.pass? p.id = some p → s.passRuns p = true →
    (∀ y ∈ s.passGroup p, ∀ x ∈ y.rows, ∃ r, s.req? x.req = some r ∧ r.ended = none ∧ r.cls ≠ 0) →
    (s.nextBlock p = none → Leaves (.walkBlock p.id []) s fun t => ∃ x, t.pass? p.id = some x ∧ x.fin = true ∧ x.rows = p.rows) ∧
    ∀ b raw sh blk, s.nextBlock p = some b →
      let w := (s.consumers p b).foldl (fun (s : State) r => (s.attendOf r).elim s fun a => s.loadBlock a.1 a.2.1 b) s
      (w.sparing p b).passPage p b (s.consumers p b) = .ok raw sh blk →
      Leaves (.walkBlock p.id []) s fun t => ∃ x, t.pass? p.id = some x ∧ x.next = b + 1 ∧ x.rows = w.updateRows p b raw sh) ∧
  (∀ (s : State) (r : Req) (i : Nat) (p : Part) (q : Seq) (v : Version) (m : ModelRec) (f : AttendF),
    s.inService = true → s.req? r.id = some r → s.attendOf r = some (q, v, m, f) → r.phase = .started → r.parts[i]? = some p → p.st = .walking → r.ended = none →
    let ps := s.passes.filter fun p => p.curd.isNone && p.rows.any fun x => x.req == r.id && x.part == i
    ps ≠ [] → s.passesEnded ps = true → (s.ringOf r).isSome = true →
    ((∃ y ∈ r.parts.eraseIdx i, y.st ≠ .done) →
      Leaves (.partEnd r.id i) s fun t => ∃ y, t.partOf r.id i = some y ∧ y.st = .done ∧ y.rows = gatherRows ps r.id i) ∧
    ((∀ y ∈ r.parts.eraseIdx i, y.st = .done) →
      let done := fun (x : Req) =>
        { x with parts := x.parts.zipIdx.map fun (y, j) => if j = i then { y with st := .done, rows := gatherRows ps x.id i } else y }
      let u := { s.modReq r.id done with passes := s.passes.filter fun x => !(ps.any fun y => y.id == x.id) }
      let result := u.attendResult (done r) q v m f
      Leaves (.partEnd r.id i) s fun t => s.answers t r f.result result.1 stOk (resParts result.2.1))) ∧
  (∀ (s : State) (p : Pass),
    s.inService = true → s.pass? p.id = some p → p.cls ≠ 0 → p.parked = false →
    p.engines.any (fun e => s.reservedNow p.cluster e (p.rows.map (·.req))) = true →
    (∀ y ∈ s.passGroup p, ∀ x ∈ y.rows, ∃ r, s.req? x.req = some r ∧ r.ended = none) →
    Leaves (.passYield p.id) s fun t => ∃ x, t.pass? p.id = some x ∧ x.parked = !p.fin ∧ x.engines = [] ∧ x.next = p.next ∧ x.rows = p.rows) ∧
  (∀ (s : State) (id slot : Nat) (found : List ReadFault),
    exec (.walkBlock id found) s = exec (.walkBlock id []) (s.readFaults found) ∧
    exec (.passResume id slot found) s = exec (.passResume id slot []) (s.readFaults found)) ∧
  ∀ (s : State) (p : Pass) (slot : Nat),
    s.inService = true → s.pass? p.id = some p → p.parked = true → slot ∈ (s.idleEngines p.cluster).map (·.2) →
    ((s.passGroup p).flatMap (·.rows)).foldl (fun n x => max n x.engine) 0 = 0 →
    Leaves (.passResume p.id slot []) s fun t => ∃ x, t.pass? p.id = some x ∧ x.parked = false ∧ x.engines = [slot] ∧ x.next = p.next

/-- Staging, tier moves, pins and ripening (R38, R41, R98, R99, R103, R105, R107): a prefetched page lands, with what its block record
names; an unclaimed lookahead copy lapses after its time in staging (log entry 126); a move marks its page and ends with the page under its new address; a version whose last pin has ended goes; a sweep halves a
count once a period. -/
def Obligations.TierCommandsComplete : Prop :=
  (∀ (s : State) (req part b layer : Nat) (c : StagingCopy),
    s.inService = true → (s.staging.find? fun c => c.req == req && c.block == b && c.layer == layer && !c.arrived) = some c →
    (∀ t ∈ s.txns, t.kind ≠ .farPage c.id) → c.blk ≠ 0 → (c.req ≠ 0 ∨ c.ahead = true) → s.isHint c.req = false →
    part < ((s.req? req).elim 1 fun r => max 1 r.parts.length) →
    Leaves (.prefetchArrival req part b layer true) s fun t => ∃ x ∈ t.staging, x.id = c.id ∧ x.arrived = true ∧ x.since = s.now ∧
      ∀ r l, s.rec? c.blk = some r → r.loc? layer = some l →
        x.loc = some l ∧ ∀ g, s.page? l.tier l.addr = some g → x.data = g.data) ∧
  (∀ (s : State) (id : Nat), s.inService = true → (∀ e ∈ s.dir, e.refetch = []) → (∀ x ∈ s.reqs, x.settles = false) →
    Leaves (.stagingTtlEnd id) s fun t => ∀ c, c ∈ t.staging ↔ c ∈ s.staging ∧
      ¬(c.id = id ∧ c.ahead = true ∧ c.arrived = true ∧ c.since + s.params.stagingTtlUs * ticksPerUs ≤ s.now)) ∧
  (∀ (s : State) (m : Move) (r : Rec) (l : Loc) (tier a : Nat),
    s.inService = true → s.nextMove = some m → s.rec? m.blk = some r → r.loc? m.layer = some l → s.moveStands m r l = true →
    (l.tier = 2 → s.tierFault l = none) → s.moveDest m r l = some (tier, a) → (2 ≤ tier ∨ 2 ≤ l.tier → s.stagingFree 0 l.grains = true) →
    (tier = 2 ∨ l.tier = 2 → s.tableUp 2 = true) →
    Leaves .tierMoveStart s fun t =>
      (∃ y ∈ t.moves, y.id = m.id ∧ y.target = tier ∧ y.dest = some a) ∧
      ∃ x k, t.rec? m.blk = some x ∧ x.loc? m.layer = some k ∧ k.moving = true ∧ k.addr = l.addr) ∧
  (∀ (s : State) (m : Move) (r : Rec) (l : Loc) (a : Nat) (data : Bytes),
    s.inService = true → s.move? m.id = some m → s.rec? m.blk = some r → r.loc? m.layer = some l → l.moving = true →
    (∀ t ∈ s.txns, t.kind ≠ .put m.id) → m.dest = some a → m.target ≠ 2 →
    (∀ e ∈ s.dir, e.proxy = false ∧ s.heldAway e = false ∧ e.refetch = []) → (∀ e ∈ s.extents, e.releasing = false) →
    (∀ x ∈ s.reqs, x.settles = false) → s.readIssued r.ownerKind r.owner l = .ok data →
    Leaves (.tierMoveEnd m.id true) s fun t =>
      ∃ x k, t.rec? m.blk = some x ∧ x.loc? m.layer = some k ∧ k.tier = m.target ∧ k.addr = a ∧ k.moving = false) ∧
  (∀ (s : State) (i n : Nat) (q : Seq),
    s.inService = true → s.seq? i = some q → (∃ v ∈ q.old, v.num = n ∧ v.pins = 0) →
    Leaves (.pinRelease i n) s fun t => ∀ p, t.seq? i = some p → ∀ v ∈ p.old, v.num ≠ n) ∧
  (∀ (s : State) (id layer : Nat) (r : Rec) (l : Loc),
    s.inService = true → s.isTray = false → s.rec? id = some r → r.loc? layer = some l → l.sweptAt < s.now / s.ripePeriod + 1 →
    Leaves (.ripeningSweep false id layer) s fun t =>
      ∃ x k, t.rec? id = some x ∧ x.loc? layer = some k ∧ k.ripening = l.ripening / 2 ∧ k.sweptAt = s.now / s.ripePeriod + 1) ∧
  ∀ (s : State) (w : Weights) (chunk : Nat),
    s.inService = true → w ∈ s.weights → w.swept.getD chunk 0 < s.now / s.ripePeriod + 1 → chunk < w.counts.length →
    Leaves (.ripeningSweep true w.model chunk) s fun t =>
      ∃ x ∈ t.weights, x.model = w.model ∧ x.counts = w.counts.set chunk (w.counts.getD chunk 0 / 2)

/-! ### The array and the directory's upkeep (03, 04, 08, 12) -/

/-- The upkeep of the associative array (R89 to R91): a comparison that finds nothing changes only its time and clears the suspects, one that
finds a row again takes a spare row, where it is due or the row's bank is suspect; a failing bank leaves service and the lowest spare begins to rebuild its rows, and takes its place at the end; one
hole of a flow table goes. -/
def Obligations.ArrayCommandsComplete : Prop :=
  (∀ (s : State), s.inService = true → (∀ x ∈ s.shadows, x.2.2.mirrorA = true ∧ x.2.2.mirrorB = true ∧ x.2.2.upset = none) →
    Leaves (.shadowCompare []) s fun t => t = { s with array := { s.array with
      compared := if s.array.compared + compareTicks ≤ s.now then s.now else s.array.compared, suspects := [] } }) ∧
  (∀ (s : State) (x : RowMismatch) (b : Bank),
    s.inService = true → s.bank? x.bank = some b → b.tag ≠ 0 → b.st = .working → x.row < 8192 → x.bothShadow = false → x.again = true →
    x.upset = none → (∀ y ∈ s.shadows, y.2.2.mirrorA = true ∧ y.2.2.mirrorB = true ∧ y.2.2.upset = none) → b.rowsSpent < 128 → (s.array.compared + compareTicks ≤ s.now ∨ x.bank ∈ s.array.suspects) →
    Leaves (.shadowCompare [x]) s fun t => t.array.suspects = [] ∧ t.bank? x.bank = some { b with rowsSpent := b.rowsSpent + 1 } ∧ t.array.rows = s.array.rows) ∧
  (∀ (s : State) (n : Nat) (b x : Bank),
    s.inService = true → s.bank? n = some b → b.st = .working → b.tag ≠ 0 → (s.array.banks.find? fun x => x.st == .spare) = some x →
    x.n ≠ n →
    Leaves (.arrayBankFault n) s fun t =>
      t.bank? n = some { b with st := .failing } ∧ ∃ y, t.bank? x.n = some y ∧ y.st = .rebuilding n) ∧
  (∀ (s : State) (n old : Nat) (b x : Bank),
    s.inService = true → s.bank? n = some x → x.st = .rebuilding old → s.bank? old = some b → old ≠ n →
    (∀ r ∈ s.reqs, r.phase ≠ .waiting ∧ ∀ f, r.desc ≠ .publish f) → s.array.held = [] →
    Leaves (.bankRebuildEnd n) s fun t =>
      (∃ y, t.bank? n = some y ∧ y.st = .working ∧ y.tag = b.tag) ∧ ∃ y, t.bank? old = some y ∧ y.st = .lost ∧ y.tag = 0) ∧
  ∀ (s : State), s.inService = true →
    (Leaves (.holeRemoval 3) s fun t => t.array.flow4 = s.array.flow4.dropHole ∧ t.array.flow6 = s.array.flow6) ∧
    Leaves (.holeRemoval 4) s fun t => t.array.flow6 = s.array.flow6.dropHole ∧ t.array.flow4 = s.array.flow4

/-- The directory's own upkeep (R51, R60, R68, R71, R175, R279): an idle home entry is withdrawn and freed; a complete copy of a prefix
whose digest agrees is verified, after what its reads find (log entry 30); a page that decodes on a second engine takes the first one out
of service and calls the lowest spare; one that fails there again is lost where it is private, and makes its entry faulted where it is
published; a member that cannot be reached loses its objects and volumes, and at a tray its pool key. -/
def Obligations.DirectoryUpkeepCompletes : Prop :=
  (∀ (s : State) (e : DirEntry) (d : DomainRec),
    s.inService = true → s.dir? e.slot = some e → s.domain? e.domain = some d → d.idleWithdrawMs ≠ 0 → e.proxy = false →
    e.st = .published → e.refs = 0 → e.idleSince + d.idleWithdrawMs * 470000 ≤ s.now →
    Leaves (.idleWithdraw e.slot) s fun t => t.dir? e.slot = none) ∧
  (∀ (s : State) (e : DirEntry) (m : ModelRec) (raw : Bytes),
    s.inService = true → s.dir? e.slot = some e → e.proxy = true → e.copyVerified = false → s.copyComplete e = true →
    (e.parent = 0 ∨ (s.entryOf e.parent).isSome = true) → s.modelOf e.fingerprint = some m →
    s.copyContent e m = .ok raw → digest256 (digestHead m.fingerprint e.fmt e.depth (s.parentDigest e.parent) ++ raw) = e.digest →
    Leaves (.copyVerify { slot := e.slot }) s fun t => t.dir? e.slot = some { e with copyVerified := true }) ∧
  (∀ (s : State) (x : CopyCheck), exec (.copyVerify x) s = exec (.copyVerify { x with found := [] }) (s.readFaults x.found)) ∧
  (∀ (s : State) (blk layer c p l k : Nat) (x : Recheck) (rest : List (Nat × Nat)) (e : Engine),
    s.inService = true → (s.rechecks.find? fun x => x.blk == blk && x.layer == layer) = some x → x.engines = (c, p) :: rest →
    s.engineAt c p = some e → e.st = .active l → s.spareEngine c = some k → k ≠ p → s.passes = [] → s.curds = [] →
    (∀ r ∈ s.calendar, r.cal ≠ .engine c l) →
    Leaves (.decodeRecheck blk layer true) s fun t =>
      (∀ y ∈ t.rechecks, ¬(y.blk = blk ∧ y.layer = layer)) ∧ (t.engineAt c p).map (·.st) = some (.failed l) ∧
        (t.engineAt c k).map (·.st) = some (.brining l)) ∧
  (∀ (s : State) (blk layer : Nat) (x : Recheck) (r : Rec) (l : Loc),
    s.inService = true → (s.rechecks.find? fun x => x.blk == blk && x.layer == layer) = some x → s.rec? blk = some r →
    r.loc? layer = some l → l.lost = false → s.isCopy blk = false →
    (r.published = false → Leaves (.decodeRecheck blk layer false) s fun t =>
      (∀ y ∈ t.rechecks, ¬(y.blk = blk ∧ y.layer = layer)) ∧
        ∃ y k, t.rec? blk = some y ∧ y.loc? layer = some k ∧ k.lost = true ∧ k.grains = 0) ∧
    ∀ e, r.published = true → s.dir? e.slot = some e → e.refs ≠ 0 → e.st = .published →
      (s.dir.filter fun e => !s.heldAway e && e.st != .faulted && e.map.any fun x => x.2 == blk) = [e] →
      Leaves (.decodeRecheck blk layer false) s fun t =>
        (∀ y ∈ t.rechecks, ¬(y.blk = blk ∧ y.layer = layer)) ∧ t.dir? e.slot = some { e with st := .faulted }) ∧
  ∀ (s : State) (dev : Nat),
    s.inService = true → s.params.leaseMs * 470000 ≤ s.now →
    (∀ p ∈ s.memberPorts dev, p.st ≠ .up ∧ p.left.getD 0 + s.params.leaseMs * 470000 ≤ s.now) →
    Leaves (.memberUnreachable dev) s fun t => (∀ o ∈ t.tray.objects, o.host = dev → o.lost = true) ∧
      (∀ v ∈ t.tray.volumes, v.2 ≠ dev) ∧ (t.isTray = true → t.slotFilled (ownerSlot 1 dev) = false)

/-! ### Links and ports (12) -/

/-- A link comes up step by step (R251 to R253, R257, R261, R268, R321, R405): training, at a rate and width that R249 or R251 lists and the
lanes it found good allow, then the HELLO that settles the version, or the first step with the device; the authentication that opens the
session, or sets up the keys of IDE; the peer's CONFIG; a port that has been down trains again. -/
def Obligations.LinkUpCompletes : Prop :=
  (∀ (s : State) (port : PortId) (p : Port) (rate width : Nat) (cxl31 : Bool) (retired : List (Nat × Nat)) (corrected : List LaneFix),
    let u := s.trainingLanes (clusterOfPort port) retired corrected
    s.inService = true → (s.port? port).map (·.st) = some .training → s.resets.active = [] → u.port? port = some p → p.st = .training →
    u.listedRate port rate width = true →
    Leaves (.linkTrainingEnd port (.pass rate width cxl31) retired corrected) s fun t =>
      (∃ q, t.port? port = some q ∧ q.rate = rate ∧ q.width = width ∧ q.st = .securing ∧ q.gen31 = cxl31 ∧ q.asked = 0) ∧
      (∀ l, port = .asvis l → ∃ f, Output.frame l f ∈ t.out ∧ f.msg = msgHello ∧ f.version = 1 ∧ f.src = s.params.deviceId) ∧
      ((∃ c n, port = .nvme c n) ∨ (∃ c, port = .cxl c ∧ s.isTray = false) → Output.secure port .enumerate ∈ t.out)) ∧
  (∀ (s : State) (link v : Nat) (p : Port) (f : HelloF),
    s.inService = true → s.port? (.asvis link) = some p → p.st = .securing → p.session = false → topVersion ownVersions f.versions = some v →
    (∀ x ∈ s.memberPorts f.device, ∀ h, x.peer = some h → h.bootEpoch = f.bootEpoch) →
    Leaves (.hello link f) s fun t => ∃ q, t.port? (.asvis link) = some q ∧ q.peer = some f ∧ q.version = v ∧
      if v = 1 ∧ p.rate = 224 then q.st = .training ∧ q.rate = 112 else q = { p with peer := some f, version := v, hello := true }) ∧
  (∀ (s : State) (link : Nat) (p : Port),
    s.inService = true → s.port? (.asvis link) = some p → p.st = .securing → p.session = false → p.hello = true →
    p.resetting = false → s.linkKeys = true → (∀ d ∈ s.image.domains, d.domain < 1024) →
    ∀ root, (s.image.peerOwnerRoot = 0 ∨ root = s.image.peerOwnerRoot) →
    Leaves (.spdmFrame link (.authenticated root)) s fun t =>
      (∃ q, t.port? (.asvis link) = some q ∧ q.session = true ∧ q.txSeq = 1 ∧ q.rxSeq = 0) ∧
        t.slotFilled (portSlot (.asvis link)) = true ∧ t.sent link msgConfig 0 0 0 (s.configBytes link)) ∧
  (∀ (s : State) (link : Nat) (p : Port) (fr : Frame) (f : ConfigF),
    s.inService = true → s.port? (.asvis link) = some p → p.st = .securing → p.session = true → frameLegal p fr [0] 0 = true →
    fr.frameSeq = p.rxSeq → fr.tagOk = true →
    Leaves (.config link fr f) s fun t => ∃ q, t.port? (.asvis link) = some q ∧ q.st = .up ∧ q.rxSeq = p.rxSeq + 1 ∧
      q.credits = f.credits ∧ q.peerCycle = f.cycleTicks ∧ q.peerGates = f.gates ∧ q.dirOk = s.dirAgrees p f) ∧
  (∀ (s : State) (port : PortId) (p : Port),
    s.inService = true → s.port? port = some p → (∀ l, port ≠ .asvis l) → p.st = .securing →
    (∀ ide m, let q := { p with asked := p.asked + 1, ide := p.ide && ide }
      (s.authenticates q = true ∨ q.asked < (s.deviceSteps q).length) → (s.secureSteps q)[q.asked]? = some m →
      Leaves (.doeResponse port (.more ide)) s fun t => t.port? port = some q ∧ Output.secure port m ∈ t.out) ∧
    ∀ root, (s.deviceSteps p).length ≤ p.asked → s.linkKeys = true →
      Leaves (.doeResponse port (.authenticated root)) s fun t =>
        (∃ q, t.port? port = some q ∧ q.st = .up ∧ q.left = none) ∧ (p.runsIde = true → t.slotFilled (portSlot port) = true)) ∧
  ∀ (s : State) (port : PortId) (p : Port),
    s.inService = true → s.port? port = some p → p.st = .down → p.since + s.params.aslRetryMs * 470000 ≤ s.now → s.quiet port = true →
    Leaves (.retryIntervalEnd port) s fun t => ∃ q, t.port? port = some q ∧ q.st = .training ∧ q.since = s.now

/-- A link that is up (R252, R255 to R257): CREDIT adds to the credits of every class, REPLAY sends again what the buffer holds from the
frame named, EPOCH notes the peer's epoch of an owner and drops what is still gathered under the old one, and KEEPALIVE is heard or
sent. -/
def Obligations.LinkFramesComplete : Prop :=
  (∀ (s : State) (link : Nat) (p : Port) (fr : Frame) (f : ConfigF),
    s.hears link p fr 1 [0] 0 = true → Leaves (.config link fr f) s fun t => t = s.heard link fr) ∧
  (∀ (s : State) (link : Nat) (p : Port) (fr : Frame) (h : HelloF),
    s.hears link p fr 1 [0] 0 = true → p.peer = some h → fr.aux = h.bootEpoch →
    Leaves (.keepalive link fr) s fun t => t = s.heard link fr) ∧
  (∀ (s : State) (link : Nat) (p : Port) (fr : Frame),
    s.hears link p fr 1 [0] 0 = true →
    (Leaves (.credit link fr) s fun t => ∃ q, t.port? (.asvis link) = some q ∧ q.credits.length = 8 ∧
      ∀ c, c < 8 → q.credits.getD c 0 = p.credits.getD c 0 + fr.object / 2 ^ (8 * c) % 256) ∧
    (Leaves (.replay link fr) s fun t =>
      (∃ q, t.port? (.asvis link) = some q ∧ q.buffer = p.buffer ∧ q.txSeq = p.txSeq) ∧
        ∀ f ∈ p.buffer, fr.object ≤ f.frameSeq → Output.frame link f ∈ t.out) ∧
    Leaves (.epoch link fr) s fun t =>
      let owner := if bit fr.object 63 then 4096 + fr.object % 1024 else fr.object % 4096
      (∀ e, (link, owner, e) ∈ t.peerEpochs ↔ e = fr.aux % 65536) ∧ ∀ x ∈ t.tray.puts, x.link = link →
        ¬(x.keyKind = 1 ∧ x.tenant = owner) ∧ ¬(x.keyKind = 2 ∧ 4096 + x.domain = owner)) ∧
  ∀ (s : State) (link : Nat) (p : Port),
    s.inService = true → s.port? (.asvis link) = some p → p.st = .up →
    (p.resetting = false → s.slotFilled (portSlot (.asvis link)) = true → Leaves (.keepaliveInterval link) s fun t =>
      (∃ q, t.port? (.asvis link) = some q ∧ q.txSeq = p.txSeq + 1 ∧ q.lastTx = s.now) ∧ t.sent link msgKeepalive 0 0 0 [] ∧
        ∃ f, Output.frame link f ∈ t.out ∧ f.frameSeq = p.txSeq ∧ f.aux = s.boot.bootEpoch) ∧
    (s.quiet (.asvis link) = true → Leaves (.keepaliveTimeout link) s fun t =>
      ∃ q, t.port? (.asvis link) = some q ∧ q.st = .down ∧ q.session = false ∧ q.buffer = [] ∧ q.left = some s.now)

/-- What takes a port out of traffic (R250, R251): a surprise down, after which nothing of the old session stays, and a retired lane, which
trains the ports on it again, or takes a x1 link down where its cluster's spare is spent. -/
def Obligations.PortFailuresComplete : Prop :=
  (∀ (s : State) (port : PortId) (p : Port),
    s.inService = true → s.port? port = some p → (∀ l, port ≠ .asvis l) → (p.st = .up ∨ p.st = .securing) → s.quiet port = true →
    Leaves (.surpriseDown port) s fun t =>
      (∃ q, t.port? port = some q ∧ q.st = .down ∧ q.session = false ∧ q.since = s.now) ∧ t.slotFilled (portSlot port) = false) ∧
  ∀ (s : State) (c lane : Nat) (x : LinkCluster),
    s.inService = true → (s.clusters.find? fun x => x.n == c) = some x → x.mode ≠ 0 → lane ≤ 8 → x.lanesBad.contains lane = false →
    (∀ y ∈ s.txns, clusterOfPort y.port ≠ c) →
    let P := fun (t : State) =>
      (t.clusters.find? fun x => x.n == c) = some { x with lanesBad := x.lanesBad ++ [lane], spareSpent := true } ∧
        ∀ l p, x.logical lane = some l → s.port? (lanePort x.mode c l) = some p → p.st = .up →
          ∃ q, t.port? (lanePort x.mode c l) = some q ∧ q.st = if x.spareSpent ∧ x.mode = 1 then .down else .training
    Leaves (.laneFailure c lane) s P ∧ Leaves (.laneShort c lane) s P

/-! ### Messages between controllers (03, 08, 12) -/

/-- Pages and tables between controllers (R171, R257 to R259, R277, R278): a holder sends a page's bytes in frames of 4,096 bytes in
ascending order, and a tray an object's, counting the read; the frames of a page gather, and the last one fills the copy that waits;
PAGE_PUT keeps a page at the tray and PUT_DONE ends the put; a table goes out by its digest and is entered where it comes in. -/
def Obligations.PageMessagesComplete : Prop :=
  (∀ (s : State) (link b : Nat) (p : Port) (fr : Frame) (e : DirEntry) (x : Rec) (l : Loc) (data : Bytes),
    s.hears link p fr 1 [1, 2] 0 = true → s.isTray = false → 3 ≤ p.version → fr.keyKind = 2 →
    (handleHome fr.object = s.params.deviceId ∨ s.tableUp 1 = true) → s.mirrored = true →
    (s.dir.find? fun e => e.handle == fr.object && e.domain == fr.domain && e.holder == s.params.deviceId && e.st != .faulted) = some e →
    (e.map.find? fun x => x.1 == bits fr.aux 16 18) = some (b, x.id) → s.rec? x.id = some x → x.loc? (bits fr.aux 34 8) = some l →
    s.readStored x.ownerKind x.owner l = .ok data →
    Leaves (.pageGet link { fr := fr }) s fun t => t.sentPage link msgPageData fr.xid fr.object data) ∧
  (∀ (s : State) (link : Nat) (p : Port) (fr : Frame) (o : PoolObj),
    s.hears link p fr 1 [1, 2] 0 = true → s.isTray = true →
    (s.tray.objects.find? fun o => o.host == p.device && o.addr == fr.object) = some o → o.lost = false →
    o.inStack = true → s.slotFilled (ownerSlot 1 p.device) = true →
    Leaves (.pageGet link { fr := fr }) s fun t => t.sentPage link msgPageData fr.xid fr.object o.data ∧
      ∃ y ∈ t.tray.objects, y.id = o.id ∧ y.data = o.data ∧ y.count = min 255 (o.count + 1)) ∧
  (∀ (s : State) (link : Nat) (p : Port) (fr : Frame) (data : Bytes) (x : Txn),
    s.hears link p fr 1 [1, 2] data.length = true → s.answered link fr = some x → fr.status = 0 →
    (fr.last = false → Leaves (.pageData link fr data) s fun t => ∃ y ∈ t.txns, y.xid = fr.xid ∧ y.kind = x.kind ∧ y.data = x.data ++ data) ∧
    ∀ c, x.kind = .farPage c.id → (s.staging.find? fun y => y.id == c.id) = some c → c.blk = 0 → fr.coded = false → fr.last = true →
      Leaves (.pageData link fr data) s fun t => (∀ y ∈ t.txns, y.xid ≠ fr.xid) ∧
        (t.staging.find? fun y => y.id == c.id) = some { c with data := x.data ++ data, coded := false, digest := 0 }) ∧
  (∀ (s : State) (link : Nat) (p : Port) (fr : Frame) (data : Bytes) (resident : Bool),
    s.hears link p fr 1 [1, 2] data.length = true → s.isTray = true → fr.last = true →
    s.hostMay p.device fr.object (fr.aux % 128) = some resident → s.slotFilled (ownerSlot 1 p.device) = true →
    Leaves (.pagePut link fr data) s fun t => t.sent link msgPutDone fr.xid fr.object 0 [] ∧
      ∃ o ∈ t.tray.objects, o.host = p.device ∧ o.addr = fr.object ∧ o.grains = fr.aux % 128 ∧ o.resident = resident ∧
        o.data = ((s.tray.puts.find? fun x => x.link == link && x.xid == fr.xid).elim [] (·.data)) ++ data) ∧
  (∀ (s : State) (link m : Nat) (p : Port) (fr : Frame) (x : Txn),
    s.hears link p fr 1 [1, 2] 0 = true → s.answered link fr = some x → x.kind = .put m → fr.status = 0 →
    Leaves (.putDone link fr) s fun t => (∀ y, y ∈ t.txns ↔ y ∈ s.txns ∧ y.xid ≠ x.xid) ∧ t.moves = s.moves) ∧
  (∀ (s : State) (link : Nat) (p : Port) (fr : Frame),
    s.hears link p fr 2 [2] 0 = true → s.isTray = false →
    Leaves (.tableGet link fr) s fun t => match s.tableByDigest fr.domain (BitVec.ofNat 64 fr.aux) with
      | some x => t.sent link msgTableData fr.xid 0 0 x.image
      | none => t.sent link msgTableData fr.xid 0 3 []) ∧
  ∀ (s : State) (link d id : Nat) (g : BitVec 64) (p : Port) (fr : Frame) (image : Bytes) (x : Txn) (fl : FreeList),
    s.hears link p fr 2 [2] image.length = true → s.answered link fr = some x → x.kind = .tableFetch d g → fr.status = 0 →
    s.tableByDigest d g = none → let im := cleanImage image; im.length = tableImageBytes → imageOk im = true → imageDigest im = g →
    s.metaGone = false → s.impFree.take = some (id, fl) →
    Leaves (.tableData link fr { bytes := image }) s fun t => (∀ y ∈ t.txns, y.xid ≠ x.xid) ∧ t.impFree = fl ∧
      ∃ y ∈ t.tables, y.id = id ∧ y.domain = d ∧ y.image = im ∧ y.digest = g ∧ y.st = .live

/-- Directory messages (R48, R50, R57, R61, R66, R70, R258): the home answers a publication, a lookup, an attach, a release and a
forwarded withdrawal; a device with a proxy acts on the withdraw notice; an answer ends the request that waits for it, and one that does
not come in time marks it to end LINK_FAULT. -/
def Obligations.DirectoryMessagesComplete : Prop :=
  (∀ (s v : State) (link : Nat) (p : Port) (fr : Frame) (k : DirKeyF) (e : DirEntry),
    s.hears link p fr 3 [2] 0 = true → p.dirOk = true → s.genOk fr = true → s.tableUp 1 = true →
    let k' : DirKeyF := { k with domain := fr.domain, holder := fr.src, publisher := fr.tenant }
    (s.heard link fr).parentAway k' = false →
    ((s.heard link fr).compareAndSet k' [] 0 = (.created e, v) →
      Leaves (.dirPublish link fr k) s fun t => t.sent link msgDirAnswer fr.xid e.handle 0 (dirBytes e) ∧
        ∃ x, t.dir? e.slot = some x ∧ x.handle = e.handle ∧ fr.src ∈ x.proxies) ∧
    ((s.heard link fr).compareAndSet k' [] 0 = (.conflict e, v) →
      Leaves (.dirPublish link fr k) s fun t => t.sent link msgDirAnswer fr.xid e.handle 2 (dirBytes e))) ∧
  (∀ (s : State) (link : Nat) (p : Port) (fr : Frame) (fp : BitVec 64) (pairs : List PairF),
    s.hears link p fr 3 [2] 0 = true → p.dirOk = true → s.genOk fr = true → s.tableUp 1 = true →
    let found := (s.heard link fr).localHits fr.domain fp 0 pairs
    Leaves (.dirLookup link fr fp pairs) s fun t =>
      match (bestHit (found.1.filter fun h => handleHome h.2.2 == s.params.deviceId)).bind fun h => found.2.entryOf h.2.2 with
      | some e => t.sent link msgDirAnswer fr.xid e.handle 0 (dirBytes e)
      | none => t.sent link msgDirAnswer fr.xid 0 3 []) ∧
  (∀ (s : State) (link : Nat) (p : Port) (fr : Frame) (e : DirEntry),
    s.hears link p fr 3 [2] 0 = true → p.dirOk = true → s.genOk fr = true → s.mirrored = true → s.dir? e.slot = some e →
    ((s.dir.find? fun e => e.handle == fr.object && !e.proxy && e.st == .published && e.domain == fr.domain) = some e →
      Leaves (.dirAttach link fr) s fun t => t.sent link msgDirAnswer fr.xid e.handle 0 (dirBytes e) ∧
        t.dir? e.slot = some { e with refs := e.refs + 1, proxies := fr.src :: e.proxies }) ∧
    (s.entryOf fr.object = some e → e.proxy = false → e.proxies.contains fr.src = true → 2 ≤ e.refs →
      Leaves (.dirRelease link fr) s fun t => t.sent link msgDirAnswer fr.xid fr.object 0 [] ∧
        t.dir? e.slot = some { e with refs := e.refs - 1, proxies := e.proxies.erase fr.src }) ∧
    (∀ admin, s.withdrawable fr.object fr.domain fr.src fr.tenant admin = some e → e.refs ≠ 0 →
      Leaves (.dirWithdrawn link fr admin) s fun t => t.sent link msgDirAnswer fr.xid fr.object 0 [] ∧
        t.dir? e.slot = some { e with st := .withdrawn } ∧ ∀ r ∈ t.array.rows, r.slot = e.slot → r.isHandle = true) ∧
    (s.entryOf fr.object = some e → e.proxy = true → e.st = .published → handleHome e.handle = fr.src →
      Leaves (.withdrawNotice link fr) s fun t =>
        t.dir? e.slot = some { e with st := .withdrawn } ∧ ∀ r ∈ t.array.rows, r.slot = e.slot → r.isHandle = true)) ∧
  (∀ (s : State) (link : Nat) (p : Port) (fr : Frame) (k : DirKeyF) (x : Txn) (r : Req),
    s.answered link fr = some x → s.txn? fr.xid = some x → s.req? r.id = some r → r.ended = none → (s.ringOf r).isSome = true →
    fr.status = 0 →
    (s.hears link p fr 3 [2] 0 = true → x.kind = .withdraw r.id →
      Leaves (.dirAnswer link fr k) s fun t => s.completes t r stOk 0 ∧ ∀ y ∈ t.txns, y.xid ≠ fr.xid) ∧
    (s.hears link p fr 2 [1, 2] 0 = true → x.kind = .nmo r.id →
      Leaves (.nmoDone link fr) s fun t => s.completes t r stOk (match r.desc with | .compare _ => resDiff fr.object | _ => 0) ∧
        ∀ y ∈ t.txns, y.xid ≠ fr.xid)) ∧
  ∀ (s : State) (link : Nat) (x : Txn) (r : Req),
    s.inService = true → s.txn? x.xid = some x → x.port = .asvis link → x.due ≤ s.now → (x.kind = .lookup r.id ∨ x.kind = .withdraw r.id) →
    s.req? r.id = some r → r.ended = none → r.phase ≠ .writing →
    Leaves (.aslResponseTimeout x.xid) s fun t => t.ends r stLinkFault noBlock noLayer ∧ ∀ y ∈ t.txns, y.xid ≠ x.xid

/-! ### Pool extents and far devices (12) -/

/-- Extents are offered, claimed and released over links and CXL ports (R78, R262, R264 to R267): an offer with room is entered and
claimed, the first claim takes a tray's extent, the confirmation makes it active, an added capacity is active at once; a release that
reaches an extent nobody uses frees it, a forced one makes it drain. -/
def Obligations.ExtentCommandsComplete : Prop :=
  (∀ (s : State) (link i b : Nat) (p : Port) (fr : Frame),
    s.hears link p fr 1 [0] 0 = true → s.isTray = false → s.extentOn link fr.object = none →
    s.extentRoom (fr.aux % 2 ^ 32) = some (i, b) →
    Leaves (.extentOffer link fr) s fun t => t.sent link msgExtentClaim s.ids fr.object 0 [] ∧
      (∃ e ∈ t.extents, e.id = i ∧ e.st = .claiming ∧ e.route = link ∧ e.poolBase = b ∧ e.targetBase = fr.object ∧
        e.grains = fr.aux % 2 ^ 32 ∧ e.resident = bit fr.aux 32) ∧
      ∃ x ∈ t.txns, x.xid = s.ids ∧ x.kind = .claim i) ∧
  (∀ (s : State) (link : Nat) (p : Port) (fr : Frame) (e : TrayExtent),
    s.hears link p fr 1 [0] 0 = true → s.isTray = true → (s.tray.extents.find? fun e => e.base == fr.object) = some e →
    Leaves (.extentClaim link fr) s fun t => match e.owner with
      | none => t.sent link msgExtentDone fr.xid fr.object 0 [] ∧ t.slotFilled (ownerSlot 1 p.device) = true ∧
          (t.tray.extents.find? fun e => e.base == fr.object) = some { e with owner := some p.device }
      | some w => if w = p.device then t.sent link msgExtentDone fr.xid fr.object 0 [] else t.sent link msgExtentDone fr.xid w 8 []) ∧
  (∀ (s : State) (link : Nat) (p : Port) (fr : Frame),
    s.hears link p fr 1 [0] 0 = true →
    (∀ x e, bit fr.aux 0 = false → s.answered link fr = some x → x.kind = .claim e.id → fr.status = 0 → s.extent? e.id = some e →
      Leaves (.extentDone link fr) s fun t =>
        t.extent? e.id = some { e with st := .active, since := s.now } ∧ ∀ y ∈ t.txns, y.xid ≠ x.xid) ∧
    ∀ e, bit fr.aux 0 = true → (s.tray.extents.find? fun e => e.base == fr.object && e.owner == some p.device) = some e →
      Leaves (.extentDone link fr) s fun t => (∀ x ∈ t.tray.extents, x.base = e.base → x.owner = none) ∧
        ∀ o ∈ t.tray.objects, o.overlaps p.device e.base e.grains = false) ∧
  (∀ (s : State) (c tag base grains i b : Nat),
    s.inService = true → s.isTray = false → s.portIssues (.cxl c) = true → ((s.port? (.cxl c)).any (·.gen31)) = true →
    s.extentRoom grains = some (i, b) →
    Leaves (.addCapacity c tag base grains) s fun t => Output.cxlCapacity c tag true ∈ t.out ∧
      ∃ e ∈ t.extents, e.id = i ∧ e.st = .active ∧ e.route = 96 + c ∧ e.tag = tag ∧ e.poolBase = b ∧ e.targetBase = base ∧ e.grains = grains) ∧
  ∀ (s : State) (e : Extent), s.extent? e.id = some e →
    let gone := fun (t : State) => ∀ x ∈ t.extents, x.id ≠ e.id
    let drains := fun (t : State) =>
      t.extent? e.id = some { e with st := .draining, forced := true, releasing := false, since := s.now, drainAt := s.now }
    (∀ link p fr, s.hears link p fr 1 [0] 0 = true → s.extentOn link fr.object = some e →
      (e.st = .claiming → Leaves (.extentRelease link fr) s gone) ∧
      (e.st = .active → s.moves = [] → bit fr.aux 0 = true → Leaves (.extentRelease link fr) s drains) ∧
      (e.st = .active → e.releasing = false → bit fr.aux 0 = false → (∀ x ∈ s.extents, s.extentPages x = [] ∧ s.extentChunks x = []) →
        Leaves (.extentRelease link fr) s gone)) ∧
    ∀ c tag, s.inService = true → s.isTray = false → s.extentTagged c tag = some e →
      (e.st = .active → e.releasing = false → (∀ x ∈ s.extents, s.extentPages x = [] ∧ s.extentChunks x = []) → Leaves (.releaseCapacity c tag) s gone) ∧
      (e.st = .active → s.moves = [] → Leaves (.forcedCapacityRelease c tag) s drains)

/-- A release runs its course (R265 to R267): a requested one that takes too long is forced; operations that do not return in time end;
with none left the extent is revoked; after the sweep it is free. -/
def Obligations.ReleasesRunTheirCourse : Prop :=
  (∀ (s : State) (e : Extent),
    s.inService = true → s.extent? e.id = some e →
    (e.st = .active → e.releasing = true → e.since + s.params.evacuateMs * 470000 ≤ s.now → s.moves = [] →
      Leaves (.evacuateTimeout e.id) s fun t =>
        t.extent? e.id = some { e with st := .draining, forced := true, releasing := false, since := s.now, drainAt := s.now }) ∧
    (e.st = .draining → (∀ x ∈ s.txns, x.extent ≠ some e.id) →
      Leaves (.drainEnd e.id) s fun t => t.extent? e.id = some { e with st := .revoked, since := s.now } ∧
        (e.route < 96 → s.portIssues (.asvis e.route) = true → s.slotFilled (portSlot (.asvis e.route)) = true → t.sent e.route msgExtentDone 0 e.targetBase 0 [])) ∧
    (e.st = .revoked → Leaves (.extentSweepEnd e.id) s fun t => ∀ x ∈ t.extents, x.id ≠ e.id)) ∧
  ∀ (s : State) (e : Extent) (x : Txn) (c : StagingCopy),
    s.inService = true → s.extent? e.id = some e → e.st = .draining → e.drainAt + 70500 ≤ s.now →
    (s.txns.filter fun t => t.extent == some e.id) = [x] → s.txn? x.xid = some x → x.kind = .farPage c.id →
    (s.staging.find? fun y => y.id == c.id) = some c → (∀ e ∈ s.dir, e.refetch = []) → (∀ x ∈ s.reqs, x.settles = false) →
    Leaves (.drainTimeout e.id) s fun t => (∀ y ∈ t.txns, y.extent ≠ some e.id) ∧
      ∀ y ∈ t.staging, y.id = c.id → y.failed = some stLinkFault

/-- Devices behind CXL and NVMe ports answer (R268 to R270, R277): a response ends its transaction, and what waits for the last one goes on (a
supply or a publication whose writes are out, a publication's pages, weight chunks, a tray's pages); a command that does not complete in
time resets the SSD's controller, whose end issues again what is still open. -/
def Obligations.FarDevicesAnswer : Prop :=
  (∀ (s : State) (xid : Nat) (x : Txn), s.inService = true →
    let done := fun (t : State) =>
      let u := { s with txns := s.txns.filter fun y => y.xid != xid }
      match x.kind with
      | .spill id => t = u.writesEnd id
      | .rekey id _ _ => t = u.rekeyMore id
      | .chunk id _ _ => t = u.chunksMore id
      | .destage _ => t = u.flashDone x.kind
      | .trayRead _ _ _ _ => t = u.flashDone x.kind
      | _ => t = u
    (∀ c, s.portTxn (.cxl c) xid = some x → Leaves (.cxlMemResponse c xid true) s done) ∧
    ∀ c p, s.portTxn (.nvme c p) xid = some x → Leaves (.nvmeCommandCompletion c p xid false) s done) ∧
  (∀ (s : State) (c p xid copy : Nat) (x : Txn) (q : Port),
    s.inService = true → s.portTxn (.nvme c p) xid = some x → x.due ≤ s.now → x.kind = .farPage copy →
    (∀ e ∈ s.dir, e.refetch = []) → (∀ x ∈ s.reqs, x.settles = false) →
    s.port? (.nvme c p) = some q → q.st = .up → q.resetting = false →
    Leaves (.nvmeCommandTimeout c p xid) s fun t => Output.nvmeReset c p ∈ t.out ∧ (∀ z ∈ t.txns, z.xid ≠ xid) ∧
      t.port? (.nvme c p) = some { q with resetting := true }) ∧
  ∀ (s : State) (c p : Nat) (q : Port),
    s.inService = true → s.port? (.nvme c p) = some q → q.resetting = true →
    Leaves (.nvmeResetEnd c p true) s fun t => t.port? (.nvme c p) = some { q with resetting := false } ∧ t.txns = s.txns ∧
      (q.st = .up → ∀ y ∈ s.txns, y.port = .nvme c p → ∀ n, y.nvme = some n → n.data = none →
        Output.nvmeRead c p y.xid n.nsid n.lba n.blocks ∈ t.out)

/-! ### The tray (12) -/

/-- Regions of a tray (R272 to R275), whether the pool's host or an operator asks (log entry 141): a draft is opened for its writer; a
published version takes readers; a publication recalls the writer's draft, which takes the version published where it is an earlier one's
that met a conflict (log entry 144), a withdrawal every grant; a release ends one grant, and a draft's begins the
recall that frees it; a host that answers a recall,
gives back its lines, or does not answer in time leaves the recall waiting for the others. -/
def Obligations.RegionCommandsComplete : Prop :=
  (∀ (s : State) (host id version grains : Nat) (d : RegionScope),
    s.heeds d → s.isTray = true → version ≠ 0 → grains ≠ 0 → s.draft? host d.domain id version = none → s.canRecall host = true →
    s.grantRoom grains = true → s.regionBase grains + grains ≤ 2 ^ 40 →
    Leaves (.regionOpen host d id version grains) s fun t => t.regionTold d host id version ∧
      ∃ r ∈ t.tray.regions, r.named d.domain id version = true ∧ r.st = .draft ∧ r.writer = host ∧ r.grains = grains ∧
        r.base = s.regionBase grains ∧ r.grants = [host] ∧ r.bytes = []) ∧
  (∀ (s : State) (id version host : Nat) (d : RegionScope) (r : Region),
    s.heeds d → s.isTray = true → s.publishedRegion d.domain id version = some r → s.canRecall host = true →
    r.grants.contains host = false → s.grantRoom r.grains = true →
    Leaves (.regionGrant d id version host) s fun t => t.regionTold d host id version ∧
      { r with grants := r.grants ++ [host] } ∈ t.tray.regions ∧ t.slotFilled (ownerSlot 1 host) = true) ∧
  (∀ (s : State) (host id version : Nat) (d : RegionScope) (check : SelfCheck) (r : Region),
    s.heeds d → s.isTray = true → s.draftFor host d.domain id version = some r → r.grants.contains host = true →
    Leaves (.regionPublish host d id version check) s fun t =>
      { r with version := version, by_ := d.conn, st := .recalling, waiting := r.grants.filter fun h => h == host,
               recallFor := some .publish, recallAt := s.now } ∈ t.tray.regions) ∧
  (∀ (s : State) (id version : Nat) (d : RegionScope) (r : Region),
    s.heeds d → s.isTray = true → s.publishedRegion d.domain id version = some r →
    Leaves (.regionWithdraw d id version) s fun t => t.regionTold d 0 id version ∧
      if r.grants = [] then r ∉ t.tray.regions
      else { r with st := .recalling, waiting := r.grants, recallFor := some .withdraw, recallAt := s.now } ∈ t.tray.regions) ∧
  (∀ (s : State) (id version host : Nat) (d : RegionScope) (r : Region),
    s.heeds d → s.isTray = true →
    (s.tray.regions.find? fun r => r.named d.domain id version && r.grants.contains host) = some r →
    (r.st = .published → Leaves (.regionRelease d id version host) s fun t => t.regionTold d host id version ∧
      { r with grants := r.grants.filter fun h => h != host } ∈ t.tray.regions) ∧
    (r.st = .draft → Leaves (.regionRelease d id version host) s fun t => t.regionTold d host id version ∧
      { r with grants := r.grants.filter (fun h => h != host), st := .recalling, waiting := [host], recallFor := some .free,
               recallAt := s.now } ∈ t.tray.regions)) ∧
  ∀ (s : State) (host id version : Nat) (r : Region),
    s.recallOf host id version = some r → (r.waiting.filter fun h => h != host) ≠ [] →
    (∀ link p fr, s.hears link p fr 3 [2] 0 = true → p.device = host → regionNamed fr = (id, version) →
      Leaves (.recallDone link fr) s fun t => { r with waiting := r.waiting.filter fun h => h != host } ∈ t.tray.regions) ∧
    (s.inService = true → s.isTray = true → r.recallAt + s.params.recallUs * ticksPerUs ≤ s.now →
      Leaves (.recallTimeout id version host) s fun t =>
        { r with grants := r.grants.filter (fun h => h != host), waiting := r.waiting.filter fun h => h != host } ∈ t.tray.regions) ∧
    (∀ line data, s.inService = true → r.writer = host → r.recallFor = some .publish → 64 * line + 64 ≤ r.size →
      Leaves (.backInvalidateResponse host id version [(line, data)]) s fun t =>
        { r with bytes := r.bytes.writeN (64 * line) (data.take 64), waiting := r.waiting.filter fun h => h != host } ∈ t.tray.regions)

/-- What reaches a tray's regions and pool (R272, R273, R275, R276, R280): reads and writes of regions, near-memory operations on them,
loads and stores of CXL hosts; a read waits while the directory table is short of a bank (R90); a recall at a cache-role controller is answered. -/
def Obligations.TrayAccessesComplete : Prop :=
  (∀ (s : State) (link length : Nat) (p : Port) (fr : Frame) (r : Region),
    s.hears link p fr 3 [2] 0 = true → s.isTray = true → s.tableUp 6 = true →
    s.readable p.device fr.domain (regionNamed fr).1 (regionNamed fr).2 = some r → fr.aux + length ≤ r.size →
    s.reaches r p.device fr.aux length = true →
    Leaves (.regionRead link fr length) s fun t =>
      t.sentPage link msgRegionRead fr.xid ((regionNamed fr).1 + r.version * 2 ^ 32) (r.bytes.readN fr.aux length) ∧ t.tray = s.tray) ∧
  (∀ (s : State) (link : Nat) (p : Port) (fr : Frame) (data : Bytes) (r : Region),
    s.hears link p fr 3 [2] data.length = true → s.isTray = true → s.tableUp 6 = true →
    s.writable p.device fr.domain (regionNamed fr).1 (regionNamed fr).2 = some r → fr.last = true →
    let whole := ((s.tray.puts.find? fun x => x.link == link && x.xid == fr.xid).elim [] (·.data)) ++ data
    fr.aux + whole.length ≤ r.size → s.reaches r p.device fr.aux whole.length = true →
    Leaves (.regionWrite link fr data) s fun t => t.sent link msgRegionWrite fr.xid fr.object 0 [] ∧
      { r with bytes := r.bytes.writeN fr.aux whole } ∈ t.tray.regions) ∧
  (∀ (s : State) (link length : Nat) (p : Port) (fr : Frame),
    s.hears link p fr 3 [2] 0 = true → s.isTray = true → s.tableUp 6 = false →
    Leaves (.regionRead link fr length) s fun t =>
      t.array.held = s.array.held ++ [.regionRead link fr length] ∧ t.tray = s.tray ∧ t.out = s.out) ∧
  (∀ (s : State) (link : Nat) (p : Port) (fr : Frame),
    s.hears link p fr 3 [2] 0 = true → (∀ r ∈ s.reqs, r.onRegion (regionNamed fr).1 (regionNamed fr).2 = false) →
    Leaves (.regionRecall link fr) s fun t => t.sent link msgRecallDone fr.xid fr.object 0 [] ∧ t.reqs = s.reqs) ∧
  (∀ (s : State) (link : Nat) (p : Port) (fr : Frame) (f : FillF) (r : Region),
    s.hears link p fr 2 [1, 2] 0 = true → s.isTray = true → s.tableUp 6 = true → f.dst.kind = 3 →
    s.writable p.device fr.domain f.dst.handle 0 = some r → f.dst.address + f.dst.length ≤ r.size → f.dst.length % 8 = 0 →
    s.reaches r p.device f.dst.address f.dst.length = true →
    Leaves (.nmo link fr (.fill f)) s fun t => t.sent link msgNmoDone fr.xid 0 0 [] ∧
      { r with bytes := r.bytes.writeN f.dst.address ((List.range (f.dst.length / 8)).flatMap fun _ => leBytes 8 f.pattern.toNat) } ∈
        t.tray.regions) ∧
  (∀ (s : State) (link : Nat) (p : Port) (fr : Frame) (f : TwoOpF) (a b : Bytes),
    s.hears link p fr 2 [1, 2] 0 = true → s.isTray = true → s.tableUp 6 = true →
    s.regionSource p.device fr.domain f.a = some a → s.regionSource p.device fr.domain f.b = some b →
    Leaves (.nmo link fr (.compare f)) s fun t => t.sent link msgNmoDone fr.xid (firstDiff a b) 0 []) ∧
  (∀ (s : State) (host line : Nat) (resident : Bool) (o : PoolObj),
    s.inService = true → s.isTray = true → s.hostMay host (line / 256) 1 = some resident →
    (s.tray.objects.find? fun o => o.overlaps host (line / 256) 1) = some o → o.lost = false →
    o.inStack = true → s.slotFilled (ownerSlot 1 host) = true →
    (∀ id, Leaves (.poolCxlMemAccess host id 0 line none) s fun t =>
      Output.cxlRegion host line ((o.data.drop (o.lineAt line)).take 64) ∈ t.out ∧ t.tray = s.tray) ∧
    ∀ id data, Leaves (.poolCxlMemAccess host id 0 line (some data)) s fun t => Output.cxlDone line ∈ t.out ∧
      ∃ y ∈ t.tray.objects, y.id = o.id ∧ y.data = putLine o.data (o.lineAt line) (data.take 64) ∧ y.onFlash = false) ∧
  ∀ (s : State) (host id version line : Nat) (r : Region),
    s.inService = true → s.isTray = true → version ≠ 0 → 64 * line + 64 ≤ r.size → s.tableUp 6 = true →
    s.reaches r host (64 * line) 64 = true →
    (s.cxlRegionOf host id version false = some r →
      Leaves (.poolCxlMemAccess host id version line none) s fun t =>
        Output.cxlRegion host line (r.bytes.readN (64 * line) 64) ∈ t.out ∧ t.tray = s.tray) ∧
    ∀ data, s.cxlRegionOf host id version true = some r →
      Leaves (.poolCxlMemAccess host id version line (some data)) s fun t => Output.cxlDone line ∈ t.out ∧
        { r with bytes := r.bytes.writeN (64 * line) (data.take 64) } ∈ t.tray.regions

/-- A tray's flash (R277, R278, R281): a page is destaged to its group, one write a grain, and lies there once they are all done; the first failure of a group is covered, a second one loses what
lies on flash alone, and the metadata pair's spare is rebuilt. -/
def Obligations.TrayFlashCompletes : Prop :=
  (∀ (s : State) (o : PoolObj) (x : Nat),
    s.inService = true → s.isTray = true → s.object? o.id = some o → o.resident = false → o.lost = false → o.onFlash = false → o.place = none →
    (s.tray.ssdFailed.filter fun x => x.1 == o.ssdGroup).length < 2 → 9 * o.ssdGroup + 9 ≤ s.ssdPorts.length →
    s.stagingFree 0 o.grains = true → firstFit (s.flashRuns o.ssdGroup) 0 (2 ^ 40) o.grains = some x →
    Leaves (.destage o.id) s fun t => (∃ y ∈ t.tray.objects, y.id = o.id ∧ y.place = some x ∧ y.data = o.data ∧ y.lost = false) ∧
      ∀ k c p, k < o.grains → s.ssdPorts[9 * o.ssdGroup + grainSsd (x + k)]? = some (.nvme c p) →
        s.ssdDown o.ssdGroup (grainSsd (x + k)) = false → ∃ y ∈ t.txns, y.kind = .destage o.id ∧ y.port = .nvme c p) ∧
  (∀ (s : State) (o : PoolObj) (c p xid : Nat) (x : Txn),
    s.inService = true → s.portTxn (.nvme c p) xid = some x → x.kind = .destage o.id → o ∈ s.tray.objects → o.place.isSome = true →
    o.lost = false → (∀ y ∈ s.txns, y.kind = .destage o.id → y.xid = xid) → s.tray.gets = [] →
    Leaves (.nvmeCommandCompletion c p xid false) s fun t =>
      ∃ y ∈ t.tray.objects, y.id = o.id ∧ y.onFlash = true ∧ y.data = o.data ∧ y.lost = false) ∧
  (∀ (s : State) (group ssd : Nat),
    s.inService = true → s.isTray = true → s.tray.ssdFailed.contains (group, ssd) = false →
    ((s.tray.ssdFailed.any fun x => x.1 == group) = false →
      Leaves (.traySsdFailure false group ssd) s fun t => (group, ssd) ∈ t.tray.ssdFailed ∧ t.tray.objects = s.tray.objects) ∧
    ((s.tray.ssdFailed.any fun x => x.1 == group) = true →
      Leaves (.traySsdFailure false group ssd) s fun t => (group, ssd) ∈ t.tray.ssdFailed ∧
        ∀ o ∈ s.tray.objects, o.ssdGroup = group → o.onFlash = true → { o with lost := !o.inStack, onFlash := false } ∈ t.tray.objects)) ∧
  (∀ (s : State) (group ssd : Nat),
    s.inService = true → s.isTray = true → s.tray.pairSpare = true →
    Leaves (.traySsdFailure true group ssd) s fun t =>
      t.tray = { s.tray with pairFailed := s.tray.pairFailed + 1, pairSpare := false, rebuilding := true }) ∧
  ∀ (s : State), s.inService = true → s.tray.rebuilding = true →
    Leaves .metadataPairRebuildEnd s fun t => t = { s with tray := { s.tray with rebuilding := false, pairFailed := s.tray.pairFailed - 1 } }

/-! ### On-package memory and the direct region (13, 09) -/

/-- On-package memory at work (R289, R292, R293, R295 to R299): a scrub that finds a few errors counts the row, and repairs or retires
it at the limit; a refresh runs at twice the rate from 85 °C; a lost stack leaves service and its group degrades; an empty group is laid
out over its survivors with every row unwritten, and is healthy once its metadata is written. -/
def Obligations.MemoryCommandsComplete : Prop :=
  (∀ (s : State) (stack grain sector : Nat),
    s.inService = true → s.stackUp stack = true →
    (Leaves (.patrolScrub stack grain sector .clean) s fun t => t = s) ∧
    (s.rowCount stack grain + 1 < s.params.rowCeLimit →
      Leaves (.patrolScrub stack grain sector .few) s fun t => t.rowCount stack grain = s.rowCount stack grain + 1 ∧
        t.telemetry = { s.telemetry with corrected := s.telemetry.corrected + 1 } ∧ t.pages = s.pages) ∧
    (s.params.rowCeLimit ≤ s.rowCount stack grain + 1 →
      Leaves (.patrolScrub stack grain sector .few) s fun t => t.rowCount stack grain = 0 ∧
        (t.telemetry.repairs = s.telemetry.repairs + 1 ∨
          ∃ x, t.stack? stack = some x ∧ grain ∈ x.retired)) ∧
    ∀ x, exec (.patrolScrub stack grain sector x) s = .next (s.readFaults [.line stack grain sector x])) ∧
  (∀ (s : State) (x : Stack),
    s.inService = true → s.stack? x.n = some x →
    (∀ tempC, Leaves (.refresh x.n tempC) s fun t => t.stack? x.n = some { x with doubled := decide (85 ≤ tempC) }) ∧
    Leaves (.refreshManagementRequest x.n) s fun t => t.stack? x.n = some { x with served := x.served + 1 }) ∧
  (∀ (s : State) (k : Nat) (g : PGroup),
    s.inService = true → s.stackUp k = true → s.recs = [] → s.calendar = [] → s.groupOf k = some g → g.st = .healthy →
    3 ≤ g.layout.length → (g.layout.filter fun j => j != k && s.stackUp j) ≠ [] → (s.groups.find? fun x => x.n == g.n) = some g →
    let P := fun (t : State) => t.stackUp k = false ∧
      (t.groups.find? fun x => x.n == g.n) = some { g with st := .degraded, rebuild := 1 }
    Leaves (.stackLost k) s P ∧ Leaves (.hbmRefclkMissing k) s P) ∧
  ∀ (s : State) (g : PGroup),
    s.inService = true → (s.groups.find? fun x => x.n == g.n) = some g →
    (g.st = .degraded → g.rebuild = 1 → s.groupPages g = 0 → (s.t1ChunksAt g.holds).isEmpty = true →
      Leaves (.evacuationEnd g.n) s fun t => (t.groups.find? fun x => x.n == g.n) =
        some { g with layout := g.layout.filter fun k => s.stackUp k, rebuild := 2, copyOk := false } ∧
        ∀ x ∈ t.parity, x.group ≠ g.n) ∧
    (g.rebuild = 2 →
      Leaves (.rebuildMetadataEnd g.n) s fun t => (t.groups.find? fun x => x.n == g.n) =
        some { g with st := .healthy, rebuild := 0, copyOk := true })

/-- CXL.mem on the direct region (R197 to R201, R305, R332): a write of a line stores its 64 bytes where its sector can be read, and writes
nothing where it cannot (log entry 145); a read of a whole good line returns its bytes, and a failing line returns an error instead. -/
def Obligations.DirectRegionCompletes : Prop :=
  ∀ (s : State) (line : Nat),
    s.inService = true → line < s.directLines → s.directUp = true →
    (s.directKeyed = true →
      (∀ data, s.directBlocked (64 * line) 64 = false → Leaves (.cxlMemWrite line data) s fun t =>
        t.direct = s.direct.writeN (64 * line) (data.take 64) ∧ line ∉ t.directBad ∧ Output.cxlDone line ∈ t.out) ∧
      (∀ data, s.directBlocked (64 * line) 64 = true → Leaves (.cxlMemWrite line data) s fun t =>
        t.direct = s.direct ∧ t.directBad = s.directBad ∧ Output.cxlError line ∈ t.out) ∧
      ∀ viral, s.directBad.contains line = false →
        Leaves (.cxlMemRead line true viral) s fun t => t = s.emit (.cxlData line (s.directRead (64 * line) 64))) ∧
    ∀ viral, Leaves (.cxlMemRead line false viral) s fun t =>
      Output.cxlError line ∈ t.out ∧ line ∈ t.directBad ∧ t.viral = (s.viral || viral) ∧ t.direct = s.direct

/-! ### Faults and spares (15) -/

/-- Engines and shelf banks (R144, R342, R343, R348, R349): an engine that fails leaves service and the lowest spare is brined for its
number, and takes it when the brine ends clean; a shelf bank is copied to the lowest spare, which stands in for it at the end; a UCIe
module leaves service, a lane is repaired by a spare one, and a trained group comes up, whatever its training repaired, with what it runs
at (R322). -/
def Obligations.EngineAndModuleFaultsComplete : Prop :=
  (∀ (s : State) (c p l k check : Nat) (e : Engine),
    s.inService = true → s.engineAt c p = some e → e.st = .active l → s.spareEngine c = some k → k ≠ p → s.passes = [] → s.curds = [] →
    (∀ r ∈ s.calendar, r.cal ≠ .engine c l) →
    Leaves (.engineFault c p check) s fun t =>
      (t.engineAt c p).map (·.st) = some (.failed l) ∧ (t.engineAt c k).map (·.st) = some (.brining l)) ∧
  (∀ (s : State) (c p l : Nat) (e : Engine),
    s.inService = true → s.engineAt c p = some e → e.st = .brining l → e.brined + 2162 ≤ s.now → s.passes = [] → s.curds = [] →
    Leaves (.engineRemapped c p true) s fun t =>
      (t.engineAt c p).map (·.st) = some (.active l) ∧ t.sparesUsed 0 c = s.sparesUsed 0 c + 1) ∧
  (∀ (s : State) (bank k : Nat),
    s.inService = true → bank < 64 → s.shelfSt bank = .working → s.spareShelf = some k → k ≠ bank →
    Leaves (.shelfBankFault bank []) s fun t => t.shelfSt bank = .copying k 0 ∧ t.shelfSt k = .used) ∧
  (∀ (s : State) (bank k lost : Nat),
    s.inService = true → bank < 64 → s.shelfSt bank = .copying k lost →
    Leaves (.shelfBankRemapped bank) s fun t => t.shelfSt bank = .onSpare k) ∧
  (∀ (s : State) (g m : Nat),
    s.inService = true → s.isTray = false → m < 4 → s.faults.modulesOut.contains (g, m) = false → s.calendar = [] →
    (∃ k ∈ s.zarfyModules g, k ≠ m) →
    Leaves (.ucieModuleLoss g m) s fun t =>
      t.faults.modulesOut = (g, m) :: s.faults.modulesOut ∧ t.faults.groupsUp = s.faults.groupsUp ∧ t.faults.service = true) ∧
  (∀ (s : State) (g m : Nat),
    s.inService = true → s.isTray = false → s.faults.modulesOut.contains (g, m) = false →
    Leaves (.ucieLaneRepair g m) s fun t =>
      if Config.ucieSpareLanes ≤ s.sparesUsed 4 (g * 4 + m) then t = s
      else t.sparesUsed 4 (g * 4 + m) = s.sparesUsed 4 (g * 4 + m) + 1 ∧ ∃ n, (g, m, n + 1) ∈ t.faults.lanesFixed) ∧
  ∀ (s : State) (g : Nat) (x : UcieTrained) (corrected : List (Nat × LaneFix)),
    s.isTray = false → (s.boot.phase = .training ∨ s.boot.phase = .service) → (s.ucie? g).isSome = true →
    s.zarfyModules g ≠ [] → s.faults.groupsUp.contains g = false →
    let old := s.faults.groups11.filter fun y => y != g
    Leaves (.ucieTrainingEnd g x corrected) s fun t =>
      t.faults.groupsUp = g :: s.faults.groupsUp ∧ t.faults.groups11 = (if x.ucie11 then g :: old else old) ∧
        (x.repaired = [] → corrected = [] → t = { s with faults := { s.faults with
          groupsUp := g :: s.faults.groupsUp, groups11 := if x.ucie11 then g :: old else old } })

/-- Control pairs, key banks, AES lanes, duplicated computations and the deadline monitor (R175, R339, R344 to R347): a checkpoint is written; a lockstep mismatch halts its
pair, and the spare pair takes the partition with its checkpoint; a failing key bank leaves service and the spare is copied to; a failed
lane is remapped; of two hash engines that disagree the failing one leaves service, and both on a second mismatch of the pair within 1 s (log entry 30); a page coder
that fails leaves service and its command commits nothing; a monitor fault rescinds what it holds and stands; a request whose time is up,
or whose two copies in the tracker disagree, ends (R340; log entry 136 says when). -/
def Obligations.ControlFaultsComplete : Prop :=
  (∀ (s : State) (n : Nat) (p : ControlPair),
    s.inService = true → (s.faults.pairs.find? fun p => p.n == n) = some p → p.halted = false →
    (∀ j, p.partition = some j →
      Leaves (.controlCheckpoint n) s fun t => (t.faults.pairs.find? fun p => p.n == n) = some { p with checkpoint := s.now }) ∧
    (∀ j, p.partition = some j → s.dependOn j = [] → (∃ x ∈ s.faults.pairs, x.n ≠ n ∧ x.halted = false ∧ x.partition = none) →
      Leaves (.controlPairFault n) s fun t => (t.faults.pairs.find? fun p => p.n == n) = some { p with halted := true }) ∧
    (p.partition = none →
      Leaves (.controlPairFault n) s fun t => (t.faults.pairs.find? fun p => p.n == n) = some { p with halted := true })) ∧
  (∀ (s : State) (part : Nat) (old new : ControlPair),
    s.inService = true → (s.faults.pairs.find? fun p => p.halted && p.partition == some part) = some old →
    (s.faults.pairs.find? fun p => !p.halted && p.partition.isNone) = some new → old.n ≠ new.n →
    (s.faults.pairs.find? fun p => p.n == new.n) = some new →
    Leaves (.controlPairTakeover part) s fun t =>
      (t.faults.pairs.find? fun p => p.n == new.n) = some { new with partition := some part, checkpoint := old.checkpoint } ∧
        ∀ p ∈ t.faults.pairs, p.n = old.n → p.partition = none) ∧
  (∀ (s : State) (bank : Nat),
    s.keyBanks.contains bank = true → (s.keyBanks.filter fun b => b != bank && !(s.island.copying && b == 2)) ≠ [] → s.sparesUsed 7 0 = 0 →
    Leaves (.keyBankReplaced bank) s fun t =>
      t.island = { s.island with banksBad := bank :: s.island.banksBad, copying := true } ∧ t.sparesUsed 7 0 = 1) ∧
  (∀ (s : State), Leaves (.keyBankCopyEnd 2) s fun t => t = { s with island := { s.island with copying := false } }) ∧
  (∀ (s : State) (unit lane : Nat),
    s.inService = true → s.island.aesBad.contains (unit, lane) = false → (s.island.aesBad.filter fun x => x.1 == unit).length < 2 →
    Leaves (.aesKnownAnswerTest unit [lane]) s fun t => t.island = { s.island with aesBad := (unit, lane) :: s.island.aesBad } ∧
      t.sparesUsed 8 unit = s.sparesUsed 8 unit + 1) ∧
  (∀ (s : State) (a b : Nat),
    s.hashEngines.contains a = true → s.hashEngines.contains b = true → a ≠ b →
    (s.hashMismatch a b true false).island = { s.island with shaBad := a :: s.island.shaBad } ∧
    ((∀ x ∈ s.island.shaDoubt, x.1 = min a b → x.2.1 = max a b → x.2.2 + 470000000 < s.now) →
      ((s.hashMismatch a b false false).hashMismatch b a false false).island.shaBad = a :: b :: s.island.shaBad)) ∧
  (∀ (s : State) (r : Req) (ok : Bool) (a b : Nat) (x y : Bool) (data : Bytes),
    s.inService = true → s.req? r.id = some r → r.hashesNow ok = true →
    exec (.dmaTransferEnd r.id ok [] (.hash a b x y) data) s = exec (.dmaTransferEnd r.id ok [] .pass data) (s.hashMismatch a b x y)) ∧
  (∀ (s : State) (r : Req) (f : BlocksF) (q : Seq) (data : Bytes),
    s.inService = true → s.req? r.id = some r → (r.desc = .append f ∨ r.desc = .replace f) → r.codesNow true = true →
    s.seqOf r.tenant f.seq = some q → r.ended = none → r.phase ≠ .writing →
    Leaves (.dmaTransferEnd r.id true [] .coder data) s fun t => t.ends r stInternalFault noBlock noLayer ∧
      t.faults.codersOut = s.coderFor q.homeStack :: s.faults.codersOut) ∧
  (∀ (s : State),
    s.inService = true → s.monitor.failed = false →
    (s.monitor.held = [] → Leaves .deadlineMonitorFault s fun t => t.monitor = { s.monitor with failed := true } ∧ t.faults.service = true) ∧
    ∀ r f d, s.monitor.held = [(r.id, d)] → s.req? r.id = some r → r.desc = .lookupHash f → r.past = false → r.ended = none →
      Leaves .deadlineMonitorFault s fun t => t.ends r stRescinded noBlock noLayer) ∧
  ∀ (s : State) (r : Req) (f : LookupHashF),
    s.inService = true → s.req? r.id = some r → r.desc = .lookupHash f → r.past = false → r.ended = none →
    (r.trackOk = true → r.cls ≠ 0 → r.decided + s.params.watchdogMs * 470000 ≤ s.now →
      Leaves (.watchdogExpiry { req := r.id }) s fun t => t.ends r stInternalFault noBlock noLayer) ∧
    ∀ upset, ({ r with writerSeq := r.writerSeq ^^^ upset } : Req).trackOk = false →
      Leaves (.watchdogExpiry { req := r.id, upset := upset }) s fun t => t.ends r stInternalFault noBlock noLayer

/-- The event recorder and the arbiters (R341, R351 to R354): the head of the queue is written under the next sequence number, and a
repeat within 1 ms adds to the last record; the block of a failed arbiter leaves service. -/
def Obligations.RecorderCommandsComplete : Prop :=
  (∀ (s : State) (e : Event) (rest : List Event),
    s.recorder.booted = true → s.recorder.queue = e :: rest → s.recorder.dropped = 0 →
    Leaves .eventRecordWrite s fun t => t.recorder.queue = rest ∧
      match s.recorder.ring with
      | [] => t.recorder.ring = [{ e with seq := s.recorder.next % 2 ^ 32 }] ∧ t.recorder.next = s.recorder.next + 1
      | l :: ls =>
        if e.repeats l then t.recorder.ring = { l with last := e.first, count := min (l.count + 1) 65535 } :: ls ∧ t.recorder.next = s.recorder.next
        else t.recorder.ring = ({ e with seq := s.recorder.next % 2 ^ 32 } :: l :: ls).take 65536 ∧ t.recorder.next = s.recorder.next + 1) ∧
  (∀ (s : State) (a block : Nat),
    s.inService = true → 8 ≤ block % 65536 / 4096 →
    Leaves (.arbiterFault a block) s fun t =>
      t.faults.blocksOut = block % 65536 :: s.faults.blocksOut.filter fun b => b != block % 65536) ∧
  ∀ (s : State) (a n : Nat) (p : ControlPair),
    s.inService = true → n < 4096 → (s.faults.pairs.find? fun p => p.n == n) = some p → p.halted = false → p.partition = none →
    Leaves (.arbiterFault a (7 * 4096 + n)) s fun t => (t.faults.pairs.find? fun p => p.n == n) = some { p with halted := true } ∧
      (7 * 4096 + n) ∈ t.faults.blocksOut

/-! ### Identity and tenants (14) -/

/-- A tenant's removal and restore (R330 to R333): an active tenant starts to be removed under a new epoch; with its work ended its key,
its policy rules and what its engines hold of it go; then it is removed and the command answered; the sweep frees its sequences; a restore makes it active again with
a key in its slot, its policy rules written again and an empty direct region. -/
def Obligations.TenantCommandsComplete : Prop :=
  (∀ (s : State) (conn tenant : Nat) (c : Conn) (x : TenantSt),
    s.serves conn c [2] false = true → s.tenant? tenant = some x →
    (x.life = .active → s.workOf tenant = [] →
      Leaves (.tenantRemove conn tenant) s fun t => t.tenant? tenant = some { x with
        life := .removing, epoch := (x.epoch + 1) % 65536, removeTick := s.now, swept := false, drained := false, answerTo := some conn }) ∧
    ((x.life = .removing ∨ x.life = .removed) →
      Leaves (.tenantRemove conn tenant) s fun t => t.says conn msOk [] ∧ t.tenants = s.tenants) ∧
    (x.life = .removed → x.swept = true → s.dbg.stands = false → s.island.drbgOn = true →
      Leaves (.tenantRestore conn tenant) s fun t =>
        t.tenant? tenant = some { x with life := .active, activeSince := s.now, removeTick := 0 } ∧
        t.slotFilled (ownerSlot 1 x.tenant) = true ∧ t.says conn msOk [] ∧
        (∀ p ∈ t.array.policy, p.rule.tenant = x.tenant → p.present = true ∧ p.lost = false) ∧
        (s.params.directBytes ≠ 0 → s.params.directTenant = x.tenant → t.direct = [] ∧ t.directOpen = [] ∧ t.directBad = []) ∧
        ∀ f ∈ t.fns, f.tenant = x.tenant → f.code ≠ .revoked)) ∧
  ∀ (s : State) (tenant : Nat) (x : TenantSt),
    s.inService = true → s.tenant? tenant = some x →
    (x.life = .removing → x.drained = false → s.workOf tenant = [] →
      Leaves (.tenantRemovalDrained tenant) s fun t =>
        t.tenant? tenant = some { x with drained := true } ∧ t.slotFilled (ownerSlot 1 tenant) = false ∧
        (∀ p ∈ t.array.policy, p.rule.tenant = tenant → p.present = false) ∧ ∀ e ∈ t.engines, t.holdsTenant tenant e = false) ∧
    (∀ n, x.life = .removing → x.drained = true → x.answerTo = some n → (s.conn? n).isSome = true → s.dbg.opening = [] →
      Leaves (.tenantRemoved tenant) s fun t =>
        t.tenant? tenant = some { x with life := .removed, answerTo := none } ∧ t.says n msOk []) ∧
    (x.life = .removed → x.swept = false →
      (Leaves (.reclaimSweepEnd tenant) s fun t => ∀ q ∈ t.seqs, q.tenant ≠ tenant) ∧
      ((∀ q ∈ s.seqs, q.tenant ≠ tenant) →
        Leaves (.reclaimSweepEnd tenant) s fun t => t.tenant? tenant = some { x with swept := true }))

/-- The debug unlock, the whole-device brine and the model keys (R310, R324, R329, R334 to R336): a nonce is issued, and lapses after 60 s;
a token that fails a check is refused with the first check's number and consumes the nonce; one that passes stands until the next full
reset, and with no tenant left active reaches its level; a brine leaves every engine clean; a key that passes its check is held, and a
withdrawal drops it. -/
def Obligations.DebugAndKeyCommandsComplete : Prop :=
  (∀ (s : State) (conn : Nat) (c : Conn),
    s.serves conn c [2] false = true →
    (s.island.drbgOn = true → Leaves (.debugNonce conn) s fun t =>
      t.dbg.nonce = some (Config.drbg s.free, s.now) ∧ t.says conn msOk [(Config.drbg s.free).toNat]) ∧
    (∀ k, s.tokenFails k ≠ 0 → Leaves (.debugUnlock conn k) s fun t =>
      t.dbg = { s.dbg with nonce := none } ∧ t.says conn msCheckFailed [s.tokenFails k]) ∧
    (∀ k, s.tokenFails k = 0 → Leaves (.debugUnlock conn k) s fun t => t.dbg.stands = true ∧ t.dbg.nonce = none) ∧
    (∀ k, s.tokenFails k = 0 → (∀ x ∈ s.tenants, x.life ≠ .active ∧ x.life ≠ .removing) → s.dbg.opening = [] →
      Leaves (.debugUnlock conn k) s fun t =>
        t.dbg = { st := max s.dbg.st k.scope, unlocks := s.dbg.unlocks + 1, nonce := none, stands := true, opening := [] }) ∧
    (Leaves (.deviceBrine conn) s fun t => ∀ e ∈ t.engines, e.dirty = [] ∧ e.brined = s.now) ∧
    (s.reqs = [] → s.passes = [] → s.recs = [] →
      Leaves (.deviceBrine conn) s fun t => t.staging = [] ∧ t.curds = [] ∧ t.says conn msOk [])) ∧
  (∀ (s : State) (v : BitVec 256) (issued : Nat),
    s.dbg.nonce = some (v, issued) → issued + 28200000000 ≤ s.now →
    Leaves .nonceLapse s fun t => t = { s with dbg := { s.dbg with nonce := none } }) ∧
  (∀ (s : State), s.islandOn = true →
    (Leaves .drbgHealthFailure s fun t => t.island = { s.island with drbgOn := false } ∧ t.free = s.free) ∧
    Leaves .drbgRetestPass s fun t => t = { s with island := { s.island with drbgOn := true } }) ∧
  ∀ (s : State) (conn : Nat) (fp : BitVec 64) (m : ModelRec),
    s.inService = true → (s.conn? conn).isSome = true → s.modelOf fp = some m →
    (∀ key check, s.keyAccepted conn m key check = true →
      Leaves (.modelKeyDeliver conn fp key check) s fun t => t.tells (.mgmt conn) spdmVendorResponse [] ∧
        ∃ k ∈ t.island.keys, k.n = modelKeySlot m.index ∧ k.key = key) ∧
    (s.brokerSession conn = true →
      Leaves (.modelKeyWithdraw conn fp) s fun t => t.tells (.mgmt conn) spdmVendorResponse [] ∧ t.slotFilled (modelKeySlot m.index) = false)

/-- SPDM on a transport that answers (R309, R312, R315 to R318, R321, R322, R325): the version is agreed and what the transport had before
goes; capabilities, algorithms, digests, certificates, challenges and measurements are answered; a key exchange takes a slot of the pool, or an
Asvis link's own, and FINISH establishes the session, which a heartbeat and a key update use and END_SESSION ends; large messages go in chunks, and what
the last one completes runs; any other request is refused, and so is every request after a version that both do not speak (R3). -/
def Obligations.SpdmCommandsComplete : Prop :=
  (∀ (s : State) (tr : Transport) (versions : Nat),
    s.spdmOn tr = true →
    Leaves (.getVersion tr versions) s fun t => t.tells tr spdmVersion [0x12, 0x13] ∧
      ∃ x, t.session? tr = some x ∧ x.st = .negotiated ∧ x.slot = none ∧
        x.version = if bit versions 1 then 0x13 else if bit versions 0 then 0x12 else 0) ∧
  (∀ (s : State) (tr : Transport) (code : Nat),
    s.spdmOn tr = true → Leaves (.spdmUnsupportedRequest tr code) s fun t => t.tells tr spdmErrorCode [errUnsupportedRequest, code]) ∧
  (∀ (s : State) (tr : Transport) (x : Session),
    s.spdmOn tr = true → s.session? tr = some x → x.version = 0 →
    Leaves (.getCapabilities tr) s fun t => t.tells tr spdmErrorCode [errVersionMismatch]) ∧
  ∀ (s : State) (tr : Transport) (x : Session),
    s.spdmOn tr = true → s.session? tr = some x → x.version ≠ 0 →
    (Leaves (.getCapabilities tr) s fun t => t.tells tr spdmCapabilities [x.version]) ∧
    (Leaves (.negotiateAlgorithms tr true) s fun t => t.tells tr spdmAlgorithms [3072, 256, 3072, 256]) ∧
    (Leaves (.getDigests tr) s fun t => t.tells tr spdmDigests (if s.island.slot1 then
      [0, (digest256 (s.certChain 0)).toNat, 1, (digest256 (s.certChain 1)).toNat] else [0, (digest256 (s.certChain 0)).toNat])) ∧
    (∀ slot, s.certSlot slot = true →
      (Leaves (.getCertificate tr slot) s fun t =>
        t.tells tr spdmCertificate (slot :: (s.certChain slot).map fun b => b.toNat) ∧
          t.session? tr = some { x with large := s.certChain slot }) ∧
      ∀ nonce, Leaves (.challenge tr slot nonce) s fun t =>
        t.tells tr spdmChallengeAuth [slot, (Config.sign [spdmChallengeAuth, slot, nonce.toNat]).toNat]) ∧
    (∀ index nonce, 1 ≤ index → index ≤ 8 → Leaves (.getMeasurements tr index nonce) s fun t =>
      t.tells tr spdmMeasurements
        [index, blockType index, s.block index,
         (Config.sign [spdmMeasurements, nonce.toNat, index, blockType index, s.block index]).toNat]) ∧
    (∀ nonce, Leaves (.getMeasurements tr 0 nonce) s fun t =>
      t.tells tr spdmMeasurements [8, (Config.sign [spdmMeasurements, nonce.toNat, 8]).toNat]) ∧
    (∀ n, s.exchangeOpen tr = true → s.island.drbgOn = true → (s.endSession tr .negotiated).sessionSlot tr = some n →
      Leaves (.keyExchange tr true) s fun t => t.tells tr spdmKeyExchangeRsp [n] ∧ t.slotFilled n = true ∧
        ∃ y, t.session? tr = some y ∧ y.st = .exchanged ∧ y.slot = some n ∧ y.secret = s.ids) ∧
    (∀ root, x.st = .exchanged → Leaves (.finish tr true root) s fun t => t.tells tr spdmFinishRsp [] ∧
      t.session? tr = some { x with st := .established, root := root } ∧
      ∀ g, tr = .ucie g → t.slotFilled (groupKeySlot g) = true ∧ (g, 0) ∈ t.island.counters) ∧
    (x.st = .established →
      (Leaves (.heartbeat tr) s fun t => t.tells tr spdmHeartbeatAck []) ∧
      (Leaves (.keyUpdate tr) s fun t => t.tells tr spdmKeyUpdateAck [] ∧ t.session? tr = some { x with updates := x.updates + 1 }) ∧
      Leaves (.endSession tr) s fun t => t.tells tr spdmEndSessionAck [] ∧
        t.session? tr = some { x with st := .negotiated, slot := none, root := 0 } ∧ ∀ n, x.slot = some n → t.slotFilled n = false) ∧
    (∀ data, Leaves (.chunkSend tr data .more) s fun t => t.tells tr spdmChunkSendAck [(x.chunks ++ data).length] ∧
      t.session? tr = some { x with chunks := x.chunks ++ data }) ∧
    (∀ data m t, exec (.chunkSend tr data .more) s = .next t →
      exec (.chunkSend tr data (.last m)) s = .next ((t.modSession tr fun x => { x with chunks := [] }).spdmRun tr m)) ∧
    ∀ index, Leaves (.chunkGet tr index) s fun t =>
      let part := (x.large.drop (index * Config.chunkBytes)).take Config.chunkBytes
      if part.isEmpty then t.tells tr spdmErrorCode [errInvalidRequest] else t.tells tr spdmChunkResponse (index :: part.map fun b => b.toNat)

/-! ### Resets and the boot (16) -/

/-- Full resets and the boot (R7, R356, R357, R359, R360, R367 to R372): a reset leaves the flash and what is outside the controller;
its release starts the boot; an image that passes is written down and trained, one that fails gives way to the other device's; memory
set-up enters service; a trial that does not reach service ends in a reset. -/
def Obligations.BootCommandsComplete : Prop :=
  (∀ (s : State),
    (Leaves (.fullReset .powerOn) s fun t => t.boot.phase = .inReset ∧ t.recorder = .empty ∧ t.now = 0 ∧ t.power.resetN = false ∧
      t.flashA = s.flashA ∧ t.flashB = s.flashB ∧ t.direct = [] ∧ t.reqs = [] ∧ t.seqs = []) ∧
    (s.boot.phase ≠ .aonOff → Leaves (.fullReset .resetN) s fun t => t.boot.phase = .inReset ∧ t.now = 0 ∧ t.power.resetN = false ∧
      t.flashA = s.flashA ∧ t.flashB = s.flashB ∧ t.direct = [] ∧ t.reqs = [] ∧ t.seqs = []) ∧
    (s.boot.phase = .service → s.power.priGone = false ∨ s.power.secGone = false →
      Leaves (.fullReset .command) s fun t => t.boot.phase = .identity ∧ t.now = 0 ∧ t.boot.entry = s.currentEntry ∧
        t.flashA = s.flashA ∧ t.flashB = s.flashB ∧ t.direct = [] ∧ t.reqs = [] ∧ t.seqs = [])) ∧
  (∀ (s : State) (sec : Bool),
    s.boot.phase = .inReset →
    Leaves (.resetNRelease true sec) s fun t => t.boot.phase = .identity ∧ t.now = 0 ∧ t.power.resetN = true ∧ t.power.onPrimary = true ∧
      t.boot.entry = s.currentEntry ∧ t.boot.selB = (if s.currentEntry.pending then !s.currentEntry.activeB else s.currentEntry.activeB)) ∧
  (∀ (s : State) (i j : Image),
    s.boot.phase = .identity → (s.flashA.idAreaOk = true ∨ s.flashB.idAreaOk = true) → (s.flash s.boot.selB).slot.getD i = j →
    (imageFails s.boot.entry true j = 0 →
      Leaves (.imageCheckEnd true (some i)) s fun t => t.boot.phase = .training ∧ t.image = j.taken ∧
        t.boot.bootEpoch = (s.boot.entry.bootEpoch + 1) % 2 ^ 32 ∧ t.boot.entry.generation = s.boot.entry.generation + 1 ∧
        t.boot.entry.pending = false ∧ t.slotFilled 0 = true ∧ t.recorder.booted = true) ∧
    (imageFails s.boot.entry true j ≠ 0 → s.boot.triedOther = false →
      Leaves (.imageCheckEnd true (some i)) s fun t => t.boot.phase = .identity ∧ t.boot.triedOther = true ∧ t.boot.selB = !s.boot.selB) ∧
    (imageFails s.boot.entry true j ≠ 0 → s.boot.triedOther = true →
      Leaves (.imageCheckEnd true (some i)) s fun t => t.boot.phase = .failed)) ∧
  (∀ (s : State) (failed : List Nat),
    s.boot.phase = .training → s.boot.trained = false →
    Leaves (.hbmTrainingEnd failed []) s fun t => t.boot.trained = true ∧ t.power.avsWaiting = some s.corePoint ∧
      t.dram = s.dram.map fun x => if failed.contains x.n then { x with lost := true } else x) ∧
  (∀ (s : State),
    s.boot.phase = .training → s.boot.trained = true →
    Leaves .memorySetupEnd s fun t => t.boot.phase = .service ∧ t.boot.trial = false ∧ t.fns = bootFns s.image ∧
      t.tenants = bootTenants s.image s.now ∧ t.boot.entry.svFloor = max s.boot.entry.svFloor s.image.securityVersion ∧
      t.boot.entry.ownerDigest = s.image.ownerKey) ∧
  ∀ (s : State),
    s.boot.phase = .training → s.boot.trial = true → 2820000000 ≤ s.now → s.power.priGone = false →
    Leaves .trialTimeout s fun t => t.boot.phase = .identity ∧ t.now = 0 ∧ t.direct = [] ∧ t.reqs = [] ∧ t.fns = []

/-- Partial resets (R318, R376, R377): the command counts an epoch and stands, and the end of a link cluster's answers it; a function's
reset begins its shutdown, a module group's takes the group down. -/
def Obligations.PartialResetsComplete : Prop :=
  (∀ (s : State) (conn : Nat) (c : Conn),
    s.serves conn c [1] false = true →
    let begun := fun (d i : Nat) (t : State) =>
      t.resets = { epoch := (s.resets.epoch + 1) % 2 ^ 32, active := s.resets.active ++ [(d, i, [conn])], lastDomain := d }
    (∀ n f, s.fn? n = some f → f.code = .ready → (s.resets.active.any fun x => x.1 == 4 && x.2.1 == n) = false →
      (Leaves (.resetPartialFunction conn n) s fun t => ∃ g, t.fn? n = some g ∧ g.code = .draining ∧ g.version = 0 ∧
        g.shutdown = some { attach := f.attach, tag := 0, slotSeq := 0, mode := 1, tick := s.now, record := false }) ∧
      (s.reqs = [] → Leaves (.resetPartialFunction conn n) s (begun 4 n))) ∧
    (∀ g, (s.ucie? g).isSome = true → (s.resets.active.any fun x => x.1 == 3 && x.2.1 == g) = false →
      (Leaves (.resetPartialModuleGroup conn g) s fun t => g ∉ t.faults.groupsUp) ∧
      ((∀ f ∈ s.fns, f.group ≠ g) → Leaves (.resetPartialModuleGroup conn g) s (begun 3 g))) ∧
    (∀ k, k < 24 → (s.resets.active.any fun x => x.1 == 2 && x.2.1 == k) = false → (∀ y ∈ s.txns, clusterOfPort y.port ≠ k) →
      Leaves (.resetPartialLinkCluster conn k) s fun t => begun 2 k t ∧
        ∀ p ∈ t.ports, clusterOfPort p.id = k → p.st = .held ∨ p.st = .training) ∧
    ∀ k, k < 12 → (s.resets.active.any fun x => x.1 == 1 && x.2.1 == k) = false → s.reqs = [] → s.passes = [] → s.calendar = [] →
      Leaves (.resetPartialEngineCluster conn k) s (begun 1 k)) ∧
  (∀ (s : State) (k : Nat) (waiting : List Nat),
    s.inService = true → (s.resets.active.find? fun x => x.1 == 2 && x.2.1 == k) = some (2, k, waiting) →
    Leaves (.partialResetEnd 2 k) s fun t =>
      t.resets = { s.resets with active := s.resets.active.filter fun y => !(y.1 == 2 && y.2.1 == k), lastDomain := 2 } ∧
        ∀ n ∈ waiting, (s.conn? n).isSome = true → t.says n msOk []) ∧
  ∀ (s : State) (g : Nat),
    s.inService = true → s.faults.groupsUp.contains g = true → (s.resets.active.any fun x => x.1 == 3 && x.2.1 == g) = false →
    Leaves (.moduleGroupLinkLoss g) s fun t => g ∉ t.faults.groupsUp

/-! ### The management port (17) -/

/-- Reads of the management port (R326, R380, R382, R384 to R386): the status block, a telemetry group, records of the event ring and a
function's trace are answered; a command outside the table is answered UNKNOWN. -/
def Obligations.ManagementReadsComplete : Prop :=
  ∀ (s : State) (conn : Nat) (c : Conn), conn < 8 → s.boot.phase ≠ .stopped .thermal →
    (s.serves conn c [1, 2, 3, 4] true = true →
      Leaves (.statusRead conn) s fun t => t.says conn msOk [s.statusBlock (exactRole c.role)] ∧ t.reqs = s.reqs) ∧
    (∀ group inst, s.serves conn c [1, 2, 3] false = true → group ≤ 7 →
      Leaves (.telemetryRead conn group inst) s fun t => t.says conn msOk (s.exactGroup group inst)) ∧
    (∀ group inst b, s.serves conn c [4] false = true → group ≤ 7 → s.coarseGroup c.tenant group inst = some b →
      Leaves (.telemetryRead conn group inst) s fun t => t.says conn msOk b) ∧
    (∀ first count, s.serves conn c [1, 2, 3] true = true → 1 ≤ count → count ≤ 64 → s.recorder.next ≤ 65536 →
      Leaves (.eventRead conn first count) s fun t => Output.events conn (s.recorder.next - 1)
        ((((List.range count).map fun i => first + i).filter fun n => n < s.recorder.next).filterMap s.recorder.find) ∈ t.out) ∧
    (∀ n, s.serves conn c [1, 3] false = true → (s.fn? n).isSome = true →
      Leaves (.traceRead conn n) s fun t => Output.traces conn (((s.trace.filter fun x => x.fn == n).take traceKept).map fun x =>
        [x.stamp, x.admission, x.firstByte, x.slotSeq, x.status, x.opcode]) ∈ t.out) ∧
    ∀ kind command bytes, s.conn? conn = some c → s.portOn = true → kind < 3 → bytes ≤ bodyLimit →
      Leaves (.mgmtUnknownCommand conn kind command bytes) s fun t => t.says conn msUnknown []

/-- Staged updates, resets and holds (R261, R269, R373 to R375, R383): a chunk is taken, the last one stages the image that passes; an
activation sets pending, a cancellation clears it; RESET_FULL answers and resets; a link is held and released; weights are loaded and a
volume released. -/
def Obligations.ManagementActionsComplete : Prop :=
  (∀ (s : State) (conn : Nat) (c : Conn),
    s.serves conn c [1] false = true →
    (∀ offset length i, 1 ≤ length → length ≤ 65536 → s.update.st = 1 → offset ≠ 0 → offset = s.update.next →
      offset + length < s.update.total →
      Leaves (.imageUpload conn offset length i) s fun t => t.update = { s.update with next := offset + length } ∧ t.says conn msOk []) ∧
    (∀ offset length i, 1 ≤ length → length ≤ 65536 → s.update.st = 1 → offset ≠ 0 → offset = s.update.next →
      offset + length = s.update.total → s.update.recovery = false → s.stagedFails i = 0 →
      Leaves (.imageUpload conn offset length i) s fun t => t.update.st = 2 ∧ t.update.staged = some i ∧
        (t.flash s.stageB).slot = some i ∧ t.says conn msOk []) ∧
    (s.update.st = 2 → s.flashA.writable = true → s.flashB.writable = true →
      Leaves (.imageActivate conn) s fun t => t.update = { s.update with st := 3 } ∧ t.boot.entry.pending = true ∧
        t.flashA.log.head? = some t.boot.entry ∧ t.flashB.log.head? = some t.boot.entry ∧ t.says conn msOk []) ∧
    ((s.update.st = 2 ∨ s.update.st = 3) →
      Leaves (.imageCancel conn) s fun t => t.update = { s.update with st := 0, staged := none } ∧
        (s.update.st = 3 → t.boot.entry.pending = false) ∧ t.says conn msOk []) ∧
    (∀ port p, s.port? port = some p → s.quiet port = true →
      (Leaves (.linkHold conn port) s fun t => (∃ q, t.port? port = some q ∧ q.st = .quarantined) ∧ t.says conn msOk []) ∧
      (p.st = .quarantined →
        Leaves (.linkRelease conn port) s fun t => (∃ q, t.port? port = some q ∧ q.st = .training) ∧ t.says conn msOk [])) ∧
    (∀ model m h, s.model? model = some m →
      (headerLegal m h = false → Leaves (.weightsLoad conn model h) s fun t => t.says conn msInvalid [] ∧ t.weights = s.weights) ∧
      (headerLegal m h = true →
        let u := s.touch conn
        let new : Weights := { model := model, header := h, counts := List.replicate h.chunks 0, swept := List.replicate h.chunks 0, cached := [] }
        match { u with weights := u.weights.filter fun x => x.model != model }.placeChunks m.weightsTier h.chunks new with
        | some w => Leaves (.weightsLoad conn model h) s fun t => w ∈ t.weights ∧ w.model = model ∧ w.header = h ∧
            w.locs.length = h.chunks ∧ t.says conn msOk []
        | none => Leaves (.weightsLoad conn model h) s fun t => t.says conn msInvalid [] ∧ t.weights = s.weights)) ∧
    ∀ volume, s.volumes.contains volume = true →
      Leaves (.volumeRelease conn volume) s fun t => volume ∉ t.volumes ∧ Output.nvmeFlush volume ∈ t.out ∧ t.says conn msOk []) ∧
  ∀ (s : State) (conn : Nat) (c : Conn),
    s.serves conn c [1] true = true → s.power.priGone = false →
    Leaves (.resetFull conn) s fun t => t.says conn msOk [] ∧ t.mgmt.conns = [] ∧ t.boot.phase = .identity ∧ t.now = 0

/-- Connections (R379 to R381, R387, R388): a certificate with an account opens a connection of its role, on
the port that the image names and no other (R378); an idle connection and one that
its client closes end with close_notify and their session; the board target takes its address. -/
def Obligations.ConnectionCommandsComplete : Prop :=
  (∀ (s : State) (n : Nat) (k : BitVec 256) (owner : Bool) (a : AccountRec),
    s.portOn = true → s.boot.phase ≠ .failed → s.boot.phase ≠ .failedNoId →
    ((List.range 8).find? fun n => (s.conn? n).isNone) = some n → (s.image.accounts.find? fun a => a.key == k) = some a →
    Leaves (.mgmtConnection { port := s.params.tcpPort, tlsOk := true } (some k) owner) s fun t =>
      t.mgmt.conns = s.mgmt.conns ++ [{ n := n, role := a.role, tenant := a.tenant, last := s.now, owner := owner }]) ∧
  (∀ (s : State) (tls : Handshake) (k : Option (BitVec 256)) (owner : Bool), tls.port ≠ s.params.tcpPort →
    Leaves (.mgmtConnection tls k owner) s fun t => t = s) ∧
  (∀ (s : State) (conn : Nat) (c : Conn),
    s.conn? conn = some c → s.portOn = true →
    let P := fun (t : State) => (∀ x ∈ t.mgmt.conns, x.n ≠ conn) ∧ (∀ x ∈ t.island.sessions, x.transport ≠ .mgmt conn) ∧
      Output.closed conn ∈ t.out
    Leaves (.mgmtConnectionClose conn) s P ∧
    (c.last + s.params.mgmtIdleS * 470000000 ≤ s.now → Leaves (.mgmtIdleTimeout conn) s P)) ∧
  ∀ (s : State) (address : Nat), s.portOn = true →
    (Leaves (.entdaa address) s fun t => t = { s with mgmt := { s.mgmt with i3cAddr := some address } }) ∧
    (s.params.i3cStatic ≠ 0 →
      Leaves (.setdasa s.params.i3cStatic address) s fun t => t = { s with mgmt := { s.mgmt with i3cAddr := some address } })

/-! ### Scheduling, power, clocks and temperature (11, 18) -/

/-- Time and scheduling (R179, R237 to R242, R246): the time page shows whole microseconds; a wheel tick brings an egress point's queues up
to now; a gate boundary opens the entry that device time gives; a sample counts depth and delay. -/
def Obligations.SchedulingCommandsComplete : Prop :=
  ∀ (s : State), s.inService = true →
    (Leaves .timePageUpdate s fun t => t.timePage = s.now / 470 * 470 ∧ t.now = s.now) ∧
    (∀ e, (s.egress.find? fun x => x.n == e.n) = some e → s.now < e.busy →
      Leaves (.thymeWheelTick e.n) s fun t => (t.egress.find? fun x => x.n == e.n) = some { e with served := s.now } ∧
        t.queues = s.queues.map fun q => if q.cfg.egress = e.n then q.tick e s.now else q) ∧
    (∀ e q, (s.egress.find? fun x => x.n == e.n) = some e → e.busy ≤ s.now → e.mode = 0 →
      s.pickWeighted e ((s.queues.map fun q => if q.cfg.egress = e.n then q.tick e s.now else q).filter fun q =>
        s.canSend e q) = some q →
      Leaves (.thymeWheelTick e.n) s fun t => (∃ x, (t.egress.find? fun x => x.n == e.n) = some x ∧
        x.busy = s.now + s.sendTicks e.n q.head ∧ x.pointer = q.order + 1)) ∧
    (∀ n g p, (s.image.gates.find? fun g => g.egress == n) = some g → gatePlace g s.now = some p →
      Leaves (.gateEntryBoundary n) s fun t => t.egress = s.egress.map fun x =>
        if x.n = n then { x with gate := (entryAt g.gates 0 0 p).1 } else x) ∧
    (s.now % 65536 = 0 → Leaves .queueSample s fun t => t = { s with queues := s.queues.map fun q => q.sample s.now })

/-- Power and clocks (R391, R392, R396, R399, R400): a rail fault stops the controller with its pin; the loss of VDD_AON leaves only the
flash and what is outside; an acknowledged AVS command moves the set point; a lost reference is held over, switched and, with none left
for 1 ms, stops the controller; a cluster without its reference is quarantined. -/
def Obligations.PowerCommandsComplete : Prop :=
  (∀ (s : State) (rail : Nat),
    s.running = true → rail ≠ 6 →
    Leaves (.railFault rail) s fun t => t.boot.phase = .stopped .rail ∧ t.power.pwrFault = true ∧ t.direct = s.direct) ∧
  (∀ (s : State), Leaves .vddAonLow s fun t => t.boot.phase = .aonOff ∧ t.now = 0 ∧ t.flashA = s.flashA ∧ t.flashB = s.flashB ∧
    t.reqs = [] ∧ t.seqs = [] ∧ t.island.keys = []) ∧
  (∀ (s : State) (mv : Nat),
    s.power.avsWaiting = some mv → s.running = true →
    (Leaves (.avsRetry true) s fun t => t = { s with power := { s.power with vddCoreMv := mv, avsWaiting := none } }) ∧
    Leaves (.avsRetry false) s fun t => t.power = s.power ∧ Output.avs mv ∈ t.out) ∧
  (∀ (s : State) (sec : Nat),
    s.running = true → s.power.onPrimary = true → s.power.holdover = none → 38 ≤ sec → sec ≤ 42 →
    (Leaves (.clockMonitorWindow 0 sec) s fun t => t.power.priGone = true ∧ t.power.secGone = false ∧ t.power.holdover = some s.now ∧
      t.power.clkAlarm = true) ∧
    Leaves (.clockMonitorWindow 40 sec) s fun t => t.power.priGone = false ∧ t.power.secGone = false ∧ t.power.holdover = none) ∧
  (∀ (s : State) (began : Nat),
    s.power.holdover = some began → s.running = true →
    (s.power.secGone = false →
      Leaves .refclkSwitchover s fun t => t.power.onPrimary = false ∧ t.power.holdover = none ∧
        t.sparesUsed 12 0 = s.sparesUsed 12 0 + if s.power.onPrimary then 1 else 0) ∧
    (s.power.priGone = true → s.power.secGone = true → began + 470000 ≤ s.now →
      Leaves .holdoverExpiry s fun t => t.boot.phase = .stopped .clock ∧ t.power.clkAlarm = true)) ∧
  ∀ (s : State) (c : Nat),
    s.inService = true → (∀ y ∈ s.txns, clusterOfPort y.port ≠ c) →
    Leaves (.linkRefclkMissing c) s fun t => ∀ p ∈ t.ports, clusterOfPort p.id = c → p.st = .held ∨ p.st = .quarantined

/-- THERMAL_SAMPLE (R401 to R403), while the controller trains or is in service: a pair of sensors that both read 110 °C or more trips the
controller; otherwise readings above the stage enter the stage they call for, with the alert and the in-band interrupt; a stage whose leave
condition has held for 10 ms is left for the one below, one whose condition begins to hold waits, and any other sample leaves the stage and
ends the wait. -/
def Obligations.ThermalSampleCompletes : Prop :=
  ∀ (s : State) (pairs : List PairReading) (temps : List Nat), (s.boot.phase = .training ∨ s.boot.phase = .service) →
    ((trippedPair pairs).isSome = true →
      Leaves (.thermalSample pairs temps) s fun t => t.boot.phase = .stopped .thermal ∧ t.power.thermTrip = true) ∧
    (trippedPair pairs = none →
      let die := dieReading pairs
      let stack := stackReading temps
      (s.power.stage < stageEntered die stack →
        Leaves (.thermalSample pairs temps) s fun t => t.power.stage = stageEntered die stack ∧ t.power.leaveSince = none ∧
          t.power.thermAlert = true ∧ Output.inBand ∈ t.out) ∧
      (stageEntered die stack ≤ s.power.stage → stageLeaves s.power.stage die stack = true →
        (s.power.leaveSince.getD s.now + 4700000 ≤ s.now →
          Leaves (.thermalSample pairs temps) s fun t => t.power.stage = s.power.stage - 1 ∧ t.power.leaveSince = none ∧
            t.power.thermAlert = decide (1 < s.power.stage) ∧ Output.inBand ∈ t.out) ∧
        (s.now < s.power.leaveSince.getD s.now + 4700000 →
          Leaves (.thermalSample pairs temps) s fun t => t.power.stage = s.power.stage ∧
            t.power.leaveSince = some (s.power.leaveSince.getD s.now))) ∧
      (stageEntered die stack ≤ s.power.stage → stageLeaves s.power.stage die stack = false →
        Leaves (.thermalSample pairs temps) s fun t => t.power.stage = s.power.stage ∧ t.power.leaveSince = none))

/-! ### Frames of the commands that touch little -/

/-- Frames (R90, R105, R177 to R179, R240 to R246, R293, R344, R348, R351, R392, R399): what the commands of the schedulers, of power and
clocks, and of spares may change; everything else stands. -/
def Obligations.UpkeepFrames : Prop :=
  ChangesOnly .timePageUpdate (fun s t => { s with timePage := t.timePage, coarse := t.coarse }) ∧
  (∀ n, ChangesOnly (.thymeWheelTick n) fun s t => { s with egress := t.egress, queues := t.queues }) ∧
  (∀ n, ChangesOnly (.gateEntryBoundary n) fun s t => { s with egress := t.egress }) ∧
  ChangesOnly .queueSample (fun s t => { s with queues := t.queues }) ∧
  (∀ n c, ChangesOnly (.refresh n c) fun s t => { s with dram := t.dram }) ∧
  (∀ n, ChangesOnly (.refreshManagementRequest n) fun s t => { s with dram := t.dram }) ∧
  (∀ n, ChangesOnly (.railFault n) fun s t => { s with boot := t.boot, power := t.power, recorder := t.recorder }) ∧
  ChangesOnly .holdoverExpiry (fun s t => { s with boot := t.boot, power := t.power, recorder := t.recorder }) ∧
  (∀ b, ChangesOnly (.avsRetry b) fun s t => { s with power := t.power, recorder := t.recorder, out := t.out }) ∧
  (∀ a b, ChangesOnly (.clockMonitorWindow a b) fun s t => { s with now := t.now, boot := t.boot, power := t.power, recorder := t.recorder }) ∧
  ChangesOnly .refclkSwitchover (fun s t => { s with power := t.power, faults := t.faults, recorder := t.recorder, out := t.out }) ∧
  (∀ n, ChangesOnly (.controlCheckpoint n) fun s t => { s with faults := t.faults }) ∧
  (∀ n, ChangesOnly (.controlPairTakeover n) fun s t => { s with faults := t.faults }) ∧
  (∀ g a b, ChangesOnly (.ucieTrainingEnd g a b) fun s t => { s with faults := t.faults, recorder := t.recorder, out := t.out }) ∧
  (∀ g m, ChangesOnly (.ucieLaneRepair g m) fun s t => { s with faults := t.faults, recorder := t.recorder, out := t.out }) ∧
  (∀ b, ChangesOnly (.shelfBankRemapped b) fun s t => { s with faults := t.faults, recorder := t.recorder }) ∧
  (∀ b, ChangesOnly (.keyBankCopyEnd b) fun s t => { s with island := t.island }) ∧
  (∀ b, ChangesOnly (.keyBankReplaced b) fun s t =>
    { s with island := t.island, faults := t.faults, recorder := t.recorder, out := t.out }) ∧
  ChangesOnly .drbgRetestPass (fun s t => { s with island := t.island }) ∧
  ChangesOnly .drbgHealthFailure (fun s t => { s with island := t.island, recorder := t.recorder }) ∧
  ChangesOnly .eventRecordWrite (fun s t => { s with recorder := t.recorder }) ∧
  ChangesOnly .nonceLapse (fun s t => { s with dbg := t.dbg })

/-- Frames (R315, R316, R325, R382 to R388): what reads and connections of the management port and requests of SPDM may change. -/
def Obligations.ManagementFrames : Prop :=
  let reads := fun (s t : State) => { s with mgmt := t.mgmt, out := t.out }
  let talks := fun (s t : State) => { s with island := t.island, mgmt := t.mgmt, out := t.out }
  let runs := fun (s t : State) => { s with island := t.island, mgmt := t.mgmt, out := t.out, ids := t.ids, free := t.free, recorder := t.recorder }
  (∀ n, ChangesOnly (.statusRead n) reads) ∧ (∀ n a b, ChangesOnly (.telemetryRead n a b) reads) ∧
  (∀ n a b, ChangesOnly (.eventRead n a b) reads) ∧ (∀ n a, ChangesOnly (.traceRead n a) reads) ∧
  (∀ tr, ChangesOnly (.getCapabilities tr) reads) ∧ (∀ tr b, ChangesOnly (.negotiateAlgorithms tr b) reads) ∧
  (∀ tr, ChangesOnly (.getDigests tr) talks) ∧ (∀ tr a b, ChangesOnly (.challenge tr a b) reads) ∧
  (∀ tr a b, ChangesOnly (.getMeasurements tr a b) talks) ∧ (∀ tr, ChangesOnly (.heartbeat tr) reads) ∧
  (∀ tr a, ChangesOnly (.chunkGet tr a) reads) ∧ (∀ tr a, ChangesOnly (.spdmUnsupportedRequest tr a) fun s t => { s with out := t.out }) ∧
  (∀ tr a, ChangesOnly (.getVersion tr a) fun s t => { s with island := t.island, out := t.out }) ∧
  (∀ tr a, ChangesOnly (.getCertificate tr a) talks) ∧ (∀ tr a b, ChangesOnly (.finish tr a b) talks) ∧
  (∀ tr, ChangesOnly (.keyUpdate tr) talks) ∧ (∀ tr, ChangesOnly (.endSession tr) talks) ∧ (∀ tr a b, ChangesOnly (.chunkSend tr a b) runs) ∧
  (∀ tr a, ChangesOnly (.keyExchange tr a) fun s t =>
    { s with island := t.island, mgmt := t.mgmt, out := t.out, ids := t.ids, free := t.free, recorder := t.recorder }) ∧
  (∀ n a b c, ChangesOnly (.modelKeyDeliver n a b c) talks) ∧ (∀ n a, ChangesOnly (.modelKeyWithdraw n a) talks) ∧
  (∀ n, ChangesOnly (.mgmtIdleTimeout n) talks) ∧ (∀ n, ChangesOnly (.mgmtConnectionClose n) talks) ∧
  (∀ n a b c, ChangesOnly (.mgmtUnknownCommand n a b c) talks) ∧
  (∀ a b c, ChangesOnly (.mgmtConnection a b c) fun s t => { s with mgmt := t.mgmt, recorder := t.recorder }) ∧
  (∀ a, ChangesOnly (.entdaa a) fun s t => { s with mgmt := t.mgmt }) ∧ (∀ a b, ChangesOnly (.setdasa a b) fun s t => { s with mgmt := t.mgmt }) ∧
  (∀ n a b, ChangesOnly (.weightsLoad n a b) fun s t =>
    { s with weights := t.weights, array := t.array, recorder := t.recorder, mgmt := t.mgmt, out := t.out, ids := t.ids, ports := t.ports, queues := t.queues, txns := t.txns }) ∧
  (∀ n a, ChangesOnly (.volumeRelease n a) fun s t => { s with volumes := t.volumes, mgmt := t.mgmt, out := t.out }) ∧
  ∀ n, ChangesOnly (.debugNonce n) fun s t => { s with dbg := t.dbg, island := t.island, mgmt := t.mgmt, out := t.out, free := t.free }

/-- Frames (R41, R105, R146 to R149, R201, R214, R228, R255, R263, R267, R272 to R281): what the commands of a tray, of the direct region,
of curds and of the sweeps may change. -/
def Obligations.TrayAndWalkFrames : Prop :=
  let grants := fun (s t : State) => { s with tray := t.tray, array := t.array, island := t.island, free := t.free, mgmt := t.mgmt, out := t.out }
  let recalls := fun (s t : State) =>
    { s with tray := t.tray, array := t.array, island := t.island, free := t.free, mgmt := t.mgmt, out := t.out, ids := t.ids, ports := t.ports,
             queues := t.queues }
  let gathers := fun (s t : State) =>
    { s with calendar := t.calendar, curds := t.curds, engines := t.engines, ids := t.ids, passes := t.passes, reqs := t.reqs,
             telemetry := t.telemetry }
  (∀ n, ChangesOnly (.destage n) fun s t =>
    { s with tray := t.tray, ids := t.ids, queues := t.queues, txns := t.txns, out := t.out }) ∧
  ChangesOnly .metadataPairRebuildEnd (fun s t => { s with tray := t.tray }) ∧
  (∀ a b c, ChangesOnly (.traySsdFailure a b c) fun s t =>
    { s with tray := t.tray, faults := t.faults, recorder := t.recorder, out := t.out }) ∧
  (∀ a b c d e, ChangesOnly (.regionOpen a b c d e) grants) ∧ (∀ a b c d, ChangesOnly (.regionGrant a b c d) grants) ∧
  (∀ a b c d, ChangesOnly (.regionRelease a b c d) recalls) ∧ (∀ a b c d, ChangesOnly (.backInvalidateResponse a b c d) grants) ∧
  (∀ a b c d e, ChangesOnly (.regionPublish a b c d e) fun s t =>
    { recalls s t with faults := t.faults, recorder := t.recorder }) ∧ (∀ a b c, ChangesOnly (.regionWithdraw a b c) recalls) ∧
  (∀ a b c, ChangesOnly (.recallTimeout a b c) fun s t =>
    { s with tray := t.tray, array := t.array, island := t.island, free := t.free, out := t.out, recorder := t.recorder }) ∧
  (∀ a b c d e, ChangesOnly (.poolCxlMemAccess a b c d e) fun s t =>
    { s with tray := t.tray, array := t.array, ids := t.ids, ports := t.ports, queues := t.queues, txns := t.txns, recorder := t.recorder,
             out := t.out }) ∧
  (∀ a b c, ChangesOnly (.cxlMemRead a b c) fun s t =>
    { s with directBad := t.directBad, viral := t.viral, recorder := t.recorder, out := t.out }) ∧
  (∀ a b, ChangesOnly (.cxlMemWrite a b) fun s t =>
    { s with direct := t.direct, directOpen := t.directOpen, directBad := t.directBad, recorder := t.recorder, out := t.out }) ∧
  (∀ a b c d, ChangesOnly (.addCapacity a b c d) fun s t =>
    { s with extents := t.extents, grainVers := t.grainVers, tray := t.tray, island := t.island, free := t.free, recorder := t.recorder,
             out := t.out }) ∧
  (∀ n, ChangesOnly (.drainEnd n) fun s t => { s with extents := t.extents, ports := t.ports, queues := t.queues, out := t.out }) ∧
  (∀ l, ChangesOnly (.keepaliveInterval l) fun s t => { s with ports := t.ports, queues := t.queues, out := t.out }) ∧
  (∀ n, ChangesOnly (.rebuildMetadataEnd n) fun s t =>
    { s with groups := t.groups, dir := t.dir, recs := t.recs, seqs := t.seqs, tables := t.tables, array := t.array, extents := t.extents,
             recorder := t.recorder }) ∧
  (∀ n, ChangesOnly (.holeRemoval n) fun s t => { s with array := t.array }) ∧
  (∀ n s t, exec (.stagingTtlEnd n) s = .next t → (∀ e ∈ s.dir, e.refetch = []) → (∀ x ∈ s.reqs, x.settles = false) →
    t = { s with staging := t.staging }) ∧
  (∀ a b c, ChangesOnly (.ripeningSweep a b c) fun s t => { s with recs := t.recs, weights := t.weights, tray := t.tray }) ∧
  (∀ n, ChangesOnly (.shutdownEnd n) fun s t => { s with fns := t.fns, out := t.out }) ∧
  (∀ p e, ChangesOnly (.passResume p e []) fun s t => { s with passes := t.passes, engines := t.engines }) ∧
  (∀ r i, ChangesOnly (.curdOffer r i) gathers) ∧ (∀ n, ChangesOnly (.curdWindowEnd n) fun s t => { s with curds := t.curds }) ∧
  (∀ n, ChangesOnly (.curdLatestClose n) fun s t => { s with curds := t.curds }) ∧
  ∀ n, ChangesOnly (.tenantRemovalDrained n) fun s t =>
    { s with tenants := t.tenants, array := t.array, engines := t.engines, island := t.island, staging := t.staging, txns := t.txns }
end

