-- ==== Sys2Proof/Laws/State.lean ====
section
/-! SUPPORT. One lemma per field per update of State, each true by unfolding the update: a proof rewrites with these and never opens
a record update. Then the laws of byte memory (a read after a write, and that every write keeps the canonical form), of free lists, and
of the event queue. -/

namespace Sys2Proof.Machine

/-! ### modFn -/

@[simp] theorem State.modFn_pending (s : State) (n : Nat) (g : Fn → Fn) : (s.modFn n g).pending = s.pending := rfl
@[simp] theorem State.modFn_now (s : State) (n : Nat) (g : Fn → Fn) : (s.modFn n g).now = s.now := rfl
@[simp] theorem State.modFn_timePage (s : State) (n : Nat) (g : Fn → Fn) : (s.modFn n g).timePage = s.timePage := rfl
@[simp] theorem State.modFn_ids (s : State) (n : Nat) (g : Fn → Fn) : (s.modFn n g).ids = s.ids := rfl
@[simp] theorem State.modFn_free (s : State) (n : Nat) (g : Fn → Fn) : (s.modFn n g).free = s.free := rfl
@[simp] theorem State.modFn_boot (s : State) (n : Nat) (g : Fn → Fn) : (s.modFn n g).boot = s.boot := rfl
@[simp] theorem State.modFn_flashA (s : State) (n : Nat) (g : Fn → Fn) : (s.modFn n g).flashA = s.flashA := rfl
@[simp] theorem State.modFn_flashB (s : State) (n : Nat) (g : Fn → Fn) : (s.modFn n g).flashB = s.flashB := rfl
@[simp] theorem State.modFn_image (s : State) (n : Nat) (g : Fn → Fn) : (s.modFn n g).image = s.image := rfl
@[simp] theorem State.modFn_update (s : State) (n : Nat) (g : Fn → Fn) : (s.modFn n g).update = s.update := rfl
@[simp] theorem State.modFn_resets (s : State) (n : Nat) (g : Fn → Fn) : (s.modFn n g).resets = s.resets := rfl
@[simp] theorem State.modFn_fns (s : State) (n : Nat) (g : Fn → Fn) : (s.modFn n g).fns = mapIf (·.fn == n) g s.fns := rfl
@[simp] theorem State.modFn_reqs (s : State) (n : Nat) (g : Fn → Fn) : (s.modFn n g).reqs = s.reqs := rfl
@[simp] theorem State.modFn_fences (s : State) (n : Nat) (g : Fn → Fn) : (s.modFn n g).fences = s.fences := rfl
@[simp] theorem State.modFn_seqs (s : State) (n : Nat) (g : Fn → Fn) : (s.modFn n g).seqs = s.seqs := rfl
@[simp] theorem State.modFn_seqGens (s : State) (n : Nat) (g : Fn → Fn) : (s.modFn n g).seqGens = s.seqGens := rfl
@[simp] theorem State.modFn_seqFree (s : State) (n : Nat) (g : Fn → Fn) : (s.modFn n g).seqFree = s.seqFree := rfl
@[simp] theorem State.modFn_recs (s : State) (n : Nat) (g : Fn → Fn) : (s.modFn n g).recs = s.recs := rfl
@[simp] theorem State.modFn_pages (s : State) (n : Nat) (g : Fn → Fn) : (s.modFn n g).pages = s.pages := rfl
@[simp] theorem State.modFn_parity (s : State) (n : Nat) (g : Fn → Fn) : (s.modFn n g).parity = s.parity := rfl
@[simp] theorem State.modFn_grainVers (s : State) (n : Nat) (g : Fn → Fn) : (s.modFn n g).grainVers = s.grainVers := rfl
@[simp] theorem State.modFn_moves (s : State) (n : Nat) (g : Fn → Fn) : (s.modFn n g).moves = s.moves := rfl
@[simp] theorem State.modFn_staging (s : State) (n : Nat) (g : Fn → Fn) : (s.modFn n g).staging = s.staging := rfl
@[simp] theorem State.modFn_demoting (s : State) (n : Nat) (g : Fn → Fn) : (s.modFn n g).demoting = s.demoting := rfl
@[simp] theorem State.modFn_weights (s : State) (n : Nat) (g : Fn → Fn) : (s.modFn n g).weights = s.weights := rfl
@[simp] theorem State.modFn_direct (s : State) (n : Nat) (g : Fn → Fn) : (s.modFn n g).direct = s.direct := rfl
@[simp] theorem State.modFn_directOpen (s : State) (n : Nat) (g : Fn → Fn) : (s.modFn n g).directOpen = s.directOpen := rfl
@[simp] theorem State.modFn_directBad (s : State) (n : Nat) (g : Fn → Fn) : (s.modFn n g).directBad = s.directBad := rfl
@[simp] theorem State.modFn_viral (s : State) (n : Nat) (g : Fn → Fn) : (s.modFn n g).viral = s.viral := rfl
@[simp] theorem State.modFn_dir (s : State) (n : Nat) (g : Fn → Fn) : (s.modFn n g).dir = s.dir := rfl
@[simp] theorem State.modFn_dirGens (s : State) (n : Nat) (g : Fn → Fn) : (s.modFn n g).dirGens = s.dirGens := rfl
@[simp] theorem State.modFn_dirFree (s : State) (n : Nat) (g : Fn → Fn) : (s.modFn n g).dirFree = s.dirFree := rfl
@[simp] theorem State.modFn_array (s : State) (n : Nat) (g : Fn → Fn) : (s.modFn n g).array = s.array := rfl
@[simp] theorem State.modFn_tables (s : State) (n : Nat) (g : Fn → Fn) : (s.modFn n g).tables = s.tables := rfl
@[simp] theorem State.modFn_streams (s : State) (n : Nat) (g : Fn → Fn) : (s.modFn n g).streams = s.streams := rfl
@[simp] theorem State.modFn_rechecks (s : State) (n : Nat) (g : Fn → Fn) : (s.modFn n g).rechecks = s.rechecks := rfl
@[simp] theorem State.modFn_tabFree (s : State) (n : Nat) (g : Fn → Fn) : (s.modFn n g).tabFree = s.tabFree := rfl
@[simp] theorem State.modFn_impFree (s : State) (n : Nat) (g : Fn → Fn) : (s.modFn n g).impFree = s.impFree := rfl
@[simp] theorem State.modFn_engines (s : State) (n : Nat) (g : Fn → Fn) : (s.modFn n g).engines = s.engines := rfl
@[simp] theorem State.modFn_passes (s : State) (n : Nat) (g : Fn → Fn) : (s.modFn n g).passes = s.passes := rfl
@[simp] theorem State.modFn_curds (s : State) (n : Nat) (g : Fn → Fn) : (s.modFn n g).curds = s.curds := rfl
@[simp] theorem State.modFn_calendar (s : State) (n : Nat) (g : Fn → Fn) : (s.modFn n g).calendar = s.calendar := rfl
@[simp] theorem State.modFn_monitor (s : State) (n : Nat) (g : Fn → Fn) : (s.modFn n g).monitor = s.monitor := rfl
@[simp] theorem State.modFn_queues (s : State) (n : Nat) (g : Fn → Fn) : (s.modFn n g).queues = s.queues := rfl
@[simp] theorem State.modFn_egress (s : State) (n : Nat) (g : Fn → Fn) : (s.modFn n g).egress = s.egress := rfl
@[simp] theorem State.modFn_ports (s : State) (n : Nat) (g : Fn → Fn) : (s.modFn n g).ports = s.ports := rfl
@[simp] theorem State.modFn_clusters (s : State) (n : Nat) (g : Fn → Fn) : (s.modFn n g).clusters = s.clusters := rfl
@[simp] theorem State.modFn_txns (s : State) (n : Nat) (g : Fn → Fn) : (s.modFn n g).txns = s.txns := rfl
@[simp] theorem State.modFn_extents (s : State) (n : Nat) (g : Fn → Fn) : (s.modFn n g).extents = s.extents := rfl
@[simp] theorem State.modFn_volumes (s : State) (n : Nat) (g : Fn → Fn) : (s.modFn n g).volumes = s.volumes := rfl
@[simp] theorem State.modFn_peerEpochs (s : State) (n : Nat) (g : Fn → Fn) : (s.modFn n g).peerEpochs = s.peerEpochs := rfl
@[simp] theorem State.modFn_tray (s : State) (n : Nat) (g : Fn → Fn) : (s.modFn n g).tray = s.tray := rfl
@[simp] theorem State.modFn_dram (s : State) (n : Nat) (g : Fn → Fn) : (s.modFn n g).dram = s.dram := rfl
@[simp] theorem State.modFn_groups (s : State) (n : Nat) (g : Fn → Fn) : (s.modFn n g).groups = s.groups := rfl
@[simp] theorem State.modFn_island (s : State) (n : Nat) (g : Fn → Fn) : (s.modFn n g).island = s.island := rfl
@[simp] theorem State.modFn_tenants (s : State) (n : Nat) (g : Fn → Fn) : (s.modFn n g).tenants = s.tenants := rfl
@[simp] theorem State.modFn_dbg (s : State) (n : Nat) (g : Fn → Fn) : (s.modFn n g).dbg = s.dbg := rfl
@[simp] theorem State.modFn_recorder (s : State) (n : Nat) (g : Fn → Fn) : (s.modFn n g).recorder = s.recorder := rfl
@[simp] theorem State.modFn_faults (s : State) (n : Nat) (g : Fn → Fn) : (s.modFn n g).faults = s.faults := rfl
@[simp] theorem State.modFn_mgmt (s : State) (n : Nat) (g : Fn → Fn) : (s.modFn n g).mgmt = s.mgmt := rfl
@[simp] theorem State.modFn_power (s : State) (n : Nat) (g : Fn → Fn) : (s.modFn n g).power = s.power := rfl
@[simp] theorem State.modFn_telemetry (s : State) (n : Nat) (g : Fn → Fn) : (s.modFn n g).telemetry = s.telemetry := rfl
@[simp] theorem State.modFn_coarse (s : State) (n : Nat) (g : Fn → Fn) : (s.modFn n g).coarse = s.coarse := rfl
@[simp] theorem State.modFn_trace (s : State) (n : Nat) (g : Fn → Fn) : (s.modFn n g).trace = s.trace := rfl
@[simp] theorem State.modFn_out (s : State) (n : Nat) (g : Fn → Fn) : (s.modFn n g).out = s.out := rfl

/-! ### modReq -/

@[simp] theorem State.modReq_pending (s : State) (id : Nat) (g : Req → Req) : (s.modReq id g).pending = s.pending := rfl
@[simp] theorem State.modReq_now (s : State) (id : Nat) (g : Req → Req) : (s.modReq id g).now = s.now := rfl
@[simp] theorem State.modReq_timePage (s : State) (id : Nat) (g : Req → Req) : (s.modReq id g).timePage = s.timePage := rfl
@[simp] theorem State.modReq_ids (s : State) (id : Nat) (g : Req → Req) : (s.modReq id g).ids = s.ids := rfl
@[simp] theorem State.modReq_free (s : State) (id : Nat) (g : Req → Req) : (s.modReq id g).free = s.free := rfl
@[simp] theorem State.modReq_boot (s : State) (id : Nat) (g : Req → Req) : (s.modReq id g).boot = s.boot := rfl
@[simp] theorem State.modReq_flashA (s : State) (id : Nat) (g : Req → Req) : (s.modReq id g).flashA = s.flashA := rfl
@[simp] theorem State.modReq_flashB (s : State) (id : Nat) (g : Req → Req) : (s.modReq id g).flashB = s.flashB := rfl
@[simp] theorem State.modReq_image (s : State) (id : Nat) (g : Req → Req) : (s.modReq id g).image = s.image := rfl
@[simp] theorem State.modReq_update (s : State) (id : Nat) (g : Req → Req) : (s.modReq id g).update = s.update := rfl
@[simp] theorem State.modReq_resets (s : State) (id : Nat) (g : Req → Req) : (s.modReq id g).resets = s.resets := rfl
@[simp] theorem State.modReq_fns (s : State) (id : Nat) (g : Req → Req) : (s.modReq id g).fns = s.fns := rfl
@[simp] theorem State.modReq_reqs (s : State) (id : Nat) (g : Req → Req) : (s.modReq id g).reqs = mapIf (·.id == id) g s.reqs := rfl
@[simp] theorem State.modReq_fences (s : State) (id : Nat) (g : Req → Req) : (s.modReq id g).fences = s.fences := rfl
@[simp] theorem State.modReq_seqs (s : State) (id : Nat) (g : Req → Req) : (s.modReq id g).seqs = s.seqs := rfl
@[simp] theorem State.modReq_seqGens (s : State) (id : Nat) (g : Req → Req) : (s.modReq id g).seqGens = s.seqGens := rfl
@[simp] theorem State.modReq_seqFree (s : State) (id : Nat) (g : Req → Req) : (s.modReq id g).seqFree = s.seqFree := rfl
@[simp] theorem State.modReq_recs (s : State) (id : Nat) (g : Req → Req) : (s.modReq id g).recs = s.recs := rfl
@[simp] theorem State.modReq_pages (s : State) (id : Nat) (g : Req → Req) : (s.modReq id g).pages = s.pages := rfl
@[simp] theorem State.modReq_parity (s : State) (id : Nat) (g : Req → Req) : (s.modReq id g).parity = s.parity := rfl
@[simp] theorem State.modReq_grainVers (s : State) (id : Nat) (g : Req → Req) : (s.modReq id g).grainVers = s.grainVers := rfl
@[simp] theorem State.modReq_moves (s : State) (id : Nat) (g : Req → Req) : (s.modReq id g).moves = s.moves := rfl
@[simp] theorem State.modReq_staging (s : State) (id : Nat) (g : Req → Req) : (s.modReq id g).staging = s.staging := rfl
@[simp] theorem State.modReq_demoting (s : State) (id : Nat) (g : Req → Req) : (s.modReq id g).demoting = s.demoting := rfl
@[simp] theorem State.modReq_weights (s : State) (id : Nat) (g : Req → Req) : (s.modReq id g).weights = s.weights := rfl
@[simp] theorem State.modReq_direct (s : State) (id : Nat) (g : Req → Req) : (s.modReq id g).direct = s.direct := rfl
@[simp] theorem State.modReq_directOpen (s : State) (id : Nat) (g : Req → Req) : (s.modReq id g).directOpen = s.directOpen := rfl
@[simp] theorem State.modReq_directBad (s : State) (id : Nat) (g : Req → Req) : (s.modReq id g).directBad = s.directBad := rfl
@[simp] theorem State.modReq_viral (s : State) (id : Nat) (g : Req → Req) : (s.modReq id g).viral = s.viral := rfl
@[simp] theorem State.modReq_dir (s : State) (id : Nat) (g : Req → Req) : (s.modReq id g).dir = s.dir := rfl
@[simp] theorem State.modReq_dirGens (s : State) (id : Nat) (g : Req → Req) : (s.modReq id g).dirGens = s.dirGens := rfl
@[simp] theorem State.modReq_dirFree (s : State) (id : Nat) (g : Req → Req) : (s.modReq id g).dirFree = s.dirFree := rfl
@[simp] theorem State.modReq_array (s : State) (id : Nat) (g : Req → Req) : (s.modReq id g).array = s.array := rfl
@[simp] theorem State.modReq_tables (s : State) (id : Nat) (g : Req → Req) : (s.modReq id g).tables = s.tables := rfl
@[simp] theorem State.modReq_streams (s : State) (id : Nat) (g : Req → Req) : (s.modReq id g).streams = s.streams := rfl
@[simp] theorem State.modReq_rechecks (s : State) (id : Nat) (g : Req → Req) : (s.modReq id g).rechecks = s.rechecks := rfl
@[simp] theorem State.modReq_tabFree (s : State) (id : Nat) (g : Req → Req) : (s.modReq id g).tabFree = s.tabFree := rfl
@[simp] theorem State.modReq_impFree (s : State) (id : Nat) (g : Req → Req) : (s.modReq id g).impFree = s.impFree := rfl
@[simp] theorem State.modReq_engines (s : State) (id : Nat) (g : Req → Req) : (s.modReq id g).engines = s.engines := rfl
@[simp] theorem State.modReq_passes (s : State) (id : Nat) (g : Req → Req) : (s.modReq id g).passes = s.passes := rfl
@[simp] theorem State.modReq_curds (s : State) (id : Nat) (g : Req → Req) : (s.modReq id g).curds = s.curds := rfl
@[simp] theorem State.modReq_calendar (s : State) (id : Nat) (g : Req → Req) : (s.modReq id g).calendar = s.calendar := rfl
@[simp] theorem State.modReq_monitor (s : State) (id : Nat) (g : Req → Req) : (s.modReq id g).monitor = s.monitor := rfl
@[simp] theorem State.modReq_queues (s : State) (id : Nat) (g : Req → Req) : (s.modReq id g).queues = s.queues := rfl
@[simp] theorem State.modReq_egress (s : State) (id : Nat) (g : Req → Req) : (s.modReq id g).egress = s.egress := rfl
@[simp] theorem State.modReq_ports (s : State) (id : Nat) (g : Req → Req) : (s.modReq id g).ports = s.ports := rfl
@[simp] theorem State.modReq_clusters (s : State) (id : Nat) (g : Req → Req) : (s.modReq id g).clusters = s.clusters := rfl
@[simp] theorem State.modReq_txns (s : State) (id : Nat) (g : Req → Req) : (s.modReq id g).txns = s.txns := rfl
@[simp] theorem State.modReq_extents (s : State) (id : Nat) (g : Req → Req) : (s.modReq id g).extents = s.extents := rfl
@[simp] theorem State.modReq_volumes (s : State) (id : Nat) (g : Req → Req) : (s.modReq id g).volumes = s.volumes := rfl
@[simp] theorem State.modReq_peerEpochs (s : State) (id : Nat) (g : Req → Req) : (s.modReq id g).peerEpochs = s.peerEpochs := rfl
@[simp] theorem State.modReq_tray (s : State) (id : Nat) (g : Req → Req) : (s.modReq id g).tray = s.tray := rfl
@[simp] theorem State.modReq_dram (s : State) (id : Nat) (g : Req → Req) : (s.modReq id g).dram = s.dram := rfl
@[simp] theorem State.modReq_groups (s : State) (id : Nat) (g : Req → Req) : (s.modReq id g).groups = s.groups := rfl
@[simp] theorem State.modReq_island (s : State) (id : Nat) (g : Req → Req) : (s.modReq id g).island = s.island := rfl
@[simp] theorem State.modReq_tenants (s : State) (id : Nat) (g : Req → Req) : (s.modReq id g).tenants = s.tenants := rfl
@[simp] theorem State.modReq_dbg (s : State) (id : Nat) (g : Req → Req) : (s.modReq id g).dbg = s.dbg := rfl
@[simp] theorem State.modReq_recorder (s : State) (id : Nat) (g : Req → Req) : (s.modReq id g).recorder = s.recorder := rfl
@[simp] theorem State.modReq_faults (s : State) (id : Nat) (g : Req → Req) : (s.modReq id g).faults = s.faults := rfl
@[simp] theorem State.modReq_mgmt (s : State) (id : Nat) (g : Req → Req) : (s.modReq id g).mgmt = s.mgmt := rfl
@[simp] theorem State.modReq_power (s : State) (id : Nat) (g : Req → Req) : (s.modReq id g).power = s.power := rfl
@[simp] theorem State.modReq_telemetry (s : State) (id : Nat) (g : Req → Req) : (s.modReq id g).telemetry = s.telemetry := rfl
@[simp] theorem State.modReq_coarse (s : State) (id : Nat) (g : Req → Req) : (s.modReq id g).coarse = s.coarse := rfl
@[simp] theorem State.modReq_trace (s : State) (id : Nat) (g : Req → Req) : (s.modReq id g).trace = s.trace := rfl
@[simp] theorem State.modReq_out (s : State) (id : Nat) (g : Req → Req) : (s.modReq id g).out = s.out := rfl

/-! ### modSeq -/

@[simp] theorem State.modSeq_pending (s : State) (i : Nat) (g : Seq → Seq) : (s.modSeq i g).pending = s.pending := rfl
@[simp] theorem State.modSeq_now (s : State) (i : Nat) (g : Seq → Seq) : (s.modSeq i g).now = s.now := rfl
@[simp] theorem State.modSeq_timePage (s : State) (i : Nat) (g : Seq → Seq) : (s.modSeq i g).timePage = s.timePage := rfl
@[simp] theorem State.modSeq_ids (s : State) (i : Nat) (g : Seq → Seq) : (s.modSeq i g).ids = s.ids := rfl
@[simp] theorem State.modSeq_free (s : State) (i : Nat) (g : Seq → Seq) : (s.modSeq i g).free = s.free := rfl
@[simp] theorem State.modSeq_boot (s : State) (i : Nat) (g : Seq → Seq) : (s.modSeq i g).boot = s.boot := rfl
@[simp] theorem State.modSeq_flashA (s : State) (i : Nat) (g : Seq → Seq) : (s.modSeq i g).flashA = s.flashA := rfl
@[simp] theorem State.modSeq_flashB (s : State) (i : Nat) (g : Seq → Seq) : (s.modSeq i g).flashB = s.flashB := rfl
@[simp] theorem State.modSeq_image (s : State) (i : Nat) (g : Seq → Seq) : (s.modSeq i g).image = s.image := rfl
@[simp] theorem State.modSeq_update (s : State) (i : Nat) (g : Seq → Seq) : (s.modSeq i g).update = s.update := rfl
@[simp] theorem State.modSeq_resets (s : State) (i : Nat) (g : Seq → Seq) : (s.modSeq i g).resets = s.resets := rfl
@[simp] theorem State.modSeq_fns (s : State) (i : Nat) (g : Seq → Seq) : (s.modSeq i g).fns = s.fns := rfl
@[simp] theorem State.modSeq_reqs (s : State) (i : Nat) (g : Seq → Seq) : (s.modSeq i g).reqs = s.reqs := rfl
@[simp] theorem State.modSeq_fences (s : State) (i : Nat) (g : Seq → Seq) : (s.modSeq i g).fences = s.fences := rfl
@[simp] theorem State.modSeq_seqs (s : State) (i : Nat) (g : Seq → Seq) : (s.modSeq i g).seqs = mapIf (·.index == i) g s.seqs := rfl
@[simp] theorem State.modSeq_seqGens (s : State) (i : Nat) (g : Seq → Seq) : (s.modSeq i g).seqGens = s.seqGens := rfl
@[simp] theorem State.modSeq_seqFree (s : State) (i : Nat) (g : Seq → Seq) : (s.modSeq i g).seqFree = s.seqFree := rfl
@[simp] theorem State.modSeq_recs (s : State) (i : Nat) (g : Seq → Seq) : (s.modSeq i g).recs = s.recs := rfl
@[simp] theorem State.modSeq_pages (s : State) (i : Nat) (g : Seq → Seq) : (s.modSeq i g).pages = s.pages := rfl
@[simp] theorem State.modSeq_parity (s : State) (i : Nat) (g : Seq → Seq) : (s.modSeq i g).parity = s.parity := rfl
@[simp] theorem State.modSeq_grainVers (s : State) (i : Nat) (g : Seq → Seq) : (s.modSeq i g).grainVers = s.grainVers := rfl
@[simp] theorem State.modSeq_moves (s : State) (i : Nat) (g : Seq → Seq) : (s.modSeq i g).moves = s.moves := rfl
@[simp] theorem State.modSeq_staging (s : State) (i : Nat) (g : Seq → Seq) : (s.modSeq i g).staging = s.staging := rfl
@[simp] theorem State.modSeq_demoting (s : State) (i : Nat) (g : Seq → Seq) : (s.modSeq i g).demoting = s.demoting := rfl
@[simp] theorem State.modSeq_weights (s : State) (i : Nat) (g : Seq → Seq) : (s.modSeq i g).weights = s.weights := rfl
@[simp] theorem State.modSeq_direct (s : State) (i : Nat) (g : Seq → Seq) : (s.modSeq i g).direct = s.direct := rfl
@[simp] theorem State.modSeq_directOpen (s : State) (i : Nat) (g : Seq → Seq) : (s.modSeq i g).directOpen = s.directOpen := rfl
@[simp] theorem State.modSeq_directBad (s : State) (i : Nat) (g : Seq → Seq) : (s.modSeq i g).directBad = s.directBad := rfl
@[simp] theorem State.modSeq_viral (s : State) (i : Nat) (g : Seq → Seq) : (s.modSeq i g).viral = s.viral := rfl
@[simp] theorem State.modSeq_dir (s : State) (i : Nat) (g : Seq → Seq) : (s.modSeq i g).dir = s.dir := rfl
@[simp] theorem State.modSeq_dirGens (s : State) (i : Nat) (g : Seq → Seq) : (s.modSeq i g).dirGens = s.dirGens := rfl
@[simp] theorem State.modSeq_dirFree (s : State) (i : Nat) (g : Seq → Seq) : (s.modSeq i g).dirFree = s.dirFree := rfl
@[simp] theorem State.modSeq_array (s : State) (i : Nat) (g : Seq → Seq) : (s.modSeq i g).array = s.array := rfl
@[simp] theorem State.modSeq_tables (s : State) (i : Nat) (g : Seq → Seq) : (s.modSeq i g).tables = s.tables := rfl
@[simp] theorem State.modSeq_streams (s : State) (i : Nat) (g : Seq → Seq) : (s.modSeq i g).streams = s.streams := rfl
@[simp] theorem State.modSeq_rechecks (s : State) (i : Nat) (g : Seq → Seq) : (s.modSeq i g).rechecks = s.rechecks := rfl
@[simp] theorem State.modSeq_tabFree (s : State) (i : Nat) (g : Seq → Seq) : (s.modSeq i g).tabFree = s.tabFree := rfl
@[simp] theorem State.modSeq_impFree (s : State) (i : Nat) (g : Seq → Seq) : (s.modSeq i g).impFree = s.impFree := rfl
@[simp] theorem State.modSeq_engines (s : State) (i : Nat) (g : Seq → Seq) : (s.modSeq i g).engines = s.engines := rfl
@[simp] theorem State.modSeq_passes (s : State) (i : Nat) (g : Seq → Seq) : (s.modSeq i g).passes = s.passes := rfl
@[simp] theorem State.modSeq_curds (s : State) (i : Nat) (g : Seq → Seq) : (s.modSeq i g).curds = s.curds := rfl
@[simp] theorem State.modSeq_calendar (s : State) (i : Nat) (g : Seq → Seq) : (s.modSeq i g).calendar = s.calendar := rfl
@[simp] theorem State.modSeq_monitor (s : State) (i : Nat) (g : Seq → Seq) : (s.modSeq i g).monitor = s.monitor := rfl
@[simp] theorem State.modSeq_queues (s : State) (i : Nat) (g : Seq → Seq) : (s.modSeq i g).queues = s.queues := rfl
@[simp] theorem State.modSeq_egress (s : State) (i : Nat) (g : Seq → Seq) : (s.modSeq i g).egress = s.egress := rfl
@[simp] theorem State.modSeq_ports (s : State) (i : Nat) (g : Seq → Seq) : (s.modSeq i g).ports = s.ports := rfl
@[simp] theorem State.modSeq_clusters (s : State) (i : Nat) (g : Seq → Seq) : (s.modSeq i g).clusters = s.clusters := rfl
@[simp] theorem State.modSeq_txns (s : State) (i : Nat) (g : Seq → Seq) : (s.modSeq i g).txns = s.txns := rfl
@[simp] theorem State.modSeq_extents (s : State) (i : Nat) (g : Seq → Seq) : (s.modSeq i g).extents = s.extents := rfl
@[simp] theorem State.modSeq_volumes (s : State) (i : Nat) (g : Seq → Seq) : (s.modSeq i g).volumes = s.volumes := rfl
@[simp] theorem State.modSeq_peerEpochs (s : State) (i : Nat) (g : Seq → Seq) : (s.modSeq i g).peerEpochs = s.peerEpochs := rfl
@[simp] theorem State.modSeq_tray (s : State) (i : Nat) (g : Seq → Seq) : (s.modSeq i g).tray = s.tray := rfl
@[simp] theorem State.modSeq_dram (s : State) (i : Nat) (g : Seq → Seq) : (s.modSeq i g).dram = s.dram := rfl
@[simp] theorem State.modSeq_groups (s : State) (i : Nat) (g : Seq → Seq) : (s.modSeq i g).groups = s.groups := rfl
@[simp] theorem State.modSeq_island (s : State) (i : Nat) (g : Seq → Seq) : (s.modSeq i g).island = s.island := rfl
@[simp] theorem State.modSeq_tenants (s : State) (i : Nat) (g : Seq → Seq) : (s.modSeq i g).tenants = s.tenants := rfl
@[simp] theorem State.modSeq_dbg (s : State) (i : Nat) (g : Seq → Seq) : (s.modSeq i g).dbg = s.dbg := rfl
@[simp] theorem State.modSeq_recorder (s : State) (i : Nat) (g : Seq → Seq) : (s.modSeq i g).recorder = s.recorder := rfl
@[simp] theorem State.modSeq_faults (s : State) (i : Nat) (g : Seq → Seq) : (s.modSeq i g).faults = s.faults := rfl
@[simp] theorem State.modSeq_mgmt (s : State) (i : Nat) (g : Seq → Seq) : (s.modSeq i g).mgmt = s.mgmt := rfl
@[simp] theorem State.modSeq_power (s : State) (i : Nat) (g : Seq → Seq) : (s.modSeq i g).power = s.power := rfl
@[simp] theorem State.modSeq_telemetry (s : State) (i : Nat) (g : Seq → Seq) : (s.modSeq i g).telemetry = s.telemetry := rfl
@[simp] theorem State.modSeq_coarse (s : State) (i : Nat) (g : Seq → Seq) : (s.modSeq i g).coarse = s.coarse := rfl
@[simp] theorem State.modSeq_trace (s : State) (i : Nat) (g : Seq → Seq) : (s.modSeq i g).trace = s.trace := rfl
@[simp] theorem State.modSeq_out (s : State) (i : Nat) (g : Seq → Seq) : (s.modSeq i g).out = s.out := rfl

/-! ### modRec -/

@[simp] theorem State.modRec_pending (s : State) (id : Nat) (g : Rec → Rec) : (s.modRec id g).pending = s.pending := rfl
@[simp] theorem State.modRec_now (s : State) (id : Nat) (g : Rec → Rec) : (s.modRec id g).now = s.now := rfl
@[simp] theorem State.modRec_timePage (s : State) (id : Nat) (g : Rec → Rec) : (s.modRec id g).timePage = s.timePage := rfl
@[simp] theorem State.modRec_ids (s : State) (id : Nat) (g : Rec → Rec) : (s.modRec id g).ids = s.ids := rfl
@[simp] theorem State.modRec_free (s : State) (id : Nat) (g : Rec → Rec) : (s.modRec id g).free = s.free := rfl
@[simp] theorem State.modRec_boot (s : State) (id : Nat) (g : Rec → Rec) : (s.modRec id g).boot = s.boot := rfl
@[simp] theorem State.modRec_flashA (s : State) (id : Nat) (g : Rec → Rec) : (s.modRec id g).flashA = s.flashA := rfl
@[simp] theorem State.modRec_flashB (s : State) (id : Nat) (g : Rec → Rec) : (s.modRec id g).flashB = s.flashB := rfl
@[simp] theorem State.modRec_image (s : State) (id : Nat) (g : Rec → Rec) : (s.modRec id g).image = s.image := rfl
@[simp] theorem State.modRec_update (s : State) (id : Nat) (g : Rec → Rec) : (s.modRec id g).update = s.update := rfl
@[simp] theorem State.modRec_resets (s : State) (id : Nat) (g : Rec → Rec) : (s.modRec id g).resets = s.resets := rfl
@[simp] theorem State.modRec_fns (s : State) (id : Nat) (g : Rec → Rec) : (s.modRec id g).fns = s.fns := rfl
@[simp] theorem State.modRec_reqs (s : State) (id : Nat) (g : Rec → Rec) : (s.modRec id g).reqs = s.reqs := rfl
@[simp] theorem State.modRec_fences (s : State) (id : Nat) (g : Rec → Rec) : (s.modRec id g).fences = s.fences := rfl
@[simp] theorem State.modRec_seqs (s : State) (id : Nat) (g : Rec → Rec) : (s.modRec id g).seqs = s.seqs := rfl
@[simp] theorem State.modRec_seqGens (s : State) (id : Nat) (g : Rec → Rec) : (s.modRec id g).seqGens = s.seqGens := rfl
@[simp] theorem State.modRec_seqFree (s : State) (id : Nat) (g : Rec → Rec) : (s.modRec id g).seqFree = s.seqFree := rfl
@[simp] theorem State.modRec_recs (s : State) (id : Nat) (g : Rec → Rec) : (s.modRec id g).recs = mapIf (·.id == id) g s.recs := rfl
@[simp] theorem State.modRec_pages (s : State) (id : Nat) (g : Rec → Rec) : (s.modRec id g).pages = s.pages := rfl
@[simp] theorem State.modRec_parity (s : State) (id : Nat) (g : Rec → Rec) : (s.modRec id g).parity = s.parity := rfl
@[simp] theorem State.modRec_grainVers (s : State) (id : Nat) (g : Rec → Rec) : (s.modRec id g).grainVers = s.grainVers := rfl
@[simp] theorem State.modRec_moves (s : State) (id : Nat) (g : Rec → Rec) : (s.modRec id g).moves = s.moves := rfl
@[simp] theorem State.modRec_staging (s : State) (id : Nat) (g : Rec → Rec) : (s.modRec id g).staging = s.staging := rfl
@[simp] theorem State.modRec_demoting (s : State) (id : Nat) (g : Rec → Rec) : (s.modRec id g).demoting = s.demoting := rfl
@[simp] theorem State.modRec_weights (s : State) (id : Nat) (g : Rec → Rec) : (s.modRec id g).weights = s.weights := rfl
@[simp] theorem State.modRec_direct (s : State) (id : Nat) (g : Rec → Rec) : (s.modRec id g).direct = s.direct := rfl
@[simp] theorem State.modRec_directOpen (s : State) (id : Nat) (g : Rec → Rec) : (s.modRec id g).directOpen = s.directOpen := rfl
@[simp] theorem State.modRec_directBad (s : State) (id : Nat) (g : Rec → Rec) : (s.modRec id g).directBad = s.directBad := rfl
@[simp] theorem State.modRec_viral (s : State) (id : Nat) (g : Rec → Rec) : (s.modRec id g).viral = s.viral := rfl
@[simp] theorem State.modRec_dir (s : State) (id : Nat) (g : Rec → Rec) : (s.modRec id g).dir = s.dir := rfl
@[simp] theorem State.modRec_dirGens (s : State) (id : Nat) (g : Rec → Rec) : (s.modRec id g).dirGens = s.dirGens := rfl
@[simp] theorem State.modRec_dirFree (s : State) (id : Nat) (g : Rec → Rec) : (s.modRec id g).dirFree = s.dirFree := rfl
@[simp] theorem State.modRec_array (s : State) (id : Nat) (g : Rec → Rec) : (s.modRec id g).array = s.array := rfl
@[simp] theorem State.modRec_tables (s : State) (id : Nat) (g : Rec → Rec) : (s.modRec id g).tables = s.tables := rfl
@[simp] theorem State.modRec_streams (s : State) (id : Nat) (g : Rec → Rec) : (s.modRec id g).streams = s.streams := rfl
@[simp] theorem State.modRec_rechecks (s : State) (id : Nat) (g : Rec → Rec) : (s.modRec id g).rechecks = s.rechecks := rfl
@[simp] theorem State.modRec_tabFree (s : State) (id : Nat) (g : Rec → Rec) : (s.modRec id g).tabFree = s.tabFree := rfl
@[simp] theorem State.modRec_impFree (s : State) (id : Nat) (g : Rec → Rec) : (s.modRec id g).impFree = s.impFree := rfl
@[simp] theorem State.modRec_engines (s : State) (id : Nat) (g : Rec → Rec) : (s.modRec id g).engines = s.engines := rfl
@[simp] theorem State.modRec_passes (s : State) (id : Nat) (g : Rec → Rec) : (s.modRec id g).passes = s.passes := rfl
@[simp] theorem State.modRec_curds (s : State) (id : Nat) (g : Rec → Rec) : (s.modRec id g).curds = s.curds := rfl
@[simp] theorem State.modRec_calendar (s : State) (id : Nat) (g : Rec → Rec) : (s.modRec id g).calendar = s.calendar := rfl
@[simp] theorem State.modRec_monitor (s : State) (id : Nat) (g : Rec → Rec) : (s.modRec id g).monitor = s.monitor := rfl
@[simp] theorem State.modRec_queues (s : State) (id : Nat) (g : Rec → Rec) : (s.modRec id g).queues = s.queues := rfl
@[simp] theorem State.modRec_egress (s : State) (id : Nat) (g : Rec → Rec) : (s.modRec id g).egress = s.egress := rfl
@[simp] theorem State.modRec_ports (s : State) (id : Nat) (g : Rec → Rec) : (s.modRec id g).ports = s.ports := rfl
@[simp] theorem State.modRec_clusters (s : State) (id : Nat) (g : Rec → Rec) : (s.modRec id g).clusters = s.clusters := rfl
@[simp] theorem State.modRec_txns (s : State) (id : Nat) (g : Rec → Rec) : (s.modRec id g).txns = s.txns := rfl
@[simp] theorem State.modRec_extents (s : State) (id : Nat) (g : Rec → Rec) : (s.modRec id g).extents = s.extents := rfl
@[simp] theorem State.modRec_volumes (s : State) (id : Nat) (g : Rec → Rec) : (s.modRec id g).volumes = s.volumes := rfl
@[simp] theorem State.modRec_peerEpochs (s : State) (id : Nat) (g : Rec → Rec) : (s.modRec id g).peerEpochs = s.peerEpochs := rfl
@[simp] theorem State.modRec_tray (s : State) (id : Nat) (g : Rec → Rec) : (s.modRec id g).tray = s.tray := rfl
@[simp] theorem State.modRec_dram (s : State) (id : Nat) (g : Rec → Rec) : (s.modRec id g).dram = s.dram := rfl
@[simp] theorem State.modRec_groups (s : State) (id : Nat) (g : Rec → Rec) : (s.modRec id g).groups = s.groups := rfl
@[simp] theorem State.modRec_island (s : State) (id : Nat) (g : Rec → Rec) : (s.modRec id g).island = s.island := rfl
@[simp] theorem State.modRec_tenants (s : State) (id : Nat) (g : Rec → Rec) : (s.modRec id g).tenants = s.tenants := rfl
@[simp] theorem State.modRec_dbg (s : State) (id : Nat) (g : Rec → Rec) : (s.modRec id g).dbg = s.dbg := rfl
@[simp] theorem State.modRec_recorder (s : State) (id : Nat) (g : Rec → Rec) : (s.modRec id g).recorder = s.recorder := rfl
@[simp] theorem State.modRec_faults (s : State) (id : Nat) (g : Rec → Rec) : (s.modRec id g).faults = s.faults := rfl
@[simp] theorem State.modRec_mgmt (s : State) (id : Nat) (g : Rec → Rec) : (s.modRec id g).mgmt = s.mgmt := rfl
@[simp] theorem State.modRec_power (s : State) (id : Nat) (g : Rec → Rec) : (s.modRec id g).power = s.power := rfl
@[simp] theorem State.modRec_telemetry (s : State) (id : Nat) (g : Rec → Rec) : (s.modRec id g).telemetry = s.telemetry := rfl
@[simp] theorem State.modRec_coarse (s : State) (id : Nat) (g : Rec → Rec) : (s.modRec id g).coarse = s.coarse := rfl
@[simp] theorem State.modRec_trace (s : State) (id : Nat) (g : Rec → Rec) : (s.modRec id g).trace = s.trace := rfl
@[simp] theorem State.modRec_out (s : State) (id : Nat) (g : Rec → Rec) : (s.modRec id g).out = s.out := rfl

/-! ### modDir -/

@[simp] theorem State.modDir_pending (s : State) (slot : Nat) (g : DirEntry → DirEntry) : (s.modDir slot g).pending = s.pending := rfl
@[simp] theorem State.modDir_now (s : State) (slot : Nat) (g : DirEntry → DirEntry) : (s.modDir slot g).now = s.now := rfl
@[simp] theorem State.modDir_timePage (s : State) (slot : Nat) (g : DirEntry → DirEntry) : (s.modDir slot g).timePage = s.timePage := rfl
@[simp] theorem State.modDir_ids (s : State) (slot : Nat) (g : DirEntry → DirEntry) : (s.modDir slot g).ids = s.ids := rfl
@[simp] theorem State.modDir_free (s : State) (slot : Nat) (g : DirEntry → DirEntry) : (s.modDir slot g).free = s.free := rfl
@[simp] theorem State.modDir_boot (s : State) (slot : Nat) (g : DirEntry → DirEntry) : (s.modDir slot g).boot = s.boot := rfl
@[simp] theorem State.modDir_flashA (s : State) (slot : Nat) (g : DirEntry → DirEntry) : (s.modDir slot g).flashA = s.flashA := rfl
@[simp] theorem State.modDir_flashB (s : State) (slot : Nat) (g : DirEntry → DirEntry) : (s.modDir slot g).flashB = s.flashB := rfl
@[simp] theorem State.modDir_image (s : State) (slot : Nat) (g : DirEntry → DirEntry) : (s.modDir slot g).image = s.image := rfl
@[simp] theorem State.modDir_update (s : State) (slot : Nat) (g : DirEntry → DirEntry) : (s.modDir slot g).update = s.update := rfl
@[simp] theorem State.modDir_resets (s : State) (slot : Nat) (g : DirEntry → DirEntry) : (s.modDir slot g).resets = s.resets := rfl
@[simp] theorem State.modDir_fns (s : State) (slot : Nat) (g : DirEntry → DirEntry) : (s.modDir slot g).fns = s.fns := rfl
@[simp] theorem State.modDir_reqs (s : State) (slot : Nat) (g : DirEntry → DirEntry) : (s.modDir slot g).reqs = s.reqs := rfl
@[simp] theorem State.modDir_fences (s : State) (slot : Nat) (g : DirEntry → DirEntry) : (s.modDir slot g).fences = s.fences := rfl
@[simp] theorem State.modDir_seqs (s : State) (slot : Nat) (g : DirEntry → DirEntry) : (s.modDir slot g).seqs = s.seqs := rfl
@[simp] theorem State.modDir_seqGens (s : State) (slot : Nat) (g : DirEntry → DirEntry) : (s.modDir slot g).seqGens = s.seqGens := rfl
@[simp] theorem State.modDir_seqFree (s : State) (slot : Nat) (g : DirEntry → DirEntry) : (s.modDir slot g).seqFree = s.seqFree := rfl
@[simp] theorem State.modDir_recs (s : State) (slot : Nat) (g : DirEntry → DirEntry) : (s.modDir slot g).recs = s.recs := rfl
@[simp] theorem State.modDir_pages (s : State) (slot : Nat) (g : DirEntry → DirEntry) : (s.modDir slot g).pages = s.pages := rfl
@[simp] theorem State.modDir_parity (s : State) (slot : Nat) (g : DirEntry → DirEntry) : (s.modDir slot g).parity = s.parity := rfl
@[simp] theorem State.modDir_grainVers (s : State) (slot : Nat) (g : DirEntry → DirEntry) : (s.modDir slot g).grainVers = s.grainVers := rfl
@[simp] theorem State.modDir_moves (s : State) (slot : Nat) (g : DirEntry → DirEntry) : (s.modDir slot g).moves = s.moves := rfl
@[simp] theorem State.modDir_staging (s : State) (slot : Nat) (g : DirEntry → DirEntry) : (s.modDir slot g).staging = s.staging := rfl
@[simp] theorem State.modDir_demoting (s : State) (slot : Nat) (g : DirEntry → DirEntry) : (s.modDir slot g).demoting = s.demoting := rfl
@[simp] theorem State.modDir_weights (s : State) (slot : Nat) (g : DirEntry → DirEntry) : (s.modDir slot g).weights = s.weights := rfl
@[simp] theorem State.modDir_direct (s : State) (slot : Nat) (g : DirEntry → DirEntry) : (s.modDir slot g).direct = s.direct := rfl
@[simp] theorem State.modDir_directOpen (s : State) (slot : Nat) (g : DirEntry → DirEntry) : (s.modDir slot g).directOpen = s.directOpen := rfl
@[simp] theorem State.modDir_directBad (s : State) (slot : Nat) (g : DirEntry → DirEntry) : (s.modDir slot g).directBad = s.directBad := rfl
@[simp] theorem State.modDir_viral (s : State) (slot : Nat) (g : DirEntry → DirEntry) : (s.modDir slot g).viral = s.viral := rfl
@[simp] theorem State.modDir_dir (s : State) (slot : Nat) (g : DirEntry → DirEntry) : (s.modDir slot g).dir = mapIf (·.slot == slot) g s.dir := rfl
@[simp] theorem State.modDir_dirGens (s : State) (slot : Nat) (g : DirEntry → DirEntry) : (s.modDir slot g).dirGens = s.dirGens := rfl
@[simp] theorem State.modDir_dirFree (s : State) (slot : Nat) (g : DirEntry → DirEntry) : (s.modDir slot g).dirFree = s.dirFree := rfl
@[simp] theorem State.modDir_array (s : State) (slot : Nat) (g : DirEntry → DirEntry) : (s.modDir slot g).array = s.array := rfl
@[simp] theorem State.modDir_tables (s : State) (slot : Nat) (g : DirEntry → DirEntry) : (s.modDir slot g).tables = s.tables := rfl
@[simp] theorem State.modDir_streams (s : State) (slot : Nat) (g : DirEntry → DirEntry) : (s.modDir slot g).streams = s.streams := rfl
@[simp] theorem State.modDir_rechecks (s : State) (slot : Nat) (g : DirEntry → DirEntry) : (s.modDir slot g).rechecks = s.rechecks := rfl
@[simp] theorem State.modDir_tabFree (s : State) (slot : Nat) (g : DirEntry → DirEntry) : (s.modDir slot g).tabFree = s.tabFree := rfl
@[simp] theorem State.modDir_impFree (s : State) (slot : Nat) (g : DirEntry → DirEntry) : (s.modDir slot g).impFree = s.impFree := rfl
@[simp] theorem State.modDir_engines (s : State) (slot : Nat) (g : DirEntry → DirEntry) : (s.modDir slot g).engines = s.engines := rfl
@[simp] theorem State.modDir_passes (s : State) (slot : Nat) (g : DirEntry → DirEntry) : (s.modDir slot g).passes = s.passes := rfl
@[simp] theorem State.modDir_curds (s : State) (slot : Nat) (g : DirEntry → DirEntry) : (s.modDir slot g).curds = s.curds := rfl
@[simp] theorem State.modDir_calendar (s : State) (slot : Nat) (g : DirEntry → DirEntry) : (s.modDir slot g).calendar = s.calendar := rfl
@[simp] theorem State.modDir_monitor (s : State) (slot : Nat) (g : DirEntry → DirEntry) : (s.modDir slot g).monitor = s.monitor := rfl
@[simp] theorem State.modDir_queues (s : State) (slot : Nat) (g : DirEntry → DirEntry) : (s.modDir slot g).queues = s.queues := rfl
@[simp] theorem State.modDir_egress (s : State) (slot : Nat) (g : DirEntry → DirEntry) : (s.modDir slot g).egress = s.egress := rfl
@[simp] theorem State.modDir_ports (s : State) (slot : Nat) (g : DirEntry → DirEntry) : (s.modDir slot g).ports = s.ports := rfl
@[simp] theorem State.modDir_clusters (s : State) (slot : Nat) (g : DirEntry → DirEntry) : (s.modDir slot g).clusters = s.clusters := rfl
@[simp] theorem State.modDir_txns (s : State) (slot : Nat) (g : DirEntry → DirEntry) : (s.modDir slot g).txns = s.txns := rfl
@[simp] theorem State.modDir_extents (s : State) (slot : Nat) (g : DirEntry → DirEntry) : (s.modDir slot g).extents = s.extents := rfl
@[simp] theorem State.modDir_volumes (s : State) (slot : Nat) (g : DirEntry → DirEntry) : (s.modDir slot g).volumes = s.volumes := rfl
@[simp] theorem State.modDir_peerEpochs (s : State) (slot : Nat) (g : DirEntry → DirEntry) : (s.modDir slot g).peerEpochs = s.peerEpochs := rfl
@[simp] theorem State.modDir_tray (s : State) (slot : Nat) (g : DirEntry → DirEntry) : (s.modDir slot g).tray = s.tray := rfl
@[simp] theorem State.modDir_dram (s : State) (slot : Nat) (g : DirEntry → DirEntry) : (s.modDir slot g).dram = s.dram := rfl
@[simp] theorem State.modDir_groups (s : State) (slot : Nat) (g : DirEntry → DirEntry) : (s.modDir slot g).groups = s.groups := rfl
@[simp] theorem State.modDir_island (s : State) (slot : Nat) (g : DirEntry → DirEntry) : (s.modDir slot g).island = s.island := rfl
@[simp] theorem State.modDir_tenants (s : State) (slot : Nat) (g : DirEntry → DirEntry) : (s.modDir slot g).tenants = s.tenants := rfl
@[simp] theorem State.modDir_dbg (s : State) (slot : Nat) (g : DirEntry → DirEntry) : (s.modDir slot g).dbg = s.dbg := rfl
@[simp] theorem State.modDir_recorder (s : State) (slot : Nat) (g : DirEntry → DirEntry) : (s.modDir slot g).recorder = s.recorder := rfl
@[simp] theorem State.modDir_faults (s : State) (slot : Nat) (g : DirEntry → DirEntry) : (s.modDir slot g).faults = s.faults := rfl
@[simp] theorem State.modDir_mgmt (s : State) (slot : Nat) (g : DirEntry → DirEntry) : (s.modDir slot g).mgmt = s.mgmt := rfl
@[simp] theorem State.modDir_power (s : State) (slot : Nat) (g : DirEntry → DirEntry) : (s.modDir slot g).power = s.power := rfl
@[simp] theorem State.modDir_telemetry (s : State) (slot : Nat) (g : DirEntry → DirEntry) : (s.modDir slot g).telemetry = s.telemetry := rfl
@[simp] theorem State.modDir_coarse (s : State) (slot : Nat) (g : DirEntry → DirEntry) : (s.modDir slot g).coarse = s.coarse := rfl
@[simp] theorem State.modDir_trace (s : State) (slot : Nat) (g : DirEntry → DirEntry) : (s.modDir slot g).trace = s.trace := rfl
@[simp] theorem State.modDir_out (s : State) (slot : Nat) (g : DirEntry → DirEntry) : (s.modDir slot g).out = s.out := rfl

/-! ### modPass -/

@[simp] theorem State.modPass_pending (s : State) (id : Nat) (g : Pass → Pass) : (s.modPass id g).pending = s.pending := rfl
@[simp] theorem State.modPass_now (s : State) (id : Nat) (g : Pass → Pass) : (s.modPass id g).now = s.now := rfl
@[simp] theorem State.modPass_timePage (s : State) (id : Nat) (g : Pass → Pass) : (s.modPass id g).timePage = s.timePage := rfl
@[simp] theorem State.modPass_ids (s : State) (id : Nat) (g : Pass → Pass) : (s.modPass id g).ids = s.ids := rfl
@[simp] theorem State.modPass_free (s : State) (id : Nat) (g : Pass → Pass) : (s.modPass id g).free = s.free := rfl
@[simp] theorem State.modPass_boot (s : State) (id : Nat) (g : Pass → Pass) : (s.modPass id g).boot = s.boot := rfl
@[simp] theorem State.modPass_flashA (s : State) (id : Nat) (g : Pass → Pass) : (s.modPass id g).flashA = s.flashA := rfl
@[simp] theorem State.modPass_flashB (s : State) (id : Nat) (g : Pass → Pass) : (s.modPass id g).flashB = s.flashB := rfl
@[simp] theorem State.modPass_image (s : State) (id : Nat) (g : Pass → Pass) : (s.modPass id g).image = s.image := rfl
@[simp] theorem State.modPass_update (s : State) (id : Nat) (g : Pass → Pass) : (s.modPass id g).update = s.update := rfl
@[simp] theorem State.modPass_resets (s : State) (id : Nat) (g : Pass → Pass) : (s.modPass id g).resets = s.resets := rfl
@[simp] theorem State.modPass_fns (s : State) (id : Nat) (g : Pass → Pass) : (s.modPass id g).fns = s.fns := rfl
@[simp] theorem State.modPass_reqs (s : State) (id : Nat) (g : Pass → Pass) : (s.modPass id g).reqs = s.reqs := rfl
@[simp] theorem State.modPass_fences (s : State) (id : Nat) (g : Pass → Pass) : (s.modPass id g).fences = s.fences := rfl
@[simp] theorem State.modPass_seqs (s : State) (id : Nat) (g : Pass → Pass) : (s.modPass id g).seqs = s.seqs := rfl
@[simp] theorem State.modPass_seqGens (s : State) (id : Nat) (g : Pass → Pass) : (s.modPass id g).seqGens = s.seqGens := rfl
@[simp] theorem State.modPass_seqFree (s : State) (id : Nat) (g : Pass → Pass) : (s.modPass id g).seqFree = s.seqFree := rfl
@[simp] theorem State.modPass_recs (s : State) (id : Nat) (g : Pass → Pass) : (s.modPass id g).recs = s.recs := rfl
@[simp] theorem State.modPass_pages (s : State) (id : Nat) (g : Pass → Pass) : (s.modPass id g).pages = s.pages := rfl
@[simp] theorem State.modPass_parity (s : State) (id : Nat) (g : Pass → Pass) : (s.modPass id g).parity = s.parity := rfl
@[simp] theorem State.modPass_grainVers (s : State) (id : Nat) (g : Pass → Pass) : (s.modPass id g).grainVers = s.grainVers := rfl
@[simp] theorem State.modPass_moves (s : State) (id : Nat) (g : Pass → Pass) : (s.modPass id g).moves = s.moves := rfl
@[simp] theorem State.modPass_staging (s : State) (id : Nat) (g : Pass → Pass) : (s.modPass id g).staging = s.staging := rfl
@[simp] theorem State.modPass_demoting (s : State) (id : Nat) (g : Pass → Pass) : (s.modPass id g).demoting = s.demoting := rfl
@[simp] theorem State.modPass_weights (s : State) (id : Nat) (g : Pass → Pass) : (s.modPass id g).weights = s.weights := rfl
@[simp] theorem State.modPass_direct (s : State) (id : Nat) (g : Pass → Pass) : (s.modPass id g).direct = s.direct := rfl
@[simp] theorem State.modPass_directOpen (s : State) (id : Nat) (g : Pass → Pass) : (s.modPass id g).directOpen = s.directOpen := rfl
@[simp] theorem State.modPass_directBad (s : State) (id : Nat) (g : Pass → Pass) : (s.modPass id g).directBad = s.directBad := rfl
@[simp] theorem State.modPass_viral (s : State) (id : Nat) (g : Pass → Pass) : (s.modPass id g).viral = s.viral := rfl
@[simp] theorem State.modPass_dir (s : State) (id : Nat) (g : Pass → Pass) : (s.modPass id g).dir = s.dir := rfl
@[simp] theorem State.modPass_dirGens (s : State) (id : Nat) (g : Pass → Pass) : (s.modPass id g).dirGens = s.dirGens := rfl
@[simp] theorem State.modPass_dirFree (s : State) (id : Nat) (g : Pass → Pass) : (s.modPass id g).dirFree = s.dirFree := rfl
@[simp] theorem State.modPass_array (s : State) (id : Nat) (g : Pass → Pass) : (s.modPass id g).array = s.array := rfl
@[simp] theorem State.modPass_tables (s : State) (id : Nat) (g : Pass → Pass) : (s.modPass id g).tables = s.tables := rfl
@[simp] theorem State.modPass_streams (s : State) (id : Nat) (g : Pass → Pass) : (s.modPass id g).streams = s.streams := rfl
@[simp] theorem State.modPass_rechecks (s : State) (id : Nat) (g : Pass → Pass) : (s.modPass id g).rechecks = s.rechecks := rfl
@[simp] theorem State.modPass_tabFree (s : State) (id : Nat) (g : Pass → Pass) : (s.modPass id g).tabFree = s.tabFree := rfl
@[simp] theorem State.modPass_impFree (s : State) (id : Nat) (g : Pass → Pass) : (s.modPass id g).impFree = s.impFree := rfl
@[simp] theorem State.modPass_engines (s : State) (id : Nat) (g : Pass → Pass) : (s.modPass id g).engines = s.engines := rfl
@[simp] theorem State.modPass_passes (s : State) (id : Nat) (g : Pass → Pass) : (s.modPass id g).passes = mapIf (·.id == id) g s.passes := rfl
@[simp] theorem State.modPass_curds (s : State) (id : Nat) (g : Pass → Pass) : (s.modPass id g).curds = s.curds := rfl
@[simp] theorem State.modPass_calendar (s : State) (id : Nat) (g : Pass → Pass) : (s.modPass id g).calendar = s.calendar := rfl
@[simp] theorem State.modPass_monitor (s : State) (id : Nat) (g : Pass → Pass) : (s.modPass id g).monitor = s.monitor := rfl
@[simp] theorem State.modPass_queues (s : State) (id : Nat) (g : Pass → Pass) : (s.modPass id g).queues = s.queues := rfl
@[simp] theorem State.modPass_egress (s : State) (id : Nat) (g : Pass → Pass) : (s.modPass id g).egress = s.egress := rfl
@[simp] theorem State.modPass_ports (s : State) (id : Nat) (g : Pass → Pass) : (s.modPass id g).ports = s.ports := rfl
@[simp] theorem State.modPass_clusters (s : State) (id : Nat) (g : Pass → Pass) : (s.modPass id g).clusters = s.clusters := rfl
@[simp] theorem State.modPass_txns (s : State) (id : Nat) (g : Pass → Pass) : (s.modPass id g).txns = s.txns := rfl
@[simp] theorem State.modPass_extents (s : State) (id : Nat) (g : Pass → Pass) : (s.modPass id g).extents = s.extents := rfl
@[simp] theorem State.modPass_volumes (s : State) (id : Nat) (g : Pass → Pass) : (s.modPass id g).volumes = s.volumes := rfl
@[simp] theorem State.modPass_peerEpochs (s : State) (id : Nat) (g : Pass → Pass) : (s.modPass id g).peerEpochs = s.peerEpochs := rfl
@[simp] theorem State.modPass_tray (s : State) (id : Nat) (g : Pass → Pass) : (s.modPass id g).tray = s.tray := rfl
@[simp] theorem State.modPass_dram (s : State) (id : Nat) (g : Pass → Pass) : (s.modPass id g).dram = s.dram := rfl
@[simp] theorem State.modPass_groups (s : State) (id : Nat) (g : Pass → Pass) : (s.modPass id g).groups = s.groups := rfl
@[simp] theorem State.modPass_island (s : State) (id : Nat) (g : Pass → Pass) : (s.modPass id g).island = s.island := rfl
@[simp] theorem State.modPass_tenants (s : State) (id : Nat) (g : Pass → Pass) : (s.modPass id g).tenants = s.tenants := rfl
@[simp] theorem State.modPass_dbg (s : State) (id : Nat) (g : Pass → Pass) : (s.modPass id g).dbg = s.dbg := rfl
@[simp] theorem State.modPass_recorder (s : State) (id : Nat) (g : Pass → Pass) : (s.modPass id g).recorder = s.recorder := rfl
@[simp] theorem State.modPass_faults (s : State) (id : Nat) (g : Pass → Pass) : (s.modPass id g).faults = s.faults := rfl
@[simp] theorem State.modPass_mgmt (s : State) (id : Nat) (g : Pass → Pass) : (s.modPass id g).mgmt = s.mgmt := rfl
@[simp] theorem State.modPass_power (s : State) (id : Nat) (g : Pass → Pass) : (s.modPass id g).power = s.power := rfl
@[simp] theorem State.modPass_telemetry (s : State) (id : Nat) (g : Pass → Pass) : (s.modPass id g).telemetry = s.telemetry := rfl
@[simp] theorem State.modPass_coarse (s : State) (id : Nat) (g : Pass → Pass) : (s.modPass id g).coarse = s.coarse := rfl
@[simp] theorem State.modPass_trace (s : State) (id : Nat) (g : Pass → Pass) : (s.modPass id g).trace = s.trace := rfl
@[simp] theorem State.modPass_out (s : State) (id : Nat) (g : Pass → Pass) : (s.modPass id g).out = s.out := rfl

/-! ### modCurd -/

@[simp] theorem State.modCurd_pending (s : State) (id : Nat) (g : Curd → Curd) : (s.modCurd id g).pending = s.pending := rfl
@[simp] theorem State.modCurd_now (s : State) (id : Nat) (g : Curd → Curd) : (s.modCurd id g).now = s.now := rfl
@[simp] theorem State.modCurd_timePage (s : State) (id : Nat) (g : Curd → Curd) : (s.modCurd id g).timePage = s.timePage := rfl
@[simp] theorem State.modCurd_ids (s : State) (id : Nat) (g : Curd → Curd) : (s.modCurd id g).ids = s.ids := rfl
@[simp] theorem State.modCurd_free (s : State) (id : Nat) (g : Curd → Curd) : (s.modCurd id g).free = s.free := rfl
@[simp] theorem State.modCurd_boot (s : State) (id : Nat) (g : Curd → Curd) : (s.modCurd id g).boot = s.boot := rfl
@[simp] theorem State.modCurd_flashA (s : State) (id : Nat) (g : Curd → Curd) : (s.modCurd id g).flashA = s.flashA := rfl
@[simp] theorem State.modCurd_flashB (s : State) (id : Nat) (g : Curd → Curd) : (s.modCurd id g).flashB = s.flashB := rfl
@[simp] theorem State.modCurd_image (s : State) (id : Nat) (g : Curd → Curd) : (s.modCurd id g).image = s.image := rfl
@[simp] theorem State.modCurd_update (s : State) (id : Nat) (g : Curd → Curd) : (s.modCurd id g).update = s.update := rfl
@[simp] theorem State.modCurd_resets (s : State) (id : Nat) (g : Curd → Curd) : (s.modCurd id g).resets = s.resets := rfl
@[simp] theorem State.modCurd_fns (s : State) (id : Nat) (g : Curd → Curd) : (s.modCurd id g).fns = s.fns := rfl
@[simp] theorem State.modCurd_reqs (s : State) (id : Nat) (g : Curd → Curd) : (s.modCurd id g).reqs = s.reqs := rfl
@[simp] theorem State.modCurd_fences (s : State) (id : Nat) (g : Curd → Curd) : (s.modCurd id g).fences = s.fences := rfl
@[simp] theorem State.modCurd_seqs (s : State) (id : Nat) (g : Curd → Curd) : (s.modCurd id g).seqs = s.seqs := rfl
@[simp] theorem State.modCurd_seqGens (s : State) (id : Nat) (g : Curd → Curd) : (s.modCurd id g).seqGens = s.seqGens := rfl
@[simp] theorem State.modCurd_seqFree (s : State) (id : Nat) (g : Curd → Curd) : (s.modCurd id g).seqFree = s.seqFree := rfl
@[simp] theorem State.modCurd_recs (s : State) (id : Nat) (g : Curd → Curd) : (s.modCurd id g).recs = s.recs := rfl
@[simp] theorem State.modCurd_pages (s : State) (id : Nat) (g : Curd → Curd) : (s.modCurd id g).pages = s.pages := rfl
@[simp] theorem State.modCurd_parity (s : State) (id : Nat) (g : Curd → Curd) : (s.modCurd id g).parity = s.parity := rfl
@[simp] theorem State.modCurd_grainVers (s : State) (id : Nat) (g : Curd → Curd) : (s.modCurd id g).grainVers = s.grainVers := rfl
@[simp] theorem State.modCurd_moves (s : State) (id : Nat) (g : Curd → Curd) : (s.modCurd id g).moves = s.moves := rfl
@[simp] theorem State.modCurd_staging (s : State) (id : Nat) (g : Curd → Curd) : (s.modCurd id g).staging = s.staging := rfl
@[simp] theorem State.modCurd_demoting (s : State) (id : Nat) (g : Curd → Curd) : (s.modCurd id g).demoting = s.demoting := rfl
@[simp] theorem State.modCurd_weights (s : State) (id : Nat) (g : Curd → Curd) : (s.modCurd id g).weights = s.weights := rfl
@[simp] theorem State.modCurd_direct (s : State) (id : Nat) (g : Curd → Curd) : (s.modCurd id g).direct = s.direct := rfl
@[simp] theorem State.modCurd_directOpen (s : State) (id : Nat) (g : Curd → Curd) : (s.modCurd id g).directOpen = s.directOpen := rfl
@[simp] theorem State.modCurd_directBad (s : State) (id : Nat) (g : Curd → Curd) : (s.modCurd id g).directBad = s.directBad := rfl
@[simp] theorem State.modCurd_viral (s : State) (id : Nat) (g : Curd → Curd) : (s.modCurd id g).viral = s.viral := rfl
@[simp] theorem State.modCurd_dir (s : State) (id : Nat) (g : Curd → Curd) : (s.modCurd id g).dir = s.dir := rfl
@[simp] theorem State.modCurd_dirGens (s : State) (id : Nat) (g : Curd → Curd) : (s.modCurd id g).dirGens = s.dirGens := rfl
@[simp] theorem State.modCurd_dirFree (s : State) (id : Nat) (g : Curd → Curd) : (s.modCurd id g).dirFree = s.dirFree := rfl
@[simp] theorem State.modCurd_array (s : State) (id : Nat) (g : Curd → Curd) : (s.modCurd id g).array = s.array := rfl
@[simp] theorem State.modCurd_tables (s : State) (id : Nat) (g : Curd → Curd) : (s.modCurd id g).tables = s.tables := rfl
@[simp] theorem State.modCurd_streams (s : State) (id : Nat) (g : Curd → Curd) : (s.modCurd id g).streams = s.streams := rfl
@[simp] theorem State.modCurd_rechecks (s : State) (id : Nat) (g : Curd → Curd) : (s.modCurd id g).rechecks = s.rechecks := rfl
@[simp] theorem State.modCurd_tabFree (s : State) (id : Nat) (g : Curd → Curd) : (s.modCurd id g).tabFree = s.tabFree := rfl
@[simp] theorem State.modCurd_impFree (s : State) (id : Nat) (g : Curd → Curd) : (s.modCurd id g).impFree = s.impFree := rfl
@[simp] theorem State.modCurd_engines (s : State) (id : Nat) (g : Curd → Curd) : (s.modCurd id g).engines = s.engines := rfl
@[simp] theorem State.modCurd_passes (s : State) (id : Nat) (g : Curd → Curd) : (s.modCurd id g).passes = s.passes := rfl
@[simp] theorem State.modCurd_curds (s : State) (id : Nat) (g : Curd → Curd) : (s.modCurd id g).curds = mapIf (·.id == id) g s.curds := rfl
@[simp] theorem State.modCurd_calendar (s : State) (id : Nat) (g : Curd → Curd) : (s.modCurd id g).calendar = s.calendar := rfl
@[simp] theorem State.modCurd_monitor (s : State) (id : Nat) (g : Curd → Curd) : (s.modCurd id g).monitor = s.monitor := rfl
@[simp] theorem State.modCurd_queues (s : State) (id : Nat) (g : Curd → Curd) : (s.modCurd id g).queues = s.queues := rfl
@[simp] theorem State.modCurd_egress (s : State) (id : Nat) (g : Curd → Curd) : (s.modCurd id g).egress = s.egress := rfl
@[simp] theorem State.modCurd_ports (s : State) (id : Nat) (g : Curd → Curd) : (s.modCurd id g).ports = s.ports := rfl
@[simp] theorem State.modCurd_clusters (s : State) (id : Nat) (g : Curd → Curd) : (s.modCurd id g).clusters = s.clusters := rfl
@[simp] theorem State.modCurd_txns (s : State) (id : Nat) (g : Curd → Curd) : (s.modCurd id g).txns = s.txns := rfl
@[simp] theorem State.modCurd_extents (s : State) (id : Nat) (g : Curd → Curd) : (s.modCurd id g).extents = s.extents := rfl
@[simp] theorem State.modCurd_volumes (s : State) (id : Nat) (g : Curd → Curd) : (s.modCurd id g).volumes = s.volumes := rfl
@[simp] theorem State.modCurd_peerEpochs (s : State) (id : Nat) (g : Curd → Curd) : (s.modCurd id g).peerEpochs = s.peerEpochs := rfl
@[simp] theorem State.modCurd_tray (s : State) (id : Nat) (g : Curd → Curd) : (s.modCurd id g).tray = s.tray := rfl
@[simp] theorem State.modCurd_dram (s : State) (id : Nat) (g : Curd → Curd) : (s.modCurd id g).dram = s.dram := rfl
@[simp] theorem State.modCurd_groups (s : State) (id : Nat) (g : Curd → Curd) : (s.modCurd id g).groups = s.groups := rfl
@[simp] theorem State.modCurd_island (s : State) (id : Nat) (g : Curd → Curd) : (s.modCurd id g).island = s.island := rfl
@[simp] theorem State.modCurd_tenants (s : State) (id : Nat) (g : Curd → Curd) : (s.modCurd id g).tenants = s.tenants := rfl
@[simp] theorem State.modCurd_dbg (s : State) (id : Nat) (g : Curd → Curd) : (s.modCurd id g).dbg = s.dbg := rfl
@[simp] theorem State.modCurd_recorder (s : State) (id : Nat) (g : Curd → Curd) : (s.modCurd id g).recorder = s.recorder := rfl
@[simp] theorem State.modCurd_faults (s : State) (id : Nat) (g : Curd → Curd) : (s.modCurd id g).faults = s.faults := rfl
@[simp] theorem State.modCurd_mgmt (s : State) (id : Nat) (g : Curd → Curd) : (s.modCurd id g).mgmt = s.mgmt := rfl
@[simp] theorem State.modCurd_power (s : State) (id : Nat) (g : Curd → Curd) : (s.modCurd id g).power = s.power := rfl
@[simp] theorem State.modCurd_telemetry (s : State) (id : Nat) (g : Curd → Curd) : (s.modCurd id g).telemetry = s.telemetry := rfl
@[simp] theorem State.modCurd_coarse (s : State) (id : Nat) (g : Curd → Curd) : (s.modCurd id g).coarse = s.coarse := rfl
@[simp] theorem State.modCurd_trace (s : State) (id : Nat) (g : Curd → Curd) : (s.modCurd id g).trace = s.trace := rfl
@[simp] theorem State.modCurd_out (s : State) (id : Nat) (g : Curd → Curd) : (s.modCurd id g).out = s.out := rfl

/-! ### modTable -/

@[simp] theorem State.modTable_pending (s : State) (id : Nat) (g : CodeTable → CodeTable) : (s.modTable id g).pending = s.pending := rfl
@[simp] theorem State.modTable_now (s : State) (id : Nat) (g : CodeTable → CodeTable) : (s.modTable id g).now = s.now := rfl
@[simp] theorem State.modTable_timePage (s : State) (id : Nat) (g : CodeTable → CodeTable) : (s.modTable id g).timePage = s.timePage := rfl
@[simp] theorem State.modTable_ids (s : State) (id : Nat) (g : CodeTable → CodeTable) : (s.modTable id g).ids = s.ids := rfl
@[simp] theorem State.modTable_free (s : State) (id : Nat) (g : CodeTable → CodeTable) : (s.modTable id g).free = s.free := rfl
@[simp] theorem State.modTable_boot (s : State) (id : Nat) (g : CodeTable → CodeTable) : (s.modTable id g).boot = s.boot := rfl
@[simp] theorem State.modTable_flashA (s : State) (id : Nat) (g : CodeTable → CodeTable) : (s.modTable id g).flashA = s.flashA := rfl
@[simp] theorem State.modTable_flashB (s : State) (id : Nat) (g : CodeTable → CodeTable) : (s.modTable id g).flashB = s.flashB := rfl
@[simp] theorem State.modTable_image (s : State) (id : Nat) (g : CodeTable → CodeTable) : (s.modTable id g).image = s.image := rfl
@[simp] theorem State.modTable_update (s : State) (id : Nat) (g : CodeTable → CodeTable) : (s.modTable id g).update = s.update := rfl
@[simp] theorem State.modTable_resets (s : State) (id : Nat) (g : CodeTable → CodeTable) : (s.modTable id g).resets = s.resets := rfl
@[simp] theorem State.modTable_fns (s : State) (id : Nat) (g : CodeTable → CodeTable) : (s.modTable id g).fns = s.fns := rfl
@[simp] theorem State.modTable_reqs (s : State) (id : Nat) (g : CodeTable → CodeTable) : (s.modTable id g).reqs = s.reqs := rfl
@[simp] theorem State.modTable_fences (s : State) (id : Nat) (g : CodeTable → CodeTable) : (s.modTable id g).fences = s.fences := rfl
@[simp] theorem State.modTable_seqs (s : State) (id : Nat) (g : CodeTable → CodeTable) : (s.modTable id g).seqs = s.seqs := rfl
@[simp] theorem State.modTable_seqGens (s : State) (id : Nat) (g : CodeTable → CodeTable) : (s.modTable id g).seqGens = s.seqGens := rfl
@[simp] theorem State.modTable_seqFree (s : State) (id : Nat) (g : CodeTable → CodeTable) : (s.modTable id g).seqFree = s.seqFree := rfl
@[simp] theorem State.modTable_recs (s : State) (id : Nat) (g : CodeTable → CodeTable) : (s.modTable id g).recs = s.recs := rfl
@[simp] theorem State.modTable_pages (s : State) (id : Nat) (g : CodeTable → CodeTable) : (s.modTable id g).pages = s.pages := rfl
@[simp] theorem State.modTable_parity (s : State) (id : Nat) (g : CodeTable → CodeTable) : (s.modTable id g).parity = s.parity := rfl
@[simp] theorem State.modTable_grainVers (s : State) (id : Nat) (g : CodeTable → CodeTable) : (s.modTable id g).grainVers = s.grainVers := rfl
@[simp] theorem State.modTable_moves (s : State) (id : Nat) (g : CodeTable → CodeTable) : (s.modTable id g).moves = s.moves := rfl
@[simp] theorem State.modTable_staging (s : State) (id : Nat) (g : CodeTable → CodeTable) : (s.modTable id g).staging = s.staging := rfl
@[simp] theorem State.modTable_demoting (s : State) (id : Nat) (g : CodeTable → CodeTable) : (s.modTable id g).demoting = s.demoting := rfl
@[simp] theorem State.modTable_weights (s : State) (id : Nat) (g : CodeTable → CodeTable) : (s.modTable id g).weights = s.weights := rfl
@[simp] theorem State.modTable_direct (s : State) (id : Nat) (g : CodeTable → CodeTable) : (s.modTable id g).direct = s.direct := rfl
@[simp] theorem State.modTable_directOpen (s : State) (id : Nat) (g : CodeTable → CodeTable) : (s.modTable id g).directOpen = s.directOpen := rfl
@[simp] theorem State.modTable_directBad (s : State) (id : Nat) (g : CodeTable → CodeTable) : (s.modTable id g).directBad = s.directBad := rfl
@[simp] theorem State.modTable_viral (s : State) (id : Nat) (g : CodeTable → CodeTable) : (s.modTable id g).viral = s.viral := rfl
@[simp] theorem State.modTable_dir (s : State) (id : Nat) (g : CodeTable → CodeTable) : (s.modTable id g).dir = s.dir := rfl
@[simp] theorem State.modTable_dirGens (s : State) (id : Nat) (g : CodeTable → CodeTable) : (s.modTable id g).dirGens = s.dirGens := rfl
@[simp] theorem State.modTable_dirFree (s : State) (id : Nat) (g : CodeTable → CodeTable) : (s.modTable id g).dirFree = s.dirFree := rfl
@[simp] theorem State.modTable_array (s : State) (id : Nat) (g : CodeTable → CodeTable) : (s.modTable id g).array = s.array := rfl
@[simp] theorem State.modTable_tables (s : State) (id : Nat) (g : CodeTable → CodeTable) : (s.modTable id g).tables = mapIf (·.id == id) g s.tables := rfl
@[simp] theorem State.modTable_streams (s : State) (id : Nat) (g : CodeTable → CodeTable) : (s.modTable id g).streams = s.streams := rfl
@[simp] theorem State.modTable_rechecks (s : State) (id : Nat) (g : CodeTable → CodeTable) : (s.modTable id g).rechecks = s.rechecks := rfl
@[simp] theorem State.modTable_tabFree (s : State) (id : Nat) (g : CodeTable → CodeTable) : (s.modTable id g).tabFree = s.tabFree := rfl
@[simp] theorem State.modTable_impFree (s : State) (id : Nat) (g : CodeTable → CodeTable) : (s.modTable id g).impFree = s.impFree := rfl
@[simp] theorem State.modTable_engines (s : State) (id : Nat) (g : CodeTable → CodeTable) : (s.modTable id g).engines = s.engines := rfl
@[simp] theorem State.modTable_passes (s : State) (id : Nat) (g : CodeTable → CodeTable) : (s.modTable id g).passes = s.passes := rfl
@[simp] theorem State.modTable_curds (s : State) (id : Nat) (g : CodeTable → CodeTable) : (s.modTable id g).curds = s.curds := rfl
@[simp] theorem State.modTable_calendar (s : State) (id : Nat) (g : CodeTable → CodeTable) : (s.modTable id g).calendar = s.calendar := rfl
@[simp] theorem State.modTable_monitor (s : State) (id : Nat) (g : CodeTable → CodeTable) : (s.modTable id g).monitor = s.monitor := rfl
@[simp] theorem State.modTable_queues (s : State) (id : Nat) (g : CodeTable → CodeTable) : (s.modTable id g).queues = s.queues := rfl
@[simp] theorem State.modTable_egress (s : State) (id : Nat) (g : CodeTable → CodeTable) : (s.modTable id g).egress = s.egress := rfl
@[simp] theorem State.modTable_ports (s : State) (id : Nat) (g : CodeTable → CodeTable) : (s.modTable id g).ports = s.ports := rfl
@[simp] theorem State.modTable_clusters (s : State) (id : Nat) (g : CodeTable → CodeTable) : (s.modTable id g).clusters = s.clusters := rfl
@[simp] theorem State.modTable_txns (s : State) (id : Nat) (g : CodeTable → CodeTable) : (s.modTable id g).txns = s.txns := rfl
@[simp] theorem State.modTable_extents (s : State) (id : Nat) (g : CodeTable → CodeTable) : (s.modTable id g).extents = s.extents := rfl
@[simp] theorem State.modTable_volumes (s : State) (id : Nat) (g : CodeTable → CodeTable) : (s.modTable id g).volumes = s.volumes := rfl
@[simp] theorem State.modTable_peerEpochs (s : State) (id : Nat) (g : CodeTable → CodeTable) : (s.modTable id g).peerEpochs = s.peerEpochs := rfl
@[simp] theorem State.modTable_tray (s : State) (id : Nat) (g : CodeTable → CodeTable) : (s.modTable id g).tray = s.tray := rfl
@[simp] theorem State.modTable_dram (s : State) (id : Nat) (g : CodeTable → CodeTable) : (s.modTable id g).dram = s.dram := rfl
@[simp] theorem State.modTable_groups (s : State) (id : Nat) (g : CodeTable → CodeTable) : (s.modTable id g).groups = s.groups := rfl
@[simp] theorem State.modTable_island (s : State) (id : Nat) (g : CodeTable → CodeTable) : (s.modTable id g).island = s.island := rfl
@[simp] theorem State.modTable_tenants (s : State) (id : Nat) (g : CodeTable → CodeTable) : (s.modTable id g).tenants = s.tenants := rfl
@[simp] theorem State.modTable_dbg (s : State) (id : Nat) (g : CodeTable → CodeTable) : (s.modTable id g).dbg = s.dbg := rfl
@[simp] theorem State.modTable_recorder (s : State) (id : Nat) (g : CodeTable → CodeTable) : (s.modTable id g).recorder = s.recorder := rfl
@[simp] theorem State.modTable_faults (s : State) (id : Nat) (g : CodeTable → CodeTable) : (s.modTable id g).faults = s.faults := rfl
@[simp] theorem State.modTable_mgmt (s : State) (id : Nat) (g : CodeTable → CodeTable) : (s.modTable id g).mgmt = s.mgmt := rfl
@[simp] theorem State.modTable_power (s : State) (id : Nat) (g : CodeTable → CodeTable) : (s.modTable id g).power = s.power := rfl
@[simp] theorem State.modTable_telemetry (s : State) (id : Nat) (g : CodeTable → CodeTable) : (s.modTable id g).telemetry = s.telemetry := rfl
@[simp] theorem State.modTable_coarse (s : State) (id : Nat) (g : CodeTable → CodeTable) : (s.modTable id g).coarse = s.coarse := rfl
@[simp] theorem State.modTable_trace (s : State) (id : Nat) (g : CodeTable → CodeTable) : (s.modTable id g).trace = s.trace := rfl
@[simp] theorem State.modTable_out (s : State) (id : Nat) (g : CodeTable → CodeTable) : (s.modTable id g).out = s.out := rfl

/-! ### modPort -/

@[simp] theorem State.modPort_pending (s : State) (p : PortId) (g : Port → Port) : (s.modPort p g).pending = s.pending := rfl
@[simp] theorem State.modPort_now (s : State) (p : PortId) (g : Port → Port) : (s.modPort p g).now = s.now := rfl
@[simp] theorem State.modPort_timePage (s : State) (p : PortId) (g : Port → Port) : (s.modPort p g).timePage = s.timePage := rfl
@[simp] theorem State.modPort_ids (s : State) (p : PortId) (g : Port → Port) : (s.modPort p g).ids = s.ids := rfl
@[simp] theorem State.modPort_free (s : State) (p : PortId) (g : Port → Port) : (s.modPort p g).free = s.free := rfl
@[simp] theorem State.modPort_boot (s : State) (p : PortId) (g : Port → Port) : (s.modPort p g).boot = s.boot := rfl
@[simp] theorem State.modPort_flashA (s : State) (p : PortId) (g : Port → Port) : (s.modPort p g).flashA = s.flashA := rfl
@[simp] theorem State.modPort_flashB (s : State) (p : PortId) (g : Port → Port) : (s.modPort p g).flashB = s.flashB := rfl
@[simp] theorem State.modPort_image (s : State) (p : PortId) (g : Port → Port) : (s.modPort p g).image = s.image := rfl
@[simp] theorem State.modPort_update (s : State) (p : PortId) (g : Port → Port) : (s.modPort p g).update = s.update := rfl
@[simp] theorem State.modPort_resets (s : State) (p : PortId) (g : Port → Port) : (s.modPort p g).resets = s.resets := rfl
@[simp] theorem State.modPort_fns (s : State) (p : PortId) (g : Port → Port) : (s.modPort p g).fns = s.fns := rfl
@[simp] theorem State.modPort_reqs (s : State) (p : PortId) (g : Port → Port) : (s.modPort p g).reqs = s.reqs := rfl
@[simp] theorem State.modPort_fences (s : State) (p : PortId) (g : Port → Port) : (s.modPort p g).fences = s.fences := rfl
@[simp] theorem State.modPort_seqs (s : State) (p : PortId) (g : Port → Port) : (s.modPort p g).seqs = s.seqs := rfl
@[simp] theorem State.modPort_seqGens (s : State) (p : PortId) (g : Port → Port) : (s.modPort p g).seqGens = s.seqGens := rfl
@[simp] theorem State.modPort_seqFree (s : State) (p : PortId) (g : Port → Port) : (s.modPort p g).seqFree = s.seqFree := rfl
@[simp] theorem State.modPort_recs (s : State) (p : PortId) (g : Port → Port) : (s.modPort p g).recs = s.recs := rfl
@[simp] theorem State.modPort_pages (s : State) (p : PortId) (g : Port → Port) : (s.modPort p g).pages = s.pages := rfl
@[simp] theorem State.modPort_parity (s : State) (p : PortId) (g : Port → Port) : (s.modPort p g).parity = s.parity := rfl
@[simp] theorem State.modPort_grainVers (s : State) (p : PortId) (g : Port → Port) : (s.modPort p g).grainVers = s.grainVers := rfl
@[simp] theorem State.modPort_moves (s : State) (p : PortId) (g : Port → Port) : (s.modPort p g).moves = s.moves := rfl
@[simp] theorem State.modPort_staging (s : State) (p : PortId) (g : Port → Port) : (s.modPort p g).staging = s.staging := rfl
@[simp] theorem State.modPort_demoting (s : State) (p : PortId) (g : Port → Port) : (s.modPort p g).demoting = s.demoting := rfl
@[simp] theorem State.modPort_weights (s : State) (p : PortId) (g : Port → Port) : (s.modPort p g).weights = s.weights := rfl
@[simp] theorem State.modPort_direct (s : State) (p : PortId) (g : Port → Port) : (s.modPort p g).direct = s.direct := rfl
@[simp] theorem State.modPort_directOpen (s : State) (p : PortId) (g : Port → Port) : (s.modPort p g).directOpen = s.directOpen := rfl
@[simp] theorem State.modPort_directBad (s : State) (p : PortId) (g : Port → Port) : (s.modPort p g).directBad = s.directBad := rfl
@[simp] theorem State.modPort_viral (s : State) (p : PortId) (g : Port → Port) : (s.modPort p g).viral = s.viral := rfl
@[simp] theorem State.modPort_dir (s : State) (p : PortId) (g : Port → Port) : (s.modPort p g).dir = s.dir := rfl
@[simp] theorem State.modPort_dirGens (s : State) (p : PortId) (g : Port → Port) : (s.modPort p g).dirGens = s.dirGens := rfl
@[simp] theorem State.modPort_dirFree (s : State) (p : PortId) (g : Port → Port) : (s.modPort p g).dirFree = s.dirFree := rfl
@[simp] theorem State.modPort_array (s : State) (p : PortId) (g : Port → Port) : (s.modPort p g).array = s.array := rfl
@[simp] theorem State.modPort_tables (s : State) (p : PortId) (g : Port → Port) : (s.modPort p g).tables = s.tables := rfl
@[simp] theorem State.modPort_streams (s : State) (p : PortId) (g : Port → Port) : (s.modPort p g).streams = s.streams := rfl
@[simp] theorem State.modPort_rechecks (s : State) (p : PortId) (g : Port → Port) : (s.modPort p g).rechecks = s.rechecks := rfl
@[simp] theorem State.modPort_tabFree (s : State) (p : PortId) (g : Port → Port) : (s.modPort p g).tabFree = s.tabFree := rfl
@[simp] theorem State.modPort_impFree (s : State) (p : PortId) (g : Port → Port) : (s.modPort p g).impFree = s.impFree := rfl
@[simp] theorem State.modPort_engines (s : State) (p : PortId) (g : Port → Port) : (s.modPort p g).engines = s.engines := rfl
@[simp] theorem State.modPort_passes (s : State) (p : PortId) (g : Port → Port) : (s.modPort p g).passes = s.passes := rfl
@[simp] theorem State.modPort_curds (s : State) (p : PortId) (g : Port → Port) : (s.modPort p g).curds = s.curds := rfl
@[simp] theorem State.modPort_calendar (s : State) (p : PortId) (g : Port → Port) : (s.modPort p g).calendar = s.calendar := rfl
@[simp] theorem State.modPort_monitor (s : State) (p : PortId) (g : Port → Port) : (s.modPort p g).monitor = s.monitor := rfl
@[simp] theorem State.modPort_queues (s : State) (p : PortId) (g : Port → Port) : (s.modPort p g).queues = s.queues := rfl
@[simp] theorem State.modPort_egress (s : State) (p : PortId) (g : Port → Port) : (s.modPort p g).egress = s.egress := rfl
@[simp] theorem State.modPort_ports (s : State) (p : PortId) (g : Port → Port) : (s.modPort p g).ports = mapIf (·.id == p) g s.ports := rfl
@[simp] theorem State.modPort_clusters (s : State) (p : PortId) (g : Port → Port) : (s.modPort p g).clusters = s.clusters := rfl
@[simp] theorem State.modPort_txns (s : State) (p : PortId) (g : Port → Port) : (s.modPort p g).txns = s.txns := rfl
@[simp] theorem State.modPort_extents (s : State) (p : PortId) (g : Port → Port) : (s.modPort p g).extents = s.extents := rfl
@[simp] theorem State.modPort_volumes (s : State) (p : PortId) (g : Port → Port) : (s.modPort p g).volumes = s.volumes := rfl
@[simp] theorem State.modPort_peerEpochs (s : State) (p : PortId) (g : Port → Port) : (s.modPort p g).peerEpochs = s.peerEpochs := rfl
@[simp] theorem State.modPort_tray (s : State) (p : PortId) (g : Port → Port) : (s.modPort p g).tray = s.tray := rfl
@[simp] theorem State.modPort_dram (s : State) (p : PortId) (g : Port → Port) : (s.modPort p g).dram = s.dram := rfl
@[simp] theorem State.modPort_groups (s : State) (p : PortId) (g : Port → Port) : (s.modPort p g).groups = s.groups := rfl
@[simp] theorem State.modPort_island (s : State) (p : PortId) (g : Port → Port) : (s.modPort p g).island = s.island := rfl
@[simp] theorem State.modPort_tenants (s : State) (p : PortId) (g : Port → Port) : (s.modPort p g).tenants = s.tenants := rfl
@[simp] theorem State.modPort_dbg (s : State) (p : PortId) (g : Port → Port) : (s.modPort p g).dbg = s.dbg := rfl
@[simp] theorem State.modPort_recorder (s : State) (p : PortId) (g : Port → Port) : (s.modPort p g).recorder = s.recorder := rfl
@[simp] theorem State.modPort_faults (s : State) (p : PortId) (g : Port → Port) : (s.modPort p g).faults = s.faults := rfl
@[simp] theorem State.modPort_mgmt (s : State) (p : PortId) (g : Port → Port) : (s.modPort p g).mgmt = s.mgmt := rfl
@[simp] theorem State.modPort_power (s : State) (p : PortId) (g : Port → Port) : (s.modPort p g).power = s.power := rfl
@[simp] theorem State.modPort_telemetry (s : State) (p : PortId) (g : Port → Port) : (s.modPort p g).telemetry = s.telemetry := rfl
@[simp] theorem State.modPort_coarse (s : State) (p : PortId) (g : Port → Port) : (s.modPort p g).coarse = s.coarse := rfl
@[simp] theorem State.modPort_trace (s : State) (p : PortId) (g : Port → Port) : (s.modPort p g).trace = s.trace := rfl
@[simp] theorem State.modPort_out (s : State) (p : PortId) (g : Port → Port) : (s.modPort p g).out = s.out := rfl

/-! ### modExtent -/

@[simp] theorem State.modExtent_pending (s : State) (id : Nat) (g : Extent → Extent) : (s.modExtent id g).pending = s.pending := rfl
@[simp] theorem State.modExtent_now (s : State) (id : Nat) (g : Extent → Extent) : (s.modExtent id g).now = s.now := rfl
@[simp] theorem State.modExtent_timePage (s : State) (id : Nat) (g : Extent → Extent) : (s.modExtent id g).timePage = s.timePage := rfl
@[simp] theorem State.modExtent_ids (s : State) (id : Nat) (g : Extent → Extent) : (s.modExtent id g).ids = s.ids := rfl
@[simp] theorem State.modExtent_free (s : State) (id : Nat) (g : Extent → Extent) : (s.modExtent id g).free = s.free := rfl
@[simp] theorem State.modExtent_boot (s : State) (id : Nat) (g : Extent → Extent) : (s.modExtent id g).boot = s.boot := rfl
@[simp] theorem State.modExtent_flashA (s : State) (id : Nat) (g : Extent → Extent) : (s.modExtent id g).flashA = s.flashA := rfl
@[simp] theorem State.modExtent_flashB (s : State) (id : Nat) (g : Extent → Extent) : (s.modExtent id g).flashB = s.flashB := rfl
@[simp] theorem State.modExtent_image (s : State) (id : Nat) (g : Extent → Extent) : (s.modExtent id g).image = s.image := rfl
@[simp] theorem State.modExtent_update (s : State) (id : Nat) (g : Extent → Extent) : (s.modExtent id g).update = s.update := rfl
@[simp] theorem State.modExtent_resets (s : State) (id : Nat) (g : Extent → Extent) : (s.modExtent id g).resets = s.resets := rfl
@[simp] theorem State.modExtent_fns (s : State) (id : Nat) (g : Extent → Extent) : (s.modExtent id g).fns = s.fns := rfl
@[simp] theorem State.modExtent_reqs (s : State) (id : Nat) (g : Extent → Extent) : (s.modExtent id g).reqs = s.reqs := rfl
@[simp] theorem State.modExtent_fences (s : State) (id : Nat) (g : Extent → Extent) : (s.modExtent id g).fences = s.fences := rfl
@[simp] theorem State.modExtent_seqs (s : State) (id : Nat) (g : Extent → Extent) : (s.modExtent id g).seqs = s.seqs := rfl
@[simp] theorem State.modExtent_seqGens (s : State) (id : Nat) (g : Extent → Extent) : (s.modExtent id g).seqGens = s.seqGens := rfl
@[simp] theorem State.modExtent_seqFree (s : State) (id : Nat) (g : Extent → Extent) : (s.modExtent id g).seqFree = s.seqFree := rfl
@[simp] theorem State.modExtent_recs (s : State) (id : Nat) (g : Extent → Extent) : (s.modExtent id g).recs = s.recs := rfl
@[simp] theorem State.modExtent_pages (s : State) (id : Nat) (g : Extent → Extent) : (s.modExtent id g).pages = s.pages := rfl
@[simp] theorem State.modExtent_parity (s : State) (id : Nat) (g : Extent → Extent) : (s.modExtent id g).parity = s.parity := rfl
@[simp] theorem State.modExtent_grainVers (s : State) (id : Nat) (g : Extent → Extent) : (s.modExtent id g).grainVers = s.grainVers := rfl
@[simp] theorem State.modExtent_moves (s : State) (id : Nat) (g : Extent → Extent) : (s.modExtent id g).moves = s.moves := rfl
@[simp] theorem State.modExtent_staging (s : State) (id : Nat) (g : Extent → Extent) : (s.modExtent id g).staging = s.staging := rfl
@[simp] theorem State.modExtent_demoting (s : State) (id : Nat) (g : Extent → Extent) : (s.modExtent id g).demoting = s.demoting := rfl
@[simp] theorem State.modExtent_weights (s : State) (id : Nat) (g : Extent → Extent) : (s.modExtent id g).weights = s.weights := rfl
@[simp] theorem State.modExtent_direct (s : State) (id : Nat) (g : Extent → Extent) : (s.modExtent id g).direct = s.direct := rfl
@[simp] theorem State.modExtent_directOpen (s : State) (id : Nat) (g : Extent → Extent) : (s.modExtent id g).directOpen = s.directOpen := rfl
@[simp] theorem State.modExtent_directBad (s : State) (id : Nat) (g : Extent → Extent) : (s.modExtent id g).directBad = s.directBad := rfl
@[simp] theorem State.modExtent_viral (s : State) (id : Nat) (g : Extent → Extent) : (s.modExtent id g).viral = s.viral := rfl
@[simp] theorem State.modExtent_dir (s : State) (id : Nat) (g : Extent → Extent) : (s.modExtent id g).dir = s.dir := rfl
@[simp] theorem State.modExtent_dirGens (s : State) (id : Nat) (g : Extent → Extent) : (s.modExtent id g).dirGens = s.dirGens := rfl
@[simp] theorem State.modExtent_dirFree (s : State) (id : Nat) (g : Extent → Extent) : (s.modExtent id g).dirFree = s.dirFree := rfl
@[simp] theorem State.modExtent_array (s : State) (id : Nat) (g : Extent → Extent) : (s.modExtent id g).array = s.array := rfl
@[simp] theorem State.modExtent_tables (s : State) (id : Nat) (g : Extent → Extent) : (s.modExtent id g).tables = s.tables := rfl
@[simp] theorem State.modExtent_streams (s : State) (id : Nat) (g : Extent → Extent) : (s.modExtent id g).streams = s.streams := rfl
@[simp] theorem State.modExtent_rechecks (s : State) (id : Nat) (g : Extent → Extent) : (s.modExtent id g).rechecks = s.rechecks := rfl
@[simp] theorem State.modExtent_tabFree (s : State) (id : Nat) (g : Extent → Extent) : (s.modExtent id g).tabFree = s.tabFree := rfl
@[simp] theorem State.modExtent_impFree (s : State) (id : Nat) (g : Extent → Extent) : (s.modExtent id g).impFree = s.impFree := rfl
@[simp] theorem State.modExtent_engines (s : State) (id : Nat) (g : Extent → Extent) : (s.modExtent id g).engines = s.engines := rfl
@[simp] theorem State.modExtent_passes (s : State) (id : Nat) (g : Extent → Extent) : (s.modExtent id g).passes = s.passes := rfl
@[simp] theorem State.modExtent_curds (s : State) (id : Nat) (g : Extent → Extent) : (s.modExtent id g).curds = s.curds := rfl
@[simp] theorem State.modExtent_calendar (s : State) (id : Nat) (g : Extent → Extent) : (s.modExtent id g).calendar = s.calendar := rfl
@[simp] theorem State.modExtent_monitor (s : State) (id : Nat) (g : Extent → Extent) : (s.modExtent id g).monitor = s.monitor := rfl
@[simp] theorem State.modExtent_queues (s : State) (id : Nat) (g : Extent → Extent) : (s.modExtent id g).queues = s.queues := rfl
@[simp] theorem State.modExtent_egress (s : State) (id : Nat) (g : Extent → Extent) : (s.modExtent id g).egress = s.egress := rfl
@[simp] theorem State.modExtent_ports (s : State) (id : Nat) (g : Extent → Extent) : (s.modExtent id g).ports = s.ports := rfl
@[simp] theorem State.modExtent_clusters (s : State) (id : Nat) (g : Extent → Extent) : (s.modExtent id g).clusters = s.clusters := rfl
@[simp] theorem State.modExtent_txns (s : State) (id : Nat) (g : Extent → Extent) : (s.modExtent id g).txns = s.txns := rfl
@[simp] theorem State.modExtent_extents (s : State) (id : Nat) (g : Extent → Extent) : (s.modExtent id g).extents = mapIf (·.id == id) g s.extents := rfl
@[simp] theorem State.modExtent_volumes (s : State) (id : Nat) (g : Extent → Extent) : (s.modExtent id g).volumes = s.volumes := rfl
@[simp] theorem State.modExtent_peerEpochs (s : State) (id : Nat) (g : Extent → Extent) : (s.modExtent id g).peerEpochs = s.peerEpochs := rfl
@[simp] theorem State.modExtent_tray (s : State) (id : Nat) (g : Extent → Extent) : (s.modExtent id g).tray = s.tray := rfl
@[simp] theorem State.modExtent_dram (s : State) (id : Nat) (g : Extent → Extent) : (s.modExtent id g).dram = s.dram := rfl
@[simp] theorem State.modExtent_groups (s : State) (id : Nat) (g : Extent → Extent) : (s.modExtent id g).groups = s.groups := rfl
@[simp] theorem State.modExtent_island (s : State) (id : Nat) (g : Extent → Extent) : (s.modExtent id g).island = s.island := rfl
@[simp] theorem State.modExtent_tenants (s : State) (id : Nat) (g : Extent → Extent) : (s.modExtent id g).tenants = s.tenants := rfl
@[simp] theorem State.modExtent_dbg (s : State) (id : Nat) (g : Extent → Extent) : (s.modExtent id g).dbg = s.dbg := rfl
@[simp] theorem State.modExtent_recorder (s : State) (id : Nat) (g : Extent → Extent) : (s.modExtent id g).recorder = s.recorder := rfl
@[simp] theorem State.modExtent_faults (s : State) (id : Nat) (g : Extent → Extent) : (s.modExtent id g).faults = s.faults := rfl
@[simp] theorem State.modExtent_mgmt (s : State) (id : Nat) (g : Extent → Extent) : (s.modExtent id g).mgmt = s.mgmt := rfl
@[simp] theorem State.modExtent_power (s : State) (id : Nat) (g : Extent → Extent) : (s.modExtent id g).power = s.power := rfl
@[simp] theorem State.modExtent_telemetry (s : State) (id : Nat) (g : Extent → Extent) : (s.modExtent id g).telemetry = s.telemetry := rfl
@[simp] theorem State.modExtent_coarse (s : State) (id : Nat) (g : Extent → Extent) : (s.modExtent id g).coarse = s.coarse := rfl
@[simp] theorem State.modExtent_trace (s : State) (id : Nat) (g : Extent → Extent) : (s.modExtent id g).trace = s.trace := rfl
@[simp] theorem State.modExtent_out (s : State) (id : Nat) (g : Extent → Extent) : (s.modExtent id g).out = s.out := rfl

/-! ### modMove -/

@[simp] theorem State.modMove_pending (s : State) (id : Nat) (g : Move → Move) : (s.modMove id g).pending = s.pending := rfl
@[simp] theorem State.modMove_now (s : State) (id : Nat) (g : Move → Move) : (s.modMove id g).now = s.now := rfl
@[simp] theorem State.modMove_timePage (s : State) (id : Nat) (g : Move → Move) : (s.modMove id g).timePage = s.timePage := rfl
@[simp] theorem State.modMove_ids (s : State) (id : Nat) (g : Move → Move) : (s.modMove id g).ids = s.ids := rfl
@[simp] theorem State.modMove_free (s : State) (id : Nat) (g : Move → Move) : (s.modMove id g).free = s.free := rfl
@[simp] theorem State.modMove_boot (s : State) (id : Nat) (g : Move → Move) : (s.modMove id g).boot = s.boot := rfl
@[simp] theorem State.modMove_flashA (s : State) (id : Nat) (g : Move → Move) : (s.modMove id g).flashA = s.flashA := rfl
@[simp] theorem State.modMove_flashB (s : State) (id : Nat) (g : Move → Move) : (s.modMove id g).flashB = s.flashB := rfl
@[simp] theorem State.modMove_image (s : State) (id : Nat) (g : Move → Move) : (s.modMove id g).image = s.image := rfl
@[simp] theorem State.modMove_update (s : State) (id : Nat) (g : Move → Move) : (s.modMove id g).update = s.update := rfl
@[simp] theorem State.modMove_resets (s : State) (id : Nat) (g : Move → Move) : (s.modMove id g).resets = s.resets := rfl
@[simp] theorem State.modMove_fns (s : State) (id : Nat) (g : Move → Move) : (s.modMove id g).fns = s.fns := rfl
@[simp] theorem State.modMove_reqs (s : State) (id : Nat) (g : Move → Move) : (s.modMove id g).reqs = s.reqs := rfl
@[simp] theorem State.modMove_fences (s : State) (id : Nat) (g : Move → Move) : (s.modMove id g).fences = s.fences := rfl
@[simp] theorem State.modMove_seqs (s : State) (id : Nat) (g : Move → Move) : (s.modMove id g).seqs = s.seqs := rfl
@[simp] theorem State.modMove_seqGens (s : State) (id : Nat) (g : Move → Move) : (s.modMove id g).seqGens = s.seqGens := rfl
@[simp] theorem State.modMove_seqFree (s : State) (id : Nat) (g : Move → Move) : (s.modMove id g).seqFree = s.seqFree := rfl
@[simp] theorem State.modMove_recs (s : State) (id : Nat) (g : Move → Move) : (s.modMove id g).recs = s.recs := rfl
@[simp] theorem State.modMove_pages (s : State) (id : Nat) (g : Move → Move) : (s.modMove id g).pages = s.pages := rfl
@[simp] theorem State.modMove_parity (s : State) (id : Nat) (g : Move → Move) : (s.modMove id g).parity = s.parity := rfl
@[simp] theorem State.modMove_grainVers (s : State) (id : Nat) (g : Move → Move) : (s.modMove id g).grainVers = s.grainVers := rfl
@[simp] theorem State.modMove_moves (s : State) (id : Nat) (g : Move → Move) : (s.modMove id g).moves = mapIf (·.id == id) g s.moves := rfl
@[simp] theorem State.modMove_staging (s : State) (id : Nat) (g : Move → Move) : (s.modMove id g).staging = s.staging := rfl
@[simp] theorem State.modMove_demoting (s : State) (id : Nat) (g : Move → Move) : (s.modMove id g).demoting = s.demoting := rfl
@[simp] theorem State.modMove_weights (s : State) (id : Nat) (g : Move → Move) : (s.modMove id g).weights = s.weights := rfl
@[simp] theorem State.modMove_direct (s : State) (id : Nat) (g : Move → Move) : (s.modMove id g).direct = s.direct := rfl
@[simp] theorem State.modMove_directOpen (s : State) (id : Nat) (g : Move → Move) : (s.modMove id g).directOpen = s.directOpen := rfl
@[simp] theorem State.modMove_directBad (s : State) (id : Nat) (g : Move → Move) : (s.modMove id g).directBad = s.directBad := rfl
@[simp] theorem State.modMove_viral (s : State) (id : Nat) (g : Move → Move) : (s.modMove id g).viral = s.viral := rfl
@[simp] theorem State.modMove_dir (s : State) (id : Nat) (g : Move → Move) : (s.modMove id g).dir = s.dir := rfl
@[simp] theorem State.modMove_dirGens (s : State) (id : Nat) (g : Move → Move) : (s.modMove id g).dirGens = s.dirGens := rfl
@[simp] theorem State.modMove_dirFree (s : State) (id : Nat) (g : Move → Move) : (s.modMove id g).dirFree = s.dirFree := rfl
@[simp] theorem State.modMove_array (s : State) (id : Nat) (g : Move → Move) : (s.modMove id g).array = s.array := rfl
@[simp] theorem State.modMove_tables (s : State) (id : Nat) (g : Move → Move) : (s.modMove id g).tables = s.tables := rfl
@[simp] theorem State.modMove_streams (s : State) (id : Nat) (g : Move → Move) : (s.modMove id g).streams = s.streams := rfl
@[simp] theorem State.modMove_rechecks (s : State) (id : Nat) (g : Move → Move) : (s.modMove id g).rechecks = s.rechecks := rfl
@[simp] theorem State.modMove_tabFree (s : State) (id : Nat) (g : Move → Move) : (s.modMove id g).tabFree = s.tabFree := rfl
@[simp] theorem State.modMove_impFree (s : State) (id : Nat) (g : Move → Move) : (s.modMove id g).impFree = s.impFree := rfl
@[simp] theorem State.modMove_engines (s : State) (id : Nat) (g : Move → Move) : (s.modMove id g).engines = s.engines := rfl
@[simp] theorem State.modMove_passes (s : State) (id : Nat) (g : Move → Move) : (s.modMove id g).passes = s.passes := rfl
@[simp] theorem State.modMove_curds (s : State) (id : Nat) (g : Move → Move) : (s.modMove id g).curds = s.curds := rfl
@[simp] theorem State.modMove_calendar (s : State) (id : Nat) (g : Move → Move) : (s.modMove id g).calendar = s.calendar := rfl
@[simp] theorem State.modMove_monitor (s : State) (id : Nat) (g : Move → Move) : (s.modMove id g).monitor = s.monitor := rfl
@[simp] theorem State.modMove_queues (s : State) (id : Nat) (g : Move → Move) : (s.modMove id g).queues = s.queues := rfl
@[simp] theorem State.modMove_egress (s : State) (id : Nat) (g : Move → Move) : (s.modMove id g).egress = s.egress := rfl
@[simp] theorem State.modMove_ports (s : State) (id : Nat) (g : Move → Move) : (s.modMove id g).ports = s.ports := rfl
@[simp] theorem State.modMove_clusters (s : State) (id : Nat) (g : Move → Move) : (s.modMove id g).clusters = s.clusters := rfl
@[simp] theorem State.modMove_txns (s : State) (id : Nat) (g : Move → Move) : (s.modMove id g).txns = s.txns := rfl
@[simp] theorem State.modMove_extents (s : State) (id : Nat) (g : Move → Move) : (s.modMove id g).extents = s.extents := rfl
@[simp] theorem State.modMove_volumes (s : State) (id : Nat) (g : Move → Move) : (s.modMove id g).volumes = s.volumes := rfl
@[simp] theorem State.modMove_peerEpochs (s : State) (id : Nat) (g : Move → Move) : (s.modMove id g).peerEpochs = s.peerEpochs := rfl
@[simp] theorem State.modMove_tray (s : State) (id : Nat) (g : Move → Move) : (s.modMove id g).tray = s.tray := rfl
@[simp] theorem State.modMove_dram (s : State) (id : Nat) (g : Move → Move) : (s.modMove id g).dram = s.dram := rfl
@[simp] theorem State.modMove_groups (s : State) (id : Nat) (g : Move → Move) : (s.modMove id g).groups = s.groups := rfl
@[simp] theorem State.modMove_island (s : State) (id : Nat) (g : Move → Move) : (s.modMove id g).island = s.island := rfl
@[simp] theorem State.modMove_tenants (s : State) (id : Nat) (g : Move → Move) : (s.modMove id g).tenants = s.tenants := rfl
@[simp] theorem State.modMove_dbg (s : State) (id : Nat) (g : Move → Move) : (s.modMove id g).dbg = s.dbg := rfl
@[simp] theorem State.modMove_recorder (s : State) (id : Nat) (g : Move → Move) : (s.modMove id g).recorder = s.recorder := rfl
@[simp] theorem State.modMove_faults (s : State) (id : Nat) (g : Move → Move) : (s.modMove id g).faults = s.faults := rfl
@[simp] theorem State.modMove_mgmt (s : State) (id : Nat) (g : Move → Move) : (s.modMove id g).mgmt = s.mgmt := rfl
@[simp] theorem State.modMove_power (s : State) (id : Nat) (g : Move → Move) : (s.modMove id g).power = s.power := rfl
@[simp] theorem State.modMove_telemetry (s : State) (id : Nat) (g : Move → Move) : (s.modMove id g).telemetry = s.telemetry := rfl
@[simp] theorem State.modMove_coarse (s : State) (id : Nat) (g : Move → Move) : (s.modMove id g).coarse = s.coarse := rfl
@[simp] theorem State.modMove_trace (s : State) (id : Nat) (g : Move → Move) : (s.modMove id g).trace = s.trace := rfl
@[simp] theorem State.modMove_out (s : State) (id : Nat) (g : Move → Move) : (s.modMove id g).out = s.out := rfl

/-! ### modTenant -/

@[simp] theorem State.modTenant_pending (s : State) (n : Nat) (g : TenantSt → TenantSt) : (s.modTenant n g).pending = s.pending := rfl
@[simp] theorem State.modTenant_now (s : State) (n : Nat) (g : TenantSt → TenantSt) : (s.modTenant n g).now = s.now := rfl
@[simp] theorem State.modTenant_timePage (s : State) (n : Nat) (g : TenantSt → TenantSt) : (s.modTenant n g).timePage = s.timePage := rfl
@[simp] theorem State.modTenant_ids (s : State) (n : Nat) (g : TenantSt → TenantSt) : (s.modTenant n g).ids = s.ids := rfl
@[simp] theorem State.modTenant_free (s : State) (n : Nat) (g : TenantSt → TenantSt) : (s.modTenant n g).free = s.free := rfl
@[simp] theorem State.modTenant_boot (s : State) (n : Nat) (g : TenantSt → TenantSt) : (s.modTenant n g).boot = s.boot := rfl
@[simp] theorem State.modTenant_flashA (s : State) (n : Nat) (g : TenantSt → TenantSt) : (s.modTenant n g).flashA = s.flashA := rfl
@[simp] theorem State.modTenant_flashB (s : State) (n : Nat) (g : TenantSt → TenantSt) : (s.modTenant n g).flashB = s.flashB := rfl
@[simp] theorem State.modTenant_image (s : State) (n : Nat) (g : TenantSt → TenantSt) : (s.modTenant n g).image = s.image := rfl
@[simp] theorem State.modTenant_update (s : State) (n : Nat) (g : TenantSt → TenantSt) : (s.modTenant n g).update = s.update := rfl
@[simp] theorem State.modTenant_resets (s : State) (n : Nat) (g : TenantSt → TenantSt) : (s.modTenant n g).resets = s.resets := rfl
@[simp] theorem State.modTenant_fns (s : State) (n : Nat) (g : TenantSt → TenantSt) : (s.modTenant n g).fns = s.fns := rfl
@[simp] theorem State.modTenant_reqs (s : State) (n : Nat) (g : TenantSt → TenantSt) : (s.modTenant n g).reqs = s.reqs := rfl
@[simp] theorem State.modTenant_fences (s : State) (n : Nat) (g : TenantSt → TenantSt) : (s.modTenant n g).fences = s.fences := rfl
@[simp] theorem State.modTenant_seqs (s : State) (n : Nat) (g : TenantSt → TenantSt) : (s.modTenant n g).seqs = s.seqs := rfl
@[simp] theorem State.modTenant_seqGens (s : State) (n : Nat) (g : TenantSt → TenantSt) : (s.modTenant n g).seqGens = s.seqGens := rfl
@[simp] theorem State.modTenant_seqFree (s : State) (n : Nat) (g : TenantSt → TenantSt) : (s.modTenant n g).seqFree = s.seqFree := rfl
@[simp] theorem State.modTenant_recs (s : State) (n : Nat) (g : TenantSt → TenantSt) : (s.modTenant n g).recs = s.recs := rfl
@[simp] theorem State.modTenant_pages (s : State) (n : Nat) (g : TenantSt → TenantSt) : (s.modTenant n g).pages = s.pages := rfl
@[simp] theorem State.modTenant_parity (s : State) (n : Nat) (g : TenantSt → TenantSt) : (s.modTenant n g).parity = s.parity := rfl
@[simp] theorem State.modTenant_grainVers (s : State) (n : Nat) (g : TenantSt → TenantSt) : (s.modTenant n g).grainVers = s.grainVers := rfl
@[simp] theorem State.modTenant_moves (s : State) (n : Nat) (g : TenantSt → TenantSt) : (s.modTenant n g).moves = s.moves := rfl
@[simp] theorem State.modTenant_staging (s : State) (n : Nat) (g : TenantSt → TenantSt) : (s.modTenant n g).staging = s.staging := rfl
@[simp] theorem State.modTenant_demoting (s : State) (n : Nat) (g : TenantSt → TenantSt) : (s.modTenant n g).demoting = s.demoting := rfl
@[simp] theorem State.modTenant_weights (s : State) (n : Nat) (g : TenantSt → TenantSt) : (s.modTenant n g).weights = s.weights := rfl
@[simp] theorem State.modTenant_direct (s : State) (n : Nat) (g : TenantSt → TenantSt) : (s.modTenant n g).direct = s.direct := rfl
@[simp] theorem State.modTenant_directOpen (s : State) (n : Nat) (g : TenantSt → TenantSt) : (s.modTenant n g).directOpen = s.directOpen := rfl
@[simp] theorem State.modTenant_directBad (s : State) (n : Nat) (g : TenantSt → TenantSt) : (s.modTenant n g).directBad = s.directBad := rfl
@[simp] theorem State.modTenant_viral (s : State) (n : Nat) (g : TenantSt → TenantSt) : (s.modTenant n g).viral = s.viral := rfl
@[simp] theorem State.modTenant_dir (s : State) (n : Nat) (g : TenantSt → TenantSt) : (s.modTenant n g).dir = s.dir := rfl
@[simp] theorem State.modTenant_dirGens (s : State) (n : Nat) (g : TenantSt → TenantSt) : (s.modTenant n g).dirGens = s.dirGens := rfl
@[simp] theorem State.modTenant_dirFree (s : State) (n : Nat) (g : TenantSt → TenantSt) : (s.modTenant n g).dirFree = s.dirFree := rfl
@[simp] theorem State.modTenant_array (s : State) (n : Nat) (g : TenantSt → TenantSt) : (s.modTenant n g).array = s.array := rfl
@[simp] theorem State.modTenant_tables (s : State) (n : Nat) (g : TenantSt → TenantSt) : (s.modTenant n g).tables = s.tables := rfl
@[simp] theorem State.modTenant_streams (s : State) (n : Nat) (g : TenantSt → TenantSt) : (s.modTenant n g).streams = s.streams := rfl
@[simp] theorem State.modTenant_rechecks (s : State) (n : Nat) (g : TenantSt → TenantSt) : (s.modTenant n g).rechecks = s.rechecks := rfl
@[simp] theorem State.modTenant_tabFree (s : State) (n : Nat) (g : TenantSt → TenantSt) : (s.modTenant n g).tabFree = s.tabFree := rfl
@[simp] theorem State.modTenant_impFree (s : State) (n : Nat) (g : TenantSt → TenantSt) : (s.modTenant n g).impFree = s.impFree := rfl
@[simp] theorem State.modTenant_engines (s : State) (n : Nat) (g : TenantSt → TenantSt) : (s.modTenant n g).engines = s.engines := rfl
@[simp] theorem State.modTenant_passes (s : State) (n : Nat) (g : TenantSt → TenantSt) : (s.modTenant n g).passes = s.passes := rfl
@[simp] theorem State.modTenant_curds (s : State) (n : Nat) (g : TenantSt → TenantSt) : (s.modTenant n g).curds = s.curds := rfl
@[simp] theorem State.modTenant_calendar (s : State) (n : Nat) (g : TenantSt → TenantSt) : (s.modTenant n g).calendar = s.calendar := rfl
@[simp] theorem State.modTenant_monitor (s : State) (n : Nat) (g : TenantSt → TenantSt) : (s.modTenant n g).monitor = s.monitor := rfl
@[simp] theorem State.modTenant_queues (s : State) (n : Nat) (g : TenantSt → TenantSt) : (s.modTenant n g).queues = s.queues := rfl
@[simp] theorem State.modTenant_egress (s : State) (n : Nat) (g : TenantSt → TenantSt) : (s.modTenant n g).egress = s.egress := rfl
@[simp] theorem State.modTenant_ports (s : State) (n : Nat) (g : TenantSt → TenantSt) : (s.modTenant n g).ports = s.ports := rfl
@[simp] theorem State.modTenant_clusters (s : State) (n : Nat) (g : TenantSt → TenantSt) : (s.modTenant n g).clusters = s.clusters := rfl
@[simp] theorem State.modTenant_txns (s : State) (n : Nat) (g : TenantSt → TenantSt) : (s.modTenant n g).txns = s.txns := rfl
@[simp] theorem State.modTenant_extents (s : State) (n : Nat) (g : TenantSt → TenantSt) : (s.modTenant n g).extents = s.extents := rfl
@[simp] theorem State.modTenant_volumes (s : State) (n : Nat) (g : TenantSt → TenantSt) : (s.modTenant n g).volumes = s.volumes := rfl
@[simp] theorem State.modTenant_peerEpochs (s : State) (n : Nat) (g : TenantSt → TenantSt) : (s.modTenant n g).peerEpochs = s.peerEpochs := rfl
@[simp] theorem State.modTenant_tray (s : State) (n : Nat) (g : TenantSt → TenantSt) : (s.modTenant n g).tray = s.tray := rfl
@[simp] theorem State.modTenant_dram (s : State) (n : Nat) (g : TenantSt → TenantSt) : (s.modTenant n g).dram = s.dram := rfl
@[simp] theorem State.modTenant_groups (s : State) (n : Nat) (g : TenantSt → TenantSt) : (s.modTenant n g).groups = s.groups := rfl
@[simp] theorem State.modTenant_island (s : State) (n : Nat) (g : TenantSt → TenantSt) : (s.modTenant n g).island = s.island := rfl
@[simp] theorem State.modTenant_tenants (s : State) (n : Nat) (g : TenantSt → TenantSt) : (s.modTenant n g).tenants = mapIf (·.tenant == n) g s.tenants := rfl
@[simp] theorem State.modTenant_dbg (s : State) (n : Nat) (g : TenantSt → TenantSt) : (s.modTenant n g).dbg = s.dbg := rfl
@[simp] theorem State.modTenant_recorder (s : State) (n : Nat) (g : TenantSt → TenantSt) : (s.modTenant n g).recorder = s.recorder := rfl
@[simp] theorem State.modTenant_faults (s : State) (n : Nat) (g : TenantSt → TenantSt) : (s.modTenant n g).faults = s.faults := rfl
@[simp] theorem State.modTenant_mgmt (s : State) (n : Nat) (g : TenantSt → TenantSt) : (s.modTenant n g).mgmt = s.mgmt := rfl
@[simp] theorem State.modTenant_power (s : State) (n : Nat) (g : TenantSt → TenantSt) : (s.modTenant n g).power = s.power := rfl
@[simp] theorem State.modTenant_telemetry (s : State) (n : Nat) (g : TenantSt → TenantSt) : (s.modTenant n g).telemetry = s.telemetry := rfl
@[simp] theorem State.modTenant_coarse (s : State) (n : Nat) (g : TenantSt → TenantSt) : (s.modTenant n g).coarse = s.coarse := rfl
@[simp] theorem State.modTenant_trace (s : State) (n : Nat) (g : TenantSt → TenantSt) : (s.modTenant n g).trace = s.trace := rfl
@[simp] theorem State.modTenant_out (s : State) (n : Nat) (g : TenantSt → TenantSt) : (s.modTenant n g).out = s.out := rfl

/-! ### modEngine -/

@[simp] theorem State.modEngine_pending (s : State) (c p : Nat) (g : Engine → Engine) : (s.modEngine c p g).pending = s.pending := rfl
@[simp] theorem State.modEngine_now (s : State) (c p : Nat) (g : Engine → Engine) : (s.modEngine c p g).now = s.now := rfl
@[simp] theorem State.modEngine_timePage (s : State) (c p : Nat) (g : Engine → Engine) : (s.modEngine c p g).timePage = s.timePage := rfl
@[simp] theorem State.modEngine_ids (s : State) (c p : Nat) (g : Engine → Engine) : (s.modEngine c p g).ids = s.ids := rfl
@[simp] theorem State.modEngine_free (s : State) (c p : Nat) (g : Engine → Engine) : (s.modEngine c p g).free = s.free := rfl
@[simp] theorem State.modEngine_boot (s : State) (c p : Nat) (g : Engine → Engine) : (s.modEngine c p g).boot = s.boot := rfl
@[simp] theorem State.modEngine_flashA (s : State) (c p : Nat) (g : Engine → Engine) : (s.modEngine c p g).flashA = s.flashA := rfl
@[simp] theorem State.modEngine_flashB (s : State) (c p : Nat) (g : Engine → Engine) : (s.modEngine c p g).flashB = s.flashB := rfl
@[simp] theorem State.modEngine_image (s : State) (c p : Nat) (g : Engine → Engine) : (s.modEngine c p g).image = s.image := rfl
@[simp] theorem State.modEngine_update (s : State) (c p : Nat) (g : Engine → Engine) : (s.modEngine c p g).update = s.update := rfl
@[simp] theorem State.modEngine_resets (s : State) (c p : Nat) (g : Engine → Engine) : (s.modEngine c p g).resets = s.resets := rfl
@[simp] theorem State.modEngine_fns (s : State) (c p : Nat) (g : Engine → Engine) : (s.modEngine c p g).fns = s.fns := rfl
@[simp] theorem State.modEngine_reqs (s : State) (c p : Nat) (g : Engine → Engine) : (s.modEngine c p g).reqs = s.reqs := rfl
@[simp] theorem State.modEngine_fences (s : State) (c p : Nat) (g : Engine → Engine) : (s.modEngine c p g).fences = s.fences := rfl
@[simp] theorem State.modEngine_seqs (s : State) (c p : Nat) (g : Engine → Engine) : (s.modEngine c p g).seqs = s.seqs := rfl
@[simp] theorem State.modEngine_seqGens (s : State) (c p : Nat) (g : Engine → Engine) : (s.modEngine c p g).seqGens = s.seqGens := rfl
@[simp] theorem State.modEngine_seqFree (s : State) (c p : Nat) (g : Engine → Engine) : (s.modEngine c p g).seqFree = s.seqFree := rfl
@[simp] theorem State.modEngine_recs (s : State) (c p : Nat) (g : Engine → Engine) : (s.modEngine c p g).recs = s.recs := rfl
@[simp] theorem State.modEngine_pages (s : State) (c p : Nat) (g : Engine → Engine) : (s.modEngine c p g).pages = s.pages := rfl
@[simp] theorem State.modEngine_parity (s : State) (c p : Nat) (g : Engine → Engine) : (s.modEngine c p g).parity = s.parity := rfl
@[simp] theorem State.modEngine_grainVers (s : State) (c p : Nat) (g : Engine → Engine) : (s.modEngine c p g).grainVers = s.grainVers := rfl
@[simp] theorem State.modEngine_moves (s : State) (c p : Nat) (g : Engine → Engine) : (s.modEngine c p g).moves = s.moves := rfl
@[simp] theorem State.modEngine_staging (s : State) (c p : Nat) (g : Engine → Engine) : (s.modEngine c p g).staging = s.staging := rfl
@[simp] theorem State.modEngine_demoting (s : State) (c p : Nat) (g : Engine → Engine) : (s.modEngine c p g).demoting = s.demoting := rfl
@[simp] theorem State.modEngine_weights (s : State) (c p : Nat) (g : Engine → Engine) : (s.modEngine c p g).weights = s.weights := rfl
@[simp] theorem State.modEngine_direct (s : State) (c p : Nat) (g : Engine → Engine) : (s.modEngine c p g).direct = s.direct := rfl
@[simp] theorem State.modEngine_directOpen (s : State) (c p : Nat) (g : Engine → Engine) : (s.modEngine c p g).directOpen = s.directOpen := rfl
@[simp] theorem State.modEngine_directBad (s : State) (c p : Nat) (g : Engine → Engine) : (s.modEngine c p g).directBad = s.directBad := rfl
@[simp] theorem State.modEngine_viral (s : State) (c p : Nat) (g : Engine → Engine) : (s.modEngine c p g).viral = s.viral := rfl
@[simp] theorem State.modEngine_dir (s : State) (c p : Nat) (g : Engine → Engine) : (s.modEngine c p g).dir = s.dir := rfl
@[simp] theorem State.modEngine_dirGens (s : State) (c p : Nat) (g : Engine → Engine) : (s.modEngine c p g).dirGens = s.dirGens := rfl
@[simp] theorem State.modEngine_dirFree (s : State) (c p : Nat) (g : Engine → Engine) : (s.modEngine c p g).dirFree = s.dirFree := rfl
@[simp] theorem State.modEngine_array (s : State) (c p : Nat) (g : Engine → Engine) : (s.modEngine c p g).array = s.array := rfl
@[simp] theorem State.modEngine_tables (s : State) (c p : Nat) (g : Engine → Engine) : (s.modEngine c p g).tables = s.tables := rfl
@[simp] theorem State.modEngine_streams (s : State) (c p : Nat) (g : Engine → Engine) : (s.modEngine c p g).streams = s.streams := rfl
@[simp] theorem State.modEngine_rechecks (s : State) (c p : Nat) (g : Engine → Engine) : (s.modEngine c p g).rechecks = s.rechecks := rfl
@[simp] theorem State.modEngine_tabFree (s : State) (c p : Nat) (g : Engine → Engine) : (s.modEngine c p g).tabFree = s.tabFree := rfl
@[simp] theorem State.modEngine_impFree (s : State) (c p : Nat) (g : Engine → Engine) : (s.modEngine c p g).impFree = s.impFree := rfl
@[simp] theorem State.modEngine_engines (s : State) (c p : Nat) (g : Engine → Engine) : (s.modEngine c p g).engines = mapIf (fun e => e.cluster == c && e.slot == p) g s.engines := rfl
@[simp] theorem State.modEngine_passes (s : State) (c p : Nat) (g : Engine → Engine) : (s.modEngine c p g).passes = s.passes := rfl
@[simp] theorem State.modEngine_curds (s : State) (c p : Nat) (g : Engine → Engine) : (s.modEngine c p g).curds = s.curds := rfl
@[simp] theorem State.modEngine_calendar (s : State) (c p : Nat) (g : Engine → Engine) : (s.modEngine c p g).calendar = s.calendar := rfl
@[simp] theorem State.modEngine_monitor (s : State) (c p : Nat) (g : Engine → Engine) : (s.modEngine c p g).monitor = s.monitor := rfl
@[simp] theorem State.modEngine_queues (s : State) (c p : Nat) (g : Engine → Engine) : (s.modEngine c p g).queues = s.queues := rfl
@[simp] theorem State.modEngine_egress (s : State) (c p : Nat) (g : Engine → Engine) : (s.modEngine c p g).egress = s.egress := rfl
@[simp] theorem State.modEngine_ports (s : State) (c p : Nat) (g : Engine → Engine) : (s.modEngine c p g).ports = s.ports := rfl
@[simp] theorem State.modEngine_clusters (s : State) (c p : Nat) (g : Engine → Engine) : (s.modEngine c p g).clusters = s.clusters := rfl
@[simp] theorem State.modEngine_txns (s : State) (c p : Nat) (g : Engine → Engine) : (s.modEngine c p g).txns = s.txns := rfl
@[simp] theorem State.modEngine_extents (s : State) (c p : Nat) (g : Engine → Engine) : (s.modEngine c p g).extents = s.extents := rfl
@[simp] theorem State.modEngine_volumes (s : State) (c p : Nat) (g : Engine → Engine) : (s.modEngine c p g).volumes = s.volumes := rfl
@[simp] theorem State.modEngine_peerEpochs (s : State) (c p : Nat) (g : Engine → Engine) : (s.modEngine c p g).peerEpochs = s.peerEpochs := rfl
@[simp] theorem State.modEngine_tray (s : State) (c p : Nat) (g : Engine → Engine) : (s.modEngine c p g).tray = s.tray := rfl
@[simp] theorem State.modEngine_dram (s : State) (c p : Nat) (g : Engine → Engine) : (s.modEngine c p g).dram = s.dram := rfl
@[simp] theorem State.modEngine_groups (s : State) (c p : Nat) (g : Engine → Engine) : (s.modEngine c p g).groups = s.groups := rfl
@[simp] theorem State.modEngine_island (s : State) (c p : Nat) (g : Engine → Engine) : (s.modEngine c p g).island = s.island := rfl
@[simp] theorem State.modEngine_tenants (s : State) (c p : Nat) (g : Engine → Engine) : (s.modEngine c p g).tenants = s.tenants := rfl
@[simp] theorem State.modEngine_dbg (s : State) (c p : Nat) (g : Engine → Engine) : (s.modEngine c p g).dbg = s.dbg := rfl
@[simp] theorem State.modEngine_recorder (s : State) (c p : Nat) (g : Engine → Engine) : (s.modEngine c p g).recorder = s.recorder := rfl
@[simp] theorem State.modEngine_faults (s : State) (c p : Nat) (g : Engine → Engine) : (s.modEngine c p g).faults = s.faults := rfl
@[simp] theorem State.modEngine_mgmt (s : State) (c p : Nat) (g : Engine → Engine) : (s.modEngine c p g).mgmt = s.mgmt := rfl
@[simp] theorem State.modEngine_power (s : State) (c p : Nat) (g : Engine → Engine) : (s.modEngine c p g).power = s.power := rfl
@[simp] theorem State.modEngine_telemetry (s : State) (c p : Nat) (g : Engine → Engine) : (s.modEngine c p g).telemetry = s.telemetry := rfl
@[simp] theorem State.modEngine_coarse (s : State) (c p : Nat) (g : Engine → Engine) : (s.modEngine c p g).coarse = s.coarse := rfl
@[simp] theorem State.modEngine_trace (s : State) (c p : Nat) (g : Engine → Engine) : (s.modEngine c p g).trace = s.trace := rfl
@[simp] theorem State.modEngine_out (s : State) (c p : Nat) (g : Engine → Engine) : (s.modEngine c p g).out = s.out := rfl

/-! ### emit -/

@[simp] theorem State.emit_pending (s : State) (o : Output) : (s.emit o).pending = s.pending := rfl
@[simp] theorem State.emit_now (s : State) (o : Output) : (s.emit o).now = s.now := rfl
@[simp] theorem State.emit_timePage (s : State) (o : Output) : (s.emit o).timePage = s.timePage := rfl
@[simp] theorem State.emit_ids (s : State) (o : Output) : (s.emit o).ids = s.ids := rfl
@[simp] theorem State.emit_free (s : State) (o : Output) : (s.emit o).free = s.free := rfl
@[simp] theorem State.emit_boot (s : State) (o : Output) : (s.emit o).boot = s.boot := rfl
@[simp] theorem State.emit_flashA (s : State) (o : Output) : (s.emit o).flashA = s.flashA := rfl
@[simp] theorem State.emit_flashB (s : State) (o : Output) : (s.emit o).flashB = s.flashB := rfl
@[simp] theorem State.emit_image (s : State) (o : Output) : (s.emit o).image = s.image := rfl
@[simp] theorem State.emit_update (s : State) (o : Output) : (s.emit o).update = s.update := rfl
@[simp] theorem State.emit_resets (s : State) (o : Output) : (s.emit o).resets = s.resets := rfl
@[simp] theorem State.emit_fns (s : State) (o : Output) : (s.emit o).fns = s.fns := rfl
@[simp] theorem State.emit_reqs (s : State) (o : Output) : (s.emit o).reqs = s.reqs := rfl
@[simp] theorem State.emit_fences (s : State) (o : Output) : (s.emit o).fences = s.fences := rfl
@[simp] theorem State.emit_seqs (s : State) (o : Output) : (s.emit o).seqs = s.seqs := rfl
@[simp] theorem State.emit_seqGens (s : State) (o : Output) : (s.emit o).seqGens = s.seqGens := rfl
@[simp] theorem State.emit_seqFree (s : State) (o : Output) : (s.emit o).seqFree = s.seqFree := rfl
@[simp] theorem State.emit_recs (s : State) (o : Output) : (s.emit o).recs = s.recs := rfl
@[simp] theorem State.emit_pages (s : State) (o : Output) : (s.emit o).pages = s.pages := rfl
@[simp] theorem State.emit_parity (s : State) (o : Output) : (s.emit o).parity = s.parity := rfl
@[simp] theorem State.emit_grainVers (s : State) (o : Output) : (s.emit o).grainVers = s.grainVers := rfl
@[simp] theorem State.emit_moves (s : State) (o : Output) : (s.emit o).moves = s.moves := rfl
@[simp] theorem State.emit_staging (s : State) (o : Output) : (s.emit o).staging = s.staging := rfl
@[simp] theorem State.emit_demoting (s : State) (o : Output) : (s.emit o).demoting = s.demoting := rfl
@[simp] theorem State.emit_weights (s : State) (o : Output) : (s.emit o).weights = s.weights := rfl
@[simp] theorem State.emit_direct (s : State) (o : Output) : (s.emit o).direct = s.direct := rfl
@[simp] theorem State.emit_directOpen (s : State) (o : Output) : (s.emit o).directOpen = s.directOpen := rfl
@[simp] theorem State.emit_directBad (s : State) (o : Output) : (s.emit o).directBad = s.directBad := rfl
@[simp] theorem State.emit_viral (s : State) (o : Output) : (s.emit o).viral = s.viral := rfl
@[simp] theorem State.emit_dir (s : State) (o : Output) : (s.emit o).dir = s.dir := rfl
@[simp] theorem State.emit_dirGens (s : State) (o : Output) : (s.emit o).dirGens = s.dirGens := rfl
@[simp] theorem State.emit_dirFree (s : State) (o : Output) : (s.emit o).dirFree = s.dirFree := rfl
@[simp] theorem State.emit_array (s : State) (o : Output) : (s.emit o).array = s.array := rfl
@[simp] theorem State.emit_tables (s : State) (o : Output) : (s.emit o).tables = s.tables := rfl
@[simp] theorem State.emit_streams (s : State) (o : Output) : (s.emit o).streams = s.streams := rfl
@[simp] theorem State.emit_rechecks (s : State) (o : Output) : (s.emit o).rechecks = s.rechecks := rfl
@[simp] theorem State.emit_tabFree (s : State) (o : Output) : (s.emit o).tabFree = s.tabFree := rfl
@[simp] theorem State.emit_impFree (s : State) (o : Output) : (s.emit o).impFree = s.impFree := rfl
@[simp] theorem State.emit_engines (s : State) (o : Output) : (s.emit o).engines = s.engines := rfl
@[simp] theorem State.emit_passes (s : State) (o : Output) : (s.emit o).passes = s.passes := rfl
@[simp] theorem State.emit_curds (s : State) (o : Output) : (s.emit o).curds = s.curds := rfl
@[simp] theorem State.emit_calendar (s : State) (o : Output) : (s.emit o).calendar = s.calendar := rfl
@[simp] theorem State.emit_monitor (s : State) (o : Output) : (s.emit o).monitor = s.monitor := rfl
@[simp] theorem State.emit_queues (s : State) (o : Output) : (s.emit o).queues = s.queues := rfl
@[simp] theorem State.emit_egress (s : State) (o : Output) : (s.emit o).egress = s.egress := rfl
@[simp] theorem State.emit_ports (s : State) (o : Output) : (s.emit o).ports = s.ports := rfl
@[simp] theorem State.emit_clusters (s : State) (o : Output) : (s.emit o).clusters = s.clusters := rfl
@[simp] theorem State.emit_txns (s : State) (o : Output) : (s.emit o).txns = s.txns := rfl
@[simp] theorem State.emit_extents (s : State) (o : Output) : (s.emit o).extents = s.extents := rfl
@[simp] theorem State.emit_volumes (s : State) (o : Output) : (s.emit o).volumes = s.volumes := rfl
@[simp] theorem State.emit_peerEpochs (s : State) (o : Output) : (s.emit o).peerEpochs = s.peerEpochs := rfl
@[simp] theorem State.emit_tray (s : State) (o : Output) : (s.emit o).tray = s.tray := rfl
@[simp] theorem State.emit_dram (s : State) (o : Output) : (s.emit o).dram = s.dram := rfl
@[simp] theorem State.emit_groups (s : State) (o : Output) : (s.emit o).groups = s.groups := rfl
@[simp] theorem State.emit_island (s : State) (o : Output) : (s.emit o).island = s.island := rfl
@[simp] theorem State.emit_tenants (s : State) (o : Output) : (s.emit o).tenants = s.tenants := rfl
@[simp] theorem State.emit_dbg (s : State) (o : Output) : (s.emit o).dbg = s.dbg := rfl
@[simp] theorem State.emit_recorder (s : State) (o : Output) : (s.emit o).recorder = s.recorder := rfl
@[simp] theorem State.emit_faults (s : State) (o : Output) : (s.emit o).faults = s.faults := rfl
@[simp] theorem State.emit_mgmt (s : State) (o : Output) : (s.emit o).mgmt = s.mgmt := rfl
@[simp] theorem State.emit_power (s : State) (o : Output) : (s.emit o).power = s.power := rfl
@[simp] theorem State.emit_telemetry (s : State) (o : Output) : (s.emit o).telemetry = s.telemetry := rfl
@[simp] theorem State.emit_coarse (s : State) (o : Output) : (s.emit o).coarse = s.coarse := rfl
@[simp] theorem State.emit_trace (s : State) (o : Output) : (s.emit o).trace = s.trace := rfl
@[simp] theorem State.emit_out (s : State) (o : Output) : (s.emit o).out = o :: s.out := rfl

/-! ### bumpId -/

@[simp] theorem State.bumpId_pending (s : State) : (s.bumpId).pending = s.pending := rfl
@[simp] theorem State.bumpId_now (s : State) : (s.bumpId).now = s.now := rfl
@[simp] theorem State.bumpId_timePage (s : State) : (s.bumpId).timePage = s.timePage := rfl
@[simp] theorem State.bumpId_ids (s : State) : (s.bumpId).ids = s.ids + 1 := rfl
@[simp] theorem State.bumpId_free (s : State) : (s.bumpId).free = s.free := rfl
@[simp] theorem State.bumpId_boot (s : State) : (s.bumpId).boot = s.boot := rfl
@[simp] theorem State.bumpId_flashA (s : State) : (s.bumpId).flashA = s.flashA := rfl
@[simp] theorem State.bumpId_flashB (s : State) : (s.bumpId).flashB = s.flashB := rfl
@[simp] theorem State.bumpId_image (s : State) : (s.bumpId).image = s.image := rfl
@[simp] theorem State.bumpId_update (s : State) : (s.bumpId).update = s.update := rfl
@[simp] theorem State.bumpId_resets (s : State) : (s.bumpId).resets = s.resets := rfl
@[simp] theorem State.bumpId_fns (s : State) : (s.bumpId).fns = s.fns := rfl
@[simp] theorem State.bumpId_reqs (s : State) : (s.bumpId).reqs = s.reqs := rfl
@[simp] theorem State.bumpId_fences (s : State) : (s.bumpId).fences = s.fences := rfl
@[simp] theorem State.bumpId_seqs (s : State) : (s.bumpId).seqs = s.seqs := rfl
@[simp] theorem State.bumpId_seqGens (s : State) : (s.bumpId).seqGens = s.seqGens := rfl
@[simp] theorem State.bumpId_seqFree (s : State) : (s.bumpId).seqFree = s.seqFree := rfl
@[simp] theorem State.bumpId_recs (s : State) : (s.bumpId).recs = s.recs := rfl
@[simp] theorem State.bumpId_pages (s : State) : (s.bumpId).pages = s.pages := rfl
@[simp] theorem State.bumpId_parity (s : State) : (s.bumpId).parity = s.parity := rfl
@[simp] theorem State.bumpId_grainVers (s : State) : (s.bumpId).grainVers = s.grainVers := rfl
@[simp] theorem State.bumpId_moves (s : State) : (s.bumpId).moves = s.moves := rfl
@[simp] theorem State.bumpId_staging (s : State) : (s.bumpId).staging = s.staging := rfl
@[simp] theorem State.bumpId_demoting (s : State) : (s.bumpId).demoting = s.demoting := rfl
@[simp] theorem State.bumpId_weights (s : State) : (s.bumpId).weights = s.weights := rfl
@[simp] theorem State.bumpId_direct (s : State) : (s.bumpId).direct = s.direct := rfl
@[simp] theorem State.bumpId_directOpen (s : State) : (s.bumpId).directOpen = s.directOpen := rfl
@[simp] theorem State.bumpId_directBad (s : State) : (s.bumpId).directBad = s.directBad := rfl
@[simp] theorem State.bumpId_viral (s : State) : (s.bumpId).viral = s.viral := rfl
@[simp] theorem State.bumpId_dir (s : State) : (s.bumpId).dir = s.dir := rfl
@[simp] theorem State.bumpId_dirGens (s : State) : (s.bumpId).dirGens = s.dirGens := rfl
@[simp] theorem State.bumpId_dirFree (s : State) : (s.bumpId).dirFree = s.dirFree := rfl
@[simp] theorem State.bumpId_array (s : State) : (s.bumpId).array = s.array := rfl
@[simp] theorem State.bumpId_tables (s : State) : (s.bumpId).tables = s.tables := rfl
@[simp] theorem State.bumpId_streams (s : State) : (s.bumpId).streams = s.streams := rfl
@[simp] theorem State.bumpId_rechecks (s : State) : (s.bumpId).rechecks = s.rechecks := rfl
@[simp] theorem State.bumpId_tabFree (s : State) : (s.bumpId).tabFree = s.tabFree := rfl
@[simp] theorem State.bumpId_impFree (s : State) : (s.bumpId).impFree = s.impFree := rfl
@[simp] theorem State.bumpId_engines (s : State) : (s.bumpId).engines = s.engines := rfl
@[simp] theorem State.bumpId_passes (s : State) : (s.bumpId).passes = s.passes := rfl
@[simp] theorem State.bumpId_curds (s : State) : (s.bumpId).curds = s.curds := rfl
@[simp] theorem State.bumpId_calendar (s : State) : (s.bumpId).calendar = s.calendar := rfl
@[simp] theorem State.bumpId_monitor (s : State) : (s.bumpId).monitor = s.monitor := rfl
@[simp] theorem State.bumpId_queues (s : State) : (s.bumpId).queues = s.queues := rfl
@[simp] theorem State.bumpId_egress (s : State) : (s.bumpId).egress = s.egress := rfl
@[simp] theorem State.bumpId_ports (s : State) : (s.bumpId).ports = s.ports := rfl
@[simp] theorem State.bumpId_clusters (s : State) : (s.bumpId).clusters = s.clusters := rfl
@[simp] theorem State.bumpId_txns (s : State) : (s.bumpId).txns = s.txns := rfl
@[simp] theorem State.bumpId_extents (s : State) : (s.bumpId).extents = s.extents := rfl
@[simp] theorem State.bumpId_volumes (s : State) : (s.bumpId).volumes = s.volumes := rfl
@[simp] theorem State.bumpId_peerEpochs (s : State) : (s.bumpId).peerEpochs = s.peerEpochs := rfl
@[simp] theorem State.bumpId_tray (s : State) : (s.bumpId).tray = s.tray := rfl
@[simp] theorem State.bumpId_dram (s : State) : (s.bumpId).dram = s.dram := rfl
@[simp] theorem State.bumpId_groups (s : State) : (s.bumpId).groups = s.groups := rfl
@[simp] theorem State.bumpId_island (s : State) : (s.bumpId).island = s.island := rfl
@[simp] theorem State.bumpId_tenants (s : State) : (s.bumpId).tenants = s.tenants := rfl
@[simp] theorem State.bumpId_dbg (s : State) : (s.bumpId).dbg = s.dbg := rfl
@[simp] theorem State.bumpId_recorder (s : State) : (s.bumpId).recorder = s.recorder := rfl
@[simp] theorem State.bumpId_faults (s : State) : (s.bumpId).faults = s.faults := rfl
@[simp] theorem State.bumpId_mgmt (s : State) : (s.bumpId).mgmt = s.mgmt := rfl
@[simp] theorem State.bumpId_power (s : State) : (s.bumpId).power = s.power := rfl
@[simp] theorem State.bumpId_telemetry (s : State) : (s.bumpId).telemetry = s.telemetry := rfl
@[simp] theorem State.bumpId_coarse (s : State) : (s.bumpId).coarse = s.coarse := rfl
@[simp] theorem State.bumpId_trace (s : State) : (s.bumpId).trace = s.trace := rfl
@[simp] theorem State.bumpId_out (s : State) : (s.bumpId).out = s.out := rfl

/-! ### setKey -/

@[simp] theorem State.setKey_pending (s : State) (n e : Nat) (k k2 k3 : BitVec 256) : (s.setKey n e k k2 k3).pending = s.pending := rfl
@[simp] theorem State.setKey_now (s : State) (n e : Nat) (k k2 k3 : BitVec 256) : (s.setKey n e k k2 k3).now = s.now := rfl
@[simp] theorem State.setKey_timePage (s : State) (n e : Nat) (k k2 k3 : BitVec 256) : (s.setKey n e k k2 k3).timePage = s.timePage := rfl
@[simp] theorem State.setKey_ids (s : State) (n e : Nat) (k k2 k3 : BitVec 256) : (s.setKey n e k k2 k3).ids = s.ids := rfl
@[simp] theorem State.setKey_free (s : State) (n e : Nat) (k k2 k3 : BitVec 256) : (s.setKey n e k k2 k3).free = s.free := rfl
@[simp] theorem State.setKey_boot (s : State) (n e : Nat) (k k2 k3 : BitVec 256) : (s.setKey n e k k2 k3).boot = s.boot := rfl
@[simp] theorem State.setKey_flashA (s : State) (n e : Nat) (k k2 k3 : BitVec 256) : (s.setKey n e k k2 k3).flashA = s.flashA := rfl
@[simp] theorem State.setKey_flashB (s : State) (n e : Nat) (k k2 k3 : BitVec 256) : (s.setKey n e k k2 k3).flashB = s.flashB := rfl
@[simp] theorem State.setKey_image (s : State) (n e : Nat) (k k2 k3 : BitVec 256) : (s.setKey n e k k2 k3).image = s.image := rfl
@[simp] theorem State.setKey_update (s : State) (n e : Nat) (k k2 k3 : BitVec 256) : (s.setKey n e k k2 k3).update = s.update := rfl
@[simp] theorem State.setKey_resets (s : State) (n e : Nat) (k k2 k3 : BitVec 256) : (s.setKey n e k k2 k3).resets = s.resets := rfl
@[simp] theorem State.setKey_fns (s : State) (n e : Nat) (k k2 k3 : BitVec 256) : (s.setKey n e k k2 k3).fns = s.fns := rfl
@[simp] theorem State.setKey_reqs (s : State) (n e : Nat) (k k2 k3 : BitVec 256) : (s.setKey n e k k2 k3).reqs = s.reqs := rfl
@[simp] theorem State.setKey_fences (s : State) (n e : Nat) (k k2 k3 : BitVec 256) : (s.setKey n e k k2 k3).fences = s.fences := rfl
@[simp] theorem State.setKey_seqs (s : State) (n e : Nat) (k k2 k3 : BitVec 256) : (s.setKey n e k k2 k3).seqs = s.seqs := rfl
@[simp] theorem State.setKey_seqGens (s : State) (n e : Nat) (k k2 k3 : BitVec 256) : (s.setKey n e k k2 k3).seqGens = s.seqGens := rfl
@[simp] theorem State.setKey_seqFree (s : State) (n e : Nat) (k k2 k3 : BitVec 256) : (s.setKey n e k k2 k3).seqFree = s.seqFree := rfl
@[simp] theorem State.setKey_recs (s : State) (n e : Nat) (k k2 k3 : BitVec 256) : (s.setKey n e k k2 k3).recs = s.recs := rfl
@[simp] theorem State.setKey_pages (s : State) (n e : Nat) (k k2 k3 : BitVec 256) : (s.setKey n e k k2 k3).pages = s.pages := rfl
@[simp] theorem State.setKey_parity (s : State) (n e : Nat) (k k2 k3 : BitVec 256) : (s.setKey n e k k2 k3).parity = s.parity := rfl
@[simp] theorem State.setKey_grainVers (s : State) (n e : Nat) (k k2 k3 : BitVec 256) : (s.setKey n e k k2 k3).grainVers = s.grainVers := rfl
@[simp] theorem State.setKey_moves (s : State) (n e : Nat) (k k2 k3 : BitVec 256) : (s.setKey n e k k2 k3).moves = s.moves := rfl
@[simp] theorem State.setKey_staging (s : State) (n e : Nat) (k k2 k3 : BitVec 256) : (s.setKey n e k k2 k3).staging = s.staging := rfl
@[simp] theorem State.setKey_demoting (s : State) (n e : Nat) (k k2 k3 : BitVec 256) : (s.setKey n e k k2 k3).demoting = s.demoting := rfl
@[simp] theorem State.setKey_weights (s : State) (n e : Nat) (k k2 k3 : BitVec 256) : (s.setKey n e k k2 k3).weights = s.weights := rfl
@[simp] theorem State.setKey_direct (s : State) (n e : Nat) (k k2 k3 : BitVec 256) : (s.setKey n e k k2 k3).direct = s.direct := rfl
@[simp] theorem State.setKey_directOpen (s : State) (n e : Nat) (k k2 k3 : BitVec 256) : (s.setKey n e k k2 k3).directOpen = s.directOpen := rfl
@[simp] theorem State.setKey_directBad (s : State) (n e : Nat) (k k2 k3 : BitVec 256) : (s.setKey n e k k2 k3).directBad = s.directBad := rfl
@[simp] theorem State.setKey_viral (s : State) (n e : Nat) (k k2 k3 : BitVec 256) : (s.setKey n e k k2 k3).viral = s.viral := rfl
@[simp] theorem State.setKey_dir (s : State) (n e : Nat) (k k2 k3 : BitVec 256) : (s.setKey n e k k2 k3).dir = s.dir := rfl
@[simp] theorem State.setKey_dirGens (s : State) (n e : Nat) (k k2 k3 : BitVec 256) : (s.setKey n e k k2 k3).dirGens = s.dirGens := rfl
@[simp] theorem State.setKey_dirFree (s : State) (n e : Nat) (k k2 k3 : BitVec 256) : (s.setKey n e k k2 k3).dirFree = s.dirFree := rfl
@[simp] theorem State.setKey_array (s : State) (n e : Nat) (k k2 k3 : BitVec 256) : (s.setKey n e k k2 k3).array = s.array := rfl
@[simp] theorem State.setKey_tables (s : State) (n e : Nat) (k k2 k3 : BitVec 256) : (s.setKey n e k k2 k3).tables = s.tables := rfl
@[simp] theorem State.setKey_streams (s : State) (n e : Nat) (k k2 k3 : BitVec 256) : (s.setKey n e k k2 k3).streams = s.streams := rfl
@[simp] theorem State.setKey_rechecks (s : State) (n e : Nat) (k k2 k3 : BitVec 256) : (s.setKey n e k k2 k3).rechecks = s.rechecks := rfl
@[simp] theorem State.setKey_tabFree (s : State) (n e : Nat) (k k2 k3 : BitVec 256) : (s.setKey n e k k2 k3).tabFree = s.tabFree := rfl
@[simp] theorem State.setKey_impFree (s : State) (n e : Nat) (k k2 k3 : BitVec 256) : (s.setKey n e k k2 k3).impFree = s.impFree := rfl
@[simp] theorem State.setKey_engines (s : State) (n e : Nat) (k k2 k3 : BitVec 256) : (s.setKey n e k k2 k3).engines = s.engines := rfl
@[simp] theorem State.setKey_passes (s : State) (n e : Nat) (k k2 k3 : BitVec 256) : (s.setKey n e k k2 k3).passes = s.passes := rfl
@[simp] theorem State.setKey_curds (s : State) (n e : Nat) (k k2 k3 : BitVec 256) : (s.setKey n e k k2 k3).curds = s.curds := rfl
@[simp] theorem State.setKey_calendar (s : State) (n e : Nat) (k k2 k3 : BitVec 256) : (s.setKey n e k k2 k3).calendar = s.calendar := rfl
@[simp] theorem State.setKey_monitor (s : State) (n e : Nat) (k k2 k3 : BitVec 256) : (s.setKey n e k k2 k3).monitor = s.monitor := rfl
@[simp] theorem State.setKey_queues (s : State) (n e : Nat) (k k2 k3 : BitVec 256) : (s.setKey n e k k2 k3).queues = s.queues := rfl
@[simp] theorem State.setKey_egress (s : State) (n e : Nat) (k k2 k3 : BitVec 256) : (s.setKey n e k k2 k3).egress = s.egress := rfl
@[simp] theorem State.setKey_ports (s : State) (n e : Nat) (k k2 k3 : BitVec 256) : (s.setKey n e k k2 k3).ports = s.ports := rfl
@[simp] theorem State.setKey_clusters (s : State) (n e : Nat) (k k2 k3 : BitVec 256) : (s.setKey n e k k2 k3).clusters = s.clusters := rfl
@[simp] theorem State.setKey_txns (s : State) (n e : Nat) (k k2 k3 : BitVec 256) : (s.setKey n e k k2 k3).txns = s.txns := rfl
@[simp] theorem State.setKey_extents (s : State) (n e : Nat) (k k2 k3 : BitVec 256) : (s.setKey n e k k2 k3).extents = s.extents := rfl
@[simp] theorem State.setKey_volumes (s : State) (n e : Nat) (k k2 k3 : BitVec 256) : (s.setKey n e k k2 k3).volumes = s.volumes := rfl
@[simp] theorem State.setKey_peerEpochs (s : State) (n e : Nat) (k k2 k3 : BitVec 256) : (s.setKey n e k k2 k3).peerEpochs = s.peerEpochs := rfl
@[simp] theorem State.setKey_tray (s : State) (n e : Nat) (k k2 k3 : BitVec 256) : (s.setKey n e k k2 k3).tray = s.tray := rfl
@[simp] theorem State.setKey_dram (s : State) (n e : Nat) (k k2 k3 : BitVec 256) : (s.setKey n e k k2 k3).dram = s.dram := rfl
@[simp] theorem State.setKey_groups (s : State) (n e : Nat) (k k2 k3 : BitVec 256) : (s.setKey n e k k2 k3).groups = s.groups := rfl
@[simp] theorem State.setKey_island (s : State) (n e : Nat) (k k2 k3 : BitVec 256) : (s.setKey n e k k2 k3).island =
    { s.island with keys := { n := n, epoch := e, key := k, key2 := k2, key3 := k3, use := (slotUse s.isTray n).1, owner := (slotUse s.isTray n).2,
                              regs := slotUnits n } :: s.island.keys.filter fun x => x.n != n } := rfl
@[simp] theorem State.setKey_tenants (s : State) (n e : Nat) (k k2 k3 : BitVec 256) : (s.setKey n e k k2 k3).tenants = s.tenants := rfl
@[simp] theorem State.setKey_dbg (s : State) (n e : Nat) (k k2 k3 : BitVec 256) : (s.setKey n e k k2 k3).dbg = s.dbg := rfl
@[simp] theorem State.setKey_recorder (s : State) (n e : Nat) (k k2 k3 : BitVec 256) : (s.setKey n e k k2 k3).recorder = s.recorder := rfl
@[simp] theorem State.setKey_faults (s : State) (n e : Nat) (k k2 k3 : BitVec 256) : (s.setKey n e k k2 k3).faults = s.faults := rfl
@[simp] theorem State.setKey_mgmt (s : State) (n e : Nat) (k k2 k3 : BitVec 256) : (s.setKey n e k k2 k3).mgmt = s.mgmt := rfl
@[simp] theorem State.setKey_power (s : State) (n e : Nat) (k k2 k3 : BitVec 256) : (s.setKey n e k k2 k3).power = s.power := rfl
@[simp] theorem State.setKey_telemetry (s : State) (n e : Nat) (k k2 k3 : BitVec 256) : (s.setKey n e k k2 k3).telemetry = s.telemetry := rfl
@[simp] theorem State.setKey_coarse (s : State) (n e : Nat) (k k2 k3 : BitVec 256) : (s.setKey n e k k2 k3).coarse = s.coarse := rfl
@[simp] theorem State.setKey_trace (s : State) (n e : Nat) (k k2 k3 : BitVec 256) : (s.setKey n e k k2 k3).trace = s.trace := rfl
@[simp] theorem State.setKey_out (s : State) (n e : Nat) (k k2 k3 : BitVec 256) : (s.setKey n e k k2 k3).out = s.out := rfl

/-! ### zeroise -/

@[simp] theorem State.zeroise_pending (s : State) (n : Nat) : (s.zeroise n).pending = s.pending := rfl
@[simp] theorem State.zeroise_now (s : State) (n : Nat) : (s.zeroise n).now = s.now := rfl
@[simp] theorem State.zeroise_timePage (s : State) (n : Nat) : (s.zeroise n).timePage = s.timePage := rfl
@[simp] theorem State.zeroise_ids (s : State) (n : Nat) : (s.zeroise n).ids = s.ids := rfl
@[simp] theorem State.zeroise_free (s : State) (n : Nat) : (s.zeroise n).free = s.free := rfl
@[simp] theorem State.zeroise_boot (s : State) (n : Nat) : (s.zeroise n).boot = s.boot := rfl
@[simp] theorem State.zeroise_flashA (s : State) (n : Nat) : (s.zeroise n).flashA = s.flashA := rfl
@[simp] theorem State.zeroise_flashB (s : State) (n : Nat) : (s.zeroise n).flashB = s.flashB := rfl
@[simp] theorem State.zeroise_image (s : State) (n : Nat) : (s.zeroise n).image = s.image := rfl
@[simp] theorem State.zeroise_update (s : State) (n : Nat) : (s.zeroise n).update = s.update := rfl
@[simp] theorem State.zeroise_resets (s : State) (n : Nat) : (s.zeroise n).resets = s.resets := rfl
@[simp] theorem State.zeroise_fns (s : State) (n : Nat) : (s.zeroise n).fns = s.fns := rfl
@[simp] theorem State.zeroise_reqs (s : State) (n : Nat) : (s.zeroise n).reqs = s.reqs := rfl
@[simp] theorem State.zeroise_fences (s : State) (n : Nat) : (s.zeroise n).fences = s.fences := rfl
@[simp] theorem State.zeroise_seqs (s : State) (n : Nat) : (s.zeroise n).seqs = s.seqs := rfl
@[simp] theorem State.zeroise_seqGens (s : State) (n : Nat) : (s.zeroise n).seqGens = s.seqGens := rfl
@[simp] theorem State.zeroise_seqFree (s : State) (n : Nat) : (s.zeroise n).seqFree = s.seqFree := rfl
@[simp] theorem State.zeroise_recs (s : State) (n : Nat) : (s.zeroise n).recs = s.recs := rfl
@[simp] theorem State.zeroise_pages (s : State) (n : Nat) : (s.zeroise n).pages = s.pages := rfl
@[simp] theorem State.zeroise_parity (s : State) (n : Nat) : (s.zeroise n).parity = s.parity := rfl
@[simp] theorem State.zeroise_grainVers (s : State) (n : Nat) : (s.zeroise n).grainVers = s.grainVers := rfl
@[simp] theorem State.zeroise_moves (s : State) (n : Nat) : (s.zeroise n).moves = s.moves := rfl
@[simp] theorem State.zeroise_staging (s : State) (n : Nat) : (s.zeroise n).staging = s.staging := rfl
@[simp] theorem State.zeroise_demoting (s : State) (n : Nat) : (s.zeroise n).demoting = s.demoting := rfl
@[simp] theorem State.zeroise_weights (s : State) (n : Nat) : (s.zeroise n).weights = s.weights := rfl
@[simp] theorem State.zeroise_direct (s : State) (n : Nat) : (s.zeroise n).direct = s.direct := rfl
@[simp] theorem State.zeroise_directOpen (s : State) (n : Nat) : (s.zeroise n).directOpen = s.directOpen := rfl
@[simp] theorem State.zeroise_directBad (s : State) (n : Nat) : (s.zeroise n).directBad = s.directBad := rfl
@[simp] theorem State.zeroise_viral (s : State) (n : Nat) : (s.zeroise n).viral = s.viral := rfl
@[simp] theorem State.zeroise_dir (s : State) (n : Nat) : (s.zeroise n).dir = s.dir := rfl
@[simp] theorem State.zeroise_dirGens (s : State) (n : Nat) : (s.zeroise n).dirGens = s.dirGens := rfl
@[simp] theorem State.zeroise_dirFree (s : State) (n : Nat) : (s.zeroise n).dirFree = s.dirFree := rfl
@[simp] theorem State.zeroise_array (s : State) (n : Nat) : (s.zeroise n).array = s.array := rfl
@[simp] theorem State.zeroise_tables (s : State) (n : Nat) : (s.zeroise n).tables = s.tables := rfl
@[simp] theorem State.zeroise_streams (s : State) (n : Nat) : (s.zeroise n).streams = s.streams := rfl
@[simp] theorem State.zeroise_rechecks (s : State) (n : Nat) : (s.zeroise n).rechecks = s.rechecks := rfl
@[simp] theorem State.zeroise_tabFree (s : State) (n : Nat) : (s.zeroise n).tabFree = s.tabFree := rfl
@[simp] theorem State.zeroise_impFree (s : State) (n : Nat) : (s.zeroise n).impFree = s.impFree := rfl
@[simp] theorem State.zeroise_engines (s : State) (n : Nat) : (s.zeroise n).engines = s.engines := rfl
@[simp] theorem State.zeroise_passes (s : State) (n : Nat) : (s.zeroise n).passes = s.passes := rfl
@[simp] theorem State.zeroise_curds (s : State) (n : Nat) : (s.zeroise n).curds = s.curds := rfl
@[simp] theorem State.zeroise_calendar (s : State) (n : Nat) : (s.zeroise n).calendar = s.calendar := rfl
@[simp] theorem State.zeroise_monitor (s : State) (n : Nat) : (s.zeroise n).monitor = s.monitor := rfl
@[simp] theorem State.zeroise_queues (s : State) (n : Nat) : (s.zeroise n).queues = s.queues := rfl
@[simp] theorem State.zeroise_egress (s : State) (n : Nat) : (s.zeroise n).egress = s.egress := rfl
@[simp] theorem State.zeroise_ports (s : State) (n : Nat) : (s.zeroise n).ports = s.ports := rfl
@[simp] theorem State.zeroise_clusters (s : State) (n : Nat) : (s.zeroise n).clusters = s.clusters := rfl
@[simp] theorem State.zeroise_txns (s : State) (n : Nat) : (s.zeroise n).txns = s.txns := rfl
@[simp] theorem State.zeroise_extents (s : State) (n : Nat) : (s.zeroise n).extents = s.extents := rfl
@[simp] theorem State.zeroise_volumes (s : State) (n : Nat) : (s.zeroise n).volumes = s.volumes := rfl
@[simp] theorem State.zeroise_peerEpochs (s : State) (n : Nat) : (s.zeroise n).peerEpochs = s.peerEpochs := rfl
@[simp] theorem State.zeroise_tray (s : State) (n : Nat) : (s.zeroise n).tray = s.tray := rfl
@[simp] theorem State.zeroise_dram (s : State) (n : Nat) : (s.zeroise n).dram = s.dram := rfl
@[simp] theorem State.zeroise_groups (s : State) (n : Nat) : (s.zeroise n).groups = s.groups := rfl
@[simp] theorem State.zeroise_island (s : State) (n : Nat) : (s.zeroise n).island = { s.island with keys := s.island.keys.filter fun k => k.n != n } := rfl
@[simp] theorem State.zeroise_tenants (s : State) (n : Nat) : (s.zeroise n).tenants = s.tenants := rfl
@[simp] theorem State.zeroise_dbg (s : State) (n : Nat) : (s.zeroise n).dbg = s.dbg := rfl
@[simp] theorem State.zeroise_recorder (s : State) (n : Nat) : (s.zeroise n).recorder = s.recorder := rfl
@[simp] theorem State.zeroise_faults (s : State) (n : Nat) : (s.zeroise n).faults = s.faults := rfl
@[simp] theorem State.zeroise_mgmt (s : State) (n : Nat) : (s.zeroise n).mgmt = s.mgmt := rfl
@[simp] theorem State.zeroise_power (s : State) (n : Nat) : (s.zeroise n).power = s.power := rfl
@[simp] theorem State.zeroise_telemetry (s : State) (n : Nat) : (s.zeroise n).telemetry = s.telemetry := rfl
@[simp] theorem State.zeroise_coarse (s : State) (n : Nat) : (s.zeroise n).coarse = s.coarse := rfl
@[simp] theorem State.zeroise_trace (s : State) (n : Nat) : (s.zeroise n).trace = s.trace := rfl
@[simp] theorem State.zeroise_out (s : State) (n : Nat) : (s.zeroise n).out = s.out := rfl

/-! ### Outputs, events and free values -/

/-- An event changes the recorder alone. -/
theorem State.event_eq (s : State) (name : String) (code : Option Nat) (source detail : Nat) :
    ∃ r, s.event name code source detail = { s with recorder := r } := by
  unfold State.event
  dsimp only
  split <;> exact ⟨_, rfl⟩

/-- An event enters the queue while it has room, and is counted as dropped when it has none (R354). -/
theorem State.event_queue (s : State) (name : String) (code : Option Nat) (source detail : Nat) (h : s.recorder.queue.length ≤ 1024) :
    (s.event name code source detail).recorder.queue.length ≤ 1024 := by
  unfold State.event
  dsimp only
  split
  · simp only [List.length_append, List.length_cons, List.length_nil]; omega
  · exact h

/-! ### Byte memory -/

theorem Memory.wfFrom_mono (m : Memory) : ∀ {lo lo' : Nat}, lo' ≤ lo → Memory.wfFrom lo m = true → Memory.wfFrom lo' m = true := by
  intro lo lo' h hw
  cases m with
  | nil => rfl
  | cons x rest =>
    obtain ⟨a, v⟩ := x
    simp only [Memory.wfFrom, Bool.and_eq_true, decide_eq_true_eq] at hw ⊢
    exact ⟨⟨by omega, hw.1.2⟩, hw.2⟩

/-- A write keeps the canonical form. -/
theorem Memory.write_wfFrom (m : Memory) (a : Nat) (v : Byte) :
    ∀ lo, lo ≤ a → Memory.wfFrom lo m = true → Memory.wfFrom lo (m.write a v) = true := by
  induction m with
  | nil =>
    intro lo h _
    unfold Memory.write
    split
    · rfl
    · next hv => simp [Memory.wfFrom, h, hv]
  | cons x rest ih =>
    obtain ⟨b, w⟩ := x
    intro lo h hw
    simp only [Memory.wfFrom, Bool.and_eq_true, decide_eq_true_eq] at hw
    obtain ⟨⟨hb, hwn⟩, hr⟩ := hw
    unfold Memory.write
    split
    · next hab =>
      split
      · simp [Memory.wfFrom, hb, hr]; simpa using hwn
      · next hv =>
        simp only [Memory.wfFrom, Bool.and_eq_true, decide_eq_true_eq]
        exact ⟨⟨h, by simpa using hv⟩, ⟨by omega, hwn⟩, hr⟩
    · next hab =>
      split
      · next he =>
        subst he
        split
        · exact Memory.wfFrom_mono rest (by omega) hr
        · next hv =>
          simp only [Memory.wfFrom, Bool.and_eq_true, decide_eq_true_eq]
          exact ⟨⟨h, by simpa using hv⟩, hr⟩
      · next he =>
        simp only [Memory.wfFrom, Bool.and_eq_true, decide_eq_true_eq]
        exact ⟨⟨hb, hwn⟩, ih _ (by omega) hr⟩

/-- A write keeps the canonical form of a whole memory. -/
theorem Memory.write_wf (m : Memory) (a : Nat) (v : Byte) (h : m.wf = true) : (m.write a v).wf = true :=
  Memory.write_wfFrom m a v 0 (Nat.zero_le _) h

/-- Writing a byte string keeps the canonical form. -/
theorem Memory.writeN_wf (bs : Bytes) : ∀ (m : Memory) (a : Nat), m.wf = true → (m.writeN a bs).wf = true := by
  induction bs with
  | nil => intro m a h; exact h
  | cons b bs ih => intro m a h; exact ih _ _ (Memory.write_wf m a b h)

/-- What lies below every listed address reads as an unlisted address does. -/
theorem Memory.read_below (m : Memory) (a lo : Nat) (h : Memory.wfFrom lo m = true) (hl : a < lo) : m.read a = memDefault := by
  cases m with
  | nil => rfl
  | cons x rest =>
    obtain ⟨b, w⟩ := x
    simp only [Memory.wfFrom, Bool.and_eq_true, decide_eq_true_eq] at h
    unfold Memory.read
    rw [if_neg (by omega), if_pos (by omega)]

/-- A read after a write: the value at the address written, and everywhere else what was there. -/
theorem Memory.read_write_from (m : Memory) (a : Nat) (v : Byte) (x : Nat) :
    ∀ lo, Memory.wfFrom lo m = true → (m.write a v).read x = if x = a then v else m.read x := by
  induction m with
  | nil =>
    intro lo _
    unfold Memory.write
    split
    · next hv => split <;> simp_all [Memory.read]
    · simp only [Memory.read]
      by_cases h : x = a
      · simp [h]
      · rw [if_neg (fun e => h e.symm), if_neg h]; split <;> rfl
  | cons y rest ih =>
    obtain ⟨b, w⟩ := y
    intro lo hw
    simp only [Memory.wfFrom, Bool.and_eq_true, decide_eq_true_eq] at hw
    obtain ⟨⟨hb, hwn⟩, hr⟩ := hw
    unfold Memory.write
    split
    · next hab =>
      split
      · next hv =>
        by_cases h : x = a
        · subst h; rw [if_pos rfl, hv]; unfold Memory.read; rw [if_neg (by omega), if_pos hab]
        · rw [if_neg h]
      · by_cases h : x = a
        · subst h; simp [Memory.read]
        · rw [if_neg h]
          conv_lhs => unfold Memory.read
          rw [if_neg (fun e => h e.symm)]
          split
          · next hx => unfold Memory.read; rw [if_neg (by omega), if_pos (by omega)]
          · rfl
    · next hab =>
      split
      · next he =>
        subst he
        split
        · next hv =>
          by_cases h : x = a
          · subst h; rw [if_pos rfl, hv]; exact Memory.read_below rest _ _ hr (by omega)
          · rw [if_neg h]
            conv_rhs => unfold Memory.read
            rw [if_neg (fun e => h e.symm)]
            split
            · next hx => exact Memory.read_below rest _ _ hr (by omega)
            · rfl
        · by_cases h : x = a
          · subst h; simp [Memory.read]
          · rw [if_neg h]
            have hn : ¬a = x := fun e => h e.symm
            simp only [Memory.read, if_neg hn]
      · next he =>
        unfold Memory.read
        by_cases hbx : b = x
        · rw [if_pos hbx, if_pos hbx, if_neg (by omega)]
        · rw [if_neg hbx, if_neg hbx]
          split
          · next hx => rw [if_neg (by omega)]
          · exact ih _ hr

/-- A read after a write of a memory in canonical form. -/
theorem Memory.read_write (m : Memory) (a : Nat) (v : Byte) (x : Nat) (h : m.wf = true) :
    (m.write a v).read x = if x = a then v else m.read x :=
  Memory.read_write_from m a v x 0 h

/-- Writing a byte string leaves every address outside it as it was. -/
theorem Memory.read_writeN_outside (bs : Bytes) :
    ∀ (m : Memory) (a x : Nat), m.wf = true → (x < a ∨ a + bs.length ≤ x) → (m.writeN a bs).read x = m.read x := by
  induction bs with
  | nil => intro m a x _ _; rfl
  | cons b bs ih =>
    intro m a x h hx
    simp only [List.length_cons] at hx
    unfold Memory.writeN
    rw [ih _ _ _ (Memory.write_wf m a b h) (by omega), Memory.read_write m a b x h, if_neg (by omega)]

/-- Reading back the bytes just written. -/
theorem Memory.readN_writeN (bs : Bytes) :
    ∀ (m : Memory) (a : Nat), m.wf = true → (m.writeN a bs).readN a bs.length = bs := by
  induction bs with
  | nil => intro m a _; rfl
  | cons b bs ih =>
    intro m a h
    have hw := Memory.write_wf m a b h
    simp only [List.length_cons, Memory.readN, Memory.writeN]
    rw [Memory.read_writeN_outside bs _ _ _ hw (by omega), Memory.read_write m a b a h, if_pos rfl, ih _ _ hw]

/-! ### Free lists -/

/-- What a free list hands out is its lowest never-issued id, or the id that has waited longest. -/
theorem FreeList.take_fresh (f : FreeList) (h : f.fresh < f.limit) : f.take = some (f.fresh, { f with fresh := f.fresh + 1 }) := by
  simp [FreeList.take, h]

/-- A handle's generation is never 0 (R23). -/
theorem nextGen_pos (g : Nat) : 1 ≤ nextGen g := by
  unfold nextGen; split <;> omega

theorem nextGen_le (g : Nat) (h : g ≤ 255) : nextGen g ≤ 255 := by
  unfold nextGen; split <;> omega

/-! ### The part of the state that few commands touch -/

/-- What only a reset, the boot, a management command, or a write of the direct region may change. -/
structure Spine where
  pending  : List Instr
  now      : Nat
  timePage : Nat
  image    : Image
  flashA   : Flash
  flashB   : Flash
  dbg      : Debug
  direct   : Memory
  deriving DecidableEq, Repr

def State.spine (s : State) : Spine :=
  { pending := s.pending, now := s.now, timePage := s.timePage, image := s.image, flashA := s.flashA, flashB := s.flashB,
    dbg := s.dbg, direct := s.direct }

/-- A fold of operations that keep the spine keeps it. -/
theorem foldl_spine {α : Type} (f : State → α → State) (h : ∀ s a, (f s a).spine = s.spine) :
    ∀ (l : List α) (s : State), (l.foldl f s).spine = s.spine := by
  intro l
  induction l with
  | nil => intro s; rfl
  | cons a l ih => intro s; exact (ih _).trans (h s a)

theorem foldl_spine_of {α : Type} {f : State → α → State} {l : List α} {s s' : State} (h : s.spine = s'.spine)
    (hf : ∀ s a, (f s a).spine = s.spine) : (l.foldl f s).spine = s'.spine :=
  (foldl_spine f hf l s).trans h

theorem elim_spine_of {α : Type} {o : Option α} {f : α → State} {s s' : State} (h : s.spine = s'.spine)
    (hf : ∀ a, (f a).spine = s'.spine) : (o.elim s f).spine = s'.spine := by
  cases o with
  | none => exact h
  | some a => exact hf a

theorem getD_spine {o : Option State} {s : State} (h : ∀ t, o = some t → t.spine = s.spine) : (o.getD s).spine = s.spine := by
  cases o with
  | none => rfl
  | some t => exact h t rfl

/-- The spine of a record update. -/
@[simp] theorem State.spine_mk (x0 x1 x2 x3 x4 x5 x6 x7 x8 x9 x10 x11 x12 x13 x14 x15 x16 x17 x18 x19 x20 x21 x22 x23 x24 x25 x26 x27 x28 x29 x30 x31 x32 x33 x34 x35 x36 x37 x38 x39 x40 x41 x42 x43 x44 x45 x46 x47 x48 x49 x50 x51 x52 x53 x54 x55 x56 x57 x58 x59 x60 x61 x62 x63 x64) :
    State.spine (State.mk x0 x1 x2 x3 x4 x5 x6 x7 x8 x9 x10 x11 x12 x13 x14 x15 x16 x17 x18 x19 x20 x21 x22 x23 x24 x25 x26 x27 x28 x29 x30 x31 x32 x33 x34 x35 x36 x37 x38 x39 x40 x41 x42 x43 x44 x45 x46 x47 x48 x49 x50 x51 x52 x53 x54 x55 x56 x57 x58 x59 x60 x61 x62 x63 x64) =
      { pending := x0, now := x1, timePage := x2, image := x8, flashA := x6, flashB := x7, dbg := x56, direct := x25 } := rfl

/-- Its fields together are the spine again. -/
@[simp] theorem State.spine_eta (s : State) :
    ({ pending := s.pending, now := s.now, timePage := s.timePage, image := s.image, flashA := s.flashA, flashB := s.flashB, dbg := s.dbg, direct := s.direct } : Spine) = s.spine := rfl

end Sys2Proof.Machine
end

