-- ==== Sys2Proof/Laws/SpineSequences.lean ====
section
/-! SUPPORT. What leaves the spine as it is (Laws/State.lean): one lemma per operation of the operations of Ops and those of sequences, prefixes and tiers. -/

set_option linter.unusedSimpArgs false
set_option linter.unnecessarySeqFocus false
set_option linter.unreachableTactic false
set_option linter.unusedTactic false
set_option linter.unusedVariables false

namespace Sys2Proof.Machine

/-! ### Ops -/

@[simp] theorem State.modFn_spine (s : State) (a1) (a2) : (State.modFn s a1 a2).spine = s.spine := rfl
@[simp] theorem State.modReq_spine (s : State) (a1) (a2) : (State.modReq s a1 a2).spine = s.spine := rfl
@[simp] theorem State.modSeq_spine (s : State) (a1) (a2) : (State.modSeq s a1 a2).spine = s.spine := rfl
@[simp] theorem State.modRec_spine (s : State) (a1) (a2) : (State.modRec s a1 a2).spine = s.spine := rfl
@[simp] theorem State.modDir_spine (s : State) (a1) (a2) : (State.modDir s a1 a2).spine = s.spine := rfl
@[simp] theorem State.modPass_spine (s : State) (a1) (a2) : (State.modPass s a1 a2).spine = s.spine := rfl
@[simp] theorem State.modCurd_spine (s : State) (a1) (a2) : (State.modCurd s a1 a2).spine = s.spine := rfl
@[simp] theorem State.modTable_spine (s : State) (a1) (a2) : (State.modTable s a1 a2).spine = s.spine := rfl
@[simp] theorem State.modPort_spine (s : State) (a1) (a2) : (State.modPort s a1 a2).spine = s.spine := rfl
@[simp] theorem State.modExtent_spine (s : State) (a1) (a2) : (State.modExtent s a1 a2).spine = s.spine := rfl
@[simp] theorem State.modMove_spine (s : State) (a1) (a2) : (State.modMove s a1 a2).spine = s.spine := rfl
@[simp] theorem State.modTenant_spine (s : State) (a1) (a2) : (State.modTenant s a1 a2).spine = s.spine := rfl
@[simp] theorem State.modEngine_spine (s : State) (a1) (a2) (a3) : (State.modEngine s a1 a2 a3).spine = s.spine := rfl
@[simp] theorem State.bumpId_spine (s : State) : (State.bumpId s).spine = s.spine := rfl
@[simp] theorem State.live_spine (s : State) (g : State → State) (h : ∀ s, (g s).spine = s.spine) : (s.live g).spine = s.spine := by unfold State.live; split <;> simp [h]
@[simp] theorem State.emit_spine (s : State) (a1) : (State.emit s a1).spine = s.spine := rfl
@[simp] theorem State.enqueue_spine (s : State) (a1) (a2) (a3) (a4) : (State.enqueue s a1 a2 a3 a4).spine = s.spine := by unfold State.enqueue; dsimp only; (repeat' split) <;> simp [foldl_spine]
@[simp] theorem State.event_spine (s : State) (a1) (a2) (a3) (a4) : (State.event s a1 a2 a3 a4).spine = s.spine := by unfold State.event; dsimp only; (repeat' split) <;> simp [foldl_spine]
@[simp] theorem State.note_spine (s : State) (a1) (a2) (a3) : (State.note s a1 a2 a3).spine = s.spine := by simp [State.note, foldl_spine]
@[simp] theorem State.freeNat_spine (s : State) : (State.freeNat s).2.spine = s.spine := rfl
theorem State.freeNat_spine_of (s : State) (u) (t) (h : (State.freeNat s) = (u, t)) : t.spine = s.spine := by have := State.freeNat_spine s; rw [h] at this; exact this
@[simp] theorem State.zeroise_spine (s : State) (a1) : (State.zeroise s a1).spine = s.spine := rfl
@[simp] theorem State.setKey_spine (s : State) (a1) (a2) (a3) (a4) (a5) : (State.setKey s a1 a2 a3 a4 a5).spine = s.spine := rfl
@[simp] theorem State.draw_spine (s : State) : (State.draw s).2.spine = s.spine := rfl
theorem State.draw_spine_of (s : State) (u) (t) (h : (State.draw s) = (u, t)) : t.spine = s.spine := by have := State.draw_spine s; rw [h] at this; exact this
@[simp] theorem State.fillSlot_spine (s : State) (a1) (a2) : (State.fillSlot s a1 a2).spine = s.spine := by unfold State.fillSlot; dsimp only; (repeat' (first | rfl | assumption | split | refine foldl_spine_of ?_ (fun _ _ => ?_) | refine elim_spine_of ?_ (fun _ => ?_))) <;> simp [foldl_spine]
@[simp] theorem State.modSession_spine (s : State) (a1) (a2) : (State.modSession s a1 a2).spine = s.spine := rfl
@[simp] theorem State.directUndefined_spine (s : State) (a1) (a2) : (State.directUndefined s a1 a2).spine = s.spine := by unfold State.directUndefined; (repeat' split) <;> simp [foldl_spine]
@[simp] theorem State.modLoc_spine (s : State) (a1) (a2) (a3) : (State.modLoc s a1 a2 a3).spine = s.spine := rfl
@[simp] theorem State.putTableId_spine (s : State) (a1) : (State.putTableId s a1).spine = s.spine := by unfold State.putTableId; (repeat' split) <;> simp [foldl_spine]
@[simp] theorem State.tableSweep_spine (s : State) (a1) : (State.tableSweep s a1).spine = s.spine := by unfold State.tableSweep; (repeat' split) <;> simp [foldl_spine]
@[simp] theorem State.tableRef_spine (s : State) (a1) : (State.tableRef s a1).spine = s.spine := by unfold State.tableRef; (repeat' split) <;> simp [foldl_spine]
@[simp] theorem State.tableUnref_spine (s : State) (a1) : (State.tableUnref s a1).spine = s.spine := by unfold State.tableUnref; (repeat' split) <;> simp [foldl_spine]
@[simp] theorem State.modPage_spine (s : State) (a1) (a2) (a3) : (State.modPage s a1 a2 a3).spine = s.spine := rfl
@[simp] theorem State.deallocate_spine (s : State) (a1) : (State.deallocate s a1).spine = s.spine := by unfold State.deallocate; (repeat' split) <;> simp [foldl_spine]
@[simp] theorem State.sweepPages_spine (s : State) : (State.sweepPages s).spine = s.spine := by simp [State.sweepPages, foldl_spine]
@[simp] theorem State.freePage_spine (s : State) (a1) (a2) : (State.freePage s a1 a2).spine = s.spine := by simp [State.freePage, foldl_spine]
@[simp] theorem State.freeLocs_spine (s : State) (a1) : (State.freeLocs s a1).spine = s.spine := by unfold State.freeLocs; dsimp only; (repeat' (first | rfl | assumption | split | refine foldl_spine_of ?_ (fun _ _ => ?_))) <;> simp [foldl_spine]
@[simp] theorem State.putMap_spine (s : State) (a1) (a2) : (State.putMap s a1 a2).spine = s.spine := rfl
@[simp] theorem State.refreshShares_spine (s : State) : (State.refreshShares s).spine = s.spine := rfl
@[simp] theorem State.unrefRec_spine (s : State) (a1) : (State.unrefRec s a1).spine = s.spine := by unfold State.unrefRec; (repeat' split) <;> simp [foldl_spine]
@[simp] theorem State.refRec_spine (s : State) (a1) : (State.refRec s a1).spine = s.spine := rfl
@[simp] theorem State.reclaimVersion_spine (s : State) (a1) (a2) : (State.reclaimVersion s a1 a2).spine = s.spine := by unfold State.reclaimVersion; dsimp only; (repeat' split) <;> simp [foldl_spine]
@[simp] theorem State.faultTable_spine (s : State) (a1) : (State.faultTable s a1).spine = s.spine := by unfold State.faultTable; dsimp only; (repeat' split) <;> simp [foldl_spine]
@[simp] theorem State.loadTable_spine (s : State) (a1) : (State.loadTable s a1).spine = s.spine := by unfold State.loadTable; (repeat' split) <;> simp [foldl_spine]
@[simp] theorem State.putRecord_spine (s : State) (a1) (a2) (a3) (a4) (a5) (a6) (a7) (a8) (a9) : (State.putRecord s a1 a2 a3 a4 a5 a6 a7 a8 a9).spine = s.spine := rfl
@[simp] theorem State.record_spine (s : State) (a1) (a2) (a3) (a4) (a5) (a6) (a7) (a8) : (State.record s a1 a2 a3 a4 a5 a6 a7 a8).spine = s.spine := by unfold State.record; (repeat' split) <;> simp [foldl_spine]
@[simp] theorem State.fenceCount_spine (s : State) (a1) (a2) : (State.fenceCount s a1 a2).spine = s.spine := by unfold State.fenceCount; dsimp only; (repeat' split) <;> simp [foldl_spine]
@[simp] theorem State.trackRecord_spine (s : State) (a1) (a2) : (State.trackRecord s a1 a2).spine = s.spine := rfl
@[simp] theorem State.unpin1_spine (s : State) (a1) : (State.unpin1 s a1).spine = s.spine := by unfold State.unpin1; dsimp only; (repeat' split) <;> simp [foldl_spine]
@[simp] theorem State.unpin_spine (s : State) (a1) : (State.unpin s a1).spine = s.spine := by simp [State.unpin, foldl_spine]
@[simp] theorem State.unblock_spine (s : State) (a1) : (State.unblock s a1).spine = s.spine := rfl
@[simp] theorem State.dropReq_spine (s : State) (a1) : (State.dropReq s a1).spine = s.spine := by simp [State.dropReq, foldl_spine]
@[simp] theorem State.hostPut_spine (s : State) (a1) (a2) (a3) : (State.hostPut s a1 a2 a3).spine = s.spine := by simp [State.hostPut, foldl_spine]
@[simp] theorem State.finish_spine (s : State) (a1) (a2) (a3) (a4) : (State.finish s a1 a2 a3 a4).spine = s.spine := by simp [State.finish, foldl_spine]
@[simp] theorem State.answerWith_spine (s : State) (a1) (a2) (a3) (a4) (a5) (a6) : (State.answerWith s a1 a2 a3 a4 a5 a6).spine = s.spine := by simp [State.answerWith, foldl_spine]
@[simp] theorem State.writeEnds_spine (s : State) (a1) (a2) : (State.writeEnds s a1 a2).spine = s.spine := by unfold State.writeEnds; (repeat' split) <;> simp [foldl_spine]
@[simp] theorem State.markEnd_spine (s : State) (a1) (a2) (a3) (a4) : (State.markEnd s a1 a2 a3 a4).spine = s.spine := rfl
@[simp] theorem State.faultReq_spine (s : State) (a1) (a2) (a3) (a4) : (State.faultReq s a1 a2 a3 a4).spine = s.spine := by unfold State.faultReq; (repeat' split) <;> simp [foldl_spine]
@[simp] theorem State.pinCurrent_spine (s : State) (a1) (a2) : (State.pinCurrent s a1 a2).spine = s.spine := rfl
@[simp] theorem State.pinSecond_spine (s : State) (a1) (a2) : (State.pinSecond s a1 a2).spine = s.spine := rfl

/-! ### Calendars -/

@[simp] theorem State.reserve_spine (s : State) (a1) (a2) : (State.reserve s a1 a2).spine = s.spine := rfl

/-! ### Tiers -/

@[simp] theorem State.setGrainVers_spine (s : State) (a1) (a2) (a3) (a4) : (State.setGrainVers s a1 a2 a3 a4).spine = s.spine := rfl
@[simp] theorem State.foldParity_spine (s : State) (a1) (a2) : (State.foldParity s a1 a2).spine = s.spine := by unfold State.foldParity; dsimp only; (repeat' split) <;> simp [foldl_spine]
@[simp] theorem State.pageParity_spine (s : State) (a1) (a2) (a3) (a4) (a5) (a6) (a7) : (State.pageParity s a1 a2 a3 a4 a5 a6 a7).spine = s.spine := by unfold State.pageParity; (repeat' split) <;> simp [foldl_spine]
@[simp] theorem State.writePage_spine (s : State) (a1) (a2) (a3) (a4) (a5) (a6) (a7) : (State.writePage s a1 a2 a3 a4 a5 a6 a7).2.spine = s.spine := by simp [State.writePage, foldl_spine]
theorem State.writePage_spine_of (s : State) (a1) (a2) (a3) (a4) (a5) (a6) (a7) (u) (t) (h : (State.writePage s a1 a2 a3 a4 a5 a6 a7) = (u, t)) : t.spine = s.spine := by have := State.writePage_spine s a1 a2 a3 a4 a5 a6 a7; rw [h] at this; exact this
@[simp] theorem State.losePage_spine (s : State) (a1) (a2) (a3) : (State.losePage s a1 a2 a3).spine = s.spine := by unfold State.losePage; dsimp only; (repeat' split) <;> simp [foldl_spine]
@[simp] theorem State.askMove_spine (s : State) (a1) (a2) (a3) (a4) (a5) : (State.askMove s a1 a2 a3 a4 a5).spine = s.spine := by unfold State.askMove; dsimp only; (repeat' split) <;> simp [foldl_spine]
@[simp] theorem State.ripen_spine (s : State) (a1) (a2) (a3) : (State.ripen s a1 a2 a3).spine = s.spine := by unfold State.ripen; dsimp only; (repeat' split) <;> simp [foldl_spine]
@[simp] theorem State.dropProxyCopy_spine (s : State) (a1) (a2) : (State.dropProxyCopy s a1 a2).spine = s.spine := by unfold State.dropProxyCopy; (repeat' split) <;> simp [foldl_spine]
@[simp] theorem State.dropCold_spine (s : State) (a1) (l) : (State.dropCold s a1 l).2.spine = s.spine := by
  induction l generalizing s a1 with
  | nil => rfl
  | cons x rest ih =>
    obtain ⟨id, i⟩ := x
    unfold State.dropCold; split <;> simp [ih]
theorem State.dropCold_spine_of (s : State) (a1) (a2) (u) (t) (h : (State.dropCold s a1 a2) = (u, t)) : t.spine = s.spine := by have := State.dropCold_spine s a1 a2; rw [h] at this; exact this
@[simp] theorem State.askDemotions_spine (s : State) (a1) (a2) (a3) (l) : (State.askDemotions s a1 a2 a3 l).spine = s.spine := by
  induction l generalizing s a3 with
  | nil => rfl
  | cons x rest ih =>
    obtain ⟨_, id, i⟩ := x
    unfold State.askDemotions; (repeat' split) <;> simp [ih]
@[simp] theorem State.demoteSpan_spine (s : State) (a1) (a2) (a3) (a4) : (State.demoteSpan s a1 a2 a3 a4).spine = s.spine := by unfold State.demoteSpan; dsimp only; (repeat' split) <;> simp [foldl_spine]
@[simp] theorem State.demoteAll_spine (s : State) : (State.demoteAll s).spine = s.spine := by
  unfold State.demoteAll
  have h : ∀ (s : State) (k : Nat), ((List.range 2).foldl (fun (s : State) (g : Nat) =>
    let (lo, hi) := s.regionSpan k g
    if s.regionOpen k g && decide (lo < hi) then
      s.demoteSpan (1, k, g) s.params.t1LowWater (s.freeRegion k g) fun a => decide (lo ≤ a ∧ a < hi)
    else s) s).spine = s.spine := by
    intro s k; apply foldl_spine; intro s g; (repeat' split) <;> simp
  dsimp only
  split
  · rw [foldl_spine _ h]; simp
  · simp only [State.demoteSpan_spine]; rw [foldl_spine _ h]; simp
@[simp] theorem State.makeRoom_spine (s : State) (a1) (a2) (a3) (a4) (a5) : (State.makeRoom s a1 a2 a3 a4 a5).2.spine = s.spine := by simp [State.makeRoom, foldl_spine]
theorem State.makeRoom_spine_of (s : State) (a1) (a2) (a3) (a4) (a5) (u) (t) (h : (State.makeRoom s a1 a2 a3 a4 a5) = (u, t)) : t.spine = s.spine := by have := State.makeRoom_spine s a1 a2 a3 a4 a5; rw [h] at this; exact this
@[simp] theorem State.settleRehome_spine (s : State) (a1) : (State.settleRehome s a1).spine = s.spine := by unfold State.settleRehome; dsimp only; (repeat' split) <;> simp [foldl_spine]
@[simp] theorem State.promoteHeld_spine (s : State) (a1) : (State.promoteHeld s a1).spine = s.spine := by unfold State.promoteHeld; dsimp only; (repeat' (first | rfl | assumption | split | refine foldl_spine_of ?_ (fun _ _ => ?_))) <;> simp [foldl_spine]

/-! ### Directory -/

@[simp] theorem State.putRow_spine (s : State) (a1) : (State.putRow s a1).spine = s.spine := by unfold State.putRow; dsimp only; (repeat' split) <;> simp [foldl_spine]
@[simp] theorem State.dropKeyRow_spine (s : State) (a1) : (State.dropKeyRow s a1).spine = s.spine := rfl
@[simp] theorem State.dropRows_spine (s : State) (a1) : (State.dropRows s a1).spine = s.spine := rfl
@[simp] theorem State.loadEntry_spine (s : State) (a1) : (State.loadEntry s a1).spine = s.spine := by unfold State.loadEntry; (repeat' split) <;> simp [foldl_spine]
@[simp] theorem State.suspect_spine (s : State) (a1) : (State.suspect s a1).spine = s.spine := rfl
@[simp] theorem State.hitFails_spine (s : State) (a1) (a2) (a3) (a4) : (State.hitFails s a1 a2 a3 a4).spine = s.spine := by simp [State.hitFails, foldl_spine]
@[simp] theorem State.hitsFail_spine (s : State) (a1) (a2) : (State.hitsFail s a1 a2).spine = s.spine := by
  unfold State.hitsFail
  exact foldl_spine _ (fun _ _ => by simp) _ _
@[simp] theorem State.extentFalse_spine (s : State) (a1) : (State.extentFalse s a1).spine = s.spine := by simp [State.extentFalse, foldl_spine]
@[simp] theorem State.searchKey_spine (s : State) (a1) (a2) (a3) (a4) : (State.searchKey s a1 a2 a3 a4).2.spine = s.spine := by simp [State.searchKey, foldl_spine]
theorem State.searchKey_spine_of (s : State) (a1) (a2) (a3) (a4) (u) (t) (h : (State.searchKey s a1 a2 a3 a4) = (u, t)) : t.spine = s.spine := by have := State.searchKey_spine s a1 a2 a3 a4; rw [h] at this; exact this
@[simp] theorem State.emitOn_spine (s : State) (a1) (a2) : (State.emitOn s a1 a2).spine = s.spine := by unfold State.emitOn; (repeat' split) <;> simp [foldl_spine]
@[simp] theorem State.sendFrame_spine (s : State) (a1) (a2) : (State.sendFrame s a1 a2).spine = s.spine := by unfold State.sendFrame; dsimp only; (repeat' split) <;> simp [foldl_spine]
@[simp] theorem State.send_spine (s : State) (a1) (a2) (a3) (a4) (a5) (a6) (a7) (a8) : (State.send s a1 a2 a3 a4 a5 a6 a7 a8).spine = s.spine := by simp [State.send, foldl_spine]
@[simp] theorem State.sendPage_spine (a0) (a1) (a2) (a3) (a4) (a5) (a6) (n) (a8) (s : State) (a10) : (State.sendPage a0 a1 a2 a3 a4 a5 a6 n a8 s a10).spine = s.spine := by
  induction n generalizing a8 s a10 with
  | zero => rfl
  | succ n ih => unfold State.sendPage; dsimp only; split <;> simp [ih]
@[simp] theorem State.openTxn_spine (s : State) (a1) (a2) (a3) (a4) (a5) : (State.openTxn s a1 a2 a3 a4 a5).spine = s.spine := rfl
@[simp] theorem State.request_spine (s : State) (a1) (a2) (a3) (a4) (a5) (a6) (a7) : (State.request s a1 a2 a3 a4 a5 a6 a7).spine = s.spine := by simp [State.request, foldl_spine]
@[simp] theorem State.askTable_spine (s : State) (a1) (a2) : (State.askTable s a1 a2).spine = s.spine := by unfold State.askTable; (repeat' split) <;> simp [foldl_spine]
@[simp] theorem State.nvmeIssue_spine (s : State) (a1) (a2) (a3) (a4) : (State.nvmeIssue s a1 a2 a3 a4).spine = s.spine := by simp [State.nvmeIssue, foldl_spine]
@[simp] theorem State.sendPut_spine (s : State) (a1) (a2) (a3) (a4) (a5) : (State.sendPut s a1 a2 a3 a4 a5).spine = s.spine := by unfold State.sendPut; (repeat' split) <;> simp [foldl_spine]
@[simp] theorem State.pageTransfer_spine (s : State) (a1) (a2) (a3) (a4) (a5) (a6) (a7) : (State.pageTransfer s a1 a2 a3 a4 a5 a6 a7).spine = s.spine := by unfold State.pageTransfer; dsimp only; (repeat' split) <;> simp [foldl_spine]
@[simp] theorem State.sendRelease_spine (s : State) (a1) (a2) : (State.sendRelease s a1 a2).spine = s.spine := by unfold State.sendRelease; (repeat' split) <;> simp [foldl_spine]
@[simp] theorem State.giveBack_spine (s : State) (a1) (a2) : (State.giveBack s a1 a2).spine = s.spine := by unfold State.giveBack; (repeat' split) <;> simp [foldl_spine]
@[simp] theorem State.dropChain_spine (s : State) (a1) (a2) : (State.dropChain s a1 a2).spine = s.spine := by simp [State.dropChain, foldl_spine]
@[simp] theorem State.freeSlot_spine (s : State) (a1) : (State.freeSlot s a1).spine = s.spine := by simp [State.freeSlot, foldl_spine]
@[simp] theorem State.releaseRef_spine (n) (s : State) (slot) : (State.releaseRef n s slot).spine = s.spine := by
  induction n generalizing s slot with
  | zero => rfl
  | succ n ih => unfold State.releaseRef; dsimp only; (repeat' split) <;> simp [ih]
@[simp] theorem State.releaseHandle_spine (s : State) (a1) : (State.releaseHandle s a1).spine = s.spine := by
  unfold State.releaseHandle; split <;> simp
@[simp] theorem State.freeIdle_spine (s : State) (a1) : (State.freeIdle s a1).spine = s.spine := by unfold State.freeIdle; (repeat' split) <;> simp [foldl_spine]
@[simp] theorem State.freeIdleProxies_spine (s : State) : (State.freeIdleProxies s).spine = s.spine := by simp [State.freeIdleProxies, foldl_spine]
@[simp] theorem State.takeParent_spine (s : State) (a1) : (State.takeParent s a1).spine = s.spine := by unfold State.takeParent; (repeat' split) <;> simp [foldl_spine]
@[simp] theorem State.takeRef_spine (s : State) (a1) : (State.takeRef s a1).spine = s.spine := rfl
@[simp] theorem State.addProxy_spine (s : State) (a1) (a2) : (State.addProxy s a1 a2).spine = s.spine := rfl
@[simp] theorem State.withdraw_spine (s : State) (a1) : (State.withdraw s a1).spine = s.spine := by
  unfold State.withdraw
  extract_lets s1 devices s2
  rw [State.freeIdle_spine]
  refine foldl_spine_of ((State.dropKeyRow_spine _ _).trans (State.modDir_spine _ _ _)) ?_
  intro s d; split
  · simp
  · rfl
@[simp] theorem State.faultEntry_spine (s : State) (a1) : (State.faultEntry s a1).spine = s.spine := by
  unfold State.faultEntry
  split
  · rfl
  · rw [State.freeIdle_spine]
    exact (State.note_spine _ _ _ _).trans ((State.dropKeyRow_spine _ _).trans (State.modDir_spine _ _ _))
@[simp] theorem State.faultBad_spine (s : State) : (State.faultBad s).spine = s.spine := by simp [State.faultBad, foldl_spine]
@[simp] theorem State.loadHandle_spine (s : State) (a1) : (State.loadHandle s a1).spine = s.spine := by unfold State.loadHandle; dsimp only; (repeat' (first | rfl | assumption | split | refine foldl_spine_of ?_ (fun _ _ => ?_) | refine elim_spine_of ?_ (fun _ => ?_))) <;> simp [foldl_spine]
@[simp] theorem State.loadChain_spine (s : State) (a1) : (State.loadChain s a1).spine = s.spine := by simp [State.loadChain, foldl_spine]
@[simp] theorem State.faultOwner_spine (s : State) (a1) : (State.faultOwner s a1).spine = s.spine := by simp [State.faultOwner, foldl_spine]
@[simp] theorem State.pageLost_spine (s : State) (a1) (a2) (a3) : (State.pageLost s a1 a2 a3).spine = s.spine := by unfold State.pageLost; (repeat' split) <;> simp [foldl_spine]
@[simp] theorem State.refusalEvent_spine (s : State) (a1) (a2) : (State.refusalEvent s a1 a2).spine = s.spine := by unfold State.refusalEvent; (repeat' split) <;> simp [foldl_spine]
@[simp] theorem State.addRecheck_spine (s : State) (a1) (a2) (a3) : (State.addRecheck s a1 a2 a3).spine = s.spine := by unfold State.addRecheck; (repeat' split) <;> simp [foldl_spine]
@[simp] theorem State.recFailed_spine (s : State) (a1) (a2) (a3) (a4) : (State.recFailed s a1 a2 a3 a4).spine = s.spine := by unfold State.recFailed; dsimp only; (repeat' split) <;> simp [foldl_spine]
@[simp] theorem State.movePage_spine (s : State) (a1) (a2) (a3) (a4) : (State.movePage s a1 a2 a3 a4).spine = s.spine := by unfold State.movePage; dsimp only; (repeat' split) <;> simp [foldl_spine]
theorem State.createHome_spine (s : State) (a1) (a2) (a3) (t) (h : (State.createHome s a1 a2 a3) = some t) : t.2.spine = s.spine := by
  unfold State.createHome at h
  dsimp only at h
  split at h
  · cases h
  · split at h
    · cases h
    · cases h; exact (State.takeParent_spine _ _).trans (State.putRow_spine _ _)
theorem State.createProxy_spine (s : State) (a1) (a2) (a3) (a4) (a5) (t) (h : (State.createProxy s a1 a2 a3 a4 a5) = some t) : t.2.spine = s.spine := by
  unfold State.createProxy at h
  split at h
  · cases h
  · split at h
    · cases h
    · extract_lets e s1 s2 at h
      cases h
      show (if s2.prefixRoom then s2.putRow (keyRowOf e) else s2).spine = s.spine
      have h2 : s2.spine = s.spine := (State.takeParent_spine _ _).trans (State.putRow_spine _ _)
      split
      · exact (State.putRow_spine _ _).trans h2
      · exact h2
@[simp] theorem State.mendNotes_spine (s : State) (a1) (a2) : (State.mendNotes s a1 a2).spine = s.spine := by simp [State.mendNotes, foldl_spine]
@[simp] theorem State.comparePrefix_spine (s : State) : (State.comparePrefix s).spine = s.spine := by simp [State.comparePrefix, foldl_spine]
@[simp] theorem State.findKey_spine (s : State) (a1) : (State.findKey s a1).2.spine = s.spine := by unfold State.findKey; grind [State.spine, State.searchKey_spine, → State.searchKey_spine_of, State.comparePrefix_spine]
theorem State.findKey_spine_of (s : State) (a1) (u) (t) (h : (State.findKey s a1) = (u, t)) : t.spine = s.spine := by have := State.findKey_spine s a1; rw [h] at this; exact this
@[simp] theorem State.missSuspects_spine (s : State) : (State.missSuspects s).spine = s.spine := rfl
@[simp] theorem State.compareAndSet_spine (s : State) (a1) (a2) (a3) : (State.compareAndSet s a1 a2 a3).2.spine = s.spine := by
  unfold State.compareAndSet
  extract_lets s1 ok
  have h1 : s1.spine = s.spine := by simp [s1]
  clear_value s1 ok
  split
  · exact h1
  · split
    · next h =>
      have e := State.findKey_spine_of _ _ _ _ h
      split <;> simp [e, h1]
    · next h =>
      have e := State.findKey_spine_of _ _ _ _ h
      extract_lets s2
      have h2 : s2.spine = s.spine := by simp [s2, e, h1]
      clear_value s2
      split
      · next hc => exact (State.createHome_spine _ _ _ _ _ hc).trans h2
      · (repeat' split) <;> simp [h2]
theorem State.compareAndSet_spine_of (s : State) (a1) (a2) (a3) (u) (t) (h : (State.compareAndSet s a1 a2 a3) = (u, t)) : t.spine = s.spine := by have := State.compareAndSet_spine s a1 a2 a3; rw [h] at this; exact this

/-! ### Flows -/

@[simp] theorem State.setFlowTable_spine (s : State) (a1) (a2) : (State.setFlowTable s a1 a2).spine = s.spine := rfl
theorem State.insertFlow_spine (s : State) (a1) (a2) (a3) (t) (h : (State.insertFlow s a1 a2 a3) = .ok t) : t.spine = s.spine := by unfold State.insertFlow at h; dsimp only at h; grind [State.spine, State.setFlowTable_spine]
@[simp] theorem State.removeFlow_spine (s : State) (a1) : (State.removeFlow s a1).spine = s.spine := rfl
@[simp] theorem State.flowFalse_spine (s : State) (a1) (a2) (a3) : (State.flowFalse s a1 a2 a3).spine = s.spine := by simp [State.flowFalse, foldl_spine]
@[simp] theorem State.policyFalse_spine (s : State) (a1) (a2) (a3) : (State.policyFalse s a1 a2 a3).spine = s.spine := by simp [State.policyFalse, foldl_spine]

/-! ### Sequences -/

@[simp] theorem State.faultSeq_spine (s : State) (a1) : (State.faultSeq s a1).spine = s.spine := by unfold State.faultSeq; (repeat' split) <;> simp [foldl_spine]
@[simp] theorem State.loadSeq_spine (s : State) (a1) : (State.loadSeq s a1).spine = s.spine := by unfold State.loadSeq; (repeat' split) <;> simp [foldl_spine]
@[simp] theorem State.loadRec_spine (s : State) (a1) (a2) : (State.loadRec s a1 a2).spine = s.spine := by unfold State.loadRec; (repeat' split) <;> simp [foldl_spine]
@[simp] theorem State.loadBlock_spine (s : State) (a1) (a2) (a3) : (State.loadBlock s a1 a2 a3).spine = s.spine := by unfold State.loadBlock; dsimp only; (repeat' split) <;> simp [foldl_spine]
@[simp] theorem State.loadBlocks_spine (s : State) (a1) (a2) (a3) (a4) : (State.loadBlocks s a1 a2 a3 a4).spine = s.spine := by simp [State.loadBlocks, foldl_spine]
@[simp] theorem State.loadChange_spine (s : State) (a1) (a2) : (State.loadChange s a1 a2).spine = s.spine := by unfold State.loadChange; dsimp only; (repeat' split) <;> simp [foldl_spine]
@[simp] theorem State.dropPage_spine (s : State) (a1) (a2) : (State.dropPage s a1 a2).spine = s.spine := by unfold State.dropPage; (repeat' split) <;> simp [foldl_spine]
@[simp] theorem State.spoil_spine (s : State) (a1) : (State.spoil s a1).spine = s.spine := by unfold State.spoil; (repeat' split) <;> simp [foldl_spine]
@[simp] theorem State.failReq_spine (s : State) (a1) (a2) (a3) : (State.failReq s a1 a2 a3).spine = s.spine := by simp [State.failReq, foldl_spine]
@[simp] theorem State.endWith_spine (s : State) (a1) (a2) : (State.endWith s a1 a2).spine = s.spine := by unfold State.endWith; (repeat' split) <;> simp [foldl_spine]
@[simp] theorem State.freeSeq_spine (s : State) (a1) : (State.freeSeq s a1).spine = s.spine := by unfold State.freeSeq; dsimp only; (repeat' split) <;> simp [foldl_spine]
@[simp] theorem State.freeIfClosed_spine (s : State) (a1) : (State.freeIfClosed s a1).spine = s.spine := by unfold State.freeIfClosed; (repeat' split) <;> simp [foldl_spine]
@[simp] theorem State.mapPages_spine (s : State) (a1) (a2) (a3) : (State.mapPages s a1 a2 a3).2.spine = s.spine := rfl
theorem State.mapPages_spine_of (s : State) (a1) (a2) (a3) (u) (t) (h : (State.mapPages s a1 a2 a3) = (u, t)) : t.spine = s.spine := by have := State.mapPages_spine s a1 a2 a3; rw [h] at this; exact this
@[simp] theorem State.commitVersion_spine (s : State) (a1) (a2) : (State.commitVersion s a1 a2).spine = s.spine := by unfold State.commitVersion; dsimp only; (repeat' split) <;> simp [foldl_spine]
@[simp] theorem State.enterSeq_spine (s : State) (a1) (a2) (a3) : (State.enterSeq s a1 a2 a3).spine = s.spine := by
  unfold State.enterSeq
  split
  · simp
  · split
    · simp
    · extract_lets q
      split
      · simp
      · next s' h =>
        have e := State.insertFlow_spine _ _ _ _ _ h
        have m := State.mapPages_spine s' q q.cur q.cur
        revert m; generalize s'.mapPages q q.cur q.cur = vs; intro m
        obtain ⟨v, u⟩ := vs
        dsimp only at m ⊢
        have hf : ∀ (l : List Nat) (t : State), (l.foldl (fun (s : State) id => s.refRec id) t).spine = t.spine :=
          foldl_spine _ (fun _ _ => by simp)
        have k : ∀ (t : State) (i : Nat), t.spine = s.spine → ((t.refreshShares.promoteHeld i).finish a1 stOk (resHandle q.handle)).spine = s.spine := fun t i h => by
          simp [h]
        refine k _ _ ?_
        repeat' split
        all_goals (try simp only [State.takeRef_spine, hf]; exact m.trans e)
@[simp] theorem State.beginOpen_spine (s : State) (a1) (a2) : (State.beginOpen s a1 a2).spine = s.spine := by unfold State.beginOpen; dsimp only; (repeat' split) <;> simp [foldl_spine]
@[simp] theorem State.beginFork_spine (s : State) (a1) (a2) : (State.beginFork s a1 a2).spine = s.spine := by
  unfold State.beginFork; (try dsimp only)
  repeat' (first | with_reducible rfl | assumption | refine foldl_spine_of ?_ (fun _ _ => ?_) | refine elim_spine_of ?_ (fun _ => ?_) | split | simp)
@[simp] theorem State.beginClose_spine (s : State) (a1) (a2) : (State.beginClose s a1 a2).spine = s.spine := by unfold State.beginClose; dsimp only; (repeat' split) <;> simp [foldl_spine]
@[simp] theorem State.takeTables_spine (s : State) (a1) (a2) (a3) : (State.takeTables s a1 a2 a3).spine = s.spine := by simp [State.takeTables, foldl_spine]
@[simp] theorem State.supplyTables_spine (s : State) (a1) (a2) : (State.supplyTables s a1 a2).spine = s.spine := by
  unfold State.supplyTables
  split
  · rfl
  · cases s.model? _ <;> simp
@[simp] theorem State.beginSupply_spine (s : State) (a1) (a2) : (State.beginSupply s a1 a2).spine = s.spine := by unfold State.beginSupply; (repeat' split) <;> simp [foldl_spine]
@[simp] theorem State.beginTruncate_spine (s : State) (a1) : (State.beginTruncate s a1).spine = s.spine := rfl
@[simp] theorem State.listArrives_spine (s : State) (a1) (a2) (a3) : (State.listArrives s a1 a2 a3).spine = s.spine := by unfold State.listArrives; dsimp only; (repeat' split) <;> simp [foldl_spine]
@[simp] theorem State.tokensArrive_spine (s : State) (a1) (a2) : (State.tokensArrive s a1 a2).spine = s.spine := rfl
@[simp] theorem State.writeNew_spine (s : State) (a1) (a2) (a3) (l) (a5) : (State.writeNew s a1 a2 a3 l a5).2.2.spine = s.spine := by
  induction l generalizing s a5 with
  | nil => rfl
  | cons x rest ih =>
    obtain ⟨b, l, data, raw, table⟩ := x
    unfold State.writeNew
    extract_lets n h route
    split
    · rfl
    · next tier addr hp =>
      generalize hw : s.writePage tier addr n 1 a2.tenant table data = w
      obtain ⟨v, s1⟩ := w
      have h1 : s1.spine = s.spine := State.writePage_spine_of _ _ _ _ _ _ _ _ _ _ hw
      refine (ih _ _).trans ?_
      split <;> simp [h1]
theorem State.writeNew_spine_of (s : State) (a1) (a2) (a3) (a4) (a5) (u) (w) (t) (h : (State.writeNew s a1 a2 a3 a4 a5) = (u, w, t)) : t.spine = s.spine := by have := State.writeNew_spine s a1 a2 a3 a4 a5; rw [h] at this; exact this
@[simp] theorem State.supplyReady_spine (s : State) (a1) : (State.supplyReady s a1).spine = s.spine := by unfold State.supplyReady; (repeat' split) <;> simp [foldl_spine]
@[simp] theorem State.supplyPlace_spine (s : State) (a1) (a2) (a3) : (State.supplyPlace s a1 a2 a3).spine = s.spine := by unfold State.supplyPlace; dsimp only; grind [State.spine, State.failReq_spine, State.writeNew_spine, → State.writeNew_spine_of, State.modReq_spine, State.supplyReady_spine]
@[simp] theorem State.pagesArrive_spine (s : State) (a1) (a2) (a3) : (State.pagesArrive s a1 a2 a3).spine = s.spine := by unfold State.pagesArrive; dsimp only; grind [State.spine, State.failReq_spine, State.makeRoom_spine, → State.makeRoom_spine_of, State.modReq_spine, State.supplyPlace_spine]
@[simp] theorem State.supplySettle_spine (s : State) (a1) (a2) : (State.supplySettle s a1 a2).spine = s.spine := by unfold State.supplySettle; (repeat' split) <;> simp [foldl_spine]
@[simp] theorem State.supplyTransfer_spine (s : State) (a1) (a2) (a3) (a4) : (State.supplyTransfer s a1 a2 a3 a4).spine = s.spine := by unfold State.supplyTransfer; dsimp only; (repeat' split) <;> simp [foldl_spine]
@[simp] theorem State.newRecs_spine (s : State) (a1) (a2) (a3) (a4) (a5) (a6) (a7) (l) (a9) : (State.newRecs s a1 a2 a3 a4 a5 a6 a7 l a9).2.spine = s.spine := by
  induction l generalizing s a6 a7 a9 with
  | nil => rfl
  | cons x rest ih => unfold State.newRecs; exact (ih _ _ _ _).trans (by simp)
theorem State.newRecs_spine_of (s : State) (a1) (a2) (a3) (a4) (a5) (a6) (a7) (a8) (a9) (u) (t) (h : (State.newRecs s a1 a2 a3 a4 a5 a6 a7 a8 a9) = (u, t)) : t.spine = s.spine := by have := State.newRecs_spine s a1 a2 a3 a4 a5 a6 a7 a8 a9; rw [h] at this; exact this
@[simp] theorem State.dropUnheld_spine (s : State) (a1) (a2) : (State.dropUnheld s a1 a2).spine = s.spine := by simp [State.dropUnheld, foldl_spine]
@[simp] theorem State.applyChange_spine (s : State) (a1) (a2) (a3) : (State.applyChange s a1 a2 a3).spine = s.spine := by unfold State.applyChange; dsimp only; (repeat' split) <;> simp [foldl_spine]
@[simp] theorem State.commitChange_spine (s : State) (a1) : (State.commitChange s a1).spine = s.spine := by unfold State.commitChange; dsimp only; (repeat' split) <;> simp [foldl_spine]
@[simp] theorem State.commitAll_spine (s : State) (a1) : (State.commitAll s a1).spine = s.spine := by unfold State.commitAll; (repeat' (first | rfl | assumption | split | refine foldl_spine_of ?_ (fun _ _ => ?_) | refine elim_spine_of ?_ (fun _ => ?_))) <;> simp [foldl_spine]
@[simp] theorem State.commitAhead_spine (s : State) (a1) : (State.commitAhead s a1).spine = s.spine := by simp [State.commitAhead, foldl_spine]

/-! ### Prefixes -/

@[simp] theorem State.localHits_spine (s : State) (a1) (a2) (a3) (l) : (State.localHits s a1 a2 a3 l).2.spine = s.spine := by
  induction l generalizing s a3 with
  | nil => rfl
  | cons x rest ih => unfold State.localHits; grind [→ State.searchKey_spine_of]
theorem State.localHits_spine_of (s : State) (a1) (a2) (a3) (a4) (u) (t) (h : (State.localHits s a1 a2 a3 a4) = (u, t)) : t.spine = s.spine := by have := State.localHits_spine s a1 a2 a3 a4; rw [h] at this; exact this
@[simp] theorem State.lookupDone_spine (s : State) (a1) (a2) (a3) (a4) : (State.lookupDone s a1 a2 a3 a4).spine = s.spine := by unfold State.lookupDone; (repeat' split) <;> simp [foldl_spine]
@[simp] theorem State.answerLookup_spine (s : State) (a1) (a2) (a3) (a4) : (State.answerLookup s a1 a2 a3 a4).spine = s.spine := by unfold State.answerLookup; dsimp only; (repeat' split) <;> simp [foldl_spine]
theorem State.askHomes_spine (s : State) (a1) (a2) (a3) (l) (t) (h : State.askHomes s a1 a2 a3 l = some t) : t.spine = s.spine := by
  induction l generalizing s with
  | nil => unfold State.askHomes at h; cases h; rfl
  | cons x rest ih =>
    obtain ⟨b, id⟩ := x
    unfold State.askHomes at h; dsimp only at h; split at h
    · cases h
    · exact (ih _ h).trans (foldl_spine _ (by intros; simp) _ _)
@[simp] theorem State.runLookup_spine (s : State) (a1) (a2) (a3) (a4) : (State.runLookup s a1 a2 a3 a4).spine = s.spine := by
  unfold State.runLookup; dsimp only
  split
  · simp
  · split
    · simp
    · next t h => have := State.askHomes_spine _ _ _ _ _ _ h; simp [this]
@[simp] theorem State.beginLookupHash_spine (s : State) (a1) (a2) : (State.beginLookupHash s a1 a2).spine = s.spine := by unfold State.beginLookupHash; (repeat' split) <;> simp [foldl_spine]
@[simp] theorem State.beginLookupToken_spine (s : State) (a1) : (State.beginLookupToken s a1).spine = s.spine := rfl
@[simp] theorem State.lookupTokens_spine (s : State) (a1) (a2) (a3) (a4) : (State.lookupTokens s a1 a2 a3 a4).spine = s.spine := by unfold State.lookupTokens; dsimp only; (repeat' split) <;> simp [foldl_spine]
@[simp] theorem State.runLookupFlow_spine (s : State) (a1) (a2) : (State.runLookupFlow s a1 a2).spine = s.spine := by unfold State.runLookupFlow; dsimp only; (repeat' split) <;> simp [foldl_spine]
@[simp] theorem State.beginLookupFlow_spine (s : State) (a1) (a2) : (State.beginLookupFlow s a1 a2).spine = s.spine := by unfold State.beginLookupFlow; (repeat' split) <;> simp [foldl_spine]
@[simp] theorem State.askEntry_spine (s : State) (a1) (a2) (a3) : (State.askEntry s a1 a2 a3).spine = s.spine := by unfold State.askEntry; (repeat' split) <;> simp [foldl_spine]
@[simp] theorem State.commitLink_spine (s : State) (a1) (a2) (a3) (a4) (a5) : (State.commitLink s a1 a2 a3 a4 a5).spine = s.spine := by simp [State.commitLink, foldl_spine]
@[simp] theorem State.beginAttachPrefix_spine (s : State) (a1) (a2) : (State.beginAttachPrefix s a1 a2).spine = s.spine := by unfold State.beginAttachPrefix; dsimp only; (repeat' split) <;> simp [foldl_spine]
@[simp] theorem State.readForRekey_spine (s : State) (a1) (l) : (State.readForRekey s a1 l).spine = s.spine := by
  induction l generalizing s with
  | nil => rfl
  | cons x rest ih =>
    obtain ⟨_, _, _, _⟩ := x
    unfold State.readForRekey
    split <;> simp [ih]
@[simp] theorem State.rekeyMore_spine (s : State) (a1) : (State.rekeyMore s a1).spine = s.spine := by unfold State.rekeyMore; (repeat' split) <;> simp [foldl_spine]
@[simp] theorem State.loadPublish_spine (s : State) (a1) (a2) : (State.loadPublish s a1 a2).spine = s.spine := by unfold State.loadPublish; dsimp only; (repeat' split) <;> simp [foldl_spine]
@[simp] theorem State.beginPublish_spine (s : State) (a1) (a2) : (State.beginPublish s a1 a2).spine = s.spine := by unfold State.beginPublish; dsimp only; (repeat' split) <;> simp [foldl_spine]
@[simp] theorem State.freePlace_spine (s : State) (a1) : (State.freePlace s a1).spine = s.spine := by unfold State.freePlace; (repeat' split) <;> simp [foldl_spine]
@[simp] theorem State.failPublish_spine (s : State) (a1) (a2) (a3) : (State.failPublish s a1 a2 a3).spine = s.spine := by simp [State.failPublish, foldl_spine]
@[simp] theorem State.rekeyPages_spine (s : State) (a1) (a2) (a3) (a4) (l) (a6) (a7) : (State.rekeyPages s a1 a2 a3 a4 l a6 a7).2.2.2.spine = s.spine := by
  induction l generalizing s a6 a7 with
  | nil => rfl
  | cons x rest ih =>
    obtain ⟨_, _, _, loc⟩ := x
    unfold State.rekeyPages
    split
    · rfl
    · split
      · rfl
      · split
        · rfl
        · next tier addr hp =>
          dsimp only
          generalize hw : State.writePage _ _ _ _ _ _ _ _ = w
          obtain ⟨v, s1⟩ := w
          have h1 : s1.spine = s.spine := State.writePage_spine_of _ _ _ _ _ _ _ _ _ _ hw
          refine (ih _ _ _).trans ?_
          dsimp only
          split <;> simp [h1]
theorem State.rekeyPages_spine_of (s : State) (a1) (a2) (a3) (a4) (a5) (a6) (a7) (u) (w) (x) (t) (h : (State.rekeyPages s a1 a2 a3 a4 a5 a6 a7) = (u, w, x, t)) : t.spine = s.spine := by have := State.rekeyPages_spine s a1 a2 a3 a4 a5 a6 a7; rw [h] at this; exact this
@[simp] theorem State.adoptRecs_spine (s : State) (a1) (l) : (State.adoptRecs s a1 l).spine = s.spine := by
  induction l generalizing s with
  | nil => rfl
  | cons x rest ih =>
    obtain ⟨b, id⟩ := x
    unfold State.adoptRecs; dsimp only; split
    · exact ih _
    · refine (ih _).trans (foldl_spine_of (by simp) ?_)
      intros; split <;> simp
@[simp] theorem State.copyRecs_spine (s : State) (a1) (l) : (State.copyRecs s a1 l).2.spine = s.spine := by
  induction l generalizing s with
  | nil => rfl
  | cons x rest ih =>
    obtain ⟨b, id⟩ := x
    unfold State.copyRecs; dsimp only; split
    · exact ih _
    · exact (ih _).trans (by simp)
theorem State.copyRecs_spine_of (s : State) (a1) (a2) (u) (t) (h : (State.copyRecs s a1 a2) = (u, t)) : t.spine = s.spine := by have := State.copyRecs_spine s a1 a2; rw [h] at this; exact this
@[simp] theorem State.putDigest_spine (s : State) (a1) (a2) (a3) (a4) (a5) : (State.putDigest s a1 a2 a3 a4 a5).spine = s.spine := by simp [State.putDigest, foldl_spine]
@[simp] theorem State.dropNew_spine (s : State) (a1) : (State.dropNew s a1).spine = s.spine := by simp [State.dropNew, foldl_spine]
@[simp] theorem State.publishCreated_spine (s : State) (a1) (a2) (a3) (a4) (a5) (a6) (a7) (a8) : (State.publishCreated s a1 a2 a3 a4 a5 a6 a7 a8).spine = s.spine := by unfold State.publishCreated; dsimp only; (repeat' split) <;> simp [foldl_spine]
@[simp] theorem State.publishMerged_spine (s : State) (a1) (a2) (a3) (a4) (a5) (a6) (a7) (a8) : (State.publishMerged s a1 a2 a3 a4 a5 a6 a7 a8).spine = s.spine := by unfold State.publishMerged; dsimp only; (repeat' split) <;> simp [foldl_spine]
@[simp] theorem State.publishConflict_spine (s : State) (a1) (a2) (a3) (a4) : (State.publishConflict s a1 a2 a3 a4).spine = s.spine := by simp [State.publishConflict, foldl_spine]
@[simp] theorem State.publishSend_spine (s : State) (a1) (a2) (a3) (a4) (a5) : (State.publishSend s a1 a2 a3 a4 a5).spine = s.spine := by
  unfold State.publishSend
  extract_lets d k dest
  split
  · split <;> (next hc => have := State.compareAndSet_spine_of _ _ _ _ _ _ hc; simp [this])
  · (repeat' split) <;> simp
@[simp] theorem State.publishGoes_spine (s : State) (a1) (a2) : (State.publishGoes s a1 a2).spine = s.spine := by unfold State.publishGoes; (repeat' split) <;> simp [foldl_spine]
@[simp] theorem State.writesEnd_spine (s : State) (a1) : (State.writesEnd s a1).spine = s.spine := by unfold State.writesEnd; (repeat' split) <;> simp [foldl_spine]
@[simp] theorem State.rekeyEnd_spine (s : State) (a1) (a2) : (State.rekeyEnd s a1 a2).spine = s.spine := by
  unfold State.rekeyEnd
  split
  · simp
  · extract_lets lo s1 s2
    have h2 : s2.spine = s.spine := by simp [s2, s1]
    clear_value s2
    split
    · exact h2
    · split
      · simp [h2]
      · simp [h2]
      · split
        · next h =>
          have e := State.rekeyPages_spine_of _ _ _ _ _ _ _ _ _ _ _ _ h
          extract_lets s3
          have h3 : s3.spine = s.spine := by
            unfold s3
            exact elim_spine_of (e.trans h2) fun _ => by simp [e, h2]
          clear_value s3
          split <;> simp [h3]
        · next h =>
          have e := State.rekeyPages_spine_of _ _ _ _ _ _ _ _ _ _ _ _ h
          simp [e, h2]
@[simp] theorem State.beginWithdraw_spine (s : State) (a1) (a2) : (State.beginWithdraw s a1 a2).spine = s.spine := by unfold State.beginWithdraw; dsimp only; (repeat' split) <;> simp [foldl_spine]
@[simp] theorem State.answer_spine (s : State) (a1) (a2) (a3) (a4) (a5) : (State.answer s a1 a2 a3 a4 a5).spine = s.spine := by simp [State.answer, foldl_spine]
@[simp] theorem State.refuseGen_spine (s : State) (a1) (a2) : (State.refuseGen s a1 a2).spine = s.spine := by simp [State.refuseGen, foldl_spine]
@[simp] theorem State.publishHere_spine (s : State) (a1) (a2) (a3) : (State.publishHere s a1 a2 a3).spine = s.spine := by unfold State.publishHere; grind [State.spine, State.compareAndSet_spine, → State.compareAndSet_spine_of, State.answer_spine, State.modDir_spine]
@[simp] theorem State.onDirPublish_spine (s : State) (a1) (a2) (a3) : (State.onDirPublish s a1 a2 a3).spine = s.spine := by unfold State.onDirPublish; dsimp only; (repeat' split) <;> simp [foldl_spine]
@[simp] theorem State.parentAnswer_spine (s : State) (a1) (a2) (a3) (a4) (a5) (a6) : (State.parentAnswer s a1 a2 a3 a4 a5 a6).spine = s.spine := by
  unfold State.parentAnswer
  split
  · simp
  · split
    · simp
    · split
      · simp
      · next t h =>
        have e : t.spine = s.spine := by
          split at h
          · cases h; rfl
          · cases hc : s.createProxy a6 a5 [] false 0 with
            | none => rw [hc] at h; cases h
            | some x => rw [hc] at h; cases h; exact State.createProxy_spine _ _ _ _ _ _ _ hc
        dsimp only
        (repeat' split) <;> simp [e]
@[simp] theorem State.onDirLookup_spine (s : State) (a1) (a2) (a3) (a4) : (State.onDirLookup s a1 a2 a3 a4).spine = s.spine := by unfold State.onDirLookup; dsimp only; (repeat' split) <;> simp [foldl_spine]
@[simp] theorem State.onDirAttach_spine (s : State) (a1) (a2) : (State.onDirAttach s a1 a2).spine = s.spine := by unfold State.onDirAttach; dsimp only; (repeat' split) <;> simp [foldl_spine]
@[simp] theorem State.freeHolder_spine (s : State) (a1) : (State.freeHolder s a1).spine = s.spine := by unfold State.freeHolder; dsimp only; (repeat' split) <;> simp [foldl_spine]
@[simp] theorem State.onDirRelease_spine (s : State) (a1) (a2) : (State.onDirRelease s a1 a2).spine = s.spine := by unfold State.onDirRelease; dsimp only; (repeat' split) <;> simp [foldl_spine]
@[simp] theorem State.onDirWithdrawn_spine (s : State) (a1) (a2) (a3) : (State.onDirWithdrawn s a1 a2 a3).spine = s.spine := by unfold State.onDirWithdrawn; dsimp only; (repeat' split) <;> simp [foldl_spine]
@[simp] theorem State.onWithdrawNotice_spine (s : State) (a1) (a2) : (State.onWithdrawNotice s a1 a2).spine = s.spine := by unfold State.onWithdrawNotice; dsimp only; (repeat' split) <;> simp [foldl_spine]
@[simp] theorem State.lookupAnswer_spine (s : State) (a1) (a2) (a3) (a4) : (State.lookupAnswer s a1 a2 a3 a4).spine = s.spine := by unfold State.lookupAnswer; dsimp only; (repeat' split) <;> simp [foldl_spine]
theorem State.createChain_spine (s : State) (a1) (a2) (t) (h : (State.createChain s a1 a2) = some t) : t.spine = s.spine := by
  induction a2 generalizing s with
  | nil => cases h; rfl
  | cons x rest ih =>
    obtain ⟨n, k⟩ := x
    unfold State.createChain at h
    split at h
    · split at h
      · exact (ih _ h).trans (State.modDir_spine _ _ _)
      · exact (ih _ h).trans (State.giveBack_spine _ _ _)
    · split at h
      · cases h
      · rename_i hp
        exact (ih _ h).trans (State.createProxy_spine _ _ _ _ _ _ _ hp)
@[simp] theorem State.attachAnswer_spine (s : State) (a1) (a2) (a3) (a4) : (State.attachAnswer s a1 a2 a3 a4).spine = s.spine := by
  unfold State.attachAnswer
  split
  · simp
  · extract_lets chain
    split
    · split <;> simp
    · split
      · simp
      · rename_i hc
        have hs := State.createChain_spine _ _ _ _ hc
        extract_lets s1
        have h1 : s1.spine = s.spine := by simp [s1, hs]
        split
        · split
          · simp [h1]
          · exact h1
        · exact h1
@[simp] theorem State.publishLinked_spine (s : State) (a1) (a2) (a3) (a4) : (State.publishLinked s a1 a2 a3 a4).spine = s.spine := by
  unfold State.publishLinked
  split
  · rfl
  · split
    · simp
    · rename_i hc
      have hs := State.createChain_spine _ _ _ _ hc
      split <;> simp [hs]
@[simp] theorem State.publishAnswer_spine (s : State) (a1) (a2) (a3) (a4) : (State.publishAnswer s a1 a2 a3 a4).spine = s.spine := by
  unfold State.publishAnswer
  split
  · simp
  · extract_lets fail src gather
    have hf : ∀ s n, (fail s n).spine = s.spine := by intro s n; simp [fail]
    have hg : ∀ s, (gather s).spine = s.spine := by
      intro s
      simp only [gather]
      repeat' split
      all_goals simp [hf]
    repeat' split
    all_goals first
      | (simp [hf, hg]; done)
      | (rename_i h; have := State.createProxy_spine _ _ _ _ _ _ _ h; simpa using this)
@[simp] theorem State.onDirAnswer_spine (s : State) (a1) (a2) (a3) : (State.onDirAnswer s a1 a2 a3).spine = s.spine := by unfold State.onDirAnswer; dsimp only; (repeat' (first | rfl | assumption | split | refine foldl_spine_of ?_ (fun _ _ => ?_))) <;> simp [foldl_spine]
@[simp] theorem State.memberLost_spine (s : State) (a1) : (State.memberLost s a1).spine = s.spine := by simp [State.memberLost, foldl_spine]

end Sys2Proof.Machine
end

