-- ==== Sys2Proof/Laws/SpineRequests.lean ====
section
/-! SUPPORT. What leaves the spine as it is (Laws/State.lean): one lemma per operation of walks, curds, moves, tables, near-memory operations and requests. -/

set_option linter.unusedSimpArgs false
set_option linter.unnecessarySeqFocus false
set_option linter.unreachableTactic false
set_option linter.unusedTactic false
set_option linter.unusedVariables false

namespace Sys2Proof.Machine

/-! ### Walks -/

@[simp] theorem State.sendFar_spine (s : State) (a1) (a2) (a3) (a4) (a5) : (State.sendFar s a1 a2 a3 a4 a5).spine = s.spine := by unfold State.sendFar; (repeat' split) <;> simp [foldl_spine]
@[simp] theorem State.askFar_spine (s : State) (a1) (a2) (a3) (a4) (a5) (a6) (a7) : (State.askFar s a1 a2 a3 a4 a5 a6 a7).spine = s.spine := by unfold State.askFar; dsimp only; (repeat' split) <;> simp [foldl_spine]
@[simp] theorem State.askRun_spine (s : State) (a1) (a2) (a3) (a4) (a5) (a6) (l) : (State.askRun s a1 a2 a3 a4 a5 a6 l).spine = s.spine := by
  induction l generalizing s with
  | nil => rfl
  | cons x rest ih =>
    unfold State.askRun
    dsimp only
    split <;> simp [ih]
@[simp] theorem State.copyFails_spine (s : State) (a1) (a2) : (State.copyFails s a1 a2).spine = s.spine := by unfold State.copyFails; dsimp only; (repeat' split) <;> simp [foldl_spine]
@[simp] theorem State.consumeCopy_spine (s : State) (a1) (a2) (a3) : (State.consumeCopy s a1 a2 a3).spine = s.spine := rfl
@[simp] theorem State.pageFailed_spine (s : State) (a1) (a2) (a3) (a4) (a5) (a6) (a7) : (State.pageFailed s a1 a2 a3 a4 a5 a6 a7).spine = s.spine := by
  unfold State.pageFailed; (try dsimp only)
  repeat' (first | with_reducible rfl | assumption | refine foldl_spine_of ?_ (fun _ _ => ?_) | refine elim_spine_of ?_ (fun _ => ?_) | split | simp)
@[simp] theorem State.askTables_spine (s : State) : (State.askTables s).spine = s.spine := by unfold State.askTables; (repeat' (first | rfl | assumption | split | refine foldl_spine_of ?_ (fun _ _ => ?_) | refine elim_spine_of ?_ (fun _ => ?_))) <;> simp [foldl_spine]
@[simp] theorem State.takeEngine_spine (s : State) (a1) (a2) (a3) : (State.takeEngine s a1 a2 a3).spine = s.spine := rfl
@[simp] theorem State.brineIdle_spine (s : State) : (State.brineIdle s).spine = s.spine := rfl
@[simp] theorem State.placeQueued_spine (s : State) (a1) : (State.placeQueued s a1).spine = s.spine := by unfold State.placeQueued; (repeat' split) <;> simp [foldl_spine]
@[simp] theorem State.startAlone_spine (s : State) (a1) (a2) (a3) (a4) (a5) (a6) (a7) : (State.startAlone s a1 a2 a3 a4 a5 a6 a7).spine = s.spine := by unfold State.startAlone; dsimp only; (repeat' (first | rfl | assumption | split | refine foldl_spine_of ?_ (fun _ _ => ?_))) <;> simp [foldl_spine]
@[simp] theorem State.startParts_spine (s : State) (a1) : (State.startParts s a1).spine = s.spine := by unfold State.startParts; dsimp only; (repeat' (first | rfl | assumption | split | refine foldl_spine_of ?_ (fun _ _ => ?_))) <;> simp [foldl_spine]

/-! ### Curds -/

@[simp] theorem State.prefetchPart_spine (s : State) (a1) (a2) (a3) (a4) (a5) (a6) (a7) (a8) (a9) : (State.prefetchPart s a1 a2 a3 a4 a5 a6 a7 a8 a9).spine = s.spine := by simp [State.prefetchPart, foldl_spine]
@[simp] theorem State.beginAttend_spine (s : State) (a1) (a2) : (State.beginAttend s a1 a2).spine = s.spine := by unfold State.beginAttend; dsimp only; (repeat' (first | rfl | assumption | split | refine foldl_spine_of ?_ (fun _ _ => ?_))) <;> simp [foldl_spine]
@[simp] theorem State.completeAttend_spine (s : State) (a1) : (State.completeAttend s a1).spine = s.spine := by unfold State.completeAttend; dsimp only; (repeat' split) <;> simp [foldl_spine]
@[simp] theorem State.goAlone_spine (s : State) (a1) : (State.goAlone s a1).spine = s.spine := by unfold State.goAlone; dsimp only; (repeat' split) <;> simp [foldl_spine]
@[simp] theorem State.bookCurd_spine (s : State) (a1) (a2) (a3) (a4) (a5) (a6) (a7) : (State.bookCurd s a1 a2 a3 a4 a5 a6 a7).spine = s.spine := by unfold State.bookCurd; dsimp only; (repeat' split) <;> simp [foldl_spine]
@[simp] theorem State.runCurd_spine (s : State) (a1) (a2) (a3) (a4) : (State.runCurd s a1 a2 a3 a4).spine = s.spine := by simp [State.runCurd, foldl_spine]
@[simp] theorem State.dropCurd_spine (s : State) (a1) : (State.dropCurd s a1).spine = s.spine := rfl
@[simp] theorem State.closeCurd_spine (s : State) (a1) : (State.closeCurd s a1).spine = s.spine := by unfold State.closeCurd; dsimp only; (repeat' split) <;> simp [foldl_spine]
@[simp] theorem State.markCurd_spine (s : State) (a1) : (State.markCurd s a1).spine = s.spine := rfl
@[simp] theorem State.beginCurd_spine (s : State) (a1) : (State.beginCurd s a1).spine = s.spine := by unfold State.beginCurd; dsimp only; (repeat' (first | rfl | assumption | split | refine foldl_spine_of ?_ (fun _ _ => ?_))) <;> simp [foldl_spine]
@[simp] theorem State.placeWork_spine (s : State) : (State.placeWork s).spine = s.spine := by simp [State.placeWork, foldl_spine]
@[simp] theorem State.closeDue_spine (s : State) : (State.closeDue s).spine = s.spine := by simp [State.closeDue, foldl_spine]
@[simp] theorem State.dispatch_spine (s : State) : (State.dispatch s).spine = s.spine := by simp [State.dispatch, foldl_spine]
@[simp] theorem State.setPart_spine (s : State) (a1) (a2) (a3) : (State.setPart s a1 a2 a3).spine = s.spine := rfl
@[simp] theorem State.leaveCurd_spine (s : State) (a1) (a2) : (State.leaveCurd s a1 a2).spine = s.spine := rfl
@[simp] theorem State.settlePart_spine (s : State) (a1) (a2) (a3) : (State.settlePart s a1 a2 a3).spine = s.spine := by unfold State.settlePart; (repeat' split) <;> simp [foldl_spine]
@[simp] theorem State.settleAttend_spine (s : State) (a1) : (State.settleAttend s a1).spine = s.spine := by
  unfold State.settleAttend; dsimp only
  repeat' (first | with_reducible rfl | assumption | refine foldl_spine_of ?_ (fun _ _ => ?_) | split | simp)
@[simp] theorem State.idleRows_spine (s : State) (a1) (a2) (a3) : (State.idleRows s a1 a2 a3).spine = s.spine := rfl
@[simp] theorem State.scrubMembers_spine (s : State) (a1) (a2) : (State.scrubMembers s a1 a2).spine = s.spine := by unfold State.scrubMembers; (repeat' (first | rfl | assumption | split | refine foldl_spine_of ?_ (fun _ _ => ?_) | refine elim_spine_of ?_ (fun _ => ?_))) <;> simp [foldl_spine]
@[simp] theorem State.bookBrine_spine (s : State) (a1) : (State.bookBrine s a1).spine = s.spine := rfl
@[simp] theorem State.endCurd_spine (s : State) (a1) : (State.endCurd s a1).spine = s.spine := by unfold State.endCurd; dsimp only; (repeat' (first | rfl | assumption | split | refine foldl_spine_of ?_ (fun _ _ => ?_) | refine elim_spine_of ?_ (fun _ => ?_))) <;> simp [foldl_spine]
@[simp] theorem State.dropIdle_spine (s : State) (a1) : (State.dropIdle s a1).spine = s.spine := by unfold State.dropIdle; (repeat' split) <;> simp [foldl_spine]
@[simp] theorem State.pageBoundary_spine (s : State) (a1) : (State.pageBoundary s a1).spine = s.spine := by
  unfold State.pageBoundary
  split
  · rfl
  · dsimp only
    split
    · rfl
    · rw [State.dispatch_spine]
      refine foldl_spine_of ?_ (fun _ _ => by simp)
      split
      · rfl
      · rw [State.dropIdle_spine, State.scrubMembers_spine]
        exact foldl_spine_of (by simp) (fun _ _ => by simp)
@[simp] theorem State.endAttend_spine (s : State) (a1) (a2) (a3) (a4) : (State.endAttend s a1 a2 a3 a4).spine = s.spine := by simp [State.endAttend, foldl_spine]
@[simp] theorem State.sparing_spine (s : State) (a1) (a2) : (State.sparing s a1 a2).spine = s.spine := by unfold State.sparing; (repeat' split) <;> simp [foldl_spine]
@[simp] theorem State.lateProgress_spine (s : State) (a1) (a2) : (State.lateProgress s a1 a2).spine = s.spine := by unfold State.lateProgress; dsimp only; (repeat' split) <;> simp [foldl_spine]
@[simp] theorem State.endWalked_spine (s : State) (a1) : (State.endWalked s a1).spine = s.spine := by unfold State.endWalked; (repeat' split) <;> simp [foldl_spine]
@[simp] theorem State.askAhead_spine (s : State) (a1) (a2) (a3) : (State.askAhead s a1 a2 a3).spine = s.spine := by unfold State.askAhead; dsimp only; (repeat' (first | rfl | assumption | split | refine foldl_spine_of ?_ (fun _ _ => ?_) | refine elim_spine_of ?_ (fun _ => ?_))) <;> simp [foldl_spine]
@[simp] theorem State.pageBad_spine (s : State) (a1) (a2) (a3) : (State.pageBad s a1 a2 a3).spine = s.spine := by
  unfold State.pageBad; (try dsimp only)
  repeat' (first | with_reducible rfl | assumption | refine foldl_spine_of ?_ (fun _ _ => ?_) | refine elim_spine_of ?_ (fun _ => ?_) | split | simp)
@[simp] theorem State.walkOk_spine (s : State) (a1) (a2) (a3) (a4) (a5) (a6) : (State.walkOk s a1 a2 a3 a4 a5 a6).spine = s.spine := by
  unfold State.walkOk; (try dsimp only)
  repeat' (first | with_reducible rfl | assumption | refine foldl_spine_of ?_ (fun _ _ => ?_) | refine elim_spine_of ?_ (fun _ => ?_) | split | simp)
@[simp] theorem State.walkBad_spine (s : State) (a1) (a2) (a3) (a4) : (State.walkBad s a1 a2 a3 a4).spine = s.spine := by unfold State.walkBad; dsimp only; (repeat' split) <;> simp [foldl_spine]
@[simp] theorem State.walkBlock_spine (s : State) (a1) : (State.walkBlock s a1).spine = s.spine := by
  unfold State.walkBlock
  extract_lets s1
  have h1 : s1.spine = s.spine := State.pageBoundary_spine _ _
  clear_value s1
  split
  · exact h1
  · split
    · exact h1
    · split
      · simp [h1]
      · extract_lets rs s2
        have h2 : s2.spine = s.spine := foldl_spine_of h1 fun t r => by cases t.attendOf r <;> simp
        clear_value s2
        (repeat' split) <;> simp [h2]
@[simp] theorem State.queryArrives_spine (s : State) (a1) (a2) (a3) : (State.queryArrives s a1 a2 a3).spine = s.spine := by unfold State.queryArrives; dsimp only; (repeat' split) <;> simp [foldl_spine]
@[simp] theorem State.endPart_spine (s : State) (a1) (a2) (a3) : (State.endPart s a1 a2 a3).spine = s.spine := by unfold State.endPart; dsimp only; (repeat' split) <;> simp [foldl_spine]
@[simp] theorem State.partEnd_spine (s : State) (a1) (a2) : (State.partEnd s a1 a2).spine = s.spine := by
  unfold State.partEnd
  extract_lets ps
  (repeat' split) <;> first | rfl | (exact foldl_spine_of rfl (fun _ _ => by simp)) | simp
@[simp] theorem State.memberDone_spine (s : State) (a1) (a2) : (State.memberDone s a1 a2).spine = s.spine := rfl
@[simp] theorem State.completeMember_spine (s : State) (a1) : (State.completeMember s a1).spine = s.spine := by unfold State.completeMember; (repeat' split) <;> simp [foldl_spine]
@[simp] theorem State.splitCurd_spine (s : State) (a1) (a2) : (State.splitCurd s a1 a2).spine = s.spine := by
  unfold State.splitCurd
  extract_lets live s1
  rw [State.dispatch_spine]
  refine foldl_spine_of ?_ (fun _ _ => by simp)
  exact (State.endCurd_spine _ _).trans (foldl_spine_of rfl (fun _ _ => by simp))
@[simp] theorem State.curdPassEnd_spine (s : State) (a1) : (State.curdPassEnd s a1).spine = s.spine := by unfold State.curdPassEnd; dsimp only; (repeat' split) <;> simp [foldl_spine]
@[simp] theorem State.closeThisTick_spine (s : State) (a1) : (State.closeThisTick s a1).spine = s.spine := rfl
@[simp] theorem State.afterJoin_spine (s : State) (a1) (a2) (a3) : (State.afterJoin s a1 a2 a3).spine = s.spine := by unfold State.afterJoin; (repeat' split) <;> simp [foldl_spine]
@[simp] theorem State.curdOffer_spine (s : State) (a1) (a2) : (State.curdOffer s a1 a2).spine = s.spine := by unfold State.curdOffer; dsimp only; (repeat' split) <;> simp [foldl_spine]
@[simp] theorem State.curdWindowEnd_spine (s : State) (a1) : (State.curdWindowEnd s a1).spine = s.spine := by unfold State.curdWindowEnd; dsimp only; (repeat' split) <;> simp [foldl_spine]
@[simp] theorem State.passYield_spine (s : State) (a1) : (State.passYield s a1).spine = s.spine := by
  unfold State.passYield
  split
  · rfl
  · split
    · rfl
    · extract_lets s1 mine; rw [State.dispatch_spine]; exact State.pageBoundary_spine _ _
@[simp] theorem State.passResume_spine (s : State) (a1) (a2) : (State.passResume s a1 a2).spine = s.spine := by unfold State.passResume; dsimp only; (repeat' (first | rfl | assumption | split | refine foldl_spine_of ?_ (fun _ _ => ?_))) <;> simp [foldl_spine]

/-! ### Whey -/

@[simp] theorem State.dropMove_spine (s : State) (a1) : (State.dropMove s a1).spine = s.spine := by unfold State.dropMove; dsimp only; (repeat' split) <;> simp [foldl_spine]
theorem State.takeMove_spine (s : State) (a1) (a2) (a3) (a4) (a5) (t) (h : (State.takeMove s a1 a2 a3 a4 a5) = some t) : t.spine = s.spine := by unfold State.takeMove at h; dsimp only at h; grind [State.spine, State.bumpId_spine]
@[simp] theorem State.dropDemotion_spine (s : State) (a1) (a2) (a3) : (State.dropDemotion s a1 a2 a3).spine = s.spine := by simp [State.dropDemotion, foldl_spine]
theorem State.takeAll_spine (s : State) (a1) (a2) (l) (t) (h : State.takeAll s a1 a2 l = some t) : t.spine = s.spine := by
  induction l generalizing s with
  | nil => unfold State.takeAll at h; cases h; rfl
  | cons x rest ih =>
    obtain ⟨id, i, l⟩ := x
    unfold State.takeAll at h
    dsimp only at h
    split at h
    · exact (ih _ h).trans (by simp)
    · split at h
      · next u hu => exact (ih _ h).trans ((State.takeMove_spine _ _ _ _ _ _ _ hu).trans (by simp))
      · cases h
@[simp] theorem State.setPins_spine (s : State) (a1) (a2) (a3) : (State.setPins s a1 a2 a3).spine = s.spine := by unfold State.setPins; dsimp only; (repeat' (first | rfl | assumption | split | refine foldl_spine_of ?_ (fun _ _ => ?_))) <;> simp [foldl_spine]
@[simp] theorem State.hintMoves_spine (s : State) (a1) (a2) : (State.hintMoves s a1 a2).spine = s.spine := by
  unfold State.hintMoves
  refine foldl_spine_of rfl fun s x => ?_
  obtain ⟨id, i, l⟩ := x
  dsimp only
  split
  · rfl
  · exact getD_spine fun t h => State.takeMove_spine _ _ _ _ _ _ _ h
@[simp] theorem State.readRemote_spine (s : State) (a1) (a2) (a3) (a4) (a5) : (State.readRemote s a1 a2 a3 a4 a5).spine = s.spine := by simp [State.readRemote, foldl_spine]
@[simp] theorem State.readRemotes_spine (s : State) (a1) (a2) (l) : (State.readRemotes s a1 a2 l).2.spine = s.spine := by
  induction l generalizing s with
  | nil => rfl
  | cons x rest ih =>
    obtain ⟨_, _⟩ := x
    unfold State.readRemotes
    split <;> simp [ih]
theorem State.readRemotes_spine_of (s : State) (a1) (a2) (a3) (u) (t) (h : (State.readRemotes s a1 a2 a3) = (u, t)) : t.spine = s.spine := by have := State.readRemotes_spine s a1 a2 a3; rw [h] at this; exact this
@[simp] theorem State.refetch_spine (s : State) : (State.refetch s).spine = s.spine := by unfold State.refetch; dsimp only; (repeat' (first | rfl | assumption | split | refine foldl_spine_of ?_ (fun _ _ => ?_) | refine elim_spine_of ?_ (fun _ => ?_))) <;> simp [foldl_spine]
@[simp] theorem State.fetchCopy_spine (s : State) (a1) (a2) : (State.fetchCopy s a1 a2).spine = s.spine := by simp [State.fetchCopy, foldl_spine]
@[simp] theorem State.hintReads_spine (s : State) (a1) (l) : (State.hintReads s a1 l).spine = s.spine := by
  induction l generalizing s with
  | nil => rfl
  | cons x rest ih =>
    obtain ⟨_, _, _⟩ := x
    unfold State.hintReads
    dsimp only
    (repeat' split) <;> simp [ih]
@[simp] theorem State.rangeSettle1_spine (s : State) (a1) : (State.rangeSettle1 s a1).spine = s.spine := by
  unfold State.rangeSettle1
  extract_lets pages busy
  clear_value pages busy
  split
  · rfl
  · split
    · split
      · rfl
      · extract_lets up s1
        have e : s1.spine = s.spine := foldl_spine_of rfl fun s x => getD_spine fun t h => State.takeMove_spine _ _ _ _ _ _ _ h
        split
        · exact e
        · simp [e]
    · extract_lets s0 s1 left
      have h0 : s0.spine = s.spine := by simp [s0]
      clear_value s0
      have e : s1.spine = s.spine := by unfold s1; split <;> simp [h0]
      clear_value s1 left
      (repeat' split) <;> simp [e, h0]
    · simp
    · simp
    · rfl
@[simp] theorem State.rangeSettle_spine (s : State) : (State.rangeSettle s).spine = s.spine := by
  unfold State.rangeSettle
  refine foldl_spine_of rfl fun s x => ?_
  split <;> simp
@[simp] theorem State.stagingFreed_spine (s : State) : (State.stagingFreed s).spine = s.spine := by simp [State.stagingFreed, foldl_spine]
@[simp] theorem State.beginPinRange_spine (s : State) (a1) (a2) : (State.beginPinRange s a1 a2).spine = s.spine := by
  unfold State.beginPinRange
  (repeat' split) <;> try simp
  exact getD_spine fun t h => State.takeAll_spine _ _ _ _ _ h
@[simp] theorem State.beginUnpin_spine (s : State) (a1) (a2) : (State.beginUnpin s a1 a2).spine = s.spine := by
  unfold State.beginUnpin
  (repeat' split) <;> try simp only [State.finish_spine]
  exact (State.modSeq_spine _ _ _).trans (foldl_spine_of rfl fun s x => by simp)
@[simp] theorem State.beginHint_spine (s : State) (a1) (a2) : (State.beginHint s a1 a2).spine = s.spine := by
  unfold State.beginHint
  (repeat' split) <;> try simp only [State.finish_spine]
  simp only [State.rangeSettle_spine, State.modReq_spine]
  refine foldl_spine_of rfl fun s x => ?_
  (repeat' split) <;> try rfl
  exact getD_spine fun t h => State.takeMove_spine _ _ _ _ _ _ _ h
@[simp] theorem State.moveStart_spine (s : State) : (State.moveStart s).spine = s.spine := by unfold State.moveStart; dsimp only; (repeat' split) <;> simp [foldl_spine]
@[simp] theorem State.moveFinish_spine (s : State) (a1) (a2) : (State.moveFinish s a1 a2).spine = s.spine := by unfold State.moveFinish; dsimp only; (repeat' split) <;> simp [foldl_spine]
@[simp] theorem State.moveFails_spine (s : State) (a1) : (State.moveFails s a1).spine = s.spine := by unfold State.moveFails; (repeat' split) <;> simp [foldl_spine]
@[simp] theorem State.sweep_spine (s : State) (a1) (a2) (a3) : (State.sweep s a1 a2 a3).spine = s.spine := by unfold State.sweep; dsimp only; (repeat' split) <;> simp [foldl_spine]
@[simp] theorem State.proxyRec_spine (s : State) (a1) (a2) (a3) : (State.proxyRec s a1 a2 a3).2.spine = s.spine := by unfold State.proxyRec; dsimp only; (repeat' split) <;> simp [foldl_spine]
theorem State.proxyRec_spine_of (s : State) (a1) (a2) (a3) (u) (t) (h : (State.proxyRec s a1 a2 a3) = (u, t)) : t.spine = s.spine := by have := State.proxyRec_spine s a1 a2 a3; rw [h] at this; exact this
@[simp] theorem State.keepCopy_spine (s : State) (a1) (a2) (a3) : (State.keepCopy s a1 a2 a3).spine = s.spine := by unfold State.keepCopy; dsimp only; (repeat' split) <;> simp [foldl_spine]
@[simp] theorem State.readAgain_spine (s : State) (a1) : (State.readAgain s a1).spine = s.spine := by unfold State.readAgain; (repeat' split) <;> simp [foldl_spine]
@[simp] theorem State.prefetchLands_spine (s : State) (a1) (a2) (a3) (a4) : (State.prefetchLands s a1 a2 a3 a4).spine = s.spine := by
  unfold State.prefetchLands
  split
  · rfl
  · extract_lets set entry own s1 s2
    have hs : ∀ g (s : State), (set g s).spine = s.spine := fun _ _ => rfl
    have h1 : s1.spine = s.spine := hs _ _
    clear_value set own s1
    have h2 : s2.spine = s.spine := by unfold s2; split <;> simp [h1]
    clear_value s2 entry
    split
    · rfl
    · split
      · simp [hs]
      · split
        · simp
        · split
          · exact elim_spine_of rfl fun _ => by simp
          · split
            · rw [State.stagingFreed_spine]; exact h2
            · exact h2
@[simp] theorem State.stagingTtl_spine (s : State) (a1) : (State.stagingTtl s a1).spine = s.spine := by simp [State.stagingTtl, foldl_spine]

/-! ### Fetch -/

@[simp] theorem State.endFetch_spine (s : State) (a1) (a2) (a3) (a4) : (State.endFetch s a1 a2 a3 a4).spine = s.spine := by simp [State.endFetch, foldl_spine]
@[simp] theorem State.askSlots_spine (s : State) (a1) (a2) (a3) (a4) (l) : (State.askSlots s a1 a2 a3 a4 l).spine = s.spine := by
  induction l generalizing s with
  | nil => rfl
  | cons x rest ih =>
    obtain ⟨_, _⟩ := x
    unfold State.askSlots
    dsimp only
    split <;> simp [ih]
@[simp] theorem State.beginFetch_spine (s : State) (a1) (a2) : (State.beginFetch s a1 a2).spine = s.spine := by unfold State.beginFetch; dsimp only; (repeat' split) <;> simp [foldl_spine]
@[simp] theorem State.fetchTransfer_spine (s : State) (a1) (a2) (a3) : (State.fetchTransfer s a1 a2 a3).spine = s.spine := by unfold State.fetchTransfer; dsimp only; (repeat' split) <;> simp [foldl_spine]
@[simp] theorem State.readChunks_spine (s : State) (a1) (a2) (l) : (State.readChunks s a1 a2 l).spine = s.spine := by
  induction l generalizing s with
  | nil => rfl
  | cons x rest ih =>
    obtain ⟨w, c⟩ := x
    unfold State.readChunks
    dsimp only
    (repeat' split) <;> first | exact elim_spine_of rfl fun _ => by simp | simp [ih]
@[simp] theorem State.chunksMore_spine (s : State) (a1) : (State.chunksMore s a1).spine = s.spine := by unfold State.chunksMore; (repeat' split) <;> simp [foldl_spine]
@[simp] theorem State.beginWeights_spine (s : State) (a1) (a2) : (State.beginWeights s a1 a2).spine = s.spine := by unfold State.beginWeights; (repeat' split) <;> simp [foldl_spine]
@[simp] theorem State.modWeights_spine (s : State) (a1) (a2) : (State.modWeights s a1 a2).spine = s.spine := rfl
@[simp] theorem State.roomInCache_spine (s : State) : (State.roomInCache s).spine = s.spine := by unfold State.roomInCache; dsimp only; (repeat' split) <;> simp [foldl_spine]
@[simp] theorem State.readChunk_spine (s : State) (a1) (a2) (a3) : (State.readChunk s a1 a2 a3).spine = s.spine := by unfold State.readChunk; dsimp only; (repeat' split) <;> simp [foldl_spine]
@[simp] theorem State.chunkLost_spine (s : State) (a1) (a2) : (State.chunkLost s a1 a2).spine = s.spine := rfl
@[simp] theorem State.weightsTransfer_spine (s : State) (a1) (a2) (a3) : (State.weightsTransfer s a1 a2 a3).spine = s.spine := by unfold State.weightsTransfer; dsimp only; (repeat' split) <;> simp [foldl_spine]

/-! ### Tables -/

@[simp] theorem State.streamRef_spine (s : State) (a1) (a2) : (State.streamRef s a1 a2).spine = s.spine := by unfold State.streamRef; (repeat' split) <;> simp [foldl_spine]
@[simp] theorem State.setStream_spine (s : State) (a1) (a2) (a3) (a4) (a5) : (State.setStream s a1 a2 a3 a4 a5).spine = s.spine := by unfold State.setStream; dsimp only; (repeat' split) <;> simp [foldl_spine]
@[simp] theorem State.setStreams_spine (s : State) (a1) (a2) (a3) : (State.setStreams s a1 a2 a3).spine = s.spine := by simp [State.setStreams, foldl_spine]
@[simp] theorem State.enterTable_spine (s : State) (a1) (a2) (a3) : (State.enterTable s a1 a2 a3).spine = s.spine := rfl
@[simp] theorem State.tableLoadArrives_spine (s : State) (a1) (a2) (a3) : (State.tableLoadArrives s a1 a2 a3).spine = s.spine := by unfold State.tableLoadArrives; dsimp only; (repeat' split) <;> simp [foldl_spine]
@[simp] theorem State.tableTransfer_spine (s : State) (a1) (a2) (a3) : (State.tableTransfer s a1 a2 a3).spine = s.spine := by unfold State.tableTransfer; (repeat' split) <;> simp [foldl_spine]
@[simp] theorem State.beginTableLoad_spine (s : State) (a1) : (State.beginTableLoad s a1).spine = s.spine := rfl
@[simp] theorem State.selectTable_spine (s : State) (a1) (a2) : (State.selectTable s a1 a2).spine = s.spine := by unfold State.selectTable; (repeat' split) <;> simp [foldl_spine]
@[simp] theorem State.beginTableSelect_spine (s : State) (a1) (a2) : (State.beginTableSelect s a1 a2).spine = s.spine := by unfold State.beginTableSelect; (repeat' split) <;> simp [foldl_spine]
@[simp] theorem State.exportTable_spine (s : State) (a1) (a2) : (State.exportTable s a1 a2).spine = s.spine := by unfold State.exportTable; (repeat' split) <;> simp [foldl_spine]
@[simp] theorem State.beginTableExport_spine (s : State) (a1) (a2) : (State.beginTableExport s a1 a2).spine = s.spine := by unfold State.beginTableExport; (repeat' split) <;> simp [foldl_spine]
@[simp] theorem State.retireTable_spine (s : State) (a1) (a2) : (State.retireTable s a1 a2).spine = s.spine := by unfold State.retireTable; dsimp only; (repeat' split) <;> simp [foldl_spine]
@[simp] theorem State.beginRetire_spine (s : State) (a1) (a2) : (State.beginRetire s a1 a2).spine = s.spine := by simp [State.beginRetire, foldl_spine]
theorem State.takeImportId_spine (s : State) (t) (h : State.takeImportId s = some t) : t.2.spine = s.spine := by
  unfold State.takeImportId at h
  split at h
  · cases h; rfl
  · cases hf : s.tabFree.take with
    | none => rw [hf] at h; cases h
    | some x => rw [hf] at h; cases h; rfl
@[simp] theorem State.importTable_spine (s : State) (a1) (a2) (a3) : (State.importTable s a1 a2 a3).2.spine = s.spine := by unfold State.importTable; dsimp only; grind [State.spine, → State.takeImportId_spine, State.enterTable_spine, State.note_spine]
theorem State.importTable_spine_of (s : State) (a1) (a2) (a3) (u) (t) (h : (State.importTable s a1 a2 a3) = (u, t)) : t.spine = s.spine := by have := State.importTable_spine s a1 a2 a3; rw [h] at this; exact this
@[simp] theorem State.recheckFails_spine (s : State) (a1) (a2) : (State.recheckFails s a1 a2).spine = s.spine := by unfold State.recheckFails; (repeat' split) <;> simp [foldl_spine]

/-! ### NearMemory -/

@[simp] theorem State.askOp_spine (s : State) (a1) (a2) : (State.askOp s a1 a2).spine = s.spine := by unfold State.askOp; (repeat' split) <;> simp [foldl_spine]
@[simp] theorem State.pinOps_spine (s : State) (a1) : (State.pinOps s a1).spine = s.spine := by unfold State.pinOps; dsimp only; (repeat' split) <;> simp [foldl_spine]
@[simp] theorem State.readRegion_spine (s : State) (a1) (a2) : (State.readRegion s a1 a2).spine = s.spine := by unfold State.readRegion; dsimp only; (repeat' split) <;> simp [foldl_spine]
@[simp] theorem State.readRegions_spine (s : State) (a1) : (State.readRegions s a1).spine = s.spine := by simp [State.readRegions, foldl_spine]
@[simp] theorem State.beginNear_spine (s : State) (a1) : (State.beginNear s a1).spine = s.spine := by unfold State.beginNear; (repeat' split) <;> simp [foldl_spine]
@[simp] theorem State.pinRegion_spine (s : State) (a1) (a2) (a3) : (State.pinRegion s a1 a2 a3).spine = s.spine := by unfold State.pinRegion; dsimp only; (repeat' split) <;> simp [foldl_spine]
@[simp] theorem State.onRegionAnswer_spine (s : State) (a1) (a2) (a3) : (State.onRegionAnswer s a1 a2 a3).spine = s.spine := by unfold State.onRegionAnswer; dsimp only; (repeat' split) <;> simp [foldl_spine]
@[simp] theorem State.onNmoDone_spine (s : State) (a1) : (State.onNmoDone s a1).spine = s.spine := by unfold State.onNmoDone; dsimp only; (repeat' split) <;> simp [foldl_spine]

/-! ### Requests -/

@[simp] theorem State.beginReq_spine (s : State) (a1) : (State.beginReq s a1).spine = s.spine := by unfold State.beginReq; (repeat' split) <;> simp [foldl_spine]
@[simp] theorem State.dropMovesOf_spine (s : State) (a1) : (State.dropMovesOf s a1).spine = s.spine := by
  unfold State.dropMovesOf; (try dsimp only)
  repeat' (first | with_reducible rfl | assumption | refine foldl_spine_of ?_ (fun _ _ => ?_) | split | simp)
@[simp] theorem State.endReq_spine (s : State) (a1) (a2) (a3) (a4) : (State.endReq s a1 a2 a3 a4).spine = s.spine := by unfold State.endReq; (repeat' split) <;> simp [foldl_spine]
@[simp] theorem State.endWalk_spine (s : State) (a1) (a2) (a3) : (State.endWalk s a1 a2 a3).spine = s.spine := by unfold State.endWalk; (repeat' split) <;> simp [foldl_spine]
@[simp] theorem State.endNow_spine (s : State) (a1) : (State.endNow s a1).spine = s.spine := by unfold State.endNow; dsimp only; (repeat' split) <;> simp [foldl_spine]
@[simp] theorem State.settleEnds_spine (s : State) : (State.settleEnds s).spine = s.spine := by unfold State.settleEnds; (repeat' (first | rfl | assumption | split | refine foldl_spine_of ?_ (fun _ _ => ?_) | refine elim_spine_of ?_ (fun _ => ?_))) <;> simp [foldl_spine]
@[simp] theorem State.endAll_spine (s : State) (a1) (a2) : (State.endAll s a1 a2).spine = s.spine := by
  unfold State.endAll; (try dsimp only)
  repeat' (first | with_reducible rfl | assumption | refine foldl_spine_of ?_ (fun _ _ => ?_) | split | simp)
@[simp] theorem State.stale_spine (s : State) (a1) : (State.stale s a1).spine = s.spine := rfl
@[simp] theorem State.attachRecord_spine (s : State) (a1) (a2) (a3) (a4) (a5) : (State.attachRecord s a1 a2 a3 a4 a5).spine = s.spine := by unfold State.attachRecord; (repeat' split) <;> simp [foldl_spine]
@[simp] theorem State.takeAttach_spine (s : State) (a1) (a2) (a3) : (State.takeAttach s a1 a2 a3).spine = s.spine := by unfold State.takeAttach; dsimp only; (repeat' split) <;> simp [foldl_spine]
@[simp] theorem State.beginShutdown_spine (s : State) (a1) (a2) (a3) (a4) (a5) : (State.beginShutdown s a1 a2 a3 a4 a5).spine = s.spine := by unfold State.beginShutdown; dsimp only; (repeat' split) <;> simp [foldl_spine]
@[simp] theorem State.refuseHeld_spine (s : State) (a1) (a2) : (State.refuseHeld s a1 a2).spine = s.spine := rfl
@[simp] theorem State.resetFn_spine (s : State) (a1) : (State.resetFn s a1).spine = s.spine := by unfold State.resetFn; dsimp only; (repeat' split) <;> simp [foldl_spine]
@[simp] theorem State.drainGrace_spine (s : State) (a1) : (State.drainGrace s a1).spine = s.spine := by unfold State.drainGrace; (repeat' split) <;> simp [foldl_spine]
@[simp] theorem State.shutdownEnd_spine (s : State) (a1) : (State.shutdownEnd s a1).spine = s.spine := by unfold State.shutdownEnd; dsimp only; (repeat' split) <;> simp [foldl_spine]
@[simp] theorem State.beginFence_spine (s : State) (a1) (a2) : (State.beginFence s a1 a2).spine = s.spine := by unfold State.beginFence; dsimp only; (repeat' split) <;> simp [foldl_spine]
@[simp] theorem State.fenceComplete_spine (s : State) (a1) : (State.fenceComplete s a1).spine = s.spine := by unfold State.fenceComplete; dsimp only; (repeat' split) <;> simp [foldl_spine]
@[simp] theorem State.enter_spine (s : State) (a1) (a2) : (State.enter s a1 a2).spine = s.spine := by unfold State.enter; dsimp only; (repeat' split) <;> simp [foldl_spine]
@[simp] theorem State.loadNamed_spine (s : State) (a1) : (State.loadNamed s a1).spine = s.spine := by unfold State.loadNamed; dsimp only; (repeat' split) <;> simp [foldl_spine]
@[simp] theorem State.admitReq_spine (s : State) (a1) (a2) (a3) (a4) : (State.admitReq s a1 a2 a3 a4).spine = s.spine := by unfold State.admitReq; dsimp only; (repeat' split) <;> simp [foldl_spine]
@[simp] theorem State.takeSlot_spine (s : State) (a1) (a2) (a3) (a4) : (State.takeSlot s a1 a2 a3 a4).spine = s.spine := by unfold State.takeSlot; dsimp only; (repeat' split) <;> simp [foldl_spine]
@[simp] theorem State.takeAllSlots_spine (n) (s : State) (fn) : (State.takeAllSlots n s fn).spine = s.spine := by
  induction n generalizing s with
  | zero => rfl
  | succ n ih => unfold State.takeAllSlots; (repeat' split) <;> simp [ih]
@[simp] theorem State.apertureNote_spine (s : State) (a1) (a2) (a3) : (State.apertureNote s a1 a2 a3).spine = s.spine := by simp [State.apertureNote, foldl_spine]
@[simp] theorem State.discardStamp_spine (s : State) (a1) (a2) : (State.discardStamp s a1 a2).spine = s.spine := by simp [State.discardStamp, foldl_spine]
@[simp] theorem State.aperture_spine (s : State) (g n) (k : Fn → State → State) (h : ∀ f s, (k f s).spine = s.spine) : (s.aperture g n k).spine = s.spine := by unfold State.aperture; apply State.live_spine; intro s; (repeat' split) <;> simp [h]
@[simp] theorem State.recordStamp_spine (s : State) (a1) (a2) (a3) (a4) : (State.recordStamp s a1 a2 a3 a4).spine = s.spine := by unfold State.recordStamp; (repeat' split) <;> simp [foldl_spine]
@[simp] theorem State.submit_spine (s : State) (a1) (a2) : (State.submit s a1 a2).spine = s.spine := by unfold State.submit; dsimp only; grind [State.spine, State.aperture_spine, State.takeAttach_spine, State.stale_spine, State.recordStamp_spine, State.takeAllSlots_spine]
@[simp] theorem State.windowWord_spine (s : State) (a1) (a2) (a3) : (State.windowWord s a1 a2 a3).spine = s.spine := by unfold State.windowWord; dsimp only; (repeat' split) <;> simp [foldl_spine]
@[simp] theorem State.abort_spine (s : State) (a1) (a2) (a3) (a4) (a5) (a6) : (State.abort s a1 a2 a3 a4 a5 a6).spine = s.spine := by
  unfold State.abort; (try dsimp only)
  repeat' (first | with_reducible rfl | assumption | refine foldl_spine_of ?_ (fun _ _ => ?_) | split | simp)
@[simp] theorem State.abortWord_spine (s : State) (a1) (a2) (a3) : (State.abortWord s a1 a2 a3).spine = s.spine := by unfold State.abortWord; dsimp only; (repeat' split) <;> simp [foldl_spine]
@[simp] theorem State.apertureWord_spine (s : State) (a1) (a2) (a3) : (State.apertureWord s a1 a2 a3).spine = s.spine := by unfold State.apertureWord; dsimp only; (repeat' split) <;> simp [foldl_spine]
@[simp] theorem State.apertureWrite_spine (s : State) (a1) (a2) (a3) (a4) : (State.apertureWrite s a1 a2 a3 a4).spine = s.spine := by
  unfold State.apertureWrite
  refine State.aperture_spine _ _ _ _ fun f s => ?_
  extract_lets n s1 s2
  split
  · split
    · simp [s1]
    · exact foldl_spine_of (by simp [s1]) fun _ _ => by simp
  · rw [State.takeAllSlots_spine]
    exact foldl_spine_of rfl fun _ _ => by simp
@[simp] theorem State.afterWait_spine (s : State) (a1) : (State.afterWait s a1).spine = s.spine := by unfold State.afterWait; dsimp only; (repeat' split) <;> simp [foldl_spine]
@[simp] theorem State.sequenceCommit_spine (s : State) (a1) : (State.sequenceCommit s a1).spine = s.spine := by unfold State.sequenceCommit; (repeat' (first | rfl | assumption | split | refine foldl_spine_of ?_ (fun _ _ => ?_) | refine elim_spine_of ?_ (fun _ => ?_))) <;> simp [foldl_spine]
@[simp] theorem State.rekeyEnds_spine (s : State) (a1) : (State.rekeyEnds s a1).spine = s.spine := by unfold State.rekeyEnds; (repeat' split) <;> simp [foldl_spine]
@[simp] theorem State.deadlineReached_spine (s : State) (a1) : (State.deadlineReached s a1).spine = s.spine := by unfold State.deadlineReached; (repeat' split) <;> simp [foldl_spine]
@[simp] theorem State.withReq_spine (s : State) (id) (g : State → Req → State) (h : ∀ s r, (g s r).spine = s.spine) : (s.withReq id g).spine = s.spine := by unfold State.withReq; apply State.live_spine; intro s; (repeat' split) <;> simp [h]

end Sys2Proof.Machine
end

