-- ==== Sys2Proof/Laws/SpineFabric.lean ====
section
/-! SUPPORT. What leaves the spine as it is (Laws/State.lean): one lemma per operation of faults, links, extents, directory messages and the tray. -/

set_option linter.unusedSimpArgs false
set_option linter.unnecessarySeqFocus false
set_option linter.unreachableTactic false
set_option linter.unusedTactic false
set_option linter.unusedVariables false

namespace Sys2Proof.Machine

/-! ### Faults -/

@[simp] theorem State.advise_spine (s : State) (a1) : (State.advise s a1).spine = s.spine := by unfold State.advise; dsimp only; (repeat' split) <;> simp [foldl_spine]
@[simp] theorem State.lowSpares_spine (s : State) (a1) (a2) (a3) : (State.lowSpares s a1 a2 a3).spine = s.spine := by unfold State.lowSpares; dsimp only; (repeat' split) <;> simp [foldl_spine]
@[simp] theorem State.countSpare_spine (s : State) (a1) (a2) : (State.countSpare s a1 a2).spine = s.spine := rfl
@[simp] theorem State.spend_spine (s : State) (a1) (a2) : (State.spend s a1 a2).spine = s.spine := by unfold State.spend; (repeat' split) <;> simp [foldl_spine]
@[simp] theorem State.lostSpare_spine (s : State) (a1) (a2) : (State.lostSpare s a1 a2).spine = s.spine := by unfold State.lostSpare; dsimp only; (repeat' split) <;> simp [foldl_spine]
@[simp] theorem State.hashOut_spine (s : State) (a1) : (State.hashOut s a1).spine = s.spine := by unfold State.hashOut; dsimp only; (repeat' (first | rfl | assumption | split | refine foldl_spine_of ?_ (fun _ _ => ?_))) <;> simp [foldl_spine]
@[simp] theorem State.hashMismatch_spine (s : State) (a1) (a2) (a3) (a4) : (State.hashMismatch s a1 a2 a3 a4).spine = s.spine := by unfold State.hashMismatch; dsimp only; (repeat' split) <;> simp [foldl_spine]
@[simp] theorem State.hashCheck_spine (s : State) (a1) (a2) : (State.hashCheck s a1 a2).spine = s.spine := by unfold State.hashCheck; (repeat' split) <;> simp [foldl_spine]
@[simp] theorem State.coderFails_spine (s : State) (a1) (a2) : (State.coderFails s a1 a2).spine = s.spine := by unfold State.coderFails; dsimp only; (repeat' split) <;> simp [foldl_spine]
@[simp] theorem State.checkedRekey_spine (s : State) (a1) (a2) : (State.checkedRekey s a1 a2).spine = s.spine := by unfold State.checkedRekey; (repeat' split) <;> simp [foldl_spine]
@[simp] theorem State.rescindZero_spine (n) (s : State) : (State.rescindZero n s).spine = s.spine := by
  induction n generalizing s with
  | zero => rfl
  | succ n ih =>
    unfold State.rescindZero
    extract_lets held full cand
    split
    · rfl
    · simp [ih]
@[simp] theorem State.shrinkT1_spine (n) (s : State) : (State.shrinkT1 n s).spine = s.spine := by
  induction n generalizing s with
  | zero => rfl
  | succ n ih =>
    unfold State.shrinkT1
    extract_lets cand
    split
    · rfl
    · simp [ih]
@[simp] theorem State.shrinkRates_spine (a0) (s : State) (a2) : (State.shrinkRates a0 s a2).spine = s.spine := by
  induction a0 generalizing s with
  | zero => rfl
  | succ n ih =>
    unfold State.shrinkRates
    extract_lets qs
    split
    · rfl
    · split
      · rfl
      · exact ih _
@[simp] theorem State.recompute_spine (s : State) : (State.recompute s).spine = s.spine := by simp [State.recompute, foldl_spine]
@[simp] theorem State.replaceResv_spine (s : State) (a1) (a2) (a3) : (State.replaceResv s a1 a2 a3).spine = s.spine := by unfold State.replaceResv; dsimp only; (repeat' split) <;> simp [foldl_spine]
@[simp] theorem State.moveResvs_spine (s : State) (a1) (a2) (a3) : (State.moveResvs s a1 a2 a3).spine = s.spine := by
  unfold State.moveResvs; (try dsimp only)
  repeat' (first | with_reducible rfl | assumption | refine foldl_spine_of ?_ (fun _ _ => ?_) | split | simp)
@[simp] theorem State.endPasses_spine (s : State) (a1) (a2) : (State.endPasses s a1 a2).spine = s.spine := by
  unfold State.endPasses; (try dsimp only)
  repeat' (first | with_reducible rfl | assumption | refine foldl_spine_of ?_ (fun _ _ => ?_) | split | simp)
@[simp] theorem State.callSpare_spine (s : State) (a1) (a2) (a3) : (State.callSpare s a1 a2 a3).spine = s.spine := by unfold State.callSpare; (repeat' split) <;> simp [foldl_spine]
@[simp] theorem State.engineOut_spine (s : State) (a1) (a2) : (State.engineOut s a1 a2).spine = s.spine := by unfold State.engineOut; dsimp only; (repeat' split) <;> simp [foldl_spine]
@[simp] theorem State.engineFault_spine (s : State) (a1) (a2) (a3) : (State.engineFault s a1 a2 a3).spine = s.spine := by unfold State.engineFault; (repeat' split) <;> simp [foldl_spine]
@[simp] theorem State.engineRemapped_spine (s : State) (a1) (a2) (a3) : (State.engineRemapped s a1 a2 a3).spine = s.spine := by unfold State.engineRemapped; dsimp only; (repeat' split) <;> simp [foldl_spine]
@[simp] theorem State.decodeRecheck_spine (s : State) (a1) (a2) (a3) : (State.decodeRecheck s a1 a2 a3).spine = s.spine := by unfold State.decodeRecheck; dsimp only; (repeat' split) <;> simp [foldl_spine]
@[simp] theorem State.askAgain_spine (s : State) (a1) : (State.askAgain s a1).spine = s.spine := by unfold State.askAgain; dsimp only; (repeat' split) <;> simp [foldl_spine]
@[simp] theorem State.loseGrain_spine (s : State) (a1) : (State.loseGrain s a1).spine = s.spine := by
  unfold State.loseGrain; (try dsimp only)
  repeat' (first | with_reducible rfl | assumption | refine foldl_spine_of ?_ (fun _ _ => ?_) | split | simp)
@[simp] theorem State.setShelf_spine (s : State) (a1) (a2) : (State.setShelf s a1 a2).spine = s.spine := rfl
@[simp] theorem State.shelfFault_spine (s : State) (a1) (a2) : (State.shelfFault s a1 a2).spine = s.spine := by
  have e : ∀ (t : State) (x : Nat), (t.loseGrain x).spine = t.spine := State.loseGrain_spine
  unfold State.shelfFault
  split
  · split <;> simp
  · extract_lets s1 lost s2 s3
    have h1 : s1.spine = s.spine := by unfold s1; split <;> simp
    split
    · exact foldl_spine_of (by simp [h1]) fun _ _ => e _ _
    · have e2 : ∀ (n : Nat) (l : List Nat) (t : State), (l.foldl (fun (s : State) i => s.loseGrain (256 * n + i)) t).spine = t.spine :=
        fun n => foldl_spine _ (fun s i => e s (256 * n + i))
      rw [State.recompute_spine, State.freeIdleProxies_spine, State.demoteAll_spine]
      unfold s3 s2
      rw [State.advise_spine, State.setShelf_spine, e2, h1]
@[simp] theorem State.shelfRemapped_spine (s : State) (a1) : (State.shelfRemapped s a1).spine = s.spine := by unfold State.shelfRemapped; (repeat' split) <;> simp [foldl_spine]
@[simp] theorem State.modPair_spine (s : State) (a1) (a2) : (State.modPair s a1 a2).spine = s.spine := rfl
@[simp] theorem State.checkpoint_spine (s : State) (a1) : (State.checkpoint s a1).spine = s.spine := rfl
@[simp] theorem State.pairFault_spine (s : State) (a1) : (State.pairFault s a1).spine = s.spine := by unfold State.pairFault; dsimp only; (repeat' split) <;> simp [foldl_spine]
@[simp] theorem State.pairTakeover_spine (s : State) (a1) : (State.pairTakeover s a1).spine = s.spine := by unfold State.pairTakeover; (repeat' split) <;> simp [foldl_spine]
@[simp] theorem State.keyBankFault_spine (s : State) (a1) : (State.keyBankFault s a1).spine = s.spine := by unfold State.keyBankFault; dsimp only; (repeat' split) <;> simp [foldl_spine]
@[simp] theorem State.keyBankCopied_spine (s : State) (a1) : (State.keyBankCopied s a1).spine = s.spine := by unfold State.keyBankCopied; dsimp only; (repeat' split) <;> simp [foldl_spine]
@[simp] theorem State.aesTest_spine (s : State) (a1) (a2) : (State.aesTest s a1 a2).spine = s.spine := by unfold State.aesTest; dsimp only; (repeat' (first | rfl | assumption | split | refine foldl_spine_of ?_ (fun _ _ => ?_))) <;> simp [foldl_spine]
@[simp] theorem State.monitorFault_spine (s : State) : (State.monitorFault s).spine = s.spine := by unfold State.monitorFault; dsimp only; (repeat' split) <;> simp [foldl_spine]
@[simp] theorem State.internalEnd_spine (s : State) (a1) : (State.internalEnd s a1).spine = s.spine := by unfold State.internalEnd; dsimp only; (repeat' split) <;> simp [foldl_spine]
@[simp] theorem State.watchdog_spine (s : State) (a1) (a2) : (State.watchdog s a1 a2).spine = s.spine := by unfold State.watchdog; dsimp only; (repeat' split) <;> simp [foldl_spine]
@[simp] theorem State.resetGroupFns_spine (s : State) (a1) : (State.resetGroupFns s a1).spine = s.spine := by simp [State.resetGroupFns, foldl_spine]
@[simp] theorem State.groupGone_spine (s : State) (a1) : (State.groupGone s a1).spine = s.spine := by unfold State.groupGone; dsimp only; (repeat' split) <;> simp [foldl_spine]
@[simp] theorem State.moduleLoss_spine (s : State) (a1) (a2) : (State.moduleLoss s a1 a2).spine = s.spine := by unfold State.moduleLoss; dsimp only; (repeat' split) <;> simp [foldl_spine]
@[simp] theorem State.laneRepair_spine (s : State) (a1) (a2) : (State.laneRepair s a1 a2).spine = s.spine := by unfold State.laneRepair; dsimp only; (repeat' split) <;> simp [foldl_spine]
@[simp] theorem State.recordEvent_spine (s : State) : (State.recordEvent s).spine = s.spine := by unfold State.recordEvent; dsimp only; (repeat' split) <;> simp [foldl_spine]

/-! ### Flash -/

@[simp] theorem State.modTray_spine (s : State) (a1) : (State.modTray s a1).spine = s.spine := rfl
@[simp] theorem State.modObjects_spine (s : State) (a1) (a2) : (State.modObjects s a1 a2).spine = s.spine := rfl
@[simp] theorem State.ssdIssue_spine (s : State) (a1) (a2) (a3) (a4) (a5) : (State.ssdIssue s a1 a2 a3 a4 a5).spine = s.spine := by
  unfold State.ssdIssue
  split
  · split <;> simp
  · rfl
@[simp] theorem State.destage_spine (s : State) (a1) : (State.destage s a1).spine = s.spine := by unfold State.destage; dsimp only; (repeat' split) <;> simp [foldl_spine]
@[simp] theorem State.destaged_spine (s : State) (a1) : (State.destaged s a1).spine = s.spine := by unfold State.destaged; (repeat' split) <;> simp [foldl_spine]
@[simp] theorem State.destageFails_spine (s : State) (a1) : (State.destageFails s a1).spine = s.spine := rfl
@[simp] theorem State.serveGet_spine (s : State) (a1) (a2) : (State.serveGet s a1 a2).spine = s.spine := by unfold State.serveGet; (repeat' split) <;> simp [foldl_spine]
@[simp] theorem State.readGrain_spine (s : State) (a1) (a2) (a3) (a4) : (State.readGrain s a1 a2 a3 a4).spine = s.spine := by unfold State.readGrain; dsimp only; (repeat' (first | rfl | assumption | split | refine foldl_spine_of ?_ (fun _ _ => ?_) | refine elim_spine_of ?_ (fun _ => ?_))) <;> simp [foldl_spine]
@[simp] theorem State.getObject_spine (s : State) (a1) (a2) : (State.getObject s a1 a2).spine = s.spine := by unfold State.getObject; (repeat' split) <;> simp [foldl_spine]
@[simp] theorem State.nextGets_spine (s : State) : (State.nextGets s).spine = s.spine := by unfold State.nextGets; (repeat' (first | rfl | assumption | split | refine foldl_spine_of ?_ (fun _ _ => ?_) | refine elim_spine_of ?_ (fun _ => ?_))) <;> simp [foldl_spine]
@[simp] theorem State.getDone_spine (s : State) (a1) (a2) : (State.getDone s a1 a2).spine = s.spine := by unfold State.getDone; (repeat' split) <;> simp [foldl_spine]
@[simp] theorem State.getFails_spine (s : State) (a1) (a2) (a3) (a4) (a5) : (State.getFails s a1 a2 a3 a4 a5).spine = s.spine := by unfold State.getFails; dsimp only; (repeat' split) <;> simp [foldl_spine]
@[simp] theorem State.flashDone_spine (s : State) (a1) : (State.flashDone s a1).spine = s.spine := by unfold State.flashDone; (repeat' split) <;> simp [foldl_spine]

/-! ### Links -/

@[simp] theorem State.dropTxn_spine (s : State) (a1) : (State.dropTxn s a1).spine = s.spine := rfl
@[simp] theorem State.txnDone_spine (s : State) (a1) : (State.txnDone s a1).spine = s.spine := by unfold State.txnDone; (repeat' split) <;> simp [foldl_spine]
@[simp] theorem State.endMoveTxn_spine (s : State) (a1) (a2) (a3) : (State.endMoveTxn s a1 a2 a3).spine = s.spine := by unfold State.endMoveTxn; (repeat' split) <;> simp [foldl_spine]
@[simp] theorem State.rekeyFails_spine (s : State) (a1) (a2) (a3) (a4) : (State.rekeyFails s a1 a2 a3 a4).spine = s.spine := by unfold State.rekeyFails; (repeat' split) <;> simp [foldl_spine]
@[simp] theorem State.endTxn_spine (s : State) (a1) (a2) : (State.endTxn s a1 a2).spine = s.spine := by unfold State.endTxn; dsimp only; (repeat' split) <;> simp [foldl_spine]
@[simp] theorem State.endTxns_spine (s : State) (a1) (a2) : (State.endTxns s a1 a2).spine = s.spine := by
  unfold State.endTxns
  refine foldl_spine_of rfl fun s t => ?_
  split <;> simp
@[simp] theorem State.linkNote_spine (s : State) (a1) (a2) (a3) : (State.linkNote s a1 a2 a3).spine = s.spine := by simp [State.linkNote, foldl_spine]
@[simp] theorem State.endSessions_spine (s : State) (a1) : (State.endSessions s a1).spine = s.spine := by unfold State.endSessions; (repeat' (first | rfl | assumption | split | refine foldl_spine_of ?_ (fun _ _ => ?_) | refine elim_spine_of ?_ (fun _ => ?_))) <;> simp [foldl_spine]
@[simp] theorem State.leaveUp_spine (s : State) (a1) (a2) : (State.leaveUp s a1 a2).spine = s.spine := by simp [State.leaveUp, foldl_spine]
@[simp] theorem State.linkDown_spine (s : State) (a1) : (State.linkDown s a1).spine = s.spine := by simp [State.linkDown, foldl_spine]
@[simp] theorem State.toTraining_spine (s : State) (a1) : (State.toTraining s a1).spine = s.spine := by simp [State.toTraining, foldl_spine]
@[simp] theorem State.quarantine_spine (s : State) (a1) : (State.quarantine s a1).spine = s.spine := by simp [State.quarantine, foldl_spine]
@[simp] theorem State.joinVolumes_spine (s : State) (a1) : (State.joinVolumes s a1).spine = s.spine := by unfold State.joinVolumes; dsimp only; (repeat' (first | rfl | assumption | split | refine foldl_spine_of ?_ (fun _ _ => ?_))) <;> simp [foldl_spine]
@[simp] theorem State.offerExtents_spine (s : State) (a1) : (State.offerExtents s a1).spine = s.spine := by unfold State.offerExtents; (repeat' (first | rfl | assumption | split | refine foldl_spine_of ?_ (fun _ _ => ?_) | refine elim_spine_of ?_ (fun _ => ?_))) <;> simp [foldl_spine]
@[simp] theorem State.portUp_spine (s : State) (a1) : (State.portUp s a1).spine = s.spine := by simp [State.portUp, foldl_spine]
@[simp] theorem State.sendHello_spine (s : State) (a1) : (State.sendHello s a1).spine = s.spine := rfl
@[simp] theorem State.laneFails_spine (s : State) (a1) (a2) (a3) : (State.laneFails s a1 a2 a3).spine = s.spine := by unfold State.laneFails; dsimp only; (repeat' split) <;> simp [foldl_spine]
@[simp] theorem State.trainingLanes_spine (s : State) (a1) (a2) (a3) : (State.trainingLanes s a1 a2 a3).spine = s.spine := by unfold State.trainingLanes; dsimp only; (repeat' (first | rfl | assumption | split | refine foldl_spine_of ?_ (fun _ _ => ?_))) <;> simp [foldl_spine]
@[simp] theorem State.askStep_spine (s : State) (a1) : (State.askStep s a1).spine = s.spine := by unfold State.askStep; (repeat' (first | rfl | assumption | split | refine foldl_spine_of ?_ (fun _ _ => ?_) | refine elim_spine_of ?_ (fun _ => ?_))) <;> simp [foldl_spine]
@[simp] theorem State.setIdeKeys_spine (s : State) (a1) : (State.setIdeKeys s a1).spine = s.spine := by unfold State.setIdeKeys; (repeat' (first | rfl | assumption | split | refine foldl_spine_of ?_ (fun _ _ => ?_) | refine elim_spine_of ?_ (fun _ => ?_))) <;> simp [foldl_spine]
@[simp] theorem State.trained_spine (s : State) (a1) (a2) : (State.trained s a1 a2).spine = s.spine := by unfold State.trained; (repeat' split) <;> (try dsimp only) <;> (repeat' split) <;> simp [foldl_spine]
@[simp] theorem State.trainingEnd_spine (s : State) (a1) (a2) (a3) (a4) : (State.trainingEnd s a1 a2 a3 a4).spine = s.spine := by unfold State.trainingEnd; (repeat' split) <;> simp [foldl_spine]
@[simp] theorem State.retryEnd_spine (s : State) (a1) : (State.retryEnd s a1).spine = s.spine := by unfold State.retryEnd; (repeat' split) <;> simp [foldl_spine]
@[simp] theorem State.stepDone_spine (s : State) (a1) (a2) : (State.stepDone s a1 a2).spine = s.spine := by unfold State.stepDone; dsimp only; (repeat' split) <;> simp [foldl_spine]
@[simp] theorem State.doeStep_spine (s : State) (a1) (a2) : (State.doeStep s a1 a2).spine = s.spine := by unfold State.doeStep; (repeat' split) <;> simp [foldl_spine]
@[simp] theorem State.surpriseDown_spine (s : State) (a1) : (State.surpriseDown s a1).spine = s.spine := by unfold State.surpriseDown; (repeat' split) <;> simp [foldl_spine]
@[simp] theorem State.discard_spine (s : State) (a1) (a2) : (State.discard s a1 a2).spine = s.spine := by unfold State.discard; dsimp only; (repeat' split) <;> simp [foldl_spine]
@[simp] theorem State.takeFrame_spine (s : State) (a1) (a2) (a3) (a4) (a5) (a6) (k : State → Port → State) (h : ∀ s p, (k s p).spine = s.spine) :
    (State.takeFrame s a1 a2 a3 a4 a5 a6 k).spine = s.spine := by
  unfold State.takeFrame
  refine State.live_spine _ _ fun s => ?_
  split
  · rfl
  · dsimp only
    (repeat' split) <;> simp [h]
@[simp] theorem State.takeAnswer_spine (s : State) (a1) (a2) (a3) (a4) (a5) (k : State → Txn → State) (h : ∀ s p, (k s p).spine = s.spine) :
    (State.takeAnswer s a1 a2 a3 a4 a5 k).spine = s.spine := by
  unfold State.takeAnswer
  refine State.takeFrame_spine _ _ _ _ _ _ _ _ fun s p => ?_
  split <;> simp [h]
@[simp] theorem State.openSession_spine (s : State) (a1) : (State.openSession s a1).spine = s.spine := by
  unfold State.openSession
  dsimp only
  split <;> simp
@[simp] theorem State.onSpdm_spine (s : State) (a1) (a2) : (State.onSpdm s a1 a2).spine = s.spine := by unfold State.onSpdm; dsimp only; (repeat' split) <;> simp [foldl_spine]
@[simp] theorem State.onConfig_spine (s : State) (a1) (a2) (a3) : (State.onConfig s a1 a2 a3).spine = s.spine := by unfold State.onConfig; dsimp only; (repeat' split) <;> simp [foldl_spine]
@[simp] theorem State.keepaliveSend_spine (s : State) (a1) : (State.keepaliveSend s a1).spine = s.spine := by unfold State.keepaliveSend; (repeat' split) <;> simp [foldl_spine]
@[simp] theorem State.keepaliveLost_spine (s : State) (a1) : (State.keepaliveLost s a1).spine = s.spine := by unfold State.keepaliveLost; (repeat' split) <;> simp [foldl_spine]
@[simp] theorem State.onCredit_spine (s : State) (a1) (a2) : (State.onCredit s a1 a2).spine = s.spine := rfl
@[simp] theorem State.onReplay_spine (s : State) (a1) (a2) : (State.onReplay s a1 a2).spine = s.spine := by
  unfold State.onReplay
  split
  · rfl
  · exact foldl_spine_of rfl fun _ _ => by simp
@[simp] theorem State.onEpoch_spine (s : State) (a1) (a2) : (State.onEpoch s a1 a2).spine = s.spine := by simp [State.onEpoch, foldl_spine]
@[simp] theorem State.aslTimeout_spine (s : State) (a1) : (State.aslTimeout s a1).spine = s.spine := by unfold State.aslTimeout; (repeat' split) <;> simp [foldl_spine]

/-! ### Extents -/

@[simp] theorem State.clearVers_spine (s : State) (a1) (a2) : (State.clearVers s a1 a2).spine = s.spine := rfl
@[simp] theorem State.enterExtent_spine (s : State) (a1) (a2) (a3) (a4) (a5) (a6) (a7) (a8) (a9) : (State.enterExtent s a1 a2 a3 a4 a5 a6 a7 a8 a9).spine = s.spine := rfl
@[simp] theorem State.freeExtent_spine (s : State) (a1) : (State.freeExtent s a1).spine = s.spine := rfl
@[simp] theorem State.ackRelease_spine (s : State) (a1) : (State.ackRelease s a1).spine = s.spine := by unfold State.ackRelease; (repeat' split) <;> simp [foldl_spine]
@[simp] theorem State.moveChunk_spine (s : State) (a1) (a2) : (State.moveChunk s a1 a2).spine = s.spine := by unfold State.moveChunk; dsimp only; (repeat' split) <;> simp [foldl_spine]
@[simp] theorem State.evacuate_spine (s : State) (a1) : (State.evacuate s a1).spine = s.spine := by simp [State.evacuate, foldl_spine]
@[simp] theorem State.settleExtent_spine (s : State) (a1) : (State.settleExtent s a1).spine = s.spine := by unfold State.settleExtent; dsimp only; (repeat' split) <;> simp [foldl_spine]
@[simp] theorem State.settleExtents_spine (s : State) : (State.settleExtents s).spine = s.spine := by simp [State.settleExtents, foldl_spine]
@[simp] theorem State.requestRelease_spine (s : State) (a1) : (State.requestRelease s a1).spine = s.spine := by unfold State.requestRelease; (repeat' split) <;> simp [foldl_spine]
@[simp] theorem State.drainExtent_spine (s : State) (a1) : (State.drainExtent s a1).spine = s.spine := by unfold State.drainExtent; dsimp only; (repeat' (first | rfl | assumption | split | refine foldl_spine_of ?_ (fun _ _ => ?_))) <;> simp [foldl_spine]
@[simp] theorem State.forceRelease_spine (s : State) (a1) : (State.forceRelease s a1).spine = s.spine := by unfold State.forceRelease; (repeat' split) <;> simp [foldl_spine]
@[simp] theorem State.endClaim_spine (s : State) (a1) : (State.endClaim s a1).spine = s.spine := rfl
@[simp] theorem State.releaseExtent_spine (s : State) (a1) (a2) : (State.releaseExtent s a1 a2).spine = s.spine := by unfold State.releaseExtent; (repeat' split) <;> simp [foldl_spine]
@[simp] theorem State.onOffer_spine (s : State) (a1) (a2) (a3) : (State.onOffer s a1 a2 a3).spine = s.spine := by unfold State.onOffer; dsimp only; (repeat' split) <;> simp [foldl_spine]
@[simp] theorem State.claimAnswer_spine (s : State) (a1) (a2) : (State.claimAnswer s a1 a2).spine = s.spine := by unfold State.claimAnswer; dsimp only; (repeat' split) <;> simp [foldl_spine]
@[simp] theorem State.addCapacity_spine (s : State) (a1) (a2) (a3) (a4) : (State.addCapacity s a1 a2 a3 a4).spine = s.spine := by unfold State.addCapacity; dsimp only; (repeat' split) <;> simp [foldl_spine]
@[simp] theorem State.evacuateTimeout_spine (s : State) (a1) : (State.evacuateTimeout s a1).spine = s.spine := by unfold State.evacuateTimeout; (repeat' split) <;> simp [foldl_spine]
@[simp] theorem State.drainTimeout_spine (s : State) (a1) : (State.drainTimeout s a1).spine = s.spine := by
  unfold State.drainTimeout
  split
  · split
    · refine foldl_spine_of rfl fun s t => ?_
      split <;> simp
    · rfl
  · rfl
@[simp] theorem State.drainEnd_spine (s : State) (a1) : (State.drainEnd s a1).spine = s.spine := by unfold State.drainEnd; (repeat' split) <;> simp [foldl_spine]
@[simp] theorem State.sweepExtent_spine (s : State) (a1) : (State.sweepExtent s a1).spine = s.spine := by unfold State.sweepExtent; (repeat' (first | rfl | assumption | split | refine foldl_spine_of ?_ (fun _ _ => ?_) | refine elim_spine_of ?_ (fun _ => ?_))) <;> simp [foldl_spine]
@[simp] theorem State.moveEnd_spine (s : State) (a1) (a2) : (State.moveEnd s a1 a2).spine = s.spine := by unfold State.moveEnd; (repeat' split) <;> simp [foldl_spine]
@[simp] theorem State.deviceAnswer_spine (s : State) (a1) (a2) (a3) : (State.deviceAnswer s a1 a2 a3).spine = s.spine := by unfold State.deviceAnswer; (repeat' split) <;> simp [foldl_spine]
@[simp] theorem State.nvmeTimeout_spine (s : State) (a1) (a2) (a3) : (State.nvmeTimeout s a1 a2 a3).spine = s.spine := by unfold State.nvmeTimeout; dsimp only; (repeat' split) <;> simp [foldl_spine]
@[simp] theorem State.reissue_spine (s : State) (a1) (a2) (a3) : (State.reissue s a1 a2 a3).spine = s.spine := by unfold State.reissue; (repeat' split) <;> simp [foldl_spine]
@[simp] theorem State.nvmeResetEnd_spine (s : State) (a1) (a2) (a3) : (State.nvmeResetEnd s a1 a2 a3).spine = s.spine := by unfold State.nvmeResetEnd; dsimp only; (repeat' split) <;> simp [foldl_spine]

/-! ### Fabric -/

@[simp] theorem State.memberGone_spine (s : State) (a1) : (State.memberGone s a1).spine = s.spine := by unfold State.memberGone; dsimp only; (repeat' (first | rfl | assumption | split | refine foldl_spine_of ?_ (fun _ _ => ?_))) <;> simp [foldl_spine]
@[simp] theorem State.memberUnreachable_spine (s : State) (a1) : (State.memberUnreachable s a1).spine = s.spine := by unfold State.memberUnreachable; dsimp only; (repeat' split) <;> simp [foldl_spine]
@[simp] theorem State.onKeepalive_spine (s : State) (a1) (a2) (a3) : (State.onKeepalive s a1 a2 a3).spine = s.spine := by unfold State.onKeepalive; (repeat' split) <;> simp [foldl_spine]
@[simp] theorem State.memberReset_spine (s : State) (a1) : (State.memberReset s a1).spine = s.spine := by unfold State.memberReset; (repeat' split) <;> simp [foldl_spine]
@[simp] theorem State.onHello_spine (s : State) (a1) (a2) : (State.onHello s a1 a2).spine = s.spine := by unfold State.onHello; dsimp only; (repeat' split) <;> simp [foldl_spine]
@[simp] theorem State.servePage_spine (s : State) (a1) (a2) (a3) : (State.servePage s a1 a2 a3).spine = s.spine := by unfold State.servePage; dsimp only; (repeat' split) <;> simp [foldl_spine]
@[simp] theorem State.copyFilled_spine (s : State) (a1) (a2) (a3) (a4) : (State.copyFilled s a1 a2 a3 a4).spine = s.spine := by unfold State.copyFilled; dsimp only; (repeat' split) <;> simp [foldl_spine]
@[simp] theorem State.onPageData_spine (s : State) (a1) (a2) (a3) (a4) : (State.onPageData s a1 a2 a3 a4).spine = s.spine := by unfold State.onPageData; dsimp only; (repeat' split) <;> simp [foldl_spine]
@[simp] theorem State.onPutDone_spine (s : State) (a1) (a2) : (State.onPutDone s a1 a2).spine = s.spine := by unfold State.onPutDone; (repeat' split) <;> simp [foldl_spine]
@[simp] theorem State.serveTable_spine (s : State) (a1) (a2) : (State.serveTable s a1 a2).spine = s.spine := by unfold State.serveTable; (repeat' split) <;> simp [foldl_spine]
@[simp] theorem State.onTableData_spine (s : State) (a1) (a2) (a3) : (State.onTableData s a1 a2 a3).spine = s.spine := by unfold State.onTableData; grind [State.spine, State.endTxn_spine, State.importTable_spine, → State.importTable_spine_of, State.dropTxn_spine]
@[simp] theorem State.holdSearch_spine (s : State) (a1) : (State.holdSearch s a1).spine = s.spine := rfl

/-! ### Port -/

@[simp] theorem State.reply_spine (s : State) (a1) (a2) (a3) : (State.reply s a1 a2 a3).spine = s.spine := by unfold State.reply; (repeat' split) <;> simp [foldl_spine]
@[simp] theorem State.touch_spine (s : State) (a1) : (State.touch s a1).spine = s.spine := rfl
@[simp] theorem State.serve_spine (s : State) (a1) (a2) (a3) (k : State → Conn → State) (h : ∀ s c, (k s c).spine = s.spine) :
    (State.serve s a1 a2 a3 k).spine = s.spine := by
  unfold State.serve
  split
  · rfl
  · split
    · rfl
    · extract_lets s1
      have h1 : s1.spine = s.spine := by unfold s1; simp
      (repeat' split) <;> simp [h, h1]
@[simp] theorem State.dropKeys_spine (s : State) (a1) : (State.dropKeys s a1).spine = s.spine := by unfold State.dropKeys; dsimp only; (repeat' split) <;> simp [foldl_spine]
@[simp] theorem State.endSession_spine (s : State) (a1) (a2) : (State.endSession s a1 a2).spine = s.spine := by unfold State.endSession; (repeat' split) <;> simp [foldl_spine]
@[simp] theorem State.cutSession_spine (s : State) (a1) : (State.cutSession s a1).spine = s.spine := by unfold State.cutSession; (repeat' split) <;> simp [foldl_spine]
@[simp] theorem State.forgetSession_spine (s : State) (a1) : (State.forgetSession s a1).spine = s.spine := by simp [State.forgetSession, foldl_spine]
@[simp] theorem State.closeConn_spine (s : State) (a1) : (State.closeConn s a1).spine = s.spine := by simp [State.closeConn, foldl_spine]

/-! ### Tray -/

@[simp] theorem State.makeKey_spine (s : State) (a1) : (State.makeKey s a1).spine = s.spine := by unfold State.makeKey; (repeat' split) <;> simp [foldl_spine]
@[simp] theorem State.settleKey_spine (s : State) (a1) : (State.settleKey s a1).spine = s.spine := by unfold State.settleKey; (repeat' split) <;> simp [foldl_spine]
@[simp] theorem State.modRegion_spine (s : State) (a1) (a2) : (State.modRegion s a1 a2).spine = s.spine := rfl
@[simp] theorem State.grantFalse_spine (s : State) (a1) (a2) : (State.grantFalse s a1 a2).spine = s.spine := by simp [State.grantFalse, foldl_spine]
@[simp] theorem State.reachFalse_spine (s : State) (a1) (a2) (a3) (a4) : (State.reachFalse s a1 a2 a3 a4).spine = s.spine := by simp [State.reachFalse, foldl_spine]
@[simp] theorem State.addGrant_spine (s : State) (a1) (a2) : (State.addGrant s a1 a2).spine = s.spine := by unfold State.addGrant; dsimp only; (repeat' split) <;> simp [foldl_spine]
@[simp] theorem State.dropGrant_spine (s : State) (a1) (a2) : (State.dropGrant s a1 a2).spine = s.spine := by unfold State.dropGrant; dsimp only; (repeat' split) <;> simp [foldl_spine]
@[simp] theorem State.freeRegion__spine (s : State) (a1) : (State.freeRegion_ s a1).spine = s.spine := by simp [State.freeRegion_, foldl_spine]
@[simp] theorem State.regionAnswer_spine (s : State) (a1) (a2) (a3) (a4) (a5) (a6) (a7) : (State.regionAnswer s a1 a2 a3 a4 a5 a6 a7).spine = s.spine := by unfold State.regionAnswer; (repeat' split) <;> simp [foldl_spine]
@[simp] theorem State.regionOpenFor_spine (s : State) (a1) (a2) (a3) (a4) (a5) : (State.regionOpenFor s a1 a2 a3 a4 a5).spine = s.spine := by unfold State.regionOpenFor; dsimp only; (repeat' split) <;> simp [foldl_spine]
@[simp] theorem State.regionGrantTo_spine (s : State) (a1) (a2) (a3) (a4) : (State.regionGrantTo s a1 a2 a3 a4).spine = s.spine := by unfold State.regionGrantTo; (repeat' split) <;> simp [foldl_spine]
@[simp] theorem State.askRecall_spine (s : State) (a1) (a2) : (State.askRecall s a1 a2).spine = s.spine := by unfold State.askRecall; (repeat' split) <;> simp [foldl_spine]
@[simp] theorem State.publishRegion_spine (s : State) (a1) : (State.publishRegion s a1).spine = s.spine := by unfold State.publishRegion; dsimp only; (repeat' split) <;> simp [foldl_spine]
@[simp] theorem State.recallComplete_spine (s : State) (a1) : (State.recallComplete s a1).spine = s.spine := by unfold State.recallComplete; (repeat' split) <;> simp [foldl_spine]
@[simp] theorem State.beginRecall_spine (s : State) (a1) (a2) (a3) : (State.beginRecall s a1 a2 a3).spine = s.spine := by unfold State.beginRecall; dsimp only; (repeat' split) <;> simp [foldl_spine]
@[simp] theorem State.recallAnswered_spine (s : State) (a1) (a2) : (State.recallAnswered s a1 a2).spine = s.spine := by unfold State.recallAnswered; dsimp only; (repeat' split) <;> simp [foldl_spine]
@[simp] theorem State.renameDraft_spine (s : State) (a1) (a2) : (State.renameDraft s a1 a2).spine = s.spine := rfl
@[simp] theorem State.regionPublishBy_spine (s : State) (a1) (a2) (a3) (a4) : (State.regionPublishBy s a1 a2 a3 a4).spine = s.spine := by unfold State.regionPublishBy; dsimp only; (repeat' split) <;> simp [foldl_spine]
@[simp] theorem State.regionWithdrawn_spine (s : State) (a1) (a2) (a3) : (State.regionWithdrawn s a1 a2 a3).spine = s.spine := by unfold State.regionWithdrawn; dsimp only; (repeat' split) <;> simp [foldl_spine]
@[simp] theorem State.regionReleased_spine (s : State) (a1) (a2) (a3) (a4) : (State.regionReleased s a1 a2 a3 a4).spine = s.spine := by unfold State.regionReleased; dsimp only; (repeat' split) <;> simp [foldl_spine]
@[simp] theorem State.recallTimeout_spine (s : State) (a1) (a2) (a3) : (State.recallTimeout s a1 a2 a3).spine = s.spine := by unfold State.recallTimeout; dsimp only; (repeat' split) <;> simp [foldl_spine]
@[simp] theorem State.backInvalidate_spine (s : State) (a1) (a2) (a3) (a4) : (State.backInvalidate s a1 a2 a3 a4).spine = s.spine := by unfold State.backInvalidate; dsimp only; (repeat' split) <;> simp [foldl_spine]
@[simp] theorem State.onRegionRead_spine (s : State) (a1) (a2) (a3) (a4) : (State.onRegionRead s a1 a2 a3 a4).spine = s.spine := by unfold State.onRegionRead; dsimp only; (repeat' split) <;> simp [foldl_spine]
@[simp] theorem State.gathered_spine (s : State) (a1) (a2) : (State.gathered s a1 a2).2.spine = s.spine := rfl
theorem State.gathered_spine_of (s : State) (a1) (a2) (u) (t) (h : (State.gathered s a1 a2) = (u, t)) : t.spine = s.spine := by have := State.gathered_spine s a1 a2; rw [h] at this; exact this
@[simp] theorem State.gather_spine (s : State) (a1) (a2) (a3) : (State.gather s a1 a2 a3).spine = s.spine := rfl
@[simp] theorem State.onRegionWrite_spine (s : State) (a1) (a2) (a3) (a4) : (State.onRegionWrite s a1 a2 a3 a4).spine = s.spine := by unfold State.onRegionWrite; dsimp only; (repeat' split) <;> simp [foldl_spine]
@[simp] theorem State.faultRegion_spine (s : State) (a1) : (State.faultRegion s a1).spine = s.spine := by simp [State.faultRegion, foldl_spine]
@[simp] theorem State.onRegionRecall_spine (s : State) (a1) (a2) : (State.onRegionRecall s a1 a2).spine = s.spine := by simp [State.onRegionRecall, foldl_spine]
theorem State.regionDest_spine (s : State) (a1) (a2) (a3) (a4) (t) (h : State.regionDest s a1 a2 a3 a4 = some t) : t.spine = s.spine := by
  unfold State.regionDest at h
  split at h
  · split at h
    · cases h; simp
    · cases h
  · cases h
@[simp] theorem State.runNmo_spine (s : State) (a1) (a2) (a3) : (State.runNmo s a1 a2 a3).2.2.spine = s.spine := by unfold State.runNmo; dsimp only; grind [State.spine, → State.regionDest_spine]
theorem State.runNmo_spine_of (s : State) (a1) (a2) (a3) (u) (w) (t) (h : (State.runNmo s a1 a2 a3) = (u, w, t)) : t.spine = s.spine := by have := State.runNmo_spine s a1 a2 a3; rw [h] at this; exact this
@[simp] theorem State.onNmo_spine (s : State) (a1) (a2) (a3) (a4) : (State.onNmo s a1 a2 a3 a4).spine = s.spine := by unfold State.onNmo; dsimp only; (repeat' split) <;> simp [foldl_spine]
@[simp] theorem State.takeVolume_spine (s : State) (a1) (a2) : (State.takeVolume s a1 a2).spine = s.spine := by unfold State.takeVolume; (repeat' split) <;> simp [foldl_spine]
@[simp] theorem State.onPagePut_spine (s : State) (a1) (a2) (a3) (a4) : (State.onPagePut s a1 a2 a3 a4).spine = s.spine := by unfold State.onPagePut; dsimp only; (repeat' split) <;> simp [foldl_spine]
@[simp] theorem State.trayPage_spine (s : State) (a1) (a2) (a3) : (State.trayPage s a1 a2 a3).spine = s.spine := by unfold State.trayPage; dsimp only; (repeat' split) <;> simp [foldl_spine]
@[simp] theorem State.modTrayExtent_spine (s : State) (a1) (a2) : (State.modTrayExtent s a1 a2).spine = s.spine := rfl
@[simp] theorem State.onClaim_spine (s : State) (a1) (a2) (a3) : (State.onClaim s a1 a2 a3).spine = s.spine := by unfold State.onClaim; dsimp only; (repeat' split) <;> simp [foldl_spine]
@[simp] theorem State.extentBack_spine (s : State) (a1) (a2) : (State.extentBack s a1 a2).spine = s.spine := by simp [State.extentBack, foldl_spine]
@[simp] theorem State.releaseAcked_spine (s : State) (a1) (a2) : (State.releaseAcked s a1 a2).spine = s.spine := by unfold State.releaseAcked; (repeat' split) <;> simp [foldl_spine]
@[simp] theorem State.capacityTaken_spine (s : State) (a1) (a2) (a3) : (State.capacityTaken s a1 a2 a3).spine = s.spine := by unfold State.capacityTaken; (repeat' split) <;> simp [foldl_spine]
@[simp] theorem State.capacityBack_spine (s : State) (a1) (a2) : (State.capacityBack s a1 a2).spine = s.spine := by unfold State.capacityBack; (repeat' (first | rfl | assumption | split | refine foldl_spine_of ?_ (fun _ _ => ?_) | refine elim_spine_of ?_ (fun _ => ?_))) <;> simp [foldl_spine]
@[simp] theorem State.ssdFails_spine (s : State) (a1) (a2) (a3) : (State.ssdFails s a1 a2 a3).spine = s.spine := by unfold State.ssdFails; dsimp only; (repeat' split) <;> simp [foldl_spine]
@[simp] theorem State.pairRebuilt_spine (s : State) : (State.pairRebuilt s).spine = s.spine := by unfold State.pairRebuilt; (repeat' split) <;> simp [foldl_spine]
@[simp] theorem State.poolAccess_spine (s : State) (a1) (a2) (a3) : (State.poolAccess s a1 a2 a3).spine = s.spine := by unfold State.poolAccess; dsimp only; (repeat' split) <;> simp [foldl_spine]
@[simp] theorem State.poolMem_spine (s : State) (a1) (a2) (a3) (a4) (a5) : (State.poolMem s a1 a2 a3 a4 a5).spine = s.spine := by unfold State.poolMem; dsimp only; (repeat' split) <;> simp [foldl_spine]
@[simp] theorem State.regionCmd_spine (s : State) (a1) (k : State → State) (h : ∀ s, (k s).spine = s.spine) :
    (State.regionCmd s a1 k).spine = s.spine := by
  unfold State.regionCmd
  split
  · exact State.live_spine _ _ h
  · refine State.serve_spine _ _ _ _ _ fun s _ => ?_
    split <;> simp [h]

end Sys2Proof.Machine
end

