-- ==== Sys2Proof/Laws/SpineDevice.lean ====
section
/-! SUPPORT. What leaves the spine as it is (Laws/State.lean): one lemma per operation of the array, memory, identity, boot, management, power and scheduling. -/

set_option linter.unusedSimpArgs false
set_option linter.unnecessarySeqFocus false
set_option linter.unreachableTactic false
set_option linter.unusedTactic false
set_option linter.unusedVariables false

namespace Sys2Proof.Machine

/-! ### Array -/

@[simp] theorem State.arrayNote_spine (s : State) (a1) (a2) (a3) : (State.arrayNote s a1 a2 a3).spine = s.spine := by simp [State.arrayNote, foldl_spine]
@[simp] theorem State.modBank_spine (s : State) (a1) (a2) : (State.modBank s a1 a2).spine = s.spine := rfl
@[simp] theorem State.loseEntries_spine (s : State) (a1) (a2) (a3) (a4) : (State.loseEntries s a1 a2 a3 a4).spine = s.spine := by unfold State.loseEntries; dsimp only; (repeat' (first | rfl | assumption | split | refine foldl_spine_of ?_ (fun _ _ => ?_) | refine elim_spine_of ?_ (fun _ => ?_))) <;> simp [foldl_spine]
@[simp] theorem State.runHeld_spine (s : State) (a1) : (State.runHeld s a1).spine = s.spine := by unfold State.runHeld; (repeat' split) <;> simp [foldl_spine]
@[simp] theorem State.runPublish_spine (s : State) (a1) : (State.runPublish s a1).spine = s.spine := by unfold State.runPublish; (repeat' split) <;> simp [foldl_spine]
@[simp] theorem State.onUp_spine (s : State) (a1) (k : Port → State) (h : ∀ p, (k p).spine = s.spine) : (State.onUp s a1 k).spine = s.spine := by
  unfold State.onUp
  refine elim_spine_of rfl fun _ => ?_
  split <;> simp [h]
@[simp] theorem State.runSearch_spine (s : State) (a1) : (State.runSearch s a1).spine = s.spine := by unfold State.runSearch; (repeat' (first | rfl | assumption | split | refine foldl_spine_of ?_ (fun _ _ => ?_) | refine elim_spine_of ?_ (fun _ => ?_))) <;> simp [foldl_spine]
@[simp] theorem State.heldRun_spine (s : State) : (State.heldRun s).spine = s.spine := by unfold State.heldRun; dsimp only; (repeat' (first | rfl | assumption | split | refine foldl_spine_of ?_ (fun _ _ => ?_) | refine elim_spine_of ?_ (fun _ => ?_))) <;> simp [foldl_spine]
@[simp] theorem State.bankLost_spine (s : State) (a1) : (State.bankLost s a1).spine = s.spine := by unfold State.bankLost; dsimp only; (repeat' split) <;> simp [foldl_spine]
@[simp] theorem State.rebuildBank_spine (s : State) (a1) : (State.rebuildBank s a1).spine = s.spine := by unfold State.rebuildBank; (repeat' split) <;> simp [foldl_spine]
@[simp] theorem State.bankFault_spine (s : State) (a1) : (State.bankFault s a1).spine = s.spine := by unfold State.bankFault; dsimp only; (repeat' split) <;> simp [foldl_spine]
@[simp] theorem State.bankRebuilt_spine (s : State) (a1) : (State.bankRebuilt s a1).spine = s.spine := by unfold State.bankRebuilt; dsimp only; (repeat' (first | rfl | assumption | split | refine foldl_spine_of ?_ (fun _ _ => ?_))) <;> simp [foldl_spine]
@[simp] theorem State.mapShadow_spine (s : State) (a1) : (State.mapShadow s a1).spine = s.spine := rfl
@[simp] theorem State.loseAt_spine (s : State) (a1) (a2) : (State.loseAt s a1 a2).spine = s.spine := by simp [State.loseAt, foldl_spine]
@[simp] theorem State.dropShadowless_spine (s : State) (a1) : (State.dropShadowless s a1).spine = s.spine := by unfold State.dropShadowless; (repeat' (first | rfl | assumption | split | refine foldl_spine_of ?_ (fun _ _ => ?_) | refine elim_spine_of ?_ (fun _ => ?_))) <;> simp [foldl_spine]
@[simp] theorem State.compareEntries_spine (s : State) (a1) : (State.compareEntries s a1).spine = s.spine := by unfold State.compareEntries; dsimp only; (repeat' split) <;> simp [foldl_spine]
@[simp] theorem State.rowMismatch_spine (s : State) (a1) : (State.rowMismatch s a1).spine = s.spine := by unfold State.rowMismatch; dsimp only; (repeat' split) <;> simp [foldl_spine]
@[simp] theorem State.rowUpset_spine (s : State) (a1) : (State.rowUpset s a1).spine = s.spine := by unfold State.rowUpset; dsimp only; (repeat' split) <;> simp [foldl_spine]
@[simp] theorem State.shadowCompare_spine (s : State) (a1) : (State.shadowCompare s a1).spine = s.spine := by simp [State.shadowCompare, foldl_spine]
@[simp] theorem State.holeRemoval_spine (s : State) (a1) : (State.holeRemoval s a1).spine = s.spine := by unfold State.holeRemoval; (repeat' split) <;> simp [foldl_spine]
@[simp] theorem State.idleWithdraw_spine (s : State) (a1) : (State.idleWithdraw s a1).spine = s.spine := by unfold State.idleWithdraw; dsimp only; (repeat' split) <;> simp [foldl_spine]
@[simp] theorem State.discardCopy_spine (s : State) (a1) : (State.discardCopy s a1).spine = s.spine := by
  unfold State.discardCopy
  refine foldl_spine_of rfl fun s x => ?_
  split
  · exact foldl_spine_of rfl fun _ _ => by simp
  · rfl
@[simp] theorem State.copyVerify_spine (s : State) (a1) : (State.copyVerify s a1).spine = s.spine := by unfold State.copyVerify; dsimp only; (repeat' split) <;> simp [foldl_spine]

/-! ### Records -/

@[simp] theorem State.metaSectorFails_spine (s : State) (a1) (a2) (a3) : (State.metaSectorFails s a1 a2 a3).spine = s.spine := by
  unfold State.metaSectorFails
  extract_lets lo bad seqHit recHit dirHit tableHit shadowHit seqs recs dir tables s1 hit s2 s3 s4 s5 s6 s7
  have h1 : s1.spine = s.spine := rfl
  clear_value s1 hit
  have h2 : s2.spine = s.spine := by simp [s2, h1]
  clear_value s2
  have h3 : s3.spine = s.spine := foldl_spine_of h2 (fun _ _ => by simp)
  clear_value s3
  have h4 : s4.spine = s.spine := foldl_spine_of h3 (fun _ _ => foldl_spine_of rfl fun _ _ => by split <;> simp)
  clear_value s4
  have h5 : s5.spine = s.spine := foldl_spine_of (by simp [h4]) (fun _ _ => by simp)
  clear_value s5
  have h6 : s6.spine = s.spine := foldl_spine_of h5 (fun _ _ => by simp)
  clear_value s6
  have h7 : s7.spine = s.spine := by simp [s7, h6]
  clear_value s7
  split <;> simp [h7]

/-! ### Memory -/

@[simp] theorem State.modStack_spine (s : State) (a1) (a2) : (State.modStack s a1 a2).spine = s.spine := rfl
@[simp] theorem State.modGroup_spine (s : State) (a1) (a2) : (State.modGroup s a1 a2).spine = s.spine := rfl
@[simp] theorem State.memNote_spine (s : State) (a1) (a2) (a3) : (State.memNote s a1 a2 a3).spine = s.spine := by simp [State.memNote, foldl_spine]
@[simp] theorem State.losePages_spine (s : State) (a1) : (State.losePages s a1).spine = s.spine := by simp [State.losePages, foldl_spine]
@[simp] theorem State.loseChunks_spine (s : State) (a1) : (State.loseChunks s a1).spine = s.spine := by unfold State.loseChunks; (repeat' (first | rfl | assumption | split | refine foldl_spine_of ?_ (fun _ _ => ?_) | refine elim_spine_of ?_ (fun _ => ?_))) <;> simp [foldl_spine]
@[simp] theorem State.dropCached_spine (s : State) : (State.dropCached s).spine = s.spine := rfl
@[simp] theorem State.mapMirrors_spine (s : State) (a1) : (State.mapMirrors s a1).spine = s.spine := rfl
@[simp] theorem State.unwriteRows_spine (s : State) (a1) : (State.unwriteRows s a1).spine = s.spine := rfl
@[simp] theorem State.copyGone_spine (s : State) (a1) : (State.copyGone s a1).spine = s.spine := rfl
@[simp] theorem State.faultUnmirrored_spine (s : State) : (State.faultUnmirrored s).spine = s.spine := by simp [State.faultUnmirrored, foldl_spine]
@[simp] theorem State.copyWritten_spine (s : State) : (State.copyWritten s).spine = s.spine := rfl
@[simp] theorem State.rehomeSeqs_spine (s : State) (a1) : (State.rehomeSeqs s a1).spine = s.spine := by
  unfold State.rehomeSeqs
  exact foldl_spine_of rfl fun _ _ => by simp
@[simp] theorem State.moveChunkOut_spine (s : State) (a1) (a2) : (State.moveChunkOut s a1 a2).spine = s.spine := by unfold State.moveChunkOut; (repeat' split) <;> simp [foldl_spine]
@[simp] theorem State.evacuateGroup_spine (s : State) (a1) : (State.evacuateGroup s a1).spine = s.spine := by simp [State.evacuateGroup, foldl_spine]
@[simp] theorem State.emptyGroup_spine (s : State) (a1) (a2) : (State.emptyGroup s a1 a2).spine = s.spine := by simp [State.emptyGroup, foldl_spine]
@[simp] theorem State.groupLoses_spine (s : State) (a1) : (State.groupLoses s a1).spine = s.spine := by unfold State.groupLoses; dsimp only; (repeat' split) <;> simp [foldl_spine]
@[simp] theorem State.loseStack_spine (s : State) (a1) : (State.loseStack s a1).spine = s.spine := by unfold State.loseStack; dsimp only; (repeat' split) <;> simp [foldl_spine]
@[simp] theorem State.setRowCount_spine (s : State) (a1) (a2) (a3) : (State.setRowCount s a1 a2 a3).spine = s.spine := rfl
@[simp] theorem State.retireRow_spine (s : State) (a1) (a2) : (State.retireRow s a1 a2).spine = s.spine := by unfold State.retireRow; dsimp only; (repeat' (first | rfl | assumption | split | refine foldl_spine_of ?_ (fun _ _ => ?_))) <;> simp [foldl_spine]
@[simp] theorem State.repairRow_spine (s : State) (a1) (a2) : (State.repairRow s a1 a2).spine = s.spine := by unfold State.repairRow; dsimp only; (repeat' split) <;> simp [foldl_spine]
@[simp] theorem State.noteLost_spine (s : State) (a1) (a2) (a3) : (State.noteLost s a1 a2 a3).spine = s.spine := by simp [State.noteLost, foldl_spine]
@[simp] theorem State.keptLost_spine (s : State) (a1) (a2) : (State.keptLost s a1 a2).spine = s.spine := by unfold State.keptLost; dsimp only; (repeat' split) <;> simp [foldl_spine]
@[simp] theorem State.sectorLost_spine (s : State) (a1) (a2) (a3) : (State.sectorLost s a1 a2 a3).spine = s.spine := by unfold State.sectorLost; dsimp only; (repeat' split) <;> simp [foldl_spine]
@[simp] theorem State.tagFails_spine (s : State) (a1) (a2) (a3) (a4) : (State.tagFails s a1 a2 a3 a4).spine = s.spine := by unfold State.tagFails; dsimp only; (repeat' split) <;> simp [foldl_spine]
@[simp] theorem State.shelfFails_spine (s : State) (a1) : (State.shelfFails s a1).spine = s.spine := by simp [State.shelfFails, foldl_spine]
@[simp] theorem State.readRefused_spine (s : State) (a1) (a2) : (State.readRefused s a1 a2).spine = s.spine := by unfold State.readRefused; (repeat' split) <;> simp [foldl_spine]
@[simp] theorem State.lineRead_spine (s : State) (a1) (a2) (a3) (a4) : (State.lineRead s a1 a2 a3 a4).spine = s.spine := by unfold State.lineRead; dsimp only; (repeat' split) <;> simp [foldl_spine]
@[simp] theorem State.readFault_spine (s : State) (a1) : (State.readFault s a1).spine = s.spine := by unfold State.readFault; (repeat' split) <;> simp [foldl_spine]
@[simp] theorem State.readFaults_spine (s : State) (a1) : (State.readFaults s a1).spine = s.spine := by
  unfold State.readFaults State.live; split <;> simp [foldl_spine]
@[simp] theorem State.evacuationEnd_spine (s : State) (a1) : (State.evacuationEnd s a1).spine = s.spine := by unfold State.evacuationEnd; dsimp only; (repeat' split) <;> simp [foldl_spine]
@[simp] theorem State.rebuildEnd_spine (s : State) (a1) : (State.rebuildEnd s a1).spine = s.spine := by unfold State.rebuildEnd; (repeat' split) <;> simp [foldl_spine]

/-! ### Direct -/

@[simp] theorem State.cxlFails_spine (s : State) (a1) (a2) : (State.cxlFails s a1 a2).spine = s.spine := by simp [State.cxlFails, foldl_spine]
@[simp] theorem State.cxlRead_spine (s : State) (a1) (a2) (a3) : (State.cxlRead s a1 a2 a3).spine = s.spine := by unfold State.cxlRead; (repeat' split) <;> simp [foldl_spine]

/-! ### Identity -/

@[simp] theorem State.openRefusal_spine (s : State) (a1) : (State.openRefusal s a1).spine = s.spine := by simp [State.openRefusal, foldl_spine]
@[simp] theorem State.drbgFails_spine (s : State) : (State.drbgFails s).spine = s.spine := by simp [State.drbgFails, foldl_spine]
@[simp] theorem State.drbgPasses_spine (s : State) : (State.drbgPasses s).spine = s.spine := rfl
@[simp] theorem State.brineDevice_spine (s : State) : (State.brineDevice s).spine = s.spine := by simp [State.brineDevice, foldl_spine]
@[simp] theorem State.commandBrine_spine (s : State) (a1) : (State.commandBrine s a1).spine = s.spine := by simp [State.commandBrine, foldl_spine]
@[simp] theorem State.sendEpoch_spine (s : State) (a1) (a2) : (State.sendEpoch s a1 a2).spine = s.spine := by
  unfold State.sendEpoch
  refine foldl_spine_of rfl fun s p => ?_
  (repeat' split) <;> simp
@[simp] theorem State.revokeFns_spine (s : State) (a1) : (State.revokeFns s a1).spine = s.spine := by
  unfold State.revokeFns
  refine foldl_spine_of rfl fun s p => ?_
  (repeat' split) <;> simp
@[simp] theorem State.beginRemoval_spine (s : State) (a1) (a2) : (State.beginRemoval s a1 a2).spine = s.spine := by unfold State.beginRemoval; dsimp only; (repeat' (first | rfl | assumption | split | refine foldl_spine_of ?_ (fun _ _ => ?_))) <;> simp [foldl_spine]
@[simp] theorem State.scrubTenant_spine (s : State) (a1) : (State.scrubTenant s a1).spine = s.spine := rfl
@[simp] theorem State.removalDrained_spine (s : State) (a1) : (State.removalDrained s a1).spine = s.spine := by unfold State.removalDrained; (repeat' split) <;> simp [foldl_spine]
@[simp] theorem State.dropPins_spine (s : State) (a1) : (State.dropPins s a1).spine = s.spine := rfl
@[simp] theorem State.reclaimEnds_spine (s : State) (a1) : (State.reclaimEnds s a1).spine = s.spine := by unfold State.reclaimEnds; dsimp only; (repeat' split) <;> simp [foldl_spine]
@[simp] theorem State.removeCmd_spine (s : State) (a1) (a2) : (State.removeCmd s a1 a2).spine = s.spine := by unfold State.removeCmd; (repeat' split) <;> simp [foldl_spine]
@[simp] theorem State.spdm_spine (s : State) (a1) (a2) (a3) : (State.spdm s a1 a2 a3).spine = s.spine := rfl
@[simp] theorem State.spdmError_spine (s : State) (a1) (a2) : (State.spdmError s a1 a2).spine = s.spine := rfl
@[simp] theorem State.respond_spine (s : State) (a1) (k : State → Session → State) (h : ∀ s c, (k s c).spine = s.spine) :
    (State.respond s a1 k).spine = s.spine := by
  unfold State.respond
  split
  · rfl
  · extract_lets s1
    have h1 : s1.spine = s.spine := by unfold s1; split <;> simp
    (repeat' split) <;> simp [h, h1]
@[simp] theorem State.inSession_spine (s : State) (a1) (k : State → Session → State) (h : ∀ s c, (k s c).spine = s.spine) :
    (State.inSession s a1 k).spine = s.spine := by
  unfold State.inSession
  refine State.respond_spine _ _ _ fun s x => ?_
  split <;> simp [h]
@[simp] theorem State.spdmGetVersion_spine (s : State) (a1) (a2) : (State.spdmGetVersion s a1 a2).spine = s.spine := by unfold State.spdmGetVersion; dsimp only; (repeat' split) <;> simp [foldl_spine]
@[simp] theorem State.spdmCaps_spine (s : State) (a1) : (State.spdmCaps s a1).spine = s.spine := by unfold State.spdmCaps; grind [State.spine, State.respond_spine, State.spdm_spine]
@[simp] theorem State.spdmAlgos_spine (s : State) (a1) (a2) : (State.spdmAlgos s a1 a2).spine = s.spine := by unfold State.spdmAlgos; grind [State.spine, State.respond_spine, State.spdm_spine, State.spdmError_spine]
@[simp] theorem State.spdmLarge_spine (s : State) (a1) (a2) (a3) (a4) : (State.spdmLarge s a1 a2 a3 a4).spine = s.spine := rfl
@[simp] theorem State.spdmDigests_spine (s : State) (a1) : (State.spdmDigests s a1).spine = s.spine := by
  unfold State.spdmDigests
  refine State.respond_spine _ _ _ fun s x => ?_
  (try dsimp only)
  (repeat' split) <;> simp
@[simp] theorem State.spdmCert_spine (s : State) (a1) (a2) : (State.spdmCert s a1 a2).spine = s.spine := by
  unfold State.spdmCert
  refine State.respond_spine _ _ _ fun s x => ?_
  (try dsimp only)
  (repeat' split) <;> simp
@[simp] theorem State.spdmChallenge_spine (s : State) (a1) (a2) (a3) : (State.spdmChallenge s a1 a2 a3).spine = s.spine := by unfold State.spdmChallenge; grind [State.spine, State.respond_spine, State.spdmError_spine, State.spdm_spine]
@[simp] theorem State.spdmMeasure_spine (s : State) (a1) (a2) (a3) : (State.spdmMeasure s a1 a2 a3).spine = s.spine := by
  unfold State.spdmMeasure
  refine State.respond_spine _ _ _ fun s x => ?_
  (try dsimp only)
  (repeat' split) <;> simp
@[simp] theorem State.spdmExchange_spine (s : State) (a1) (a2) : (State.spdmExchange s a1 a2).spine = s.spine := by
  unfold State.spdmExchange
  refine State.respond_spine _ _ _ fun s _ => ?_
  dsimp only
  (repeat' split) <;> simp
@[simp] theorem State.spdmFinish_spine (s : State) (a1) (a2) (a3) : (State.spdmFinish s a1 a2 a3).spine = s.spine := by
  unfold State.spdmFinish
  refine State.respond_spine _ _ _ fun s x => ?_
  (try dsimp only)
  (repeat' split) <;> simp
@[simp] theorem State.spdmHeartbeat_spine (s : State) (a1) : (State.spdmHeartbeat s a1).spine = s.spine := by unfold State.spdmHeartbeat; grind [State.spine, State.inSession_spine, State.spdm_spine]
@[simp] theorem State.spdmUpdate_spine (s : State) (a1) : (State.spdmUpdate s a1).spine = s.spine := by
  unfold State.spdmUpdate
  refine State.inSession_spine _ _ _ fun s _ => ?_
  dsimp only
  (repeat' split) <;> simp
@[simp] theorem State.spdmEnd_spine (s : State) (a1) : (State.spdmEnd s a1).spine = s.spine := by simp [State.spdmEnd, foldl_spine]
@[simp] theorem State.spdmChunkOut_spine (s : State) (a1) (a2) : (State.spdmChunkOut s a1 a2).spine = s.spine := by unfold State.spdmChunkOut; dsimp only; grind [State.spine, State.respond_spine, State.spdmError_spine, State.spdm_spine]
@[simp] theorem State.spdmOther_spine (s : State) (a1) (a2) : (State.spdmOther s a1 a2).spine = s.spine := by unfold State.spdmOther; (repeat' split) <;> simp [foldl_spine]
@[simp] theorem State.deliverKey_spine (s : State) (a1) (a2) (a3) (a4) : (State.deliverKey s a1 a2 a3 a4).spine = s.spine := by unfold State.deliverKey; dsimp only; (repeat' (first | rfl | assumption | split | refine foldl_spine_of ?_ (fun _ _ => ?_) | refine elim_spine_of ?_ (fun _ => ?_))) <;> simp [foldl_spine]
@[simp] theorem State.withdrawKey_spine (s : State) (a1) (a2) : (State.withdrawKey s a1 a2).spine = s.spine := by unfold State.withdrawKey; dsimp only; (repeat' split) <;> simp [foldl_spine]
@[simp] theorem State.spdmRun_spine (s : State) (a1) (a2) : (State.spdmRun s a1 a2).spine = s.spine := by unfold State.spdmRun; (repeat' split) <;> simp [foldl_spine]
@[simp] theorem State.spdmChunkIn_spine (s : State) (a1) (a2) (a3) : (State.spdmChunkIn s a1 a2 a3).spine = s.spine := by unfold State.spdmChunkIn; dsimp only; grind [State.spine, State.respond_spine, State.spdm_spine, State.modSession_spine, State.spdmRun_spine]

/-! ### Boot -/

@[simp] theorem State.bootRecord_spine (s : State) (a1) (a2) (a3) : (State.bootRecord s a1 a2 a3).spine = s.spine := rfl
@[simp] theorem State.bootKeys_spine (s : State) (a1) : (State.bootKeys s a1).spine = s.spine := by unfold State.bootKeys; dsimp only; (repeat' (first | rfl | assumption | split | refine foldl_spine_of ?_ (fun _ _ => ?_) | refine elim_spine_of ?_ (fun _ => ?_))) <;> grind [State.spine, State.fillSlot_spine, State.setKey_spine]
@[simp] theorem State.ownerChain_spine (s : State) (a1) : (State.ownerChain s a1).spine = s.spine := by unfold State.ownerChain; dsimp only; (repeat' split) <;> simp [foldl_spine]
@[simp] theorem State.bootSpares_spine (s : State) : (State.bootSpares s).spine = s.spine := by simp [State.bootSpares, foldl_spine]
@[simp] theorem State.imageRefused_spine (s : State) : (State.imageRefused s).spine = s.spine := by unfold State.imageRefused; dsimp only; (repeat' split) <;> simp [foldl_spine]
@[simp] theorem State.setCore_spine (s : State) : (State.setCore s).spine = s.spine := rfl
@[simp] theorem State.hbmTrained_spine (s : State) (a1) (a2) : (State.hbmTrained s a1 a2).spine = s.spine := by unfold State.hbmTrained; dsimp only; (repeat' split) <;> simp [foldl_spine]
@[simp] theorem State.memorySetup_spine (s : State) : (State.memorySetup s).spine = s.spine := rfl
@[simp] theorem State.ucieUp_spine (s : State) (a1) (a2) (a3) : (State.ucieUp s a1 a2 a3).spine = s.spine := by unfold State.ucieUp; dsimp only; (repeat' (first | rfl | assumption | split | refine foldl_spine_of ?_ (fun _ _ => ?_))) <;> simp [foldl_spine]
@[simp] theorem State.resetEngines_spine (s : State) (a1) : (State.resetEngines s a1).spine = s.spine := by simp [State.resetEngines, foldl_spine]
@[simp] theorem State.resetGroup_spine (s : State) (a1) : (State.resetGroup s a1).spine = s.spine := by simp [State.resetGroup, foldl_spine]
@[simp] theorem State.cutPort_spine (s : State) (a1) : (State.cutPort s a1).spine = s.spine := by unfold State.cutPort; (repeat' split) <;> simp [foldl_spine]
@[simp] theorem State.resetDomainNow_spine (s : State) (a1) (a2) : (State.resetDomainNow s a1 a2).spine = s.spine := by unfold State.resetDomainNow; (repeat' split) <;> simp [foldl_spine]
@[simp] theorem State.beginPartial_spine (s : State) (a1) (a2) (a3) : (State.beginPartial s a1 a2 a3).spine = s.spine := by unfold State.beginPartial; dsimp only; (repeat' split) <;> simp [foldl_spine]
@[simp] theorem State.fnReset_spine (s : State) (a1) : (State.fnReset s a1).spine = s.spine := by simp [State.fnReset, foldl_spine]
@[simp] theorem State.endDomain_spine (s : State) (a1) (a2) : (State.endDomain s a1 a2).spine = s.spine := by unfold State.endDomain; dsimp only; (repeat' split) <;> simp [foldl_spine]
@[simp] theorem State.partialEnd_spine (s : State) (a1) (a2) : (State.partialEnd s a1 a2).spine = s.spine := by unfold State.partialEnd; dsimp only; (repeat' split) <;> simp [foldl_spine]
@[simp] theorem State.groupLinkLoss_spine (s : State) (a1) : (State.groupLinkLoss s a1).spine = s.spine := by unfold State.groupLinkLoss; (repeat' split) <;> simp [foldl_spine]

/-! ### Mgmt -/

@[simp] theorem State.connect_spine (s : State) (a1) (a2) (a3) (a4) : (State.connect s a1 a2 a3 a4).spine = s.spine := by unfold State.connect; dsimp only; (repeat' split) <;> simp [foldl_spine]
@[simp] theorem State.idleClose_spine (s : State) (a1) : (State.idleClose s a1).spine = s.spine := by unfold State.idleClose; (repeat' split) <;> simp [foldl_spine]
@[simp] theorem State.clientClose_spine (s : State) (a1) : (State.clientClose s a1).spine = s.spine := by unfold State.clientClose; (repeat' split) <;> simp [foldl_spine]
@[simp] theorem State.unknownCommand_spine (s : State) (a1) (a2) (a3) : (State.unknownCommand s a1 a2 a3).spine = s.spine := by unfold State.unknownCommand; (repeat' split) <;> simp [foldl_spine]
@[simp] theorem State.serveRead_spine (s : State) (a1) (a2) (a3) (k : State → Bool → State) (h : ∀ s c, (k s c).spine = s.spine) :
    (State.serveRead s a1 a2 a3 k).spine = s.spine := by
  unfold State.serveRead
  split
  · split <;> simp [h]
  · split
    · split
      · split <;> simp [h]
      · rfl
    · exact State.serve_spine _ _ _ _ _ fun s c => h _ _
@[simp] theorem State.statusRead_spine (s : State) (a1) : (State.statusRead s a1).spine = s.spine := by unfold State.statusRead; (repeat' split) <;> simp [foldl_spine]
@[simp] theorem State.eventsFrom_spine (s : State) (a1) (a2) (a3) : (State.eventsFrom s a1 a2 a3).spine = s.spine := by unfold State.eventsFrom; dsimp only; (repeat' split) <;> simp [foldl_spine]
@[simp] theorem State.eventRead_spine (s : State) (a1) (a2) (a3) : (State.eventRead s a1 a2 a3).spine = s.spine := by simp [State.eventRead, foldl_spine]
@[simp] theorem State.traceRead_spine (s : State) (a1) (a2) : (State.traceRead s a1 a2).spine = s.spine := by unfold State.traceRead; grind [State.spine, State.serve_spine, State.reply_spine, State.emit_spine]
@[simp] theorem State.telemetryRead_spine (s : State) (a1) (a2) (a3) : (State.telemetryRead s a1 a2 a3).spine = s.spine := by unfold State.telemetryRead; grind [State.spine, State.reply_spine, State.serve_spine]
@[simp] theorem State.partialCmd_spine (s : State) (a1) (a2) (a3) (a4) : (State.partialCmd s a1 a2 a3 a4).spine = s.spine := by unfold State.partialCmd; (repeat' split) <;> simp [foldl_spine]
@[simp] theorem State.holdLink_spine (s : State) (a1) (a2) : (State.holdLink s a1 a2).spine = s.spine := by unfold State.holdLink; (repeat' split) <;> simp [foldl_spine]
@[simp] theorem State.releaseLink_spine (s : State) (a1) (a2) : (State.releaseLink s a1 a2).spine = s.spine := by unfold State.releaseLink; (repeat' split) <;> simp [foldl_spine]
@[simp] theorem State.writeChunks_spine (s : State) (a1) (a2) : (State.writeChunks s a1 a2).spine = s.spine := by unfold State.writeChunks; dsimp only; (repeat' (first | rfl | assumption | split | refine foldl_spine_of ?_ (fun _ _ => ?_) | refine elim_spine_of ?_ (fun _ => ?_))) <;> simp [foldl_spine]
@[simp] theorem State.loadWeights_spine (s : State) (a1) (a2) (a3) : (State.loadWeights s a1 a2 a3).spine = s.spine := by unfold State.loadWeights; dsimp only; (repeat' split) <;> simp [foldl_spine]
@[simp] theorem State.releaseVolume_spine (s : State) (a1) (a2) : (State.releaseVolume s a1 a2).spine = s.spine := by unfold State.releaseVolume; (repeat' split) <;> simp [foldl_spine]
@[simp] theorem State.takeAddress_spine (s : State) (a1) : (State.takeAddress s a1).spine = s.spine := by unfold State.takeAddress; dsimp only; (repeat' split) <;> simp [foldl_spine]
@[simp] theorem State.setAddress_spine (s : State) (a1) (a2) : (State.setAddress s a1 a2).spine = s.spine := by unfold State.setAddress; (repeat' split) <;> simp [foldl_spine]

/-! ### Power -/

@[simp] theorem State.stop_spine (s : State) (a1) : (State.stop s a1).spine = s.spine := rfl
@[simp] theorem State.railFault_spine (s : State) (a1) : (State.railFault s a1).spine = s.spine := by unfold State.railFault; dsimp only; (repeat' split) <;> simp [foldl_spine]
@[simp] theorem State.avsRetry_spine (s : State) (a1) : (State.avsRetry s a1).spine = s.spine := by unfold State.avsRetry; dsimp only; (repeat' split) <;> simp [foldl_spine]
@[simp] theorem State.setAlarm_spine (s : State) : (State.setAlarm s).spine = s.spine := rfl
@[simp] theorem State.clockEvent_spine (s : State) : (State.clockEvent s).spine = s.spine := by simp [State.clockEvent, foldl_spine]
@[simp] theorem State.windowRuns_spine (s : State) (a1) (a2) : (State.windowRuns s a1 a2).spine = s.spine := by unfold State.windowRuns; dsimp only; (repeat' split) <;> simp [foldl_spine]
@[simp] theorem State.switchover_spine (s : State) : (State.switchover s).spine = s.spine := by unfold State.switchover; dsimp only; (repeat' split) <;> simp [foldl_spine]
@[simp] theorem State.holdoverEnds_spine (s : State) : (State.holdoverEnds s).spine = s.spine := by unfold State.holdoverEnds; dsimp only; (repeat' split) <;> simp [foldl_spine]
@[simp] theorem State.linkClockGone_spine (s : State) (a1) : (State.linkClockGone s a1).spine = s.spine := by simp [State.linkClockGone, foldl_spine]
@[simp] theorem State.reprice_spine (s : State) (a1) (a2) : (State.reprice s a1 a2).spine = s.spine := rfl
@[simp] theorem State.toStage_spine (s : State) (a1) : (State.toStage s a1).spine = s.spine := by unfold State.toStage; dsimp only; (repeat' split) <;> simp [foldl_spine]
@[simp] theorem State.stageStep_spine (s : State) : (State.stageStep s).spine = s.spine := by unfold State.stageStep; dsimp only; (repeat' split) <;> simp [foldl_spine]
@[simp] theorem State.readPower_spine (s : State) : (State.readPower s).spine = s.spine := by unfold State.readPower; dsimp only; (repeat' split) <;> simp [foldl_spine]
@[simp] theorem State.sensorEvents_spine (s : State) (a1) : (State.sensorEvents s a1).spine = s.spine := by simp [State.sensorEvents, foldl_spine]
@[simp] theorem State.thermalSample_spine (s : State) (a1) (a2) : (State.thermalSample s a1 a2).spine = s.spine := by unfold State.thermalSample; dsimp only; (repeat' split) <;> simp [foldl_spine]
@[simp] theorem State.endServed_spine (s : State) (a1) : (State.endServed s a1).spine = s.spine := by unfold State.endServed; (repeat' (first | rfl | assumption | split | refine foldl_spine_of ?_ (fun _ _ => ?_) | refine elim_spine_of ?_ (fun _ => ?_))) <;> simp [foldl_spine]
@[simp] theorem State.islandOut_spine (s : State) (a1) : (State.islandOut s a1).spine = s.spine := by unfold State.islandOut; (repeat' split) <;> simp [foldl_spine]
@[simp] theorem State.blockOut_spine (s : State) (a1) : (State.blockOut s a1).spine = s.spine := by unfold State.blockOut; dsimp only; (repeat' split) <;> simp [foldl_spine]
@[simp] theorem State.arbiterFault_spine (s : State) (a1) (a2) : (State.arbiterFault s a1 a2).spine = s.spine := by simp [State.arbiterFault, foldl_spine]

/-! ### Sched -/

@[simp] theorem State.serveQueue_spine (s : State) (a1) (a2) : (State.serveQueue s a1 a2).spine = s.spine := rfl
@[simp] theorem State.select_spine (s : State) (a1) : (State.select s a1).spine = s.spine := by unfold State.select; dsimp only; (repeat' split) <;> simp [foldl_spine]
@[simp] theorem State.wheelTick_spine (s : State) (a1) : (State.wheelTick s a1).spine = s.spine := by unfold State.wheelTick; dsimp only; (repeat' split) <;> simp [foldl_spine]
@[simp] theorem State.gateBoundary_spine (s : State) (a1) : (State.gateBoundary s a1).spine = s.spine := by unfold State.gateBoundary; (repeat' split) <;> simp [foldl_spine]
@[simp] theorem State.sampleQueues_spine (s : State) : (State.sampleQueues s).spine = s.spine := by unfold State.sampleQueues; (repeat' split) <;> simp [foldl_spine]
@[simp] theorem State.snapshot_spine (s : State) : (State.snapshot s).spine = s.spine := rfl
@[simp] theorem State.endTick_spine (s : State) : (State.endTick s).spine = s.spine := by simp [State.endTick, foldl_spine]

end Sys2Proof.Machine
end

