-- ==== Sys2Proof/Laws/Steps.lean ====
section
/-! SUPPORT. What a command does to the queue of waiting commands, the direct region, the image and device time: everything the commands
that leave the spine alone can do follows from their lemma in the Spine files; the others (transfers into the direct region, restores,
debug, flash, boot and reset) are taken here one by one. -/

namespace Sys2Proof.Machine

/-! ### Facts that a spine lemma gives -/

theorem pending_of_spine {s t : State} (h : t.spine = s.spine) : t.pending = s.pending := congrArg Spine.pending h
theorem now_of_spine {s t : State} (h : t.spine = s.spine) : t.now = s.now := congrArg Spine.now h
theorem timePage_of_spine {s t : State} (h : t.spine = s.spine) : t.timePage = s.timePage := congrArg Spine.timePage h
theorem image_of_spine {s t : State} (h : t.spine = s.spine) : t.image = s.image := congrArg Spine.image h
theorem flashA_of_spine {s t : State} (h : t.spine = s.spine) : t.flashA = s.flashA := congrArg Spine.flashA h
theorem flashB_of_spine {s t : State} (h : t.spine = s.spine) : t.flashB = s.flashB := congrArg Spine.flashB h
theorem debug_of_spine {s t : State} (h : t.spine = s.spine) : t.dbg = s.dbg := congrArg Spine.dbg h
theorem direct_of_spine {s t : State} (h : t.spine = s.spine) : t.direct = s.direct := congrArg Spine.direct h

/-! ### One step of the block, in what it may do to the spine -/

/-- `t` may follow `s`: the queue of waiting commands stands, the direct region keeps its form, and a controller that stays in service
keeps its image. -/
structure Follows (s t : State) : Prop where
  pending : t.pending = s.pending
  direct  : s.direct.wf = true → t.direct.wf = true
  image   : s.inService = true → t.inService = true → t.image = s.image
  now     : t.now = s.now ∨ (t.now = 0 ∧ t.inService = false)

theorem Follows.of_spine {s t : State} (h : t.spine = s.spine) : Follows s t where
  pending := pending_of_spine h
  direct := by rw [direct_of_spine h]; exact id
  image := fun _ _ => image_of_spine h
  now := .inl (now_of_spine h)

/-- Everything but the direct region stands, and that keeps its form. -/
def WritesDirect (s t : State) : Prop :=
  ∃ m : Memory, t.spine = { s.spine with direct := m } ∧ (s.direct.wf = true → m.wf = true)

theorem WritesDirect.of_spine {s t : State} (h : t.spine = s.spine) : WritesDirect s t := ⟨s.direct, h, id⟩

theorem WritesDirect.follows {s t : State} (h : WritesDirect s t) : Follows s t := by
  obtain ⟨m, h, hw⟩ := h
  exact ⟨congrArg Spine.pending h, fun w => by
    rw [show t.direct = m from congrArg Spine.direct h]; exact hw w, fun _ _ => congrArg Spine.image h,
    .inl (congrArg Spine.now h)⟩

theorem WritesDirect.trans_spine {s t u : State} (h : WritesDirect s t) (hu : u.spine = t.spine) : WritesDirect s u := by
  obtain ⟨m, h, hw⟩ := h
  exact ⟨m, hu.trans h, hw⟩

theorem WritesDirect.spine_trans {s t u : State} (h : t.spine = s.spine) (hu : WritesDirect t u) : WritesDirect s u := by
  obtain ⟨m, hm, hw⟩ := hu
  refine ⟨m, by rw [hm, h], fun w => hw ?_⟩
  rw [direct_of_spine h]; exact w

theorem State.directWrite_writes (s : State) (a : Nat) (data : Bytes) : WritesDirect s (s.directWrite a data) :=
  ⟨s.direct.writeN a data, rfl, fun h => Memory.writeN_wf data _ _ h⟩

theorem State.putDest_writes (s : State) (r : Req) (o : MemOpF) (data : Bytes) (fl : RecFlags) : WritesDirect s (s.putDest r o data fl) := by
  unfold State.putDest
  split
  · exact .of_spine (by simp)
  · split
    · exact .of_spine (by simp)
    · exact (s.directWrite_writes o.address data).trans_spine (by simp)
  · split
    · exact .of_spine (by simp)
    · exact .of_spine (by simp)

/-- Reading a slot from staging leaves the spine as it is. -/
theorem State.readSlot_spine (s : State) (r : Req) (i b layer : Nat) : (s.readSlot r i b layer).1.spine = s.spine := by
  unfold State.readSlot
  extract_lets r'
  split
  · rfl
  · split
    · rfl
    · extract_lets s1
      have h1 : s1.spine = s.spine := State.loadBlock_spine _ _ _ _
      clear_value s1
      split
      · simp [h1]
      · simp [h1]
      · rw [State.modReq_spine, State.ripen_spine]
        exact elim_spine_of h1 fun _ => h1

theorem State.readSlots_spine (id : Nat) (l : List (Nat × Nat × Nat)) (s : State) : (State.readSlots id l s).1.spine = s.spine := by
  induction l generalizing s with
  | nil => rfl
  | cons x rest ih =>
    obtain ⟨i, b, layer⟩ := x
    unfold State.readSlots
    split
    · rfl
    · next r _ =>
      have e := s.readSlot_spine r i b layer
      split <;> (next h => rw [h] at e; first | exact (ih _).trans e | exact e)

theorem State.nearResult_writes (s : State) (r : Req) (pages data : Bytes) : WritesDirect s (s.nearResult r pages data) := by
  unfold State.nearResult
  extract_lets bs
  split
  · exact State.putDest_writes _ _ _ _ _
  · exact State.putDest_writes _ _ _ _ _
  · exact .of_spine (by simp)
  · split
    · exact .of_spine rfl
    · dsimp only
      exact State.putDest_writes _ _ _ _ _

theorem State.nearTransfer_writes (s : State) (r : Req) (ok : Bool) (data : Bytes) : WritesDirect s (s.nearTransfer r ok data) := by
  unfold State.nearTransfer
  split
  · exact .of_spine rfl
  · split
    · exact .of_spine (by simp)
    · split
      · exact .of_spine (by simp)
      · have e := State.readSlots_spine r.id r.slotsLeft s
        split
        · next h => rw [h] at e; exact .of_spine (by simpa using e)
        · next h =>
          rw [h] at e
          split
          · exact .of_spine e
          · split
            · exact .of_spine e
            · exact .spine_trans e (State.nearResult_writes _ _ _ _)

theorem State.transferEnd_writes (s : State) (r : Req) (ok : Bool) (data : Bytes) : WritesDirect s (s.transferEnd r ok data) := by
  unfold State.transferEnd
  split
  · exact .of_spine (by simp)
  · split
    · exact .of_spine rfl
    · split <;> first | (apply WritesDirect.of_spine; simp; done) | exact .of_spine rfl | exact State.nearTransfer_writes _ _ _ _

theorem State.checkedTransfer_writes (s : State) (r : Req) (ok : Bool) (check : SelfCheck) (data : Bytes) :
    WritesDirect s (s.checkedTransfer r ok check data) := by
  unfold State.checkedTransfer
  split
  · split <;> exact .of_spine (by simp)
  · exact .spine_trans (State.hashCheck_spine _ _ _) (State.transferEnd_writes _ _ _ _)

theorem State.cxlWrite_writes (s : State) (line : Nat) (data : Bytes) : WritesDirect s (s.cxlWrite line data) := by
  unfold State.cxlWrite
  split
  · exact .of_spine (by simp)
  · split
    · exact .of_spine (by simp)
    · exact (s.directWrite_writes (64 * line) (data.take 64)).trans_spine (by simp)

theorem State.restore_writes (s : State) (x : TenantSt) : WritesDirect s (s.restore x) := by
  unfold State.restore
  extract_lets t isl s1 s2 s3 ready s4
  have h2 : s2.spine = s.spine := by unfold s2 s1; simp
  have h3 : WritesDirect s s3 := by
    unfold s3
    split
    · exact ⟨[], by rw [← h2]; rfl, fun _ => rfl⟩
    · exact .of_spine h2
  exact h3.trans_spine rfl

theorem State.restoreCmd_writes (s : State) (conn tenant : Nat) : WritesDirect s (s.restoreCmd conn tenant) := by
  unfold State.restoreCmd
  (repeat' split) <;> first | (apply WritesDirect.of_spine; simp; done) | exact (State.restore_writes s _).trans_spine (State.reply_spine _ _ _ _)

/-! ### Commands of the management port -/

/-- Whatever a served command does, the service around it leaves the spine alone. -/
theorem State.serve_cases (s : State) (conn : Nat) (roles : List Nat) (before : Bool) (k : State → Conn → State) :
    (s.serve conn roles before k).spine = s.spine ∨
      ∃ c, s.serve conn roles before k = k (s.touch conn) c ∧ (before = false → s.inService = true) := by
  unfold State.serve
  split
  · exact .inl rfl
  · next c _ =>
    split
    · exact .inl rfl
    · extract_lets s1
      split
      · exact .inl (by simp [s1])
      · split
        · exact .inl (by simp [s1])
        · split
          · next h =>
            refine .inr ⟨c, rfl, fun hb => ?_⟩
            rw [hb, Bool.or_false] at h
            exact h
          · exact .inl (by simp [s1])

/-! ### The debug state (R334 to R336) -/

/-- Everything but the debug state stands. -/
def ChangesDebug (s t : State) : Prop := ∃ d, t.spine = { s.spine with dbg := d }

theorem ChangesDebug.of_spine {s t : State} (h : t.spine = s.spine) : ChangesDebug s t := ⟨s.dbg, h⟩

theorem ChangesDebug.trans {s t u : State} (h : ChangesDebug s t) (hu : ChangesDebug t u) : ChangesDebug s u := by
  obtain ⟨d, h⟩ := h; obtain ⟨e, hu⟩ := hu
  exact ⟨e, by rw [hu, h]⟩

theorem ChangesDebug.follows {s t : State} (h : ChangesDebug s t) : Follows s t := by
  obtain ⟨d, h⟩ := h
  refine ⟨congrArg Spine.pending h, fun w => ?_, fun _ _ => congrArg Spine.image h, .inl (congrArg Spine.now h)⟩
  rw [show t.direct = s.direct from congrArg Spine.direct h]; exact w

theorem State.openJtag_debug (s : State) : ChangesDebug s s.openJtag := by
  unfold State.openJtag
  extract_lets tokens s1 s2 isl s3 s4 level dbg s5 s6
  have h1 : s1.spine = s.spine := foldl_spine_of rfl fun _ _ => by simp
  have h2 : s2.spine = s.spine := foldl_spine_of h1 fun _ _ => by simp
  have h4 : s4.spine = s.spine := by unfold s4 s3; simp [h2]
  have h5 : ChangesDebug s s5 := ⟨_, by rw [← h4]; rfl⟩
  have h6 : ChangesDebug s s6 := h5.trans (.of_spine (foldl_spine_of rfl fun _ _ => by simp))
  exact h6.trans (.of_spine (foldl_spine_of rfl fun _ _ => by simp))

theorem State.settleUnlock_debug (s : State) : ChangesDebug s s.settleUnlock := by
  unfold State.settleUnlock
  split
  · exact s.openJtag_debug
  · exact .of_spine rfl

theorem State.unlock_debug (s : State) (conn : Nat) (t : Token) : ChangesDebug s (s.unlock conn t) := by
  unfold State.unlock
  extract_lets n d1 s1 d2 s2 s3
  have h1 : ChangesDebug s s1 := ⟨_, rfl⟩
  split
  · exact h1.trans (.of_spine (by simp))
  · have h2 : ChangesDebug s s2 := h1.trans ⟨_, rfl⟩
    exact (h2.trans (.of_spine (foldl_spine_of rfl fun _ _ => by simp))).trans (State.settleUnlock_debug _)

theorem State.issueNonce_debug (s : State) (conn : Nat) : ChangesDebug s (s.issueNonce conn) := by
  unfold State.issueNonce
  split
  · exact .of_spine (by simp)
  · dsimp only
    refine ChangesDebug.trans (.of_spine (State.draw_spine s)) (ChangesDebug.trans ?_ (.of_spine (State.reply_spine _ _ _ _)))
    exact ⟨_, rfl⟩

theorem State.lapseNonce_debug (s : State) : ChangesDebug s s.lapseNonce := by
  unfold State.lapseNonce
  split
  · split
    · exact ⟨_, rfl⟩
    · exact .of_spine rfl
  · exact .of_spine rfl

theorem State.tenantGone_debug (s : State) (tenant : Nat) : ChangesDebug s (s.tenantGone tenant) := by
  unfold State.tenantGone
  split
  · exact .of_spine rfl
  · split
    · exact .of_spine rfl
    · extract_lets s1
      refine ChangesDebug.trans (.of_spine ?_) (State.settleUnlock_debug _)
      split <;> simp [s1]

/-! ### The flash (R359, R373) -/

/-- Everything but the two configuration flash devices stands. -/
def ChangesFlash (s t : State) : Prop := ∃ a b, t.spine = { s.spine with flashA := a, flashB := b }

theorem ChangesFlash.of_spine {s t : State} (h : t.spine = s.spine) : ChangesFlash s t := ⟨s.flashA, s.flashB, h⟩

theorem ChangesFlash.trans {s t u : State} (h : ChangesFlash s t) (hu : ChangesFlash t u) : ChangesFlash s u := by
  obtain ⟨a, b, h⟩ := h; obtain ⟨c, d, hu⟩ := hu
  exact ⟨c, d, by rw [hu, h]⟩

theorem ChangesFlash.follows {s t : State} (h : ChangesFlash s t) : Follows s t := by
  obtain ⟨a, b, h⟩ := h
  refine ⟨congrArg Spine.pending h, fun w => ?_, fun _ _ => congrArg Spine.image h, .inl (congrArg Spine.now h)⟩
  rw [show t.direct = s.direct from congrArg Spine.direct h]; exact w

theorem State.writeEntry_flash (s : State) (e : BootEntry) : ChangesFlash s (s.writeEntry e) := ⟨_, _, rfl⟩

theorem State.setFlash_flash (s : State) (b : Bool) (g : Flash → Flash) : ChangesFlash s (s.setFlash b g) := by
  cases b
  · exact ⟨_, _, rfl⟩
  · exact ⟨_, _, rfl⟩

theorem State.eraseSlot_flash (s : State) : ChangesFlash s s.eraseSlot := State.setFlash_flash _ _ _

theorem State.abandon_flash (s : State) : ChangesFlash s s.abandon :=
  s.eraseSlot_flash.trans (ChangesFlash.trans (t := { s.eraseSlot with update := { s.update with st := 0, staged := none, next := 0, total := 0 } })
    (.of_spine rfl) (.of_spine (by unfold State.abandon; simp)))

theorem State.beginStaging_flash (s : State) (recovery : Bool) (total : Nat) : ChangesFlash s (s.beginStaging recovery total) := by
  unfold State.beginStaging
  extract_lets e s1
  have h1 : ChangesFlash s s1 := by
    unfold s1; split
    · exact State.writeEntry_flash _ _
    · exact .of_spine rfl
  exact (h1.trans (.of_spine rfl)).trans (State.eraseSlot_flash _)

theorem State.activate_flash (s : State) (conn : Nat) : ChangesFlash s (s.activate conn) := by
  unfold State.activate
  split
  · exact .of_spine (by simp)
  · split
    · exact .of_spine (by simp)
    · split
      · exact .of_spine (by simp)
      · exact ((State.writeEntry_flash _ _).trans (.of_spine rfl)).trans (.of_spine (State.reply_spine _ _ _ _))

theorem State.cancel_flash (s : State) (conn : Nat) : ChangesFlash s (s.cancel conn) := by
  unfold State.cancel
  split
  · exact .of_spine (by simp)
  · split
    · exact .of_spine (by simp)
    · extract_lets e s1
      have h1 : ChangesFlash s s1 := by
        unfold s1; split
        · exact State.writeEntry_flash _ _
        · exact .of_spine rfl
      exact (h1.trans (.of_spine rfl)).trans (.of_spine (State.reply_spine _ _ _ _))

theorem State.proven_flash (s : State) : ChangesFlash s s.proven := by
  unfold State.proven
  extract_lets b i e s1
  split
  · exact .of_spine rfl
  · exact ChangesFlash.trans (.of_spine rfl) (State.writeEntry_flash _ _)

theorem State.serviceBegins_flash (s : State) : ChangesFlash s s.serviceBegins := by
  unfold State.serviceBegins
  split
  · exact .of_spine rfl
  · exact ChangesFlash.trans (ChangesFlash.trans (.of_spine (State.memorySetup_spine s)) (State.proven_flash _)) (.of_spine rfl)

/-! ### Resets and the image step (R356, R357, R369) -/

/-- A full reset: the queue stands, the direct region is empty, device time is 0, and the controller is not in service. -/
structure Resets_ (s t : State) : Prop where
  pending : t.pending = s.pending
  direct  : t.direct = []
  service : t.inService = false
  now     : t.now = 0

theorem Resets_.follows {s t : State} (h : Resets_ s t) : Follows s t :=
  ⟨h.pending, fun _ => by rw [h.direct]; rfl, fun _ hs => absurd (h.service.symm.trans hs) (by decide), .inr ⟨h.now, h.service⟩⟩

theorem Resets_.of_pending {s t u : State} (h : t.pending = s.pending) (hu : Resets_ t u) : Resets_ s u :=
  ⟨hu.pending.trans h, hu.direct, hu.service, hu.now⟩

theorem State.note_boot (s : State) (name : String) (source detail : Nat) : (s.note name source detail).boot = s.boot := by
  obtain ⟨r, hr⟩ := s.event_eq name none source detail
  unfold State.note
  rw [hr]

theorem State.wiped_resets (s : State) (phase : Phase) (h : phase ≠ .service) : Resets_ s (s.wiped phase) := by
  have key : ∀ t : State, t.pending = s.pending ∧ t.direct = [] ∧ t.now = 0 ∧ t.boot.phase = phase →
      Resets_ s (if s.update.st = 1 then t.note "UPLOAD_ABANDONED" (evSource 0 0) 0 else t) := by
    intro t e
    obtain ⟨e1, e2, e3, e4⟩ := e
    have sv : ∀ u : State, u.boot = t.boot → u.inService = false := fun u hu => by
      unfold State.inService; rw [hu, e4]; cases phase <;> first | rfl | exact absurd rfl h
    split
    · exact ⟨(pending_of_spine (State.note_spine _ _ _ _)).trans e1, (direct_of_spine (State.note_spine _ _ _ _)).trans e2,
        sv _ (State.note_boot _ _ _ _), (now_of_spine (State.note_spine _ _ _ _)).trans e3⟩
    · exact ⟨e1, e2, sv _ rfl, e3⟩
  exact key _ ⟨rfl, rfl, rfl, rfl⟩

/-- Reset release from a state that a reset has just left. -/
theorem State.release_resets (s : State) (pri sec : Bool) (hd : s.direct = []) (hn : s.now = 0) : Resets_ s (s.release pri sec) := by
  unfold State.release
  extract_lets p s1 b s2
  split
  · exact ⟨rfl, hd, rfl, hn⟩
  · split
    · have e : s2.inService = false := rfl
      obtain ⟨r, hr⟩ := s2.event_eq "REFCLK_SWITCHOVER" (some 0x8E02) (evSource 14 0) 1
      rw [hr]
      exact ⟨rfl, hd, rfl, rfl⟩
    · exact ⟨rfl, hd, rfl, rfl⟩

theorem State.commandReset_resets (s : State) : Resets_ s s.commandReset := by
  have h := s.wiped_resets .identity (by decide)
  exact Resets_.of_pending h.pending (State.release_resets _ _ _ h.direct h.now)

theorem State.fullReset_follows (s : State) (cause : ResetCause) : Follows s (s.fullReset cause) := by
  have h := s.wiped_resets .inReset (by decide)
  unfold State.fullReset
  extract_lets low
  split
  · exact Resets_.follows ⟨h.pending, h.direct, h.service, h.now⟩
  · split
    · exact .of_spine rfl
    · exact Resets_.follows ⟨h.pending, h.direct, h.service, h.now⟩
  · split <;> first | exact s.commandReset_resets.follows | exact .of_spine rfl

/-- Reset release, whatever came before: device time starts again, and the controller is not in service. -/
theorem State.release_follows (s : State) (pri sec : Bool) (h : s.inService = false) : Follows s (s.release pri sec) := by
  unfold State.release
  extract_lets p s1 b s2
  split
  · exact ⟨rfl, id, fun hs => absurd (h.symm.trans hs) (by decide), .inl rfl⟩
  · split
    · obtain ⟨r, hr⟩ := s2.event_eq "REFCLK_SWITCHOVER" (some 0x8E02) (evSource 14 0) 1
      rw [hr]
      exact ⟨rfl, id, fun hs => absurd (h.symm.trans hs) (by decide), .inr ⟨rfl, rfl⟩⟩
    · exact ⟨rfl, id, fun hs => absurd (h.symm.trans hs) (by decide), .inr ⟨rfl, rfl⟩⟩

theorem State.resetRelease_follows (s : State) (pri sec : Bool) : Follows s (s.resetRelease pri sec) := by
  unfold State.resetRelease
  split
  · next h => exact s.release_follows _ _ (by unfold State.inService; rw [h]; rfl)
  · exact .of_spine rfl

theorem State.aonLow_follows (s : State) : Follows s s.aonLow := (s.wiped_resets .aonOff (by decide)).follows

/-- `s` with no input seen since any tick. -/
def State.powerOf (s : State) (p : Option Nat) : State := { s with power := { s.power with present := p } }

theorem State.windowHeld_follows (s : State) (pri sec : Bool) (h : s.inService = false) : Follows s (s.windowHeld pri sec) := by
  unfold State.windowHeld
  extract_lets p s1 q t
  split
  · exact .of_spine rfl
  · split
    · have f := State.release_follows (State.powerOf s1 none) pri sec h
      exact ⟨f.pending, f.direct, f.image, f.now⟩
    · exact .of_spine rfl

theorem State.clockWindow_follows (s : State) (a b : Nat) : Follows s (s.clockWindow a b) := by
  unfold State.clockWindow
  extract_lets pri sec
  split
  · next h => exact s.windowHeld_follows _ _ (by unfold State.inService; rw [h]; rfl)
  · split
    · exact .of_spine (by simp)
    · exact .of_spine rfl

theorem State.updateTime_follows (s : State) : Follows s s.updateTime := by
  unfold State.updateTime
  extract_lets s1
  have h1 : Follows s s1 := ⟨rfl, id, fun _ _ => rfl, .inl rfl⟩
  split
  · have e := State.snapshot_spine s1
    exact ⟨(pending_of_spine e).trans h1.pending, fun w => by rw [direct_of_spine e]; exact h1.direct w,
      fun _ _ => (image_of_spine e).trans rfl, .inl ((now_of_spine e).trans rfl)⟩
  · exact h1

/-- What the image step keeps. -/
def Keeps (s t : State) : Prop := t.pending = s.pending ∧ t.direct = s.direct ∧ t.now = s.now

theorem Keeps.of_spine {s t : State} (h : t.spine = s.spine) : Keeps s t := ⟨pending_of_spine h, direct_of_spine h, now_of_spine h⟩

theorem Keeps.trans {s t u : State} (h : Keeps s t) (hu : Keeps t u) : Keeps s u :=
  ⟨hu.1.trans h.1, hu.2.1.trans h.2.1, hu.2.2.trans h.2.2⟩

theorem ChangesFlash.keeps {s t : State} (h : ChangesFlash s t) : Keeps s t := by
  obtain ⟨a, b, h⟩ := h
  exact ⟨congrArg Spine.pending h, congrArg Spine.direct h, congrArg Spine.now h⟩

theorem State.repairIdentity_flash (s : State) : ChangesFlash s s.repairIdentity := by
  unfold State.repairIdentity
  split
  · exact .of_spine rfl
  · exact ((State.setFlash_flash _ _ _).trans (State.setFlash_flash _ _ _)).trans (.of_spine (State.note_spine _ _ _ _))

theorem State.flashGone_flash (s : State) (b : Bool) : ChangesFlash s (s.flashGone b) := by
  unfold State.flashGone
  split
  next pin s1 h =>
  have h1 : s1.spine = s.spine := by
    have e : s.freeNat.2.spine = s.spine := by simp
    rw [h] at e; exact e
  have h2 : ChangesFlash s (s1.event "FLASH_SWITCH" (some 0x8E08) (evSource 14 0) (b.toNat + pin % 128 * 2)) :=
    .of_spine (by simp [h1])
  exact (h2.trans (State.setFlash_flash _ _ _)).trans (.of_spine (State.lostSpare_spine _ _ _))

theorem State.imageRefused_keeps (s : State) : Keeps s s.imageRefused := by
  unfold State.imageRefused
  extract_lets b first
  split
  · exact ⟨rfl, rfl, rfl⟩
  · exact .of_spine (State.note_spine _ _ _ _)

theorem State.imagePasses_keeps (s : State) (i : Image) : Keeps s (s.imagePasses i) := by
  unfold State.imagePasses
  extract_lets b epoch i s1 e s2
  have h1 : Keeps s s1 := ⟨rfl, rfl, rfl⟩
  have h2 : Keeps s s2 := h1.trans (State.writeEntry_flash _ _).keeps
  exact h2.trans (.of_spine (by simp))

/-- The image step acts in the identity phase alone. -/
theorem State.imageEnd_follows (s : State) (ok : Bool) (i : Option Image) : Follows s (s.imageEnd ok i) := by
  by_cases hp : s.boot.phase = .identity
  · have hs : s.inService = false := by unfold State.inService; rw [hp]; rfl
    have key : Keeps s (s.imageEnd ok i) := by
      unfold State.imageEnd
      rw [if_neg (by simp [hp])]
      extract_lets idOk s1 b
      have h1 : Keeps s s1 := by
        unfold s1; split
        · exact (State.repairIdentity_flash _).keeps
        · exact .of_spine rfl
      split
      · exact h1.trans ⟨rfl, rfl, rfl⟩
      · split
        · exact (h1.trans (State.flashGone_flash _ _).keeps).trans (State.imageRefused_keeps _)
        · extract_lets n
          split
          · exact h1.trans (State.imagePasses_keeps _ _)
          · exact (h1.trans (.of_spine (State.note_spine _ _ _ _))).trans (State.imageRefused_keeps _)
    exact ⟨key.1, fun w => by rw [key.2.1]; exact w, fun h => absurd (hs.symm.trans h) (by decide), .inl key.2.2⟩
  · unfold State.imageEnd
    rw [if_pos hp]
    exact .of_spine rfl

/-! ### Trials and uploads (R372, R373) -/

theorem Resets_.of_keeps {s t u : State} (h : Keeps s t) (hu : Resets_ t u) : Resets_ s u := .of_pending h.1 hu

theorem Follows.keeps_trans {s t u : State} (h : Keeps s t) (hi : t.image = s.image) (hs : t.inService = s.inService)
    (hu : Follows t u) : Follows s u :=
  ⟨hu.pending.trans h.1, fun w => hu.direct (by rw [h.2.1]; exact w),
    fun a b => (hu.image (hs.trans a) b).trans hi, by rw [← h.2.2]; exact hu.now⟩

theorem State.trialTimeout_follows (s : State) : Follows s s.trialTimeout := by
  unfold State.trialTimeout
  split
  · exact .of_spine rfl
  · exact (Resets_.of_keeps ((Keeps.of_spine (State.note_spine _ _ _ _)).trans (State.writeEntry_flash _ _).keeps)
      (State.commandReset_resets _)).follows

/-- An upload stages, or ends a recovery with a full reset. -/
def Stages (s t : State) : Prop := ChangesFlash s t ∨ Resets_ s t

theorem Stages.follows {s t : State} (h : Stages s t) : Follows s t := h.elim ChangesFlash.follows Resets_.follows

theorem Stages.flash_trans {s t u : State} (h : ChangesFlash s t) (hu : Stages t u) : Stages s u :=
  hu.elim (fun a => .inl (h.trans a)) fun a => .inr (.of_keeps h.keeps a)

theorem State.endStaging_stages (s : State) (conn : Nat) (i : Image) : Stages s (s.endStaging conn i) := by
  unfold State.endStaging
  extract_lets n s1 s2
  have h1 : ChangesFlash s s1 := State.setFlash_flash _ _ _
  split
  · exact .inl (s.abandon_flash.trans (.of_spine (State.reply_spine _ _ _ _)))
  · split
    · refine .inr (.of_keeps ?_ (State.commandReset_resets _))
      exact (h1.keeps.trans (.of_spine (State.reply_spine _ _ _ _))).trans (.of_spine (foldl_spine_of rfl fun _ _ => by simp))
    · exact .inl ((h1.trans (.of_spine rfl)).trans (.of_spine (State.reply_spine _ _ _ _)))

theorem State.chunk_stages (s : State) (conn offset length : Nat) (i : Image) : Stages s (s.chunk conn offset length i) := by
  unfold State.chunk
  split
  · exact .inl (s.abandon_flash.trans (.of_spine (State.reply_spine _ _ _ _)))
  · extract_lets u s1
    have h1 : ChangesFlash s s1 := .of_spine rfl
    split
    · exact .flash_trans h1 (State.endStaging_stages _ _ _)
    · exact .inl (h1.trans (.of_spine (State.reply_spine _ _ _ _)))

theorem State.upload_stages (s : State) (conn offset length : Nat) (i : Image) (recovery : Bool) :
    Stages s (s.upload conn offset length i recovery) := by
  unfold State.upload
  split
  · exact .inl (.of_spine (State.reply_spine _ _ _ _))
  · split
    · split
      · exact .inl (.of_spine (State.reply_spine _ _ _ _))
      · exact .flash_trans (State.beginStaging_flash _ _ _) (State.chunk_stages _ _ _ _ _)
    · split
      · exact State.chunk_stages _ _ _ _ _
      · exact .inl (.of_spine (State.reply_spine _ _ _ _))

theorem State.serve_stages (s : State) (conn : Nat) (roles : List Nat) (before : Bool) (k : State → Conn → State)
    (h : ∀ t c, Stages t (k t c)) : Stages s (s.serve conn roles before k) := by
  obtain e | ⟨c, e, -⟩ := s.serve_cases conn roles before k
  · exact .inl (.of_spine e)
  · rw [e]
    exact .flash_trans (.of_spine (by simp)) (h _ _)

theorem State.uploadCmd_stages (s : State) (conn offset length : Nat) (i : Image) : Stages s (s.uploadCmd conn offset length i) := by
  unfold State.uploadCmd
  split
  · split
    · exact .flash_trans (.of_spine (by simp)) (State.upload_stages _ _ _ _ _ _)
    · exact .inl (.of_spine rfl)
  · exact s.serve_stages _ _ _ _ fun _ _ => State.upload_stages _ _ _ _ _ _

theorem State.resetCmd_resets (s : State) (conn : Nat) : Resets_ s (s.resetCmd conn) := by
  unfold State.resetCmd
  refine .of_keeps ?_ (State.commandReset_resets _)
  exact .of_spine (foldl_spine_of (State.reply_spine _ _ _ _) fun _ _ => by simp)

end Sys2Proof.Machine
end

