-- ==== Sys2Proof/Laws/Windows.lean ====
section
/-! SUPPORT. What leaves the functions' windows as they are: the tools. -/

namespace Sys2Proof.Machine

theorem windows_of_fns {s t : State} (h : t.fns = s.fns) : t.windows = s.windows := by unfold State.windows; rw [h]

/-- A change of functions that touches only rings and failures keeps the windows. -/
theorem State.modFn_bare (s : State) (n : Nat) (g : Fn → Fn) (h : ∀ f, (g f).bare = f.bare) : (s.modFn n g).windows = s.windows := by
  unfold State.windows State.modFn mapIf
  simp only [List.map_map]
  refine List.map_congr_left fun x _ => ?_
  simp only [Function.comp]
  split
  · exact h x
  · rfl

/-- A fold of operations that keep the windows keeps them. -/
theorem foldl_windows {α : Type} (f : State → α → State) (h : ∀ s a, (f s a).windows = s.windows) :
    ∀ (l : List α) (s : State), (l.foldl f s).windows = s.windows := by
  intro l
  induction l with
  | nil => intro s; rfl
  | cons a l ih => intro s; exact (ih _).trans (h s a)

theorem foldl_windows_of {α : Type} {f : State → α → State} {l : List α} {s s' : State} (h : s.windows = s'.windows)
    (hf : ∀ s a, (f s a).windows = s.windows) : (l.foldl f s).windows = s'.windows :=
  (foldl_windows f hf l s).trans h

theorem elim_windows_of {α : Type} {o : Option α} {f : α → State} {s s' : State} (h : s.windows = s'.windows)
    (hf : ∀ a, (f a).windows = s'.windows) : (o.elim s f).windows = s'.windows := by
  cases o with
  | none => exact h
  | some a => exact hf a

theorem getD_windows {o : Option State} {s : State} (h : ∀ t, o = some t → t.windows = s.windows) : (o.getD s).windows = s.windows := by
  cases o with
  | none => rfl
  | some t => exact h t rfl

/-- The windows of a record update. -/
@[simp] theorem State.windows_mk (x0 x1 x2 x3 x4 x5 x6 x7 x8 x9 x10 x11 x12 x13 x14 x15 x16 x17 x18 x19 x20 x21 x22 x23 x24 x25 x26 x27 x28 x29 x30 x31 x32 x33 x34 x35 x36 x37 x38 x39 x40 x41 x42 x43 x44 x45 x46 x47 x48 x49 x50 x51 x52 x53 x54 x55 x56 x57 x58 x59 x60 x61 x62 x63 x64) :
    State.windows (State.mk x0 x1 x2 x3 x4 x5 x6 x7 x8 x9 x10 x11 x12 x13 x14 x15 x16 x17 x18 x19 x20 x21 x22 x23 x24 x25 x26 x27 x28 x29 x30 x31 x32 x33 x34 x35 x36 x37 x38 x39 x40 x41 x42 x43 x44 x45 x46 x47 x48 x49 x50 x51 x52 x53 x54 x55 x56 x57 x58 x59 x60 x61 x62 x63 x64) = List.map Fn.bare x11 := rfl

@[simp] theorem State.windows_eta (s : State) : List.map Fn.bare s.fns = s.windows := rfl
end Sys2Proof.Machine
end

