-- ==== Sys2Proof/Laws/WindowsSequences.lean ====
section
/-! SUPPORT. What leaves the functions' windows as they are (Safety.lean): one lemma per operation of the operations of Ops and those of sequences, prefixes and tiers. -/

set_option linter.unusedSimpArgs false
set_option linter.unnecessarySeqFocus false
set_option linter.unreachableTactic false
set_option linter.unusedTactic false
set_option linter.unusedVariables false

namespace Sys2Proof.Machine

/-! ### Ops -/

@[simp] theorem State.modReq_windows (s : State) (a1) (a2) : (State.modReq s a1 a2).windows = s.windows := rfl
@[simp] theorem State.modSeq_windows (s : State) (a1) (a2) : (State.modSeq s a1 a2).windows = s.windows := rfl
@[simp] theorem State.modRec_windows (s : State) (a1) (a2) : (State.modRec s a1 a2).windows = s.windows := rfl
@[simp] theorem State.modDir_windows (s : State) (a1) (a2) : (State.modDir s a1 a2).windows = s.windows := rfl
@[simp] theorem State.modPass_windows (s : State) (a1) (a2) : (State.modPass s a1 a2).windows = s.windows := rfl
@[simp] theorem State.modCurd_windows (s : State) (a1) (a2) : (State.modCurd s a1 a2).windows = s.windows := rfl
@[simp] theorem State.modTable_windows (s : State) (a1) (a2) : (State.modTable s a1 a2).windows = s.windows := rfl
@[simp] theorem State.modPort_windows (s : State) (a1) (a2) : (State.modPort s a1 a2).windows = s.windows := rfl
@[simp] theorem State.modExtent_windows (s : State) (a1) (a2) : (State.modExtent s a1 a2).windows = s.windows := rfl
@[simp] theorem State.modMove_windows (s : State) (a1) (a2) : (State.modMove s a1 a2).windows = s.windows := rfl
@[simp] theorem State.modTenant_windows (s : State) (a1) (a2) : (State.modTenant s a1 a2).windows = s.windows := rfl
@[simp] theorem State.modEngine_windows (s : State) (a1) (a2) (a3) : (State.modEngine s a1 a2 a3).windows = s.windows := rfl
@[simp] theorem State.bumpId_windows (s : State) : (State.bumpId s).windows = s.windows := rfl
@[simp] theorem State.live_windows (s : State) (g : State → State) (h : ∀ s, (g s).windows = s.windows) : (s.live g).windows = s.windows := by unfold State.live; split <;> simp [h]
@[simp] theorem State.emit_windows (s : State) (a1) : (State.emit s a1).windows = s.windows := rfl
@[simp] theorem State.enqueue_windows (s : State) (a1) (a2) (a3) (a4) : (State.enqueue s a1 a2 a3 a4).windows = s.windows := by unfold State.enqueue; dsimp only; (repeat' split) <;> simp [foldl_windows]
@[simp] theorem State.event_windows (s : State) (a1) (a2) (a3) (a4) : (State.event s a1 a2 a3 a4).windows = s.windows := by unfold State.event; dsimp only; (repeat' split) <;> simp [foldl_windows]
@[simp] theorem State.note_windows (s : State) (a1) (a2) (a3) : (State.note s a1 a2 a3).windows = s.windows := by simp [State.note, foldl_windows]
@[simp] theorem State.freeNat_windows (s : State) : (State.freeNat s).2.windows = s.windows := rfl
theorem State.freeNat_windows_of (s : State) (u) (t) (h : (State.freeNat s) = (u, t)) : t.windows = s.windows := by have := State.freeNat_windows s; rw [h] at this; exact this
@[simp] theorem State.zeroise_windows (s : State) (a1) : (State.zeroise s a1).windows = s.windows := rfl
@[simp] theorem State.setKey_windows (s : State) (a1) (a2) (a3) (a4) (a5) : (State.setKey s a1 a2 a3 a4 a5).windows = s.windows := rfl
@[simp] theorem State.draw_windows (s : State) : (State.draw s).2.windows = s.windows := rfl
theorem State.draw_windows_of (s : State) (u) (t) (h : (State.draw s) = (u, t)) : t.windows = s.windows := by have := State.draw_windows s; rw [h] at this; exact this
@[simp] theorem State.fillSlot_windows (s : State) (a1) (a2) : (State.fillSlot s a1 a2).windows = s.windows := by unfold State.fillSlot; dsimp only; (repeat' (first | rfl | assumption | split | refine foldl_windows_of ?_ (fun _ _ => ?_) | refine elim_windows_of ?_ (fun _ => ?_))) <;> simp [foldl_windows]
@[simp] theorem State.modSession_windows (s : State) (a1) (a2) : (State.modSession s a1 a2).windows = s.windows := rfl
@[simp] theorem State.directWrite_windows (s : State) (a1) (a2) : (State.directWrite s a1 a2).windows = s.windows := rfl
@[simp] theorem State.directUndefined_windows (s : State) (a1) (a2) : (State.directUndefined s a1 a2).windows = s.windows := by unfold State.directUndefined; (repeat' split) <;> simp [foldl_windows]
@[simp] theorem State.modLoc_windows (s : State) (a1) (a2) (a3) : (State.modLoc s a1 a2 a3).windows = s.windows := rfl
@[simp] theorem State.putTableId_windows (s : State) (a1) : (State.putTableId s a1).windows = s.windows := by unfold State.putTableId; (repeat' split) <;> simp [foldl_windows]
@[simp] theorem State.tableSweep_windows (s : State) (a1) : (State.tableSweep s a1).windows = s.windows := by unfold State.tableSweep; (repeat' split) <;> simp [foldl_windows]
@[simp] theorem State.tableRef_windows (s : State) (a1) : (State.tableRef s a1).windows = s.windows := by unfold State.tableRef; (repeat' split) <;> simp [foldl_windows]
@[simp] theorem State.tableUnref_windows (s : State) (a1) : (State.tableUnref s a1).windows = s.windows := by unfold State.tableUnref; (repeat' split) <;> simp [foldl_windows]
@[simp] theorem State.modPage_windows (s : State) (a1) (a2) (a3) : (State.modPage s a1 a2 a3).windows = s.windows := rfl
@[simp] theorem State.deallocate_windows (s : State) (a1) : (State.deallocate s a1).windows = s.windows := by unfold State.deallocate; (repeat' split) <;> simp [foldl_windows]
@[simp] theorem State.sweepPages_windows (s : State) : (State.sweepPages s).windows = s.windows := by simp [State.sweepPages, foldl_windows]
@[simp] theorem State.freePage_windows (s : State) (a1) (a2) : (State.freePage s a1 a2).windows = s.windows := by simp [State.freePage, foldl_windows]
@[simp] theorem State.freeLocs_windows (s : State) (a1) : (State.freeLocs s a1).windows = s.windows := by unfold State.freeLocs; dsimp only; (repeat' (first | rfl | assumption | split | refine foldl_windows_of ?_ (fun _ _ => ?_))) <;> simp [foldl_windows]
@[simp] theorem State.putMap_windows (s : State) (a1) (a2) : (State.putMap s a1 a2).windows = s.windows := rfl
@[simp] theorem State.refreshShares_windows (s : State) : (State.refreshShares s).windows = s.windows := rfl
@[simp] theorem State.unrefRec_windows (s : State) (a1) : (State.unrefRec s a1).windows = s.windows := by unfold State.unrefRec; (repeat' split) <;> simp [foldl_windows]
@[simp] theorem State.refRec_windows (s : State) (a1) : (State.refRec s a1).windows = s.windows := rfl
@[simp] theorem State.reclaimVersion_windows (s : State) (a1) (a2) : (State.reclaimVersion s a1 a2).windows = s.windows := by unfold State.reclaimVersion; dsimp only; (repeat' split) <;> simp [foldl_windows]
@[simp] theorem State.faultTable_windows (s : State) (a1) : (State.faultTable s a1).windows = s.windows := by unfold State.faultTable; dsimp only; (repeat' split) <;> simp [foldl_windows]
@[simp] theorem State.loadTable_windows (s : State) (a1) : (State.loadTable s a1).windows = s.windows := by unfold State.loadTable; (repeat' split) <;> simp [foldl_windows]
@[simp] theorem State.putRecord_windows (s : State) (a1) (a2) (a3) (a4) (a5) (a6) (a7) (a8) (a9) : (State.putRecord s a1 a2 a3 a4 a5 a6 a7 a8 a9).windows = s.windows := rfl
@[simp] theorem State.record_windows (s : State) (a1) (a2) (a3) (a4) (a5) (a6) (a7) (a8) : (State.record s a1 a2 a3 a4 a5 a6 a7 a8).windows = s.windows := by
  unfold State.record
  split
  · rfl
  · split
    · rfl
    · refine (State.modFn_bare _ _ _ ?_).trans ?_
      · intro f; rfl
      · rfl
@[simp] theorem State.fenceCount_windows (s : State) (a1) (a2) : (State.fenceCount s a1 a2).windows = s.windows := by
  unfold State.fenceCount
  split
  · rfl
  · extract_lets s1
    rw [State.modFn_bare _ _ _ (fun f => by split <;> rfl)]; rfl
@[simp] theorem State.trackRecord_windows (s : State) (a1) (a2) : (State.trackRecord s a1 a2).windows = s.windows := rfl
@[simp] theorem State.unpin1_windows (s : State) (a1) : (State.unpin1 s a1).windows = s.windows := by unfold State.unpin1; dsimp only; (repeat' split) <;> simp [foldl_windows]
@[simp] theorem State.unpin_windows (s : State) (a1) : (State.unpin s a1).windows = s.windows := by simp [State.unpin, foldl_windows]
@[simp] theorem State.unblock_windows (s : State) (a1) : (State.unblock s a1).windows = s.windows := rfl
@[simp] theorem State.dropReq_windows (s : State) (a1) : (State.dropReq s a1).windows = s.windows := by simp [State.dropReq, foldl_windows]
@[simp] theorem State.hostPut_windows (s : State) (a1) (a2) (a3) : (State.hostPut s a1 a2 a3).windows = s.windows := by simp [State.hostPut, foldl_windows]
@[simp] theorem State.finish_windows (s : State) (a1) (a2) (a3) (a4) : (State.finish s a1 a2 a3 a4).windows = s.windows := by simp [State.finish, foldl_windows]
@[simp] theorem State.answerWith_windows (s : State) (a1) (a2) (a3) (a4) (a5) (a6) : (State.answerWith s a1 a2 a3 a4 a5 a6).windows = s.windows := by simp [State.answerWith, foldl_windows]
@[simp] theorem State.writeEnds_windows (s : State) (a1) (a2) : (State.writeEnds s a1 a2).windows = s.windows := by unfold State.writeEnds; (repeat' split) <;> simp [foldl_windows]
@[simp] theorem State.markEnd_windows (s : State) (a1) (a2) (a3) (a4) : (State.markEnd s a1 a2 a3 a4).windows = s.windows := rfl
@[simp] theorem State.faultReq_windows (s : State) (a1) (a2) (a3) (a4) : (State.faultReq s a1 a2 a3 a4).windows = s.windows := by unfold State.faultReq; (repeat' split) <;> simp [foldl_windows]
@[simp] theorem State.pinCurrent_windows (s : State) (a1) (a2) : (State.pinCurrent s a1 a2).windows = s.windows := rfl
@[simp] theorem State.pinSecond_windows (s : State) (a1) (a2) : (State.pinSecond s a1 a2).windows = s.windows := rfl

/-! ### Calendars -/

@[simp] theorem State.reserve_windows (s : State) (a1) (a2) : (State.reserve s a1 a2).windows = s.windows := rfl

/-! ### Tiers -/

@[simp] theorem State.setGrainVers_windows (s : State) (a1) (a2) (a3) (a4) : (State.setGrainVers s a1 a2 a3 a4).windows = s.windows := rfl
@[simp] theorem State.foldParity_windows (s : State) (a1) (a2) : (State.foldParity s a1 a2).windows = s.windows := by unfold State.foldParity; dsimp only; (repeat' split) <;> simp [foldl_windows]
@[simp] theorem State.pageParity_windows (s : State) (a1) (a2) (a3) (a4) (a5) (a6) (a7) : (State.pageParity s a1 a2 a3 a4 a5 a6 a7).windows = s.windows := by unfold State.pageParity; (repeat' split) <;> simp [foldl_windows]
@[simp] theorem State.writePage_windows (s : State) (a1) (a2) (a3) (a4) (a5) (a6) (a7) : (State.writePage s a1 a2 a3 a4 a5 a6 a7).2.windows = s.windows := by simp [State.writePage, foldl_windows]
theorem State.writePage_windows_of (s : State) (a1) (a2) (a3) (a4) (a5) (a6) (a7) (u) (t) (h : (State.writePage s a1 a2 a3 a4 a5 a6 a7) = (u, t)) : t.windows = s.windows := by have := State.writePage_windows s a1 a2 a3 a4 a5 a6 a7; rw [h] at this; exact this
@[simp] theorem State.losePage_windows (s : State) (a1) (a2) (a3) : (State.losePage s a1 a2 a3).windows = s.windows := by unfold State.losePage; dsimp only; (repeat' split) <;> simp [foldl_windows]
@[simp] theorem State.askMove_windows (s : State) (a1) (a2) (a3) (a4) (a5) : (State.askMove s a1 a2 a3 a4 a5).windows = s.windows := by unfold State.askMove; dsimp only; (repeat' split) <;> simp [foldl_windows]
@[simp] theorem State.ripen_windows (s : State) (a1) (a2) (a3) : (State.ripen s a1 a2 a3).windows = s.windows := by unfold State.ripen; dsimp only; (repeat' split) <;> simp [foldl_windows]
@[simp] theorem State.dropProxyCopy_windows (s : State) (a1) (a2) : (State.dropProxyCopy s a1 a2).windows = s.windows := by unfold State.dropProxyCopy; (repeat' split) <;> simp [foldl_windows]
@[simp] theorem State.dropCold_windows (s : State) (a1) (l) : (State.dropCold s a1 l).2.windows = s.windows := by
  induction l generalizing s a1 with
  | nil => rfl
  | cons x rest ih =>
    obtain ⟨id, i⟩ := x
    unfold State.dropCold; split <;> simp [ih]
theorem State.dropCold_windows_of (s : State) (a1) (a2) (u) (t) (h : (State.dropCold s a1 a2) = (u, t)) : t.windows = s.windows := by have := State.dropCold_windows s a1 a2; rw [h] at this; exact this
@[simp] theorem State.askDemotions_windows (s : State) (a1) (a2) (a3) (l) : (State.askDemotions s a1 a2 a3 l).windows = s.windows := by
  induction l generalizing s a3 with
  | nil => rfl
  | cons x rest ih =>
    obtain ⟨_, id, i⟩ := x
    unfold State.askDemotions; (repeat' split) <;> simp [ih]
@[simp] theorem State.demoteSpan_windows (s : State) (a1) (a2) (a3) (a4) : (State.demoteSpan s a1 a2 a3 a4).windows = s.windows := by unfold State.demoteSpan; dsimp only; (repeat' split) <;> simp [foldl_windows]
@[simp] theorem State.demoteAll_windows (s : State) : (State.demoteAll s).windows = s.windows := by
  unfold State.demoteAll
  have h : ∀ (s : State) (k : Nat), ((List.range 2).foldl (fun (s : State) (g : Nat) =>
    let (lo, hi) := s.regionSpan k g
    if s.regionOpen k g && decide (lo < hi) then
      s.demoteSpan (1, k, g) s.params.t1LowWater (s.freeRegion k g) fun a => decide (lo ≤ a ∧ a < hi)
    else s) s).windows = s.windows := by
    intro s k; apply foldl_windows; intro s g; (repeat' split) <;> simp
  dsimp only
  split
  · rw [foldl_windows _ h]; simp
  · simp only [State.demoteSpan_windows]; rw [foldl_windows _ h]; simp
@[simp] theorem State.makeRoom_windows (s : State) (a1) (a2) (a3) (a4) (a5) : (State.makeRoom s a1 a2 a3 a4 a5).2.windows = s.windows := by simp [State.makeRoom, foldl_windows]
theorem State.makeRoom_windows_of (s : State) (a1) (a2) (a3) (a4) (a5) (u) (t) (h : (State.makeRoom s a1 a2 a3 a4 a5) = (u, t)) : t.windows = s.windows := by have := State.makeRoom_windows s a1 a2 a3 a4 a5; rw [h] at this; exact this
@[simp] theorem State.settleRehome_windows (s : State) (a1) : (State.settleRehome s a1).windows = s.windows := by unfold State.settleRehome; dsimp only; (repeat' split) <;> simp [foldl_windows]
@[simp] theorem State.promoteHeld_windows (s : State) (a1) : (State.promoteHeld s a1).windows = s.windows := by unfold State.promoteHeld; dsimp only; (repeat' (first | rfl | assumption | split | refine foldl_windows_of ?_ (fun _ _ => ?_))) <;> simp [foldl_windows]

/-! ### Directory -/

@[simp] theorem State.putRow_windows (s : State) (a1) : (State.putRow s a1).windows = s.windows := by unfold State.putRow; dsimp only; (repeat' split) <;> simp [foldl_windows]
@[simp] theorem State.dropKeyRow_windows (s : State) (a1) : (State.dropKeyRow s a1).windows = s.windows := rfl
@[simp] theorem State.dropRows_windows (s : State) (a1) : (State.dropRows s a1).windows = s.windows := rfl
@[simp] theorem State.loadEntry_windows (s : State) (a1) : (State.loadEntry s a1).windows = s.windows := by unfold State.loadEntry; (repeat' split) <;> simp [foldl_windows]
@[simp] theorem State.suspect_windows (s : State) (a1) : (State.suspect s a1).windows = s.windows := rfl
@[simp] theorem State.hitFails_windows (s : State) (a1) (a2) (a3) (a4) : (State.hitFails s a1 a2 a3 a4).windows = s.windows := by simp [State.hitFails, foldl_windows]
@[simp] theorem State.hitsFail_windows (s : State) (a1) (a2) : (State.hitsFail s a1 a2).windows = s.windows := by
  unfold State.hitsFail
  exact foldl_windows _ (fun _ _ => by simp) _ _
@[simp] theorem State.extentFalse_windows (s : State) (a1) : (State.extentFalse s a1).windows = s.windows := by simp [State.extentFalse, foldl_windows]
@[simp] theorem State.searchKey_windows (s : State) (a1) (a2) (a3) (a4) : (State.searchKey s a1 a2 a3 a4).2.windows = s.windows := by unfold State.searchKey; dsimp only; (repeat' split) <;> simp [foldl_windows]
theorem State.searchKey_windows_of (s : State) (a1) (a2) (a3) (a4) (u) (t) (h : (State.searchKey s a1 a2 a3 a4) = (u, t)) : t.windows = s.windows := by have := State.searchKey_windows s a1 a2 a3 a4; rw [h] at this; exact this
@[simp] theorem State.emitOn_windows (s : State) (a1) (a2) : (State.emitOn s a1 a2).windows = s.windows := by unfold State.emitOn; (repeat' split) <;> simp [foldl_windows]
@[simp] theorem State.sendFrame_windows (s : State) (a1) (a2) : (State.sendFrame s a1 a2).windows = s.windows := by unfold State.sendFrame; dsimp only; (repeat' split) <;> simp [foldl_windows]
@[simp] theorem State.send_windows (s : State) (a1) (a2) (a3) (a4) (a5) (a6) (a7) (a8) : (State.send s a1 a2 a3 a4 a5 a6 a7 a8).windows = s.windows := by simp [State.send, foldl_windows]
@[simp] theorem State.sendPage_windows (a0) (a1) (a2) (a3) (a4) (a5) (a6) (n) (a8) (s : State) (a10) : (State.sendPage a0 a1 a2 a3 a4 a5 a6 n a8 s a10).windows = s.windows := by
  induction n generalizing a8 s a10 with
  | zero => rfl
  | succ n ih => unfold State.sendPage; dsimp only; split <;> simp [ih]
@[simp] theorem State.openTxn_windows (s : State) (a1) (a2) (a3) (a4) (a5) : (State.openTxn s a1 a2 a3 a4 a5).windows = s.windows := rfl
@[simp] theorem State.request_windows (s : State) (a1) (a2) (a3) (a4) (a5) (a6) (a7) : (State.request s a1 a2 a3 a4 a5 a6 a7).windows = s.windows := by simp [State.request, foldl_windows]
@[simp] theorem State.askTable_windows (s : State) (a1) (a2) : (State.askTable s a1 a2).windows = s.windows := by unfold State.askTable; (repeat' split) <;> simp [foldl_windows]
@[simp] theorem State.nvmeIssue_windows (s : State) (a1) (a2) (a3) (a4) : (State.nvmeIssue s a1 a2 a3 a4).windows = s.windows := by simp [State.nvmeIssue, foldl_windows]
@[simp] theorem State.sendPut_windows (s : State) (a1) (a2) (a3) (a4) (a5) : (State.sendPut s a1 a2 a3 a4 a5).windows = s.windows := by unfold State.sendPut; (repeat' split) <;> simp [foldl_windows]
@[simp] theorem State.pageTransfer_windows (s : State) (a1) (a2) (a3) (a4) (a5) (a6) (a7) : (State.pageTransfer s a1 a2 a3 a4 a5 a6 a7).windows = s.windows := by unfold State.pageTransfer; dsimp only; (repeat' split) <;> simp [foldl_windows]
@[simp] theorem State.sendRelease_windows (s : State) (a1) (a2) : (State.sendRelease s a1 a2).windows = s.windows := by unfold State.sendRelease; (repeat' split) <;> simp [foldl_windows]
@[simp] theorem State.giveBack_windows (s : State) (a1) (a2) : (State.giveBack s a1 a2).windows = s.windows := by unfold State.giveBack; (repeat' split) <;> simp [foldl_windows]
@[simp] theorem State.dropChain_windows (s : State) (a1) (a2) : (State.dropChain s a1 a2).windows = s.windows := by simp [State.dropChain, foldl_windows]
@[simp] theorem State.freeSlot_windows (s : State) (a1) : (State.freeSlot s a1).windows = s.windows := by simp [State.freeSlot, foldl_windows]
@[simp] theorem State.releaseRef_windows (n) (s : State) (slot) : (State.releaseRef n s slot).windows = s.windows := by
  induction n generalizing s slot with
  | zero => rfl
  | succ n ih => unfold State.releaseRef; dsimp only; (repeat' split) <;> simp [ih]
@[simp] theorem State.releaseHandle_windows (s : State) (a1) : (State.releaseHandle s a1).windows = s.windows := by
  unfold State.releaseHandle; split <;> simp
@[simp] theorem State.freeIdle_windows (s : State) (a1) : (State.freeIdle s a1).windows = s.windows := by unfold State.freeIdle; (repeat' split) <;> simp [foldl_windows]
@[simp] theorem State.freeIdleProxies_windows (s : State) : (State.freeIdleProxies s).windows = s.windows := by simp [State.freeIdleProxies, foldl_windows]
@[simp] theorem State.takeParent_windows (s : State) (a1) : (State.takeParent s a1).windows = s.windows := by unfold State.takeParent; (repeat' split) <;> simp [foldl_windows]
@[simp] theorem State.takeRef_windows (s : State) (a1) : (State.takeRef s a1).windows = s.windows := rfl
@[simp] theorem State.addProxy_windows (s : State) (a1) (a2) : (State.addProxy s a1 a2).windows = s.windows := rfl
@[simp] theorem State.withdraw_windows (s : State) (a1) : (State.withdraw s a1).windows = s.windows := by
  unfold State.withdraw
  extract_lets s1 devices s2
  rw [State.freeIdle_windows]
  refine foldl_windows_of ((State.dropKeyRow_windows _ _).trans (State.modDir_windows _ _ _)) ?_
  intro s d; split
  · simp
  · rfl
@[simp] theorem State.faultEntry_windows (s : State) (a1) : (State.faultEntry s a1).windows = s.windows := by
  unfold State.faultEntry
  split
  · rfl
  · rw [State.freeIdle_windows]
    exact (State.note_windows _ _ _ _).trans ((State.dropKeyRow_windows _ _).trans (State.modDir_windows _ _ _))
@[simp] theorem State.faultBad_windows (s : State) : (State.faultBad s).windows = s.windows := by simp [State.faultBad, foldl_windows]
@[simp] theorem State.loadHandle_windows (s : State) (a1) : (State.loadHandle s a1).windows = s.windows := by unfold State.loadHandle; dsimp only; (repeat' (first | rfl | assumption | split | refine foldl_windows_of ?_ (fun _ _ => ?_) | refine elim_windows_of ?_ (fun _ => ?_))) <;> simp [foldl_windows]
@[simp] theorem State.loadChain_windows (s : State) (a1) : (State.loadChain s a1).windows = s.windows := by simp [State.loadChain, foldl_windows]
@[simp] theorem State.faultOwner_windows (s : State) (a1) : (State.faultOwner s a1).windows = s.windows := by simp [State.faultOwner, foldl_windows]
@[simp] theorem State.pageLost_windows (s : State) (a1) (a2) (a3) : (State.pageLost s a1 a2 a3).windows = s.windows := by unfold State.pageLost; (repeat' split) <;> simp [foldl_windows]
@[simp] theorem State.refusalEvent_windows (s : State) (a1) (a2) : (State.refusalEvent s a1 a2).windows = s.windows := by unfold State.refusalEvent; (repeat' split) <;> simp [foldl_windows]
@[simp] theorem State.addRecheck_windows (s : State) (a1) (a2) (a3) : (State.addRecheck s a1 a2 a3).windows = s.windows := by unfold State.addRecheck; (repeat' split) <;> simp [foldl_windows]
@[simp] theorem State.recFailed_windows (s : State) (a1) (a2) (a3) (a4) : (State.recFailed s a1 a2 a3 a4).windows = s.windows := by unfold State.recFailed; dsimp only; (repeat' split) <;> simp [foldl_windows]
@[simp] theorem State.movePage_windows (s : State) (a1) (a2) (a3) (a4) : (State.movePage s a1 a2 a3 a4).windows = s.windows := by unfold State.movePage; dsimp only; (repeat' split) <;> simp [foldl_windows]
theorem State.createHome_windows (s : State) (a1) (a2) (a3) (t) (h : (State.createHome s a1 a2 a3) = some t) : t.2.windows = s.windows := by
  unfold State.createHome at h
  dsimp only at h
  split at h
  · cases h
  · split at h
    · cases h
    · cases h; exact (State.takeParent_windows _ _).trans (State.putRow_windows _ _)
theorem State.createProxy_windows (s : State) (a1) (a2) (a3) (a4) (a5) (t) (h : (State.createProxy s a1 a2 a3 a4 a5) = some t) : t.2.windows = s.windows := by
  unfold State.createProxy at h
  split at h
  · cases h
  · split at h
    · cases h
    · extract_lets e s1 s2 at h
      cases h
      show (if s2.prefixRoom then s2.putRow (keyRowOf e) else s2).windows = s.windows
      have h2 : s2.windows = s.windows := (State.takeParent_windows _ _).trans (State.putRow_windows _ _)
      split
      · exact (State.putRow_windows _ _).trans h2
      · exact h2
@[simp] theorem State.mendNotes_windows (s : State) (a1) (a2) : (State.mendNotes s a1 a2).windows = s.windows := by simp [State.mendNotes, foldl_windows]
@[simp] theorem State.comparePrefix_windows (s : State) : (State.comparePrefix s).windows = s.windows := by simp [State.comparePrefix, foldl_windows]
@[simp] theorem State.findKey_windows (s : State) (a1) : (State.findKey s a1).2.windows = s.windows := by unfold State.findKey; grind [State.windows, State.searchKey_windows, → State.searchKey_windows_of, State.comparePrefix_windows]
theorem State.findKey_windows_of (s : State) (a1) (u) (t) (h : (State.findKey s a1) = (u, t)) : t.windows = s.windows := by have := State.findKey_windows s a1; rw [h] at this; exact this
@[simp] theorem State.missSuspects_windows (s : State) : (State.missSuspects s).windows = s.windows := rfl
@[simp] theorem State.compareAndSet_windows (s : State) (a1) (a2) (a3) : (State.compareAndSet s a1 a2 a3).2.windows = s.windows := by
  unfold State.compareAndSet
  extract_lets s1 ok
  have h1 : s1.windows = s.windows := by simp [s1]
  clear_value s1 ok
  split
  · exact h1
  · split
    · next h =>
      have e := State.findKey_windows_of _ _ _ _ h
      split <;> simp [e, h1]
    · next h =>
      have e := State.findKey_windows_of _ _ _ _ h
      extract_lets s2
      have h2 : s2.windows = s.windows := by simp [s2, e, h1]
      clear_value s2
      split
      · next hc => exact (State.createHome_windows _ _ _ _ _ hc).trans h2
      · (repeat' split) <;> simp [h2]
theorem State.compareAndSet_windows_of (s : State) (a1) (a2) (a3) (u) (t) (h : (State.compareAndSet s a1 a2 a3) = (u, t)) : t.windows = s.windows := by have := State.compareAndSet_windows s a1 a2 a3; rw [h] at this; exact this

/-! ### Flows -/

@[simp] theorem State.setFlowTable_windows (s : State) (a1) (a2) : (State.setFlowTable s a1 a2).windows = s.windows := rfl
theorem State.insertFlow_windows (s : State) (a1) (a2) (a3) (t) (h : (State.insertFlow s a1 a2 a3) = .ok t) : t.windows = s.windows := by unfold State.insertFlow at h; dsimp only at h; grind [State.windows, State.setFlowTable_windows]
@[simp] theorem State.removeFlow_windows (s : State) (a1) : (State.removeFlow s a1).windows = s.windows := rfl
@[simp] theorem State.flowFalse_windows (s : State) (a1) (a2) (a3) : (State.flowFalse s a1 a2 a3).windows = s.windows := by simp [State.flowFalse, foldl_windows]
@[simp] theorem State.policyFalse_windows (s : State) (a1) (a2) (a3) : (State.policyFalse s a1 a2 a3).windows = s.windows := by simp [State.policyFalse, foldl_windows]

/-! ### Sequences -/

@[simp] theorem State.faultSeq_windows (s : State) (a1) : (State.faultSeq s a1).windows = s.windows := by unfold State.faultSeq; (repeat' split) <;> simp [foldl_windows]
@[simp] theorem State.loadSeq_windows (s : State) (a1) : (State.loadSeq s a1).windows = s.windows := by unfold State.loadSeq; (repeat' split) <;> simp [foldl_windows]
@[simp] theorem State.loadRec_windows (s : State) (a1) (a2) : (State.loadRec s a1 a2).windows = s.windows := by unfold State.loadRec; (repeat' split) <;> simp [foldl_windows]
@[simp] theorem State.loadBlock_windows (s : State) (a1) (a2) (a3) : (State.loadBlock s a1 a2 a3).windows = s.windows := by unfold State.loadBlock; dsimp only; (repeat' split) <;> simp [foldl_windows]
@[simp] theorem State.loadBlocks_windows (s : State) (a1) (a2) (a3) (a4) : (State.loadBlocks s a1 a2 a3 a4).windows = s.windows := by simp [State.loadBlocks, foldl_windows]
@[simp] theorem State.loadChange_windows (s : State) (a1) (a2) : (State.loadChange s a1 a2).windows = s.windows := by unfold State.loadChange; dsimp only; (repeat' split) <;> simp [foldl_windows]
@[simp] theorem State.dropPage_windows (s : State) (a1) (a2) : (State.dropPage s a1 a2).windows = s.windows := by unfold State.dropPage; (repeat' split) <;> simp [foldl_windows]
@[simp] theorem State.spoil_windows (s : State) (a1) : (State.spoil s a1).windows = s.windows := by unfold State.spoil; (repeat' split) <;> simp [foldl_windows]
@[simp] theorem State.failReq_windows (s : State) (a1) (a2) (a3) : (State.failReq s a1 a2 a3).windows = s.windows := by simp [State.failReq, foldl_windows]
@[simp] theorem State.endWith_windows (s : State) (a1) (a2) : (State.endWith s a1 a2).windows = s.windows := by unfold State.endWith; (repeat' split) <;> simp [foldl_windows]
@[simp] theorem State.freeSeq_windows (s : State) (a1) : (State.freeSeq s a1).windows = s.windows := by unfold State.freeSeq; dsimp only; (repeat' split) <;> simp [foldl_windows]
@[simp] theorem State.freeIfClosed_windows (s : State) (a1) : (State.freeIfClosed s a1).windows = s.windows := by unfold State.freeIfClosed; (repeat' split) <;> simp [foldl_windows]
@[simp] theorem State.mapPages_windows (s : State) (a1) (a2) (a3) : (State.mapPages s a1 a2 a3).2.windows = s.windows := rfl
theorem State.mapPages_windows_of (s : State) (a1) (a2) (a3) (u) (t) (h : (State.mapPages s a1 a2 a3) = (u, t)) : t.windows = s.windows := by have := State.mapPages_windows s a1 a2 a3; rw [h] at this; exact this
@[simp] theorem State.commitVersion_windows (s : State) (a1) (a2) : (State.commitVersion s a1 a2).windows = s.windows := by unfold State.commitVersion; dsimp only; (repeat' split) <;> simp [foldl_windows]
@[simp] theorem State.enterSeq_windows (s : State) (a1) (a2) (a3) : (State.enterSeq s a1 a2 a3).windows = s.windows := by
  unfold State.enterSeq
  split
  · simp
  · split
    · simp
    · extract_lets q
      split
      · simp
      · next s' h =>
        have e := State.insertFlow_windows _ _ _ _ _ h
        have m := State.mapPages_windows s' q q.cur q.cur
        revert m; generalize s'.mapPages q q.cur q.cur = vs; intro m
        obtain ⟨v, u⟩ := vs
        dsimp only at m ⊢
        have hf : ∀ (l : List Nat) (t : State), (l.foldl (fun (s : State) id => s.refRec id) t).windows = t.windows :=
          foldl_windows _ (fun _ _ => by simp)
        have k : ∀ (t : State) (i : Nat), t.windows = s.windows → ((t.refreshShares.promoteHeld i).finish a1 stOk (resHandle q.handle)).windows = s.windows := fun t i h => by
          simp [h]
        refine k _ _ ?_
        repeat' split
        all_goals (try simp only [State.takeRef_windows, hf]; exact m.trans e)
@[simp] theorem State.beginOpen_windows (s : State) (a1) (a2) : (State.beginOpen s a1 a2).windows = s.windows := by unfold State.beginOpen; dsimp only; (repeat' split) <;> simp [foldl_windows]
@[simp] theorem State.beginFork_windows (s : State) (a1) (a2) : (State.beginFork s a1 a2).windows = s.windows := by
  unfold State.beginFork; (try dsimp only)
  repeat' (first | with_reducible rfl | assumption | refine foldl_windows_of ?_ (fun _ _ => ?_) | refine elim_windows_of ?_ (fun _ => ?_) | split | simp)
@[simp] theorem State.beginClose_windows (s : State) (a1) (a2) : (State.beginClose s a1 a2).windows = s.windows := by unfold State.beginClose; dsimp only; (repeat' split) <;> simp [foldl_windows]
@[simp] theorem State.takeTables_windows (s : State) (a1) (a2) (a3) : (State.takeTables s a1 a2 a3).windows = s.windows := by simp [State.takeTables, foldl_windows]
@[simp] theorem State.supplyTables_windows (s : State) (a1) (a2) : (State.supplyTables s a1 a2).windows = s.windows := by
  unfold State.supplyTables
  split
  · rfl
  · cases s.model? _ <;> simp
@[simp] theorem State.beginSupply_windows (s : State) (a1) (a2) : (State.beginSupply s a1 a2).windows = s.windows := by unfold State.beginSupply; (repeat' split) <;> simp [foldl_windows]
@[simp] theorem State.beginTruncate_windows (s : State) (a1) : (State.beginTruncate s a1).windows = s.windows := rfl
@[simp] theorem State.listArrives_windows (s : State) (a1) (a2) (a3) : (State.listArrives s a1 a2 a3).windows = s.windows := by unfold State.listArrives; dsimp only; (repeat' split) <;> simp [foldl_windows]
@[simp] theorem State.tokensArrive_windows (s : State) (a1) (a2) : (State.tokensArrive s a1 a2).windows = s.windows := rfl
@[simp] theorem State.writeNew_windows (s : State) (a1) (a2) (a3) (l) (a5) : (State.writeNew s a1 a2 a3 l a5).2.2.windows = s.windows := by
  induction l generalizing s a5 with
  | nil => rfl
  | cons x rest ih =>
    obtain ⟨b, l, data, raw, table⟩ := x
    unfold State.writeNew
    extract_lets n h route
    split
    · rfl
    · next tier addr hp =>
      generalize hw : s.writePage tier addr n 1 a2.tenant table data = w
      obtain ⟨v, s1⟩ := w
      have h1 : s1.windows = s.windows := State.writePage_windows_of _ _ _ _ _ _ _ _ _ _ hw
      refine (ih _ _).trans ?_
      split <;> simp [h1]
theorem State.writeNew_windows_of (s : State) (a1) (a2) (a3) (a4) (a5) (u) (w) (t) (h : (State.writeNew s a1 a2 a3 a4 a5) = (u, w, t)) : t.windows = s.windows := by have := State.writeNew_windows s a1 a2 a3 a4 a5; rw [h] at this; exact this
@[simp] theorem State.supplyReady_windows (s : State) (a1) : (State.supplyReady s a1).windows = s.windows := by unfold State.supplyReady; (repeat' split) <;> simp [foldl_windows]
@[simp] theorem State.supplyPlace_windows (s : State) (a1) (a2) (a3) : (State.supplyPlace s a1 a2 a3).windows = s.windows := by unfold State.supplyPlace; dsimp only; grind [State.windows, State.failReq_windows, State.writeNew_windows, → State.writeNew_windows_of, State.modReq_windows, State.supplyReady_windows]
@[simp] theorem State.pagesArrive_windows (s : State) (a1) (a2) (a3) : (State.pagesArrive s a1 a2 a3).windows = s.windows := by unfold State.pagesArrive; dsimp only; grind [State.windows, State.failReq_windows, State.makeRoom_windows, → State.makeRoom_windows_of, State.modReq_windows, State.supplyPlace_windows]
@[simp] theorem State.supplySettle_windows (s : State) (a1) (a2) : (State.supplySettle s a1 a2).windows = s.windows := by unfold State.supplySettle; (repeat' split) <;> simp [foldl_windows]
@[simp] theorem State.supplyTransfer_windows (s : State) (a1) (a2) (a3) (a4) : (State.supplyTransfer s a1 a2 a3 a4).windows = s.windows := by unfold State.supplyTransfer; dsimp only; (repeat' split) <;> simp [foldl_windows]
@[simp] theorem State.newRecs_windows (s : State) (a1) (a2) (a3) (a4) (a5) (a6) (a7) (l) (a9) : (State.newRecs s a1 a2 a3 a4 a5 a6 a7 l a9).2.windows = s.windows := by
  induction l generalizing s a6 a7 a9 with
  | nil => rfl
  | cons x rest ih => unfold State.newRecs; exact (ih _ _ _ _).trans (by simp)
theorem State.newRecs_windows_of (s : State) (a1) (a2) (a3) (a4) (a5) (a6) (a7) (a8) (a9) (u) (t) (h : (State.newRecs s a1 a2 a3 a4 a5 a6 a7 a8 a9) = (u, t)) : t.windows = s.windows := by have := State.newRecs_windows s a1 a2 a3 a4 a5 a6 a7 a8 a9; rw [h] at this; exact this
@[simp] theorem State.dropUnheld_windows (s : State) (a1) (a2) : (State.dropUnheld s a1 a2).windows = s.windows := by simp [State.dropUnheld, foldl_windows]
@[simp] theorem State.applyChange_windows (s : State) (a1) (a2) (a3) : (State.applyChange s a1 a2 a3).windows = s.windows := by unfold State.applyChange; dsimp only; (repeat' split) <;> simp [foldl_windows]
@[simp] theorem State.commitChange_windows (s : State) (a1) : (State.commitChange s a1).windows = s.windows := by unfold State.commitChange; dsimp only; (repeat' split) <;> simp [foldl_windows]
@[simp] theorem State.commitAll_windows (s : State) (a1) : (State.commitAll s a1).windows = s.windows := by unfold State.commitAll; (repeat' (first | rfl | assumption | split | refine foldl_windows_of ?_ (fun _ _ => ?_) | refine elim_windows_of ?_ (fun _ => ?_))) <;> simp [foldl_windows]
@[simp] theorem State.commitAhead_windows (s : State) (a1) : (State.commitAhead s a1).windows = s.windows := by simp [State.commitAhead, foldl_windows]

/-! ### Prefixes -/

@[simp] theorem State.localHits_windows (s : State) (a1) (a2) (a3) (l) : (State.localHits s a1 a2 a3 l).2.windows = s.windows := by
  induction l generalizing s a3 with
  | nil => rfl
  | cons x rest ih => unfold State.localHits; grind [→ State.searchKey_windows_of]
theorem State.localHits_windows_of (s : State) (a1) (a2) (a3) (a4) (u) (t) (h : (State.localHits s a1 a2 a3 a4) = (u, t)) : t.windows = s.windows := by have := State.localHits_windows s a1 a2 a3 a4; rw [h] at this; exact this
@[simp] theorem State.lookupDone_windows (s : State) (a1) (a2) (a3) (a4) : (State.lookupDone s a1 a2 a3 a4).windows = s.windows := by unfold State.lookupDone; (repeat' split) <;> simp [foldl_windows]
@[simp] theorem State.answerLookup_windows (s : State) (a1) (a2) (a3) (a4) : (State.answerLookup s a1 a2 a3 a4).windows = s.windows := by unfold State.answerLookup; dsimp only; (repeat' split) <;> simp [foldl_windows]
theorem State.askHomes_windows (s : State) (a1) (a2) (a3) (l) (t) (h : State.askHomes s a1 a2 a3 l = some t) : t.windows = s.windows := by
  induction l generalizing s with
  | nil => unfold State.askHomes at h; cases h; rfl
  | cons x rest ih =>
    obtain ⟨b, id⟩ := x
    unfold State.askHomes at h; dsimp only at h; split at h
    · cases h
    · exact (ih _ h).trans (foldl_windows _ (by intros; simp) _ _)
@[simp] theorem State.runLookup_windows (s : State) (a1) (a2) (a3) (a4) : (State.runLookup s a1 a2 a3 a4).windows = s.windows := by
  unfold State.runLookup; dsimp only
  split
  · simp
  · split
    · simp
    · next t h => have := State.askHomes_windows _ _ _ _ _ _ h; simp [this]
@[simp] theorem State.beginLookupHash_windows (s : State) (a1) (a2) : (State.beginLookupHash s a1 a2).windows = s.windows := by unfold State.beginLookupHash; (repeat' split) <;> simp [foldl_windows]
@[simp] theorem State.beginLookupToken_windows (s : State) (a1) : (State.beginLookupToken s a1).windows = s.windows := rfl
@[simp] theorem State.lookupTokens_windows (s : State) (a1) (a2) (a3) (a4) : (State.lookupTokens s a1 a2 a3 a4).windows = s.windows := by unfold State.lookupTokens; dsimp only; (repeat' split) <;> simp [foldl_windows]
@[simp] theorem State.runLookupFlow_windows (s : State) (a1) (a2) : (State.runLookupFlow s a1 a2).windows = s.windows := by unfold State.runLookupFlow; dsimp only; (repeat' split) <;> simp [foldl_windows]
@[simp] theorem State.beginLookupFlow_windows (s : State) (a1) (a2) : (State.beginLookupFlow s a1 a2).windows = s.windows := by unfold State.beginLookupFlow; (repeat' split) <;> simp [foldl_windows]
@[simp] theorem State.askEntry_windows (s : State) (a1) (a2) (a3) : (State.askEntry s a1 a2 a3).windows = s.windows := by unfold State.askEntry; (repeat' split) <;> simp [foldl_windows]
@[simp] theorem State.commitLink_windows (s : State) (a1) (a2) (a3) (a4) (a5) : (State.commitLink s a1 a2 a3 a4 a5).windows = s.windows := by simp [State.commitLink, foldl_windows]
@[simp] theorem State.beginAttachPrefix_windows (s : State) (a1) (a2) : (State.beginAttachPrefix s a1 a2).windows = s.windows := by unfold State.beginAttachPrefix; dsimp only; (repeat' split) <;> simp [foldl_windows]
@[simp] theorem State.readForRekey_windows (s : State) (a1) (l) : (State.readForRekey s a1 l).windows = s.windows := by
  induction l generalizing s with
  | nil => rfl
  | cons x rest ih =>
    obtain ⟨_, _, _, _⟩ := x
    unfold State.readForRekey
    split <;> simp [ih]
@[simp] theorem State.rekeyMore_windows (s : State) (a1) : (State.rekeyMore s a1).windows = s.windows := by unfold State.rekeyMore; (repeat' split) <;> simp [foldl_windows]
@[simp] theorem State.loadPublish_windows (s : State) (a1) (a2) : (State.loadPublish s a1 a2).windows = s.windows := by unfold State.loadPublish; dsimp only; (repeat' split) <;> simp [foldl_windows]
@[simp] theorem State.beginPublish_windows (s : State) (a1) (a2) : (State.beginPublish s a1 a2).windows = s.windows := by unfold State.beginPublish; dsimp only; (repeat' split) <;> simp [foldl_windows]
@[simp] theorem State.freePlace_windows (s : State) (a1) : (State.freePlace s a1).windows = s.windows := by unfold State.freePlace; (repeat' split) <;> simp [foldl_windows]
@[simp] theorem State.failPublish_windows (s : State) (a1) (a2) (a3) : (State.failPublish s a1 a2 a3).windows = s.windows := by simp [State.failPublish, foldl_windows]
@[simp] theorem State.rekeyPages_windows (s : State) (a1) (a2) (a3) (a4) (l) (a6) (a7) : (State.rekeyPages s a1 a2 a3 a4 l a6 a7).2.2.2.windows = s.windows := by
  induction l generalizing s a6 a7 with
  | nil => rfl
  | cons x rest ih =>
    obtain ⟨_, _, _, loc⟩ := x
    unfold State.rekeyPages
    split
    · rfl
    · split
      · rfl
      · split
        · rfl
        · next tier addr hp =>
          dsimp only
          generalize hw : State.writePage _ _ _ _ _ _ _ _ = w
          obtain ⟨v, s1⟩ := w
          have h1 : s1.windows = s.windows := State.writePage_windows_of _ _ _ _ _ _ _ _ _ _ hw
          refine (ih _ _ _).trans ?_
          dsimp only
          split <;> simp [h1]
theorem State.rekeyPages_windows_of (s : State) (a1) (a2) (a3) (a4) (a5) (a6) (a7) (u) (w) (x) (t) (h : (State.rekeyPages s a1 a2 a3 a4 a5 a6 a7) = (u, w, x, t)) : t.windows = s.windows := by have := State.rekeyPages_windows s a1 a2 a3 a4 a5 a6 a7; rw [h] at this; exact this
@[simp] theorem State.adoptRecs_windows (s : State) (a1) (l) : (State.adoptRecs s a1 l).windows = s.windows := by
  induction l generalizing s with
  | nil => rfl
  | cons x rest ih =>
    obtain ⟨b, id⟩ := x
    unfold State.adoptRecs; dsimp only; split
    · exact ih _
    · refine (ih _).trans (foldl_windows_of (by simp) ?_)
      intros; split <;> simp
@[simp] theorem State.copyRecs_windows (s : State) (a1) (l) : (State.copyRecs s a1 l).2.windows = s.windows := by
  induction l generalizing s with
  | nil => rfl
  | cons x rest ih =>
    obtain ⟨b, id⟩ := x
    unfold State.copyRecs; dsimp only; split
    · exact ih _
    · exact (ih _).trans (by simp)
theorem State.copyRecs_windows_of (s : State) (a1) (a2) (u) (t) (h : (State.copyRecs s a1 a2) = (u, t)) : t.windows = s.windows := by have := State.copyRecs_windows s a1 a2; rw [h] at this; exact this
@[simp] theorem State.putDigest_windows (s : State) (a1) (a2) (a3) (a4) (a5) : (State.putDigest s a1 a2 a3 a4 a5).windows = s.windows := by simp [State.putDigest, foldl_windows]
@[simp] theorem State.dropNew_windows (s : State) (a1) : (State.dropNew s a1).windows = s.windows := by simp [State.dropNew, foldl_windows]
@[simp] theorem State.publishCreated_windows (s : State) (a1) (a2) (a3) (a4) (a5) (a6) (a7) (a8) : (State.publishCreated s a1 a2 a3 a4 a5 a6 a7 a8).windows = s.windows := by unfold State.publishCreated; dsimp only; (repeat' split) <;> simp [foldl_windows]
@[simp] theorem State.publishMerged_windows (s : State) (a1) (a2) (a3) (a4) (a5) (a6) (a7) (a8) : (State.publishMerged s a1 a2 a3 a4 a5 a6 a7 a8).windows = s.windows := by unfold State.publishMerged; dsimp only; (repeat' split) <;> simp [foldl_windows]
@[simp] theorem State.publishConflict_windows (s : State) (a1) (a2) (a3) (a4) : (State.publishConflict s a1 a2 a3 a4).windows = s.windows := by simp [State.publishConflict, foldl_windows]
@[simp] theorem State.publishSend_windows (s : State) (a1) (a2) (a3) (a4) (a5) : (State.publishSend s a1 a2 a3 a4 a5).windows = s.windows := by
  unfold State.publishSend
  extract_lets d k dest
  split
  · split <;> (next hc => have := State.compareAndSet_windows_of _ _ _ _ _ _ hc; simp [this])
  · (repeat' split) <;> simp
@[simp] theorem State.publishGoes_windows (s : State) (a1) (a2) : (State.publishGoes s a1 a2).windows = s.windows := by unfold State.publishGoes; (repeat' split) <;> simp [foldl_windows]
@[simp] theorem State.writesEnd_windows (s : State) (a1) : (State.writesEnd s a1).windows = s.windows := by unfold State.writesEnd; (repeat' split) <;> simp [foldl_windows]
@[simp] theorem State.rekeyEnd_windows (s : State) (a1) (a2) : (State.rekeyEnd s a1 a2).windows = s.windows := by
  unfold State.rekeyEnd
  split
  · simp
  · extract_lets lo s1 s2
    have h2 : s2.windows = s.windows := by simp [s2, s1]
    clear_value s2
    split
    · exact h2
    · split
      · simp [h2]
      · simp [h2]
      · split
        · next h =>
          have e := State.rekeyPages_windows_of _ _ _ _ _ _ _ _ _ _ _ _ h
          extract_lets s3
          have h3 : s3.windows = s.windows := by
            unfold s3
            exact elim_windows_of (e.trans h2) fun _ => by simp [e, h2]
          clear_value s3
          split <;> simp [h3]
        · next h =>
          have e := State.rekeyPages_windows_of _ _ _ _ _ _ _ _ _ _ _ _ h
          simp [e, h2]
@[simp] theorem State.beginWithdraw_windows (s : State) (a1) (a2) : (State.beginWithdraw s a1 a2).windows = s.windows := by unfold State.beginWithdraw; dsimp only; (repeat' split) <;> simp [foldl_windows]
@[simp] theorem State.answer_windows (s : State) (a1) (a2) (a3) (a4) (a5) : (State.answer s a1 a2 a3 a4 a5).windows = s.windows := by simp [State.answer, foldl_windows]
@[simp] theorem State.refuseGen_windows (s : State) (a1) (a2) : (State.refuseGen s a1 a2).windows = s.windows := by simp [State.refuseGen, foldl_windows]
@[simp] theorem State.publishHere_windows (s : State) (a1) (a2) (a3) : (State.publishHere s a1 a2 a3).windows = s.windows := by unfold State.publishHere; grind [State.windows, State.compareAndSet_windows, → State.compareAndSet_windows_of, State.answer_windows, State.modDir_windows]
@[simp] theorem State.onDirPublish_windows (s : State) (a1) (a2) (a3) : (State.onDirPublish s a1 a2 a3).windows = s.windows := by unfold State.onDirPublish; dsimp only; (repeat' split) <;> simp [foldl_windows]
@[simp] theorem State.parentAnswer_windows (s : State) (a1) (a2) (a3) (a4) (a5) (a6) : (State.parentAnswer s a1 a2 a3 a4 a5 a6).windows = s.windows := by
  unfold State.parentAnswer
  split
  · simp
  · split
    · simp
    · split
      · simp
      · next t h =>
        have e : t.windows = s.windows := by
          split at h
          · cases h; rfl
          · cases hc : s.createProxy a6 a5 [] false 0 with
            | none => rw [hc] at h; cases h
            | some x => rw [hc] at h; cases h; exact State.createProxy_windows _ _ _ _ _ _ _ hc
        dsimp only
        (repeat' split) <;> simp [e]
@[simp] theorem State.onDirLookup_windows (s : State) (a1) (a2) (a3) (a4) : (State.onDirLookup s a1 a2 a3 a4).windows = s.windows := by unfold State.onDirLookup; dsimp only; (repeat' split) <;> simp [foldl_windows]
@[simp] theorem State.onDirAttach_windows (s : State) (a1) (a2) : (State.onDirAttach s a1 a2).windows = s.windows := by unfold State.onDirAttach; dsimp only; (repeat' split) <;> simp [foldl_windows]
@[simp] theorem State.freeHolder_windows (s : State) (a1) : (State.freeHolder s a1).windows = s.windows := by unfold State.freeHolder; dsimp only; (repeat' split) <;> simp [foldl_windows]
@[simp] theorem State.onDirRelease_windows (s : State) (a1) (a2) : (State.onDirRelease s a1 a2).windows = s.windows := by unfold State.onDirRelease; dsimp only; (repeat' split) <;> simp [foldl_windows]
@[simp] theorem State.onDirWithdrawn_windows (s : State) (a1) (a2) (a3) : (State.onDirWithdrawn s a1 a2 a3).windows = s.windows := by unfold State.onDirWithdrawn; dsimp only; (repeat' split) <;> simp [foldl_windows]
@[simp] theorem State.onWithdrawNotice_windows (s : State) (a1) (a2) : (State.onWithdrawNotice s a1 a2).windows = s.windows := by unfold State.onWithdrawNotice; dsimp only; (repeat' split) <;> simp [foldl_windows]
@[simp] theorem State.lookupAnswer_windows (s : State) (a1) (a2) (a3) (a4) : (State.lookupAnswer s a1 a2 a3 a4).windows = s.windows := by unfold State.lookupAnswer; dsimp only; (repeat' split) <;> simp [foldl_windows]
theorem State.createChain_windows (s : State) (a1) (a2) (t) (h : (State.createChain s a1 a2) = some t) : t.windows = s.windows := by
  induction a2 generalizing s with
  | nil => cases h; rfl
  | cons x rest ih =>
    obtain ⟨n, k⟩ := x
    unfold State.createChain at h
    split at h
    · split at h
      · exact (ih _ h).trans (State.modDir_windows _ _ _)
      · exact (ih _ h).trans (State.giveBack_windows _ _ _)
    · split at h
      · cases h
      · rename_i hp
        exact (ih _ h).trans (State.createProxy_windows _ _ _ _ _ _ _ hp)
@[simp] theorem State.attachAnswer_windows (s : State) (a1) (a2) (a3) (a4) : (State.attachAnswer s a1 a2 a3 a4).windows = s.windows := by
  unfold State.attachAnswer
  split
  · simp
  · extract_lets chain
    split
    · split <;> simp
    · split
      · simp
      · rename_i hc
        have hs := State.createChain_windows _ _ _ _ hc
        extract_lets s1
        have h1 : s1.windows = s.windows := by simp [s1, hs]
        split
        · split
          · simp [h1]
          · exact h1
        · exact h1
@[simp] theorem State.publishLinked_windows (s : State) (a1) (a2) (a3) (a4) : (State.publishLinked s a1 a2 a3 a4).windows = s.windows := by
  unfold State.publishLinked
  split
  · rfl
  · split
    · simp
    · rename_i hc
      have hs := State.createChain_windows _ _ _ _ hc
      split <;> simp [hs]
@[simp] theorem State.publishAnswer_windows (s : State) (a1) (a2) (a3) (a4) : (State.publishAnswer s a1 a2 a3 a4).windows = s.windows := by
  unfold State.publishAnswer
  split
  · simp
  · extract_lets fail src gather
    have hf : ∀ s n, (fail s n).windows = s.windows := by intro s n; simp [fail]
    have hg : ∀ s, (gather s).windows = s.windows := by
      intro s
      simp only [gather]
      repeat' split
      all_goals simp [hf]
    repeat' split
    all_goals first
      | (simp [hf, hg]; done)
      | (rename_i h; have := State.createProxy_windows _ _ _ _ _ _ _ h; simpa using this)
@[simp] theorem State.onDirAnswer_windows (s : State) (a1) (a2) (a3) : (State.onDirAnswer s a1 a2 a3).windows = s.windows := by unfold State.onDirAnswer; dsimp only; (repeat' (first | rfl | assumption | split | refine foldl_windows_of ?_ (fun _ _ => ?_))) <;> simp [foldl_windows]
@[simp] theorem State.memberLost_windows (s : State) (a1) : (State.memberLost s a1).windows = s.windows := by simp [State.memberLost, foldl_windows]

end Sys2Proof.Machine
end

