-- ==== Sys2Proof/Laws/WindowsRequests.lean ====
section
/-! SUPPORT. What leaves the functions' windows as they are (Safety.lean): one lemma per operation of walks, curds, moves, tables, near-memory operations and requests. -/

set_option linter.unusedSimpArgs false
set_option linter.unnecessarySeqFocus false
set_option linter.unreachableTactic false
set_option linter.unusedTactic false
set_option linter.unusedVariables false

namespace Sys2Proof.Machine

/-! ### Walks -/

@[simp] theorem State.sendFar_windows (s : State) (a1) (a2) (a3) (a4) (a5) : (State.sendFar s a1 a2 a3 a4 a5).windows = s.windows := by unfold State.sendFar; (repeat' split) <;> simp [foldl_windows]
@[simp] theorem State.askFar_windows (s : State) (a1) (a2) (a3) (a4) (a5) (a6) (a7) : (State.askFar s a1 a2 a3 a4 a5 a6 a7).windows = s.windows := by unfold State.askFar; dsimp only; (repeat' split) <;> simp [foldl_windows]
@[simp] theorem State.askRun_windows (s : State) (a1) (a2) (a3) (a4) (a5) (a6) (l) : (State.askRun s a1 a2 a3 a4 a5 a6 l).windows = s.windows := by
  induction l generalizing s with
  | nil => rfl
  | cons x rest ih =>
    unfold State.askRun
    dsimp only
    split <;> simp [ih]
@[simp] theorem State.copyFails_windows (s : State) (a1) (a2) : (State.copyFails s a1 a2).windows = s.windows := by unfold State.copyFails; dsimp only; (repeat' split) <;> simp [foldl_windows]
@[simp] theorem State.consumeCopy_windows (s : State) (a1) (a2) (a3) : (State.consumeCopy s a1 a2 a3).windows = s.windows := rfl
@[simp] theorem State.pageFailed_windows (s : State) (a1) (a2) (a3) (a4) (a5) (a6) (a7) : (State.pageFailed s a1 a2 a3 a4 a5 a6 a7).windows = s.windows := by
  unfold State.pageFailed; (try dsimp only)
  repeat' (first | with_reducible rfl | assumption | refine foldl_windows_of ?_ (fun _ _ => ?_) | refine elim_windows_of ?_ (fun _ => ?_) | split | simp)
@[simp] theorem State.askTables_windows (s : State) : (State.askTables s).windows = s.windows := by unfold State.askTables; (repeat' (first | rfl | assumption | split | refine foldl_windows_of ?_ (fun _ _ => ?_) | refine elim_windows_of ?_ (fun _ => ?_))) <;> simp [foldl_windows]
@[simp] theorem State.takeEngine_windows (s : State) (a1) (a2) (a3) : (State.takeEngine s a1 a2 a3).windows = s.windows := rfl
@[simp] theorem State.brineIdle_windows (s : State) : (State.brineIdle s).windows = s.windows := rfl
@[simp] theorem State.placeQueued_windows (s : State) (a1) : (State.placeQueued s a1).windows = s.windows := by unfold State.placeQueued; (repeat' split) <;> simp [foldl_windows]
@[simp] theorem State.startAlone_windows (s : State) (a1) (a2) (a3) (a4) (a5) (a6) (a7) : (State.startAlone s a1 a2 a3 a4 a5 a6 a7).windows = s.windows := by unfold State.startAlone; dsimp only; (repeat' (first | rfl | assumption | split | refine foldl_windows_of ?_ (fun _ _ => ?_))) <;> simp [foldl_windows]
@[simp] theorem State.startParts_windows (s : State) (a1) : (State.startParts s a1).windows = s.windows := by unfold State.startParts; dsimp only; (repeat' (first | rfl | assumption | split | refine foldl_windows_of ?_ (fun _ _ => ?_))) <;> simp [foldl_windows]

/-! ### Curds -/

@[simp] theorem State.prefetchPart_windows (s : State) (a1) (a2) (a3) (a4) (a5) (a6) (a7) (a8) (a9) : (State.prefetchPart s a1 a2 a3 a4 a5 a6 a7 a8 a9).windows = s.windows := by simp [State.prefetchPart, foldl_windows]
@[simp] theorem State.beginAttend_windows (s : State) (a1) (a2) : (State.beginAttend s a1 a2).windows = s.windows := by unfold State.beginAttend; dsimp only; (repeat' (first | rfl | assumption | split | refine foldl_windows_of ?_ (fun _ _ => ?_))) <;> simp [foldl_windows]
@[simp] theorem State.completeAttend_windows (s : State) (a1) : (State.completeAttend s a1).windows = s.windows := by unfold State.completeAttend; dsimp only; (repeat' split) <;> simp [foldl_windows]
@[simp] theorem State.goAlone_windows (s : State) (a1) : (State.goAlone s a1).windows = s.windows := by unfold State.goAlone; dsimp only; (repeat' split) <;> simp [foldl_windows]
@[simp] theorem State.bookCurd_windows (s : State) (a1) (a2) (a3) (a4) (a5) (a6) (a7) : (State.bookCurd s a1 a2 a3 a4 a5 a6 a7).windows = s.windows := by unfold State.bookCurd; dsimp only; (repeat' split) <;> simp [foldl_windows]
@[simp] theorem State.runCurd_windows (s : State) (a1) (a2) (a3) (a4) : (State.runCurd s a1 a2 a3 a4).windows = s.windows := by simp [State.runCurd, foldl_windows]
@[simp] theorem State.dropCurd_windows (s : State) (a1) : (State.dropCurd s a1).windows = s.windows := rfl
@[simp] theorem State.closeCurd_windows (s : State) (a1) : (State.closeCurd s a1).windows = s.windows := by unfold State.closeCurd; dsimp only; (repeat' split) <;> simp [foldl_windows]
@[simp] theorem State.markCurd_windows (s : State) (a1) : (State.markCurd s a1).windows = s.windows := rfl
@[simp] theorem State.beginCurd_windows (s : State) (a1) : (State.beginCurd s a1).windows = s.windows := by unfold State.beginCurd; dsimp only; (repeat' (first | rfl | assumption | split | refine foldl_windows_of ?_ (fun _ _ => ?_))) <;> simp [foldl_windows]
@[simp] theorem State.placeWork_windows (s : State) : (State.placeWork s).windows = s.windows := by simp [State.placeWork, foldl_windows]
@[simp] theorem State.closeDue_windows (s : State) : (State.closeDue s).windows = s.windows := by simp [State.closeDue, foldl_windows]
@[simp] theorem State.dispatch_windows (s : State) : (State.dispatch s).windows = s.windows := by simp [State.dispatch, foldl_windows]
@[simp] theorem State.setPart_windows (s : State) (a1) (a2) (a3) : (State.setPart s a1 a2 a3).windows = s.windows := rfl
@[simp] theorem State.leaveCurd_windows (s : State) (a1) (a2) : (State.leaveCurd s a1 a2).windows = s.windows := rfl
@[simp] theorem State.settlePart_windows (s : State) (a1) (a2) (a3) : (State.settlePart s a1 a2 a3).windows = s.windows := by unfold State.settlePart; (repeat' split) <;> simp [foldl_windows]
@[simp] theorem State.settleAttend_windows (s : State) (a1) : (State.settleAttend s a1).windows = s.windows := by
  unfold State.settleAttend; dsimp only
  repeat' (first | with_reducible rfl | assumption | refine foldl_windows_of ?_ (fun _ _ => ?_) | split | simp)
@[simp] theorem State.idleRows_windows (s : State) (a1) (a2) (a3) : (State.idleRows s a1 a2 a3).windows = s.windows := rfl
@[simp] theorem State.scrubMembers_windows (s : State) (a1) (a2) : (State.scrubMembers s a1 a2).windows = s.windows := by unfold State.scrubMembers; (repeat' (first | rfl | assumption | split | refine foldl_windows_of ?_ (fun _ _ => ?_) | refine elim_windows_of ?_ (fun _ => ?_))) <;> simp [foldl_windows]
@[simp] theorem State.bookBrine_windows (s : State) (a1) : (State.bookBrine s a1).windows = s.windows := rfl
@[simp] theorem State.endCurd_windows (s : State) (a1) : (State.endCurd s a1).windows = s.windows := by unfold State.endCurd; dsimp only; (repeat' (first | rfl | assumption | split | refine foldl_windows_of ?_ (fun _ _ => ?_) | refine elim_windows_of ?_ (fun _ => ?_))) <;> simp [foldl_windows]
@[simp] theorem State.dropIdle_windows (s : State) (a1) : (State.dropIdle s a1).windows = s.windows := by unfold State.dropIdle; (repeat' split) <;> simp [foldl_windows]
@[simp] theorem State.pageBoundary_windows (s : State) (a1) : (State.pageBoundary s a1).windows = s.windows := by
  unfold State.pageBoundary
  split
  · rfl
  · dsimp only
    split
    · rfl
    · rw [State.dispatch_windows]
      refine foldl_windows_of ?_ (fun _ _ => by simp)
      split
      · rfl
      · rw [State.dropIdle_windows, State.scrubMembers_windows]
        exact foldl_windows_of (by simp) (fun _ _ => by simp)
@[simp] theorem State.endAttend_windows (s : State) (a1) (a2) (a3) (a4) : (State.endAttend s a1 a2 a3 a4).windows = s.windows := by simp [State.endAttend, foldl_windows]
@[simp] theorem State.sparing_windows (s : State) (a1) (a2) : (State.sparing s a1 a2).windows = s.windows := by unfold State.sparing; (repeat' split) <;> simp [foldl_windows]
@[simp] theorem State.lateProgress_windows (s : State) (a1) (a2) : (State.lateProgress s a1 a2).windows = s.windows := by unfold State.lateProgress; dsimp only; (repeat' split) <;> simp [foldl_windows]
@[simp] theorem State.endWalked_windows (s : State) (a1) : (State.endWalked s a1).windows = s.windows := by unfold State.endWalked; (repeat' split) <;> simp [foldl_windows]
@[simp] theorem State.askAhead_windows (s : State) (a1) (a2) (a3) : (State.askAhead s a1 a2 a3).windows = s.windows := by unfold State.askAhead; dsimp only; (repeat' (first | rfl | assumption | split | refine foldl_windows_of ?_ (fun _ _ => ?_) | refine elim_windows_of ?_ (fun _ => ?_))) <;> simp [foldl_windows]
@[simp] theorem State.pageBad_windows (s : State) (a1) (a2) (a3) : (State.pageBad s a1 a2 a3).windows = s.windows := by
  unfold State.pageBad; (try dsimp only)
  repeat' (first | with_reducible rfl | assumption | refine foldl_windows_of ?_ (fun _ _ => ?_) | refine elim_windows_of ?_ (fun _ => ?_) | split | simp)
@[simp] theorem State.walkOk_windows (s : State) (a1) (a2) (a3) (a4) (a5) (a6) : (State.walkOk s a1 a2 a3 a4 a5 a6).windows = s.windows := by
  unfold State.walkOk; (try dsimp only)
  repeat' (first | with_reducible rfl | assumption | refine foldl_windows_of ?_ (fun _ _ => ?_) | refine elim_windows_of ?_ (fun _ => ?_) | split | simp)
@[simp] theorem State.walkBad_windows (s : State) (a1) (a2) (a3) (a4) : (State.walkBad s a1 a2 a3 a4).windows = s.windows := by unfold State.walkBad; dsimp only; (repeat' split) <;> simp [foldl_windows]
@[simp] theorem State.walkBlock_windows (s : State) (a1) : (State.walkBlock s a1).windows = s.windows := by
  unfold State.walkBlock
  extract_lets s1
  have h1 : s1.windows = s.windows := State.pageBoundary_windows _ _
  clear_value s1
  split
  · exact h1
  · split
    · exact h1
    · split
      · simp [h1]
      · extract_lets rs s2
        have h2 : s2.windows = s.windows := foldl_windows_of h1 fun t r => by cases t.attendOf r <;> simp
        clear_value s2
        (repeat' split) <;> simp [h2]
@[simp] theorem State.queryArrives_windows (s : State) (a1) (a2) (a3) : (State.queryArrives s a1 a2 a3).windows = s.windows := by unfold State.queryArrives; dsimp only; (repeat' split) <;> simp [foldl_windows]
@[simp] theorem State.endPart_windows (s : State) (a1) (a2) (a3) : (State.endPart s a1 a2 a3).windows = s.windows := by unfold State.endPart; dsimp only; (repeat' split) <;> simp [foldl_windows]
@[simp] theorem State.partEnd_windows (s : State) (a1) (a2) : (State.partEnd s a1 a2).windows = s.windows := by
  unfold State.partEnd
  extract_lets ps
  (repeat' split) <;> first | rfl | (exact foldl_windows_of rfl (fun _ _ => by simp)) | simp
@[simp] theorem State.memberDone_windows (s : State) (a1) (a2) : (State.memberDone s a1 a2).windows = s.windows := rfl
@[simp] theorem State.completeMember_windows (s : State) (a1) : (State.completeMember s a1).windows = s.windows := by unfold State.completeMember; (repeat' split) <;> simp [foldl_windows]
@[simp] theorem State.splitCurd_windows (s : State) (a1) (a2) : (State.splitCurd s a1 a2).windows = s.windows := by
  unfold State.splitCurd
  extract_lets live s1
  rw [State.dispatch_windows]
  refine foldl_windows_of ?_ (fun _ _ => by simp)
  exact (State.endCurd_windows _ _).trans (foldl_windows_of rfl (fun _ _ => by simp))
@[simp] theorem State.curdPassEnd_windows (s : State) (a1) : (State.curdPassEnd s a1).windows = s.windows := by unfold State.curdPassEnd; dsimp only; (repeat' split) <;> simp [foldl_windows]
@[simp] theorem State.closeThisTick_windows (s : State) (a1) : (State.closeThisTick s a1).windows = s.windows := rfl
@[simp] theorem State.afterJoin_windows (s : State) (a1) (a2) (a3) : (State.afterJoin s a1 a2 a3).windows = s.windows := by unfold State.afterJoin; (repeat' split) <;> simp [foldl_windows]
@[simp] theorem State.curdOffer_windows (s : State) (a1) (a2) : (State.curdOffer s a1 a2).windows = s.windows := by unfold State.curdOffer; dsimp only; (repeat' split) <;> simp [foldl_windows]
@[simp] theorem State.curdWindowEnd_windows (s : State) (a1) : (State.curdWindowEnd s a1).windows = s.windows := by unfold State.curdWindowEnd; dsimp only; (repeat' split) <;> simp [foldl_windows]
@[simp] theorem State.curdLatestClose_windows (s : State) (a1) : (State.curdLatestClose s a1).windows = s.windows := by unfold State.curdLatestClose; (repeat' split) <;> simp [foldl_windows]
@[simp] theorem State.passYield_windows (s : State) (a1) : (State.passYield s a1).windows = s.windows := by
  unfold State.passYield
  split
  · rfl
  · split
    · rfl
    · extract_lets s1 mine; rw [State.dispatch_windows]; exact State.pageBoundary_windows _ _
@[simp] theorem State.passResume_windows (s : State) (a1) (a2) : (State.passResume s a1 a2).windows = s.windows := by unfold State.passResume; dsimp only; (repeat' (first | rfl | assumption | split | refine foldl_windows_of ?_ (fun _ _ => ?_))) <;> simp [foldl_windows]

/-! ### Whey -/

@[simp] theorem State.dropMove_windows (s : State) (a1) : (State.dropMove s a1).windows = s.windows := by unfold State.dropMove; dsimp only; (repeat' split) <;> simp [foldl_windows]
theorem State.takeMove_windows (s : State) (a1) (a2) (a3) (a4) (a5) (t) (h : (State.takeMove s a1 a2 a3 a4 a5) = some t) : t.windows = s.windows := by unfold State.takeMove at h; dsimp only at h; grind [State.windows, State.bumpId_windows]
@[simp] theorem State.dropDemotion_windows (s : State) (a1) (a2) (a3) : (State.dropDemotion s a1 a2 a3).windows = s.windows := by simp [State.dropDemotion, foldl_windows]
theorem State.takeAll_windows (s : State) (a1) (a2) (l) (t) (h : State.takeAll s a1 a2 l = some t) : t.windows = s.windows := by
  induction l generalizing s with
  | nil => unfold State.takeAll at h; cases h; rfl
  | cons x rest ih =>
    obtain ⟨id, i, l⟩ := x
    unfold State.takeAll at h
    dsimp only at h
    split at h
    · exact (ih _ h).trans (by simp)
    · split at h
      · next u hu => exact (ih _ h).trans ((State.takeMove_windows _ _ _ _ _ _ _ hu).trans (by simp))
      · cases h
@[simp] theorem State.setPins_windows (s : State) (a1) (a2) (a3) : (State.setPins s a1 a2 a3).windows = s.windows := by unfold State.setPins; dsimp only; (repeat' (first | rfl | assumption | split | refine foldl_windows_of ?_ (fun _ _ => ?_))) <;> simp [foldl_windows]
@[simp] theorem State.hintMoves_windows (s : State) (a1) (a2) : (State.hintMoves s a1 a2).windows = s.windows := by
  unfold State.hintMoves
  refine foldl_windows_of rfl fun s x => ?_
  obtain ⟨id, i, l⟩ := x
  dsimp only
  split
  · rfl
  · exact getD_windows fun t h => State.takeMove_windows _ _ _ _ _ _ _ h
@[simp] theorem State.readRemote_windows (s : State) (a1) (a2) (a3) (a4) (a5) : (State.readRemote s a1 a2 a3 a4 a5).windows = s.windows := by simp [State.readRemote, foldl_windows]
@[simp] theorem State.readRemotes_windows (s : State) (a1) (a2) (l) : (State.readRemotes s a1 a2 l).2.windows = s.windows := by
  induction l generalizing s with
  | nil => rfl
  | cons x rest ih =>
    obtain ⟨_, _⟩ := x
    unfold State.readRemotes
    split <;> simp [ih]
theorem State.readRemotes_windows_of (s : State) (a1) (a2) (a3) (u) (t) (h : (State.readRemotes s a1 a2 a3) = (u, t)) : t.windows = s.windows := by have := State.readRemotes_windows s a1 a2 a3; rw [h] at this; exact this
@[simp] theorem State.refetch_windows (s : State) : (State.refetch s).windows = s.windows := by unfold State.refetch; dsimp only; (repeat' (first | rfl | assumption | split | refine foldl_windows_of ?_ (fun _ _ => ?_) | refine elim_windows_of ?_ (fun _ => ?_))) <;> simp [foldl_windows]
@[simp] theorem State.fetchCopy_windows (s : State) (a1) (a2) : (State.fetchCopy s a1 a2).windows = s.windows := by simp [State.fetchCopy, foldl_windows]
@[simp] theorem State.hintReads_windows (s : State) (a1) (l) : (State.hintReads s a1 l).windows = s.windows := by
  induction l generalizing s with
  | nil => rfl
  | cons x rest ih =>
    obtain ⟨_, _, _⟩ := x
    unfold State.hintReads
    dsimp only
    (repeat' split) <;> simp [ih]
@[simp] theorem State.rangeSettle1_windows (s : State) (a1) : (State.rangeSettle1 s a1).windows = s.windows := by
  unfold State.rangeSettle1
  extract_lets pages busy
  clear_value pages busy
  split
  · rfl
  · split
    · split
      · rfl
      · extract_lets up s1
        have e : s1.windows = s.windows := foldl_windows_of rfl fun s x => getD_windows fun t h => State.takeMove_windows _ _ _ _ _ _ _ h
        split
        · exact e
        · simp [e]
    · extract_lets s0 s1 left
      have h0 : s0.windows = s.windows := by simp [s0]
      clear_value s0
      have e : s1.windows = s.windows := by unfold s1; split <;> simp [h0]
      clear_value s1 left
      (repeat' split) <;> simp [e, h0]
    · simp
    · simp
    · rfl
@[simp] theorem State.rangeSettle_windows (s : State) : (State.rangeSettle s).windows = s.windows := by
  unfold State.rangeSettle
  refine foldl_windows_of rfl fun s x => ?_
  split <;> simp
@[simp] theorem State.stagingFreed_windows (s : State) : (State.stagingFreed s).windows = s.windows := by simp [State.stagingFreed, foldl_windows]
@[simp] theorem State.beginPinRange_windows (s : State) (a1) (a2) : (State.beginPinRange s a1 a2).windows = s.windows := by
  unfold State.beginPinRange
  (repeat' split) <;> try simp
  exact getD_windows fun t h => State.takeAll_windows _ _ _ _ _ h
@[simp] theorem State.beginUnpin_windows (s : State) (a1) (a2) : (State.beginUnpin s a1 a2).windows = s.windows := by
  unfold State.beginUnpin
  (repeat' split) <;> try simp only [State.finish_windows]
  exact (State.modSeq_windows _ _ _).trans (foldl_windows_of rfl fun s x => by simp)
@[simp] theorem State.beginHint_windows (s : State) (a1) (a2) : (State.beginHint s a1 a2).windows = s.windows := by
  unfold State.beginHint
  (repeat' split) <;> try simp only [State.finish_windows]
  simp only [State.rangeSettle_windows, State.modReq_windows]
  refine foldl_windows_of rfl fun s x => ?_
  (repeat' split) <;> try rfl
  exact getD_windows fun t h => State.takeMove_windows _ _ _ _ _ _ _ h
@[simp] theorem State.moveStart_windows (s : State) : (State.moveStart s).windows = s.windows := by unfold State.moveStart; dsimp only; (repeat' split) <;> simp [foldl_windows]
@[simp] theorem State.moveFinish_windows (s : State) (a1) (a2) : (State.moveFinish s a1 a2).windows = s.windows := by unfold State.moveFinish; dsimp only; (repeat' split) <;> simp [foldl_windows]
@[simp] theorem State.moveFails_windows (s : State) (a1) : (State.moveFails s a1).windows = s.windows := by unfold State.moveFails; (repeat' split) <;> simp [foldl_windows]
@[simp] theorem State.sweep_windows (s : State) (a1) (a2) (a3) : (State.sweep s a1 a2 a3).windows = s.windows := by unfold State.sweep; dsimp only; (repeat' split) <;> simp [foldl_windows]
@[simp] theorem State.proxyRec_windows (s : State) (a1) (a2) (a3) : (State.proxyRec s a1 a2 a3).2.windows = s.windows := by unfold State.proxyRec; dsimp only; (repeat' split) <;> simp [foldl_windows]
theorem State.proxyRec_windows_of (s : State) (a1) (a2) (a3) (u) (t) (h : (State.proxyRec s a1 a2 a3) = (u, t)) : t.windows = s.windows := by have := State.proxyRec_windows s a1 a2 a3; rw [h] at this; exact this
@[simp] theorem State.keepCopy_windows (s : State) (a1) (a2) (a3) : (State.keepCopy s a1 a2 a3).windows = s.windows := by unfold State.keepCopy; dsimp only; (repeat' split) <;> simp [foldl_windows]
@[simp] theorem State.readAgain_windows (s : State) (a1) : (State.readAgain s a1).windows = s.windows := by unfold State.readAgain; (repeat' split) <;> simp [foldl_windows]
@[simp] theorem State.prefetchLands_windows (s : State) (a1) (a2) (a3) (a4) : (State.prefetchLands s a1 a2 a3 a4).windows = s.windows := by
  unfold State.prefetchLands
  split
  · rfl
  · extract_lets set entry own s1 s2
    have hs : ∀ g (s : State), (set g s).windows = s.windows := fun _ _ => rfl
    have h1 : s1.windows = s.windows := hs _ _
    clear_value set own s1
    have h2 : s2.windows = s.windows := by unfold s2; split <;> simp [h1]
    clear_value s2 entry
    split
    · rfl
    · split
      · simp [hs]
      · split
        · simp
        · split
          · exact elim_windows_of rfl fun _ => by simp
          · split
            · rw [State.stagingFreed_windows]; exact h2
            · exact h2
@[simp] theorem State.stagingTtl_windows (s : State) (a1) : (State.stagingTtl s a1).windows = s.windows := by simp [State.stagingTtl, foldl_windows]

/-! ### Fetch -/

@[simp] theorem State.endFetch_windows (s : State) (a1) (a2) (a3) (a4) : (State.endFetch s a1 a2 a3 a4).windows = s.windows := by simp [State.endFetch, foldl_windows]
@[simp] theorem State.askSlots_windows (s : State) (a1) (a2) (a3) (a4) (l) : (State.askSlots s a1 a2 a3 a4 l).windows = s.windows := by
  induction l generalizing s with
  | nil => rfl
  | cons x rest ih =>
    obtain ⟨_, _⟩ := x
    unfold State.askSlots
    dsimp only
    split <;> simp [ih]
@[simp] theorem State.beginFetch_windows (s : State) (a1) (a2) : (State.beginFetch s a1 a2).windows = s.windows := by unfold State.beginFetch; dsimp only; (repeat' split) <;> simp [foldl_windows]
@[simp] theorem State.fetchTransfer_windows (s : State) (a1) (a2) (a3) : (State.fetchTransfer s a1 a2 a3).windows = s.windows := by unfold State.fetchTransfer; dsimp only; (repeat' split) <;> simp [foldl_windows]
@[simp] theorem State.readChunks_windows (s : State) (a1) (a2) (l) : (State.readChunks s a1 a2 l).windows = s.windows := by
  induction l generalizing s with
  | nil => rfl
  | cons x rest ih =>
    obtain ⟨w, c⟩ := x
    unfold State.readChunks
    dsimp only
    (repeat' split) <;> first | exact elim_windows_of rfl fun _ => by simp | simp [ih]
@[simp] theorem State.chunksMore_windows (s : State) (a1) : (State.chunksMore s a1).windows = s.windows := by unfold State.chunksMore; (repeat' split) <;> simp [foldl_windows]
@[simp] theorem State.beginWeights_windows (s : State) (a1) (a2) : (State.beginWeights s a1 a2).windows = s.windows := by unfold State.beginWeights; (repeat' split) <;> simp [foldl_windows]
@[simp] theorem State.modWeights_windows (s : State) (a1) (a2) : (State.modWeights s a1 a2).windows = s.windows := rfl
@[simp] theorem State.roomInCache_windows (s : State) : (State.roomInCache s).windows = s.windows := by unfold State.roomInCache; dsimp only; (repeat' split) <;> simp [foldl_windows]
@[simp] theorem State.readChunk_windows (s : State) (a1) (a2) (a3) : (State.readChunk s a1 a2 a3).windows = s.windows := by unfold State.readChunk; dsimp only; (repeat' split) <;> simp [foldl_windows]
@[simp] theorem State.chunkLost_windows (s : State) (a1) (a2) : (State.chunkLost s a1 a2).windows = s.windows := rfl
@[simp] theorem State.weightsTransfer_windows (s : State) (a1) (a2) (a3) : (State.weightsTransfer s a1 a2 a3).windows = s.windows := by unfold State.weightsTransfer; dsimp only; (repeat' split) <;> simp [foldl_windows]

/-! ### Tables -/

@[simp] theorem State.streamRef_windows (s : State) (a1) (a2) : (State.streamRef s a1 a2).windows = s.windows := by unfold State.streamRef; (repeat' split) <;> simp [foldl_windows]
@[simp] theorem State.setStream_windows (s : State) (a1) (a2) (a3) (a4) (a5) : (State.setStream s a1 a2 a3 a4 a5).windows = s.windows := by unfold State.setStream; dsimp only; (repeat' split) <;> simp [foldl_windows]
@[simp] theorem State.setStreams_windows (s : State) (a1) (a2) (a3) : (State.setStreams s a1 a2 a3).windows = s.windows := by simp [State.setStreams, foldl_windows]
@[simp] theorem State.enterTable_windows (s : State) (a1) (a2) (a3) : (State.enterTable s a1 a2 a3).windows = s.windows := rfl
@[simp] theorem State.tableLoadArrives_windows (s : State) (a1) (a2) (a3) : (State.tableLoadArrives s a1 a2 a3).windows = s.windows := by unfold State.tableLoadArrives; dsimp only; (repeat' split) <;> simp [foldl_windows]
@[simp] theorem State.tableTransfer_windows (s : State) (a1) (a2) (a3) : (State.tableTransfer s a1 a2 a3).windows = s.windows := by unfold State.tableTransfer; (repeat' split) <;> simp [foldl_windows]
@[simp] theorem State.beginTableLoad_windows (s : State) (a1) : (State.beginTableLoad s a1).windows = s.windows := rfl
@[simp] theorem State.selectTable_windows (s : State) (a1) (a2) : (State.selectTable s a1 a2).windows = s.windows := by unfold State.selectTable; (repeat' split) <;> simp [foldl_windows]
@[simp] theorem State.beginTableSelect_windows (s : State) (a1) (a2) : (State.beginTableSelect s a1 a2).windows = s.windows := by unfold State.beginTableSelect; (repeat' split) <;> simp [foldl_windows]
@[simp] theorem State.exportTable_windows (s : State) (a1) (a2) : (State.exportTable s a1 a2).windows = s.windows := by unfold State.exportTable; (repeat' split) <;> simp [foldl_windows]
@[simp] theorem State.beginTableExport_windows (s : State) (a1) (a2) : (State.beginTableExport s a1 a2).windows = s.windows := by unfold State.beginTableExport; (repeat' split) <;> simp [foldl_windows]
@[simp] theorem State.retireTable_windows (s : State) (a1) (a2) : (State.retireTable s a1 a2).windows = s.windows := by unfold State.retireTable; dsimp only; (repeat' split) <;> simp [foldl_windows]
@[simp] theorem State.beginRetire_windows (s : State) (a1) (a2) : (State.beginRetire s a1 a2).windows = s.windows := by simp [State.beginRetire, foldl_windows]
theorem State.takeImportId_windows (s : State) (t) (h : State.takeImportId s = some t) : t.2.windows = s.windows := by
  unfold State.takeImportId at h
  split at h
  · cases h; rfl
  · cases hf : s.tabFree.take with
    | none => rw [hf] at h; cases h
    | some x => rw [hf] at h; cases h; rfl
@[simp] theorem State.importTable_windows (s : State) (a1) (a2) (a3) : (State.importTable s a1 a2 a3).2.windows = s.windows := by unfold State.importTable; dsimp only; grind [State.windows, → State.takeImportId_windows, State.enterTable_windows, State.note_windows]
theorem State.importTable_windows_of (s : State) (a1) (a2) (a3) (u) (t) (h : (State.importTable s a1 a2 a3) = (u, t)) : t.windows = s.windows := by have := State.importTable_windows s a1 a2 a3; rw [h] at this; exact this
@[simp] theorem State.recheckFails_windows (s : State) (a1) (a2) : (State.recheckFails s a1 a2).windows = s.windows := by unfold State.recheckFails; (repeat' split) <;> simp [foldl_windows]

/-! ### NearMemory -/

@[simp] theorem State.askOp_windows (s : State) (a1) (a2) : (State.askOp s a1 a2).windows = s.windows := by unfold State.askOp; (repeat' split) <;> simp [foldl_windows]
@[simp] theorem State.pinOps_windows (s : State) (a1) : (State.pinOps s a1).windows = s.windows := by unfold State.pinOps; dsimp only; (repeat' split) <;> simp [foldl_windows]
@[simp] theorem State.readRegion_windows (s : State) (a1) (a2) : (State.readRegion s a1 a2).windows = s.windows := by unfold State.readRegion; dsimp only; (repeat' split) <;> simp [foldl_windows]
@[simp] theorem State.readRegions_windows (s : State) (a1) : (State.readRegions s a1).windows = s.windows := by simp [State.readRegions, foldl_windows]
@[simp] theorem State.beginNear_windows (s : State) (a1) : (State.beginNear s a1).windows = s.windows := by unfold State.beginNear; (repeat' split) <;> simp [foldl_windows]
@[simp] theorem State.putDest_windows (s : State) (a1) (a2) (a3) (a4) : (State.putDest s a1 a2 a3 a4).windows = s.windows := by unfold State.putDest; (repeat' split) <;> simp [foldl_windows]
@[simp] theorem State.nearResult_windows (s : State) (a1) (a2) (a3) : (State.nearResult s a1 a2 a3).windows = s.windows := by unfold State.nearResult; dsimp only; (repeat' split) <;> simp [foldl_windows]
theorem State.readSlot_windows (s : State) (r : Req) (i b layer : Nat) : (s.readSlot r i b layer).1.windows = s.windows := by
  unfold State.readSlot
  extract_lets r'
  split
  · rfl
  · split
    · rfl
    · extract_lets s1
      have h1 : s1.windows = s.windows := State.loadBlock_windows _ _ _ _
      clear_value s1
      split
      · simp [h1]
      · simp [h1]
      · rw [State.modReq_windows, State.ripen_windows]
        exact elim_windows_of h1 fun _ => h1

theorem State.readSlots_windows (id : Nat) (l : List (Nat × Nat × Nat)) (s : State) : (State.readSlots id l s).1.windows = s.windows := by
  induction l generalizing s with
  | nil => rfl
  | cons x rest ih =>
    obtain ⟨i, b, layer⟩ := x
    unfold State.readSlots
    split
    · rfl
    · next r _ =>
      have e := s.readSlot_windows r i b layer
      split <;> (next h => rw [h] at e; first | exact (ih _).trans e | exact e)
@[simp] theorem State.nearTransfer_windows (s : State) (a1) (a2) (a3) : (State.nearTransfer s a1 a2 a3).windows = s.windows := by
  unfold State.nearTransfer
  split
  · rfl
  · split
    · simp
    · split
      · simp
      · have e := State.readSlots_windows a1.id a1.slotsLeft s
        split
        · next h => rw [h] at e; simpa using e
        · next h =>
          rw [h] at e
          split
          · exact e
          · split
            · exact e
            · exact (State.nearResult_windows _ _ _ _).trans e
@[simp] theorem State.pinRegion_windows (s : State) (a1) (a2) (a3) : (State.pinRegion s a1 a2 a3).windows = s.windows := by unfold State.pinRegion; dsimp only; (repeat' split) <;> simp [foldl_windows]
@[simp] theorem State.onRegionAnswer_windows (s : State) (a1) (a2) (a3) : (State.onRegionAnswer s a1 a2 a3).windows = s.windows := by unfold State.onRegionAnswer; dsimp only; (repeat' split) <;> simp [foldl_windows]
@[simp] theorem State.onNmoDone_windows (s : State) (a1) : (State.onNmoDone s a1).windows = s.windows := by unfold State.onNmoDone; dsimp only; (repeat' split) <;> simp [foldl_windows]

/-! ### Requests -/

@[simp] theorem State.beginReq_windows (s : State) (a1) : (State.beginReq s a1).windows = s.windows := by unfold State.beginReq; (repeat' split) <;> simp [foldl_windows]
@[simp] theorem State.dropMovesOf_windows (s : State) (a1) : (State.dropMovesOf s a1).windows = s.windows := by
  unfold State.dropMovesOf; (try dsimp only)
  repeat' (first | with_reducible rfl | assumption | refine foldl_windows_of ?_ (fun _ _ => ?_) | split | simp)
@[simp] theorem State.endReq_windows (s : State) (a1) (a2) (a3) (a4) : (State.endReq s a1 a2 a3 a4).windows = s.windows := by unfold State.endReq; (repeat' split) <;> simp [foldl_windows]
@[simp] theorem State.endWalk_windows (s : State) (a1) (a2) (a3) : (State.endWalk s a1 a2 a3).windows = s.windows := by unfold State.endWalk; (repeat' split) <;> simp [foldl_windows]
@[simp] theorem State.endNow_windows (s : State) (a1) : (State.endNow s a1).windows = s.windows := by unfold State.endNow; dsimp only; (repeat' split) <;> simp [foldl_windows]
@[simp] theorem State.settleEnds_windows (s : State) : (State.settleEnds s).windows = s.windows := by unfold State.settleEnds; (repeat' (first | rfl | assumption | split | refine foldl_windows_of ?_ (fun _ _ => ?_) | refine elim_windows_of ?_ (fun _ => ?_))) <;> simp [foldl_windows]
@[simp] theorem State.endAll_windows (s : State) (a1) (a2) : (State.endAll s a1 a2).windows = s.windows := by
  unfold State.endAll; (try dsimp only)
  repeat' (first | with_reducible rfl | assumption | refine foldl_windows_of ?_ (fun _ _ => ?_) | split | simp)
@[simp] theorem State.attachRecord_windows (s : State) (a1) (a2) (a3) (a4) (a5) : (State.attachRecord s a1 a2 a3 a4 a5).windows = s.windows := by unfold State.attachRecord; (repeat' split) <;> simp [foldl_windows]
@[simp] theorem State.fenceComplete_windows (s : State) (a1) : (State.fenceComplete s a1).windows = s.windows := by unfold State.fenceComplete; dsimp only; (repeat' split) <;> simp [foldl_windows]
@[simp] theorem State.loadNamed_windows (s : State) (a1) : (State.loadNamed s a1).windows = s.windows := by unfold State.loadNamed; dsimp only; (repeat' split) <;> simp [foldl_windows]
@[simp] theorem State.apertureNote_windows (s : State) (a1) (a2) (a3) : (State.apertureNote s a1 a2 a3).windows = s.windows := by simp [State.apertureNote, foldl_windows]
@[simp] theorem State.aperture_windows (s : State) (g n) (k : Fn → State → State) (h : ∀ f s, (k f s).windows = s.windows) : (s.aperture g n k).windows = s.windows := by unfold State.aperture; apply State.live_windows; intro s; (repeat' split) <;> simp [h]
@[simp] theorem State.afterWait_windows (s : State) (a1) : (State.afterWait s a1).windows = s.windows := by unfold State.afterWait; dsimp only; (repeat' split) <;> simp [foldl_windows]
@[simp] theorem State.sequenceCommit_windows (s : State) (a1) : (State.sequenceCommit s a1).windows = s.windows := by unfold State.sequenceCommit; (repeat' (first | rfl | assumption | split | refine foldl_windows_of ?_ (fun _ _ => ?_) | refine elim_windows_of ?_ (fun _ => ?_))) <;> simp [foldl_windows]
@[simp] theorem State.rekeyEnds_windows (s : State) (a1) : (State.rekeyEnds s a1).windows = s.windows := by unfold State.rekeyEnds; (repeat' split) <;> simp [foldl_windows]
@[simp] theorem State.transferEnd_windows (s : State) (a1) (a2) (a3) : (State.transferEnd s a1 a2 a3).windows = s.windows := by unfold State.transferEnd; (repeat' split) <;> simp [foldl_windows]
@[simp] theorem State.deadlineReached_windows (s : State) (a1) : (State.deadlineReached s a1).windows = s.windows := by unfold State.deadlineReached; (repeat' split) <;> simp [foldl_windows]
@[simp] theorem State.withReq_windows (s : State) (id) (g : State → Req → State) (h : ∀ s r, (g s r).windows = s.windows) : (s.withReq id g).windows = s.windows := by unfold State.withReq; apply State.live_windows; intro s; (repeat' split) <;> simp [h]

end Sys2Proof.Machine
end

