-- ==== Sys2Proof/Laws/WindowsFabric.lean ====
section
/-! SUPPORT. What leaves the functions' windows as they are (Safety.lean): one lemma per operation of faults, links, extents, directory messages and the tray. -/

set_option linter.unusedSimpArgs false
set_option linter.unnecessarySeqFocus false
set_option linter.unreachableTactic false
set_option linter.unusedTactic false
set_option linter.unusedVariables false

namespace Sys2Proof.Machine

/-! ### Faults -/

@[simp] theorem State.advise_windows (s : State) (a1) : (State.advise s a1).windows = s.windows := by unfold State.advise; dsimp only; (repeat' split) <;> simp [foldl_windows]
@[simp] theorem State.lowSpares_windows (s : State) (a1) (a2) (a3) : (State.lowSpares s a1 a2 a3).windows = s.windows := by unfold State.lowSpares; dsimp only; (repeat' split) <;> simp [foldl_windows]
@[simp] theorem State.countSpare_windows (s : State) (a1) (a2) : (State.countSpare s a1 a2).windows = s.windows := rfl
@[simp] theorem State.spend_windows (s : State) (a1) (a2) : (State.spend s a1 a2).windows = s.windows := by unfold State.spend; (repeat' split) <;> simp [foldl_windows]
@[simp] theorem State.lostSpare_windows (s : State) (a1) (a2) : (State.lostSpare s a1 a2).windows = s.windows := by unfold State.lostSpare; dsimp only; (repeat' split) <;> simp [foldl_windows]
@[simp] theorem State.hashOut_windows (s : State) (a1) : (State.hashOut s a1).windows = s.windows := by unfold State.hashOut; dsimp only; (repeat' (first | rfl | assumption | split | refine foldl_windows_of ?_ (fun _ _ => ?_))) <;> simp [foldl_windows]
@[simp] theorem State.hashMismatch_windows (s : State) (a1) (a2) (a3) (a4) : (State.hashMismatch s a1 a2 a3 a4).windows = s.windows := by unfold State.hashMismatch; dsimp only; (repeat' split) <;> simp [foldl_windows]
@[simp] theorem State.hashCheck_windows (s : State) (a1) (a2) : (State.hashCheck s a1 a2).windows = s.windows := by unfold State.hashCheck; (repeat' split) <;> simp [foldl_windows]
@[simp] theorem State.coderFails_windows (s : State) (a1) (a2) : (State.coderFails s a1 a2).windows = s.windows := by unfold State.coderFails; dsimp only; (repeat' split) <;> simp [foldl_windows]
@[simp] theorem State.checkedTransfer_windows (s : State) (a1) (a2) (a3) (a4) : (State.checkedTransfer s a1 a2 a3 a4).windows = s.windows := by unfold State.checkedTransfer; (repeat' split) <;> simp [foldl_windows]
@[simp] theorem State.checkedRekey_windows (s : State) (a1) (a2) : (State.checkedRekey s a1 a2).windows = s.windows := by unfold State.checkedRekey; (repeat' split) <;> simp [foldl_windows]
@[simp] theorem State.rescindZero_windows (n) (s : State) : (State.rescindZero n s).windows = s.windows := by
  induction n generalizing s with
  | zero => rfl
  | succ n ih =>
    unfold State.rescindZero
    extract_lets held full cand
    split
    · rfl
    · simp [ih]
@[simp] theorem State.shrinkT1_windows (n) (s : State) : (State.shrinkT1 n s).windows = s.windows := by
  induction n generalizing s with
  | zero => rfl
  | succ n ih =>
    unfold State.shrinkT1
    extract_lets cand
    split
    · rfl
    · simp [ih]
@[simp] theorem State.shrinkRates_windows (a0) (s : State) (a2) : (State.shrinkRates a0 s a2).windows = s.windows := by
  induction a0 generalizing s with
  | zero => rfl
  | succ n ih =>
    unfold State.shrinkRates
    extract_lets qs
    split
    · rfl
    · split
      · rfl
      · exact ih _
@[simp] theorem State.recompute_windows (s : State) : (State.recompute s).windows = s.windows := by simp [State.recompute, foldl_windows]
@[simp] theorem State.replaceResv_windows (s : State) (a1) (a2) (a3) : (State.replaceResv s a1 a2 a3).windows = s.windows := by unfold State.replaceResv; dsimp only; (repeat' split) <;> simp [foldl_windows]
@[simp] theorem State.moveResvs_windows (s : State) (a1) (a2) (a3) : (State.moveResvs s a1 a2 a3).windows = s.windows := by
  unfold State.moveResvs; (try dsimp only)
  repeat' (first | with_reducible rfl | assumption | refine foldl_windows_of ?_ (fun _ _ => ?_) | split | simp)
@[simp] theorem State.endPasses_windows (s : State) (a1) (a2) : (State.endPasses s a1 a2).windows = s.windows := by
  unfold State.endPasses; (try dsimp only)
  repeat' (first | with_reducible rfl | assumption | refine foldl_windows_of ?_ (fun _ _ => ?_) | split | simp)
@[simp] theorem State.callSpare_windows (s : State) (a1) (a2) (a3) : (State.callSpare s a1 a2 a3).windows = s.windows := by unfold State.callSpare; (repeat' split) <;> simp [foldl_windows]
@[simp] theorem State.engineOut_windows (s : State) (a1) (a2) : (State.engineOut s a1 a2).windows = s.windows := by unfold State.engineOut; dsimp only; (repeat' split) <;> simp [foldl_windows]
@[simp] theorem State.engineFault_windows (s : State) (a1) (a2) (a3) : (State.engineFault s a1 a2 a3).windows = s.windows := by unfold State.engineFault; (repeat' split) <;> simp [foldl_windows]
@[simp] theorem State.engineRemapped_windows (s : State) (a1) (a2) (a3) : (State.engineRemapped s a1 a2 a3).windows = s.windows := by unfold State.engineRemapped; dsimp only; (repeat' split) <;> simp [foldl_windows]
@[simp] theorem State.decodeRecheck_windows (s : State) (a1) (a2) (a3) : (State.decodeRecheck s a1 a2 a3).windows = s.windows := by unfold State.decodeRecheck; dsimp only; (repeat' split) <;> simp [foldl_windows]
@[simp] theorem State.askAgain_windows (s : State) (a1) : (State.askAgain s a1).windows = s.windows := by unfold State.askAgain; dsimp only; (repeat' split) <;> simp [foldl_windows]
@[simp] theorem State.loseGrain_windows (s : State) (a1) : (State.loseGrain s a1).windows = s.windows := by
  unfold State.loseGrain; (try dsimp only)
  repeat' (first | with_reducible rfl | assumption | refine foldl_windows_of ?_ (fun _ _ => ?_) | split | simp)
@[simp] theorem State.setShelf_windows (s : State) (a1) (a2) : (State.setShelf s a1 a2).windows = s.windows := rfl
@[simp] theorem State.shelfFault_windows (s : State) (a1) (a2) : (State.shelfFault s a1 a2).windows = s.windows := by
  have e : ∀ (t : State) (x : Nat), (t.loseGrain x).windows = t.windows := State.loseGrain_windows
  unfold State.shelfFault
  split
  · split <;> simp
  · extract_lets s1 lost s2 s3
    have h1 : s1.windows = s.windows := by unfold s1; split <;> simp
    split
    · exact foldl_windows_of (by simp [h1]) fun _ _ => e _ _
    · have e2 : ∀ (n : Nat) (l : List Nat) (t : State), (l.foldl (fun (s : State) i => s.loseGrain (256 * n + i)) t).windows = t.windows :=
        fun n => foldl_windows _ (fun s i => e s (256 * n + i))
      rw [State.recompute_windows, State.freeIdleProxies_windows, State.demoteAll_windows]
      unfold s3 s2
      rw [State.advise_windows, State.setShelf_windows, e2, h1]
@[simp] theorem State.shelfRemapped_windows (s : State) (a1) : (State.shelfRemapped s a1).windows = s.windows := by unfold State.shelfRemapped; (repeat' split) <;> simp [foldl_windows]
@[simp] theorem State.modPair_windows (s : State) (a1) (a2) : (State.modPair s a1 a2).windows = s.windows := rfl
@[simp] theorem State.checkpoint_windows (s : State) (a1) : (State.checkpoint s a1).windows = s.windows := rfl
@[simp] theorem State.pairFault_windows (s : State) (a1) : (State.pairFault s a1).windows = s.windows := by unfold State.pairFault; dsimp only; (repeat' split) <;> simp [foldl_windows]
@[simp] theorem State.pairTakeover_windows (s : State) (a1) : (State.pairTakeover s a1).windows = s.windows := by unfold State.pairTakeover; (repeat' split) <;> simp [foldl_windows]
@[simp] theorem State.keyBankFault_windows (s : State) (a1) : (State.keyBankFault s a1).windows = s.windows := by unfold State.keyBankFault; dsimp only; (repeat' split) <;> simp [foldl_windows]
@[simp] theorem State.keyBankCopied_windows (s : State) (a1) : (State.keyBankCopied s a1).windows = s.windows := by unfold State.keyBankCopied; dsimp only; (repeat' split) <;> simp [foldl_windows]
@[simp] theorem State.aesTest_windows (s : State) (a1) (a2) : (State.aesTest s a1 a2).windows = s.windows := by unfold State.aesTest; dsimp only; (repeat' (first | rfl | assumption | split | refine foldl_windows_of ?_ (fun _ _ => ?_))) <;> simp [foldl_windows]
@[simp] theorem State.monitorFault_windows (s : State) : (State.monitorFault s).windows = s.windows := by unfold State.monitorFault; dsimp only; (repeat' split) <;> simp [foldl_windows]
@[simp] theorem State.internalEnd_windows (s : State) (a1) : (State.internalEnd s a1).windows = s.windows := by unfold State.internalEnd; dsimp only; (repeat' split) <;> simp [foldl_windows]
@[simp] theorem State.watchdog_windows (s : State) (a1) (a2) : (State.watchdog s a1 a2).windows = s.windows := by unfold State.watchdog; dsimp only; (repeat' split) <;> simp [foldl_windows]
@[simp] theorem State.laneRepair_windows (s : State) (a1) (a2) : (State.laneRepair s a1 a2).windows = s.windows := by unfold State.laneRepair; dsimp only; (repeat' split) <;> simp [foldl_windows]
@[simp] theorem State.recordEvent_windows (s : State) : (State.recordEvent s).windows = s.windows := by unfold State.recordEvent; dsimp only; (repeat' split) <;> simp [foldl_windows]

/-! ### Flash -/

@[simp] theorem State.modTray_windows (s : State) (a1) : (State.modTray s a1).windows = s.windows := rfl
@[simp] theorem State.modObjects_windows (s : State) (a1) (a2) : (State.modObjects s a1 a2).windows = s.windows := rfl
@[simp] theorem State.ssdIssue_windows (s : State) (a1) (a2) (a3) (a4) (a5) : (State.ssdIssue s a1 a2 a3 a4 a5).windows = s.windows := by
  unfold State.ssdIssue
  split
  · split <;> simp
  · rfl
@[simp] theorem State.destage_windows (s : State) (a1) : (State.destage s a1).windows = s.windows := by unfold State.destage; dsimp only; (repeat' split) <;> simp [foldl_windows]
@[simp] theorem State.destaged_windows (s : State) (a1) : (State.destaged s a1).windows = s.windows := by unfold State.destaged; (repeat' split) <;> simp [foldl_windows]
@[simp] theorem State.destageFails_windows (s : State) (a1) : (State.destageFails s a1).windows = s.windows := rfl
@[simp] theorem State.serveGet_windows (s : State) (a1) (a2) : (State.serveGet s a1 a2).windows = s.windows := by unfold State.serveGet; (repeat' split) <;> simp [foldl_windows]
@[simp] theorem State.readGrain_windows (s : State) (a1) (a2) (a3) (a4) : (State.readGrain s a1 a2 a3 a4).windows = s.windows := by unfold State.readGrain; dsimp only; (repeat' (first | rfl | assumption | split | refine foldl_windows_of ?_ (fun _ _ => ?_) | refine elim_windows_of ?_ (fun _ => ?_))) <;> simp [foldl_windows]
@[simp] theorem State.getObject_windows (s : State) (a1) (a2) : (State.getObject s a1 a2).windows = s.windows := by unfold State.getObject; (repeat' split) <;> simp [foldl_windows]
@[simp] theorem State.nextGets_windows (s : State) : (State.nextGets s).windows = s.windows := by unfold State.nextGets; (repeat' (first | rfl | assumption | split | refine foldl_windows_of ?_ (fun _ _ => ?_) | refine elim_windows_of ?_ (fun _ => ?_))) <;> simp [foldl_windows]
@[simp] theorem State.getDone_windows (s : State) (a1) (a2) : (State.getDone s a1 a2).windows = s.windows := by unfold State.getDone; (repeat' split) <;> simp [foldl_windows]
@[simp] theorem State.getFails_windows (s : State) (a1) (a2) (a3) (a4) (a5) : (State.getFails s a1 a2 a3 a4 a5).windows = s.windows := by unfold State.getFails; dsimp only; (repeat' split) <;> simp [foldl_windows]
@[simp] theorem State.flashDone_windows (s : State) (a1) : (State.flashDone s a1).windows = s.windows := by unfold State.flashDone; (repeat' split) <;> simp [foldl_windows]

/-! ### Links -/

@[simp] theorem State.dropTxn_windows (s : State) (a1) : (State.dropTxn s a1).windows = s.windows := rfl
@[simp] theorem State.txnDone_windows (s : State) (a1) : (State.txnDone s a1).windows = s.windows := by unfold State.txnDone; (repeat' split) <;> simp [foldl_windows]
@[simp] theorem State.endMoveTxn_windows (s : State) (a1) (a2) (a3) : (State.endMoveTxn s a1 a2 a3).windows = s.windows := by unfold State.endMoveTxn; (repeat' split) <;> simp [foldl_windows]
@[simp] theorem State.rekeyFails_windows (s : State) (a1) (a2) (a3) (a4) : (State.rekeyFails s a1 a2 a3 a4).windows = s.windows := by unfold State.rekeyFails; (repeat' split) <;> simp [foldl_windows]
@[simp] theorem State.endTxn_windows (s : State) (a1) (a2) : (State.endTxn s a1 a2).windows = s.windows := by unfold State.endTxn; dsimp only; (repeat' split) <;> simp [foldl_windows]
@[simp] theorem State.endTxns_windows (s : State) (a1) (a2) : (State.endTxns s a1 a2).windows = s.windows := by
  unfold State.endTxns
  refine foldl_windows_of rfl fun s t => ?_
  split <;> simp
@[simp] theorem State.linkNote_windows (s : State) (a1) (a2) (a3) : (State.linkNote s a1 a2 a3).windows = s.windows := by simp [State.linkNote, foldl_windows]
@[simp] theorem State.endSessions_windows (s : State) (a1) : (State.endSessions s a1).windows = s.windows := by unfold State.endSessions; (repeat' (first | rfl | assumption | split | refine foldl_windows_of ?_ (fun _ _ => ?_) | refine elim_windows_of ?_ (fun _ => ?_))) <;> simp [foldl_windows]
@[simp] theorem State.leaveUp_windows (s : State) (a1) (a2) : (State.leaveUp s a1 a2).windows = s.windows := by simp [State.leaveUp, foldl_windows]
@[simp] theorem State.linkDown_windows (s : State) (a1) : (State.linkDown s a1).windows = s.windows := by simp [State.linkDown, foldl_windows]
@[simp] theorem State.toTraining_windows (s : State) (a1) : (State.toTraining s a1).windows = s.windows := by simp [State.toTraining, foldl_windows]
@[simp] theorem State.quarantine_windows (s : State) (a1) : (State.quarantine s a1).windows = s.windows := by simp [State.quarantine, foldl_windows]
@[simp] theorem State.joinVolumes_windows (s : State) (a1) : (State.joinVolumes s a1).windows = s.windows := by unfold State.joinVolumes; dsimp only; (repeat' (first | rfl | assumption | split | refine foldl_windows_of ?_ (fun _ _ => ?_))) <;> simp [foldl_windows]
@[simp] theorem State.offerExtents_windows (s : State) (a1) : (State.offerExtents s a1).windows = s.windows := by unfold State.offerExtents; (repeat' (first | rfl | assumption | split | refine foldl_windows_of ?_ (fun _ _ => ?_) | refine elim_windows_of ?_ (fun _ => ?_))) <;> simp [foldl_windows]
@[simp] theorem State.portUp_windows (s : State) (a1) : (State.portUp s a1).windows = s.windows := by simp [State.portUp, foldl_windows]
@[simp] theorem State.sendHello_windows (s : State) (a1) : (State.sendHello s a1).windows = s.windows := rfl
@[simp] theorem State.laneFails_windows (s : State) (a1) (a2) (a3) : (State.laneFails s a1 a2 a3).windows = s.windows := by unfold State.laneFails; dsimp only; (repeat' split) <;> simp [foldl_windows]
@[simp] theorem State.trainingLanes_windows (s : State) (a1) (a2) (a3) : (State.trainingLanes s a1 a2 a3).windows = s.windows := by unfold State.trainingLanes; dsimp only; (repeat' (first | rfl | assumption | split | refine foldl_windows_of ?_ (fun _ _ => ?_))) <;> simp [foldl_windows]
@[simp] theorem State.askStep_windows (s : State) (a1) : (State.askStep s a1).windows = s.windows := by unfold State.askStep; (repeat' (first | rfl | assumption | split | refine foldl_windows_of ?_ (fun _ _ => ?_) | refine elim_windows_of ?_ (fun _ => ?_))) <;> simp [foldl_windows]
@[simp] theorem State.setIdeKeys_windows (s : State) (a1) : (State.setIdeKeys s a1).windows = s.windows := by unfold State.setIdeKeys; (repeat' (first | rfl | assumption | split | refine foldl_windows_of ?_ (fun _ _ => ?_) | refine elim_windows_of ?_ (fun _ => ?_))) <;> simp [foldl_windows]
@[simp] theorem State.trained_windows (s : State) (a1) (a2) : (State.trained s a1 a2).windows = s.windows := by unfold State.trained; (repeat' split) <;> (try dsimp only) <;> (repeat' split) <;> simp [foldl_windows]
@[simp] theorem State.trainingEnd_windows (s : State) (a1) (a2) (a3) (a4) : (State.trainingEnd s a1 a2 a3 a4).windows = s.windows := by unfold State.trainingEnd; (repeat' split) <;> simp [foldl_windows]
@[simp] theorem State.retryEnd_windows (s : State) (a1) : (State.retryEnd s a1).windows = s.windows := by unfold State.retryEnd; (repeat' split) <;> simp [foldl_windows]
@[simp] theorem State.stepDone_windows (s : State) (a1) (a2) : (State.stepDone s a1 a2).windows = s.windows := by unfold State.stepDone; dsimp only; (repeat' split) <;> simp [foldl_windows]
@[simp] theorem State.doeStep_windows (s : State) (a1) (a2) : (State.doeStep s a1 a2).windows = s.windows := by unfold State.doeStep; (repeat' split) <;> simp [foldl_windows]
@[simp] theorem State.surpriseDown_windows (s : State) (a1) : (State.surpriseDown s a1).windows = s.windows := by unfold State.surpriseDown; (repeat' split) <;> simp [foldl_windows]
@[simp] theorem State.discard_windows (s : State) (a1) (a2) : (State.discard s a1 a2).windows = s.windows := by unfold State.discard; dsimp only; (repeat' split) <;> simp [foldl_windows]
@[simp] theorem State.takeFrame_windows (s : State) (a1) (a2) (a3) (a4) (a5) (a6) (k : State → Port → State) (h : ∀ s p, (k s p).windows = s.windows) :
    (State.takeFrame s a1 a2 a3 a4 a5 a6 k).windows = s.windows := by
  unfold State.takeFrame
  refine State.live_windows _ _ fun s => ?_
  split
  · rfl
  · dsimp only
    (repeat' split) <;> simp [h]
@[simp] theorem State.takeAnswer_windows (s : State) (a1) (a2) (a3) (a4) (a5) (k : State → Txn → State) (h : ∀ s p, (k s p).windows = s.windows) :
    (State.takeAnswer s a1 a2 a3 a4 a5 k).windows = s.windows := by
  unfold State.takeAnswer
  refine State.takeFrame_windows _ _ _ _ _ _ _ _ fun s p => ?_
  split <;> simp [h]
@[simp] theorem State.openSession_windows (s : State) (a1) : (State.openSession s a1).windows = s.windows := by
  unfold State.openSession
  dsimp only
  split <;> simp
@[simp] theorem State.onSpdm_windows (s : State) (a1) (a2) : (State.onSpdm s a1 a2).windows = s.windows := by unfold State.onSpdm; dsimp only; (repeat' split) <;> simp [foldl_windows]
@[simp] theorem State.onConfig_windows (s : State) (a1) (a2) (a3) : (State.onConfig s a1 a2 a3).windows = s.windows := by unfold State.onConfig; dsimp only; (repeat' split) <;> simp [foldl_windows]
@[simp] theorem State.keepaliveSend_windows (s : State) (a1) : (State.keepaliveSend s a1).windows = s.windows := by unfold State.keepaliveSend; (repeat' split) <;> simp [foldl_windows]
@[simp] theorem State.keepaliveLost_windows (s : State) (a1) : (State.keepaliveLost s a1).windows = s.windows := by unfold State.keepaliveLost; (repeat' split) <;> simp [foldl_windows]
@[simp] theorem State.onCredit_windows (s : State) (a1) (a2) : (State.onCredit s a1 a2).windows = s.windows := rfl
@[simp] theorem State.onReplay_windows (s : State) (a1) (a2) : (State.onReplay s a1 a2).windows = s.windows := by
  unfold State.onReplay
  split
  · rfl
  · exact foldl_windows_of rfl fun _ _ => by simp
@[simp] theorem State.onEpoch_windows (s : State) (a1) (a2) : (State.onEpoch s a1 a2).windows = s.windows := by simp [State.onEpoch, foldl_windows]
@[simp] theorem State.aslTimeout_windows (s : State) (a1) : (State.aslTimeout s a1).windows = s.windows := by unfold State.aslTimeout; (repeat' split) <;> simp [foldl_windows]

/-! ### Extents -/

@[simp] theorem State.clearVers_windows (s : State) (a1) (a2) : (State.clearVers s a1 a2).windows = s.windows := rfl
@[simp] theorem State.enterExtent_windows (s : State) (a1) (a2) (a3) (a4) (a5) (a6) (a7) (a8) (a9) : (State.enterExtent s a1 a2 a3 a4 a5 a6 a7 a8 a9).windows = s.windows := rfl
@[simp] theorem State.freeExtent_windows (s : State) (a1) : (State.freeExtent s a1).windows = s.windows := rfl
@[simp] theorem State.ackRelease_windows (s : State) (a1) : (State.ackRelease s a1).windows = s.windows := by unfold State.ackRelease; (repeat' split) <;> simp [foldl_windows]
@[simp] theorem State.moveChunk_windows (s : State) (a1) (a2) : (State.moveChunk s a1 a2).windows = s.windows := by unfold State.moveChunk; dsimp only; (repeat' split) <;> simp [foldl_windows]
@[simp] theorem State.evacuate_windows (s : State) (a1) : (State.evacuate s a1).windows = s.windows := by simp [State.evacuate, foldl_windows]
@[simp] theorem State.settleExtent_windows (s : State) (a1) : (State.settleExtent s a1).windows = s.windows := by unfold State.settleExtent; dsimp only; (repeat' split) <;> simp [foldl_windows]
@[simp] theorem State.settleExtents_windows (s : State) : (State.settleExtents s).windows = s.windows := by simp [State.settleExtents, foldl_windows]
@[simp] theorem State.requestRelease_windows (s : State) (a1) : (State.requestRelease s a1).windows = s.windows := by unfold State.requestRelease; (repeat' split) <;> simp [foldl_windows]
@[simp] theorem State.drainExtent_windows (s : State) (a1) : (State.drainExtent s a1).windows = s.windows := by unfold State.drainExtent; dsimp only; (repeat' (first | rfl | assumption | split | refine foldl_windows_of ?_ (fun _ _ => ?_))) <;> simp [foldl_windows]
@[simp] theorem State.forceRelease_windows (s : State) (a1) : (State.forceRelease s a1).windows = s.windows := by unfold State.forceRelease; (repeat' split) <;> simp [foldl_windows]
@[simp] theorem State.endClaim_windows (s : State) (a1) : (State.endClaim s a1).windows = s.windows := rfl
@[simp] theorem State.releaseExtent_windows (s : State) (a1) (a2) : (State.releaseExtent s a1 a2).windows = s.windows := by unfold State.releaseExtent; (repeat' split) <;> simp [foldl_windows]
@[simp] theorem State.onOffer_windows (s : State) (a1) (a2) (a3) : (State.onOffer s a1 a2 a3).windows = s.windows := by unfold State.onOffer; dsimp only; (repeat' split) <;> simp [foldl_windows]
@[simp] theorem State.claimAnswer_windows (s : State) (a1) (a2) : (State.claimAnswer s a1 a2).windows = s.windows := by unfold State.claimAnswer; dsimp only; (repeat' split) <;> simp [foldl_windows]
@[simp] theorem State.addCapacity_windows (s : State) (a1) (a2) (a3) (a4) : (State.addCapacity s a1 a2 a3 a4).windows = s.windows := by unfold State.addCapacity; dsimp only; (repeat' split) <;> simp [foldl_windows]
@[simp] theorem State.evacuateTimeout_windows (s : State) (a1) : (State.evacuateTimeout s a1).windows = s.windows := by unfold State.evacuateTimeout; (repeat' split) <;> simp [foldl_windows]
@[simp] theorem State.drainTimeout_windows (s : State) (a1) : (State.drainTimeout s a1).windows = s.windows := by
  unfold State.drainTimeout
  split
  · split
    · refine foldl_windows_of rfl fun s t => ?_
      split <;> simp
    · rfl
  · rfl
@[simp] theorem State.drainEnd_windows (s : State) (a1) : (State.drainEnd s a1).windows = s.windows := by unfold State.drainEnd; (repeat' split) <;> simp [foldl_windows]
@[simp] theorem State.sweepExtent_windows (s : State) (a1) : (State.sweepExtent s a1).windows = s.windows := by unfold State.sweepExtent; (repeat' (first | rfl | assumption | split | refine foldl_windows_of ?_ (fun _ _ => ?_) | refine elim_windows_of ?_ (fun _ => ?_))) <;> simp [foldl_windows]
@[simp] theorem State.moveEnd_windows (s : State) (a1) (a2) : (State.moveEnd s a1 a2).windows = s.windows := by unfold State.moveEnd; (repeat' split) <;> simp [foldl_windows]
@[simp] theorem State.deviceAnswer_windows (s : State) (a1) (a2) (a3) : (State.deviceAnswer s a1 a2 a3).windows = s.windows := by unfold State.deviceAnswer; (repeat' split) <;> simp [foldl_windows]
@[simp] theorem State.nvmeTimeout_windows (s : State) (a1) (a2) (a3) : (State.nvmeTimeout s a1 a2 a3).windows = s.windows := by unfold State.nvmeTimeout; dsimp only; (repeat' split) <;> simp [foldl_windows]
@[simp] theorem State.reissue_windows (s : State) (a1) (a2) (a3) : (State.reissue s a1 a2 a3).windows = s.windows := by unfold State.reissue; (repeat' split) <;> simp [foldl_windows]
@[simp] theorem State.nvmeResetEnd_windows (s : State) (a1) (a2) (a3) : (State.nvmeResetEnd s a1 a2 a3).windows = s.windows := by unfold State.nvmeResetEnd; dsimp only; (repeat' split) <;> simp [foldl_windows]

/-! ### Fabric -/

@[simp] theorem State.memberGone_windows (s : State) (a1) : (State.memberGone s a1).windows = s.windows := by unfold State.memberGone; dsimp only; (repeat' (first | rfl | assumption | split | refine foldl_windows_of ?_ (fun _ _ => ?_))) <;> simp [foldl_windows]
@[simp] theorem State.memberUnreachable_windows (s : State) (a1) : (State.memberUnreachable s a1).windows = s.windows := by unfold State.memberUnreachable; dsimp only; (repeat' split) <;> simp [foldl_windows]
@[simp] theorem State.onKeepalive_windows (s : State) (a1) (a2) (a3) : (State.onKeepalive s a1 a2 a3).windows = s.windows := by unfold State.onKeepalive; (repeat' split) <;> simp [foldl_windows]
@[simp] theorem State.memberReset_windows (s : State) (a1) : (State.memberReset s a1).windows = s.windows := by unfold State.memberReset; (repeat' split) <;> simp [foldl_windows]
@[simp] theorem State.onHello_windows (s : State) (a1) (a2) : (State.onHello s a1 a2).windows = s.windows := by unfold State.onHello; dsimp only; (repeat' split) <;> simp [foldl_windows]
@[simp] theorem State.servePage_windows (s : State) (a1) (a2) (a3) : (State.servePage s a1 a2 a3).windows = s.windows := by unfold State.servePage; dsimp only; (repeat' split) <;> simp [foldl_windows]
@[simp] theorem State.copyFilled_windows (s : State) (a1) (a2) (a3) (a4) : (State.copyFilled s a1 a2 a3 a4).windows = s.windows := by unfold State.copyFilled; dsimp only; (repeat' split) <;> simp [foldl_windows]
@[simp] theorem State.onPageData_windows (s : State) (a1) (a2) (a3) (a4) : (State.onPageData s a1 a2 a3 a4).windows = s.windows := by unfold State.onPageData; dsimp only; (repeat' split) <;> simp [foldl_windows]
@[simp] theorem State.onPutDone_windows (s : State) (a1) (a2) : (State.onPutDone s a1 a2).windows = s.windows := by unfold State.onPutDone; (repeat' split) <;> simp [foldl_windows]
@[simp] theorem State.serveTable_windows (s : State) (a1) (a2) : (State.serveTable s a1 a2).windows = s.windows := by unfold State.serveTable; (repeat' split) <;> simp [foldl_windows]
@[simp] theorem State.onTableData_windows (s : State) (a1) (a2) (a3) : (State.onTableData s a1 a2 a3).windows = s.windows := by unfold State.onTableData; grind [State.windows, State.endTxn_windows, State.importTable_windows, → State.importTable_windows_of, State.dropTxn_windows]
@[simp] theorem State.holdSearch_windows (s : State) (a1) : (State.holdSearch s a1).windows = s.windows := rfl

/-! ### Port -/

@[simp] theorem State.reply_windows (s : State) (a1) (a2) (a3) : (State.reply s a1 a2 a3).windows = s.windows := by unfold State.reply; (repeat' split) <;> simp [foldl_windows]
@[simp] theorem State.touch_windows (s : State) (a1) : (State.touch s a1).windows = s.windows := rfl
@[simp] theorem State.serve_windows (s : State) (a1) (a2) (a3) (k : State → Conn → State) (h : ∀ s c, (k s c).windows = s.windows) :
    (State.serve s a1 a2 a3 k).windows = s.windows := by
  unfold State.serve
  split
  · rfl
  · split
    · rfl
    · extract_lets s1
      have h1 : s1.windows = s.windows := by unfold s1; simp
      (repeat' split) <;> simp [h, h1]
@[simp] theorem State.dropKeys_windows (s : State) (a1) : (State.dropKeys s a1).windows = s.windows := by unfold State.dropKeys; dsimp only; (repeat' split) <;> simp [foldl_windows]
@[simp] theorem State.endSession_windows (s : State) (a1) (a2) : (State.endSession s a1 a2).windows = s.windows := by unfold State.endSession; (repeat' split) <;> simp [foldl_windows]
@[simp] theorem State.cutSession_windows (s : State) (a1) : (State.cutSession s a1).windows = s.windows := by unfold State.cutSession; (repeat' split) <;> simp [foldl_windows]
@[simp] theorem State.forgetSession_windows (s : State) (a1) : (State.forgetSession s a1).windows = s.windows := by simp [State.forgetSession, foldl_windows]
@[simp] theorem State.closeConn_windows (s : State) (a1) : (State.closeConn s a1).windows = s.windows := by simp [State.closeConn, foldl_windows]

/-! ### Tray -/

@[simp] theorem State.makeKey_windows (s : State) (a1) : (State.makeKey s a1).windows = s.windows := by unfold State.makeKey; (repeat' split) <;> simp [foldl_windows]
@[simp] theorem State.settleKey_windows (s : State) (a1) : (State.settleKey s a1).windows = s.windows := by unfold State.settleKey; (repeat' split) <;> simp [foldl_windows]
@[simp] theorem State.modRegion_windows (s : State) (a1) (a2) : (State.modRegion s a1 a2).windows = s.windows := rfl
@[simp] theorem State.grantFalse_windows (s : State) (a1) (a2) : (State.grantFalse s a1 a2).windows = s.windows := by simp [State.grantFalse, foldl_windows]
@[simp] theorem State.reachFalse_windows (s : State) (a1) (a2) (a3) (a4) : (State.reachFalse s a1 a2 a3 a4).windows = s.windows := by simp [State.reachFalse, foldl_windows]
@[simp] theorem State.addGrant_windows (s : State) (a1) (a2) : (State.addGrant s a1 a2).windows = s.windows := by unfold State.addGrant; dsimp only; (repeat' split) <;> simp [foldl_windows]
@[simp] theorem State.dropGrant_windows (s : State) (a1) (a2) : (State.dropGrant s a1 a2).windows = s.windows := by unfold State.dropGrant; dsimp only; (repeat' split) <;> simp [foldl_windows]
@[simp] theorem State.freeRegion__windows (s : State) (a1) : (State.freeRegion_ s a1).windows = s.windows := by simp [State.freeRegion_, foldl_windows]
@[simp] theorem State.regionAnswer_windows (s : State) (a1) (a2) (a3) (a4) (a5) (a6) (a7) : (State.regionAnswer s a1 a2 a3 a4 a5 a6 a7).windows = s.windows := by unfold State.regionAnswer; (repeat' split) <;> simp [foldl_windows]
@[simp] theorem State.regionOpenFor_windows (s : State) (a1) (a2) (a3) (a4) (a5) : (State.regionOpenFor s a1 a2 a3 a4 a5).windows = s.windows := by unfold State.regionOpenFor; dsimp only; (repeat' split) <;> simp [foldl_windows]
@[simp] theorem State.regionGrantTo_windows (s : State) (a1) (a2) (a3) (a4) : (State.regionGrantTo s a1 a2 a3 a4).windows = s.windows := by unfold State.regionGrantTo; (repeat' split) <;> simp [foldl_windows]
@[simp] theorem State.askRecall_windows (s : State) (a1) (a2) : (State.askRecall s a1 a2).windows = s.windows := by unfold State.askRecall; (repeat' split) <;> simp [foldl_windows]
@[simp] theorem State.publishRegion_windows (s : State) (a1) : (State.publishRegion s a1).windows = s.windows := by unfold State.publishRegion; dsimp only; (repeat' split) <;> simp [foldl_windows]
@[simp] theorem State.recallComplete_windows (s : State) (a1) : (State.recallComplete s a1).windows = s.windows := by unfold State.recallComplete; (repeat' split) <;> simp [foldl_windows]
@[simp] theorem State.beginRecall_windows (s : State) (a1) (a2) (a3) : (State.beginRecall s a1 a2 a3).windows = s.windows := by unfold State.beginRecall; dsimp only; (repeat' split) <;> simp [foldl_windows]
@[simp] theorem State.recallAnswered_windows (s : State) (a1) (a2) : (State.recallAnswered s a1 a2).windows = s.windows := by unfold State.recallAnswered; dsimp only; (repeat' split) <;> simp [foldl_windows]
@[simp] theorem State.renameDraft_windows (s : State) (a1) (a2) : (State.renameDraft s a1 a2).windows = s.windows := rfl
@[simp] theorem State.regionPublishBy_windows (s : State) (a1) (a2) (a3) (a4) : (State.regionPublishBy s a1 a2 a3 a4).windows = s.windows := by unfold State.regionPublishBy; (repeat' split) <;> simp [foldl_windows]
@[simp] theorem State.regionWithdrawn_windows (s : State) (a1) (a2) (a3) : (State.regionWithdrawn s a1 a2 a3).windows = s.windows := by unfold State.regionWithdrawn; dsimp only; (repeat' split) <;> simp [foldl_windows]
@[simp] theorem State.regionReleased_windows (s : State) (a1) (a2) (a3) (a4) : (State.regionReleased s a1 a2 a3 a4).windows = s.windows := by unfold State.regionReleased; dsimp only; (repeat' split) <;> simp [foldl_windows]
@[simp] theorem State.recallTimeout_windows (s : State) (a1) (a2) (a3) : (State.recallTimeout s a1 a2 a3).windows = s.windows := by unfold State.recallTimeout; dsimp only; (repeat' split) <;> simp [foldl_windows]
@[simp] theorem State.backInvalidate_windows (s : State) (a1) (a2) (a3) (a4) : (State.backInvalidate s a1 a2 a3 a4).windows = s.windows := by unfold State.backInvalidate; dsimp only; (repeat' split) <;> simp [foldl_windows]
@[simp] theorem State.onRegionRead_windows (s : State) (a1) (a2) (a3) (a4) : (State.onRegionRead s a1 a2 a3 a4).windows = s.windows := by unfold State.onRegionRead; dsimp only; (repeat' split) <;> simp [foldl_windows]
@[simp] theorem State.gathered_windows (s : State) (a1) (a2) : (State.gathered s a1 a2).2.windows = s.windows := rfl
theorem State.gathered_windows_of (s : State) (a1) (a2) (u) (t) (h : (State.gathered s a1 a2) = (u, t)) : t.windows = s.windows := by have := State.gathered_windows s a1 a2; rw [h] at this; exact this
@[simp] theorem State.gather_windows (s : State) (a1) (a2) (a3) : (State.gather s a1 a2 a3).windows = s.windows := rfl
@[simp] theorem State.onRegionWrite_windows (s : State) (a1) (a2) (a3) (a4) : (State.onRegionWrite s a1 a2 a3 a4).windows = s.windows := by unfold State.onRegionWrite; dsimp only; (repeat' split) <;> simp [foldl_windows]
@[simp] theorem State.faultRegion_windows (s : State) (a1) : (State.faultRegion s a1).windows = s.windows := by simp [State.faultRegion, foldl_windows]
@[simp] theorem State.onRegionRecall_windows (s : State) (a1) (a2) : (State.onRegionRecall s a1 a2).windows = s.windows := by simp [State.onRegionRecall, foldl_windows]
theorem State.regionDest_windows (s : State) (a1) (a2) (a3) (a4) (t) (h : State.regionDest s a1 a2 a3 a4 = some t) : t.windows = s.windows := by
  unfold State.regionDest at h
  split at h
  · split at h
    · cases h; simp
    · cases h
  · cases h
@[simp] theorem State.runNmo_windows (s : State) (a1) (a2) (a3) : (State.runNmo s a1 a2 a3).2.2.windows = s.windows := by unfold State.runNmo; dsimp only; grind [State.windows, → State.regionDest_windows]
theorem State.runNmo_windows_of (s : State) (a1) (a2) (a3) (u) (w) (t) (h : (State.runNmo s a1 a2 a3) = (u, w, t)) : t.windows = s.windows := by have := State.runNmo_windows s a1 a2 a3; rw [h] at this; exact this
@[simp] theorem State.onNmo_windows (s : State) (a1) (a2) (a3) (a4) : (State.onNmo s a1 a2 a3 a4).windows = s.windows := by unfold State.onNmo; dsimp only; (repeat' split) <;> simp [foldl_windows]
@[simp] theorem State.takeVolume_windows (s : State) (a1) (a2) : (State.takeVolume s a1 a2).windows = s.windows := by unfold State.takeVolume; (repeat' split) <;> simp [foldl_windows]
@[simp] theorem State.onPagePut_windows (s : State) (a1) (a2) (a3) (a4) : (State.onPagePut s a1 a2 a3 a4).windows = s.windows := by unfold State.onPagePut; dsimp only; (repeat' split) <;> simp [foldl_windows]
@[simp] theorem State.trayPage_windows (s : State) (a1) (a2) (a3) : (State.trayPage s a1 a2 a3).windows = s.windows := by unfold State.trayPage; dsimp only; (repeat' split) <;> simp [foldl_windows]
@[simp] theorem State.modTrayExtent_windows (s : State) (a1) (a2) : (State.modTrayExtent s a1 a2).windows = s.windows := rfl
@[simp] theorem State.onClaim_windows (s : State) (a1) (a2) (a3) : (State.onClaim s a1 a2 a3).windows = s.windows := by unfold State.onClaim; dsimp only; (repeat' split) <;> simp [foldl_windows]
@[simp] theorem State.extentBack_windows (s : State) (a1) (a2) : (State.extentBack s a1 a2).windows = s.windows := by simp [State.extentBack, foldl_windows]
@[simp] theorem State.releaseAcked_windows (s : State) (a1) (a2) : (State.releaseAcked s a1 a2).windows = s.windows := by unfold State.releaseAcked; (repeat' split) <;> simp [foldl_windows]
@[simp] theorem State.capacityTaken_windows (s : State) (a1) (a2) (a3) : (State.capacityTaken s a1 a2 a3).windows = s.windows := by unfold State.capacityTaken; (repeat' split) <;> simp [foldl_windows]
@[simp] theorem State.capacityBack_windows (s : State) (a1) (a2) : (State.capacityBack s a1 a2).windows = s.windows := by unfold State.capacityBack; (repeat' (first | rfl | assumption | split | refine foldl_windows_of ?_ (fun _ _ => ?_) | refine elim_windows_of ?_ (fun _ => ?_))) <;> simp [foldl_windows]
@[simp] theorem State.ssdFails_windows (s : State) (a1) (a2) (a3) : (State.ssdFails s a1 a2 a3).windows = s.windows := by unfold State.ssdFails; dsimp only; (repeat' split) <;> simp [foldl_windows]
@[simp] theorem State.pairRebuilt_windows (s : State) : (State.pairRebuilt s).windows = s.windows := by unfold State.pairRebuilt; (repeat' split) <;> simp [foldl_windows]
@[simp] theorem State.poolAccess_windows (s : State) (a1) (a2) (a3) : (State.poolAccess s a1 a2 a3).windows = s.windows := by unfold State.poolAccess; dsimp only; (repeat' split) <;> simp [foldl_windows]
@[simp] theorem State.poolMem_windows (s : State) (a1) (a2) (a3) (a4) (a5) : (State.poolMem s a1 a2 a3 a4 a5).windows = s.windows := by unfold State.poolMem; dsimp only; (repeat' split) <;> simp [foldl_windows]
@[simp] theorem State.regionCmd_windows (s : State) (a1) (k : State → State) (h : ∀ s, (k s).windows = s.windows) :
    (State.regionCmd s a1 k).windows = s.windows := by
  unfold State.regionCmd
  split
  · exact State.live_windows _ _ h
  · refine State.serve_windows _ _ _ _ _ fun s _ => ?_
    split <;> simp [h]

end Sys2Proof.Machine
end

