-- ==== Sys2Proof/Laws/WindowsDevice.lean ====
section
/-! SUPPORT. What leaves the functions' windows as they are (Safety.lean): one lemma per operation of the array, memory, identity, boot, management, power and scheduling. -/

set_option linter.unusedSimpArgs false
set_option linter.unnecessarySeqFocus false
set_option linter.unreachableTactic false
set_option linter.unusedTactic false
set_option linter.unusedVariables false

namespace Sys2Proof.Machine

/-! ### Array -/

@[simp] theorem State.arrayNote_windows (s : State) (a1) (a2) (a3) : (State.arrayNote s a1 a2 a3).windows = s.windows := by simp [State.arrayNote, foldl_windows]
@[simp] theorem State.modBank_windows (s : State) (a1) (a2) : (State.modBank s a1 a2).windows = s.windows := rfl
@[simp] theorem State.loseEntries_windows (s : State) (a1) (a2) (a3) (a4) : (State.loseEntries s a1 a2 a3 a4).windows = s.windows := by unfold State.loseEntries; dsimp only; (repeat' (first | rfl | assumption | split | refine foldl_windows_of ?_ (fun _ _ => ?_) | refine elim_windows_of ?_ (fun _ => ?_))) <;> simp [foldl_windows]
@[simp] theorem State.runHeld_windows (s : State) (a1) : (State.runHeld s a1).windows = s.windows := by unfold State.runHeld; (repeat' split) <;> simp [foldl_windows]
@[simp] theorem State.runPublish_windows (s : State) (a1) : (State.runPublish s a1).windows = s.windows := by unfold State.runPublish; (repeat' split) <;> simp [foldl_windows]
@[simp] theorem State.onUp_windows (s : State) (a1) (k : Port → State) (h : ∀ p, (k p).windows = s.windows) : (State.onUp s a1 k).windows = s.windows := by
  unfold State.onUp
  refine elim_windows_of rfl fun _ => ?_
  split <;> simp [h]
@[simp] theorem State.runSearch_windows (s : State) (a1) : (State.runSearch s a1).windows = s.windows := by unfold State.runSearch; (repeat' (first | rfl | assumption | split | refine foldl_windows_of ?_ (fun _ _ => ?_) | refine elim_windows_of ?_ (fun _ => ?_))) <;> simp [foldl_windows]
@[simp] theorem State.heldRun_windows (s : State) : (State.heldRun s).windows = s.windows := by unfold State.heldRun; dsimp only; (repeat' (first | rfl | assumption | split | refine foldl_windows_of ?_ (fun _ _ => ?_) | refine elim_windows_of ?_ (fun _ => ?_))) <;> simp [foldl_windows]
@[simp] theorem State.bankLost_windows (s : State) (a1) : (State.bankLost s a1).windows = s.windows := by unfold State.bankLost; dsimp only; (repeat' split) <;> simp [foldl_windows]
@[simp] theorem State.rebuildBank_windows (s : State) (a1) : (State.rebuildBank s a1).windows = s.windows := by unfold State.rebuildBank; (repeat' split) <;> simp [foldl_windows]
@[simp] theorem State.bankFault_windows (s : State) (a1) : (State.bankFault s a1).windows = s.windows := by unfold State.bankFault; dsimp only; (repeat' split) <;> simp [foldl_windows]
@[simp] theorem State.bankRebuilt_windows (s : State) (a1) : (State.bankRebuilt s a1).windows = s.windows := by unfold State.bankRebuilt; dsimp only; (repeat' (first | rfl | assumption | split | refine foldl_windows_of ?_ (fun _ _ => ?_))) <;> simp [foldl_windows]
@[simp] theorem State.mapShadow_windows (s : State) (a1) : (State.mapShadow s a1).windows = s.windows := rfl
@[simp] theorem State.loseAt_windows (s : State) (a1) (a2) : (State.loseAt s a1 a2).windows = s.windows := by simp [State.loseAt, foldl_windows]
@[simp] theorem State.dropShadowless_windows (s : State) (a1) : (State.dropShadowless s a1).windows = s.windows := by unfold State.dropShadowless; (repeat' (first | rfl | assumption | split | refine foldl_windows_of ?_ (fun _ _ => ?_) | refine elim_windows_of ?_ (fun _ => ?_))) <;> simp [foldl_windows]
@[simp] theorem State.compareEntries_windows (s : State) (a1) : (State.compareEntries s a1).windows = s.windows := by unfold State.compareEntries; dsimp only; (repeat' split) <;> simp [foldl_windows]
@[simp] theorem State.rowMismatch_windows (s : State) (a1) : (State.rowMismatch s a1).windows = s.windows := by unfold State.rowMismatch; dsimp only; (repeat' split) <;> simp [foldl_windows]
@[simp] theorem State.rowUpset_windows (s : State) (a1) : (State.rowUpset s a1).windows = s.windows := by unfold State.rowUpset; dsimp only; (repeat' split) <;> simp [foldl_windows]
@[simp] theorem State.shadowCompare_windows (s : State) (a1) : (State.shadowCompare s a1).windows = s.windows := by simp [State.shadowCompare, foldl_windows]
@[simp] theorem State.holeRemoval_windows (s : State) (a1) : (State.holeRemoval s a1).windows = s.windows := by unfold State.holeRemoval; (repeat' split) <;> simp [foldl_windows]
@[simp] theorem State.idleWithdraw_windows (s : State) (a1) : (State.idleWithdraw s a1).windows = s.windows := by unfold State.idleWithdraw; dsimp only; (repeat' split) <;> simp [foldl_windows]
@[simp] theorem State.discardCopy_windows (s : State) (a1) : (State.discardCopy s a1).windows = s.windows := by
  unfold State.discardCopy
  refine foldl_windows_of rfl fun s x => ?_
  split
  · exact foldl_windows_of rfl fun _ _ => by simp
  · rfl
@[simp] theorem State.copyVerify_windows (s : State) (a1) : (State.copyVerify s a1).windows = s.windows := by unfold State.copyVerify; dsimp only; (repeat' split) <;> simp [foldl_windows]

/-! ### Records -/

@[simp] theorem State.metaSectorFails_windows (s : State) (a1) (a2) (a3) : (State.metaSectorFails s a1 a2 a3).windows = s.windows := by
  unfold State.metaSectorFails
  extract_lets lo bad seqHit recHit dirHit tableHit shadowHit seqs recs dir tables s1 hit s2 s3 s4 s5 s6 s7
  have h1 : s1.windows = s.windows := rfl
  clear_value s1 hit
  have h2 : s2.windows = s.windows := by simp [s2, h1]
  clear_value s2
  have h3 : s3.windows = s.windows := foldl_windows_of h2 (fun _ _ => by simp)
  clear_value s3
  have h4 : s4.windows = s.windows := foldl_windows_of h3 (fun _ _ => foldl_windows_of rfl fun _ _ => by split <;> simp)
  clear_value s4
  have h5 : s5.windows = s.windows := foldl_windows_of (by simp [h4]) (fun _ _ => by simp)
  clear_value s5
  have h6 : s6.windows = s.windows := foldl_windows_of h5 (fun _ _ => by simp)
  clear_value s6
  have h7 : s7.windows = s.windows := by simp [s7, h6]
  clear_value s7
  split <;> simp [h7]

/-! ### Memory -/

@[simp] theorem State.modStack_windows (s : State) (a1) (a2) : (State.modStack s a1 a2).windows = s.windows := rfl
@[simp] theorem State.modGroup_windows (s : State) (a1) (a2) : (State.modGroup s a1 a2).windows = s.windows := rfl
@[simp] theorem State.memNote_windows (s : State) (a1) (a2) (a3) : (State.memNote s a1 a2 a3).windows = s.windows := by simp [State.memNote, foldl_windows]
@[simp] theorem State.losePages_windows (s : State) (a1) : (State.losePages s a1).windows = s.windows := by simp [State.losePages, foldl_windows]
@[simp] theorem State.loseChunks_windows (s : State) (a1) : (State.loseChunks s a1).windows = s.windows := by unfold State.loseChunks; (repeat' (first | rfl | assumption | split | refine foldl_windows_of ?_ (fun _ _ => ?_) | refine elim_windows_of ?_ (fun _ => ?_))) <;> simp [foldl_windows]
@[simp] theorem State.dropCached_windows (s : State) : (State.dropCached s).windows = s.windows := rfl
@[simp] theorem State.mapMirrors_windows (s : State) (a1) : (State.mapMirrors s a1).windows = s.windows := rfl
@[simp] theorem State.unwriteRows_windows (s : State) (a1) : (State.unwriteRows s a1).windows = s.windows := rfl
@[simp] theorem State.copyGone_windows (s : State) (a1) : (State.copyGone s a1).windows = s.windows := rfl
@[simp] theorem State.faultUnmirrored_windows (s : State) : (State.faultUnmirrored s).windows = s.windows := by simp [State.faultUnmirrored, foldl_windows]
@[simp] theorem State.copyWritten_windows (s : State) : (State.copyWritten s).windows = s.windows := rfl
@[simp] theorem State.rehomeSeqs_windows (s : State) (a1) : (State.rehomeSeqs s a1).windows = s.windows := by
  unfold State.rehomeSeqs
  exact foldl_windows_of rfl fun _ _ => by simp
@[simp] theorem State.moveChunkOut_windows (s : State) (a1) (a2) : (State.moveChunkOut s a1 a2).windows = s.windows := by unfold State.moveChunkOut; (repeat' split) <;> simp [foldl_windows]
@[simp] theorem State.evacuateGroup_windows (s : State) (a1) : (State.evacuateGroup s a1).windows = s.windows := by simp [State.evacuateGroup, foldl_windows]
@[simp] theorem State.emptyGroup_windows (s : State) (a1) (a2) : (State.emptyGroup s a1 a2).windows = s.windows := by simp [State.emptyGroup, foldl_windows]
@[simp] theorem State.groupLoses_windows (s : State) (a1) : (State.groupLoses s a1).windows = s.windows := by unfold State.groupLoses; dsimp only; (repeat' split) <;> simp [foldl_windows]
@[simp] theorem State.loseStack_windows (s : State) (a1) : (State.loseStack s a1).windows = s.windows := by unfold State.loseStack; dsimp only; (repeat' split) <;> simp [foldl_windows]
@[simp] theorem State.setRowCount_windows (s : State) (a1) (a2) (a3) : (State.setRowCount s a1 a2 a3).windows = s.windows := rfl
@[simp] theorem State.retireRow_windows (s : State) (a1) (a2) : (State.retireRow s a1 a2).windows = s.windows := by unfold State.retireRow; dsimp only; (repeat' (first | rfl | assumption | split | refine foldl_windows_of ?_ (fun _ _ => ?_))) <;> simp [foldl_windows]
@[simp] theorem State.repairRow_windows (s : State) (a1) (a2) : (State.repairRow s a1 a2).windows = s.windows := by unfold State.repairRow; dsimp only; (repeat' split) <;> simp [foldl_windows]
@[simp] theorem State.noteLost_windows (s : State) (a1) (a2) (a3) : (State.noteLost s a1 a2 a3).windows = s.windows := by simp [State.noteLost, foldl_windows]
@[simp] theorem State.keptLost_windows (s : State) (a1) (a2) : (State.keptLost s a1 a2).windows = s.windows := by unfold State.keptLost; dsimp only; (repeat' split) <;> simp [foldl_windows]
@[simp] theorem State.sectorLost_windows (s : State) (a1) (a2) (a3) : (State.sectorLost s a1 a2 a3).windows = s.windows := by unfold State.sectorLost; dsimp only; (repeat' split) <;> simp [foldl_windows]
@[simp] theorem State.tagFails_windows (s : State) (a1) (a2) (a3) (a4) : (State.tagFails s a1 a2 a3 a4).windows = s.windows := by unfold State.tagFails; dsimp only; (repeat' split) <;> simp [foldl_windows]
@[simp] theorem State.shelfFails_windows (s : State) (a1) : (State.shelfFails s a1).windows = s.windows := by simp [State.shelfFails, foldl_windows]
@[simp] theorem State.readRefused_windows (s : State) (a1) (a2) : (State.readRefused s a1 a2).windows = s.windows := by unfold State.readRefused; (repeat' split) <;> simp [foldl_windows]
@[simp] theorem State.lineRead_windows (s : State) (a1) (a2) (a3) (a4) : (State.lineRead s a1 a2 a3 a4).windows = s.windows := by unfold State.lineRead; dsimp only; (repeat' split) <;> simp [foldl_windows]
@[simp] theorem State.readFault_windows (s : State) (a1) : (State.readFault s a1).windows = s.windows := by unfold State.readFault; (repeat' split) <;> simp [foldl_windows]
@[simp] theorem State.readFaults_windows (s : State) (a1) : (State.readFaults s a1).windows = s.windows := by
  unfold State.readFaults State.live; split <;> simp [foldl_windows]
@[simp] theorem State.evacuationEnd_windows (s : State) (a1) : (State.evacuationEnd s a1).windows = s.windows := by unfold State.evacuationEnd; dsimp only; (repeat' split) <;> simp [foldl_windows]
@[simp] theorem State.rebuildEnd_windows (s : State) (a1) : (State.rebuildEnd s a1).windows = s.windows := by unfold State.rebuildEnd; (repeat' split) <;> simp [foldl_windows]

/-! ### Direct -/

@[simp] theorem State.cxlFails_windows (s : State) (a1) (a2) : (State.cxlFails s a1 a2).windows = s.windows := by simp [State.cxlFails, foldl_windows]
@[simp] theorem State.cxlRead_windows (s : State) (a1) (a2) (a3) : (State.cxlRead s a1 a2 a3).windows = s.windows := by unfold State.cxlRead; (repeat' split) <;> simp [foldl_windows]
@[simp] theorem State.cxlWrite_windows (s : State) (a1) (a2) : (State.cxlWrite s a1 a2).windows = s.windows := by unfold State.cxlWrite; (repeat' split) <;> simp [foldl_windows]

/-! ### Identity -/

@[simp] theorem State.openRefusal_windows (s : State) (a1) : (State.openRefusal s a1).windows = s.windows := by simp [State.openRefusal, foldl_windows]
@[simp] theorem State.drbgFails_windows (s : State) : (State.drbgFails s).windows = s.windows := by simp [State.drbgFails, foldl_windows]
@[simp] theorem State.drbgPasses_windows (s : State) : (State.drbgPasses s).windows = s.windows := rfl
@[simp] theorem State.brineDevice_windows (s : State) : (State.brineDevice s).windows = s.windows := by simp [State.brineDevice, foldl_windows]
@[simp] theorem State.commandBrine_windows (s : State) (a1) : (State.commandBrine s a1).windows = s.windows := by simp [State.commandBrine, foldl_windows]
@[simp] theorem State.sendEpoch_windows (s : State) (a1) (a2) : (State.sendEpoch s a1 a2).windows = s.windows := by
  unfold State.sendEpoch
  refine foldl_windows_of rfl fun s p => ?_
  (repeat' split) <;> simp
@[simp] theorem State.scrubTenant_windows (s : State) (a1) : (State.scrubTenant s a1).windows = s.windows := rfl
@[simp] theorem State.removalDrained_windows (s : State) (a1) : (State.removalDrained s a1).windows = s.windows := by unfold State.removalDrained; (repeat' split) <;> simp [foldl_windows]
@[simp] theorem State.openJtag_windows (s : State) : (State.openJtag s).windows = s.windows := by simp [State.openJtag, foldl_windows]
@[simp] theorem State.settleUnlock_windows (s : State) : (State.settleUnlock s).windows = s.windows := by unfold State.settleUnlock; (repeat' split) <;> simp [foldl_windows]
@[simp] theorem State.issueNonce_windows (s : State) (a1) : (State.issueNonce s a1).windows = s.windows := by unfold State.issueNonce; dsimp only; (repeat' split) <;> simp [foldl_windows]
@[simp] theorem State.lapseNonce_windows (s : State) : (State.lapseNonce s).windows = s.windows := by unfold State.lapseNonce; dsimp only; (repeat' split) <;> simp [foldl_windows]
@[simp] theorem State.tenantGone_windows (s : State) (a1) : (State.tenantGone s a1).windows = s.windows := by unfold State.tenantGone; dsimp only; (repeat' split) <;> simp [foldl_windows]
@[simp] theorem State.dropPins_windows (s : State) (a1) : (State.dropPins s a1).windows = s.windows := rfl
@[simp] theorem State.reclaimEnds_windows (s : State) (a1) : (State.reclaimEnds s a1).windows = s.windows := by unfold State.reclaimEnds; dsimp only; (repeat' split) <;> simp [foldl_windows]
@[simp] theorem State.spdm_windows (s : State) (a1) (a2) (a3) : (State.spdm s a1 a2 a3).windows = s.windows := rfl
@[simp] theorem State.spdmError_windows (s : State) (a1) (a2) : (State.spdmError s a1 a2).windows = s.windows := rfl
@[simp] theorem State.respond_windows (s : State) (a1) (k : State → Session → State) (h : ∀ s c, (k s c).windows = s.windows) :
    (State.respond s a1 k).windows = s.windows := by
  unfold State.respond
  split
  · rfl
  · extract_lets s1
    have h1 : s1.windows = s.windows := by unfold s1; split <;> simp
    (repeat' split) <;> simp [h, h1]
@[simp] theorem State.inSession_windows (s : State) (a1) (k : State → Session → State) (h : ∀ s c, (k s c).windows = s.windows) :
    (State.inSession s a1 k).windows = s.windows := by
  unfold State.inSession
  refine State.respond_windows _ _ _ fun s x => ?_
  split <;> simp [h]
@[simp] theorem State.spdmGetVersion_windows (s : State) (a1) (a2) : (State.spdmGetVersion s a1 a2).windows = s.windows := by unfold State.spdmGetVersion; dsimp only; (repeat' split) <;> simp [foldl_windows]
@[simp] theorem State.spdmCaps_windows (s : State) (a1) : (State.spdmCaps s a1).windows = s.windows := by unfold State.spdmCaps; grind [State.windows, State.respond_windows, State.spdm_windows]
@[simp] theorem State.spdmAlgos_windows (s : State) (a1) (a2) : (State.spdmAlgos s a1 a2).windows = s.windows := by unfold State.spdmAlgos; grind [State.windows, State.respond_windows, State.spdm_windows, State.spdmError_windows]
@[simp] theorem State.spdmLarge_windows (s : State) (a1) (a2) (a3) (a4) : (State.spdmLarge s a1 a2 a3 a4).windows = s.windows := rfl
@[simp] theorem State.spdmDigests_windows (s : State) (a1) : (State.spdmDigests s a1).windows = s.windows := by
  unfold State.spdmDigests
  refine State.respond_windows _ _ _ fun s x => ?_
  (try dsimp only)
  (repeat' split) <;> simp
@[simp] theorem State.spdmCert_windows (s : State) (a1) (a2) : (State.spdmCert s a1 a2).windows = s.windows := by
  unfold State.spdmCert
  refine State.respond_windows _ _ _ fun s x => ?_
  (try dsimp only)
  (repeat' split) <;> simp
@[simp] theorem State.spdmChallenge_windows (s : State) (a1) (a2) (a3) : (State.spdmChallenge s a1 a2 a3).windows = s.windows := by unfold State.spdmChallenge; grind [State.windows, State.respond_windows, State.spdmError_windows, State.spdm_windows]
@[simp] theorem State.spdmMeasure_windows (s : State) (a1) (a2) (a3) : (State.spdmMeasure s a1 a2 a3).windows = s.windows := by
  unfold State.spdmMeasure
  refine State.respond_windows _ _ _ fun s x => ?_
  (try dsimp only)
  (repeat' split) <;> simp
@[simp] theorem State.spdmExchange_windows (s : State) (a1) (a2) : (State.spdmExchange s a1 a2).windows = s.windows := by
  unfold State.spdmExchange
  refine State.respond_windows _ _ _ fun s _ => ?_
  dsimp only
  (repeat' split) <;> simp
@[simp] theorem State.spdmFinish_windows (s : State) (a1) (a2) (a3) : (State.spdmFinish s a1 a2 a3).windows = s.windows := by unfold State.spdmFinish; dsimp only; grind [State.windows, State.respond_windows, State.spdmError_windows, State.endSession_windows, State.modSession_windows, State.setKey_windows, State.spdm_windows]
@[simp] theorem State.spdmHeartbeat_windows (s : State) (a1) : (State.spdmHeartbeat s a1).windows = s.windows := by unfold State.spdmHeartbeat; grind [State.windows, State.inSession_windows, State.spdm_windows]
@[simp] theorem State.spdmUpdate_windows (s : State) (a1) : (State.spdmUpdate s a1).windows = s.windows := by
  unfold State.spdmUpdate
  refine State.inSession_windows _ _ _ fun s _ => ?_
  dsimp only
  (repeat' split) <;> simp
@[simp] theorem State.spdmEnd_windows (s : State) (a1) : (State.spdmEnd s a1).windows = s.windows := by simp [State.spdmEnd, foldl_windows]
@[simp] theorem State.spdmChunkOut_windows (s : State) (a1) (a2) : (State.spdmChunkOut s a1 a2).windows = s.windows := by unfold State.spdmChunkOut; dsimp only; grind [State.windows, State.respond_windows, State.spdmError_windows, State.spdm_windows]
@[simp] theorem State.spdmOther_windows (s : State) (a1) (a2) : (State.spdmOther s a1 a2).windows = s.windows := by unfold State.spdmOther; (repeat' split) <;> simp [foldl_windows]
@[simp] theorem State.deliverKey_windows (s : State) (a1) (a2) (a3) (a4) : (State.deliverKey s a1 a2 a3 a4).windows = s.windows := by unfold State.deliverKey; dsimp only; (repeat' split) <;> simp [foldl_windows]
@[simp] theorem State.withdrawKey_windows (s : State) (a1) (a2) : (State.withdrawKey s a1 a2).windows = s.windows := by unfold State.withdrawKey; dsimp only; (repeat' split) <;> simp [foldl_windows]
@[simp] theorem State.spdmRun_windows (s : State) (a1) (a2) : (State.spdmRun s a1 a2).windows = s.windows := by unfold State.spdmRun; (repeat' split) <;> simp [foldl_windows]
@[simp] theorem State.spdmChunkIn_windows (s : State) (a1) (a2) (a3) : (State.spdmChunkIn s a1 a2 a3).windows = s.windows := by unfold State.spdmChunkIn; dsimp only; grind [State.windows, State.respond_windows, State.spdm_windows, State.modSession_windows, State.spdmRun_windows]

/-! ### Boot -/

@[simp] theorem State.writeEntry_windows (s : State) (a1) : (State.writeEntry s a1).windows = s.windows := rfl
@[simp] theorem State.setFlash_windows (s : State) (a1) (a2) : (State.setFlash s a1 a2).windows = s.windows := by unfold State.setFlash; (repeat' split) <;> simp [foldl_windows]
@[simp] theorem State.beginBoot_windows (s : State) : (State.beginBoot s).windows = s.windows := rfl
@[simp] theorem State.release_windows (s : State) (a1) (a2) : (State.release s a1 a2).windows = s.windows := by unfold State.release; dsimp only; (repeat' split) <;> simp [foldl_windows]
@[simp] theorem State.resetRelease_windows (s : State) (a1) (a2) : (State.resetRelease s a1 a2).windows = s.windows := by unfold State.resetRelease; (repeat' split) <;> simp [foldl_windows]
@[simp] theorem State.bootRecord_windows (s : State) (a1) (a2) (a3) : (State.bootRecord s a1 a2 a3).windows = s.windows := rfl
@[simp] theorem State.bootKeys_windows (s : State) (a1) : (State.bootKeys s a1).windows = s.windows := by unfold State.bootKeys; dsimp only; (repeat' (first | rfl | assumption | split | refine foldl_windows_of ?_ (fun _ _ => ?_))) <;> simp [foldl_windows]
@[simp] theorem State.ownerChain_windows (s : State) (a1) : (State.ownerChain s a1).windows = s.windows := by unfold State.ownerChain; dsimp only; (repeat' split) <;> simp [foldl_windows]
@[simp] theorem State.bootSpares_windows (s : State) : (State.bootSpares s).windows = s.windows := by simp [State.bootSpares, foldl_windows]
@[simp] theorem State.imagePasses_windows (s : State) (a1) : (State.imagePasses s a1).windows = s.windows := by simp [State.imagePasses, foldl_windows]
@[simp] theorem State.imageRefused_windows (s : State) : (State.imageRefused s).windows = s.windows := by unfold State.imageRefused; dsimp only; (repeat' split) <;> simp [foldl_windows]
@[simp] theorem State.repairIdentity_windows (s : State) : (State.repairIdentity s).windows = s.windows := by unfold State.repairIdentity; (repeat' split) <;> simp [foldl_windows]
@[simp] theorem State.flashGone_windows (s : State) (a1) : (State.flashGone s a1).windows = s.windows := by simp [State.flashGone, foldl_windows]
@[simp] theorem State.imageEnd_windows (s : State) (a1) (a2) : (State.imageEnd s a1 a2).windows = s.windows := by unfold State.imageEnd; dsimp only; (repeat' split) <;> simp [foldl_windows]
@[simp] theorem State.setCore_windows (s : State) : (State.setCore s).windows = s.windows := rfl
@[simp] theorem State.hbmTrained_windows (s : State) (a1) (a2) : (State.hbmTrained s a1 a2).windows = s.windows := by unfold State.hbmTrained; dsimp only; (repeat' split) <;> simp [foldl_windows]
@[simp] theorem State.proven_windows (s : State) : (State.proven s).windows = s.windows := by unfold State.proven; dsimp only; (repeat' split) <;> simp [foldl_windows]
@[simp] theorem State.ucieUp_windows (s : State) (a1) (a2) (a3) : (State.ucieUp s a1 a2 a3).windows = s.windows := by unfold State.ucieUp; dsimp only; (repeat' (first | rfl | assumption | split | refine foldl_windows_of ?_ (fun _ _ => ?_))) <;> simp [foldl_windows]
@[simp] theorem State.resetEngines_windows (s : State) (a1) : (State.resetEngines s a1).windows = s.windows := by simp [State.resetEngines, foldl_windows]
@[simp] theorem State.cutPort_windows (s : State) (a1) : (State.cutPort s a1).windows = s.windows := by unfold State.cutPort; (repeat' split) <;> simp [foldl_windows]

/-! ### Mgmt -/

@[simp] theorem State.connect_windows (s : State) (a1) (a2) (a3) (a4) : (State.connect s a1 a2 a3 a4).windows = s.windows := by unfold State.connect; dsimp only; (repeat' split) <;> simp [foldl_windows]
@[simp] theorem State.idleClose_windows (s : State) (a1) : (State.idleClose s a1).windows = s.windows := by unfold State.idleClose; (repeat' split) <;> simp [foldl_windows]
@[simp] theorem State.clientClose_windows (s : State) (a1) : (State.clientClose s a1).windows = s.windows := by unfold State.clientClose; (repeat' split) <;> simp [foldl_windows]
@[simp] theorem State.unknownCommand_windows (s : State) (a1) (a2) (a3) : (State.unknownCommand s a1 a2 a3).windows = s.windows := by unfold State.unknownCommand; (repeat' split) <;> simp [foldl_windows]
@[simp] theorem State.serveRead_windows (s : State) (a1) (a2) (a3) (k : State → Bool → State) (h : ∀ s c, (k s c).windows = s.windows) :
    (State.serveRead s a1 a2 a3 k).windows = s.windows := by
  unfold State.serveRead
  split
  · split <;> simp [h]
  · split
    · split
      · split <;> simp [h]
      · rfl
    · exact State.serve_windows _ _ _ _ _ fun s c => h _ _
@[simp] theorem State.statusRead_windows (s : State) (a1) : (State.statusRead s a1).windows = s.windows := by unfold State.statusRead; (repeat' split) <;> simp [foldl_windows]
@[simp] theorem State.eventsFrom_windows (s : State) (a1) (a2) (a3) : (State.eventsFrom s a1 a2 a3).windows = s.windows := by unfold State.eventsFrom; dsimp only; (repeat' split) <;> simp [foldl_windows]
@[simp] theorem State.eventRead_windows (s : State) (a1) (a2) (a3) : (State.eventRead s a1 a2 a3).windows = s.windows := by simp [State.eventRead, foldl_windows]
@[simp] theorem State.traceRead_windows (s : State) (a1) (a2) : (State.traceRead s a1 a2).windows = s.windows := by unfold State.traceRead; grind [State.windows, State.serve_windows, State.reply_windows, State.emit_windows]
@[simp] theorem State.telemetryRead_windows (s : State) (a1) (a2) (a3) : (State.telemetryRead s a1 a2 a3).windows = s.windows := by unfold State.telemetryRead; grind [State.windows, State.reply_windows, State.serve_windows]
@[simp] theorem State.eraseSlot_windows (s : State) : (State.eraseSlot s).windows = s.windows := by simp [State.eraseSlot, foldl_windows]
@[simp] theorem State.beginStaging_windows (s : State) (a1) (a2) : (State.beginStaging s a1 a2).windows = s.windows := by unfold State.beginStaging; dsimp only; (repeat' split) <;> simp [foldl_windows]
@[simp] theorem State.abandon_windows (s : State) : (State.abandon s).windows = s.windows := by simp [State.abandon, foldl_windows]
@[simp] theorem State.activate_windows (s : State) (a1) : (State.activate s a1).windows = s.windows := by unfold State.activate; dsimp only; (repeat' split) <;> simp [foldl_windows]
@[simp] theorem State.cancel_windows (s : State) (a1) : (State.cancel s a1).windows = s.windows := by unfold State.cancel; dsimp only; (repeat' split) <;> simp [foldl_windows]
@[simp] theorem State.holdLink_windows (s : State) (a1) (a2) : (State.holdLink s a1 a2).windows = s.windows := by unfold State.holdLink; (repeat' split) <;> simp [foldl_windows]
@[simp] theorem State.releaseLink_windows (s : State) (a1) (a2) : (State.releaseLink s a1 a2).windows = s.windows := by unfold State.releaseLink; (repeat' split) <;> simp [foldl_windows]
@[simp] theorem State.writeChunks_windows (s : State) (a1) (a2) : (State.writeChunks s a1 a2).windows = s.windows := by unfold State.writeChunks; dsimp only; (repeat' (first | rfl | assumption | split | refine foldl_windows_of ?_ (fun _ _ => ?_) | refine elim_windows_of ?_ (fun _ => ?_))) <;> simp [foldl_windows]
@[simp] theorem State.loadWeights_windows (s : State) (a1) (a2) (a3) : (State.loadWeights s a1 a2 a3).windows = s.windows := by unfold State.loadWeights; dsimp only; (repeat' split) <;> simp [foldl_windows]
@[simp] theorem State.releaseVolume_windows (s : State) (a1) (a2) : (State.releaseVolume s a1 a2).windows = s.windows := by unfold State.releaseVolume; (repeat' split) <;> simp [foldl_windows]
@[simp] theorem State.takeAddress_windows (s : State) (a1) : (State.takeAddress s a1).windows = s.windows := by unfold State.takeAddress; dsimp only; (repeat' split) <;> simp [foldl_windows]
@[simp] theorem State.setAddress_windows (s : State) (a1) (a2) : (State.setAddress s a1 a2).windows = s.windows := by unfold State.setAddress; (repeat' split) <;> simp [foldl_windows]

/-! ### Power -/

@[simp] theorem State.stop_windows (s : State) (a1) : (State.stop s a1).windows = s.windows := rfl
@[simp] theorem State.railFault_windows (s : State) (a1) : (State.railFault s a1).windows = s.windows := by unfold State.railFault; dsimp only; (repeat' split) <;> simp [foldl_windows]
@[simp] theorem State.avsRetry_windows (s : State) (a1) : (State.avsRetry s a1).windows = s.windows := by unfold State.avsRetry; dsimp only; (repeat' split) <;> simp [foldl_windows]
@[simp] theorem State.setAlarm_windows (s : State) : (State.setAlarm s).windows = s.windows := rfl
@[simp] theorem State.clockEvent_windows (s : State) : (State.clockEvent s).windows = s.windows := by simp [State.clockEvent, foldl_windows]
@[simp] theorem State.windowRuns_windows (s : State) (a1) (a2) : (State.windowRuns s a1 a2).windows = s.windows := by unfold State.windowRuns; dsimp only; (repeat' split) <;> simp [foldl_windows]
@[simp] theorem State.windowHeld_windows (s : State) (a1) (a2) : (State.windowHeld s a1 a2).windows = s.windows := by unfold State.windowHeld; dsimp only; (repeat' split) <;> simp [foldl_windows]
@[simp] theorem State.clockWindow_windows (s : State) (a1) (a2) : (State.clockWindow s a1 a2).windows = s.windows := by unfold State.clockWindow; dsimp only; (repeat' split) <;> simp [foldl_windows]
@[simp] theorem State.switchover_windows (s : State) : (State.switchover s).windows = s.windows := by unfold State.switchover; dsimp only; (repeat' split) <;> simp [foldl_windows]
@[simp] theorem State.holdoverEnds_windows (s : State) : (State.holdoverEnds s).windows = s.windows := by unfold State.holdoverEnds; dsimp only; (repeat' split) <;> simp [foldl_windows]
@[simp] theorem State.linkClockGone_windows (s : State) (a1) : (State.linkClockGone s a1).windows = s.windows := by simp [State.linkClockGone, foldl_windows]
@[simp] theorem State.reprice_windows (s : State) (a1) (a2) : (State.reprice s a1 a2).windows = s.windows := rfl
@[simp] theorem State.toStage_windows (s : State) (a1) : (State.toStage s a1).windows = s.windows := by unfold State.toStage; dsimp only; (repeat' split) <;> simp [foldl_windows]
@[simp] theorem State.stageStep_windows (s : State) : (State.stageStep s).windows = s.windows := by unfold State.stageStep; dsimp only; (repeat' split) <;> simp [foldl_windows]
@[simp] theorem State.readPower_windows (s : State) : (State.readPower s).windows = s.windows := by unfold State.readPower; dsimp only; (repeat' split) <;> simp [foldl_windows]
@[simp] theorem State.sensorEvents_windows (s : State) (a1) : (State.sensorEvents s a1).windows = s.windows := by simp [State.sensorEvents, foldl_windows]
@[simp] theorem State.thermalSample_windows (s : State) (a1) (a2) : (State.thermalSample s a1 a2).windows = s.windows := by unfold State.thermalSample; dsimp only; (repeat' split) <;> simp [foldl_windows]
@[simp] theorem State.endServed_windows (s : State) (a1) : (State.endServed s a1).windows = s.windows := by unfold State.endServed; (repeat' (first | rfl | assumption | split | refine foldl_windows_of ?_ (fun _ _ => ?_) | refine elim_windows_of ?_ (fun _ => ?_))) <;> simp [foldl_windows]
@[simp] theorem State.islandOut_windows (s : State) (a1) : (State.islandOut s a1).windows = s.windows := by unfold State.islandOut; (repeat' split) <;> simp [foldl_windows]

/-! ### Sched -/

@[simp] theorem State.serveQueue_windows (s : State) (a1) (a2) : (State.serveQueue s a1 a2).windows = s.windows := rfl
@[simp] theorem State.select_windows (s : State) (a1) : (State.select s a1).windows = s.windows := by unfold State.select; dsimp only; (repeat' split) <;> simp [foldl_windows]
@[simp] theorem State.wheelTick_windows (s : State) (a1) : (State.wheelTick s a1).windows = s.windows := by unfold State.wheelTick; dsimp only; (repeat' split) <;> simp [foldl_windows]
@[simp] theorem State.gateBoundary_windows (s : State) (a1) : (State.gateBoundary s a1).windows = s.windows := by unfold State.gateBoundary; (repeat' split) <;> simp [foldl_windows]
@[simp] theorem State.sampleQueues_windows (s : State) : (State.sampleQueues s).windows = s.windows := by unfold State.sampleQueues; (repeat' split) <;> simp [foldl_windows]
@[simp] theorem State.snapshot_windows (s : State) : (State.snapshot s).windows = s.windows := rfl
@[simp] theorem State.updateTime_windows (s : State) : (State.updateTime s).windows = s.windows := by unfold State.updateTime; dsimp only; (repeat' split) <;> simp [foldl_windows]
@[simp] theorem State.endTick_windows (s : State) : (State.endTick s).windows = s.windows := by simp [State.endTick, foldl_windows]
@[simp] theorem State.tick_windows (s : State) : (State.tick s).windows = s.windows := by unfold State.tick; dsimp only; (repeat' split) <;> simp [foldl_windows]

end Sys2Proof.Machine
end

