-- ==== Sys2Proof/Laws/Window.lean ====
section
/-! SUPPORT. Request commands: from the aperture to the point where an accepted request begins. -/

namespace Sys2Proof.Machine

/-- A command in service whose function the aperture reaches runs on that function. -/
theorem State.aperture_reached {s : State} {group n : Nat} {f : Fn} (k : Fn → State → State) (hs : s.inService = true)
    (ht : s.isTray = false)
    (hf : s.fn? n = some f) (hu : s.faults.groupsUp.contains group = true) (hg : f.group = group) (hc : f.code ≠ .absent) :
    s.aperture group n k = k f s := by
  have hu' : group ∈ s.faults.groupsUp := List.contains_iff_mem.mp hu
  unfold State.aperture State.live
  simp [hs, ht, hf, hu', hg, hc]

theorem mapIf_find {p q : Fn → Bool} {g : Fn → Fn} {l : List Fn} {f : Fn} (hg : ∀ x, p (g x) = p x) (hpq : ∀ x, p x = true → q x = true)
    (h : l.find? p = some f) : (mapIf q g l).find? p = some (g f) := by
  induction l with
  | nil => cases h
  | cons x l ih =>
    rw [List.find?_cons] at h
    cases hp : p x with
    | true =>
      rw [hp] at h
      rw [← Option.some.inj h]
      show List.find? p ((if q x then g x else x) :: mapIf q g l) = _
      rw [if_pos (hpq x hp), List.find?_cons, hg, hp]
    | false =>
      rw [hp] at h
      show List.find? p ((if q x then g x else x) :: mapIf q g l) = _
      have : p (if q x then g x else x) = false := by split <;> simp [hg, hp]
      rw [List.find?_cons, this]
      exact ih h

/-- The function a window update leaves. -/
theorem State.fn?_modFn {s : State} {n : Nat} {f : Fn} (g : Fn → Fn) (hg : ∀ x, (g x).fn = x.fn) (h : s.fn? n = some f) :
    (s.modFn n g).fn? n = some (g f) := by
  unfold State.fn? State.modFn
  exact mapIf_find (fun x => by rw [hg]) (fun x hx => hx) h

theorem State.fn?_fn {s : State} {n : Nat} {f : Fn} (h : s.fn? n = some f) : f.fn = n := by
  have := List.find?_some h
  simpa using this

/-- A single slot that lands is found submitted. -/
theorem Fn.submitted_single {f : Fn} {x : Stamped} (hk : x.k = f.k) (hc : x.cont = false) :
    ({ f with stamped := [x] } : Fn).submittedAt f.k = some { st := x, long := false, bad := false } := by
  simp [Fn.submittedAt, Fn.stampAt, hk, hc]

/-- A long descriptor that lands is found submitted. -/
theorem Fn.submitted_long {f : Fn} {x y : Stamped} (hk : x.k = f.k) (hy : y.k = f.k + 1) (hc : x.cont = true) (hyc : y.cont = false)
    (ht : y.tick = x.tick) (hv : f.version ≠ 1) :
    ({ f with stamped := [x, y] } : Fn).submittedAt f.k = some { st := x, long := true, bad := false } := by
  have : ({ x with tick := x.tick } : Stamped) = x := rfl
  simp [Fn.submittedAt, Fn.stampAt, hk, hy, hc, hyc, ht, hv]
  rw [← hk, ← hc]

/-- A stamp beside one that stands in another slot finds the slot it would find alone. -/
theorem Fn.stampSlot_beside {f : Fn} {x : Stamped} {seq phase k : Nat} (hs : f.stamped = []) (hx : x.k ≠ k)
    (h : f.stampSlot seq phase = some k) : ({ f with stamped := f.stamped ++ [x] } : Fn).stampSlot seq phase = some k := by
  unfold Fn.stampSlot Fn.stampAt at h ⊢
  dsimp only at h ⊢
  rw [hs] at h ⊢
  split at h
  · next hc =>
    cases h
    rw [if_pos]
    refine ⟨hc.1, hc.2.1, hc.2.2.1, hc.2.2.2.1, ?_⟩
    simp [hx]
  · cases h

/-- A stamp that finds its slot is recorded there. -/
theorem State.recordStamp_slot {s : State} {n seq phase k : Nat} {f : Fn} (st : Nat → Stamped) (hf : s.fn? n = some f)
    (h : f.stampSlot seq phase = some k) :
    s.recordStamp n seq phase st = s.modFn n fun f => { f with stamped := f.stamped ++ [st k] } := by
  unfold State.recordStamp
  rw [hf]
  dsimp only [Option.bind_some]
  rw [h]

theorem State.slotTaken_tenantActive (s : State) (sub : Sub) (d : Desc) (f : Fn) :
    (s.slotTaken sub d f).tenantActive f.tenant = s.tenantActive f.tenant := by
  unfold State.slotTaken
  extract_lets long first second s1 s2
  have h : s2.tenants = s.tenants := by unfold s2; split <;> rfl
  show (match s2.tenant? f.tenant with | some x => x.life == TenantLife.active | none => false) = _
  unfold State.tenantActive State.tenant?
  rw [h] <;> rfl

/-- What enters does not depend on the function's stamps. -/
theorem State.enter_stamped (s : State) (f : Fn) (l : List Stamped) (r : Req) : s.enter { f with stamped := l } r = s.enter f r := by
  unfold State.enter
  split <;> rfl

/-- A descriptor that the window has taken is admitted (R188, R209, R223). -/
theorem State.admitReq_admits {s : State} {f : Fn} {r : Req} {long : Bool} {l : List Stamped} (hc : f.code = .ready)
    (ht : s.tenantActive f.tenant = true) (ho : opcodeOffered f.version r.opcode = true) (hs : shapeBad f.version long r.desc = false)
    (hh : headerOk r.cls r.deadline r.desc = true)
    (hk : (s.loadNamed r).checkAdmit r = none) :
    s.admitReq { f with stamped := l } r long false =
      (let u := s.loadNamed r
       if r.cls ≠ 0 then u.enter f r
       else
         let r := if r.deadline = 0 then { r with deadline := u.implicitDeadline r } else r
         match u.decideZero r with
         | .capacity => u.finish r stRefusedCapacity 0
         | .deadline e => u.finish r stRefusedDeadline (resEarliest e)
         | .accept rs => (u.reserve r rs).enter f r) := by
  have hn : (match r.desc with | .unknown _ => true | _ => false) = false := by
    split
    · rename_i o hd
      simp [State.checkAdmit, hd, State.checkReq] at hk
    · rfl
  unfold State.admitReq
  extract_lets isDetach unknown u0 given r1 r2
  have hun : unknown = false := by simp only [unknown]; rw [ho]; exact hn
  rw [if_neg (by simp [hc]), if_neg (by simp [hc, ht]), if_neg (by simp [hun]), if_neg (by simp [hs, hh])]
  rw [hk]
  simp only [State.enter_stamped]
  rfl

/-- A request command that admission accepts enters the outstanding table (R184, R188, R223). -/
theorem State.submit_admits {s u : State} {sub : Sub} {d : Desc} {f : Fn} {r : Req} (h : s.admits sub d = some (u, f, r)) :
    s.submit sub d = u.enter f r := by
  unfold State.admits at h
  split at h
  · cases h
  rename_i f' hf
  extract_lets long r0 u0 at h
  split at h
  · cases h
  rename_i hl
  simp only [Bool.or_eq_true, not_or, Bool.not_eq_true, Bool.not_eq_false', State.lands, Bool.and_eq_true, beq_iff_eq] at hl
  obtain ⟨⟨⟨⟨⟨⟨⟨⟨⟨⟨⟨⟨⟨hsv, htr⟩, hup⟩, hg⟩, hc⟩, hst⟩, hea⟩, hsl⟩, hse⟩, hta⟩, hof⟩, hsh⟩, hhd⟩, hck⟩ := hl
  have hck : u0.checkAdmit r0 = none := by simpa using hck
  have hfn := State.fn?_fn hf
  unfold State.submit
  rw [State.aperture_reached _ hsv (by simpa using htr) hf hup hg (by rw [hc]; decide)]
  rw [if_neg (by simp [Fn.attachMode, hc])]
  extract_lets n s1 s2
  have e1 : s1 = s.modFn f'.fn fun x =>
      { x with stamped := x.stamped ++ [{ k := f'.k, cont := long, sub := sub, desc := some d, tick := s.now }] } :=
    State.recordStamp_slot _ (hfn ▸ hf) hsl
  have hf1 := State.fn?_modFn (fun x => { x with stamped := x.stamped ++
      [({ k := f'.k, cont := long, sub := sub, desc := some d, tick := s.now } : Stamped)] }) (fun _ => rfl) (hfn ▸ hf : s.fn? f'.fn = some f')
  have e2 : s2 = if long then s1.modFn f'.fn fun x =>
      { x with stamped := x.stamped ++ [{ k := f'.k + 1, cont := false, sub := sub, desc := none, tick := s1.now }] } else s1 := by
    unfold s2
    cases hl : long with
    | false => rfl
    | true =>
      rw [if_pos rfl, if_pos rfl]
      have hb : (f'.k : Nat) ≠ f'.k + 1 := by omega
      refine State.recordStamp_slot _ (e1 ▸ hf1) (Fn.stampSlot_beside hst hb ?_)
      rcases hse with (hlo | hv) | hse
      · simp [long, show sub.long = false by simpa using hlo] at hl
      · simp [long, hv] at hl
      · exact hse
  have e3 : s2.fn? f'.fn = some { f' with stamped :=
      ({ k := f'.k, cont := long, sub := sub, desc := some d, tick := s.now } : Stamped) ::
        if long = true then [{ k := f'.k + 1, cont := false, sub := sub, desc := none, tick := s.now }] else [] } := by
    rw [e2]
    cases hl : long with
    | false =>
      rw [if_neg (by simp), e1, hf1, hst, hl]; rfl
    | true =>
      rw [if_pos rfl, e1]
      have hf2 := State.fn?_modFn (fun x => { x with stamped := x.stamped ++
        [({ k := f'.k + 1, cont := false, sub := sub, desc := none, tick := s.now } : Stamped)] }) (fun _ => rfl) hf1
      exact hf2.trans (by rw [hst, hl]; rfl)
  have e4 : s2 = (if long then (s.modFn f'.fn fun x =>
        { x with stamped := x.stamped ++ [{ k := f'.k, cont := long, sub := sub, desc := some d, tick := s.now }] }).modFn f'.fn fun x =>
        { x with stamped := x.stamped ++ [{ k := f'.k + 1, cont := false, sub := sub, desc := none, tick := s.now }] }
      else s.modFn f'.fn fun x =>
        { x with stamped := x.stamped ++ [{ k := f'.k, cont := long, sub := sub, desc := some d, tick := s.now }] }) := by
    rw [e2, e1]; rfl
  clear_value s2
  rw [hst]
  show State.takeAllSlots 1 _ f'.fn = _
  unfold State.takeAllSlots
  rw [e3]
  dsimp only
  rw [if_neg (by simp [Fn.takes, hc])]
  have hsub : ({ f' with stamped := ({ k := f'.k, cont := long, sub := sub, desc := some d, tick := s.now } : Stamped) ::
        if long = true then [{ k := f'.k + 1, cont := false, sub := sub, desc := none, tick := s.now }] else [] } : Fn).submittedAt f'.k =
        some { st := { k := f'.k, cont := long, sub := sub, desc := some d, tick := s.now }, long := long, bad := false } := by
    cases hl : long with
    | false => exact Fn.submitted_single rfl rfl
    | true =>
      refine Fn.submitted_long rfl rfl rfl rfl rfl ?_
      intro hv
      simp [long, hv] at hl
  rw [hsub]
  show State.takeSlot _ _ _ _ _ = _
  unfold State.takeSlot
  have er : s2.mkReq { f' with stamped := ({ k := f'.k, cont := long, sub := sub, desc := some d, tick := s.now } : Stamped) ::
        if long = true then [{ k := f'.k + 1, cont := false, sub := sub, desc := none, tick := s.now }] else [] } sub d f'.k s.now = r0 := by
    rw [e4]; split <;> rfl
  show State.admitReq _ _ (s2.mkReq _ sub d f'.k s.now) long false = _
  rw [er]
  have hadm := State.admitReq_admits (s := s.slotTaken sub d f') (f := f') (r := r0) (long := long)
    (l := ({ k := f'.k, cont := long, sub := sub, desc := some d, tick := s.now } : Stamped) ::
        if long = true then [{ k := f'.k + 1, cont := false, sub := sub, desc := none, tick := s.now }] else []) hc
    (hta ▸ State.slotTaken_tenantActive s sub d f') hof hsh hhd hck
  refine (Eq.trans ?_ hadm).trans ?_
  · rw [e4]; rfl
  · dsimp only
    change (if r0.cls ≠ 0 then u0.enter f' r0 else _) = _
    split at h
    · rename_i hz
      obtain ⟨rfl, rfl, rfl⟩ : u0 = u ∧ f' = f ∧ r0 = r := by simpa using h
      rw [if_pos hz]
    · rename_i hz
      rw [if_neg hz]
      split at h
      · rename_i rs hd
        have hd' : u0.decideZero (if r0.deadline = 0 then { r0 with deadline := u0.implicitDeadline r0 } else r0) = .accept rs := hd
        change (match u0.decideZero (if r0.deadline = 0 then { r0 with deadline := u0.implicitDeadline r0 } else r0) with
          | .capacity => _
          | .deadline e => _
          | .accept rs => _) = _
        rw [hd']
        obtain ⟨h1, h2⟩ := Prod.mk.inj (Option.some.inj h)
        obtain ⟨h2, h3⟩ := Prod.mk.inj h2
        rw [← h1, ← h2, ← h3]
      · cases h

/-- A request command that begins runs its own effect. -/
theorem State.submit_begins {s u : State} {sub : Sub} {d : Desc} {r : Req} (h : s.begins sub d = some (u, r))
    (hd : ∀ m, r.desc ≠ .detach m) (hn : ∀ g, r.desc ≠ .fence g) : s.submit sub d = u.beginReq r := by
  unfold State.begins at h
  split at h
  · cases h
  rename_i v f r' ha
  rw [State.submit_admits ha]
  extract_lets t at h
  split at h
  · cases h
  rename_i hb
  obtain ⟨rfl, rfl⟩ := Prod.mk.inj (Option.some.inj h)
  unfold State.enter
  split
  · exact absurd ‹_› (hd _)
  · exact absurd ‹_› (hn _)
  all_goals
    have hb' : t.blocked r' = false := by
      cases hx : t.blocked r' with
      | false => rfl
      | true => exact absurd (by rw [hx]; rfl) hb
    exact if_neg (by rw [hb']; decide)

/-- The request of a command that begins is the one its slot spells, but for an implicit deadline. -/
theorem State.begins_req {s u : State} {sub : Sub} {d : Desc} {r : Req} (h : s.begins sub d = some (u, r)) :
    ∃ f, s.fn? sub.fn = some f ∧ r = { s.mkReq f sub d f.k s.now with deadline := r.deadline } ∧ u.req? r.id = some r ∧
      u.blocked r = false := by
  unfold State.begins State.admits at h
  split at h
  · cases h
  rename_i v f r' ha
  split at ha
  · cases ha
  rename_i f' hf
  extract_lets long r0 u0 r1 at ha
  extract_lets t at h
  split at h
  · cases h
  rename_i hb
  obtain ⟨rfl, rfl⟩ := Prod.mk.inj (Option.some.inj h)
  have hb : t.blocked r' = false ∧ t.req? r'.id = some r' := by simpa using hb
  refine ⟨f', hf, ?_, hb.2, hb.1⟩
  split at ha
  · cases ha
  split at ha
  · obtain ⟨_, h2⟩ := Prod.mk.inj (Option.some.inj ha)
    rw [← (Prod.mk.inj h2).2]
  · split at ha
    · obtain ⟨_, h2⟩ := Prod.mk.inj (Option.some.inj ha)
      rw [← (Prod.mk.inj h2).2]
      show r1 = { r0 with deadline := r1.deadline }
      simp only [r1]
      split <;> rfl
    · cases ha

/-- The descriptor of a request that begins is the command's. -/
theorem State.begins_desc {s u : State} {sub : Sub} {d : Desc} {r : Req} (h : s.begins sub d = some (u, r)) :
    ∃ f, s.fn? sub.fn = some f ∧ r.desc = normDesc f.version d := by
  obtain ⟨f, hf, hr, _⟩ := State.begins_req h
  exact ⟨f, hf, by rw [hr]; rfl⟩

/-! ### Completion records -/

theorem foldl_out {α : Type} {o : Output} (f : State → α → State) (h : ∀ s a, o ∈ s.out → o ∈ (f s a).out) :
    ∀ (l : List α) (s : State), o ∈ s.out → o ∈ (l.foldl f s).out := by
  intro l
  induction l with
  | nil => intro s hs; exact hs
  | cons a l ih => intro s hs; exact ih _ (h s a hs)

theorem State.note_out (s : State) (name : String) (source detail : Nat) : (s.note name source detail).out = s.out := by
  obtain ⟨r, h⟩ := State.event_eq s name none source detail
  exact (congrArg State.out h : (s.event name none source detail).out = _)

theorem State.putTableId_out (s : State) (id : Nat) : (s.putTableId id).out = s.out := by
  unfold State.putTableId; split <;> rfl

theorem State.tableSweep_out (s : State) (id : Nat) : (s.tableSweep id).out = s.out := by
  unfold State.tableSweep
  split
  · split
    · rw [State.note_out, State.putTableId_out]
    · rfl
  · rfl

theorem State.tableUnref_out (s : State) (id : Nat) : (s.tableUnref id).out = s.out := by
  unfold State.tableUnref
  split
  · rfl
  · rw [State.tableSweep_out]; rfl

theorem State.deallocate_out {s : State} {p : Page} {o : Output} (h : o ∈ s.out) : o ∈ (s.deallocate p).out := by
  unfold State.deallocate
  split
  · exact h
  · split
    · exact List.mem_cons_of_mem _ h
    · exact h

theorem State.sweepPages_out {s : State} {o : Output} (h : o ∈ s.out) : o ∈ s.sweepPages.out := by
  unfold State.sweepPages
  refine foldl_out _ (fun s p hs => State.deallocate_out ?_) _ _ h
  rw [State.tableUnref_out]; exact hs

theorem State.unpin1_out (s : State) (p : Option Pin) : (s.unpin1 p).out = s.out := by
  unfold State.unpin1; split <;> rfl

theorem State.dropReq_out {s : State} {r : Req} {o : Output} (h : o ∈ s.out) : o ∈ (s.dropReq r).out := by
  unfold State.dropReq
  refine State.sweepPages_out (foldl_out _ (fun s t hs => by rw [State.tableUnref_out]; exact hs) _ _ ?_)
  show o ∈ (s.unpin r).out
  unfold State.unpin
  rw [State.unpin1_out, State.unpin1_out]; exact h

theorem State.fenceCount_out (s : State) (r : Req) (status : Nat) : (s.fenceCount r status).out = s.out := by
  unfold State.fenceCount; split <;> rfl

theorem State.enqueue_out (s : State) (e f c n : Nat) : (s.enqueue e f c n).out = s.out := by
  unfold State.enqueue
  extract_lets mine put
  repeat' split
  all_goals rfl

/-- The end of a request writes its record (R202 to R205). -/
theorem State.finish_completes {s : State} {r : Req} (status result : Nat) (fl : RecFlags) (h : (s.ringOf r).isSome = true) :
    s.completes (s.finish r status result fl) r status result := by
  obtain ⟨g, hg⟩ := Option.isSome_iff_exists.mp h
  have hrec : ∃ f, s.fn? r.fn = some f ∧ (f.rings.find? fun g => g.attach == r.attach) = some g := by
    unfold State.ringOf at hg
    cases hf : s.fn? r.fn with
    | none => rw [hf] at hg; cases hg
    | some f => rw [hf] at hg; exact ⟨f, rfl, hg⟩
  obtain ⟨f, hf, hr⟩ := hrec
  have hs : (s.finish r status result fl) =
      ((((s.putRecord r.fn g g.next r.opcode r.slotSeq r.tag status result fl).modFn r.fn fun f =>
        { f with rings := mapIf (·.attach == r.attach) (fun g => { g with next := g.next + 1 }) f.rings }).enqueue (s.groupOfFn r.fn) r.fn
          r.cls 32).trackRecord r status |>.fenceCount r status).dropReq r := by
    unfold State.finish State.record
    rw [hf]
    simp only [hr]
  let c : Completion :=
    { fn := r.fn, attach := g.attach, c := g.next, addr := g.base + 32 * (g.next % 2 ^ g.log2), status := status,
      opcode := r.opcode, phase := (g.next / 2 ^ g.log2 + 1) % 2 == 1, nonfinite := fl.nonfinite, curd := fl.curd, remote := fl.remote,
      multi := fl.multi, slotSeq := r.slotSeq, tag := r.tag, timeUs := s.now / ticksPerUs % 2 ^ 32, result := result }
  refine ⟨g, c, hg, ?_, rfl, rfl, rfl, rfl, rfl, rfl, rfl, rfl, rfl, rfl⟩
  rw [hs]
  refine State.dropReq_out ?_
  rw [State.fenceCount_out]
  show _ ∈ (State.enqueue _ _ _ _ _).out
  rw [State.enqueue_out]
  exact List.mem_cons_self

end Sys2Proof.Machine
end

