-- ==== Sys2Proof/Laws/Cold.lean ====
section
/-! SUPPORT. The cold part of the state: what only the boot, resets, power, the tenants' administration, memory upkeep, the shapers, a few
frames and the event recorder may change; and what a fold and a record update do to it. The Cold files say what leaves it as it is. -/

namespace Sys2Proof.Machine

/-- What the boot, resets, power, the tenants' administration, memory upkeep, the shapers and a few frames may change, and no other
command. -/
structure Cold where
  boot : Boot
  update : Update
  resets : Resets
  viral : Bool
  directBad : List Nat
  egress : List Egress
  clusters : List LinkCluster
  peerEpochs : List (Nat × Nat × Nat)
  dram : List Stack
  groups : List PGroup
  tenants : List TenantSt
  power : Power
  coarse : Coarse
  ring : List Event
  firsts : List Event
  nextSeq : Nat
  deriving DecidableEq, Repr

def State.cold (s : State) : Cold :=
  { boot := s.boot, update := s.update, resets := s.resets, viral := s.viral, directBad := s.directBad, egress := s.egress, clusters := s.clusters, peerEpochs := s.peerEpochs, dram := s.dram, groups := s.groups, tenants := s.tenants, power := s.power, coarse := s.coarse, ring := s.recorder.ring, firsts := s.recorder.firsts,
    nextSeq := s.recorder.next }

/-- A fold of operations that keep the cold part keeps it. -/
theorem foldl_cold {α : Type} (f : State → α → State) (h : ∀ s a, (f s a).cold = s.cold) :
    ∀ (l : List α) (s : State), (l.foldl f s).cold = s.cold := by
  intro l
  induction l with
  | nil => intro s; rfl
  | cons a l ih => intro s; exact (ih _).trans (h s a)

theorem foldl_cold_of {α : Type} {f : State → α → State} {l : List α} {s s' : State} (h : s.cold = s'.cold)
    (hf : ∀ s a, (f s a).cold = s.cold) : (l.foldl f s).cold = s'.cold :=
  (foldl_cold f hf l s).trans h

theorem elim_cold_of {α : Type} {o : Option α} {f : α → State} {s s' : State} (h : s.cold = s'.cold)
    (hf : ∀ a, (f a).cold = s'.cold) : (o.elim s f).cold = s'.cold := by
  cases o with
  | none => exact h
  | some a => exact hf a

theorem getD_cold {o : Option State} {s : State} (h : ∀ t, o = some t → t.cold = s.cold) : (o.getD s).cold = s.cold := by
  cases o with
  | none => rfl
  | some t => exact h t rfl

/-- The cold part of a record update. -/
@[simp] theorem State.cold_mk (x0 x1 x2 x3 x4 x5 x6 x7 x8 x9 x10 x11 x12 x13 x14 x15 x16 x17 x18 x19 x20 x21 x22 x23 x24 x25 x26 x27 x28 x29 x30 x31 x32 x33 x34 x35 x36 x37 x38 x39 x40 x41 x42 x43 x44 x45 x46 x47 x48 x49 x50 x51 x52 x53 x54 x55 x56 x57 x58 x59 x60 x61 x62 x63 x64) :
    State.cold (State.mk x0 x1 x2 x3 x4 x5 x6 x7 x8 x9 x10 x11 x12 x13 x14 x15 x16 x17 x18 x19 x20 x21 x22 x23 x24 x25 x26 x27 x28 x29 x30 x31 x32 x33 x34 x35 x36 x37 x38 x39 x40 x41 x42 x43 x44 x45 x46 x47 x48 x49 x50 x51 x52 x53 x54 x55 x56 x57 x58 x59 x60 x61 x62 x63 x64) =
      { boot := x5, update := x9, resets := x10, viral := x28, directBad := x27, egress := x44, clusters := x46, peerEpochs := x50, dram := x52, groups := x53, tenants := x55, power := x60, coarse := x62, ring := x57.ring, firsts := x57.firsts, nextSeq := x57.next } := rfl

/-- Its fields together are the cold part again. -/
@[simp] theorem State.cold_eta (s : State) :
    ({ boot := s.boot, update := s.update, resets := s.resets, viral := s.viral, directBad := s.directBad, egress := s.egress, clusters := s.clusters, peerEpochs := s.peerEpochs, dram := s.dram, groups := s.groups, tenants := s.tenants, power := s.power, coarse := s.coarse, ring := s.recorder.ring, firsts := s.recorder.firsts, nextSeq := s.recorder.next } : Cold) = s.cold := rfl

end Sys2Proof.Machine
end

