-- ==== Sys2Proof/Laws/ColdRequests.lean ====
section
/-! SUPPORT. What leaves the cold part as it is (Laws/Cold.lean): one lemma per operation of walks, curds, moves, tables, near-memory operations and requests. -/

set_option linter.unusedSimpArgs false
set_option linter.unnecessarySeqFocus false
set_option linter.unreachableTactic false
set_option linter.unusedTactic false
set_option linter.unusedVariables false

namespace Sys2Proof.Machine

/-! ### Walks -/

@[simp] theorem State.sendFar_cold (s : State) (a1) (a2) (a3) (a4) (a5) : (State.sendFar s a1 a2 a3 a4 a5).cold = s.cold := by unfold State.sendFar; (repeat' split) <;> simp [foldl_cold]
@[simp] theorem State.askFar_cold (s : State) (a1) (a2) (a3) (a4) (a5) (a6) (a7) : (State.askFar s a1 a2 a3 a4 a5 a6 a7).cold = s.cold := by unfold State.askFar; dsimp only; (repeat' split) <;> simp [foldl_cold]
@[simp] theorem State.askRun_cold (s : State) (a1) (a2) (a3) (a4) (a5) (a6) (l) : (State.askRun s a1 a2 a3 a4 a5 a6 l).cold = s.cold := by
  induction l generalizing s with
  | nil => rfl
  | cons x rest ih =>
    unfold State.askRun
    dsimp only
    split <;> simp [ih]
@[simp] theorem State.copyFails_cold (s : State) (a1) (a2) : (State.copyFails s a1 a2).cold = s.cold := by unfold State.copyFails; dsimp only; (repeat' split) <;> simp [foldl_cold]
@[simp] theorem State.consumeCopy_cold (s : State) (a1) (a2) (a3) : (State.consumeCopy s a1 a2 a3).cold = s.cold := rfl
@[simp] theorem State.pageFailed_cold (s : State) (a1) (a2) (a3) (a4) (a5) (a6) (a7) : (State.pageFailed s a1 a2 a3 a4 a5 a6 a7).cold = s.cold := by
  unfold State.pageFailed; (try dsimp only)
  repeat' (first | with_reducible rfl | assumption | refine foldl_cold_of ?_ (fun _ _ => ?_) | refine elim_cold_of ?_ (fun _ => ?_) | split | simp)
@[simp] theorem State.askTables_cold (s : State) : (State.askTables s).cold = s.cold := by unfold State.askTables; (repeat' (first | rfl | assumption | split | refine foldl_cold_of ?_ (fun _ _ => ?_) | refine elim_cold_of ?_ (fun _ => ?_))) <;> simp [foldl_cold]
@[simp] theorem State.takeEngine_cold (s : State) (a1) (a2) (a3) : (State.takeEngine s a1 a2 a3).cold = s.cold := rfl
@[simp] theorem State.brineIdle_cold (s : State) : (State.brineIdle s).cold = s.cold := rfl
@[simp] theorem State.placeQueued_cold (s : State) (a1) : (State.placeQueued s a1).cold = s.cold := by unfold State.placeQueued; (repeat' split) <;> simp [foldl_cold]
@[simp] theorem State.startAlone_cold (s : State) (a1) (a2) (a3) (a4) (a5) (a6) (a7) : (State.startAlone s a1 a2 a3 a4 a5 a6 a7).cold = s.cold := by unfold State.startAlone; dsimp only; (repeat' (first | rfl | assumption | split | refine foldl_cold_of ?_ (fun _ _ => ?_))) <;> simp [foldl_cold]
@[simp] theorem State.startParts_cold (s : State) (a1) : (State.startParts s a1).cold = s.cold := by unfold State.startParts; dsimp only; (repeat' (first | rfl | assumption | split | refine foldl_cold_of ?_ (fun _ _ => ?_))) <;> simp [foldl_cold]

/-! ### Curds -/

@[simp] theorem State.prefetchPart_cold (s : State) (a1) (a2) (a3) (a4) (a5) (a6) (a7) (a8) (a9) : (State.prefetchPart s a1 a2 a3 a4 a5 a6 a7 a8 a9).cold = s.cold := by simp [State.prefetchPart, foldl_cold]
@[simp] theorem State.beginAttend_cold (s : State) (a1) (a2) : (State.beginAttend s a1 a2).cold = s.cold := by unfold State.beginAttend; dsimp only; (repeat' (first | rfl | assumption | split | refine foldl_cold_of ?_ (fun _ _ => ?_))) <;> simp [foldl_cold]
@[simp] theorem State.completeAttend_cold (s : State) (a1) : (State.completeAttend s a1).cold = s.cold := by unfold State.completeAttend; dsimp only; (repeat' split) <;> simp [foldl_cold]
@[simp] theorem State.goAlone_cold (s : State) (a1) : (State.goAlone s a1).cold = s.cold := by unfold State.goAlone; dsimp only; (repeat' split) <;> simp [foldl_cold]
@[simp] theorem State.bookCurd_cold (s : State) (a1) (a2) (a3) (a4) (a5) (a6) (a7) : (State.bookCurd s a1 a2 a3 a4 a5 a6 a7).cold = s.cold := by unfold State.bookCurd; dsimp only; (repeat' split) <;> simp [foldl_cold]
@[simp] theorem State.runCurd_cold (s : State) (a1) (a2) (a3) (a4) : (State.runCurd s a1 a2 a3 a4).cold = s.cold := by simp [State.runCurd, foldl_cold]
@[simp] theorem State.dropCurd_cold (s : State) (a1) : (State.dropCurd s a1).cold = s.cold := rfl
@[simp] theorem State.closeCurd_cold (s : State) (a1) : (State.closeCurd s a1).cold = s.cold := by unfold State.closeCurd; dsimp only; (repeat' split) <;> simp [foldl_cold]
@[simp] theorem State.markCurd_cold (s : State) (a1) : (State.markCurd s a1).cold = s.cold := rfl
@[simp] theorem State.beginCurd_cold (s : State) (a1) : (State.beginCurd s a1).cold = s.cold := by unfold State.beginCurd; dsimp only; (repeat' (first | rfl | assumption | split | refine foldl_cold_of ?_ (fun _ _ => ?_))) <;> simp [foldl_cold]
@[simp] theorem State.placeWork_cold (s : State) : (State.placeWork s).cold = s.cold := by simp [State.placeWork, foldl_cold]
@[simp] theorem State.closeDue_cold (s : State) : (State.closeDue s).cold = s.cold := by simp [State.closeDue, foldl_cold]
@[simp] theorem State.dispatch_cold (s : State) : (State.dispatch s).cold = s.cold := by simp [State.dispatch, foldl_cold]
@[simp] theorem State.setPart_cold (s : State) (a1) (a2) (a3) : (State.setPart s a1 a2 a3).cold = s.cold := rfl
@[simp] theorem State.leaveCurd_cold (s : State) (a1) (a2) : (State.leaveCurd s a1 a2).cold = s.cold := rfl
@[simp] theorem State.settlePart_cold (s : State) (a1) (a2) (a3) : (State.settlePart s a1 a2 a3).cold = s.cold := by unfold State.settlePart; (repeat' split) <;> simp [foldl_cold]
@[simp] theorem State.settleAttend_cold (s : State) (a1) : (State.settleAttend s a1).cold = s.cold := by
  unfold State.settleAttend; dsimp only
  repeat' (first | with_reducible rfl | assumption | refine foldl_cold_of ?_ (fun _ _ => ?_) | split | simp)
@[simp] theorem State.idleRows_cold (s : State) (a1) (a2) (a3) : (State.idleRows s a1 a2 a3).cold = s.cold := rfl
@[simp] theorem State.scrubMembers_cold (s : State) (a1) (a2) : (State.scrubMembers s a1 a2).cold = s.cold := by unfold State.scrubMembers; (repeat' (first | rfl | assumption | split | refine foldl_cold_of ?_ (fun _ _ => ?_) | refine elim_cold_of ?_ (fun _ => ?_))) <;> simp [foldl_cold]
@[simp] theorem State.bookBrine_cold (s : State) (a1) : (State.bookBrine s a1).cold = s.cold := rfl
@[simp] theorem State.endCurd_cold (s : State) (a1) : (State.endCurd s a1).cold = s.cold := by unfold State.endCurd; dsimp only; (repeat' (first | rfl | assumption | split | refine foldl_cold_of ?_ (fun _ _ => ?_) | refine elim_cold_of ?_ (fun _ => ?_))) <;> simp [foldl_cold]
@[simp] theorem State.dropIdle_cold (s : State) (a1) : (State.dropIdle s a1).cold = s.cold := by unfold State.dropIdle; (repeat' split) <;> simp [foldl_cold]
@[simp] theorem State.pageBoundary_cold (s : State) (a1) : (State.pageBoundary s a1).cold = s.cold := by
  unfold State.pageBoundary
  split
  · rfl
  · dsimp only
    split
    · rfl
    · rw [State.dispatch_cold]
      refine foldl_cold_of ?_ (fun _ _ => by simp)
      split
      · rfl
      · rw [State.dropIdle_cold, State.scrubMembers_cold]
        exact foldl_cold_of (by simp) (fun _ _ => by simp)
@[simp] theorem State.endAttend_cold (s : State) (a1) (a2) (a3) (a4) : (State.endAttend s a1 a2 a3 a4).cold = s.cold := by simp [State.endAttend, foldl_cold]
@[simp] theorem State.sparing_cold (s : State) (a1) (a2) : (State.sparing s a1 a2).cold = s.cold := by unfold State.sparing; (repeat' split) <;> simp [foldl_cold]
@[simp] theorem State.lateProgress_cold (s : State) (a1) (a2) : (State.lateProgress s a1 a2).cold = s.cold := by unfold State.lateProgress; dsimp only; (repeat' split) <;> simp [foldl_cold]
@[simp] theorem State.endWalked_cold (s : State) (a1) : (State.endWalked s a1).cold = s.cold := by unfold State.endWalked; (repeat' split) <;> simp [foldl_cold]
@[simp] theorem State.askAhead_cold (s : State) (a1) (a2) (a3) : (State.askAhead s a1 a2 a3).cold = s.cold := by unfold State.askAhead; dsimp only; (repeat' (first | rfl | assumption | split | refine foldl_cold_of ?_ (fun _ _ => ?_) | refine elim_cold_of ?_ (fun _ => ?_))) <;> simp [foldl_cold]
@[simp] theorem State.pageBad_cold (s : State) (a1) (a2) (a3) : (State.pageBad s a1 a2 a3).cold = s.cold := by
  unfold State.pageBad; (try dsimp only)
  repeat' (first | with_reducible rfl | assumption | refine foldl_cold_of ?_ (fun _ _ => ?_) | refine elim_cold_of ?_ (fun _ => ?_) | split | simp)
@[simp] theorem State.walkOk_cold (s : State) (a1) (a2) (a3) (a4) (a5) (a6) : (State.walkOk s a1 a2 a3 a4 a5 a6).cold = s.cold := by
  unfold State.walkOk; (try dsimp only)
  repeat' (first | with_reducible rfl | assumption | refine foldl_cold_of ?_ (fun _ _ => ?_) | refine elim_cold_of ?_ (fun _ => ?_) | split | simp)
@[simp] theorem State.walkBad_cold (s : State) (a1) (a2) (a3) (a4) : (State.walkBad s a1 a2 a3 a4).cold = s.cold := by unfold State.walkBad; dsimp only; (repeat' split) <;> simp [foldl_cold]
@[simp] theorem State.walkBlock_cold (s : State) (a1) : (State.walkBlock s a1).cold = s.cold := by
  unfold State.walkBlock
  extract_lets s1
  have h1 : s1.cold = s.cold := State.pageBoundary_cold _ _
  clear_value s1
  split
  · exact h1
  · split
    · exact h1
    · split
      · simp [h1]
      · extract_lets rs s2
        have h2 : s2.cold = s.cold := foldl_cold_of h1 fun t r => by cases t.attendOf r <;> simp
        clear_value s2
        (repeat' split) <;> simp [h2]
@[simp] theorem State.queryArrives_cold (s : State) (a1) (a2) (a3) : (State.queryArrives s a1 a2 a3).cold = s.cold := by unfold State.queryArrives; dsimp only; (repeat' split) <;> simp [foldl_cold]
@[simp] theorem State.endPart_cold (s : State) (a1) (a2) (a3) : (State.endPart s a1 a2 a3).cold = s.cold := by unfold State.endPart; dsimp only; (repeat' split) <;> simp [foldl_cold]
@[simp] theorem State.partEnd_cold (s : State) (a1) (a2) : (State.partEnd s a1 a2).cold = s.cold := by
  unfold State.partEnd
  extract_lets ps
  (repeat' split) <;> first | rfl | (exact foldl_cold_of rfl (fun _ _ => by simp)) | simp
@[simp] theorem State.memberDone_cold (s : State) (a1) (a2) : (State.memberDone s a1 a2).cold = s.cold := rfl
@[simp] theorem State.completeMember_cold (s : State) (a1) : (State.completeMember s a1).cold = s.cold := by unfold State.completeMember; (repeat' split) <;> simp [foldl_cold]
@[simp] theorem State.splitCurd_cold (s : State) (a1) (a2) : (State.splitCurd s a1 a2).cold = s.cold := by
  unfold State.splitCurd
  extract_lets live s1
  rw [State.dispatch_cold]
  refine foldl_cold_of ?_ (fun _ _ => by simp)
  exact (State.endCurd_cold _ _).trans (foldl_cold_of rfl (fun _ _ => by simp))
@[simp] theorem State.curdPassEnd_cold (s : State) (a1) : (State.curdPassEnd s a1).cold = s.cold := by unfold State.curdPassEnd; dsimp only; (repeat' split) <;> simp [foldl_cold]
@[simp] theorem State.closeThisTick_cold (s : State) (a1) : (State.closeThisTick s a1).cold = s.cold := rfl
@[simp] theorem State.afterJoin_cold (s : State) (a1) (a2) (a3) : (State.afterJoin s a1 a2 a3).cold = s.cold := by unfold State.afterJoin; (repeat' split) <;> simp [foldl_cold]
@[simp] theorem State.curdOffer_cold (s : State) (a1) (a2) : (State.curdOffer s a1 a2).cold = s.cold := by unfold State.curdOffer; dsimp only; (repeat' split) <;> simp [foldl_cold]
@[simp] theorem State.curdWindowEnd_cold (s : State) (a1) : (State.curdWindowEnd s a1).cold = s.cold := by unfold State.curdWindowEnd; dsimp only; (repeat' split) <;> simp [foldl_cold]
@[simp] theorem State.curdLatestClose_cold (s : State) (a1) : (State.curdLatestClose s a1).cold = s.cold := by unfold State.curdLatestClose; (repeat' split) <;> simp [foldl_cold]
@[simp] theorem State.passYield_cold (s : State) (a1) : (State.passYield s a1).cold = s.cold := by
  unfold State.passYield
  split
  · rfl
  · split
    · rfl
    · extract_lets s1 mine; rw [State.dispatch_cold]; exact State.pageBoundary_cold _ _
@[simp] theorem State.passResume_cold (s : State) (a1) (a2) : (State.passResume s a1 a2).cold = s.cold := by unfold State.passResume; dsimp only; (repeat' (first | rfl | assumption | split | refine foldl_cold_of ?_ (fun _ _ => ?_))) <;> simp [foldl_cold]

/-! ### Whey -/

@[simp] theorem State.dropMove_cold (s : State) (a1) : (State.dropMove s a1).cold = s.cold := by unfold State.dropMove; dsimp only; (repeat' split) <;> simp [foldl_cold]
theorem State.takeMove_cold (s : State) (a1) (a2) (a3) (a4) (a5) (t) (h : (State.takeMove s a1 a2 a3 a4 a5) = some t) : t.cold = s.cold := by unfold State.takeMove at h; dsimp only at h; grind [State.cold, State.bumpId_cold]
@[simp] theorem State.dropDemotion_cold (s : State) (a1) (a2) (a3) : (State.dropDemotion s a1 a2 a3).cold = s.cold := by simp [State.dropDemotion, foldl_cold]
theorem State.takeAll_cold (s : State) (a1) (a2) (l) (t) (h : State.takeAll s a1 a2 l = some t) : t.cold = s.cold := by
  induction l generalizing s with
  | nil => unfold State.takeAll at h; cases h; rfl
  | cons x rest ih =>
    obtain ⟨id, i, l⟩ := x
    unfold State.takeAll at h
    dsimp only at h
    split at h
    · exact (ih _ h).trans (by simp)
    · split at h
      · next u hu => exact (ih _ h).trans ((State.takeMove_cold _ _ _ _ _ _ _ hu).trans (by simp))
      · cases h
@[simp] theorem State.setPins_cold (s : State) (a1) (a2) (a3) : (State.setPins s a1 a2 a3).cold = s.cold := by unfold State.setPins; dsimp only; (repeat' (first | rfl | assumption | split | refine foldl_cold_of ?_ (fun _ _ => ?_))) <;> simp [foldl_cold]
@[simp] theorem State.hintMoves_cold (s : State) (a1) (a2) : (State.hintMoves s a1 a2).cold = s.cold := by
  unfold State.hintMoves
  refine foldl_cold_of rfl fun s x => ?_
  obtain ⟨id, i, l⟩ := x
  dsimp only
  split
  · rfl
  · exact getD_cold fun t h => State.takeMove_cold _ _ _ _ _ _ _ h
@[simp] theorem State.readRemote_cold (s : State) (a1) (a2) (a3) (a4) (a5) : (State.readRemote s a1 a2 a3 a4 a5).cold = s.cold := by simp [State.readRemote, foldl_cold]
@[simp] theorem State.readRemotes_cold (s : State) (a1) (a2) (l) : (State.readRemotes s a1 a2 l).2.cold = s.cold := by
  induction l generalizing s with
  | nil => rfl
  | cons x rest ih =>
    obtain ⟨_, _⟩ := x
    unfold State.readRemotes
    split <;> simp [ih]
theorem State.readRemotes_cold_of (s : State) (a1) (a2) (a3) (u) (t) (h : (State.readRemotes s a1 a2 a3) = (u, t)) : t.cold = s.cold := by have := State.readRemotes_cold s a1 a2 a3; rw [h] at this; exact this
@[simp] theorem State.refetch_cold (s : State) : (State.refetch s).cold = s.cold := by unfold State.refetch; dsimp only; (repeat' (first | rfl | assumption | split | refine foldl_cold_of ?_ (fun _ _ => ?_) | refine elim_cold_of ?_ (fun _ => ?_))) <;> simp [foldl_cold]
@[simp] theorem State.fetchCopy_cold (s : State) (a1) (a2) : (State.fetchCopy s a1 a2).cold = s.cold := by simp [State.fetchCopy, foldl_cold]
@[simp] theorem State.hintReads_cold (s : State) (a1) (l) : (State.hintReads s a1 l).cold = s.cold := by
  induction l generalizing s with
  | nil => rfl
  | cons x rest ih =>
    obtain ⟨_, _, _⟩ := x
    unfold State.hintReads
    dsimp only
    (repeat' split) <;> simp [ih]
@[simp] theorem State.rangeSettle1_cold (s : State) (a1) : (State.rangeSettle1 s a1).cold = s.cold := by
  unfold State.rangeSettle1
  extract_lets pages busy
  clear_value pages busy
  split
  · rfl
  · split
    · split
      · rfl
      · extract_lets up s1
        have e : s1.cold = s.cold := foldl_cold_of rfl fun s x => getD_cold fun t h => State.takeMove_cold _ _ _ _ _ _ _ h
        split
        · exact e
        · simp [e]
    · extract_lets s0 s1 left
      have h0 : s0.cold = s.cold := by simp [s0]
      clear_value s0
      have e : s1.cold = s.cold := by unfold s1; split <;> simp [h0]
      clear_value s1 left
      (repeat' split) <;> simp [e, h0]
    · simp
    · simp
    · rfl
@[simp] theorem State.rangeSettle_cold (s : State) : (State.rangeSettle s).cold = s.cold := by
  unfold State.rangeSettle
  refine foldl_cold_of rfl fun s x => ?_
  split <;> simp
@[simp] theorem State.stagingFreed_cold (s : State) : (State.stagingFreed s).cold = s.cold := by simp [State.stagingFreed, foldl_cold]
@[simp] theorem State.beginPinRange_cold (s : State) (a1) (a2) : (State.beginPinRange s a1 a2).cold = s.cold := by
  unfold State.beginPinRange
  (repeat' split) <;> try simp
  exact getD_cold fun t h => State.takeAll_cold _ _ _ _ _ h
@[simp] theorem State.beginUnpin_cold (s : State) (a1) (a2) : (State.beginUnpin s a1 a2).cold = s.cold := by
  unfold State.beginUnpin
  (repeat' split) <;> try simp only [State.finish_cold]
  exact (State.modSeq_cold _ _ _).trans (foldl_cold_of rfl fun s x => by simp)
@[simp] theorem State.beginHint_cold (s : State) (a1) (a2) : (State.beginHint s a1 a2).cold = s.cold := by
  unfold State.beginHint
  (repeat' split) <;> try simp only [State.finish_cold]
  simp only [State.rangeSettle_cold, State.modReq_cold]
  refine foldl_cold_of rfl fun s x => ?_
  (repeat' split) <;> try rfl
  exact getD_cold fun t h => State.takeMove_cold _ _ _ _ _ _ _ h
@[simp] theorem State.moveStart_cold (s : State) : (State.moveStart s).cold = s.cold := by unfold State.moveStart; dsimp only; (repeat' split) <;> simp [foldl_cold]
@[simp] theorem State.moveFinish_cold (s : State) (a1) (a2) : (State.moveFinish s a1 a2).cold = s.cold := by unfold State.moveFinish; dsimp only; (repeat' split) <;> simp [foldl_cold]
@[simp] theorem State.moveFails_cold (s : State) (a1) : (State.moveFails s a1).cold = s.cold := by unfold State.moveFails; (repeat' split) <;> simp [foldl_cold]
@[simp] theorem State.sweep_cold (s : State) (a1) (a2) (a3) : (State.sweep s a1 a2 a3).cold = s.cold := by unfold State.sweep; dsimp only; (repeat' split) <;> simp [foldl_cold]
@[simp] theorem State.proxyRec_cold (s : State) (a1) (a2) (a3) : (State.proxyRec s a1 a2 a3).2.cold = s.cold := by unfold State.proxyRec; dsimp only; (repeat' split) <;> simp [foldl_cold]
theorem State.proxyRec_cold_of (s : State) (a1) (a2) (a3) (u) (t) (h : (State.proxyRec s a1 a2 a3) = (u, t)) : t.cold = s.cold := by have := State.proxyRec_cold s a1 a2 a3; rw [h] at this; exact this
@[simp] theorem State.keepCopy_cold (s : State) (a1) (a2) (a3) : (State.keepCopy s a1 a2 a3).cold = s.cold := by unfold State.keepCopy; dsimp only; (repeat' split) <;> simp [foldl_cold]
@[simp] theorem State.readAgain_cold (s : State) (a1) : (State.readAgain s a1).cold = s.cold := by unfold State.readAgain; (repeat' split) <;> simp [foldl_cold]
@[simp] theorem State.prefetchLands_cold (s : State) (a1) (a2) (a3) (a4) : (State.prefetchLands s a1 a2 a3 a4).cold = s.cold := by
  unfold State.prefetchLands
  split
  · rfl
  · extract_lets set entry own s1 s2
    have hs : ∀ g (s : State), (set g s).cold = s.cold := fun _ _ => rfl
    have h1 : s1.cold = s.cold := hs _ _
    clear_value set own s1
    have h2 : s2.cold = s.cold := by unfold s2; split <;> simp [h1]
    clear_value s2 entry
    split
    · rfl
    · split
      · simp [hs]
      · split
        · simp
        · split
          · exact elim_cold_of rfl fun _ => by simp
          · split
            · rw [State.stagingFreed_cold]; exact h2
            · exact h2
@[simp] theorem State.stagingTtl_cold (s : State) (a1) : (State.stagingTtl s a1).cold = s.cold := by simp [State.stagingTtl, foldl_cold]

/-! ### Fetch -/

@[simp] theorem State.endFetch_cold (s : State) (a1) (a2) (a3) (a4) : (State.endFetch s a1 a2 a3 a4).cold = s.cold := by simp [State.endFetch, foldl_cold]
@[simp] theorem State.askSlots_cold (s : State) (a1) (a2) (a3) (a4) (l) : (State.askSlots s a1 a2 a3 a4 l).cold = s.cold := by
  induction l generalizing s with
  | nil => rfl
  | cons x rest ih =>
    obtain ⟨_, _⟩ := x
    unfold State.askSlots
    dsimp only
    split <;> simp [ih]
@[simp] theorem State.beginFetch_cold (s : State) (a1) (a2) : (State.beginFetch s a1 a2).cold = s.cold := by unfold State.beginFetch; dsimp only; (repeat' split) <;> simp [foldl_cold]
@[simp] theorem State.fetchTransfer_cold (s : State) (a1) (a2) (a3) : (State.fetchTransfer s a1 a2 a3).cold = s.cold := by unfold State.fetchTransfer; dsimp only; (repeat' split) <;> simp [foldl_cold]
@[simp] theorem State.readChunks_cold (s : State) (a1) (a2) (l) : (State.readChunks s a1 a2 l).cold = s.cold := by
  induction l generalizing s with
  | nil => rfl
  | cons x rest ih =>
    obtain ⟨w, c⟩ := x
    unfold State.readChunks
    dsimp only
    (repeat' split) <;> first | exact elim_cold_of rfl fun _ => by simp | simp [ih]
@[simp] theorem State.chunksMore_cold (s : State) (a1) : (State.chunksMore s a1).cold = s.cold := by unfold State.chunksMore; (repeat' split) <;> simp [foldl_cold]
@[simp] theorem State.beginWeights_cold (s : State) (a1) (a2) : (State.beginWeights s a1 a2).cold = s.cold := by unfold State.beginWeights; (repeat' split) <;> simp [foldl_cold]
@[simp] theorem State.modWeights_cold (s : State) (a1) (a2) : (State.modWeights s a1 a2).cold = s.cold := rfl
@[simp] theorem State.roomInCache_cold (s : State) : (State.roomInCache s).cold = s.cold := by unfold State.roomInCache; dsimp only; (repeat' split) <;> simp [foldl_cold]
@[simp] theorem State.readChunk_cold (s : State) (a1) (a2) (a3) : (State.readChunk s a1 a2 a3).cold = s.cold := by unfold State.readChunk; dsimp only; (repeat' split) <;> simp [foldl_cold]
@[simp] theorem State.chunkLost_cold (s : State) (a1) (a2) : (State.chunkLost s a1 a2).cold = s.cold := rfl
@[simp] theorem State.weightsTransfer_cold (s : State) (a1) (a2) (a3) : (State.weightsTransfer s a1 a2 a3).cold = s.cold := by unfold State.weightsTransfer; dsimp only; (repeat' split) <;> simp [foldl_cold]

/-! ### Tables -/

@[simp] theorem State.streamRef_cold (s : State) (a1) (a2) : (State.streamRef s a1 a2).cold = s.cold := by unfold State.streamRef; (repeat' split) <;> simp [foldl_cold]
@[simp] theorem State.setStream_cold (s : State) (a1) (a2) (a3) (a4) (a5) : (State.setStream s a1 a2 a3 a4 a5).cold = s.cold := by unfold State.setStream; dsimp only; (repeat' split) <;> simp [foldl_cold]
@[simp] theorem State.setStreams_cold (s : State) (a1) (a2) (a3) : (State.setStreams s a1 a2 a3).cold = s.cold := by simp [State.setStreams, foldl_cold]
@[simp] theorem State.enterTable_cold (s : State) (a1) (a2) (a3) : (State.enterTable s a1 a2 a3).cold = s.cold := rfl
@[simp] theorem State.tableLoadArrives_cold (s : State) (a1) (a2) (a3) : (State.tableLoadArrives s a1 a2 a3).cold = s.cold := by unfold State.tableLoadArrives; dsimp only; (repeat' split) <;> simp [foldl_cold]
@[simp] theorem State.tableTransfer_cold (s : State) (a1) (a2) (a3) : (State.tableTransfer s a1 a2 a3).cold = s.cold := by unfold State.tableTransfer; (repeat' split) <;> simp [foldl_cold]
@[simp] theorem State.beginTableLoad_cold (s : State) (a1) : (State.beginTableLoad s a1).cold = s.cold := rfl
@[simp] theorem State.selectTable_cold (s : State) (a1) (a2) : (State.selectTable s a1 a2).cold = s.cold := by unfold State.selectTable; (repeat' split) <;> simp [foldl_cold]
@[simp] theorem State.beginTableSelect_cold (s : State) (a1) (a2) : (State.beginTableSelect s a1 a2).cold = s.cold := by unfold State.beginTableSelect; (repeat' split) <;> simp [foldl_cold]
@[simp] theorem State.exportTable_cold (s : State) (a1) (a2) : (State.exportTable s a1 a2).cold = s.cold := by unfold State.exportTable; (repeat' split) <;> simp [foldl_cold]
@[simp] theorem State.beginTableExport_cold (s : State) (a1) (a2) : (State.beginTableExport s a1 a2).cold = s.cold := by unfold State.beginTableExport; (repeat' split) <;> simp [foldl_cold]
@[simp] theorem State.retireTable_cold (s : State) (a1) (a2) : (State.retireTable s a1 a2).cold = s.cold := by unfold State.retireTable; dsimp only; (repeat' split) <;> simp [foldl_cold]
@[simp] theorem State.beginRetire_cold (s : State) (a1) (a2) : (State.beginRetire s a1 a2).cold = s.cold := by simp [State.beginRetire, foldl_cold]
theorem State.takeImportId_cold (s : State) (t) (h : State.takeImportId s = some t) : t.2.cold = s.cold := by
  unfold State.takeImportId at h
  split at h
  · cases h; rfl
  · cases hf : s.tabFree.take with
    | none => rw [hf] at h; cases h
    | some x => rw [hf] at h; cases h; rfl
@[simp] theorem State.importTable_cold (s : State) (a1) (a2) (a3) : (State.importTable s a1 a2 a3).2.cold = s.cold := by unfold State.importTable; dsimp only; grind [State.cold, → State.takeImportId_cold, State.enterTable_cold, State.note_cold]
theorem State.importTable_cold_of (s : State) (a1) (a2) (a3) (u) (t) (h : (State.importTable s a1 a2 a3) = (u, t)) : t.cold = s.cold := by have := State.importTable_cold s a1 a2 a3; rw [h] at this; exact this
@[simp] theorem State.recheckFails_cold (s : State) (a1) (a2) : (State.recheckFails s a1 a2).cold = s.cold := by unfold State.recheckFails; (repeat' split) <;> simp [foldl_cold]

/-! ### NearMemory -/

@[simp] theorem State.askOp_cold (s : State) (a1) (a2) : (State.askOp s a1 a2).cold = s.cold := by unfold State.askOp; (repeat' split) <;> simp [foldl_cold]
@[simp] theorem State.pinOps_cold (s : State) (a1) : (State.pinOps s a1).cold = s.cold := by unfold State.pinOps; dsimp only; (repeat' split) <;> simp [foldl_cold]
@[simp] theorem State.readRegion_cold (s : State) (a1) (a2) : (State.readRegion s a1 a2).cold = s.cold := by unfold State.readRegion; dsimp only; (repeat' split) <;> simp [foldl_cold]
@[simp] theorem State.readRegions_cold (s : State) (a1) : (State.readRegions s a1).cold = s.cold := by simp [State.readRegions, foldl_cold]
@[simp] theorem State.beginNear_cold (s : State) (a1) : (State.beginNear s a1).cold = s.cold := by unfold State.beginNear; (repeat' split) <;> simp [foldl_cold]
@[simp] theorem State.pinRegion_cold (s : State) (a1) (a2) (a3) : (State.pinRegion s a1 a2 a3).cold = s.cold := by unfold State.pinRegion; dsimp only; (repeat' split) <;> simp [foldl_cold]
@[simp] theorem State.onRegionAnswer_cold (s : State) (a1) (a2) (a3) : (State.onRegionAnswer s a1 a2 a3).cold = s.cold := by unfold State.onRegionAnswer; dsimp only; (repeat' split) <;> simp [foldl_cold]
@[simp] theorem State.onNmoDone_cold (s : State) (a1) : (State.onNmoDone s a1).cold = s.cold := by unfold State.onNmoDone; dsimp only; (repeat' split) <;> simp [foldl_cold]

/-! ### Requests -/

@[simp] theorem State.beginReq_cold (s : State) (a1) : (State.beginReq s a1).cold = s.cold := by unfold State.beginReq; (repeat' split) <;> simp [foldl_cold]
@[simp] theorem State.dropMovesOf_cold (s : State) (a1) : (State.dropMovesOf s a1).cold = s.cold := by
  unfold State.dropMovesOf; (try dsimp only)
  repeat' (first | with_reducible rfl | assumption | refine foldl_cold_of ?_ (fun _ _ => ?_) | split | simp)
@[simp] theorem State.endReq_cold (s : State) (a1) (a2) (a3) (a4) : (State.endReq s a1 a2 a3 a4).cold = s.cold := by unfold State.endReq; (repeat' split) <;> simp [foldl_cold]
@[simp] theorem State.endWalk_cold (s : State) (a1) (a2) (a3) : (State.endWalk s a1 a2 a3).cold = s.cold := by unfold State.endWalk; (repeat' split) <;> simp [foldl_cold]
@[simp] theorem State.endNow_cold (s : State) (a1) : (State.endNow s a1).cold = s.cold := by unfold State.endNow; dsimp only; (repeat' split) <;> simp [foldl_cold]
@[simp] theorem State.settleEnds_cold (s : State) : (State.settleEnds s).cold = s.cold := by unfold State.settleEnds; (repeat' (first | rfl | assumption | split | refine foldl_cold_of ?_ (fun _ _ => ?_) | refine elim_cold_of ?_ (fun _ => ?_))) <;> simp [foldl_cold]
@[simp] theorem State.endAll_cold (s : State) (a1) (a2) : (State.endAll s a1 a2).cold = s.cold := by
  unfold State.endAll; (try dsimp only)
  repeat' (first | with_reducible rfl | assumption | refine foldl_cold_of ?_ (fun _ _ => ?_) | split | simp)
@[simp] theorem State.stale_cold (s : State) (a1) : (State.stale s a1).cold = s.cold := rfl
@[simp] theorem State.attachRecord_cold (s : State) (a1) (a2) (a3) (a4) (a5) : (State.attachRecord s a1 a2 a3 a4 a5).cold = s.cold := by unfold State.attachRecord; (repeat' split) <;> simp [foldl_cold]
@[simp] theorem State.takeAttach_cold (s : State) (a1) (a2) (a3) : (State.takeAttach s a1 a2 a3).cold = s.cold := by unfold State.takeAttach; dsimp only; (repeat' split) <;> simp [foldl_cold]
@[simp] theorem State.beginShutdown_cold (s : State) (a1) (a2) (a3) (a4) (a5) : (State.beginShutdown s a1 a2 a3 a4 a5).cold = s.cold := by unfold State.beginShutdown; dsimp only; (repeat' split) <;> simp [foldl_cold]
@[simp] theorem State.refuseHeld_cold (s : State) (a1) (a2) : (State.refuseHeld s a1 a2).cold = s.cold := rfl
@[simp] theorem State.resetFn_cold (s : State) (a1) : (State.resetFn s a1).cold = s.cold := by unfold State.resetFn; dsimp only; (repeat' split) <;> simp [foldl_cold]
@[simp] theorem State.drainGrace_cold (s : State) (a1) : (State.drainGrace s a1).cold = s.cold := by unfold State.drainGrace; (repeat' split) <;> simp [foldl_cold]
@[simp] theorem State.shutdownEnd_cold (s : State) (a1) : (State.shutdownEnd s a1).cold = s.cold := by unfold State.shutdownEnd; dsimp only; (repeat' split) <;> simp [foldl_cold]
@[simp] theorem State.beginFence_cold (s : State) (a1) (a2) : (State.beginFence s a1 a2).cold = s.cold := by unfold State.beginFence; dsimp only; (repeat' split) <;> simp [foldl_cold]
@[simp] theorem State.fenceComplete_cold (s : State) (a1) : (State.fenceComplete s a1).cold = s.cold := by unfold State.fenceComplete; dsimp only; (repeat' split) <;> simp [foldl_cold]
@[simp] theorem State.enter_cold (s : State) (a1) (a2) : (State.enter s a1 a2).cold = s.cold := by unfold State.enter; dsimp only; (repeat' split) <;> simp [foldl_cold]
@[simp] theorem State.loadNamed_cold (s : State) (a1) : (State.loadNamed s a1).cold = s.cold := by unfold State.loadNamed; dsimp only; (repeat' split) <;> simp [foldl_cold]
@[simp] theorem State.admitReq_cold (s : State) (a1) (a2) (a3) (a4) : (State.admitReq s a1 a2 a3 a4).cold = s.cold := by unfold State.admitReq; dsimp only; (repeat' split) <;> simp [foldl_cold]
@[simp] theorem State.takeSlot_cold (s : State) (a1) (a2) (a3) (a4) : (State.takeSlot s a1 a2 a3 a4).cold = s.cold := by unfold State.takeSlot; dsimp only; (repeat' split) <;> simp [foldl_cold]
@[simp] theorem State.takeAllSlots_cold (n) (s : State) (fn) : (State.takeAllSlots n s fn).cold = s.cold := by
  induction n generalizing s with
  | zero => rfl
  | succ n ih => unfold State.takeAllSlots; (repeat' split) <;> simp [ih]
@[simp] theorem State.apertureNote_cold (s : State) (a1) (a2) (a3) : (State.apertureNote s a1 a2 a3).cold = s.cold := by simp [State.apertureNote, foldl_cold]
@[simp] theorem State.discardStamp_cold (s : State) (a1) (a2) : (State.discardStamp s a1 a2).cold = s.cold := by simp [State.discardStamp, foldl_cold]
@[simp] theorem State.aperture_cold (s : State) (g n) (k : Fn → State → State) (h : ∀ f s, (k f s).cold = s.cold) : (s.aperture g n k).cold = s.cold := by unfold State.aperture; apply State.live_cold; intro s; (repeat' split) <;> simp [h]
@[simp] theorem State.recordStamp_cold (s : State) (a1) (a2) (a3) (a4) : (State.recordStamp s a1 a2 a3 a4).cold = s.cold := by unfold State.recordStamp; (repeat' split) <;> simp [foldl_cold]
@[simp] theorem State.submit_cold (s : State) (a1) (a2) : (State.submit s a1 a2).cold = s.cold := by unfold State.submit; dsimp only; grind [State.cold, State.aperture_cold, State.takeAttach_cold, State.stale_cold, State.recordStamp_cold, State.takeAllSlots_cold]
@[simp] theorem State.windowWord_cold (s : State) (a1) (a2) (a3) : (State.windowWord s a1 a2 a3).cold = s.cold := by unfold State.windowWord; dsimp only; (repeat' split) <;> simp [foldl_cold]
@[simp] theorem State.abort_cold (s : State) (a1) (a2) (a3) (a4) (a5) (a6) : (State.abort s a1 a2 a3 a4 a5 a6).cold = s.cold := by
  unfold State.abort; (try dsimp only)
  repeat' (first | with_reducible rfl | assumption | refine foldl_cold_of ?_ (fun _ _ => ?_) | split | simp)
@[simp] theorem State.abortWord_cold (s : State) (a1) (a2) (a3) : (State.abortWord s a1 a2 a3).cold = s.cold := by unfold State.abortWord; dsimp only; (repeat' split) <;> simp [foldl_cold]
@[simp] theorem State.apertureWord_cold (s : State) (a1) (a2) (a3) : (State.apertureWord s a1 a2 a3).cold = s.cold := by unfold State.apertureWord; dsimp only; (repeat' split) <;> simp [foldl_cold]
@[simp] theorem State.apertureWrite_cold (s : State) (a1) (a2) (a3) (a4) : (State.apertureWrite s a1 a2 a3 a4).cold = s.cold := by
  unfold State.apertureWrite
  refine State.aperture_cold _ _ _ _ fun f s => ?_
  extract_lets n s1 s2
  split
  · split
    · simp [s1]
    · exact foldl_cold_of (by simp [s1]) fun _ _ => by simp
  · rw [State.takeAllSlots_cold]
    exact foldl_cold_of rfl fun _ _ => by simp
@[simp] theorem State.afterWait_cold (s : State) (a1) : (State.afterWait s a1).cold = s.cold := by unfold State.afterWait; dsimp only; (repeat' split) <;> simp [foldl_cold]
@[simp] theorem State.sequenceCommit_cold (s : State) (a1) : (State.sequenceCommit s a1).cold = s.cold := by unfold State.sequenceCommit; (repeat' (first | rfl | assumption | split | refine foldl_cold_of ?_ (fun _ _ => ?_) | refine elim_cold_of ?_ (fun _ => ?_))) <;> simp [foldl_cold]
@[simp] theorem State.rekeyEnds_cold (s : State) (a1) : (State.rekeyEnds s a1).cold = s.cold := by unfold State.rekeyEnds; (repeat' split) <;> simp [foldl_cold]
@[simp] theorem State.deadlineReached_cold (s : State) (a1) : (State.deadlineReached s a1).cold = s.cold := by unfold State.deadlineReached; (repeat' split) <;> simp [foldl_cold]
@[simp] theorem State.withReq_cold (s : State) (id) (g : State → Req → State) (h : ∀ s r, (g s r).cold = s.cold) : (s.withReq id g).cold = s.cold := by unfold State.withReq; apply State.live_cold; intro s; (repeat' split) <;> simp [h]

end Sys2Proof.Machine
end

