-- ==== Sys2Proof/Laws/ColdFabric.lean ====
section
/-! SUPPORT. What leaves the cold part as it is (Laws/Cold.lean): one lemma per operation of faults, links, extents, directory messages and the tray. -/

set_option linter.unusedSimpArgs false
set_option linter.unnecessarySeqFocus false
set_option linter.unreachableTactic false
set_option linter.unusedTactic false
set_option linter.unusedVariables false

namespace Sys2Proof.Machine

/-! ### Faults -/

@[simp] theorem State.advise_cold (s : State) (a1) : (State.advise s a1).cold = s.cold := by unfold State.advise; dsimp only; (repeat' split) <;> simp [foldl_cold]
@[simp] theorem State.lowSpares_cold (s : State) (a1) (a2) (a3) : (State.lowSpares s a1 a2 a3).cold = s.cold := by unfold State.lowSpares; dsimp only; (repeat' split) <;> simp [foldl_cold]
@[simp] theorem State.countSpare_cold (s : State) (a1) (a2) : (State.countSpare s a1 a2).cold = s.cold := rfl
@[simp] theorem State.spend_cold (s : State) (a1) (a2) : (State.spend s a1 a2).cold = s.cold := by unfold State.spend; (repeat' split) <;> simp [foldl_cold]
@[simp] theorem State.lostSpare_cold (s : State) (a1) (a2) : (State.lostSpare s a1 a2).cold = s.cold := by unfold State.lostSpare; dsimp only; (repeat' split) <;> simp [foldl_cold]
@[simp] theorem State.hashOut_cold (s : State) (a1) : (State.hashOut s a1).cold = s.cold := by unfold State.hashOut; dsimp only; (repeat' (first | rfl | assumption | split | refine foldl_cold_of ?_ (fun _ _ => ?_))) <;> simp [foldl_cold]
@[simp] theorem State.hashMismatch_cold (s : State) (a1) (a2) (a3) (a4) : (State.hashMismatch s a1 a2 a3 a4).cold = s.cold := by unfold State.hashMismatch; dsimp only; (repeat' split) <;> simp [foldl_cold]
@[simp] theorem State.hashCheck_cold (s : State) (a1) (a2) : (State.hashCheck s a1 a2).cold = s.cold := by unfold State.hashCheck; (repeat' split) <;> simp [foldl_cold]
@[simp] theorem State.coderFails_cold (s : State) (a1) (a2) : (State.coderFails s a1 a2).cold = s.cold := by unfold State.coderFails; dsimp only; (repeat' split) <;> simp [foldl_cold]
@[simp] theorem State.checkedRekey_cold (s : State) (a1) (a2) : (State.checkedRekey s a1 a2).cold = s.cold := by unfold State.checkedRekey; (repeat' split) <;> simp [foldl_cold]
@[simp] theorem State.rescindZero_cold (n) (s : State) : (State.rescindZero n s).cold = s.cold := by
  induction n generalizing s with
  | zero => rfl
  | succ n ih =>
    unfold State.rescindZero
    extract_lets held full cand
    split
    · rfl
    · simp [ih]
@[simp] theorem State.shrinkT1_cold (n) (s : State) : (State.shrinkT1 n s).cold = s.cold := by
  induction n generalizing s with
  | zero => rfl
  | succ n ih =>
    unfold State.shrinkT1
    extract_lets cand
    split
    · rfl
    · simp [ih]
@[simp] theorem State.shrinkRates_cold (a0) (s : State) (a2) : (State.shrinkRates a0 s a2).cold = s.cold := by
  induction a0 generalizing s with
  | zero => rfl
  | succ n ih =>
    unfold State.shrinkRates
    extract_lets qs
    split
    · rfl
    · split
      · rfl
      · exact ih _
@[simp] theorem State.recompute_cold (s : State) : (State.recompute s).cold = s.cold := by simp [State.recompute, foldl_cold]
@[simp] theorem State.replaceResv_cold (s : State) (a1) (a2) (a3) : (State.replaceResv s a1 a2 a3).cold = s.cold := by unfold State.replaceResv; dsimp only; (repeat' split) <;> simp [foldl_cold]
@[simp] theorem State.moveResvs_cold (s : State) (a1) (a2) (a3) : (State.moveResvs s a1 a2 a3).cold = s.cold := by
  unfold State.moveResvs; (try dsimp only)
  repeat' (first | with_reducible rfl | assumption | refine foldl_cold_of ?_ (fun _ _ => ?_) | split | simp)
@[simp] theorem State.endPasses_cold (s : State) (a1) (a2) : (State.endPasses s a1 a2).cold = s.cold := by
  unfold State.endPasses; (try dsimp only)
  repeat' (first | with_reducible rfl | assumption | refine foldl_cold_of ?_ (fun _ _ => ?_) | split | simp)
@[simp] theorem State.callSpare_cold (s : State) (a1) (a2) (a3) : (State.callSpare s a1 a2 a3).cold = s.cold := by unfold State.callSpare; (repeat' split) <;> simp [foldl_cold]
@[simp] theorem State.engineOut_cold (s : State) (a1) (a2) : (State.engineOut s a1 a2).cold = s.cold := by unfold State.engineOut; dsimp only; (repeat' split) <;> simp [foldl_cold]
@[simp] theorem State.engineFault_cold (s : State) (a1) (a2) (a3) : (State.engineFault s a1 a2 a3).cold = s.cold := by unfold State.engineFault; (repeat' split) <;> simp [foldl_cold]
@[simp] theorem State.engineRemapped_cold (s : State) (a1) (a2) (a3) : (State.engineRemapped s a1 a2 a3).cold = s.cold := by unfold State.engineRemapped; dsimp only; (repeat' split) <;> simp [foldl_cold]
@[simp] theorem State.decodeRecheck_cold (s : State) (a1) (a2) (a3) : (State.decodeRecheck s a1 a2 a3).cold = s.cold := by unfold State.decodeRecheck; dsimp only; (repeat' split) <;> simp [foldl_cold]
@[simp] theorem State.askAgain_cold (s : State) (a1) : (State.askAgain s a1).cold = s.cold := by unfold State.askAgain; dsimp only; (repeat' split) <;> simp [foldl_cold]
@[simp] theorem State.loseGrain_cold (s : State) (a1) : (State.loseGrain s a1).cold = s.cold := by
  unfold State.loseGrain; (try dsimp only)
  repeat' (first | with_reducible rfl | assumption | refine foldl_cold_of ?_ (fun _ _ => ?_) | split | simp)
@[simp] theorem State.setShelf_cold (s : State) (a1) (a2) : (State.setShelf s a1 a2).cold = s.cold := rfl
@[simp] theorem State.shelfFault_cold (s : State) (a1) (a2) : (State.shelfFault s a1 a2).cold = s.cold := by
  have e : ∀ (t : State) (x : Nat), (t.loseGrain x).cold = t.cold := State.loseGrain_cold
  unfold State.shelfFault
  split
  · split <;> simp
  · extract_lets s1 lost s2 s3
    have h1 : s1.cold = s.cold := by unfold s1; split <;> simp
    split
    · exact foldl_cold_of (by simp [h1]) fun _ _ => e _ _
    · have e2 : ∀ (n : Nat) (l : List Nat) (t : State), (l.foldl (fun (s : State) i => s.loseGrain (256 * n + i)) t).cold = t.cold :=
        fun n => foldl_cold _ (fun s i => e s (256 * n + i))
      rw [State.recompute_cold, State.freeIdleProxies_cold, State.demoteAll_cold]
      unfold s3 s2
      rw [State.advise_cold, State.setShelf_cold, e2, h1]
@[simp] theorem State.shelfRemapped_cold (s : State) (a1) : (State.shelfRemapped s a1).cold = s.cold := by unfold State.shelfRemapped; (repeat' split) <;> simp [foldl_cold]
@[simp] theorem State.modPair_cold (s : State) (a1) (a2) : (State.modPair s a1 a2).cold = s.cold := rfl
@[simp] theorem State.checkpoint_cold (s : State) (a1) : (State.checkpoint s a1).cold = s.cold := rfl
@[simp] theorem State.pairFault_cold (s : State) (a1) : (State.pairFault s a1).cold = s.cold := by unfold State.pairFault; dsimp only; (repeat' split) <;> simp [foldl_cold]
@[simp] theorem State.pairTakeover_cold (s : State) (a1) : (State.pairTakeover s a1).cold = s.cold := by unfold State.pairTakeover; (repeat' split) <;> simp [foldl_cold]
@[simp] theorem State.keyBankFault_cold (s : State) (a1) : (State.keyBankFault s a1).cold = s.cold := by unfold State.keyBankFault; dsimp only; (repeat' split) <;> simp [foldl_cold]
@[simp] theorem State.keyBankCopied_cold (s : State) (a1) : (State.keyBankCopied s a1).cold = s.cold := by unfold State.keyBankCopied; dsimp only; (repeat' split) <;> simp [foldl_cold]
@[simp] theorem State.aesTest_cold (s : State) (a1) (a2) : (State.aesTest s a1 a2).cold = s.cold := by unfold State.aesTest; dsimp only; (repeat' (first | rfl | assumption | split | refine foldl_cold_of ?_ (fun _ _ => ?_))) <;> simp [foldl_cold]
@[simp] theorem State.monitorFault_cold (s : State) : (State.monitorFault s).cold = s.cold := by unfold State.monitorFault; dsimp only; (repeat' split) <;> simp [foldl_cold]
@[simp] theorem State.internalEnd_cold (s : State) (a1) : (State.internalEnd s a1).cold = s.cold := by unfold State.internalEnd; dsimp only; (repeat' split) <;> simp [foldl_cold]
@[simp] theorem State.watchdog_cold (s : State) (a1) (a2) : (State.watchdog s a1 a2).cold = s.cold := by unfold State.watchdog; dsimp only; (repeat' split) <;> simp [foldl_cold]
@[simp] theorem State.resetGroupFns_cold (s : State) (a1) : (State.resetGroupFns s a1).cold = s.cold := by simp [State.resetGroupFns, foldl_cold]
@[simp] theorem State.groupGone_cold (s : State) (a1) : (State.groupGone s a1).cold = s.cold := by unfold State.groupGone; dsimp only; (repeat' split) <;> simp [foldl_cold]
@[simp] theorem State.moduleLoss_cold (s : State) (a1) (a2) : (State.moduleLoss s a1 a2).cold = s.cold := by unfold State.moduleLoss; dsimp only; (repeat' split) <;> simp [foldl_cold]
@[simp] theorem State.laneRepair_cold (s : State) (a1) (a2) : (State.laneRepair s a1 a2).cold = s.cold := by unfold State.laneRepair; dsimp only; (repeat' split) <;> simp [foldl_cold]

/-! ### Flash -/

@[simp] theorem State.modTray_cold (s : State) (a1) : (State.modTray s a1).cold = s.cold := rfl
@[simp] theorem State.modObjects_cold (s : State) (a1) (a2) : (State.modObjects s a1 a2).cold = s.cold := rfl
@[simp] theorem State.ssdIssue_cold (s : State) (a1) (a2) (a3) (a4) (a5) : (State.ssdIssue s a1 a2 a3 a4 a5).cold = s.cold := by
  unfold State.ssdIssue
  split
  · split <;> simp
  · rfl
@[simp] theorem State.destage_cold (s : State) (a1) : (State.destage s a1).cold = s.cold := by unfold State.destage; dsimp only; (repeat' split) <;> simp [foldl_cold]
@[simp] theorem State.destaged_cold (s : State) (a1) : (State.destaged s a1).cold = s.cold := by unfold State.destaged; (repeat' split) <;> simp [foldl_cold]
@[simp] theorem State.destageFails_cold (s : State) (a1) : (State.destageFails s a1).cold = s.cold := rfl
@[simp] theorem State.serveGet_cold (s : State) (a1) (a2) : (State.serveGet s a1 a2).cold = s.cold := by unfold State.serveGet; (repeat' split) <;> simp [foldl_cold]
@[simp] theorem State.readGrain_cold (s : State) (a1) (a2) (a3) (a4) : (State.readGrain s a1 a2 a3 a4).cold = s.cold := by unfold State.readGrain; dsimp only; (repeat' (first | rfl | assumption | split | refine foldl_cold_of ?_ (fun _ _ => ?_) | refine elim_cold_of ?_ (fun _ => ?_))) <;> simp [foldl_cold]
@[simp] theorem State.getObject_cold (s : State) (a1) (a2) : (State.getObject s a1 a2).cold = s.cold := by unfold State.getObject; (repeat' split) <;> simp [foldl_cold]
@[simp] theorem State.nextGets_cold (s : State) : (State.nextGets s).cold = s.cold := by unfold State.nextGets; (repeat' (first | rfl | assumption | split | refine foldl_cold_of ?_ (fun _ _ => ?_) | refine elim_cold_of ?_ (fun _ => ?_))) <;> simp [foldl_cold]
@[simp] theorem State.getDone_cold (s : State) (a1) (a2) : (State.getDone s a1 a2).cold = s.cold := by unfold State.getDone; (repeat' split) <;> simp [foldl_cold]
@[simp] theorem State.getFails_cold (s : State) (a1) (a2) (a3) (a4) (a5) : (State.getFails s a1 a2 a3 a4 a5).cold = s.cold := by unfold State.getFails; dsimp only; (repeat' split) <;> simp [foldl_cold]
@[simp] theorem State.flashDone_cold (s : State) (a1) : (State.flashDone s a1).cold = s.cold := by unfold State.flashDone; (repeat' split) <;> simp [foldl_cold]

/-! ### Links -/

@[simp] theorem State.dropTxn_cold (s : State) (a1) : (State.dropTxn s a1).cold = s.cold := rfl
@[simp] theorem State.txnDone_cold (s : State) (a1) : (State.txnDone s a1).cold = s.cold := by unfold State.txnDone; (repeat' split) <;> simp [foldl_cold]
@[simp] theorem State.endMoveTxn_cold (s : State) (a1) (a2) (a3) : (State.endMoveTxn s a1 a2 a3).cold = s.cold := by unfold State.endMoveTxn; (repeat' split) <;> simp [foldl_cold]
@[simp] theorem State.rekeyFails_cold (s : State) (a1) (a2) (a3) (a4) : (State.rekeyFails s a1 a2 a3 a4).cold = s.cold := by unfold State.rekeyFails; (repeat' split) <;> simp [foldl_cold]
@[simp] theorem State.endTxn_cold (s : State) (a1) (a2) : (State.endTxn s a1 a2).cold = s.cold := by unfold State.endTxn; dsimp only; (repeat' split) <;> simp [foldl_cold]
@[simp] theorem State.endTxns_cold (s : State) (a1) (a2) : (State.endTxns s a1 a2).cold = s.cold := by
  unfold State.endTxns
  refine foldl_cold_of rfl fun s t => ?_
  split <;> simp
@[simp] theorem State.linkNote_cold (s : State) (a1) (a2) (a3) : (State.linkNote s a1 a2 a3).cold = s.cold := by simp [State.linkNote, foldl_cold]
@[simp] theorem State.endSessions_cold (s : State) (a1) : (State.endSessions s a1).cold = s.cold := by unfold State.endSessions; (repeat' (first | rfl | assumption | split | refine foldl_cold_of ?_ (fun _ _ => ?_) | refine elim_cold_of ?_ (fun _ => ?_))) <;> simp [foldl_cold]
@[simp] theorem State.leaveUp_cold (s : State) (a1) (a2) : (State.leaveUp s a1 a2).cold = s.cold := by simp [State.leaveUp, foldl_cold]
@[simp] theorem State.linkDown_cold (s : State) (a1) : (State.linkDown s a1).cold = s.cold := by simp [State.linkDown, foldl_cold]
@[simp] theorem State.toTraining_cold (s : State) (a1) : (State.toTraining s a1).cold = s.cold := by simp [State.toTraining, foldl_cold]
@[simp] theorem State.quarantine_cold (s : State) (a1) : (State.quarantine s a1).cold = s.cold := by simp [State.quarantine, foldl_cold]
@[simp] theorem State.joinVolumes_cold (s : State) (a1) : (State.joinVolumes s a1).cold = s.cold := by unfold State.joinVolumes; dsimp only; (repeat' (first | rfl | assumption | split | refine foldl_cold_of ?_ (fun _ _ => ?_))) <;> simp [foldl_cold]
@[simp] theorem State.offerExtents_cold (s : State) (a1) : (State.offerExtents s a1).cold = s.cold := by unfold State.offerExtents; (repeat' (first | rfl | assumption | split | refine foldl_cold_of ?_ (fun _ _ => ?_) | refine elim_cold_of ?_ (fun _ => ?_))) <;> simp [foldl_cold]
@[simp] theorem State.portUp_cold (s : State) (a1) : (State.portUp s a1).cold = s.cold := by simp [State.portUp, foldl_cold]
@[simp] theorem State.sendHello_cold (s : State) (a1) : (State.sendHello s a1).cold = s.cold := rfl
@[simp] theorem State.askStep_cold (s : State) (a1) : (State.askStep s a1).cold = s.cold := by unfold State.askStep; (repeat' (first | rfl | assumption | split | refine foldl_cold_of ?_ (fun _ _ => ?_) | refine elim_cold_of ?_ (fun _ => ?_))) <;> simp [foldl_cold]
@[simp] theorem State.setIdeKeys_cold (s : State) (a1) : (State.setIdeKeys s a1).cold = s.cold := by unfold State.setIdeKeys; (repeat' (first | rfl | assumption | split | refine foldl_cold_of ?_ (fun _ _ => ?_) | refine elim_cold_of ?_ (fun _ => ?_))) <;> simp [foldl_cold]
@[simp] theorem State.trained_cold (s : State) (a1) (a2) : (State.trained s a1 a2).cold = s.cold := by unfold State.trained; (repeat' split) <;> (try dsimp only) <;> (repeat' split) <;> simp [foldl_cold]
@[simp] theorem State.retryEnd_cold (s : State) (a1) : (State.retryEnd s a1).cold = s.cold := by unfold State.retryEnd; (repeat' split) <;> simp [foldl_cold]
@[simp] theorem State.stepDone_cold (s : State) (a1) (a2) : (State.stepDone s a1 a2).cold = s.cold := by unfold State.stepDone; dsimp only; (repeat' split) <;> simp [foldl_cold]
@[simp] theorem State.doeStep_cold (s : State) (a1) (a2) : (State.doeStep s a1 a2).cold = s.cold := by unfold State.doeStep; (repeat' split) <;> simp [foldl_cold]
@[simp] theorem State.surpriseDown_cold (s : State) (a1) : (State.surpriseDown s a1).cold = s.cold := by unfold State.surpriseDown; (repeat' split) <;> simp [foldl_cold]
@[simp] theorem State.discard_cold (s : State) (a1) (a2) : (State.discard s a1 a2).cold = s.cold := by unfold State.discard; dsimp only; (repeat' split) <;> simp [foldl_cold]
@[simp] theorem State.takeFrame_cold (s : State) (a1) (a2) (a3) (a4) (a5) (a6) (k : State → Port → State) (h : ∀ s p, (k s p).cold = s.cold) :
    (State.takeFrame s a1 a2 a3 a4 a5 a6 k).cold = s.cold := by
  unfold State.takeFrame
  refine State.live_cold _ _ fun s => ?_
  split
  · rfl
  · dsimp only
    (repeat' split) <;> simp [h]
@[simp] theorem State.takeAnswer_cold (s : State) (a1) (a2) (a3) (a4) (a5) (k : State → Txn → State) (h : ∀ s p, (k s p).cold = s.cold) :
    (State.takeAnswer s a1 a2 a3 a4 a5 k).cold = s.cold := by
  unfold State.takeAnswer
  refine State.takeFrame_cold _ _ _ _ _ _ _ _ fun s p => ?_
  split <;> simp [h]
@[simp] theorem State.openSession_cold (s : State) (a1) : (State.openSession s a1).cold = s.cold := by
  unfold State.openSession
  dsimp only
  split <;> simp
@[simp] theorem State.onSpdm_cold (s : State) (a1) (a2) : (State.onSpdm s a1 a2).cold = s.cold := by unfold State.onSpdm; dsimp only; (repeat' split) <;> simp [foldl_cold]
@[simp] theorem State.onConfig_cold (s : State) (a1) (a2) (a3) : (State.onConfig s a1 a2 a3).cold = s.cold := by unfold State.onConfig; dsimp only; (repeat' split) <;> simp [foldl_cold]
@[simp] theorem State.keepaliveSend_cold (s : State) (a1) : (State.keepaliveSend s a1).cold = s.cold := by unfold State.keepaliveSend; (repeat' split) <;> simp [foldl_cold]
@[simp] theorem State.keepaliveLost_cold (s : State) (a1) : (State.keepaliveLost s a1).cold = s.cold := by unfold State.keepaliveLost; (repeat' split) <;> simp [foldl_cold]
@[simp] theorem State.onCredit_cold (s : State) (a1) (a2) : (State.onCredit s a1 a2).cold = s.cold := rfl
@[simp] theorem State.onReplay_cold (s : State) (a1) (a2) : (State.onReplay s a1 a2).cold = s.cold := by
  unfold State.onReplay
  split
  · rfl
  · exact foldl_cold_of rfl fun _ _ => by simp
@[simp] theorem State.aslTimeout_cold (s : State) (a1) : (State.aslTimeout s a1).cold = s.cold := by unfold State.aslTimeout; (repeat' split) <;> simp [foldl_cold]

/-! ### Extents -/

@[simp] theorem State.clearVers_cold (s : State) (a1) (a2) : (State.clearVers s a1 a2).cold = s.cold := rfl
@[simp] theorem State.enterExtent_cold (s : State) (a1) (a2) (a3) (a4) (a5) (a6) (a7) (a8) (a9) : (State.enterExtent s a1 a2 a3 a4 a5 a6 a7 a8 a9).cold = s.cold := rfl
@[simp] theorem State.freeExtent_cold (s : State) (a1) : (State.freeExtent s a1).cold = s.cold := rfl
@[simp] theorem State.ackRelease_cold (s : State) (a1) : (State.ackRelease s a1).cold = s.cold := by unfold State.ackRelease; (repeat' split) <;> simp [foldl_cold]
@[simp] theorem State.moveChunk_cold (s : State) (a1) (a2) : (State.moveChunk s a1 a2).cold = s.cold := by unfold State.moveChunk; dsimp only; (repeat' split) <;> simp [foldl_cold]
@[simp] theorem State.evacuate_cold (s : State) (a1) : (State.evacuate s a1).cold = s.cold := by simp [State.evacuate, foldl_cold]
@[simp] theorem State.settleExtent_cold (s : State) (a1) : (State.settleExtent s a1).cold = s.cold := by unfold State.settleExtent; dsimp only; (repeat' split) <;> simp [foldl_cold]
@[simp] theorem State.settleExtents_cold (s : State) : (State.settleExtents s).cold = s.cold := by simp [State.settleExtents, foldl_cold]
@[simp] theorem State.requestRelease_cold (s : State) (a1) : (State.requestRelease s a1).cold = s.cold := by unfold State.requestRelease; (repeat' split) <;> simp [foldl_cold]
@[simp] theorem State.drainExtent_cold (s : State) (a1) : (State.drainExtent s a1).cold = s.cold := by unfold State.drainExtent; dsimp only; (repeat' (first | rfl | assumption | split | refine foldl_cold_of ?_ (fun _ _ => ?_))) <;> simp [foldl_cold]
@[simp] theorem State.forceRelease_cold (s : State) (a1) : (State.forceRelease s a1).cold = s.cold := by unfold State.forceRelease; (repeat' split) <;> simp [foldl_cold]
@[simp] theorem State.endClaim_cold (s : State) (a1) : (State.endClaim s a1).cold = s.cold := rfl
@[simp] theorem State.releaseExtent_cold (s : State) (a1) (a2) : (State.releaseExtent s a1 a2).cold = s.cold := by unfold State.releaseExtent; (repeat' split) <;> simp [foldl_cold]
@[simp] theorem State.onOffer_cold (s : State) (a1) (a2) (a3) : (State.onOffer s a1 a2 a3).cold = s.cold := by unfold State.onOffer; dsimp only; (repeat' split) <;> simp [foldl_cold]
@[simp] theorem State.claimAnswer_cold (s : State) (a1) (a2) : (State.claimAnswer s a1 a2).cold = s.cold := by unfold State.claimAnswer; dsimp only; (repeat' split) <;> simp [foldl_cold]
@[simp] theorem State.addCapacity_cold (s : State) (a1) (a2) (a3) (a4) : (State.addCapacity s a1 a2 a3 a4).cold = s.cold := by unfold State.addCapacity; dsimp only; (repeat' split) <;> simp [foldl_cold]
@[simp] theorem State.evacuateTimeout_cold (s : State) (a1) : (State.evacuateTimeout s a1).cold = s.cold := by unfold State.evacuateTimeout; (repeat' split) <;> simp [foldl_cold]
@[simp] theorem State.drainTimeout_cold (s : State) (a1) : (State.drainTimeout s a1).cold = s.cold := by
  unfold State.drainTimeout
  split
  · split
    · refine foldl_cold_of rfl fun s t => ?_
      split <;> simp
    · rfl
  · rfl
@[simp] theorem State.drainEnd_cold (s : State) (a1) : (State.drainEnd s a1).cold = s.cold := by unfold State.drainEnd; (repeat' split) <;> simp [foldl_cold]
@[simp] theorem State.sweepExtent_cold (s : State) (a1) : (State.sweepExtent s a1).cold = s.cold := by unfold State.sweepExtent; (repeat' (first | rfl | assumption | split | refine foldl_cold_of ?_ (fun _ _ => ?_) | refine elim_cold_of ?_ (fun _ => ?_))) <;> simp [foldl_cold]
@[simp] theorem State.moveEnd_cold (s : State) (a1) (a2) : (State.moveEnd s a1 a2).cold = s.cold := by unfold State.moveEnd; (repeat' split) <;> simp [foldl_cold]
@[simp] theorem State.deviceAnswer_cold (s : State) (a1) (a2) (a3) : (State.deviceAnswer s a1 a2 a3).cold = s.cold := by unfold State.deviceAnswer; (repeat' split) <;> simp [foldl_cold]
@[simp] theorem State.nvmeTimeout_cold (s : State) (a1) (a2) (a3) : (State.nvmeTimeout s a1 a2 a3).cold = s.cold := by unfold State.nvmeTimeout; dsimp only; (repeat' split) <;> simp [foldl_cold]
@[simp] theorem State.reissue_cold (s : State) (a1) (a2) (a3) : (State.reissue s a1 a2 a3).cold = s.cold := by unfold State.reissue; (repeat' split) <;> simp [foldl_cold]
@[simp] theorem State.nvmeResetEnd_cold (s : State) (a1) (a2) (a3) : (State.nvmeResetEnd s a1 a2 a3).cold = s.cold := by unfold State.nvmeResetEnd; dsimp only; (repeat' split) <;> simp [foldl_cold]

/-! ### Fabric -/

@[simp] theorem State.memberGone_cold (s : State) (a1) : (State.memberGone s a1).cold = s.cold := by unfold State.memberGone; dsimp only; (repeat' (first | rfl | assumption | split | refine foldl_cold_of ?_ (fun _ _ => ?_))) <;> simp [foldl_cold]
@[simp] theorem State.memberUnreachable_cold (s : State) (a1) : (State.memberUnreachable s a1).cold = s.cold := by unfold State.memberUnreachable; dsimp only; (repeat' split) <;> simp [foldl_cold]
@[simp] theorem State.onKeepalive_cold (s : State) (a1) (a2) (a3) : (State.onKeepalive s a1 a2 a3).cold = s.cold := by unfold State.onKeepalive; (repeat' split) <;> simp [foldl_cold]
@[simp] theorem State.memberReset_cold (s : State) (a1) : (State.memberReset s a1).cold = s.cold := by unfold State.memberReset; (repeat' split) <;> simp [foldl_cold]
@[simp] theorem State.onHello_cold (s : State) (a1) (a2) : (State.onHello s a1 a2).cold = s.cold := by unfold State.onHello; dsimp only; (repeat' split) <;> simp [foldl_cold]
@[simp] theorem State.servePage_cold (s : State) (a1) (a2) (a3) : (State.servePage s a1 a2 a3).cold = s.cold := by unfold State.servePage; dsimp only; (repeat' split) <;> simp [foldl_cold]
@[simp] theorem State.copyFilled_cold (s : State) (a1) (a2) (a3) (a4) : (State.copyFilled s a1 a2 a3 a4).cold = s.cold := by unfold State.copyFilled; dsimp only; (repeat' split) <;> simp [foldl_cold]
@[simp] theorem State.onPageData_cold (s : State) (a1) (a2) (a3) (a4) : (State.onPageData s a1 a2 a3 a4).cold = s.cold := by unfold State.onPageData; dsimp only; (repeat' split) <;> simp [foldl_cold]
@[simp] theorem State.onPutDone_cold (s : State) (a1) (a2) : (State.onPutDone s a1 a2).cold = s.cold := by unfold State.onPutDone; (repeat' split) <;> simp [foldl_cold]
@[simp] theorem State.serveTable_cold (s : State) (a1) (a2) : (State.serveTable s a1 a2).cold = s.cold := by unfold State.serveTable; (repeat' split) <;> simp [foldl_cold]
@[simp] theorem State.onTableData_cold (s : State) (a1) (a2) (a3) : (State.onTableData s a1 a2 a3).cold = s.cold := by unfold State.onTableData; grind [State.cold, State.endTxn_cold, State.importTable_cold, → State.importTable_cold_of, State.dropTxn_cold]
@[simp] theorem State.holdSearch_cold (s : State) (a1) : (State.holdSearch s a1).cold = s.cold := rfl

/-! ### Port -/

@[simp] theorem State.reply_cold (s : State) (a1) (a2) (a3) : (State.reply s a1 a2 a3).cold = s.cold := by unfold State.reply; (repeat' split) <;> simp [foldl_cold]
@[simp] theorem State.touch_cold (s : State) (a1) : (State.touch s a1).cold = s.cold := rfl
@[simp] theorem State.serve_cold (s : State) (a1) (a2) (a3) (k : State → Conn → State) (h : ∀ s c, (k s c).cold = s.cold) :
    (State.serve s a1 a2 a3 k).cold = s.cold := by
  unfold State.serve
  split
  · rfl
  · split
    · rfl
    · extract_lets s1
      have h1 : s1.cold = s.cold := by unfold s1; simp
      (repeat' split) <;> simp [h, h1]
@[simp] theorem State.dropKeys_cold (s : State) (a1) : (State.dropKeys s a1).cold = s.cold := by unfold State.dropKeys; dsimp only; (repeat' split) <;> simp [foldl_cold]
@[simp] theorem State.endSession_cold (s : State) (a1) (a2) : (State.endSession s a1 a2).cold = s.cold := by unfold State.endSession; (repeat' split) <;> simp [foldl_cold]
@[simp] theorem State.cutSession_cold (s : State) (a1) : (State.cutSession s a1).cold = s.cold := by unfold State.cutSession; (repeat' split) <;> simp [foldl_cold]
@[simp] theorem State.forgetSession_cold (s : State) (a1) : (State.forgetSession s a1).cold = s.cold := by simp [State.forgetSession, foldl_cold]
@[simp] theorem State.closeConn_cold (s : State) (a1) : (State.closeConn s a1).cold = s.cold := by simp [State.closeConn, foldl_cold]

/-! ### Tray -/

@[simp] theorem State.makeKey_cold (s : State) (a1) : (State.makeKey s a1).cold = s.cold := by unfold State.makeKey; (repeat' split) <;> simp [foldl_cold]
@[simp] theorem State.settleKey_cold (s : State) (a1) : (State.settleKey s a1).cold = s.cold := by unfold State.settleKey; (repeat' split) <;> simp [foldl_cold]
@[simp] theorem State.modRegion_cold (s : State) (a1) (a2) : (State.modRegion s a1 a2).cold = s.cold := rfl
@[simp] theorem State.grantFalse_cold (s : State) (a1) (a2) : (State.grantFalse s a1 a2).cold = s.cold := by simp [State.grantFalse, foldl_cold]
@[simp] theorem State.reachFalse_cold (s : State) (a1) (a2) (a3) (a4) : (State.reachFalse s a1 a2 a3 a4).cold = s.cold := by simp [State.reachFalse, foldl_cold]
@[simp] theorem State.addGrant_cold (s : State) (a1) (a2) : (State.addGrant s a1 a2).cold = s.cold := by unfold State.addGrant; dsimp only; (repeat' split) <;> simp [foldl_cold]
@[simp] theorem State.dropGrant_cold (s : State) (a1) (a2) : (State.dropGrant s a1 a2).cold = s.cold := by unfold State.dropGrant; dsimp only; (repeat' split) <;> simp [foldl_cold]
@[simp] theorem State.freeRegion__cold (s : State) (a1) : (State.freeRegion_ s a1).cold = s.cold := by simp [State.freeRegion_, foldl_cold]
@[simp] theorem State.regionAnswer_cold (s : State) (a1) (a2) (a3) (a4) (a5) (a6) (a7) : (State.regionAnswer s a1 a2 a3 a4 a5 a6 a7).cold = s.cold := by unfold State.regionAnswer; (repeat' split) <;> simp [foldl_cold]
@[simp] theorem State.regionOpenFor_cold (s : State) (a1) (a2) (a3) (a4) (a5) : (State.regionOpenFor s a1 a2 a3 a4 a5).cold = s.cold := by unfold State.regionOpenFor; dsimp only; (repeat' split) <;> simp [foldl_cold]
@[simp] theorem State.regionGrantTo_cold (s : State) (a1) (a2) (a3) (a4) : (State.regionGrantTo s a1 a2 a3 a4).cold = s.cold := by unfold State.regionGrantTo; (repeat' split) <;> simp [foldl_cold]
@[simp] theorem State.askRecall_cold (s : State) (a1) (a2) : (State.askRecall s a1 a2).cold = s.cold := by unfold State.askRecall; (repeat' split) <;> simp [foldl_cold]
@[simp] theorem State.publishRegion_cold (s : State) (a1) : (State.publishRegion s a1).cold = s.cold := by unfold State.publishRegion; dsimp only; (repeat' split) <;> simp [foldl_cold]
@[simp] theorem State.recallComplete_cold (s : State) (a1) : (State.recallComplete s a1).cold = s.cold := by unfold State.recallComplete; (repeat' split) <;> simp [foldl_cold]
@[simp] theorem State.beginRecall_cold (s : State) (a1) (a2) (a3) : (State.beginRecall s a1 a2 a3).cold = s.cold := by unfold State.beginRecall; dsimp only; (repeat' split) <;> simp [foldl_cold]
@[simp] theorem State.recallAnswered_cold (s : State) (a1) (a2) : (State.recallAnswered s a1 a2).cold = s.cold := by unfold State.recallAnswered; dsimp only; (repeat' split) <;> simp [foldl_cold]
@[simp] theorem State.renameDraft_cold (s : State) (a1) (a2) : (State.renameDraft s a1 a2).cold = s.cold := rfl
@[simp] theorem State.regionPublishBy_cold (s : State) (a1) (a2) (a3) (a4) : (State.regionPublishBy s a1 a2 a3 a4).cold = s.cold := by unfold State.regionPublishBy; (repeat' split) <;> simp [foldl_cold]
@[simp] theorem State.regionWithdrawn_cold (s : State) (a1) (a2) (a3) : (State.regionWithdrawn s a1 a2 a3).cold = s.cold := by unfold State.regionWithdrawn; dsimp only; (repeat' split) <;> simp [foldl_cold]
@[simp] theorem State.regionReleased_cold (s : State) (a1) (a2) (a3) (a4) : (State.regionReleased s a1 a2 a3 a4).cold = s.cold := by unfold State.regionReleased; dsimp only; (repeat' split) <;> simp [foldl_cold]
@[simp] theorem State.recallTimeout_cold (s : State) (a1) (a2) (a3) : (State.recallTimeout s a1 a2 a3).cold = s.cold := by unfold State.recallTimeout; dsimp only; (repeat' split) <;> simp [foldl_cold]
@[simp] theorem State.backInvalidate_cold (s : State) (a1) (a2) (a3) (a4) : (State.backInvalidate s a1 a2 a3 a4).cold = s.cold := by unfold State.backInvalidate; dsimp only; (repeat' split) <;> simp [foldl_cold]
@[simp] theorem State.onRegionRead_cold (s : State) (a1) (a2) (a3) (a4) : (State.onRegionRead s a1 a2 a3 a4).cold = s.cold := by unfold State.onRegionRead; dsimp only; (repeat' split) <;> simp [foldl_cold]
@[simp] theorem State.gathered_cold (s : State) (a1) (a2) : (State.gathered s a1 a2).2.cold = s.cold := rfl
theorem State.gathered_cold_of (s : State) (a1) (a2) (u) (t) (h : (State.gathered s a1 a2) = (u, t)) : t.cold = s.cold := by have := State.gathered_cold s a1 a2; rw [h] at this; exact this
@[simp] theorem State.gather_cold (s : State) (a1) (a2) (a3) : (State.gather s a1 a2 a3).cold = s.cold := rfl
@[simp] theorem State.onRegionWrite_cold (s : State) (a1) (a2) (a3) (a4) : (State.onRegionWrite s a1 a2 a3 a4).cold = s.cold := by unfold State.onRegionWrite; dsimp only; (repeat' split) <;> simp [foldl_cold]
@[simp] theorem State.faultRegion_cold (s : State) (a1) : (State.faultRegion s a1).cold = s.cold := by simp [State.faultRegion, foldl_cold]
@[simp] theorem State.onRegionRecall_cold (s : State) (a1) (a2) : (State.onRegionRecall s a1 a2).cold = s.cold := by simp [State.onRegionRecall, foldl_cold]
theorem State.regionDest_cold (s : State) (a1) (a2) (a3) (a4) (t) (h : State.regionDest s a1 a2 a3 a4 = some t) : t.cold = s.cold := by
  unfold State.regionDest at h
  split at h
  · split at h
    · cases h; simp
    · cases h
  · cases h
@[simp] theorem State.runNmo_cold (s : State) (a1) (a2) (a3) : (State.runNmo s a1 a2 a3).2.2.cold = s.cold := by unfold State.runNmo; dsimp only; grind [State.cold, → State.regionDest_cold]
theorem State.runNmo_cold_of (s : State) (a1) (a2) (a3) (u) (w) (t) (h : (State.runNmo s a1 a2 a3) = (u, w, t)) : t.cold = s.cold := by have := State.runNmo_cold s a1 a2 a3; rw [h] at this; exact this
@[simp] theorem State.onNmo_cold (s : State) (a1) (a2) (a3) (a4) : (State.onNmo s a1 a2 a3 a4).cold = s.cold := by unfold State.onNmo; dsimp only; (repeat' split) <;> simp [foldl_cold]
@[simp] theorem State.takeVolume_cold (s : State) (a1) (a2) : (State.takeVolume s a1 a2).cold = s.cold := by unfold State.takeVolume; (repeat' split) <;> simp [foldl_cold]
@[simp] theorem State.onPagePut_cold (s : State) (a1) (a2) (a3) (a4) : (State.onPagePut s a1 a2 a3 a4).cold = s.cold := by unfold State.onPagePut; dsimp only; (repeat' split) <;> simp [foldl_cold]
@[simp] theorem State.trayPage_cold (s : State) (a1) (a2) (a3) : (State.trayPage s a1 a2 a3).cold = s.cold := by unfold State.trayPage; dsimp only; (repeat' split) <;> simp [foldl_cold]
@[simp] theorem State.modTrayExtent_cold (s : State) (a1) (a2) : (State.modTrayExtent s a1 a2).cold = s.cold := rfl
@[simp] theorem State.onClaim_cold (s : State) (a1) (a2) (a3) : (State.onClaim s a1 a2 a3).cold = s.cold := by unfold State.onClaim; dsimp only; (repeat' split) <;> simp [foldl_cold]
@[simp] theorem State.extentBack_cold (s : State) (a1) (a2) : (State.extentBack s a1 a2).cold = s.cold := by simp [State.extentBack, foldl_cold]
@[simp] theorem State.releaseAcked_cold (s : State) (a1) (a2) : (State.releaseAcked s a1 a2).cold = s.cold := by unfold State.releaseAcked; (repeat' split) <;> simp [foldl_cold]
@[simp] theorem State.capacityTaken_cold (s : State) (a1) (a2) (a3) : (State.capacityTaken s a1 a2 a3).cold = s.cold := by unfold State.capacityTaken; (repeat' split) <;> simp [foldl_cold]
@[simp] theorem State.capacityBack_cold (s : State) (a1) (a2) : (State.capacityBack s a1 a2).cold = s.cold := by unfold State.capacityBack; (repeat' (first | rfl | assumption | split | refine foldl_cold_of ?_ (fun _ _ => ?_) | refine elim_cold_of ?_ (fun _ => ?_))) <;> simp [foldl_cold]
@[simp] theorem State.ssdFails_cold (s : State) (a1) (a2) (a3) : (State.ssdFails s a1 a2 a3).cold = s.cold := by unfold State.ssdFails; dsimp only; (repeat' split) <;> simp [foldl_cold]
@[simp] theorem State.pairRebuilt_cold (s : State) : (State.pairRebuilt s).cold = s.cold := by unfold State.pairRebuilt; (repeat' split) <;> simp [foldl_cold]
@[simp] theorem State.poolAccess_cold (s : State) (a1) (a2) (a3) : (State.poolAccess s a1 a2 a3).cold = s.cold := by unfold State.poolAccess; dsimp only; (repeat' split) <;> simp [foldl_cold]
@[simp] theorem State.poolMem_cold (s : State) (a1) (a2) (a3) (a4) (a5) : (State.poolMem s a1 a2 a3 a4 a5).cold = s.cold := by unfold State.poolMem; dsimp only; (repeat' split) <;> simp [foldl_cold]
@[simp] theorem State.regionCmd_cold (s : State) (a1) (k : State → State) (h : ∀ s, (k s).cold = s.cold) :
    (State.regionCmd s a1 k).cold = s.cold := by
  unfold State.regionCmd
  split
  · exact State.live_cold _ _ h
  · refine State.serve_cold _ _ _ _ _ fun s _ => ?_
    split <;> simp [h]

end Sys2Proof.Machine
end

