-- ==== Sys2Proof/Laws/ColdDevice.lean ====
section
/-! SUPPORT. What leaves the cold part as it is (Laws/Cold.lean): one lemma per operation of the array, memory, identity, boot, management, power and scheduling. -/

set_option linter.unusedSimpArgs false
set_option linter.unnecessarySeqFocus false
set_option linter.unreachableTactic false
set_option linter.unusedTactic false
set_option linter.unusedVariables false

namespace Sys2Proof.Machine

/-! ### Array -/

@[simp] theorem State.arrayNote_cold (s : State) (a1) (a2) (a3) : (State.arrayNote s a1 a2 a3).cold = s.cold := by simp [State.arrayNote, foldl_cold]
@[simp] theorem State.modBank_cold (s : State) (a1) (a2) : (State.modBank s a1 a2).cold = s.cold := rfl
@[simp] theorem State.loseEntries_cold (s : State) (a1) (a2) (a3) (a4) : (State.loseEntries s a1 a2 a3 a4).cold = s.cold := by unfold State.loseEntries; dsimp only; (repeat' (first | rfl | assumption | split | refine foldl_cold_of ?_ (fun _ _ => ?_) | refine elim_cold_of ?_ (fun _ => ?_))) <;> simp [foldl_cold]
@[simp] theorem State.runHeld_cold (s : State) (a1) : (State.runHeld s a1).cold = s.cold := by unfold State.runHeld; (repeat' split) <;> simp [foldl_cold]
@[simp] theorem State.runPublish_cold (s : State) (a1) : (State.runPublish s a1).cold = s.cold := by unfold State.runPublish; (repeat' split) <;> simp [foldl_cold]
@[simp] theorem State.onUp_cold (s : State) (a1) (k : Port → State) (h : ∀ p, (k p).cold = s.cold) : (State.onUp s a1 k).cold = s.cold := by
  unfold State.onUp
  refine elim_cold_of rfl fun _ => ?_
  split <;> simp [h]
@[simp] theorem State.runSearch_cold (s : State) (a1) : (State.runSearch s a1).cold = s.cold := by unfold State.runSearch; (repeat' (first | rfl | assumption | split | refine foldl_cold_of ?_ (fun _ _ => ?_) | refine elim_cold_of ?_ (fun _ => ?_))) <;> simp [foldl_cold]
@[simp] theorem State.heldRun_cold (s : State) : (State.heldRun s).cold = s.cold := by unfold State.heldRun; dsimp only; (repeat' (first | rfl | assumption | split | refine foldl_cold_of ?_ (fun _ _ => ?_) | refine elim_cold_of ?_ (fun _ => ?_))) <;> simp [foldl_cold]
@[simp] theorem State.bankLost_cold (s : State) (a1) : (State.bankLost s a1).cold = s.cold := by unfold State.bankLost; dsimp only; (repeat' split) <;> simp [foldl_cold]
@[simp] theorem State.rebuildBank_cold (s : State) (a1) : (State.rebuildBank s a1).cold = s.cold := by unfold State.rebuildBank; (repeat' split) <;> simp [foldl_cold]
@[simp] theorem State.bankFault_cold (s : State) (a1) : (State.bankFault s a1).cold = s.cold := by unfold State.bankFault; dsimp only; (repeat' split) <;> simp [foldl_cold]
@[simp] theorem State.bankRebuilt_cold (s : State) (a1) : (State.bankRebuilt s a1).cold = s.cold := by unfold State.bankRebuilt; dsimp only; (repeat' (first | rfl | assumption | split | refine foldl_cold_of ?_ (fun _ _ => ?_))) <;> simp [foldl_cold]
@[simp] theorem State.mapShadow_cold (s : State) (a1) : (State.mapShadow s a1).cold = s.cold := rfl
@[simp] theorem State.loseAt_cold (s : State) (a1) (a2) : (State.loseAt s a1 a2).cold = s.cold := by simp [State.loseAt, foldl_cold]
@[simp] theorem State.dropShadowless_cold (s : State) (a1) : (State.dropShadowless s a1).cold = s.cold := by unfold State.dropShadowless; (repeat' (first | rfl | assumption | split | refine foldl_cold_of ?_ (fun _ _ => ?_) | refine elim_cold_of ?_ (fun _ => ?_))) <;> simp [foldl_cold]
@[simp] theorem State.compareEntries_cold (s : State) (a1) : (State.compareEntries s a1).cold = s.cold := by unfold State.compareEntries; dsimp only; (repeat' split) <;> simp [foldl_cold]
@[simp] theorem State.rowMismatch_cold (s : State) (a1) : (State.rowMismatch s a1).cold = s.cold := by unfold State.rowMismatch; dsimp only; (repeat' split) <;> simp [foldl_cold]
@[simp] theorem State.rowUpset_cold (s : State) (a1) : (State.rowUpset s a1).cold = s.cold := by unfold State.rowUpset; dsimp only; (repeat' split) <;> simp [foldl_cold]
@[simp] theorem State.shadowCompare_cold (s : State) (a1) : (State.shadowCompare s a1).cold = s.cold := by simp [State.shadowCompare, foldl_cold]
@[simp] theorem State.holeRemoval_cold (s : State) (a1) : (State.holeRemoval s a1).cold = s.cold := by unfold State.holeRemoval; (repeat' split) <;> simp [foldl_cold]
@[simp] theorem State.idleWithdraw_cold (s : State) (a1) : (State.idleWithdraw s a1).cold = s.cold := by unfold State.idleWithdraw; dsimp only; (repeat' split) <;> simp [foldl_cold]
@[simp] theorem State.discardCopy_cold (s : State) (a1) : (State.discardCopy s a1).cold = s.cold := by
  unfold State.discardCopy
  refine foldl_cold_of rfl fun s x => ?_
  split
  · exact foldl_cold_of rfl fun _ _ => by simp
  · rfl
@[simp] theorem State.copyVerify_cold (s : State) (a1) : (State.copyVerify s a1).cold = s.cold := by unfold State.copyVerify; dsimp only; (repeat' split) <;> simp [foldl_cold]

/-! ### Records -/

@[simp] theorem State.metaSectorFails_cold (s : State) (a1) (a2) (a3) : (State.metaSectorFails s a1 a2 a3).cold = s.cold := by
  unfold State.metaSectorFails
  extract_lets lo bad seqHit recHit dirHit tableHit shadowHit seqs recs dir tables s1 hit s2 s3 s4 s5 s6 s7
  have h1 : s1.cold = s.cold := rfl
  clear_value s1 hit
  have h2 : s2.cold = s.cold := by simp [s2, h1]
  clear_value s2
  have h3 : s3.cold = s.cold := foldl_cold_of h2 (fun _ _ => by simp)
  clear_value s3
  have h4 : s4.cold = s.cold := foldl_cold_of h3 (fun _ _ => foldl_cold_of rfl fun _ _ => by split <;> simp)
  clear_value s4
  have h5 : s5.cold = s.cold := foldl_cold_of (by simp [h4]) (fun _ _ => by simp)
  clear_value s5
  have h6 : s6.cold = s.cold := foldl_cold_of h5 (fun _ _ => by simp)
  clear_value s6
  have h7 : s7.cold = s.cold := by simp [s7, h6]
  clear_value s7
  split <;> simp [h7]

/-! ### Memory -/

@[simp] theorem State.memNote_cold (s : State) (a1) (a2) (a3) : (State.memNote s a1 a2 a3).cold = s.cold := by simp [State.memNote, foldl_cold]
@[simp] theorem State.losePages_cold (s : State) (a1) : (State.losePages s a1).cold = s.cold := by simp [State.losePages, foldl_cold]
@[simp] theorem State.loseChunks_cold (s : State) (a1) : (State.loseChunks s a1).cold = s.cold := by unfold State.loseChunks; (repeat' (first | rfl | assumption | split | refine foldl_cold_of ?_ (fun _ _ => ?_) | refine elim_cold_of ?_ (fun _ => ?_))) <;> simp [foldl_cold]
@[simp] theorem State.dropCached_cold (s : State) : (State.dropCached s).cold = s.cold := rfl
@[simp] theorem State.mapMirrors_cold (s : State) (a1) : (State.mapMirrors s a1).cold = s.cold := rfl
@[simp] theorem State.unwriteRows_cold (s : State) (a1) : (State.unwriteRows s a1).cold = s.cold := rfl
@[simp] theorem State.copyGone_cold (s : State) (a1) : (State.copyGone s a1).cold = s.cold := rfl
@[simp] theorem State.faultUnmirrored_cold (s : State) : (State.faultUnmirrored s).cold = s.cold := by simp [State.faultUnmirrored, foldl_cold]
@[simp] theorem State.copyWritten_cold (s : State) : (State.copyWritten s).cold = s.cold := rfl
@[simp] theorem State.rehomeSeqs_cold (s : State) (a1) : (State.rehomeSeqs s a1).cold = s.cold := by
  unfold State.rehomeSeqs
  exact foldl_cold_of rfl fun _ _ => by simp
@[simp] theorem State.moveChunkOut_cold (s : State) (a1) (a2) : (State.moveChunkOut s a1 a2).cold = s.cold := by unfold State.moveChunkOut; (repeat' split) <;> simp [foldl_cold]
@[simp] theorem State.evacuateGroup_cold (s : State) (a1) : (State.evacuateGroup s a1).cold = s.cold := by simp [State.evacuateGroup, foldl_cold]
@[simp] theorem State.shelfFails_cold (s : State) (a1) : (State.shelfFails s a1).cold = s.cold := by simp [State.shelfFails, foldl_cold]
@[simp] theorem State.readRefused_cold (s : State) (a1) (a2) : (State.readRefused s a1 a2).cold = s.cold := by unfold State.readRefused; (repeat' split) <;> simp [foldl_cold]

/-! ### Identity -/

@[simp] theorem State.openRefusal_cold (s : State) (a1) : (State.openRefusal s a1).cold = s.cold := by simp [State.openRefusal, foldl_cold]
@[simp] theorem State.drbgFails_cold (s : State) : (State.drbgFails s).cold = s.cold := by simp [State.drbgFails, foldl_cold]
@[simp] theorem State.drbgPasses_cold (s : State) : (State.drbgPasses s).cold = s.cold := rfl
@[simp] theorem State.brineDevice_cold (s : State) : (State.brineDevice s).cold = s.cold := by simp [State.brineDevice, foldl_cold]
@[simp] theorem State.commandBrine_cold (s : State) (a1) : (State.commandBrine s a1).cold = s.cold := by simp [State.commandBrine, foldl_cold]
@[simp] theorem State.sendEpoch_cold (s : State) (a1) (a2) : (State.sendEpoch s a1 a2).cold = s.cold := by
  unfold State.sendEpoch
  refine foldl_cold_of rfl fun s p => ?_
  (repeat' split) <;> simp
@[simp] theorem State.revokeFns_cold (s : State) (a1) : (State.revokeFns s a1).cold = s.cold := by
  unfold State.revokeFns
  refine foldl_cold_of rfl fun s p => ?_
  (repeat' split) <;> simp
@[simp] theorem State.scrubTenant_cold (s : State) (a1) : (State.scrubTenant s a1).cold = s.cold := rfl
@[simp] theorem State.openJtag_cold (s : State) : (State.openJtag s).cold = s.cold := by simp [State.openJtag, foldl_cold]
@[simp] theorem State.settleUnlock_cold (s : State) : (State.settleUnlock s).cold = s.cold := by unfold State.settleUnlock; (repeat' split) <;> simp [foldl_cold]
@[simp] theorem State.issueNonce_cold (s : State) (a1) : (State.issueNonce s a1).cold = s.cold := by unfold State.issueNonce; dsimp only; (repeat' split) <;> simp [foldl_cold]
@[simp] theorem State.lapseNonce_cold (s : State) : (State.lapseNonce s).cold = s.cold := by unfold State.lapseNonce; dsimp only; (repeat' split) <;> simp [foldl_cold]
@[simp] theorem State.dropPins_cold (s : State) (a1) : (State.dropPins s a1).cold = s.cold := rfl
@[simp] theorem State.spdm_cold (s : State) (a1) (a2) (a3) : (State.spdm s a1 a2 a3).cold = s.cold := rfl
@[simp] theorem State.spdmError_cold (s : State) (a1) (a2) : (State.spdmError s a1 a2).cold = s.cold := rfl
@[simp] theorem State.respond_cold (s : State) (a1) (k : State → Session → State) (h : ∀ s c, (k s c).cold = s.cold) :
    (State.respond s a1 k).cold = s.cold := by
  unfold State.respond
  split
  · rfl
  · extract_lets s1
    have h1 : s1.cold = s.cold := by unfold s1; split <;> simp
    (repeat' split) <;> simp [h, h1]
@[simp] theorem State.inSession_cold (s : State) (a1) (k : State → Session → State) (h : ∀ s c, (k s c).cold = s.cold) :
    (State.inSession s a1 k).cold = s.cold := by
  unfold State.inSession
  refine State.respond_cold _ _ _ fun s x => ?_
  split <;> simp [h]
@[simp] theorem State.spdmGetVersion_cold (s : State) (a1) (a2) : (State.spdmGetVersion s a1 a2).cold = s.cold := by unfold State.spdmGetVersion; dsimp only; (repeat' split) <;> simp [foldl_cold]
@[simp] theorem State.spdmCaps_cold (s : State) (a1) : (State.spdmCaps s a1).cold = s.cold := by unfold State.spdmCaps; grind [State.cold, State.respond_cold, State.spdm_cold]
@[simp] theorem State.spdmAlgos_cold (s : State) (a1) (a2) : (State.spdmAlgos s a1 a2).cold = s.cold := by unfold State.spdmAlgos; grind [State.cold, State.respond_cold, State.spdm_cold, State.spdmError_cold]
@[simp] theorem State.spdmLarge_cold (s : State) (a1) (a2) (a3) (a4) : (State.spdmLarge s a1 a2 a3 a4).cold = s.cold := rfl
@[simp] theorem State.spdmDigests_cold (s : State) (a1) : (State.spdmDigests s a1).cold = s.cold := by
  unfold State.spdmDigests
  refine State.respond_cold _ _ _ fun s x => ?_
  (try dsimp only)
  (repeat' split) <;> simp
@[simp] theorem State.spdmCert_cold (s : State) (a1) (a2) : (State.spdmCert s a1 a2).cold = s.cold := by
  unfold State.spdmCert
  refine State.respond_cold _ _ _ fun s x => ?_
  (try dsimp only)
  (repeat' split) <;> simp
@[simp] theorem State.spdmChallenge_cold (s : State) (a1) (a2) (a3) : (State.spdmChallenge s a1 a2 a3).cold = s.cold := by unfold State.spdmChallenge; grind [State.cold, State.respond_cold, State.spdmError_cold, State.spdm_cold]
@[simp] theorem State.spdmMeasure_cold (s : State) (a1) (a2) (a3) : (State.spdmMeasure s a1 a2 a3).cold = s.cold := by
  unfold State.spdmMeasure
  refine State.respond_cold _ _ _ fun s x => ?_
  (try dsimp only)
  (repeat' split) <;> simp
@[simp] theorem State.spdmExchange_cold (s : State) (a1) (a2) : (State.spdmExchange s a1 a2).cold = s.cold := by
  unfold State.spdmExchange
  refine State.respond_cold _ _ _ fun s _ => ?_
  dsimp only
  (repeat' split) <;> simp
@[simp] theorem State.spdmFinish_cold (s : State) (a1) (a2) (a3) : (State.spdmFinish s a1 a2 a3).cold = s.cold := by unfold State.spdmFinish; dsimp only; grind [State.cold, State.respond_cold, State.spdmError_cold, State.endSession_cold, State.modSession_cold, State.setKey_cold, State.spdm_cold]
@[simp] theorem State.spdmHeartbeat_cold (s : State) (a1) : (State.spdmHeartbeat s a1).cold = s.cold := by unfold State.spdmHeartbeat; grind [State.cold, State.inSession_cold, State.spdm_cold]
@[simp] theorem State.spdmUpdate_cold (s : State) (a1) : (State.spdmUpdate s a1).cold = s.cold := by
  unfold State.spdmUpdate
  refine State.inSession_cold _ _ _ fun s _ => ?_
  dsimp only
  (repeat' split) <;> simp
@[simp] theorem State.spdmEnd_cold (s : State) (a1) : (State.spdmEnd s a1).cold = s.cold := by simp [State.spdmEnd, foldl_cold]
@[simp] theorem State.spdmChunkOut_cold (s : State) (a1) (a2) : (State.spdmChunkOut s a1 a2).cold = s.cold := by unfold State.spdmChunkOut; dsimp only; grind [State.cold, State.respond_cold, State.spdmError_cold, State.spdm_cold]
@[simp] theorem State.spdmOther_cold (s : State) (a1) (a2) : (State.spdmOther s a1 a2).cold = s.cold := by unfold State.spdmOther; (repeat' split) <;> simp [foldl_cold]
@[simp] theorem State.deliverKey_cold (s : State) (a1) (a2) (a3) (a4) : (State.deliverKey s a1 a2 a3 a4).cold = s.cold := by unfold State.deliverKey; dsimp only; (repeat' split) <;> simp [foldl_cold]
@[simp] theorem State.withdrawKey_cold (s : State) (a1) (a2) : (State.withdrawKey s a1 a2).cold = s.cold := by unfold State.withdrawKey; dsimp only; (repeat' split) <;> simp [foldl_cold]
@[simp] theorem State.spdmRun_cold (s : State) (a1) (a2) : (State.spdmRun s a1 a2).cold = s.cold := by unfold State.spdmRun; (repeat' split) <;> simp [foldl_cold]
@[simp] theorem State.spdmChunkIn_cold (s : State) (a1) (a2) (a3) : (State.spdmChunkIn s a1 a2 a3).cold = s.cold := by unfold State.spdmChunkIn; dsimp only; grind [State.cold, State.respond_cold, State.spdm_cold, State.modSession_cold, State.spdmRun_cold]

/-! ### Boot -/

@[simp] theorem State.setFlash_cold (s : State) (a1) (a2) : (State.setFlash s a1 a2).cold = s.cold := by unfold State.setFlash; (repeat' split) <;> simp [foldl_cold]
@[simp] theorem State.bootRecord_cold (s : State) (a1) (a2) (a3) : (State.bootRecord s a1 a2 a3).cold = s.cold := rfl
@[simp] theorem State.bootKeys_cold (s : State) (a1) : (State.bootKeys s a1).cold = s.cold := by unfold State.bootKeys; dsimp only; (repeat' (first | rfl | assumption | split | refine foldl_cold_of ?_ (fun _ _ => ?_))) <;> simp [foldl_cold]
@[simp] theorem State.ownerChain_cold (s : State) (a1) : (State.ownerChain s a1).cold = s.cold := by unfold State.ownerChain; dsimp only; (repeat' split) <;> simp [foldl_cold]
@[simp] theorem State.bootSpares_cold (s : State) : (State.bootSpares s).cold = s.cold := by simp [State.bootSpares, foldl_cold]
@[simp] theorem State.repairIdentity_cold (s : State) : (State.repairIdentity s).cold = s.cold := by unfold State.repairIdentity; (repeat' split) <;> simp [foldl_cold]
@[simp] theorem State.flashGone_cold (s : State) (a1) : (State.flashGone s a1).cold = s.cold := by simp [State.flashGone, foldl_cold]
@[simp] theorem State.ucieUp_cold (s : State) (a1) (a2) (a3) : (State.ucieUp s a1 a2 a3).cold = s.cold := by unfold State.ucieUp; dsimp only; (repeat' (first | rfl | assumption | split | refine foldl_cold_of ?_ (fun _ _ => ?_))) <;> simp [foldl_cold]
@[simp] theorem State.resetEngines_cold (s : State) (a1) : (State.resetEngines s a1).cold = s.cold := by simp [State.resetEngines, foldl_cold]
@[simp] theorem State.cutPort_cold (s : State) (a1) : (State.cutPort s a1).cold = s.cold := by unfold State.cutPort; (repeat' split) <;> simp [foldl_cold]
@[simp] theorem State.fnReset_cold (s : State) (a1) : (State.fnReset s a1).cold = s.cold := by simp [State.fnReset, foldl_cold]
@[simp] theorem State.endDomain_cold (s : State) (a1) (a2) : (State.endDomain s a1 a2).cold = s.cold := by unfold State.endDomain; dsimp only; (repeat' split) <;> simp [foldl_cold]

/-! ### Mgmt -/

@[simp] theorem State.connect_cold (s : State) (a1) (a2) (a3) (a4) : (State.connect s a1 a2 a3 a4).cold = s.cold := by unfold State.connect; dsimp only; (repeat' split) <;> simp [foldl_cold]
@[simp] theorem State.idleClose_cold (s : State) (a1) : (State.idleClose s a1).cold = s.cold := by unfold State.idleClose; (repeat' split) <;> simp [foldl_cold]
@[simp] theorem State.clientClose_cold (s : State) (a1) : (State.clientClose s a1).cold = s.cold := by unfold State.clientClose; (repeat' split) <;> simp [foldl_cold]
@[simp] theorem State.unknownCommand_cold (s : State) (a1) (a2) (a3) : (State.unknownCommand s a1 a2 a3).cold = s.cold := by unfold State.unknownCommand; (repeat' split) <;> simp [foldl_cold]
@[simp] theorem State.serveRead_cold (s : State) (a1) (a2) (a3) (k : State → Bool → State) (h : ∀ s c, (k s c).cold = s.cold) :
    (State.serveRead s a1 a2 a3 k).cold = s.cold := by
  unfold State.serveRead
  split
  · split <;> simp [h]
  · split
    · split
      · split <;> simp [h]
      · rfl
    · exact State.serve_cold _ _ _ _ _ fun s c => h _ _
@[simp] theorem State.statusRead_cold (s : State) (a1) : (State.statusRead s a1).cold = s.cold := by unfold State.statusRead; (repeat' split) <;> simp [foldl_cold]
@[simp] theorem State.eventsFrom_cold (s : State) (a1) (a2) (a3) : (State.eventsFrom s a1 a2 a3).cold = s.cold := by unfold State.eventsFrom; dsimp only; (repeat' split) <;> simp [foldl_cold]
@[simp] theorem State.eventRead_cold (s : State) (a1) (a2) (a3) : (State.eventRead s a1 a2 a3).cold = s.cold := by simp [State.eventRead, foldl_cold]
@[simp] theorem State.traceRead_cold (s : State) (a1) (a2) : (State.traceRead s a1 a2).cold = s.cold := by unfold State.traceRead; grind [State.cold, State.serve_cold, State.reply_cold, State.emit_cold]
@[simp] theorem State.telemetryRead_cold (s : State) (a1) (a2) (a3) : (State.telemetryRead s a1 a2 a3).cold = s.cold := by unfold State.telemetryRead; grind [State.cold, State.reply_cold, State.serve_cold]
@[simp] theorem State.eraseSlot_cold (s : State) : (State.eraseSlot s).cold = s.cold := by simp [State.eraseSlot, foldl_cold]
@[simp] theorem State.holdLink_cold (s : State) (a1) (a2) : (State.holdLink s a1 a2).cold = s.cold := by unfold State.holdLink; (repeat' split) <;> simp [foldl_cold]
@[simp] theorem State.releaseLink_cold (s : State) (a1) (a2) : (State.releaseLink s a1 a2).cold = s.cold := by unfold State.releaseLink; (repeat' split) <;> simp [foldl_cold]
@[simp] theorem State.writeChunks_cold (s : State) (a1) (a2) : (State.writeChunks s a1 a2).cold = s.cold := by unfold State.writeChunks; dsimp only; (repeat' (first | rfl | assumption | split | refine foldl_cold_of ?_ (fun _ _ => ?_) | refine elim_cold_of ?_ (fun _ => ?_))) <;> simp [foldl_cold]
@[simp] theorem State.loadWeights_cold (s : State) (a1) (a2) (a3) : (State.loadWeights s a1 a2 a3).cold = s.cold := by unfold State.loadWeights; dsimp only; (repeat' split) <;> simp [foldl_cold]
@[simp] theorem State.releaseVolume_cold (s : State) (a1) (a2) : (State.releaseVolume s a1 a2).cold = s.cold := by unfold State.releaseVolume; (repeat' split) <;> simp [foldl_cold]
@[simp] theorem State.takeAddress_cold (s : State) (a1) : (State.takeAddress s a1).cold = s.cold := by unfold State.takeAddress; dsimp only; (repeat' split) <;> simp [foldl_cold]
@[simp] theorem State.setAddress_cold (s : State) (a1) (a2) : (State.setAddress s a1 a2).cold = s.cold := by unfold State.setAddress; (repeat' split) <;> simp [foldl_cold]

/-! ### Power -/

@[simp] theorem State.clockEvent_cold (s : State) : (State.clockEvent s).cold = s.cold := by simp [State.clockEvent, foldl_cold]
@[simp] theorem State.linkClockGone_cold (s : State) (a1) : (State.linkClockGone s a1).cold = s.cold := by simp [State.linkClockGone, foldl_cold]
@[simp] theorem State.reprice_cold (s : State) (a1) (a2) : (State.reprice s a1 a2).cold = s.cold := rfl
@[simp] theorem State.sensorEvents_cold (s : State) (a1) : (State.sensorEvents s a1).cold = s.cold := by simp [State.sensorEvents, foldl_cold]
@[simp] theorem State.endServed_cold (s : State) (a1) : (State.endServed s a1).cold = s.cold := by unfold State.endServed; (repeat' (first | rfl | assumption | split | refine foldl_cold_of ?_ (fun _ _ => ?_) | refine elim_cold_of ?_ (fun _ => ?_))) <;> simp [foldl_cold]
@[simp] theorem State.islandOut_cold (s : State) (a1) : (State.islandOut s a1).cold = s.cold := by unfold State.islandOut; (repeat' split) <;> simp [foldl_cold]

/-! ### Sched -/

@[simp] theorem State.sampleQueues_cold (s : State) : (State.sampleQueues s).cold = s.cold := by unfold State.sampleQueues; (repeat' split) <;> simp [foldl_cold]
@[simp] theorem State.endTick_cold (s : State) : (State.endTick s).cold = s.cold := by simp [State.endTick, foldl_cold]
@[simp] theorem State.tick_cold (s : State) : (State.tick s).cold = s.cold := by unfold State.tick; dsimp only; (repeat' split) <;> simp [foldl_cold]

end Sys2Proof.Machine
end

