-- ==== Sys2Proof/Laws/Plans.lean ====
section
/-! SUPPORT. What the planning of work leaves as it is: dispatching, ending passes at their page boundaries, moving reservations and making
calendars anew (R136, R143, R248) touch only requests, sequences' T1 reservations, passes, curds, calendars, queues, identifiers and the
owners that engines are charged with. Who needs a field of the rest across them cites `x_plan` and the projection of its field (`out_of_plan` ...). -/

namespace Sys2Proof.Machine

/-- What planning never touches: every field but those it works on, and the standing of every engine. -/
def State.plan (s : State) : State × List (Nat × Nat × EngineSt) :=
  ({ s with ids := 0, reqs := [], seqs := [], passes := [], curds := [], engines := [], calendar := [], queues := [],
            telemetry := State.reset.telemetry },
   s.engines.map fun e => (e.cluster, e.slot, e.st))

theorem State.now_of_plan {s t : State} (h : t.plan = s.plan) : t.now = s.now := congrArg (fun x => x.1.now) h
theorem State.out_of_plan {s t : State} (h : t.plan = s.plan) : t.out = s.out := congrArg (fun x => x.1.out) h
theorem State.power_of_plan {s t : State} (h : t.plan = s.plan) : t.power = s.power := congrArg (fun x => x.1.power) h
theorem State.boot_of_plan {s t : State} (h : t.plan = s.plan) : t.boot = s.boot := congrArg (fun x => x.1.boot) h
theorem State.faults_of_plan {s t : State} (h : t.plan = s.plan) : t.faults = s.faults := congrArg (fun x => x.1.faults) h
theorem State.rechecks_of_plan {s t : State} (h : t.plan = s.plan) : t.rechecks = s.rechecks := congrArg (fun x => x.1.rechecks) h
theorem State.recs_of_plan {s t : State} (h : t.plan = s.plan) : t.recs = s.recs := congrArg (fun x => x.1.recs) h
theorem State.dir_of_plan {s t : State} (h : t.plan = s.plan) : t.dir = s.dir := congrArg (fun x => x.1.dir) h
theorem State.staging_of_plan {s t : State} (h : t.plan = s.plan) : t.staging = s.staging := congrArg (fun x => x.1.staging) h
theorem State.txns_of_plan {s t : State} (h : t.plan = s.plan) : t.txns = s.txns := congrArg (fun x => x.1.txns) h
theorem State.groups_of_plan {s t : State} (h : t.plan = s.plan) : t.groups = s.groups := congrArg (fun x => x.1.groups) h
theorem State.island_of_plan {s t : State} (h : t.plan = s.plan) : t.island = s.island := congrArg (fun x => x.1.island) h
theorem State.engines_of_plan {s t : State} (h : t.plan = s.plan) :
    t.engines.map (fun e => (e.cluster, e.slot, e.st)) = s.engines.map fun e => (e.cluster, e.slot, e.st) := congrArg Prod.snd h

theorem foldl_plan {α : Type} (f : State → α → State) (h : ∀ s a, (f s a).plan = s.plan) :
    ∀ (l : List α) (s : State), (l.foldl f s).plan = s.plan := by
  intro l
  induction l with
  | nil => intro s; rfl
  | cons a l ih => intro s; rw [List.foldl_cons, ih, h]

/-- A change of engines that leaves every standing leaves the plan. -/
theorem plan_of_engines {s : State} {es : List Engine} (h : es.map (fun e => (e.cluster, e.slot, e.st)) = s.engines.map fun e => (e.cluster, e.slot, e.st)) :
    ({ s with engines := es } : State).plan = s.plan := by simp only [State.plan, h]

theorem map_standing (p : Engine → Bool) (g : Engine → Engine) (h : ∀ e, (g e).cluster = e.cluster ∧ (g e).slot = e.slot ∧ (g e).st = e.st)
    (l : List Engine) : (mapIf p g l).map (fun e => (e.cluster, e.slot, e.st)) = l.map fun e => (e.cluster, e.slot, e.st) := by
  simp only [mapIf, List.map_map]
  refine List.map_congr_left fun e _ => ?_
  simp only [Function.comp]
  split
  · rw [(h e).1, (h e).2.1, (h e).2.2]
  · rfl

/-! ### Operations -/

@[simp] theorem State.modReq_plan (s : State) (a) (b) : (s.modReq a b).plan = s.plan := rfl
@[simp] theorem State.modSeq_plan (s : State) (a) (b) : (s.modSeq a b).plan = s.plan := rfl
@[simp] theorem State.modPass_plan (s : State) (a) (b) : (s.modPass a b).plan = s.plan := rfl
@[simp] theorem State.modCurd_plan (s : State) (a) (b) : (s.modCurd a b).plan = s.plan := rfl
@[simp] theorem State.bumpId_plan (s : State) : s.bumpId.plan = s.plan := rfl
@[simp] theorem State.markEnd_plan (s : State) (a) (b) (c) (d) : (s.markEnd a b c d).plan = s.plan := rfl
@[simp] theorem State.setPart_plan (s : State) (a) (b) (c) : (s.setPart a b c).plan = s.plan := rfl
@[simp] theorem State.dropCurd_plan (s : State) (a) : (s.dropCurd a).plan = s.plan := rfl
@[simp] theorem State.leaveCurd_plan (s : State) (a) (b) : (s.leaveCurd a b).plan = s.plan := rfl
@[simp] theorem State.markCurd_plan (s : State) (a) : (s.markCurd a).plan = s.plan := rfl
@[simp] theorem State.idleRows_plan (s : State) (a) (b) (c) : (s.idleRows a b c).plan = s.plan := rfl

theorem State.modEngine_plan (s : State) (a b : Nat) (g : Engine → Engine)
    (h : ∀ e, (g e).cluster = e.cluster ∧ (g e).slot = e.slot ∧ (g e).st = e.st) : (s.modEngine a b g).plan = s.plan :=
  plan_of_engines (map_standing _ _ h _)

@[simp] theorem State.takeEngine_plan (s : State) (a) (b) (c) : (s.takeEngine a b c).plan = s.plan :=
  State.modEngine_plan _ _ _ _ fun e => by split <;> exact ⟨rfl, rfl, rfl⟩

@[simp] theorem State.scrubMembers_plan (s : State) (p : Pass) (ts : List Nat) : (s.scrubMembers p ts).plan = s.plan := by
  apply foldl_plan
  exact fun s _ => s.modEngine_plan _ _ _ fun _ => ⟨rfl, rfl, rfl⟩

@[simp] theorem State.brineIdle_plan (s : State) : s.brineIdle.plan = s.plan := by
  refine plan_of_engines ?_
  rw [List.map_map]
  refine List.map_congr_left fun e _ => ?_
  simp only [Function.comp]
  split <;> rfl

@[simp] theorem State.bookBrine_plan (s : State) (p : Pass) : (s.bookBrine p).plan = s.plan := by
  have h := map_standing (fun e => e.cluster == p.cluster && p.engines.contains e.slot)
    (fun (e : Engine) => { e with dirty := [], brined := s.now }) (fun _ => ⟨rfl, rfl, rfl⟩) s.engines
  simp only [State.bookBrine, State.plan, h]

@[simp] theorem State.bookCurd_plan (s : State) (a) (b) (c) (d) (e) (f) (g) : (s.bookCurd a b c d e f g).plan = s.plan := by
  unfold State.bookCurd; dsimp only; split <;> rfl

@[simp] theorem State.runCurd_plan (s : State) (a) (b) (c) (d) : (s.runCurd a b c d).plan = s.plan := by
  simp only [State.runCurd, State.modCurd_plan, State.bookCurd_plan]; rfl

@[simp] theorem State.endCurd_plan (s : State) (c : Nat) : (s.endCurd c).plan = s.plan := by
  unfold State.endCurd; dsimp only
  rw [State.dropCurd_plan]
  have passes : ∀ (t : State) ps, ({ t with passes := ps } : State).plan = t.plan := fun _ _ => rfl
  rw [passes]
  split
  · cases s.passes.find? fun p => p.curd == some c
    · rfl
    · exact State.bookBrine_plan _ _
  · rfl

@[simp] theorem State.dropIdle_plan (s : State) (c : Nat) : (s.dropIdle c).plan = s.plan := by
  unfold State.dropIdle; split <;> simp

@[simp] theorem State.startAlone_plan (s : State) (a) (b) (c) (d) (e) (f) (g) : (s.startAlone a b c d e f g).plan = s.plan := by
  simp only [State.startAlone, State.modReq_plan]
  apply foldl_plan
  intros; rfl

@[simp] theorem State.startParts_plan (s : State) (r : Req) : (s.startParts r).plan = s.plan := by
  unfold State.startParts
  split
  · rfl
  · split
    · rfl
    · apply foldl_plan
      intro s a
      dsimp only
      split <;> simp

@[simp] theorem State.goAlone_plan (s : State) (x : Member) : (s.goAlone x).plan = s.plan := by
  unfold State.goAlone; dsimp only; split <;> simp

@[simp] theorem State.closeCurd_plan (s : State) (c : Curd) : (s.closeCurd c).plan = s.plan := by
  unfold State.closeCurd
  split
  · simp
  · split
    · simp
    · dsimp only
      split
      · simp
      · split
        · rw [foldl_plan _ fun s a => s.goAlone_plan a]; simp
        · rw [foldl_plan _ fun s a => s.goAlone_plan a]; simp

@[simp] theorem State.beginCurd_plan (s : State) (c : Curd) : (s.beginCurd c).plan = s.plan := by
  unfold State.beginCurd; dsimp only
  split
  · simp
  · split
    · rfl
    · rw [foldl_plan _ fun s k => s.takeEngine_plan _ _ _, foldl_plan _ fun s x => s.markCurd_plan x]
      apply foldl_plan
      intros; rfl

@[simp] theorem State.placeQueued_plan (s : State) (id : Nat) : (s.placeQueued id).plan = s.plan := by
  unfold State.placeQueued
  split
  · rfl
  · split <;> simp

@[simp] theorem State.dispatch_plan (s : State) : s.dispatch.plan = s.plan := by
  unfold State.dispatch State.placeWork; dsimp only
  rw [State.brineIdle_plan]
  refine foldl_plan _ (fun s k => ?_) _ _
  rw [foldl_plan _ fun s p => s.placeQueued_plan _, foldl_plan _ fun s c => s.beginCurd_plan c]

@[simp] theorem State.settlePart_plan (s : State) (a) (b) (c) : (s.settlePart a b c).plan = s.plan := by
  unfold State.settlePart; split <;> (try split) <;> simp

@[simp] theorem State.settleAttend_plan (s : State) (id : Nat) : (s.settleAttend id).plan = s.plan := by
  unfold State.settleAttend
  split
  · rfl
  · split
    · rfl
    · exact (foldl_plan _ (fun s a => s.settlePart_plan _ _ _) _ _).trans rfl

@[simp] theorem State.pageBoundary_plan (s : State) (id : Nat) : (s.pageBoundary id).plan = s.plan := by
  unfold State.pageBoundary
  split
  · rfl
  · dsimp only
    split
    · rfl
    · rw [State.dispatch_plan, foldl_plan _ fun s k => s.settleAttend_plan k]
      split
      · rfl
      · rw [State.dropIdle_plan, State.scrubMembers_plan, foldl_plan _ fun s y => s.setPart_plan _ _ _, State.idleRows_plan]

@[simp] theorem State.endAttend_plan (s : State) (a) (b) (c) (d) : (s.endAttend a b c d).plan = s.plan := by
  simp [State.endAttend]

@[simp] theorem State.endReq_plan (s : State) (r : Req) (a) (b) (c) : (s.endReq r a b c).plan = s.plan := by
  unfold State.endReq; split
  · rfl
  · split <;> simp

@[simp] theorem State.endAll_plan (s : State) (ids : List Nat) (st : Nat) : (s.endAll ids st).plan = s.plan := by
  apply foldl_plan
  intro s a
  split <;> simp

@[simp] theorem State.rescindZero_plan (n : Nat) (s : State) : (State.rescindZero n s).plan = s.plan := by
  induction n generalizing s with
  | zero => rfl
  | succ n ih =>
    unfold State.rescindZero; dsimp only
    split
    · rfl
    · rw [ih, State.endReq_plan]

@[simp] theorem State.shrinkT1_plan (n : Nat) (s : State) : (State.shrinkT1 n s).plan = s.plan := by
  induction n generalizing s with
  | zero => rfl
  | succ n ih =>
    unfold State.shrinkT1; dsimp only
    split
    · rfl
    · rw [ih, State.modSeq_plan]

@[simp] theorem State.shrinkRates_plan (n : Nat) (s : State) (e : Nat) : (State.shrinkRates n s e).plan = s.plan := by
  induction n generalizing s with
  | zero => rfl
  | succ n ih =>
    unfold State.shrinkRates; dsimp only
    split
    · rfl
    · split
      · rfl
      · rw [ih]; rfl

/-- Making the calendars anew (R248). -/
@[simp] theorem State.recompute_plan (s : State) : s.recompute.plan = s.plan := by
  unfold State.recompute; dsimp only
  rw [foldl_plan _ fun s e => State.shrinkRates_plan _ s e, State.shrinkT1_plan, State.rescindZero_plan]

@[simp] theorem State.replaceResv_plan (s : State) (a) (b) (c) : (s.replaceResv a b c).plan = s.plan := by
  unfold State.replaceResv
  split
  · rfl
  · split
    · rfl
    · dsimp only
      split
      · split
        · rfl
        · simp
      · simp

@[simp] theorem State.moveResvs_plan (s : State) (a) (b) (c) : (s.moveResvs a b c).plan = s.plan := by
  apply foldl_plan
  intro s x
  split <;> simp

@[simp] theorem State.endPasses_plan (s : State) (a) (b) : (s.endPasses a b).plan = s.plan := by
  apply foldl_plan
  intro s p
  rw [State.pageBoundary_plan]
  apply foldl_plan
  intros; rfl

end Sys2Proof.Machine
end

