-- ==== Sys2Proof/Machine/Pages.lean ====
section
/-! DEFINITION. What a host reads in a function aperture: the time page, the capability page, and 0 everywhere else (R176 to R179).
The table has no row for such a read, which changes nothing; these are views of the state. -/

namespace Sys2Proof.Machine

/-- State codes of the time page (R179, "Function lifecycle"). -/
def stateCode : FnCode → Nat
  | .unattached => 0
  | .ready => 1
  | .draining => 2
  | .drainingHeld => 3
  | .revoked => 4
  | .absent => 5

/-- The capability page of a function (R178). -/
def State.capabilityPage (s : State) (f : Fn) : Nat :=
  let i := s.image
  1 + 0x9608 * 2 ^ 16 + Config.stepping % 256 * 2 ^ 32 + 7 * 2 ^ 40 + f.fn % 1024 * 2 ^ 48 + f.group % 4 * 2 ^ 58
    + i.firmware % 2 ^ 32 * 2 ^ 64 + 470 * 2 ^ 96 + min i.models.length 255 * 2 ^ 112 + s.boot.bootEpoch % 2 ^ 32 * 2 ^ 128
    + s.params.directBytes % 2 ^ 40 * 2 ^ 192

/-- The time page of a function (R179). -/
def State.timePageOf (s : State) (f : Fn) : Nat :=
  s.timePage % 2 ^ 64 + f.k % 2 ^ 32 * 2 ^ 64 + stateCode f.code * 2 ^ 96 + f.attachStatus % 256 * 2 ^ 104
    + f.abortCount % 65536 * 2 ^ 112 + min f.staleStamps (2 ^ 32 - 1) * 2 ^ 128

/-- An aligned 8-byte read of an aperture over a module group; `none` where no group in service carries it (R176, R177). -/
def State.apertureRead (s : State) (group fn off : Nat) : Option Nat :=
  if !s.inService ∨ !s.faults.groupsUp.contains group ∨ off % 8 ≠ 0 ∨ 0x10000 ≤ off then none
  else match s.fn? fn with
    | none => some 0
    | some f =>
      if f.group ≠ group then some 0
      else if 0x5000 ≤ off ∧ off < 0x6000 then some (bits (s.timePageOf f) (8 * (off - 0x5000)) 64)
      else if 0x6000 ≤ off ∧ off < 0x7000 then some (bits (s.capabilityPage f) (8 * (off - 0x6000)) 64)
      else some 0

end Sys2Proof.Machine
end

