-- ==== Sys2Proof/WellFormed.lean ====
section
/-! DEFINITION. Well-formed commands: every operand fits the field that the manual's maps give it, so that a command term
spells something that can reach the block. Each check has a name; `Instr.wf` conjoins those that a command's operands need.
Values that a field can hold and the manual refuses are well-formed: their refusal is the command's effect. -/

namespace Sys2Proof

/-- A number fits `w` bits. -/
def fits (w n : Nat) : Bool := decide (n < 2 ^ w)

/-! ### Descriptors (R181, R186, R188, R190 to R195) -/

/-- Module groups are 0 to 3 and functions 0 to 1,023 (R176). -/
def groupFnWf (group fn : Nat) : Bool := fits 2 group && fits 10 fn

def Sub.wf (x : Sub) : Bool :=
  groupFnWf x.group x.fn && fits 15 x.seq && fits 1 x.phase && fits 3 x.cls && fits 32 x.tag && fits 64 x.deadline

def FlowKeyF.wf (k : FlowKeyF) : Bool :=
  fits 2 k.flow && fits 2 k.maskMode && fits 8 k.zone && fits 8 k.protocol && fits 16 k.srcPort && fits 16 k.dstPort
    && fits 128 k.srcAddr && fits 128 k.dstAddr

def AttachFnF.wf (f : AttachFnF) : Bool := fits 2 f.version && fits 5 f.ringLog2 && fits 64 f.ringBase

def FenceF.wf (f : FenceF) : Bool := fits 1 f.mode && fits 32 f.seq

def OpenF.wf (f : OpenF) : Bool :=
  fits 8 f.model && fits 2 f.layout && fits 5 f.fmt && fits 5 f.floor && fits 3 f.seqClass && fits 8 f.horizon
    && fits 20 f.window && fits 8 f.globals && fits 32 f.t1res && f.key.wf

def ForkF.wf (f : ForkF) : Bool := fits 32 f.parent && fits 20 f.n && fits 32 f.t1res && f.key.wf

def BlocksF.wf (f : BlocksF) : Bool :=
  fits 32 f.seq && fits 32 f.expected && fits 18 f.firstBlock && fits 7 f.blockCount && fits 64 f.blockList
    && fits 64 f.pageBase && fits 32 f.pageStride

def RangeF.wf (f : RangeF) : Bool :=
  fits 32 f.seq && fits 18 f.firstBlock && fits 19 f.blockCount && fits 8 f.firstLayer && fits 9 f.layerCount && fits 1 f.target

def FetchF.wf (f : FetchF) : Bool :=
  fits 32 f.seq && fits 18 f.firstBlock && fits 7 f.blockCount && fits 8 f.firstLayer && fits 9 f.layerCount && fits 1 f.form
    && fits 64 f.buffer && fits 40 f.bufferLen

def PairF.wf (p : PairF) : Bool := fits 19 p.depth

/-- pair_count has 4 bits. -/
def LookupHashF.wf (f : LookupHashF) : Bool := fits 8 f.model && fits 4 f.pairs.length && f.pairs.all PairF.wf

def LookupTokenF.wf (f : LookupTokenF) : Bool :=
  fits 8 f.model && fits 16 f.tokenBlocks && fits 19 f.startDepth && fits 64 f.tokenAddr && fits 64 f.resultAddr

def LookupFlowF.wf (f : LookupFlowF) : Bool :=
  fits 3 f.maxMatches && fits 64 f.resultAddr && fits 2 f.family && fits 6 f.dscp && fits 8 f.zone && fits 8 f.protocol
    && fits 16 f.srcPort && fits 16 f.dstPort && fits 5 f.leadCount && fits 128 f.srcAddr && fits 128 f.dstAddr
    && fits 128 f.leadBytes

def AttachPrefixF.wf (f : AttachPrefixF) : Bool := fits 32 f.seq && fits 20 f.depth && fits 64 f.handle

def PublishF.wf (f : PublishF) : Bool := fits 32 f.seq && fits 20 f.depth && fits 64 f.digestAddr

def AttendF.wf (f : AttendF) : Bool :=
  fits 32 f.seq && fits 8 f.layer && fits 6 f.kvFirst && fits 7 f.kvCount && fits 4 f.qTokens && fits 2 f.qFormat
    && fits 1 f.oFormat && fits 22 f.qPos && fits 2 f.curdMode && fits 8 f.curdExpect && fits 5 f.keyPrecision
    && fits 16 f.qSegment && fits 23 f.windowTokens && fits 23 f.sinkTokens && fits 19 f.blockLo && fits 19 f.blockHi
    && fits 64 f.query && fits 64 f.result && fits 40 f.resultLen

def LoadTableF.wf (f : LoadTableF) : Bool :=
  fits 16 f.tableId && fits 8 f.model && fits 5 f.fmt && fits 8 f.layerFirst && fits 9 f.layerCount && fits 64 f.image

def RetireF.wf (f : RetireF) : Bool := fits 16 f.tableId

def WeightsF.wf (f : WeightsF) : Bool := fits 8 f.model && fits 64 f.offset && fits 32 f.length && fits 64 f.buffer

def MemOpF.wf (m : MemOpF) : Bool := fits 2 m.kind && fits 32 m.handle && fits 64 m.address && fits 40 m.length

def ReduceF.wf (f : ReduceF) : Bool :=
  f.dest.wf && fits 1 f.outFormat && fits 1 f.srcKind && fits 5 f.srcCount && fits 32 f.count && fits 10 f.headDim
    && fits 64 f.srcBase && fits 40 f.srcStride

def Desc.wf : Desc → Bool
  | .attachFn f => f.wf
  | .detach m => fits 1 m
  | .fence f => f.wf
  | .openSeq f => f.wf
  | .closeSeq h => fits 32 h
  | .forkSeq f => f.wf
  | .truncate f => f.wf
  | .replace f => f.wf
  | .append f => f.wf
  | .pinRange f => f.wf
  | .unpinRange f => f.wf
  | .prefetchHint f => f.wf
  | .lookupHash f => f.wf
  | .lookupToken f => f.wf
  | .lookupFlow f => f.wf
  | .attachPrefix f => f.wf
  | .publish f => f.wf
  | .withdraw h => fits 64 h
  | .fetch f => f.wf
  | .attend f => f.wf
  | .tableLoad f => f.wf
  | .tableSelect f => f.wf
  | .tableExport f => f.wf
  | .retire f => f.wf
  | .fill f => f.dst.wf
  | .copy f => f.a.wf && f.b.wf
  | .compare f => f.a.wf && f.b.wf
  | .reduceSum f => f.wf
  | .reduceMax f => f.wf
  | .lseMerge f => f.wf
  | .weights f => f.wf
  | .invalidForm o => fits 8 o
  | .unknown o => fits 8 o

/-! ### Frames and ports (R252, R254, R261) -/

/-- Asvis links are 0 to 95 (R249). -/
def linkWf (l : Nat) : Bool := decide (l < 96)

/-- Link clusters are 0 to 23. -/
def clusterWf (c : Nat) : Bool := decide (c < 24)

def PortId.wf : PortId → Bool
  | .asvis l => linkWf l
  | .cxl c => clusterWf c
  | .nvme c p => clusterWf c && fits 1 p

def Frame.wf (f : Frame) : Bool :=
  fits 2 f.version && fits 3 f.cls && fits 12 f.src && fits 12 f.dst && fits 10 f.fn && fits 12 f.tenant && fits 10 f.domain
    && fits 2 f.keyKind && fits 8 f.status && fits 16 f.keyEpoch && fits 64 f.frameSeq && fits 32 f.xid && fits 64 f.object
    && fits 32 f.offset && fits 64 f.aux

def HelloF.wf (f : HelloF) : Bool := fits 3 f.versions && fits 12 f.device && fits 32 f.bootEpoch

/-- A directory message names a domain, depths of at most 2^18 blocks, and members of the store domain (R45, R61). -/
def DirKeyF.wf (k : DirKeyF) : Bool :=
  fits 10 k.domain && fits 20 k.depth && fits 5 k.fmt && fits 64 k.parent && fits 20 k.parentDepth && fits 12 k.holder && fits 12 k.publisher

/-! ### Management and power -/

/-- Image records fit their fields where the block keeps them (R359, R362). -/
def Image.wf (i : Image) : Bool := fits 32 i.securityVersion && fits 32 i.firmware && i.homeTable.all (fits 12)

def Token.wf (t : Token) : Bool := fits 8 t.layout && fits 8 t.scope

def Transport.wf : Transport → Bool
  | .mgmt _ => true
  | .i3c => true
  | .asvis l => linkWf l
  | .cxl c => clusterWf c
  | .ucie g => fits 2 g

def SpdmRequest.wf : SpdmRequest → Bool
  | .getVersion v => fits 16 v
  | .getCapabilities => true
  | .negotiateAlgorithms _ => true
  | .getDigests => true
  | .getCertificate slot => fits 4 slot
  | .challenge slot _ => fits 8 slot
  | .getMeasurements index _ => fits 8 index
  | .keyExchange _ => true
  | .finish _ _ => true
  | .heartbeat => true
  | .keyUpdate => true
  | .endSession => true
  | .modelKeyDeliver _ _ _ => true
  | .modelKeyWithdraw _ => true
  | .other code => fits 8 code

def ChunkEnd.wf : ChunkEnd → Bool
  | .more => true
  | .last m => m.wf

/-- Dynamic and static I3C addresses have 7 bits (R387). -/
def i3cWf (a : Nat) : Bool := fits 7 a

/-- Stacks are 0 to 11. -/
def stackWf (n : Nat) : Bool := decide (n < 12)

/-- Engines: cluster 0 to 11, physical slot 0 to 15. -/
def engineWf (c p : Nat) : Bool := stackWf c && fits 4 p

/-- There are nine SHA/HMAC engines (R339). -/
def SelfCheck.wf : SelfCheck → Bool
  | .hash a b _ _ => decide (a ≤ 8 ∧ b ≤ 8)
  | _ => true

/-- Stacks, sectors and shelf grains of a finding are there (R282, R343). -/
def ReadFault.wf : ReadFault → Bool
  | .line stack _ sector _ => stackWf stack && fits 5 sector
  | .tag stack _ _ sector => stackWf stack && fits 5 sector
  | .shelf grain => fits 14 grain
  | .refused _ _ => true
  | .lane unit n => fits 16 unit && fits 4 n

/-- A physical lane of a cluster is 0 to 8 (R250). -/
def LaneFix.wf (x : LaneFix) : Bool := decide (x.lane ≤ 8)

/-- One HDM line is 64 bytes, and a 64-bit host address names fewer than 2^58 of them (R197). -/
def lineWf (line : Nat) (data : Bytes) : Bool := fits 58 line && data.length == 64

/-- The operands of a command fit their fields. -/
def Instr.wf : Instr → Bool
  | .attachFunction sub f => sub.wf && f.wf
  | .detachFunction sub m => sub.wf && fits 1 m
  | .fence sub f => sub.wf && f.wf
  | .openSequence sub f => sub.wf && f.wf
  | .closeSequence sub h => sub.wf && fits 32 h
  | .forkSequence sub f => sub.wf && f.wf
  | .editBlocksTruncate sub f => sub.wf && f.wf
  | .editBlocksReplace sub f => sub.wf && f.wf
  | .appendBlocks sub f => sub.wf && f.wf
  | .sequenceCommit _ => true
  | .pinAfterWait _ => true
  | .pinRange sub f => sub.wf && f.wf
  | .unpinRange sub f => sub.wf && f.wf
  | .lookupPrefixHashForm sub f => sub.wf && f.wf
  | .lookupPrefixTokenForm sub f => sub.wf && f.wf
  | .lookupPrefixFlowForm sub f => sub.wf && f.wf
  | .attachPrefix sub f => sub.wf && f.wf
  | .publishPrefix sub f => sub.wf && f.wf
  | .readAndRekeyEnd _ found c => found.all (·.wf) && c.wf
  | .withdrawPrefix sub h => sub.wf && fits 64 h
  | .fetchPages sub f => sub.wf && f.wf
  | .prefetchHint sub f => sub.wf && f.wf
  | .attend sub f => sub.wf && f.wf
  | .loadTableLoad sub f => sub.wf && f.wf
  | .loadTableSelect sub f => sub.wf && f.wf
  | .loadTableExport sub f => sub.wf && f.wf
  | .retireTable sub f => sub.wf && f.wf
  | .fill sub f => sub.wf && f.dst.wf
  | .copy sub f => sub.wf && f.a.wf && f.b.wf
  | .compare sub f => sub.wf && f.a.wf && f.b.wf
  | .reduceSum sub f => sub.wf && f.wf
  | .reduceMax sub f => sub.wf && f.wf
  | .lseMerge sub f => sub.wf && f.wf
  | .fetchWeights sub f => sub.wf && f.wf
  | .unknownOpcode sub o => sub.wf && fits 8 o
  | .abortByTag g fn a t => groupFnWf g fn && fits 16 a && fits 32 t
  | .abortBySeqRange g fn a first count => groupFnWf g fn && fits 16 a && fits 15 first && fits 16 count
  | .abortAll g fn a => groupFnWf g fn && fits 16 a
  | .apertureWrite g fn off _ => groupFnWf g fn && fits 16 off
  | .drainGraceEnd fn => fits 10 fn
  | .shutdownEnd fn => fits 10 fn
  | .fenceComplete _ => true
  | .curdOffer _ _ => true
  | .curdWindowEnd _ => true
  | .queryBlockArrival _ _ _ => true
  | .walkBlock _ found => found.all (·.wf)
  | .partEnd _ _ => true
  | .curdPassEnd _ => true
  | .passYield _ => true
  | .passResume _ slot found => fits 4 slot && found.all (·.wf)
  | .prefetchArrival _ _ b l _ => fits 18 b && fits 8 l
  | .stagingTtlEnd _ => true
  | .tierMoveEnd _ _ => true
  | .pinRelease i v => fits 24 i && fits 32 v
  | .ripeningSweep _ _ l => fits 32 l
  | .deadlineReached _ => true
  | .shadowCompare l => l.all fun x => decide (x.bank < 66)
  | .bankRebuildEnd b => decide (b < 66)
  | .holeRemoval t => fits 4 t
  | .idleWithdraw _ => true
  | .copyVerify x => x.found.all (·.wf) && x.check.wf
  | .decodeRecheck _ l _ => fits 8 l
  | .memberUnreachable d => fits 12 d
  | .hello l f => linkWf l && f.wf
  | .spdmFrame l _ => linkWf l
  | .config l fr f => linkWf l && fr.wf && f.credits.all (fits 32)
  | .keepalive l fr => linkWf l && fr.wf
  | .keepaliveInterval l => linkWf l
  | .keepaliveTimeout l => linkWf l
  | .credit l fr => linkWf l && fr.wf
  | .replay l fr => linkWf l && fr.wf
  | .epoch l fr => linkWf l && fr.wf
  | .pageGet l x => linkWf l && x.fr.wf && x.found.all (·.wf)
  | .pageData l fr _ => linkWf l && fr.wf
  | .pagePut l fr _ => linkWf l && fr.wf
  | .putDone l fr => linkWf l && fr.wf
  | .tableGet l fr => linkWf l && fr.wf
  | .tableData l fr x => linkWf l && fr.wf && x.check.wf
  | .dirPublish l fr k => linkWf l && fr.wf && k.wf
  | .dirLookup l fr _ ps => linkWf l && fr.wf && ps.all PairF.wf
  | .dirAttach l fr => linkWf l && fr.wf
  | .dirRelease l fr => linkWf l && fr.wf
  | .dirWithdrawn l fr _ => linkWf l && fr.wf
  | .withdrawNotice l fr => linkWf l && fr.wf
  | .dirAnswer l fr k => linkWf l && fr.wf && k.wf
  | .aslResponseTimeout x => fits 32 x
  | .extentOffer l fr => linkWf l && fr.wf
  | .extentClaim l fr => linkWf l && fr.wf
  | .extentRelease l fr => linkWf l && fr.wf
  | .extentDone l fr => linkWf l && fr.wf
  | .addCapacity c _ _ _ => clusterWf c
  | .releaseCapacity c _ => clusterWf c
  | .forcedCapacityRelease c _ => clusterWf c
  | .evacuateTimeout _ => true
  | .drainTimeout _ => true
  | .drainEnd _ => true
  | .extentSweepEnd _ => true
  | .regionRead l fr n => linkWf l && fr.wf && fits 32 n
  | .regionWrite l fr _ => linkWf l && fr.wf
  | .regionRecall l fr => linkWf l && fr.wf
  | .recallDone l fr => linkWf l && fr.wf
  | .recallTimeout _ _ h => fits 12 h
  | .nmo l fr op => linkWf l && fr.wf && op.wf
  | .nmoDone l fr => linkWf l && fr.wf
  | .regionOpen h d _ _ _ => fits 12 h && fits 10 d.domain
  | .regionGrant d _ _ h => fits 12 h && fits 10 d.domain
  | .regionPublish h d _ _ c => fits 12 h && fits 10 d.domain && c.wf
  | .regionWithdraw d _ _ => fits 10 d.domain
  | .regionRelease d _ _ h => fits 12 h && fits 10 d.domain
  | .destage _ => true
  | .traySsdFailure _ _ _ => true
  | .cxlMemRead line _ _ => fits 58 line
  | .cxlMemWrite line data => lineWf line data
  | .nvmeCommandCompletion c p _ _ => clusterWf c && fits 1 p
  | .nvmeCommandTimeout c p _ => clusterWf c && fits 1 p
  | .nvmeResetEnd c p _ => clusterWf c && fits 1 p
  | .linkTrainingEnd p _ retired corrected => p.wf && retired.all (fun x => decide (x.1 ≤ 8 ∧ (x.2 = 1 ∨ x.2 = 2))) && corrected.all (·.wf)
  | .laneFailure c l => clusterWf c && decide (l < 9)
  | .retryIntervalEnd p => p.wf
  | .patrolScrub st _ _ _ => stackWf st
  | .refresh st _ => stackWf st
  | .stackLost st => stackWf st
  | .evacuationEnd g => fits 1 g
  | .rebuildMetadataEnd g => fits 1 g
  | .engineFault c p _ => engineWf c p
  | .engineRemapped c p _ => engineWf c p
  | .shelfBankFault b _ => decide (b < 68)
  | .shelfBankRemapped b => decide (b < 68)
  | .controlCheckpoint p => decide (p < 5)
  | .controlPairFault p => decide (p < 5)
  | .controlPairTakeover p => fits 2 p
  | .keyBankReplaced _ => true
  | .keyBankCopyEnd _ => true
  | .aesKnownAnswerTest _ _ => true
  | .deadlineMonitorFault => true
  | .watchdogExpiry x => fits 15 x.upset
  | .arbiterFault _ _ => true
  | .ucieModuleLoss g m => fits 2 g && fits 2 m
  | .eventRecordWrite => true
  | .drbgHealthFailure => true
  | .tenantRemove _ t => fits 12 t
  | .tenantRemovalDrained t => fits 12 t
  | .tenantRemoved t => fits 12 t
  | .reclaimSweepEnd t => fits 12 t
  | .tenantRestore _ t => fits 12 t
  | .debugNonce _ => true
  | .nonceLapse => true
  | .debugUnlock _ t => t.wf
  | .deviceBrine _ => true
  | .getVersion t v => t.wf && fits 16 v
  | .getCapabilities t => t.wf
  | .negotiateAlgorithms t _ => t.wf
  | .getDigests t => t.wf
  | .getCertificate t slot => t.wf && fits 4 slot
  | .challenge t slot _ => t.wf && fits 8 slot
  | .getMeasurements t i _ => t.wf && fits 8 i
  | .keyExchange t _ => t.wf
  | .finish t _ _ => t.wf
  | .heartbeat t => t.wf
  | .keyUpdate t => t.wf
  | .endSession t => t.wf
  | .chunkSend t _ last => t.wf && last.wf
  | .chunkGet t _ => t.wf
  | .modelKeyDeliver _ _ _ _ => true
  | .modelKeyWithdraw _ _ => true
  | .fullReset _ => true
  | .imageCheckEnd _ img => img.all Image.wf
  | .hbmTrainingEnd l _ => l.all stackWf
  | .memorySetupEnd => true
  | .trialTimeout => true
  | .statusRead _ => true
  | .telemetryRead _ g i => fits 8 g && fits 16 i
  | .eventRead _ first _ => fits 64 first
  | .traceRead _ fn => fits 10 fn
  | .imageUpload _ off n img => fits 32 off && fits 32 n && img.wf
  | .imageActivate _ => true
  | .imageCancel _ => true
  | .resetFull _ => true
  | .resetPartialFunction _ fn => fits 10 fn
  | .resetPartialModuleGroup _ g => fits 2 g
  | .resetPartialLinkCluster _ c => clusterWf c
  | .resetPartialEngineCluster _ c => stackWf c
  | .moduleGroupLinkLoss g => fits 2 g
  | .linkHold _ p => p.wf
  | .linkRelease _ p => p.wf
  | .weightsLoad _ m _ => fits 8 m
  | .volumeRelease _ _ => true
  | .mgmtConnection tls _ _ => fits 16 tls.port
  | .mgmtIdleTimeout _ => true
  | .entdaa a => i3cWf a
  | .setdasa st a => i3cWf st && i3cWf a
  | .timePageUpdate => true
  | .thymeWheelTick e => decide (e < 136)
  | .gateEntryBoundary e => decide (e < 136)
  | .queueSample => true
  | .thermalSample _ ts => decide (ts.length ≤ 12)
  | .railFault _ => true
  | .vddAonLow => true
  | .avsRetry _ => true
  | .clockMonitorWindow _ _ => true
  | .refclkSwitchover => true
  | .holdoverExpiry => true
  | .hbmRefclkMissing st => stackWf st
  | .linkRefclkMissing c => clusterWf c
  | .laneShort c l => clusterWf c && decide (l < 9)
  | .curdLatestClose _ => true
  | .dmaTransferEnd _ _ found c _ => found.all (·.wf) && c.wf
  | .tierMoveStart => true
  | .cxlMemResponse c _ _ => clusterWf c
  | .doeResponse p _ => p.wf
  | .surpriseDown p => p.wf
  | .resetNRelease _ _ => true
  | .refreshManagementRequest st => stackWf st
  | .mgmtConnectionClose _ => true
  | .mgmtUnknownCommand _ k c _ => fits 8 k && fits 8 c
  | .spdmUnsupportedRequest t code => t.wf && fits 8 code
  | .arrayBankFault b => decide (b < 66)
  | .drbgRetestPass => true
  | .ucieLaneRepair g m => fits 2 g && fits 2 m
  | .ucieTrainingEnd g x corrected => fits 2 g && x.repaired.all (fits 2) && corrected.all fun x => fits 2 x.1 && x.2.wf
  | .metadataPairRebuildEnd => true
  | .backInvalidateResponse h _ _ d => fits 12 h && d.all fun x => x.2.length == 64
  | .poolCxlMemAccess h _ _ line w => fits 12 h && fits 58 line && w.all fun b => b.length == 64
  | .partialResetEnd d _ => fits 3 d

end Sys2Proof
end

