-- ==== Sys2Proof/Tests/Slice0.lean ====
section
/-! SUPPORT. Witnesses: for each obligation with hypotheses, a theorem that shows concrete states and operands which meet them, one for each
of its clauses; and the smoke test of well-formedness, with an ill-formed term for each check. -/

open Sys2Proof Sys2Proof.Machine

namespace Sys2Proof.Tests

-- One proof at a time: the kernel evaluates each of them.
set_option Elab.async false

/-! ### Small states -/

def m0 : ModelRec :=
  { index := 0, layers := 1, kvHeads := 1, headDim := 16, group := 1, blockTokens := 16, kvFormats := 31, walkHorizon := 4, lookahead := 2,
    fingerprint := 7, curdWindow := 1000, curdMembers := 4, curdRows := 8, curdEngines := 1, weightsTier := 2 }

def d1 : DomainRec :=
  { domain := 1, hashSource := 0, crossTenant := true, keyGen := 1, publishGrains := 4096, idleWithdrawMs := 1, tableQuota := 4, hashKey := 0 }

def t1 : TenantRec :=
  { tenant := 1, domain := 1, prefixAdmin := true, tableAdmin := true, t1Region := 0, resvRank := 0, seqQuota := 4, quotaT1 := 1048576,
    quotaT2 := 1048576, quotaT3 := 1048576, pinT0 := 1024, pinT1 := 1024 }

/-- An image with one model, one sharing domain, one tenant and one function. -/
def img : Image :=
  { imageNone with
    params := { directBytes := 4096, directTenant := 1 }, models := [m0], domains := [d1], tenants := [t1],
    functions := [{ fn := 0, enabled := true, group := 0, tenant := 1 }, { fn := 1023, enabled := true, group := 0, tenant := 1 }],
    ucie := [{ group := 0, rateGts := 32, readLatency := 100, spdm := false, apertureBase := 0 }] }

def ring0 : Ring := { attach := 1, group := 0, base := 4096, log2 := 4, next := 0 }

/-- A function as the boot leaves it. -/
def fnOff (n : Nat) : Fn :=
  { fn := n, group := 0, tenant := 1, code := .unattached, version := 0, attach := 0, k := 0, early := [], stamped := [], window := [],
    abortSlot := [], abortCount := 0, staleStamps := 0, attachStatus := 0, rings := [], held := none, shutdown := none, lastFence := 0,
    fails := [] }

/-- Function 0 attached with the newest layout. -/
def fn0 : Fn := { fnOff 0 with code := .ready, version := 3, attach := 1, rings := [ring0] }

/-- In service: function 0 attached, function 1,023 not. -/
def base : State :=
  { State.reset with
    now := 100000000, ids := 2, image := img, fns := [fn0, fnOff 1023],
    boot := { State.reset.boot with phase := .service }, faults := { Faults.atBoot with groupsUp := [0] },
    island := { Island.atBoot with
      fnTable := [(0, 1), (1023, 1)],
      keys := ([0, ownerSlot 1 1, ownerSlot 2 1, hashKeySlot 1, portSlot (.asvis 0)].map fun n => { n := n, epoch := 0, key := 5 }) ++
        [{ n := ownerSlot 1 20, epoch := 0, key := 5, use := .poolHost, owner := 20 }] },
    tenants := [{ tenant := 1, life := .active, activeSince := 0, swept := false, drained := false, epoch := 0, removeTick := 0,
                  answerTo := none }] }

def isNext (o : Host.Outcome State Fault Refusal) : Bool :=
  match o with
  | .next _ => true
  | .fault _ => false
  | .refused _ => false

/-- The next stamp of function 0, at a service class. -/
def sub (cls : Nat := 1) (deadline : Nat := 0) : Sub :=
  { group := 0, fn := 0, seq := 0, phase := 0, long := false, cls := cls, tag := 9, deadline := deadline }

/-- The value of a check that passes. -/
def got {ε α : Type} : Except ε α → Option α
  | .ok a => some a
  | .error _ => none

/-- The next stamp of function 1,023. -/
def sub1023 : Sub := { sub with fn := 1023 }
def attach3 : AttachFnF := { version := 3, ringLog2 := 6, ringBase := 8192 }
def shut : Shutdown := { attach := 1, tag := 5, slotSeq := 3, mode := 0, tick := 100000000 - 14100, record := true }
/-- Function 0 draining. -/
def draining : State := base.modFn 0 fun f => { f with code := .draining, version := 0, shutdown := some shut }
/-- A request of function 0 in the outstanding table. -/
def req (d : Desc) (id : Nat := 1) : Req := { base.mkReq fn0 sub d 0 base.now with id := id, phase := .started }
def fenceSt : State :=
  { base with reqs := [req (.fence { mode := 0, seq := 0 })], fences := [{ req := 1, fn := 0, after := 0, seq := none, failed := 2 }] }

theorem witness_LifecycleCommandsComplete :
    (base.inService ∧ base.isTray = false ∧ base.faults.groupsUp.contains 0 ∧ base.fn? 1023 = some (fnOff 1023) ∧ base.attachCheck (fnOff 1023) attach3 = none) ∧
    (draining.inService ∧ draining.isTray = false ∧ (draining.fn? 0).any fun f => f.code == .draining && f.group == 0 && (draining.attachCheck f attach3).isNone) ∧
    ((base.admits (sub 1 0) (.detach 1)).any fun (u, f, _) => (u.fn? f.fn).isSome) ∧
    ((base.admits (sub 1 0) (.fence { mode := 0, seq := 0 })).any fun (u, _, r) => (u.fn? r.fn).isSome) ∧
    (draining.fn? 0).any (fun f => f.shutdown == some shut && shut.mode == 0 && decide (shut.tick + 14100 ≤ draining.now)) ∧
    (∀ r ∈ draining.reqs, r.fn = 0 → r.attach ≠ shut.attach) ∧
    (fenceSt.req? 1 = some (req (.fence { mode := 0, seq := 0 })) ∧ (fenceSt.fences.find? fun c => c.req == 1).isSome ∧
      (fenceSt.ringOf (req (.fence { mode := 0, seq := 0 }))).isSome ∧ ∀ x ∈ fenceSt.reqs, x.fn = 0 → ¬x.id < 1) ∧
    (base.fn? 0 = some fn0 ∧ fn0.group = 0 ∧ fn0.code = .ready ∧ fn0.stamped = []) ∧
    (0x3ff0 < 0x4000 ∧ 0x3ff0 % 8 = 0 ∧ 0x3ff0 % slotBytes fn0.version ≠ slotBytes fn0.version - 8) ∧ 0x4030 < 0x4038 ∧ 0x4030 % 8 = 0 := by
  decide +kernel

def noKey : FlowKeyF := { flow := 0, maskMode := 0, zone := 0, protocol := 0, srcPort := 0, dstPort := 0, srcAddr := 0, dstAddr := 0 }
def openA : OpenF :=
  { model := 0, layout := 0, fmt := 2, floor := 31, seqClass := 1, horizon := 0, window := 0, globals := 0, t1res := 0, key := noKey }
/-- A locator of one page in T1. -/
def loc0 : Loc :=
  { tier := 1, grains := 1, addr := 40, table := 0, fmt := 2, version := 1, ripening := 9, uncoded := true, moving := false,
    pinned := false, published := false, lost := false, sweptAt := 0, pinBy := none }
def rec5 : Rec :=
  { id := 5, firstToken := 0, segment := 0, valid := 16, published := false, shared := false, pinned := false, global := false,
    hashed := true, chainHash := 77, refs := 1, tenant := 1, domain := 1, born := 0, locs := [loc0], mirrorA := true, mirrorB := true }
def page5 : Page :=
  { tier := 1, addr := 40, grains := 1, ownerKind := 1, owner := 1, version := 1, intact := true, data := List.replicate 512 3, keep := [],
    freed := false, table := 0 }
def v1 : Version := { num := 1, slots := [(0, 5)], blockCount := 1, tokenCount := 16, prefixHandle := 0, prefixDepth := 0, pins := 0 }
def seq0 : Seq :=
  { index := 0, gen := 1, tenant := 1, domain := 1, layout := 0, model := 0, fmt := 2, floor := 31, cls := 1, st := .opened, horizon := 0,
    window := 0, globals := 0, t1res := 0, t1held := true, sharesBlocks := false, hasPins := false, segmented := false, openedAt := 0,
    cur := v1, old := [], places := 0, homeStack := 0, rehome := false, resident := false, mirrorA := true, mirrorB := true, order := 1 }
/-- One sequence of one block. -/
def seqSt : State :=
  { base with ids := 50, seqs := [seq0], seqFree := { base.seqFree with fresh := 1 }, recs := [rec5], pages := [page5] }
def h0 : Nat := 0x1000000
def forkA : ForkF := { parent := h0, n := 1, t1res := 0, key := noKey }
def blocksA : BlocksF :=
  { seq := h0, checkVersion := false, expected := 0, firstBlock := 0, blockCount := 1, blockList := 65536, pageBase := 131072,
    pageStride := 4096 }
def entryA : BlockEntry := { segment := 0, validTokens := 16, hashed := false, tokens := false, chainHash := 0, tokenAddr := 0 }
/-- A table image of format 2 in which only the escapes have codes. -/
def tableImage : Bytes :=
  [2, 1] ++ List.replicate 270 0 ++ [1] ++ List.replicate 263 0 ++ [1] ++ List.replicate 7 0
def tableF : LoadTableF := { tableId := 3, model := 0, fmt := 2, layerFirst := 0, layerCount := 1, image := 4096 }
def table3 : CodeTable :=
  { id := 3, st := .live, domain := 1, fmt := 2, image := tableImage, digest := 0, pageRefs := 0, streamRefs := 0 }
/-- Code table 3 stands, and the tenant administers tables. -/
def tabled : State := { seqSt with tables := [table3] }
/-- The last version number but one: its next change wraps to 0. -/
def wrapSt (d : Desc) : State :=
  { seqSt with seqs := [{ seq0 with cur := { v1 with num := 2 ^ 32 - 1 } }], reqs := [{ req d with phase := .ready, entries := [entryA] }] }
def trunc0 : Desc := .truncate { blocksA with firstBlock := 0, blockCount := 0, blockList := 0, pageBase := 0, pageStride := 0 }
/-- A request that waits, nothing holding it back. -/
def waitSt (d : Desc) (cls deadline : Nat) : State :=
  { seqSt with reqs := [{ req d with phase := .waiting, cls := cls, deadline := deadline }] }
def fetchA : Desc :=
  .fetch { seq := h0, firstBlock := 0, blockCount := 1, firstLayer := 0, layerCount := 1, form := 0, buffer := 0, bufferLen := 4096 }
def pubA : Desc := .publish { seq := h0, depth := 1, digestAddr := 0 }
def look1 : Desc := .lookupHash { model := 0, pairs := [{ depth := 1, hash := 77 }] }

theorem witness_OpeningAndClosingComplete :
    ((base.begins sub (.openSeq openA)).any fun (u, r) => r.desc == .openSeq openA && (u.ringOf r).isSome && (u.checkOpen r openA).isNone &&
      !u.metaGone &&
      (u.seqFree.take.map (·.1) == some 0) && (got (u.insertFlow r.tenant (genOf u.seqGens 0 * 2 ^ 24) noKey)).isSome) ∧
    ((seqSt.begins sub (.forkSeq forkA)).any fun (u, r) => r.desc == .forkSeq forkA && (u.ringOf r).isSome && (u.checkFork r forkA).isNone &&
      u.mirrored && !u.metaGone &&
      (got (u.openSeqOf r h0)).isSome && (u.seqFree.take.map (·.1) == some 1) &&
      (got (u.insertFlow r.tenant (1 + genOf u.seqGens 1 * 2 ^ 24) noKey)).isSome) ∧
    ((seqSt.begins sub (.closeSeq h0)).any fun (u, r) => (u.ringOf r).isSome && (u.checkClose r h0).isNone &&
      (u.seqOf r.tenant h0).isSome) := by
  decide +kernel

theorem witness_SequenceChangesBegin :
    (seqSt.begins sub trunc0).isSome ∧
    ((tabled.begins sub (.append { blocksA with firstBlock := 1 })).any fun (u, r) =>
      (u.tables.all fun t => t.mirrorA && t.mirrorB) && (got (u.openSeqOf r h0)).any fun q => (u.model? q.model).isSome) ∧
    ((tabled.begins sub (.replace blocksA)).any fun (u, r) =>
      (u.tables.all fun t => t.mirrorA && t.mirrorB) && (got (u.openSeqOf r h0)).any fun q => (u.model? q.model).isSome) := by
  decide +kernel

/-- What a class-0 request that waits is priced at; nothing where it is not accepted. -/
def accepted (s : State) : List Resv := ((s.req? 1).bind s.priceAtPin).getD []
/-- A class-0 read that waits, by its deadline. -/
def waitZero (deadline : Nat) : State := { waitSt fetchA 0 deadline with seqs := [{ seq0 with cls := 0 }] }

theorem witness_WaitsEnd :
    (let s := wrapSt trunc0
     (s.req? 1).any fun r => s.inService && r.phase == .ready && r.ended.isNone && s.mirrored && !s.blocked r && (s.commitsAhead r).isEmpty && (s.ringOf r).isSome &&
       namesOf r.desc == [h0] && (got (s.openSeqOf r h0)).any fun q => s.seq? q.index == some q && q.mirrorA && q.mirrorB &&
         (s.model? q.model).any fun m => (s.commitBad r q m).isNone) ∧
    (let s := waitSt fetchA 7 0
     (s.req? 1).any fun r => r.phase == .waiting && r.ended.isNone && s.mirrored && !s.blocked r && (s.checkReq r).isNone && r.cls != 0) ∧
    ([base.now, base.now + 100000000].all fun d => ((waitZero d).req? 1).any fun r =>
      r.phase == .waiting && r.ended.isNone && (waitZero d).mirrored && !(waitZero d).blocked r && ((waitZero d).checkReq r).isNone && r.cls == 0) ∧
    (let s := waitZero (base.now + 100000000)
     accepted s ≠ [] ∧ fitsHeld (s.calendar.filter fun c => c.req == 1) (accepted s) = false ∧
       (let t := { s with calendar := accepted s }
        fitsHeld (t.calendar.filter fun c => c.req == 1) (accepted t) = true ∧ accepted t ≠ [])) := by
  decide +kernel

def range0 (target : Nat) : RangeF := { seq := h0, firstBlock := 0, blockCount := 1, firstLayer := 0, layerCount := 1, target := target }
/-- Banks for the prefix table, the flow tables and the policy table. -/
def banked (s : State) : State :=
  { s with array := { s.array with banks := s.array.banks.map fun (b : Bank) =>
      { b with tag := if b.n = 0 then 1 else if b.n = 1 then 3 else if b.n = 2 then 4 else if b.n = 3 then 5 else 0 } } }
def ph : Nat := handleMk 0 0 1
/-- A published prefix of one block, homed here. -/
def dirE : DirEntry :=
  { slot := 0, gen := 1, hash := 77, fingerprint := 7, domain := 1, depth := 1, st := .published, proxy := false, copyVerified := true,
    keyGen := 1, handle := ph, digest := 0, refs := 0, publisher := 1, holder := 0, fmt := 2, map := [(0, 6)], parent := 0,
    parentDepth := 0, publishedAt := 5, idleSince := 5, proxies := [], homeRef := false, holderProxy := false, homeStack := 0,
    grainsTaken := 1, mirrorA := true, mirrorB := true }
def rec6 : Rec := { rec5 with id := 6, published := true, tenant := 0, locs := [{ loc0 with addr := 41, published := true }] }
def row0 : PrefixRow :=
  { row := 0, isHandle := false, domain := 1, fold := foldFp 7, depth := 1, hashLow := lowHash 77, handle := ph, slot := 0, gen := 1,
    proxy := false }
def prefixSt : State :=
  banked { seqSt with
    recs := [rec5, rec6], dir := [dirE], dirFree := { base.dirFree with fresh := 1 },
    pages := [page5, { page5 with addr := 41, ownerKind := 2 }],
    array := { base.array with rows := [row0, { row0 with row := 1, isHandle := true }] } }
def lookA : LookupHashF := { model := 0, pairs := [{ depth := 1, hash := 77 }] }
def flowA : LookupFlowF :=
  { maxMatches := 4, resultAddr := 4096, family := 0, dscp := 0, zone := 255, protocol := 6, srcPort := 65535, dstPort := 443, leadCount := 0,
    srcAddr := 10, dstAddr := 2 ^ 32 - 1, leadBytes := 0 }
def flowRow0 : FlowRow :=
  { tenant := 1, zone := 255, protocol := 6, srcAddr := 10, dstAddr := 2 ^ 32 - 1, srcPort := 65535, dstPort := 443, mode := 0,
    handle := h0 }
def flowSt : State := { prefixSt with array := { prefixSt.array with flow4 := { g0 := [some flowRow0], g1 := [], g2 := [] } } }
/-- A rule that every IPv4 key of tenant 1 fits. -/
def rule0 : PolicyRec := { tenant := 1, rank := 0, value := 5 + 16, care := 65535, result := 12 }
def policySt : State := { prefixSt with array := { prefixSt.array with policy := [{ rule := rule0, present := true }] } }
/-- The bank of the IPv4 flow table fails. -/
def shortSt : State :=
  { flowSt with array := { flowSt.array with banks := mapIf (fun (b : Bank) => b.n == 1) (fun b => { b with st := .failing }) flowSt.array.banks } }
/-- A sequence of no block, to attach a prefix to. -/
def emptySt : State := { prefixSt with seqs := [{ seq0 with cur := Version.first }] }
def attA : AttachPrefixF := { seq := h0, depth := 1, handle := ph }
def pubF : PublishF := { seq := h0, depth := 1, digestAddr := 32 }
/-- What the publication of the sequence's one block digests to. -/
def pubDigest : BitVec 256 := digest256 (digestHead 7 2 1 (List.replicate 32 0) ++ List.replicate 512 3)
/-- A publication whose reads end, of a prefix that is new. -/
def pubSt : State :=
  banked { seqSt with
    seqs := [{ seq0 with cur := { v1 with pins := 1 }, places := 1 }],
    reqs := [{ req (.publish pubF) with pin := some { index := 0, version := 1 } }] }
/-- The same, of a prefix that is published already. -/
def pubAgain : State :=
  { pubSt with dir := [{ dirE with digest := pubDigest }], dirFree := { base.dirFree with fresh := 1 },
               array := { pubSt.array with rows := prefixSt.array.rows }, recs := prefixSt.recs, pages := prefixSt.pages }
/-- The hypotheses on the end of a publication's reads, and what the compare-and-set answers, with the new pages on a stack `home`. -/
def pubFits (s : State) (home : Nat) (ok : CasAnswer → Bool) : Bool :=
  (s.req? 1).any fun r => (r.pin.bind s.pinned?).any fun (q, v) =>
    s.inService && r.desc == .publish pubF && r.phase == .started && !s.blocked r && r.ended.isNone && r.data == [] && s.mirrored &&
      got (s.openSeqOf r pubF.seq) == some q && s.model? q.model == some m0 && (s.ringOf r).isSome && !s.rekeyReads r.id &&
      (s.reqs.all fun y => y.id == r.id) &&
      let pages := s.publishPages q v (publishFrom v) pubF.depth
      r.rekeyLeft pages == [] && match s.rekeyPages r.id q m0 home pages [] [] with
      | (raw, ps, none, w) =>
        let digest := digest256 (digestHead m0.fingerprint q.fmt pubF.depth (w.parentDigest v.prefixHandle) ++ raw)
        let r' := { r with pages := ps, data := leBytes 32 digest.toNat }
        let u := w.modReq r.id fun x => { x with pages := ps, data := r'.data }
        let k := u.publishKey pubF q v m0 digest
        r.pin.bind u.pinned? == some (q, v) && u.model? q.model == some m0 && !u.homeTableHeld r' && u.txns.isEmpty &&
          u.homeOf k.hash == u.params.deviceId && ok (u.compareAndSet k [] (sumBy (·.grains) ps)).1
      | _ => false

theorem stacksByRoom_lt (s : State) (region : Nat) : (s.stacksByRoom region).headD 0 < 12 := by
  unfold State.stacksByRoom
  dsimp only
  generalize h : List.mergeSort _ _ = l
  cases l with
  | nil => decide
  | cons x xs =>
    have hx : x ∈ List.mergeSort ((List.range 12).map fun k => (k, s.freeRegion k region))
        (fun a b => decide (b.2 < a.2 ∨ (a.2 = b.2 ∧ a.1 ≤ b.1))) := by rw [h]; exact List.mem_cons_self
    obtain ⟨k, hk, rfl⟩ := List.mem_map.mp (List.mem_mergeSort.mp hx)
    exact List.mem_range.mp hk

theorem witness_RangeCommandsComplete :
    ((seqSt.begins sub (.pinRange (range0 1))).any fun (u, r) => (u.ringOf r).isSome && (u.checkPinRange r (range0 1)).isNone &&
      (u.reqs.all fun x => x.id == r.id) && (got (u.openSeqOf r h0)).any fun q =>
        (u.rangePages q q.cur (range0 1)).all fun p => decide (p.2.2.tier ≤ 1) && u.moves.all fun m => m.blk != p.1) ∧
    ((seqSt.begins sub (.pinRange (range0 0))).any fun (u, r) => (u.checkPinRange r (range0 0)).isNone &&
      (u.reqs.all fun x => x.id == r.id) && (got (u.openSeqOf r h0)).any fun q => (u.rangePages q q.cur (range0 0)).any fun p =>
        decide (0 < p.2.2.tier)) ∧
    ((seqSt.begins sub (.unpinRange (range0 0))).any fun (u, r) => (u.ringOf r).isSome && (u.checkRangeCmd r (range0 0) true).isNone &&
      (got (u.openSeqOf r h0)).isSome) ∧
    ((seqSt.begins sub (.prefetchHint (range0 0))).any fun (u, r) => (u.ringOf r).isSome && (u.checkRangeCmd r (range0 0) false).isNone &&
      (u.remotePages r (range0 0)).isEmpty && u.staging.isEmpty && (u.reqs.all fun x => x.id == r.id) && (got (u.openSeqOf r h0)).any fun q =>
        (u.rangePages q q.cur (range0 0)).all fun p => decide (p.2.2.tier ≤ 1) && u.moves.all fun m => m.blk != p.1) := by
  decide +kernel

theorem witness_LookupsComplete :
    ((prefixSt.begins sub (.lookupHash lookA)).any fun (u, r) => (u.ringOf r).isSome && u.tableUp 1 && u.ownDomain &&
      (bestHit (u.localHits (u.domainOf r.tenant) (u.fingerprintOf 0) 0 lookA.pairs).1).isSome) ∧
    ((seqSt.begins sub (.lookupHash lookA)).any fun (u, r) => (u.ringOf r).isSome && u.tableUp 1 &&
      (lookA.pairs.all fun p => u.homeOf p.hash == u.params.deviceId) &&
      (bestHit (u.localHits (u.domainOf r.tenant) (u.fingerprintOf 0) 0 lookA.pairs).1).isNone) ∧
    (seqSt.begins sub (.lookupToken { model := 0, tokenBlocks := 1, hasStart := false, startDepth := 0, startHash := 0, tokenAddr := 4096,
                                      resultAddr := 4096 })).isSome ∧
    ([1, 4].all fun n => (flowSt.begins sub (.lookupFlow { flowA with maxMatches := n })).any fun (u, r) => (u.ringOf r).isSome && u.tableUp 3 &&
      ((u.flowMatches r.tenant (u.pathB r.fn) flowA).take n).length == 1) ∧
    ((shortSt.begins sub (.lookupFlow flowA)).any fun (u, _) => !u.tableUp 3) ∧
    ([1, 4].all fun n => (policySt.begins sub (.lookupFlow { flowA with maxMatches := n })).any fun (u, r) => (u.ringOf r).isSome &&
      u.tableUp 3 && (u.flowMatches r.tenant (u.pathB r.fn) flowA).take n == [] &&
      let v := u.flowFalse r.tenant (u.pathB r.fn) flowA
      v.tableUp 5 && ((v.policyMatches r.tenant (v.pathB r.fn) flowA).take n).length == 1) ∧
    ((seqSt.begins sub (.lookupFlow flowA)).any fun (u, r) => (u.ringOf r).isSome && u.tableUp 3 &&
      (u.flowMatches r.tenant (u.pathB r.fn) flowA).take 4 == [] &&
      let v := u.flowFalse r.tenant (u.pathB r.fn) flowA
      v.tableUp 5 && (v.policyMatches r.tenant (v.pathB r.fn) flowA).take 4 == []) := by
  decide +kernel

theorem witness_PrefixCommandsComplete :
    ((emptySt.begins sub (.attachPrefix attA)).any fun (u, r) => (u.ringOf r).isSome && !u.attachSearches attA &&
      (u.commitsAhead { r with readyAt := u.now }).isEmpty &&
      let v := u.loadChain ph
      (v.checkAttachPrefix r attA).isNone && (got (v.openSeqOf r h0)).any fun q => v.seq? q.index == some q && (v.model? q.model).any fun m =>
        (v.linkable ph (v.domainOf r.tenant) m.fingerprint).any fun e => !v.needsRef e && (v.missingParent chainFuel e.handle).isNone) ∧
    ((prefixSt.begins sub (.publish pubF)).any fun (u, r) => u.mirrored && (u.checkPublish r pubF).isNone &&
      (got (u.openSeqOf r h0)).any fun q => u.seq? q.index == some q) ∧
    ((prefixSt.begins sub (.withdraw ph)).any fun (u, r) => (u.ringOf r).isSome && u.mirrored && handleHome ph == u.params.deviceId &&
      (u.withdrawable ph (u.domainOf r.tenant) u.params.deviceId r.tenant (u.prefixAdmin r.tenant)).isSome) ∧
    pubFits pubSt ((pubSt.stacksByRoom 0).headD 0) (fun a => match a with | .created _ => true | _ => false) ∧
    pubFits pubAgain ((pubAgain.stacksByRoom 0).headD 0) (fun a => match a with | .merged _ => true | _ => false) := by
  refine ⟨by decide +kernel, by decide +kernel, by decide +kernel, ?_, ?_⟩
  · exact (by decide +kernel : ∀ h, h < 12 → pubFits pubSt h (fun a => match a with | .created _ => true | _ => false) = true) _
      (stacksByRoom_lt _ _)
  · exact (by decide +kernel : ∀ h, h < 12 → pubFits pubAgain h (fun a => match a with | .merged _ => true | _ => false) = true) _
      (stacksByRoom_lt _ _)

def attendA : AttendF :=
  { seq := h0, layer := 0, kvFirst := 0, kvCount := 1, qTokens := 1, qFormat := 0, causal := true, segMask := false, oFormat := 0,
    multiPartial := false, qRequant := false, qPos := 20, curdMode := 1, curdExpect := 0, keyPrecision := 31, qSegment := 0,
    windowTokens := 0, sinkTokens := 0, scale := 0, softcap := 0, blockLo := 0, blockHi := 0, query := 4096, result := 8192,
    resultLen := 4096 }
def weightsA : WeightsF := { model := 0, offset := 0, length := 4096, buffer := 0 }
def head0 : SealedHeader := { layout := 1, fingerprint := 7, serial := 1, chunks := 2, plainBytes := 2097152, keyCheck := 0 }
def ucieSession : Session :=
  { transport := .ucie 0, st := .established, secret := 0, version := 0x12, slot := some 0, root := 0, chunks := [], large := [], updates := 0 }
/-- The model's weights are loaded, its key delivered and the group's session established. -/
def weightsSt : State :=
  { base with
    image := { img with weightGrants := [(0, 1)] },
    weights := [{ model := 0, header := head0, counts := [0, 0], swept := [0, 0], cached := [] }],
    island := { base.island with keys := { n := modelKeySlot 0, epoch := 0, key := 9 } :: base.island.keys, sessions := [ucieSession] } }
def op (kind address length : Nat) : MemOpF := { kind := kind, handle := 0, address := address, length := length }
def fillD : FillF := { dst := op 1 64 128, pattern := 7 }
def fillH : FillF := { dst := op 0 64 128, pattern := 7 }
def copyD : TwoOpF := { a := op 0 4096 128, b := op 1 0 128 }
def compareH : TwoOpF := { a := op 0 4096 128, b := op 0 8192 128 }
def sumF : ReduceF :=
  { dest := op 0 65536 64, outFormat := 0, srcKind := 0, srcCount := 2, count := 16, headDim := 0, srcBase := 4096, srcStride := 64 }
def lseF : ReduceF :=
  { dest := op 0 65536 128, outFormat := 0, srcKind := 0, srcCount := 2, count := 1, headDim := 16, srcBase := 4096, srcStride := 128 }
def fillR : FillF := { dst := op 3 64 128, pattern := 7 }
def twoR : TwoOpF := { a := op 3 4096 128, b := op 3 0 128 }
def hello2 : HelloF := { versions := 7, tray := true, device := 20, bootEpoch := 3, direct := false }
/-- Asvis link 0, up, with a tray behind it. -/
def trayPort : Port :=
  { id := .asvis 0, st := .up, version := 3, rate := 224, width := 2, peer := some hello2, session := true, dirOk := true, txSeq := 40,
    rxSeq := 60, discards := [], errors := 0, credits := [], peerCycle := 0, peerGates := [], buffer := [], lastRx := 0, lastTx := 0,
    since := 0, left := none, resetting := false, hello := true }
def traySt : State := { base with ports := [trayPort] }
/-- The tray behind the link is the one that region 0 lies on. -/
def regTraySt : State := { base with ports := [{ trayPort with peer := some { hello2 with device := Config.regionTray 0 } }] }

def unknownReq : Req := base.mkReq fn0 sub (.unknown 0x77) 0 base.now

/-- A started request of function 0. -/
def started (d : Desc) : Req := { req d with phase := .started }
def startedSt (d : Desc) : State := { tabled with reqs := [started d] }
def appendA : Desc := .append { blocksA with firstBlock := 1 }
/-- A started FETCH_PAGES of one page, which has pinned its version. -/
def fetchSt : State :=
  { seqSt with seqs := [{ seq0 with cur := { v1 with pins := 1 } }],
               reqs := [{ started fetchA with pin := some { index := 0, version := 1 } }] }
def fetchF : FetchF :=
  { seq := h0, firstBlock := 0, blockCount := 1, firstLayer := 0, layerCount := 1, form := 0, buffer := 0, bufferLen := 4096 }
/-- The same, by the form it asks for. -/
def fetchForm (form : Nat) : State := { fetchSt with reqs := fetchSt.reqs.map fun r => { r with desc := .fetch { fetchF with form := form } } }
/-- A request held by the deadline monitor. -/
def heldSt : State := { startedSt fetchA with monitor := { held := [(1, 5)], count := 1, failed := false } }

def tokenF : LookupTokenF :=
  { model := 0, tokenBlocks := 1, hasStart := false, startDepth := 0, startHash := 0, tokenAddr := 4096, resultAddr := 0 }
def tokenData : Bytes := List.replicate 64 1
/-- The chain hash of the block that `tokenData` names. -/
def tokenHash : BitVec 128 :=
  let key := prefixSt.hashKey 1
  ((tokenPairs key 16 1 0 (chainHash0 key 7) (tokenIds tokenData)).getLastD { depth := 0, hash := 0 }).hash
/-- A published prefix of that block, and the same with a bank of the prefix table short. -/
def tokenSt : State :=
  let row : PrefixRow := { row0 with hashLow := lowHash tokenHash }
  { prefixSt with dir := [{ dirE with hash := tokenHash }],
                  array := { prefixSt.array with rows := [row, { row with row := 1, isHandle := true }] } }
def tokenShort : State :=
  { tokenSt with array := { tokenSt.array with
      banks := mapIf (fun (b : Bank) => b.n == 0) (fun b => { b with st := .failing }) tokenSt.array.banks } }

theorem witness_RunningRequestsBegin :
    ((seqSt.begins sub fetchA).any fun (u, r) => (got (u.openSeqOf r h0)).any fun q => (u.model? q.model).isSome) ∧
    ((seqSt.begins sub (.attend attendA)).any fun (u, r) => r.desc == .attend attendA &&
      (got (u.openSeqOf r h0)).any fun q => (u.model? q.model).isSome) ∧
    ((weightsSt.begins sub (.weights weightsA)).any fun (u, r) => (u.checkWeights r weightsA).isNone &&
      (u.groupSession (u.groupOfFn r.fn)).isSome && u.weights.any (fun w => w.model == weightsA.model)) ∧
    ([Desc.fill fillD, .copy copyD, .compare compareH, .reduceSum sumF, .reduceMax sumF, .lseMerge lseF].all fun d =>
      (base.begins sub d).any fun (u, r) => (u.checkNear r).isNone &&
        !((nearOps r.desc).1 ++ (nearOps r.desc).2).any (fun o => o.kind == 3)) ∧
    ([Desc.fill fillR, .copy { twoR with a := op 3 4096 128 }, .compare twoR].all fun d =>
      (regTraySt.begins sub d).any fun (u, r) => (u.checkNear r).isNone && r.desc == d) ∧
    (∀ u : State, u.ports = regTraySt.ports → u.regionLink 0 = some 0) ∧
    ([Desc.fill fillR, .copy twoR, .compare twoR].all fun d => (regionOps d).all (fun o => o.handle == 0) && allRegions d) := by
  refine ⟨by decide +kernel, by decide +kernel, by decide +kernel, by decide +kernel, ?_, ?_, ?_⟩
  · decide +kernel
  · intro u h; simp [State.regionLink, h, regTraySt, trayPort, hello2]
  · simp [regionOps, nearOps, allRegions, reduceOf, fillR, twoR, op]

theorem witness_TableCommandsComplete :
    (seqSt.begins sub (.tableLoad tableF)).isSome ∧
    ((tabled.begins sub (.tableSelect tableF)).any fun (u, r) => (u.ringOf r).isSome && ((u.loadTable 3).checkTableSelect r tableF).isNone) ∧
    ((tabled.begins sub (.tableExport tableF)).any fun (u, r) => ((u.loadTable 3).checkTableExport r tableF).isNone &&
      ((u.loadTable 3).domainTable (u.domainOf r.tenant) 3).isSome) ∧
    ((tabled.begins sub (.retire { tableId := 3, defer := false })).any fun (u, r) => (u.ringOf r).isSome &&
      ((u.loadTable 3).checkRetire r { tableId := 3, defer := false }).isNone &&
      ((u.loadTable 3).domainTable (u.domainOf r.tenant) 3 == some table3)) ∧
    (base.fn? 0 = some fn0 ∧ base.lands sub fn0 ∧ base.tenantActive 1 ∧ (base.ringOf unknownReq).isSome) := by
  decide +kernel

theorem witness_TransfersEnd :
    ([appendA, .replace blocksA].all fun d => (startedSt d).inService && (startedSt d).req? 1 == some (started d) &&
      (got ((startedSt d).openSeqOf (started d) h0)).any fun q => ((startedSt d).model? q.model).any fun m =>
        (startedSt d).mirrored && (started d).ended.isNone && (started d).done == 0 &&
        ((startedSt d).checkEntries (started d) q q.cur m (parseBlockList 1 (0 :: 0 :: 16 :: List.replicate 29 0))).isNone) ∧
    ([appendA, .replace blocksA].all fun d =>
      let r := { started d with done := 1 }
      let s := { startedSt d with reqs := [r] }
      s.inService && s.req? 1 == some r && s.mirrored && r.ended.isNone && (got (s.openSeqOf r h0)).any fun q => (s.model? q.model).isSome) ∧
    ([0, 4096].all fun result =>
      let f := { tokenF with resultAddr := result }
      let r := started (.lookupToken f)
      let key := tokenSt.hashKey 1
      let ps := tokenPairs key 16 1 0 (chainHash0 key 7) (tokenIds tokenData)
      [tokenSt, tokenShort].all fun s0 =>
        let s := { s0 with reqs := [r] }
        let u := s.modReq 1 fun r => { r with raw := if result = 0 then [] else hashBytes (ps.getLastD { depth := 0, hash := 0 }).hash, data := tokenData }
        s.inService && s.req? 1 == some r && r.ended.isNone && (s.ringOf r).isSome && s.model? 0 == some m0 && s.slotFilled (hashKeySlot 1) &&
          s.domainOf 1 == 1 && (!s.tableUp 1 || ((ps.all fun p => s.homeOf p.hash == s.params.deviceId) &&
            (bestHit (u.localHits 1 (s.fingerprintOf 0) 0 ps).1).isSome))) ∧
    (tokenSt.tableUp 1 ∧ !tokenShort.tableUp 1) ∧
    ([0, 1].all fun form => (fetchForm form).inService && ((fetchForm form).req? 1).any fun r => ((fetchForm form).ringOf r).isSome &&
      (r.pin.bind (fetchForm form).pinned?).any fun (q, v) => r.done + 1 == fetchCount { fetchF with form := form } &&
        match ((fetchForm form).loadBlock q v 0).slotPage r q v m0 form 0 0 with
        | .ok .. => true
        | _ => false) ∧
    (let s := { startedSt (.tableLoad tableF) with tables := [] }
     let im := cleanImage (tableImage.take tableImageBytes)
     s.inService ∧ s.req? 1 = some (started (.tableLoad tableF)) ∧ (s.ringOf (started (.tableLoad tableF))).isSome ∧
     s.metaGone = false ∧ im.length = tableImageBytes ∧ imageOk im ∧ imageFormat im = 2 ∧ (0 < (s.domain? (s.domainOf 1)).elim 0 (·.tableQuota)) ∧
     s.tabFree.take.isSome) ∧
    (let r := { started fetchA with phase := .writing, answer := some { status := stOk, result := 5, flags := {} } }
     let s := { fetchSt with reqs := [r] }
     s.inService ∧ s.req? 1 = some r ∧ (s.ringOf r).isSome) ∧
    ([Desc.tableExport tableF, .fill fillH, .fill fillD, .copy copyD, .compare compareH, .reduceSum sumF, .reduceMax sumF, .lseMerge lseF].all
      fun d => (startedSt d).inService && (startedSt d).req? 1 == some (started d) && ((startedSt d).ringOf (started d)).isSome && !(startedSt d).regionWaits (started d)) ∧
    (!(startedSt (.fill fillD)).directBlocked 64 128 ∧ !(startedSt (.copy copyD)).directBlocked 0 128) := by
  decide +kernel

theorem witness_DeadlinesEnd :
    heldSt.inService ∧ heldSt.req? 1 = some (started fetchA) ∧ heldSt.monitored 1 = some 5 ∧ 5 ≤ heldSt.now ∧
      (started fetchA).ended ≠ some stAborted ∧ (heldSt.ringOf (started fetchA)).isSome ∧
    (let r := { started fetchA with ended := some stDeadlineFault }
     let s := { startedSt fetchA with reqs := [r] }
     s.pending = [] ∧ s.inService ∧ (s.ringOf r).isSome ∧ r.pages = [] ∧ r.chain = [] ∧ s.curds = [] ∧ s.passes = [] ∧ s.staging = []) := by
  decide +kernel

def attF : AttendF := { attendA with curdMode := 0 }
def part0 (st : PartSt) : Part := { lo := 0, hi := 1, prefix_ := ph, st := st, curd := false, due := none, rows := [] }
/-- A started ATTEND of one part over the sequence's one block. -/
def attReq (id : Nat) (st : PartSt) : Req :=
  { req (.attend attF) with id := id, tag := id, phase := .started, pin := some { index := 0, version := 1 }, parts := [part0 st],
                            query := [List.replicate 32 1] }
def pinnedSeqs (n : Nat) : List Seq := [{ seq0 with cur := { v1 with pins := n } }]
def attSt (st : PartSt) : State := { seqSt with seqs := pinnedSeqs 2, reqs := [attReq 1 st, attReq 2 .waiting] }
def key0 : CurdKey := { prefix_ := ph, lo := 0, hi := 1, layer := 0, qFormat := 0, requant := false, tenant := none }
def member (id : Nat) (due : Option Nat) : Member := { req := id, part := 0, tenant := 1, rows := 1, expect := 0, due := due }
/-- An open curd of a first member. -/
def curd1 : Curd :=
  { id := 30, key := key0, model := 0, members := [member 1 none], openedAt := 0, lastJoin := 0, running := false, cluster := 0,
    engines := 0 }
/-- An open curd of two. -/
def curd2 (due : Option Nat) : Curd := { curd1 with members := [member 1 due, member 2 none] }
def openCurd (c : Curd) : State :=
  { attSt (.inCurd 30) with reqs := [attReq 1 (.inCurd 30), attReq 2 (if c.members.length = 1 then .waiting else .inCurd 30)], curds := [c] }
def row1 (id : Nat) : PassRow := { req := id, part := 0, r := 0, engine := 0, idle := false, st := RowState.start 16 }
/-- A pass of one block of request 1 on engine 0 of cluster 0. -/
def pass1 : Pass :=
  { id := 40, curd := none, cluster := 0, engines := [0], lo := 0, hi := 1, next := 0, layer := 0, cls := 1, parked := false,
    rows := [row1 1] }
def passSt (p : Pass) : State := { attSt .walking with passes := [p] }
/-- The pass of a running curd at its end. -/
def endedCurd : State :=
  { openCurd { curd2 none with running := true, engines := 1 } with
    passes := [{ pass1 with curd := some 30, next := 1, rows := [row1 1, row1 2] }] }
/-- The same pass with a class-0 reservation of another request on its engine. -/
def yieldSt : State :=
  { passSt pass1 with calendar := [{ req := 9, cal := .engine 0 0, lo := 0, hi := 200000000, amount := 1 }] }
def parkedPass : Pass := { pass1 with parked := true, engines := [] }
def parkedSt : State := passSt parkedPass
/-- Every row of a pass's group is of a request that goes on and fits. -/
def rowsLive (s : State) (p : Pass) (ok : Req → Bool) : Bool :=
  (s.passGroup p).all fun y => y.rows.all fun x => (s.req? x.req).any fun r => r.ended.isNone && ok r

/-- A prefetched copy of the block, on its way. -/
def copy0 : StagingCopy :=
  { id := 20, req := 1, pin := none, blk := 5, block := 0, layer := 0, grains := 1, arrived := false, retried := false, ahead := true,
    since := 0, coded := false, digest := 0, data := [] }
def stagingSt : State := { attSt .walking with staging := [copy0] }
def move0 (dest : Option Nat) : Move := { id := 21, blk := 5, layer := 0, grains := 1, target := 0, rank := 3, req := some 1, dest := dest }
def moveSt : State := { seqSt with moves := [move0 none] }
/-- The page lies in T2, and a move takes it up to T0. -/
def farLoc : Loc := { loc0 with tier := 2 }
def farRec : Rec := { rec5 with locs := [farLoc] }
def ext0 (route : Nat) (st : ExtentSt) : Extent :=
  { id := 60, route := route, resident := false, st := st, forced := false, releasing := false, poolBase := 0, grains := 16384,
    targetBase := 4096, tag := 5, source := 0, since := 0, drainAt := 0 }
def farSt : State := { moveSt with recs := [farRec], extents := [ext0 0 .active] }
def movingSt : State :=
  { seqSt with moves := [move0 (some 0)], recs := [{ rec5 with locs := [{ loc0 with moving := true }] }] }
def oldSt : State := { seqSt with seqs := [{ seq0 with cur := { v1 with num := 2 }, old := [v1] }] }

theorem witness_CurdCommandsComplete :
    ((attSt .waiting).inService ∧ (attSt .waiting).req? 1 = some (attReq 1 .waiting) ∧
      ((attSt .waiting).attendOf (attReq 1 .waiting)).any fun (_, _, m, f) => f == attF &&
        decide (1 < m.curdMembers) && (attSt .waiting).curds == [] && (attSt .waiting).curdKeyOf (attReq 1 .waiting) f (part0 .waiting) == key0) ∧
    (let s := openCurd curd1
     s.inService ∧ s.req? 2 = some (attReq 2 .waiting) ∧ s.curd? 30 = some curd1 ∧
       (s.attendOf (attReq 2 .waiting)).any fun (_, _, m, f) => s.curdKeyOf (attReq 2 .waiting) f (part0 .waiting) == key0 &&
         s.mayJoin m curd1 (member 2 none) && decide (curd1.members.length + 1 < m.curdMembers)) ∧
    (let s := openCurd (curd2 none)
     s.inService ∧ s.curd? 30 = some (curd2 none) ∧ (s.model? 0).elim 0 (·.curdWindow) ≤ s.now) ∧
    (let c := curd2 (some (100000000 + 20))
     let s := openCurd c
     s.curd? 30 = some c ∧ s.mustClose c) ∧
    (let c := { curd2 none with closing := true }
     let s := openCurd c
     s.pending = [] ∧ s.inService ∧ s.curds = [c] ∧ s.liveMembers c = c.members ∧ (∀ r ∈ s.reqs, r.ended = none) ∧ s.staging = [] ∧
       (s.curdBase c.members).any fun (_, _, m, _) => s.curdEngines key0 m c.members 0 == some 1) ∧
    (endedCurd.inService ∧ (endedCurd.curd? 30).isSome ∧ endedCurd.passes.all fun p =>
      p.curd == some 30 && endedCurd.pass? p.id == some p && endedCurd.passEnded p &&
        p.rows.all fun x => (endedCurd.req? x.req).any fun r => r.ended.isNone) := by
  decide +kernel

theorem witness_PassCommandsComplete :
    (let r := { attReq 1 .waiting with query := [] }
     let s := { attSt .waiting with reqs := [r] }
     s.inService ∧ s.req? 1 = some r ∧ (s.attendOf r).isSome ∧ r.parts ≠ []) ∧
    (let s := passSt pass1
     let w := (s.consumers pass1 0).foldl (fun (s : State) r => (s.attendOf r).elim s fun a => s.loadBlock a.1 a.2.1 0) s
     s.inService ∧ s.pass? 40 = some pass1 ∧ s.passRuns pass1 ∧ (rowsLive s pass1 fun r => r.cls != 0) ∧ s.nextBlock pass1 = some 0 ∧
       (match (w.sparing pass1 0).passPage pass1 0 (s.consumers pass1 0) with
        | .ok .. => true
        | _ => false) = true) ∧
    (let p := { pass1 with next := 1 }
     let s := passSt p
     s.inService ∧ s.pass? 40 = some p ∧ s.passRuns p ∧ (rowsLive s p fun r => r.cls != 0) ∧ s.nextBlock p = none ∧ s.passesEnded [p] ∧ s.curds = [] ∧ (s.ringOf (attReq 1 .walking)).isSome ∧
       (s.attendOf (attReq 1 .walking)).isSome ∧ (attReq 1 .walking).parts.eraseIdx 0 = []) ∧
    (let r := { attReq 1 .walking with parts := [part0 .walking, part0 .waiting] }
     let p := { pass1 with next := 1 }
     let s := { passSt p with reqs := [r, attReq 2 .waiting] }
     s.inService ∧ s.req? 1 = some r ∧ (s.attendOf r).isSome ∧ s.passesEnded [p] ∧ s.curds = [] ∧ (s.ringOf r).isSome ∧
       (r.parts.eraseIdx 0).any fun y => y.st != .done) ∧
    (yieldSt.inService ∧ yieldSt.pass? 40 = some pass1 ∧ (pass1.engines.any fun e => yieldSt.reservedNow 0 e [1]) ∧
      rowsLive yieldSt pass1 fun _ => true) ∧
    (parkedSt.inService ∧ (parkedSt.pass? 40).any (fun p => p.parked) ∧ 3 ∈ (parkedSt.idleEngines 0).map (·.2) ∧
      ((parkedSt.passGroup parkedPass).flatMap (·.rows)).foldl (fun n x => max n x.engine) 0 = 0) := by
  decide +kernel

theorem witness_TierCommandsComplete :
    (stagingSt.inService ∧ (stagingSt.staging.find? fun c => c.req == 1 && c.block == 0 && c.layer == 0 && !c.arrived) = some copy0 ∧
      stagingSt.txns = [] ∧ copy0.blk ≠ 0 ∧ copy0.req ≠ 0 ∧ stagingSt.isHint 1 = false ∧ 0 < (stagingSt.req? 1).elim 1 fun r => max 1 r.parts.length) ∧
    (moveSt.inService ∧ moveSt.nextMove = some (move0 none) ∧ moveSt.rec? 5 = some rec5 ∧ rec5.loc? 0 = some loc0 ∧
      moveSt.moveStands (move0 none) rec5 loc0 ∧ moveSt.moveDest (move0 none) rec5 loc0 = some (0, 0)) ∧
    (farSt.nextMove = some (move0 none) ∧ farSt.rec? 5 = some farRec ∧ farRec.loc? 0 = some farLoc ∧
      farSt.moveStands (move0 none) farRec farLoc ∧ farSt.moveDest (move0 none) farRec farLoc = some (0, 0) ∧ farSt.stagingFree 0 1 ∧
      farSt.tableUp 2 ∧ farSt.tierFault farLoc = none) ∧
    (movingSt.inService ∧ movingSt.move? 21 = some (move0 (some 0)) ∧ movingSt.txns = [] ∧ movingSt.dir = [] ∧ movingSt.reqs = [] ∧ movingSt.extents = [] ∧ (movingSt.rec? 5).any fun r => (r.loc? 0).any fun l => l.moving &&
      match movingSt.readIssued r.ownerKind r.owner l with
      | .ok _ => true
      | _ => false) ∧
    (oldSt.inService ∧ (oldSt.seq? 0).any fun q => q.old.any fun v => v.num == 1 && v.pins == 0) ∧
    (seqSt.inService ∧ seqSt.isTray = false ∧ loc0.sweptAt < seqSt.now / seqSt.ripePeriod + 1) ∧
    (weightsSt.inService ∧ weightsSt.weights.any fun w => decide (w.swept.getD 1 0 < weightsSt.now / weightsSt.ripePeriod + 1) && decide (1 < w.counts.length)) := by
  decide +kernel

def bank5 : Bank := { n := 5, tag := 1, st := .working, rowsSpent := 0 }
def bank5Bad : Bank := { bank5 with st := .failing }
def bank64 : Bank := { n := 64, tag := 1, st := .rebuilding 5, rowsSpent := 0 }
def banksSt (bs : List Bank) : State := { base with array := { base.array with banks := bs } }
def spareBank : Bank := Bank.atBoot 64
/-- A proxy with a whole copy that waits to be verified. -/
def proxyE : DirEntry := { dirE with proxy := true, copyVerified := false, digest := pubDigest, holder := 3, handle := handleMk 3 0 1 }
def proxySt : State := { prefixSt with dir := [proxyE] }
def idleDomain : State := { prefixSt with now := 200000000 }
def recheck0 : Recheck := { blk := 5, layer := 0, engines := [(0, 3)] }
def recheckSt : State := { seqSt with rechecks := [recheck0] }

/-- A comparison is due, or not yet. -/
def dueSt (bs : List Bank) (suspects : List Nat) : State :=
  { banksSt bs with array := { (banksSt bs).array with compared := base.now, suspects := suspects } }

theorem witness_ArrayCommandsComplete :
    ((banksSt [bank5]).inService ∧ (banksSt [bank5]).shadows = [] ∧ prefixSt.shadows ≠ [] ∧
      ∀ x ∈ prefixSt.shadows, x.2.2.mirrorA = true ∧ x.2.2.mirrorB = true ∧ x.2.2.upset = none) ∧
    ((banksSt [bank5]).bank? 5 = some bank5 ∧ bank5.rowsSpent < 128 ∧ bank5.tag ≠ 0 ∧ bank5.st = .working ∧
      (banksSt [bank5]).array.compared + compareTicks ≤ base.now) ∧
    ((dueSt [bank5] [5]).bank? 5 = some bank5 ∧ base.now < (dueSt [bank5] [5]).array.compared + compareTicks ∧
      (dueSt [bank5] [5]).shadows = [] ∧ 5 ∈ (dueSt [bank5] [5]).array.suspects) ∧
    ((banksSt [bank5, spareBank]).bank? 5 = some bank5 ∧
      ((banksSt [bank5, spareBank]).array.banks.find? fun x => x.st == .spare) = some spareBank ∧ spareBank.n ≠ 5) ∧
    ((banksSt [bank5Bad, bank64]).inService ∧ (banksSt [bank5Bad, bank64]).bank? 64 = some bank64 ∧
      (banksSt [bank5Bad, bank64]).bank? 5 = some bank5Bad ∧ (banksSt [bank5Bad, bank64]).reqs = [] ∧
      (banksSt [bank5Bad, bank64]).array.held = []) := by
  decide +kernel

theorem witness_DirectoryUpkeepCompletes :
    (idleDomain.inService ∧ idleDomain.dir? 0 = some dirE ∧ idleDomain.domain? 1 = some d1 ∧ 5 + 1 * 470000 ≤ idleDomain.now ∧ dirE.refs = 0) ∧
    (proxySt.inService ∧ proxySt.dir? 0 = some proxyE ∧ proxySt.copyComplete proxyE ∧ proxyE.parent = 0 ∧
      proxySt.modelOf proxyE.fingerprint = some m0 ∧ got (proxySt.copyContent proxyE m0) = some (List.replicate 512 3) ∧
      digestHead m0.fingerprint proxyE.fmt proxyE.depth (proxySt.parentDigest proxyE.parent) = digestHead 7 2 1 (List.replicate 32 0)) ∧
    (recheckSt.inService ∧ (recheckSt.rechecks.find? fun x => x.blk == 5 && x.layer == 0) = some recheck0 ∧
      ((recheckSt.engineAt 0 3).any fun e => e.st == .active 3) ∧ recheckSt.spareEngine 0 = some 14 ∧ recheckSt.passes = [] ∧
      recheckSt.curds = [] ∧ recheckSt.calendar = []) ∧
    (recheckSt.rec? 5 = some rec5 ∧ rec5.loc? 0 = some loc0 ∧ recheckSt.isCopy 5 = false) ∧
    (let x := { recheck0 with blk := 6 }
     let e := { dirE with refs := 1 }
     let s := { prefixSt with dir := [e], rechecks := [x] }
     s.inService ∧ (s.rechecks.find? fun x => x.blk == 6 && x.layer == 0) = some x ∧ s.rec? 6 = some rec6 ∧ (rec6.loc? 0).any (fun l => !l.lost) ∧
       s.isCopy 6 = false ∧ rec6.published ∧ s.dir? 0 = some e ∧
       (s.dir.filter fun e => !s.heldAway e && e.st != .faulted && e.map.any fun x => x.2 == 6) = [e]) ∧
    (base.inService ∧ base.params.leaseMs * 470000 ≤ base.now ∧ base.memberPorts 7 = []) := by
  decide +kernel

/-- A frame that the tray's link accepts next, under the link's own key. -/
def frame0 : Frame :=
  { version := 3, cls := 1, last := true, coded := false, own := true, src := 20, dst := 0, fn := 0, tenant := 0, domain := 0, keyKind := 0,
    status := 0, keyEpoch := 0, frameSeq := 60, xid := 0, object := 0, offset := 0, aux := 0, tagOk := true }
def portIn (id : PortId) (st : PortSt) (session : Bool) : Port := { trayPort with id := id, st := st, session := session }
def linkSt (id : PortId) (st : PortSt) (session : Bool) : State := { base with ports := [portIn id st session] }
def config0 : ConfigF := { credits := List.replicate 8 4, cycleTicks := 0, gates := [], homeDigest := 0, domains := [] }
def oldSent : Sent :=
  { frameSeq := 39, msg := msgCredit, xid := 0, object := 1, aux := 0, status := 0, offset := 0, last := true, coded := false, data := [] }
/-- The tray's link with a frame in its replay buffer. -/
def replaySt : State := { base with ports := [{ trayPort with buffer := [oldSent] }] }
def laneCluster (spare : Bool) (bad : List Nat) : LinkCluster := { n := 0, mode := 1, lanesBad := bad, spareSpent := spare }
def laneSt (x : LinkCluster) : State := { traySt with clusters := [x] }

theorem witness_LinkUpCompletes :
    ([PortId.asvis 0, .cxl 2, .nvme 3 1].all fun id =>
      let s := linkSt id .training false
      s.inService && (s.port? id).map (·.st) == some .training && s.port? id == some (portIn id .training false) && s.resets.active == [] &&
        (s.trainingLanes (clusterOfPort id) [] []).port? id == some (portIn id .training false)) ∧
    ([(PortId.asvis 0, 224, 2), (.asvis 0, 112, 2), (.cxl 2, 128, 8), (.cxl 2, 32, 1), (.nvme 3 1, 64, 4)].all fun (id, rate, width) =>
      ((linkSt id .training false).trainingLanes (clusterOfPort id) [] []).listedRate id rate width) ∧
    (let s := linkSt (.asvis 0) .securing false
     s.port? (.asvis 0) = some (portIn (.asvis 0) .securing false) ∧ topVersion ownVersions 7 = some 3 ∧ topVersion ownVersions 1 = some 1 ∧
       (portIn (.asvis 0) .securing false).rate = 224 ∧ (portIn (.asvis 0) .securing false).resetting = false ∧ s.linkKeys ∧ (∀ d ∈ s.image.domains, d.domain < 1024) ∧ s.image.peerOwnerRoot = 0 ∧ s.memberPorts 20 = [portIn (.asvis 0) .securing false] ∧ (portIn (.asvis 0) .securing false).peer = some hello2 ∧
       (portIn (.asvis 0) .securing false).hello) ∧
    ((linkSt (.asvis 0) .securing true).port? (.asvis 0) = some (portIn (.asvis 0) .securing true) ∧
      frameLegal (portIn (.asvis 0) .securing true) frame0 [0] 0 ∧ frame0.frameSeq = trayPort.rxSeq) ∧
    ([PortId.cxl 2, .nvme 3 1].all fun id => (linkSt id .securing false).port? id == some (portIn id .securing false) &&
      (linkSt id .securing false).linkKeys) ∧
    ([PortId.cxl 2, .nvme 3 1].all fun id =>
      let p := { portIn id .securing false with asked := 0 }
      let last := { p with asked := (linkSt id .securing false).deviceSteps p |>.length }
      let s : State := { base with ports := [last] }
      ([true, false].all fun ide => ((linkSt id .securing false).secureSteps { p with asked := 1, ide := ide })[1]?.isSome &&
        ((linkSt id .securing false).authenticates { p with asked := 1, ide := ide } ||
          decide (1 < ((linkSt id .securing false).deviceSteps { p with asked := 1, ide := ide }).length))) &&
      decide ((s.deviceSteps last).length ≤ last.asked) && s.port? id == some last && s.linkKeys) ∧
    ((linkSt (.cxl 2) .down false).port? (.cxl 2) = some (portIn (.cxl 2) .down false) ∧
      (linkSt (.cxl 2) .down false).params.aslRetryMs * 470000 ≤ base.now ∧ (linkSt (.cxl 2) .down false).quiet (.cxl 2)) := by
  decide +kernel

theorem witness_LinkFramesComplete :
    traySt.hears 0 trayPort frame0 1 [0] 0 ∧ ({ frame0 with aux := 3 } : Frame).aux = hello2.bootEpoch ∧
      traySt.hears 0 trayPort { frame0 with aux := 3 } 1 [0] 0 ∧
      replaySt.hears 0 { trayPort with buffer := [oldSent] } { frame0 with object := 39 } 1 [0] 0 ∧
      traySt.hears 0 trayPort { frame0 with object := 2 ^ 63 + 5, aux := 9 } 1 [0] 0 ∧
      traySt.port? (.asvis 0) = some trayPort ∧ traySt.quiet (.asvis 0) ∧ trayPort.resetting = false ∧ traySt.slotFilled (portSlot (.asvis 0)) := by
  decide +kernel

theorem witness_PortFailuresComplete :
    ([PortId.cxl 2, .nvme 3 1].all fun id => [PortSt.up, .securing].all fun st =>
      (linkSt id st true).inService && (linkSt id st true).port? id == some (portIn id st true) && (linkSt id st true).quiet id) ∧
    ([laneCluster false [], laneCluster true [5]].all fun x =>
      (laneSt x).inService && ((laneSt x).clusters.find? fun y => y.n == 0) == some x && !x.lanesBad.contains 1 && x.logical 1 == some 1 &&
        lanePort 1 0 1 == .asvis 0 && (laneSt x).txns == []) := by
  decide +kernel

/-- A frame under domain 1's key, with its hash-key generation. -/
def frameD : Frame := { frame0 with tenant := 1, domain := 1, keyKind := 2, aux := 1, xid := 70 }
def homeSt (es : List DirEntry) : State := { prefixSt with dir := es, ports := [trayPort] }
def obj0 : PoolObj :=
  { id := 80, host := 20, addr := 4096, grains := 1, version := 1, data := [1, 2, 3], count := 3, resident := false, inStack := true,
    onFlash := false, swept := 0, ssdGroup := 0, lost := false }
def extentT (owner : Option Nat) : TrayExtent := { base := 4096, grains := 64, resident := true, owner := owner }
/-- A tray with an object and an extent of the peer. -/
def trayD : State :=
  { base with image := { img with tray := true }, ports := [trayPort],
              tray := { Tray.atBoot with objects := [obj0], extents := [extentT (some 20)] } }
def txn0 (kind : TxnKind) : Txn :=
  { xid := 70, port := .asvis 0, kind := kind, tenant := 1, due := 5, extent := none, data := [9], table := 0 }
/-- The peer's link with an open transaction. -/
def txnSt (kind : TxnKind) : State := { traySt with txns := [txn0 kind] }
def remoteCopy : StagingCopy := { copy0 with blk := 0, ahead := false }
def pageDataSt : State := { txnSt (.farPage 20) with staging := [remoteCopy] }
def dirKey (digest : BitVec 256) (hash : BitVec 128) : DirKeyF :=
  { domain := 1, fingerprint := 7, depth := 1, hash := hash, digest := digest, fmt := 2, parent := 0, parentDepth := 0, holder := 20,
    publisher := 1 }
def referenced : DirEntry := { dirE with refs := 2, proxies := [20] }
def proxy20 : DirEntry := { dirE with proxy := true, handle := handleMk 20 0 1, holder := 20 }
def remoteReq (d : Desc) : Req := { req d with phase := .remote }
def answeredSt (d : Desc) (kind : TxnKind) : State := { txnSt kind with reqs := [remoteReq d] }
/-- A compare-and-set with the key that a frame of domain 1 carries. -/
def casAnswer (es : List DirEntry) (k : DirKeyF) : CasAnswer :=
  (((homeSt es).heard 0 frameD).compareAndSet { k with domain := frameD.domain, holder := frameD.src, publisher := frameD.tenant } [] 0).1

theorem witness_PageMessagesComplete :
    (let s := homeSt [dirE]
     s.hears 0 trayPort frameD 1 [1, 2] 0 ∧ s.isTray = false ∧ 3 ≤ trayPort.version ∧
      (s.dir.find? fun e => e.handle == ph && e.domain == 1 && e.holder == s.params.deviceId && e.st != .faulted) = some dirE ∧
      s.hears 0 trayPort { frameD with object := ph } 1 [1, 2] 0 ∧ frameD.keyKind = 2 ∧ s.mirrored ∧ (s.rec? 6).any fun x => (x.loc? 0).any fun l =>
        match s.readStored x.ownerKind x.owner l with
        | .ok _ => true
        | _ => false) ∧
    (trayD.hears 0 trayPort { frameD with object := 4096 } 1 [1, 2] 0 ∧ trayD.isTray ∧
      (trayD.tray.objects.find? fun o => o.host == trayPort.device && o.addr == 4096) = some obj0 ∧
      trayD.slotFilled (ownerSlot 1 trayPort.device)) ∧
    (pageDataSt.hears 0 trayPort frameD 1 [1, 2] 128 ∧ pageDataSt.hears 0 trayPort { frameD with last := false } 1 [1, 2] 128 ∧
      pageDataSt.answered 0 frameD = some (txn0 (.farPage 20)) ∧ (pageDataSt.staging.find? fun y => y.id == 20) = some remoteCopy) ∧
    (trayD.hears 0 trayPort { frameD with object := 4160 - 64, aux := 2 } 1 [1, 2] 4096 ∧ trayD.hostMay trayPort.device 4096 2 = some true) ∧
    (let s := txnSt (.put 21)
     s.hears 0 trayPort frameD 1 [1, 2] 0 ∧ s.answered 0 frameD = some (txn0 (.put 21))) ∧
    (traySt.hears 0 trayPort frameD 2 [2] 0 ∧ traySt.isTray = false) ∧
    ((traySt.hears 0 trayPort frameD 2 [2] tableImage.length ∧ traySt.tables = [] ∧ traySt.metaGone = false ∧ (cleanImage tableImage).length = tableImageBytes ∧ imageOk (cleanImage tableImage) ∧
      traySt.impFree.take.isSome) ∧
      ∀ g, (txnSt (.tableFetch 1 g)).answered 0 frameD = some (txn0 (.tableFetch 1 g))) := by
  refine ⟨by decide +kernel, by decide +kernel, by decide +kernel, by decide +kernel, by decide +kernel, by decide +kernel,
    by decide +kernel, fun _ => rfl⟩

theorem witness_DirectoryMessagesComplete :
    ((homeSt []).hears 0 trayPort frameD 3 [2] 0 ∧ trayPort.dirOk ∧ (homeSt []).genOk frameD ∧ (homeSt []).tableUp 1 ∧
      ([dirKey 5 78, dirKey 5 77].all fun k =>
        !((homeSt []).heard 0 frameD).parentAway { k with domain := frameD.domain, holder := frameD.src, publisher := frameD.tenant }) ∧
      (match casAnswer [] (dirKey 5 78) with
       | .created _ => true
       | _ => false) = true ∧
      (match casAnswer [dirE] (dirKey 5 77) with
       | .conflict _ => true
       | _ => false) = true) ∧
    ((homeSt [dirE]).hears 0 trayPort frameD 3 [2] 0 ∧ (homeSt [dirE]).genOk frameD ∧ (homeSt [dirE]).tableUp 1) ∧
    (let fr := { frameD with object := ph }
     (homeSt [dirE]).hears 0 trayPort fr 3 [2] 0 ∧ (homeSt [dirE]).genOk fr ∧ (homeSt [dirE]).mirrored ∧ (homeSt [referenced]).mirrored ∧ (homeSt [dirE]).dir? 0 = some dirE ∧
       ((homeSt [dirE]).dir.find? fun e => e.handle == ph && !e.proxy && e.st == .published && e.domain == 1) = some dirE ∧
     (homeSt [referenced]).hears 0 trayPort fr 3 [2] 0 ∧ (homeSt [referenced]).genOk fr ∧ (homeSt [referenced]).entryOf ph = some referenced ∧
       (homeSt [referenced]).dir? 0 = some referenced ∧ (homeSt [referenced]).withdrawable ph 1 20 1 true = some referenced) ∧
    (let fr := { frameD with object := handleMk 20 0 1 }
     (homeSt [proxy20]).hears 0 trayPort fr 3 [2] 0 ∧ (homeSt [proxy20]).genOk fr ∧ (homeSt [proxy20]).mirrored ∧ (homeSt [proxy20]).entryOf (handleMk 20 0 1) = some proxy20 ∧
       (homeSt [proxy20]).dir? 0 = some proxy20 ∧ handleHome proxy20.handle = 20) ∧
    (let s := answeredSt (.withdraw 5) (.withdraw 1)
     s.hears 0 trayPort frameD 3 [2] 0 ∧ s.answered 0 frameD = some (txn0 (.withdraw 1)) ∧ s.txn? 70 = some (txn0 (.withdraw 1)) ∧
       s.req? 1 = some (remoteReq (.withdraw 5)) ∧ (s.ringOf (remoteReq (.withdraw 5))).isSome ∧ (txn0 (.withdraw 1)).due ≤ s.now ∧ (remoteReq (.withdraw 5)).ended = none) ∧
    (let s := answeredSt (.compare twoR) (.nmo 1)
     s.hears 0 trayPort frameD 2 [1, 2] 0 ∧ s.answered 0 frameD = some (txn0 (.nmo 1)) ∧ s.txn? 70 = some (txn0 (.nmo 1)) ∧
       s.req? 1 = some (remoteReq (.compare twoR)) ∧ (s.ringOf (remoteReq (.compare twoR))).isSome) := by
  decide +kernel

/-- Banks for every table, one of them for extents. -/
def extBanked (s : State) : State :=
  { s with array := { s.array with banks := mapIf (fun (b : Bank) => b.n == 7) (fun b => { b with tag := 2 }) s.array.banks } }
def upPort (id : PortId) : Port := { trayPort with id := id }
/-- Up: Asvis link 0, the CXL port of cluster 2, the NVMe root port (3, 1). -/
def portsSt : State := extBanked { base with ports := [trayPort, { upPort (.cxl 2) with gen31 := true }, upPort (.nvme 3 1)] }
def frameX : Frame := { frame0 with object := 4096, aux := 16384, xid := 70 }
def extSt (e : Extent) : State := { portsSt with extents := [e] }
def trayX (owner : Option Nat) : State :=
  { base with image := { img with tray := true }, ports := [trayPort], tray := { Tray.atBoot with extents := [extentT owner] } }
def claimSt : State := { extSt (ext0 0 .claiming) with txns := [txn0 (.claim 60)] }
def cxlTxn : Txn := { txn0 (.farPage 20) with port := .cxl 2 }
def nvmeTxn : Txn := { txn0 (.farPage 20) with port := .nvme 3 1 }
def farTxn : Txn := { txn0 (.farPage 20) with extent := some 60 }
def farCopy : StagingCopy := { copy0 with req := 77 }
def deviceSt (x : Txn) : State := { portsSt with txns := [x], staging := [farCopy] }

theorem witness_ExtentCommandsComplete :
    (portsSt.hears 0 trayPort frameX 1 [0] 0 ∧ portsSt.isTray = false ∧ portsSt.extentOn 0 4096 = none ∧
      (portsSt.extentRoom 16384).isSome) ∧
    ([none, some 20, some 3].all fun owner => (trayX owner).hears 0 trayPort frameX 1 [0] 0 && (trayX owner).isTray &&
      ((trayX owner).tray.extents.find? fun e => e.base == 4096) == some (extentT owner)) ∧
    (claimSt.hears 0 trayPort { frameX with aux := 0 } 1 [0] 0 ∧ claimSt.answered 0 { frameX with aux := 0 } = some (txn0 (.claim 60)) ∧
      claimSt.extent? 60 = some (ext0 0 .claiming)) ∧
    ((trayX (some 20)).hears 0 trayPort { frameX with aux := 1 } 1 [0] 0 ∧
      ((trayX (some 20)).tray.extents.find? fun e => e.base == 4096 && e.owner == some trayPort.device) = some (extentT (some 20))) ∧
    (portsSt.portIssues (.cxl 2) ∧ (portsSt.port? (.cxl 2)).any (·.gen31)) ∧
    ([ext0 0 .claiming, ext0 0 .active].all fun e => (extSt e).extent? 60 == some e && (extSt e).extentOn 0 4096 == some e &&
      (extSt e).moves == [] && ((extSt e).extents.all fun x => (extSt e).extentPages x == [] && (extSt e).extentChunks x == []) &&
      (extSt e).hears 0 trayPort { frameX with aux := 0 } 1 [0] 0 && (extSt e).hears 0 trayPort { frameX with aux := 1 } 1 [0] 0) ∧
    ((extSt (ext0 98 .active)).inService ∧ (extSt (ext0 98 .active)).extentTagged 2 5 = some (ext0 98 .active)) := by
  decide +kernel

theorem witness_ReleasesRunTheirCourse :
    ([{ ext0 0 .active with releasing := true }, ext0 0 .draining, ext0 0 .revoked].all fun e =>
      (extSt e).inService && (extSt e).extent? 60 == some e && (extSt e).moves == [] && (extSt e).txns == [] &&
        decide (e.since + (extSt e).params.evacuateMs * 470000 ≤ (extSt e).now) && (extSt e).portIssues (.asvis 0) && (extSt e).slotFilled (portSlot (.asvis 0))) ∧
    (let s := { extSt (ext0 0 .draining) with txns := [farTxn], staging := [farCopy] }
     s.extent? 60 = some (ext0 0 .draining) ∧ 0 + 70500 ≤ s.now ∧ (s.txns.filter fun t => t.extent == some 60) = [farTxn] ∧
       s.txn? 70 = some farTxn ∧ (s.staging.find? fun y => y.id == 20) = some farCopy ∧ s.dir = [] ∧ s.reqs = []) := by
  decide +kernel

theorem witness_FarDevicesAnswer :
    ([cxlTxn, { cxlTxn with kind := .spill 1 }].all fun x =>
      (deviceSt x).inService && (deviceSt x).portTxn (.cxl 2) 70 == some x) ∧
    ((deviceSt nvmeTxn).portTxn (.nvme 3 1) 70 = some nvmeTxn ∧ nvmeTxn.due ≤ (deviceSt nvmeTxn).now ∧
      (deviceSt nvmeTxn).dir = [] ∧ (deviceSt nvmeTxn).reqs = [] ∧ (upPort (.nvme 3 1)).resetting = false ∧
      (deviceSt nvmeTxn).port? (.nvme 3 1) = some (upPort (.nvme 3 1))) ∧
    (let q := { upPort (.nvme 3 1) with resetting := true }
     let x := { nvmeTxn with nvme := some { nsid := 1, lba := 0, blocks := 1, data := none } }
     let s : State := { base with ports := [q], txns := [x] }
     s.port? (.nvme 3 1) = some q ∧ q.st = .up ∧ x.port = .nvme 3 1) := by
  decide +kernel

/-- A region of one grain, written or read by the peer. -/
def region0 (st : RegionSt) (grants : List Nat) : Region :=
  { id := 9, version := 1, domain := 1, st := st, writer := 20, grains := 1, grants := grants, digest := 0, bytes := [], waiting := [],
    recallFor := none, recallAt := 0 }
def grantBanked (s : State) : State :=
  { s with array := { s.array with banks := mapIf (fun (b : Bank) => b.n == 8) (fun b => { b with tag := 6 }) s.array.banks } }
def regSt (rs : List Region) : State :=
  let s : State := grantBanked
    { base with image := { img with tray := true }, ports := [trayPort], tray := { Tray.atBoot with regions := rs } }
  { s with array := { s.array with grants := rs.flatMap fun r => r.grants.map fun h =>
      { domain := 1, region := 9, version := r.version, host := h, base := 0, grains := 1 } } }
/-- The same, with an operator's connection. -/
def opSt (rs : List Region) : State :=
  { regSt rs with mgmt := { (regSt rs).mgmt with conns := [{ n := 3, role := 1, tenant := 1, last := 0, owner := true }] } }
def draft0 : Region := region0 .draft [20]
def pub0 : Region := region0 .published [20, 21]
/-- A draft whose publication recalls two hosts' grants. -/
def recalled : Region := { region0 .recalling [20, 21] with waiting := [20, 21], recallFor := some .publish }
/-- A frame that names region 9. -/
def frameR : Frame := { frameD with object := 9, aux := 0 }
def fill9 : FillF := { dst := { kind := 3, handle := 9, address := 64, length := 128 }, pattern := 7 }
def compare9 : TwoOpF := { a := { kind := 3, handle := 9, address := 0, length := 64 }, b := { kind := 3, handle := 9, address := 64, length := 64 } }
def poolObj : PoolObj := { obj0 with data := List.replicate 128 5 }
def poolSt : State := { trayD with tray := { trayD.tray with objects := [poolObj] } }
def failedSt : State :=
  { poolSt with
    tray := { poolSt.tray with ssdFailed := [(0, 3)], objects := [{ poolObj with onFlash := true, inStack := false }] } }

theorem witness_RegionCommandsComplete :
    (let s := regSt []
     s.inService ∧ s.isTray ∧ s.draft? 20 1 9 1 = none ∧ s.canRecall 20 ∧ s.grantRoom 1 ∧ s.regionBase 1 + 1 ≤ 2 ^ 40) ∧
    ((regSt []).serves 3 { n := 3, role := 1, tenant := 1, last := 0, owner := true } [1] false = false ∧
      (opSt []).serves 3 { n := 3, role := 1, tenant := 1, last := 0, owner := true } [1] false) ∧
    ((regSt [pub0]).publishedRegion 1 9 1 = some pub0 ∧ (regSt [pub0]).canRecall 22 ∧ pub0.grants.contains 22 = false ∧
      (regSt [pub0]).grantRoom pub0.grains ∧ ((regSt [pub0]).tray.regions.find? fun r => r.named 1 9 1 && r.grants.contains 21) = some pub0) ∧
    ((regSt [region0 .published []]).publishedRegion 1 9 1 = some (region0 .published [])) ∧
    ((regSt [draft0]).draftFor 20 1 9 1 = some draft0 ∧ draft0.grants.contains 20 ∧
      (regSt [{ draft0 with conflict := true }]).draftFor 20 1 9 2 = some { draft0 with conflict := true } ∧
      ((regSt [draft0]).tray.regions.find? fun r => r.named 1 9 1 && r.grants.contains 20) = some draft0) ∧
    ((regSt [recalled]).recallOf 20 9 1 = some recalled ∧ (recalled.waiting.filter fun h => h != 20) ≠ [] ∧
      (regSt [recalled]).hears 0 trayPort { frameR with object := 9 + 2 ^ 32 } 3 [2] 0 ∧ trayPort.device = 20 ∧
      regionNamed { frameR with object := 9 + 2 ^ 32 } = (9, 1) ∧
      recalled.recallAt + (regSt [recalled]).params.recallUs * ticksPerUs ≤ base.now ∧ 64 * 255 + 64 ≤ recalled.size) := by
  decide +kernel

/-- A tray whose directory table has lost a bank. -/
def shortTray : State :=
  let s := regSt [pub0]
  { s with array := { s.array with banks := mapIf (fun (b : Bank) => b.n == 8) (fun b => { b with st := .failing }) s.array.banks } }

theorem witness_TrayAccessesComplete :
    ((regSt [pub0]).hears 0 trayPort frameR 3 [2] 0 ∧ (regSt [pub0]).isTray ∧ (regSt [pub0]).tableUp 6 ∧ (regSt [pub0]).readable 20 1 9 0 = some pub0 ∧
      0 + 4096 ≤ pub0.size ∧ (regSt [pub0]).reaches pub0 20 0 4096) ∧
    ((regSt [draft0]).hears 0 trayPort frameR 3 [2] 64 ∧ (regSt [draft0]).tableUp 6 ∧ (regSt [draft0]).writable 20 1 9 0 = some draft0 ∧
      (regSt [draft0]).writable 20 1 9 1 = some draft0 ∧ (regSt [draft0]).hears 0 trayPort frameR 2 [1, 2] 0 ∧
      fill9.dst.address + fill9.dst.length ≤ draft0.size ∧ (regSt [draft0]).reaches draft0 20 64 128 ∧
      (regSt [draft0]).reaches draft0 20 0 64) ∧
    (shortTray.hears 0 trayPort frameR 3 [2] 0 ∧ shortTray.isTray ∧ shortTray.tableUp 6 = false) ∧
    (traySt.hears 0 trayPort frameR 3 [2] 0 ∧ traySt.reqs = []) ∧
    (((regSt [pub0]).regionSource 20 1 compare9.a).isSome ∧ ((regSt [pub0]).regionSource 20 1 compare9.b).isSome ∧
      (regSt [pub0]).hears 0 trayPort frameR 2 [1, 2] 0) ∧
    (poolSt.inService ∧ poolSt.isTray ∧ poolSt.hostMay 20 (1048577 / 256) 1 = some true ∧
      (poolSt.tray.objects.find? fun o => o.overlaps 20 (1048577 / 256) 1) = some poolObj ∧
      poolObj.inStack ∧ poolSt.slotFilled (ownerSlot 1 20)) ∧
    ((regSt [pub0]).cxlRegionOf 20 9 1 false = some pub0 ∧ (regSt [draft0]).cxlRegionOf 20 9 1 true = some draft0 ∧
      64 * 3 + 64 ≤ pub0.size ∧ 64 * 3 + 64 ≤ draft0.size ∧ (regSt [pub0]).reaches pub0 20 192 64 ∧
      (regSt [draft0]).reaches draft0 20 192 64) := by
  decide +kernel

/-- Nine SSDs, and a page that is on its way to them. -/
def flashSt (o : PoolObj) (xs : List Txn) : State :=
  { poolSt with ports := trayPort :: (List.range 9).map fun p => upPort (.nvme (p / 2) (p % 2)), txns := xs,
                tray := { poolSt.tray with objects := [o] } }
def destageTxn : Txn := { txn0 (.destage 80) with port := .nvme 0 0 }

theorem witness_TrayFlashCompletes :
    (let s := flashSt poolObj []
     s.inService ∧ s.isTray ∧ s.object? 80 = some poolObj ∧ poolObj.resident = false ∧ poolObj.lost = false ∧ poolObj.onFlash = false ∧
       poolObj.place = none ∧ (s.tray.ssdFailed.filter fun x => x.1 == poolObj.ssdGroup).length < 2 ∧ 9 * poolObj.ssdGroup + 9 ≤ s.ssdPorts.length ∧
       s.stagingFree 0 1 ∧ firstFit (s.flashRuns 0) 0 (2 ^ 40) 1 = some 0 ∧ s.ssdPorts[grainSsd 0]?.isSome ∧ s.ssdDown 0 (grainSsd 0) = false) ∧
    (let s := flashSt { poolObj with place := some 0 } [destageTxn]
     s.inService ∧ s.portTxn (.nvme 0 0) 70 = some destageTxn ∧ { poolObj with place := some 0 } ∈ s.tray.objects ∧ s.tray.gets = []) ∧
    (poolSt.inService ∧ poolSt.isTray ∧ poolSt.tray.ssdFailed.contains (0, 3) = false ∧
      (poolSt.tray.ssdFailed.any fun x => x.1 == 0) = false ∧ poolSt.tray.pairSpare) ∧
    (failedSt.inService ∧ failedSt.isTray ∧ failedSt.tray.ssdFailed.contains (0, 4) = false ∧
      (failedSt.tray.ssdFailed.any fun x => x.1 == 0) ∧ failedSt.tray.objects.any fun o => o.ssdGroup == 0 && o.onFlash) ∧
    (let s := { poolSt with tray := { poolSt.tray with rebuilding := true, pairFailed := 1 } }
     s.inService ∧ s.tray.rebuilding) := by
  decide +kernel

def rowSt : State := base.setRowCount 0 7 3
def group0 (rebuild : Nat) (st : GroupSt) : PGroup := { PGroup.atBoot 0 with st := st, rebuild := rebuild }
/-- Stack 2 is lost, and group 0 is at work on it. -/
def groupSt (g : PGroup) : State :=
  { base with groups := [g, PGroup.atBoot 1], dram := mapIf (fun (x : Stack) => x.n == 2) (fun x => { x with lost := true }) base.dram }

theorem witness_MemoryCommandsComplete :
    (base.inService ∧ base.stackUp 0 ∧ base.rowCount 0 7 + 1 < base.params.rowCeLimit ∧ rowSt.stackUp 0 ∧
      rowSt.params.rowCeLimit ≤ rowSt.rowCount 0 7 + 1) ∧
    base.stack? 3 = some (Stack.atBoot 3) ∧
    (base.recs = [] ∧ base.calendar = [] ∧ base.groupOf 2 = some (PGroup.atBoot 0) ∧ 3 ≤ (PGroup.atBoot 0).layout.length ∧
      ((PGroup.atBoot 0).layout.filter fun j => j != 2 && base.stackUp j) ≠ [] ∧
      (base.groups.find? fun x => x.n == 0) = some (PGroup.atBoot 0)) ∧
    ([group0 1 .degraded, group0 2 .degraded].all fun g => (groupSt g).inService && ((groupSt g).groups.find? fun x => x.n == 0) == some g &&
      (groupSt g).groupPages g == 0 && ((groupSt g).t1ChunksAt g.holds).isEmpty) := by
  decide +kernel

theorem witness_DirectRegionCompletes :
    base.inService ∧ 63 < base.directLines ∧ base.directUp ∧ base.directKeyed ∧ base.directBad.contains 63 = false ∧
      base.directBlocked (64 * 63) 64 = false ∧ ({ base with directBad := [57] } : State).directBlocked (64 * 63) 64 := by
  decide +kernel

def briningSt : State :=
  { base with engines := mapIf (fun (e : Engine) => e.cluster == 0 && e.slot == 14) (fun e => { e with st := .brining 3 }) base.engines }
def shelfAt (bank : Nat) (st : ShelfSt) : State :=
  { base with faults := { base.faults with shelf := mapIf (fun (b : Nat × ShelfSt) => b.1 == bank) (fun b => (b.1, st)) base.faults.shelf } }
def pairsSt (ps : List ControlPair) : State := { base with faults := { base.faults with pairs := ps } }
def pair1 (halted : Bool) : ControlPair := { ControlPair.atBoot 1 with halted := halted, checkpoint := 8 }
def sparePair : ControlPair := ControlPair.atBoot 4
/-- A class-0 lookup that the deadline monitor holds. -/
def lookReq : Req := { req (.lookupHash lookA) with cls := 0, deadline := 200000000 }
def monitorSt : State := { base with reqs := [lookReq], monitor := { held := [(1, 200000000)], count := 1, failed := false } }
def staleReq : Req := { req (.lookupHash lookA) with decided := 0 }
def staleSt : State := { base with now := 10000000000, reqs := [staleReq] }
def event0 : Event := { seq := 0, code := some 0x8402, name := "KEY_BANK_REPLACED", source := 4, first := 10, last := 10, count := 1, detail := 0 }
def event1 : Event := { event0 with code := some 0x8403, name := "AES_LANE_REMAPPED" }
def recorderSt (ring queue : List Event) : State :=
  { base with recorder := { Recorder.empty with ring := ring, next := ring.length, queue := queue, booted := true } }

theorem witness_EngineAndModuleFaultsComplete :
    (base.inService ∧ ((base.engineAt 0 3).any fun e => e.st == .active 3) ∧ base.spareEngine 0 = some 14 ∧ base.passes = [] ∧
      base.curds = [] ∧ base.calendar = []) ∧
    ((briningSt.engineAt 0 14).any fun e => e.st == .brining 3 && decide (e.brined + 2162 ≤ briningSt.now)) ∧
    (base.shelfSt 63 = .working ∧ base.spareShelf = some 64 ∧ (shelfAt 63 (.copying 64 0)).shelfSt 63 = .copying 64 0) ∧
    (base.isTray = false ∧ base.faults.modulesOut = [] ∧ base.calendar = [] ∧ ∃ k ∈ base.zarfyModules 0, k ≠ 3) ∧
    (let s := { base with faults := { base.faults with groupsUp := [] } }
     s.isTray = false ∧ s.boot.phase = .service ∧ (s.ucie? 0).isSome ∧ s.zarfyModules 0 ≠ [] ∧ s.faults.groupsUp.contains 0 = false) := by
  decide +kernel

theorem witness_ControlFaultsComplete :
    (base.inService ∧ (base.faults.pairs.find? fun p => p.n == 1) = some (ControlPair.atBoot 1) ∧ (ControlPair.atBoot 1).partition = some 1 ∧
      base.dependOn 1 = [] ∧ (base.faults.pairs.any fun x => x.n != 1 && !x.halted && x.partition.isNone) ∧
      (base.faults.pairs.find? fun p => p.n == 4) = some sparePair ∧ sparePair.partition = none) ∧
    (let s := pairsSt [pair1 true, sparePair]
     (s.faults.pairs.find? fun p => p.halted && p.partition == some 1) = some (pair1 true) ∧
       (s.faults.pairs.find? fun p => !p.halted && p.partition.isNone) = some sparePair ∧
       (s.faults.pairs.find? fun p => p.n == 4) = some sparePair) ∧
    (base.keyBanks.contains 0 ∧ (base.keyBanks.filter fun b => b != 0 && !(base.island.copying && b == 2)) ≠ [] ∧ base.sparesUsed 7 0 = 0) ∧
    base.island.aesBad = [] ∧
    (base.hashEngines = [0, 1, 2, 3, 4, 5, 6, 7] ∧ base.island.shaDoubt = []) ∧
    (let r := { started appendA with done := 2, entries := [{ segment := 0, validTokens := 16, hashed := false, tokens := true, chainHash := 0, tokenAddr := 0 }], tables := [(0, 1)] }
     let s := { startedSt appendA with reqs := [r] }
     s.inService ∧ s.req? 1 = some r ∧ r.codesNow true ∧ r.hashesNow true ∧ (s.seqOf r.tenant h0).isSome ∧ (s.ringOf r).isSome) ∧
    (base.monitor.failed = false ∧ base.monitor.held = [] ∧ monitorSt.req? 1 = some lookReq ∧ (monitorSt.ringOf lookReq).isSome) ∧
    (staleSt.inService ∧ staleSt.req? 1 = some staleReq ∧ staleReq.trackOk ∧
      staleReq.decided + staleSt.params.watchdogMs * 470000 ≤ staleSt.now ∧ (staleSt.ringOf staleReq).isSome) := by
  decide +kernel

theorem witness_RecorderCommandsComplete :
    ((recorderSt [] [event0]).recorder.booted ∧ (recorderSt [] [event0]).recorder.dropped = 0) ∧
    event0.repeats event0 ∧ event1.repeats event0 = false ∧
    (base.inService ∧ (base.faults.pairs.find? fun p => p.n == 4) = some sparePair ∧ sparePair.halted = false ∧
      sparePair.partition = none) := by
  decide +kernel

def conn3 (role : Nat) : Conn := { n := 3, role := role, tenant := 1, last := 0, owner := true }
/-- A state with one management connection. -/
def connSt (role : Nat) (s : State) : State := { s with mgmt := { s.mgmt with conns := [conn3 role] } }
def tenant1 (life : TenantLife) (drained swept : Bool) (answerTo : Option Nat) : TenantSt :=
  { tenant := 1, life := life, activeSince := 0, swept := swept, drained := drained, epoch := 65535, removeTick := 0, answerTo := answerTo }
def lifeSt (x : TenantSt) (seqs : List Seq) : State := connSt 2 { base with tenants := [x], seqs := seqs }
def token0 (scope : Nat) : Token :=
  { layout := 1, scope := scope, device := Config.deviceDigest, nonce := 5, ownerSigOk := true, vendorSigOk := true }
/-- A nonce is open; `ts` are the tenants. -/
def nonceSt (ts : List TenantSt) : State :=
  connSt 2 { base with dbg := { base.dbg with nonce := some (5, 0) }, tenants := ts }
def session0 (tr : Transport) (st : SessionSt) (root : BitVec 256) : Session :=
  { transport := tr, st := st, secret := 0, version := 0x12, slot := if st = .negotiated then none else some 6573, root := root, chunks := [],
    large := [1, 2], updates := 0 }
/-- The key broker's session stands on connection 3, and the model's header holds the check value of key 9. -/
def brokerSt : State :=
  connSt 1 { weightsSt with
    image := { weightsSt.image with brokerRoot := 4 },
    weights := [{ model := 0, header := { head0 with keyCheck := modelKeyCheck 9 }, counts := [0, 0], swept := [0, 0], cached := [] }],
    island := { weightsSt.island with sessions := [session0 (.mgmt 3) .established 4] } }

theorem witness_TenantCommandsComplete :
    ([tenant1 .active false false none, tenant1 .removing true false (some 3), tenant1 .removed true true none].all fun x =>
      (lifeSt x []).serves 3 (conn3 2) [2] false && (lifeSt x []).tenant? 1 == some x && (lifeSt x []).workOf 1 == [] &&
        (lifeSt x []).dbg.stands == false && (lifeSt x []).island.drbgOn) ∧
    (let x := tenant1 .removing false false none
     (lifeSt x []).inService ∧ (lifeSt x []).tenant? 1 = some x ∧ (lifeSt x []).workOf 1 = []) ∧
    (let x := tenant1 .removing true false (some 3)
     (lifeSt x []).inService ∧ (lifeSt x []).tenant? 1 = some x ∧ ((lifeSt x []).conn? 3).isSome ∧ (lifeSt x []).dbg.opening = []) ∧
    ([[], [seq0]].all fun qs => (lifeSt (tenant1 .removed true false none) qs).inService &&
      (lifeSt (tenant1 .removed true false none) qs).tenant? 1 == some (tenant1 .removed true false none)) := by
  decide +kernel

theorem brokerSt_headerCheck : brokerSt.headerCheck m0.index = some (modelKeyCheck 9) := rfl
theorem tokens_pass (s : State) (scope : Nat) (h : scope = 1 ∨ scope = 2) (hn : s.dbg.nonce = some (5, 0)) (ho : s.debugLevel < scope)
    (ht : s.now < 28200000000) : s.tokenFails (token0 scope) = 0 := by
  rcases h with rfl | rfl <;> simp [State.tokenFails, token0, hn, ht, Nat.not_le.mpr ho]
theorem brokerSt_accepts : brokerSt.keyAccepted 3 m0 9 (modelKeyCheck 9) = true := by
  have hb : brokerSt.brokerSession 3 = true := by decide +kernel
  have hs : brokerSt.dbg.stands = false := rfl
  simp [State.keyAccepted, hb, hs, brokerSt_headerCheck]

theorem witness_DebugAndKeyCommandsComplete :
    ((nonceSt base.tenants).serves 3 (conn3 2) [2] false ∧ (nonceSt base.tenants).island.drbgOn ∧
      (nonceSt base.tenants).tokenFails { token0 1 with layout := 0 } = 1) ∧
    (∀ scope, (scope = 1 ∨ scope = 2) → (nonceSt base.tenants).tokenFails (token0 scope) = 0) ∧
    ((∀ x ∈ (nonceSt []).tenants, x.life ≠ .active ∧ x.life ≠ .removing) ∧ (nonceSt []).dbg.opening = [] ∧
      (nonceSt []).serves 3 (conn3 2) [2] false ∧ (nonceSt []).reqs = [] ∧ (nonceSt []).passes = [] ∧ (nonceSt []).recs = []) ∧
    (let s := { nonceSt [] with now := 28200000000 }
     s.dbg.nonce = some (5, 0) ∧ 0 + 28200000000 ≤ s.now) ∧
    base.islandOn ∧
    (brokerSt.inService ∧ (brokerSt.conn? 3).isSome ∧ brokerSt.modelOf 7 = some m0 ∧ brokerSt.brokerSession 3) ∧
    brokerSt.keyAccepted 3 m0 9 (modelKeyCheck 9) := by
  refine ⟨by decide +kernel, ?_, by decide +kernel, by decide +kernel,
    by decide +kernel, by decide +kernel, brokerSt_accepts⟩
  rintro n (rfl | rfl)
  · exact tokens_pass _ 1 (.inl rfl) (by decide +kernel) (by decide +kernel) (by decide +kernel)
  · exact tokens_pass _ 2 (.inr rfl) (by decide +kernel) (by decide +kernel) (by decide +kernel)

def spdmUp : State :=
  connSt 1 { base with
    image := { img with ucie := [{ group := 0, rateGts := 32, readLatency := 100, spdm := true, apertureBase := 0 }], tray := true },
    mgmt := { base.mgmt with i3cAddr := some 9 },
    ports := [portIn (.asvis 0) .securing false, upPort (.cxl 2)] }
/-- A transport that answers, with a session in the state given; certificate slot 1 is present. -/
def spdmSt (tr : Transport) (st : SessionSt) : State :=
  { spdmUp with mgmt := { spdmUp.mgmt with conns := [conn3 1] },
                island := { spdmUp.island with sessions := [session0 tr st 0], slot1 := true } }

theorem witness_SpdmCommandsComplete :
    ([Transport.mgmt 3, .i3c, .asvis 0, .cxl 2, .ucie 0].all fun tr => [SessionSt.negotiated, .exchanged, .established].all fun st =>
      (spdmSt tr st).spdmOn tr && (spdmSt tr st).session? tr == some (session0 tr st 0) && (spdmSt tr st).certSlot 0 &&
        (spdmSt tr st).certSlot 1 && (spdmSt tr st).exchangeOpen tr && (spdmSt tr st).island.drbgOn &&
        (((spdmSt tr st).endSession tr .negotiated).sessionSlot tr == some (if tr = .asvis 0 then portSlot (.asvis 0) else 6573))) ∧
    isNext (exec (.chunkSend .i3c [5] .more) (spdmSt .i3c .negotiated)) ∧
    (session0 .i3c .negotiated 0).version ≠ 0 ∧
    (let x := { session0 .i3c .negotiated 0 with version := 0 }
     let s := { spdmUp with island := { spdmUp.island with sessions := [x] } }
     s.spdmOn .i3c ∧ s.session? .i3c = some x) := by
  decide +kernel

def bootSt (b : Boot → Boot) : State := { State.reset with boot := b State.reset.boot }
def legalModel : ModelRec := m0
/-- An image that passes every check for a controller whose owner key is 3. -/
def legalImage : Image :=
  { img with headerOk := true, imageBytes := 4096, ownerKey := 3, sections := [0x01, 0x02, 0x10, 0x20, 0x21, 0x22, 0x23, 0x24], params := {}, domains := [d1],
             tenants := [{ t1 with pinT1 := 1024 }], chainOk := true, vendorSigOk := true, ownerSigOk := true, sectionDigestsOk := true,
             unwrapOk := true, securityVersion := 2 }
def entry3 : BootEntry := { BootEntry.none with generation := 4, ownerDigest := 3, svFloor := 2 }
def identitySt (tried : Bool) : State := bootSt fun b => { b with phase := .identity, entry := entry3, triedOther := tried }
def trainingSt (trained trial : Bool) : State :=
  let s := bootSt fun b => { b with phase := .training, entry := entry3, trained := trained, trial := trial }
  { s with image := legalImage, now := 2820000000 }
def resetSt (active : List (Nat × Nat × List Nat)) : State :=
  connSt 1 { base with resets := { epoch := 2 ^ 32 - 1, active := active, lastDomain := 0 } }

theorem witness_BootCommandsComplete :
    (base.boot.phase ≠ .aonOff ∧ base.boot.phase = .service ∧ base.power.priGone = false) ∧
    (bootSt fun b => { b with phase := .inReset }).boot.phase = .inReset ∧
    ((identitySt false).boot.phase = .identity ∧ (identitySt false).flashA.idAreaOk ∧
      ((identitySt false).flash (identitySt false).boot.selB).slot.getD legalImage = legalImage ∧
      ((identitySt false).flash (identitySt false).boot.selB).slot.getD imageNone = imageNone ∧
      imageFails (identitySt false).boot.entry true legalImage = 0 ∧ imageFails (identitySt false).boot.entry true imageNone ≠ 0 ∧
      (identitySt false).boot.triedOther = false ∧ (identitySt true).boot.triedOther) ∧
    ((trainingSt false false).boot.phase = .training ∧ (trainingSt false false).boot.trained = false) ∧
    ((trainingSt true false).boot.phase = .training ∧ (trainingSt true false).boot.trained) ∧
    ((trainingSt false true).boot.trial ∧ 2820000000 ≤ (trainingSt false true).now ∧ (trainingSt false true).power.priGone = false) := by
  decide +kernel

theorem witness_PartialResetsComplete :
    (let s := resetSt []
     s.serves 3 (conn3 1) [1] false ∧ s.fn? 0 = some fn0 ∧ fn0.code = .ready ∧ s.resets.active = [] ∧ s.reqs = [] ∧ s.passes = [] ∧
       s.calendar = [] ∧ s.txns = [] ∧ (s.ucie? 0).isSome ∧ s.faults.groupsUp.contains 0) ∧
    (let s := connSt 1 { base with fns := [], resets := { epoch := 2, active := [], lastDomain := 0 } }
     s.serves 3 (conn3 1) [1] false ∧ (s.ucie? 0).isSome ∧ ∀ f ∈ s.fns, f.group ≠ 0) ∧
    (let s := resetSt [(2, 23, [3])]
     s.inService ∧ (s.resets.active.find? fun x => x.1 == 2 && x.2.1 == 23) = some (2, 23, [3]) ∧ (s.conn? 3).isSome) := by
  decide +kernel

def updateSt (st next total : Nat) : State :=
  connSt 1 { base with update := { st := st, staged := some legalImage, next := next, total := total, recovery := false },
                       boot := { base.boot with entry := entry3 } }
def heldPort : State := connSt 1 (linkSt (.asvis 0) .up true)
def quarantinedPort : State := connSt 1 (linkSt (.asvis 0) .quarantined false)
def account0 : AccountRec := { key := 6, role := 2, tenant := 0 }
def accountSt : State := { base with image := { img with accounts := [account0], params := { img.params with i3cStatic := 0x20 } } }

theorem witness_ManagementReadsComplete :
    (3 < 8 ∧ base.boot.phase ≠ .stopped .thermal) ∧
    ([1, 2, 3, 4].all fun role => (connSt role base).serves 3 (conn3 role) [1, 2, 3, 4] true) ∧
    ([1, 2, 3].all fun role => (connSt role base).serves 3 (conn3 role) [1, 2, 3] false &&
      (connSt role base).serves 3 (conn3 role) [1, 2, 3] true) ∧
    ((connSt 4 base).serves 3 (conn3 4) [4] false ∧ ((connSt 4 base).coarseGroup (conn3 4).tenant tgCapacity 1).isSome ∧ tgCapacity ≤ 7) ∧
    (base.recorder.next ≤ 65536 ∧ ((connSt 1 base).fn? 1023).isSome ∧ (connSt 1 base).serves 3 (conn3 1) [1, 3] false ∧
      (connSt 3 base).serves 3 (conn3 3) [1, 3] false) ∧
    ((connSt 5 base).conn? 3 = some (conn3 5) ∧ (connSt 5 base).portOn) := by
  decide +kernel

/-- An extent of T2 has room for the model's weights. -/
def roomySt : State := connSt 1 (extSt (ext0 0 .active))
/-- The places of a load's chunks, where there is room. -/
def loadFits (s : State) (m : ModelRec) : Option Weights :=
  let u := s.touch 3
  { u with weights := u.weights.filter fun x => x.model != 0 }.placeChunks m.weightsTier head0.chunks
    { model := 0, header := head0, counts := [0, 0], swept := [0, 0], cached := [] }

/-- The header of `head0` is legal wherever the stepping lets two chunks stand in the model's tier (log entry 4). -/
theorem head0_legal (h : 2 ≤ Config.weightChunks 2) : headerLegal m0 head0 = true := by
  simp [headerLegal, within, head0, m0, h]

theorem witness_ManagementActionsComplete :
    ((updateSt 1 4096 8192).serves 3 (conn3 1) [1] false ∧ (updateSt 1 4096 8192).update.next = 4096 ∧
      4096 + 1024 < (updateSt 1 4096 8192).update.total ∧ 4096 + 4096 = (updateSt 1 4096 8192).update.total ∧
      (updateSt 1 4096 8192).stagedFails legalImage = 0) ∧
    ([2, 3].all fun st => (updateSt st 0 0).serves 3 (conn3 1) [1] false && (updateSt st 0 0).update.st == st &&
      (updateSt st 0 0).flashA.writable && (updateSt st 0 0).flashB.writable) ∧
    (heldPort.serves 3 (conn3 1) [1] false ∧ (heldPort.port? (.asvis 0)).isSome ∧ heldPort.quiet (.asvis 0) ∧
      ((quarantinedPort.port? (.asvis 0)).any fun p => p.st == .quarantined) ∧ quarantinedPort.quiet (.asvis 0)) ∧
    (heldPort.model? 0 = some m0 ∧ headerLegal m0 { head0 with layout := 0 } = false ∧ (loadFits heldPort m0).isNone) ∧
    (roomySt.model? 0 = some m0 ∧ (loadFits roomySt m0).isSome ∧ roomySt.serves 3 (conn3 1) [1] false) ∧
    (let s := connSt 1 { base with volumes := [255] }
     s.serves 3 (conn3 1) [1] false ∧ s.volumes.contains 255) ∧
    ((connSt 1 base).serves 3 (conn3 1) [1] true ∧ base.power.priGone = false) := by
  decide +kernel

theorem witness_ConnectionCommandsComplete :
    (accountSt.portOn ∧ accountSt.boot.phase ≠ .failed ∧ accountSt.boot.phase ≠ .failedNoId ∧
      ((List.range 8).find? fun n => (accountSt.conn? n).isNone) = some 0 ∧
      (accountSt.image.accounts.find? fun a => a.key == 6) = some account0) ∧
    (let s := { connSt 1 base with now := 470000000 * 400 }
     s.conn? 3 = some (conn3 1) ∧ s.portOn ∧ (conn3 1).last + s.params.mgmtIdleS * 470000000 ≤ s.now) ∧
    accountSt.params.i3cStatic ≠ 0 ∧ accountSt.params.tcpPort + 1 ≠ accountSt.params.tcpPort := by
  decide +kernel

def queueRec0 : QueueRec := { egress := 0, fn := 0, cls := 1, weight := 1, rate := 4096, burst := 4096, peak := 4096, peakB := 4096, quantum := 4096 }
def queue0 : Queue := { Queue.ofCfg queueRec0 0 with frames := [(64, 0)] }
def egress0 (busy : Nat) : Egress := { n := 0, mode := 0, v := 0, pointer := 0, served := 0, gate := 0, busy := busy }
/-- One egress point with one frame to send; its gate schedule has two entries. -/
def egressSt (busy : Nat) : State :=
  { base with now := 65536 * 1526, egress := [egress0 busy], queues := [queue0],
              image := { img with gates := [{ egress := 0, base := 7936, cycle := 1000,
                                              gates := [{ duration := 500, opened := 255 }, { duration := 500, opened := 1 }] }] } }
def holdoverSt (pri sec : Bool) : State :=
  { base with power := { base.power with holdover := some 0, priGone := pri, secGone := sec } }
def clusterPorts : State := { base with ports := [upPort (.asvis 0), upPort (.cxl 2)] }
def pairs0 (a : Nat) : List PairReading := List.replicate 5 { a := a, b := a }

theorem witness_SchedulingCommandsComplete :
    ((egressSt (2 ^ 40)).inService ∧ ((egressSt (2 ^ 40)).egress.find? fun x => x.n == 0) = some (egress0 (2 ^ 40)) ∧
      (egressSt (2 ^ 40)).now < (egress0 (2 ^ 40)).busy ∧ (egressSt (2 ^ 40)).now % 65536 = 0) ∧
    (let s := egressSt 0
     (s.egress.find? fun x => x.n == 0) = some (egress0 0) ∧ (egress0 0).busy ≤ s.now ∧ (egress0 0).mode = 0 ∧
       (s.pickWeighted (egress0 0) ((s.queues.map fun (q : Queue) => if q.cfg.egress = 0 then q.tick (egress0 0) s.now else q).filter
         fun q => s.canSend (egress0 0) q)).isSome ∧
       (s.image.gates.find? fun g => g.egress == 0).any fun g => (gatePlace g s.now).isSome) := by
  decide +kernel

theorem witness_PowerCommandsComplete :
    (base.running ∧ 5 ≠ 6) ∧
    (({ base with power := { base.power with avsWaiting := some 700 } } : State).power.avsWaiting = some 700) ∧
    (base.power.onPrimary ∧ base.power.holdover = none) ∧
    ((holdoverSt true false).power.holdover = some 0 ∧ (holdoverSt true false).running ∧ (holdoverSt true false).power.secGone = false ∧
      (holdoverSt true true).power.priGone ∧ (holdoverSt true true).power.secGone ∧ 0 + 470000 ≤ (holdoverSt true true).now) ∧
    (clusterPorts.inService ∧ clusterPorts.txns = []) := by
  decide +kernel

theorem witness_ThermalSampleCompletes :
    base.boot.phase = .service ∧ (trippedPair (pairs0 110)).isSome ∧ trippedPair (pairs0 109) = none ∧
      base.power.stage < stageEntered (dieReading (pairs0 109)) (stackReading [50]) ∧ base.calendar = [] ∧
      stageEntered (dieReading (pairs0 50)) (stackReading [50]) ≤ base.power.stage ∧
      (let s := { base with power := { base.power with stage := 2, leaveSince := some 0 } }
       stageEntered (dieReading (pairs0 50)) (stackReading [50]) ≤ s.power.stage ∧
         stageLeaves s.power.stage (dieReading (pairs0 50)) (stackReading [50]) = true ∧ s.power.leaveSince.getD s.now + 4700000 ≤ s.now ∧
         base.now < base.power.leaveSince.getD base.now + 4700000) ∧
      (let s := { base with power := { base.power with stage := 3 } }
       stageEntered (dieReading (pairs0 109)) (stackReading [50]) ≤ s.power.stage ∧
         stageLeaves s.power.stage (dieReading (pairs0 109)) (stackReading [50]) = false) := by
  decide +kernel

theorem witness_StepRunsFront :
    ({ base with pending := [.timePageUpdate, .queueSample] } : State).pending = .timePageUpdate :: [.queueSample] ∧ base.pending = [] ∧
      base.curds = [] ∧ (let s := openCurd { curd2 none with closing := true }
        s.pending = [] ∧ ∃ c ∈ s.curds, c.closing = true ∧ c.running = false) := by
  refine ⟨rfl, rfl, rfl, rfl, _, List.mem_singleton_self _, rfl, rfl⟩

/-- A line of the direct region is written. -/
def writtenSt : State := { base with direct := base.direct.writeN 64 (List.replicate 64 7) }

theorem witness_DirectMemoryKeepsForm :
    writtenSt.direct.wf ∧ writtenSt.direct ≠ [] ∧ isNext (step { writtenSt with pending := [.cxlMemWrite 1 (List.replicate 64 9)] }) := by
  decide +kernel

theorem witness_DeviceTimeRuns :
    isNext (step base) ∧ isNext (step { base with pending := [.fullReset .command] }) ∧
      isNext (step { base with pending := [.queueSample] }) := by
  decide +kernel

theorem witness_GuardedAreasStand :
    isNext (exec .timePageUpdate base) ∧ Instr.carriesReset .timePageUpdate = false ∧ Area.direct ∉ Instr.changes .timePageUpdate := by
  decide +kernel

theorem witness_ColdAreasStand :
    isNext (exec (.thymeWheelTick 0) base) ∧ Instr.carriesReset (.thymeWheelTick 0) = false ∧
      Area.tenants ∉ Instr.changes (.thymeWheelTick 0) := by
  decide +kernel

theorem witness_WindowsStand : isNext (exec (.fenceComplete 1) fenceSt) ∧ Instr.reachesWindows (.fenceComplete 1) = false := by
  decide +kernel

theorem witness_OutOfService : Instr.anytime (.walkBlock 1 []) = false ∧ State.reset.inService = false := by
  decide +kernel

/-- One event has been written. -/
def oneEvent : State := { base with recorder := { Recorder.empty with ring := [event0], firsts := [event0], next := 1 } }

theorem witness_RecordsStand :
    isNext (exec .eventRecordWrite oneEvent) ∧ isNext (exec (.fullReset .resetN) oneEvent) ∧ isNext (exec .queueSample oneEvent) ∧
      oneEvent.recorder.paired := by
  refine ⟨by decide +kernel, by decide +kernel, by decide +kernel, fun x l hx hl _ _ => ?_⟩
  cases hx
  cases hl
  rfl

/-- A nonce is open, no tenant is left, and the debug state stands at a level. -/
def levelSt (st : Nat) : State := { nonceSt [] with dbg := { (nonceSt []).dbg with st := st } }

theorem witness_DebugStateOnlyRises :
    (base.dbg.st ≤ 2 ∧ base.dbg.opening = [] ∧ isNext (exec .nonceLapse base)) ∧
    ([0, 1].all fun st => (levelSt st).serves 3 (conn3 2) [2] false && (levelSt st).tenants == [] && (levelSt st).dbg.opening == []) ∧
    ((levelSt 0).tokenFails (token0 1) = 0 ∧ (levelSt 0).tokenFails (token0 2) = 0 ∧ (levelSt 1).tokenFails (token0 2) = 0) := by
  refine ⟨by decide +kernel, by decide +kernel, ?_, ?_, ?_⟩
  · exact tokens_pass _ 1 (.inl rfl) (by decide +kernel) (by decide +kernel) (by decide +kernel)
  · exact tokens_pass _ 2 (.inr rfl) (by decide +kernel) (by decide +kernel) (by decide +kernel)
  · exact tokens_pass _ 2 (.inr rfl) (by decide +kernel) (by decide +kernel) (by decide +kernel)

theorem witness_RepeatsCount :
    ∀ l ∈ [event0, { event0 with count := 65535 }],
      ∀ e ∈ [{ event0 with first := 10 + 470000 }, { event0 with first := 10 + 470001 }, event1],
      (recorderSt [l] [e]).recorder.booted ∧ (recorderSt [l] [e]).recorder.queue = [e] ∧ (recorderSt [l] [e]).recorder.dropped = 0 ∧
        e.count = 1 := by
  decide +kernel

theorem witness_TrayRefusesAttend :
    (regSt [pub0]).hears 0 trayPort frameR 2 [1, 2] 0 ∧ (regSt [pub0]).isTray ∧ ({ regSt [pub0] with fns := [] } : State).fns = [] := by
  decide +kernel

theorem witness_DirectBytesStand :
    (isNext (exec (.cxlMemWrite 1 []) writtenSt) ∧ writtenSt.direct.wf) ∧
    (let s := startedSt (.copy copyD)
     isNext (exec (.dmaTransferEnd 1 true [] .pass (List.replicate 128 4)) s) ∧ s.req? 1 = some (started (.copy copyD)) ∧ s.direct.wf ∧
       destOf (.copy copyD) = some copyD.b ∧ copyD.b.kind = 1) ∧
    (let s := startedSt (.compare compareH)
     isNext (exec (.dmaTransferEnd 1 true [] .pass (List.replicate 256 4)) s) ∧ s.req? 1 = some (started (.compare compareH)) ∧
       destOf (.compare compareH) = none) := by
  decide +kernel

theorem witness_SequenceSlotsInTurn :
    seqSt.seq? 0 = some seq0 ∧ ({ seqSt with seqs := [{ seq0 with gen := 255 }] } : State).seq? 0 = some { seq0 with gen := 255 } ∧
      16777216 ≤ ({ fresh := 16777216, limit := 16777216, freed := [3, 4] } : FreeList).fresh := by
  decide +kernel

theorem witness_UpkeepFrames :
    [Instr.timePageUpdate, .thymeWheelTick 0, .gateEntryBoundary 0, .queueSample, .refresh 3 90, .refreshManagementRequest 3, .railFault 5,
      .holdoverExpiry, .avsRetry true, .clockMonitorWindow 0 40, .refclkSwitchover, .controlCheckpoint 1, .controlPairTakeover 1,
      .ucieTrainingEnd 0 { ucie11 := true } [], .ucieLaneRepair 0 1, .shelfBankRemapped 5, .keyBankCopyEnd 2, .keyBankReplaced 0, .drbgRetestPass,
      .drbgHealthFailure, .eventRecordWrite, .nonceLapse].all fun c => isNext (exec c base) := by
  decide +kernel

theorem witness_ManagementFrames :
    [Instr.statusRead 3, .telemetryRead 3 1 0, .eventRead 3 0 1, .traceRead 3 0, .getCapabilities (.mgmt 3), .negotiateAlgorithms (.mgmt 3) true,
      .getDigests (.mgmt 3), .challenge (.mgmt 3) 0 0, .getMeasurements (.mgmt 3) 1 0, .heartbeat (.mgmt 3), .chunkGet (.mgmt 3) 0,
      .spdmUnsupportedRequest (.mgmt 3) 0, .getVersion (.mgmt 3) 3, .getCertificate (.mgmt 3) 0, .finish (.mgmt 3) true 0, .keyUpdate (.mgmt 3),
      .endSession (.mgmt 3), .chunkSend (.mgmt 3) [] .more, .chunkSend (.mgmt 3) [] (.last .keyUpdate), .keyExchange (.mgmt 3) true, .modelKeyDeliver 3 7 9 0, .modelKeyWithdraw 3 7,
      .mgmtIdleTimeout 3, .mgmtConnectionClose 3, .mgmtUnknownCommand 3 0 0 0, .mgmtConnection { port := 443, tlsOk := true } none false, .entdaa 9, .setdasa 32 9,
      .weightsLoad 3 0 head0, .volumeRelease 3 0, .debugNonce 3].all fun c => isNext (exec c (connSt 1 base)) := by
  decide +kernel

theorem witness_TrayAndWalkFrames :
    [Instr.destage 80, .metadataPairRebuildEnd, .traySsdFailure false 0 0, .regionOpen 20 { domain := 1 } 9 1 1, .regionGrant { domain := 1 } 9 1 22,
      .regionRelease { domain := 1 } 9 1 21, .backInvalidateResponse 20 9 1 [], .regionPublish 20 { domain := 1 } 9 1 .pass, .regionWithdraw { domain := 1 } 9 1, .recallTimeout 9 1 20,
      .poolCxlMemAccess 20 0 0 5 none, .cxlMemRead 0 true false, .cxlMemWrite 0 [], .addCapacity 2 5 4096 16384, .drainEnd 60,
      .keepaliveInterval 0, .rebuildMetadataEnd 0, .holeRemoval 3, .stagingTtlEnd 20, .ripeningSweep false 5 0, .shutdownEnd 0,
      .passResume 40 3 [], .curdOffer 1 0, .curdWindowEnd 30, .curdLatestClose 30, .tenantRemovalDrained 1].all fun c =>
        isNext (exec c (regSt [pub0])) := by
  decide +kernel

/-! ### What checks and training find -/

/-- Two SHA/HMAC engines that disagree twice within 1 s both leave service (R339). -/
theorem test_hash_mismatch_twice :
    let s := (base.hashMismatch 0 1 false false).hashMismatch 1 0 false false
    (base.hashMismatch 0 1 false false).island.shaBad = [] ∧ s.island.shaBad = [0, 1] ∧ s.hashEngines = [2, 3, 4, 5, 6, 7, 8] := by
  decide +kernel

/-- A page coder that fails leaves service, and the next quarter's codes for it (R175). -/
theorem test_coder_fails :
    let s := base.coderFails (started appendA) h0
    s.faults.codersOut = [base.coderFor ((base.seqOf 1 h0).elim 0 (·.homeStack))] ∧ s.coderFor 0 = 1 := by
  decide +kernel

/-- Two lanes that training finds faulty leave a CXL port four lanes, and it comes up at no more (R250, R251, R405). -/
theorem test_training_narrows :
    let s := { linkSt (.cxl 2) .training false with clusters := [{ n := 2, mode := 2, lanesBad := [], spareSpent := false }] }
    ((s.trainingEnd (.cxl 2) (.pass 64 8) [(3, 1)] []).port? (.cxl 2)).map (·.width) = some 8 ∧
      ((s.trainingEnd (.cxl 2) (.pass 64 4) [(3, 1), (5, 2)] []).port? (.cxl 2)).map (·.width) = some 4 ∧
      ((s.trainingEnd (.cxl 2) (.pass 64 8) [(3, 1), (5, 2)] []).port? (.cxl 2)).map (·.st) = some .quarantined := by
  decide +kernel

/-- The parity of a row of protected T1 is the sum of its members' grains, and follows an overwrite (R285, R286). -/
theorem test_parity_follows :
    let a := 2 ^ 36
    let b := 2 * 2 ^ 36
    let row := fun (s : State) => s.parity.map fun r => (r.grains, r.parity)
    row ((base.foldParity b [6, 1]).foldParity a [3, 2]) = [([(1, [3, 2]), (2, [6, 1])], [5, 3])] ∧
      row (((base.foldParity b [6, 1]).foldParity a [3, 2]).foldParity b [0, 1]) = [([(2, [0, 1]), (1, [3, 2])], [3, 3])] := by
  decide +kernel

/-- A flow row whose shadow row does not verify is no answer (R87). -/
theorem test_shadow_verifies :
    shadowVerifies (policyKey 1 flowA) 1 ({ rule := rule0, present := true } : PolicyRow).shadow = true ∧
      shadowVerifies (policyKey 1 flowA) 2 ({ rule := rule0, present := true } : PolicyRow).shadow = false := by
  decide +kernel

/-- A parameter that the image omits takes the table's default (R412). -/
theorem test_omitted_default :
    ({ legalImage with params := { watchdogMs := 1 }, omits := [.watchdogMs] } : Image).taken.params.watchdogMs = 10000 := by decide +kernel

/-! ### Well-formedness: each check takes a fitting term and refuses one that does not fit -/

theorem test_wf_fits : fits 3 7 = true ∧ fits 3 8 = false ∧ fits 0 0 = true := by decide

theorem test_wf_groupFn : groupFnWf 3 1023 = true ∧ groupFnWf 4 0 = false ∧ groupFnWf 0 1024 = false := by decide

theorem test_wf_sub :
    sub.wf = true ∧ [{ sub with group := 4 }, { sub with fn := 1024 }, { sub with seq := 32768 }, { sub with phase := 2 }, { sub with cls := 8 },
      { sub with tag := 2 ^ 32 }, { sub with deadline := 2 ^ 64 }].all fun x => !x.wf := by decide +kernel

theorem test_wf_flowKey :
    noKey.wf = true ∧ [{ noKey with flow := 4 }, { noKey with maskMode := 4 }, { noKey with zone := 256 }, { noKey with protocol := 256 },
      { noKey with srcPort := 65536 }, { noKey with dstPort := 65536 }, { noKey with srcAddr := 2 ^ 128 },
      { noKey with dstAddr := 2 ^ 128 }].all fun x => !x.wf := by decide +kernel

theorem test_wf_attachFn :
    attach3.wf = true ∧ [{ attach3 with version := 4 }, { attach3 with ringLog2 := 32 }, { attach3 with ringBase := 2 ^ 64 }].all
      fun x => !x.wf := by decide +kernel

theorem test_wf_fence : FenceF.wf { mode := 1, seq := h0 } = true ∧ FenceF.wf { mode := 2, seq := 0 } = false ∧
    FenceF.wf { mode := 1, seq := 2 ^ 32 } = false := by decide +kernel

theorem test_wf_open :
    openA.wf = true ∧ [{ openA with model := 256 }, { openA with layout := 4 }, { openA with fmt := 32 }, { openA with floor := 32 },
      { openA with seqClass := 8 }, { openA with horizon := 256 }, { openA with window := 2 ^ 20 }, { openA with globals := 256 },
      { openA with t1res := 2 ^ 32 }, { openA with key := { noKey with flow := 4 } }].all fun x => !x.wf := by decide +kernel

theorem test_wf_fork :
    forkA.wf = true ∧ [{ forkA with parent := 2 ^ 32 }, { forkA with n := 2 ^ 20 }, { forkA with t1res := 2 ^ 32 },
      { forkA with key := { noKey with zone := 256 } }].all fun x => !x.wf := by decide +kernel

theorem test_wf_blocks :
    blocksA.wf = true ∧ [{ blocksA with seq := 2 ^ 32 }, { blocksA with expected := 2 ^ 32 }, { blocksA with firstBlock := 2 ^ 18 },
      { blocksA with blockCount := 128 }, { blocksA with blockList := 2 ^ 64 }, { blocksA with pageBase := 2 ^ 64 },
      { blocksA with pageStride := 2 ^ 32 }].all fun x => !x.wf := by decide +kernel

theorem test_wf_range :
    (range0 1).wf = true ∧ [{ range0 0 with seq := 2 ^ 32 }, { range0 0 with firstBlock := 2 ^ 18 }, { range0 0 with blockCount := 2 ^ 19 },
      { range0 0 with firstLayer := 256 }, { range0 0 with layerCount := 512 }, { range0 0 with target := 2 }].all fun x => !x.wf := by
  decide +kernel

def fetchF0 : FetchF :=
  { seq := h0, firstBlock := 0, blockCount := 1, firstLayer := 0, layerCount := 1, form := 0, buffer := 0, bufferLen := 4096 }

theorem test_wf_fetch :
    fetchF0.wf = true ∧ [{ fetchF0 with seq := 2 ^ 32 }, { fetchF0 with firstBlock := 2 ^ 18 }, { fetchF0 with blockCount := 128 },
      { fetchF0 with firstLayer := 256 }, { fetchF0 with layerCount := 512 }, { fetchF0 with form := 2 }, { fetchF0 with buffer := 2 ^ 64 },
      { fetchF0 with bufferLen := 2 ^ 40 }].all fun x => !x.wf := by decide +kernel

theorem test_wf_lookupHash :
    lookA.wf = true ∧ PairF.wf { depth := 2 ^ 19, hash := 0 } = false ∧ [{ lookA with model := 256 },
      { lookA with pairs := List.replicate 16 { depth := 1, hash := 0 } }, { lookA with pairs := [{ depth := 2 ^ 19, hash := 0 }] }].all
        fun x => !x.wf := by decide +kernel

def tokenF0 : LookupTokenF :=
  { model := 0, tokenBlocks := 1, hasStart := false, startDepth := 0, startHash := 0, tokenAddr := 4096, resultAddr := 4096 }

theorem test_wf_lookupToken :
    tokenF0.wf = true ∧ [{ tokenF0 with model := 256 }, { tokenF0 with tokenBlocks := 65536 }, { tokenF0 with startDepth := 2 ^ 19 },
      { tokenF0 with tokenAddr := 2 ^ 64 }, { tokenF0 with resultAddr := 2 ^ 64 }].all fun x => !x.wf := by decide +kernel

theorem test_wf_lookupFlow :
    flowA.wf = true ∧ [{ flowA with maxMatches := 8 }, { flowA with resultAddr := 2 ^ 64 }, { flowA with family := 4 }, { flowA with dscp := 64 },
      { flowA with zone := 256 }, { flowA with protocol := 256 }, { flowA with srcPort := 65536 }, { flowA with dstPort := 65536 },
      { flowA with leadCount := 32 }, { flowA with srcAddr := 2 ^ 128 }, { flowA with dstAddr := 2 ^ 128 },
      { flowA with leadBytes := 2 ^ 128 }].all fun x => !x.wf := by decide +kernel

theorem test_wf_prefixCommands :
    attA.wf = true ∧ pubF.wf = true ∧
      ([{ attA with seq := 2 ^ 32 }, { attA with depth := 2 ^ 20 }, { attA with handle := 2 ^ 64 }].all fun x => !x.wf) ∧
      [{ pubF with seq := 2 ^ 32 }, { pubF with depth := 2 ^ 20 }, { pubF with digestAddr := 2 ^ 64 }].all fun x => !x.wf := by decide +kernel

theorem test_wf_attend :
    attF.wf = true ∧ [{ attF with seq := 2 ^ 32 }, { attF with layer := 256 }, { attF with kvFirst := 64 }, { attF with kvCount := 128 },
      { attF with qTokens := 16 }, { attF with qFormat := 4 }, { attF with oFormat := 2 }, { attF with qPos := 2 ^ 22 },
      { attF with curdMode := 4 }, { attF with curdExpect := 256 }, { attF with keyPrecision := 32 }, { attF with qSegment := 65536 },
      { attF with windowTokens := 2 ^ 23 }, { attF with sinkTokens := 2 ^ 23 }, { attF with blockLo := 2 ^ 19 }, { attF with blockHi := 2 ^ 19 },
      { attF with query := 2 ^ 64 }, { attF with result := 2 ^ 64 }, { attF with resultLen := 2 ^ 40 }].all fun x => !x.wf := by decide +kernel

theorem test_wf_tables :
    tableF.wf = true ∧ ([{ tableF with tableId := 65536 }, { tableF with model := 256 }, { tableF with fmt := 32 },
      { tableF with layerFirst := 256 }, { tableF with layerCount := 512 }, { tableF with image := 2 ^ 64 }].all fun x => !x.wf) ∧
      RetireF.wf { tableId := 65535, defer := true } = true ∧ RetireF.wf { tableId := 65536, defer := true } = false := by decide +kernel

theorem test_wf_weights :
    weightsA.wf = true ∧ [{ weightsA with model := 256 }, { weightsA with offset := 2 ^ 64 }, { weightsA with length := 2 ^ 32 },
      { weightsA with buffer := 2 ^ 64 }].all fun x => !x.wf := by decide +kernel

theorem test_wf_memOp :
    (op 3 64 64).wf = true ∧ [op 4 0 64, op 0 (2 ^ 64) 64, op 0 0 (2 ^ 40), { op 3 0 64 with handle := 2 ^ 32 }].all fun x => !x.wf := by
  decide +kernel

theorem test_wf_reduce :
    sumF.wf = true ∧ [{ sumF with dest := op 4 0 64 }, { sumF with outFormat := 2 }, { sumF with srcKind := 2 }, { sumF with srcCount := 32 },
      { sumF with count := 2 ^ 32 }, { sumF with headDim := 1024 }, { sumF with srcBase := 2 ^ 64 }, { sumF with srcStride := 2 ^ 40 }].all
        fun x => !x.wf := by decide +kernel

theorem test_wf_desc :
    (Desc.attend attF).wf = true ∧ [Desc.attachFn { attach3 with version := 4 }, .detach 2, .fence { mode := 2, seq := 0 },
      .openSeq { openA with fmt := 32 }, .closeSeq (2 ^ 32), .forkSeq { forkA with n := 2 ^ 20 }, .truncate { blocksA with blockCount := 128 },
      .replace { blocksA with blockCount := 128 }, .append { blocksA with blockCount := 128 }, .pinRange (range0 2), .unpinRange (range0 2),
      .prefetchHint (range0 2), .lookupHash { lookA with model := 256 }, .lookupToken { tokenF0 with model := 256 },
      .lookupFlow { flowA with family := 4 }, .attachPrefix { attA with depth := 2 ^ 20 }, .publish { pubF with depth := 2 ^ 20 },
      .withdraw (2 ^ 64), .fetch { fetchF0 with form := 2 }, .attend { attF with layer := 256 }, .tableLoad { tableF with fmt := 32 },
      .tableSelect { tableF with fmt := 32 }, .tableExport { tableF with fmt := 32 }, .retire { tableId := 65536, defer := false },
      .fill { dst := op 4 0 64, pattern := 0 }, .copy { a := op 0 0 64, b := op 4 0 64 }, .compare { a := op 4 0 64, b := op 0 0 64 },
      .reduceSum { sumF with srcKind := 2 }, .reduceMax { sumF with srcKind := 2 }, .lseMerge { sumF with srcKind := 2 },
      .weights { weightsA with model := 256 }, .invalidForm 256, .unknown 256].all fun d => !d.wf := by decide +kernel

theorem test_wf_ports :
    linkWf 95 = true ∧ linkWf 96 = false ∧ clusterWf 23 = true ∧ clusterWf 24 = false ∧ (PortId.nvme 23 1).wf = true ∧
      [PortId.asvis 96, .cxl 24, .nvme 24 0, .nvme 0 2].all fun p => !p.wf := by decide

theorem test_wf_frame :
    frame0.wf = true ∧ [{ frame0 with version := 4 }, { frame0 with cls := 8 }, { frame0 with src := 4096 }, { frame0 with dst := 4096 },
      { frame0 with fn := 1024 }, { frame0 with tenant := 4096 }, { frame0 with domain := 1024 }, { frame0 with keyKind := 4 },
      { frame0 with status := 256 }, { frame0 with keyEpoch := 65536 }, { frame0 with frameSeq := 2 ^ 64 }, { frame0 with xid := 2 ^ 32 },
      { frame0 with object := 2 ^ 64 }, { frame0 with offset := 2 ^ 32 }, { frame0 with aux := 2 ^ 64 }].all fun x => !x.wf := by
  decide +kernel

theorem test_wf_linkMessages :
    hello2.wf = true ∧ ([{ hello2 with versions := 8 }, { hello2 with device := 4096 }, { hello2 with bootEpoch := 2 ^ 32 }].all fun x => !x.wf) ∧
      (dirKey 0 0).wf = true ∧ [{ dirKey 0 0 with domain := 1024 }, { dirKey 0 0 with depth := 2 ^ 20 }, { dirKey 0 0 with fmt := 32 },
        { dirKey 0 0 with parent := 2 ^ 64 }, { dirKey 0 0 with parentDepth := 2 ^ 20 }, { dirKey 0 0 with holder := 4096 },
        { dirKey 0 0 with publisher := 4096 }].all fun x => !x.wf := by decide +kernel

theorem test_wf_management :
    legalImage.wf = true ∧ ([{ legalImage with securityVersion := 2 ^ 32 }, { legalImage with firmware := 2 ^ 32 },
      { legalImage with homeTable := [4096] }].all fun x => !x.wf) ∧ (token0 1).wf = true ∧
      ({ token0 1 with layout := 256 } : Token).wf = false ∧ (token0 256).wf = false ∧ (Transport.ucie 3).wf = true ∧
      [Transport.asvis 96, .cxl 24, .ucie 4].all fun x => !x.wf := by decide +kernel

theorem test_wf_numbers :
    i3cWf 127 = true ∧ i3cWf 128 = false ∧ stackWf 11 = true ∧ stackWf 12 = false ∧ engineWf 11 15 = true ∧ engineWf 12 0 = false ∧
      engineWf 0 16 = false ∧ lineWf 5 (List.replicate 64 0) = true ∧ lineWf (2 ^ 58) (List.replicate 64 0) = false ∧ lineWf 5 [] = false := by
  decide +kernel

/-- A header that does not fit. -/
def longSub : Sub := { sub with tag := 2 ^ 32 }

theorem test_wf_requests :
    [Instr.attachFunction longSub attach3, .detachFunction sub 2, .fence longSub { mode := 0, seq := 0 }, .openSequence longSub openA,
      .closeSequence sub (2 ^ 32), .forkSequence longSub forkA, .editBlocksTruncate longSub blocksA, .editBlocksReplace longSub blocksA,
      .appendBlocks longSub blocksA, .pinRange longSub (range0 0), .unpinRange longSub (range0 0), .lookupPrefixHashForm longSub lookA,
      .lookupPrefixTokenForm longSub tokenF0, .lookupPrefixFlowForm longSub flowA, .attachPrefix longSub attA, .publishPrefix longSub pubF,
      .withdrawPrefix sub (2 ^ 64), .fetchPages longSub fetchF0, .prefetchHint longSub (range0 0), .attend longSub attF,
      .loadTableLoad longSub tableF, .loadTableSelect longSub tableF, .loadTableExport longSub tableF,
      .retireTable longSub { tableId := 1, defer := false }, .fill longSub fillD, .copy longSub copyD, .compare longSub compareH,
      .reduceSum longSub sumF, .reduceMax longSub sumF, .lseMerge longSub lseF, .fetchWeights longSub weightsA, .unknownOpcode sub 256,
      .abortByTag 0 0 0 (2 ^ 32), .abortBySeqRange 0 0 0 32768 1, .abortAll 0 1024 0, .apertureWrite 0 0 65536 [], .drainGraceEnd 1024,
      .shutdownEnd 1024].all fun c => !c.wf := by decide +kernel

theorem test_wf_sequencers :
    [Instr.passResume 0 16 [], .passResume 0 0 [.line 12 0 0 .clean], .walkBlock 0 [.tag 12 0 true], .readAndRekeyEnd 0 [.shelf 16384] .pass,
      .readAndRekeyEnd 0 [] (.hash 9 0 true false), .dmaTransferEnd 0 true [.lane 0 16] .pass [], .dmaTransferEnd 0 true [] (.hash 0 9 true false) [],
      .prefetchArrival 0 0 (2 ^ 18) 0 true, .pinRelease (2 ^ 24) 0, .ripeningSweep false 0 (2 ^ 32),
      .shadowCompare [{ bank := 66, row := 0, again := false, bothShadow := false }], .bankRebuildEnd 66, .arrayBankFault 66, .holeRemoval 16,
      .decodeRecheck 0 256 true, .memberUnreachable 4096, .thymeWheelTick 136, .gateEntryBoundary 136].all fun c => !c.wf := by decide +kernel

/-- A frame that does not fit. -/
def longFrame : Frame := { frame0 with xid := 2 ^ 32 }

theorem test_wf_frames :
    [Instr.hello 96 hello2, .spdmFrame 96 .more, .config 0 frame0 { config0 with credits := [2 ^ 32] }, .keepalive 0 longFrame,
      .keepaliveInterval 96, .keepaliveTimeout 96, .credit 0 longFrame, .replay 0 longFrame, .epoch 0 longFrame, .pageGet 0 { fr := longFrame }, .pageGet 0 { fr := frame0, found := [.lane 0 16] },
      .copyVerify { slot := 0, check := .hash 9 0 true false }, .copyVerify { slot := 0, found := [.lane 0 16] },
      .pageData 0 longFrame [], .pagePut 0 longFrame [], .putDone 0 longFrame, .tableGet 0 longFrame, .tableData 0 longFrame { bytes := [] }, .tableData 0 frame0 { bytes := [], check := .hash 9 0 true false },
      .dirPublish 0 longFrame (dirKey 0 0), .dirLookup 0 frame0 0 [{ depth := 2 ^ 19, hash := 0 }], .dirAttach 0 longFrame,
      .dirRelease 0 longFrame, .dirWithdrawn 0 longFrame false, .withdrawNotice 0 longFrame, .dirAnswer 0 longFrame (dirKey 0 0),
      .aslResponseTimeout (2 ^ 32), .extentOffer 0 longFrame, .extentClaim 0 longFrame, .extentRelease 0 longFrame, .extentDone 0 longFrame,
      .addCapacity 24 0 0 0, .releaseCapacity 24 0, .forcedCapacityRelease 24 0, .regionRead 0 frame0 (2 ^ 32), .regionWrite 0 longFrame [],
      .regionRecall 0 longFrame, .recallDone 0 longFrame, .nmo 0 frame0 (.unknown 256), .nmoDone 0 longFrame].all fun c => !c.wf := by
  decide +kernel

theorem test_wf_device :
    [Instr.recallTimeout 0 0 4096, .regionOpen 4096 { domain := 0 } 0 0 0, .regionGrant { domain := 1024 } 0 0 0,
      .regionPublish 0 { domain := 1024 } 0 0 .pass, .regionPublish 0 { domain := 0 } 0 0 (.hash 0 9 false false),
      .regionWithdraw { domain := 1024 } 0 0,
      .regionRelease { domain := 0 } 0 0 4096, .cxlMemRead (2 ^ 58) true false, .cxlMemWrite 0 [], .nvmeCommandCompletion 0 2 0 true,
      .nvmeCommandTimeout 24 0 0, .nvmeResetEnd 0 2 true, .cxlMemResponse 24 0 true, .linkTrainingEnd (.asvis 96) .fail [] [],
      .linkTrainingEnd (.asvis 0) .fail [(9, 1)] [], .linkTrainingEnd (.asvis 0) .fail [(8, 3)] [],
      .linkTrainingEnd (.asvis 0) .fail [] [{ lane := 9, polarity := true, order := false }], .laneFailure 0 9,
      .laneShort 24 0, .retryIntervalEnd (.cxl 24), .doeResponse (.cxl 24) .failed, .surpriseDown (.nvme 0 2), .patrolScrub 12 0 0 .clean,
      .refresh 12 0, .refreshManagementRequest 12, .stackLost 12, .hbmRefclkMissing 12, .evacuationEnd 2, .rebuildMetadataEnd 2,
      .engineFault 0 16 0, .engineRemapped 12 0 true, .shelfBankFault 68 [], .shelfBankRemapped 68, .controlCheckpoint 5, .controlPairFault 5,
      .controlPairTakeover 4, .ucieModuleLoss 0 4, .ucieLaneRepair 4 0, .ucieTrainingEnd 4 {} [], .ucieTrainingEnd 0 { repaired := [4] } [], .ucieTrainingEnd 0 {} [(4, { lane := 0, polarity := true, order := true })], .linkRefclkMissing 24,
      .backInvalidateResponse 0 0 0 [(0, [])], .poolCxlMemAccess 0 0 0 0 (some []), .partialResetEnd 8 0].all fun c => !c.wf := by decide +kernel

theorem test_wf_control :
    [Instr.tenantRemove 0 4096, .tenantRemovalDrained 4096, .tenantRemoved 4096, .reclaimSweepEnd 4096, .tenantRestore 0 4096,
      .debugUnlock 0 (token0 256), .getVersion .i3c 65536, .getCapabilities (.ucie 4), .negotiateAlgorithms (.ucie 4) true, .getDigests (.ucie 4),
      .getCertificate .i3c 16, .challenge .i3c 256 0, .getMeasurements .i3c 256 0, .keyExchange (.ucie 4) true, .finish (.ucie 4) true 0,
      .heartbeat (.ucie 4), .keyUpdate (.ucie 4), .endSession (.ucie 4), .chunkSend (.ucie 4) [] .more, .chunkSend .i3c [] (.last (.getVersion 65536)),
      .chunkSend .i3c [] (.last (.getCertificate 16)), .chunkSend .i3c [] (.last (.challenge 256 0)),
      .chunkSend .i3c [] (.last (.getMeasurements 256 0)), .chunkSend .i3c [] (.last (.other 256)), .watchdogExpiry { req := 0, upset := 32768 }, .chunkGet (.ucie 4) 0,
      .spdmUnsupportedRequest .i3c 256, .imageCheckEnd true (some { imageNone with firmware := 2 ^ 32 }), .hbmTrainingEnd [12] [],
      .telemetryRead 0 256 0, .eventRead 0 (2 ^ 64) 0, .traceRead 0 1024, .imageUpload 0 (2 ^ 32) 0 imageNone, .resetPartialFunction 0 1024,
      .resetPartialModuleGroup 0 4, .resetPartialLinkCluster 0 24, .resetPartialEngineCluster 0 12, .moduleGroupLinkLoss 4,
      .linkHold 0 (.asvis 96), .linkRelease 0 (.asvis 96), .weightsLoad 0 256 head0, .entdaa 128, .setdasa 0 128,
      .thermalSample [] (List.replicate 13 0), .mgmtUnknownCommand 0 256 0 0].all fun c => !c.wf := by decide +kernel

/-! ### A published value -/

/-- FIPS 180-4's own example: SHA-256 of the three bytes of "abc". -/
theorem test_sha256_abc : sha256 [0x61, 0x62, 0x63] =
    [0xba, 0x78, 0x16, 0xbf, 0x8f, 0x01, 0xcf, 0xea, 0x41, 0x41, 0x40, 0xde, 0x5d, 0xae, 0x22, 0x23, 0xb0, 0x03, 0x61, 0xa3, 0x96, 0x17, 0x7a,
      0x9c, 0xb4, 0x10, 0xff, 0x61, 0xf2, 0x00, 0x15, 0xad] := by
  decide +kernel

end Sys2Proof.Tests
end

section
/-! SUPPORT. What a command may do to the areas that few commands touch: one case split over the commands, from which the frames of device
time, the time page, the running image, the flash, the debug state and the direct region follow. -/

namespace Sys2Proof.Machine

/-! ### What is left alone by a choice between two states -/

theorem ite_spine {p : Prop} [Decidable p] {a b s : State} (ha : a.spine = s.spine) (hb : b.spine = s.spine) :
    (if p then a else b).spine = s.spine := by
  split
  · exact ha
  · exact hb

@[simp] theorem State.curdLatestClose_spine (s : State) (c : Curd) : (s.curdLatestClose c).spine = s.spine := by
  unfold State.curdLatestClose
  exact ite_spine (by simp) rfl

/-! ### Reset release and the image step, in what they do to the spine -/

/-- Nothing changes, or device time starts again outside service. -/
def Restarts (s t : State) : Prop :=
  t.spine = s.spine ∨ (t.spine = { s.spine with now := 0 } ∧ s.inService = false ∧ t.inService = false)

theorem State.release_restarts (s : State) (pri sec : Bool) (h : s.inService = false) : Restarts s (s.release pri sec) := by
  unfold State.release
  extract_lets p s1 b s2
  have h2 : s2.spine = { s.spine with now := 0 } := rfl
  split
  · exact .inl rfl
  · split
    · obtain ⟨r, hr⟩ := s2.event_eq "REFCLK_SWITCHOVER" (some 0x8E02) (evSource 14 0) 1
      rw [hr]
      exact .inr ⟨h2, h, rfl⟩
    · exact .inr ⟨h2, h, rfl⟩

theorem State.resetRelease_restarts (s : State) (pri sec : Bool) : Restarts s (s.resetRelease pri sec) := by
  unfold State.resetRelease
  split
  · next h => exact s.release_restarts _ _ (by rw [State.inService, h]; rfl)
  · exact .inl rfl

theorem State.windowHeld_restarts (s : State) (pri sec : Bool) (h : s.inService = false) : Restarts s (s.windowHeld pri sec) := by
  unfold State.windowHeld
  extract_lets p s1 q t
  split
  · exact .inl rfl
  · split
    · exact State.release_restarts (s1.powerOf none) pri sec h
    · exact .inl rfl

theorem State.clockWindow_restarts (s : State) (a b : Nat) : Restarts s (s.clockWindow a b) := by
  unfold State.clockWindow
  extract_lets pri sec
  split
  · next h => exact s.windowHeld_restarts _ _ (by rw [State.inService, h]; rfl)
  · exact .inl (ite_spine (by simp) rfl)

/-- Everything but the image and the flash stands. -/
def ChangesImage (s t : State) : Prop := ∃ i a b, t.spine = { s.spine with image := i, flashA := a, flashB := b }

theorem ChangesFlash.image {s t : State} (h : ChangesFlash s t) : ChangesImage s t := by
  obtain ⟨a, b, h⟩ := h
  exact ⟨s.image, a, b, h⟩

theorem ChangesImage.of_spine {s t : State} (h : t.spine = s.spine) : ChangesImage s t := (ChangesFlash.of_spine h).image

theorem ChangesImage.trans {s t u : State} (h : ChangesImage s t) (hu : ChangesImage t u) : ChangesImage s u := by
  obtain ⟨i, a, b, h⟩ := h
  obtain ⟨j, c, d, hu⟩ := hu
  exact ⟨j, c, d, by rw [hu, h]⟩

theorem State.imagePasses_image (s : State) (i : Image) : ChangesImage s (s.imagePasses i) := by
  unfold State.imagePasses
  extract_lets b epoch j s1 e s2
  have h1 : ChangesImage s s1 := ⟨j, s.flashA, s.flashB, rfl⟩
  have h2 : ChangesImage s1 s2 := (State.writeEntry_flash _ _).image
  exact (h1.trans h2).trans (.of_spine (by simp))

theorem State.imageEnd_image (s : State) (ok : Bool) (i : Option Image) : ChangesImage s (s.imageEnd ok i) := by
  unfold State.imageEnd
  split
  · exact .of_spine rfl
  · extract_lets idOk s1 b
    have h1 : ChangesImage s s1 := by
      unfold s1
      split
      · exact (State.repairIdentity_flash _).image
      · exact .of_spine rfl
    refine h1.trans ?_
    split
    · exact .of_spine rfl
    · split
      · exact (State.flashGone_flash _ _).image.trans (.of_spine (State.imageRefused_spine _))
      · extract_lets n
        split
        · exact State.imagePasses_image _ _
        · exact .of_spine ((State.imageRefused_spine _).trans (State.note_spine _ _ _ _))

theorem State.updateTime_spine (s : State) : ∃ n, s.updateTime.spine = { s.spine with timePage := n } := by
  unfold State.updateTime
  extract_lets s1
  exact ⟨s.now / ticksPerUs * ticksPerUs, ite_spine (s := s1) (State.snapshot_spine s1) rfl⟩

/-! ### What a command may do to the spine -/

/-- What a command may do to the spine, by the areas it lists: nothing; or one of the changes that its areas name; or, where it carries a
full reset, what follows a reset. -/
inductive Touches (c : Instr) (s t : State) : Prop
  | nothing (h : t.spine = s.spine)
  | direct (hc : Area.direct ∈ c.changes) (h : WritesDirect s t)
  | debug (hc : Area.dbg ∈ c.changes) (h : ChangesDebug s t)
  | flash (hc : Area.flash ∈ c.changes) (h : ChangesFlash s t)
  | image (hc : Area.flash ∈ c.changes ∧ Area.image ∈ c.changes) (h : ChangesImage s t) (f : Follows s t)
  | timePage (hc : Area.timePage ∈ c.changes) (h : ∃ n, t.spine = { s.spine with timePage := n })
  | time (hc : Area.time ∈ c.changes) (h : Restarts s t)
  | reset (hc : c.carriesReset = true) (h : Follows s t)

theorem State.live_cases {P : State → Prop} (s : State) (g : State → State) (h0 : P s) (hg : P (g s)) : P (s.live g) := by
  unfold State.live
  split
  · exact hg
  · exact h0

/-- Around its own effect a served command leaves the spine alone. -/
theorem State.serve_of_spine {P : State → Prop} (s : State) (conn : Nat) (roles : List Nat) (before : Bool) (k : State → Conn → State)
    (h0 : ∀ t, t.spine = s.spine → P t) (hk : ∀ t c, t.spine = s.spine → P (k t c)) : P (s.serve conn roles before k) := by
  obtain e | ⟨c, e, -⟩ := s.serve_cases conn roles before k
  · exact h0 _ e
  · rw [e]
    exact hk _ _ (by simp)

theorem State.serve_debug (s : State) (conn : Nat) (k : State → Conn → State) (hk : ∀ t c, ChangesDebug t (k t c)) :
    ChangesDebug s (s.serve conn [2] false k) :=
  s.serve_of_spine _ _ _ _ (fun _ => .of_spine) fun _ _ e => (ChangesDebug.of_spine e).trans (hk _ _)

theorem State.serve_flash (s : State) (conn : Nat) (k : State → Conn → State) (hk : ∀ t c, ChangesFlash t (k t c)) :
    ChangesFlash s (s.serve conn [1] false k) :=
  s.serve_of_spine _ _ _ _ (fun _ => .of_spine) fun _ _ e => (ChangesFlash.of_spine e).trans (hk _ _)

theorem State.withReq_writes (s : State) (id : Nat) (g : State → Req → State) (h : ∀ r, WritesDirect s (g s r)) :
    WritesDirect s (s.withReq id g) := by
  unfold State.withReq
  refine s.live_cases _ (.of_spine rfl) ?_
  split
  · exact h _
  · exact .of_spine rfl

/-- A DMA transfer writes nothing but its destination. -/
theorem execDmaTransferEnd_writes (s : State) (req : Nat) (ok : Bool) (found : List ReadFault) (check : SelfCheck) (data : Bytes) :
    WritesDirect s ((s.readFaults found).withReq req fun s r => s.checkedTransfer r ok check data) :=
  .spine_trans (by simp) (State.withReq_writes _ _ _ fun _ => State.checkedTransfer_writes _ _ _ _ _)

/-- The one split over the commands: what each may do to the spine. -/
theorem exec_touches {c : Instr} {s t : State} (h : exec c s = .next t) : Touches c s t := by
  cases c
  case cxlMemRead line ok viral =>
    have h : execCxlMemRead line ok viral s = .next t := h
    unfold execCxlMemRead at h
    (repeat' split at h) <;> cases h
    · exact .nothing rfl
    · exact .nothing (State.cxlRead_spine _ _ _ _)
    · exact .nothing rfl
  case cxlMemWrite line data =>
    have h : execCxlMemWrite line data s = .next t := h
    unfold execCxlMemWrite at h
    (repeat' split at h) <;> cases h
    · exact .nothing rfl
    · exact .direct (by simp [Instr.changes]) (s.cxlWrite_writes _ _)
    · exact .nothing rfl
  all_goals cases h
  -- resets
  case fullReset cause => exact .reset rfl (s.fullReset_follows cause)
  case trialTimeout => exact .reset rfl s.trialTimeout_follows
  case imageUpload => exact .reset rfl (s.uploadCmd_stages _ _ _ _).follows
  case resetFull =>
    exact .reset rfl (s.serve_of_spine _ _ _ _ (fun _ => .of_spine) fun t _ e =>
      (Resets_.of_keeps (.of_spine e) (t.resetCmd_resets _)).follows)
  case vddAonLow => exact .reset rfl s.aonLow_follows
  -- device time, the time page, the image and the flash
  case resetNRelease => exact .time (by simp [Instr.changes]) (s.resetRelease_restarts _ _)
  case clockMonitorWindow => exact .time (by simp [Instr.changes]) (s.clockWindow_restarts _ _)
  case timePageUpdate =>
    exact .timePage (by simp [Instr.changes])
      (s.live_cases (P := fun t => ∃ n, t.spine = { s.spine with timePage := n }) _ ⟨s.timePage, rfl⟩ s.updateTime_spine)
  case imageCheckEnd => exact .image (by simp [Instr.changes]) (s.imageEnd_image _ _) (s.imageEnd_follows _ _)
  case memorySetupEnd => exact .flash (by simp [Instr.changes]) s.serviceBegins_flash
  case imageActivate => exact .flash (by simp [Instr.changes]) (s.serve_flash _ _ fun _ _ => State.activate_flash _ _)
  case imageCancel => exact .flash (by simp [Instr.changes]) (s.serve_flash _ _ fun _ _ => State.cancel_flash _ _)
  -- the debug state
  case debugNonce => exact .debug (by simp [Instr.changes]) (s.serve_debug _ _ fun _ _ => State.issueNonce_debug _ _)
  case debugUnlock => exact .debug (by simp [Instr.changes]) (s.serve_debug _ _ fun _ _ => State.unlock_debug _ _ _)
  case nonceLapse => exact .debug (by simp [Instr.changes]) s.lapseNonce_debug
  case tenantRemoved => exact .debug (by simp [Instr.changes]) (s.live_cases _ (.of_spine rfl) (s.tenantGone_debug _))
  -- the direct region
  case dmaTransferEnd => exact .direct (by simp [Instr.changes]) (execDmaTransferEnd_writes _ _ _ _ _ _)
  case tenantRestore =>
    exact .direct (by simp [Instr.changes]) (s.serve_of_spine _ _ _ _ (fun _ => .of_spine) fun _ _ e =>
      .spine_trans e (State.restoreCmd_writes _ _ _))
  -- the commands that choose among operations that leave the spine alone
  all_goals refine .nothing ?_
  case curdOffer | curdWindowEnd | curdLatestClose | queryBlockArrival | partEnd | curdPassEnd =>
    exact State.live_spine _ _ fun _ => elim_spine_of rfl fun _ => by simp
  case controlCheckpoint | refresh | refreshManagementRequest => exact State.live_spine _ _ fun _ => rfl
  case prefetchArrival | addCapacity | destage | poolCxlMemAccess => exact State.live_spine _ _ fun _ => ite_spine (by simp) (by simp)
  case releaseCapacity =>
    refine State.live_spine _ _ fun _ => ite_spine (by simp) ?_
    split <;> simp
  case forcedCapacityRelease =>
    refine State.live_spine _ _ fun _ => ?_
    split <;> simp
  case drbgHealthFailure | drbgRetestPass => exact ite_spine (by simp) rfl
  case config => exact ite_spine (State.takeFrame_spine _ _ _ _ _ _ _ _ fun _ _ => rfl) (by simp)
  case credit => exact State.takeFrame_spine _ _ _ _ _ _ _ _ fun _ _ => rfl
  case dirAttach | dirRelease | dirWithdrawn | withdrawNotice | extentDone | nmo =>
    exact State.takeFrame_spine _ _ _ _ _ _ _ _ fun _ _ => ite_spine (by simp) (by simp)
  case dirPublish | dirLookup =>
    exact State.takeFrame_spine _ _ _ _ _ _ _ _ fun _ _ => ite_spine (ite_spine (by simp) rfl) (by simp)
  case pageGet => exact State.takeFrame_spine _ _ _ _ _ _ _ _ fun _ _ => ite_spine (by simp) (ite_spine rfl (by simp))
  case extentRelease | recallDone =>
    refine State.takeFrame_spine _ _ _ _ _ _ _ _ fun _ _ => ?_
    split <;> simp
  case regionRead | regionWrite =>
    refine State.takeFrame_spine _ _ _ _ _ _ _ _ fun _ _ => ?_
    split
    · simp
    · exact ite_spine rfl (by simp)
  -- the others run one operation, whose own lemma says that it leaves the spine alone
  all_goals simp

/-! ### Frames that follow from it -/

theorem Restarts.follows {s t : State} (h : Restarts s t) : Follows s t := by
  obtain h | ⟨h, hs, ht⟩ := h
  · exact .of_spine h
  · exact ⟨congrArg Spine.pending h, (congrArg (fun x => x.direct.wf) h).trans, fun e => absurd (hs.symm.trans e) (by decide),
      .inr ⟨congrArg Spine.now h, ht⟩⟩

/-- Whatever a command does, the queue of waiting commands stands, the direct region keeps its form, a controller that stays in service
keeps its image, and device time stands or starts again outside service. -/
theorem exec_follows {c : Instr} {s t : State} (h : exec c s = .next t) : Follows s t := by
  cases exec_touches h with
  | nothing h => exact .of_spine h
  | direct _ h => exact h.follows
  | debug _ h => exact h.follows
  | flash _ h => exact h.follows
  | image _ _ f => exact f
  | timePage _ h =>
    obtain ⟨n, h⟩ := h
    exact ⟨congrArg Spine.pending h, (congrArg (fun x => x.direct.wf) h).trans, fun _ _ => congrArg Spine.image h,
      .inl (congrArg Spine.now h)⟩
  | time _ h => exact h.follows
  | reset _ h => exact h

/-- The areas of which the spine holds the fields. -/
def spineAreas : List Area := [.time, .timePage, .image, .flash, .dbg, .direct]

/-- The area is the same in two spines. -/
def Spine.Same (a : Area) (x y : Spine) : Prop :=
  match a with
  | .time => y.now = x.now
  | .timePage => y.timePage = x.timePage
  | .image => y.image = x.image
  | .flash => y.flashA = x.flashA ∧ y.flashB = x.flashB
  | .dbg => y.dbg = x.dbg
  | .direct => y.direct = x.direct
  | _ => True

/-- An area of the spine is the same in two states where it is in what the second one's spine has become. -/
theorem same_of_spine {s t : State} {y : Spine} {a : Area} (ha : a ∈ spineAreas) (h : t.spine = y) (hy : s.spine.Same a y) : Same a s t := by
  subst h
  simp only [spineAreas, List.mem_cons, List.not_mem_nil, or_false] at ha
  rcases ha with rfl | rfl | rfl | rfl | rfl | rfl <;> exact hy

section
variable {a : Area} (x : Spine)

theorem Spine.same_refl : x.Same a x := by
  unfold Spine.Same; split <;> simp

theorem Spine.same_now (n : Nat) (h : a ≠ .time) : x.Same a { x with now := n } := by
  unfold Spine.Same; split <;> simp_all

theorem Spine.same_timePage (n : Nat) (h : a ≠ .timePage) : x.Same a { x with timePage := n } := by
  unfold Spine.Same; split <;> simp_all

theorem Spine.same_image (i : Image) (f g : Flash) (hi : a ≠ .image) (hf : a ≠ .flash) :
    x.Same a { x with image := i, flashA := f, flashB := g } := by
  unfold Spine.Same; split <;> simp_all

theorem Spine.same_flash (f g : Flash) (h : a ≠ .flash) : x.Same a { x with flashA := f, flashB := g } := by
  unfold Spine.Same; split <;> simp_all

theorem Spine.same_debug (d : Debug) (h : a ≠ .dbg) : x.Same a { x with dbg := d } := by
  unfold Spine.Same; split <;> simp_all

theorem Spine.same_direct (m : Memory) (h : a ≠ .direct) : x.Same a { x with direct := m } := by
  unfold Spine.Same; split <;> simp_all

end

/-- A command that carries no reset leaves every area of the spine that it does not list. -/
theorem Touches.same {c : Instr} {s t : State} (h : Touches c s t) (hr : c.carriesReset = false) {a : Area} (ha : a ∈ spineAreas)
    (hn : a ∉ c.changes) : Same a s t := by
  have off : ∀ {b}, b ∈ c.changes → a ≠ b := fun hb e => hn (e ▸ hb)
  cases h with
  | nothing h => exact same_of_spine ha h (Spine.same_refl _)
  | direct hc h =>
    obtain ⟨m, h, -⟩ := h
    exact same_of_spine ha h (Spine.same_direct _ m (off hc))
  | debug hc h =>
    obtain ⟨d, h⟩ := h
    exact same_of_spine ha h (Spine.same_debug _ d (off hc))
  | flash hc h =>
    obtain ⟨f, g, h⟩ := h
    exact same_of_spine ha h (Spine.same_flash _ f g (off hc))
  | image hc h =>
    obtain ⟨i, f, g, h⟩ := h
    exact same_of_spine ha h (Spine.same_image _ i f g (off hc.2) (off hc.1))
  | timePage hc h =>
    obtain ⟨n, h⟩ := h
    exact same_of_spine ha h (Spine.same_timePage _ n (off hc))
  | time hc h =>
    obtain h | ⟨h, -⟩ := h
    · exact same_of_spine ha h (Spine.same_refl _)
    · exact same_of_spine ha h (Spine.same_now _ 0 (off hc))
  | reset hc => rw [hr] at hc; cases hc

/-- Only RESET_N_RELEASE and CLOCK_MONITOR_WINDOW list device time among the areas that they may change. -/
theorem time_changes {c : Instr} (h : Area.time ∈ c.changes) :
    (∃ a b, c = .resetNRelease a b) ∨ ∃ a b, c = .clockMonitorWindow a b := by
  unfold Instr.changes at h
  split at h
  all_goals simp at h
  · exact .inr ⟨_, _, rfl⟩
  · exact .inl ⟨_, _, rfl⟩

theorem State.tick_now (s : State) : s.tick.now = s.now + 1 := by
  unfold State.tick
  extract_lets s1
  have h : s1.spine = s.spine := ite_spine (by simp) rfl
  exact congrArg (· + 1) (now_of_spine h)

theorem step_idle {s : State} (h : s.pending = []) : step s = .next s.tick := by
  unfold step; rw [h]

theorem step_front {s : State} {c : Instr} {rest : List Instr} (h : s.pending = c :: rest) :
    step s = exec c { s with pending := rest } := by
  unfold step; rw [h]

end Sys2Proof.Machine
end

section
/-! SUPPORT. Full resets and the boot, field by field. -/

namespace Sys2Proof.Machine

theorem State.note_eq (s : State) (name : String) (source detail : Nat) : ∃ r, s.note name source detail = { s with recorder := r } :=
  s.event_eq name none source detail

theorem State.note_power (s : State) (name : String) (source detail : Nat) : (s.note name source detail).power = s.power := by
  obtain ⟨r, h⟩ := s.note_eq name source detail
  rw [h]

/-- What a full reset leaves, but for the recorder (R357). -/
theorem State.wiped_eq (s : State) (phase : Phase) : ∃ r, s.wiped phase =
    { State.reset with
      pending := s.pending, ids := s.ids, free := s.free, flashA := s.flashA, flashB := s.flashB, recorder := r, out := s.out,
      boot := { State.reset.boot with phase := phase } } := by
  unfold State.wiped
  extract_lets fresh b t
  split
  · obtain ⟨r, h⟩ := State.note_eq t "UPLOAD_ABANDONED" (evSource 0 0) 0
    exact ⟨r, h⟩
  · exact ⟨_, rfl⟩

/-- Power at reset release. -/
def Power.released (p : Power) (priGone secGone : Bool) : Power :=
  { p with resetN := true, priGone := priGone, secGone := secGone, onPrimary := !priGone, clkAlarm := priGone || secGone }

/-- With a core reference present, reset release begins the boot (R369, R399). -/
theorem State.release_eq (s : State) (priGone secGone : Bool) (h : priGone = false ∨ secGone = false) : ∃ r,
    s.release priGone secGone = { State.beginBoot { s with power := s.power.released priGone secGone } with recorder := r } := by
  unfold State.release
  extract_lets p s1 b s2
  rw [if_neg (by rcases h with h | h <;> simp [h])]
  split
  · obtain ⟨r, e⟩ := s2.event_eq "REFCLK_SWITCHOVER" (some 0x8E02) (evSource 14 0) 1
    exact ⟨r, e⟩
  · exact ⟨_, rfl⟩

/-- A reset by command, with a core reference present, boots again from the current entry; it keeps the flash and empties the controller. -/
theorem State.commandReset_boots (s : State) (h : s.power.priGone = false ∨ s.power.secGone = false) :
    let t := s.commandReset
    t.boot.phase = .identity ∧ t.now = 0 ∧ t.boot.entry = s.currentEntry ∧ t.flashA = s.flashA ∧ t.flashB = s.flashB ∧ t.direct = [] ∧
      t.reqs = [] ∧ t.seqs = [] ∧ t.fns = [] := by
  obtain ⟨q, hw⟩ := s.wiped_eq .identity
  obtain ⟨r, hr⟩ := (s.wiped .identity).release_eq _ _ h
  unfold State.commandReset
  rw [hr, hw]
  exact ⟨rfl, rfl, rfl, rfl, rfl, rfl, rfl, rfl, rfl⟩

theorem fullReset_powerOn_leaves (s : State) : Leaves (.fullReset .powerOn) s fun t =>
    t.boot.phase = .inReset ∧ t.recorder = .empty ∧ t.now = 0 ∧ t.power.resetN = false ∧
      t.flashA = s.flashA ∧ t.flashB = s.flashB ∧ t.direct = [] ∧ t.reqs = [] ∧ t.seqs = [] := by
  refine ⟨_, rfl, ?_⟩
  unfold State.fullReset
  obtain ⟨r, h⟩ := s.wiped_eq .inReset
  rw [h]
  exact ⟨rfl, rfl, rfl, rfl, rfl, rfl, rfl, rfl, rfl⟩

theorem fullReset_resetN_leaves (s : State) (h : s.boot.phase ≠ .aonOff) : Leaves (.fullReset .resetN) s fun t =>
    t.boot.phase = .inReset ∧ t.now = 0 ∧ t.power.resetN = false ∧
      t.flashA = s.flashA ∧ t.flashB = s.flashB ∧ t.direct = [] ∧ t.reqs = [] ∧ t.seqs = [] := by
  refine ⟨_, rfl, ?_⟩
  unfold State.fullReset
  dsimp only
  obtain ⟨r, e⟩ := s.wiped_eq .inReset
  rw [if_neg h, e]
  exact ⟨rfl, rfl, rfl, rfl, rfl, rfl, rfl, rfl⟩

theorem fullReset_command_leaves (s : State) (hp : s.boot.phase = .service) (hc : s.power.priGone = false ∨ s.power.secGone = false) :
    Leaves (.fullReset .command) s fun t => t.boot.phase = .identity ∧ t.now = 0 ∧ t.boot.entry = s.currentEntry ∧
      t.flashA = s.flashA ∧ t.flashB = s.flashB ∧ t.direct = [] ∧ t.reqs = [] ∧ t.seqs = [] := by
  refine ⟨s.commandReset, ?_, ?_⟩
  · show Host.Outcome.next (s.fullReset .command) = _
    simp only [State.fullReset, hp]
  · obtain ⟨phase, now, entry, fa, fb, direct, reqs, seqs, -⟩ := s.commandReset_boots hc
    exact ⟨phase, now, entry, fa, fb, direct, reqs, seqs⟩

theorem resetNRelease_leaves (s : State) (sec : Bool) (hp : s.boot.phase = .inReset) : Leaves (.resetNRelease true sec) s fun t =>
    t.boot.phase = .identity ∧ t.now = 0 ∧ t.power.resetN = true ∧ t.power.onPrimary = true ∧
      t.boot.entry = s.currentEntry ∧ t.boot.selB = (if s.currentEntry.pending then !s.currentEntry.activeB else s.currentEntry.activeB) := by
  refine ⟨_, rfl, ?_⟩
  obtain ⟨r, h⟩ := s.release_eq (!true) (!sec) (.inl rfl)
  rw [State.resetRelease, if_pos hp, h]
  exact ⟨rfl, rfl, rfl, rfl, rfl, rfl⟩

theorem trialTimeout_leaves (s : State) (hp : s.boot.phase = .training) (ht : s.boot.trial = true) (hn : 2820000000 ≤ s.now)
    (hc : s.power.priGone = false) :
    Leaves .trialTimeout s fun t => t.boot.phase = .identity ∧ t.now = 0 ∧ t.direct = [] ∧ t.reqs = [] ∧ t.fns = [] := by
  refine ⟨_, rfl, ?_⟩
  unfold State.trialTimeout
  rw [if_neg (by simp [hp, ht, serviceBound]; omega)]
  extract_lets u
  have hu : (u.writeEntry { u.boot.entry with pending := false, trial := false }).power = s.power := State.note_power _ _ _ _
  obtain ⟨phase, now, -, -, -, direct, reqs, -, fns⟩ := State.commandReset_boots _ (.inl (by rw [hu]; exact hc))
  exact ⟨phase, now, direct, reqs, fns⟩

/-- An image that has proven itself changes the boot state and the flash alone; its entry carries the floor and the owner (R362, R363). -/
theorem State.proven_eq (s : State) : ∃ b f g, s.proven = { s with boot := b, flashA := f, flashB := g } ∧ b.trial = false ∧
    b.entry.svFloor = max s.boot.entry.svFloor s.image.securityVersion ∧ b.entry.ownerDigest = s.image.ownerKey := by
  unfold State.proven
  extract_lets b i e u
  split
  · next he => exact ⟨_, _, _, rfl, rfl, congrArg BootEntry.svFloor he.symm, congrArg BootEntry.ownerDigest he.symm⟩
  · exact ⟨_, _, _, rfl, rfl, rfl, rfl⟩

theorem memorySetupEnd_leaves (s : State) (hp : s.boot.phase = .training) (ht : s.boot.trained = true) :
    Leaves .memorySetupEnd s fun t => t.boot.phase = .service ∧ t.boot.trial = false ∧ t.fns = bootFns s.image ∧
      t.tenants = bootTenants s.image s.now ∧ t.boot.entry.svFloor = max s.boot.entry.svFloor s.image.securityVersion ∧
      t.boot.entry.ownerDigest = s.image.ownerKey := by
  refine ⟨_, rfl, ?_⟩
  unfold State.serviceBegins
  rw [if_neg (by simp [hp, ht])]
  obtain ⟨b, f, g, h, trial, floor, owner⟩ := s.memorySetup.proven_eq
  rw [h]
  exact ⟨rfl, trial, rfl, rfl, floor, owner⟩

/-! ### Training -/

theorem hbmTrainingEnd_leaves (s : State) (failed : List Nat) (hp : s.boot.phase = .training) (ht : s.boot.trained = false) :
    Leaves (.hbmTrainingEnd failed []) s fun t => t.boot.trained = true ∧ t.power.avsWaiting = some s.corePoint ∧
      t.dram = s.dram.map fun x => if failed.contains x.n then { x with lost := true } else x := by
  refine ⟨_, rfl, ?_⟩
  unfold State.hbmTrained
  rw [if_neg (by simp [hp, ht])]
  extract_lets lose start _ u v
  have hv : v.cold = u.cold := foldl_cold_of rfl fun _ _ => by simp
  have hpow : v.power = s.power := congrArg Cold.power hv
  have core : v.corePoint = s.corePoint := by rw [State.corePoint, hpow]; rfl
  exact ⟨congrArg (fun x => x.boot.trained) hv, congrArg some core, congrArg Cold.dram hv⟩

/-! ### Key slots that are filled stay filled (R311) -/

theorem State.slotFilled_setKey (s : State) (n e : Nat) (k k2 k3 : BitVec 256) (m : Nat) :
    (s.setKey n e k k2 k3).slotFilled m = (n == m || s.slotFilled m) := by
  unfold State.slotFilled
  rw [State.setKey_island, List.any_cons, List.any_filter]
  by_cases h : n = m
  · simp [h]
  · refine congrArg _ (List.any_congr rfl fun x => ?_)
    by_cases hx : x.n = m
    · simp [hx, Ne.symm h]
    · simp [hx]

theorem State.slotFilled_fillSlot (s : State) (n e m : Nat) : (s.fillSlot n e).slotFilled m = (n == m || s.slotFilled m) := by
  unfold State.fillSlot State.draw
  dsimp only
  (repeat' split) <;> exact State.slotFilled_setKey _ _ _ _ _ _ _

theorem foldl_slotFilled {α : Type} {f : State → α → State} {m : Nat} (h : ∀ s a, s.slotFilled m = true → (f s a).slotFilled m = true)
    (l : List α) {s : State} (hs : s.slotFilled m = true) : (l.foldl f s).slotFilled m = true :=
  List.foldlRecOn (motive := fun t : State => t.slotFilled m = true) l f hs fun t ht a _ => h t a ht

/-- The boot fills the controller's own slot, and no later key of the boot empties it (R312). -/
theorem State.bootKeys_slot0 (s : State) (i : Image) : (s.bootKeys i).slotFilled 0 = true := by
  unfold State.bootKeys
  extract_lets _ u v
  have hu : u.slotFilled 0 = true := by simp [u, State.slotFilled_fillSlot]
  have hv : v.slotFilled 0 = true := foldl_slotFilled (fun _ _ h => by simp [State.slotFilled_fillSlot, h]) _ hu
  exact foldl_slotFilled (fun _ _ h => by simp [State.slotFilled_setKey, State.slotFilled_fillSlot, h]) _ hv

/-! ### The image step (R360, R369, R370) -/

/-- The key slots, and whether the recorder has this boot's first record, are the same in both states. -/
def KeepsKeysAndBoot (s t : State) : Prop := t.island.keys = s.island.keys ∧ t.recorder.booted = s.recorder.booted

theorem State.event_keeps (s : State) (name : String) (code : Option Nat) (source detail : Nat) :
    KeepsKeysAndBoot s (s.event name code source detail) := by
  unfold State.event
  dsimp only
  split <;> exact ⟨rfl, rfl⟩

theorem State.lowSpares_keeps (s : State) (pool inst left : Nat) : KeepsKeysAndBoot s (s.lowSpares pool inst left) := by
  unfold State.lowSpares State.advise
  dsimp only
  split
  · split <;> exact s.event_keeps _ _ _ _
  · exact ⟨rfl, rfl⟩

theorem State.bootSpares_keeps (s : State) : KeepsKeysAndBoot s s.bootSpares :=
  List.foldlRecOn (motive := KeepsKeysAndBoot s) _ _ ⟨rfl, rfl⟩ fun t h _ _ =>
    have ht := t.lowSpares_keeps _ _ _
    ⟨ht.1.trans h.1, ht.2.trans h.2⟩

theorem State.ownerChain_keys (s : State) (i : Image) : (s.ownerChain i).island.keys = s.island.keys := by
  unfold State.ownerChain
  split
  · rfl
  · split
    · rfl
    · exact (s.event_keeps _ _ _ _).1

/-- The repair of an identity area leaves the slot of every device. -/
theorem State.repairIdentity_slot (s : State) (b : Bool) : (s.repairIdentity.flash b).slot = (s.flash b).slot := by
  unfold State.repairIdentity
  split
  · rfl
  · obtain ⟨r, h⟩ := State.note_eq ((s.setFlash true fun f => { f with idAreaOk := true }).setFlash false fun f => { f with idAreaOk := true })
      "IDENTITY_AREA_REPAIRED" (evSource 0 0) s.flashA.idAreaOk.toNat
    rw [h]
    cases b <;> rfl

theorem State.repairIdentity_boot (s : State) : s.repairIdentity.boot = s.boot := congrArg Cold.boot s.repairIdentity_cold

theorem State.imagePasses_leaves (u : State) (j : Image) :
    let t := u.imagePasses j
    t.boot.phase = .training ∧ t.image = j.taken ∧ t.boot.bootEpoch = (u.boot.entry.bootEpoch + 1) % 2 ^ 32 ∧
      t.boot.entry.generation = u.boot.entry.generation + 1 ∧ t.boot.entry.pending = false ∧ t.slotFilled 0 = true ∧
      t.recorder.booted = true := by
  unfold State.imagePasses
  extract_lets b epoch i e v w t
  have cold : t.cold = w.cold := by simp [t]
  have hboot : t.boot = w.boot := congrArg Cold.boot cold
  have himage : t.image = w.image := image_of_spine (by simp [t])
  obtain ⟨keys, booted⟩ := (((w.bootKeys i).ownerChain i).bootRecord b.selB false false).bootSpares_keeps
  have hslot : t.slotFilled 0 = true := by
    rw [State.slotFilled, keys]
    exact (congrArg (fun l => l.any fun k => k.n == 0) ((w.bootKeys i).ownerChain_keys i)).trans (w.bootKeys_slot0 i)
  refine ⟨?_, himage, ?_, ?_, ?_, hslot, booted⟩
  all_goals
    rw [hboot]
    rfl

/-- The selected image fails while the other device's is untried: that one is selected (R370). -/
theorem State.imageRefused_first (s : State) (h : s.boot.triedOther = false) :
    s.imageRefused.boot.phase = s.boot.phase ∧ s.imageRefused.boot.triedOther = true ∧ s.imageRefused.boot.selB = !s.boot.selB := by
  unfold State.imageRefused
  dsimp only
  rw [if_neg (by simp [h]), State.note_boot]
  exact ⟨rfl, rfl, rfl⟩

/-- Both devices' images fail: boot failed (R370). -/
theorem State.imageRefused_last (s : State) (h : s.boot.triedOther = true) : s.imageRefused.boot.phase = .failed := by
  unfold State.imageRefused
  dsimp only
  rw [if_pos h]
  rfl

section
variable {s : State} {i j : Image} (hp : s.boot.phase = .identity) (hid : s.flashA.idAreaOk = true ∨ s.flashB.idAreaOk = true)
  (hj : (s.flash s.boot.selB).slot.getD i = j)
include hp hid hj

/-- With an identity area that reads, the image step decides on the selected device's image. -/
theorem imageEnd_decides : s.imageEnd true (some i) =
    if imageFails s.boot.entry true j = 0 then s.repairIdentity.imagePasses j
    else (s.repairIdentity.note "IMAGE_CHECK_FAILED" (evSource 0 0)
      (s.boot.selB.toNat + imageFails s.boot.entry true j * 2)).imageRefused := by
  have hok : (true && (s.flashA.idAreaOk || s.flashB.idAreaOk)) = true := by simpa using hid
  unfold State.imageEnd
  rw [if_neg (by simp [hp])]
  dsimp only
  rw [hok, if_pos rfl, if_neg (by simp), Option.map_some]
  simp only [s.repairIdentity_boot, s.repairIdentity_slot, hj]

theorem imageCheckEnd_passes (hf : imageFails s.boot.entry true j = 0) :
    Leaves (.imageCheckEnd true (some i)) s fun t => t.boot.phase = .training ∧ t.image = j.taken ∧
      t.boot.bootEpoch = (s.boot.entry.bootEpoch + 1) % 2 ^ 32 ∧ t.boot.entry.generation = s.boot.entry.generation + 1 ∧
      t.boot.entry.pending = false ∧ t.slotFilled 0 = true ∧ t.recorder.booted = true := by
  refine ⟨s.imageEnd true (some i), rfl, ?_⟩
  rw [imageEnd_decides hp hid hj, if_pos hf]
  simpa only [s.repairIdentity_boot] using s.repairIdentity.imagePasses_leaves j

theorem imageEnd_refuses (hf : imageFails s.boot.entry true j ≠ 0) :
    ∃ u : State, s.imageEnd true (some i) = u.imageRefused ∧ u.boot = s.boot := by
  rw [imageEnd_decides hp hid hj, if_neg hf]
  exact ⟨_, rfl, (State.note_boot _ _ _ _).trans s.repairIdentity_boot⟩

theorem imageCheckEnd_falls_back (hf : imageFails s.boot.entry true j ≠ 0) (ht : s.boot.triedOther = false) :
    Leaves (.imageCheckEnd true (some i)) s fun t => t.boot.phase = .identity ∧ t.boot.triedOther = true ∧ t.boot.selB = !s.boot.selB := by
  obtain ⟨u, h, hu⟩ := imageEnd_refuses hp hid hj hf
  refine ⟨s.imageEnd true (some i), rfl, ?_⟩
  rw [h, ← hu, ← hp, ← hu]
  exact u.imageRefused_first (by rw [hu]; exact ht)

theorem imageCheckEnd_fails (hf : imageFails s.boot.entry true j ≠ 0) (ht : s.boot.triedOther = true) :
    Leaves (.imageCheckEnd true (some i)) s fun t => t.boot.phase = .failed := by
  obtain ⟨u, h, hu⟩ := imageEnd_refuses hp hid hj hf
  refine ⟨s.imageEnd true (some i), rfl, ?_⟩
  rw [h]
  exact u.imageRefused_last (by rw [hu]; exact ht)

end

/-! ### The reset state (R357) -/

/-- An empty direct region without an undefined range reads as an unlisted address does, at every address (R357). -/
theorem State.directRead_of_empty {s : State} (h : s.direct = []) (ho : s.directOpen = []) (a : Nat) : s.directRead a 1 = [memDefault] := by
  rw [State.directRead, h, ho]
  rfl

end Sys2Proof.Machine
end

section
/-! CLAIMS. The statements about the block as a whole: what commands leave alone, device time, resets and the boot. -/

namespace Sys2Proof.Machine

/-- Settles O5: from `exec_touches`, the split over the commands. -/
theorem guardedAreasStand : Obligations.GuardedAreasStand := by
  unfold Obligations.GuardedAreasStand
  intro c s t h
  exact ⟨(exec_follows h).pending, fun hr a ha hn => (exec_touches h).same hr ha hn⟩

/-- Settles O4: a tick adds one; a command that lists device time, or carries a reset, leaves it or starts it again outside service, and
any other leaves it. -/
theorem deviceTimeRuns : Obligations.DeviceTimeRuns := by
  unfold Obligations.DeviceTimeRuns
  intro s t h
  refine ⟨fun hp => ?_, fun c rest hp => ?_⟩
  · rw [step_idle hp] at h
    cases h
    exact s.tick_now
  · rw [step_front hp] at h
    by_cases hc : c.carriesReset = true ∨ Area.time ∈ c.changes
    · exact (exec_follows h).now.imp_right fun ⟨h0, hs⟩ => ⟨h0, hs, hc.imp_right time_changes⟩
    · rw [not_or, Bool.not_eq_true] at hc
      exact .inl ((exec_touches h).same hc.1 (by simp [spineAreas]) hc.2)

/-- Settles O50: each reset and each boot step by its own lemma. -/
theorem bootCommandsComplete : Obligations.BootCommandsComplete := by
  unfold Obligations.BootCommandsComplete
  refine ⟨fun s => ⟨fullReset_powerOn_leaves s, fullReset_resetN_leaves s, fullReset_command_leaves s⟩, resetNRelease_leaves,
    fun s i j hp hid hj => ⟨imageCheckEnd_passes hp hid hj, imageCheckEnd_falls_back hp hid hj, imageCheckEnd_fails hp hid hj⟩,
    hbmTrainingEnd_leaves, memorySetupEnd_leaves, trialTimeout_leaves⟩

/-- Settles O2: the reset state holds these values, and its direct region is empty. -/
theorem resetLeaves : Obligations.ResetLeaves := by
  unfold Obligations.ResetLeaves
  exact ⟨rfl, rfl, rfl, rfl, rfl, rfl, rfl, rfl, rfl, rfl, rfl, rfl, rfl, rfl, rfl, rfl, rfl, rfl, rfl, rfl, State.directRead_of_empty rfl rfl⟩

end Sys2Proof.Machine
end

section
/-! SUPPORT. Asvis frames: the state that an accepted frame leaves to its message, and what a sent frame leaves behind. -/

namespace Sys2Proof.Machine

/-! ### A frame that is heard (R254 to R256) -/

theorem Port.find_mapIf {q : PortId} {g : Port → Port} (hg : ∀ x, (g x).id = x.id) (l : List Port) :
    (mapIf (·.id == q) g l).find? (·.id == q) = (l.find? (·.id == q)).map g := by
  induction l with
  | nil => rfl
  | cons x l ih =>
    rw [mapIf, List.map_cons, List.find?_cons, List.find?_cons]
    cases hx : x.id == q with
    | true => simp [hg, hx]
    | false => simpa [hx, mapIf] using ih

/-- The port that a port update leaves. -/
theorem State.port?_modPort (s : State) (q : PortId) (g : Port → Port) (hg : ∀ x, (g x).id = x.id) :
    (s.modPort q g).port? q = (s.port? q).map g :=
  Port.find_mapIf hg s.ports

@[simp] theorem Port.deriveKey_id (p : Port) (h : Hdr) : (p.deriveKey h).id = p.id := by
  unfold Port.deriveKey; dsimp only; split <;> rfl

@[simp] theorem Port.deriveKey_st (p : Port) (h : Hdr) : (p.deriveKey h).st = p.st := by
  unfold Port.deriveKey; dsimp only; split <;> rfl

@[simp] theorem Port.deriveKey_resetting (p : Port) (h : Hdr) : (p.deriveKey h).resetting = p.resetting := by
  unfold Port.deriveKey; dsimp only; split <;> rfl

section
variable {s : State} {link : Nat} {p : Port} {fr : Frame} {v n : Nat} {kinds : List Nat} (h : s.hears link p fr v kinds n = true)
include h

/-- A frame that the link hears reaches its message. -/
theorem State.takeFrame_of_hears (answer : Bool) (k : State → Port → State) :
    s.takeFrame link fr v kinds n answer k = k (s.heard link fr) p := by
  simp only [State.hears, Bool.and_eq_true, beq_iff_eq, decide_eq_true_eq] at h
  obtain ⟨⟨⟨⟨⟨⟨⟨⟨⟨hs, hp⟩, hup⟩, -⟩, hv⟩, hlegal⟩, hseq⟩, hepoch⟩, htag⟩, -⟩ := h
  unfold State.takeFrame State.live
  rw [if_pos hs]
  dsimp only
  rw [hp]
  cases he : s.frameEpoch link fr with
  | none => simp [hup, Nat.not_lt.mpr hv, hlegal, hseq, htag, State.heard]
  | some e =>
    have hkey : fr.keyEpoch = e := by simpa [he] using hepoch
    simp [hup, Nat.not_lt.mpr hv, hlegal, hseq, htag, hkey, State.heard]

/-- A link that has heard a frame issues frames, and its key slot is filled. -/
theorem State.heard_issues :
    (s.heard link fr).portIssues (.asvis link) = true ∧ (s.heard link fr).slotFilled (portSlot (.asvis link)) = true := by
  simp only [State.hears, Bool.and_eq_true, beq_iff_eq, Bool.not_eq_true'] at h
  obtain ⟨⟨⟨⟨⟨⟨⟨⟨⟨-, hp⟩, hup⟩, hres⟩, -⟩, -⟩, -⟩, -⟩, -⟩, hslot⟩ := h
  refine ⟨?_, hslot⟩
  unfold State.portIssues State.heard
  rw [State.port?_modPort _ _ _ (by simp), hp]
  simp [hup, hres]

end

/-! ### A frame that is sent (R255) -/

theorem State.enqueue_eq (s : State) (egress fn cls n : Nat) : ∃ q, s.enqueue egress fn cls n = { s with queues := q } := by
  unfold State.enqueue
  extract_lets mine put
  (repeat' split) <;> exact ⟨_, rfl⟩

/-- A link that issues frames, with its key slot filled, sends a frame with what it was given; the queues, the ports and the outputs alone
change. -/
theorem State.sendFrame_sends {s : State} {link : Nat} (hi : s.portIssues (.asvis link) = true)
    (hk : s.slotFilled (portSlot (.asvis link)) = true) (f : Sent) :
    ∃ q ps o g, s.sendFrame link f = { s with queues := q, ports := ps, out := .frame link g :: o } ∧ g.msg = f.msg ∧ g.xid = f.xid ∧
      g.object = f.object ∧ g.status = f.status ∧ g.offset = f.offset ∧ g.last = f.last ∧ g.data = f.data := by
  obtain ⟨x, hx⟩ : ∃ x, s.keySlot? (portSlot (.asvis link)) = some x :=
    Option.isSome_iff_exists.mp (List.find?_isSome.mpr (List.any_eq_true.mp hk))
  unfold State.sendFrame
  rw [hx]
  dsimp -zeta only
  rw [if_neg (by simp [hi])]
  extract_lets _ n _ g s1
  have h1 : ∃ o, s1 = { s with out := o } := by
    unfold s1
    split <;> exact ⟨_, rfl⟩
  obtain ⟨o, h1⟩ := h1
  obtain ⟨q, hq⟩ := (s1.emit (.frame link g)).enqueue_eq (4 + link) (g.hdr.queueFn (g.msg == msgPageGet || g.msg == msgPagePut)) g.hdr.cls
    (64 + g.data.length)
  rw [hq, h1]
  exact ⟨q, _, o, g, rfl, rfl, rfl, rfl, rfl, rfl, rfl, rfl⟩

/-- A message of one frame leaves with what it was given. -/
theorem State.send_sends {s : State} {link : Nat} (hi : s.portIssues (.asvis link) = true)
    (hk : s.slotFilled (portSlot (.asvis link)) = true) (msg xid object aux status : Nat) (data : Bytes) (h : Hdr) :
    (s.send link msg xid object aux status data h).sent link msg xid object status data ∧
      ∃ q ps o, s.send link msg xid object aux status data h = { s with queues := q, ports := ps, out := o } := by
  unfold State.send
  obtain ⟨q, ps, o, g, e, hmsg, hxid, hobject, hstatus, -, -, hdata⟩ := State.sendFrame_sends hi hk _
  rw [e]
  exact ⟨⟨g, List.mem_cons_self, hmsg, hxid, hobject, hstatus, hdata⟩, q, ps, _, rfl⟩

end Sys2Proof.Machine
end

section
/-! SUPPORT. An ATTEND at a tray: none is taken at a window, and one that a link brings is refused while the directory table has its
banks; but while that table is short of a bank, the message waits with the other searches of it (R90), and nothing is sent. -/

namespace Sys2Proof.Machine

/-- A tray's apertures take nothing (R13). -/
theorem State.aperture_of_isTray {s : State} (ht : s.isTray = true) (group fn : Nat) (k : Fn → State → State) : s.aperture group fn k = s := by
  unfold State.aperture
  refine s.live_cases (P := (· = s)) _ rfl ?_
  split
  · rfl
  · exact if_pos (.inl ht)

theorem exec_attend_of_isTray {s : State} (ht : s.isTray = true) (sub : Sub) (f : AttendF) : exec (.attend sub f) s = .next s :=
  congrArg _ (State.aperture_of_isTray ht _ _ _)

section
variable {s : State} {link : Nat} {p : Port} {fr : Frame} (h : s.hears link p fr 2 [1, 2] 0 = true) (ht : s.isTray = true)
include h ht

/-- While the directory table is short of a bank, a tray holds a near-memory message, whatever it asks for (R90). -/
theorem exec_nmo_of_tableShort (hb : s.tableUp 6 = false) (op : Desc) :
    exec (.nmo link fr op) s = .next ((s.heard link fr).holdSearch (.nmo link fr op)) := by
  show execNmo link fr op s = _
  unfold execNmo
  rw [State.takeFrame_of_hears h]
  exact congrArg _ (if_pos ⟨ht, congrArg (!·) hb⟩)

/-- While the directory table has its banks, a tray refuses an ATTEND that its link brings, with the Asvis status 9 (R14). -/
theorem exec_nmo_attend_of_tableUp (hb : s.tableUp 6 = true) (f : AttendF) :
    exec (.nmo link fr (.attend f)) s = .next ((s.heard link fr).send link msgNmoDone fr.xid 0 fr.aux 9 [] (hdrOf fr)) := by
  show execNmo link fr (.attend f) s = _
  unfold execNmo
  rw [State.takeFrame_of_hears h]
  have hb' : (s.heard link fr).tableUp 6 = true := hb
  have ht' : (s.heard link fr).isTray = true := ht
  simp [hb', ht', State.onNmo, State.runNmo, reduceOf]

/-- The refusal does nothing else: the first part of O12 where the directory table has its banks. -/
theorem nmo_attend_refused (hb : s.tableUp 6 = true) (f : AttendF) : Leaves (.nmo link fr (.attend f)) s fun t =>
    t.sent link msgNmoDone fr.xid 0 9 [] ∧ t.reqs = s.reqs ∧ t.passes = s.passes ∧ t.curds = s.curds ∧ t.tray = s.tray := by
  obtain ⟨hi, hk⟩ := State.heard_issues h
  obtain ⟨hsent, q, ps, o, e⟩ := State.send_sends hi hk msgNmoDone fr.xid 0 fr.aux 9 [] (hdrOf fr)
  refine ⟨_, exec_nmo_attend_of_tableUp h ht hb f, hsent, ?_⟩
  rw [e]
  exact ⟨rfl, rfl, rfl, rfl⟩

end

/-! ### A tray that holds an ATTEND -/

/-- An Asvis link that is up, with its session. -/
def upLink : Port :=
  { id := .asvis 0, st := .up, version := 2, rate := 224, width := 2, peer := none, session := true, dirOk := false, txSeq := 0, rxSeq := 0,
    discards := [], errors := 0, credits := [], peerCycle := 0, peerGates := [], buffer := [], lastRx := 0, lastTx := 0, since := 0,
    left := none, resetting := false }

/-- A tray in service whose directory table is short of its bank 0, which is failing. -/
def bankShortTray : State :=
  { State.reset with
    boot := { State.reset.boot with phase := .service }, image := { imageNone with tray := true }, ports := [upLink],
    array := { ArraySt.atBoot with
      banks := mapIf (fun (b : Bank) => b.n == 0) (fun b => { b with tag := 6, st := .failing }) ArraySt.atBoot.banks },
    island := { Island.atBoot with keys := [{ n := portSlot (.asvis 0), epoch := 0, key := 5 }] } }

/-- The frame that the link expects next, under a tenant's key. -/
def tenantFrame : Frame :=
  { version := 2, cls := 1, last := true, coded := false, own := false, src := 20, dst := 0, fn := 0, tenant := 1, domain := 0, keyKind := 1,
    status := 0, keyEpoch := 0, frameSeq := 0, xid := 70, object := 0, offset := 0, aux := 0, tagOk := true }

def attendOne : AttendF :=
  { seq := 0, layer := 0, kvFirst := 0, kvCount := 1, qTokens := 1, qFormat := 0, causal := false, segMask := false, oFormat := 0,
    multiPartial := false, qRequant := false, qPos := 0, curdMode := 0, curdExpect := 0, keyPrecision := 0, qSegment := 0,
    windowTokens := 0, sinkTokens := 0, scale := 0, softcap := 0, blockLo := 0, blockHi := 0, query := 0, result := 0, resultLen := 0 }

theorem bankShortTray_hears : bankShortTray.hears 0 upLink tenantFrame 2 [1, 2] 0 = true := by decide

end Sys2Proof.Machine
end

section
/-! CLAIMS. The statements about what a controller does in its role. -/

namespace Sys2Proof.Machine

/-- Refutes O12: the tray's directory table is short of a bank, so that the tray holds the message with its ATTEND (R90) and has sent no
answer when the command ends. -/
theorem not_trayRefusesAttend : ¬ Obligations.TrayRefusesAttend := by
  unfold Obligations.TrayRefusesAttend
  rintro ⟨hlink, -⟩
  obtain ⟨t, ht, hsent, -⟩ := hlink bankShortTray 0 upLink tenantFrame attendOne bankShortTray_hears rfl
  rw [exec_nmo_of_tableShort bankShortTray_hears rfl (by decide)] at ht
  cases ht
  obtain ⟨f, hf, -⟩ := hsent
  cases hf

end Sys2Proof.Machine
end

section
namespace Sys2Proof.Machine

/-- What the storage of pages and records never touches: every field but those it works on. -/
def State.stored (s : State) : State :=
  { s with recs := [], pages := [], parity := [], grainVers := [], moves := [], staging := [], tables := [], tabFree := State.reset.tabFree,
           impFree := State.reset.impFree, recorder := State.reset.recorder, out := [] }

/-- What frames, transfers and the reports of the associative array never touch. -/
def State.carried (s : State) : State :=
  { s with ids := 0, array := State.reset.array, queues := [], ports := [], txns := [], recorder := State.reset.recorder, out := [] }

/-- What the directory, its frames and the storage under it never touch. -/
def State.held (s : State) : State :=
  { s.stored with ids := 0, dir := [], dirGens := [], dirFree := State.reset.dirFree, array := State.reset.array, queues := [], ports := [],
                  txns := [] }

theorem State.held_of_stored {s t : State} (h : t.stored = s.stored) : t.held = s.held :=
  congrArg (fun x : State => ({ x with ids := 0, dir := [], dirGens := [], dirFree := State.reset.dirFree, array := State.reset.array, queues := [],
                                       ports := [], txns := [] } : State)) h

theorem State.held_of_carried {s t : State} (h : t.carried = s.carried) : t.held = s.held := (congrArg State.held h :)

theorem State.seqs_of_held {s t : State} (h : t.held = s.held) : t.seqs = s.seqs := (congrArg State.seqs h :)
theorem State.seqGens_of_held {s t : State} (h : t.held = s.held) : t.seqGens = s.seqGens := (congrArg State.seqGens h :)
theorem State.seqFree_of_held {s t : State} (h : t.held = s.held) : t.seqFree = s.seqFree := (congrArg State.seqFree h :)
theorem State.reqs_of_held {s t : State} (h : t.held = s.held) : t.reqs = s.reqs := (congrArg State.reqs h :)

theorem foldl_keeps {α β : Type} (m : State → β) (f : State → α → State) (h : ∀ s a, m (f s a) = m s) :
    ∀ (l : List α) (s : State), m (l.foldl f s) = m s := by
  intro l
  induction l with
  | nil => intro s; rfl
  | cons a l ih => intro s; rw [List.foldl_cons, ih, h]

/-! ### Storage -/

@[simp] theorem State.note_stored (s : State) (a) (b) (c) : (s.note a b c).stored = s.stored := by
  obtain ⟨r, h⟩ := s.note_eq a b c; rw [h]; rfl
@[simp] theorem State.modRec_stored (s : State) (a) (b) : (s.modRec a b).stored = s.stored := rfl
@[simp] theorem State.modPage_stored (s : State) (a) (b) (c) : (s.modPage a b c).stored = s.stored := rfl
@[simp] theorem State.modTable_stored (s : State) (a) (b) : (s.modTable a b).stored = s.stored := rfl
@[simp] theorem State.emit_stored (s : State) (o) : (s.emit o).stored = s.stored := rfl

@[simp] theorem State.putTableId_stored (s : State) (a) : (s.putTableId a).stored = s.stored := by
  unfold State.putTableId; split <;> rfl

@[simp] theorem State.tableSweep_stored (s : State) (a) : (s.tableSweep a).stored = s.stored := by
  unfold State.tableSweep
  split
  · split
    · rw [State.note_stored, State.putTableId_stored]; rfl
    · rfl
  · rfl

@[simp] theorem State.tableRef_stored (s : State) (a) : (s.tableRef a).stored = s.stored := by
  unfold State.tableRef; split <;> rfl

@[simp] theorem State.tableUnref_stored (s : State) (a) : (s.tableUnref a).stored = s.stored := by
  unfold State.tableUnref; split <;> simp

@[simp] theorem State.deallocate_stored (s : State) (p) : (s.deallocate p).stored = s.stored := by
  unfold State.deallocate; split
  · rfl
  · split <;> rfl

@[simp] theorem State.sweepPages_stored (s : State) : s.sweepPages.stored = s.stored := by
  unfold State.sweepPages; dsimp only
  rw [foldl_keeps State.stored _ (fun s p => by simp)]; rfl

@[simp] theorem State.freePage_stored (s : State) (a) (b) : (s.freePage a b).stored = s.stored := by
  unfold State.freePage; simp

@[simp] theorem State.freeLocs_stored (s : State) (r) : (s.freeLocs r).stored = s.stored := by
  have h := foldl_keeps State.stored (fun (s : State) (l : Loc) => if l.grains = 0 then s else s.freePage l.tier l.addr)
    (fun s l => by split <;> simp) r.locs s
  unfold State.freeLocs; exact h

@[simp] theorem State.unrefRec_stored (s : State) (a) : (s.unrefRec a).stored = s.stored := by
  unfold State.unrefRec
  split
  · rfl
  · split
    · rw [State.freeLocs_stored]; rfl
    · rfl

/-! ### The directory -/

@[simp] theorem State.unrefRec_held (s : State) (a) : (s.unrefRec a).held = s.held := State.held_of_stored (by simp)
@[simp] theorem State.note_carried (s : State) (a) (b) (c) : (s.note a b c).carried = s.carried := by
  obtain ⟨r, h⟩ := s.note_eq a b c; rw [h]; rfl
@[simp] theorem State.emit_carried (s : State) (o) : (s.emit o).carried = s.carried := rfl
@[simp] theorem State.modPort_carried (s : State) (a) (b) : (s.modPort a b).carried = s.carried := rfl
@[simp] theorem State.openTxn_carried (s : State) (a) (b) (c) (d) (e) : (s.openTxn a b c d e).carried = s.carried := rfl

@[simp] theorem State.enqueue_carried (s : State) (a) (b) (c) (d) : (s.enqueue a b c d).carried = s.carried := by
  obtain ⟨q, h⟩ := s.enqueue_eq a b c d; rw [h]; rfl

@[simp] theorem State.sendFrame_carried (s : State) (a) (b) : (s.sendFrame a b).carried = s.carried := by
  unfold State.sendFrame
  split
  · rfl
  · split
    · rfl
    · dsimp only; rw [State.modPort_carried, State.enqueue_carried, State.emit_carried]; split <;> rfl

@[simp] theorem State.send_carried (s : State) (a) (b) (c) (d) (e) (f) (g) (h) : (s.send a b c d e f g h).carried = s.carried :=
  s.sendFrame_carried _ _

@[simp] theorem State.note_held (s : State) (a) (b) (c) : (s.note a b c).held = s.held := State.held_of_carried (by simp)
@[simp] theorem State.enqueue_held (s : State) (a) (b) (c) (d) : (s.enqueue a b c d).held = s.held := State.held_of_carried (by simp)
@[simp] theorem State.send_held (s : State) (a) (b) (c) (d) (e) (f) (g) (h) : (s.send a b c d e f g h).held = s.held :=
  State.held_of_carried (by simp)
@[simp] theorem State.openTxn_held (s : State) (a) (b) (c) (d) (e) : (s.openTxn a b c d e).held = s.held := rfl
@[simp] theorem State.modDir_held (s : State) (a) (b) : (s.modDir a b).held = s.held := rfl
@[simp] theorem State.dropRows_held (s : State) (a) : (s.dropRows a).held = s.held := rfl
@[simp] theorem State.removeFlow_held (s : State) (a) : (s.removeFlow a).held = s.held := rfl

@[simp] theorem State.sendRelease_held (s : State) (a) (b) : (s.sendRelease a b).held = s.held := by
  unfold State.sendRelease; split <;> simp

@[simp] theorem State.freeSlot_held (s : State) (e) : (s.freeSlot e).held = s.held := by
  have h : ((e.map.map Prod.snd).foldl (fun s r => s.unrefRec r) s).held = s.held := foldl_keeps State.held _ (fun s p => by simp) _ _
  unfold State.freeSlot; exact h

theorem ite_keeps {β : Type} {m : State → β} {p : Prop} [Decidable p] {a b s : State} (ha : m a = m s) (hb : m b = m s) :
    m (if p then a else b) = m s := by
  split <;> assumption

@[simp] theorem State.releaseRef_held (n : Nat) : ∀ (s : State) (a), (State.releaseRef n s a).held = s.held := by
  induction n with
  | zero => intro s a; rfl
  | succ n ih =>
    intro s a
    have parent : ∀ (t : State) (o : Option DirEntry), (match o with
        | some p => State.releaseRef n t p.slot
        | none => t).held = t.held := fun t o => by cases o <;> simp [ih]
    unfold State.releaseRef
    split
    · rfl
    · dsimp only
      refine ite_keeps (m := State.held) (by simp) (ite_keeps (m := State.held) (ite_keeps (m := State.held) (ite_keeps (m := State.held) (by simp) (by simp)) (ite_keeps (m := State.held) (by simp) ?_)) (ite_keeps (m := State.held) (by simp) ?_))
      · exact (parent _ _).trans ((State.freeSlot_held _ _).trans (ite_keeps (m := State.held) (by simp) (by simp)))
      · exact (parent _ _).trans ((State.freeSlot_held _ _).trans (ite_keeps (m := State.held) (by simp) (by simp)))

@[simp] theorem State.releaseHandle_held (s : State) (a) : (s.releaseHandle a).held = s.held := by
  unfold State.releaseHandle; split <;> simp

/-! ### Sequence slots (R23) -/

@[simp] theorem genOf_setGen_same (l : List (Nat × Nat)) (i g : Nat) : genOf (setGen l i g) i = g := by
  simp [genOf, setGen]

theorem genOf_setGen_ne (l : List (Nat × Nat)) {i j : Nat} (g : Nat) (h : j ≠ i) : genOf (setGen l i g) j = genOf l j := by
  have hf : (l.filter fun x => x.1 != i).find? (fun x => x.1 == j) = l.find? fun x => x.1 == j := by
    rw [List.find?_filter]
    congr 1
    funext x
    by_cases hx : x.1 = j <;> simp [hx, h]
  simp only [genOf, setGen, List.find?_cons, beq_eq_false_iff_ne.mpr (Ne.symm h), hf]

/-- Following the records' shared bits changes no sequence's slot. -/
theorem State.refreshShares_indices (s : State) : s.refreshShares.seqs.map (·.index) = s.seqs.map (·.index) := by
  simp [State.refreshShares, Function.comp_def]

/-- Before its slot returns to the free list, a sequence being freed has left the sequences, and no other sequence or slot has moved. -/
theorem State.freeSeq_eq (s : State) (i : Nat) (q : Seq) (h : s.seq? i = some q) :
    ∃ u : State, s.freeSeq i = { u with seqGens := setGen s.seqGens i (nextGen q.gen), seqFree := s.seqFree.put i } ∧
      u.seqs.map (·.index) = (s.seqs.filter fun x => x.index != i).map (·.index) := by
  let a : State := { s.removeFlow q.handle with seqs := s.seqs.filter fun x => x.index != i }
  let b : State := (List.flatMap Version.recIds q.versions).eraseDups.foldl (fun s r => s.unrefRec r) a
  let c : State := if q.cur.prefixHandle = 0 then b.refreshShares else b.refreshShares.releaseHandle q.cur.prefixHandle
  have hb : b.held = a.held := foldl_keeps State.held _ (fun s r => by simp) _ _
  have hc : c.held = b.refreshShares.held := ite_keeps (m := State.held) rfl (by simp)
  have hgens : c.seqGens = s.seqGens := (State.seqGens_of_held hc).trans (State.seqGens_of_held hb :)
  have hfree : c.seqFree = s.seqFree := (State.seqFree_of_held hc).trans (State.seqFree_of_held hb :)
  refine ⟨c, ?_, ?_⟩
  · have he : s.freeSeq i = { c with seqGens := setGen c.seqGens i (nextGen q.gen), seqFree := c.seqFree.put i } := by
      unfold State.freeSeq; rw [h]; rfl
    rw [he, hgens, hfree]
  · rw [State.seqs_of_held hc, State.refreshShares_indices, State.seqs_of_held hb]

theorem State.freeSeq_seqs (s : State) (i : Nat) (q : Seq) (h : s.seq? i = some q) : ∀ p ∈ (s.freeSeq i).seqs, p.index ≠ i := by
  obtain ⟨u, he, hu⟩ := s.freeSeq_eq i q h
  intro p hp
  rw [he] at hp
  have hm : p.index ∈ u.seqs.map (·.index) := List.mem_map_of_mem hp
  rw [hu, List.mem_map] at hm
  obtain ⟨x, hx, hxp⟩ := hm
  rw [← hxp]
  simpa using (List.mem_filter.mp hx).2

end Sys2Proof.Machine
end

section
/-! CLAIMS. The obligations about sequences and page lists that hold, each by its own theorem. -/

namespace Sys2Proof.Machine

/-- Settles O14: the free list is a queue of freed slots behind the slots never taken. -/
theorem sequenceSlotsInTurn : Obligations.SequenceSlotsInTurn := by
  unfold Obligations.SequenceSlotsInTurn
  refine ⟨fun s i q h => ?_, fun l i rest hl hf => ?_, fun n hn => ?_⟩
  · obtain ⟨u, he, -⟩ := s.freeSeq_eq i q h
    refine ⟨?_, ?_, ?_, s.freeSeq_seqs i q h, fun j hj => ?_⟩ <;> rw [he]
    · exact genOf_setGen_same _ _ _
    · rfl
    · rfl
    · exact genOf_setGen_ne _ _ hj
  · simp [FreeList.take, Nat.not_lt.mpr hl, hf]
  · exact FreeList.take_fresh _ hn

end Sys2Proof.Machine
end

section
/-! SUPPORT. What opening, forking and committing leave of the sequences: bookkeeping of residence, of shared bits and of pins touches only
the bits of a sequence that `Seq.kern` leaves out. -/

namespace Sys2Proof.Machine

/-- A sequence but for what follows from its records, its pins and its residence. -/
def Seq.kern (q : Seq) : Seq :=
  { q with sharesBlocks := false, hasPins := false, segmented := false, rehome := false, t1held := false, old := [],
           cur := { q.cur with pins := 0 } }

/-- The sequences but for what `Seq.kern` leaves out. -/
def State.kerns (s : State) : List Seq := s.seqs.map Seq.kern

/-- What moves of residence, references and the ends of requests never touch. -/
def State.ended (s : State) : State :=
  { s.held with seqs := s.kerns, demoting := [], fns := [], reqs := [], fences := [], trace := [], telemetry := State.reset.telemetry,
                calendar := [], monitor := State.reset.monitor, curds := [] }

theorem State.ended_of_held {s t : State} (h : t.held = s.held) : t.ended = s.ended :=
  congrArg (fun x : State => ({ x with seqs := x.kerns, demoting := [], fns := [], reqs := [], fences := [], trace := [],
                                       telemetry := State.reset.telemetry, calendar := [], monitor := State.reset.monitor, curds := [] } : State)) h

theorem State.kerns_of_ended {s t : State} (h : t.ended = s.ended) : t.kerns = s.kerns := (congrArg State.seqs h :)

theorem mapIf_kern {p : Seq → Bool} {g : Seq → Seq} (h : ∀ q, (g q).kern = q.kern) (l : List Seq) : (mapIf p g l).map Seq.kern = l.map Seq.kern := by
  simp only [mapIf, List.map_map]
  refine List.map_congr_left fun q _ => ?_
  simp only [Function.comp]
  split
  · exact h q
  · rfl

/-- A change of sequences that leaves every kernel leaves the rest. -/
theorem ended_of_seqs {s : State} {l : List Seq} (h : l.map Seq.kern = s.kerns) : ({ s with seqs := l } : State).ended = s.ended := by
  simp only [State.ended, State.kerns, h]; rfl

theorem State.modSeq_ended (s : State) (i : Nat) (g : Seq → Seq) (h : ∀ q, (g q).kern = q.kern) : (s.modSeq i g).ended = s.ended :=
  ended_of_seqs (mapIf_kern h _)

/-! ### The end of a request -/

@[simp] theorem State.record_ended (s : State) (a) (b) (c) (d) (e) (f) (g) (h) : (s.record a b c d e f g h).ended = s.ended := by
  unfold State.record
  split
  · rfl
  · split <;> rfl

@[simp] theorem State.enqueue_ended (s : State) (a) (b) (c) (d) : (s.enqueue a b c d).ended = s.ended := State.ended_of_held (by simp)
@[simp] theorem State.trackRecord_ended (s : State) (a) (b) : (s.trackRecord a b).ended = s.ended := rfl
@[simp] theorem State.fenceCount_ended (s : State) (a) (b) : (s.fenceCount a b).ended = s.ended := by
  unfold State.fenceCount; split <;> rfl

@[simp] theorem State.unpin1_ended (s : State) (a) : (s.unpin1 a).ended = s.ended := by
  unfold State.unpin1
  split
  · rfl
  · exact s.modSeq_ended _ _ fun q => by split <;> rfl

@[simp] theorem State.tableUnref_ended (s : State) (a) : (s.tableUnref a).ended = s.ended := State.ended_of_held (State.held_of_stored (by simp))
@[simp] theorem State.sweepPages_ended (s : State) : s.sweepPages.ended = s.ended := State.ended_of_held (State.held_of_stored (by simp))

@[simp] theorem State.dropReq_ended (s : State) (r) : (s.dropReq r).ended = s.ended := by
  unfold State.dropReq; dsimp only
  rw [State.sweepPages_ended, foldl_keeps State.ended _ (fun s t => by simp)]
  exact (((s.unpin1 r.pin).unpin1_ended r.pin2).trans (s.unpin1_ended r.pin) :)

@[simp] theorem State.finish_ended (s : State) (a) (b) (c) (d) : (s.finish a b c d).ended = s.ended := by
  simp [State.finish]

/-! ### Residence -/

@[simp] theorem State.refreshShares_ended (s : State) : s.refreshShares.ended = s.ended :=
  ended_of_seqs (by simp only [State.kerns, List.map_map]; rfl)

@[simp] theorem State.askMove_ended (s : State) (a) (b) (c) (d) (e) : (s.askMove a b c d e).ended = s.ended := by
  unfold State.askMove; split <;> rfl

@[simp] theorem State.settleRehome_ended (s : State) (i) : (s.settleRehome i).ended = s.ended := by
  unfold State.settleRehome
  split
  · rfl
  · exact ite_keeps (m := State.ended) (s.modSeq_ended _ _ fun q => rfl) rfl

@[simp] theorem State.promoteHeld_ended (s : State) (i) : (s.promoteHeld i).ended = s.ended := by
  unfold State.promoteHeld; dsimp only
  split
  · simp
  · rw [foldl_keeps State.ended _ _, State.settleRehome_ended]
    intro s x
    split
    · exact ite_keeps (m := State.ended) (by simp) rfl
    · rfl

/-! ### Opening -/

theorem State.insertFlow_eq {s w : State} {tenant h : Nat} {k : FlowKeyF} (hw : s.insertFlow tenant h k = .ok w) :
    ∃ a, w = { s with array := a } := by
  unfold State.insertFlow at hw
  split at hw
  · cases hw; exact ⟨_, rfl⟩
  · dsimp only at hw
    split at hw
    · cases hw
    · split at hw
      · cases hw; exact ⟨_, rfl⟩
      · cases hw

@[simp] theorem State.mapPages_ended (s : State) (q) (old v) : (s.mapPages q old v).2.ended = s.ended := rfl
@[simp] theorem State.refRec_ended (s : State) (a) : (s.refRec a).ended = s.ended := rfl
theorem State.refRecs_ended (l : List Nat) (s : State) : (l.foldl (fun s id => s.refRec id) s).ended = s.ended :=
  foldl_keeps State.ended _ (fun s p => by simp) l s
@[simp] theorem State.takeRef_ended (s : State) (a) : (s.takeRef a).ended = s.ended := rfl

/-- The sequence that `enterSeq` writes in slot `i`, its map made at once (R23, R27). -/
def State.entered (s : State) (q : Seq) (i : Nat) : Seq :=
  let q := { q with index := i, gen := genOf s.seqGens i, order := s.ids }
  { q with cur := (s.mapPages q q.cur q.cur).1 }

/-- A new sequence enters behind those that stand, in the slot at the head of the free list. -/
theorem State.enterSeq_ended {s w : State} {r : Req} {q : Seq} {k : FlowKeyF} {i : Nat} {fl : FreeList} (hm : s.metaGone = false)
    (ht : s.seqFree.take = some (i, fl)) (hw : s.insertFlow r.tenant (i + genOf s.seqGens i * 2 ^ 24) k = .ok w) :
    (s.enterSeq r q k).ended = ({ s with seqs := s.seqs ++ [s.entered q i], seqFree := fl } : State).ended := by
  obtain ⟨a, rfl⟩ := State.insertFlow_eq hw
  unfold State.enterSeq
  simp only [hm, ht, Seq.handle, hw, Bool.false_eq_true, if_false]
  rw [State.finish_ended, State.promoteHeld_ended, State.refreshShares_ended]
  refine (ite_keeps (m := State.ended) rfl ?_).trans ((State.refRecs_ended _ _).trans rfl)
  split
  · simp
  · rfl

theorem State.beginOpen_ended {s w : State} {r : Req} {f : OpenF} {i : Nat} {fl : FreeList} (hc : s.checkOpen r f = none) (hm : s.metaGone = false)
    (ht : s.seqFree.take = some (i, fl)) (hw : s.insertFlow r.tenant (i + genOf s.seqGens i * 2 ^ 24) f.key = .ok w) :
    ∃ q : Seq, q.window = f.window ∧ q.globals = f.globals ∧ q.layout = f.layout ∧ q.cur = .first ∧
      (s.beginOpen r f).ended = ({ s with seqs := s.seqs ++ [s.entered q i], seqFree := fl } : State).ended := by
  unfold State.beginOpen
  rw [hc]
  exact ⟨_, rfl, rfl, rfl, rfl, State.enterSeq_ended hm ht hw⟩

/-- The map of a new sequence has a root page above its leaves wherever its layout spans more than 512 slots (R27). -/
theorem State.entered_twoLevel (s : State) (q : Seq) (i : Nat) : (s.entered q i).cur.twoLevel = decide (512 < q.slotsNeeded q.cur.blockCount) := rfl

end Sys2Proof.Machine
end

section
/-! CLAIMS. An opened ring of more than 512 slots has a map of two levels at once, which its obligation denies. -/

namespace Sys2Proof.Machine

/-- An OPEN_SEQUENCE of a ring of 513 blocks, which R32 takes. -/
def openWideRing : OpenF := { Tests.openA with layout := 1, window := 513 }

/-- The request of `openWideRing` begins in a device that holds no sequence, and passes its checks. -/
theorem openWideRing_begins :
    ((Tests.base.begins Tests.sub (.openSeq openWideRing)).any fun (u, r) =>
      decide (r.desc = .openSeq openWideRing) && (u.ringOf r).isSome && (u.checkOpen r openWideRing).isNone && !u.metaGone &&
        u.seqFree.take.isSome && u.seqs.isEmpty) = true := by
  decide +kernel

/-- Refutes O16: the first map of a ring of 513 slots has two levels (R27), and the obligation has every new map of one. -/
theorem not_openingAndClosingComplete : ¬ Obligations.OpeningAndClosingComplete := by
  rintro ⟨hopen, -⟩
  have h := openWideRing_begins
  rw [Option.any_eq_true] at h
  obtain ⟨⟨u, r⟩, hb, h⟩ := h
  simp only [Bool.and_eq_true, decide_eq_true_eq, Option.isNone_iff_eq_none, Bool.not_eq_true', List.isEmpty_iff] at h
  obtain ⟨⟨⟨⟨⟨hd, hr⟩, hc⟩, hm⟩, ht⟩, hs⟩ := h
  obtain ⟨⟨i, fl⟩, ht⟩ := Option.isSome_iff_exists.mp ht
  have hw : u.insertFlow r.tenant (i + genOf u.seqGens i * 2 ^ 24) openWideRing.key = .ok u := rfl
  obtain ⟨t, he, ⟨q, hq, hqs⟩, -⟩ := hopen _ u u _ _ _ r i fl hb hd hr hc hm ht hw
  have htwo : q.cur.twoLevel = false := by simp only [hqs]
  have hsub : Tests.base.submit Tests.sub (.openSeq openWideRing) = u.beginOpen r openWideRing := by
    rw [State.submit_begins hb (by simp [hd]) (by simp [hd])]
    unfold State.beginReq; rw [hd]
  have het : t = u.beginOpen r openWideRing := by rw [← hsub]; injection he.symm
  obtain ⟨p, hwin, -, hlay, hcur, hen⟩ := State.beginOpen_ended hc hm ht hw
  have hk : t.kerns = [(u.entered p i).kern] := by
    rw [het, State.kerns_of_ended hen]; simp [State.kerns, hs]
  have hqk : q.kern = (u.entered p i).kern := by
    have : q.kern ∈ t.kerns := List.mem_map_of_mem hq
    rwa [hk, List.mem_singleton] at this
  have hwide : (u.entered p i).cur.twoLevel = true := by
    rw [State.entered_twoLevel, Seq.slotsNeeded, hlay, hwin]; rfl
  have : q.cur.twoLevel = (u.entered p i).cur.twoLevel := (congrArg (fun x : Seq => x.cur.twoLevel) hqk :)
  rw [htwo, hwide] at this
  cases this

end Sys2Proof.Machine
end

section
/-! SUPPORT. Requests: a change of one request seen through its identifier, what a command that begins leaves, and what references to code
tables leave. -/

namespace Sys2Proof.Machine

/-- An element sought by its key is found changed where the change applies to that key and keeps it. -/
theorem find?_mapIf {α κ : Type} [BEq κ] [LawfulBEq κ] {key : α → κ} {k : κ} {g : α → α} (hg : ∀ x, key x = k → key (g x) = k) (l : List α) :
    (mapIf (fun x => key x == k) g l).find? (fun x => key x == k) = (l.find? fun x => key x == k).map g := by
  induction l with
  | nil => rfl
  | cons x l ih =>
    simp only [mapIf, List.map_cons, List.find?_cons] at ih ⊢
    by_cases h : key x = k
    · simp [h, hg x h]
    · simp [beq_eq_false_iff_ne.mpr h, ih]

theorem find?_mapIf_ne {α κ : Type} [BEq κ] [LawfulBEq κ] {key : α → κ} {k j : κ} {g : α → α} (hg : ∀ x, key (g x) = key x) (h : j ≠ k) (l : List α) :
    (mapIf (fun x => key x == k) g l).find? (fun x => key x == j) = l.find? fun x => key x == j := by
  induction l with
  | nil => rfl
  | cons x l ih =>
    simp only [mapIf, List.map_cons, List.find?_cons] at ih ⊢
    by_cases hx : key x = k
    · simp [hx, hg, beq_eq_false_iff_ne.mpr (Ne.symm h), ih]
    · simp [hx, ih]

theorem State.req?_modReq (s : State) (id : Nat) {g : Req → Req} (hg : ∀ x, (g x).id = x.id) : (s.modReq id g).req? id = (s.req? id).map g :=
  find?_mapIf (fun x hx => (hg x).trans hx) s.reqs

theorem State.req?_of_reqs {s t : State} (h : t.reqs = s.reqs) (id : Nat) : t.req? id = s.req? id := by simp only [State.req?, h]

/-- A request set to a phase stands in it. -/
theorem State.stands_modReq {s : State} {r x : Req} {p : ReqPhase} {g : Req → Req} (hr : s.req? r.id = some x) (hg : ∀ x, (g x).id = x.id)
    (hp : (g x).phase = p) : (s.modReq r.id g).stands r p :=
  ⟨g x, by rw [State.req?_modReq _ _ hg, hr]; rfl, hp⟩

/-! ### A command that begins -/

/-- A request command that begins leaves what its own effect leaves. -/
theorem leaves_of_begins {c : Instr} {s u : State} {sub : Sub} {d : Desc} {r : Req} {P : State → Prop} (hc : exec c s = .next (s.submit sub d))
    (h : s.begins sub d = some (u, r)) (hd : ∀ m, r.desc ≠ .detach m) (hn : ∀ g, r.desc ≠ .fence g) (hp : P (u.beginReq r)) : Leaves c s P :=
  ⟨_, hc, by rwa [State.submit_begins h hd hn]⟩

/-- The request of a command whose descriptor reads alike in every layout carries that descriptor. -/
theorem State.begins_desc_same {s u : State} {sub : Sub} {d : Desc} {r : Req} (h : s.begins sub d = some (u, r)) (hd : ∀ v, normDesc v d = d) :
    r.desc = d := by
  obtain ⟨f, -, hr⟩ := State.begins_desc h
  rw [hr, hd]

theorem State.begins_stands {s u : State} {sub : Sub} {d : Desc} {r : Req} (h : s.begins sub d = some (u, r)) : u.req? r.id = some r := by
  obtain ⟨_, -, -, hr, -⟩ := State.begins_req h
  exact hr

theorem State.begins_tables {s u : State} {sub : Sub} {d : Desc} {r : Req} (h : s.begins sub d = some (u, r)) : r.tables = [] := by
  obtain ⟨_, -, hr, -⟩ := State.begins_req h
  rw [hr]; rfl

/-! ### Code tables -/

/-- A table with both copies whole is loaded without a change (R26, R167). -/
theorem State.loadTable_whole {s : State} (h : ∀ t ∈ s.tables, (t.mirrorA && t.mirrorB) = true) (id : Nat) : s.loadTable id = s := by
  unfold State.loadTable
  split
  · rfl
  · rename_i t ht
    rw [if_pos (h t (List.mem_of_find?_eq_some ht))]

theorem State.loadTables_whole {s : State} (h : ∀ t ∈ s.tables, (t.mirrorA && t.mirrorB) = true) (l : List Nat) :
    l.foldl (fun s t => s.loadTable t) s = s := by
  induction l with
  | nil => rfl
  | cons t l ih => rw [List.foldl_cons, State.loadTable_whole h, ih]

/-- The tables that a supply takes (R168): the current one of each layer's stream. -/
def State.layerTables (s : State) (q : Seq) (m : ModelRec) : List (Nat × Nat) :=
  (List.range m.layers).map fun l => (l, s.streamTable q.domain q.model q.fmt l)

theorem State.tableRefs_reqs (l : List Nat) (s : State) : (l.foldl (fun s t => s.tableRef t) s).reqs = s.reqs :=
  State.reqs_of_held (State.held_of_stored (foldl_keeps State.stored _ (fun s t => by simp) l s))

theorem State.takeTables_req {s : State} {r x : Req} {q : Seq} {m : ModelRec} (h : ∀ t ∈ s.tables, (t.mirrorA && t.mirrorB) = true)
    (hr : s.req? r.id = some x) : (s.takeTables r q m).req? r.id = some { x with tables := s.layerTables q m } := by
  unfold State.takeTables
  dsimp only
  rw [State.loadTables_whole h, State.req?_modReq _ _ (by simp), State.req?_of_reqs (State.tableRefs_reqs _ _), hr]
  rfl

/-- A supply whose request has no tables yet begins its reads with them (R33, R168). -/
theorem State.beginSupply_req {s : State} {r : Req} {f : BlocksF} {q : Seq} {m : ModelRec} (h : ∀ t ∈ s.tables, (t.mirrorA && t.mirrorB) = true)
    (hr : s.req? r.id = some r) (ht : r.tables = []) (hq : s.openSeqOf r f.seq = .ok q) (hm : s.model? q.model = some m) :
    (s.beginSupply r f).req? r.id = some { r with phase := .started, tables := s.layerTables q m } := by
  have hs : s.supplyTables r f = s.takeTables r q m := by simp only [State.supplyTables, hq, hm, Option.elim_some]
  unfold State.beginSupply
  simp only [hq, hm, ht, List.isEmpty_nil, if_true, hs]
  rw [State.req?_modReq _ _ (by simp), State.takeTables_req h hr]
  rfl

end Sys2Proof.Machine
end

section
/-! CLAIMS. The obligation on the beginning of changes. -/

namespace Sys2Proof.Machine

/-- Settles O17: a truncate only changes its phase, and a supply takes its tables before its reads. -/
theorem sequenceChangesBegin : Obligations.SequenceChangesBegin := by
  unfold Obligations.SequenceChangesBegin
  refine ⟨fun s u sub f r hb => ?_, fun s u sub f r q m hq hm => ?_⟩
  · have hd : r.desc = .truncate f := State.begins_desc_same hb fun _ => rfl
    refine leaves_of_begins rfl hb (by simp [hd]) (by simp [hd]) ?_
    simp only [State.beginReq, hd, State.beginTruncate]
    exact State.stands_modReq (State.begins_stands hb) (fun _ => rfl) rfl
  · intro begun htabs
    have started : s.begins sub r.desc = some (u, r) → begun (u.beginSupply r f) := fun hb =>
      ⟨_, State.beginSupply_req htabs (State.begins_stands hb) (State.begins_tables hb) hq hm, rfl, rfl⟩
    refine ⟨fun hb => ?_, fun hb => ?_⟩
    · have hd : r.desc = .replace f := State.begins_desc_same hb fun _ => rfl
      refine leaves_of_begins rfl hb (by simp [hd]) (by simp [hd]) ?_
      simpa only [State.beginReq, hd] using started (by rwa [hd])
    · have hd : r.desc = .append f := State.begins_desc_same hb fun _ => rfl
      refine leaves_of_begins rfl hb (by simp [hd]) (by simp [hd]) ?_
      simpa only [State.beginReq, hd] using started (by rwa [hd])

end Sys2Proof.Machine
end

section
/-! SUPPORT. The commit of a version (R37): what loading whole metadata leaves, what moves between tiers touch, and the version that stands
afterwards. -/

namespace Sys2Proof.Machine

/-! ### Metadata with both copies whole (R26, R47) -/

theorem State.mirrored_iff (s : State) : s.mirrored = true ↔ (∀ q ∈ s.seqs, (q.mirrorA && q.mirrorB) = true) ∧
    (∀ r ∈ s.recs, (r.mirrorA && r.mirrorB) = true) ∧ (∀ e ∈ s.dir, (e.mirrorA && e.mirrorB) = true) ∧
    ∀ t ∈ s.tables, (t.mirrorA && t.mirrorB) = true := by
  simp only [State.mirrored, Bool.and_eq_true, List.all_eq_true, and_assoc]

theorem foldl_whole {α : Type} {f : State → α → State} {s : State} (hf : ∀ a, f s a = s) (l : List α) : l.foldl f s = s := by
  induction l with
  | nil => rfl
  | cons a l ih => rw [List.foldl_cons, hf, ih]

section
variable {s : State} (h : s.mirrored = true)
include h

theorem State.loadSeq_whole (i : Nat) : s.loadSeq i = s := by
  obtain ⟨hq, -⟩ := s.mirrored_iff.mp h
  unfold State.loadSeq
  split
  · rfl
  · rename_i q hs
    rw [if_pos (hq q (List.mem_of_find?_eq_some hs))]

theorem State.loadRec_whole (q : Seq) (id : Nat) : s.loadRec q id = s := by
  obtain ⟨-, hr, -⟩ := s.mirrored_iff.mp h
  unfold State.loadRec
  split
  · rfl
  · rename_i r hs
    rw [if_pos (hr r (List.mem_of_find?_eq_some hs))]

theorem State.loadEntry_whole (slot : Nat) : s.loadEntry slot = s := by
  obtain ⟨-, -, he, -⟩ := s.mirrored_iff.mp h
  unfold State.loadEntry
  split
  · rfl
  · rename_i e hs
    rw [if_pos]
    simp [he e (List.mem_of_find?_eq_some hs)]

theorem State.faultBad_whole : s.faultBad = s := by
  obtain ⟨-, -, he, -⟩ := s.mirrored_iff.mp h
  have hnone : (s.dir.filter fun e => !e.mirrorA && !e.mirrorB && e.st != .faulted) = [] := by
    rw [List.filter_eq_nil_iff]
    intro e hm
    have := he e hm
    simp only [Bool.and_eq_true] at this
    simp [this]
  unfold State.faultBad
  rw [hnone]; rfl

theorem State.loadBlock_whole (q : Seq) (v : Version) (b : Nat) : s.loadBlock q v b = s := by
  unfold State.loadBlock
  extract_lets t
  have ht : t = s := by
    unfold t
    split
    · split
      · exact State.loadEntry_whole h _
      · rfl
    · rfl
  rw [ht]
  split
  · exact State.loadRec_whole h _ _
  · rfl

theorem State.loadBlocks_whole (q : Seq) (v : Version) (lo n : Nat) : s.loadBlocks q v lo n = s :=
  foldl_whole (fun i => State.loadBlock_whole h q v (lo + i)) _

theorem State.loadChain_whole (a : Nat) : s.loadChain a = s := by
  unfold State.loadChain
  rw [State.faultBad_whole h]
  exact foldl_whole (fun e => State.loadEntry_whole h e.slot) _

theorem State.loadPublish_whole (r : Req) (f : PublishF) : s.loadPublish r f = s := by
  unfold State.loadPublish
  split
  · rfl
  · dsimp only
    rw [State.loadChain_whole h, State.loadBlocks_whole h]

theorem State.loadChange_whole (r : Req) (a : Nat) : s.loadChange r a = s := by
  unfold State.loadChange
  dsimp only
  rw [State.loadSeq_whole h]
  split
  · rfl
  · split
    · exact State.loadBlocks_whole h _ _ _ _
    · exact State.loadBlocks_whole h _ _ _ _
    · exact State.loadBlocks_whole h _ _ _ _
    · rfl

theorem State.loadNamed_whole (r : Req) : s.loadNamed r = s := by
  unfold State.loadNamed
  dsimp only
  rw [foldl_whole (f := fun s a => s.loadSeq (a % 2 ^ 24)) fun a => State.loadSeq_whole h _]
  split
  · split
    · rfl
    · exact State.loadChain_whole h _
  · exact State.loadPublish_whole h _ _
  · rfl

end

/-! ### Moves between tiers -/

/-- What demotions and dropped copies never touch. -/
def State.moved (s : State) : State := { s.held with demoting := [] }

theorem State.moved_of_held {s t : State} (h : t.held = s.held) : t.moved = s.moved := congrArg (fun x : State => ({ x with demoting := [] } : State)) h

@[simp] theorem State.askMove_moved (s : State) (a) (b) (c) (d) (e) : (s.askMove a b c d e).moved = s.moved := by
  unfold State.askMove; split <;> rfl

@[simp] theorem State.dropProxyCopy_moved (s : State) (a) (b) : (s.dropProxyCopy a b).moved = s.moved := by
  unfold State.dropProxyCopy
  split
  · rfl
  · rename_i l _
    exact ite_keeps (m := State.moved) rfl (State.moved_of_held (State.held_of_stored (s.freePage_stored l.tier l.addr)) :)

theorem State.dropCold_moved : ∀ (l : List (Nat × Nat)) (n : Nat) (s : State), (s.dropCold n l).2.moved = s.moved
  | [], _, _ => rfl
  | (id, i) :: rest, n, s => by
    unfold State.dropCold
    split
    · rfl
    · rw [State.dropCold_moved rest, State.dropProxyCopy_moved]

theorem State.askDemotions_moved (rank : Nat) (req : Option Nat) :
    ∀ (l : List (Nat × Nat × Nat)) (n : Nat) (s : State), (s.askDemotions rank req n l).moved = s.moved
  | [], _, _ => rfl
  | (_, id, i) :: rest, n, s => by
    unfold State.askDemotions
    split
    · rfl
    · split
      · exact State.askDemotions_moved rank req rest _ _
      · split
        · exact State.askDemotions_moved rank req rest _ _
        · rw [State.askDemotions_moved rank req rest, State.askMove_moved]

@[simp] theorem State.demoteSpan_moved (s : State) (k) (a) (b) (p) : (s.demoteSpan k a b p).moved = s.moved := by
  unfold State.demoteSpan
  dsimp only
  split
  · rfl
  · rw [State.askDemotions_moved]
    split
    · rw [State.dropCold_moved]; rfl
    · rfl

@[simp] theorem State.demoteAll_moved (s : State) : s.demoteAll.moved = s.moved := by
  have span : ∀ (s : State) (k : Nat), ((List.range 2).foldl (fun s g =>
      let (lo, hi) := s.regionSpan k g
      if s.regionOpen k g && decide (lo < hi) then
        s.demoteSpan (1, k, g) s.params.t1LowWater (s.freeRegion k g) fun a => decide (lo ≤ a ∧ a < hi)
      else s) s).moved = s.moved := fun s k =>
    foldl_keeps State.moved _ (fun s g => ite_keeps (m := State.moved) (by simp) rfl) _ _
  have spans := (foldl_keeps State.moved _ span (List.range 12) (s.demoteSpan (0, 0, 0) s.params.t0LowWater s.freeT0 fun _ => true)).trans
    (s.demoteSpan_moved _ _ _ _)
  unfold State.demoteAll
  dsimp only
  exact ite_keeps (m := State.moved) (a := _) spans ((State.demoteSpan_moved _ _ _ _ _).trans spans)

@[simp] theorem State.freeIdle_held (s : State) (a) : (s.freeIdle a).held = s.held := by
  unfold State.freeIdle
  split
  · exact ite_keeps (m := State.held) (by simp) rfl
  · rfl

@[simp] theorem State.freeIdleProxies_held (s : State) : s.freeIdleProxies.held = s.held := by
  unfold State.freeIdleProxies
  exact foldl_keeps State.held _ (fun s e => by simp) _ _

/-! ### The version that a commit makes -/

/-- What a commit never touches beside the sequences. -/
def State.placed (s : State) : State := { s.moved with seqs := [] }

theorem State.placed_of_moved {s t : State} (h : t.moved = s.moved) : t.placed = s.placed := congrArg (fun x : State => ({ x with seqs := [] } : State)) h
theorem State.placed_of_held {s t : State} (h : t.held = s.held) : t.placed = s.placed := State.placed_of_moved (State.moved_of_held h)
theorem State.seqs_of_moved {s t : State} (h : t.moved = s.moved) : t.seqs = s.seqs := (congrArg State.seqs h :)
theorem State.fns_of_placed {s t : State} (h : t.placed = s.placed) : t.fns = s.fns := (congrArg State.fns h :)

/-- The sequence in slot `i` but for what `Seq.kern` leaves out. -/
def State.kernAt (s : State) (i : Nat) : Option Seq := (s.seq? i).map Seq.kern

theorem find?_map_kern (i : Nat) (l : List Seq) : (l.find? fun q => q.index == i).map Seq.kern = (l.map Seq.kern).find? fun q => q.index == i := by
  rw [List.find?_map]; rfl

theorem State.kernAt_of_kerns {s t : State} (h : t.kerns = s.kerns) : t.kernAt = s.kernAt := by
  funext i
  simp only [State.kernAt, State.seq?, find?_map_kern]
  exact congrArg _ h

theorem State.kernAt_of_ended {s t : State} (h : t.ended = s.ended) : t.kernAt = s.kernAt := State.kernAt_of_kerns (State.kerns_of_ended h)

theorem State.kernAt_of_seqs {s t : State} (h : t.seqs = s.seqs) : t.kernAt = s.kernAt :=
  State.kernAt_of_kerns (by simp only [State.kerns, h])

theorem State.seq?_modSeq (s : State) (i : Nat) {g : Seq → Seq} (hg : ∀ q, q.index = i → (g q).index = i) : (s.modSeq i g).seq? i = (s.seq? i).map g :=
  find?_mapIf hg s.seqs

theorem State.seq?_index {s : State} {i : Nat} {q : Seq} (h : s.seq? i = some q) : q.index = i := by
  simpa using List.find?_some h

theorem State.modSeq_placed (s : State) (i) (g) : (s.modSeq i g).placed = s.placed := rfl

theorem State.unrefRecs_held (l : List Nat) (s : State) : (l.foldl (fun s r => s.unrefRec r) s).held = s.held :=
  foldl_keeps State.held _ (fun s r => by simp) l s

/-- A version that no pin holds leaves its sequence, and the version that stands there stays (R41). -/
theorem State.reclaimVersion_kernAt (s : State) (i num : Nat) : (s.reclaimVersion i num).kernAt i = s.kernAt i := by
  unfold State.reclaimVersion
  split
  · rfl
  · rename_i q hq
    split
    · rfl
    · dsimp only
      rw [State.kernAt_of_seqs (State.seqs_of_held (State.unrefRecs_held _ _))]
      have hi : q.index = i := State.seq?_index hq
      simp only [State.kernAt]
      rw [State.seq?_modSeq, hq]
      · rfl
      · exact fun _ _ => hi

theorem State.reclaimVersion_placed (s : State) (i num : Nat) : (s.reclaimVersion i num).placed = s.placed := by
  unfold State.reclaimVersion
  split
  · rfl
  · split
    · rfl
    · exact (State.placed_of_held (State.unrefRecs_held _ _)).trans (State.modSeq_placed _ _ _)

@[simp] theorem State.refreshShares_placed (s : State) : s.refreshShares.placed = s.placed := rfl

@[simp] theorem State.settleRehome_placed (s : State) (i) : (s.settleRehome i).placed = s.placed := by
  unfold State.settleRehome
  split
  · rfl
  · exact ite_keeps (m := State.placed) rfl rfl

@[simp] theorem State.promoteHeld_placed (s : State) (i) : (s.promoteHeld i).placed = s.placed := by
  unfold State.promoteHeld
  dsimp only
  split
  · simp
  · rw [foldl_keeps State.placed _ _, State.settleRehome_placed]
    intro s x
    split
    · exact ite_keeps (m := State.placed) (State.placed_of_moved (by simp)) rfl
    · rfl

/-- A sequence whose next version is `v`, written to the metadata copies `m` (R37). -/
def Seq.next (q : Seq) (v : Version) (m : Bool × Bool) : Seq := { q with cur := v, old := q.cur :: q.old, mirrorA := m.1, mirrorB := m.2 }

/-- A commit touches no request and no function, and the next version stands in its sequence (R37). -/
theorem State.commitVersion_leaves {s : State} {i : Nat} {q : Seq} (h : s.seq? i = some q) (v : Version) :
    (s.commitVersion i v).placed = s.placed ∧ ∃ p, (s.commitVersion i v).seq? i = some p ∧ p.cur.num = (q.cur.num + 1) % 2 ^ 32 ∧
      p.cur.blockCount = v.blockCount ∧ p.cur.tokenCount = v.tokenCount ∧ p.cur.prefixHandle = v.prefixHandle := by
  let m := s.mapPages q q.cur { v with num := (q.cur.num + 1) % 2 ^ 32, pins := 0 }
  let a : State := m.2.modSeq i fun q => q.next m.1 m.2.newMirrors
  let b : State := a.reclaimVersion i q.cur.num
  let c : State := b.modSeq i fun q => { q with hasPins := (m.1.recIds.filterMap b.rec?).any (·.pinned), segmented := (m.1.recIds.filterMap b.rec?).any fun r => r.segment != 0 }
  let d : State := c.refreshShares.promoteHeld i
  have ht : s.commitVersion i v = d.demoteAll.freeIdleProxies := by
    unfold State.commitVersion; rw [h]; rfl
  have hplaced : (s.commitVersion i v).placed = s.placed := by
    rw [ht, State.placed_of_held (State.freeIdleProxies_held _), State.placed_of_moved (State.demoteAll_moved _)]
    exact ((State.promoteHeld_placed _ _).trans (State.refreshShares_placed _)).trans ((State.modSeq_placed _ _ _).trans
      ((State.reclaimVersion_placed _ _ _).trans (State.modSeq_placed _ _ _)))
  have hseq : (s.commitVersion i v).kernAt i = a.kernAt i := by
    rw [ht, State.kernAt_of_seqs (State.seqs_of_held (State.freeIdleProxies_held _)), State.kernAt_of_seqs (State.seqs_of_moved (State.demoteAll_moved _)),
      State.kernAt_of_ended (State.promoteHeld_ended _ _), State.kernAt_of_ended (State.refreshShares_ended _)]
    have hc : c.kernAt = b.kernAt := State.kernAt_of_ended (State.modSeq_ended _ _ _ fun _ => rfl)
    rw [hc]
    exact State.reclaimVersion_kernAt _ _ _
  have ha : a.seq? i = (m.2.seq? i).map fun q => q.next m.1 m.2.newMirrors := State.seq?_modSeq _ _ fun _ hq => hq
  have hm : m.2.seq? i = some q := h
  refine ⟨hplaced, ?_⟩
  rw [State.kernAt, State.kernAt, ha, hm, Option.map_some, Option.map_some, Option.map_eq_some_iff] at hseq
  obtain ⟨p, hp, hk⟩ := hseq
  have hcur := congrArg Seq.cur hk
  exact ⟨p, hp, (congrArg Version.num hcur :), (congrArg Version.blockCount hcur :), (congrArg Version.tokenCount hcur :), (congrArg Version.prefixHandle hcur :)⟩

/-! ### The commit of a change (R33, R35, R37) -/

theorem State.newRecs_held (r : Req) (q : Seq) (m : ModelRec) (base born : Nat) : ∀ (es : List BlockEntry) (i first : Nat) (hs : List (BitVec 128))
    (s : State), (s.newRecs r q m base born i first es hs).2.held = s.held
  | [], _, _, _, _ => rfl
  | e :: es, i, first, hs, s => by
    unfold State.newRecs
    dsimp only
    rw [State.newRecs_held r q m base born es]
    rfl

@[simp] theorem State.dropUnheld_held (s : State) (v) (l) : (s.dropUnheld v l).held = s.held := by
  unfold State.dropUnheld
  exact foldl_keeps State.held _ (fun s r => by simp) _ _

/-- The new version of an append, a replace or a truncate has the counts of R33 and R35 and what the version before it references in the directory. -/
theorem State.applyChange_leaves {s : State} {r : Req} {q : Seq} {m : ModelRec} (hq : s.seq? q.index = some q)
    (hd : ∃ f, r.desc = .append f ∨ r.desc = .replace f ∨ r.desc = .truncate f) :
    (s.applyChange r q m).placed = s.placed ∧ ∃ p, (s.applyChange r q m).seq? q.index = some p ∧ p.cur.num = (q.cur.num + 1) % 2 ^ 32 ∧
      p.cur.blockCount = (s.countsAfter r q m).1 ∧ p.cur.tokenCount = (s.countsAfter r q m).2 ∧ p.cur.prefixHandle = q.cur.prefixHandle := by
  -- the records that a supply writes first leave the sequence where it is
  have written : ∀ {t : State} (v : Version), t.held = s.held → (t.commitVersion q.index v).placed = s.placed ∧
      ∃ p, (t.commitVersion q.index v).seq? q.index = some p ∧ p.cur.num = (q.cur.num + 1) % 2 ^ 32 ∧ p.cur.blockCount = v.blockCount ∧
        p.cur.tokenCount = v.tokenCount ∧ p.cur.prefixHandle = v.prefixHandle := by
    intro t v ht
    have hqt : t.seq? q.index = some q := by rw [State.seq?, State.seqs_of_held ht]; exact hq
    obtain ⟨hp, hv⟩ := State.commitVersion_leaves hqt v
    exact ⟨hp.trans (State.placed_of_held ht), hv⟩
  obtain ⟨f, hd | hd | hd⟩ := hd
  all_goals simp only [State.applyChange, hd, State.countsAfter]
  case inl =>
    obtain ⟨hp, p, hs, hv⟩ := written _ (State.newRecs_held r q m _ _ r.entries _ _ _ s)
    refine ⟨(State.placed_of_held (State.dropUnheld_held _ _ _)).trans hp, p, ?_, hv⟩
    rw [State.seq?, State.seqs_of_held (State.dropUnheld_held _ _ _)]
    exact hs
  case inr.inl => exact written _ (State.newRecs_held r q m _ _ r.entries _ _ _ s)
  case inr.inr => exact written _ rfl

theorem State.finish_kernAt (s : State) (r : Req) (a b : Nat) (fl : RecFlags) : (s.finish r a b fl).kernAt = s.kernAt :=
  State.kernAt_of_ended (State.finish_ended _ _ _ _ _)

theorem State.ringOf_of_placed {s t : State} (h : t.placed = s.placed) (r : Req) : t.ringOf r = s.ringOf r := by
  simp only [State.ringOf, State.fn?, State.fns_of_placed h]

theorem State.completes_of_ringOf {s t u : State} {r : Req} {a b : Nat} (h : t.ringOf r = s.ringOf r) (hc : t.completes u r a b) : s.completes u r a b := by
  unfold State.completes at hc ⊢
  rwa [h] at hc

/-- A change whose checks pass at its commit makes the next version and completes with it. -/
theorem State.commitChange_leaves {s : State} {r : Req} {h : Nat} {q : Seq} {m : ModelRec} (hw : s.mirrored = true) (hr : (s.ringOf r).isSome = true)
    (hd : ∃ f, r.desc = .append f ∨ r.desc = .replace f ∨ r.desc = .truncate f) (hn : namesOf r.desc = [h]) (ho : s.openSeqOf r h = .ok q)
    (hq : s.seq? q.index = some q) (hm : s.model? q.model = some m) (hb : s.commitBad r q m = none) :
    (∃ p, (s.commitChange r).seq? q.index = some p ∧ p.cur.num = (q.cur.num + 1) % 2 ^ 32 ∧ p.cur.blockCount = (s.countsAfter r q m).1 ∧
      p.cur.tokenCount = (s.countsAfter r q m).2 ∧ p.cur.prefixHandle = q.cur.prefixHandle) ∧
    s.completes (s.commitChange r) r stOk (resVersion ((q.cur.num + 1) % 2 ^ 32)) := by
  obtain ⟨hp, p, hs, hnum, hblocks, htokens, hprefix⟩ := State.applyChange_leaves (m := m) hq hd
  have he : s.commitChange r = (s.applyChange r q m).finish r stOk (resVersion ((q.cur.num + 1) % 2 ^ 32)) := by
    unfold State.commitChange
    simp only [hn, State.loadChange_whole hw, ho, hm, hb, State.mapVersion, hs, hnum]
  have hring : (s.applyChange r q m).ringOf r = s.ringOf r := State.ringOf_of_placed hp r
  rw [he]
  refine ⟨?_, State.completes_of_ringOf hring (State.finish_completes _ _ _ (by rw [hring]; exact hr))⟩
  have hk := congrFun ((s.applyChange r q m).finish_kernAt r stOk (resVersion ((q.cur.num + 1) % 2 ^ 32)) {}) q.index
  simp only [State.kernAt, hs, Option.map_some, Option.map_eq_some_iff] at hk
  obtain ⟨x, hx, hk⟩ := hk
  have hcur := congrArg Seq.cur hk
  exact ⟨x, hx, (congrArg Version.num hcur :).trans hnum, (congrArg Version.blockCount hcur :).trans hblocks,
    (congrArg Version.tokenCount hcur :).trans htokens, (congrArg Version.prefixHandle hcur :).trans hprefix⟩

/-! ### Requests that wait -/

theorem Req.not_stops {r : Req} (h : r.ended = none) : r.stops = false := by simp [Req.stops, h]

theorem State.withReq_service {s : State} {id : Nat} {r : Req} (hs : s.inService = true) (h : s.req? id = some r) (g : State → Req → State) :
    s.withReq id g = g s r := by
  simp [State.withReq, State.live, hs, h]

/-- A request that nothing holds back any more and whose checks still pass begins, if its class is 1 to 7 or its price still fits what it has
reserved; otherwise it is rescinded (R40, R413). -/
theorem State.afterWait_decides {s : State} {r : Req} (hp : r.phase = .waiting) (he : r.ended = none) (hb : s.blocked r = false)
    (hw : s.mirrored = true) (hc : s.checkReq r = none) (hd : ∀ f, r.desc = .lookupToken f → r.data = []) :
    s.afterWait r = if r.cls ≠ 0 then s.beginReq r
      else if (s.priceAtPin r).any fun rs => fitsHeld (s.calendar.filter fun c => c.req == r.id) rs then s.beginReq r
      else s.endReq r stRescinded noBlock noLayer := by
  unfold State.afterWait
  extract_lets again t
  have ha : again = false := by
    unfold again
    split
    · rename_i f hf
      simp [hd f hf]
    · rfl
  rw [if_neg (by simp [hp, Req.not_stops he, hb, ha])]
  have ht : t = s := State.loadNamed_whole hw r
  rw [ht, hc]

end Sys2Proof.Machine
end

section
/-! CLAIMS. The obligation on commits and waits. -/

namespace Sys2Proof.Machine

/-- Settles O18: the commit of one change is `commitChange_leaves`, the end of a wait `afterWait_decides`. -/
theorem waitsEnd : Obligations.WaitsEnd := by
  unfold Obligations.WaitsEnd
  refine ⟨fun s r h q m hs hr hp he hb ha hring hw hd hn ho hq hm hbad => ?_, fun s r hs hr hp he hb hw hc hcls hd => ?_,
    fun s r hs hr hp he hb hw hc hcls hd => ?_⟩
  · have hcommit : s.sequenceCommit r = s.commitChange r := by
      simp [State.sequenceCommit, State.commitAll, hp, Req.not_stops he, hb, ha, hr]
    refine ⟨s.commitChange r, ?_, State.commitChange_leaves hw hring hd hn ho hq hm hbad⟩
    rw [← hcommit, ← State.withReq_service hs hr State.sequenceCommit]
    rfl
  · have ht : exec (.pinAfterWait r.id) s = .next (s.withReq r.id State.afterWait) := rfl
    rw [ht, State.withReq_service hs hr, State.afterWait_decides hp he hb hw hc hd, if_pos hcls]
  · have ht : exec (.pinAfterWait r.id) s = .next (s.withReq r.id State.afterWait) := rfl
    rw [ht, State.withReq_service hs hr, State.afterWait_decides hp he hb hw hc hd, if_neg (by simp [hcls])]

end Sys2Proof.Machine
end

section
/-! SUPPORT. What a request asks of far tiers and of other devices touches: frames, transactions, staging and the reports of the associative
array, and no request but its own list of chunks. -/

namespace Sys2Proof.Machine

/-! ### Transfers of pages -/

theorem State.suspect_carried (s : State) (l) : (s.suspect l).carried = s.carried := rfl

@[simp] theorem State.hitFails_carried (s : State) (a) (b) (c) (d) : (s.hitFails a b c d).carried = s.carried := by
  unfold State.hitFails; rw [State.suspect_carried, State.note_carried]

@[simp] theorem State.hitsFail_carried (s : State) (a) (l) : (s.hitsFail a l).carried = s.carried := by
  unfold State.hitsFail
  exact foldl_keeps State.carried _ (fun s p => by simp) _ _

@[simp] theorem State.extentFalse_carried (s : State) (a) : (s.extentFalse a).carried = s.carried := s.hitsFail_carried _ _

@[simp] theorem State.emitOn_carried (s : State) (p) (o) : (s.emitOn p o).carried = s.carried := by
  unfold State.emitOn; exact ite_keeps (m := State.carried) rfl rfl

@[simp] theorem State.nvmeIssue_carried (s : State) (a) (b) (c) (d) : (s.nvmeIssue a b c d).carried = s.carried := s.emitOn_carried _ _

theorem State.sendPage_carried (link msg xid object aux : Nat) (coded : Bool) (h : Hdr) : ∀ (n off : Nat) (s : State) (data : Bytes),
    (State.sendPage link msg xid object aux coded h n off s data).carried = s.carried
  | 0, _, _, _ => rfl
  | n + 1, off, s, data => by
    unfold State.sendPage
    dsimp only
    refine ite_keeps (m := State.carried) (by simp) ?_
    rw [State.sendPage_carried link msg xid object aux coded h n, State.sendFrame_carried]

@[simp] theorem State.sendPut_carried (s : State) (a) (b) (c) (h) (d) : (s.sendPut a b c h d).carried = s.carried := by
  unfold State.sendPut
  split
  · exact State.sendPage_carried _ _ _ _ _ _ _ _ _ _ _
  · simp

@[simp] theorem State.request_carried (s : State) (a) (b) (c) (d) (e) (f) (g) : (s.request a b c d e f g).carried = s.carried := by
  unfold State.request; rw [State.openTxn_carried, State.send_carried]

@[simp] theorem State.pageTransfer_carried (s : State) (k) (o) (a) (b) (c) (d) (e) : (s.pageTransfer k o a b c d e).carried = s.carried := by
  unfold State.pageTransfer
  extract_lets h queued t
  have hq : ∀ t n, (queued t n).carried = t.carried := fun t n => t.enqueue_carried _ _ _ _
  split
  · have ht : t.carried = s.carried := s.extentFalse_carried _
    split
    · exact ht
    · refine ite_keeps (m := State.carried) ?_ ?_
      · rw [State.openTxn_carried, State.sendPut_carried, ht]
      · rw [State.openTxn_carried, hq, State.emitOn_carried, ht]
  · split
    · rfl
    · refine ite_keeps (m := State.carried) ?_ ?_
      · rw [State.openTxn_carried, hq, State.nvmeIssue_carried]
      · split
        · rw [State.openTxn_carried, State.sendPut_carried]
        · rfl
  · rfl

@[simp] theorem State.request_held (s : State) (a) (b) (c) (d) (e) (f) (g) : (s.request a b c d e f g).held = s.held :=
  State.held_of_carried (by simp)
@[simp] theorem State.pageTransfer_held (s : State) (k) (o) (a) (b) (c) (d) (e) : (s.pageTransfer k o a b c d e).held = s.held :=
  State.held_of_carried (by simp)

/-! ### Far pages of a walk -/

@[simp] theorem State.sendFar_held (s : State) (a) (b) (c) (d) (p) : (s.sendFar a b c d p).held = s.held := by
  unfold State.sendFar
  split
  · simp
  · split
    · rw [State.openTxn_held, State.send_held]
    · rfl
  · rfl

@[simp] theorem State.askFar_held (s : State) (r) (q) (v) (m) (a) (b) (c) : (s.askFar r q v m a b c).held = s.held := by
  unfold State.askFar
  refine ite_keeps (m := State.held) rfl (ite_keeps (m := State.held) (ite_keeps (m := State.held) rfl rfl) (ite_keeps (m := State.held) rfl ?_))
  rw [State.sendFar_held]
  rfl

theorem State.askRun_held (r : Req) (q : Seq) (v : Version) (m : ModelRec) (layer : Nat) (ahead : Bool) : ∀ (l : List Nat) (s : State),
    (s.askRun r q v m layer ahead l).held = s.held
  | [], _ => rfl
  | b :: l, s => by
    unfold State.askRun
    dsimp only
    exact ite_keeps (m := State.held) ((State.askRun_held r q v m layer ahead l _).trans (s.askFar_held _ _ _ _ _ _ _)) (s.askFar_held _ _ _ _ _ _ _)

theorem State.askSlots_held (r : Req) (q : Seq) (v : Version) (m : ModelRec) : ∀ (l : List (Nat × Nat)) (s : State),
    (s.askSlots r q v m l).held = s.held
  | [], _ => rfl
  | (b, layer) :: l, s => by
    unfold State.askSlots
    dsimp only
    exact ite_keeps (m := State.held) ((State.askSlots_held r q v m l _).trans (s.askFar_held _ _ _ _ _ _ _)) (s.askFar_held _ _ _ _ _ _ _)

@[simp] theorem State.askOp_held (s : State) (r) (o) : (s.askOp r o).held = s.held := by
  unfold State.askOp
  split
  · rfl
  · split
    · rfl
    · exact State.askSlots_held _ _ _ _ _ _

@[simp] theorem State.prefetchPart_held (s : State) (r) (q) (v) (m) (f) (a) (b) (c) (d) : (s.prefetchPart r q v m f a b c d).held = s.held :=
  State.askRun_held _ _ _ _ _ _ _ _

theorem State.req?_of_held {s t : State} (h : t.held = s.held) (id : Nat) : t.req? id = s.req? id := State.req?_of_reqs (State.reqs_of_held h) id

/-! ### Requests that stand -/

theorem State.req?_pinCurrent (s : State) (id : Nat) (q : Seq) :
    (s.pinCurrent id q).req? id = (s.req? id).map fun r => { r with pin := some { index := q.index, version := q.cur.num } } :=
  State.req?_modReq _ _ fun _ => rfl

/-- A FETCH_PAGES pins the version it reads and stands started (R38, R113). -/
theorem State.beginFetch_req {s : State} {r : Req} {f : FetchF} {q : Seq} {m : ModelRec} (hr : s.req? r.id = some r)
    (hq : s.openSeqOf r f.seq = .ok q) (hm : s.model? q.model = some m) :
    (s.beginFetch r f).req? r.id = some { r with phase := .started, pin := some { index := q.index, version := q.cur.num } } := by
  unfold State.beginFetch
  simp only [hq, hm]
  rw [State.req?_of_held (State.askSlots_held _ _ _ _ _ _), State.req?_modReq _ _ (by intro; rfl), State.req?_pinCurrent, hr]
  rfl

/-- An ATTEND pins the version it reads and stands started, cut into its parts (R38, R134). -/
theorem State.beginAttend_req {s : State} {r : Req} {f : AttendF} {q : Seq} {m : ModelRec} (hr : s.req? r.id = some r)
    (hq : s.openSeqOf r f.seq = .ok q) (hm : s.model? q.model = some m) :
    ∃ x, (s.beginAttend r f).req? r.id = some x ∧ x.phase = .started ∧ x.pin = some { index := q.index, version := q.cur.num } ∧
      x.parts.map (fun p => (p.lo, p.hi)) = (s.partsOf q.cur f).map fun p => (p.lo, p.hi) := by
  unfold State.beginAttend
  simp only [hq, hm]
  rw [State.req?_of_held ((foldl_keeps State.held _ (fun s i => ite_keeps (m := State.held) (s.prefetchPart_held _ _ _ _ _ _ _ _ _) rfl) _ _).trans
    (foldl_keeps State.held _ (fun s p => s.prefetchPart_held _ _ _ _ _ _ _ _ _) _ _)), State.req?_modReq _ _ (by intro; rfl), State.req?_pinCurrent, hr]
  refine ⟨_, rfl, rfl, rfl, ?_⟩
  rw [List.map_map]
  refine List.map_congr_left fun p _ => ?_
  simp only [Function.comp]
  split <;> rfl

/-! ### Weights (R115) -/

/-- Marking a request to end leaves its phase. -/
theorem Req.mark_phase (r : Req) (now status block layer : Nat) : (r.mark now status block layer).phase = r.phase := by
  unfold Req.mark
  dsimp only
  split
  · rfl
  · split
    · split <;> rfl
    · rfl

theorem Req.mark_id (r : Req) (now status block layer : Nat) : (r.mark now status block layer).id = r.id := by
  unfold Req.mark
  dsimp only
  split
  · rfl
  · split
    · split <;> rfl
    · rfl

theorem State.req?_id {s : State} {id : Nat} {r : Req} (h : s.req? id = some r) : r.id = id := by
  simpa using List.find?_some h

/-- A request that runs stands after the reads of its chunks, also where a fault ends it: its record comes at the tick's end (R143). -/
theorem State.readChunks_started (id tenant : Nat) : ∀ (l : List (Weights × Nat)) (s : State) (x : Req), s.req? id = some x → x.phase = .started →
    ∃ y, (s.readChunks id tenant l).req? id = some y ∧ y.phase = .started
  | [], _, x, hx, hp => ⟨x, hx, hp⟩
  | (w, c) :: rest, s, x, hx, hp => by
    unfold State.readChunks
    dsimp only
    split
    · rename_i st _
      have hf : s.faultReq x st noBlock noLayer = s.markEnd x.id st noBlock noLayer := if_neg (by simp [hp])
      rw [hx, Option.elim_some, hf, State.req?_id hx]
      exact ⟨_, by rw [State.markEnd, State.req?_modReq _ _ fun r => r.mark_id _ _ _ _, hx]; rfl, (x.mark_phase _ _ _ _).trans hp⟩
    · split
      · exact ⟨x, hx, hp⟩
      · exact State.readChunks_started id tenant rest _ { x with waits := c :: x.waits }
          (by rw [State.req?_modReq _ _ (by intro; rfl), State.req?_of_held (State.pageTransfer_held _ _ _ _ _ _ _ _), hx]; rfl) hp

theorem State.beginWeights_started {s : State} {r : Req} {f : WeightsF} {x : Session} (hr : s.req? r.id = some r) (hc : s.checkWeights r f = none)
    (hg : s.groupSession (s.groupOfFn r.fn) = some x) (hw : s.weights.any (fun w => w.model == f.model) = true) :
    (s.beginWeights r f).stands r .started := by
  obtain ⟨w, hf⟩ := Option.isSome_iff_exists.mp ((List.find?_isSome (p := fun w : Weights => w.model == f.model) (xs := s.weights)).mpr
    (by simpa using hw))
  have ht : ∀ t : State, t.stands r .started → (t.chunksMore r.id).stands r .started := by
    rintro t ⟨y, hy, hp⟩
    unfold State.chunksMore
    rw [hy]
    dsimp only
    split
    · rw [if_pos hp]
      exact State.readChunks_started _ _ _ _ y hy hp
    · exact ⟨y, hy, hp⟩
  unfold State.beginWeights
  simp only [hc, hg, hf]
  exact ht _ (State.stands_modReq hr (fun _ => rfl) rfl)

/-! ### Near-memory operations (R193, R280) -/

theorem State.stands_of_reqs {s t : State} {r : Req} {p : ReqPhase} (h : t.reqs = s.reqs) (hs : s.stands r p) : t.stands r p := by
  obtain ⟨x, hx, hp⟩ := hs
  exact ⟨x, by rw [State.req?_of_reqs h, hx], hp⟩

/-- A change of requests that keeps identifiers and phases keeps every request standing where it stands. -/
theorem State.stands_modReq_phase {s : State} {r : Req} {p : ReqPhase} {g : Req → Req} (hg : ∀ x, (g x).id = x.id) (hp : ∀ x, (g x).phase = x.phase)
    (hs : s.stands r p) : (s.modReq r.id g).stands r p := by
  obtain ⟨x, hx, hx'⟩ := hs
  exact State.stands_modReq hx hg ((hp x).trans hx')

theorem State.pinOps_stands {s : State} {r : Req} {p : ReqPhase} (hs : s.stands r p) : (s.pinOps r).stands r p := by
  have pinned : ∀ (t : State) (q : Seq) (x : State → Req) (o : MemOpF), t.stands r p →
      ((t.pinCurrent r.id q).askOp (x (t.pinCurrent r.id q)) o).stands r p ∧ ((t.pinSecond r.id q).askOp (x (t.pinSecond r.id q)) o).stands r p :=
    fun t q x o ht =>
      have hq : ∀ g, (t.modSeq q.index g).stands r p := fun g => State.stands_of_reqs rfl ht
      ⟨State.stands_of_reqs (State.reqs_of_held (State.askOp_held _ _ _)) (State.stands_modReq_phase (fun _ => rfl) (fun _ => rfl) (hq _)),
        State.stands_of_reqs (State.reqs_of_held (State.askOp_held _ _ _)) (State.stands_modReq_phase (fun _ => rfl) (fun _ => rfl) (hq _))⟩
  unfold State.pinOps
  extract_lets seqAt t
  have ht : t.stands r p := by
    unfold t
    split
    · exact (pinned s _ (fun u => (u.req? r.id).getD r) _ hs).1
    · exact hs
  split
  · exact (pinned t _ (fun u => ((u.req? r.id).getD r).second) _ ht).2
  · exact ht

/-- An operation without an operand in a shared region stands started, its operands pinned (R193, R194). -/
theorem State.beginNear_started {s : State} {r : Req} (hr : s.req? r.id = some r) (hc : s.checkNear r = none)
    (hk : ((nearOps r.desc).1 ++ (nearOps r.desc).2).any (fun o => o.kind == 3) = false) : (s.beginNear r).stands r .started := by
  have hk' : ∀ o ∈ (nearOps r.desc).1 ++ (nearOps r.desc).2, (o.kind == 3) = false := fun o ho =>
    Bool.eq_false_iff.mpr (List.any_eq_false.mp hk o ho)
  have hops : regionOps r.desc = [] := List.filter_eq_nil_iff.mpr fun o ho => by simp [hk' o ho]
  have hsrc : regionSources r.desc = [] :=
    List.filter_eq_nil_iff.mpr fun o ho => by simp [hk' o (List.mem_append_left _ ho)]
  have hnone : ∀ t : State, t.readRegions r = t := fun t => by simp only [State.readRegions, firstReads, hsrc, List.foldl_nil]
  unfold State.beginNear
  simp only [hc, hops, List.any_nil, Bool.false_eq_true, if_false, List.head?_nil, Option.bind_none, ite_self, hnone]
  exact State.pinOps_stands (State.stands_modReq hr (fun _ => rfl) rfl)

theorem regionOps_of_allRegions {d : Desc} (h : allRegions d = true) : regionOps d = (nearOps d).1 ++ (nearOps d).2 := by
  unfold allRegions at h
  simp only [Bool.and_eq_true, List.all_eq_true] at h
  obtain ⟨⟨-, hk⟩, -⟩ := h
  exact List.filter_eq_self.mpr hk

/-- An operation whose operands all lie in shared regions of one tray goes to it (R280). -/
theorem State.beginNear_remote {s : State} {r : Req} (hr : s.req? r.id = some r) (hc : s.checkNear r = none)
    (hl : ∀ o ∈ regionOps r.desc, (s.regionLink o.handle).isSome = true) (ha : allRegions r.desc = true) (hn : regionOps r.desc ≠ []) :
    (s.beginNear r).stands r .remote := by
  obtain ⟨o, ops, ho⟩ := List.exists_cons_of_ne_nil hn
  obtain ⟨l, hlo⟩ := Option.isSome_iff_exists.mp (hl o (by simp [ho]))
  have hup : ((regionOps r.desc).any fun o => (s.regionLink o.handle).isNone) = false := by
    simpa [List.any_eq_false] using fun o ho => by simpa [Option.isSome_iff_ne_none] using hl o ho
  unfold State.beginNear
  simp only [hc, hup, Bool.false_eq_true, if_false]
  simp only [ha, if_true, ho, List.head?_cons, Option.bind_some, hlo]
  refine State.stands_modReq (x := r) ?_ (fun _ => rfl) rfl
  rw [State.req?_of_held (State.request_held _ _ _ _ _ _ _ _), hr]

end Sys2Proof.Machine
end

section
/-! CLAIMS. The obligation on requests that run. -/

namespace Sys2Proof.Machine

/-- A near-memory command that begins leaves what `beginNear` leaves. -/
theorem leaves_of_near {c : Instr} {s u : State} {sub : Sub} {d : Desc} {r : Req} {P : State → Prop} (hc : exec c s = .next (s.submit sub d))
    (h : s.begins sub d = some (u, r)) (hd : ∀ v, normDesc v d = d) (hb : ∀ r' : Req, r'.desc = d → u.beginReq r' = u.beginNear r')
    (hm : ∀ m, d ≠ .detach m) (hf : ∀ g, d ≠ .fence g) (hp : r.desc = d → P (u.beginNear r)) : Leaves c s P := by
  have hr : r.desc = d := State.begins_desc_same h hd
  exact leaves_of_begins hc h (by rwa [hr]) (by rwa [hr]) (by rw [hb r hr]; exact hp hr)

/-- Settles O22: each command's request stands where its own `begin` leaves it. -/
theorem runningRequestsBegin : Obligations.RunningRequestsBegin := by
  unfold Obligations.RunningRequestsBegin
  refine ⟨fun s u sub f r q m hb hq hm => ?_, fun s u sub f g r q m hb hd hq hm => ?_, fun s u sub f r x hb hc hg hw => ?_,
    fun s u sub r hc hk => ?_, fun s u sub r hc hl ha => ?_⟩
  · have hd : r.desc = .fetch f := State.begins_desc_same hb fun _ => rfl
    refine leaves_of_begins rfl hb (by simp [hd]) (by simp [hd]) ?_
    simp only [State.beginReq, hd]
    exact ⟨_, State.beginFetch_req (State.begins_stands hb) hq hm, rfl, rfl⟩
  · refine leaves_of_begins rfl hb (by simp [hd]) (by simp [hd]) ?_
    simp only [State.beginReq, hd]
    exact State.beginAttend_req (State.begins_stands hb) hq hm
  · have hd : r.desc = .weights f := State.begins_desc_same hb fun _ => rfl
    refine leaves_of_begins rfl hb (by simp [hd]) (by simp [hd]) ?_
    simp only [State.beginReq, hd]
    exact State.beginWeights_started (State.begins_stands hb) hc hg hw
  · have started : ∀ {c : Instr} {d : Desc}, exec c s = .next (s.submit sub d) → (∀ v, normDesc v d = d) →
        (∀ r' : Req, r'.desc = d → u.beginReq r' = u.beginNear r') → (∀ m, d ≠ .detach m) → (∀ g, d ≠ .fence g) →
        s.begins sub d = some (u, r) → Leaves c s fun t => t.stands r .started := fun hx hd hn hm hf hb =>
      leaves_of_near hx hb hd hn hm hf fun _ => State.beginNear_started (State.begins_stands hb) hc hk
    refine ⟨fun f => ?_, fun f => ?_, fun f => ?_, fun f => ?_, fun f => ?_, fun f => ?_⟩ <;>
      exact started rfl (fun _ => rfl) (fun r' h => by simp only [State.beginReq, h]) (by simp) (by simp)
  · have remote : ∀ {c : Instr} {d : Desc}, exec c s = .next (s.submit sub d) → (∀ v, normDesc v d = d) →
        (∀ r' : Req, r'.desc = d → u.beginReq r' = u.beginNear r') → (∀ m, d ≠ .detach m) → (∀ g, d ≠ .fence g) →
        (nearOps d).1 ++ (nearOps d).2 ≠ [] →
        s.begins sub d = some (u, r) → Leaves c s fun t => t.stands r .remote := fun hx hd hn hm hf hne hb =>
      leaves_of_near hx hb hd hn hm hf fun hr => State.beginNear_remote (State.begins_stands hb) hc hl ha (by rw [regionOps_of_allRegions ha, hr]; exact hne)
    refine ⟨fun f => ?_, fun f => ?_, fun f => ?_⟩ <;>
      exact remote rfl (fun _ => rfl) (fun r' h => by simp only [State.beginReq, h]) (by simp) (by simp) (by simp [nearOps])

end Sys2Proof.Machine
end

section
/-! SUPPORT. The ends of transfers: what searches, loads and counted reads leave, what the end of a request adds, and what a transfer of each
kind of request comes to. -/

namespace Sys2Proof.Machine

/-! ### The record of a request that ends -/

theorem State.record_out {s : State} {o : Output} (h : o ∈ s.out) (a b c d e f g : Nat) (fl : RecFlags) : o ∈ (s.record a b c d e f g fl).out := by
  unfold State.record
  split
  · exact h
  · split
    · exact h
    · exact List.mem_cons_of_mem _ h

/-- The end of a request takes back nothing that has left the device. -/
theorem State.finish_out {s : State} {r : Req} {o : Output} (h : o ∈ s.out) (status result : Nat) (fl : RecFlags) :
    o ∈ (s.finish r status result fl).out := by
  unfold State.finish
  refine State.dropReq_out ?_
  rw [State.fenceCount_out]
  change o ∈ (State.enqueue _ _ _ _ _).out
  rw [State.enqueue_out]
  exact State.record_out h _ _ _ _ _ _ _ _

theorem State.ringOf_of_fns {s t : State} (h : t.fns = s.fns) (r : Req) : t.ringOf r = s.ringOf r := by
  simp only [State.ringOf, State.fn?, h]

theorem State.groupOfFn_of_fns {s t : State} (h : t.fns = s.fns) (n : Nat) : t.groupOfFn n = s.groupOfFn n := by
  simp only [State.groupOfFn, State.fn?, h]

/-- A completion of a ring carries its request's attachment. -/
theorem State.recorded_of_completes {s t : State} {r : Req} {status result : Nat} (h : s.completes t r status result) : t.recorded r status := by
  obtain ⟨g, c, hg, hc, hfn, hat, -, -, -, hop, htag, hseq, hst, -⟩ := h
  refine ⟨c, hc, hfn, hat.trans ?_, hop, htag, hseq, hst⟩
  unfold State.ringOf at hg
  obtain ⟨f, -, hf⟩ := Option.bind_eq_some_iff.mp hg
  simpa using List.find?_some hf

theorem State.finish_recorded {s : State} {r : Req} (status result : Nat) (fl : RecFlags) (h : (s.ringOf r).isSome = true) :
    (s.finish r status result fl).recorded r status :=
  State.recorded_of_completes (State.finish_completes status result fl h)

theorem State.hostPut_fns (s : State) (r : Req) (addr : Nat) (data : Bytes) : (s.hostPut r addr data).fns = s.fns := by
  unfold State.hostPut
  obtain ⟨q, h⟩ := (s.emit (.hostWrite (s.groupOfFn r.fn) addr data)).enqueue_eq (s.groupOfFn r.fn) r.fn r.cls data.length
  rw [h]; rfl

theorem State.hostPut_reqs (s : State) (r : Req) (addr : Nat) (data : Bytes) : (s.hostPut r addr data).reqs = s.reqs := by
  unfold State.hostPut
  obtain ⟨q, h⟩ := (s.emit (.hostWrite (s.groupOfFn r.fn) addr data)).enqueue_eq (s.groupOfFn r.fn) r.fn r.cls data.length
  rw [h]; rfl

/-- Bytes for host memory leave (R189). -/
theorem State.hostPut_out (s : State) (r : Req) (addr : Nat) (data : Bytes) :
    Output.hostWrite (s.groupOfFn r.fn) addr data ∈ (s.hostPut r addr data).out := by
  unfold State.hostPut
  rw [State.enqueue_out]
  exact List.mem_cons_self

/-- A request whose last bytes leave ends with them and its record. -/
theorem State.hostPut_finish {s : State} {r : Req} (addr : Nat) (data : Bytes) (status result : Nat) (fl : RecFlags) (h : (s.ringOf r).isSome = true) :
    Output.hostWrite (s.groupOfFn r.fn) addr data ∈ ((s.hostPut r addr data).finish r status result fl).out ∧
      ((s.hostPut r addr data).finish r status result fl).recorded r status :=
  ⟨State.finish_out (s.hostPut_out r addr data) _ _ _, State.finish_recorded _ _ _ (by rwa [State.ringOf_of_fns (s.hostPut_fns r addr data)])⟩

theorem State.finish_direct (s : State) (r : Req) (a b : Nat) (fl : RecFlags) : (s.finish r a b fl).direct = s.direct :=
  congrArg Spine.direct (State.finish_spine s r a b fl)

/-! ### Transfers in general -/

/-- The end of a transfer of a request in service, with nothing found on the way. -/
theorem exec_transferEnd {s : State} {r : Req} (hs : s.inService = true) (hr : s.req? r.id = some r) (ok : Bool) (data : Bytes) :
    exec (.dmaTransferEnd r.id ok [] .pass data) s = .next (s.transferEnd r ok data) := by
  have h0 : s.readFaults [] = s := by simp [State.readFaults, State.live, hs]
  have ht : exec (.dmaTransferEnd r.id ok [] .pass data) s =
    .next ((s.readFaults []).withReq r.id fun s r => s.checkedTransfer r ok .pass data) := rfl
  rw [ht, h0, State.withReq_service hs hr]
  rfl

/-- A transfer of a running request whose result is not on its way yet. -/
theorem leaves_of_transfer {s : State} {r : Req} {P : State → Prop} (hs : s.inService = true) (hr : s.req? r.id = some r) (data : Bytes)
    (h : P (s.transferEnd r true data)) : Leaves (.dmaTransferEnd r.id true [] .pass data) s P :=
  ⟨_, exec_transferEnd hs hr true data, h⟩

section
variable {s : State} {r : Req} (hp : r.phase = .started) (he : r.ended = none)
include hp he

theorem State.transferEnd_supply {f : BlocksF} (hd : r.desc = .append f ∨ r.desc = .replace f) (data : Bytes) :
    s.transferEnd r true data = s.supplyTransfer r f true data := by
  rcases hd with hd | hd <;> simp [State.transferEnd, hp, Req.not_stops he, hd]

theorem State.transferEnd_lookupToken {f : LookupTokenF} (hd : r.desc = .lookupToken f) (data : Bytes) :
    s.transferEnd r true data = s.lookupTokens r f true data := by simp [State.transferEnd, hp, Req.not_stops he, hd]

theorem State.transferEnd_fetch {f : FetchF} (hd : r.desc = .fetch f) (data : Bytes) :
    s.transferEnd r true data = s.fetchTransfer r f true := by simp [State.transferEnd, hp, Req.not_stops he, hd]

theorem State.transferEnd_tableLoad {f : LoadTableF} (hd : r.desc = .tableLoad f) (data : Bytes) :
    s.transferEnd r true data = s.tableLoadArrives r f data := by simp [State.transferEnd, State.tableTransfer, hp, Req.not_stops he, hd]

theorem State.transferEnd_tableExport {f : LoadTableF} (hd : r.desc = .tableExport f) (data : Bytes) :
    s.transferEnd r true data = (s.hostPut r f.image r.data).finish r stOk (resTable f.tableId) := by
  simp [State.transferEnd, State.tableTransfer, hp, Req.not_stops he, hd]

/-- The descriptor is of a near-memory operation. -/
theorem State.transferEnd_near (hd : (∃ f, r.desc = .fill f) ∨ (∃ f, r.desc = .copy f) ∨ (∃ f, r.desc = .compare f) ∨ (reduceOf r.desc).isSome)
    (data : Bytes) : s.transferEnd r true data = s.nearTransfer r true data := by
  unfold State.transferEnd
  rw [if_neg (by simp [hp]), if_neg (by simp [hp, Req.not_stops he])]
  generalize hx : r.desc = d at hd ⊢
  cases d <;> simp_all [reduceOf]

end

/-! ### Supplies (R33, R44) -/

theorem State.listArrives_entries {s : State} {r : Req} {f : BlocksF} {data : Bytes} {q : Seq} {m : ModelRec} (hw : s.mirrored = true)
    (hr : s.req? r.id = some r) (hq : s.openSeqOf r f.seq = .ok q) (hm : s.model? q.model = some m)
    (hc : s.checkEntries r q q.cur m (parseBlockList f.blockCount data) = none) :
    ∃ x, (s.listArrives r f data).req? r.id = some x ∧ x.entries = parseBlockList f.blockCount data := by
  unfold State.listArrives
  simp only [State.loadChange_whole hw, hq, hm, hc]
  exact ⟨_, by rw [State.req?_modReq _ _ (by intro; rfl), hr]; rfl, rfl⟩

theorem State.tokensArrive_data {s : State} {r : Req} (hr : s.req? r.id = some r) (data : Bytes) :
    ∃ x, (s.tokensArrive r data).req? r.id = some x ∧ x.data = data ∧ x.done = 2 :=
  ⟨_, by rw [State.tokensArrive, State.req?_modReq _ _ (by intro; rfl), hr]; rfl, rfl, rfl⟩

/-! ### Near-memory operations (R193 to R195) -/

/-- The transfer of an operation that reads no page, no failing line and no region that has still to answer brings its result. -/
theorem State.nearTransfer_result {s : State} {r : Req} (hr : s.req? r.id = some r) (hp : r.phase = .started) (hk : pageOps r.desc = [])
    (hsrc : directSources r.desc = []) (hw : s.regionWaits r = false) (data : Bytes) : s.nearTransfer r true data = s.nearResult r r.data data := by
  have hslots : r.slotsLeft = [] := by simp [Req.slotsLeft, hk]
  unfold State.nearTransfer
  simp [hp, hsrc, hslots, State.readSlots, hr, hw]

theorem State.putDest_host {s : State} {r : Req} {o : MemOpF} (hk : o.kind = 0) (h : (s.ringOf r).isSome = true) (data : Bytes) (fl : RecFlags) :
    Output.hostWrite (s.groupOfFn r.fn) o.address data ∈ (s.putDest r o data fl).out ∧ (s.putDest r o data fl).recorded r stOk := by
  unfold State.putDest
  rw [hk]
  exact State.hostPut_finish _ _ _ _ _ h

theorem State.putDest_direct {s : State} {r : Req} {o : MemOpF} {data : Bytes} (hk : o.kind = 1) (hb : s.directBlocked o.address data.length = false)
    (h : (s.ringOf r).isSome = true) (fl : RecFlags) :
    (s.putDest r o data fl).direct = s.direct.writeN o.address data ∧ (s.putDest r o data fl).recorded r stOk := by
  unfold State.putDest
  rw [hk]
  dsimp only
  rw [hb, if_neg Bool.false_ne_true]
  exact ⟨State.finish_direct _ _ _ _ _, State.finish_recorded _ _ _ h⟩

/-! ### Lookups by tokens (R54) -/

/-- What a search of the associative array and a load of metadata never touch. -/
def State.searched (s : State) : State :=
  { s with dir := [], array := State.reset.array, recorder := State.reset.recorder }

@[simp] theorem State.note_searched (s : State) (a) (b) (c) : (s.note a b c).searched = s.searched := by
  obtain ⟨r, h⟩ := s.note_eq a b c; rw [h]; rfl

@[simp] theorem State.loadEntry_searched (s : State) (a) : (s.loadEntry a).searched = s.searched := by
  unfold State.loadEntry
  split
  · rfl
  · split
    · rfl
    · rw [State.note_searched]; rfl

@[simp] theorem State.hitFails_searched (s : State) (a) (b) (c) (d) : (s.hitFails a b c d).searched = s.searched :=
  (s.note_searched "ARRAY_HIT_UNVERIFIED" c d :)

theorem State.searchKey_searched (s : State) (domain : Nat) (fp : BitVec 64) (depth : Nat) (hash : BitVec 128) :
    (s.searchKey domain fp depth hash).2.searched = s.searched := by
  unfold State.searchKey
  dsimp only
  rw [foldl_keeps State.searched _ (fun s r => by simp), foldl_keeps State.searched _ (fun s r => by simp)]

theorem State.localHits_searched (domain : Nat) (fp : BitVec 64) : ∀ (ps : List PairF) (i : Nat) (s : State),
    (s.localHits domain fp i ps).2.searched = s.searched
  | [], _, _ => rfl
  | p :: ps, i, s => by
    have h := s.searchKey_searched domain fp p.depth p.hash
    unfold State.localHits
    split
    · rename_i e t ht
      rw [ht] at h
      exact (State.localHits_searched domain fp ps _ t).trans h
    · rename_i t ht
      rw [ht] at h
      exact (State.localHits_searched domain fp ps _ t).trans h

theorem State.homeOf_of_searched {s t : State} (h : t.searched = s.searched) (x : BitVec 128) : t.homeOf x = s.homeOf x :=
  (congrArg (State.homeOf · x) h :)
theorem State.fns_of_searched {s t : State} (h : t.searched = s.searched) : t.fns = s.fns := (congrArg State.fns h :)
theorem State.reqs_of_searched {s t : State} (h : t.searched = s.searched) : t.reqs = s.reqs := (congrArg State.reqs h :)

/-- A lookup whose last hash is wanted sends it before its record; another ends with its record (R54). -/
theorem State.lookupDone_token {s t : State} {r : Req} {f : LookupTokenF} (hd : r.desc = .lookupToken f) (hr : (s.ringOf r).isSome = true)
    (hx : (t.req? r.id).isSome = true) (hf : t.fns = s.fns) (status result : Nat) (fl : RecFlags) :
    (r.raw = [] → s.completes (t.lookupDone r status result fl) r status result) ∧
    (r.raw ≠ [] → s.answers (t.lookupDone r status result fl) r f.resultAddr r.raw status result) := by
  have hring : t.ringOf r = s.ringOf r := State.ringOf_of_fns hf r
  unfold State.lookupDone
  simp only [hd, List.isEmpty_iff]
  refine ⟨fun h => ?_, fun h => ?_⟩
  · rw [if_pos h]
    exact State.completes_of_ringOf hring (State.finish_completes _ _ _ (by rwa [hring]))
  · rw [if_neg h]
    obtain ⟨x, hx⟩ := Option.isSome_iff_exists.mp hx
    refine ⟨?_, { x with phase := .writing, answer := some { status := status, result := result, flags := fl } }, _, ?_, rfl, rfl, rfl, rfl⟩
    · rw [← State.groupOfFn_of_fns hf]
      exact t.hostPut_out r f.resultAddr r.raw
    · rw [State.answerWith, State.req?_modReq _ _ (by intro; rfl), State.req?_of_reqs (t.hostPut_reqs _ _ _), hx]; rfl

/-- A lookup all of whose pairs are at home here is answered with its best hit (R52). -/
theorem State.runLookup_local {s : State} {r : Req} {model : Nat} {ps : List PairF} {d i h : Nat} (hh : ∀ p ∈ ps, s.homeOf p.hash = s.params.deviceId)
    (hb : bestHit (s.localHits (s.domainOf r.tenant) (s.fingerprintOf model) 0 ps).1 = some (d, i, h)) :
    ∃ (t : State) (fl : RecFlags), t.searched = s.searched ∧
      s.runLookup r model ps true = t.lookupDone r (if d = maxDepth ps then stOk else stOkPartial) (resLookup h d 0 (handleHome h)) fl := by
  have ht := State.localHits_searched (s.domainOf r.tenant) (s.fingerprintOf model) ps 0 s
  generalize hl : s.localHits (s.domainOf r.tenant) (s.fingerprintOf model) 0 ps = l at hb ht
  obtain ⟨hits, t⟩ := l
  have hp : t.params = s.params := (congrArg State.params ht :)
  have hmiss : (ps.filter fun p => !(hits.any fun h => h.1 == p.depth) && t.homeOf p.hash != t.params.deviceId) = [] :=
    List.filter_eq_nil_iff.mpr fun p hp' => by simp [State.homeOf_of_searched ht, hh p hp', hp]
  refine ⟨t, { remote := (t.lookupHome ps).isSome }, ht, ?_⟩
  unfold State.runLookup
  simp only [hl, hmiss, List.isEmpty_nil, or_true, true_or, if_true]
  unfold State.answerLookup
  rw [hb]
  rfl

theorem hashBytes_ne_nil (h : BitVec 128) : hashBytes h ≠ [] := by
  unfold hashBytes leBytes; exact List.cons_ne_nil _ _

/-- Pairs that a token-form lookup asks for, of the tokens that came (R54). -/
def State.askedPairs (s : State) (r : Req) (f : LookupTokenF) (m : ModelRec) (data : Bytes) : List PairF :=
  tokenPairs (s.hashKey (s.domainOf r.tenant)) m.blockTokens f.tokenBlocks (if f.hasStart then f.startDepth else 0)
    (if f.hasStart then f.startHash else chainHash0 (s.hashKey (s.domainOf r.tenant)) m.fingerprint) (tokenIds data)

/-- Bytes of the last chain hash, where a result buffer takes them (R54). -/
def lastHash (f : LookupTokenF) (ps : List PairF) : Bytes :=
  if f.resultAddr = 0 then [] else hashBytes (ps.getLastD { depth := 0, hash := 0 }).hash

section
variable {s : State} {r : Req} {f : LookupTokenF} {data : Bytes} {m : ModelRec} (hr : s.req? r.id = some r) (hd : r.desc = .lookupToken f)
  (hm : s.model? f.model = some m) (hk : s.slotFilled (hashKeySlot (s.domainOf r.tenant)) = true)
include hr hm hk

/-- A lookup by tokens waits while the table that it searches is short of a bank (R54, R90). -/
theorem State.lookupTokens_waits (hu : s.tableUp 1 = false) : (s.lookupTokens r f true data).stands r .waiting := by
  have hu' : ∀ g, (s.modReq r.id g).tableUp 1 = false := fun g => hu
  unfold State.lookupTokens
  simp only [hm, hk, hu', Bool.not_true, Bool.false_eq_true, if_false]
  exact State.stands_modReq (by rw [State.req?_modReq _ _ (by intro; rfl), hr]; rfl) (fun _ => rfl) rfl

include hd

/-- A lookup by tokens all of whose pairs are at home here is answered with its best hit, behind its last hash (R52, R54). -/
theorem State.lookupTokens_answers {u : State} {ps : List PairF} {last : Bytes} {d i h : Nat} (hps : ps = s.askedPairs r f m data)
    (hlast : last = lastHash f ps) (hmod : u = s.modReq r.id fun r => { r with raw := last, data := data }) (hring : (s.ringOf r).isSome = true)
    (hu : s.tableUp 1 = true) (hh : ∀ p ∈ ps, s.homeOf p.hash = s.params.deviceId)
    (hb : bestHit (u.localHits (s.domainOf r.tenant) (s.fingerprintOf f.model) 0 ps).1 = some (d, i, h)) :
    if f.resultAddr = 0 then s.completes (s.lookupTokens r f true data) r (if d = maxDepth ps then stOk else stOkPartial) (resLookup h d 0 (handleHome h))
    else s.answers (s.lookupTokens r f true data) r f.resultAddr last (if d = maxDepth ps then stOk else stOkPartial)
      (resLookup h d 0 (handleHome h)) := by
  have hu' : ∀ g, (s.modReq r.id g).tableUp 1 = true := fun g => hu
  have ht : s.lookupTokens r f true data = u.runLookup { r with raw := last } f.model ps true := by
    unfold State.lookupTokens
    simp only [hm, hk, hu', Bool.not_true, Bool.false_eq_true, if_false, if_true]
    rw [hmod, hlast, hps]
    rfl
  have hhome : ∀ p ∈ ps, u.homeOf p.hash = u.params.deviceId := by rw [hmod]; exact hh
  have hdom : s.domainOf r.tenant = u.domainOf r.tenant := by rw [hmod]; rfl
  have hfp : s.fingerprintOf f.model = u.fingerprintOf f.model := by rw [hmod]; rfl
  have hfns : u.fns = s.fns := by rw [hmod]; rfl
  rw [hdom, hfp] at hb
  obtain ⟨v, fl, hv, he⟩ := State.runLookup_local (r := { r with raw := last }) hhome hb
  have hx : (v.req? r.id).isSome = true := by
    rw [State.req?_of_reqs (State.reqs_of_searched hv), hmod, State.req?_modReq _ _ (by intro; rfl), hr]; rfl
  obtain ⟨hshort, hlong⟩ := State.lookupDone_token (s := s) (t := v) (r := { r with raw := last }) hd hring hx ((State.fns_of_searched hv).trans hfns)
    (if d = maxDepth ps then stOk else stOkPartial) (resLookup h d 0 (handleHome h)) fl
  rw [ht, he]
  split
  · rename_i h0
    exact hshort (hlast.trans (if_pos h0))
  · rename_i h0
    have hl : last = hashBytes _ := hlast.trans (if_neg h0)
    exact hlong (by rw [hl]; exact hashBytes_ne_nil _)

end

/-! ### Code tables (R167 to R169) -/

/-- Id `id` names a live table of a domain with this image. -/
def State.livesAs (s : State) (id domain : Nat) (image : Bytes) : Prop :=
  ∃ t, s.table? id = some t ∧ t.st = .live ∧ t.domain = domain ∧ t.image = image

section
variable {id domain : Nat} {image : Bytes}

theorem State.livesAs_of_tables {s t : State} (h : t.tables = s.tables) (hs : s.livesAs id domain image) : t.livesAs id domain image := by
  unfold State.livesAs State.table? at hs ⊢
  rwa [h]

theorem State.modTable_livesAs {s : State} (j : Nat) {g : CodeTable → CodeTable}
    (hg : ∀ t, (g t).id = t.id ∧ (g t).st = t.st ∧ (g t).domain = t.domain ∧ (g t).image = t.image) (hs : s.livesAs id domain image) :
    (s.modTable j g).livesAs id domain image := by
  obtain ⟨t, ht, hst, hd, hi⟩ := hs
  by_cases hj : id = j
  · subst hj
    refine ⟨g t, ?_, (hg t).2.1.trans hst, (hg t).2.2.1.trans hd, (hg t).2.2.2.trans hi⟩
    have h := find?_mapIf (key := CodeTable.id) (k := id) (g := g) (fun x hx => (hg x).1.trans hx) s.tables
    exact h.trans (by rw [State.table?] at ht; rw [ht]; rfl)
  · exact ⟨t, (find?_mapIf_ne (key := CodeTable.id) (fun x => (hg x).1) hj s.tables).trans ht, hst, hd, hi⟩

/-- The sweep frees no live table. -/
theorem State.tableSweep_livesAs {s : State} (j : Nat) (hs : s.livesAs id domain image) : (s.tableSweep j).livesAs id domain image := by
  unfold State.tableSweep
  split
  · rename_i x hx
    split
    · rename_i hc
      obtain ⟨t, ht, hst, hd, hi⟩ := hs
      have hj : id ≠ j := by
        rintro rfl
        rw [hx] at ht
        cases ht
        exact hc.1 hst
      refine State.livesAs_of_tables (s := { s with tables := s.tables.filter fun x => x.id != j }) ?_ ⟨t, ?_, hst, hd, hi⟩
      · obtain ⟨r, hr⟩ := (({ s with tables := s.tables.filter fun x => x.id != j } : State).putTableId j).note_eq "TABLE_FREED" (evSource 11 x.domain) j
        rw [hr]
        unfold State.putTableId
        split <;> rfl
      · rw [State.table?, List.find?_filter]
        rw [State.table?] at ht
        rw [← ht]
        congr 1
        funext y
        by_cases hy : y.id = id <;> simp [hy, hj]
    · exact hs
  · exact hs

theorem State.tableUnref_livesAs {s : State} (j : Nat) (hs : s.livesAs id domain image) : (s.tableUnref j).livesAs id domain image := by
  unfold State.tableUnref
  split
  · exact hs
  · exact State.tableSweep_livesAs _ (State.modTable_livesAs _ (fun _ => ⟨rfl, rfl, rfl, rfl⟩) hs)

theorem foldl_holds {α : Type} {p : State → Prop} {f : State → α → State} (h : ∀ s a, p s → p (f s a)) :
    ∀ (l : List α) (s : State), p s → p (l.foldl f s)
  | [], _, hs => hs
  | a :: l, s, hs => foldl_holds h l (f s a) (h s a hs)

theorem State.sweepPages_livesAs {s : State} (hs : s.livesAs id domain image) : s.sweepPages.livesAs id domain image := by
  unfold State.sweepPages
  refine foldl_holds (p := fun s => s.livesAs id domain image) (fun s p hs => ?_) _ _ (State.livesAs_of_tables rfl hs)
  refine State.livesAs_of_tables ?_ (State.tableUnref_livesAs p.table hs)
  unfold State.deallocate
  split
  · rfl
  · split <;> rfl

theorem State.unpin1_tables (s : State) (p : Option Pin) : (s.unpin1 p).tables = s.tables := by
  unfold State.unpin1; split <;> rfl

theorem State.dropReq_livesAs {s : State} (r : Req) (hs : s.livesAs id domain image) : (s.dropReq r).livesAs id domain image := by
  unfold State.dropReq
  refine State.sweepPages_livesAs (foldl_holds (p := fun s => s.livesAs id domain image) (fun s t hs => State.tableUnref_livesAs t hs) _ _ ?_)
  refine State.livesAs_of_tables ?_ hs
  change (s.unpin r).tables = s.tables
  unfold State.unpin
  rw [State.unpin1_tables, State.unpin1_tables]

theorem State.record_tables (s : State) (a b c d e f g : Nat) (fl : RecFlags) : (s.record a b c d e f g fl).tables = s.tables := by
  unfold State.record
  split
  · rfl
  · split <;> rfl

theorem State.fenceCount_tables (s : State) (r : Req) (n : Nat) : (s.fenceCount r n).tables = s.tables := by
  unfold State.fenceCount; split <;> rfl

/-- A live table outlives the end of a request, which gives back references on it at most. -/
theorem State.finish_livesAs {s : State} (r : Req) (a b : Nat) (fl : RecFlags) (hs : s.livesAs id domain image) :
    (s.finish r a b fl).livesAs id domain image := by
  unfold State.finish
  refine State.dropReq_livesAs _ (State.livesAs_of_tables ?_ hs)
  rw [State.fenceCount_tables]
  change (State.enqueue _ _ _ _ _).tables = _
  obtain ⟨q, h⟩ := (s.record r.fn r.attach r.opcode r.slotSeq r.tag a b fl).enqueue_eq (s.groupOfFn r.fn) r.fn r.cls 32
  rw [h]
  exact s.record_tables _ _ _ _ _ _ _ _

theorem State.streamRef_livesAs {s : State} (j : Nat) (g : Nat → Nat) (hs : s.livesAs id domain image) : (s.streamRef j g).livesAs id domain image := by
  unfold State.streamRef
  split
  · exact hs
  · exact State.modTable_livesAs _ (fun _ => ⟨rfl, rfl, rfl, rfl⟩) hs

theorem State.setStream_livesAs {s : State} (a b c d e : Nat) (hs : s.livesAs id domain image) : (s.setStream a b c d e).livesAs id domain image := by
  unfold State.setStream
  dsimp only
  split
  · exact hs
  · exact State.livesAs_of_tables rfl (State.streamRef_livesAs e _ (State.streamRef_livesAs _ _ hs))

theorem State.setStreams_livesAs {s : State} (a b : Nat) (f : LoadTableF) (hs : s.livesAs id domain image) : (s.setStreams a b f).livesAs id domain image :=
  foldl_holds (p := fun s => s.livesAs id domain image) (fun _ _ hs => State.setStream_livesAs _ _ _ _ _ hs) _ _ hs

end

theorem State.setStreams_fns (s : State) (a b : Nat) (f : LoadTableF) : (s.setStreams a b f).fns = s.fns := by
  have ref : ∀ (s : State) j g, (s.streamRef j g).fns = s.fns := fun s j g => ite_keeps (m := State.fns) rfl rfl
  refine foldl_keeps State.fns _ (fun _ _ => ?_) _ _
  refine ite_keeps (m := State.fns) rfl ?_
  exact (ref _ _ _).trans (ref _ _ _)

/-- A new image of a domain with room for it becomes a table of its own, under the id at the head of the free list (R165, R167, R169). -/
theorem State.tableLoadArrives_enters {s : State} {r : Req} {f : LoadTableF} {data im : Bytes} {id : Nat} {fl : FreeList}
    (hi : im = cleanImage (data.take tableImageBytes)) (hring : (s.ringOf r).isSome = true) (hlen : im.length = tableImageBytes)
    (hok : imageOk im = true) (hfmt : imageFormat im = f.fmt)
    (hnew : ∀ t ∈ s.tables, t.domain = s.domainOf r.tenant → t.st = .live → t.image ≠ im) (hm : s.metaGone = false)
    (hq : (s.tables.filter fun t => t.domain == s.domainOf r.tenant).length < ((s.domain? (s.domainOf r.tenant)).elim 0 (·.tableQuota)))
    (ht : s.tabFree.take = some (id, fl)) :
    (∃ x ∈ (s.tableLoadArrives r f data).tables, x.id = id ∧ x.domain = s.domainOf r.tenant ∧ x.image = im ∧ x.st = .live) ∧
      s.completes (s.tableLoadArrives r f data) r stOk (resTable id) := by
  let u : State := ({ s with tabFree := fl }.enterTable id (s.domainOf r.tenant) im).setStreams (s.domainOf r.tenant) id f
  have hnone : (s.tables.find? fun t => t.domain == s.domainOf r.tenant && t.st == .live && t.image == im) = none := by
    rw [List.find?_eq_none]
    intro t hmem h
    simp only [Bool.and_eq_true, beq_iff_eq] at h
    exact hnew t hmem h.1.1 h.1.2 h.2
  have he : s.tableLoadArrives r f data = u.finish r stOk (resTable id) := by
    unfold State.tableLoadArrives
    rw [← hi]
    simp only [hlen, hok, hfmt, hnone, Nat.not_le.mpr hq, hm, ht, ne_eq, not_true_eq_false, Bool.not_true, Bool.false_eq_true, or_self, if_false]
    rfl
  have hlive : u.livesAs id (s.domainOf r.tenant) im := State.setStreams_livesAs _ _ _ ⟨_, List.find?_cons_of_pos (by simp), rfl, rfl, rfl⟩
  have hfns : u.ringOf r = s.ringOf r := State.ringOf_of_fns (State.setStreams_fns _ _ _ _) r
  rw [he]
  obtain ⟨x, hx, hst, hd, him⟩ := State.finish_livesAs r stOk (resTable id) {} hlive
  exact ⟨⟨x, List.mem_of_find?_eq_some hx, by simpa using List.find?_some hx, hd, him, hst⟩,
    State.completes_of_ringOf hfns (State.finish_completes _ _ _ (by rwa [hfns]))⟩

end Sys2Proof.Machine
end

section
/-! SUPPORT. The last slot of a FETCH_PAGES (R113). -/

namespace Sys2Proof.Machine

@[simp] theorem State.loadEntry_held (s : State) (a) : (s.loadEntry a).held = s.held := by
  unfold State.loadEntry
  split
  · rfl
  · split
    · rfl
    · rw [State.note_held]; rfl

theorem State.faultSeq_placed (s : State) (i : Nat) : (s.faultSeq i).placed = s.placed := by
  unfold State.faultSeq
  split
  · rfl
  · exact ite_keeps (m := State.placed) ((State.placed_of_held (State.note_held _ _ _ _)).trans rfl) rfl

theorem State.loadRec_placed (s : State) (q : Seq) (id : Nat) : (s.loadRec q id).placed = s.placed := by
  unfold State.loadRec
  split
  · rfl
  · refine ite_keeps (m := State.placed) rfl (ite_keeps (m := State.placed) (ite_keeps (m := State.placed) rfl ?_)
      (ite_keeps (m := State.placed) rfl (s.faultSeq_placed _)))
    exact State.placed_of_held (State.note_held _ _ _ _)

theorem State.loadBlock_placed (s : State) (q : Seq) (v : Version) (b : Nat) : (s.loadBlock q v b).placed = s.placed := by
  unfold State.loadBlock
  extract_lets t
  have ht : t.placed = s.placed := by
    unfold t
    split
    · split
      · exact State.placed_of_held (s.loadEntry_held _)
      · rfl
    · rfl
  split
  · exact (t.loadRec_placed _ _).trans ht
  · exact ht

/-- What a completion record is written from and to. -/
def State.spoken (s : State) : List Fn × List Output := (s.fns, s.out)

theorem State.askMove_spoken (s : State) (a b c d : Nat) (e : Option Nat) : (s.askMove a b c d e).spoken = s.spoken := by
  unfold State.askMove; split <;> rfl

theorem State.ripen_spoken (s : State) (blk layer n : Nat) : (s.ripen blk layer n).spoken = s.spoken := by
  have ask : ∀ (t : State) a b, t.spoken = s.spoken → (t.askMove blk layer a b none).spoken = s.spoken := fun t a b h =>
    (t.askMove_spoken _ _ _ _ _).trans h
  unfold State.ripen
  split
  · rfl
  · dsimp only
    split
    · rfl
    · split
      · exact ask _ _ _ rfl
      · split
        · exact ask _ _ _ rfl
        · split
          · exact ask _ _ _ rfl
          · rfl

/-- The last slot of a FETCH_PAGES leaves, and with it the request's record (R112, R113). -/
theorem State.fetchTransfer_ends {s : State} {r : Req} {f : FetchF} {q : Seq} {v : Version} {m : ModelRec} {d : Bytes} {fmt table blk : Nat}
    {uncoded : Bool} (hp : r.phase = .started) (hring : (s.ringOf r).isSome = true) (hv : r.pin.bind s.pinned? = some (q, v))
    (hm : s.model? q.model = some m) (hn : r.done + 1 = fetchCount f)
    (hd : (s.loadBlock q v (fetchSlot f r.done).1).slotPage r q v m f.form (fetchSlot f r.done).2 (fetchSlot f r.done).1 =
      .ok d fmt uncoded table blk) :
    Output.hostWrite (s.groupOfFn r.fn) (f.buffer + r.done * fetchStride m f.form) (d ++ List.replicate (fetchStride m f.form - d.length) 0)
      ∈ (s.fetchTransfer r f true).out ∧ (s.fetchTransfer r f true).recorded r stOk := by
  let t := s.loadBlock q v (fetchSlot f r.done).1
  let u := t.hostPut r (f.buffer + r.done * fetchStride m f.form) (d ++ List.replicate (fetchStride m f.form - d.length) 0)
  let w := ((u.consumeCopy r.id (fetchSlot f r.done).1 (fetchSlot f r.done).2).ripen blk (fetchSlot f r.done).2 1).modReq r.id
    fun r => { r with done := r.done + 1 }
  have he : s.fetchTransfer r f true = w.finish r stOk (resPagesDone (r.done + 1)) := by
    unfold State.fetchTransfer
    simp only [hv, hm, hp, ne_eq, not_true_eq_false, Bool.not_true, Bool.false_eq_true, if_false, hd, hn, if_true]
    rfl
  have hfns : t.fns = s.fns := State.fns_of_placed (s.loadBlock_placed _ _ _)
  have hw : w.spoken = u.spoken := (State.ripen_spoken _ _ _ _).trans rfl
  have hring' : (w.ringOf r).isSome = true := by
    rwa [State.ringOf_of_fns ((congrArg Prod.fst hw).trans ((t.hostPut_fns _ _ _).trans hfns))]
  rw [he, ← State.groupOfFn_of_fns hfns]
  refine ⟨State.finish_out ?_ _ _ _, State.finish_recorded _ _ _ hring'⟩
  have hout : w.out = u.out := congrArg Prod.snd hw
  rw [hout]
  exact t.hostPut_out _ _ _

/-- The end of the write of a request's result, whatever the computations of the step find (R189). -/
theorem exec_writeEnd {s : State} {r : Req} (hs : s.inService = true) (hr : s.req? r.id = some r) (hp : r.phase = .writing) (ok : Bool)
    (check : SelfCheck) (data : Bytes) : exec (.dmaTransferEnd r.id ok [] check data) s =
      .next (s.writeEnds r (if ok then none else some (stLinkFault, resFaultAt noBlock noLayer))) := by
  have h0 : s.readFaults [] = s := ite_self _
  have ht : exec (.dmaTransferEnd r.id ok [] check data) s =
    .next ((s.readFaults []).withReq r.id fun s r => s.checkedTransfer r ok check data) := rfl
  have hnow : r.hashesNow ok = false := by simp [Req.hashesNow, hp]
  have hcode : r.codesNow ok = false := by simp [Req.codesNow, hp]
  have hcheck : s.hashCheck check false = s := by unfold State.hashCheck; split <;> rfl
  rw [ht, h0, State.withReq_service hs hr, State.checkedTransfer, hcode, if_neg (by simp), hnow, hcheck, State.transferEnd, if_pos hp]

end Sys2Proof.Machine
end

section
/-! CLAIMS. The obligation on the ends of transfers. -/

namespace Sys2Proof.Machine

/-- Settles O24: each kind of transfer by the lemma on its own arrival. -/
theorem transfersEnd : Obligations.TransfersEnd := by
  unfold Obligations.TransfersEnd
  refine ⟨fun s r f data q m hs hr hp he hd hq hm hw => ?_, fun s r f data m hs hr hp he hd hring hm hk => ?_,
    fun s r f data d fmt table blk uncoded q v m hs hr hp he hd hring hv hm hn hpage => ?_,
    fun s r f data id fl hs hr hp he hd hring => ?_, fun s r f data hs hr hp he hd hring => ?_, fun s r f data hs hr hp he hd hring hw => ?_,
    fun s r f data hs hr hp he hd hring hw ha hb hblk => ?_, fun s r f data hs hr hp he hd hring hw ha hb => ?_,
    fun s id ok found check data => ?_, fun s r a check data hs hr hp ha hring => ?_, fun s r f data hs hr hp he hring hw hk hdst hd => ?_⟩
  · have ht := State.transferEnd_supply (s := s) hp he hd data
    refine ⟨fun hdone hc => leaves_of_transfer hs hr data ?_, fun hdone => leaves_of_transfer hs hr data ?_⟩
    · rw [ht]
      simp only [State.supplyTransfer, Bool.not_true, Bool.false_eq_true, if_false, hdone]
      exact State.listArrives_entries hw hr hq hm hc
    · rw [ht]
      simp only [State.supplyTransfer, Bool.not_true, Bool.false_eq_true, if_false, hdone]
      exact State.tokensArrive_data hr data
  · intro key ps last u
    have ht := State.transferEnd_lookupToken (s := s) hp he hd data
    refine ⟨fun hu => leaves_of_transfer hs hr data ?_, fun d i h hu hh hb => leaves_of_transfer hs hr data ?_⟩
    · rw [ht]
      exact State.lookupTokens_waits hr hm hk hu
    · rw [ht]
      exact State.lookupTokens_answers hr hd hm hk rfl rfl rfl hring hu hh hb
  · refine leaves_of_transfer hs hr data ?_
    rw [State.transferEnd_fetch hp he hd]
    exact State.fetchTransfer_ends hp hring hv hm hn hpage
  · intro im hlen hok hfmt hnew hm hq ht
    refine leaves_of_transfer hs hr data ?_
    rw [State.transferEnd_tableLoad hp he hd]
    exact State.tableLoadArrives_enters rfl hring hlen hok hfmt hnew hm hq ht
  · refine leaves_of_transfer hs hr data ?_
    rw [State.transferEnd_tableExport hp he hd]
    exact State.hostPut_finish _ _ _ _ _ hring
  · intro bytes
    have ht : s.transferEnd r true data = s.putDest r f.dst bytes := by
      rw [State.transferEnd_near hp he (.inl ⟨f, hd⟩), State.nearTransfer_result hr hp (by rw [hd]; rfl) (by rw [hd]; rfl) hw, State.nearResult]
      simp only [hd]
      rfl
    refine ⟨fun hk => leaves_of_transfer hs hr data ?_, fun hk hb => leaves_of_transfer hs hr data ?_⟩ <;> rw [ht]
    · exact State.putDest_host hk hring _ _
    · exact State.putDest_direct hk hb hring _
  · refine leaves_of_transfer hs hr data ?_
    have ht : s.transferEnd r true data = s.putDest r f.b (data.take f.a.length) := by
      rw [State.transferEnd_near hp he (.inr (.inl ⟨f, hd⟩)),
        State.nearTransfer_result hr hp (by simp [hd, pageOps, nearOps, ha]) (by simp [hd, directSources, nearOps, reduceOf, ha]) hw, State.nearResult]
      simp only [hd, nearOps, State.sourceBytes, ha, List.headD_cons]
    rw [ht]
    exact State.putDest_direct hb hblk hring _
  · refine leaves_of_transfer hs hr data ?_
    have ht : s.transferEnd r true data =
        s.finish r stOk (resDiff (firstDiff (data.take f.a.length) ((data.drop f.a.length).take f.b.length))) := by
      rw [State.transferEnd_near hp he (.inr (.inr (.inl ⟨f, hd⟩))), State.nearTransfer_result hr hp (by simp [hd, pageOps, nearOps, ha, hb])
        (by simp [hd, directSources, nearOps, reduceOf, ha, hb]) hw, State.nearResult]
      simp only [hd, nearOps, State.sourceBytes, ha, hb]
      rfl
    rw [ht]
    exact State.finish_completes _ _ _ hring
  · have h0 : (s.readFaults found).readFaults [] = s.readFaults found := ite_self _
    have ht : exec (.dmaTransferEnd id ok [] check data) (s.readFaults found) =
      .next (((s.readFaults found).readFaults []).withReq id fun s r => s.checkedTransfer r ok check data) := rfl
    rw [ht, h0]
    rfl
  · have hok : ∀ ok, exec (.dmaTransferEnd r.id ok [] check data) s =
        .next (s.writeEnds r (if ok then none else some (stLinkFault, resFaultAt noBlock noLayer))) := fun ok => exec_writeEnd hs hr hp ok check data
    refine ⟨⟨_, hok true, ?_⟩, ⟨_, hok false, ?_⟩⟩ <;> simp only [State.writeEnds, ha] <;> exact State.finish_completes _ _ _ hring
  · refine leaves_of_transfer hs hr data ?_
    obtain ⟨lse, hl⟩ : ∃ lse, reduceOf r.desc = some (f, lse) := by
      rcases hd with hd | hd | hd <;> rw [hd] <;> exact ⟨_, rfl⟩
    have hops : (nearOps r.desc).1 = [] := by rcases hd with hd | hd | hd <;> rw [hd] <;> rfl
    have ht : s.transferEnd r true data = s.putDest r f.dest (reduceResult r.desc f (s.reduceSources f lse data)).1
        { nonfinite := (reduceResult r.desc f (s.reduceSources f lse data)).2 } := by
      rw [State.transferEnd_near hp he (.inr (.inr (.inr (by rw [hl]; rfl)))),
        State.nearTransfer_result hr hp (by simp [pageOps, hops]) (by simp [directSources, hops, hl, hk]) hw, State.nearResult]
      rcases hd with hd | hd | hd <;> rw [hd] at hl ⊢ <;> simp only [hl]
    obtain ⟨hout, hrec⟩ := State.putDest_host (o := f.dest) hdst hring (reduceResult r.desc f (s.reduceSources f lse data)).1
      { nonfinite := (reduceResult r.desc f (s.reduceSources f lse data)).2 }
    rw [ht]
    exact ⟨hrec, lse, hl, hout⟩

end Sys2Proof.Machine
end

section
/-! SUPPORT. The whey path (05_tiers_and_delivery): what a move of a page leaves, and the steps of staging, moves and sweeps that change
nothing where nothing waits for them. -/

namespace Sys2Proof.Machine

/-! ### Nothing waits for staging or moves (R71, R93) -/

/-- A request that waits for no move is not settled by the end of one. -/
theorem State.rangeSettle1_idle (s : State) {r : Req} (h : r.settles = false) : s.rangeSettle1 r = s := by
  unfold State.rangeSettle1
  dsimp only
  split
  · rfl
  · rename_i hp
    have hs : r.phase = .started := by
      by_contra hne
      exact hp (by simp [hne])
    simp only [Req.settles, hs, beq_self_eq_true, Bool.true_and] at h
    split <;> simp_all

theorem State.rangeSettle_idle {s : State} (h : ∀ r ∈ s.reqs, r.settles = false) : s.rangeSettle = s := by
  have step : ∀ r : Req, (match s.req? r.id with
      | some r => s.rangeSettle1 r
      | none => s) = s := by
    intro r
    split
    · rename_i x hx
      exact s.rangeSettle1_idle (h x (List.mem_of_find?_eq_some hx))
    · rfl
  exact foldl_whole step s.reqs

theorem State.refetch_idle {s : State} (h : ∀ e ∈ s.dir, e.refetch = []) : s.refetch = s := by
  have hnone : (s.dir.filter fun e => !e.refetch.isEmpty && e.st != .faulted) = [] :=
    List.filter_eq_nil_iff.mpr fun e he => by simp [h e he]
  unfold State.refetch
  rw [hnone]
  rfl

theorem State.stagingFreed_idle {s : State} (hd : ∀ e ∈ s.dir, e.refetch = []) (hr : ∀ r ∈ s.reqs, r.settles = false) : s.stagingFreed = s := by
  unfold State.stagingFreed
  rw [State.refetch_idle hd, State.rangeSettle_idle hr]

/-! ### Records and their locators (R31) -/

theorem State.rec?_modRec (s : State) (id : Nat) {g : Rec → Rec} (hg : ∀ r, (g r).id = r.id) : (s.modRec id g).rec? id = (s.rec? id).map g :=
  find?_mapIf (fun r hr => (hg r).trans hr) s.recs

/-- A record with one locator changed (R31). -/
def Rec.setLoc (r : Rec) (layer : Nat) (g : Loc → Loc) : Rec := { r with locs := r.locs.zipIdx.map fun (l, i) => if i = layer then g l else l }

theorem Rec.setLoc_loc {r : Rec} {layer : Nat} {l : Loc} (h : r.loc? layer = some l) (g : Loc → Loc) : (r.setLoc layer g).loc? layer = some (g l) := by
  rw [Rec.loc?] at h
  simp [Rec.loc?, Rec.setLoc, List.getElem?_map, List.getElem?_zipIdx, h]

theorem State.modLoc_rec (s : State) (id layer : Nat) (g : Loc → Loc) : (s.modLoc id layer g).rec? id = (s.rec? id).map fun r => r.setLoc layer g :=
  s.rec?_modRec id fun _ => rfl

/-- A locator that a write changes is found changed (R31). -/
theorem State.modLoc_loc {s : State} {id layer : Nat} {r : Rec} {l : Loc} (hr : s.rec? id = some r) (hl : r.loc? layer = some l) (g : Loc → Loc) :
    (s.modLoc id layer g).rec? id = some (r.setLoc layer g) ∧ (r.setLoc layer g).loc? layer = some (g l) :=
  ⟨by rw [State.modLoc_rec, hr]; rfl, Rec.setLoc_loc hl g⟩

theorem State.rec?_of_recs {s t : State} (h : t.recs = s.recs) (id : Nat) : t.rec? id = s.rec? id := by simp only [State.rec?, h]

/-! ### Prefetched pages (R105, R107, R263) -/

/-- A page of a record on this device lands in its copy, with the record's locator and the page's bytes. -/
theorem State.prefetchLands_arrives {s : State} {req b layer : Nat} {c : StagingCopy}
    (hc : (s.staging.find? fun c => c.req == req && c.block == b && c.layer == layer && !c.arrived) = some c)
    (ht : ∀ t ∈ s.txns, t.kind ≠ .farPage c.id) (hb : c.blk ≠ 0) (hq : c.req ≠ 0 ∨ c.ahead = true) (hh : s.isHint c.req = false) :
    ∃ x ∈ (s.prefetchLands req b layer true).staging, x.id = c.id ∧ x.arrived = true ∧ x.since = s.now ∧
      ∀ r l, s.rec? c.blk = some r → r.loc? layer = some l → x.loc = some l ∧ ∀ g, s.page? l.tier l.addr = some g → x.data = g.data := by
  let own := (s.rec? c.blk).bind fun x => (x.loc? layer).map fun l => (l, (s.page? l.tier l.addr).elim [] (·.data))
  let g : StagingCopy → StagingCopy := fun x => { x with arrived := true, since := s.now, loc := own.map Prod.fst, data := own.elim x.data Prod.snd }
  let t : State := { s with staging := mapIf (fun x => x.id == c.id) g s.staging }
  have htx : (s.txns.any fun t => t.kind == .farPage c.id) = false := List.any_eq_false.mpr fun t hm => by simpa using ht t hm
  have hkeep : ∀ u : State, u.reqs = s.reqs → ¬((decide (c.req = 0) && !c.ahead) || u.isHint c.req) = true := by
    intro u hu
    have hh' : u.isHint c.req = false := by rw [State.isHint, State.req?_of_reqs hu]; exact hh
    rcases hq with hq | hq <;> simp [hq, hh']
  have he : s.prefetchLands req b layer true = t := by
    unfold State.prefetchLands
    simp only [hc, htx, hb, if_false, Bool.false_eq_true, Bool.not_true, Bool.false_and, Option.any_none, Option.bind_none]
    exact if_neg (hkeep _ rfl)
  rw [he]
  refine ⟨g c, ?_, rfl, rfl, rfl, ?_⟩
  · exact List.mem_map.mpr ⟨c, List.mem_of_find?_eq_some hc, if_pos (by simp)⟩
  · intro r l hr hl
    have hown : own = some (l, (s.page? l.tier l.addr).elim [] (·.data)) := by simp [own, hr, hl]
    refine ⟨by simp [g, hown], fun p hp => by simp [g, hown, hp]⟩

/-- The end of a copy's time in staging, where nothing waits for its grains, is the filter of the copies alone (R107). -/
theorem State.stagingTtl_idle {s : State} (id : Nat) (hd : ∀ e ∈ s.dir, e.refetch = []) (hr : ∀ r ∈ s.reqs, r.settles = false) :
    s.stagingTtl id = { s with staging := s.staging.filter fun c =>
      !(c.id == id && c.ahead && c.arrived && decide (c.since + s.params.stagingTtlUs * ticksPerUs ≤ s.now)) } :=
  State.stagingFreed_idle (by exact hd) (by exact hr)

/-- A lookahead copy goes when its time in staging is over, where nothing waits for its grains (R107). -/
theorem State.stagingTtl_staging {s : State} (id : Nat) (hd : ∀ e ∈ s.dir, e.refetch = []) (hr : ∀ r ∈ s.reqs, r.settles = false) (c : StagingCopy) :
    c ∈ (s.stagingTtl id).staging ↔ c ∈ s.staging ∧
      ¬(c.id = id ∧ c.ahead = true ∧ c.arrived = true ∧ c.since + s.params.stagingTtlUs * ticksPerUs ≤ s.now) := by
  rw [State.stagingTtl_idle id hd hr]
  simp only [List.mem_filter, Bool.not_eq_true', Bool.and_eq_false_iff, beq_eq_false_iff_ne, decide_eq_false_iff_not, not_and_or, Bool.not_eq_true,
    ne_eq, or_assoc]

/-! ### The start of a move (R101, R103) -/

/-- A fold that keeps what it has or takes the next element ends with one of them. -/
theorem foldl_pick_mem {α : Type} {f : Option α → α → Option α} (hf : ∀ o a b, f o a = some b → b = a ∨ o = some b) :
    ∀ (l : List α) (o : Option α) (a : α), l.foldl f o = some a → a ∈ l ∨ o = some a
  | [], _, _, h => .inr h
  | m :: l, o, a, h => by
    rcases foldl_pick_mem hf l _ a h with h | h
    · exact .inl (List.mem_cons_of_mem _ h)
    · rcases hf o m a h with rfl | h
      · exact .inl List.mem_cons_self
      · exact .inr h

theorem State.nextMove_mem {s : State} {m : Move} (h : s.nextMove = some m) : m ∈ s.moves := by
  unfold State.nextMove at h
  dsimp only at h
  refine (foldl_pick_mem (fun o a b hb => ?_) _ none m h).elim (fun h => (List.mem_filter.mp h).1) (fun h => by cases h)
  split at hb
  · split at hb
    · exact .inl (Option.some.inj hb).symm
    · exact .inr hb
  · exact .inl (Option.some.inj hb).symm

theorem State.moves_of_carried {s t : State} (h : t.carried = s.carried) : t.moves = s.moves := (congrArg State.moves h :)
theorem State.recs_of_carried {s t : State} (h : t.carried = s.carried) : t.recs = s.recs := (congrArg State.recs h :)

/-- The next move takes its destination and marks its page (R103). -/
theorem State.moveStart_takes {s : State} {m : Move} {r : Rec} {l : Loc} {tier a : Nat} (hn : s.nextMove = some m) (hr : s.rec? m.blk = some r)
    (hl : r.loc? m.layer = some l) (hs : s.moveStands m r l = true) (hf : l.tier = 2 → s.tierFault l = none) (hd : s.moveDest m r l = some (tier, a))
    (hg : 2 ≤ tier ∨ 2 ≤ l.tier → s.stagingFree 0 l.grains = true) (hu : tier = 2 ∨ l.tier = 2 → s.tableUp 2 = true) :
    (∃ y ∈ s.moveStart.moves, y.id = m.id ∧ y.target = tier ∧ y.dest = some a) ∧
      ∃ x k, s.moveStart.rec? m.blk = some x ∧ x.loc? m.layer = some k ∧ k.moving = true ∧ k.addr = l.addr := by
  let t : State := (s.modMove m.id fun m => { m with target := tier, dest := some a, grains := l.grains, started := true }).modLoc m.blk m.layer
    fun l => { l with moving := true }
  have hc : s.moveStart.carried = t.carried := by
    unfold State.moveStart
    simp only [hn, hr, hl, Option.bind_some, Option.map_some, hs, Bool.not_true, Bool.false_eq_true, if_false, hd]
    rw [if_neg (fun h => by simp [hf h.1] at h), if_neg (fun h => by
      rcases h with ⟨h, h'⟩ | ⟨h, h'⟩
      · simp [hg h] at h'
      · simp [hu h] at h')]
    split
    · rw [State.pageTransfer_carried, State.pageTransfer_carried]
    · rw [State.pageTransfer_carried]
  have hm : (s.modMove m.id fun m => { m with target := tier, dest := some a, grains := l.grains, started := true }).rec? m.blk = some r := hr
  obtain ⟨hx, hk⟩ := State.modLoc_loc hm hl fun l => { l with moving := true }
  refine ⟨⟨{ m with target := tier, dest := some a, grains := l.grains, started := true }, ?_, rfl, rfl, rfl⟩, _, { l with moving := true }, ?_, hk, rfl, rfl⟩
  · rw [State.moves_of_carried hc]
    exact List.mem_map.mpr ⟨m, State.nextMove_mem hn, if_pos (by simp)⟩
  · rw [State.rec?_of_recs (State.recs_of_carried hc)]
    exact hx

/-! ### The end of a move (R95, R103) -/

/-- What asking for moves leaves: the records, the directory, the requests and the extents. -/
def State.laid (s : State) : List Rec × List DirEntry × List Req × List Extent × Image := (s.recs, s.dir, s.reqs, s.extents, s.image)

theorem State.recs_of_laid {s t : State} (h : t.laid = s.laid) : t.recs = s.recs := congrArg Prod.fst h
theorem State.dir_of_laid {s t : State} (h : t.laid = s.laid) : t.dir = s.dir := congrArg (fun x => x.2.1) h
theorem State.reqs_of_laid {s t : State} (h : t.laid = s.laid) : t.reqs = s.reqs := congrArg (fun x => x.2.2.1) h
theorem State.extents_of_laid {s t : State} (h : t.laid = s.laid) : t.extents = s.extents := congrArg (fun x => x.2.2.2.1) h

theorem State.askMove_laid (s : State) (a b c d : Nat) (e : Option Nat) : (s.askMove a b c d e).laid = s.laid := by
  unfold State.askMove; split <;> rfl

theorem State.askDemotions_laid (rank : Nat) (req : Option Nat) :
    ∀ (l : List (Nat × Nat × Nat)) (n : Nat) (s : State), (s.askDemotions rank req n l).laid = s.laid
  | [], _, _ => rfl
  | (_, id, i) :: rest, n, s => by
    unfold State.askDemotions
    split
    · rfl
    · split
      · exact State.askDemotions_laid rank req rest _ _
      · split
        · exact State.askDemotions_laid rank req rest _ _
        · rw [State.askDemotions_laid rank req rest, State.askMove_laid]

/-- Every entry's pages lie on this device (R71). -/
def State.holdsOwn (s : State) : Prop := ∀ e ∈ s.dir, s.heldAway e = false

theorem State.holdsOwn_of {s t : State} (hd : t.dir = s.dir) (hi : t.image = s.image) (hs : s.holdsOwn) : t.holdsOwn := by
  intro e he
  rw [hd] at he
  have := hs e he
  simp only [State.heldAway, State.params, hi] at this ⊢
  exact this

theorem State.holdsOwn_of_laid {s t : State} (h : t.laid = s.laid) : s.holdsOwn → t.holdsOwn :=
  State.holdsOwn_of (State.dir_of_laid h) (congrArg (fun x => x.2.2.2.2) h)

/-- With no copy of another device's pages here, demotions only ask for moves (R102). -/
theorem State.demoteSpan_laid {s : State} (h : s.holdsOwn) (k : Nat × Nat × Nat) (a b : Nat) (p : Nat → Bool) : (s.demoteSpan k a b p).laid = s.laid := by
  have hcold : s.coldProxies p = [] := by
    have hnone : s.dir.filter s.heldAway = [] := List.filter_eq_nil_iff.mpr fun e he => by simp [h e he]
    rw [State.coldProxies, hnone, List.flatMap_nil]
  unfold State.demoteSpan
  dsimp only
  split
  · rfl
  · rw [State.askDemotions_laid, hcold]
    split <;> rfl

theorem foldl_laid {α : Type} {f : State → α → State} (hf : ∀ s a, s.holdsOwn → (f s a).laid = s.laid) :
    ∀ (l : List α) (s : State), s.holdsOwn → (l.foldl f s).laid = s.laid
  | [], _, _ => rfl
  | a :: l, s, hs => (foldl_laid hf l _ (State.holdsOwn_of_laid (hf s a hs) hs)).trans (hf s a hs)

theorem State.demoteAll_laid {s : State} (h : s.holdsOwn) : s.demoteAll.laid = s.laid := by
  have h0 := State.demoteSpan_laid h (0, 0, 0) s.params.t0LowWater s.freeT0 fun _ => true
  have spans := foldl_laid (α := Nat) (f := fun s k => (List.range 2).foldl (fun s g =>
      let (lo, hi) := s.regionSpan k g
      if s.regionOpen k g && decide (lo < hi) then
        s.demoteSpan (1, k, g) s.params.t1LowWater (s.freeRegion k g) fun a => decide (lo ≤ a ∧ a < hi)
      else s) s)
    (fun s k hs => foldl_laid (fun s g hs => ite_keeps (m := State.laid) (State.demoteSpan_laid hs _ _ _ _) rfl) _ _ hs)
    (List.range 12) _ (State.holdsOwn_of_laid h0 h)
  unfold State.demoteAll
  dsimp only
  refine (ite_keeps (m := State.laid) (a := _) rfl ?_).trans (spans.trans h0)
  exact State.demoteSpan_laid (State.holdsOwn_of_laid (spans.trans h0) h) _ _ _ _

theorem State.freeIdleProxies_none {s : State} (h : ∀ e ∈ s.dir, e.proxy = false) : s.freeIdleProxies = s := by
  have hnone : (s.dir.filter fun e => e.proxy && !e.holderProxy && e.refs == 0 && !s.hasCopies e) = [] :=
    List.filter_eq_nil_iff.mpr fun e he => by simp [h e he]
  unfold State.freeIdleProxies
  rw [hnone]
  rfl

theorem State.settleRehome_laid (s : State) (i : Nat) : (s.settleRehome i).laid = s.laid := by
  unfold State.settleRehome
  split
  · rfl
  · exact ite_keeps (m := State.laid) rfl rfl

theorem State.settleExtents_idle {s : State} (h : ∀ e ∈ s.extents, e.releasing = false) : s.settleExtents = s := by
  have step : ∀ (l : List Extent), (∀ e ∈ l, e.releasing = false) → l.foldl (fun (s : State) e => s.settleExtent e) s = s := by
    intro l
    induction l with
    | nil => intro _; rfl
    | cons e l ih =>
      intro hl
      have he : s.settleExtent e = s := if_pos (.inr (by simp [hl e List.mem_cons_self]))
      rw [List.foldl_cons, he, ih fun x hx => hl x (List.mem_cons_of_mem _ hx)]
  exact step s.extents h

/-! ### Writing a page -/

@[simp] theorem State.foldParity_stored (s : State) (a) (b) : (s.foldParity a b).stored = s.stored := by
  unfold State.foldParity
  split
  · rfl
  · split <;> rfl

@[simp] theorem State.pageParity_stored (s : State) (a) (b) (c) (d) (e) (f) (g) : (s.pageParity a b c d e f g).stored = s.stored := by
  unfold State.pageParity
  split
  · rfl
  · exact foldl_keeps State.stored _ (fun s k => by simp) _ _

theorem State.foldParity_recs (s : State) (a : Nat) (b : Bytes) : (s.foldParity a b).recs = s.recs := by
  unfold State.foldParity
  split
  · rfl
  · split <;> rfl

theorem State.tableRef_recs (s : State) (a : Nat) : (s.tableRef a).recs = s.recs := by
  unfold State.tableRef; split <;> rfl

theorem State.writePage_stored (s : State) (tier addr n kind owner table : Nat) (data : Bytes) :
    (s.writePage tier addr n kind owner table data).2.stored = s.stored := by
  unfold State.writePage
  dsimp only
  rw [State.pageParity_stored]
  exact (State.tableRef_stored _ _ :)

theorem State.writePage_recs (s : State) (tier addr n kind owner table : Nat) (data : Bytes) :
    (s.writePage tier addr n kind owner table data).2.recs = s.recs := by
  unfold State.writePage State.pageParity
  dsimp only
  refine (ite_keeps (m := State.recs) rfl (foldl_keeps State.recs _ (fun s k => s.foldParity_recs _ _) _ _)).trans ?_
  exact State.tableRef_recs _ _

theorem State.note_recs (s : State) (a : String) (b c : Nat) : (s.note a b c).recs = s.recs := by
  obtain ⟨r, h⟩ := s.note_eq a b c; rw [h]

theorem State.tableUnref_recs (s : State) (a : Nat) : (s.tableUnref a).recs = s.recs := by
  have put : ∀ (s : State) a, (s.putTableId a).recs = s.recs := fun s a => ite_keeps (m := State.recs) rfl rfl
  have sweep : ∀ (s : State) a, (s.tableSweep a).recs = s.recs := by
    intro s a
    unfold State.tableSweep
    split
    · exact ite_keeps (m := State.recs) ((State.note_recs _ _ _ _).trans (put _ _)) rfl
    · rfl
  exact ite_keeps (m := State.recs) rfl (sweep _ _)

theorem State.deallocate_recs (s : State) (p : Page) : (s.deallocate p).recs = s.recs := by
  unfold State.deallocate
  split
  · rfl
  · split <;> rfl

theorem State.freePage_recs (s : State) (a b : Nat) : (s.freePage a b).recs = s.recs := by
  unfold State.freePage State.sweepPages
  dsimp only
  rw [foldl_keeps State.recs _ (fun s p => (State.deallocate_recs _ _).trans (s.tableUnref_recs _))]
  rfl

/-- The reading of a page does not look at the bits that a move sets (R103). -/
theorem State.readIssued_setMoving (s : State) (kind owner : Nat) (l : Loc) (b : Bool) :
    s.readIssued kind owner { l with moving := b } = s.readIssued kind owner l := rfl

/-- A page whose source reads well lies under its new address when its move ends (R95, R103). -/
theorem State.movePage_moves {s : State} {blk layer tier a : Nat} {r : Rec} {l : Loc} {data : Bytes} (hr : s.rec? blk = some r)
    (hl : r.loc? layer = some l) (hd : s.readIssued r.ownerKind r.owner l = .ok data) :
    (s.movePage blk layer tier a).stored = s.stored ∧
      ∃ x k, (s.movePage blk layer tier a).rec? blk = some x ∧ x.loc? layer = some k ∧ k.tier = tier ∧ k.addr = a ∧ k.moving = false := by
  let w := s.writePage tier a l.grains r.ownerKind r.owner l.table data
  let u : State := w.2.modLoc blk layer fun l => { l with tier := tier, addr := a, version := w.1, moving := false }
  have he : s.movePage blk layer tier a = u.freePage l.tier l.addr := by
    unfold State.movePage
    simp only [hr, hl, hd]
    rfl
  have hrw : w.2.rec? blk = some r := by rw [State.rec?_of_recs (s.writePage_recs _ _ _ _ _ _ _)]; exact hr
  obtain ⟨hx, hk⟩ := State.modLoc_loc hrw hl fun l => { l with tier := tier, addr := a, version := w.1, moving := false }
  rw [he]
  refine ⟨(u.freePage_stored _ _).trans ((show u.stored = w.2.stored from rfl).trans (s.writePage_stored _ _ _ _ _ _ _)), _, _, ?_, hk, rfl, rfl, rfl⟩
  rw [State.rec?_of_recs (u.freePage_recs _ _)]
  exact hx

/-- A dropped move leaves the record of its page but for the bit that it had set. -/
theorem State.dropMove_rec {s : State} {m : Move} {r : Rec} {l : Loc} (hr : s.rec? m.blk = some r) (hl : r.loc? m.layer = some l) :
    ∃ x b, (s.dropMove m).rec? m.blk = some x ∧ x.loc? m.layer = some { l with moving := b } ∧ x.ownerKind = r.ownerKind ∧ x.owner = r.owner := by
  unfold State.dropMove
  extract_lets t
  have ht : t.rec? m.blk = some r := hr
  split
  · obtain ⟨hx, hk⟩ := State.modLoc_loc ht hl fun l => { l with moving := false }
    exact ⟨_, false, hx, hk, rfl, rfl⟩
  · exact ⟨r, l.moving, ht, hl, rfl, rfl⟩

/-- What the reading of pages never looks at: queued moves and transactions, and the records. -/
theorem State.dropMove_eq (s : State) (m : Move) : ∃ a b c, s.dropMove m = { s with moves := a, txns := b, recs := c } := by
  unfold State.dropMove
  dsimp only
  split <;> exact ⟨_, _, _, rfl⟩

theorem State.laid_of_stored {s t : State} (h : t.stored = s.stored) : t.dir = s.dir ∧ t.reqs = s.reqs ∧ t.extents = s.extents ∧ t.image = s.image :=
  ⟨(congrArg State.dir h :), (congrArg State.reqs h :), (congrArg State.extents h :), (congrArg State.image h :)⟩

/-- A move whose transfer has ended well puts its page under its new address (R103). -/
theorem State.moveFinish_moves {s : State} {m : Move} {r : Rec} {l : Loc} {a : Nat} {data : Bytes} (hr : s.rec? m.blk = some r)
    (hl : r.loc? m.layer = some l) (hm : l.moving = true) (ht : ∀ t ∈ s.txns, t.kind ≠ .put m.id) (hd : m.dest = some a) (h2 : m.target ≠ 2)
    (hdir : ∀ e ∈ s.dir, e.proxy = false ∧ s.heldAway e = false ∧ e.refetch = []) (hs : ∀ x ∈ s.reqs, x.settles = false)
    (hread : s.readIssued r.ownerKind r.owner l = .ok data) :
    (s.moveFinish m true).extents = s.extents ∧
      ∃ x k, (s.moveFinish m true).rec? m.blk = some x ∧ x.loc? m.layer = some k ∧ k.tier = m.target ∧ k.addr = a ∧ k.moving = false := by
  obtain ⟨x, b, hx, hxl, hkind, howner⟩ := State.dropMove_rec hr hl
  obtain ⟨ms, ts, rs, hdrop⟩ := s.dropMove_eq m
  have hread' : (s.dropMove m).readIssued x.ownerKind x.owner { l with moving := b } = .ok data := by
    rw [hkind, howner, State.readIssued_setMoving, hdrop]; exact hread
  obtain ⟨hst, y, k, hy, hk⟩ := State.movePage_moves (tier := m.target) (a := a) hx hxl hread'
  let u : State := (s.dropMove m).movePage m.blk m.layer m.target a
  let v : State := if 2 ≤ m.target ∧ u.isHeld m.blk m.layer then u.askMove m.blk m.layer 1 3 none else u
  have hu : u.dir = s.dir ∧ u.reqs = s.reqs ∧ u.extents = s.extents ∧ u.image = s.image := by
    obtain ⟨h1, h2, h3, h4⟩ := State.laid_of_stored hst
    exact ⟨h1.trans (by rw [hdrop]), h2.trans (by rw [hdrop]), h3.trans (by rw [hdrop]), h4.trans (by rw [hdrop])⟩
  have hv : v.laid = u.laid := ite_keeps (m := State.laid) (u.askMove_laid _ _ _ _ _) rfl
  have hown : v.holdsOwn := State.holdsOwn_of_laid hv (State.holdsOwn_of (s := s) (t := u) hu.1 hu.2.2.2 fun e he => (hdir e he).2.1)
  have hw : v.demoteAll.laid = u.laid := (State.demoteAll_laid hown).trans hv
  have hwd : v.demoteAll.dir = s.dir := (State.dir_of_laid hw).trans hu.1
  have hwr : v.demoteAll.reqs = s.reqs := (State.reqs_of_laid hw).trans hu.2.1
  have he : (s.moveFinish m true).laid = u.laid := by
    have htx : (s.txns.any fun t => t.kind == .put m.id) = false := List.any_eq_false.mpr fun t hmem => by simpa using ht t hmem
    have hfin : s.moveFinish m true = v.demoteAll.freeIdleProxies.stagingFreed.seqs.foldl (fun (s : State) q => s.settleRehome q.index)
        v.demoteAll.freeIdleProxies.stagingFreed := by
      unfold State.moveFinish
      simp only [hr, hl, hd, hm, htx, Option.bind_some, Bool.not_true, Bool.false_eq_true, or_self, if_false, false_and]
      rfl
    have hidle : v.demoteAll.freeIdleProxies.stagingFreed = v.demoteAll := by
      rw [State.freeIdleProxies_none (s := v.demoteAll) fun e he => (hdir e (hwd ▸ he)).1]
      exact State.stagingFreed_idle (fun e he => (hdir e (hwd ▸ he)).2.2) fun x hx => hs x (hwr ▸ hx)
    rw [hfin, hidle]
    exact (foldl_keeps State.laid _ (fun s q => s.settleRehome_laid _) _ _).trans hw
  have hrecs : (s.moveFinish m true).recs = u.recs := State.recs_of_laid he
  refine ⟨(State.extents_of_laid he).trans hu.2.2.1, y, k, ?_, hk⟩
  rw [State.rec?_of_recs hrecs]
  exact hy

/-! ### Old versions (R36, R41) -/

/-- An old version without pins is in no sequence of its slot any more. -/
theorem State.reclaimVersion_gone {s : State} {i n : Nat} {q : Seq} (hq : s.seq? i = some q) (hv : ∃ v ∈ q.old, v.num = n ∧ v.pins = 0) :
    ∀ p, (s.reclaimVersion i n).seq? i = some p → ∀ v ∈ p.old, v.num ≠ n := by
  obtain ⟨v, hm, hn, hp⟩ := hv
  intro p h
  unfold State.reclaimVersion at h
  rw [hq] at h
  dsimp only at h
  split at h
  · rename_i hf
    exact absurd (by simp [hn, hp]) (List.find?_eq_none.mp hf v hm)
  · rw [State.seq?, State.seqs_of_held (State.unrefRecs_held _ _), ← State.seq?] at h
    have hmod := (State.seq?_modSeq s i (g := fun _ => { q with old := q.old.filter fun x => x.num != n }) fun _ _ => (State.seq?_index hq : q.index = i)).symm.trans h
    rw [hq] at hmod
    cases hmod
    intro x hx
    simpa using (List.mem_filter.mp hx).2

/-- A sequence that is found after a closing one may have been freed is the one that stood. -/
theorem State.freeIfClosed_seq {s : State} {i : Nat} {p : Seq} (h : (s.freeIfClosed i).seq? i = some p) : s.seq? i = some p := by
  unfold State.freeIfClosed at h
  split at h
  · rename_i q hq
    split at h
    · exact absurd (State.seq?_index h) (s.freeSeq_seqs i q hq p (List.mem_of_find?_eq_some h))
    · exact h
  · exact h

/-! ### The sweep (R99) -/

/-- The sweep halves the count of a page that it has not visited in its period, and notes the visit. -/
theorem State.sweep_page {s : State} {id layer : Nat} {r : Rec} {l : Loc} (ht : s.isTray = false) (hr : s.rec? id = some r) (hl : r.loc? layer = some l)
    (hk : l.sweptAt < s.now / s.ripePeriod + 1) :
    ∃ x k, (s.sweep false id layer).rec? id = some x ∧ x.loc? layer = some k ∧ k.ripening = l.ripening / 2 ∧ k.sweptAt = s.now / s.ripePeriod + 1 := by
  obtain ⟨hx, hloc⟩ := State.modLoc_loc hr hl fun l =>
    if l.sweptAt < s.now / s.ripePeriod + 1 then { l with ripening := l.ripening / 2, sweptAt := s.now / s.ripePeriod + 1 } else l
  rw [if_pos hk] at hloc
  refine ⟨_, _, ?_, hloc, rfl, rfl⟩
  simp only [State.sweep, ht, Bool.false_eq_true, if_false]
  exact hx

/-- The sweep halves the count of a weight chunk that it has not visited in its period. -/
theorem State.sweep_weights {s : State} {w : Weights} {chunk : Nat} (hw : w ∈ s.weights) (hk : w.swept.getD chunk 0 < s.now / s.ripePeriod + 1)
    (hc : chunk < w.counts.length) :
    ∃ x ∈ (s.sweep true w.model chunk).weights, x.model = w.model ∧ x.counts = w.counts.set chunk (w.counts.getD chunk 0 / 2) :=
  ⟨_, List.mem_map_of_mem hw, by rw [if_pos ⟨rfl, hk, hc⟩], by rw [if_pos ⟨rfl, hk, hc⟩]⟩

end Sys2Proof.Machine
end

section
/-! CLAIMS. -/

namespace Sys2Proof.Machine

/-- The end of a move, with nothing that its grains are waited for (R103). -/
theorem leaves_tierMoveEnd {s : State} {m : Move} {r : Rec} {l : Loc} {a : Nat} {data : Bytes} (hs : s.inService = true) (hmove : s.move? m.id = some m)
    (hr : s.rec? m.blk = some r) (hl : r.loc? m.layer = some l) (hm : l.moving = true) (ht : ∀ t ∈ s.txns, t.kind ≠ .put m.id)
    (hd : m.dest = some a) (h2 : m.target ≠ 2) (hdir : ∀ e ∈ s.dir, e.proxy = false ∧ s.heldAway e = false ∧ e.refetch = [])
    (he : ∀ e ∈ s.extents, e.releasing = false) (hx : ∀ x ∈ s.reqs, x.settles = false) (hread : s.readIssued r.ownerKind r.owner l = .ok data) :
    Leaves (.tierMoveEnd m.id true) s fun t =>
      ∃ x k, t.rec? m.blk = some x ∧ x.loc? m.layer = some k ∧ k.tier = m.target ∧ k.addr = a ∧ k.moving = false := by
  obtain ⟨hext, hmoved⟩ := State.moveFinish_moves hr hl hm ht hd h2 hdir hx hread
  refine ⟨(s.moveFinish m true).settleExtents, ?_, ?_⟩
  · rw [exec, execTierMoveEnd, State.live, if_pos hs, State.moveEnd, hmove]
  · rw [State.settleExtents_idle fun e h => he e (hext ▸ h)]
    exact hmoved

/-- Settles O28, one rule of the state per step: the landing of a page, the lapse of a copy, the start and the end of a move, the release of a
version, and the sweep of a page and of a weight chunk. -/
theorem tierCommandsComplete : Obligations.TierCommandsComplete := by
  unfold Obligations.TierCommandsComplete
  refine ⟨fun s req part b layer c hs hc ht hb hq hh hp => ⟨s.prefetchLands req b layer true, ?_, State.prefetchLands_arrives hc ht hb hq hh⟩,
    fun s id hs hd hr => ⟨s.stagingTtl id, ?_, State.stagingTtl_staging id hd hr⟩,
    fun s m r l tier a hs hn hr hl hst hf hd hg hu => ⟨s.moveStart, ?_, State.moveStart_takes hn hr hl hst hf hd hg hu⟩,
    fun s m r l a data hs hmove hr hl hm ht hd h2 hdir he hx hread => leaves_tierMoveEnd hs hmove hr hl hm ht hd h2 hdir he hx hread,
    fun s i n q hs hq hv => ⟨(s.reclaimVersion i n).freeIfClosed i, ?_, fun p h => State.reclaimVersion_gone hq hv p (State.freeIfClosed_seq h)⟩,
    fun s id layer r l hs ht hr hl hk => ⟨s.sweep false id layer, ?_, State.sweep_page ht hr hl hk⟩,
    fun s w chunk hs hw hk hc => ⟨s.sweep true w.model chunk, ?_, State.sweep_weights hw hk hc⟩⟩
  · rw [exec, execPrefetchArrival, State.live, if_pos hs, if_pos hp]
  · rw [exec, execStagingTtlEnd, State.live, if_pos hs]
  · rw [exec, execTierMoveStart, State.live, if_pos hs]
  · rw [exec, execPinRelease, State.live, if_pos hs]
  · rw [exec, execRipeningSweep, State.live, if_pos hs]
  · rw [exec, execRipeningSweep, State.live, if_pos hs]

end Sys2Proof.Machine
end

section
/-! SUPPORT. Frames (12, 13_tray): the parts of the state that an operation may change are those that a frame `f s t` takes from the state
after; `f (op s) d = f s d` for every `d` says that the operation changes nothing else. A frame of fewer parts gives every larger one. -/

namespace Sys2Proof.Machine

/-! ### Commands and their frames -/

/-- A command whose next state agrees with the state before under the frame changes nothing else. -/
theorem changesOnly_of {c : Instr} {f : State → State → State} {g : State → State} (hf : ∀ t, f t t = t) (hx : ∀ s, exec c s = .next (g s))
    (hg : ∀ s d, f (g s) d = f s d) : ChangesOnly c f := by
  intro s t h
  rw [hx] at h
  cases h
  exact (hf _).symm.trans (hg s _)

theorem live_keeps {β : Type} {m : State → β} {s : State} {g : State → State} (h : m (g s) = m s) : m (s.live g) = m s := ite_keeps h rfl

theorem changesOnly_live {c : Instr} {f : State → State → State} {g : State → State} (hf : ∀ t, f t t = t) (hx : ∀ s, exec c s = .next (s.live g))
    (hg : ∀ s d, f (g s) d = f s d) : ChangesOnly c f :=
  changesOnly_of hf hx fun s d => live_keeps (m := (f · d)) (hg s d)

theorem option_elim_keeps {α β : Type} {m : State → β} {s : State} {g : α → State} (o : Option α) (h : ∀ a, m (g a) = m s) : m (o.elim s g) = m s := by
  cases o
  · rfl
  · exact h _

/-! ### Keys of the island (R310 to R313, R279) -/

def keysFrame (s t : State) : State := { s with island := t.island, free := t.free }

theorem State.fillSlot_keysFrame (s : State) (n epoch : Nat) (d : State) : keysFrame (s.fillSlot n epoch) d = keysFrame s d := by
  unfold State.fillSlot
  dsimp only
  split
  · rfl
  · split <;> rfl

theorem State.makeKey_keysFrame (s : State) (host : Nat) (d : State) : keysFrame (s.makeKey host) d = keysFrame s d :=
  ite_keeps (m := (keysFrame · d)) rfl (s.fillSlot_keysFrame _ _ _)

theorem State.settleKey_keysFrame (s : State) (host : Nat) (d : State) : keysFrame (s.settleKey host) d = keysFrame s d :=
  ite_keeps (m := (keysFrame · d)) rfl rfl

/-! ### Region versions and their grants (R272 to R275) -/

/-- A region command's answer, which may leave on a management connection. -/
theorem State.reply_eq (s : State) (conn st : Nat) (body : List Nat) : ∃ o, s.reply conn st body = { s with out := o } := by
  unfold State.reply
  split <;> exact ⟨_, rfl⟩

theorem State.regionAnswer_eq (s : State) (conn : Option Nat) (host domain id version st : Nat) (digest : BitVec 256) :
    ∃ o, s.regionAnswer conn host domain id version st digest = { s with out := o } := by
  cases conn with
  | none => exact ⟨_, rfl⟩
  | some c => exact s.reply_eq _ _ _

/-- What a change of the regions and their grants touches. -/
def regionFrame (s t : State) : State := { s with tray := t.tray, array := t.array, island := t.island, free := t.free, out := t.out }

theorem State.regionAnswer_regionFrame (s : State) (conn host domain id version st digest) (d : State) :
    regionFrame (s.regionAnswer conn host domain id version st digest) d = regionFrame s d := by
  obtain ⟨o, h⟩ := s.regionAnswer_eq conn host domain id version st digest
  rw [h]
  rfl

theorem State.makeKey_regionFrame (s : State) (host : Nat) (d : State) : regionFrame (s.makeKey host) d = regionFrame s d :=
  (congrArg (regionFrame · d) (s.makeKey_keysFrame host d) :)

theorem State.settleKey_regionFrame (s : State) (host : Nat) (d : State) : regionFrame (s.settleKey host) d = regionFrame s d :=
  (congrArg (regionFrame · d) (s.settleKey_keysFrame host d) :)

theorem State.addGrant_regionFrame (s : State) (r : Region) (host : Nat) (d : State) : regionFrame (s.addGrant r host) d = regionFrame s d :=
  ite_keeps (m := (regionFrame · d)) rfl (State.makeKey_regionFrame _ _ _)

theorem State.dropGrant_regionFrame (s : State) (r : Region) (host : Nat) (d : State) : regionFrame (s.dropGrant r host) d = regionFrame s d :=
  ite_keeps (m := (regionFrame · d)) rfl (State.settleKey_regionFrame _ _ _)

theorem State.freeRegion_regionFrame (s : State) (r : Region) (d : State) : regionFrame (s.freeRegion_ r) d = regionFrame s d :=
  foldl_keeps (regionFrame · d) _ (fun s h => s.settleKey_regionFrame h d) _ _

theorem State.publishRegion_regionFrame (s : State) (r : Region) (d : State) : regionFrame (s.publishRegion r) d = regionFrame s d := by
  unfold State.publishRegion
  dsimp only
  split
  · exact State.regionAnswer_regionFrame _ _ _ _ _ _ _ _ d
  · split
    · rw [State.regionAnswer_regionFrame, State.addGrant_regionFrame, State.freeRegion_regionFrame]
    · exact State.regionAnswer_regionFrame _ _ _ _ _ _ _ _ d

theorem State.recallComplete_regionFrame (s : State) (r : Region) (d : State) : regionFrame (s.recallComplete r) d = regionFrame s d := by
  unfold State.recallComplete
  split
  · exact s.publishRegion_regionFrame r d
  · exact s.freeRegion_regionFrame r d
  · exact s.freeRegion_regionFrame r d
  · rfl

theorem State.recallAnswered_regionFrame (s : State) (r : Region) (host : Nat) (d : State) :
    regionFrame (s.recallAnswered r host) d = regionFrame s d :=
  ite_keeps (m := (regionFrame · d)) (State.recallComplete_regionFrame _ _ _) rfl

theorem State.backInvalidate_regionFrame (s : State) (host id version dirty) (d : State) :
    regionFrame (s.backInvalidate host id version dirty) d = regionFrame s d := by
  unfold State.backInvalidate
  split
  · rfl
  · exact State.recallAnswered_regionFrame _ _ _ _

theorem State.regionOpenFor_regionFrame (s : State) (host : Nat) (x : RegionScope) (id version grains : Nat) (d : State) :
    regionFrame (s.regionOpenFor host x id version grains) d = regionFrame s d := by
  unfold State.regionOpenFor
  refine ite_keeps (m := (regionFrame · d)) rfl (ite_keeps (m := (regionFrame · d)) (State.regionAnswer_regionFrame _ _ _ _ _ _ _ _ d)
    (ite_keeps (m := (regionFrame · d)) (State.regionAnswer_regionFrame _ _ _ _ _ _ _ _ d) ?_))
  dsimp only
  rw [State.regionAnswer_regionFrame, State.addGrant_regionFrame]
  rfl

theorem State.regionGrantTo_regionFrame (s : State) (x : RegionScope) (id version host : Nat) (d : State) :
    regionFrame (s.regionGrantTo x id version host) d = regionFrame s d := by
  unfold State.regionGrantTo
  refine ite_keeps (m := (regionFrame · d)) rfl ?_
  split
  · exact State.regionAnswer_regionFrame _ _ _ _ _ _ _ _ d
  · refine ite_keeps (m := (regionFrame · d)) (State.regionAnswer_regionFrame _ _ _ _ _ _ _ _ d)
      (ite_keeps (m := (regionFrame · d)) (State.regionAnswer_regionFrame _ _ _ _ _ _ _ _ d) ?_)
    rw [State.regionAnswer_regionFrame, State.addGrant_regionFrame]

/-! ### Frames sent on a link (R255, R275) -/

def sentFrame (s t : State) : State := { s with ports := t.ports, queues := t.queues, out := t.out }

theorem State.enqueue_sentFrame (s : State) (egress fn cls n : Nat) (d : State) : sentFrame (s.enqueue egress fn cls n) d = sentFrame s d := by
  obtain ⟨q, h⟩ := s.enqueue_eq egress fn cls n
  rw [h]
  rfl

theorem State.modPort_sentFrame (s : State) (p : PortId) (g : Port → Port) (d : State) : sentFrame (s.modPort p g) d = sentFrame s d := rfl

theorem State.emit_sentFrame (s : State) (o : Output) (d : State) : sentFrame (s.emit o) d = sentFrame s d := rfl

theorem State.sendFrame_sentFrame (s : State) (link : Nat) (f : Sent) (d : State) : sentFrame (s.sendFrame link f) d = sentFrame s d := by
  unfold State.sendFrame
  split
  · rfl
  · refine ite_keeps (m := (sentFrame · d)) rfl ?_
    dsimp only
    rw [State.modPort_sentFrame, State.enqueue_sentFrame, State.emit_sentFrame]
    split <;> rfl

theorem State.send_sentFrame (s : State) (link msg xid object aux status : Nat) (data : Bytes) (h : Hdr) (d : State) :
    sentFrame (s.send link msg xid object aux status data h) d = sentFrame s d := s.sendFrame_sentFrame _ _ d

theorem State.keepaliveSend_sentFrame (s : State) (link : Nat) (d : State) : sentFrame (s.keepaliveSend link) d = sentFrame s d :=
  ite_keeps (m := (sentFrame · d)) (s.send_sentFrame _ _ _ _ _ _ _ _ d) rfl

theorem State.emitOn_sentFrame (s : State) (port : PortId) (o : Output) (d : State) : sentFrame (s.emitOn port o) d = sentFrame s d :=
  ite_keeps (m := (sentFrame · d)) rfl rfl

/-- What a recall of a region's holders touches besides: the frames that ask them. -/
def recallFrame (s t : State) : State :=
  { s with tray := t.tray, array := t.array, island := t.island, free := t.free, mgmt := t.mgmt, out := t.out, ids := t.ids, ports := t.ports,
           queues := t.queues }

theorem recallFrame_of_regionFrame {s t d : State} (h : regionFrame t d = regionFrame s d) : recallFrame t d = recallFrame s d :=
  (congrArg (recallFrame · d) h :)

theorem recallFrame_of_sentFrame {s t d : State} (h : sentFrame t d = sentFrame s d) : recallFrame t d = recallFrame s d :=
  (congrArg (recallFrame · d) h :)

theorem State.askRecall_recallFrame (s : State) (r : Region) (host : Nat) (d : State) : recallFrame (s.askRecall r host) d = recallFrame s d := by
  unfold State.askRecall
  split
  · rfl
  · rw [recallFrame_of_sentFrame (State.send_sentFrame _ _ _ _ _ _ _ _ _ d)]
    rfl
  · rfl

theorem State.beginRecall_recallFrame (s : State) (r : Region) (hosts : List Nat) (why : RecallFor) (d : State) :
    recallFrame (s.beginRecall r hosts why) d = recallFrame s d := by
  unfold State.beginRecall
  extract_lets r' u
  have hu : recallFrame u d = recallFrame s d := rfl
  rw [← hu]
  exact ite_keeps (m := (recallFrame · d)) (recallFrame_of_regionFrame (u.recallComplete_regionFrame r' d))
    (foldl_keeps (recallFrame · d) _ (fun s h => s.askRecall_recallFrame r h d) _ _)

theorem State.regionAnswer_recallFrame (s : State) (conn host domain id version st digest) (d : State) :
    recallFrame (s.regionAnswer conn host domain id version st digest) d = recallFrame s d :=
  recallFrame_of_regionFrame (s.regionAnswer_regionFrame _ _ _ _ _ _ _ d)

theorem State.modRegion_recallFrame (s : State) (r g) (d : State) : recallFrame (s.modRegion r g) d = recallFrame s d := rfl
theorem State.renameDraft_recallFrame (s : State) (r version) (d : State) : recallFrame (s.renameDraft r version) d = recallFrame s d := rfl

theorem State.regionPublishBy_recallFrame (s : State) (host : Nat) (x : RegionScope) (id version : Nat) (d : State) :
    recallFrame (s.regionPublishBy host x id version) d = recallFrame s d := by
  unfold State.regionPublishBy
  refine ite_keeps (m := (recallFrame · d)) rfl ?_
  split
  · dsimp only
    rw [State.beginRecall_recallFrame, State.modRegion_recallFrame, State.renameDraft_recallFrame]
  · exact s.regionAnswer_recallFrame _ _ _ _ _ _ _ d

theorem State.regionWithdrawn_recallFrame (s : State) (x : RegionScope) (id version : Nat) (d : State) :
    recallFrame (s.regionWithdrawn x id version) d = recallFrame s d := by
  unfold State.regionWithdrawn
  refine ite_keeps (m := (recallFrame · d)) rfl ?_
  split
  · dsimp only
    rw [State.beginRecall_recallFrame, State.regionAnswer_recallFrame]
    rfl
  · exact s.regionAnswer_recallFrame _ _ _ _ _ _ _ d

theorem State.regionReleased_recallFrame (s : State) (x : RegionScope) (id version host : Nat) (d : State) :
    recallFrame (s.regionReleased x id version host) d = recallFrame s d := by
  unfold State.regionReleased
  refine ite_keeps (m := (recallFrame · d)) rfl ?_
  split
  · exact s.regionAnswer_recallFrame _ _ _ _ _ _ _ d
  · rename_i r _
    have hdrop : ∀ st g, recallFrame ((s.dropGrant r host).regionAnswer x.conn host x.domain id version st g) d = recallFrame s d := fun st g => by
      rw [State.regionAnswer_recallFrame, recallFrame_of_regionFrame (s.dropGrant_regionFrame r host d)]
    exact ite_keeps (m := (recallFrame · d)) ((recallFrame_of_regionFrame (State.recallAnswered_regionFrame _ _ _ d)).trans (hdrop _ _))
      (ite_keeps (m := (recallFrame · d)) ((State.beginRecall_recallFrame _ _ _ _ d).trans (hdrop _ _)) (hdrop _ _))

/-! ### Region commands on either path (R273) -/

/-- What a management connection's service touches by itself: its last use and the answer. -/
theorem State.serve_keeps {β : Type} {m : State → β} (s : State) (conn : Nat) (roles : List Nat) (before : Bool) (k : State → Conn → State)
    (ht : m (s.touch conn) = m s) (ho : ∀ (t : State) o, m { t with out := o } = m t) (hk : ∀ t c, m (k t c) = m t) :
    m (s.serve conn roles before k) = m s := by
  have hr : ∀ (t : State) st, m (t.reply conn st []) = m t := fun t st => by
    obtain ⟨o, h⟩ := t.reply_eq conn st []
    rw [h, ho]
  unfold State.serve
  split
  · rfl
  · refine ite_keeps rfl ?_
    dsimp only
    exact ite_keeps ((hr _ _).trans ht) (ite_keeps ((hr _ _).trans ht) (ite_keeps ((hk _ _).trans ht) ((hr _ _).trans ht)))

theorem State.regionCmd_keeps {β : Type} {m : State → β} (s : State) (x : RegionScope) (k : State → State) (ht : ∀ c, m (s.touch c) = m s)
    (ho : ∀ (t : State) o, m { t with out := o } = m t) (hk : ∀ t, m (k t) = m t) : m (s.regionCmd x k) = m s := by
  unfold State.regionCmd
  split
  · exact live_keeps (hk s)
  · refine s.serve_keeps _ _ _ _ (ht _) ho fun t c => ite_keeps (hk t) ?_
    obtain ⟨o, h⟩ := t.reply_eq ‹_› msInvalid []
    rw [h, ho]

/-- What a grant touches: the regions, and the operator's connection. -/
def grantFrame (s t : State) : State :=
  { s with tray := t.tray, array := t.array, island := t.island, free := t.free, mgmt := t.mgmt, out := t.out }

theorem grantFrame_of_regionFrame {s t d : State} (h : regionFrame t d = regionFrame s d) : grantFrame t d = grantFrame s d :=
  (congrArg (grantFrame · d) h :)

end Sys2Proof.Machine
end

section
/-! SUPPORT. Frames of spares, of the tray's flash and pool, of the direct region, of extents and of the tables' upkeep. -/

namespace Sys2Proof.Machine

/-! ### Spares and the event recorder (R349 to R354) -/

def serviceFrame (s t : State) : State := { s with faults := t.faults, recorder := t.recorder, out := t.out }

theorem State.event_serviceFrame (s : State) (name code source detail) (d : State) :
    serviceFrame (s.event name code source detail) d = serviceFrame s d :=
  ite_keeps (m := (serviceFrame · d)) rfl rfl

theorem State.note_serviceFrame (s : State) (name source detail) (d : State) : serviceFrame (s.note name source detail) d = serviceFrame s d :=
  s.event_serviceFrame _ _ _ _ d

theorem State.advise_serviceFrame (s : State) (detail : Nat) (d : State) : serviceFrame (s.advise detail) d = serviceFrame s d := by
  unfold State.advise
  extract_lets u
  have hu : serviceFrame u d = serviceFrame s d := s.event_serviceFrame _ _ _ _ d
  rw [← hu]
  exact ite_keeps (m := (serviceFrame · d)) rfl rfl

theorem State.spend_serviceFrame (s : State) (pool inst : Nat) (d : State) : serviceFrame (s.spend pool inst) d = serviceFrame s d := by
  have hu : serviceFrame (s.countSpare pool inst) d = serviceFrame s d := rfl
  rw [← hu]
  exact ite_keeps (m := (serviceFrame · d)) rfl (ite_keeps (m := (serviceFrame · d)) (State.advise_serviceFrame _ _ d) rfl)

/-- What the self-check of a hash engine touches (R339). -/
def hashFrame (s t : State) : State := { s with island := t.island, faults := t.faults, recorder := t.recorder, out := t.out }

theorem hashFrame_of_serviceFrame {s t d : State} (h : serviceFrame t d = serviceFrame s d) : hashFrame t d = hashFrame s d :=
  (congrArg (hashFrame · d) h :)

theorem State.hashOut_hashFrame (s : State) (out : List Nat) (d : State) : hashFrame (s.hashOut out) d = hashFrame s d := by
  refine foldl_keeps (hashFrame · d) _ (fun s n => ?_) out s
  have hu : hashFrame { s with island := { s.island with shaBad := n :: s.island.shaBad } } d = hashFrame s d := rfl
  rw [← hu, hashFrame_of_serviceFrame (State.spend_serviceFrame _ _ _ d)]
  exact ite_keeps (m := (hashFrame · d)) (hashFrame_of_serviceFrame (State.event_serviceFrame _ _ _ _ _ d)) rfl

theorem State.hashCheck_hashFrame (s : State) (c : SelfCheck) (computes : Bool) (d : State) : hashFrame (s.hashCheck c computes) d = hashFrame s d := by
  unfold State.hashCheck
  split
  · refine ite_keeps (m := (hashFrame · d)) ?_ rfl
    exact ite_keeps (m := (hashFrame · d)) rfl (ite_keeps (m := (hashFrame · d)) (s.hashOut_hashFrame _ d)
      (ite_keeps (m := (hashFrame · d)) (s.hashOut_hashFrame _ d) rfl))
  · rfl

/-- What REGION_PUBLISH touches: a recall, after the self-check of its digest. -/
def publishFrame (s t : State) : State := { recallFrame s t with faults := t.faults, recorder := t.recorder }

theorem publishFrame_of_recallFrame {s t d : State} (h : recallFrame t d = recallFrame s d) : publishFrame t d = publishFrame s d :=
  (congrArg (publishFrame · d) h :)

theorem publishFrame_of_hashFrame {s t d : State} (h : hashFrame t d = hashFrame s d) : publishFrame t d = publishFrame s d :=
  (congrArg (publishFrame · d) h :)

/-- What the end of a host's time to answer a recall touches (R275). -/
def timeoutFrame (s t : State) : State :=
  { s with tray := t.tray, array := t.array, island := t.island, free := t.free, out := t.out, recorder := t.recorder }

theorem timeoutFrame_of_regionFrame {s t d : State} (h : regionFrame t d = regionFrame s d) : timeoutFrame t d = timeoutFrame s d :=
  (congrArg (timeoutFrame · d) h :)

theorem State.note_timeoutFrame (s : State) (name source detail) (d : State) : timeoutFrame (s.note name source detail) d = timeoutFrame s d :=
  ite_keeps (m := (timeoutFrame · d)) rfl rfl

theorem State.recallTimeout_timeoutFrame (s : State) (id version host : Nat) (d : State) :
    timeoutFrame (s.recallTimeout id version host) d = timeoutFrame s d := by
  unfold State.recallTimeout
  split
  · rfl
  · refine ite_keeps (m := (timeoutFrame · d)) rfl ?_
    dsimp only
    rw [timeoutFrame_of_regionFrame (State.recallAnswered_regionFrame _ _ _ d), State.note_timeoutFrame,
      timeoutFrame_of_regionFrame (s.dropGrant_regionFrame _ _ d)]

/-! ### The tray's flash (R277, R281) -/

def ssdFrame (s t : State) : State := { s with tray := t.tray, ids := t.ids, queues := t.queues, txns := t.txns, out := t.out }

theorem State.ssdIssue_ssdFrame (s : State) (group ssd cls : Nat) (kind : TxnKind) (n : NvmeCmd) (d : State) :
    ssdFrame (s.ssdIssue group ssd cls kind n) d = ssdFrame s d := by
  unfold State.ssdIssue
  split
  · refine ite_keeps (m := (ssdFrame · d)) rfl ?_
    rename_i c p _
    obtain ⟨q, hq⟩ := (s.nvmeIssue c p s.ids n).enqueue_eq (100 + c) wheyFn cls (n.data.elim 64 (·.length))
    rw [hq]
    exact ite_keeps (m := fun x => ssdFrame (State.openTxn { x with queues := q } (.nvme c p) kind 0 none (some n)) d) rfl rfl
  · rfl

theorem State.destage_ssdFrame (s : State) (id : Nat) (d : State) : ssdFrame (s.destage id) d = ssdFrame s d := by
  unfold State.destage
  split
  · rfl
  · refine ite_keeps (m := (ssdFrame · d)) rfl ?_
    split
    · rfl
    · dsimp only
      rw [foldl_keeps (ssdFrame · d) _ fun s t => s.ssdIssue_ssdFrame _ _ _ _ _ d, foldl_keeps (ssdFrame · d) _ fun s t => s.ssdIssue_ssdFrame _ _ _ _ _ d]
      rfl

theorem State.readGrain_ssdFrame (s : State) (o : PoolObj) (x : Nat) (who : TrayGet) (rebuild : Bool) (d : State) :
    ssdFrame (s.readGrain o x who rebuild) d = ssdFrame s d :=
  ite_keeps (m := (ssdFrame · d))
    (foldl_keeps (ssdFrame · d) _ (fun s _ => ite_keeps (m := (ssdFrame · d)) rfl (s.ssdIssue_ssdFrame _ _ _ _ _ d)) _ _)
    (s.ssdIssue_ssdFrame _ _ _ _ _ d)

/-- A line of an object is read or written where the object lies, or waits for its grains (R276, R277). -/
theorem State.getObject_ssdFrame (s : State) (o : PoolObj) (host line : Nat) (write : Option Bytes) (d : State) :
    ssdFrame (s.getObject o (.line host line write)) d = ssdFrame s d := by
  refine ite_keeps (m := (ssdFrame · d)) ?_ (ite_keeps (m := (ssdFrame · d)) rfl
    (foldl_keeps (ssdFrame · d) _ (fun s k => s.readGrain_ssdFrame _ _ _ _ d) _ _))
  cases write <;> exact ite_keeps (m := (ssdFrame · d)) rfl rfl

/-- What the failure of an SSD touches (R281). -/
def ssdFailFrame (s t : State) : State := { s with tray := t.tray, faults := t.faults, recorder := t.recorder, out := t.out }

theorem ssdFailFrame_of_serviceFrame {s t d : State} (h : serviceFrame t d = serviceFrame s d) : ssdFailFrame t d = ssdFailFrame s d :=
  (congrArg (ssdFailFrame · d) h :)

theorem State.ssdFails_ssdFailFrame (s : State) (pair : Bool) (group ssd : Nat) (d : State) :
    ssdFailFrame (s.ssdFails pair group ssd) d = ssdFailFrame s d := by
  have spend : ∀ (t : State) a b, ssdFailFrame (t.spend a b) d = ssdFailFrame t d := fun t a b => ssdFailFrame_of_serviceFrame (t.spend_serviceFrame a b d)
  have advise : ∀ (t : State) a, ssdFailFrame (t.advise a) d = ssdFailFrame t d := fun t a => ssdFailFrame_of_serviceFrame (t.advise_serviceFrame a d)
  unfold State.ssdFails
  refine ite_keeps (m := (ssdFailFrame · d)) rfl (ite_keeps (m := (ssdFailFrame · d)) ?_ (ite_keeps (m := (ssdFailFrame · d)) rfl ?_))
  · exact ite_keeps (m := (ssdFailFrame · d)) ((spend _ _ _).trans rfl) ((advise _ _).trans rfl)
  · refine ite_keeps (m := (ssdFailFrame · d)) ((spend _ _ _).trans rfl) ((advise _ _).trans ?_)
    exact (ssdFailFrame_of_serviceFrame (State.note_serviceFrame _ _ _ _ d)).trans rfl

def pairFrame (s t : State) : State := { s with tray := t.tray }

theorem State.pairRebuilt_pairFrame (s : State) (d : State) : pairFrame s.pairRebuilt d = pairFrame s d :=
  ite_keeps (m := (pairFrame · d)) rfl rfl

/-! ### Loads and stores of CXL hosts (R272, R276) -/

def poolFrame (s t : State) : State :=
  { s with tray := t.tray, array := t.array, ids := t.ids, ports := t.ports, queues := t.queues, txns := t.txns, recorder := t.recorder, out := t.out }

theorem poolFrame_of_ssdFrame {s t d : State} (h : ssdFrame t d = ssdFrame s d) : poolFrame t d = poolFrame s d := (congrArg (poolFrame · d) h :)

theorem State.note_poolFrame (s : State) (name source detail) (d : State) : poolFrame (s.note name source detail) d = poolFrame s d :=
  ite_keeps (m := (poolFrame · d)) rfl rfl

theorem State.hitsFail_poolFrame (s : State) (tag : Nat) (ps : List Nat) (d : State) : poolFrame (s.hitsFail tag ps) d = poolFrame s d :=
  foldl_keeps (poolFrame · d) _ (fun s p => (show poolFrame (s.hitFails tag p _ tag) d = poolFrame (s.note _ _ tag) d from rfl).trans
    (s.note_poolFrame _ _ _ d)) _ _

theorem State.reachFalse_poolFrame (s : State) (r : Region) (host off len : Nat) (d : State) : poolFrame (s.reachFalse r host off len) d = poolFrame s d :=
  foldl_keeps (poolFrame · d) _ (fun s _ => s.hitsFail_poolFrame _ _ d) _ _

theorem State.poolAccess_poolFrame (s : State) (host line : Nat) (write : Option Bytes) (d : State) :
    poolFrame (s.poolAccess host line write) d = poolFrame s d := by
  unfold State.poolAccess
  dsimp only
  split
  · rfl
  · refine ite_keeps (m := (poolFrame · d)) rfl ?_
    split
    · exact poolFrame_of_ssdFrame (s.getObject_ssdFrame _ _ _ _ d)
    · rfl
    · rfl

theorem State.poolMem_poolFrame (s : State) (host id version line : Nat) (write : Option Bytes) (d : State) :
    poolFrame (s.poolMem host id version line write) d = poolFrame s d := by
  unfold State.poolMem
  refine ite_keeps (m := (poolFrame · d)) rfl (ite_keeps (m := (poolFrame · d)) (s.poolAccess_poolFrame _ _ _ d) ?_)
  split
  · rfl
  · rename_i r _
    extract_lets ok u
    have hu : poolFrame u d = poolFrame s d := s.reachFalse_poolFrame r host _ _ d
    rw [← hu]
    refine ite_keeps (m := (poolFrame · d)) rfl ?_
    cases write <;> rfl

/-! ### Extents (R264, R266) -/

def capacityFrame (s t : State) : State :=
  { s with extents := t.extents, grainVers := t.grainVers, tray := t.tray, island := t.island, free := t.free, recorder := t.recorder, out := t.out }

theorem State.note_capacityFrame (s : State) (name source detail) (d : State) : capacityFrame (s.note name source detail) d = capacityFrame s d :=
  ite_keeps (m := (capacityFrame · d)) rfl rfl

theorem State.emitOn_capacityFrame (s : State) (port : PortId) (o : Output) (d : State) : capacityFrame (s.emitOn port o) d = capacityFrame s d :=
  ite_keeps (m := (capacityFrame · d)) rfl rfl

theorem State.capacityTaken_capacityFrame (s : State) (cluster base grains : Nat) (d : State) :
    capacityFrame (s.capacityTaken cluster base grains) d = capacityFrame s d := by
  unfold State.capacityTaken
  split
  · refine ite_keeps (m := (capacityFrame · d)) ?_ rfl
    exact (congrArg (capacityFrame · d) (State.makeKey_keysFrame _ _ d) :)
  · rfl

theorem State.addCapacity_capacityFrame (s : State) (cluster tag base grains : Nat) (d : State) :
    capacityFrame (s.addCapacity cluster tag base grains) d = capacityFrame s d := by
  unfold State.addCapacity
  refine ite_keeps (m := (capacityFrame · d)) rfl ?_
  split
  · exact (State.note_capacityFrame _ _ _ _ d).trans (s.emitOn_capacityFrame _ _ d)
  · exact (State.emitOn_capacityFrame _ _ _ d).trans rfl

def drainFrame (s t : State) : State := { s with extents := t.extents, ports := t.ports, queues := t.queues, out := t.out }

theorem State.drainEnd_drainFrame (s : State) (id : Nat) (d : State) : drainFrame (s.drainEnd id) d = drainFrame s d := by
  unfold State.drainEnd
  split
  · rename_i e _
    refine ite_keeps (m := (drainFrame · d)) ?_ rfl
    have hu : drainFrame (s.modExtent id fun e => { e with st := .revoked, since := s.now }) d = drainFrame s d := rfl
    rw [← hu]
    exact ite_keeps (m := (drainFrame · d)) (congrArg (drainFrame · d) (State.send_sentFrame _ _ _ _ _ _ _ _ _ d) :)
      (congrArg (drainFrame · d) (State.emitOn_sentFrame _ _ _ d) :)
  · rfl

/-! ### The metadata copy (R297) -/

def rebuildFrame (s t : State) : State :=
  { s with groups := t.groups, dir := t.dir, recs := t.recs, seqs := t.seqs, tables := t.tables, array := t.array, extents := t.extents,
           recorder := t.recorder }

theorem State.rebuildEnd_rebuildFrame (s : State) (n : Nat) (d : State) : rebuildFrame (s.rebuildEnd n) d = rebuildFrame s d := by
  unfold State.rebuildEnd
  split
  · rfl
  · refine ite_keeps (m := (rebuildFrame · d)) rfl (ite_keeps (m := (rebuildFrame · d)) rfl rfl)

/-! ### The direct region (R198 to R201) -/

def lineReadFrame (s t : State) : State := { s with directBad := t.directBad, viral := t.viral, recorder := t.recorder, out := t.out }

def lineWriteFrame (s t : State) : State :=
  { s with direct := t.direct, directOpen := t.directOpen, directBad := t.directBad, recorder := t.recorder, out := t.out }

theorem State.cxlRead_lineReadFrame (s : State) (line : Nat) (checkOk viral : Bool) (d : State) :
    lineReadFrame (s.cxlRead line checkOk viral) d = lineReadFrame s d :=
  ite_keeps (m := (lineReadFrame · d)) rfl (ite_keeps (m := (lineReadFrame · d)) rfl rfl)

theorem State.cxlWrite_lineWriteFrame (s : State) (line : Nat) (data : Bytes) (d : State) :
    lineWriteFrame (s.cxlWrite line data) d = lineWriteFrame s d := by
  refine ite_keeps (m := (lineWriteFrame · d)) rfl (ite_keeps (m := (lineWriteFrame · d)) ?_ rfl)
  unfold State.cxlFails
  rw [Bool.or_false]
  exact ite_keeps (m := (lineWriteFrame · d)) rfl rfl

end Sys2Proof.Machine
end

section
/-! SUPPORT. Frames of curds, passes and sweeps (07), and of the ends of a shutdown and of a tenant's work (09, 14). -/

namespace Sys2Proof.Machine

/-! ### Curds and passes (R145 to R154, R228) -/

def curdFrame (s t : State) : State :=
  { s with calendar := t.calendar, curds := t.curds, engines := t.engines, ids := t.ids, passes := t.passes, reqs := t.reqs,
           telemetry := t.telemetry }

theorem State.takeEngine_curdFrame (s : State) (cluster slot owners) (d : State) : curdFrame (s.takeEngine cluster slot owners) d = curdFrame s d := rfl

theorem State.startAlone_curdFrame (s : State) (r q v m f i p) (d : State) : curdFrame (s.startAlone r q v m f i p) d = curdFrame s d := by
  refine foldl_keeps (curdFrame · d) _ ?_ _ s
  intros
  rfl

theorem State.startParts_curdFrame (s : State) (r : Req) (d : State) : curdFrame (s.startParts r) d = curdFrame s d := by
  unfold State.startParts
  split
  · rfl
  · exact ite_keeps (m := (curdFrame · d)) rfl
      (foldl_keeps (curdFrame · d) _ (fun s _ => ite_keeps (m := (curdFrame · d)) (s.startAlone_curdFrame _ _ _ _ _ _ _ d) rfl) _ _)

theorem State.goAlone_curdFrame (s : State) (x : Member) (d : State) : curdFrame (s.goAlone x) d = curdFrame s d := by
  unfold State.goAlone
  dsimp only
  split
  · rw [State.startParts_curdFrame]
    rfl
  · rfl

theorem State.goAlones_curdFrame (l : List Member) (s : State) (d : State) : curdFrame (l.foldl (fun s x => s.goAlone x) s) d = curdFrame s d :=
  foldl_keeps (curdFrame · d) _ (fun s x => s.goAlone_curdFrame x d) l s

theorem State.runCurd_curdFrame (s : State) (c : Curd) (ms cluster e) (d : State) : curdFrame (s.runCurd c ms cluster e) d = curdFrame s d := by
  unfold State.runCurd State.bookCurd
  dsimp only
  split <;> rfl

theorem State.closeCurd_curdFrame (s : State) (c : Curd) (d : State) : curdFrame (s.closeCurd c) d = curdFrame s d := by
  unfold State.closeCurd
  split
  · rfl
  · split
    · exact State.goAlone_curdFrame _ _ d
    · dsimp only
      split
      · exact s.runCurd_curdFrame _ _ _ _ d
      · exact ite_keeps (m := (curdFrame · d)) ((State.goAlones_curdFrame _ _ d).trans (s.runCurd_curdFrame _ _ _ _ d)) (State.goAlones_curdFrame _ _ d)

theorem State.beginCurd_curdFrame (s : State) (c : Curd) (d : State) : curdFrame (s.beginCurd c) d = curdFrame s d := by
  unfold State.beginCurd
  dsimp only
  split
  · rfl
  · refine ite_keeps (m := (curdFrame · d)) rfl ?_
    rw [foldl_keeps (curdFrame · d) _ fun s k => s.takeEngine_curdFrame _ _ _ d]
    rw [foldl_keeps (curdFrame · d) (fun s x => s.markCurd x) fun _ _ => rfl]
    refine foldl_keeps (curdFrame · d) _ ?_ _ s
    intros
    rfl

theorem State.placeQueued_curdFrame (s : State) (id : Nat) (d : State) : curdFrame (s.placeQueued id) d = curdFrame s d := by
  unfold State.placeQueued
  split
  · rfl
  · split <;> rfl

theorem State.brineIdle_curdFrame (s : State) (d : State) : curdFrame s.brineIdle d = curdFrame s d := rfl

theorem State.placeWork_curdFrame (s : State) (d : State) : curdFrame s.placeWork d = curdFrame s d := by
  unfold State.placeWork
  extract_lets u
  have hu : curdFrame u d = curdFrame s d := by
    refine foldl_keeps (curdFrame · d) _ (fun s k => ?_) _ s
    dsimp only
    rw [foldl_keeps (curdFrame · d) _ fun s p => s.placeQueued_curdFrame _ d, foldl_keeps (curdFrame · d) _ fun s c => s.beginCurd_curdFrame c d]
  exact (u.brineIdle_curdFrame d).trans hu

theorem State.afterJoin_curdFrame (s : State) (m : ModelRec) (mode id : Nat) (d : State) : curdFrame (s.afterJoin m mode id) d = curdFrame s d := by
  unfold State.afterJoin
  split
  · rfl
  · exact ite_keeps (m := (curdFrame · d)) ((State.placeWork_curdFrame _ d).trans (s.closeCurd_curdFrame _ d)) (ite_keeps (m := (curdFrame · d)) rfl rfl)

theorem State.curdOffer_curdFrame (s : State) (r : Req) (i : Nat) (d : State) : curdFrame (s.curdOffer r i) d = curdFrame s d := by
  unfold State.curdOffer
  split
  · refine ite_keeps (m := (curdFrame · d)) rfl ?_
    extract_lets key x fresh
    have hfresh : ∀ t : State, curdFrame (fresh t) d = curdFrame t d := fun t => by
      dsimp only [fresh]
      rw [State.afterJoin_curdFrame]
      rfl
    split
    · exact hfresh s
    · refine ite_keeps (m := (curdFrame · d)) ?_ ?_
      · rw [State.afterJoin_curdFrame]
        rfl
      · rw [State.placeWork_curdFrame, hfresh, State.closeCurd_curdFrame]
  · rfl

/-- What the end of a curd's window, or of its latest time, touches (R148). -/
def closingFrame (s t : State) : State := { s with curds := t.curds }

theorem State.curdWindowEnd_closingFrame (s : State) (c : Curd) (d : State) : closingFrame (s.curdWindowEnd c) d = closingFrame s d :=
  ite_keeps (m := (closingFrame · d)) rfl rfl

theorem State.curdLatestClose_closingFrame (s : State) (c : Curd) (d : State) : closingFrame (s.curdLatestClose c) d = closingFrame s d :=
  ite_keeps (m := (closingFrame · d)) rfl rfl

def resumeFrame (s t : State) : State := { s with passes := t.passes, engines := t.engines }

theorem State.takeEngine_resumeFrame (s : State) (cluster slot owners) (d : State) :
    resumeFrame (s.takeEngine cluster slot owners) d = resumeFrame s d := rfl

theorem State.passResume_resumeFrame (s : State) (id slot : Nat) (d : State) : resumeFrame (s.passResume id slot) d = resumeFrame s d := by
  unfold State.passResume
  split
  · rfl
  · refine ite_keeps (m := (resumeFrame · d)) rfl ?_
    dsimp only
    rw [foldl_keeps (resumeFrame · d) _ fun s e => s.takeEngine_resumeFrame _ _ _ d]
    rfl

/-- A read that finds nothing changes nothing. -/
theorem State.readFaults_nil (s : State) : s.readFaults [] = s := ite_self (c := s.inService = true) s

/-! ### Sweeps and ends (R99, R213, R331) -/

def sweepFrame (s t : State) : State := { s with recs := t.recs, weights := t.weights, tray := t.tray }

theorem State.sweep_sweepFrame (s : State) (weight : Bool) (id layer : Nat) (d : State) : sweepFrame (s.sweep weight id layer) d = sweepFrame s d :=
  ite_keeps (m := (sweepFrame · d)) rfl (ite_keeps (m := (sweepFrame · d)) rfl rfl)

def holeFrame (s t : State) : State := { s with array := t.array }

theorem State.holeRemoval_holeFrame (s : State) (tag : Nat) (d : State) : holeFrame (s.holeRemoval tag) d = holeFrame s d :=
  ite_keeps (m := (holeFrame · d)) rfl (ite_keeps (m := (holeFrame · d)) rfl rfl)

def shutdownFrame (s t : State) : State := { s with fns := t.fns, out := t.out }

theorem State.record_shutdownFrame (s : State) (fn attach opcode slotSeq tag status result fl) (d : State) :
    shutdownFrame (s.record fn attach opcode slotSeq tag status result fl) d = shutdownFrame s d := by
  unfold State.record
  split
  · rfl
  · split <;> rfl

theorem State.attachRecord_shutdownFrame (s : State) (fn attach tag status result) (d : State) :
    shutdownFrame (s.attachRecord fn attach tag status result) d = shutdownFrame s d := by
  unfold State.attachRecord
  split <;> rfl

theorem State.modFn_shutdownFrame (s : State) (n g) (d : State) : shutdownFrame (s.modFn n g) d = shutdownFrame s d := rfl

theorem State.shutdownEnd_shutdownFrame (s : State) (fn : Nat) (d : State) : shutdownFrame (s.shutdownEnd fn) d = shutdownFrame s d := by
  unfold State.shutdownEnd
  split
  · rfl
  · split
    · rfl
    · rename_i x _
      refine ite_keeps (m := (shutdownFrame · d)) rfl ?_
      extract_lets u v
      have hu : shutdownFrame u d = shutdownFrame s d := ite_keeps (m := (shutdownFrame · d)) (s.record_shutdownFrame _ _ _ _ _ _ _ _ d) rfl
      have hv : shutdownFrame v d = shutdownFrame s d := (u.modFn_shutdownFrame _ _ d).trans hu
      split
      · rw [State.modFn_shutdownFrame, hv]
      · rw [State.modFn_shutdownFrame, State.attachRecord_shutdownFrame, hv]

def drainedFrame (s t : State) : State :=
  { s with tenants := t.tenants, array := t.array, engines := t.engines, island := t.island, staging := t.staging, txns := t.txns }

theorem State.removalDrained_drainedFrame (s : State) (tenant : Nat) (d : State) : drainedFrame (s.removalDrained tenant) d = drainedFrame s d := by
  unfold State.removalDrained
  split
  · rfl
  · exact ite_keeps (m := (drainedFrame · d)) rfl rfl

end Sys2Proof.Machine
end

section
/-! CLAIMS. -/

namespace Sys2Proof.Machine

/-! ### Each command's frame -/

/-- A region command, on a mailbox or on a connection, under a frame that its own effect keeps. -/
theorem changesOnly_regionCmd {c : Instr} {f : State → State → State} {x : RegionScope} {k : State → State} (hf : ∀ t, f t t = t)
    (hx : ∀ s, exec c s = .next (s.regionCmd x k)) (ht : ∀ (s : State) n d, f (s.touch n) d = f s d)
    (ho : ∀ (s : State) o d, f { s with out := o } d = f s d) (hk : ∀ s d, f (k s) d = f s d) : ChangesOnly c f :=
  changesOnly_of hf hx fun s d => s.regionCmd_keeps (m := (f · d)) x k (fun n => ht s n d) (fun t o => ho t o d) fun t => hk t d

theorem changesOnly_regionOpen (a b c e g) : ChangesOnly (.regionOpen a b c e g) grantFrame :=
  changesOnly_regionCmd (fun _ => rfl) (fun _ => rfl) (fun _ _ _ => rfl) (fun _ _ _ => rfl) fun s d =>
    grantFrame_of_regionFrame (s.regionOpenFor_regionFrame _ _ _ _ _ d)

theorem changesOnly_regionGrant (a b c e) : ChangesOnly (.regionGrant a b c e) grantFrame :=
  changesOnly_regionCmd (fun _ => rfl) (fun _ => rfl) (fun _ _ _ => rfl) (fun _ _ _ => rfl) fun s d =>
    grantFrame_of_regionFrame (s.regionGrantTo_regionFrame _ _ _ _ d)

theorem changesOnly_regionRelease (a b c e) : ChangesOnly (.regionRelease a b c e) recallFrame :=
  changesOnly_regionCmd (fun _ => rfl) (fun _ => rfl) (fun _ _ _ => rfl) (fun _ _ _ => rfl) fun s d =>
    s.regionReleased_recallFrame _ _ _ _ d

theorem changesOnly_regionWithdraw (a b c) : ChangesOnly (.regionWithdraw a b c) recallFrame :=
  changesOnly_regionCmd (fun _ => rfl) (fun _ => rfl) (fun _ _ _ => rfl) (fun _ _ _ => rfl) fun s d =>
    s.regionWithdrawn_recallFrame _ _ _ d

theorem changesOnly_regionPublish (a b c e g) : ChangesOnly (.regionPublish a b c e g) publishFrame :=
  changesOnly_regionCmd (fun _ => rfl) (fun _ => rfl) (fun _ _ _ => rfl) (fun _ _ _ => rfl) fun s d =>
    (publishFrame_of_recallFrame (State.regionPublishBy_recallFrame _ _ _ _ _ d)).trans (publishFrame_of_hashFrame (s.hashCheck_hashFrame _ _ d))

theorem changesOnly_poolCxlMemAccess (a b c e g) : ChangesOnly (.poolCxlMemAccess a b c e g) poolFrame :=
  changesOnly_live (fun _ => rfl) (fun _ => rfl) fun s d => ite_keeps (m := (poolFrame · d)) rfl (s.poolMem_poolFrame _ _ _ _ _ d)

theorem changesOnly_addCapacity (a b c e) : ChangesOnly (.addCapacity a b c e) capacityFrame :=
  changesOnly_live (fun _ => rfl) (fun _ => rfl) fun s d =>
    ite_keeps (m := (capacityFrame · d)) (s.capacityTaken_capacityFrame _ _ _ d) (s.addCapacity_capacityFrame _ _ _ _ d)

theorem changesOnly_cxlMemRead (a b c) : ChangesOnly (.cxlMemRead a b c) lineReadFrame := by
  intro s t h
  change execCxlMemRead a b c s = .next t at h
  unfold execCxlMemRead at h
  split at h
  · cases h; rfl
  · split at h
    · cases h
    · cases h
      split
      · exact s.cxlRead_lineReadFrame a b c _
      · rfl

theorem changesOnly_cxlMemWrite (a b) : ChangesOnly (.cxlMemWrite a b) lineWriteFrame := by
  intro s t h
  change execCxlMemWrite a b s = .next t at h
  unfold execCxlMemWrite at h
  split at h
  · cases h; rfl
  · split at h
    · cases h
    · cases h
      split
      · exact s.cxlWrite_lineWriteFrame a b _
      · rfl

/-- The end of a copy's time in staging, where nothing waits for its grains (R107). -/
theorem stagingTtlEnd_changes {n : Nat} {s t : State} (h : exec (.stagingTtlEnd n) s = .next t) (hd : ∀ e ∈ s.dir, e.refetch = [])
    (hr : ∀ x ∈ s.reqs, x.settles = false) : t = { s with staging := t.staging } := by
  cases (show Host.Outcome.next (s.live fun s => s.stagingTtl n) = .next t from h)
  refine s.live_cases (P := fun t => t = { s with staging := t.staging }) _ rfl ?_
  rw [State.stagingTtl_idle n hd hr]

/-- Settles O60, one frame for each command: what its operations leave unchanged, with `d` in place of the parts that they may change. -/
theorem trayAndWalkFrames : Obligations.TrayAndWalkFrames := by
  unfold Obligations.TrayAndWalkFrames
  exact ⟨fun _ => changesOnly_live (fun _ => rfl) (fun _ => rfl) fun s d => ite_keeps (m := (ssdFrame · d)) (s.destage_ssdFrame _ d) rfl,
    changesOnly_live (fun _ => rfl) (fun _ => rfl) fun s d => s.pairRebuilt_pairFrame d,
    fun _ _ _ => changesOnly_live (fun _ => rfl) (fun _ => rfl) fun s d => s.ssdFails_ssdFailFrame _ _ _ d,
    changesOnly_regionOpen, changesOnly_regionGrant, changesOnly_regionRelease,
    fun _ _ _ _ => changesOnly_live (fun _ => rfl) (fun _ => rfl) fun s d => grantFrame_of_regionFrame (s.backInvalidate_regionFrame _ _ _ _ d),
    changesOnly_regionPublish, changesOnly_regionWithdraw,
    fun _ _ _ => changesOnly_live (fun _ => rfl) (fun _ => rfl) fun s d => s.recallTimeout_timeoutFrame _ _ _ d,
    changesOnly_poolCxlMemAccess, changesOnly_cxlMemRead, changesOnly_cxlMemWrite, changesOnly_addCapacity,
    fun _ => changesOnly_live (fun _ => rfl) (fun _ => rfl) fun s d => s.drainEnd_drainFrame _ d,
    fun _ => changesOnly_live (fun _ => rfl) (fun _ => rfl) fun s d => s.keepaliveSend_sentFrame _ d,
    fun _ => changesOnly_live (fun _ => rfl) (fun _ => rfl) fun s d => s.rebuildEnd_rebuildFrame _ d,
    fun _ => changesOnly_live (fun _ => rfl) (fun _ => rfl) fun s d => s.holeRemoval_holeFrame _ d,
    fun _ _ _ => stagingTtlEnd_changes,
    fun _ _ _ => changesOnly_live (fun _ => rfl) (fun _ => rfl) fun s d => s.sweep_sweepFrame _ _ _ d,
    fun _ => changesOnly_live (fun _ => rfl) (fun _ => rfl) fun s d => s.shutdownEnd_shutdownFrame _ d,
    fun p e => changesOnly_live (g := fun s => s.passResume p e) (fun _ => rfl) (fun s => by rw [exec, execPassResume, State.readFaults_nil])
      fun s d => s.passResume_resumeFrame _ _ d,
    fun _ _ => changesOnly_live (fun _ => rfl) (fun _ => rfl) fun s d =>
      option_elim_keeps (m := (curdFrame · d)) _ fun r => s.curdOffer_curdFrame r _ d,
    fun _ => changesOnly_live (fun _ => rfl) (fun _ => rfl) fun s d =>
      option_elim_keeps (m := (closingFrame · d)) _ fun c => s.curdWindowEnd_closingFrame c d,
    fun _ => changesOnly_live (fun _ => rfl) (fun _ => rfl) fun s d =>
      option_elim_keeps (m := (closingFrame · d)) _ fun c => s.curdLatestClose_closingFrame c d,
    fun _ => changesOnly_live (fun _ => rfl) (fun _ => rfl) fun s d => s.removalDrained_drainedFrame _ d⟩

end Sys2Proof.Machine
end

section
/-! SUPPORT. The directory (03): what its operations leave of the links that they speak on, and what they leave of its entries. -/

namespace Sys2Proof.Machine

/-! ### The links that directory messages leave on (R252, R255) -/

/-- A port but for what a sent frame changes of it. -/
def Port.line (p : Port) : Port := { p with txSeq := 0, buffer := [], lastTx := 0, ownerKeys := [] }

/-- What the directory, its frames and the storage under it never touch, the ports' lines with it. -/
def State.linked (s : State) : State := { s.held with ports := s.ports.map Port.line }

theorem State.held_of_linked {s t : State} (h : t.linked = s.linked) : t.held = s.held :=
  congrArg (fun x : State => ({ x with ports := [] } : State)) h

theorem State.linked_of_stored {s t : State} (h : t.stored = s.stored) : t.linked = s.linked := (congrArg State.linked h :)
theorem State.linked_of_searched {s t : State} (h : t.searched = s.searched) : t.linked = s.linked := (congrArg State.linked h :)

/-- A change of elements that a reading does not see is not seen in a list of readings. -/
theorem map_mapIf_same {α β : Type} {f : α → β} {p : α → Bool} {g : α → α} (h : ∀ x, f (g x) = f x) (l : List α) : (mapIf p g l).map f = l.map f := by
  simp only [mapIf, List.map_map]
  refine List.map_congr_left fun x _ => ?_
  simp only [Function.comp]
  split
  · exact h x
  · rfl

theorem Port.deriveKey_line (p : Port) (h : Hdr) : (p.deriveKey h).line = p.line := by
  unfold Port.deriveKey; dsimp only; split <;> rfl

theorem State.modPort_linked (s : State) (q : PortId) {g : Port → Port} (h : ∀ p, (g p).line = p.line) : (s.modPort q g).linked = s.linked := by
  simp only [State.linked, State.modPort, map_mapIf_same h]; rfl

@[simp] theorem State.note_linked (s : State) (a) (b) (c) : (s.note a b c).linked = s.linked := State.linked_of_stored (by simp)
@[simp] theorem State.modDir_linked (s : State) (a) (b) : (s.modDir a b).linked = s.linked := rfl
@[simp] theorem State.dropKeyRow_linked (s : State) (a) : (s.dropKeyRow a).linked = s.linked := rfl
@[simp] theorem State.openTxn_linked (s : State) (a) (b) (c) (d) (e) : (s.openTxn a b c d e).linked = s.linked := rfl

@[simp] theorem State.enqueue_linked (s : State) (a) (b) (c) (d) : (s.enqueue a b c d).linked = s.linked := by
  obtain ⟨q, h⟩ := s.enqueue_eq a b c d; rw [h]; rfl

@[simp] theorem State.sendFrame_linked (s : State) (a) (b) : (s.sendFrame a b).linked = s.linked := by
  unfold State.sendFrame
  split
  · rfl
  · refine ite_keeps (m := State.linked) rfl ?_
    dsimp only
    rw [State.modPort_linked _ _ fun p => ?_, State.enqueue_linked]
    · split <;> rfl
    · exact (Port.deriveKey_line p _ :)

@[simp] theorem State.send_linked (s : State) (a) (b) (c) (d) (e) (f) (g) (h) : (s.send a b c d e f g h).linked = s.linked := s.sendFrame_linked _ _

@[simp] theorem State.sendRelease_linked (s : State) (a) (b) : (s.sendRelease a b).linked = s.linked := by
  unfold State.sendRelease; split <;> simp

@[simp] theorem State.freeSlot_linked (s : State) (e) : (s.freeSlot e).linked = s.linked := by
  have h : ((e.map.map Prod.snd).foldl (fun s r => s.unrefRec r) s).linked = s.linked :=
    foldl_keeps State.linked _ (fun s p => State.linked_of_stored (by simp)) _ _
  unfold State.freeSlot; exact h

theorem State.portIssues_of_linked {s t : State} (h : t.linked = s.linked) (p : PortId) : t.portIssues p = s.portIssues p := by
  have read : ∀ u : State, u.portIssues p = (match (u.ports.map Port.line).find? fun q => q.id == p with
      | some q => !q.resetting && (q.st == .up || (q.st == .securing && (match p with
          | .asvis _ => true
          | .cxl _ => false
          | .nvme _ _ => false)))
      | none => false) := by
    intro u
    have hl : ((fun q : Port => q.id == p) ∘ Port.line) = fun q => q.id == p := rfl
    rw [List.find?_map, hl]
    unfold State.portIssues State.port?
    cases u.ports.find? fun q => q.id == p <;> rfl
  rw [read, read, show t.ports.map Port.line = s.ports.map Port.line from congrArg State.ports h]

theorem State.slotFilled_of_linked {s t : State} (h : t.linked = s.linked) (n : Nat) : t.slotFilled n = s.slotFilled n :=
  (congrArg (State.slotFilled · n) h :)

/-! ### References that end (R48, R57, R69) -/

section
variable {P : State → Prop} (hmod : ∀ t slot g, (∀ e : DirEntry, (g e).slot = e.slot ∧ (g e).st = e.st) → P t → P (t.modDir slot g))
  (hsend : ∀ t d e, P t → P (t.sendRelease d e)) (hfree : ∀ t e, P t → P (t.freeSlot e))
include hmod hsend hfree

/-- The end of a reference counts, tells other homes and frees slots, and so keeps what these three keep. -/
theorem State.releaseRef_holds (n : Nat) : ∀ (s : State) (a : Nat), P s → P (State.releaseRef n s a) := by
  induction n with
  | zero => intro s a h; exact h
  | succ n ih =>
    intro s a h
    have parent : ∀ (t : State) (o : Option DirEntry), P t → P (match o with
        | some p => State.releaseRef n t p.slot
        | none => t) := by
      intro t o ht
      cases o with
      | none => exact ht
      | some p => exact ih t p.slot ht
    have told : ∀ (t : State) (c : Prop) [Decidable c] d e, P t → P (if c then t else t.sendRelease d e) ∧ P (if c then t.sendRelease d e else t) := by
      intro t c _ d e ht
      constructor <;> split
      · exact ht
      · exact hsend _ _ _ ht
      · exact hsend _ _ _ ht
      · exact ht
    unfold State.releaseRef
    split
    · exact h
    · rename_i e _
      extract_lets n s1
      have h1 : P s1 := hmod _ _ _ (fun _ => ⟨rfl, rfl⟩) h
      split
      · exact h1
      split
      · split
        · split
          · exact hmod _ _ _ (fun _ => ⟨rfl, rfl⟩) (hsend _ _ _ h1)
          · exact h1
        split
        · exact h1
        · exact parent _ _ (hfree _ _ (told _ _ _ _ h1).2)
      · split
        · exact h1
        · exact parent _ _ (hfree _ _ (told _ _ _ _ h1).1)

theorem State.freeIdle_holds {s : State} (a : Nat) (h : P s) : P (s.freeIdle a) := by
  unfold State.freeIdle
  split
  · split
    · exact State.releaseRef_holds hmod hsend hfree _ _ _ (hmod _ _ _ (fun _ => ⟨rfl, rfl⟩) h)
    · exact h
  · exact h

end

@[simp] theorem State.releaseRef_linked (n : Nat) (s : State) (a) : (State.releaseRef n s a).linked = s.linked :=
  State.releaseRef_holds (P := fun t => t.linked = s.linked) (fun _ _ _ _ h => h) (fun t d e h => (t.sendRelease_linked d e).trans h)
    (fun t e h => (t.freeSlot_linked e).trans h) n s a rfl

@[simp] theorem State.freeIdle_linked (s : State) (a) : (s.freeIdle a).linked = s.linked :=
  State.freeIdle_holds (P := fun t => t.linked = s.linked) (fun _ _ _ _ h => h) (fun t d e h => (t.sendRelease_linked d e).trans h)
    (fun t e h => (t.freeSlot_linked e).trans h) a rfl

/-! ### Entries -/

theorem State.dir?_modDir (s : State) (slot : Nat) {g : DirEntry → DirEntry} (hg : ∀ e, (g e).slot = e.slot) :
    (s.modDir slot g).dir? slot = (s.dir? slot).map g :=
  find?_mapIf (fun x hx => (hg x).trans hx) s.dir

theorem State.dir?_modDir_ne (s : State) {slot j : Nat} {g : DirEntry → DirEntry} (hg : ∀ e, (g e).slot = e.slot) (h : j ≠ slot) :
    (s.modDir slot g).dir? j = s.dir? j :=
  find?_mapIf_ne (key := DirEntry.slot) hg h s.dir

theorem State.dir?_of_dir {s t : State} (h : t.dir = s.dir) (slot : Nat) : t.dir? slot = s.dir? slot := by simp only [State.dir?, h]

theorem State.dir?_slot {s : State} {slot : Nat} {e : DirEntry} (h : s.dir? slot = some e) : e.slot = slot := by simpa using List.find?_some h

theorem State.dir_of_carried {s t : State} (h : t.carried = s.carried) : t.dir = s.dir := (congrArg State.dir h :)

theorem State.note_dir (s : State) (a b c) : (s.note a b c).dir = s.dir := State.dir_of_carried (by simp)

theorem State.sendRelease_dir (s : State) (d : Nat) (e : DirEntry) : (s.sendRelease d e).dir = s.dir := by
  refine State.dir_of_carried ?_
  unfold State.sendRelease
  split <;> simp

theorem State.freeSlot_dir (s : State) (e : DirEntry) : (s.freeSlot e).dir = s.dir.filter fun x => x.slot != e.slot := by
  have h : ((e.map.map Prod.snd).foldl (fun s r => s.unrefRec r) s).stored = s.stored := foldl_keeps State.stored _ (fun s p => by simp) _ _
  unfold State.freeSlot
  dsimp only
  exact congrArg (List.filter fun x : DirEntry => x.slot != e.slot) (State.laid_of_stored h).1

/-- Every entry of the directory stands in its slot, in its state, in another's too. -/
def State.dirWithin (t s : State) : Prop := ∀ x ∈ t.dir, ∃ y ∈ s.dir, y.slot = x.slot ∧ y.st = x.st

theorem State.dirWithin_of_dir {s t : State} (h : t.dir = s.dir) : t.dirWithin s := fun x hx => ⟨x, h ▸ hx, rfl, rfl⟩

theorem State.dirWithin_modDir {s t : State} (h : t.dirWithin s) (slot : Nat) {g : DirEntry → DirEntry}
    (hg : ∀ e, (g e).slot = e.slot ∧ (g e).st = e.st) : (t.modDir slot g).dirWithin s := by
  intro x hx
  obtain ⟨z, hz, rfl⟩ := List.mem_map.mp hx
  obtain ⟨y, hy, hslot, hst⟩ := h z hz
  refine ⟨y, hy, ?_⟩
  split
  · exact ⟨hslot.trans (hg z).1.symm, hst.trans (hg z).2.symm⟩
  · exact ⟨hslot, hst⟩

theorem State.dirWithin_sendRelease {s t : State} (d : Nat) (e : DirEntry) (h : t.dirWithin s) : (t.sendRelease d e).dirWithin s := by
  unfold State.dirWithin
  rw [t.sendRelease_dir]
  exact h

theorem State.dirWithin_freeSlot {s t : State} (e : DirEntry) (h : t.dirWithin s) : (t.freeSlot e).dirWithin s := by
  intro x hx
  rw [t.freeSlot_dir] at hx
  exact h x (List.mem_filter.mp hx).1

/-- The end of references enters nothing in the directory and changes no entry's state. -/
theorem State.releaseRef_dirWithin {s t : State} (h : t.dirWithin s) (n slot : Nat) : (State.releaseRef n t slot).dirWithin s :=
  State.releaseRef_holds (P := fun t => t.dirWithin s) (fun _ slot _ hg h => State.dirWithin_modDir h slot hg)
    (fun _ d e => State.dirWithin_sendRelease d e) (fun _ e => State.dirWithin_freeSlot e) n t slot h

theorem State.freeIdle_dirWithin {s t : State} (h : t.dirWithin s) (slot : Nat) : (t.freeIdle slot).dirWithin s :=
  State.freeIdle_holds (P := fun t => t.dirWithin s) (fun _ slot _ hg h => State.dirWithin_modDir h slot hg)
    (fun _ d e => State.dirWithin_sendRelease d e) (fun _ e => State.dirWithin_freeSlot e) slot h

/-- A slot in which nothing stands stays empty. -/
theorem State.dir?_none_of_within {s t : State} {slot : Nat} (h : t.dirWithin s) (hs : s.dir? slot = none) : t.dir? slot = none := by
  refine List.find?_eq_none.mpr fun x hx hslot => ?_
  obtain ⟨y, hy, hys, -⟩ := h x hx
  exact List.find?_eq_none.mp hs y hy (hys ▸ hslot)

/-- A home entry that is no longer published goes with its last reference (R69). -/
theorem State.releaseRef_frees {s : State} {e : DirEntry} {slot : Nat} (n : Nat) (hd : s.dir? slot = some e) (hp : e.proxy = false)
    (hst : e.st ≠ .published) (hr : e.refs ≤ 1) : (State.releaseRef (n + 1) s slot).dir? slot = none := by
  have freed : ∀ t : State, (t.freeSlot e).dir? slot = none := by
    intro t
    rw [State.dir?, State.freeSlot_dir]
    refine List.find?_eq_none.mpr fun x hx => ?_
    have hne := (List.mem_filter.mp hx).2
    rw [State.dir?_slot hd] at hne
    simpa using hne
  unfold State.releaseRef
  rw [hd]
  dsimp only
  rw [if_neg (by omega), hp, if_neg (by simp), if_neg hst]
  split
  · exact State.dir?_none_of_within (State.releaseRef_dirWithin (State.dirWithin_of_dir rfl) _ _) (freed _)
  · exact freed _

/-- An entry with references is not idle. -/
theorem State.freeIdle_busy {s : State} {slot : Nat} {e : DirEntry} (hd : s.dir? slot = some e) (hr : e.refs ≠ 0) : s.freeIdle slot = s := by
  unfold State.freeIdle
  rw [hd]
  exact if_neg hr

/-- A home entry without references that is no longer published is freed (R69). -/
theorem State.freeIdle_frees {s : State} {slot : Nat} {e : DirEntry} (hd : s.dir? slot = some e) (hp : e.proxy = false) (hst : e.st ≠ .published)
    (hr : e.refs = 0) : (s.freeIdle slot).dir? slot = none := by
  unfold State.freeIdle
  rw [hd]
  dsimp only
  rw [if_pos hr]
  exact State.releaseRef_frees (e := { e with refs := 1 }) _ (by rw [State.dir?_modDir _ _ (by intro; rfl), hd]; rfl) hp hst (Nat.le_refl 1)

/-! ### Withdrawal (R66, R70) -/

/-- An entry withdrawn, its key row gone from the array, before anyone is told. -/
def State.withdrawn (s : State) (e : DirEntry) : State := (s.modDir e.slot fun e => { e with st := .withdrawn }).dropKeyRow e.slot

theorem State.withdrawn_dir? {s : State} {e : DirEntry} (h : s.dir? e.slot = some e) :
    (s.withdrawn e).dir? e.slot = some { e with st := .withdrawn } :=
  (s.dir?_modDir e.slot (by intro; rfl)).trans (by rw [h]; rfl)

theorem State.withdrawn_rows (s : State) (e : DirEntry) : ∀ r ∈ (s.withdrawn e).array.rows, r.slot = e.slot → r.isHandle = true := by
  intro r hr hslot
  have := (List.mem_filter.mp hr).2
  simpa [hslot] using this

theorem State.withdrawn_unpublished (s : State) (e : DirEntry) : ∀ x ∈ (s.withdrawn e).dir, x.slot = e.slot → x.st ≠ .published := by
  intro x hx hslot
  obtain ⟨y, -, rfl⟩ := List.mem_map.mp hx
  by_cases hy : (y.slot == e.slot) = true
  · simp [hy]
  · rw [if_neg hy] at hslot
    exact absurd (by simpa using hslot) hy

/-- A withdrawal at the home tells the devices with a proxy, and then frees an idle entry. -/
theorem State.withdraw_eq (s : State) (e : DirEntry) : ∃ u : State, s.withdraw e = u.freeIdle e.slot ∧ u.dir = (s.withdrawn e).dir ∧
    u.array = (s.withdrawn e).array ∧ u.linked = s.linked := by
  let tell : State → Nat → State := fun s d => match s.linkTo d with
    | some l => s.send l msgDirWithdrawn 0 e.handle e.keyGen 0 [] { domain := e.domain }
    | none => s
  have frame : ∀ d (l : List Nat) (t : State), sentFrame (l.foldl tell t) d = sentFrame t d := fun d =>
    foldl_keeps (sentFrame · d) tell fun t a => by
      unfold tell
      split
      · exact t.send_sentFrame _ _ _ _ _ _ _ _ d
      · rfl
  have line : ∀ (l : List Nat) (t : State), (l.foldl tell t).linked = t.linked :=
    foldl_keeps State.linked tell fun t a => by
      unfold tell
      split
      · simp
      · rfl
  let u := (((if (s.withdrawn e).heldAway e then [e.holder] else []) ++ e.proxies).eraseDups).foldl tell (s.withdrawn e)
  have hu := frame s (((if (s.withdrawn e).heldAway e then [e.holder] else []) ++ e.proxies).eraseDups) (s.withdrawn e)
  exact ⟨u, rfl, (congrArg State.dir hu :), (congrArg State.array hu :), line _ _⟩

theorem State.withdraw_linked (s : State) (e : DirEntry) : (s.withdraw e).linked = s.linked := by
  obtain ⟨u, h, -, -, hu⟩ := s.withdraw_eq e
  rw [h, State.freeIdle_linked, hu]

/-- A withdrawn entry that is still referred to stays, withdrawn, without its key row. -/
theorem State.withdraw_busy {s : State} {e : DirEntry} (hd : s.dir? e.slot = some e) (hr : e.refs ≠ 0) :
    (s.withdraw e).dir? e.slot = some { e with st := .withdrawn } ∧ ∀ r ∈ (s.withdraw e).array.rows, r.slot = e.slot → r.isHandle = true := by
  obtain ⟨u, h, hdir, harray, -⟩ := s.withdraw_eq e
  have hu : u.dir? e.slot = some { e with st := .withdrawn } := (State.dir?_of_dir hdir _).trans (State.withdrawn_dir? hd)
  rw [h, State.freeIdle_busy hu hr, harray]
  exact ⟨hu, s.withdrawn_rows e⟩

/-- A withdrawn home entry without references is freed by the withdrawal itself (R69). -/
theorem State.withdraw_frees {s : State} {e : DirEntry} (hd : s.dir? e.slot = some e) (hp : e.proxy = false) (hr : e.refs = 0) :
    (s.withdraw e).dir? e.slot = none := by
  obtain ⟨u, h, hdir, -, -⟩ := s.withdraw_eq e
  rw [h]
  exact State.freeIdle_frees ((State.dir?_of_dir hdir _).trans (State.withdrawn_dir? hd)) hp (by simp) hr

theorem State.withdraw_unpublished (s : State) (e : DirEntry) : ∀ x ∈ (s.withdraw e).dir, x.slot = e.slot → x.st ≠ .published := by
  obtain ⟨u, h, hdir, -, -⟩ := s.withdraw_eq e
  rw [h]
  intro x hx hslot
  obtain ⟨y, hy, hys, hyst⟩ := State.freeIdle_dirWithin (State.dirWithin_of_dir hdir) e.slot x hx
  exact hyst ▸ s.withdrawn_unpublished e y hy (hys.trans hslot)

end Sys2Proof.Machine
end

section
/-! SUPPORT. The home's compare-and-set (R61) and its answers to directory messages (R48, R50, R57, R258). -/

namespace Sys2Proof.Machine

/-! ### Faulted entries and comparisons (R47, R88) -/

@[simp] theorem State.faultEntry_linked (s : State) (a) : (s.faultEntry a).linked = s.linked := by
  unfold State.faultEntry; split <;> simp

@[simp] theorem State.loadEntry_linked (s : State) (a) : (s.loadEntry a).linked = s.linked := State.linked_of_searched (by simp)

@[simp] theorem State.faultBad_linked (s : State) : s.faultBad.linked = s.linked := by
  unfold State.faultBad
  exact foldl_keeps State.linked _ (fun s e => s.faultEntry_linked _) _ _

@[simp] theorem State.loadHandle_linked (s : State) (h) : (s.loadHandle h).linked = s.linked :=
  (option_elim_keeps (m := State.linked) _ fun _ => State.loadEntry_linked _ _).trans s.faultBad_linked

@[simp] theorem State.loadChain_linked (s : State) (h) : (s.loadChain h).linked = s.linked := by
  unfold State.loadChain
  rw [foldl_keeps State.linked _ (fun s e => s.loadEntry_linked _), State.faultBad_linked]

theorem State.mendNotes_linked (s : State) (tag n : Nat) : (s.mendNotes tag n).linked = s.linked := by
  unfold State.mendNotes
  exact foldl_keeps State.linked _ (fun s _ => s.note_linked _ _ _) _ _

theorem State.comparePrefix_linked (s : State) : s.comparePrefix.linked = s.linked := by
  unfold State.comparePrefix
  dsimp only
  rw [foldl_keeps State.linked _ (fun s r => by simp), State.mendNotes_linked]
  rfl

theorem State.findKey_linked (s : State) (k : DirKeyF) : (s.findKey k).2.linked = s.linked := by
  have h := State.linked_of_searched (s.searchKey_searched k.domain k.fingerprint k.depth k.hash)
  unfold State.findKey
  split
  · rename_i e t ht
    rw [ht] at h
    exact h
  · rename_i t ht
    rw [ht] at h
    exact (State.linked_of_searched (State.searchKey_searched _ _ _ _ _)).trans (t.comparePrefix_linked.trans h)

/-! ### The compare-and-set (R61) -/

theorem State.putRow_linked (s : State) (r : PrefixRow) : (s.putRow r).linked = s.linked := by
  unfold State.putRow; split <;> rfl

theorem State.putRow_dir (s : State) (r : PrefixRow) : (s.putRow r).dir = s.dir := by
  unfold State.putRow; split <;> rfl

theorem State.takeParent_linked (s : State) (e : DirEntry) : (s.takeParent e).linked = s.linked := by
  unfold State.takeParent; split <;> rfl

/-- A new reference leaves every entry in its slot under its handle. -/
theorem State.takeParent_dir? {s : State} {x : DirEntry} (e : DirEntry) {slot : Nat} (h : s.dir? slot = some x) :
    ∃ y, (s.takeParent e).dir? slot = some y ∧ y.handle = x.handle := by
  unfold State.takeParent
  split
  · rename_i p _
    by_cases hp : slot = p.slot
    · subst hp
      exact ⟨{ x with refs := x.refs + 1 }, by rw [State.dir?_modDir _ _ (by intro; rfl), h]; rfl, rfl⟩
    · exact ⟨x, by rw [State.dir?_modDir_ne _ (by intro; rfl) hp, h], rfl⟩
  · exact ⟨x, h, rfl⟩

/-- A created home entry stands in its slot under its handle. -/
theorem State.createHome_leaves {s t : State} {k : DirKeyF} {map : List (Nat × Nat)} {n : Nat} {e : DirEntry}
    (h : s.createHome k map n = some (e, t)) : t.linked = s.linked ∧ ∃ x, t.dir? e.slot = some x ∧ x.handle = e.handle := by
  unfold State.createHome at h
  extract_lets collide at h
  split at h
  · cases h
  split at h
  · cases h
  rename_i slot fl _
  extract_lets g e' s1 at h
  obtain ⟨rfl, rfl⟩ := Prod.mk.inj (Option.some.inj h)
  refine ⟨(State.takeParent_linked _ _).trans (State.putRow_linked _ _), State.takeParent_dir? _ ?_⟩
  rw [State.dir?_of_dir (State.putRow_dir _ _)]
  exact List.find?_cons_of_pos (by simp)

theorem State.compareAndSet_linked (s : State) (k : DirKeyF) (map : List (Nat × Nat)) (n : Nat) : (s.compareAndSet k map n).2.linked = s.linked := by
  unfold State.compareAndSet
  extract_lets t parentOk
  have ht : t.linked = s.linked := s.loadHandle_linked _
  split
  · exact ht
  have hf := (t.findKey_linked k).trans ht
  split
  · rename_i e u hu
    rw [hu] at hf
    split <;> exact hf
  · rename_i u hu
    rw [hu] at hf
    extract_lets w
    split
    · rename_i e v hv
      exact (State.createHome_leaves hv).1.trans hf
    · split
      · exact hf
      · exact ite_keeps (m := State.linked) ((State.note_linked _ _ _ _).trans hf) hf

/-- What the compare-and-set answers with the entry that it has created stands in its slot under its handle (R61). -/
theorem State.compareAndSet_created {s v : State} {k : DirKeyF} {map : List (Nat × Nat)} {n : Nat} {e : DirEntry}
    (h : s.compareAndSet k map n = (.created e, v)) : ∃ x, v.dir? e.slot = some x ∧ x.handle = e.handle := by
  unfold State.compareAndSet at h
  extract_lets t parentOk at h
  split at h
  · cases h
  split at h
  · split at h <;> cases h
  · extract_lets w at h
    split at h
    · rename_i e' t' he
      cases h
      exact (State.createHome_leaves he).2
    · split at h <;> cases h

/-! ### The home's answers (R50, R258) -/

/-- A directory request on a link that hears it and runs directory messages reaches its message. -/
theorem leaves_of_dirRequest {c : Instr} {s : State} {link : Nat} {p : Port} {fr : Frame} {k : State → State} {P : State → Prop}
    (hc : exec c s = s.dirRequest link fr k) (h : s.hears link p fr 3 [2] 0 = true) (hd : p.dirOk = true) (hp : P (k (s.heard link fr))) :
    Leaves c s P := by
  refine ⟨_, hc, ?_⟩
  rw [State.takeFrame_of_hears h]
  simpa only [hd, if_true] using hp

/-- An answer to an open transaction reaches it. -/
theorem leaves_of_takeAnswer {c : Instr} {s : State} {link v n : Nat} {p : Port} {fr : Frame} {kinds : List Nat} {k : State → Txn → State} {x : Txn}
    {P : State → Prop} (hc : exec c s = .next (s.takeAnswer link fr v kinds n k)) (h : s.hears link p fr v kinds n = true)
    (hx : s.answered link fr = some x) (hp : P (k (s.heard link fr) x)) : Leaves c s P := by
  refine ⟨_, hc, ?_⟩
  have hx' : (s.heard link fr).answered link fr = some x := hx
  rw [State.takeAnswer, State.takeFrame_of_hears h]
  simpa only [hx'] using hp

section
variable {s t : State} {link : Nat} {p : Port} {fr : Frame} {v n : Nat} {kinds : List Nat} (h : s.hears link p fr v kinds n = true)
  (ht : t.linked = (s.heard link fr).linked)
include h ht

/-- An answer leaves on the link that its request was heard on, and changes nothing of the directory and the array. -/
theorem State.answer_heard (object status : Nat) (data : Bytes) : (t.answer link fr object status data).sent link msgDirAnswer fr.xid object status data ∧
    (t.answer link fr object status data).dir = t.dir ∧ (t.answer link fr object status data).array = t.array := by
  obtain ⟨hi, hk⟩ := State.heard_issues h
  rw [← State.portIssues_of_linked ht] at hi
  rw [← State.slotFilled_of_linked ht] at hk
  obtain ⟨hsent, q, ps, o, he⟩ := State.send_sends hi hk msgDirAnswer fr.xid object (t.keyGen fr.domain) status data { domain := fr.domain, tenant := fr.tenant }
  refine ⟨hsent, ?_, ?_⟩ <;> (rw [State.answer, he])

/-- The home's answer to a publication that it has created an entry for, or that conflicts (R61). -/
theorem State.publishHere_answers {w : State} {k : DirKeyF} {e : DirEntry} :
    (t.compareAndSet k [] 0 = (.created e, w) → (t.publishHere link fr k).sent link msgDirAnswer fr.xid e.handle 0 (dirBytes e) ∧
      ∃ x, (t.publishHere link fr k).dir? e.slot = some x ∧ x.handle = e.handle ∧ k.holder ∈ x.proxies) ∧
    (t.compareAndSet k [] 0 = (.conflict e, w) → (t.publishHere link fr k).sent link msgDirAnswer fr.xid e.handle 2 (dirBytes e)) := by
  have hcas := t.compareAndSet_linked k [] 0
  refine ⟨fun hc => ?_, fun hc => ?_⟩ <;> rw [hc] at hcas <;> simp only [State.publishHere, hc]
  · obtain ⟨x, hx, hxh⟩ := State.compareAndSet_created hc
    obtain ⟨hsent, hdir, -⟩ := State.answer_heard (t := w.modDir e.slot fun e => { e with proxies := k.holder :: e.proxies }) h (hcas.trans ht)
      e.handle 0 (dirBytes e)
    refine ⟨hsent, { x with proxies := k.holder :: x.proxies }, ?_, hxh, List.mem_cons_self⟩
    rw [State.dir?_of_dir hdir, State.dir?_modDir _ _ (by intro; rfl), hx]
    rfl
  · exact (State.answer_heard h (hcas.trans ht) e.handle 2 (dirBytes e)).1

end

theorem State.loadHandle_whole {s : State} (h : s.mirrored = true) (a : Nat) : s.loadHandle a = s := by
  unfold State.loadHandle
  rw [State.faultBad_whole h]
  dsimp only
  cases s.entryOf a with
  | none => rfl
  | some e => exact State.loadEntry_whole h e.slot

/-- A reference of several ends: the entry counts one less (R48). -/
theorem State.releaseRef_counts {s : State} {slot n : Nat} {e : DirEntry} (hd : s.dir? slot = some e) (hr : 2 ≤ e.refs) :
    State.releaseRef (n + 1) s slot = s.modDir slot fun x => { x with refs := e.refs - 1 } := by
  have hn : e.refs - 1 ≠ 0 := by omega
  unfold State.releaseRef
  rw [hd]
  dsimp only
  rw [if_pos hn]
  simp only [if_neg hn]

/-! ### The end of a request, its answer on the way and what it takes from the transactions and the directory -/

/-- The record of a request that ends after changes that leave its function. -/
theorem State.finish_completes_of_fns {s t : State} {r : Req} (h : t.fns = s.fns) (hr : (s.ringOf r).isSome = true) (status result : Nat) (fl : RecFlags) :
    s.completes (t.finish r status result fl) r status result := by
  have hring : t.ringOf r = s.ringOf r := State.ringOf_of_fns h r
  exact State.completes_of_ringOf hring (State.finish_completes _ _ _ (by rwa [hring]))

/-- The result bytes of a request leave, and its record waits for them (R189). -/
theorem State.answerWith_answers {s t : State} {r : Req} (h : t.fns = s.fns) (hr : (t.req? r.id).isSome = true) (addr : Nat) (data : Bytes)
    (status result : Nat) (fl : RecFlags) : s.answers (t.answerWith r addr data status result fl) r addr data status result := by
  obtain ⟨x, hx⟩ := Option.isSome_iff_exists.mp hr
  refine ⟨?_, { x with phase := .writing, answer := some { status := status, result := result, flags := fl } }, _, ?_, rfl, rfl, rfl, rfl⟩
  · rw [← State.groupOfFn_of_fns h]
    exact t.hostPut_out r addr data
  · rw [State.answerWith, State.req?_modReq _ _ (by intro; rfl), State.req?_of_reqs (t.hostPut_reqs _ _ _), hx]
    rfl

theorem State.record_eq (s : State) (a b c d e f g : Nat) (fl : RecFlags) : ∃ fns o, s.record a b c d e f g fl = { s with fns := fns, out := o } := by
  unfold State.record
  split
  · exact ⟨_, _, rfl⟩
  · split <;> exact ⟨_, _, rfl⟩

theorem State.fenceCount_eq (s : State) (r : Req) (status : Nat) : ∃ fns fs, s.fenceCount r status = { s with fns := fns, fences := fs } := by
  unfold State.fenceCount
  split <;> exact ⟨_, _, rfl⟩

theorem State.unpin1_eq (s : State) (p : Option Pin) : ∃ q, s.unpin1 p = { s with seqs := q } := by
  unfold State.unpin1
  split <;> exact ⟨_, rfl⟩

/-- What a request held is released: of the transactions, those that end with it. -/
theorem State.dropReq_leaves (s : State) (r : Req) : (s.dropReq r).dir = s.dir ∧ ∀ y ∈ (s.dropReq r).txns, y ∈ s.txns := by
  unfold State.dropReq
  extract_lets t u _ w x
  obtain ⟨q, hq⟩ := s.unpin1_eq r.pin
  obtain ⟨q', hq'⟩ := (s.unpin1 r.pin).unpin1_eq r.pin2
  have ht : t = { s with seqs := q' } := hq'.trans (by rw [hq])
  have hs : x.sweepPages.stored = w.stored := (State.sweepPages_stored _).trans (foldl_keeps State.stored _ (fun s t => by simp) _ _)
  have hdir : x.sweepPages.dir = w.dir := (congrArg State.dir hs :)
  have htxns : x.sweepPages.txns = w.txns := (congrArg State.txns hs :)
  rw [hdir, htxns]
  refine ⟨?_, fun y hy => ?_⟩
  · change t.dir = s.dir
    rw [ht]
  · have hy' : y ∈ t.txns := (List.mem_filter.mp hy).1
    rwa [ht] at hy'

theorem State.finish_leaves (s : State) (r : Req) (a b : Nat) (fl : RecFlags) :
    (s.finish r a b fl).dir = s.dir ∧ ∀ y ∈ (s.finish r a b fl).txns, y ∈ s.txns := by
  obtain ⟨f, o, h1⟩ := s.record_eq r.fn r.attach r.opcode r.slotSeq r.tag a b fl
  obtain ⟨q, h2⟩ := (s.record r.fn r.attach r.opcode r.slotSeq r.tag a b fl).enqueue_eq (s.groupOfFn r.fn) r.fn r.cls 32
  obtain ⟨f', fs, h3⟩ := (((s.record r.fn r.attach r.opcode r.slotSeq r.tag a b fl).enqueue (s.groupOfFn r.fn) r.fn r.cls 32).trackRecord r a).fenceCount_eq r a
  obtain ⟨hdir, htxns⟩ := State.dropReq_leaves
    ((((s.record r.fn r.attach r.opcode r.slotSeq r.tag a b fl).enqueue (s.groupOfFn r.fn) r.fn r.cls 32).trackRecord r a).fenceCount r a) r
  rw [h3, h2, h1] at hdir htxns
  unfold State.finish
  rw [h3, h2, h1]
  exact ⟨hdir, htxns⟩

end Sys2Proof.Machine
end

section
/-! SUPPORT. Each directory message at its receiver (R48, R50, R57, R66, R70), and transactions whose answer comes or does not (R257, R258). -/

namespace Sys2Proof.Machine

theorem State.addProxy_linked (s : State) (a) (b) : (s.addProxy a b).linked = s.linked := by
  simp [State.addProxy, State.takeRef]

section
variable {s : State} {link : Nat} {p : Port} {fr : Frame} (h : s.hears link p fr 3 [2] 0 = true) (hg : s.genOk fr = true)
include h hg

/-- A lookup at the home is answered with its best hit of the home's own entries (R53). -/
theorem State.onDirLookup_answers (fp : BitVec 64) (pairs : List PairF) :
    match (bestHit (((s.heard link fr).localHits fr.domain fp 0 pairs).1.filter fun h => handleHome h.2.2 == s.params.deviceId)).bind fun h =>
        ((s.heard link fr).localHits fr.domain fp 0 pairs).2.entryOf h.2.2 with
    | some e => ((s.heard link fr).onDirLookup link fr fp pairs).sent link msgDirAnswer fr.xid e.handle 0 (dirBytes e)
    | none => ((s.heard link fr).onDirLookup link fr fp pairs).sent link msgDirAnswer fr.xid 0 3 [] := by
  have hl := State.localHits_searched fr.domain fp pairs 0 (s.heard link fr)
  have hg' : (s.heard link fr).genOk fr = true := hg
  unfold State.onDirLookup
  rw [if_neg (by simp [hg'])]
  generalize (s.heard link fr).localHits fr.domain fp 0 pairs = found at hl ⊢
  obtain ⟨hits, t⟩ := found
  have hp : t.params = s.params := (congrArg State.params hl :)
  have ht := State.linked_of_searched hl
  dsimp only
  rw [hp]
  generalize (bestHit (hits.filter fun h => handleHome h.2.2 == s.params.deviceId)).bind (fun h => t.entryOf h.2.2) = best
  cases best with
  | some e => exact (State.answer_heard h ht _ _ _).1
  | none => exact (State.answer_heard h ht _ _ _).1

section
variable {e : DirEntry} (hm : s.mirrored = true) (hd : s.dir? e.slot = some e)
include hm hd

/-- The home counts a device that attaches (R48, R57). -/
theorem State.onDirAttach_answers
    (hf : (s.dir.find? fun e => e.handle == fr.object && !e.proxy && e.st == .published && e.domain == fr.domain) = some e) :
    ((s.heard link fr).onDirAttach link fr).sent link msgDirAnswer fr.xid e.handle 0 (dirBytes e) ∧
      ((s.heard link fr).onDirAttach link fr).dir? e.slot = some { e with refs := e.refs + 1, proxies := fr.src :: e.proxies } := by
  have he : (s.heard link fr).onDirAttach link fr = ((s.heard link fr).addProxy e.slot fr.src).answer link fr e.handle 0 (dirBytes e) := by
    have hg' : (s.heard link fr).genOk fr = true := hg
    have hf' : ((s.heard link fr).dir.find? fun e => e.handle == fr.object && !e.proxy && e.st == .published && e.domain == fr.domain) = some e := hf
    simp only [State.onDirAttach, hg', State.loadHandle_whole (s := s.heard link fr) hm, hf', Bool.not_true, Bool.false_eq_true, if_false]
  obtain ⟨hsent, hdir, -⟩ := State.answer_heard h (State.addProxy_linked _ e.slot fr.src) e.handle 0 (dirBytes e)
  rw [he]
  refine ⟨hsent, ?_⟩
  rw [State.dir?_of_dir hdir, State.addProxy, State.dir?_modDir _ _ (by intro; rfl), State.takeRef, State.dir?_modDir _ _ (by intro; rfl),
    show (s.heard link fr).dir? e.slot = some e from hd]
  rfl

/-- A proxy's reference ends at the home, which has others (R48, R57). -/
theorem State.onDirRelease_answers (ho : s.entryOf fr.object = some e) (hp : e.proxy = false) (hsrc : e.proxies.contains fr.src = true)
    (hr : 2 ≤ e.refs) : ((s.heard link fr).onDirRelease link fr).sent link msgDirAnswer fr.xid fr.object 0 [] ∧
      ((s.heard link fr).onDirRelease link fr).dir? e.slot = some { e with refs := e.refs - 1, proxies := e.proxies.erase fr.src } := by
  let u := (s.heard link fr).modDir e.slot fun e => { e with proxies := e.proxies.erase fr.src }
  have hu : u.dir? e.slot = some { e with proxies := e.proxies.erase fr.src } := by
    rw [State.dir?_modDir _ _ (by intro; rfl), show (s.heard link fr).dir? e.slot = some e from hd]
    rfl
  have he : (s.heard link fr).onDirRelease link fr = (State.releaseRef chainFuel u e.slot).answer link fr fr.object 0 [] := by
    have hg' : (s.heard link fr).genOk fr = true := hg
    have ho' : (s.heard link fr).entryOf fr.object = some e := ho
    simp only [State.onDirRelease, hg', State.loadHandle_whole (s := s.heard link fr) hm, ho', hp, hsrc, Bool.not_true, Bool.false_eq_true,
      if_false, if_true]
    rfl
  obtain ⟨hsent, hdir, -⟩ := State.answer_heard h (State.releaseRef_linked chainFuel u e.slot) fr.object 0 []
  rw [he]
  refine ⟨hsent, ?_⟩
  rw [State.dir?_of_dir hdir, show chainFuel = 262143 + 1 from rfl, State.releaseRef_counts hu hr, State.dir?_modDir _ _ (by intro; rfl), hu]
  rfl

/-- The home withdraws an entry for a caller on another device (R67). -/
theorem State.onDirWithdrawn_answers {admin : Bool} (hw : s.withdrawable fr.object fr.domain fr.src fr.tenant admin = some e) (hr : e.refs ≠ 0) :
    ((s.heard link fr).onDirWithdrawn link fr admin).sent link msgDirAnswer fr.xid fr.object 0 [] ∧
      ((s.heard link fr).onDirWithdrawn link fr admin).dir? e.slot = some { e with st := .withdrawn } ∧
        ∀ r ∈ ((s.heard link fr).onDirWithdrawn link fr admin).array.rows, r.slot = e.slot → r.isHandle = true := by
  have he : (s.heard link fr).onDirWithdrawn link fr admin = ((s.heard link fr).withdraw e).answer link fr fr.object 0 [] := by
    have hg' : (s.heard link fr).genOk fr = true := hg
    have hw' : (s.heard link fr).withdrawable fr.object fr.domain fr.src fr.tenant admin = some e := hw
    simp only [State.onDirWithdrawn, hg', State.loadHandle_whole (s := s.heard link fr) hm, hw', Bool.not_true, Bool.false_eq_true, if_false]
  obtain ⟨hsent, hdir, harray⟩ := State.answer_heard h ((s.heard link fr).withdraw_linked e) fr.object 0 []
  obtain ⟨hst, hrows⟩ := State.withdraw_busy (s := s.heard link fr) hd hr
  rw [he, State.dir?_of_dir hdir, harray]
  exact ⟨hsent, hst, hrows⟩

omit h hd in
/-- A device with a proxy withdraws it with the home's notice (R70). -/
theorem State.onWithdrawNotice_eq (ho : s.entryOf fr.object = some e) (hp : e.proxy = true) (hst : e.st = .published)
    (hh : handleHome e.handle = fr.src) : (s.heard link fr).onWithdrawNotice link fr = (s.heard link fr).withdrawn e := by
  have hg' : (s.heard link fr).genOk fr = true := hg
  have ho' : (s.heard link fr).entryOf fr.object = some e := ho
  simp only [State.onWithdrawNotice, hg', State.loadHandle_whole (s := s.heard link fr) hm, ho', hp, hst, hh, Bool.not_true, Bool.false_eq_true,
    if_false, and_self, if_true]
  rfl

end
end

/-! ### Transactions (R257, R258) -/

theorem State.run?_of_req? {s : State} {id : Nat} {r : Req} (h : s.req? id = some r) (he : r.ended = none) : s.run? id = some r := by
  simp [State.run?, h, Req.not_stops he]

/-- The request of a transaction completes once the transaction is closed. -/
theorem State.finish_closes {s t : State} {r : Req} {xid : Nat} (hf : t.fns = s.fns) (hr : (s.ringOf r).isSome = true) (status result : Nat) :
    s.completes ((t.dropTxn xid).finish r status result) r status result ∧ ∀ y ∈ ((t.dropTxn xid).finish r status result).txns, y.xid ≠ xid := by
  refine ⟨State.finish_completes_of_fns (t := t.dropTxn xid) hf hr status result {}, fun y hy => ?_⟩
  simpa using (List.mem_filter.mp ((State.finish_leaves _ r status result {}).2 y hy)).2

section
variable {s : State} {fr : Frame} {x : Txn} {r : Req} (hst : fr.status = 0) (hx : s.txn? fr.xid = some x) (hr : s.req? r.id = some r)
  (he : r.ended = none)
include hst hx hr he

/-- The home's answer to a forwarded withdrawal ends it (R67). -/
theorem State.onDirAnswer_withdraw (hk : x.kind = .withdraw r.id) (link : Nat) (k : DirKeyF) :
    s.onDirAnswer link fr k = (s.dropTxn fr.xid).finish r stOk 0 := by
  have hne : fr.status ≠ 6 := by omega
  have hrun : ({ s with txns := s.txns.filter fun x => x.xid != fr.xid } : State).run? r.id = some r := State.run?_of_req? hr he
  simp only [State.onDirAnswer, if_neg hne, hx, hk, hrun, if_pos hst]
  rfl

/-- The tray's answer to a near-memory operation ends it (R280). -/
theorem State.onNmoDone_ends (hk : x.kind = .nmo r.id) : s.onNmoDone fr =
    (s.dropTxn fr.xid).finish r stOk (match r.desc with | .compare _ => resDiff fr.object | _ => 0) := by
  have hrun : ({ s with txns := s.txns.filter fun x => x.xid != fr.xid } : State).run? r.id = some r := State.run?_of_req? hr he
  have hfault : regionFault fr.status (fr.object != 0) = stOk := by rw [hst]; rfl
  simp only [State.onNmoDone, hx, hk, hrun, hfault, if_true]
  rfl

end

/-- A fault marks a request whose result is not on its way (R143). -/
theorem State.faultReq_ends {s : State} {r : Req} (hr : s.req? r.id = some r) (he : r.ended = none) (hp : r.phase ≠ .writing)
    (status block layer : Nat) : (s.faultReq r status block layer).ends r status block layer ∧ (s.faultReq r status block layer).txns = s.txns := by
  unfold State.faultReq
  rw [if_neg hp]
  have hmark : r.mark s.now status block layer = { r with ended := some status, endedAt := s.now, endBlock := block, endLayer := layer } := by
    unfold Req.mark
    simp only [if_neg hp, he]
  refine ⟨⟨{ r with ended := some status, endedAt := s.now, endBlock := block, endLayer := layer }, ?_, rfl, rfl, rfl⟩, rfl⟩
  rw [State.markEnd, State.req?_modReq _ _ fun r => r.mark_id _ _ _ _, hr, Option.map_some, hmark]

/-- A lookup or a withdrawal that another home does not answer in time (R257). -/
theorem State.aslTimeout_ends {s : State} {link : Nat} {x : Txn} {r : Req} (hx : s.txn? x.xid = some x) (hp : x.port = .asvis link) (hd : x.due ≤ s.now)
    (hk : x.kind = .lookup r.id ∨ x.kind = .withdraw r.id) (hr : s.req? r.id = some r) (he : r.ended = none) (hw : r.phase ≠ .writing) :
    (s.aslTimeout x.xid).ends r stLinkFault noBlock noLayer ∧ ∀ y ∈ (s.aslTimeout x.xid).txns, y.xid ≠ x.xid := by
  have hdrop : (s.dropTxn x.xid).req? r.id = some r := hr
  have ht : s.aslTimeout x.xid = (s.dropTxn x.xid).faultReq r stLinkFault noBlock noLayer := by
    unfold State.aslTimeout State.endTxn
    rcases hk with hk | hk <;> simp only [hx, hp, hk, TxnKind.hasAnswer, hd, and_self, if_true, hdrop]
  obtain ⟨hends, htxns⟩ := State.faultReq_ends hdrop he hw stLinkFault noBlock noLayer
  rw [ht]
  refine ⟨hends, fun y hy => ?_⟩
  rw [htxns] at hy
  simpa using (List.mem_filter.mp hy).2

end Sys2Proof.Machine
end

section
/-! CLAIMS. The obligation on directory messages. -/

namespace Sys2Proof.Machine

/-- Settles O35: each message by the lemma on its receiver, the answers and the timeout by those on their transactions. -/
theorem directoryMessagesComplete : Obligations.DirectoryMessagesComplete := by
  unfold Obligations.DirectoryMessagesComplete
  refine ⟨fun s v link p fr k e h hd hg hu => ?_, fun s link p fr fp pairs h hd hg hu => ?_, fun s link p fr e h hd hg hm hs => ⟨fun hf => ?_,
    fun ho hp hsrc hr => ?_, fun admin hw hr => ?_, fun ho hp hst hh => ?_⟩, fun s link p fr k x r ha hx hr he hring hst => ⟨fun h hk => ?_, fun h hk => ?_⟩,
    fun s link x r hs hx hp hd hk hr he hw => ?_⟩
  · intro k' haway
    have hhere : (if (s.heard link fr).tableUp 1 then (s.heard link fr).onDirPublish link fr k else (s.heard link fr).holdSearch (.dirPublish link fr k)) =
        (s.heard link fr).publishHere link fr k' := by
      have hg' : (s.heard link fr).genOk fr = true := hg
      rw [if_pos (show (s.heard link fr).tableUp 1 = true from hu), State.onDirPublish]
      simp only [hg', Bool.not_true, Bool.false_eq_true, if_false]
      exact if_pos (by rw [haway]; rfl)
    obtain ⟨hcreated, hconflict⟩ := State.publishHere_answers (t := s.heard link fr) (w := v) (k := k') (e := e) h rfl
    exact ⟨fun hc => leaves_of_dirRequest rfl h hd (by rw [hhere]; exact hcreated hc), fun hc => leaves_of_dirRequest rfl h hd (by rw [hhere]; exact hconflict hc)⟩
  · intro found
    refine leaves_of_dirRequest rfl h hd ?_
    rw [if_pos (show (s.heard link fr).tableUp 1 = true from hu)]
    exact State.onDirLookup_answers h hg fp pairs
  · exact leaves_of_dirRequest rfl h hd (State.onDirAttach_answers h hg hm hs hf)
  · exact leaves_of_dirRequest rfl h hd (State.onDirRelease_answers h hg hm hs ho hp hsrc hr)
  · exact leaves_of_dirRequest rfl h hd (State.onDirWithdrawn_answers h hg hm hs hw hr)
  · refine ⟨_, rfl, ?_⟩
    rw [State.takeFrame_of_hears h, if_pos hd, State.onWithdrawNotice_eq hg hm ho hp hst hh]
    exact ⟨State.withdrawn_dir? (s := s.heard link fr) hs, State.withdrawn_rows _ _⟩
  · refine leaves_of_takeAnswer rfl h ha ?_
    rw [State.onDirAnswer_withdraw (s := s.heard link fr) hst hx hr he hk]
    exact State.finish_closes (s := s) (t := s.heard link fr) rfl hring _ _
  · refine leaves_of_takeAnswer rfl h ha ?_
    rw [State.onNmoDone_ends (s := s.heard link fr) hst hx hr he hk]
    exact State.finish_closes (s := s) (t := s.heard link fr) rfl hring _ _
  · refine ⟨s.aslTimeout x.xid, ?_, State.aslTimeout_ends hx hp hd hk hr he hw⟩
    rw [exec, execAslResponseTimeout, State.live, if_pos hs]

end Sys2Proof.Machine
end

section
/-! SUPPORT. Lookups (R52 to R55, R86): what their searches leave, and the answers that they come to. -/

namespace Sys2Proof.Machine

/-! ### What searches of the flow and policy tables leave (R87) -/

@[simp] theorem State.hitsFail_searched (s : State) (tag) (l) : (s.hitsFail tag l).searched = s.searched := by
  unfold State.hitsFail
  exact foldl_keeps State.searched _ (fun s p => s.hitFails_searched _ _ _ _) _ _

@[simp] theorem State.flowFalse_searched (s : State) (a) (b) (f) : (s.flowFalse a b f).searched = s.searched := s.hitsFail_searched _ _
@[simp] theorem State.policyFalse_searched (s : State) (a) (b) (f) : (s.policyFalse a b f).searched = s.searched := s.hitsFail_searched _ _

/-! ### The hash form (R52, R53) -/

/-- A lookup that asks no other home is answered with what is found here. -/
theorem State.runLookup_answers {s : State} {r : Req} {model : Nat} {ps : List PairF} (token : Bool)
    (h : r.cls = 0 ∨ s.ownDomain = true ∨ ∀ p ∈ ps, s.homeOf p.hash = s.params.deviceId) :
    s.runLookup r model ps token = (s.localHits (s.domainOf r.tenant) (s.fingerprintOf model) 0 ps).2.answerLookup r ps
      (bestHit (s.localHits (s.domainOf r.tenant) (s.fingerprintOf model) 0 ps).1) token := by
  have ht := State.localHits_searched (s.domainOf r.tenant) (s.fingerprintOf model) ps 0 s
  unfold State.runLookup
  dsimp only
  generalize s.localHits (s.domainOf r.tenant) (s.fingerprintOf model) 0 ps = found at ht ⊢
  obtain ⟨hits, t⟩ := found
  have hown : t.ownDomain = s.ownDomain := (congrArg State.ownDomain ht :)
  have hdev : t.params = s.params := (congrArg State.params ht :)
  refine if_pos ?_
  rcases h with h | h | h
  · exact .inl h
  · exact .inr (.inr (hown.trans h))
  · refine .inr (.inl ?_)
    rw [List.filter_eq_nil_iff.mpr fun p hp => by simp [State.homeOf_of_searched ht, h p hp, hdev]]
    rfl

theorem State.lookupDone_hash {s : State} {r : Req} {f : LookupHashF} (hd : r.desc = .lookupHash f) (status result : Nat) (fl : RecFlags) :
    s.lookupDone r status result fl = s.finish r status result fl := by
  unfold State.lookupDone
  rw [hd]

/-- No pair is at home elsewhere where all are at home here. -/
theorem State.lookupHome_none {s : State} {ps : List PairF} (h : ∀ p ∈ ps, s.homeOf p.hash = s.params.deviceId) : s.lookupHome ps = none := by
  unfold State.lookupHome
  rw [List.find?_eq_none.mpr fun p hp => by simp [h p hp]]
  rfl

section
variable {s : State} {r : Req} {f : LookupHashF} (hd : r.desc = .lookupHash f) (hr : (s.ringOf r).isSome = true) (hu : s.tableUp 1 = true)
include hd hr hu

/-- A hash-form lookup that asks no other home completes with its deepest hit. -/
theorem State.beginLookupHash_hit {d i h : Nat} (hh : r.cls = 0 ∨ s.ownDomain = true ∨ ∀ p ∈ f.pairs, s.homeOf p.hash = s.params.deviceId)
    (hb : bestHit (s.localHits (s.domainOf r.tenant) (s.fingerprintOf f.model) 0 f.pairs).1 = some (d, i, h)) :
    s.completes (s.beginLookupHash r f) r (if d = maxDepth f.pairs then stOk else stOkPartial) (resLookup h d i (handleHome h)) := by
  have ht := State.localHits_searched (s.domainOf r.tenant) (s.fingerprintOf f.model) f.pairs 0 s
  rw [State.beginLookupHash, if_pos hu, State.runLookup_answers false hh, hb]
  simp only [State.answerLookup, State.lookupDone_hash hd, Bool.false_eq_true, if_false]
  exact State.finish_completes_of_fns (State.fns_of_searched ht) hr _ _ _

/-- A hash-form lookup with every pair at home here and no hit completes PREFIX_NOT_FOUND. -/
theorem State.beginLookupHash_miss (hh : ∀ p ∈ f.pairs, s.homeOf p.hash = s.params.deviceId)
    (hb : bestHit (s.localHits (s.domainOf r.tenant) (s.fingerprintOf f.model) 0 f.pairs).1 = none) :
    s.completes (s.beginLookupHash r f) r stPrefixNotFound 0 := by
  have ht := State.localHits_searched (s.domainOf r.tenant) (s.fingerprintOf f.model) f.pairs 0 s
  have hdev : (s.localHits (s.domainOf r.tenant) (s.fingerprintOf f.model) 0 f.pairs).2.params = s.params := (congrArg State.params ht :)
  rw [State.beginLookupHash, if_pos hu, State.runLookup_answers false (.inr (.inr hh)), hb]
  simp only [State.answerLookup, State.lookupDone_hash hd,
    State.lookupHome_none fun p hp => by rw [State.homeOf_of_searched ht, hh p hp, hdev]]
  exact State.finish_completes_of_fns (State.fns_of_searched ht) hr _ _ _

end

/-! ### The flow form (R86, R87) -/

/-- What a flow lookup has found is its record's result, and the words of several matches go before it (R86). -/
def State.flowAnswer (s : State) (r : Req) (f : LookupFlowF) (ws : List Nat) (status result : Nat) (fl : RecFlags) : State :=
  if f.maxMatches ≤ 1 ∨ ws = [] then s.finish r status result fl else s.answerWith r f.resultAddr (ws.flatMap (leBytes 8)) status result fl

section
variable {s : State} {r : Req} {f : LookupFlowF}

theorem State.runLookupFlow_hit {e : FlowRow} {rest : List FlowRow}
    (hm : (s.flowMatches r.tenant (s.pathB r.fn) f).take f.maxMatches = e :: rest) :
    ∃ fl, s.runLookupFlow r f = (s.flowFalse r.tenant (s.pathB r.fn) f).flowAnswer r f ((e :: rest).map FlowRow.word) stOk
      (resFlow e.handle e.mode (rest.length + 1)) fl := by
  refine ⟨{ multi := decide (1 < (s.flowMatches r.tenant (s.pathB r.fn) f).length) }, ?_⟩
  simp only [State.runLookupFlow, State.flowAnswer, hm, List.isEmpty_iff, List.length_cons]

/-- A flow lookup without a match goes on in the policy table (R86). -/
theorem State.runLookupFlow_miss {v : State} {ps : List PolicyRow} (hm : (s.flowMatches r.tenant (s.pathB r.fn) f).take f.maxMatches = [])
    (hv : v = s.flowFalse r.tenant (s.pathB r.fn) f) (hu : v.tableUp 5 = true)
    (hps : ps = (v.policyMatches r.tenant (v.pathB r.fn) f).take f.maxMatches) :
    ∃ fl, s.runLookupFlow r f = (v.policyFalse r.tenant (v.pathB r.fn) f).flowAnswer r f (ps.map (·.rule.result)) stFlowNotFound
      (resPolicy ps.length (if f.maxMatches = 1 then (ps.head?.elim 0 (·.rule.result)) else 0)) fl := by
  subst hv hps
  refine ⟨{ multi := decide (1 < ((s.flowFalse r.tenant (s.pathB r.fn) f).policyMatches r.tenant
    ((s.flowFalse r.tenant (s.pathB r.fn) f).pathB r.fn) f).length) }, ?_⟩
  simp only [State.runLookupFlow, State.flowAnswer, hm, hu, List.isEmpty_iff, Bool.not_true, Bool.false_eq_true, if_false]

/-- The answer of a flow lookup after its searches. -/
theorem State.flowAnswer_leaves {t : State} (hr : (s.ringOf r).isSome = true) (hx : s.req? r.id = some r) (ht : t.searched = s.searched) (ws : List Nat)
    (status result : Nat) (fl : RecFlags) : if f.maxMatches ≤ 1 ∨ ws = [] then s.completes (t.flowAnswer r f ws status result fl) r status result
      else s.answers (t.flowAnswer r f ws status result fl) r f.resultAddr (ws.flatMap (leBytes 8)) status result := by
  unfold State.flowAnswer
  split
  · exact State.finish_completes_of_fns (State.fns_of_searched ht) hr _ _ _
  · exact State.answerWith_answers (State.fns_of_searched ht) (by rw [State.req?_of_reqs (State.reqs_of_searched ht), hx]; rfl) _ _ _ _ _

end

end Sys2Proof.Machine
end

section
/-! CLAIMS. The obligation on lookups. -/

namespace Sys2Proof.Machine

/-- Settles O20: each form's own answer, once its request has begun. -/
theorem lookupsComplete : Obligations.LookupsComplete := by
  unfold Obligations.LookupsComplete
  have hash : ∀ {s u : State} {sub : Sub} {f : LookupHashF} {r : Req} {P : State → Prop}, s.begins sub (.lookupHash f) = some (u, r) →
      (r.desc = .lookupHash f → P (u.beginLookupHash r f)) → Leaves (.lookupPrefixHashForm sub f) s P := by
    intro s u sub f r P hb hp
    have hd : r.desc = .lookupHash f := State.begins_desc_same hb fun _ => rfl
    refine leaves_of_begins rfl hb (by simp [hd]) (by simp [hd]) ?_
    simpa only [State.beginReq, hd] using hp hd
  have flow : ∀ {s u : State} {sub : Sub} {f : LookupFlowF} {r : Req} {P : State → Prop}, s.begins sub (.lookupFlow f) = some (u, r) →
      P (u.beginLookupFlow r f) → Leaves (.lookupPrefixFlowForm sub f) s P := by
    intro s u sub f r P hb hp
    have hd : r.desc = .lookupFlow f := State.begins_desc_same hb fun _ => rfl
    refine leaves_of_begins rfl hb (by simp [hd]) (by simp [hd]) ?_
    simpa only [State.beginReq, hd] using hp
  refine ⟨fun s u sub f r d i h hb hr hu hh hbest => hash hb fun hd => State.beginLookupHash_hit hd hr hu hh hbest,
    fun s u sub f r hb hr hu hh hbest => hash hb fun hd => State.beginLookupHash_miss hd hr hu hh hbest,
    fun s u sub f r hb => ?_, fun s u sub f r e rest hb hr hu hm => flow hb ?_, fun s u sub f r hb hu => flow hb ?_,
    fun s u sub f r hb hr hu hm => ?_⟩
  · have hd : r.desc = .lookupToken f := State.begins_desc_same hb fun _ => rfl
    refine leaves_of_begins rfl hb (by simp [hd]) (by simp [hd]) ?_
    simp only [State.beginReq, hd]
    exact State.stands_modReq (State.begins_stands hb) (fun _ => rfl) rfl
  · rw [State.beginLookupFlow, if_pos hu]
    obtain ⟨fl, he⟩ := State.runLookupFlow_hit hm
    have ha := State.flowAnswer_leaves (f := f) hr (State.begins_stands hb) (u.flowFalse_searched r.tenant (u.pathB r.fn) f)
      ((e :: rest).map FlowRow.word) stOk (resFlow e.handle e.mode (rest.length + 1)) fl
    rw [← he] at ha
    simpa only [List.map_eq_nil_iff, reduceCtorEq, or_false, List.flatMap_map] using ha
  · rw [State.beginLookupFlow, if_neg (by simp [hu])]
    exact State.stands_modReq (State.begins_stands hb) (fun _ => rfl) rfl
  · intro v h5
    refine flow hb ?_
    rw [State.beginLookupFlow, if_pos hu]
    intro ps result
    obtain ⟨fl, he⟩ := State.runLookupFlow_miss hm rfl h5 rfl
    have ha := State.flowAnswer_leaves (f := f) hr (State.begins_stands hb)
      ((v.policyFalse_searched r.tenant (v.pathB r.fn) f).trans (u.flowFalse_searched r.tenant (u.pathB r.fn) f)) (ps.map (·.rule.result))
      stFlowNotFound result fl
    rw [← he] at ha
    simpa only [List.map_eq_nil_iff, List.flatMap_map] using ha

end Sys2Proof.Machine
end

section
/-! SUPPORT. The directory's upkeep (R51, R68, R71), pages decoded again and the engines that they try (R175, R342), and a member that cannot
be reached (R51, R279). -/

namespace Sys2Proof.Machine

/-! ### Engines and their standing (R342) -/

theorem State.engineAt_modEngine (s : State) (c p : Nat) {g : Engine → Engine} (hg : ∀ e, (g e).cluster = e.cluster ∧ (g e).slot = e.slot) :
    (s.modEngine c p g).engineAt c p = (s.engineAt c p).map g :=
  find?_mapIf (key := fun e : Engine => (e.cluster, e.slot)) (k := (c, p)) (fun e h => by rw [(hg e).1, (hg e).2]; exact h) s.engines

theorem State.engineAt_modEngine_ne (s : State) (c : Nat) {p q : Nat} {g : Engine → Engine} (hg : ∀ e, (g e).cluster = e.cluster ∧ (g e).slot = e.slot)
    (h : q ≠ p) : (s.modEngine c p g).engineAt c q = s.engineAt c q :=
  find?_mapIf_ne (key := fun e : Engine => (e.cluster, e.slot)) (k := (c, p)) (j := (c, q)) (fun e => by rw [(hg e).1, (hg e).2]) (by simpa using h)
    s.engines

/-- The planning of work leaves every engine's standing. -/
theorem State.standing_of_plan {s t : State} (h : t.plan = s.plan) (c p : Nat) : (t.engineAt c p).map (·.st) = (s.engineAt c p).map (·.st) := by
  have read : ∀ u : State, (u.engineAt c p).map (·.st) =
      ((u.engines.map fun e => (e.cluster, e.slot, e.st)).find? fun x => x.1 == c && x.2.1 == p).map (·.2.2) := by
    intro u
    rw [List.find?_map, Option.map_map]
    rfl
  rw [read, read, State.engines_of_plan h]

/-- A slot of a cluster holds a spare. -/
def State.spareAt (s : State) (c p : Nat) : Bool := s.engines.any fun e => e.cluster == c && e.slot == p && e.st == .spare

theorem State.spareAt_of_plan {s t : State} (h : t.plan = s.plan) (c p : Nat) : t.spareAt c p = s.spareAt c p := by
  have read : ∀ u : State, u.spareAt c p =
      (u.engines.map fun e => (e.cluster, e.slot, e.st)).any fun x => x.1 == c && x.2.1 == p && x.2.2 == .spare := by
    intro u
    rw [List.any_map]
    rfl
  rw [read, read, State.engines_of_plan h]

theorem State.spareAt_iff (s : State) (c p : Nat) : s.spareAt c p = true ↔ ∃ e ∈ s.engines, e.cluster = c ∧ e.slot = p ∧ e.st = .spare := by
  simp [State.spareAt, and_assoc]

/-- An engine that is no spare any more leaves the other slots' spares. -/
theorem State.spareAt_modEngine (s : State) (c p : Nat) {g : Engine → Engine}
    (hg : ∀ e, (g e).cluster = e.cluster ∧ (g e).slot = e.slot ∧ (g e).st ≠ .spare) (q : Nat) :
    (s.modEngine c p g).spareAt c q = true ↔ q ≠ p ∧ s.spareAt c q = true := by
  rw [State.spareAt_iff, State.spareAt_iff]
  constructor
  · rintro ⟨x, hx, hc, hs, hst⟩
    obtain ⟨e, he, rfl⟩ := List.mem_map.mp hx
    split at hst
    · exact absurd hst (hg e).2.2
    · rename_i hne
      rw [if_neg hne] at hc hs
      exact ⟨fun h => hne (by simp [hc, hs, h]), e, he, hc, hs, hst⟩
  · rintro ⟨hq, e, he, hc, hs, hst⟩
    exact ⟨e, List.mem_map.mpr ⟨e, he, if_neg (by simp [hs, hq])⟩, hc, hs, hst⟩

/-- The first element of a list that satisfies a test is the first for any stricter test that it satisfies. -/
theorem find?_stricter {α : Type} {p q : α → Bool} {l : List α} {a : α} (h : l.find? p = some a) (ha : q a = true) (hq : ∀ x, q x = true → p x = true) :
    l.find? q = some a := by
  obtain ⟨-, as, bs, hl, hn⟩ := List.find?_eq_some_iff_append.mp h
  refine List.find?_eq_some_iff_append.mpr ⟨ha, as, bs, hl, fun x hx => ?_⟩
  have := hn x hx
  cases hx' : q x with
  | false => rfl
  | true => rw [hq x hx'] at this; exact this

/-- An engine that has failed under its logical number. -/
def Engine.out (l : Nat) (e : Engine) : Engine := { e with st := .failed l, dirty := [] }

/-- A spare that is brined for a logical number in place of the engine in slot `p`. -/
def Engine.called (l p now : Nat) (e : Engine) : Engine := { e with st := .brining l, dirty := [], brined := now, stands := p }

/-- An active engine that leaves service fails, and the lowest spare of its cluster is brined for its logical number (R342). -/
theorem State.engineOut_remaps {s : State} {c p k l : Nat} {e : Engine} (he : s.engineAt c p = some e) (hst : e.st = .active l)
    (hk : s.spareEngine c = some k) (hkp : k ≠ p) : ((s.engineOut c p).engineAt c p).map (·.st) = some (.failed l) ∧
      ((s.engineOut c p).engineAt c k).map (·.st) = some (.brining l) ∧ (s.engineOut c p).rechecks = s.rechecks := by
  let u := (s.endPasses c p).modEngine c p (Engine.out l)
  let w := u.modEngine c k (Engine.called l p u.now)
  have hspare : ∀ q, u.spareAt c q = true ↔ q ≠ p ∧ s.spareAt c q = true := fun q => by
    rw [(s.endPasses c p).spareAt_modEngine c p (g := Engine.out l) (fun e => ⟨rfl, rfl, by simp [Engine.out]⟩) q,
      State.spareAt_of_plan (s.endPasses_plan c p)]
  have hk' : u.spareAt c k = true := (hspare k).mpr ⟨hkp, List.find?_some (p := fun q => s.spareAt c q) hk⟩
  have hcall : (List.range 16).find? (fun q => u.spareAt c q) = some k :=
    find?_stricter (p := fun q => s.spareAt c q) hk hk' fun q hq => ((hspare q).mp hq).2
  have hout : s.engineOut c p = ((w.moveResvs c l (u.now + brineTicks)).recompute).dispatch := by
    have he' : (s.engines.find? fun e => e.cluster == c && e.slot == p) = some e := he
    simp only [State.engineOut, he', hst]
    change (u.callSpare c l p).dispatch = _
    unfold State.callSpare
    rw [show ((List.range 16).find? fun q => u.engines.any fun e => e.cluster == c && e.slot == q && e.st == .spare) = some k from hcall]
    rfl
  have hplan : (s.engineOut c p).plan = w.plan := by
    rw [hout, State.dispatch_plan, State.recompute_plan, State.moveResvs_plan]
  rw [State.standing_of_plan hplan, State.standing_of_plan hplan, State.rechecks_of_plan hplan]
  refine ⟨?_, ?_, (State.rechecks_of_plan (s.endPasses_plan c p) :)⟩
  · obtain ⟨x, hx⟩ : ∃ x, (s.endPasses c p).engineAt c p = some x := by
      have := State.standing_of_plan (s.endPasses_plan c p) c p
      rw [he] at this
      exact (Option.map_eq_some_iff.mp this).imp fun _ h => h.1
    rw [State.engineAt_modEngine_ne u c (g := Engine.called l p u.now) (fun _ => ⟨rfl, rfl⟩) hkp.symm,
      State.engineAt_modEngine (s.endPasses c p) c p (g := Engine.out l) fun _ => ⟨rfl, rfl⟩, hx]
    rfl
  · obtain ⟨x, hx, hc, hs, -⟩ := (u.spareAt_iff c k).mp hk'
    obtain ⟨y, hy⟩ : ∃ y, u.engineAt c k = some y :=
      Option.isSome_iff_exists.mp (List.find?_isSome.mpr ⟨x, hx, by simp [hc, hs]⟩)
    rw [State.engineAt_modEngine u c k (g := Engine.called l p u.now) fun _ => ⟨rfl, rfl⟩, hy]
    rfl

/-- A check that an active engine fails takes it out of service (R144). -/
theorem State.engineFault_out {s : State} {c p l : Nat} {e : Engine} (he : s.engineAt c p = some e) (hst : e.st = .active l) (check : Nat) :
    ∃ q, s.engineFault c p check = ({ s with recorder := q } : State).engineOut c p := by
  obtain ⟨q, hq⟩ := s.event_eq "ENGINE_FAULT" (some 0xC201) (evSource 1 (c * 16 + p)) check
  refine ⟨q, ?_⟩
  unfold State.engineFault
  rw [if_pos, hq]
  refine List.any_eq_true.mpr ⟨e, List.mem_of_find?_eq_some he, ?_⟩
  have := List.find?_some he
  simp only [Bool.and_eq_true] at this ⊢
  exact ⟨this, by rw [hst]⟩

/-! ### Pages that fail (R175, R290) -/

/-- A lost page's locator (R290). -/
theorem State.losePage_loses {s : State} {blk layer : Nat} {r : Rec} {l : Loc} (hr : s.rec? blk = some r) (hl : r.loc? layer = some l) :
    (s.losePage blk layer).rechecks = s.rechecks ∧
      ∃ y k, (s.losePage blk layer).rec? blk = some y ∧ y.loc? layer = some k ∧ k.lost = true ∧ k.grains = 0 := by
  let g : Loc → Loc := fun l => { l with lost := true, grains := 0, moving := false, pinned := false, pinBy := none }
  let u := if l.grains = 0 then s else s.freePage l.tier l.addr
  have he : s.losePage blk layer = (u.modLoc blk layer g).note "PAGE_LOST" (s.spotEvent l.tier l.addr 0).1 (s.spotEvent l.tier l.addr 0).2 := by
    simp only [State.losePage, hr, hl, Option.bind_some, Option.elim_none]
    rfl
  have hrecs : u.recs = s.recs := ite_keeps (m := State.recs) rfl (s.freePage_recs _ _)
  have hstored : u.stored = s.stored := ite_keeps (m := State.stored) rfl (s.freePage_stored _ _)
  obtain ⟨hx, hk⟩ := State.modLoc_loc (s := u) (by rw [State.rec?_of_recs hrecs, hr]) hl g
  rw [he]
  refine ⟨?_, r.setLoc layer g, g l, by rw [State.rec?_of_recs (State.note_recs _ _ _ _), hx], hk, rfl, rfl⟩
  have hn := (State.note_stored (u.modLoc blk layer g) "PAGE_LOST" (s.spotEvent l.tier l.addr 0).1 (s.spotEvent l.tier l.addr 0).2).trans
    ((show (u.modLoc blk layer g).stored = u.stored from rfl).trans hstored)
  exact (congrArg State.rechecks hn :)

/-- An entry with references that is faulted stays, faulted (R47). -/
theorem State.faultEntry_busy {s : State} {slot : Nat} {e : DirEntry} (hd : s.dir? slot = some e) (hr : e.refs ≠ 0) :
    (s.faultEntry slot).dir? slot = some { e with st := .faulted } := by
  let u := ((s.modDir slot fun e => { e with st := .faulted }).dropKeyRow slot).note "DIRECTORY_ENTRY_FAULTED" (evSource 11 e.domain) slot
  have hu : u.dir? slot = some { e with st := .faulted } := by
    rw [State.dir?_of_dir (State.note_dir _ _ _ _)]
    exact (s.dir?_modDir slot (by intro; rfl)).trans (by rw [hd]; rfl)
  have he : s.faultEntry slot = u.freeIdle slot := by
    unfold State.faultEntry
    rw [hd]
  rw [he, State.freeIdle_busy hu hr]
  exact hu

/-- The second failed decode of a page that is no copy loses it where it is unpublished, and faults its entry where it is published (R175). -/
theorem State.recheckFails_leaves {s : State} {blk layer : Nat} {r : Rec} {l : Loc} (hr : s.rec? blk = some r) (hl : r.loc? layer = some l)
    (hlost : l.lost = false) (hc : s.isCopy blk = false) :
    (r.published = false → (s.recheckFails blk layer).rechecks = s.rechecks ∧
      ∃ y k, (s.recheckFails blk layer).rec? blk = some y ∧ y.loc? layer = some k ∧ k.lost = true ∧ k.grains = 0) ∧
    ∀ e, r.published = true → s.dir? e.slot = some e → e.refs ≠ 0 →
      (s.dir.filter fun e => !s.heldAway e && e.st != .faulted && e.map.any fun x => x.2 == blk) = [e] →
      (s.recheckFails blk layer).rechecks = s.rechecks ∧ (s.recheckFails blk layer).dir? e.slot = some { e with st := .faulted } := by
  unfold State.recheckFails
  rw [hr]
  dsimp only
  refine ⟨fun hp => ?_, fun e hp hd hrefs hf => ?_⟩
  · have hlose : s.pageLost blk layer = s.losePage blk layer := by
      simp only [State.pageLost, hr, hl, Option.bind_some, Option.map_some, hlost, hp, Bool.false_eq_true, if_false]
      exact if_neg (by rw [show (s.dir.any fun e => s.heldAway e && e.map.any fun x => x.2 == blk) = false from hc]; exact Bool.false_ne_true)
    rw [if_neg (by simp [hp]), hlose]
    exact State.losePage_loses hr hl
  · have hfault : s.faultOwner blk = s.faultEntry e.slot := by
      unfold State.faultOwner
      rw [hf]
      rfl
    rw [if_pos (by simp [hp, hc]), hfault]
    exact ⟨(congrArg State.rechecks (State.held_of_linked (s.faultEntry_linked e.slot)) :), State.faultEntry_busy hd hrefs⟩

/-! ### A member that cannot be reached (R51, R279) -/

/-- The loss of a member takes its objects and volumes, and at a tray its pool key. -/
theorem State.memberGone_loses (s : State) (dev : Nat) : (∀ o ∈ (s.memberGone dev).tray.objects, o.host = dev → o.lost = true) ∧
    (∀ v ∈ (s.memberGone dev).tray.volumes, v.2 ≠ dev) ∧
      ((s.memberGone dev).isTray = true → (s.memberGone dev).slotFilled (ownerSlot 1 dev) = false) := by
  unfold State.memberGone
  extract_lets ports s1 s2 s3 objs _ s4
  have htray : (if s4.isTray then s4.zeroise (ownerSlot 1 dev) else s4).tray = s4.tray := by split <;> rfl
  rw [htray]
  refine ⟨fun o ho hh => ?_, fun v hv => ?_, fun ht => ?_⟩
  · obtain ⟨x, -, rfl⟩ := List.mem_map.mp ho
    by_cases hx : x.host = dev
    · rw [if_pos hx]
    · rw [if_neg hx] at hh
      exact absurd hh hx
  · simpa using (List.mem_filter.mp hv).2
  · by_cases h4 : s4.isTray = true
    · rw [if_pos h4]
      simp [State.zeroise, State.slotFilled]
    · rw [if_neg h4] at ht
      exact absurd ht h4

/-! ### Idle entries and copies (R68, R71) -/

/-- An idle home entry goes (R68). -/
theorem State.idleWithdraw_frees {s : State} {e : DirEntry} {d : DomainRec} (hd : s.dir? e.slot = some e) (hdom : s.domain? e.domain = some d)
    (hms : d.idleWithdrawMs ≠ 0) (hp : e.proxy = false) (hst : e.st = .published) (hr : e.refs = 0)
    (hidle : e.idleSince + d.idleWithdrawMs * 470000 ≤ s.now) : (s.idleWithdraw e.slot).dir? e.slot = none := by
  have he : s.idleWithdraw e.slot = (s.withdraw e).note "PREFIX_IDLE_WITHDRAWN" (evSource 11 e.domain) e.handle := by
    simp only [State.idleWithdraw, hd, hdom, Option.elim_some]
    exact if_neg (by simp [hms, hp, hst, hr, hidle])
  rw [he, State.dir?_of_dir (State.note_dir _ _ _ _)]
  exact State.withdraw_frees hd hp hr

/-- A complete copy whose digest agrees is verified (R60, R71). -/
theorem State.copyVerify_verifies {s : State} {e : DirEntry} {m : ModelRec} {raw : Bytes} (hd : s.dir? e.slot = some e) (hp : e.proxy = true)
    (hv : e.copyVerified = false) (hc : s.copyComplete e = true) (hpar : e.parent = 0 ∨ (s.entryOf e.parent).isSome = true)
    (hm : s.modelOf e.fingerprint = some m) (hraw : s.copyContent e m = .ok raw)
    (hdig : digest256 (digestHead m.fingerprint e.fmt e.depth (s.parentDigest e.parent) ++ raw) = e.digest) :
    (s.copyVerify e.slot).dir? e.slot = some { e with copyVerified := true } := by
  have hpar' : (decide (e.parent = 0) || (s.entryOf e.parent).isSome) = true := by simpa using hpar
  have he : s.copyVerify e.slot = s.modDir e.slot fun e => { e with copyVerified := true } := by
    simp [State.copyVerify, hd, hp, hv, hc, hpar', hm, hraw, hdig]
  rw [he, State.dir?_modDir _ _ (by intro; rfl), hd]
  rfl

end Sys2Proof.Machine
end

section
/-! CLAIMS. The obligation on the directory's upkeep. -/

namespace Sys2Proof.Machine

/-- Settles O30: each step of the upkeep by its own lemma. -/
theorem directoryUpkeepCompletes : Obligations.DirectoryUpkeepCompletes := by
  unfold Obligations.DirectoryUpkeepCompletes
  have gone : ∀ {s : State} {blk layer : Nat} {l : List Recheck}, l = (s.rechecks.filter fun y => !(y.blk == blk && y.layer == layer)) →
      ∀ y ∈ l, ¬(y.blk = blk ∧ y.layer = layer) := by
    rintro s blk layer l rfl y hy ⟨hb, hl⟩
    simpa [hb, hl] using (List.mem_filter.mp hy).2
  refine ⟨fun s e d hs hd hdom hms hp hst hr hidle => ?_, fun s e m raw hs hd hp hv hc hpar hm hraw hdig => ?_, fun s x => ?_,
    fun s blk layer c p l k x rest e hs hx hxe he hst hk hkp _ _ _ => ?_, fun s blk layer x r l hs hx hr hl hlost hc => ?_,
    fun s dev hs hnow hports => ?_⟩
  · exact ⟨s.idleWithdraw e.slot, by rw [exec, execIdleWithdraw, State.live, if_pos hs], State.idleWithdraw_frees hd hdom hms hp hst hr hidle⟩
  · have h0 : s.readFaults [] = s := ite_self _
    refine ⟨s.copyVerify e.slot, ?_, State.copyVerify_verifies hd hp hv hc hpar hm hraw hdig⟩
    rw [exec, execCopyVerify, h0, State.live, if_pos hs]
    rfl
  · have h0 : (s.readFaults x.found).readFaults [] = s.readFaults x.found := ite_self _
    rw [exec, exec, execCopyVerify, execCopyVerify, h0]
  · let u : State := { s with rechecks := s.rechecks.filter fun y => !(y.blk == blk && y.layer == layer) }
    obtain ⟨q, hq⟩ := State.engineFault_out (s := u) he hst 6
    have hex : s.decodeRecheck blk layer true = ({ u with recorder := q } : State).engineOut c p := by
      simp only [State.decodeRecheck, hx, hxe, Bool.not_true, Bool.false_eq_true, if_false]
      exact hq
    refine ⟨s.decodeRecheck blk layer true, by rw [exec, execDecodeRecheck, State.live, if_pos hs], ?_⟩
    obtain ⟨hfailed, hbrine, hre⟩ := State.engineOut_remaps (s := { u with recorder := q }) he hst hk hkp
    rw [hex]
    exact ⟨gone hre, hfailed, hbrine⟩
  · have hex : s.decodeRecheck blk layer false =
        ({ s with rechecks := s.rechecks.filter fun y => !(y.blk == blk && y.layer == layer) } : State).recheckFails blk layer := by
      simp only [State.decodeRecheck, hx, Bool.not_false, if_true]
    obtain ⟨hpriv, hpub⟩ := State.recheckFails_leaves
      (s := { s with rechecks := s.rechecks.filter fun y => !(y.blk == blk && y.layer == layer) }) hr hl hlost hc
    have hrun : exec (.decodeRecheck blk layer false) s = .next (s.decodeRecheck blk layer false) := by
      rw [exec, execDecodeRecheck, State.live, if_pos hs]
    refine ⟨fun hp => ⟨_, hrun, ?_⟩, fun e hp hd hrefs _ hf => ⟨_, hrun, ?_⟩⟩ <;> rw [hex]
    · exact ⟨gone (hpriv hp).1, (hpriv hp).2⟩
    · exact ⟨gone (hpub e hp hd hrefs hf).1, (hpub e hp hd hrefs hf).2⟩
  · have hgone : s.memberUnreachable dev = s.memberGone dev := by
      refine if_pos ⟨List.all_eq_true.mpr fun p hp => ?_, hnow⟩
      obtain ⟨hup, hleft⟩ := hports p hp
      simp [hup, hleft]
    refine ⟨s.memberUnreachable dev, by rw [exec, execMemberUnreachable, State.live, if_pos hs], ?_⟩
    rw [hgone]
    exact s.memberGone_loses dev

end Sys2Proof.Machine
end

section
/-! SUPPORT. Prefix commands (R57, R59 to R63, R67): the version that a link makes, the pass of a publication, and what the home's answer to it
leaves. -/

namespace Sys2Proof.Machine

/-! ### Links (R56, R57) -/

/-- The version that a commit makes stands in its sequence, its map made (R37). -/
theorem State.commitVersion_kernAt {s : State} {i : Nat} {q : Seq} (h : s.seq? i = some q) (v : Version) :
    ∃ m, (s.commitVersion i v).kernAt i = some ((q.next (s.mapPages q q.cur { v with num := (q.cur.num + 1) % 2 ^ 32, pins := 0 }).1 m).kern) := by
  let m := s.mapPages q q.cur { v with num := (q.cur.num + 1) % 2 ^ 32, pins := 0 }
  let a : State := m.2.modSeq i fun q => q.next m.1 m.2.newMirrors
  let b : State := a.reclaimVersion i q.cur.num
  let c : State := b.modSeq i fun q => { q with hasPins := (m.1.recIds.filterMap b.rec?).any (·.pinned), segmented := (m.1.recIds.filterMap b.rec?).any fun r => r.segment != 0 }
  have ht : s.commitVersion i v = (c.refreshShares.promoteHeld i).demoteAll.freeIdleProxies := by
    unfold State.commitVersion; rw [h]; rfl
  have hc : c.kernAt = b.kernAt := State.kernAt_of_ended (State.modSeq_ended _ _ _ fun _ => rfl)
  have ha : a.seq? i = (m.2.seq? i).map fun q => q.next m.1 m.2.newMirrors := State.seq?_modSeq _ _ fun _ hq => hq
  refine ⟨m.2.newMirrors, ?_⟩
  rw [ht, State.kernAt_of_seqs (State.seqs_of_held (State.freeIdleProxies_held _)), State.kernAt_of_seqs (State.seqs_of_moved (State.demoteAll_moved _)),
    State.kernAt_of_ended (State.promoteHeld_ended _ _), State.kernAt_of_ended (State.refreshShares_ended _), hc,
    State.reclaimVersion_kernAt, State.kernAt, ha, show m.2.seq? i = some q from h]
  rfl

/-- A link makes the next version, of the linked entry's blocks alone, and completes with it (R56, R57). -/
theorem State.commitLink_leaves {s : State} {r : Req} {q : Seq} (m : ModelRec) (e : DirEntry) (a : Nat) (hq : s.seq? q.index = some q)
    (hr : (s.ringOf r).isSome = true) : (∃ p, (s.commitLink r q m e a).seq? q.index = some p ∧ p.cur.prefixHandle = e.handle ∧ p.cur.prefixDepth = a ∧
      p.cur.blockCount = a ∧ p.cur.tokenCount = a * m.blockTokens ∧ p.cur.num = (q.cur.num + 1) % 2 ^ 32) ∧
    s.completes (s.commitLink r q m e a) r stOk (resVersion ((q.cur.num + 1) % 2 ^ 32)) := by
  let v : Version := { q.cur with prefixHandle := e.handle, prefixDepth := a, blockCount := a, tokenCount := a * m.blockTokens }
  let t := (s.takeRef e.slot).commitVersion q.index v
  have hq' : (s.takeRef e.slot).seq? q.index = some q := hq
  obtain ⟨hplaced, p, hp, hnum, hblocks, htokens, hprefix⟩ := State.commitVersion_leaves hq' v
  obtain ⟨mir, hk⟩ := State.commitVersion_kernAt hq' v
  have he : s.commitLink r q m e a = t.finish r stOk (resVersion ((q.cur.num + 1) % 2 ^ 32)) := by
    unfold State.commitLink
    simp only [State.mapVersion, show ((s.takeRef e.slot).commitVersion q.index v).seq? q.index = some p from hp, hnum, v, t]
  rw [he]
  refine ⟨?_, State.finish_completes_of_fns (State.fns_of_placed hplaced) hr _ _ _⟩
  rw [← State.finish_kernAt t r stOk (resVersion ((q.cur.num + 1) % 2 ^ 32)) {}, State.kernAt, Option.map_eq_some_iff] at hk
  obtain ⟨x, hx, hk⟩ := hk
  have hcur := congrArg Seq.cur hk
  exact ⟨x, hx, (congrArg Version.prefixHandle hcur :), (congrArg Version.prefixDepth hcur :), (congrArg Version.blockCount hcur :),
    (congrArg Version.tokenCount hcur :), (congrArg Version.num hcur :)⟩

/-- An ATTACH_PREFIX whose whole chain is here, with no commit ahead of it, links at once (R57). -/
theorem State.beginAttachPrefix_links {s : State} {r : Req} {f : AttachPrefixF} {q : Seq} {m : ModelRec} {e : DirEntry}
    (hs : s.attachSearches f = false) (ha : s.commitsAhead { r with readyAt := s.now } = []) (hc : (s.loadChain f.handle).checkAttachPrefix r f = none)
    (ho : (s.loadChain f.handle).openSeqOf r f.seq = .ok q) (hm : (s.loadChain f.handle).model? q.model = some m)
    (hl : (s.loadChain f.handle).linkable f.handle ((s.loadChain f.handle).domainOf r.tenant) m.fingerprint = some e)
    (hn : (s.loadChain f.handle).needsRef e = false) (hp : (s.loadChain f.handle).missingParent chainFuel e.handle = none) :
    s.beginAttachPrefix r f = (s.loadChain f.handle).commitLink r q m e f.depth := by
  have hahead : s.commitAhead r = s := by
    unfold State.commitAhead
    rw [ha]
    rfl
  simp only [State.beginAttachPrefix, hs, hahead, hc, ho, hm, hl, hn, hp, Bool.false_eq_true, if_false]

/-! ### The beginning of a publication (R59) -/

/-- The reads of far pages for a publication touch no sequence, and of its request only the list of what it waits for. -/
theorem State.readForRekey_leaves (id : Nat) : ∀ (l : List (Nat × Nat × Rec × Loc)) (s : State), (s.readForRekey id l).seqs = s.seqs ∧
    ∀ x, s.req? id = some x → ∃ y, (s.readForRekey id l).req? id = some y ∧ y.phase = x.phase ∧ y.pin = x.pin
  | [], _ => ⟨rfl, fun x hx => ⟨x, hx, rfl, rfl⟩⟩
  | (b, l, x, loc) :: rest, s => by
    unfold State.readForRekey
    split
    · exact ⟨rfl, fun x hx => ⟨x, hx, rfl, rfl⟩⟩
    · dsimp only
      have hheld := s.pageTransfer_held (.rekey id b l) (ownerHdr x.ownerKind x.owner) loc.tier loc.addr loc.grains loc.version none
      obtain ⟨hseqs, hreq⟩ := State.readForRekey_leaves id rest ((s.pageTransfer (.rekey id b l) (ownerHdr x.ownerKind x.owner) loc.tier loc.addr loc.grains
        loc.version none).modReq id fun r => { r with waits := (256 * b + l) :: r.waits })
      refine ⟨hseqs.trans (State.seqs_of_held hheld :), fun y hy => hreq { y with waits := (256 * b + l) :: y.waits } ?_⟩
      rw [State.req?_modReq _ _ (by intro; rfl), State.req?_of_held hheld, hy]
      rfl

theorem State.rekeyMore_leaves (s : State) (id : Nat) : (s.rekeyMore id).seqs = s.seqs ∧
    ∀ x, s.req? id = some x → ∃ y, (s.rekeyMore id).req? id = some y ∧ y.phase = x.phase ∧ y.pin = x.pin := by
  have same : s.seqs = s.seqs ∧ ∀ x, s.req? id = some x → ∃ y, s.req? id = some y ∧ y.phase = x.phase ∧ y.pin = x.pin :=
    ⟨rfl, fun x hx => ⟨x, hx, rfl, rfl⟩⟩
  unfold State.rekeyMore
  split
  · exact same
  · split
    · split
      · exact State.readForRekey_leaves id _ s
      · exact same
    · exact same

/-- A publication that passes its checks stands started, pins the version that it publishes and has a place reserved for its relink (R59). -/
theorem State.beginPublish_pins {s : State} {r : Req} {f : PublishF} {q : Seq} (hr : s.req? r.id = some r) (hw : s.mirrored = true)
    (hc : s.checkPublish r f = none) (ho : s.openSeqOf r f.seq = .ok q) (hq : s.seq? q.index = some q) :
    (∃ x, (s.beginPublish r f).req? r.id = some x ∧ x.phase = .started ∧ x.pin = some { index := q.index, version := q.cur.num }) ∧
      ∃ p, (s.beginPublish r f).seq? q.index = some p ∧ p.cur.pins = q.cur.pins + 1 ∧ p.places = q.places + 1 := by
  let n := s.grainsOfBlocks q q.cur (publishFrom q.cur) f.depth
  let t := ((s.pinCurrent r.id q).modReq r.id fun r => { r with phase := .started, done := n }).modSeq q.index fun q => { q with places := q.places + 1 }
  have he : s.beginPublish r f = t.rekeyMore r.id := by
    unfold State.beginPublish
    simp only [State.loadPublish_whole hw, hc, ho]
    rfl
  obtain ⟨hseqs, hreq⟩ := t.rekeyMore_leaves r.id
  have hrt : t.req? r.id = some { r with pin := some { index := q.index, version := q.cur.num }, phase := .started, done := n } := by
    change ((s.pinCurrent r.id q).modReq r.id fun r => { r with phase := .started, done := n }).req? r.id = _
    rw [State.req?_modReq _ _ (by intro; rfl), State.req?_pinCurrent, hr]
    rfl
  have hqt : t.seq? q.index = some { q with cur := { q.cur with pins := q.cur.pins + 1 }, places := q.places + 1 } := by
    have h1 : (s.modSeq q.index fun q => { q with cur := { q.cur with pins := q.cur.pins + 1 } }).seq? q.index =
        some { q with cur := { q.cur with pins := q.cur.pins + 1 } } := by
      rw [State.seq?_modSeq _ _ (by exact fun _ h => h), hq]
      rfl
    change (State.modSeq _ q.index _).seq? q.index = _
    rw [State.seq?_modSeq _ _ (by exact fun _ h => h)]
    change ((s.modSeq q.index fun q => { q with cur := { q.cur with pins := q.cur.pins + 1 } }).seq? q.index).map _ = _
    rw [h1]
    rfl
  obtain ⟨y, hy, hphase, hpin⟩ := hreq _ hrt
  rw [he]
  refine ⟨⟨y, hy, hphase, hpin⟩, { q with cur := { q.cur with pins := q.cur.pins + 1 }, places := q.places + 1 }, ?_, rfl, rfl⟩
  simp only [State.seq?, hseqs]
  exact hqt

/-! ### The pass of a publication (R60, R61, step 1) -/

/-- Bytes of a number spell it again (R5). -/
theorem ofLeBytes_leBytes : ∀ n v, ofLeBytes (leBytes n v) = v % 256 ^ n
  | 0, v => by simp [leBytes, ofLeBytes, Nat.mod_one]
  | n + 1, v => by
    rw [leBytes, ofLeBytes, ofLeBytes_leBytes n, BitVec.toNat_ofNat, Nat.pow_succ' (n := n) (m := 256), Nat.mod_mul (x := v) (a := 256) (b := 256 ^ n)]

/-- A digest written to 32 bytes is read back (R60). -/
theorem digest_of_leBytes (d : BitVec 256) : BitVec.ofNat 256 (ofLeBytes (leBytes 32 d.toNat)) = d := by
  rw [ofLeBytes_leBytes, Nat.mod_eq_of_lt (by have := d.isLt; omega), BitVec.ofNat_toNat, BitVec.setWidth_eq]

theorem State.rekeyPages_held (id : Nat) (q : Seq) (m : ModelRec) (home : Nat) : ∀ (l : List (Nat × Nat × Rec × Loc)) (raw : Bytes) (acc : List NewPage)
    (s : State), (s.rekeyPages id q m home l raw acc).2.2.2.held = s.held
  | [], _, _, _ => rfl
  | (b, l, r, loc) :: rest, raw, acc, s => by
    unfold State.rekeyPages
    split
    · rfl
    split
    · rfl
    split
    · rfl
    · rename_i stored _ _ tier addr _
      have hw := State.held_of_stored (s.writePage_stored tier addr loc.grains 2 q.domain loc.table stored)
      dsimp only
      rw [State.rekeyPages_held id q m home rest]
      exact ite_keeps (m := State.held) hw ((State.pageTransfer_held _ _ _ _ _ _ _ _).trans hw)

end Sys2Proof.Machine
end

section
/-! SUPPORT. What the home's answer to a publication leaves here (R61, steps 3 and 4): its digest on the way, its record to follow. -/

namespace Sys2Proof.Machine

/-! ### What steps 3 and 4 leave of requests and functions -/

/-- Where no change is ready to commit, none comes before a link (R40). -/
theorem State.commitAhead_idle {s : State} (h : ∀ id x, s.req? id = some x → x.phase ≠ .ready) (r : Req) : s.commitAhead r = s := by
  unfold State.commitAhead State.commitAll
  refine foldl_whole (fun id => ?_) _
  split
  · rename_i x hx
    exact if_neg fun hc => h id x hx hc.1
  · rfl

theorem State.commitVersion_placed (s : State) (i : Nat) (v : Version) : (s.commitVersion i v).placed = s.placed := by
  cases h : s.seq? i with
  | some q => exact (State.commitVersion_leaves h v).1
  | none =>
    unfold State.commitVersion
    rw [h]

theorem State.adoptRecs_stored (ps : List NewPage) : ∀ (l : List (Nat × Nat)) (s : State), (s.adoptRecs ps l).stored = s.stored
  | [], _ => rfl
  | (b, id) :: rest, s => by
    unfold State.adoptRecs
    split
    · exact State.adoptRecs_stored ps rest s
    · dsimp only
      rw [State.adoptRecs_stored ps rest, foldl_keeps State.stored _ fun s (l : Loc) => ite_keeps (m := State.stored) rfl (s.freePage_stored l.tier l.addr)]
      rfl

theorem State.copyRecs_held (ps : List NewPage) : ∀ (l : List (Nat × Nat)) (s : State), (s.copyRecs ps l).2.held = s.held
  | [], _ => rfl
  | (b, id) :: rest, s => by
    unfold State.copyRecs
    split
    · exact State.copyRecs_held ps rest s
    · exact (State.copyRecs_held ps rest _).trans rfl

theorem State.dropPage_stored (s : State) (tier addr : Nat) : (s.dropPage tier addr).stored = s.stored := by
  unfold State.dropPage
  split
  · rfl
  · rw [State.tableUnref_stored]
    rfl

theorem State.dropNew_stored (s : State) (r : Req) : (s.dropNew r).stored = s.stored :=
  foldl_keeps State.stored (fun s (p : NewPage) => s.dropPage p.tier p.addr) (fun s p => s.dropPage_stored p.tier p.addr) r.pages s

theorem State.modDir_placed (s : State) (slot : Nat) (g : DirEntry → DirEntry) : (s.modDir slot g).placed = s.placed := rfl
theorem State.putMap_placed (s : State) (slot : Nat) (map : List (Nat × Nat)) : (s.putMap slot map).placed = s.placed := rfl

theorem State.adoptRecs_placed (s : State) (ps : List NewPage) (l : List (Nat × Nat)) : (s.adoptRecs ps l).placed = s.placed :=
  State.placed_of_held (State.held_of_stored (State.adoptRecs_stored ps l s))

theorem State.copyRecs_placed (s : State) (ps : List NewPage) (l : List (Nat × Nat)) : (s.copyRecs ps l).2.placed = s.placed :=
  State.placed_of_held (State.copyRecs_held ps l s)

theorem State.freePlace_placed (s : State) (r : Req) : (s.freePlace r).placed = s.placed := by
  unfold State.freePlace
  split <;> rfl

theorem State.releaseRef_placed (n : Nat) (s : State) (slot : Nat) : (State.releaseRef n s slot).placed = s.placed :=
  State.placed_of_held (State.releaseRef_held n s slot)

/-- The entry that a relinked sequence linked before loses its reference, where there was one (R61, step 3). -/
theorem State.releaseLinked_placed (s : State) (h : Nat) : (if h = 0 then s else s.releaseHandle h).placed = s.placed :=
  ite_keeps (m := State.placed) rfl (State.placed_of_held (s.releaseHandle_held h))

theorem State.reqs_of_placed {s t : State} (h : t.placed = s.placed) : t.reqs = s.reqs := (congrArg State.reqs h :)

/-! ### The home's answers -/

section
variable {s t : State} {r : Req} (h : t.placed = s.placed) (hr : (s.req? r.id).isSome = true)
include h hr

/-- The digest of the entry is on its way, and the record of the publication waits for it (R61, step 4). -/
theorem State.putDigest_answers (f : PublishF) (digest : BitVec 256) (status result : Nat) :
    s.answers (t.putDigest r f digest status result) r f.digestAddr (leBytes 32 digest.toNat) status result :=
  State.answerWith_answers (State.fns_of_placed h) (by rwa [State.req?_of_reqs (State.reqs_of_placed h)]) _ _ _ _ _

variable (hidle : ∀ id x, s.req? id = some x → x.phase ≠ .ready)
include hidle

/-- The publication that made its entry answers OK, relinked or not. -/
theorem State.publishCreated_answers (f : PublishF) (q : Seq) (v : Version) (slot handle : Nat) (digest : BitVec 256) :
    ∃ linked, s.answers (t.publishCreated r f q v slot handle digest true) r f.digestAddr (leBytes 32 digest.toNat) stOk (resPublish handle linked) := by
  have hahead : t.commitAhead r = t := State.commitAhead_idle (by simpa only [State.req?_of_reqs (State.reqs_of_placed h)] using hidle) r
  simp only [State.publishCreated, hahead, if_true]
  split
  · refine ⟨true, State.putDigest_answers ?_ hr _ _ _ _⟩
    simp only [State.releaseLinked_placed, State.commitVersion_placed, State.freePlace_placed, State.modDir_placed, State.putMap_placed,
      State.adoptRecs_placed, h]
  · refine ⟨false, State.putDigest_answers ?_ hr _ _ _ _⟩
    simp only [State.releaseRef_placed, State.freePlace_placed, State.modDir_placed, State.putMap_placed, State.copyRecs_placed, h]

/-- The publication that merged with a published entry answers OK_MERGED, linked to it or not. -/
theorem State.publishMerged_answers (f : PublishF) (q : Seq) (v : Version) (slot handle : Nat) (digest : BitVec 256) :
    ∃ linked, s.answers (t.publishMerged r f q v slot handle digest true) r f.digestAddr (leBytes 32 digest.toNat) stOkMerged
      (resPublish handle linked) := by
  have hdrop : (t.dropNew r).placed = s.placed := (State.placed_of_held (State.held_of_stored (t.dropNew_stored r))).trans h
  have hahead : (t.dropNew r).commitAhead r = t.dropNew r :=
    State.commitAhead_idle (by simpa only [State.req?_of_reqs (State.reqs_of_placed hdrop)] using hidle) r
  simp only [State.publishMerged, hahead, if_true]
  split
  · refine ⟨true, State.putDigest_answers ?_ hr _ _ _ _⟩
    simp only [State.releaseLinked_placed, State.commitVersion_placed, State.freePlace_placed, hdrop]
  · refine ⟨false, State.putDigest_answers ?_ hr _ _ _ _⟩
    simp only [State.releaseRef_placed, State.freePlace_placed, hdrop]

end

end Sys2Proof.Machine
end

section
/-! SUPPORT. The end of a publication's reads (R60, R61), and a withdrawal at the home (R66). -/

namespace Sys2Proof.Machine

/-! ### From the end of the reads to the home (R60, R61, steps 1 and 2) -/

/-- No page is left to ask for. -/
theorem State.rekeyMore_none {s : State} {r : Req} {f : PublishF} {q : Seq} {v : Version} (hr : s.req? r.id = some r) (hd : r.desc = .publish f)
    (hpin : r.pin.bind s.pinned? = some (q, v)) (hleft : r.rekeyLeft (s.publishPages q v (publishFrom v) f.depth) = []) : s.rekeyMore r.id = s := by
  have hread : s.readForRekey r.id (r.rekeyLeft (s.publishPages q v (publishFrom v) f.depth)) = s := by rw [hleft]; rfl
  simp only [State.rekeyMore, hr, Option.bind_some, hpin, Option.map_some, hd, hread, ite_self]

/-- A pass whose reads have all ended digests what it has read, and the publication goes on with its new pages (R60, R61, step 1). -/
theorem State.rekeyEnd_goes {s w : State} {r : Req} {f : PublishF} {q : Seq} {v : Version} {m : ModelRec} {raw : Bytes} {ps : List NewPage}
    (hr : s.req? r.id = some r) (hd : r.desc = .publish f) (he : r.ended = none) (hdata : r.data = []) (hw : s.mirrored = true)
    (hpin : r.pin.bind s.pinned? = some (q, v)) (ho : s.openSeqOf r f.seq = .ok q) (hm : s.model? q.model = some m)
    (hreads : s.rekeyReads r.id = false) (hleft : r.rekeyLeft (s.publishPages q v (publishFrom v) f.depth) = [])
    (hpages : s.rekeyPages r.id q m ((s.stacksByRoom 0).headD 0) (s.publishPages q v (publishFrom v) f.depth) [] [] = (raw, ps, none, w)) :
    let data := leBytes 32 (digest256 (digestHead m.fingerprint q.fmt f.depth (w.parentDigest v.prefixHandle) ++ raw)).toNat
    s.rekeyEnd r f = (w.modReq r.id fun x => { x with pages := ps, data := data }).publishGoes { r with pages := ps, data := data } f := by
  simp only [State.rekeyEnd, hpin, State.loadBlocks_whole hw, State.rekeyMore_none hr hd hpin hleft, hreads, hdata, Req.not_stops he, ho, hm, hpages,
    List.isEmpty_nil, Bool.not_true, Bool.false_eq_true, or_self, if_false]

/-- A pass that has ended, and whose writes have, brings its publication to the home (R61, step 2). -/
theorem State.publishGoes_sends {u : State} {r : Req} {f : PublishF} {q : Seq} {v : Version} {m : ModelRec} (hp : r.phase = .started)
    (he : r.ended = none) (hdata : r.data ≠ []) (ht : u.homeTableHeld r = false) (hspill : ∀ y ∈ u.txns, y.kind ≠ .spill r.id)
    (hpin : r.pin.bind u.pinned? = some (q, v)) (hm : u.model? q.model = some m) : u.publishGoes r f = u.publishSend r f q v m := by
  have hs : (u.txns.any fun t => t.kind == .spill r.id) = false := by simpa using hspill
  have hd : r.data.isEmpty = false := by simpa using hdata
  simp only [State.publishGoes, hp, Req.not_stops he, hd, ht, hs, hpin, hm, ne_eq, not_true_eq_false, Bool.false_eq_true, or_self, if_false]

/-- What a request's answer needs of the state before it is its functions alone. -/
theorem State.answers_of_fns {s u t : State} {r : Req} {addr status result : Nat} {data : Bytes} (h : u.fns = s.fns)
    (ha : u.answers t r addr data status result) : s.answers t r addr data status result := by
  unfold State.answers
  rw [← State.groupOfFn_of_fns h]
  exact ha

/-- At its home, a publication takes the answer of its compare-and-set: the entry that it made, or the one that it merges with (R61). -/
theorem State.publishSend_answers {u x : State} {r : Req} {f : PublishF} {q : Seq} {v : Version} {m : ModelRec} {digest : BitVec 256} {e : DirEntry}
    (hdata : r.data = leBytes 32 digest.toNat) (hhome : u.homeOf (u.publishKey f q v m digest).hash = u.params.deviceId)
    (hr : (u.req? r.id).isSome = true) (hidle : ∀ id y, u.req? id = some y → y.phase ≠ .ready) :
    (u.compareAndSet (u.publishKey f q v m digest) [] (sumBy (·.grains) r.pages) = (.created e, x) → ∃ linked,
      u.answers (u.publishSend r f q v m) r f.digestAddr (leBytes 32 digest.toNat) stOk (resPublish e.handle linked)) ∧
    (u.compareAndSet (u.publishKey f q v m digest) [] (sumBy (·.grains) r.pages) = (.merged e, x) → ∃ linked,
      u.answers (u.publishSend r f q v m) r f.digestAddr (leBytes 32 e.digest.toNat) stOkMerged (resPublish e.handle linked)) := by
  have hk : BitVec.ofNat 256 (ofLeBytes r.data) = digest := by rw [hdata, digest_of_leBytes]
  have hcas := State.placed_of_held (State.held_of_linked (u.compareAndSet_linked (u.publishKey f q v m digest) [] (sumBy (·.grains) r.pages)))
  constructor <;> intro hc <;> rw [hc] at hcas <;> simp only [State.publishSend, hk, if_pos hhome, hc]
  · exact State.publishCreated_answers hcas hr hidle f q v e.slot e.handle digest
  · exact State.publishMerged_answers hcas hr hidle f q v e.slot e.handle e.digest

/-- READ_AND_REKEY_END of a running publication that nothing blocks, its two digests agreeing. -/
theorem exec_readAndRekeyEnd {s : State} {r : Req} {f : PublishF} (hs : s.inService = true) (hr : s.req? r.id = some r) (hd : r.desc = .publish f)
    (hp : r.phase = .started) (hb : s.blocked r = false) : exec (.readAndRekeyEnd r.id [] .pass) s = .next (s.rekeyEnd r f) := by
  have h0 : s.readFaults [] = s := ite_self _
  have hend : s.checkedRekey r .pass = s.rekeyEnd r f := by
    change s.rekeyEnds r = _
    simp only [State.rekeyEnds, hd, hp, hb, Bool.not_false, true_and, if_true]
  rw [exec, execReadAndRekeyEnd, h0, State.withReq_service hs hr, hend]

/-- The pass changes the pages of its own request alone, and makes no change ready. -/
theorem State.rekeyed_idle {s w : State} {r : Req} {ps : List NewPage} {data : Bytes} (hw : w.reqs = s.reqs) (hr : s.req? r.id = some r)
    (hp : r.phase ≠ .ready) (hidle : ∀ y ∈ s.reqs, y.id ≠ r.id → y.phase ≠ .ready) :
    ∀ id y, (w.modReq r.id fun x => { x with pages := ps, data := data }).req? id = some y → y.phase ≠ .ready := by
  intro id y hy
  by_cases hid : id = r.id
  · subst hid
    rw [State.req?_modReq _ _ (by intro; rfl), State.req?_of_reqs hw, hr] at hy
    obtain rfl := Option.some.inj hy
    exact hp
  · have hne : (w.modReq r.id fun x => { x with pages := ps, data := data }).req? id = w.req? id := find?_mapIf_ne (by intro; rfl) hid w.reqs
    rw [hne, State.req?_of_reqs hw] at hy
    have hyid : y.id = id := by simpa using List.find?_some hy
    exact hidle y (List.mem_of_find?_eq_some hy) (hyid ▸ hid)

/-! ### WITHDRAW_PREFIX at the home (R66, R69) -/

/-- A published home entry is withdrawn at its home: its slot holds no published entry any more, and the command completes OK. -/
theorem State.beginWithdraw_withdraws {s : State} {r : Req} {h : Nat} {e : DirEntry} (hr : (s.ringOf r).isSome = true) (hw : s.mirrored = true)
    (hh : handleHome h = s.params.deviceId)
    (hf : s.withdrawable h (s.domainOf r.tenant) s.params.deviceId r.tenant (s.prefixAdmin r.tenant) = some e) :
    (∀ x ∈ (s.beginWithdraw r h).dir, x.slot = e.slot → x.st ≠ .published) ∧ s.completes (s.beginWithdraw r h) r stOk 0 := by
  have he : s.beginWithdraw r h = (s.withdraw e).finish r stOk 0 := by
    simp only [State.beginWithdraw, State.loadHandle_whole hw, if_pos hh, hf]
  rw [he]
  refine ⟨?_, State.finish_completes_of_fns (State.fns_of_placed (State.placed_of_held (State.held_of_linked (s.withdraw_linked e)))) hr _ _ _⟩
  rw [(State.finish_leaves _ r stOk 0 {}).1]
  exact s.withdraw_unpublished e

end Sys2Proof.Machine
end

section
/-! CLAIMS. Prefix commands (03). -/

namespace Sys2Proof.Machine

/-- ATTACH_PREFIX of an entry held here with its whole chain (R57). -/
theorem attachPrefix_links {s u : State} {sub : Sub} {f : AttachPrefixF} {r : Req} {q : Seq} {m : ModelRec} {e : DirEntry}
    (h : s.begins sub (.attachPrefix f) = some (u, r)) (hr : (u.ringOf r).isSome = true) (hs : u.attachSearches f = false)
    (ha : u.commitsAhead { r with readyAt := u.now } = []) (hc : (u.loadChain f.handle).checkAttachPrefix r f = none)
    (ho : (u.loadChain f.handle).openSeqOf r f.seq = .ok q) (hq : (u.loadChain f.handle).seq? q.index = some q)
    (hm : (u.loadChain f.handle).model? q.model = some m)
    (hl : (u.loadChain f.handle).linkable f.handle ((u.loadChain f.handle).domainOf r.tenant) m.fingerprint = some e)
    (hn : (u.loadChain f.handle).needsRef e = false) (hp : (u.loadChain f.handle).missingParent chainFuel e.handle = none) :
    Leaves (.attachPrefix sub f) s fun t =>
      (∃ p, t.seq? q.index = some p ∧ p.cur.prefixHandle = e.handle ∧ p.cur.prefixDepth = f.depth ∧ p.cur.blockCount = f.depth ∧
        p.cur.tokenCount = f.depth * m.blockTokens ∧ p.cur.num = (q.cur.num + 1) % 2 ^ 32) ∧
      u.completes t r stOk (resVersion ((q.cur.num + 1) % 2 ^ 32)) := by
  have hring : (u.loadChain f.handle).ringOf r = u.ringOf r :=
    State.ringOf_of_fns (State.fns_of_placed (State.placed_of_held (State.held_of_linked (u.loadChain_linked f.handle)))) r
  obtain ⟨hseq, hdone⟩ := State.commitLink_leaves m e f.depth hq (by rwa [hring])
  have hd := State.begins_desc_same h fun _ => rfl
  refine leaves_of_begins rfl h (by simp [hd]) (by simp [hd]) ?_
  simp only [State.beginReq, hd]
  rw [State.beginAttachPrefix_links hs ha hc ho hm hl hn hp]
  exact ⟨hseq, State.completes_of_ringOf hring hdone⟩

/-- Settles O21: a command begins on what it loads and finds; the end of a publication's reads runs through its digest and the home's
compare-and-set to the bytes that leave. -/
theorem prefixCommandsComplete : Obligations.PrefixCommandsComplete := by
  unfold Obligations.PrefixCommandsComplete
  refine ⟨?_, ?_, ?_, ?_, ?_⟩
  · intro s u sub f r q m e h hr hs ha v hc ho hq hm hl hn hp
    exact attachPrefix_links h hr hs ha hc ho hq hm hl hn hp
  · intro s u sub f r q h hw hc ho hq
    have hd := State.begins_desc_same h fun _ => rfl
    refine leaves_of_begins rfl h (by simp [hd]) (by simp [hd]) ?_
    simp only [State.beginReq, hd]
    exact State.beginPublish_pins (State.begins_stands h) hw hc ho hq
  · intro s w x f r q v m raw ps e hs hr hd hp hb he hdata hw hpin ho hm _ hreads hidle pages hleft hpages digest r' u hpinu hmu htab hspill k hhome
    have hheld : w.held = s.held := by
      have := s.rekeyPages_held r.id q m ((s.stacksByRoom 0).headD 0) pages [] []
      rwa [hpages] at this
    have hgoes : s.rekeyEnd r f = u.publishSend r' f q v m :=
      (State.rekeyEnd_goes hr hd he hdata hw hpin ho hm hreads hleft hpages).trans
        (State.publishGoes_sends (r := r') hp he (by simp [r', leBytes]) htab hspill hpinu hmu)
    have hreq : (u.req? r'.id).isSome = true := by
      change (u.req? r.id).isSome = true
      rw [State.req?_modReq _ _ (by intro; rfl), State.req?_of_held hheld, hr]
      rfl
    have hfns : u.fns = s.fns := (State.fns_of_placed (State.placed_of_held hheld) : w.fns = s.fns)
    have hexec := exec_readAndRekeyEnd hs hr hd hp hb
    rw [hgoes] at hexec
    obtain ⟨hcreated, hmerged⟩ := State.publishSend_answers (x := x) (f := f) (e := e) (r := r') (digest := digest) rfl hhome hreq
      (State.rekeyed_idle (State.reqs_of_held hheld) hr (by rw [hp]; decide) hidle)
    refine ⟨fun hc => ⟨_, hexec, ?_⟩, fun hc => ⟨_, hexec, ?_⟩⟩
    · exact (hcreated hc).imp fun _ ha => State.answers_of_fns hfns ha
    · exact (hmerged hc).imp fun _ ha => State.answers_of_fns hfns ha
  · intro s id found check
    have h0 : (s.readFaults found).readFaults [] = s.readFaults found := ite_self _
    rw [exec, exec, execReadAndRekeyEnd, execReadAndRekeyEnd, h0]
  · intro s u sub h r e hbeg hr hw hh hf
    have hd := State.begins_desc_same hbeg fun _ => rfl
    refine leaves_of_begins rfl hbeg (by simp [hd]) (by simp [hd]) ?_
    simp only [State.beginReq, hd]
    exact State.beginWithdraw_withdraws hr hw hh hf

end Sys2Proof.Machine
end

section
/-! CLAIMS. A comparison that finds nothing also rewrites rows of the policy table that hold no entry (R89, R91), which its obligation
denies. -/

namespace Sys2Proof.Machine

/-- The policy row of a tenant that has been purged while the row differed from its shadow in one key bit. -/
def purgedRow : PolicyRow :=
  { rule := { tenant := 1, rank := 0, value := 0, care := 0, result := 12 }, present := false, upset := some (1, 0) }

/-- In service, with a bank for the policy table, that row its only entry, and a comparison due. -/
def purgedPolicy : State :=
  { State.reset with
    now := compareTicks, boot := { State.reset.boot with phase := .service },
    array := { ArraySt.atBoot with banks := [{ n := 0, tag := 5, st := .working, rowsSpent := 0 }], policy := [purgedRow] } }

/-- The row is no live entry of the array. -/
theorem purgedPolicy_shadows : purgedPolicy.shadows = [] := by decide

theorem purgedPolicy_compared : (purgedPolicy.shadowCompare []).array.policy = [{ purgedRow with upset := none }] := by decide

/-- Refutes O29 in its first part: every live entry's shadow and rows are good, as there is none, and nothing is found different; yet the
comparison rewrites the row of a purged policy, and not only its own time and the suspects. -/
theorem not_arrayCommandsComplete : ¬ Obligations.ArrayCommandsComplete := by
  unfold Obligations.ArrayCommandsComplete
  rintro ⟨hcompare, -⟩
  obtain ⟨t, hexec, hsame⟩ := hcompare purgedPolicy rfl (by rw [purgedPolicy_shadows]; exact fun x hx => absurd hx List.not_mem_nil)
  have ht : t = purgedPolicy.shadowCompare [] := (Host.Outcome.next.inj hexec).symm
  have hstands : t.array.policy = [purgedRow] := by rw [hsame]; rfl
  rw [ht, purgedPolicy_compared] at hstands
  revert hstands
  decide

end Sys2Proof.Machine
end

section
/-! SUPPORT. Pool extents (R262 to R267): what their offers, claims, confirmations and releases leave, on a controller and at a tray. -/

namespace Sys2Proof.Machine

/-! ### Commands in service and on links -/

theorem leaves_of_live {c : Instr} {s : State} {g : State → State} {P : State → Prop} (hc : exec c s = .next (s.live g)) (hs : s.inService = true)
    (hp : P (g s)) : Leaves c s P :=
  ⟨_, hc, by rwa [State.live, if_pos hs]⟩

theorem leaves_of_hears {c : Instr} {s : State} {link v n : Nat} {p : Port} {fr : Frame} {kinds : List Nat} {answer : Bool} {k : State → Port → State}
    {P : State → Prop} (hc : exec c s = .next (s.takeFrame link fr v kinds n answer k)) (h : s.hears link p fr v kinds n = true)
    (hp : P (k (s.heard link fr) p)) : Leaves c s P :=
  ⟨_, hc, by rwa [State.takeFrame_of_hears h]⟩

/-! ### Pool keys (R279) -/

theorem State.setKey_slotFilled (s : State) (n e : Nat) (k k2 k3 : BitVec 256) (m : Nat) :
    (s.setKey n e k k2 k3).slotFilled m = (n == m || s.slotFilled m) := by
  by_cases h : n = m
  · simp [State.slotFilled, State.setKey, h]
  · have hf : ∀ x : KeySlot, (x.n != n && x.n == m) = (x.n == m) := fun x => by
      by_cases hx : x.n = m <;> simp [hx, Ne.symm h]
    simp [State.slotFilled, State.setKey, List.any_filter, hf, beq_eq_false_iff_ne.mpr h]

theorem State.fillSlot_slotFilled (s : State) (n epoch m : Nat) : (s.fillSlot n epoch).slotFilled m = (n == m || s.slotFilled m) := by
  unfold State.fillSlot
  dsimp only
  split
  · exact State.setKey_slotFilled _ _ _ _ _ _ _
  · split <;> exact State.setKey_slotFilled _ _ _ _ _ _ _

/-- A grant fills its host's slot and empties none. -/
theorem State.makeKey_slotFilled (s : State) (host m : Nat) : (s.makeKey host).slotFilled m = (ownerSlot 1 host == m || s.slotFilled m) := by
  unfold State.makeKey
  split
  · next h =>
    by_cases hm : ownerSlot 1 host = m
    · simp [← hm, h]
    · simp [hm]
  · exact s.fillSlot_slotFilled _ _ _

/-- The answer to a host's claim, after its key is made where it has none. -/
theorem State.makeKey_send {s : State} {link : Nat} (hi : s.portIssues (.asvis link) = true) (hk : s.slotFilled (portSlot (.asvis link)) = true)
    (host msg xid object aux status : Nat) (data : Bytes) :
    ((s.makeKey host).send link msg xid object aux status data).sent link msg xid object status data ∧
      ((s.makeKey host).send link msg xid object aux status data).slotFilled (ownerSlot 1 host) = true ∧
      ((s.makeKey host).send link msg xid object aux status data).tray = s.tray := by
  have hkey : s.makeKey host = keysFrame s (s.makeKey host) := s.makeKey_keysFrame host _
  have hi' : (s.makeKey host).portIssues (.asvis link) = true := by rw [hkey]; exact hi
  have hk' : (s.makeKey host).slotFilled (portSlot (.asvis link)) = true := by rw [s.makeKey_slotFilled, hk, Bool.or_true]
  obtain ⟨hsent, q, ps, o, he⟩ := State.send_sends hi' hk' msg xid object aux status data {}
  refine ⟨hsent, ?_, ?_⟩ <;> rw [he]
  · exact (s.makeKey_slotFilled host _).trans (by rw [beq_self_eq_true, Bool.true_or])
  · exact (congrArg State.tray hkey :)

/-! ### A tray's extents (R264, R267) -/

section
variable {s : State} {link : Nat} {fr : Frame} {e : TrayExtent} (p : Port) (hi : s.portIssues (.asvis link) = true)
  (hk : s.slotFilled (portSlot (.asvis link)) = true) (ht : s.isTray = true) (he : (s.tray.extents.find? fun e => e.base == fr.object) = some e)
include hi hk ht he

/-- The first claim takes the extent. -/
theorem State.onClaim_takes (ho : e.owner = none) : (s.onClaim link p fr).sent link msgExtentDone fr.xid fr.object 0 [] ∧
    (s.onClaim link p fr).slotFilled (ownerSlot 1 p.device) = true ∧
      ((s.onClaim link p fr).tray.extents.find? fun e => e.base == fr.object) = some { e with owner := some p.device } := by
  have hb : e.base = fr.object := by simpa using List.find?_some he
  have hx : s.onClaim link p fr = ((s.modTrayExtent fr.object fun e => { e with owner := some p.device }).makeKey p.device).send link msgExtentDone
      fr.xid fr.object 0 0 [] := by
    simp [State.onClaim, ht, he, ho, hb]
  rw [hx]
  obtain ⟨hsent, hkey, htray⟩ := State.makeKey_send (s := s.modTrayExtent fr.object fun e => { e with owner := some p.device }) hi hk p.device msgExtentDone
    fr.xid fr.object 0 0 []
  refine ⟨hsent, hkey, ?_⟩
  rw [htray]
  exact (find?_mapIf (key := TrayExtent.base) (g := fun x => { x with owner := some p.device }) (fun x hx => hx) s.tray.extents).trans
    (congrArg (Option.map _) he)

/-- A claim of the holder's is confirmed again; every other names the holder. -/
theorem State.onClaim_taken {w : Nat} (ho : e.owner = some w) :
    if w = p.device then (s.onClaim link p fr).sent link msgExtentDone fr.xid fr.object 0 []
      else (s.onClaim link p fr).sent link msgExtentDone fr.xid w 8 [] := by
  have hx : s.onClaim link p fr = if w = p.device then (s.makeKey w).send link msgExtentDone fr.xid fr.object 0 0 []
      else s.send link msgExtentDone fr.xid w 0 8 [] := by
    simp [State.onClaim, ht, he, ho]
  rw [hx]
  split
  · exact (State.makeKey_send hi hk w msgExtentDone fr.xid fr.object 0 0 []).1
  · exact (State.send_sends hi hk msgExtentDone fr.xid w 0 8 [] {}).1

end

@[simp] theorem State.bumpId_carried (s : State) : s.bumpId.carried = s.carried := rfl

@[simp] theorem State.offerExtents_carried (s : State) (port : PortId) : (s.offerExtents port).carried = s.carried := by
  refine ite_keeps (m := State.carried) rfl (foldl_keeps State.carried _ (fun s e => ?_) _ _)
  cases port with
  | asvis l => exact ite_keeps (m := State.carried) (by simp) rfl
  | cxl c => exact ite_keeps (m := State.carried) (by simp) rfl
  | nvme c p => rfl

theorem State.settleKey_tray (s : State) (host : Nat) : (s.settleKey host).tray = s.tray := ite_keeps (m := State.tray) rfl rfl

/-- An extent that its host gives back has no owner and no object of that host's. -/
theorem State.extentBack_tray (s : State) (e : TrayExtent) (host : Nat) : (s.extentBack e host).tray =
    { s.tray with extents := mapIf (fun x => x.base == e.base) (fun x => { x with owner := none }) s.tray.extents
                  objects := s.tray.objects.filter fun o => !o.overlaps host e.base e.grains } := by
  unfold State.extentBack
  extract_lets u v
  have hoffer : (((v.ports.filter fun p => p.st == .up).map (·.id)).foldl (fun (s : State) p => s.offerExtents p) v).carried = v.carried :=
    foldl_keeps State.carried _ (fun s p => s.offerExtents_carried p) _ _
  exact (congrArg State.tray hoffer :).trans (u.settleKey_tray host)

theorem State.releaseAcked_frees {s : State} {p : Port} {fr : Frame} {e : TrayExtent}
    (he : (s.tray.extents.find? fun e => e.base == fr.object && e.owner == some p.device) = some e) :
    (∀ x ∈ (s.releaseAcked p fr).tray.extents, x.base = e.base → x.owner = none) ∧
      ∀ o ∈ (s.releaseAcked p fr).tray.objects, o.overlaps p.device e.base e.grains = false := by
  have hx : s.releaseAcked p fr = s.extentBack e p.device := by simp [State.releaseAcked, he]
  rw [hx, State.extentBack_tray]
  refine ⟨fun x hx hb => ?_, fun o ho => by simpa using (List.mem_filter.mp ho).2⟩
  obtain ⟨y, -, rfl⟩ := List.mem_map.mp hx
  by_cases hy : y.base = e.base
  · simp [hy]
  · simp [hy] at hb

/-! ### Extents that are entered (R262, R264) -/

/-- An offer with room is noted as claiming, and its claim leaves (log entry 67). -/
theorem State.onOffer_claims {s : State} {link i b : Nat} {fr : Frame} (p : Port) (hi : s.portIssues (.asvis link) = true)
    (hk : s.slotFilled (portSlot (.asvis link)) = true) (ht : s.isTray = false) (hn : s.extentOn link fr.object = none)
    (hr : s.extentRoom (fr.aux % 2 ^ 32) = some (i, b)) :
    (s.onOffer link p fr).sent link msgExtentClaim s.ids fr.object 0 [] ∧
      (∃ e ∈ (s.onOffer link p fr).extents, e.id = i ∧ e.st = .claiming ∧ e.route = link ∧ e.poolBase = b ∧ e.targetBase = fr.object ∧
        e.grains = fr.aux % 2 ^ 32 ∧ e.resident = bit fr.aux 32) ∧
      ∃ x ∈ (s.onOffer link p fr).txns, x.xid = s.ids ∧ x.kind = .claim i := by
  have hx : s.onOffer link p fr = (s.enterExtent .claiming i b link fr.object fr.object (p.peer.elim 0 (·.device)) (fr.aux % 2 ^ 32) (bit fr.aux 32)).request
      link msgExtentClaim fr.object 0 0 (.claim i) [] := by
    simp only [State.onOffer, ht, hn, hr]
    rfl
  rw [hx, State.request]
  generalize hu : s.enterExtent .claiming i b link fr.object fr.object (p.peer.elim 0 (·.device)) (fr.aux % 2 ^ 32) (bit fr.aux 32) = u
  have hids : u.ids = s.ids := by rw [← hu]; rfl
  have hi' : u.portIssues (.asvis link) = true := by rw [← hu]; exact hi
  have hk' : u.slotFilled (portSlot (.asvis link)) = true := by rw [← hu]; exact hk
  obtain ⟨hsent, q, ps, o, he⟩ := State.send_sends hi' hk' msgExtentClaim u.ids fr.object 0 0 []
    (u.hdrFor (.claim i) { tenant := 0, domain := u.domainOf 0 })
  rw [hids] at hsent he ⊢
  refine ⟨hsent, ?_, _, List.mem_cons_self, ?_, rfl⟩
  · rw [he, ← hu]
    exact ⟨_, List.mem_append_right _ List.mem_cons_self, rfl, rfl, rfl, rfl, rfl, rfl, rfl⟩
  · rw [he]

/-- An added capacity with room is active at once, and is taken. -/
theorem State.addCapacity_enters {s : State} {c tag base grains i b : Nat} (ht : s.isTray = false) (hi : s.portIssues (.cxl c) = true)
    (hg : ((s.port? (.cxl c)).any (·.gen31)) = true) (hr : s.extentRoom grains = some (i, b)) :
    Output.cxlCapacity c tag true ∈ (s.addCapacity c tag base grains).out ∧
      ∃ e ∈ (s.addCapacity c tag base grains).extents, e.id = i ∧ e.st = .active ∧ e.route = 96 + c ∧ e.tag = tag ∧ e.poolBase = b ∧
        e.targetBase = base ∧ e.grains = grains := by
  have hg' : (s.port? (.cxl c)).elim false (·.gen31) = true := by
    cases hp : s.port? (.cxl c) with
    | none => simp [hp] at hg
    | some q => simpa [hp] using hg
  have hx : s.addCapacity c tag base grains =
      (s.enterExtent .active i b (96 + c) base tag 0 grains false).emit (.cxlCapacity c tag true) := by
    have hi' : (s.enterExtent .active i b (96 + c) base tag 0 grains false).portIssues (.cxl c) = true := hi
    simp [State.addCapacity, ht, hi, hg', hr, State.emitOn, hi']
  rw [hx]
  exact ⟨List.mem_cons_self, _, List.mem_append_right _ List.mem_cons_self, rfl, rfl, rfl, rfl, rfl, rfl, rfl⟩

theorem State.extent?_modExtent {s : State} {e : Extent} (he : s.extent? e.id = some e) {g : Extent → Extent} (hg : ∀ x, (g x).id = x.id) :
    (s.modExtent e.id g).extent? e.id = some (g e) :=
  (find?_mapIf (key := Extent.id) (fun x hx => (hg x).trans hx) s.extents).trans (congrArg (Option.map g) he)

/-- The confirmation of a claim makes its extent active and ends the transaction. -/
theorem State.claimAnswer_confirms {s : State} {link : Nat} {fr : Frame} {x : Txn} {e : Extent} (ha : s.answered link fr = some x)
    (hk : x.kind = .claim e.id) (hst : fr.status = 0) (he : s.extent? e.id = some e) :
    (s.claimAnswer link fr).extent? e.id = some { e with st := .active, since := s.now } ∧ ∀ y ∈ (s.claimAnswer link fr).txns, y.xid ≠ x.xid := by
  have hx : s.claimAnswer link fr = (s.dropTxn x.xid).modExtent e.id fun e => { e with st := .active, since := s.now } := by
    simp only [State.claimAnswer, ha, hk, if_pos hst]
    rfl
  rw [hx]
  exact ⟨State.extent?_modExtent (s := s.dropTxn x.xid) he fun _ => rfl, fun y hy => by simpa using (List.mem_filter.mp hy).2⟩

/-! ### Extents that are released (R265 to R267) -/

theorem State.releaseExtent_claiming {s : State} {e : Extent} (h : e.st = .claiming) (forced : Bool) :
    ∀ x ∈ (s.releaseExtent e forced).extents, x.id ≠ e.id := by
  rw [State.releaseExtent, if_pos h]
  exact fun x hx => by simpa using (List.mem_filter.mp hx).2

/-- A forced release makes an active extent drain; with no move under way nothing else happens (R266). -/
theorem State.releaseExtent_forced {s : State} {e : Extent} (he : s.extent? e.id = some e) (h : e.st = .active) (hm : s.moves = []) :
    (s.releaseExtent e true).extent? e.id =
      some { e with st := .draining, forced := true, releasing := false, since := s.now, drainAt := s.now } := by
  have hx : s.releaseExtent e true =
      s.modExtent e.id fun e => { e with st := .draining, forced := true, releasing := false, since := s.now, drainAt := s.now } := by
    simp [State.releaseExtent, h, State.forceRelease, State.drainExtent, hm]
  rw [hx]
  exact State.extent?_modExtent he fun _ => rfl

/-- No page and no weight chunk lies on the extent. -/
def State.unused (s : State) (e : Extent) : Prop := s.extentPages e = [] ∧ s.extentChunks e = []

theorem State.ackRelease_carried (s : State) (e : Extent) : (s.ackRelease e).carried = s.carried :=
  ite_keeps (m := State.carried) (by simp) (by simp)

/-- A released extent that nobody uses is freed at once; nothing else happens to the extents. -/
theorem State.settleExtent_unused {s : State} {e : Extent} (h : s.unused e) :
    (s.settleExtent e).extents = (if e.st = .active ∧ e.releasing = true then s.extents.filter fun x => x.id != e.id else s.extents) ∧
      ∀ x, (s.settleExtent e).unused x ↔ s.unused x := by
  obtain ⟨hp, hc⟩ := h
  have he : s.settleExtent e = if e.st = .active ∧ e.releasing = true then (s.ackRelease e).freeExtent e else s := by
    simp only [State.settleExtent, State.evacuate, hp, hc, List.foldl_nil, List.isEmpty_nil, Bool.and_self, if_true]
    by_cases hst : e.st = .active <;> cases hr : e.releasing <;> simp [hst]
  have hack := s.ackRelease_carried e
  rw [he]
  split
  · exact ⟨congrArg (List.filter _) (congrArg State.extents hack :), fun x => by
      have hrecs : ((s.ackRelease e).freeExtent e).recs = s.recs := (congrArg State.recs hack :)
      have hweights : ((s.ackRelease e).freeExtent e).weights = s.weights := (congrArg State.weights hack :)
      simp only [State.unused, State.extentPages, State.extentChunks, hrecs, hweights]⟩
  · exact ⟨rfl, fun _ => Iff.rfl⟩

/-- Where nobody uses an extent, settling adds none, and frees those that are being released. -/
theorem State.settleExtents_unused : ∀ (l : List Extent) (s : State), (∀ x ∈ l, s.unused x) →
    (∀ y ∈ (l.foldl (fun (s : State) e => s.settleExtent e) s).extents, y ∈ s.extents) ∧
      ∀ e ∈ l, e.st = .active → e.releasing = true → ∀ y ∈ (l.foldl (fun (s : State) e => s.settleExtent e) s).extents, y.id ≠ e.id := by
  intro l
  induction l with
  | nil => exact fun s _ => ⟨fun y hy => hy, fun e he => absurd he List.not_mem_nil⟩
  | cons x l ih =>
    intro s hl
    obtain ⟨hext, hun⟩ := State.settleExtent_unused (hl x List.mem_cons_self)
    obtain ⟨hsub, hgone⟩ := ih (s.settleExtent x) fun y hy => (hun y).mpr (hl y (List.mem_cons_of_mem _ hy))
    rw [hext] at hsub
    refine ⟨fun y hy => ?_, fun e he hst hr y hy => ?_⟩
    · have hy' := hsub y hy
      split at hy'
      · exact (List.mem_filter.mp hy').1
      · exact hy'
    · obtain rfl | he := List.mem_cons.mp he
      · have hy' := hsub y hy
        rw [if_pos ⟨hst, hr⟩] at hy'
        simpa using (List.mem_filter.mp hy').2
      · exact hgone e he hst hr y hy

/-- A requested release that reaches an active extent that nobody uses frees it at once (R265). -/
theorem State.releaseExtent_requested {s : State} {e : Extent} (he : s.extent? e.id = some e) (h : e.st = .active) (hr : e.releasing = false)
    (hu : ∀ x ∈ s.extents, s.extentPages x = [] ∧ s.extentChunks x = []) : ∀ x ∈ (s.releaseExtent e false).extents, x.id ≠ e.id := by
  have hx : s.releaseExtent e false = (s.modExtent e.id fun e => { e with releasing := true, since := s.now }).settleExtents := by
    simp [State.releaseExtent, h, State.requestRelease, hr]
  have hmem : { e with releasing := true, since := s.now } ∈ (s.modExtent e.id fun e => { e with releasing := true, since := s.now }).extents :=
    List.mem_of_find?_eq_some (State.extent?_modExtent he fun _ => rfl)
  rw [hx]
  refine (State.settleExtents_unused _ _ fun y hy => ?_).2 { e with releasing := true, since := s.now } hmem h rfl
  obtain ⟨z, hz, rfl⟩ := List.mem_map.mp hy
  split <;> exact hu z hz

/-- A release that a link's frame brings reaches the extent that it names. -/
theorem leaves_of_extentRelease {s : State} {link : Nat} {p : Port} {fr : Frame} {e : Extent} {P : State → Prop} (h : s.hears link p fr 1 [0] 0 = true)
    (hon : s.extentOn link fr.object = some e) (hp : P ((s.heard link fr).releaseExtent e (bit fr.aux 0))) : Leaves (.extentRelease link fr) s P := by
  have hon' : (s.heard link fr).extentOn link fr.object = some e := hon
  refine leaves_of_hears rfl h ?_
  simpa only [hon'] using hp

end Sys2Proof.Machine
end

section
/-! CLAIMS. -/

namespace Sys2Proof.Machine

/-- Settles O36: each command by the lemma on its operation, in the state that has heard its frame or in service. -/
theorem extentCommandsComplete : Obligations.ExtentCommandsComplete := by
  unfold Obligations.ExtentCommandsComplete
  refine ⟨fun s link i b p fr h ht hn hr => ?_, fun s link p fr e h ht he => ?_, fun s link p fr h => ⟨fun x e hb ha hk hst he => ?_, fun e hb he => ?_⟩,
    fun s c tag base grains i b hs ht hi hg hr => ?_, ?_⟩
  · obtain ⟨hi, hk⟩ := State.heard_issues h
    exact leaves_of_hears rfl h (State.onOffer_claims p hi hk ht hn hr)
  · obtain ⟨hi, hk⟩ := State.heard_issues h
    refine leaves_of_hears rfl h ?_
    cases ho : e.owner with
    | none => exact State.onClaim_takes p hi hk ht he ho
    | some w => exact State.onClaim_taken p hi hk ht he ho
  · refine leaves_of_hears rfl h ?_
    rw [if_neg (by simp [hb])]
    exact State.claimAnswer_confirms (s := s.heard link fr) ha hk hst he
  · refine leaves_of_hears rfl h ?_
    rw [if_pos hb]
    exact State.releaseAcked_frees (s := s.heard link fr) he
  · refine leaves_of_live rfl hs ?_
    rw [if_neg (by simp [ht])]
    exact State.addCapacity_enters ht hi hg hr
  · intro s e he gone drains
    refine ⟨fun link p fr h hon => ⟨fun hst => ?_, fun hst hm hb => ?_, fun hst hrel hb hu => ?_⟩,
      fun c tag hs ht hon => ⟨fun hst hrel hu => ?_, fun hst hm => ?_⟩⟩
    · exact leaves_of_extentRelease h hon (State.releaseExtent_claiming hst _)
    · exact leaves_of_extentRelease h hon (hb ▸ State.releaseExtent_forced (s := s.heard link fr) he hst hm)
    · exact leaves_of_extentRelease h hon (hb ▸ State.releaseExtent_requested (s := s.heard link fr) he hst hrel hu)
    · refine leaves_of_live rfl hs ?_
      rw [if_neg (by simp [ht])]
      simpa only [hon] using State.releaseExtent_requested he hst hrel hu
    · refine leaves_of_live rfl hs ?_
      simpa only [hon] using State.releaseExtent_forced he hst hm

end Sys2Proof.Machine
end

section
/-! SUPPORT. Frames of the schedulers (11), of power and clocks (18), of refresh (13), and of spares (15). -/

namespace Sys2Proof.Machine

/-! ### Schedulers and the time page (R179, R237 to R246) -/

def timeFrame (s t : State) : State := { s with timePage := t.timePage, coarse := t.coarse }

theorem State.updateTime_timeFrame (s : State) (d : State) : timeFrame s.updateTime d = timeFrame s d :=
  ite_keeps (m := (timeFrame · d)) rfl rfl

def wheelFrame (s t : State) : State := { s with egress := t.egress, queues := t.queues }

theorem State.select_wheelFrame (s : State) (e : Egress) (d : State) : wheelFrame (s.select e) d = wheelFrame s d := by
  unfold State.select
  dsimp only
  refine ite_keeps (m := (wheelFrame · d)) ?_ ?_
  · split <;> rfl
  · split <;> rfl

theorem State.wheelTick_wheelFrame (s : State) (n : Nat) (d : State) : wheelFrame (s.wheelTick n) d = wheelFrame s d := by
  unfold State.wheelTick
  split
  · rfl
  · exact ite_keeps (m := (wheelFrame · d)) rfl ((State.select_wheelFrame _ _ d).trans rfl)

def gateFrame (s t : State) : State := { s with egress := t.egress }

theorem State.gateBoundary_gateFrame (s : State) (n : Nat) (d : State) : gateFrame (s.gateBoundary n) d = gateFrame s d := by
  unfold State.gateBoundary
  split
  · rfl
  · split <;> rfl

def sampleFrame (s t : State) : State := { s with queues := t.queues }

theorem State.sampleQueues_sampleFrame (s : State) (d : State) : sampleFrame s.sampleQueues d = sampleFrame s d :=
  ite_keeps (m := (sampleFrame · d)) rfl rfl

/-! ### Power and clocks (R392, R396, R399) -/

/-- What stops the controller, or starts it again: its boot, with power and the event recorder. -/
def stopFrame (s t : State) : State := { s with boot := t.boot, power := t.power, recorder := t.recorder }

theorem State.event_stopFrame (s : State) (name code source detail) (d : State) : stopFrame (s.event name code source detail) d = stopFrame s d :=
  ite_keeps (m := (stopFrame · d)) rfl rfl

theorem State.railFault_stopFrame (s : State) (rail : Nat) (d : State) : stopFrame (s.railFault rail) d = stopFrame s d :=
  ite_keeps (m := (stopFrame · d)) rfl (s.event_stopFrame _ _ _ _ d)

theorem State.clockEvent_stopFrame (s : State) (d : State) : stopFrame s.clockEvent d = stopFrame s d := s.event_stopFrame _ _ _ _ d

theorem State.holdoverEnds_stopFrame (s : State) (d : State) : stopFrame s.holdoverEnds d = stopFrame s d := by
  unfold State.holdoverEnds
  split
  · exact ite_keeps (m := (stopFrame · d)) (s.clockEvent_stopFrame d) rfl
  · rfl

def avsFrame (s t : State) : State := { s with power := t.power, recorder := t.recorder, out := t.out }

theorem State.note_avsFrame (s : State) (name source detail) (d : State) : avsFrame (s.note name source detail) d = avsFrame s d :=
  ite_keeps (m := (avsFrame · d)) rfl rfl

theorem State.avsRetry_avsFrame (s : State) (ack : Bool) (d : State) : avsFrame (s.avsRetry ack) d = avsFrame s d := by
  unfold State.avsRetry
  split
  · rfl
  · exact ite_keeps (m := (avsFrame · d)) rfl (ite_keeps (m := (avsFrame · d)) rfl (s.note_avsFrame _ _ _ d))

/-- What a window of the clock monitor touches: device time starts again where it lets the boot go on. -/
def windowFrame (s t : State) : State := { s with now := t.now, boot := t.boot, power := t.power, recorder := t.recorder }

theorem windowFrame_of_stopFrame {s t d : State} (h : stopFrame t d = stopFrame s d) : windowFrame t d = windowFrame s d :=
  (congrArg (windowFrame · d) h :)

theorem State.release_windowFrame (s : State) (pri sec : Bool) (d : State) : windowFrame (s.release pri sec) d = windowFrame s d :=
  ite_keeps (m := (windowFrame · d)) rfl
    (ite_keeps (m := (windowFrame · d)) ((windowFrame_of_stopFrame (State.event_stopFrame _ _ _ _ _ d)).trans rfl) rfl)

theorem State.windowHeld_windowFrame (s : State) (pri sec : Bool) (d : State) : windowFrame (s.windowHeld pri sec) d = windowFrame s d :=
  ite_keeps (m := (windowFrame · d)) rfl (ite_keeps (m := (windowFrame · d)) ((State.release_windowFrame _ _ _ d).trans rfl) rfl)

theorem State.windowRuns_stopFrame (s : State) (pri sec : Bool) (d : State) : stopFrame (s.windowRuns pri sec) d = stopFrame s d :=
  ite_keeps (m := (stopFrame · d)) ((State.clockEvent_stopFrame _ d).trans rfl) rfl

theorem State.clockWindow_windowFrame (s : State) (a b : Nat) (d : State) : windowFrame (s.clockWindow a b) d = windowFrame s d :=
  ite_keeps (m := (windowFrame · d)) (s.windowHeld_windowFrame _ _ d)
    (ite_keeps (m := (windowFrame · d)) (windowFrame_of_stopFrame (s.windowRuns_stopFrame _ _ d)) rfl)

def switchFrame (s t : State) : State := { s with power := t.power, faults := t.faults, recorder := t.recorder, out := t.out }

theorem switchFrame_of_serviceFrame {s t d : State} (h : serviceFrame t d = serviceFrame s d) : switchFrame t d = switchFrame s d :=
  (congrArg (switchFrame · d) h :)

theorem State.switchover_switchFrame (s : State) (d : State) : switchFrame s.switchover d = switchFrame s d :=
  ite_keeps (m := (switchFrame · d)) rfl
    (ite_keeps (m := (switchFrame · d)) ((switchFrame_of_serviceFrame (State.spend_serviceFrame _ _ _ d)).trans rfl) rfl)

/-! ### Spares (R343 to R345, R348) -/

def faultsFrame (s t : State) : State := { s with faults := t.faults }

theorem State.pairTakeover_faultsFrame (s : State) (part : Nat) (d : State) : faultsFrame (s.pairTakeover part) d = faultsFrame s d := by
  unfold State.pairTakeover
  split <;> rfl

theorem State.laneRepair_serviceFrame (s : State) (g m : Nat) (d : State) : serviceFrame (s.laneRepair g m) d = serviceFrame s d :=
  ite_keeps (m := (serviceFrame · d)) rfl
    ((State.spend_serviceFrame _ _ _ d).trans ((State.note_serviceFrame _ _ _ _ d).trans rfl))

theorem State.ucieUp_serviceFrame (s : State) (g : Nat) (x : UcieTrained) (corrected : List (Nat × LaneFix)) (d : State) :
    serviceFrame (s.ucieUp g x corrected) d = serviceFrame s d := by
  unfold State.ucieUp
  extract_lets left repaired fixed old
  have hr : serviceFrame repaired d = serviceFrame s d := foldl_keeps (serviceFrame · d) _ (fun s m => s.laneRepair_serviceFrame g m d) _ _
  have hf : serviceFrame fixed d = serviceFrame repaired d :=
    foldl_keeps (serviceFrame · d) _ (fun s x => s.event_serviceFrame _ _ _ _ d) _ _
  exact ite_keeps (m := (serviceFrame · d)) rfl (hf.trans hr)

def shelfFrame (s t : State) : State := { s with faults := t.faults, recorder := t.recorder }

theorem State.shelfRemapped_shelfFrame (s : State) (bank : Nat) (d : State) : shelfFrame (s.shelfRemapped bank) d = shelfFrame s d := by
  unfold State.shelfRemapped
  split
  · exact ite_keeps (m := (shelfFrame · d)) rfl rfl
  · rfl

/-! ### Key banks, the DRBG and the debug nonce (R310, R334, R345) -/

def islandFrame (s t : State) : State := { s with island := t.island }

theorem State.keyBankCopied_islandFrame (s : State) (bank : Nat) (d : State) : islandFrame (s.keyBankCopied bank) d = islandFrame s d :=
  ite_keeps (m := (islandFrame · d)) rfl rfl

theorem State.keyBankFault_hashFrame (s : State) (bank : Nat) (d : State) : hashFrame (s.keyBankFault bank) d = hashFrame s d := by
  have advise : ∀ (t : State) a, hashFrame (t.advise a) d = hashFrame t d := fun t a => hashFrame_of_serviceFrame (t.advise_serviceFrame a d)
  unfold State.keyBankFault
  extract_lets whole _ failed _ noted
  have hn : hashFrame noted d = hashFrame s d := (hashFrame_of_serviceFrame (failed.event_serviceFrame _ _ _ _ d)).trans rfl
  refine ite_keeps (m := (hashFrame · d)) rfl (ite_keeps (m := (hashFrame · d)) ((advise _ _).trans rfl) ?_)
  exact ite_keeps (m := (hashFrame · d)) ((hashFrame_of_serviceFrame (State.spend_serviceFrame _ _ _ d)).trans hn) ((advise _ _).trans hn)

def drbgFrame (s t : State) : State := { s with island := t.island, recorder := t.recorder }

theorem State.drbgFails_drbgFrame (s : State) (d : State) : drbgFrame s.drbgFails d = drbgFrame s d := ite_keeps (m := (drbgFrame · d)) rfl rfl

def nonceFrame (s t : State) : State := { s with dbg := t.dbg }

theorem State.lapseNonce_nonceFrame (s : State) (d : State) : nonceFrame s.lapseNonce d = nonceFrame s d := by
  unfold State.lapseNonce
  split
  · exact ite_keeps (m := (nonceFrame · d)) rfl rfl
  · rfl

/-! ### The event recorder (R351 to R354) -/

def recorderFrame (s t : State) : State := { s with recorder := t.recorder }

theorem State.event_recorderFrame (s : State) (name code source detail) (d : State) :
    recorderFrame (s.event name code source detail) d = recorderFrame s d :=
  ite_keeps (m := (recorderFrame · d)) rfl rfl

theorem State.recordEvent_recorderFrame (s : State) (d : State) : recorderFrame s.recordEvent d = recorderFrame s d := by
  unfold State.recordEvent
  refine ite_keeps (m := (recorderFrame · d)) rfl ?_
  split
  · rfl
  · exact ite_keeps (m := (recorderFrame · d)) rfl ((State.event_recorderFrame _ _ _ _ _ d).trans rfl)

end Sys2Proof.Machine
end

section
/-! CLAIMS. -/

namespace Sys2Proof.Machine

/-- Settles O58, one frame for each command: what its operations leave unchanged, with `d` in place of the parts that they may change. -/
theorem upkeepFrames : Obligations.UpkeepFrames := by
  unfold Obligations.UpkeepFrames
  exact ⟨changesOnly_live (fun _ => rfl) (fun _ => rfl) State.updateTime_timeFrame,
    fun n => changesOnly_live (fun _ => rfl) (fun _ => rfl) fun s => s.wheelTick_wheelFrame n,
    fun n => changesOnly_live (fun _ => rfl) (fun _ => rfl) fun s => s.gateBoundary_gateFrame n,
    changesOnly_live (fun _ => rfl) (fun _ => rfl) State.sampleQueues_sampleFrame,
    fun _ _ => changesOnly_live (fun _ => rfl) (fun _ => rfl) fun _ _ => rfl,
    fun _ => changesOnly_live (fun _ => rfl) (fun _ => rfl) fun _ _ => rfl,
    fun n => changesOnly_of (fun _ => rfl) (fun _ => rfl) fun s => s.railFault_stopFrame n,
    changesOnly_of (fun _ => rfl) (fun _ => rfl) State.holdoverEnds_stopFrame,
    fun b => changesOnly_of (fun _ => rfl) (fun _ => rfl) fun s => s.avsRetry_avsFrame b,
    fun a b => changesOnly_of (fun _ => rfl) (fun _ => rfl) fun s => s.clockWindow_windowFrame a b,
    changesOnly_of (fun _ => rfl) (fun _ => rfl) State.switchover_switchFrame,
    fun _ => changesOnly_live (fun _ => rfl) (fun _ => rfl) fun _ _ => rfl,
    fun n => changesOnly_live (fun _ => rfl) (fun _ => rfl) fun s => s.pairTakeover_faultsFrame n,
    fun g a b => changesOnly_of (fun _ => rfl) (fun _ => rfl) fun s => s.ucieUp_serviceFrame g a b,
    fun g m => changesOnly_live (fun _ => rfl) (fun _ => rfl) fun s => s.laneRepair_serviceFrame g m,
    fun b => changesOnly_live (fun _ => rfl) (fun _ => rfl) fun s => s.shelfRemapped_shelfFrame b,
    fun b => changesOnly_of (fun _ => rfl) (fun _ => rfl) fun s => s.keyBankCopied_islandFrame b,
    fun b => changesOnly_of (fun _ => rfl) (fun _ => rfl) fun s => s.keyBankFault_hashFrame b,
    changesOnly_of (fun _ => rfl) (fun _ => rfl) fun s d => ite_keeps (m := (islandFrame · d)) rfl rfl,
    changesOnly_of (fun _ => rfl) (fun _ => rfl) fun s d => ite_keeps (m := (drbgFrame · d)) (s.drbgFails_drbgFrame d) rfl,
    changesOnly_of (fun _ => rfl) (fun _ => rfl) State.recordEvent_recorderFrame,
    changesOnly_of (fun _ => rfl) (fun _ => rfl) State.lapseNonce_nonceFrame⟩

end Sys2Proof.Machine
end

section
/-! CLAIMS. The obligation on range commands: the move of a promoted page goes when a later page's demotion shares its identifier. -/

namespace Sys2Proof.Machine

theorem got_eq_some {ε α : Type} {x : Except ε α} {a : α} (h : Tests.got x = some a) : x = .ok a := by
  cases x with
  | ok b => exact congrArg Except.ok (Option.some.inj h)
  | error e => cases h

/-- Two blocks of one page each, 5 and 6, both in T1; a demotion of block 6 waits under identifier 51, which is the next that the device
gives out once the request has its own. -/
def demotionAhead : State :=
  { Tests.seqSt with
    recs := [Tests.rec5, { Tests.rec5 with id := 6, locs := [{ Tests.loc0 with addr := 41 }] }],
    pages := [Tests.page5, { Tests.page5 with addr := 41 }],
    seqs := [{ Tests.seq0 with cur := { Tests.v1 with slots := [(0, 5), (1, 6)], blockCount := 2, tokenCount := 32 } }],
    moves := [{ id := 51, blk := 6, layer := 0, grains := 1, target := 2, rank := 5, req := none, dest := none }] }

/-- Both blocks, to T0. -/
def pinBoth : RangeF := { Tests.range0 0 with blockCount := 2 }

/-- The request of `pinBoth` begins alone and passes its checks, and the page of block 5 lies below the target. Yet block 6 alone is left
with a move: the promotion of block 5 takes identifier 51, and goes when the demotion of block 6 is abandoned by that identifier. -/
theorem pinBoth_begins :
    ((demotionAhead.begins Tests.sub (.pinRange pinBoth)).any fun (u, r) => (u.checkPinRange r pinBoth).isNone &&
      (u.reqs.all fun x => x.id == r.id) && ((Tests.got (u.openSeqOf r pinBoth.seq)).any fun q => (u.rangePages q q.cur pinBoth).any fun p =>
        p.1 == 5 && decide (pinBoth.target < p.2.2.tier)) && (u.beginPinRange r pinBoth).moves.map (·.blk) == [6]) = true := by
  decide +kernel

/-- Refutes O19 in its second part: a PIN_RANGE that abandons the demotion of a later page (R103) abandons with it the promotion that it has
just given the same identifier, and the earlier page is left without a move. The state is one that no run reaches, as the device
numbers its moves apart; the obligation takes every state and asks nothing of the identifiers of the moves that stand. -/
theorem not_rangeCommandsComplete : ¬ Obligations.RangeCommandsComplete := by
  unfold Obligations.RangeCommandsComplete
  rintro ⟨-, hpromote, -⟩
  obtain ⟨⟨u, r⟩, hbegins, hfits⟩ := (Option.any_eq_true ..).mp pinBoth_begins
  simp only [Bool.and_eq_true, Option.isNone_iff_eq_none, List.all_eq_true, beq_iff_eq, Option.any_eq_true, List.any_eq_true,
    decide_eq_true_eq] at hfits
  obtain ⟨⟨⟨hcheck, halone⟩, q, hq, p, hp, hblk, hbelow⟩, hmoves⟩ := hfits
  obtain ⟨t, hexec, -, m, hm, hmblk, -⟩ :=
    hpromote demotionAhead u Tests.sub pinBoth r q p hbegins hcheck (got_eq_some hq) hp hbelow fun x hx hne => absurd (halone x hx) hne
  have hdesc : r.desc = .pinRange pinBoth := State.begins_desc_same hbegins fun _ => rfl
  have ht : t = u.beginPinRange r pinBoth := by
    have hnext : exec (.pinRange Tests.sub pinBoth) demotionAhead = .next (demotionAhead.submit Tests.sub (.pinRange pinBoth)) := rfl
    rw [hnext, State.submit_begins hbegins (by simp [hdesc]) (by simp [hdesc]), State.beginReq, hdesc] at hexec
    exact (Host.Outcome.next.inj hexec).symm
  have hmem : m.blk ∈ t.moves.map (·.blk) := List.mem_map_of_mem hm
  rw [ht, hmoves, hmblk, hblk] at hmem
  revert hmem
  decide

end Sys2Proof.Machine
end

section
/-! SUPPORT. Spares and what they replace (R342, R343, R348, R349): what an event, the tray-service flag and the count of a spare leave of the
faults, and the shelf banks, modules and lanes that a fault moves. -/

namespace Sys2Proof.Machine

/-! ### What the reports of a fault leave of the faults (R349, R351) -/

theorem State.event_faults (s : State) (name : String) (code : Option Nat) (source detail : Nat) :
    (s.event name code source detail).faults = s.faults :=
  ite_keeps (m := State.faults) rfl rfl

/-- The advice sets the tray-service flag and nothing else of the faults. -/
theorem State.advise_faults (s : State) (detail : Nat) : (s.advise detail).faults = { s.faults with service := true } := by
  have he := s.event_faults "TRAY_SERVICE_ADVISED" (some 0xC801) (evSource 0 0) detail
  unfold State.advise
  dsimp only
  rw [he]
  split
  · next h => rw [he, ← h]
  · rfl

/-- The faults without their counts of spares and the tray-service flag. -/
def Faults.unspent (f : Faults) : Faults := { f with sparesUsed := [], service := false }

theorem State.countSpare_sparesUsed (s : State) (pool inst : Nat) : (s.countSpare pool inst).sparesUsed pool inst = s.sparesUsed pool inst + 1 := by
  simp [State.sparesUsed, State.countSpare]

theorem State.sparesUsed_of_faults {s t : State} (h : t.faults = s.faults) (pool inst : Nat) : t.sparesUsed pool inst = s.sparesUsed pool inst := by
  unfold State.sparesUsed
  rw [h]

/-- A spare that enters service is counted, with or without the advice that few are left. -/
theorem State.spend_counts (s : State) (pool inst : Nat) :
    (s.spend pool inst).faults = (s.countSpare pool inst).faults ∨
      (s.spend pool inst).faults = { (s.countSpare pool inst).faults with service := true } := by
  unfold State.spend State.lowSpares
  dsimp only
  split
  · exact .inl rfl
  · split
    · exact .inr (State.advise_faults _ _)
    · exact .inl rfl

theorem State.spend_sparesUsed (s : State) (pool inst : Nat) : (s.spend pool inst).sparesUsed pool inst = s.sparesUsed pool inst + 1 := by
  rw [← s.countSpare_sparesUsed pool inst]
  unfold State.sparesUsed
  obtain h | h := s.spend_counts pool inst <;> rw [h]

theorem State.spend_unspent (s : State) (pool inst : Nat) : (s.spend pool inst).faults.unspent = s.faults.unspent := by
  obtain h | h := s.spend_counts pool inst <;> rw [h] <;> rfl

/-! ### Engines (R342) -/

/-- An engine that works under a logical number. -/
def Engine.numbered (l : Nat) (e : Engine) : Engine := { e with st := .active l }

/-- The spare that has been brined clean takes the logical number that it was called for, and is counted. -/
theorem State.engineRemapped_takes {s : State} {c p l : Nat} {e : Engine} (he : s.engineAt c p = some e) (hst : e.st = .brining l)
    (hb : e.brined + brineTicks ≤ s.now) : ((s.engineRemapped c p true).engineAt c p).map (·.st) = some (.active l) ∧
      (s.engineRemapped c p true).sparesUsed 0 c = s.sparesUsed 0 c + 1 := by
  let u := s.modEngine c p (Engine.numbered l)
  let v := u.event "ENGINE_REMAPPED" (some 0x8202) (evSource 1 (c * 16 + e.stands)) (p + l * 256)
  have he' : (s.engines.find? fun e => e.cluster == c && e.slot == p) = some e := he
  have hout : s.engineRemapped c p true = (v.spend 0 c).dispatch := by
    simp only [State.engineRemapped, he', hst, Nat.not_lt.mpr hb, Bool.not_true, Bool.false_eq_true, if_false]
    rfl
  have hfaults : v.faults = s.faults := (u.event_faults _ _ _ _ :)
  have hengines : (v.spend 0 c).engines = u.engines :=
    ((congrArg State.engines (v.spend_serviceFrame 0 c v) :) : _ = v.engines).trans
      (congrArg State.engines (u.event_serviceFrame _ _ _ _ u) :)
  have hat : (v.spend 0 c).engineAt c p = u.engineAt c p := by
    unfold State.engineAt
    rw [hengines]
  rw [hout, State.standing_of_plan (State.dispatch_plan _), State.sparesUsed_of_faults (State.faults_of_plan (State.dispatch_plan _)),
    State.spend_sparesUsed, State.sparesUsed_of_faults hfaults, hat,
    State.engineAt_modEngine s c p (g := Engine.numbered l) fun _ => ⟨rfl, rfl⟩, he]
  exact ⟨rfl, rfl⟩

/-! ### Shelf banks (R343) -/

theorem State.shelfSt_of_unspent {s t : State} (h : t.faults.unspent = s.faults.unspent) (n : Nat) : t.shelfSt n = s.shelfSt n :=
  (congrArg (fun f : Faults => (f.shelf.find? fun b => b.1 == n).elim .gone (·.2)) h :)

/-- A bank that the shelf has stands in the state that it is set to. -/
theorem State.shelfSt_setShelf {s : State} {n : Nat} (h : (s.faults.shelf.find? fun b => b.1 == n).isSome = true) (st : ShelfSt) :
    (s.setShelf n st).shelfSt n = st := by
  obtain ⟨b, hb⟩ := Option.isSome_iff_exists.mp h
  have hf := find?_mapIf (key := Prod.fst) (k := n) (g := fun b : Nat × ShelfSt => (b.1, st)) (fun _ h => h) s.faults.shelf
  unfold State.shelfSt State.setShelf
  rw [hf, hb]
  rfl

theorem State.find_shelf_setShelf_ne {s : State} {n k : Nat} (h : k ≠ n) (st : ShelfSt) :
    ((s.setShelf n st).faults.shelf.find? fun b => b.1 == k) = s.faults.shelf.find? fun b => b.1 == k :=
  find?_mapIf_ne (key := Prod.fst) (g := fun b : Nat × ShelfSt => (b.1, st)) (fun _ => rfl) h s.faults.shelf

theorem State.shelfSt_setShelf_ne {s : State} {n k : Nat} (h : k ≠ n) (st : ShelfSt) : (s.setShelf n st).shelfSt k = s.shelfSt k := by
  unfold State.shelfSt
  rw [State.find_shelf_setShelf_ne h]

/-- A bank with any state but that of no bank is one that the shelf has. -/
theorem State.hasShelf_of_shelfSt {s : State} {n : Nat} (h : s.shelfSt n ≠ .gone) : (s.faults.shelf.find? fun b => b.1 == n).isSome = true := by
  unfold State.shelfSt at h
  cases hf : s.faults.shelf.find? fun b => b.1 == n with
  | none => exact absurd (by rw [hf]; rfl) h
  | some b => rfl

theorem State.hasShelf_of_spareShelf {s : State} {k : Nat} (h : s.spareShelf = some k) :
    (s.faults.shelf.find? fun b => b.1 == k).isSome = true := by
  obtain ⟨b, hb, hk⟩ := List.any_eq_true.mp (List.find?_some (p := fun n => s.faults.shelf.any fun b => b.1 == n && b.2 == .spare) h)
  simp only [Bool.and_eq_true] at hk
  exact List.find?_isSome.mpr ⟨b, hb, hk.1⟩

/-- A working bank that fails with no grain lost is copied to the lowest spare. -/
theorem State.shelfFault_copies {s : State} {bank k : Nat} (hb : bank < 64) (hst : s.shelfSt bank = .working) (hk : s.spareShelf = some k)
    (hkb : k ≠ bank) : (s.shelfFault bank []).shelfSt bank = .copying k 0 ∧ (s.shelfFault bank []).shelfSt k = .used := by
  let u := (s.setShelf bank (.copying k 0)).setShelf k .used
  have hserves : s.shelfServes bank = some bank := by simp only [State.shelfServes, hb, if_true, hst]
  have hout : s.shelfFault bank [] = u.spend 5 0 := by
    simp only [State.shelfFault, hserves, hk, Nat.not_le.mpr hb, if_false]
    rfl
  have hbank : (s.faults.shelf.find? fun b => b.1 == bank).isSome = true := State.hasShelf_of_shelfSt (by rw [hst]; decide)
  rw [hout, State.shelfSt_of_unspent (u.spend_unspent 5 0), State.shelfSt_of_unspent (u.spend_unspent 5 0)]
  constructor
  · exact (State.shelfSt_setShelf_ne hkb.symm _).trans (State.shelfSt_setShelf hbank _)
  · exact State.shelfSt_setShelf (by rw [State.find_shelf_setShelf_ne hkb]; exact State.hasShelf_of_spareShelf hk) _

/-- At the end of its copy a bank is served by the spare. -/
theorem State.shelfRemapped_serves {s : State} {bank k lost : Nat} (hb : bank < 64) (hst : s.shelfSt bank = .copying k lost) :
    (s.shelfRemapped bank).shelfSt bank = .onSpare k := by
  have hserves : s.shelfServes bank = some bank := by simp only [State.shelfServes, hb, if_true, hst]
  have hout : s.shelfRemapped bank =
      (s.setShelf bank (.onSpare k)).event "SHELF_BANK_REMAPPED" (some 0x8301) (evSource 3 bank) (k + lost * 256) := by
    simp only [State.shelfRemapped, hserves, Option.map_some, hst]
  rw [hout, State.shelfSt_of_unspent (congrArg Faults.unspent (State.event_faults _ _ _ _ _))]
  exact State.shelfSt_setShelf (State.hasShelf_of_shelfSt (by rw [hst]; nofun)) _

/-! ### UCIe modules, lanes and groups (R322, R348) -/

/-- A group that keeps a Zarfy module loses no function with another module. -/
theorem State.groupGone_of_module {s : State} {g k : Nat} (h : k ∈ s.zarfyModules g) : s.groupGone g = s := by
  unfold State.groupGone
  exact if_pos (by simpa using List.ne_nil_of_mem h)

theorem State.params_of_plan {s t : State} (h : t.plan = s.plan) : t.params = s.params := congrArg (fun x => x.1.params) h

/-- The Zarfy modules of a group go by the parameters and by the modules that are out of service. -/
theorem State.mem_zarfyModules_of {s t : State} {g k : Nat} (hp : t.params = s.params) (hout : (g, k) ∈ t.faults.modulesOut → (g, k) ∈ s.faults.modulesOut)
    (h : k ∈ s.zarfyModules g) : k ∈ t.zarfyModules g := by
  simp only [State.zarfyModules, State.isDirect, List.mem_filter, Bool.and_eq_true, Bool.not_eq_true', hp] at h ⊢
  obtain ⟨hk, hd, hin⟩ := h
  refine ⟨hk, hd, ?_⟩
  simp only [List.contains_eq_mem, decide_eq_false_iff_not] at hin ⊢
  exact fun h => hin (hout h)

/-- A module that is lost beside another of its group leaves service, and tray service is advised. -/
theorem State.moduleLoss_leaves {s : State} {g m k : Nat} (ht : s.isTray = false) (hm : m < 4) (hin : s.faults.modulesOut.contains (g, m) = false)
    (hk : k ∈ s.zarfyModules g) (hkm : k ≠ m) :
    (s.moduleLoss g m).faults = { s.faults with modulesOut := (g, m) :: s.faults.modulesOut, service := true } := by
  let u : State := { s with faults := { s.faults with modulesOut := (g, m) :: s.faults.modulesOut } }
  let n := u.note "UCIE_MODULE_LOST" (evSource 6 (g * 4 + m)) 0
  let v := n.advise (poolDetail 4 (g * 4 + m))
  have hout : s.moduleLoss g m = v.recompute.groupGone g := by
    unfold State.moduleLoss
    rw [if_neg (by simp only [ht, hin, Bool.or_self, Bool.false_or, decide_eq_true_eq]; omega)]
  have hfaults : v.recompute.faults = { s.faults with modulesOut := (g, m) :: s.faults.modulesOut, service := true } := by
    rw [State.faults_of_plan v.recompute_plan, State.advise_faults, show n.faults = u.faults from u.event_faults _ _ _ _]
  have hparams : v.recompute.params = s.params :=
    (State.params_of_plan v.recompute_plan).trans
      (((congrArg State.params (n.advise_serviceFrame _ n) :) : v.params = n.params).trans (congrArg State.params (u.note_serviceFrame _ _ _ u) :))
  have hstays : k ∈ v.recompute.zarfyModules g := by
    refine State.mem_zarfyModules_of hparams (fun h => ?_) hk
    rw [hfaults] at h
    rcases List.mem_cons.mp h with h | h
    · exact absurd (congrArg Prod.snd h) hkm
    · exact h
  rw [hout, State.groupGone_of_module hstays, hfaults]

/-- Lanes repaired, with one more of a module (R348). -/
def laneFixed (fixed : List (Nat × Nat × Nat)) (g m : Nat) : List (Nat × Nat × Nat) :=
  if fixed.any (fun x => x.1 == g && x.2.1 == m) then mapIf (fun x => x.1 == g && x.2.1 == m) (fun x => (x.1, x.2.1, x.2.2 + 1)) fixed
  else (g, m, 1) :: fixed

theorem laneFixed_counts (fixed : List (Nat × Nat × Nat)) (g m : Nat) : ∃ n, (g, m, n + 1) ∈ laneFixed fixed g m := by
  unfold laneFixed
  split
  · next h =>
    obtain ⟨⟨a, b, n⟩, hx, hkey⟩ := List.any_eq_true.mp h
    refine ⟨n, List.mem_map.mpr ⟨(a, b, n), hx, ?_⟩⟩
    rw [if_pos hkey]
    simp only [Bool.and_eq_true, beq_iff_eq] at hkey
    rw [hkey.1, hkey.2]
  · exact ⟨0, List.mem_cons_self⟩

/-- A lane of a module in service is repaired while the module has a spare lane, and one without changes nothing. -/
theorem State.laneRepair_repairs {s : State} {g m : Nat} (ht : s.isTray = false) (hin : s.faults.modulesOut.contains (g, m) = false) :
    if Config.ucieSpareLanes ≤ s.sparesUsed 4 (g * 4 + m) then s.laneRepair g m = s
    else (s.laneRepair g m).sparesUsed 4 (g * 4 + m) = s.sparesUsed 4 (g * 4 + m) + 1 ∧ ∃ n, (g, m, n + 1) ∈ (s.laneRepair g m).faults.lanesFixed := by
  let u : State := { s with faults := { s.faults with lanesFixed := laneFixed s.faults.lanesFixed g m } }
  let v := u.note "UCIE_LANE_REPAIRED" (evSource 6 (g * 4 + m)) 0
  have hfaults : v.faults = u.faults := u.event_faults _ _ _ _
  split
  · next h => exact if_pos (.inr (.inr h))
  · next h =>
    have hout : s.laneRepair g m = v.spend 4 (g * 4 + m) := by
      unfold State.laneRepair
      rw [if_neg (by rw [ht, hin]; simp [h])]
      rfl
    have hfixed : (v.spend 4 (g * 4 + m)).faults.lanesFixed = laneFixed s.faults.lanesFixed g m :=
      (congrArg Faults.lanesFixed (v.spend_unspent 4 (g * 4 + m)) :).trans (congrArg Faults.lanesFixed hfaults)
    rw [hout, State.spend_sparesUsed, State.sparesUsed_of_faults hfaults, hfixed]
    exact ⟨rfl, laneFixed_counts _ _ _⟩

/-- The groups that are up, and those of them that run UCIe 1.1. -/
def State.upGroups (s : State) : List Nat × List Nat := (s.faults.groupsUp, s.faults.groups11)

theorem State.upGroups_of_unspent {s t : State} (h : t.faults.unspent = s.faults.unspent) : t.upGroups = s.upGroups :=
  (congrArg (fun f : Faults => (f.groupsUp, f.groups11)) h :)

theorem State.event_upGroups (s : State) (name : String) (code : Option Nat) (source detail : Nat) :
    (s.event name code source detail).upGroups = s.upGroups :=
  State.upGroups_of_unspent (congrArg Faults.unspent (s.event_faults name code source detail))

theorem State.laneRepair_upGroups (s : State) (g m : Nat) : (s.laneRepair g m).upGroups = s.upGroups := by
  refine ite_keeps (m := State.upGroups) rfl ?_
  exact (State.upGroups_of_unspent (State.spend_unspent _ _ _)).trans (State.event_upGroups _ _ _ _ _)

/-- A group with a Zarfy module in service comes up from its training with what its modules run at; where the training told of no repair
and of no correction, that is all. -/
theorem State.ucieUp_trains {s : State} {g : Nat} (x : UcieTrained) (corrected : List (Nat × LaneFix)) {old : List Nat}
    (hold : old = s.faults.groups11.filter (· != g)) (ht : s.isTray = false) (hp : s.boot.phase = .training ∨ s.boot.phase = .service)
    (hu : (s.ucie? g).isSome = true) (hz : s.zarfyModules g ≠ []) (hup : s.faults.groupsUp.contains g = false) :
    (s.ucieUp g x corrected).faults.groupsUp = g :: s.faults.groupsUp ∧
      (s.ucieUp g x corrected).faults.groups11 = (if x.ucie11 then g :: old else old) ∧
      (x.repaired = [] → corrected = [] → s.ucieUp g x corrected = { s with faults := { s.faults with
        groupsUp := g :: s.faults.groupsUp, groups11 := if x.ucie11 then g :: old else old } }) := by
  let repaired := x.repaired.foldl (fun (s : State) m => s.laneRepair g m) s
  let fixed := corrected.foldl (fun (s : State) x =>
    s.event "LANE_CORRECTED" (some 0x0E05) (evSource 6 (g * 4 + x.1)) (laneFixDetail x.2)) repaired
  have hstands : ¬(s.isTray ∨ (s.boot.phase ≠ .training ∧ s.boot.phase ≠ .service) ∨ (s.ucie? g).isNone ∨ (s.zarfyModules g).length = 0 ∨
      s.faults.groupsUp.contains g) := by
    rintro (h | ⟨h1, h2⟩ | h | h | h)
    · simp [ht] at h
    · exact hp.elim h1 h2
    · simp [Option.isNone_iff_eq_none.mp h] at hu
    · exact hz (List.length_eq_zero_iff.mp h)
    · exact Bool.false_ne_true (hup.symm.trans h)
  have hout : s.ucieUp g x corrected = { fixed with faults := { fixed.faults with
      groupsUp := g :: fixed.faults.groupsUp,
      groups11 := if x.ucie11 then g :: fixed.faults.groups11.filter (· != g) else fixed.faults.groups11.filter (· != g) } } := by
    unfold State.ucieUp
    exact if_neg hstands
  have hsame : fixed.upGroups = s.upGroups :=
    (foldl_keeps State.upGroups _ (fun s _ => s.event_upGroups _ _ _ _) corrected repaired).trans
      (foldl_keeps State.upGroups _ (fun s m => s.laneRepair_upGroups g m) x.repaired s)
  have hgroups : fixed.faults.groupsUp = s.faults.groupsUp := congrArg Prod.fst hsame
  have h11 : fixed.faults.groups11.filter (· != g) = old := by
    rw [hold, show fixed.faults.groups11 = s.faults.groups11 from congrArg Prod.snd hsame]
  rw [hout, hgroups, h11]
  refine ⟨rfl, rfl, fun hr hc => ?_⟩
  have hstays : fixed = s := by
    unfold fixed repaired
    rw [hr, hc]
    rfl
  rw [hstays]

end Sys2Proof.Machine
end

section
/-! CLAIMS. The obligation on engines, shelf banks and UCIe modules (15). -/

namespace Sys2Proof.Machine

/-- Settles O44: each fault and each replacement by the lemma on its own operation. -/
theorem engineAndModuleFaultsComplete : Obligations.EngineAndModuleFaultsComplete := by
  unfold Obligations.EngineAndModuleFaultsComplete
  refine ⟨fun s c p l k check e hs he hst hk hkp _ _ _ => ?_, fun s c p l e hs he hst hb _ _ => ?_, fun s bank k hs hb hst hk hkb => ?_,
    fun s bank k lost hs hb hst => ?_, fun s g m hs ht hm hin _ ⟨k, hk, hkm⟩ => ?_, fun s g m hs ht hin => ?_,
    fun s g x corrected ht hp hu hz hup => ?_⟩
  · obtain ⟨q, hq⟩ := State.engineFault_out he hst check
    obtain ⟨hfailed, hcalled, -⟩ := State.engineOut_remaps (s := { s with recorder := q }) he hst hk hkp
    exact leaves_of_live rfl hs (by rw [hq]; exact ⟨hfailed, hcalled⟩)
  · exact leaves_of_live rfl hs (State.engineRemapped_takes he hst hb)
  · exact leaves_of_live rfl hs (State.shelfFault_copies hb hst hk hkb)
  · exact leaves_of_live rfl hs (State.shelfRemapped_serves hb hst)
  · exact leaves_of_live rfl hs (by rw [State.moduleLoss_leaves ht hm hin hk hkm]; exact ⟨rfl, rfl, rfl⟩)
  · exact leaves_of_live rfl hs (State.laneRepair_repairs ht hin)
  · exact ⟨_, rfl, State.ucieUp_trains x corrected rfl ht hp hu hz hup⟩

end Sys2Proof.Machine
end

section
/-! SUPPORT. Passes and the giving out of engines (R117, R150, R228): engines are given without touching a request, but for the note that a
part ran in a curd, and without touching a pass that does not wait for one. -/

namespace Sys2Proof.Machine

/-! ### Requests while engines are given out (R158) -/

/-- A part without the note that it ran in a curd. -/
def Part.unmarked (p : Part) : Part := { p with curd := false }

/-- A request without such notes. -/
def Req.unmarked (r : Req) : Req := { r with parts := r.parts.map Part.unmarked }

/-- The requests in their order, without such notes. -/
def State.unmarked (s : State) : List Req := s.reqs.map Req.unmarked

/-- A list of parts changed in place, each but for such a note as it was. -/
theorem map_unmarked_zipIdx (l : List Part) {f : Part × Nat → Part} (hf : ∀ y, (f y).unmarked = y.1.unmarked) :
    (l.zipIdx.map f).map Part.unmarked = l.map Part.unmarked := by
  conv_rhs => rw [← List.zipIdx_map_fst 0 l]
  rw [List.map_map, List.map_map]
  exact List.map_congr_left fun y _ => hf y

theorem State.modReq_unmarked (s : State) (id : Nat) {g : Req → Req} (hg : ∀ x, (g x).unmarked = x.unmarked) :
    (s.modReq id g).unmarked = s.unmarked := map_mapIf_same hg s.reqs

theorem State.markCurd_unmarked (s : State) (x : Member) : (s.markCurd x).unmarked = s.unmarked := by
  unfold State.markCurd
  refine State.modReq_unmarked _ _ fun r => ?_
  refine congrArg (fun ps : List Part => ({ r with parts := ps } : Req)) (map_unmarked_zipIdx r.parts fun y => ?_)
  dsimp only
  split <;> rfl

theorem State.beginCurd_unmarked (s : State) (c : Curd) : (s.beginCurd c).unmarked = s.unmarked := by
  unfold State.beginCurd
  dsimp only
  split
  · rfl
  · refine ite_keeps (m := State.unmarked) rfl ?_
    rw [foldl_keeps State.unmarked _ fun s k => show (s.takeEngine _ _ _).unmarked = s.unmarked from rfl,
      foldl_keeps State.unmarked _ State.markCurd_unmarked]
    refine foldl_keeps State.unmarked _ ?_ _ s
    intros
    rfl

theorem State.placeQueued_unmarked (s : State) (id : Nat) : (s.placeQueued id).unmarked = s.unmarked := by
  unfold State.placeQueued
  split
  · rfl
  · split <;> rfl

theorem State.brineIdle_unmarked (s : State) : s.brineIdle.unmarked = s.unmarked := rfl

theorem State.dispatch_unmarked (s : State) : s.dispatch.unmarked = s.unmarked := by
  unfold State.dispatch State.placeWork
  extract_lets u
  have hu : u.unmarked = s.unmarked := by
    refine foldl_keeps State.unmarked _ (fun s k => ?_) _ s
    dsimp only
    rw [foldl_keeps State.unmarked _ fun s p => s.placeQueued_unmarked _, foldl_keeps State.unmarked _ State.beginCurd_unmarked]
  exact u.brineIdle_unmarked.trans hu

/-- Lists that look alike through `f` have, by a test on what `f` shows, elements that look alike. -/
theorem find?_of_map_eq {α β : Type} {f : α → β} {p : α → Bool} {l l' : List α} {a : α} (q : β → Bool) (hq : ∀ x, q (f x) = p x)
    (h : l'.map f = l.map f) (ha : l.find? p = some a) : ∃ x, l'.find? p = some x ∧ f x = f a := by
  have read : ∀ l : List α, (l.find? p).map f = (l.map f).find? q := fun l => by
    rw [List.find?_map, show q ∘ f = p from funext hq]
  have hl := read l'
  rw [h, ← read l, ha] at hl
  exact Option.map_eq_some_iff.mp hl

theorem State.req?_of_unmarked {s t : State} {id : Nat} {r : Req} (h : t.unmarked = s.unmarked) (hr : s.req? id = some r) :
    ∃ x, t.req? id = some x ∧ x.unmarked = r.unmarked :=
  find?_of_map_eq (fun x : Req => x.id == id) (fun _ => rfl) h hr

theorem Req.part_of_unmarked {x r : Req} {i : Nat} {p : Part} (h : x.unmarked = r.unmarked) (hp : r.parts[i]? = some p) :
    ∃ y, x.parts[i]? = some y ∧ y.st = p.st ∧ y.rows = p.rows := by
  have hi : (x.parts.map Part.unmarked)[i]? = (r.parts.map Part.unmarked)[i]? := by rw [show x.parts.map _ = r.parts.map _ from congrArg Req.parts h]
  rw [List.getElem?_map, List.getElem?_map, hp] at hi
  obtain ⟨y, hy, hyp⟩ := Option.map_eq_some_iff.mp hi
  exact ⟨y, hy, (congrArg Part.st hyp :), (congrArg Part.rows hyp :)⟩

/-- What a request's result has come to outlasts the giving out of engines. -/
theorem State.answers_of_unmarked {s t u : State} {r : Req} {addr status result : Nat} {data : Bytes} (h : u.unmarked = t.unmarked)
    (hout : u.out = t.out) (ha : s.answers t r addr data status result) : s.answers u r addr data status result := by
  obtain ⟨hw, x, a, hx, hp, hxa, hst, hres⟩ := ha
  obtain ⟨y, hy, hyx⟩ := State.req?_of_unmarked h hx
  exact ⟨hout ▸ hw, y, a, hy, (congrArg Req.phase hyx :).trans hp, (congrArg Req.answer hyx :).trans hxa, hst, hres⟩

/-! ### Passes while engines are given out (R228) -/

/-- A pass stands under its identifier, under which none waits for an engine. -/
def State.settled (s : State) (p : Pass) : Prop := s.pass? p.id = some p ∧ ∀ x ∈ s.passes, x.id = p.id → x.queued = false

theorem State.settled_of_passes {s t : State} {p : Pass} (h : t.passes = s.passes) (hs : s.settled p) : t.settled p := by
  unfold State.settled State.pass? at hs ⊢
  rwa [h]

/-- A pass of a curd that comes behind the others leaves them. -/
theorem State.settled_append {s : State} {p x : Pass} (hx : x.curd.isSome = true) (hs : s.settled p) :
    ({ s with passes := s.passes ++ [x] } : State).settled p := by
  obtain ⟨hp, hq⟩ := hs
  refine ⟨List.find?_append.trans (by rw [show s.passes.find? _ = _ from hp]; rfl), fun y hy hid => ?_⟩
  rcases List.mem_append.mp hy with hy | hy
  · exact hq y hy hid
  · rw [List.mem_singleton.mp hy, Pass.queued, Option.isNone_eq_false_iff.mpr hx, Bool.and_false]

theorem State.takeEngine_settled {s : State} {p : Pass} (cluster slot : Nat) (owners : List (Nat × Nat)) (hs : s.settled p) :
    (s.takeEngine cluster slot owners).settled p := State.settled_of_passes rfl hs
theorem State.markCurd_settled {s : State} {p : Pass} (x : Member) (hs : s.settled p) : (s.markCurd x).settled p := State.settled_of_passes rfl hs
theorem State.brineIdle_settled {s : State} {p : Pass} (hs : s.settled p) : s.brineIdle.settled p := State.settled_of_passes rfl hs

theorem State.beginCurd_settled {s : State} {p : Pass} (c : Curd) (hs : s.settled p) : (s.beginCurd c).settled p := by
  unfold State.beginCurd
  dsimp only
  split
  · exact State.settled_of_passes rfl hs
  · split
    · exact hs
    · refine foldl_holds (p := fun s => s.settled p) (fun _ _ h => State.takeEngine_settled _ _ _ h) _ _ ?_
      refine foldl_holds (p := fun s => s.settled p) (fun _ x h => State.markCurd_settled x h) _ _ ?_
      refine foldl_holds (p := fun s => s.settled p) (fun s _ h => ?_) _ _ hs
      exact State.settled_append (s := s.bumpId) rfl (State.settled_of_passes rfl h)

/-- A change of the passes under another identifier leaves those under this one. -/
theorem State.modPass_settled {s : State} {p : Pass} {id : Nat} {g : Pass → Pass} (hg : ∀ x, (g x).id = x.id) (hne : id ≠ p.id) (hs : s.settled p) :
    (s.modPass id g).settled p := by
  obtain ⟨hp, hq⟩ := hs
  refine ⟨(find?_mapIf_ne (key := Pass.id) hg hne.symm s.passes).trans hp, fun x hx hid => ?_⟩
  obtain ⟨y, hy, rfl⟩ := List.mem_map.mp hx
  by_cases hy' : (y.id == id) = true
  · rw [if_pos hy', hg] at hid
    exact absurd ((beq_iff_eq.mp hy').symm.trans hid) hne
  · rw [if_neg hy'] at hid ⊢
    exact hq y hy hid

theorem State.placeQueued_settled {s : State} {p : Pass} {id : Nat} (hne : id ≠ p.id) (hs : s.settled p) : (s.placeQueued id).settled p := by
  unfold State.placeQueued
  split
  · exact hs
  · split
    · exact State.modPass_settled (fun _ => rfl) hne (State.takeEngine_settled _ _ _ hs)
    · exact hs

theorem State.dispatch_settled {s : State} {p : Pass} (hs : s.settled p) : s.dispatch.settled p := by
  unfold State.dispatch State.placeWork
  extract_lets u
  suffices hu : u.settled p from State.brineIdle_settled hu
  refine foldl_holds (p := fun s => s.settled p) (fun s k hs => ?_) _ s hs
  dsimp only
  have hcurds := foldl_holds (p := fun s => s.settled p) (fun _ c h => State.beginCurd_settled c h)
    (s.curds.filter fun c => s.curdWaits c && s.curdClass c == k) s hs
  refine List.foldlRecOn (motive := fun s : State => s.settled p) _ _ hcurds fun t ht x hx => State.placeQueued_settled (fun hid => ?_) ht
  obtain ⟨hmem, hwaits⟩ := List.mem_filter.mp hx
  rw [hcurds.2 x hmem hid, Bool.false_and] at hwaits
  exact Bool.false_ne_true hwaits

/-! ### Passes under their identifiers -/

theorem State.pass?_map (s : State) {f : Pass → Pass} (hf : ∀ x, (f x).id = x.id) (id : Nat) :
    ({ s with passes := s.passes.map f } : State).pass? id = (s.pass? id).map f := by
  unfold State.pass?
  rw [List.find?_map]
  congr 2
  funext x
  simp only [Function.comp, hf]

theorem State.pass?_modPass (s : State) {id : Nat} {g : Pass → Pass} (hg : ∀ x, (g x).id = x.id) :
    (s.modPass id g).pass? id = (s.pass? id).map g :=
  find?_mapIf (key := Pass.id) (fun x h => (hg x).trans h) s.passes

theorem State.pass?_of_passes {s t : State} (h : t.passes = s.passes) (id : Nat) : t.pass? id = s.pass? id := by simp only [State.pass?, h]

theorem State.passGroup_of_passes {s t : State} (h : t.passes = s.passes) (p : Pass) : t.passGroup p = s.passGroup p := by
  simp only [State.passGroup, h]

theorem State.mem_passGroup {s : State} {p : Pass} (hp : s.pass? p.id = some p) : p ∈ s.passGroup p := by
  unfold State.passGroup
  split
  · exact List.mem_singleton_self p
  · next c hc => exact List.mem_filter.mpr ⟨List.mem_of_find?_eq_some hp, by rw [hc, beq_self_eq_true]⟩

end Sys2Proof.Machine
end

section
/-! SUPPORT. The walk of a pass block by block (R117, R131), the end of a part (R126, R136), and a pass that gives way and goes on (R228). -/

namespace Sys2Proof.Machine

/-! ### The commands -/

/-- A command on a request in service. -/
theorem leaves_of_req {c : Instr} {s : State} {r : Req} {g : State → Req → State} {P : State → Prop}
    (hc : exec c s = .next (s.live fun s => (s.req? r.id).elim s fun r => g s r)) (hs : s.inService = true) (hr : s.req? r.id = some r)
    (hp : P (g s r)) : Leaves c s P :=
  leaves_of_live hc hs (by rwa [hr])

/-- Without a finding the two commands that read for a pass are its walk and its return alone (log entry 30). -/
theorem exec_walkBlock (s : State) (id : Nat) : exec (.walkBlock id []) s = .next (s.live fun s => s.walkBlock id) := by
  rw [exec, execWalkBlock, State.readFaults_nil]

theorem exec_passResume (s : State) (id slot : Nat) : exec (.passResume id slot []) s = .next (s.live fun s => s.passResume id slot) := by
  rw [exec, execPassResume, State.readFaults_nil]

/-! ### Page boundaries (R143) -/

/-- Every row of the pass, and of the passes that end with it, is of a request that runs on, of which `P` holds besides. -/
def State.walksFor (s : State) (p : Pass) (P : Req → Prop) : Prop :=
  ∀ y ∈ s.passGroup p, ∀ x ∈ y.rows, ∃ r, s.req? x.req = some r ∧ r.ended = none ∧ P r

/-- Nothing happens at a page boundary where every request runs on. -/
theorem State.pageBoundary_runs {s : State} {p : Pass} {P : Req → Prop} (hp : s.pass? p.id = some p) (h : s.walksFor p P) :
    s.pageBoundary p.id = s := by
  unfold State.pageBoundary
  simp only [hp]
  refine if_pos (List.isEmpty_iff.mpr (List.filter_eq_nil_iff.mpr fun k hk => ?_))
  obtain ⟨x, hx, rfl⟩ := List.mem_map.mp (List.mem_eraseDups.mp hk)
  obtain ⟨y, hy, hxy⟩ := List.mem_flatMap.mp (List.mem_filter.mp hx).1
  obtain ⟨r, hr, hended, -⟩ := h y hy x hxy
  simp [hr, hended]

/-- The rows of a pass may change their states: the requests that it walks for stay. -/
theorem State.walksFor_modPass {s : State} {p q : Pass} {P : Req → Prop} {g : Pass → Pass} (hp : s.pass? p.id = some p) (hq : q = g p)
    (hg : ∀ x, (g x).curd = x.curd ∧ (g x).rows.map (·.req) = p.rows.map (·.req)) (h : s.walksFor p P) : (s.modPass p.id g).walksFor q P := by
  -- a row of a changed pass has the request of a row of `p`
  have changed : ∀ x, ∀ y ∈ (g x).rows, ∃ r, s.req? y.req = some r ∧ r.ended = none ∧ P r := fun x y hy => by
    have hmem : y.req ∈ p.rows.map (·.req) := (hg x).2 ▸ List.mem_map_of_mem hy
    obtain ⟨z, hz, hzy⟩ := List.mem_map.mp hmem
    exact hzy ▸ h p (State.mem_passGroup hp) z hz
  subst hq
  unfold State.walksFor State.passGroup at h ⊢
  rw [(hg p).1]
  cases hc : p.curd with
  | none => exact fun y hy => List.mem_singleton.mp hy ▸ changed p
  | some c =>
    rw [hc] at h
    intro y hy
    obtain ⟨hmem, hcurd⟩ := List.mem_filter.mp hy
    obtain ⟨z, hz, rfl⟩ := List.mem_map.mp hmem
    by_cases hid : (z.id == p.id) = true
    · rw [if_pos hid]
      exact changed z
    · rw [if_neg hid] at hcurd ⊢
      exact h z (List.mem_filter.mpr ⟨hz, hcurd⟩)

theorem State.walksFor_of {s t : State} {p : Pass} {P : Req → Prop} (hp : t.passes = s.passes) (hr : t.reqs = s.reqs) (h : s.walksFor p P) :
    t.walksFor p P := by
  unfold State.walksFor at h ⊢
  simpa only [State.passGroup_of_passes hp, State.req?_of_reqs hr] using h

/-! ### The last block (R117, R139) -/

/-- A pass that has walked its last block ends, and keeps its rows. -/
theorem State.endWalked_stands {s : State} {p : Pass} (hp : s.pass? p.id = some p) :
    ∃ x, (s.endWalked p.id).pass? p.id = some x ∧ x.next = p.next ∧ x.rows = p.rows ∧ (s.passEnded p = true → x.fin = true) := by
  unfold State.endWalked
  simp only [hp]
  split
  · next h =>
    refine ⟨p, hp, rfl, rfl, fun he => ?_⟩
    rw [he, Bool.not_true, Bool.or_false] at h
    exact h
  · split
    · exact ⟨{ p with fin := true }, by rw [State.pass?_modPass _ (by intro; rfl), hp]; rfl, rfl, rfl, fun _ => rfl⟩
    · let q : Pass := { p with fin := true, engines := [] }
      have hq : (s.modPass p.id fun p => { p with fin := true, engines := [] }).settled q := by
        refine ⟨by rw [State.pass?_modPass _ (by intro; rfl), hp]; rfl, fun x hx hid => ?_⟩
        obtain ⟨y, hy, rfl⟩ := List.mem_map.mp hx
        split at hid
        · next h =>
          rw [if_pos h]
          simp [Pass.queued]
        · next h => exact absurd (beq_iff_eq.mpr hid) h
      exact ⟨q, (State.dispatch_settled hq).1, rfl, rfl, fun _ => rfl⟩

/-! ### A block that is walked (R131) -/

theorem State.ripen_moved (s : State) (blk layer n : Nat) : (s.ripen blk layer n).moved = s.moved := by
  unfold State.ripen
  split
  · rfl
  · refine ite_keeps (m := State.moved) rfl (ite_keeps (m := State.moved) ?_ (ite_keeps (m := State.moved) ?_ (ite_keeps (m := State.moved) ?_ rfl)))
    all_goals exact (State.askMove_moved _ _ _ _ _ _).trans rfl

theorem State.askAhead_moved (s : State) (p : Pass) (b : Nat) (r : Req) : (s.askAhead p b r).moved = s.moved := by
  unfold State.askAhead
  split
  · rfl
  · exact State.moved_of_held (State.askRun_held _ _ _ _ _ _ _ _)

theorem State.passes_of_moved {s t : State} (h : t.moved = s.moved) : t.passes = s.passes := (congrArg State.passes h :)
theorem State.reqs_of_moved {s t : State} (h : t.moved = s.moved) : t.reqs = s.reqs := (congrArg State.reqs h :)
theorem State.passes_of_placed {s t : State} (h : t.placed = s.placed) : t.passes = s.passes := (congrArg State.passes h :)

/-- The rows stay those of their requests. -/
theorem State.updateRows_req (s : State) (p : Pass) (b : Nat) (raw : Bytes) (sh : PageShape) :
    (s.updateRows p b raw sh).map (·.req) = p.rows.map (·.req) := by
  unfold State.updateRows
  rw [List.map_map]
  refine List.map_congr_left fun x _ => ?_
  simp only [Function.comp]
  split
  · rfl
  · split
    · rfl
    · split <;> rfl

/-- A pass behind block `b` with rows moved on by it. -/
def Pass.behind (b : Nat) (rows : List PassRow) (p : Pass) : Pass := { p with next := b + 1, rows := rows }

/-- A block that is met moves every row of a pass without a class-0 row on, and the pass behind it. -/
theorem State.walkOk_moves {s : State} {p : Pass} (hp : s.pass? p.id = some p) (hrows : s.walksFor p fun r => r.cls ≠ 0) (b : Nat) (rs : List Req)
    (raw : Bytes) (sh : PageShape) (blk : Nat) :
    ∃ x, (s.walkOk p b rs raw sh blk).pass? p.id = some x ∧ x.next = b + 1 ∧ x.rows = s.updateRows p b raw sh := by
  let g := Pass.behind b (s.updateRows p b raw sh)
  unfold State.walkOk
  extract_lets inc rows s1 s2 mates s3 s4 s5 s6
  have hp1 : s1.pass? p.id = some (g p) := (s.pass?_modPass (g := g) fun _ => rfl).trans (by rw [hp]; rfl)
  have hrows1 : s1.walksFor (g p) fun r => r.cls ≠ 0 :=
    State.walksFor_modPass (g := g) hp rfl (fun _ => ⟨rfl, s.updateRows_req p b raw sh⟩) hrows
  have h2 : s2.moved = s1.moved := State.moved_of_held (s1.enqueue_held _ _ _ _)
  have h3 : s3.moved = s2.moved := foldl_keeps State.moved _ (fun s id => (rfl : (s.consumeCopy id b p.layer).moved = s.moved)) _ _
  have h4 : s4.moved = s3.moved := s3.ripen_moved _ _ _
  have h5 : s5.moved = s4.moved := by
    unfold s5
    cases rs.head? with
    | none => rfl
    | some r => exact s4.askAhead_moved _ _ _
  have h15 : s5.moved = s1.moved := h5.trans (h4.trans (h3.trans h2))
  have hp5 : s5.pass? p.id = some (g p) := (State.pass?_of_passes (State.passes_of_moved h15) _).trans hp1
  have hrows5 : s5.walksFor (g p) fun r => r.cls ≠ 0 := State.walksFor_of (State.passes_of_moved h15) (State.reqs_of_moved h15) hrows1
  -- no row is of class 0, so that no request comes to be late (R226)
  have h6 : s6 = s5 := by
    refine List.foldlRecOn (motive := (· = s5)) _ _ rfl fun t ht r hr => ?_
    obtain ⟨id, hid, hreq⟩ := List.mem_filterMap.mp hr
    have hmem : id ∈ (g p).rows.map (·.req) := (s.updateRows_req p b raw sh).symm ▸ List.mem_eraseDups.mp hid
    obtain ⟨x, hx, rfl⟩ := List.mem_map.mp hmem
    obtain ⟨r', hr', -, hcls⟩ := hrows5 (g p) (State.mem_passGroup (p := g p) hp5) x hx
    cases hr'.symm.trans hreq
    rw [ht, hp5]
    exact if_pos hcls
  have hboundary : s5.pageBoundary p.id = s5 := State.pageBoundary_runs (p := g p) hp5 hrows5
  rw [h6, hboundary]
  obtain ⟨x, hx, hnext, hrow, -⟩ := State.endWalked_stands (p := g p) hp5
  exact ⟨x, hx, hnext, hrow⟩

/-- The state with what the consumers of a block load for it (R26, R47). -/
def State.loadedFor (s : State) (rs : List Req) (b : Nat) : State :=
  rs.foldl (fun (s : State) r => (s.attendOf r).elim s fun a => s.loadBlock a.1 a.2.1 b) s

theorem State.loadedFor_placed (s : State) (rs : List Req) (b : Nat) : (s.loadedFor rs b).placed = s.placed :=
  foldl_keeps State.placed _ (fun s r => by
    cases s.attendOf r with
    | none => rfl
    | some a => exact s.loadBlock_placed _ _ _) rs s

section
variable {s : State} {p : Pass} (hp : s.pass? p.id = some p) (hruns : s.passRuns p = true) (hrows : s.walksFor p fun r => r.cls ≠ 0)
include hp hruns hrows

/-- Without a block left a pass ends (R117). -/
theorem State.walkBlock_ends (hb : s.nextBlock p = none) :
    ∃ x, (s.walkBlock p.id).pass? p.id = some x ∧ x.fin = true ∧ x.rows = p.rows := by
  have hwalk : s.walkBlock p.id = s.endWalked p.id := by
    simp only [State.walkBlock, State.pageBoundary_runs hp hrows, hp, hruns, hb, Bool.not_true, Bool.false_eq_true, if_false]
  have hended : s.passEnded p = true := by
    simp only [State.passRuns, Bool.and_eq_true] at hruns
    obtain ⟨⟨⟨hengines, hparked⟩, -⟩, -⟩ := hruns
    rw [State.passEnded, hengines, hparked, hb]
    simp
  obtain ⟨x, hx, -, hrow, hfin⟩ := State.endWalked_stands hp
  exact ⟨x, by rw [hwalk, hx], hfin hended, hrow⟩

/-- The next block, where its page is there, moves every row on by it (R131). -/
theorem State.walkBlock_moves {b blk : Nat} {raw : Bytes} {sh : PageShape} {w : State} (hw : w = s.loadedFor (s.consumers p b) b)
    (hb : s.nextBlock p = some b) (hok : (w.sparing p b).passPage p b (s.consumers p b) = .ok raw sh blk) :
    ∃ x, (s.walkBlock p.id).pass? p.id = some x ∧ x.next = b + 1 ∧ x.rows = w.updateRows p b raw sh := by
  have hplaced : w.placed = s.placed := by rw [hw, State.loadedFor_placed]
  have hpw : w.pass? p.id = some p := (State.pass?_of_passes (State.passes_of_placed hplaced) _).trans hp
  have hrowsw : w.walksFor p fun r => r.cls ≠ 0 := State.walksFor_of (State.passes_of_placed hplaced) (State.reqs_of_placed hplaced) hrows
  have hwalk : s.walkBlock p.id = w.walkOk p b (s.consumers p b) raw sh blk := by
    subst hw
    unfold State.loadedFor at hok
    simp only [State.walkBlock, State.pageBoundary_runs hp hrows, hp, hruns, hb, Bool.not_true, Bool.false_eq_true, if_false, hok]
    rfl
  rw [hwalk]
  exact State.walkOk_moves hpw hrowsw b _ raw sh blk

end

/-! ### The query rows (R126) -/

/-- A request without its parts. -/
def Req.unparted (r : Req) : Req := { r with parts := [] }

/-- The requests in their order, without their parts. -/
def State.unparted (s : State) : List Req := s.reqs.map Req.unparted

theorem State.unparted_of_unmarked {s t : State} (h : t.unmarked = s.unmarked) : t.unparted = s.unparted := by
  have read : ∀ u : State, u.unparted = u.unmarked.map Req.unparted := fun u => by
    rw [State.unmarked, List.map_map]
    rfl
  rw [read, read, h]

theorem State.modReq_unparted (s : State) (id : Nat) {g : Req → Req} (hg : ∀ x, (g x).unparted = x.unparted) :
    (s.modReq id g).unparted = s.unparted := map_mapIf_same hg s.reqs

theorem State.startParts_unparted (s : State) (r : Req) : (s.startParts r).unparted = s.unparted := by
  have alone : ∀ (s : State) q v m f i p, (s.startAlone r q v m f i p).unparted = s.unparted := fun s q v m f i p => by
    unfold State.startAlone
    dsimp only
    refine (State.modReq_unparted _ _ (by intro; rfl)).trans (foldl_keeps State.unparted _ ?_ _ s)
    intros
    rfl
  unfold State.startParts
  split
  · rfl
  · exact ite_keeps (m := State.unparted) rfl
      (foldl_keeps State.unparted _ (fun s _ => ite_keeps (m := State.unparted) (alone _ _ _ _ _ _ _) rfl) _ s)

/-- The rows of a query as they lie in its bytes. -/
def queryRows (m : ModelRec) (f : AttendF) (data : Bytes) : List Bytes :=
  (List.range (rowCount m f)).map fun i => (data.drop (i * rowBytes m f)).take (rowBytes m f)

/-- The query rows of a request with parts arrive, and stay through the start of its passes. -/
theorem State.queryArrives_rows {s : State} {r : Req} {q : Seq} {v : Version} {m : ModelRec} {f : AttendF} (hr : s.req? r.id = some r)
    (ha : s.attendOf r = some (q, v, m, f)) (hphase : r.phase = .started) (hq : r.query = []) (hparts : r.parts ≠ []) (data : Bytes) :
    ∃ x, (s.queryArrives r true data).req? r.id = some x ∧ x.query = queryRows m f data := by
  let u := s.modReq r.id fun r => { r with query := queryRows m f data }
  let r' : Req := { r with query := queryRows m f data }
  have hu : u.req? r.id = some r' := by rw [State.req?_modReq _ _ (by intro; rfl), hr]; rfl
  have hout : s.queryArrives r true data = (u.startParts r').dispatch := by
    have hnone : r'.parts.isEmpty = false := List.isEmpty_eq_false_iff.mpr hparts
    unfold State.queryArrives
    simp only [ha, hphase, hq, ne_eq, not_true_eq_false, List.isEmpty_nil, Bool.not_true, Bool.false_eq_true, if_false]
    change (match u.req? r.id with
      | none => u
      | some r => if r.parts.isEmpty then u.completeAttend r else (u.startParts r).dispatch) = _
    rw [hu]
    exact if_neg (by rw [hnone]; exact Bool.false_ne_true)
  have hsame : (s.queryArrives r true data).unparted = u.unparted := by
    rw [hout, State.unparted_of_unmarked (State.dispatch_unmarked _), State.startParts_unparted]
  obtain ⟨x, hx, hxr⟩ := find?_of_map_eq (fun x : Req => x.id == r.id) (fun _ => rfl) hsame hu
  exact ⟨x, hx, (congrArg Req.query hxr :)⟩

/-! ### The end of a part (R136) -/

/-- A request whose part in position `i` is done, with these rows. -/
def Req.partDone (r : Req) (i : Nat) (rows : List RowState) : Req :=
  { r with parts := r.parts.zipIdx.map fun (p, j) => if j = i then { p with st := .done, rows := rows } else p }

theorem Req.partDone_part (r : Req) (i : Nat) (rows : List RowState) (j : Nat) :
    (r.partDone i rows).parts[j]? = r.parts[j]?.map fun p => if j = i then { p with st := .done, rows := rows } else p := by
  simp [Req.partDone, List.getElem?_map, List.getElem?_zipIdx, Function.comp_def]

/-- With a part done every part is, where all the others are. -/
theorem Req.partDone_all {r : Req} {i : Nat} (rows : List RowState) :
    ((r.partDone i rows).parts.all fun p => p.st == .done) = true ↔ ∀ y ∈ r.parts.eraseIdx i, y.st = .done := by
  simp only [List.all_eq_true, beq_iff_eq, List.mem_eraseIdx_iff_getElem?]
  constructor
  · rintro h y ⟨j, hj, hy⟩
    exact h y (List.mem_iff_getElem?.mpr ⟨j, by rw [Req.partDone_part, hy, Option.map_some, if_neg hj]⟩)
  · intro h y hmem
    obtain ⟨j, hy⟩ := List.mem_iff_getElem?.mp hmem
    rw [Req.partDone_part] at hy
    obtain ⟨p, hp, rfl⟩ := Option.map_eq_some_iff.mp hy
    split
    · rfl
    · next hj => exact h p ⟨j, hj, hp⟩

/-- The state in which a part is done and its passes are gone. -/
def State.partGone (s : State) (id i : Nat) (ps : List Pass) : State :=
  { s.modReq id fun x => x.partDone i (gatherRows ps x.id i) with passes := s.passes.filter fun x => !(ps.any fun y => y.id == x.id) }

/-- A part that walks ends once all of its passes have walked their last block. -/
theorem State.partEnd_ends {s : State} {r : Req} {i : Nat} {ps : List Pass} {p : Part} (hp : r.parts[i]? = some p) (hst : p.st = .walking)
    (he : r.ended = none) (hps : ps = s.passes.filter fun p => p.curd.isNone && p.rows.any fun x => x.req == r.id && x.part == i) (hne : ps ≠ [])
    (hended : s.passesEnded ps = true) : s.partEnd r i = s.endPart r i ps := by
  have hnone : ps.isEmpty = false := List.isEmpty_eq_false_iff.mpr hne
  unfold State.partEnd
  simp only [← hps, hp, hst, he, hnone, hended, ne_eq, not_true_eq_false, Bool.not_true, Option.isSome_none, Bool.false_eq_true, or_self, if_false]

section
variable {s : State} {r : Req} {i : Nat} {ps : List Pass} (hr : s.req? r.id = some r)
include hr

theorem State.partGone_req : (s.partGone r.id i ps).req? r.id = some (r.partDone i (gatherRows ps r.id i)) :=
  (s.req?_modReq r.id (g := fun x => x.partDone i (gatherRows ps x.id i)) fun _ => rfl).trans (by rw [hr]; rfl)

theorem State.endPart_gone :
    s.endPart r i ps = ((s.partGone r.id i ps).completeAttend (r.partDone i (gatherRows ps r.id i))).dispatch := by
  unfold State.endPart
  extract_lets s1 s2
  have h2 : s2 = s.partGone r.id i ps := rfl
  rw [h2, State.partGone_req hr]

/-- The rows of a part that ends before another are gathered in it. -/
theorem State.endPart_waits {q : Seq} {v : Version} {m : ModelRec} {f : AttendF} {p : Part} (ha : s.attendOf r = some (q, v, m, f))
    (hp : r.parts[i]? = some p) (hmore : ∃ y ∈ r.parts.eraseIdx i, y.st ≠ .done) :
    ∃ y, (s.endPart r i ps).partOf r.id i = some y ∧ y.st = .done ∧ y.rows = gatherRows ps r.id i := by
  let u := s.partGone r.id i ps
  let r' := r.partDone i (gatherRows ps r.id i)
  have ha' : u.attendOf r' = some (q, v, m, f) := ha
  have hall : ¬(r'.parts.all fun p => p.st == .done) = true := by
    rw [Req.partDone_all]
    exact fun h => hmore.elim fun y hy => hy.2 (h y hy.1)
  have hstays : u.completeAttend r' = u := by
    simp only [State.completeAttend, ha']
    exact if_neg fun h => hall h.2.2
  have hpart : r'.parts[i]? = some { p with st := .done, rows := gatherRows ps r.id i } := by
    rw [Req.partDone_part, hp, Option.map_some, if_pos rfl]
  obtain ⟨x, hx, hxr⟩ := State.req?_of_unmarked u.dispatch_unmarked (State.partGone_req hr)
  obtain ⟨y, hy, hst, hrows⟩ := Req.part_of_unmarked hxr hpart
  have hout : s.endPart r i ps = u.dispatch := (State.endPart_gone hr).trans (congrArg State.dispatch hstays)
  exact ⟨y, by rw [hout, State.partOf, hx]; exact hy, hst, hrows⟩

/-- With the last part the result leaves for host memory (R136, R189). -/
theorem State.endPart_answers {q : Seq} {v : Version} {m : ModelRec} {f : AttendF} (ha : s.attendOf r = some (q, v, m, f))
    (hphase : r.phase = .started) (he : r.ended = none) (hall : ∀ y ∈ r.parts.eraseIdx i, y.st = .done) {result : Bytes × Nat × Bool}
    (hres : result = (s.partGone r.id i ps).attendResult (r.partDone i (gatherRows ps r.id i)) q v m f) :
    s.answers (s.endPart r i ps) r f.result result.1 stOk (resParts result.2.1) := by
  let u := s.partGone r.id i ps
  let r' := r.partDone i (gatherRows ps r.id i)
  have ha' : u.attendOf r' = some (q, v, m, f) := ha
  have hgo : r'.phase ≠ .writing ∧ (!r'.stops) = true ∧ (r'.parts.all fun p => p.st == .done) = true := by
    refine ⟨?_, ?_, (Req.partDone_all _).mpr hall⟩
    · rw [show r'.phase = .started from hphase]
      decide
    · rw [Req.not_stops (r := r') he]
      rfl
  have hout : u.completeAttend r' = u.answerWith r' f.result result.1 stOk (resParts result.2.1)
      { nonfinite := result.2.2, curd := r'.parts.any (·.curd) } := by
    simp only [State.completeAttend, ha', hres]
    exact if_pos hgo
  have hreq : u.req? r'.id = some r' := State.partGone_req hr
  have hanswer : s.answers (u.completeAttend r') r f.result result.1 stOk (resParts result.2.1) := by
    rw [hout]
    exact State.answerWith_answers (s := s) (t := u) (r := r') rfl (by rw [hreq]; rfl) _ _ _ _ _
  rw [State.endPart_gone hr]
  exact State.answers_of_unmarked (State.dispatch_unmarked _) (State.out_of_plan (State.dispatch_plan _)) hanswer

end

/-! ### Yield and resume (R228) -/

/-- The passes that give way or go on with a pass: itself, and those of its curd. -/
def Pass.goesWith (p x : Pass) : Bool := x.id == p.id || (p.curd.isSome && x.curd == p.curd)

/-- A pass that has left its engines. -/
def Pass.off (x : Pass) : Pass := { x with parked := !x.fin, engines := [] }

/-- A pass parks where a reservation of class 0 begins on an engine that it runs on. -/
theorem State.passYield_parks {s : State} {p : Pass} {P : Req → Prop} (hp : s.pass? p.id = some p) (hcls : p.cls ≠ 0) (hparked : p.parked = false)
    (hres : (p.engines.any fun e => s.reservedNow p.cluster e (p.rows.map (·.req))) = true) (hrows : s.walksFor p P) :
    (s.passYield p.id).pass? p.id = some p.off := by
  let u : State := { s with passes := mapIf p.goesWith Pass.off s.passes }
  have hany : (p.engines.any fun e => s.reservedNow p.cluster e (p.rows.map (·.req)) || s.wantedByCurd p.cluster e) = true := by
    obtain ⟨e, he, hreserved⟩ := List.any_eq_true.mp hres
    exact List.any_eq_true.mpr ⟨e, he, by rw [hreserved, Bool.true_or]⟩
  have hout : s.passYield p.id = u.dispatch := by
    simp only [State.passYield, hp, State.pageBoundary_runs hp hrows]
    rw [if_neg]
    · rfl
    · rintro (h | h | h)
      · exact hcls h
      · rw [hparked] at h
        exact Bool.false_ne_true h
      · rw [hany] at h
        exact Bool.false_ne_true h
  have hself : p.goesWith p = true := by rw [Pass.goesWith, beq_self_eq_true, Bool.true_or]
  have hu : u.settled p.off := by
    refine ⟨(s.pass?_map (f := fun a => if p.goesWith a then a.off else a) (fun x => by split <;> rfl) p.id).trans ?_, fun x hx hid => ?_⟩
    · rw [hp, Option.map_some, if_pos hself]
    · obtain ⟨y, hy, rfl⟩ := List.mem_map.mp hx
      have hwith : p.goesWith y = true := by
        have : y.id = p.id := by
          split at hid <;> exact hid
        rw [Pass.goesWith, this, beq_self_eq_true, Bool.true_or]
      rw [if_pos hwith]
      cases hfin : y.fin <;> simp [Pass.queued, Pass.off, hfin]
  rw [hout]
  exact (State.dispatch_settled hu).1

/-- A pass that works on these engines. -/
def Pass.on (slots : List Nat) (x : Pass) : Pass := { x with parked := false, engines := slots }

/-- A parked pass that needs one engine goes on upon an idle one. -/
theorem State.passResume_runs {s : State} {p : Pass} {slot : Nat} (hp : s.pass? p.id = some p) (hparked : p.parked = true)
    (hslot : slot ∈ (s.idleEngines p.cluster).map (·.2)) (hone : ((s.passGroup p).flatMap (·.rows)).foldl (fun n x => max n x.engine) 0 = 0) :
    (s.passResume p.id slot).pass? p.id = some (p.on [slot]) := by
  let u : State := { s with passes := mapIf p.goesWith (Pass.on [slot]) s.passes }
  have hout : s.passResume p.id slot = u.takeEngine p.cluster slot (u.passOwners p) := by
    have hidle : ((s.idleEngines p.cluster).map (·.2)).contains slot = true := List.contains_iff_mem.mpr hslot
    simp only [State.passResume, hp, hone, hparked, hidle]
    rw [if_neg (by simp)]
    rfl
  rw [hout]
  refine (s.pass?_map (f := fun a => if p.goesWith a then a.on [slot] else a) (fun x => by split <;> rfl) p.id).trans ?_
  rw [hp, Option.map_some, if_pos (by rw [Pass.goesWith, beq_self_eq_true, Bool.true_or])]

end Sys2Proof.Machine
end

section
/-! CLAIMS. The obligation on passes (05, 06). -/

namespace Sys2Proof.Machine

/-- Settles O27: each command by the lemma on its operation, whose page boundary finds every request running on. -/
theorem passCommandsComplete : Obligations.PassCommandsComplete := by
  unfold Obligations.PassCommandsComplete
  refine ⟨fun s r q v m f data hs hr ha hphase hq hparts => ?_, fun s p hs hp hruns hrows => ⟨fun hb => ?_, fun b raw sh blk hb hok => ?_⟩,
    fun s r i p q v m f hs hr ha hphase hp hst he hne hended _ => ⟨fun hmore => ?_, fun hall => ?_⟩,
    fun s p hs hp hcls hparked hres hrows => ?_, fun s id slot found => ?_, fun s p slot hs hp hparked hslot hone => ?_⟩
  · exact leaves_of_req (g := fun s r => s.queryArrives r true data) rfl hs hr (State.queryArrives_rows hr ha hphase hq hparts data)
  · exact leaves_of_live (exec_walkBlock s p.id) hs (State.walkBlock_ends hp hruns hrows hb)
  · exact leaves_of_live (exec_walkBlock s p.id) hs (State.walkBlock_moves hp hruns hrows rfl hb hok)
  · refine leaves_of_req (g := fun s r => s.partEnd r i) rfl hs hr ?_
    rw [State.partEnd_ends hp hst he rfl hne hended]
    exact State.endPart_waits hr ha hp hmore
  · refine leaves_of_req (g := fun s r => s.partEnd r i) rfl hs hr ?_
    rw [State.partEnd_ends hp hst he rfl hne hended]
    exact State.endPart_answers hr ha hphase he hall rfl
  · have hlive : s.walksFor p fun _ => True := fun y hy x hx => by
      obtain ⟨r, hr, hended⟩ := hrows y hy x hx
      exact ⟨r, hr, hended, trivial⟩
    exact leaves_of_live rfl hs ⟨_, State.passYield_parks hp hcls hparked hres hlive, rfl, rfl, rfl, rfl⟩
  · rw [exec_walkBlock, exec_passResume]
    exact ⟨rfl, rfl⟩
  · exact leaves_of_live (exec_passResume s p.id slot) hs ⟨_, State.passResume_runs hp hparked hslot hone, rfl, rfl, rfl⟩

end Sys2Proof.Machine
end

section
/-! SUPPORT. Curds (07): what keeps a curd standing while engines are given out (R150, R155), a join of it (R147, R148), its close at the tick's
end (R148, R150), and the end of its passes (R153). -/

namespace Sys2Proof.Machine

/-! ### Curds under their identifiers -/

theorem State.curd?_modCurd (s : State) (id : Nat) {g : Curd → Curd} (hg : ∀ x, (g x).id = x.id) : (s.modCurd id g).curd? id = (s.curd? id).map g :=
  find?_mapIf (key := Curd.id) (fun x h => (hg x).trans h) s.curds

theorem State.mem_of_curd? {s : State} {id : Nat} {c : Curd} (h : s.curd? id = some c) : c ∈ s.curds ∧ c.id = id :=
  ⟨List.mem_of_find?_eq_some h, beq_iff_eq.mp (List.find?_some h :)⟩

/-- A curd is marked to close (R148). -/
def Curd.toClose (c : Curd) : Curd := { c with closing := true }

theorem State.closeThisTick_marks {s : State} {c : Curd} (h : s.curd? c.id = some c) : (s.closeThisTick c).curd? c.id = some c.toClose := by
  rw [State.closeThisTick, State.curd?_modCurd _ _ (by intro; rfl), h]
  rfl

/-- A command on a curd in service. -/
theorem leaves_of_curd {i : Instr} {s : State} {c : Curd} {g : State → Curd → State} {P : State → Prop}
    (hi : exec i s = .next (s.live fun s => (s.curd? c.id).elim s (g s))) (hs : s.inService = true) (hc : s.curd? c.id = some c) (hp : P (g s c)) :
    Leaves i s P :=
  leaves_of_live hi hs (by rwa [hc])

/-! ### Members while engines are given out -/

theorem State.req?_unmarked {s t : State} (h : t.unmarked = s.unmarked) (id : Nat) : (t.req? id).map Req.unmarked = (s.req? id).map Req.unmarked := by
  have read : ∀ u : State, (u.req? id).map Req.unmarked = u.unmarked.find? fun r => r.id == id := fun u => by
    rw [State.unmarked, List.find?_map]
    rfl
  rw [read, read, h]

/-- A member is in the curd, read from its request without the notes of R158. -/
theorem State.liveMembers_eq (s : State) (c : Curd) :
    s.liveMembers c = c.members.filter fun x =>
      ((s.req? x.req).map Req.unmarked).elim false fun r => (r.parts[x.part]?).elim false fun p => p.st == .inCurd c.id := by
  unfold State.liveMembers
  refine List.filter_congr fun x _ => ?_
  cases s.req? x.req with
  | none => rfl
  | some r =>
    simp only [Option.map_some, Option.elim_some, Req.unmarked, List.getElem?_map]
    cases r.parts[x.part]? <;> rfl

theorem State.liveMembers_of_unmarked {s t : State} (h : t.unmarked = s.unmarked) (c : Curd) : t.liveMembers c = s.liveMembers c := by
  simp only [State.liveMembers_eq, State.req?_unmarked h]

/-- What an ATTEND reads is outside the frame of curds. -/
theorem State.attendOf_of_curdFrame {s t d : State} (h : curdFrame t d = curdFrame s d) : t.attendOf = s.attendOf := by
  have hseqs : t.seqs = s.seqs := (congrArg State.seqs h :)
  have himage : t.image = s.image := (congrArg State.image h :)
  have hpinned : t.pinned? = s.pinned? := by
    funext p
    simp only [State.pinned?, State.seq?, hseqs]
  funext r
  simp only [State.attendOf, State.model?, hpinned, himage]

theorem State.curdBase_of_unmarked {s t d : State} (hf : curdFrame t d = curdFrame s d) (hu : t.unmarked = s.unmarked) (ms : List Member) :
    t.curdBase ms = s.curdBase ms := by
  have read : ∀ (u : State) (id : Nat), ((u.req? id).bind fun r => u.attendOf r) = ((u.req? id).map Req.unmarked).bind fun r => u.attendOf r :=
    fun u id => by cases u.req? id <;> rfl
  refine congrArg (ms.findSome? ·) (funext fun x => ?_)
  rw [read t, read s, State.req?_unmarked hu, State.attendOf_of_curdFrame hf]

/-! ### Curds while engines are given out -/

/-- A member of the curd is left, and what it reads stands. -/
def State.peopled (s : State) (c : Curd) : Prop := (s.curdBase (s.liveMembers c)).isSome = true

/-- The curds stand as in `s`, with their members and what these read. -/
def State.curdsStand (s t : State) : Prop := t.curds = s.curds ∧ t.unmarked = s.unmarked ∧ curdFrame t s = curdFrame s s

theorem State.peopled_of_curdsStand {s t : State} {c : Curd} (h : s.curdsStand t) (hc : s.peopled c) : t.peopled c := by
  obtain ⟨-, hu, hf⟩ := h
  unfold State.peopled
  rwa [State.liveMembers_of_unmarked hu, State.curdBase_of_unmarked hf hu]

theorem State.takeEngine_curds (s : State) (cluster slot : Nat) (owners : List (Nat × Nat)) : (s.takeEngine cluster slot owners).curds = s.curds := rfl
theorem State.markCurd_curds (s : State) (x : Member) : (s.markCurd x).curds = s.curds := rfl
theorem State.brineIdle_curds (s : State) : s.brineIdle.curds = s.curds := rfl

/-- A curd of which a member is left begins its passes, or waits on. -/
theorem State.beginCurd_curds {s : State} {c : Curd} (h : s.peopled c) : (s.beginCurd c).curds = s.curds := by
  obtain ⟨⟨q, v, m, f⟩, hbase⟩ := Option.isSome_iff_exists.mp h
  simp only [State.beginCurd, hbase]
  refine ite_keeps (m := State.curds) rfl ?_
  rw [foldl_keeps State.curds _ fun s k => s.takeEngine_curds _ _ _, foldl_keeps State.curds _ State.markCurd_curds]
  refine foldl_keeps State.curds _ ?_ _ s
  intros
  rfl

theorem State.placeQueued_curds (s : State) (id : Nat) : (s.placeQueued id).curds = s.curds := by
  unfold State.placeQueued
  split
  · rfl
  · split <;> rfl

theorem State.dispatch_curds {s : State} (h : ∀ c ∈ s.curds, s.peopled c) : s.dispatch.curds = s.curds := by
  unfold State.dispatch State.placeWork
  extract_lets u
  suffices hu : s.curdsStand u from u.brineIdle_curds.trans hu.1
  refine foldl_holds (p := s.curdsStand) (fun t k ht => ?_) _ s ⟨rfl, rfl, rfl⟩
  refine foldl_holds (p := s.curdsStand) (fun t p ht => ?_) _ _ ?_
  · obtain ⟨hc, hu, hf⟩ := ht
    exact ⟨(t.placeQueued_curds _).trans hc, (t.placeQueued_unmarked _).trans hu, (t.placeQueued_curdFrame _ s).trans hf⟩
  · refine List.foldlRecOn (motive := s.curdsStand) _ _ ht fun y hy c hmem => ?_
    have hpeopled : y.peopled c := State.peopled_of_curdsStand hy (h c (ht.1 ▸ (List.mem_filter.mp hmem).1))
    obtain ⟨hc, hu, hf⟩ := hy
    exact ⟨(State.beginCurd_curds hpeopled).trans hc, (y.beginCurd_unmarked c).trans hu, (y.beginCurd_curdFrame c s).trans hf⟩

/-! ### Joins (R147, R148) -/

theorem State.partOf_setPart (s : State) (id i : Nat) (st : PartSt) :
    (s.setPart id i st).partOf id i = (s.partOf id i).map fun p => { p with st := st } := by
  unfold State.partOf State.setPart
  rw [State.req?_modReq _ _ (by intro; rfl)]
  cases s.req? id with
  | none => rfl
  | some r => simp [List.getElem?_map, List.getElem?_zipIdx, Function.comp_def]

/-- A join that leaves room stands, and marks the curd where a hint has it close. -/
theorem State.afterJoin_marks {s : State} {m : ModelRec} {c : Curd} (mode : Nat) (hc : s.curd? c.id = some c) (hroom : c.members.length < m.curdMembers) :
    (s.afterJoin m mode c.id).curd? c.id = some { c with closing := c.closing || hintCloses m mode c.members } ∧
      (s.afterJoin m mode c.id).reqs = s.reqs := by
  simp only [State.afterJoin, hc]
  rw [if_neg (Nat.not_le.mpr hroom)]
  split
  · next h => exact ⟨by rw [h, Bool.or_true]; exact State.closeThisTick_marks hc, rfl⟩
  · next h => exact ⟨by rw [Bool.eq_false_iff.mpr h, Bool.or_false]; exact hc, rfl⟩

/-- The member that a part of a request becomes. -/
def Req.member (r : Req) (i : Nat) (m : ModelRec) (f : AttendF) (p : Part) : Member :=
  { req := r.id, part := i, tenant := r.tenant, rows := rowCount m f, expect := f.curdExpect, due := p.due }

/-- The curd that a part opens. -/
def State.newCurd (s : State) (key : CurdKey) (model : Nat) (x : Member) : Curd :=
  { id := s.ids, key := key, model := model, members := [x], openedAt := s.now, lastJoin := s.now, running := false, cluster := 0, engines := 0 }

/-- A curd with one more member. -/
def Curd.join (c : Curd) (x : Member) (now : Nat) : Curd := { c with members := c.members ++ [x], lastJoin := now }

section
variable {s : State} {r : Req} {i : Nat} {q : Seq} {v : Version} {m : ModelRec} {f : AttendF} {p : Part}
  (ha : s.attendOf r = some (q, v, m, f)) (hp : r.parts[i]? = some p) (hst : p.st = .waiting) (he : r.ended = none)
include ha hp hst he

/-- With no curd open for its key a part opens one, whose one member it is. -/
theorem State.curdOffer_opens (hr : s.req? r.id = some r) (hnone : ∀ c ∈ s.curds, c.id ≠ s.ids ∧ (c.running = true ∨ c.key ≠ s.curdKeyOf r f p))
    (hroom : 1 < m.curdMembers) :
    (∃ c ∈ (s.curdOffer r i).curds, c.id = s.ids ∧ c.key = s.curdKeyOf r f p ∧ c.members = [r.member i m f p] ∧ c.running = false ∧
      c.closing = hintCloses m f.curdMode [r.member i m f p]) ∧
    ∃ y, (s.curdOffer r i).partOf r.id i = some y ∧ y.st = .inCurd s.ids := by
  let c := s.newCurd (s.curdKeyOf r f p) q.model (r.member i m f p)
  let u : State := { s.bumpId with curds := s.curds ++ [c] }
  have hshut : (s.curds.find? fun c => !c.running && c.key == s.curdKeyOf r f p) = none := List.find?_eq_none.mpr fun x hx => by
    rcases (hnone x hx).2 with h | h <;> simp [h]
  have hout : s.curdOffer r i = (u.setPart r.id i (.inCurd c.id)).afterJoin m f.curdMode c.id := by
    simp only [State.curdOffer, ha, hp, hst, he, hshut]
    rw [if_neg (by simp)]
    rfl
  have hfind : (u.setPart r.id i (.inCurd c.id)).curd? c.id = some c := by
    have hfresh : (s.curds.find? fun x => x.id == c.id) = none := List.find?_eq_none.mpr fun x hx => by simpa using show x.id ≠ c.id from (hnone x hx).1
    exact List.find?_append.trans (by rw [hfresh]; simp)
  obtain ⟨hjoin, hreqs⟩ := State.afterJoin_marks f.curdMode hfind hroom
  obtain ⟨hmem, hid⟩ := State.mem_of_curd? hjoin
  rw [hout]
  refine ⟨⟨_, hmem, hid, rfl, rfl, rfl, Bool.false_or _⟩, { p with st := .inCurd c.id }, ?_, rfl⟩
  have hpart : (u.setPart r.id i (.inCurd c.id)).partOf r.id i = some { p with st := .inCurd c.id } := by
    rw [State.partOf_setPart, State.partOf, show u.req? r.id = some r from hr, Option.bind_some, hp]
    rfl
  rwa [State.partOf, State.req?_of_reqs hreqs]

/-- A part that may join the open curd of its key becomes its last member. -/
theorem State.curdOffer_joins {c : Curd} (hopen : (s.curds.find? fun c => !c.running && c.key == s.curdKeyOf r f p) = some c)
    (hc : s.curd? c.id = some c) (hjoin : s.mayJoin m c (r.member i m f p) = true) (hroom : c.members.length + 1 < m.curdMembers) :
    ∃ d ∈ (s.curdOffer r i).curds, d.id = c.id ∧ d.members = c.members ++ [r.member i m f p] ∧ d.lastJoin = s.now ∧
      d.closing = (c.closing || hintCloses m f.curdMode (c.members ++ [r.member i m f p])) := by
  let d := c.join (r.member i m f p) s.now
  let u := (s.modCurd c.id fun c => c.join (r.member i m f p) s.now).setPart r.id i (.inCurd c.id)
  have hout : s.curdOffer r i = u.afterJoin m f.curdMode d.id := by
    simp only [State.curdOffer, ha, hp, hst, he, hopen]
    rw [if_neg (by simp)]
    exact if_pos hjoin
  have hfind : u.curd? d.id = some d := 
    (s.curd?_modCurd c.id (g := fun c => c.join (r.member i m f p) s.now) fun _ => rfl).trans (by rw [hc]; rfl)
  have hlt : d.members.length < m.curdMembers := by rwa [show d.members.length = c.members.length + 1 from List.length_append]
  obtain ⟨hmem, hid⟩ := State.mem_of_curd? (State.afterJoin_marks f.curdMode hfind hlt).1
  rw [hout]
  exact ⟨_, hmem, hid, rfl, rfl, rfl⟩

end

/-! ### The close at the tick's end (R148, R150) -/

/-- A curd that runs, with these members on these engines. -/
def Curd.run (c : Curd) (ms : List Member) (cluster e : Nat) (slots : List Nat) : Curd :=
  { c with members := ms, running := true, closing := false, cluster := cluster, engines := e, slots := slots }

/-- What is counted and booked at a close leaves the requests, and the curds but for the one that closes (R150, R154, R158). -/
theorem State.runCurd_leaves (s : State) (c : Curd) (ms : List Member) (cluster e : Nat) :
    (s.runCurd c ms cluster e).curds =
        mapIf (fun x => x.id == c.id) (fun x => x.run ms cluster e ((s.curdTakes c.key ms cluster c.lastJoin e).map Prod.snd)) s.curds ∧
      (s.runCurd c ms cluster e).reqs = s.reqs := by
  unfold State.runCurd State.bookCurd
  dsimp only
  split <;> exact ⟨rfl, rfl⟩

/-- A curd of two members or more, who may still run together, closes over the fewest engines that suffice. -/
theorem State.closeCurd_runs {s : State} {c : Curd} {q : Seq} {v : Version} {m : ModelRec} {f : AttendF} {e : Nat} (htwo : 2 ≤ c.members.length)
    (hbase : s.curdBase c.members = some (q, v, m, f)) (he : s.curdEngines c.key m c.members c.lastJoin = some e) :
    s.closeCurd c = s.runCurd c c.members (s.curdCluster c.key c.members) e := by
  simp only [State.closeCurd, hbase]
  split
  · next x hx =>
    exact absurd htwo (by simp [hx])
  · simp only [he]

/-- With no request to end and nothing staged a tick's end is its close decision, after which engines are given out. -/
theorem State.endTick_closes {s : State} (hends : ∀ r ∈ s.closeDue.reqs, r.ended = none) (hstaging : s.closeDue.staging = []) :
    s.endTick = s.closeDue.dispatch := by
  have hsettle : s.closeDue.settleEnds = s.closeDue := by
    have : (s.closeDue.reqs.filter fun r => r.ended.isSome) = [] := List.filter_eq_nil_iff.mpr fun r hr => by simp [hends r hr]
    rw [State.settleEnds, this]
    rfl
  have hask : s.closeDue.askTables = s.closeDue := by
    rw [State.askTables, State.tableless, hstaging]
    rfl
  rw [State.endTick, hsettle, hask]

/-- The only curd, marked to close, runs from the tick's end on. -/
theorem State.endTick_runs {s : State} {c : Curd} {q : Seq} {v : Version} {m : ModelRec} {f : AttendF} {e : Nat} (hcurds : s.curds = [c])
    (hopen : c.running = false) (hclosing : c.closing = true) (htwo : 2 ≤ c.members.length) (hbase : s.curdBase c.members = some (q, v, m, f))
    (hlive : s.liveMembers c = c.members) (he : s.curdEngines c.key m c.members c.lastJoin = some e) (hends : ∀ r ∈ s.reqs, r.ended = none)
    (hstaging : s.staging = []) :
    ∃ k slots, s.endTick.curds = [c.run c.members k e slots] := by
  let k := s.curdCluster c.key c.members
  let u := s.runCurd c c.members k e
  obtain ⟨hc, hreqs⟩ := s.runCurd_leaves c c.members k e
  have hframe : curdFrame u s = curdFrame s s := s.runCurd_curdFrame _ _ _ _ s
  have hunmarked : u.unmarked = s.unmarked := congrArg (List.map Req.unmarked) hreqs
  have hclose : s.closeDue = u := by
    rw [State.closeDue, hcurds, List.filter_singleton, hopen, hclosing]
    exact State.closeCurd_runs htwo hbase he
  have hout : s.endTick = u.dispatch := by
    rw [← hclose]
    refine State.endTick_closes (hclose ▸ hreqs ▸ hends) (hclose ▸ ?_)
    exact ((congrArg State.staging hframe :) : u.staging = s.staging).trans hstaging
  have hu : u.curds = [c.run c.members k e ((s.curdTakes c.key c.members k c.lastJoin e).map Prod.snd)] := by
    rw [hc, hcurds]
    simp [mapIf]
  have hpeopled : ∀ d ∈ u.curds, u.peopled d := fun d hd => by
    rw [hu] at hd
    rw [List.mem_singleton.mp hd, State.peopled, State.liveMembers_of_unmarked hunmarked, State.curdBase_of_unmarked hframe hunmarked]
    exact Option.isSome_iff_exists.mpr ⟨_, (congrArg s.curdBase hlive).trans hbase⟩
  exact ⟨k, _, (congrArg State.curds hout).trans ((State.dispatch_curds hpeopled).trans hu)⟩

/-- A tick in service that has something to decide ends as `endTick` has it. -/
theorem State.tick_curds {s : State} (hs : s.inService = true) (hdue : s.undecided = true) : s.tick.curds = s.endTick.curds := by
  unfold State.tick State.live
  rw [if_pos hdue, if_pos hs]

/-! ### The end of a curd's passes (R153) -/

/-- No curd of this identifier stands, and no pass of one. -/
def State.curdGone (s : State) (id : Nat) : Prop := (∀ d ∈ s.curds, d.id ≠ id) ∧ ∀ p ∈ s.passes, p.curd ≠ some id

theorem State.curdGone_of {s t : State} {id : Nat} (hc : t.curds = s.curds) (hp : t.passes = s.passes) (h : s.curdGone id) : t.curdGone id := by
  unfold State.curdGone at h ⊢
  rwa [hc, hp]

/-- A pass of another curd comes behind the others. -/
theorem State.curdGone_append {s : State} {x : Pass} {id : Nat} (hx : x.curd ≠ some id) (h : s.curdGone id) :
    ({ s with passes := s.passes ++ [x] } : State).curdGone id :=
  ⟨h.1, fun p hp => (List.mem_append.mp hp).elim (h.2 p) fun hp => List.mem_singleton.mp hp ▸ hx⟩

theorem State.takeEngine_curdGone {s : State} {id : Nat} (cluster slot : Nat) (owners : List (Nat × Nat)) (h : s.curdGone id) :
    (s.takeEngine cluster slot owners).curdGone id := State.curdGone_of rfl rfl h
theorem State.markCurd_curdGone {s : State} {id : Nat} (x : Member) (h : s.curdGone id) : (s.markCurd x).curdGone id := State.curdGone_of rfl rfl h
theorem State.brineIdle_curdGone {s : State} {id : Nat} (h : s.curdGone id) : s.brineIdle.curdGone id := State.curdGone_of rfl rfl h

theorem State.dropCurd_curdGone {s : State} {c id : Nat} (h : s.curdGone id) : (s.dropCurd c).curdGone id :=
  ⟨fun d hd => h.1 d (List.mem_filter.mp hd).1, h.2⟩

theorem State.modPass_curdGone {s : State} {id n : Nat} {g : Pass → Pass} (hg : ∀ x, (g x).curd = x.curd) (h : s.curdGone id) :
    (s.modPass n g).curdGone id := by
  refine ⟨h.1, fun p hp => ?_⟩
  obtain ⟨y, hy, rfl⟩ := List.mem_map.mp hp
  split
  · exact (hg y).symm ▸ h.2 y hy
  · exact h.2 y hy

theorem State.placeQueued_curdGone {s : State} {id : Nat} (n : Nat) (h : s.curdGone id) : (s.placeQueued n).curdGone id := by
  unfold State.placeQueued
  split
  · exact h
  · split
    · exact State.modPass_curdGone (by intro; rfl) (State.curdGone_of rfl rfl h)
    · exact h

theorem State.beginCurd_curdGone {s : State} {c : Curd} {id : Nat} (hne : c.id ≠ id) (h : s.curdGone id) : (s.beginCurd c).curdGone id := by
  unfold State.beginCurd
  dsimp only
  split
  · exact State.dropCurd_curdGone h
  · split
    · exact h
    · refine foldl_holds (p := fun s => s.curdGone id) (fun _ _ h => State.takeEngine_curdGone _ _ _ h) _ _ ?_
      refine foldl_holds (p := fun s => s.curdGone id) (fun _ x h => State.markCurd_curdGone x h) _ _ ?_
      refine foldl_holds (p := fun s => s.curdGone id) (fun s _ h => ?_) _ _ h
      exact State.curdGone_append (s := s.bumpId) (fun hx => hne (Option.some.inj hx)) (State.curdGone_of rfl rfl h)

theorem State.dispatch_curdGone {s : State} {id : Nat} (h : s.curdGone id) : s.dispatch.curdGone id := by
  unfold State.dispatch State.placeWork
  extract_lets u
  suffices hu : u.curdGone id from State.brineIdle_curdGone hu
  refine foldl_holds (p := fun s => s.curdGone id) (fun t k ht => ?_) _ s h
  refine foldl_holds (p := fun s => s.curdGone id) (fun _ p hs => State.placeQueued_curdGone p.id hs) _ _ ?_
  exact List.foldlRecOn (motive := fun s : State => s.curdGone id) _ _ ht fun y hy c hc =>
    State.beginCurd_curdGone (ht.1 c (List.mem_filter.mp hc).1) hy

theorem State.endCurd_curdGone (s : State) (c : Nat) : (s.endCurd c).curdGone c := by
  unfold State.endCurd
  extract_lets u
  exact ⟨fun d hd => by simpa using (List.mem_filter.mp hd).2, fun p hp => by simpa using (List.mem_filter.mp hp).2⟩

theorem State.hostPut_curdGone {s : State} {id : Nat} (r : Req) (addr : Nat) (data : Bytes) (h : s.curdGone id) : (s.hostPut r addr data).curdGone id := by
  unfold State.hostPut
  obtain ⟨q, hq⟩ := State.enqueue_eq (s.emit (.hostWrite (s.groupOfFn r.fn) addr data)) (s.groupOfFn r.fn) r.fn r.cls data.length
  rw [hq]
  exact State.curdGone_of rfl rfl h

theorem State.completeMember_curdGone {s : State} {id : Nat} (x : Member) (h : s.curdGone id) : (s.completeMember x).curdGone id := by
  unfold State.completeMember
  split
  · unfold State.completeAttend
    split
    · exact h
    · split
      · exact State.curdGone_of rfl rfl (State.hostPut_curdGone _ _ _ h)
      · exact h
  · exact h

theorem State.splitCurd_curdGone (s : State) (c : Curd) (ps : List Pass) : (s.splitCurd c ps).curdGone c.id := by
  unfold State.splitCurd
  exact State.dispatch_curdGone (foldl_holds (p := fun s => s.curdGone c.id) (fun _ x h => State.completeMember_curdGone x h) _ _
    (State.endCurd_curdGone _ _))

/-- A curd whose passes have all walked their last block, for requests that run on, goes with them. -/
theorem State.curdPassEnd_ends {s : State} {c : Curd} (hc : s.curd? c.id = some c) (hpass : ∃ p ∈ s.passes, p.curd = some c.id)
    (hps : ∀ p ∈ s.passes, p.curd = some c.id → s.pass? p.id = some p ∧ s.passEnded p = true ∧
      ∀ x ∈ p.rows, ∃ r, s.req? x.req = some r ∧ r.ended = none) : (s.curdPassEnd c).curdGone c.id := by
  let ps := s.passes.filter fun p => p.curd == some c.id
  have hmem : ∀ p ∈ ps, p ∈ s.passes ∧ p.curd = some c.id := fun p hp =>
    ⟨(List.mem_filter.mp hp).1, beq_iff_eq.mp (List.mem_filter.mp hp).2⟩
  have hne : ps.isEmpty = false := by
    obtain ⟨p, hp, hcurd⟩ := hpass
    exact List.isEmpty_eq_false_iff_exists_mem.mpr ⟨p, List.mem_filter.mpr ⟨hp, beq_iff_eq.mpr hcurd⟩⟩
  have hended : s.passesEnded ps = true := List.all_eq_true.mpr fun p hp => (hps p (hmem p hp).1 (hmem p hp).2).2.1
  have hbound : ∀ p ∈ ps, s.pageBoundary p.id = s := fun p hp => by
    obtain ⟨hpm, hcurd⟩ := hmem p hp
    have hwalks : s.walksFor p fun _ => True := fun y hy x hx => by
      rw [State.passGroup, hcurd] at hy
      obtain ⟨hym, hycurd⟩ := hmem y hy
      obtain ⟨r, hr, hr'⟩ := (hps y hym hycurd).2.2 x hx
      exact ⟨r, hr, hr', trivial⟩
    exact State.pageBoundary_runs (hps p hpm hcurd).1 hwalks
  have hfold : ps.foldl (fun (s : State) p => s.pageBoundary p.id) s = s :=
    List.foldlRecOn (motive := (· = s)) _ _ rfl fun t ht p hp => ht ▸ hbound p hp
  have hout : s.curdPassEnd c = s.splitCurd c ps := by
    simp only [State.curdPassEnd, show (s.passes.filter fun p => p.curd == some c.id) = ps from rfl, hne, hended, hfold, hc]
    rfl
  exact hout ▸ s.splitCurd_curdGone c ps

end Sys2Proof.Machine
end

section
/-! CLAIMS. The obligation on curds (07). -/

namespace Sys2Proof.Machine

/-- Settles O26: each command by the lemma on its operation, the close by what the end of a tick leaves of its only curd. -/
theorem curdCommandsComplete : Obligations.CurdCommandsComplete := by
  unfold Obligations.CurdCommandsComplete
  refine ⟨fun s r i q v m f p hs hr ha hp hst he hnone hroom => ?_, fun s r i q v m f p c hs hr ha hp hst he hopen hc hjoin hroom => ?_,
    fun s c hs hc hrun => ⟨fun hw => ?_, fun hmust => ?_⟩,
    fun s c q v m f e hpend hs hcurds hrun hclosing htwo hbase hlive he hends hstaging => ?_, fun s c hs hc hpass hps => ?_⟩
  · exact leaves_of_req (g := fun s r => s.curdOffer r i) rfl hs hr (State.curdOffer_opens ha hp hst he hr hnone hroom)
  · exact leaves_of_req (g := fun s r => s.curdOffer r i) rfl hs hr (State.curdOffer_joins ha hp hst he hopen hc hjoin hroom)
  · refine leaves_of_curd (g := State.curdWindowEnd) rfl hs hc ?_
    rw [State.curdWindowEnd, if_neg (by simp [hrun, hw])]
    exact State.closeThisTick_marks hc
  · refine leaves_of_curd (g := State.curdLatestClose) rfl hs hc ?_
    rw [State.curdLatestClose, if_pos (by simp [hrun, hmust])]
    exact State.closeThisTick_marks hc
  · obtain ⟨k, slots, ht⟩ := State.endTick_runs hcurds hrun hclosing htwo hbase hlive he hends hstaging
    have hdue : s.undecided = true := by simp [State.undecided, hcurds, hrun, hclosing]
    refine ⟨_, step_idle hpend, c.run c.members k e slots, ?_, rfl, rfl, rfl, rfl⟩
    rw [State.tick_curds hs hdue, ht]
    exact List.mem_singleton_self _
  · exact leaves_of_curd (g := State.curdPassEnd) rfl hs hc (State.curdPassEnd_ends hc hpass hps)

end Sys2Proof.Machine
end

section
/-! SUPPORT. Code-table commands (08): what the load of a table touches, the streams that a selection names, the ids that an end leaves, and a
descriptor of one slot that is taken as it lands. -/

namespace Sys2Proof.Machine

/-! ### Streams and their current tables (R168) -/

theorem State.streamTable_setStream_same (s : State) (d m f l table : Nat) : (s.setStream d m f l table).streamTable d m f l = table := by
  unfold State.setStream
  extract_lets old _ rest
  split
  · assumption
  · by_cases h0 : table = 0
    · have hrest : rest.find? (fun x => x.domain == d && x.model == m && x.fmt == f && x.layer == l) = none := by
        rw [List.find?_eq_none]
        intro x hx
        simpa only [Bool.not_eq_true', Bool.not_eq_true] using (List.mem_filter.mp hx).2
      unfold State.streamTable
      rw [if_pos h0, hrest, h0]
    · simp [State.streamTable, if_neg h0]

theorem State.streamTable_setStream_ne (s : State) (d m f table : Nat) {l j : Nat} (h : j ≠ l) :
    (s.setStream d m f l table).streamTable d m f j = s.streamTable d m f j := by
  have href : ∀ (s : State) id g, (s.streamRef id g).streams = s.streams := fun s id g => ite_keeps (m := State.streams) rfl rfl
  unfold State.setStream
  extract_lets old u rest
  split
  · rfl
  · have hu : u.streams = s.streams := (href _ _ _).trans (href _ _ _)
    have hrest : rest.find? (fun x => x.domain == d && x.model == m && x.fmt == f && x.layer == j) =
        s.streams.find? fun x => x.domain == d && x.model == m && x.fmt == f && x.layer == j := by
      unfold rest
      rw [List.find?_filter, hu]
      congr 1
      funext x
      by_cases hx : x.layer = j <;> simp [hx, h, beq_eq_decide]
    by_cases h0 : table = 0
    · simp only [State.streamTable, if_pos h0, hrest]
    · simp [State.streamTable, if_neg h0, hrest, Ne.symm h]

/-- A selection makes its table current for every layer that it names. -/
theorem State.streamTable_setStreams (s : State) (d table : Nat) (f : LoadTableF) {i : Nat} (hi : i < f.layerCount) :
    (s.setStreams d table f).streamTable d f.model f.fmt (f.layerFirst + i) = table := by
  unfold State.setStreams
  generalize f.layerCount = n at hi
  induction n with
  | zero => omega
  | succ n ih =>
    rw [List.range_succ, List.foldl_append, List.foldl_cons, List.foldl_nil]
    by_cases hn : i = n
    · rw [hn]
      exact State.streamTable_setStream_same _ _ _ _ _ _
    · rw [State.streamTable_setStream_ne _ _ _ _ _ (by omega)]
      exact ih (by omega)

theorem State.streamTable_of_streams {s t : State} (h : t.streams = s.streams) : t.streamTable = s.streamTable := by
  unfold State.streamTable
  rw [h]

/-! ### The load of a table (R26, R167) -/

/-- What the load of a table never touches: a table that it finds faulted leaves the streams that name it. -/
def State.untabled (s : State) : State := { s.stored with streams := [] }

theorem State.untabled_of_stored {s t : State} (h : t.stored = s.stored) : t.untabled = s.untabled :=
  congrArg (fun x : State => ({ x with streams := [] } : State)) h

theorem State.faultTable_untabled (s : State) (id : Nat) : (s.faultTable id).untabled = s.untabled := by
  unfold State.faultTable
  split
  · rfl
  · refine ite_keeps (m := State.untabled) rfl ?_
    refine (State.untabled_of_stored (State.tableSweep_stored _ _)).trans ?_
    exact (State.untabled_of_stored ((State.note_stored _ _ _ _).trans (State.modTable_stored s _ _)) :)

theorem State.loadTable_untabled (s : State) (id : Nat) : (s.loadTable id).untabled = s.untabled := by
  unfold State.loadTable
  split
  · rfl
  · refine ite_keeps (m := State.untabled) rfl (ite_keeps (m := State.untabled) (ite_keeps (m := State.untabled) rfl ?_)
      (s.faultTable_untabled id))
    exact State.untabled_of_stored ((State.note_stored _ _ _ _).trans (State.modTable_stored _ _ _))

theorem State.loadTable_reqs (s : State) (id : Nat) : (s.loadTable id).reqs = s.reqs := (congrArg State.reqs (s.loadTable_untabled id) :)
theorem State.loadTable_fns (s : State) (id : Nat) : (s.loadTable id).fns = s.fns := (congrArg State.fns (s.loadTable_untabled id) :)
theorem State.loadTable_domainOf (s : State) (id tenant : Nat) : (s.loadTable id).domainOf tenant = s.domainOf tenant :=
  (congrArg (fun x : State => x.domainOf tenant) (s.loadTable_untabled id) :)

/-! ### The commands' own effects (R169, R170) -/

theorem State.finish_streams (s : State) (r : Req) (a b : Nat) (fl : RecFlags) : (s.finish r a b fl).streams = s.streams :=
  (congrArg State.streams (s.finish_ended r a b fl) :)

/-- A selection that passes its check completes with its table current for every layer named. -/
theorem State.selectTable_completes {s : State} {r : Req} {f : LoadTableF} (hc : s.checkTableSelect r f = none) (hr : (s.ringOf r).isSome = true) :
    (∀ i, i < f.layerCount → (s.selectTable r f).streamTable (s.domainOf r.tenant) f.model f.fmt (f.layerFirst + i) = f.tableId) ∧
      s.completes (s.selectTable r f) r stOk (resTable f.tableId) := by
  have he : s.selectTable r f = (s.setStreams (s.domainOf r.tenant) f.tableId f).finish r stOk (resTable f.tableId) := by
    unfold State.selectTable
    rw [hc]
  rw [he]
  refine ⟨fun i hi => ?_, State.finish_completes_of_fns (State.setStreams_fns _ _ _ _) hr _ _ _⟩
  rw [State.streamTable_of_streams (State.finish_streams _ _ _ _ _)]
  exact State.streamTable_setStreams _ _ _ _ hi

/-- An export that passes its check stands started with the image that it sends. -/
theorem State.exportTable_req {s : State} {r : Req} {f : LoadTableF} {x : CodeTable} (hr : s.req? r.id = some r)
    (hc : s.checkTableExport r f = none) (hx : s.domainTable (s.domainOf r.tenant) f.tableId = some x) :
    (s.exportTable r f).req? r.id = some { r with phase := .started, data := x.image } := by
  unfold State.exportTable
  rw [hc, hx]
  dsimp only
  rw [State.req?_modReq _ _ (by intro; rfl), hr]
  rfl

/-- No table has this id. -/
def State.lacksTable (s : State) (id : Nat) : Prop := ∀ y ∈ s.tables, y.id ≠ id

section
variable {id : Nat}

theorem State.lacksTable_of_tables {s t : State} (h : t.tables = s.tables) (hs : s.lacksTable id) : t.lacksTable id := by
  unfold State.lacksTable at hs ⊢
  rwa [h]

theorem State.modTable_lacksTable {s : State} (j : Nat) {g : CodeTable → CodeTable} (hg : ∀ t, (g t).id = t.id) (hs : s.lacksTable id) :
    (s.modTable j g).lacksTable id := by
  intro y hy
  obtain ⟨x, hx, rfl⟩ := List.mem_map.mp hy
  split
  · rw [hg]
    exact hs x hx
  · exact hs x hx

theorem State.putTableId_tables (s : State) (j : Nat) : (s.putTableId j).tables = s.tables := by
  unfold State.putTableId
  split <;> rfl

theorem State.tableSweep_lacksTable {s : State} (j : Nat) (hs : s.lacksTable id) : (s.tableSweep j).lacksTable id := by
  unfold State.tableSweep
  split
  · split
    · obtain ⟨r, hr⟩ := State.note_eq _ "TABLE_FREED" (evSource 11 _) j
      rw [hr]
      intro y hy
      rw [State.putTableId_tables] at hy
      exact hs y (List.mem_filter.mp hy).1
    · exact hs
  · exact hs

theorem State.tableUnref_lacksTable {s : State} (j : Nat) (hs : s.lacksTable id) : (s.tableUnref j).lacksTable id := by
  unfold State.tableUnref
  split
  · exact hs
  · exact State.tableSweep_lacksTable _ (State.modTable_lacksTable _ (fun _ => rfl) hs)

theorem State.deallocate_tables (s : State) (p : Page) : (s.deallocate p).tables = s.tables := by
  unfold State.deallocate
  split
  · rfl
  · split <;> rfl

theorem State.sweepPages_lacksTable {s : State} (hs : s.lacksTable id) : s.sweepPages.lacksTable id :=
  foldl_holds (p := fun s => s.lacksTable id)
    (fun _ p hs => State.lacksTable_of_tables (State.deallocate_tables _ p) (State.tableUnref_lacksTable p.table hs)) _ _
    (State.lacksTable_of_tables rfl hs)

theorem State.dropReq_lacksTable {s : State} (r : Req) (hs : s.lacksTable id) : (s.dropReq r).lacksTable id := by
  unfold State.dropReq
  refine State.sweepPages_lacksTable (foldl_holds (p := fun s => s.lacksTable id) (fun s t hs => State.tableUnref_lacksTable t hs) _ _ ?_)
  refine State.lacksTable_of_tables ?_ hs
  exact (State.unpin1_tables (s.unpin1 r.pin) r.pin2).trans (s.unpin1_tables r.pin)

/-- An id that is free stays free at the end of a request. -/
theorem State.finish_lacksTable {s : State} (r : Req) (a b : Nat) (fl : RecFlags) (hs : s.lacksTable id) : (s.finish r a b fl).lacksTable id := by
  unfold State.finish
  refine State.dropReq_lacksTable _ (State.lacksTable_of_tables ?_ hs)
  obtain ⟨q, h⟩ := (s.record r.fn r.attach r.opcode r.slotSeq r.tag a b fl).enqueue_eq (s.groupOfFn r.fn) r.fn r.cls 32
  rw [State.fenceCount_tables, h]
  exact s.record_tables _ _ _ _ _ _ _ _

end

/-- The retirement of a table that nothing uses frees it. -/
theorem State.retireTable_frees {s : State} {r : Req} {f : RetireF} {x : CodeTable} (hc : s.checkRetire r f = none)
    (hx : s.domainTable (s.domainOf r.tenant) f.tableId = some x) (hl : x.st = .live ∧ x.pageRefs = 0 ∧ x.streamRefs = 0)
    (hr : (s.ringOf r).isSome = true) : (s.retireTable r f).lacksTable x.id ∧ s.completes (s.retireTable r f) r stOk 0 := by
  let u : State := { s with tables := s.tables.filter fun y => y.id != x.id }.putTableId x.id
  have he : s.retireTable r f = u.finish r stOk 0 := by
    unfold State.retireTable
    rw [hc, hx]
    exact if_pos hl
  have hfns : u.fns = s.fns := (congrArg State.fns (State.putTableId_stored _ x.id) :)
  have hlacks : u.lacksTable x.id := by
    intro y hy
    rw [State.putTableId_tables] at hy
    simpa using (List.mem_filter.mp hy).2
  rw [he]
  exact ⟨State.finish_lacksTable _ _ _ _ hlacks, State.finish_completes_of_fns hfns hr _ _ _⟩

/-! ### A descriptor of one slot (R184, R187, R209) -/

theorem Fn.skip_keeps (n : Nat) : ∀ f : Fn, (Fn.skip n f).fn = f.fn ∧ (Fn.skip n f).rings = f.rings := by
  induction n with
  | zero => exact fun _ => ⟨rfl, rfl⟩
  | succ n ih =>
    intro f
    unfold Fn.skip
    split
    · exact ih _
    · exact ⟨rfl, rfl⟩

theorem Fn.taken_keeps (f : Fn) (k n : Nat) : (f.taken k n).fn = f.fn ∧ (f.taken k n).rings = f.rings := by
  unfold Fn.taken
  dsimp only
  split <;> exact ⟨rfl, rfl⟩

theorem State.ready_of_lands {s : State} {sub : Sub} {f : Fn} (h : s.lands sub f = true) : f.code = .ready := by
  simp only [State.lands, Bool.and_eq_true, beq_iff_eq] at h
  obtain ⟨⟨⟨⟨⟨-, hc⟩, -⟩, -⟩, -⟩, -⟩ := h
  exact hc

/-- A descriptor of one slot that lands is taken at once, and its request comes to admission. -/
theorem State.submit_short {s : State} {sub : Sub} {f : Fn} (d : Desc) (hf : s.fn? sub.fn = some f) (hl : s.lands sub f = true)
    (hlong : sub.long = false) :
    s.submit sub d = (s.slotTaken sub d f).admitReq
      { f with stamped := [{ k := f.k, cont := false, sub := sub, desc := some d, tick := s.now }] } (s.mkReq f sub d f.k s.now) false false := by
  simp only [State.lands, Bool.and_eq_true, beq_iff_eq, Bool.not_eq_true'] at hl
  obtain ⟨⟨⟨⟨⟨⟨⟨⟨hsv, htray⟩, hup⟩, hg⟩, hc⟩, hst⟩, -⟩, hslot⟩, -⟩ := hl
  have hfn : s.fn? f.fn = some f := by rwa [State.fn?_fn hf]
  let first : Stamped := { k := f.k, cont := false, sub := sub, desc := some d, tick := s.now }
  let u := s.modFn f.fn fun x => { x with stamped := x.stamped ++ [first] }
  have hrec : s.recordStamp f.fn sub.seq sub.phase (fun k => { k := k, cont := false, sub := sub, desc := some d, tick := s.now }) = u :=
    State.recordStamp_slot _ hfn hslot
  have hu : u.fn? f.fn = some { f with stamped := [first] } :=
    (State.fn?_modFn (fun x => { x with stamped := x.stamped ++ [first] }) (fun _ => rfl) hfn).trans (by rw [hst]; rfl)
  have htaken : u.takeSlot { f with stamped := [first] } f.k { st := first, long := false, bad := false } false =
      (s.slotTaken sub d f).admitReq { f with stamped := [first] } (s.mkReq f sub d f.k s.now) false false := by
    simp only [State.slotTaken, hlong]
    rfl
  unfold State.submit
  rw [State.aperture_reached _ hsv htray hf hup hg (by rw [hc]; decide), if_neg (by simp [Fn.attachMode, hc])]
  simp only [hlong, Bool.false_and, Bool.false_eq_true, if_false, hrec, hst]
  change State.takeAllSlots 1 u f.fn = _
  rw [State.takeAllSlots, hu]
  dsimp only
  rw [if_neg (by simp [Fn.takes, hc]), Fn.submitted_single rfl rfl]
  exact htaken

/-- A change of functions that leaves their rings leaves the ring of every request. -/
theorem State.ringOf_modFn (s : State) (n : Nat) {g : Fn → Fn} (hfn : ∀ f, (g f).fn = f.fn) (hrings : ∀ f, (g f).rings = f.rings) (r : Req) :
    (s.modFn n g).ringOf r = s.ringOf r := by
  unfold State.ringOf
  by_cases h : r.fn = n
  · have hf : (s.modFn n g).fn? r.fn = (s.fn? r.fn).map g := by
      rw [h]
      exact find?_mapIf (key := Fn.fn) (fun f hf => (hfn f).trans hf) s.fns
    rw [hf]
    cases s.fn? r.fn <;> simp [hrings]
  · have hf : (s.modFn n g).fn? r.fn = s.fn? r.fn := find?_mapIf_ne (key := Fn.fn) hfn h s.fns
    rw [hf]

theorem State.slotTaken_ringOf (s : State) (sub : Sub) (d : Desc) (f : Fn) (r : Req) : (s.slotTaken sub d f).ringOf r = s.ringOf r := by
  unfold State.slotTaken
  refine (State.ringOf_modFn _ _ (fun x => (Fn.skip_keeps _ _).1.trans (x.taken_keeps _ _).1)
    (fun x => (Fn.skip_keeps _ _).2.trans (x.taken_keeps _ _).2) r).trans ?_
  have hfirst := State.ringOf_modFn s f.fn (g := fun x => { x with stamped := x.stamped ++
    [{ k := f.k, cont := sub.long && f.version != 1, sub := sub, desc := some d, tick := s.now }] }) (fun _ => rfl) (fun _ => rfl) r
  exact ite_keeps (m := fun s => s.ringOf r) ((State.ringOf_modFn _ _ (by intro; rfl) (by intro; rfl) r).trans hfirst) hfirst

/-- A descriptor whose opcode the manual does not define is refused by name (R187, R209). -/
theorem State.admitReq_unknown {s : State} {f : Fn} {r : Req} {l : List Stamped} {opcode : Nat} (hd : r.desc = .unknown opcode) (hc : f.code = .ready)
    (ht : s.tenantActive f.tenant = true) : s.admitReq { f with stamped := l } r false false = s.finish r stUnknownOpcode 0 := by
  unfold State.admitReq
  simp [hd, hc, ht]

end Sys2Proof.Machine
end

section
/-! CLAIMS. The obligation on code-table commands. -/

namespace Sys2Proof.Machine

/-- Settles O23: each command loads its table and runs its own effect; an opcode that no command has is refused at admission. -/
theorem tableCommandsComplete : Obligations.TableCommandsComplete := by
  unfold Obligations.TableCommandsComplete
  refine ⟨fun s u sub f r hb => ?_, fun s u sub f r hb hring hc => ?_, fun s u sub f r x hb hc hx => ?_,
    fun s u sub f r x hb hring hc hx hlive hpages hstreams => ?_, fun s sub opcode f hf hl ht hlong => ?_⟩
  · have hd : r.desc = .tableLoad f := State.begins_desc_same hb fun _ => rfl
    refine leaves_of_begins rfl hb (by simp [hd]) (by simp [hd]) ?_
    simp only [State.beginReq, hd]
    exact State.stands_modReq (State.begins_stands hb) (fun _ => rfl) rfl
  · have hd : r.desc = .tableSelect f := State.begins_desc_same hb fun _ => rfl
    have hloaded : (u.loadTable f.tableId).ringOf r = u.ringOf r := State.ringOf_of_fns (u.loadTable_fns _) r
    obtain ⟨hcurrent, hcompletes⟩ := State.selectTable_completes hc (by rwa [hloaded])
    refine leaves_of_begins rfl hb (by simp [hd]) (by simp [hd]) ?_
    simp only [State.beginReq, hd, State.beginTableSelect]
    rw [State.loadTable_domainOf] at hcurrent
    exact ⟨hcurrent, State.completes_of_ringOf hloaded hcompletes⟩
  · have hd : r.desc = .tableExport f := State.begins_desc_same hb fun _ => rfl
    have hr : (u.loadTable f.tableId).req? r.id = some r := (State.req?_of_reqs (u.loadTable_reqs _) _).trans (State.begins_stands hb)
    refine leaves_of_begins rfl hb (by simp [hd]) (by simp [hd]) ?_
    simp only [State.beginReq, hd, State.beginTableExport]
    exact ⟨_, State.exportTable_req hr hc (by rwa [State.loadTable_domainOf]), rfl, rfl⟩
  · have hd : r.desc = .retire f := State.begins_desc_same hb fun _ => rfl
    have hloaded : (u.loadTable f.tableId).ringOf r = u.ringOf r := State.ringOf_of_fns (u.loadTable_fns _) r
    obtain ⟨hfreed, hcompletes⟩ := State.retireTable_frees hc (by rwa [State.loadTable_domainOf]) ⟨hlive, hpages, hstreams⟩ (by rwa [hloaded])
    refine leaves_of_begins rfl hb (by simp [hd]) (by simp [hd]) ?_
    simp only [State.beginReq, hd, State.beginRetire]
    exact ⟨hfreed, State.completes_of_ringOf hloaded hcompletes⟩
  · intro r hring
    have hsame : (s.slotTaken sub (.unknown opcode) f).ringOf r = s.ringOf r := s.slotTaken_ringOf _ _ _ _
    refine ⟨_, rfl, ?_⟩
    rw [State.submit_short _ hf hl hlong, State.admitReq_unknown rfl (State.ready_of_lands hl) (by rwa [State.slotTaken_tenantActive])]
    exact State.completes_of_ringOf hsame (State.finish_completes _ _ _ (by rwa [hsame]))

end Sys2Proof.Machine
end

section
/-! SUPPORT. Pages and tables between controllers (R171, R257 to R259, R277, R278): the frames that a page leaves in, the page of a holder and
of a tray, and what arrives of a page, of a put and of a table. -/

namespace Sys2Proof.Machine

/-! ### A page in frames (R259) -/

/-- A frame takes back nothing that has left the device. -/
theorem State.sendFrame_out {s : State} {o : Output} (h : o ∈ s.out) (link : Nat) (f : Sent) : o ∈ (s.sendFrame link f).out := by
  unfold State.sendFrame
  split
  · exact h
  · split
    · exact h
    · extract_lets _ n _ g u
      have hu : o ∈ u.out := by
        unfold u
        split
        · exact List.mem_cons_of_mem _ h
        · exact h
      change o ∈ (State.enqueue _ _ _ _ _).out
      rw [State.enqueue_out]
      exact List.mem_cons_of_mem _ hu

theorem State.sendPage_out {o : Output} (link msg xid object aux : Nat) (coded : Bool) (h : Hdr) (n : Nat) :
    ∀ (off : Nat) (s : State) (data : Bytes), o ∈ s.out → o ∈ (State.sendPage link msg xid object aux coded h n off s data).out := by
  induction n with
  | zero => exact fun _ _ _ ho => ho
  | succ n ih =>
    intro off s data ho
    unfold State.sendPage
    extract_lets rest u
    have hu : o ∈ u.out := State.sendFrame_out ho _ _
    split
    · exact hu
    · exact ih _ _ _ hu

/-- Frame `i` of a page that leaves from an offset on has left on the link. -/
def pageFrameOut (out : List Output) (link msg xid object off : Nat) (data : Bytes) (i : Nat) : Prop :=
  ∃ f, Output.frame link f ∈ out ∧ f.msg = msg ∧ f.xid = xid ∧ f.object = object ∧ f.status = 0 ∧ f.offset = off + frameBytes * i ∧
    f.data = (data.drop (frameBytes * i)).take frameBytes ∧ f.last = decide (data.length ≤ frameBytes * i + frameBytes)

theorem pageFrameOut_succ {out : List Output} {link msg xid object off i : Nat} {data : Bytes}
    (h : pageFrameOut out link msg xid object (off + frameBytes) (data.drop frameBytes) i) :
    pageFrameOut out link msg xid object off data (i + 1) := by
  obtain ⟨f, hf, hm, hx, ho, hs, hoff, hdata, hlast⟩ := h
  refine ⟨f, hf, hm, hx, ho, hs, ?_, ?_, ?_⟩
  · rw [hoff, Nat.mul_add_one]
    omega
  · rw [hdata, List.drop_drop, Nat.mul_add_one, Nat.add_comm]
  · rw [hlast, List.length_drop, Nat.mul_add_one, decide_eq_decide]
    omega

/-- Every frame of a page leaves on a link that issues frames. -/
theorem State.sendPage_frames (link msg xid object aux : Nat) (coded : Bool) (h : Hdr) (n : Nat) :
    ∀ (off : Nat) (s : State) (data : Bytes), s.portIssues (.asvis link) = true → s.slotFilled (portSlot (.asvis link)) = true →
      data.length < frameBytes * n → ∀ i, frameBytes * i < data.length →
        pageFrameOut (State.sendPage link msg xid object aux coded h n off s data).out link msg xid object off data i := by
  induction n with
  | zero => exact fun _ _ _ _ _ hn => absurd hn (Nat.not_lt_zero _)
  | succ n ih =>
    intro off s data hi hk hn i hlt
    unfold State.sendPage
    extract_lets rest u
    obtain ⟨q, ps, o, g, he, hmsg, hxid, hobject, hstatus, hoffset, hlast, hdata⟩ := State.sendFrame_sends hi hk
      { hdr := h, frameSeq := 0, msg := msg, xid := xid, object := object, aux := aux, status := 0, offset := off, last := rest.isEmpty,
        coded := coded, data := data.take frameBytes }
    have hu : u.linked = s.linked := State.sendFrame_linked _ _ _
    have hg : Output.frame link g ∈ u.out := by
      rw [show u = _ from he]
      exact List.mem_cons_self
    have hempty : rest.isEmpty = decide (data.length ≤ frameBytes) := by
      rw [Bool.eq_iff_iff, decide_eq_true_iff, List.isEmpty_iff, List.drop_eq_nil_iff]
    have hfirst : ∀ out, Output.frame link g ∈ out → pageFrameOut out link msg xid object off data 0 := fun out hout =>
      ⟨g, hout, hmsg, hxid, hobject, hstatus, hoffset, hdata, by rw [hlast, hempty, Nat.mul_zero, Nat.zero_add]⟩
    split
    · next hend =>
      rw [hempty, decide_eq_true_iff] at hend
      obtain rfl : i = 0 := by
        by_contra hne
        have := Nat.le_mul_of_pos_right frameBytes (Nat.pos_of_ne_zero hne)
        omega
      exact hfirst _ hg
    · cases i with
      | zero => exact hfirst _ (State.sendPage_out _ _ _ _ _ _ _ _ _ _ _ hg)
      | succ i =>
        have hlen : rest.length = data.length - frameBytes := List.length_drop
        rw [Nat.mul_add_one] at hlt hn
        exact pageFrameOut_succ (ih _ _ _ ((State.portIssues_of_linked hu _).trans hi) ((State.slotFilled_of_linked hu _).trans hk)
          (by rw [hlen]; omega) i (by rw [hlen]; omega))

/-- A page leaves whole on a link that issues frames; of the state, its frames change what frames change. -/
theorem State.sendPage_sentPage {s : State} {link : Nat} (hi : s.portIssues (.asvis link) = true)
    (hk : s.slotFilled (portSlot (.asvis link)) = true) (msg xid object aux : Nat) (coded : Bool) (h : Hdr) (data : Bytes) :
    (State.sendPage link msg xid object aux coded h (pageFrames data) 0 s data).sentPage link msg xid object data := by
  intro i hlt
  have hfuel : data.length < frameBytes * pageFrames data := by
    unfold pageFrames frameBytes
    omega
  obtain ⟨f, hf, hm, hx, ho, hs, hoff, hdata, hlast⟩ := State.sendPage_frames link msg xid object aux coded h _ 0 s data hi hk hfuel i hlt
  exact ⟨f, hf, hm, hx, ho, hs, hoff.trans (Nat.zero_add _), hdata, hlast⟩

/-! ### PAGE_GET at a holder and at a tray (R259, R277, R278) -/

section
variable {s : State} {link : Nat} {fr : Frame} (p : Port) (hi : s.portIssues (.asvis link) = true)
  (hk : s.slotFilled (portSlot (.asvis link)) = true)
include hi hk

/-- A holder sends the stored bytes of a page. -/
theorem State.servePage_sentPage {b : Nat} {e : DirEntry} {x : Rec} {l : Loc} {data : Bytes} (hv : 3 ≤ p.version) (hkind : fr.keyKind = 2)
    (hw : s.mirrored = true)
    (he : (s.dir.find? fun e => e.handle == fr.object && e.domain == fr.domain && e.holder == s.params.deviceId && e.st != .faulted) = some e)
    (hb : (e.map.find? fun x => x.1 == bits fr.aux 16 18) = some (b, x.id)) (hx : s.rec? x.id = some x)
    (hl : x.loc? (bits fr.aux 34 8) = some l) (hd : s.readStored x.ownerKind x.owner l = .ok data) :
    (s.servePage link p fr).sentPage link msgPageData fr.xid fr.object data := by
  unfold State.servePage
  extract_lets refuse block layer u
  have hu : u = s := State.loadHandle_whole hw _
  have hblock : ((e.map.find? fun x => x.1 == block).bind fun x => s.rec? x.2) = some x := by rw [hb]; exact hx
  rw [if_neg (by simp only [hkind]; omega), hu, he]
  dsimp only
  rw [hblock, Option.bind_some, hl]
  dsimp only [Option.map_some]
  rw [hd]
  exact State.sendPage_sentPage hi hk _ _ _ _ _ _ _

/-- A tray sends an object of its stack memory, and counts the read. -/
theorem State.trayPage_sentPage {o : PoolObj} (ho : (s.tray.objects.find? fun o => o.host == p.device && o.addr == fr.object) = some o)
    (hlost : o.lost = false) (hin : o.inStack = true) (hkey : s.slotFilled (ownerSlot 1 p.device) = true) :
    (s.trayPage link p fr).sentPage link msgPageData fr.xid fr.object o.data ∧
      ∃ y ∈ (s.trayPage link p fr).tray.objects, y.id = o.id ∧ y.data = o.data ∧ y.count = min 255 (o.count + 1) := by
  let u := s.modObjects (fun x => x.id == o.id) fun x => x.read s.params.trayPromote
  have hout : s.trayPage link p fr =
      State.sendPage link msgPageData fr.xid fr.object 0 false (hdrOf fr) (pageFrames o.data) 0 u o.data := by
    unfold State.trayPage
    rw [ho]
    dsimp only
    rw [if_neg (by simp [hlost, hkey]), State.getObject, if_pos (.inr hin), State.serveGet, if_neg (by simp [hlost])]
  have htray : (State.sendPage link msgPageData fr.xid fr.object 0 false (hdrOf fr) (pageFrames o.data) 0 u o.data).tray = u.tray :=
    (congrArg State.tray (State.sendPage_carried _ _ _ _ _ _ _ _ _ _ _) :)
  rw [hout, htray]
  refine ⟨State.sendPage_sentPage (s := u) hi hk _ _ _ _ _ _ _, o.read s.params.trayPromote, ?_, rfl, rfl, rfl⟩
  exact List.mem_map.mpr ⟨o, List.mem_of_find?_eq_some ho, if_pos (beq_self_eq_true _)⟩

/-! ### PAGE_PUT (R277) -/

omit hi hk in
/-- A host's use of a volume of a tray fills its key slot at most, and changes no object. -/
theorem State.takeVolume_leaves (s : State) (host addr : Nat) : (s.takeVolume host addr).portIssues = s.portIssues ∧
    (s.takeVolume host addr).tray.objects = s.tray.objects ∧
    ∀ n, s.slotFilled n = true → (s.takeVolume host addr).slotFilled n = true := by
  unfold State.takeVolume
  split
  · next v _ =>
    split
    · exact ⟨rfl, rfl, fun _ h => h⟩
    · let u := s.modTray fun t => { t with volumes := (v.index, host) :: t.volumes }
      have hkey : keysFrame (u.makeKey host) s = keysFrame u s := u.makeKey_keysFrame host s
      refine ⟨(congrArg State.portIssues hkey :), (congrArg (fun x : State => x.tray.objects) hkey :), fun n h => ?_⟩
      rw [State.makeKey_slotFilled, show u.slotFilled n = true from h, Bool.or_true]
  · exact ⟨rfl, rfl, fun _ h => h⟩

/-- A tray keeps a page that a host puts, and answers the put. -/
theorem State.onPagePut_keeps {data : Bytes} {resident : Bool} (ht : s.isTray = true) (hlast : fr.last = true)
    (hmay : s.hostMay p.device fr.object (fr.aux % 128) = some resident) (hkey : s.slotFilled (ownerSlot 1 p.device) = true) :
    (s.onPagePut link p fr data).sent link msgPutDone fr.xid fr.object 0 [] ∧
      ∃ o ∈ (s.onPagePut link p fr data).tray.objects, o.host = p.device ∧ o.addr = fr.object ∧ o.grains = fr.aux % 128 ∧
        o.resident = resident ∧ o.data = ((s.tray.puts.find? fun x => x.link == link && x.xid == fr.xid).elim [] (·.data)) ++ data := by
  let u := (s.gathered link fr).2
  let v := u.takeVolume p.device fr.object
  obtain ⟨hissue, -, hslots⟩ := State.takeVolume_leaves u p.device fr.object
  have hmay' : u.hostMay p.device fr.object (fr.aux % 128) = some resident := hmay
  have hkey' : v.slotFilled (ownerSlot 1 p.device) = true := hslots _ hkey
  have hfilled : ¬((!v.slotFilled (ownerSlot 1 p.device)) = true) := by rw [hkey']; decide
  let o : PoolObj :=
    { id := v.ids, host := p.device, addr := fr.object, grains := fr.aux % 128, version := bits fr.aux 8 8,
      data := (s.gathered link fr).1 ++ data, count := v.params.trayNewCount, resident := resident, inStack := true, onFlash := false, swept := 0,
      ssdGroup := fr.object % v.ssdGroups, lost := false }
  let w := v.bumpId.modTray fun t => { t with objects := o :: t.objects.filter fun x => !x.overlaps p.device fr.object (fr.aux % 128) }
  have hout : s.onPagePut link p fr data = w.send link msgPutDone fr.xid fr.object 0 0 [] (hdrOf fr) := by
    unfold State.onPagePut
    rw [if_neg (by simp [ht]), if_neg (by simp [hlast])]
    change (match u.hostMay p.device fr.object (fr.aux % 128) with | none => _ | some _ => _) = _
    rw [hmay']
    dsimp only
    exact if_neg hfilled
  have hi' : w.portIssues (.asvis link) = true := (congrFun hissue _ :).trans hi
  obtain ⟨hsent, q, ps, out, he⟩ := State.send_sends hi' (hslots _ hk) msgPutDone fr.xid fr.object 0 0 [] (hdrOf fr)
  rw [hout]
  refine ⟨hsent, o, ?_, rfl, rfl, rfl, rfl, rfl⟩
  rw [he]
  exact List.mem_cons_self

end

/-! ### Answers: PAGE_DATA, PUT_DONE and TABLE_DATA (R171, R257 to R259) -/

section
variable {s : State} {link : Nat} {fr : Frame} {x : Txn} (ha : s.answered link fr = some x) (hst : fr.status = 0)
include ha hst

omit hst in
theorem State.answered_mem : x ∈ s.txns ∧ x.xid = fr.xid := by
  have hx := List.find?_some ha
  simp only [Bool.and_eq_true, beq_iff_eq] at hx
  exact ⟨List.mem_of_find?_eq_some ha, hx.1⟩

/-- A frame that is not a page's last is added to what has come. -/
theorem State.onPageData_gathers (data : Bytes) (hlast : fr.last = false) :
    ∃ y ∈ (s.onPageData link x fr data).txns, y.xid = fr.xid ∧ y.kind = x.kind ∧ y.data = x.data ++ data := by
  obtain ⟨hmem, hxid⟩ := State.answered_mem ha
  unfold State.onPageData
  rw [if_neg (by simp [hst]), if_pos (by simp [hlast])]
  exact ⟨{ x with data := x.data ++ data }, List.mem_map.mpr ⟨x, hmem, if_pos (beq_self_eq_true _)⟩, hxid, rfl, rfl⟩

/-- The last frame of a page that comes uncoded fills the copy that waits for it. -/
theorem State.onPageData_fills {c : StagingCopy} (data : Bytes) (hlast : fr.last = true) (hk : x.kind = .farPage c.id)
    (hc : (s.staging.find? fun y => y.id == c.id) = some c) (hb : c.blk = 0) (hcoded : fr.coded = false) :
    (∀ y ∈ (s.onPageData link x fr data).txns, y.xid ≠ fr.xid) ∧
      ((s.onPageData link x fr data).staging.find? fun y => y.id == c.id) = some { c with data := x.data ++ data, coded := false, digest := 0 } := by
  obtain ⟨-, hxid⟩ := State.answered_mem ha
  let fill := fun y : StagingCopy => { y with data := x.data ++ data, coded := false, digest := 0 }
  have hout : s.onPageData link x fr data = { s.dropTxn x.xid with staging := mapIf (fun y => y.id == c.id) fill s.staging } := by
    unfold State.onPageData
    rw [if_neg (by simp [hst]), if_neg (by simp [hlast])]
    simp only [hk, State.copyFilled, State.dropTxn, hc, hb, hcoded]
    rfl
  rw [hout]
  refine ⟨fun y hy => ?_, ?_⟩
  · rw [← hxid]
    simpa using (List.mem_filter.mp hy).2
  · exact (find?_mapIf (key := StagingCopy.id) (g := fill) (fun _ h => h) s.staging).trans (by rw [hc]; rfl)

omit ha in
/-- The answer to a put ends it, and no more. -/
theorem State.onPutDone_ends {m : Nat} (hk : x.kind = .put m) :
    (∀ y, y ∈ (s.onPutDone x fr).txns ↔ y ∈ s.txns ∧ y.xid ≠ x.xid) ∧ (s.onPutDone x fr).moves = s.moves := by
  have hout : s.onPutDone x fr = s.dropTxn x.xid := by
    simp only [State.onPutDone, hst, if_true, State.txnDone, hk, State.flashDone]
  rw [hout]
  exact ⟨fun y => by simp [State.dropTxn], rfl⟩

omit ha in
/-- A table that comes with its digest is entered under an id of the import reserve, and its fetch ends. -/
theorem State.onTableData_enters {d id : Nat} {g : BitVec 64} {image : Bytes} {fl : FreeList} (hk : x.kind = .tableFetch d g)
    (hnew : s.tableByDigest d g = none) (hlen : (cleanImage image).length = tableImageBytes) (hok : imageOk (cleanImage image) = true)
    (hdig : imageDigest (cleanImage image) = g) (hm : s.metaGone = false) (hfree : s.impFree.take = some (id, fl)) :
    (∀ y ∈ (s.onTableData x fr image).txns, y.xid ≠ x.xid) ∧ (s.onTableData x fr image).impFree = fl ∧
      ∃ y ∈ (s.onTableData x fr image).tables, y.id = id ∧ y.domain = d ∧ y.image = cleanImage image ∧ y.digest = g ∧ y.st = .live := by
  have hout : s.onTableData x fr image = (({ s with impFree := fl } : State).enterTable id d (cleanImage image)).dropTxn x.xid := by
    simp only [State.onTableData, hk, hst, State.importTable, hnew, hlen, hok, hdig, hm, State.takeImportId, hfree, ne_eq, not_true_eq_false,
      if_false, Option.isSome_none, Bool.false_eq_true, Bool.not_true, or_self]
  rw [hout]
  exact ⟨fun y hy => by simpa using (List.mem_filter.mp hy).2, rfl, _, List.mem_cons_self, rfl, rfl, rfl, hdig, rfl⟩

end

/-- A table that the domain has goes out by its digest (R171). -/
theorem State.serveTable_sent {s : State} {link : Nat} (fr : Frame) (hi : s.portIssues (.asvis link) = true)
    (hk : s.slotFilled (portSlot (.asvis link)) = true) (ht : s.isTray = false) :
    match s.tableByDigest fr.domain (BitVec.ofNat 64 fr.aux) with
    | some x => (s.serveTable link fr).sent link msgTableData fr.xid 0 0 x.image
    | none => (s.serveTable link fr).sent link msgTableData fr.xid 0 3 [] := by
  unfold State.serveTable
  rw [if_neg (by simp [ht])]
  cases s.tableByDigest fr.domain (BitVec.ofNat 64 fr.aux) with
  | none => exact (State.send_sends hi hk _ _ _ _ _ _ _).1
  | some x => exact (State.send_sends hi hk _ _ _ _ _ _ _).1

end Sys2Proof.Machine
end

section
/-! CLAIMS. The obligation on pages and tables between controllers. -/

namespace Sys2Proof.Machine

/-- Settles O34: each message by the lemma on its receiver, from the state that has heard its frame. -/
theorem pageMessagesComplete : Obligations.PageMessagesComplete := by
  unfold Obligations.PageMessagesComplete
  refine ⟨fun s link b p fr e x l data h ht hv hkind hhome hw he hb hx hl hd => ?_, fun s link p fr o h ht ho hlost hin hkey => ?_,
    fun s link p fr data x h ha hst => ⟨fun hlast => ?_, fun c hk hc hblk hcoded hlast => ?_⟩,
    fun s link p fr data resident h ht hlast hmay hkey => ?_, fun s link m p fr x h ha hk hst => ?_, fun s link p fr h ht => ?_,
    fun s link d id g p fr image x fl h ha hk hst hnew => ?_⟩
  · obtain ⟨hi, hslot⟩ := State.heard_issues h
    have hfound : (s.heard link fr).readFaults [] = s.heard link fr := ite_self _
    have hhere : ¬(handleHome fr.object ≠ (s.heard link fr).params.deviceId ∧ (!(s.heard link fr).tableUp 1) = true) := by
      rintro ⟨hne, hdown⟩
      exact hhome.elim hne fun hup => by simp [show (s.heard link fr).tableUp 1 = true from hup] at hdown
    refine leaves_of_hears rfl h ?_
    dsimp only
    rw [if_neg (by simp [show (s.heard link fr).isTray = false from ht]), if_neg hhere, hfound]
    exact State.servePage_sentPage (s := s.heard link fr) p hi hslot hv hkind hw he hb hx hl hd
  · obtain ⟨hi, hslot⟩ := State.heard_issues h
    have hfound : (s.heard link fr).readFaults [] = s.heard link fr := ite_self _
    refine leaves_of_hears rfl h ?_
    dsimp only
    rw [if_pos (show (s.heard link fr).isTray = true from ht), hfound]
    exact State.trayPage_sentPage (s := s.heard link fr) p hi hslot ho hlost hin hkey
  · exact leaves_of_takeAnswer rfl h ha (State.onPageData_gathers (s := s.heard link fr) ha hst data hlast)
  · exact leaves_of_takeAnswer rfl h ha (State.onPageData_fills (s := s.heard link fr) ha hst data hlast hk hc hblk hcoded)
  · obtain ⟨hi, hslot⟩ := State.heard_issues h
    exact leaves_of_hears rfl h (State.onPagePut_keeps (s := s.heard link fr) p hi hslot ht hlast hmay hkey)
  · exact leaves_of_takeAnswer rfl h ha (State.onPutDone_ends (s := s.heard link fr) hst hk)
  · obtain ⟨hi, hslot⟩ := State.heard_issues h
    exact leaves_of_hears rfl h (State.serveTable_sent (s := s.heard link fr) fr hi hslot ht)
  · intro im hlen hok hdig hm hfree
    exact leaves_of_takeAnswer rfl h ha (State.onTableData_enters (s := s.heard link fr) hst hk hnew hlen hok hdig hm hfree)

end Sys2Proof.Machine
end

section
/-! SUPPORT. What fails on its own (R175, R339, R340, R344 to R347): the control pairs, the key banks, the AES lanes, the hash engines, the
page coders, the deadline monitor and the tracker's entries that a fault moves. -/

namespace Sys2Proof.Machine

/-! ### What the reports of a fault leave of the rest (R349, R351) -/

@[simp] theorem State.event_island (s : State) (name : String) (code : Option Nat) (source detail : Nat) :
    (s.event name code source detail).island = s.island := (congrArg State.island (s.event_serviceFrame name code source detail s) :)

@[simp] theorem State.spend_island (s : State) (pool inst : Nat) : (s.spend pool inst).island = s.island :=
  (congrArg State.island (s.spend_serviceFrame pool inst s) :)

theorem State.event_reqs (s : State) (name : String) (code : Option Nat) (source detail : Nat) :
    (s.event name code source detail).reqs = s.reqs := (congrArg State.reqs (s.event_serviceFrame name code source detail s) :)

theorem State.event_sparesUsed (s : State) (name : String) (code : Option Nat) (source detail pool inst : Nat) :
    (s.event name code source detail).sparesUsed pool inst = s.sparesUsed pool inst :=
  State.sparesUsed_of_faults (s.event_faults name code source detail) pool inst

/-! ### Control pairs (R344) -/

theorem State.find_pair_modPair (s : State) (n : Nat) {g : ControlPair → ControlPair} (hg : ∀ p, (g p).n = p.n) :
    ((s.modPair n g).faults.pairs.find? fun p => p.n == n) = (s.faults.pairs.find? fun p => p.n == n).map g :=
  find?_mapIf (key := ControlPair.n) (fun p hp => (hg p).trans hp) s.faults.pairs

theorem State.find_pair_modPair_ne (s : State) {n k : Nat} {g : ControlPair → ControlPair} (hg : ∀ p, (g p).n = p.n) (h : k ≠ n) :
    ((s.modPair n g).faults.pairs.find? fun p => p.n == k) = s.faults.pairs.find? fun p => p.n == k :=
  find?_mapIf_ne (key := ControlPair.n) hg h s.faults.pairs

theorem State.mem_pairs_modPair {s : State} {n : Nat} {g : ControlPair → ControlPair} (hg : ∀ p, (g p).n = p.n) {p : ControlPair}
    (hp : p ∈ (s.modPair n g).faults.pairs) : ∃ x ∈ s.faults.pairs, p.n = x.n ∧ p = if x.n = n then g x else x := by
  obtain ⟨x, hx, rfl⟩ := List.mem_map.mp hp
  refine ⟨x, hx, ?_, by simp⟩
  split
  · exact hg x
  · rfl

theorem State.pairs_of_unspent {s t : State} (h : t.faults.unspent = s.faults.unspent) : t.faults.pairs = s.faults.pairs :=
  (congrArg Faults.pairs h :)

section
variable {s : State} {n : Nat} {p : ControlPair} (hp : (s.faults.pairs.find? fun p => p.n == n) = some p) (hh : p.halted = false)
include hp hh

/-- A working pair writes its checkpoint. -/
theorem State.checkpoint_writes {j : Nat} (hj : p.partition = some j) :
    ((s.checkpoint n).faults.pairs.find? fun p => p.n == n) = some { p with checkpoint := s.now } := by
  unfold State.checkpoint
  rw [State.find_pair_modPair s n (by intro p; split <;> rfl), hp, Option.map_some, if_pos (by simp [hj, hh])]

/-- A spare pair that fails halts. -/
theorem State.pairFault_halts_spare (hj : p.partition = none) :
    ((s.pairFault n).faults.pairs.find? fun p => p.n == n) = some { p with halted := true } := by
  let u := s.modPair n fun p => { p with halted := true }
  have hout : s.pairFault n = u.spend 6 0 := by
    simp only [State.pairFault, hp, hh, hj, Bool.false_eq_true, if_false]
    rfl
  rw [hout, State.pairs_of_unspent (u.spend_unspent 6 0), State.find_pair_modPair s n (by intro; rfl), hp, Option.map_some]

/-- A pair on whose partition no class-0 request depends halts, where a spare pair stands ready. -/
theorem State.pairFault_halts {j : Nat} (hj : p.partition = some j) (hdep : s.dependOn j = [])
    (hspare : ∃ x ∈ s.faults.pairs, x.n ≠ n ∧ x.halted = false ∧ x.partition = none) :
    ((s.pairFault n).faults.pairs.find? fun p => p.n == n) = some { p with halted := true } := by
  let u := s.modPair n fun p => { p with halted := true }
  let v := u.event "CONTROL_PAIR_FAULT" (some 0xC401) (evSource 7 n) (j + true.toNat * 256)
  have hready : (u.faults.pairs.any fun x => !x.halted && x.partition.isNone) = true := by
    obtain ⟨x, hx, hn, hrun, hfree⟩ := hspare
    exact List.any_eq_true.mpr ⟨x, List.mem_map.mpr ⟨x, hx, if_neg (by simpa using hn)⟩, by simp [hrun, hfree]⟩
  have hnone : v.dependOn j = [] := by
    unfold State.dependOn
    rw [show v.reqs = s.reqs from u.event_reqs _ _ _ _]
    exact hdep
  have hout : s.pairFault n = v.spend 6 0 := by
    unfold State.pairFault
    rw [hp]
    dsimp only
    rw [if_neg (by simp [hh]), hj]
    dsimp only
    rw [show s.modPair n (fun p => { p with halted := true }) = u from rfl, hready, if_pos rfl,
      show u.event "CONTROL_PAIR_FAULT" (some 0xC401) (evSource 7 n) (j + true.toNat * 256) = v from rfl, hnone]
    rfl
  rw [hout, State.pairs_of_unspent (v.spend_unspent 6 0), show v.faults = u.faults from u.event_faults _ _ _ _,
    State.find_pair_modPair s n (by intro; rfl), hp, Option.map_some]

end

/-- The spare pair takes the partition of the halted one, with its checkpoint. -/
theorem State.pairTakeover_takes {s : State} {part : Nat} {old new : ControlPair}
    (hold : (s.faults.pairs.find? fun p => p.halted && p.partition == some part) = some old)
    (hnew : (s.faults.pairs.find? fun p => !p.halted && p.partition.isNone) = some new) (hne : old.n ≠ new.n)
    (hfind : (s.faults.pairs.find? fun p => p.n == new.n) = some new) :
    ((s.pairTakeover part).faults.pairs.find? fun p => p.n == new.n) = some { new with partition := some part, checkpoint := old.checkpoint } ∧
      ∀ p ∈ (s.pairTakeover part).faults.pairs, p.n = old.n → p.partition = none := by
  let u := s.modPair old.n fun p => { p with partition := none }
  have hout : s.pairTakeover part = u.modPair new.n fun p => { p with partition := some part, checkpoint := old.checkpoint } := by
    simp only [State.pairTakeover, hold, hnew]
    rfl
  rw [hout]
  refine ⟨?_, fun p hp hn => ?_⟩
  · rw [State.find_pair_modPair u _ (by intro; rfl), State.find_pair_modPair_ne s (by intro; rfl) hne.symm, hfind, Option.map_some]
  · obtain ⟨x, hx, hxn, rfl⟩ := State.mem_pairs_modPair (by intro; rfl) hp
    obtain ⟨y, -, hyn, rfl⟩ := State.mem_pairs_modPair (by intro; rfl) hx
    rw [if_neg (by rw [← hxn, hn]; exact hne), if_pos (by rw [← hyn, ← hxn, hn])]

/-! ### Key banks and AES lanes (R345, R346) -/

/-- A failing bank leaves service, and one that is whole is copied to the spare. -/
theorem State.keyBankFault_replaces {s : State} {bank : Nat} (hb : s.keyBanks.contains bank = true)
    (hw : (s.keyBanks.filter fun b => b != bank && !(s.island.copying && b == 2)) ≠ []) (hs : s.sparesUsed 7 0 = 0) :
    (s.keyBankFault bank).island = { s.island with banksBad := bank :: s.island.banksBad, copying := true } ∧
      (s.keyBankFault bank).sparesUsed 7 0 = 1 := by
  let u : State := { s with island := { s.island with banksBad := bank :: s.island.banksBad } }
  let v := u.event "KEY_BANK_REPLACED" (some 0x8402) (evSource 8 0) bank
  let w : State := { v with island := { v.island with copying := true } }
  have hspare : v.sparesUsed 7 0 = 0 := (u.event_sparesUsed _ _ _ _ _ _).trans hs
  have hout : s.keyBankFault bank = w.spend 7 0 := by
    unfold State.keyBankFault
    rw [if_neg (by simp only [hb]; decide)]
    dsimp only
    rw [if_neg (by simpa using hw), if_pos hspare]
  rw [hout, State.spend_island, State.spend_sparesUsed, show w.sparesUsed 7 0 = 0 from hspare]
  exact ⟨by simp only [w, v, State.event_island]; rfl, rfl⟩

/-- A lane that fails its test is remapped while its unit has a spare lane. -/
theorem State.aesTest_remaps {s : State} {unit lane : Nat} (hin : s.island.aesBad.contains (unit, lane) = false)
    (hleft : (s.island.aesBad.filter fun x => x.1 == unit).length < 2) :
    (s.aesTest unit [lane]).island = { s.island with aesBad := (unit, lane) :: s.island.aesBad } ∧
      (s.aesTest unit [lane]).sparesUsed 8 unit = s.sparesUsed 8 unit + 1 := by
  let u : State := { s with island := { s.island with aesBad := (unit, lane) :: s.island.aesBad } }
  let v := u.event "AES_LANE_REMAPPED" (some 0x8403) (evSource 8 unit) (unit % 65536 + lane * 65536)
  have hfails : ([lane].eraseDups.filter fun l => !s.island.aesBad.contains (unit, l)) = [lane] := by
    rw [show [lane].eraseDups = [lane] from rfl]
    exact List.filter_cons_of_pos (by rw [hin]; rfl)
  have hout : s.aesTest unit [lane] = v.spend 8 unit := by
    unfold State.aesTest
    rw [hfails]
    exact if_neg (by omega)
  rw [hout, State.spend_island, State.spend_sparesUsed, show v.sparesUsed 8 unit = s.sparesUsed 8 unit from u.event_sparesUsed _ _ _ _ _ _]
  exact ⟨u.event_island _ _ _ _, rfl⟩

/-! ### Hash engines (R339) -/

/-- The engines named leave service. -/
theorem State.hashOut_island (s : State) (out : List Nat) :
    (s.hashOut out).island = { s.island with shaBad := out.reverse ++ s.island.shaBad } := by
  induction out generalizing s with
  | nil => rfl
  | cons n out ih =>
    refine (ih _).trans ?_
    rw [State.spend_island]
    split <;> simp

theorem State.hashMismatch_of_fails {s : State} {a b : Nat} (ha : s.hashEngines.contains a = true) (hb : s.hashEngines.contains b = true)
    (hne : a ≠ b) : s.hashMismatch a b true false = s.hashOut [a] := by
  unfold State.hashMismatch
  rw [if_neg (by simp only [ha, hb, hne]; decide)]
  rfl

/-- The doubt that a mismatch of two engines leaves, neither of which fails its test, where the pair has none within 1 s. -/
theorem State.hashMismatch_doubts {s : State} {a b : Nat} (ha : s.hashEngines.contains a = true) (hb : s.hashEngines.contains b = true)
    (hne : a ≠ b) (hd : ∀ x ∈ s.island.shaDoubt, x.1 = min a b → x.2.1 = max a b → x.2.2 + 470000000 < s.now) :
    ∃ l, s.hashMismatch a b false false = { s with island := { s.island with shaDoubt := (min a b, max a b, s.now) :: l } } := by
  unfold State.hashMismatch
  rw [if_neg (by simp only [ha, hb, hne]; decide), if_neg (by decide), if_neg]
  · exact ⟨_, rfl⟩
  · simp only [List.any_eq_true, List.mem_filter, decide_eq_true_eq, Bool.and_eq_true, beq_iff_eq, not_exists, not_and]
    intro x ⟨hx, hlate⟩ h1 h2
    exact absurd (hd x hx h1 h2) (by omega)

theorem State.hashMismatch_of_doubt {s : State} {a b : Nat} (ha : s.hashEngines.contains a = true) (hb : s.hashEngines.contains b = true)
    (hne : a ≠ b) (hd : (min a b, max a b, s.now) ∈ s.island.shaDoubt) : s.hashMismatch a b false false = s.hashOut [a, b] := by
  unfold State.hashMismatch
  rw [if_neg (by simp only [ha, hb, hne]; decide), if_neg (by decide), if_pos]
  exact List.any_eq_true.mpr ⟨(min a b, max a b, s.now), by simp [hd], by simp⟩

/-- Two engines that disagree twice at once, though both pass their tests, leave service. -/
theorem State.hashMismatch_twice {s : State} {a b : Nat} (ha : s.hashEngines.contains a = true) (hb : s.hashEngines.contains b = true)
    (hne : a ≠ b) (hd : ∀ x ∈ s.island.shaDoubt, x.1 = min a b → x.2.1 = max a b → x.2.2 + 470000000 < s.now) :
    ((s.hashMismatch a b false false).hashMismatch b a false false).island.shaBad = a :: b :: s.island.shaBad := by
  obtain ⟨l, hl⟩ := State.hashMismatch_doubts ha hb hne hd
  let u : State := { s with island := { s.island with shaDoubt := (min a b, max a b, s.now) :: l } }
  have hdoubt : (min b a, max b a, u.now) ∈ u.island.shaDoubt := by
    rw [min_comm, max_comm]
    exact List.mem_cons_self
  rw [hl, show u.hashMismatch b a false false = u.hashOut [b, a] from State.hashMismatch_of_doubt hb ha hne.symm hdoubt, State.hashOut_island]
  rfl

theorem State.hashMismatch_hashFrame (s : State) (a b : Nat) (x y : Bool) (d : State) : hashFrame (s.hashMismatch a b x y) d = hashFrame s d :=
  s.hashCheck_hashFrame (.hash a b x y) true d

/-! ### Transfers whose computations are checked (R175, R339) -/

/-- The end of a transfer in service, whose reads find nothing. -/
theorem exec_checkedTransfer {s : State} {r : Req} (hs : s.inService = true) (hr : s.req? r.id = some r) (ok : Bool) (check : SelfCheck) (data : Bytes) :
    exec (.dmaTransferEnd r.id ok [] check data) s = .next (s.checkedTransfer r ok check data) := by
  have hfound : s.readFaults [] = s := ite_self _
  change Host.Outcome.next ((s.readFaults []).withReq r.id fun s r => s.checkedTransfer r ok check data) = _
  rw [hfound, State.withReq_service hs hr]

theorem State.faultReq_faults (s : State) {r : Req} (h : r.phase ≠ .writing) (status block layer : Nat) :
    (s.faultReq r status block layer).faults = s.faults := by
  unfold State.faultReq
  rw [if_neg h]
  rfl

/-- A page coder that fails leaves service, and its command ends. -/
theorem State.coderFails_ends {s : State} {r : Req} {handle : Nat} {q : Seq} (hr : s.req? r.id = some r) (hq : s.seqOf r.tenant handle = some q)
    (he : r.ended = none) (hp : r.phase ≠ .writing) :
    (s.coderFails r handle).ends r stInternalFault noBlock noLayer ∧
      (s.coderFails r handle).faults.codersOut = s.coderFor q.homeStack :: s.faults.codersOut := by
  let u : State := { s with faults := { s.faults with codersOut := s.coderFor q.homeStack :: s.faults.codersOut } }
  let v := u.note "PAGE_CODER_FAILED" (evSource 0 0) (s.coderFor q.homeStack)
  have hout : s.coderFails r handle = v.faultReq r stInternalFault noBlock noLayer := by
    unfold State.coderFails
    rw [hq]
    rfl
  have hv : v.req? r.id = some r := (State.req?_of_reqs (u.event_reqs _ _ _ _) _).trans hr
  rw [hout, v.faultReq_faults hp, show v.faults = u.faults from u.event_faults _ _ _ _]
  exact ⟨(State.faultReq_ends hv he hp _ _ _).1, rfl⟩

/-! ### The deadline monitor and the tracker (R340, R347) -/

/-- A lookup that is not past its commit point is marked to end. -/
theorem State.endReq_ends {s : State} {r : Req} {f : LookupHashF} (hr : s.req? r.id = some r) (hd : r.desc = .lookupHash f) (hp : r.past = false)
    (he : r.ended = none) (status block layer : Nat) : (s.endReq r status block layer).ends r status block layer := by
  have hw : r.phase ≠ .writing := by
    intro h
    simp [Req.past, h] at hp
  have hout : s.endReq r status block layer = s.faultReq r status block layer := by
    simp only [State.endReq, State.faultReq, hp, hd, hw, Bool.false_eq_true, if_false]
  rw [hout]
  exact (State.faultReq_ends hr he hw _ _ _).1

theorem State.ends_of_reqs {s t : State} {r : Req} {status block layer : Nat} (h : t.reqs = s.reqs) (he : s.ends r status block layer) :
    t.ends r status block layer := by
  obtain ⟨x, hx, hend⟩ := he
  exact ⟨x, (State.req?_of_reqs h _).trans hx, hend⟩

/-- The state in which the monitor has failed, its fault reported. -/
def State.monitorDown (s : State) : State :=
  let u := s.freeNat.2.freeNat.2.event "DEADLINE_MONITOR_FAULT" (some 0xC405) (evSource 0 0) (s.freeNat.1 % 2 ^ 32)
  { u with monitor := { u.monitor with failed := true } }

theorem State.monitorFault_eq {s : State} (h : s.monitor.failed = false) : s.monitorFault =
    (s.monitorDown.endAll (s.monitorDown.monitor.held.map Prod.fst) stRescinded).advise (s.freeNat.2.freeNat.1 % 2 ^ 32) := by
  unfold State.monitorFault
  rw [if_neg (by simp [h])]
  rfl

theorem State.monitorDown_monitor (s : State) : s.monitorDown.monitor = { s.monitor with failed := true } := by
  have h := congrArg State.monitor (s.freeNat.2.freeNat.2.event_serviceFrame "DEADLINE_MONITOR_FAULT" (some 0xC405) (evSource 0 0)
    (s.freeNat.1 % 2 ^ 32) s)
  exact congrArg (fun m : Monitor => ({ m with failed := true } : Monitor)) h

theorem State.monitorDown_reqs (s : State) : s.monitorDown.reqs = s.reqs := s.freeNat.2.freeNat.2.event_reqs _ _ _ _

theorem State.monitorFault_idle {s : State} (h : s.monitor.failed = false) (hheld : s.monitor.held = []) :
    s.monitorFault.monitor = { s.monitor with failed := true } ∧ s.monitorFault.faults.service = true := by
  have hnone : s.monitorDown.monitor.held = [] := by rw [State.monitorDown_monitor]; exact hheld
  rw [State.monitorFault_eq h, hnone, State.advise_faults]
  exact ⟨(congrArg State.monitor (State.advise_serviceFrame _ _ s) :).trans s.monitorDown_monitor, rfl⟩

/-- A monitor that fails rescinds the request that it holds. -/
theorem State.monitorFault_rescinds {s : State} {r : Req} {f : LookupHashF} {d : Nat} (h : s.monitor.failed = false)
    (hheld : s.monitor.held = [(r.id, d)]) (hr : s.req? r.id = some r) (hd : r.desc = .lookupHash f) (hp : r.past = false)
    (he : r.ended = none) : s.monitorFault.ends r stRescinded noBlock noLayer := by
  have hone : s.monitorDown.monitor.held = [(r.id, d)] := by rw [State.monitorDown_monitor]; exact hheld
  have hreq : s.monitorDown.req? r.id = some r := (State.req?_of_reqs s.monitorDown_reqs _).trans hr
  have hall : s.monitorDown.endAll [r.id] stRescinded = s.monitorDown.endReq r stRescinded noBlock noLayer := by
    simp only [State.endAll, List.foldl_cons, List.foldl_nil, hreq]
  rw [State.monitorFault_eq h, hone]
  refine State.ends_of_reqs (congrArg State.reqs (State.advise_serviceFrame _ _ s) :) ?_
  rw [List.map_cons, List.map_nil, hall]
  exact State.endReq_ends hreq hd hp he _ _ _

section
variable {s : State} {r : Req} {f : LookupHashF} {upset : Nat} (hr : s.req? r.id = some r) (hd : r.desc = .lookupHash f) (hp : r.past = false)
  (he : r.ended = none)
include hr hd hp he

/-- An entry of the tracker whose writer's copy a fault has changed. -/
theorem State.internalEnd_upset {t : State} (ht : t.reqs = (s.modReq r.id fun r => { r with writerSeq := r.writerSeq ^^^ upset }).reqs) :
    (t.internalEnd { r with writerSeq := r.writerSeq ^^^ upset }).ends r stInternalFault noBlock noLayer := by
  have hreq : t.req? r.id = some { r with writerSeq := r.writerSeq ^^^ upset } := by
    rw [State.req?_of_reqs ht, State.req?_modReq _ _ (by intro; rfl), hr, Option.map_some]
  have hout : t.internalEnd { r with writerSeq := r.writerSeq ^^^ upset } =
      t.endReq { r with writerSeq := r.writerSeq ^^^ upset } stInternalFault noBlock noLayer := by
    simp only [State.internalEnd, hd]
  rw [hout]
  exact State.endReq_ends (r := { r with writerSeq := r.writerSeq ^^^ upset }) hreq hd hp he _ _ _

/-- A request whose two copies disagree ends. -/
theorem State.watchdog_mismatch (hu : ({ r with writerSeq := r.writerSeq ^^^ upset } : Req).trackOk = false) :
    (s.watchdog r upset).ends r stInternalFault noBlock noLayer := by
  unfold State.watchdog
  rw [if_pos (by simp [hu])]
  exact State.internalEnd_upset hr hd hp he (State.event_reqs _ _ _ _ _)

/-- A request whose time is up ends. -/
theorem State.watchdog_late (htrack : r.trackOk = true) (hcls : r.cls ≠ 0) (hlate : r.decided + s.params.watchdogMs * 470000 ≤ s.now) :
    (s.watchdog r 0).ends r stInternalFault noBlock noLayer := by
  have hsame : ({ r with writerSeq := r.writerSeq ^^^ 0 } : Req).trackOk = true := by simpa [Req.trackOk] using htrack
  unfold State.watchdog
  rw [if_neg (by rw [hsame]; decide), if_pos ⟨hcls, hlate⟩]
  exact State.internalEnd_upset hr hd hp he rfl

end

end Sys2Proof.Machine
end

section
/-! CLAIMS. The obligation on what fails on its own (15). -/

namespace Sys2Proof.Machine

/-- Settles O45: each fault by the lemma on its own part of the state. -/
theorem controlFaultsComplete : Obligations.ControlFaultsComplete := by
  unfold Obligations.ControlFaultsComplete
  refine ⟨fun s n p hs hp hh => ⟨fun j hj => ?_, fun j hj hdep hspare => ?_, fun hj => ?_⟩, fun s part old new hs hold hnew hne hfind => ?_,
    fun s bank hb hw hspare => ?_, fun s => ?_, fun s unit lane hs hin hleft => ?_, fun s a b ha hb hne => ⟨?_, fun hd => ?_⟩,
    fun s r ok a b x y data hs hr hnow => ?_, fun s r f q data hs hr hd hcodes hq he hp => ?_,
    fun s hs hrun => ⟨fun hheld => ?_, fun r f d hheld hr hd hp he => ?_⟩,
    fun s r f hs hr hd hp he => ⟨fun htrack hcls hlate => ?_, fun upset hu => ?_⟩⟩
  · exact leaves_of_live rfl hs (State.checkpoint_writes hp hh hj)
  · exact leaves_of_live rfl hs (State.pairFault_halts hp hh hj hdep hspare)
  · exact leaves_of_live rfl hs (State.pairFault_halts_spare hp hh hj)
  · exact leaves_of_live rfl hs (State.pairTakeover_takes hold hnew hne hfind)
  · exact ⟨_, rfl, State.keyBankFault_replaces hb hw hspare⟩
  · exact ⟨_, rfl, rfl⟩
  · exact leaves_of_live rfl hs (State.aesTest_remaps hin hleft)
  · rw [State.hashMismatch_of_fails ha hb hne, State.hashOut_island]
    rfl
  · exact State.hashMismatch_twice ha hb hne hd
  · have hframe := s.hashMismatch_hashFrame a b x y s
    have hs' : (s.hashMismatch a b x y).inService = true := (congrArg State.inService hframe :).trans hs
    have hr' : (s.hashMismatch a b x y).req? r.id = some r := (congrArg (·.req? r.id) hframe :).trans hr
    rw [exec_checkedTransfer hs hr, exec_transferEnd hs' hr', State.checkedTransfer, if_neg (by simp), State.hashCheck, if_pos hnow]
  · refine ⟨_, exec_checkedTransfer hs hr _ _ _, ?_⟩
    rw [State.checkedTransfer, if_pos ⟨rfl, hcodes⟩]
    have hends := State.coderFails_ends hr hq he hp
    rcases hd with hd | hd <;> rw [hd] <;> exact hends
  · exact leaves_of_live rfl hs (State.monitorFault_idle hrun hheld)
  · exact leaves_of_live rfl hs (State.monitorFault_rescinds hrun hheld hr hd hp he)
  · exact ⟨_, rfl, by rw [State.withReq_service hs hr]; exact State.watchdog_late hr hd hp he htrack hcls hlate⟩
  · exact ⟨_, rfl, by rw [State.withReq_service hs hr]; exact State.watchdog_mismatch hr hd hp he hu⟩

end Sys2Proof.Machine
end


section
/-! SUPPORT. What a command may do to the functions' windows: one case split over the commands (R176, R182, R186, R212). -/

namespace Sys2Proof.Machine

theorem ite_windows {p : Prop} [Decidable p] {a b s : State} (ha : a.windows = s.windows) (hb : b.windows = s.windows) :
    (if p then a else b).windows = s.windows := by
  split
  · exact ha
  · exact hb

/-- A command that does not reach the windows leaves them: each operation that it runs by its own lemma (Laws/Windows.lean). -/
theorem exec_windows {c : Instr} {s t : State} (h : exec c s = .next t) (hc : c.reachesWindows = false) : t.windows = s.windows := by
  cases c
  case cxlMemRead line ok viral =>
    have h : execCxlMemRead line ok viral s = .next t := h
    unfold execCxlMemRead at h
    (repeat' split at h) <;> cases h
    · rfl
    · exact State.cxlRead_windows _ _ _ _
    · rfl
  case cxlMemWrite line data =>
    have h : execCxlMemWrite line data s = .next t := h
    unfold execCxlMemWrite at h
    (repeat' split at h) <;> cases h
    · rfl
    · exact State.cxlWrite_windows _ _ _
    · rfl
  all_goals cases h
  -- no command of those that reach the windows is left
  all_goals cases hc
  -- the commands that choose among operations that leave the windows alone
  case curdOffer | curdWindowEnd | curdLatestClose | queryBlockArrival | partEnd | curdPassEnd =>
    exact State.live_windows _ _ fun _ => elim_windows_of rfl fun _ => by simp
  case controlCheckpoint | refresh | refreshManagementRequest => exact State.live_windows _ _ fun _ => rfl
  case prefetchArrival | addCapacity | destage | poolCxlMemAccess =>
    exact State.live_windows _ _ fun _ => ite_windows (by simp) (by simp)
  case releaseCapacity =>
    refine State.live_windows _ _ fun _ => ite_windows (by simp) ?_
    split <;> simp
  case forcedCapacityRelease =>
    refine State.live_windows _ _ fun _ => ?_
    split <;> simp
  case drbgHealthFailure | drbgRetestPass => exact ite_windows (by simp) rfl
  case config => exact ite_windows (State.takeFrame_windows _ _ _ _ _ _ _ _ fun _ _ => rfl) (by simp)
  case credit => exact State.takeFrame_windows _ _ _ _ _ _ _ _ fun _ _ => rfl
  case dirAttach | dirRelease | dirWithdrawn | withdrawNotice | extentDone | nmo =>
    exact State.takeFrame_windows _ _ _ _ _ _ _ _ fun _ _ => ite_windows (by simp) (by simp)
  case dirPublish | dirLookup =>
    exact State.takeFrame_windows _ _ _ _ _ _ _ _ fun _ _ => ite_windows (ite_windows (by simp) rfl) (by simp)
  case pageGet => exact State.takeFrame_windows _ _ _ _ _ _ _ _ fun _ _ => ite_windows (by simp) (ite_windows rfl (by simp))
  case extentRelease | recallDone =>
    refine State.takeFrame_windows _ _ _ _ _ _ _ _ fun _ _ => ?_
    split <;> simp
  case regionRead | regionWrite =>
    refine State.takeFrame_windows _ _ _ _ _ _ _ _ fun _ _ => ?_
    split
    · simp
    · exact ite_windows rfl (by simp)
  -- the others run one operation, whose own lemma says that it leaves the windows alone
  all_goals simp

end Sys2Proof.Machine
end

section
/-! CLAIMS. The statements about the canonical form of the direct region and about the functions' windows. -/

namespace Sys2Proof.Machine

theorem State.tick_direct (s : State) : s.tick.direct = s.direct := by
  unfold State.tick
  extract_lets s1
  have h : s1.spine = s.spine := ite_spine (by simp) rfl
  exact (direct_of_spine h :)

/-- Settles O3: the end of a tick leaves the direct region, and what a command writes there keeps the form (`exec_follows`). -/
theorem directMemoryKeepsForm : Obligations.DirectMemoryKeepsForm := by
  unfold Obligations.DirectMemoryKeepsForm
  intro s t wf h
  cases hp : s.pending with
  | nil =>
    rw [step_idle hp] at h
    cases h
    rwa [State.tick_direct]
  | cons c rest =>
    rw [step_front hp] at h
    exact (exec_follows h).direct wf

/-- Settles O7: from `exec_windows`, the split over the commands. -/
theorem windowsStand : Obligations.WindowsStand := by
  unfold Obligations.WindowsStand
  exact fun _ _ _ => exec_windows

end Sys2Proof.Machine
end

section
/-! SUPPORT. What an operation may change of the cold part (Laws/Cold.lean): the rest of it, but for the areas that the operation may change,
stands. -/

namespace Sys2Proof.Machine

/-- The areas of the cold part that the frames of commands speak of. -/
def coldAreas : List Area :=
  [.coarse, .tenants, .boot, .update, .resets, .power, .directBad, .viral, .egress, .clusters, .peerEpochs, .dram, .groups]

/-- The cold part but for the areas listed, and for the records of the event recorder. -/
def Cold.but (as : List Area) (x : Cold) : Cold :=
  let r := State.reset.cold
  { boot := if .boot ∈ as then r.boot else x.boot
    update := if .update ∈ as then r.update else x.update
    resets := if .resets ∈ as then r.resets else x.resets
    viral := if .viral ∈ as then r.viral else x.viral
    directBad := if .directBad ∈ as then r.directBad else x.directBad
    egress := if .egress ∈ as then r.egress else x.egress
    clusters := if .clusters ∈ as then r.clusters else x.clusters
    peerEpochs := if .peerEpochs ∈ as then r.peerEpochs else x.peerEpochs
    dram := if .dram ∈ as then r.dram else x.dram
    groups := if .groups ∈ as then r.groups else x.groups
    tenants := if .tenants ∈ as then r.tenants else x.tenants
    power := if .power ∈ as then r.power else x.power
    coarse := if .coarse ∈ as then r.coarse else x.coarse
    ring := r.ring, firsts := r.firsts, nextSeq := r.nextSeq }

/-- An area that is not listed is the same where the rest of the cold part is. -/
theorem same_of_but {as : List Area} {s t : State} (h : t.cold.but as = s.cold.but as) {a : Area} (ha : a ∈ coldAreas) (hn : a ∉ as) :
    Same a s t := by
  obtain ⟨boot, update, resets, viral, directBad, egress, clusters, peerEpochs, dram, groups, tenants, power, coarse, -⟩ := Cold.mk.inj h
  simp only [coldAreas, List.mem_cons, List.not_mem_nil, or_false] at ha
  rcases ha with rfl | rfl | rfl | rfl | rfl | rfl | rfl | rfl | rfl | rfl | rfl | rfl | rfl
  all_goals
    simp only [hn, if_false] at *
    assumption

section
variable {as : List Area}

/-! ### The areas themselves -/

theorem Cold.but_boot (x : Cold) (y) (h : Area.boot ∈ as) : ({ x with boot := y } : Cold).but as = x.but as := by
  simp only [Cold.but, if_pos h]
theorem Cold.but_update (x : Cold) (y) (h : Area.update ∈ as) : ({ x with update := y } : Cold).but as = x.but as := by
  simp only [Cold.but, if_pos h]
theorem Cold.but_resets (x : Cold) (y) (h : Area.resets ∈ as) : ({ x with resets := y } : Cold).but as = x.but as := by
  simp only [Cold.but, if_pos h]
theorem Cold.but_directBad (x : Cold) (y) (h : Area.directBad ∈ as) : ({ x with directBad := y } : Cold).but as = x.but as := by
  simp only [Cold.but, if_pos h]
theorem Cold.but_viral (x : Cold) (y) (h : Area.viral ∈ as) : ({ x with viral := y } : Cold).but as = x.but as := by
  simp only [Cold.but, if_pos h]
theorem Cold.but_egress (x : Cold) (y) (h : Area.egress ∈ as) : ({ x with egress := y } : Cold).but as = x.but as := by
  simp only [Cold.but, if_pos h]
theorem Cold.but_clusters (x : Cold) (y) (h : Area.clusters ∈ as) : ({ x with clusters := y } : Cold).but as = x.but as := by
  simp only [Cold.but, if_pos h]
theorem Cold.but_peerEpochs (x : Cold) (y) (h : Area.peerEpochs ∈ as) : ({ x with peerEpochs := y } : Cold).but as = x.but as := by
  simp only [Cold.but, if_pos h]
theorem Cold.but_dram (x : Cold) (y) (h : Area.dram ∈ as) : ({ x with dram := y } : Cold).but as = x.but as := by
  simp only [Cold.but, if_pos h]
theorem Cold.but_groups (x : Cold) (y) (h : Area.groups ∈ as) : ({ x with groups := y } : Cold).but as = x.but as := by
  simp only [Cold.but, if_pos h]
theorem Cold.but_tenants (x : Cold) (y) (h : Area.tenants ∈ as) : ({ x with tenants := y } : Cold).but as = x.but as := by
  simp only [Cold.but, if_pos h]
theorem Cold.but_power (x : Cold) (y) (h : Area.power ∈ as) : ({ x with power := y } : Cold).but as = x.but as := by
  simp only [Cold.but, if_pos h]
theorem Cold.but_coarse (x : Cold) (y) (h : Area.coarse ∈ as) : ({ x with coarse := y } : Cold).but as = x.but as := by
  simp only [Cold.but, if_pos h]

theorem foldl_but {α : Type} (f : State → α → State) (h : ∀ s a, (f s a).cold.but as = s.cold.but as) (l : List α) (s : State) :
    (l.foldl f s).cold.but as = s.cold.but as := foldl_keeps (fun s => s.cold.but as) f h l s

theorem ite_but {p : Prop} [Decidable p] {a b s : State} (ha : a.cold.but as = s.cold.but as) (hb : b.cold.but as = s.cold.but as) :
    (if p then a else b).cold.but as = s.cold.but as := ite_keeps (m := fun s => s.cold.but as) ha hb

/-! ### Stacks, groups and what their lines hold (R289 to R299, R304) -/

section
variable (hd : Area.dram ∈ as)
include hd

theorem State.modStack_but (s : State) (n : Nat) (g : Stack → Stack) : (s.modStack n g).cold.but as = s.cold.but as :=
  Cold.but_dram s.cold _ hd

theorem State.setRowCount_but (s : State) (stack row n : Nat) : (s.setRowCount stack row n).cold.but as = s.cold.but as :=
  s.modStack_but hd _ _

theorem State.retireRow_but (s : State) (stack row : Nat) : (s.retireRow stack row).cold.but as = s.cold.but as :=
  foldl_but _ (fun s k => s.modStack_but hd k _) _ s

theorem State.repairRow_but (s : State) (stack row : Nat) : (s.repairRow stack row).cold.but as = s.cold.but as := by
  unfold State.repairRow
  extract_lets s1 left s2
  have h2 : s2.cold.but as = s.cold.but as := s.setRowCount_but hd stack row 0
  refine ite_but ?_ ?_
  · rw [State.advise_cold, State.retireRow_but hd, h2]
  · rw [State.lowSpares_cold]
    exact h2

theorem State.noteLost_but (s : State) (stack row sector : Nat) : (s.noteLost stack row sector).cold.but as = s.cold.but as := by
  unfold State.noteLost
  rw [State.memNote_cold, State.modStack_but hd]
  rfl

end

section
variable (hg : Area.groups ∈ as)
include hg

theorem State.modGroup_but (s : State) (n : Nat) (g : PGroup → PGroup) : (s.modGroup n g).cold.but as = s.cold.but as :=
  Cold.but_groups s.cold _ hg

theorem State.emptyGroup_but (s : State) (g : PGroup) (f : PGroup → PGroup) : (s.emptyGroup g f).cold.but as = s.cold.but as := by
  simp [State.emptyGroup, State.modGroup_but hg]

theorem State.groupLoses_but (s : State) (g : PGroup) : (s.groupLoses g).cold.but as = s.cold.but as := by
  unfold State.groupLoses
  refine ite_but (by simp [State.emptyGroup_but hg]) ?_
  split
  · exact ite_but (by simp [State.modGroup_but hg]) (by simp [State.modGroup_but hg])
  · simp [State.emptyGroup_but hg]
  · simp [State.emptyGroup_but hg]
  · rfl

theorem State.evacuationEnd_but (s : State) (n : Nat) : (s.evacuationEnd n).cold.but as = s.cold.but as := by
  unfold State.evacuationEnd
  split
  · rfl
  · refine ite_but rfl (ite_but ?_ (ite_but ?_ ?_)) <;> simp [State.modGroup_but hg]

theorem State.rebuildEnd_but (s : State) (n : Nat) : (s.rebuildEnd n).cold.but as = s.cold.but as := by
  unfold State.rebuildEnd
  split
  · rfl
  · exact ite_but rfl (by simp [State.modGroup_but hg])

end

theorem State.sectorLost_but (s : State) (stack row sector : Nat) (hb : Area.directBad ∈ as) :
    (s.sectorLost stack row sector).cold.but as = s.cold.but as := by
  have kept : ∀ (s : State) (d : Nat), (s.keptLost d sector).cold.but as = s.cold.but as := fun s d =>
    ite_but (Cold.but_directBad s.cold _ hb) rfl
  unfold State.sectorLost
  split
  · rfl
  · extract_lets s1 s2
    have h2 : s2.cold = s.cold := (s1.loseChunks_cold _).trans (foldl_cold _ (fun s x => s.pageLost_cold _ _ _) _ _)
    rw [← h2]
    split
    · rfl
    · split
      · rw [State.metaSectorFails_cold]
      · exact kept s2 _
      · rfl

theorem State.tagFails_but (s : State) (stack row sector : Nat) (repaired : Bool) (hd : Area.dram ∈ as) (hb : Area.directBad ∈ as) :
    (s.tagFails stack row sector repaired).cold.but as = s.cold.but as := by
  unfold State.tagFails
  refine ite_but (by simp) ?_
  rw [State.repairRow_but hd, State.sectorLost_but _ _ _ _ hb, State.memNote_cold]

section
variable (hd : Area.dram ∈ as) (hg : Area.groups ∈ as)
include hd hg

theorem State.loseStack_but (s : State) (stack : Nat) : (s.loseStack stack).cold.but as = s.cold.but as := by
  unfold State.loseStack
  refine ite_but rfl ?_
  extract_lets cache s1 s2 s3
  have h2 : s2.cold.but as = s.cold.but as := by
    unfold s2
    rw [State.memNote_cold, State.modStack_but hd]
    rfl
  have h3 : s3.cold.but as = s.cold.but as := by
    unfold s3
    split
    · rw [State.groupLoses_but hg, State.spend_cold, h2]
    · exact h2
  rw [State.recompute_cold, State.rehomeSeqs_cold, State.losePages_cold, h3]

theorem State.arbiterFault_but (s : State) (arbiter block : Nat) : (s.arbiterFault arbiter block).cold.but as = s.cold.but as := by
  have out : ∀ (s : State) (block : Nat), (s.blockOut block).cold.but as = s.cold.but as := fun u block => by
    unfold State.blockOut
    extract_lets i faults s1 s2
    have h2 : s2.cold = u.cold := (s1.endServed_cold _).trans rfl
    rw [← h2]
    split
    case h_4 => exact s2.loseStack_but hd hg i
    case h_5 => exact foldl_but _ (fun s p => by simp) _ _
    all_goals simp
  unfold State.arbiterFault
  rw [out, State.event_cold]

variable (hb : Area.directBad ∈ as)
include hb

theorem State.lineRead_but (s : State) (stack row sector : Nat) (r : LineResult) :
    (s.lineRead stack row sector r).cold.but as = s.cold.but as := by
  unfold State.lineRead
  refine ite_but rfl ?_
  split
  · rfl
  · rfl
  · extract_lets n telemetry s1
    have h1 : s1.cold.but as = s.cold.but as := State.setRowCount_but hd _ _ _ _
    rw [← h1]
    exact ite_but (s1.repairRow_but hd _ _) rfl
  · extract_lets s1 s2
    have h1 : s1.cold.but as = s.cold.but as := s.noteLost_but hd _ _ _
    have h2 : s2.cold.but as = s.cold.but as := by
      unfold s2
      rw [State.repairRow_but hd, ← h1]
      exact ite_but rfl (s1.sectorLost_but _ _ _ hb)
    rw [← h2]
    exact ite_but (s2.loseStack_but hd hg _) rfl

theorem State.readFaults_but (s : State) (found : List ReadFault) : (s.readFaults found).cold.but as = s.cold.but as := by
  refine live_keeps (m := fun s => s.cold.but as) (foldl_but _ (fun s f => ?_) found s)
  unfold State.readFault
  split
  · exact s.lineRead_but hd hg hb _ _ _ _
  · exact ite_but (s.tagFails_but _ _ _ _ hd hb) rfl
  · rw [State.shelfFails_cold]
  · rw [State.readRefused_cold]
  · rw [State.aesTest_cold]

end

/-! ### Tenants (R330 to R333) -/

section
variable (ht : Area.tenants ∈ as)
include ht

theorem State.modTenant_but (s : State) (n : Nat) (g : TenantSt → TenantSt) : (s.modTenant n g).cold.but as = s.cold.but as :=
  Cold.but_tenants s.cold _ ht

theorem State.beginRemoval_but (s : State) (tenant : Nat) (conn : Option Nat) : (s.beginRemoval tenant conn).cold.but as = s.cold.but as := by
  unfold State.beginRemoval
  split
  · rfl
  · exact ite_but rfl (by simp [foldl_cold, State.modTenant_but ht])

theorem State.removeCmd_but (s : State) (conn tenant : Nat) : (s.removeCmd conn tenant).cold.but as = s.cold.but as := by
  unfold State.removeCmd
  split
  · simp
  · split
    · simp
    · exact s.beginRemoval_but ht _ _
    · simp
    · simp

theorem State.removalDrained_but (s : State) (tenant : Nat) : (s.removalDrained tenant).cold.but as = s.cold.but as := by
  unfold State.removalDrained
  split
  · rfl
  · exact ite_but rfl (by simp [State.modTenant_but ht])

theorem State.reclaimEnds_but (s : State) (tenant : Nat) : (s.reclaimEnds tenant).cold.but as = s.cold.but as := by
  unfold State.reclaimEnds
  split
  · rfl
  · exact ite_but rfl (by simp [foldl_cold, State.modTenant_but ht])

theorem State.tenantGone_but (s : State) (tenant : Nat) : (s.tenantGone tenant).cold.but as = s.cold.but as := by
  unfold State.tenantGone
  split
  · rfl
  · refine ite_but rfl ?_
    rw [State.settleUnlock_cold]
    split <;> simp [State.modTenant_but ht]

theorem State.unlock_but (s : State) (conn : Nat) (t : Token) : (s.unlock conn t).cold.but as = s.cold.but as := by
  unfold State.unlock
  refine ite_but (by simp) ?_
  rw [State.settleUnlock_cold, foldl_but _ fun s x => s.beginRemoval_but ht _ _]
  rfl

theorem State.restore_but (s : State) (x : TenantSt) (hb : Area.directBad ∈ as) : (s.restore x).cold.but as = s.cold.but as := by
  have clear : ∀ u : State, ({ u with direct := [], directOpen := [], directBad := [] } : State).cold.but as = u.cold.but as :=
    fun u => Cold.but_directBad u.cold _ hb
  unfold State.restore
  extract_lets t island s1 s2 s3
  have h2 : s2.cold.but as = s.cold.but as := by
    unfold s2 s1
    rw [State.modTenant_but ht, State.fillSlot_cold]
    rfl
  rw [← h2]
  exact (ite_but (clear s2) rfl : s3.cold.but as = s2.cold.but as)

theorem State.restoreCmd_but (s : State) (conn tenant : Nat) (hb : Area.directBad ∈ as) :
    (s.restoreCmd conn tenant).cold.but as = s.cold.but as := by
  unfold State.restoreCmd
  split
  · simp
  · split
    · simp
    · simp
    · simp
    · exact ite_but (by simp) (ite_but (by simp) (by simp [State.restore_but ht _ _ hb]))

end

/-! ### Lanes and links (R250, R256) -/

theorem State.laneFails_but (s : State) (c lane cause : Nat) (hc : Area.clusters ∈ as) :
    (s.laneFails c lane cause).cold.but as = s.cold.but as := by
  have retired : ∀ l, ({ s with clusters := l } : State).cold.but as = s.cold.but as := fun l => Cold.but_clusters s.cold l hc
  unfold State.laneFails
  split
  · rfl
  · refine ite_but rfl ?_
    extract_lets first s1 s2 s3
    have h3 : s3.cold.but as = s.cold.but as := by
      have h2 : s2.cold.but as = s.cold.but as := (congrArg (Cold.but as) (s1.event_cold _ _ _ _)).trans (retired _)
      rw [← h2]
      exact ite_but (by simp) rfl
    rw [← h3]
    split
    · rfl
    · extract_lets port st s4
      have h4 : s4.cold = s3.cold := by
        unfold s4
        split <;> simp
      rw [← h4]
      exact ite_but rfl (ite_but (by simp) (ite_but (by simp) rfl))

theorem State.trainingEnd_but (s : State) (port : PortId) (r : TrainResult) (retired : List (Nat × Nat)) (corrected : List LaneFix)
    (hc : Area.clusters ∈ as) : (s.trainingEnd port r retired corrected).cold.but as = s.cold.but as := by
  refine ite_but rfl ?_
  rw [State.trained_cold, State.trainingLanes]
  rw [foldl_cold _ fun s x => s.event_cold _ _ _ _]
  exact foldl_but _ (fun s x => s.laneFails_but _ _ _ hc) _ _

theorem State.onEpoch_but (s : State) (link : Nat) (fr : Frame) (he : Area.peerEpochs ∈ as) :
    (s.onEpoch link fr).cold.but as = s.cold.but as := by
  unfold State.onEpoch
  extract_lets owner epochs s1
  have h1 : s1.cold.but as = s.cold.but as := Cold.but_peerEpochs s.cold _ he
  rw [← h1, State.nextGets_cold]
  rfl

/-! ### Partial resets (R318, R376, R377) -/

theorem State.resetDomainNow_but (s : State) (domain inst : Nat) (he : Area.egress ∈ as) :
    (s.resetDomainNow domain inst).cold.but as = s.cold.but as := by
  have group : ∀ g, (s.resetGroup g).cold.but as = s.cold.but as := fun g => by
    have h : ((s.resetGroupFns g).cutSession (.ucie g)).cold = s.cold := by simp
    rw [← h]
    exact Cold.but_egress ((s.resetGroupFns g).cutSession (.ucie g)).cold _ he
  unfold State.resetDomainNow
  exact ite_but (by simp) (ite_but (group inst) (ite_but (by simp [foldl_cold]) (by simp)))

theorem State.beginPartial_but (s : State) (domain inst : Nat) (conn : Option Nat) (hr : Area.resets ∈ as) (he : Area.egress ∈ as) :
    (s.beginPartial domain inst conn).cold.but as = s.cold.but as := by
  have resets : ∀ r, ({ s with resets := r } : State).cold.but as = s.cold.but as := fun r => Cold.but_resets s.cold r hr
  exact ite_but (resets _) ((State.resetDomainNow_but _ _ _ he).trans (resets _))

theorem State.partialEnd_but (s : State) (domain inst : Nat) (hr : Area.resets ∈ as) :
    (s.partialEnd domain inst).cold.but as = s.cold.but as := by
  unfold State.partialEnd
  split
  · rfl
  · extract_lets r left t
    have h : t.cold.but as = s.cold.but as := by
      unfold t
      rw [State.endDomain_cold]
      exact Cold.but_resets s.cold _ hr
    exact ite_but rfl ((foldl_but _ (fun s n => by simp) _ _).trans h)

/-! ### Boot, power and temperature (R367 to R375, R392 to R403) -/

section
variable (hb : Area.boot ∈ as)
include hb

theorem State.writeEntry_but (s : State) (e : BootEntry) : (s.writeEntry e).cold.but as = s.cold.but as := Cold.but_boot s.cold _ hb

theorem State.imageRefused_but (s : State) : s.imageRefused.cold.but as = s.cold.but as := by
  have boot : ∀ b, ({ s with boot := b } : State).cold.but as = s.cold.but as := fun b => Cold.but_boot s.cold b hb
  exact ite_but (boot _) (by rw [State.note_cold]; exact boot _)

theorem State.imagePasses_but (s : State) (i : Image) : (s.imagePasses i).cold.but as = s.cold.but as := by
  unfold State.imagePasses
  dsimp only
  rw [State.bootSpares_cold, State.bootRecord_cold, State.ownerChain_cold, State.bootKeys_cold, State.writeEntry_but hb]
  exact Cold.but_boot s.cold _ hb

theorem State.imageEnd_but (s : State) (ok : Bool) (i : Option Image) : (s.imageEnd ok i).cold.but as = s.cold.but as := by
  unfold State.imageEnd
  refine ite_but rfl ?_
  extract_lets idOk s1 b
  have h1 : s1.cold = s.cold := by
    unfold s1
    split <;> simp
  rw [← h1]
  refine ite_but (Cold.but_boot s1.cold _ hb) ?_
  split
  · rw [State.imageRefused_but hb, State.flashGone_cold]
  · exact ite_but (s1.imagePasses_but hb _) (by rw [State.imageRefused_but hb, State.note_cold])

theorem State.proven_but (s : State) : s.proven.cold.but as = s.cold.but as := by
  have boot : ∀ b, ({ s with boot := b } : State).cold.but as = s.cold.but as := fun b => Cold.but_boot s.cold b hb
  exact ite_but (boot _) ((State.writeEntry_but hb _ _).trans (boot _))

theorem State.activate_but (s : State) (conn : Nat) (hu : Area.update ∈ as) : (s.activate conn).cold.but as = s.cold.but as := by
  unfold State.activate
  refine ite_but (by simp) (ite_but (by simp) (ite_but (by simp) ?_))
  rw [State.reply_cold]
  exact (Cold.but_update _ _ hu).trans (s.writeEntry_but hb _)

theorem State.cancel_but (s : State) (conn : Nat) (hu : Area.update ∈ as) : (s.cancel conn).cold.but as = s.cold.but as := by
  unfold State.cancel
  refine ite_but (by simp) (ite_but (by simp) ?_)
  extract_lets _ s1
  have h1 : s1.cold.but as = s.cold.but as := ite_but (s.writeEntry_but hb _) rfl
  rw [State.reply_cold, ← h1]
  exact Cold.but_update s1.cold _ hu

theorem State.serviceBegins_but (s : State) (he : Area.egress ∈ as) (hc : Area.clusters ∈ as) (ht : Area.tenants ∈ as) :
    s.serviceBegins.cold.but as = s.cold.but as := by
  have setup : s.memorySetup.cold.but as = s.cold.but as :=
    (Cold.but_tenants _ _ ht).trans ((Cold.but_clusters _ _ hc).trans (Cold.but_egress s.cold _ he))
  exact ite_but rfl ((Cold.but_boot _ _ hb).trans ((State.proven_but hb _).trans setup))

variable (hp : Area.power ∈ as)
include hp

theorem State.hbmTrained_but (s : State) (failed weak : List Nat) (hd : Area.dram ∈ as) (hg : Area.groups ∈ as) :
    (s.hbmTrained failed weak).cold.but as = s.cold.but as := by
  unfold State.hbmTrained
  refine ite_but rfl ?_
  extract_lets lose start boot s1 s2
  have h1 : s1.cold.but as = s.cold.but as :=
    (Cold.but_groups _ _ hg).trans ((Cold.but_dram _ _ hd).trans (Cold.but_boot s.cold _ hb))
  have h2 : s2.cold.but as = s.cold.but as := (foldl_but _ (fun s k => by simp) _ _).trans h1
  refine (Cold.but_power _ _ hp).trans ((foldl_but _ (fun s w => s.repairRow_but hd _ _) _ _).trans h2)

theorem State.thermalSample_but (s : State) (pairs : List PairReading) (temps : List Nat) (hc : Area.coarse ∈ as) :
    (s.thermalSample pairs temps).cold.but as = s.cold.but as := by
  have power : ∀ (u : State) p, ({ u with power := p } : State).cold.but as = u.cold.but as := fun u p => Cold.but_power u.cold p hp
  have stage : ∀ (u : State) n, (u.toStage n).cold.but as = u.cold.but as := fun u n => by
    unfold State.toStage
    extract_lets old p s1 s2
    have h2 : s2.cold.but as = u.cold.but as := (congrArg (Cold.but as) (s1.event_cold _ _ _ _)).trans (power u _)
    rw [← h2]
    exact ite_but (by simp) rfl
  have step : ∀ u : State, u.stageStep.cold.but as = u.cold.but as := fun u =>
    ite_but (stage u _) (ite_but (ite_but (stage u _) (power u _)) (power u _))
  have read : ∀ u : State, u.readPower.cold.but as = u.cold.but as := fun u =>
    ite_but (power u _) ((Cold.but_coarse _ _ hc).trans (power u _))
  unfold State.thermalSample
  refine ite_but rfl ?_
  extract_lets old s1 s2
  have h2 : s2.cold.but as = s.cold.but as := (congrArg (Cold.but as) (State.sensorEvents_cold _ _)).trans ((read s1).trans (power s _))
  rw [← h2]
  split
  · exact (Cold.but_boot _ _ hb).trans ((power _ _).trans (congrArg (Cold.but as) (s2.event_cold _ _ _ _)))
  · exact step s2

end

/-! ### Commands -/

/-- Around its own effect a served command leaves the cold part alone. -/
theorem State.serve_but (s : State) (conn : Nat) (roles : List Nat) (before : Bool) (k : State → Conn → State)
    (hk : ∀ t c, (k t c).cold.but as = t.cold.but as) : (s.serve conn roles before k).cold.but as = s.cold.but as :=
  s.serve_keeps (m := fun s => s.cold.but as) _ _ _ _ rfl (fun _ _ => rfl) hk

theorem State.takeFrame_but (s : State) (link : Nat) (fr : Frame) (v : Nat) (kinds : List Nat) (payload : Nat) (answer : Bool)
    (k : State → Port → State) (hk : ∀ t p, (k t p).cold.but as = t.cold.but as) :
    (s.takeFrame link fr v kinds payload answer k).cold.but as = s.cold.but as := by
  unfold State.takeFrame
  refine live_keeps (m := fun s => s.cold.but as) ?_
  split
  · rfl
  · refine ite_but rfl (ite_but (by simp) (ite_but (by simp) (ite_but (by simp) ?_)))
    dsimp only
    refine ite_but ?_ (ite_but (by simp) ((hk _ _).trans rfl))
    (repeat' split) <;> simp

theorem State.withReq_but (s : State) (id : Nat) (g : State → Req → State) (h : ∀ s r, (g s r).cold.but as = s.cold.but as) :
    (s.withReq id g).cold.but as = s.cold.but as := by
  refine live_keeps (m := fun s => s.cold.but as) ?_
  split
  · exact h _ _
  · rfl

end

end Sys2Proof.Machine
end

section
/-! SUPPORT. Transfers of near-memory operations (R193 to R195), in what they read on their way: pages one by one, until one is still to come
or cannot be read. -/

namespace Sys2Proof.Machine

section
variable {β : Type} {m : State → β}

/-- What the operations that read a page keep, the read of one keeps. -/
theorem State.readSlot_keeps (load : ∀ s q v b, m (State.loadBlock s q v b) = m s) (ask : ∀ s r q v d l, m (State.askSlots s r q v d l) = m s)
    (fail : ∀ s r q v l b st es, m (State.pageFailed s r q v l b st es) = m s) (stage : ∀ (s : State) l, m { s with staging := l } = m s)
    (ripen : ∀ s b l n, m (State.ripen s b l n) = m s)
    (req : ∀ s i g, (∀ r : Req, (g r).id = r.id ∧ (g r).desc = r.desc) → m (State.modReq s i g) = m s)
    (s : State) (r : Req) (i b layer : Nat) : m (s.readSlot r i b layer).1 = m s := by
  unfold State.readSlot
  extract_lets r'
  split
  · rfl
  · split
    · rfl
    · extract_lets s1
      rw [← load s]
      split
      · exact ask _ _ _ _ _ _
      · exact fail _ _ _ _ _ _ _ _
      · refine (req _ _ _ fun _ => by exact ⟨rfl, rfl⟩).trans ((ripen _ _ _ _).trans ?_)
        exact option_elim_keeps _ fun c => stage _ _

theorem State.readSlots_keeps (h : ∀ s r i b l, m (State.readSlot s r i b l).1 = m s) (id : Nat) (l : List (Nat × Nat × Nat)) (s : State) :
    m (State.readSlots id l s).1 = m s := by
  induction l generalizing s with
  | nil => rfl
  | cons x rest ih =>
    obtain ⟨i, b, layer⟩ := x
    unfold State.readSlots
    split
    · rfl
    · next r _ =>
      have e := h s r i b layer
      split <;> next hx => rw [hx] at e; first | exact (ih _).trans e | exact e

/-- What reads of pages and the end of a request keep, and the operation's result keeps, the end of its transfer keeps. -/
theorem State.nearTransfer_keeps (slot : ∀ s r i b l, m (State.readSlot s r i b l).1 = m s)
    (fault : ∀ s r a b c, m (State.faultReq s r a b c) = m s) (s : State) (r : Req) (ok : Bool) (data : Bytes)
    (result : ∀ u r', State.readSlots r.id r.slotsLeft s = (u, none) → u.req? r.id = some r' → m (u.nearResult r' r'.data data) = m u) :
    m (s.nearTransfer r ok data) = m s := by
  have e := State.readSlots_keeps slot r.id r.slotsLeft s
  unfold State.nearTransfer
  refine ite_keeps rfl (ite_keeps (fault _ _ _ _ _) (ite_keeps (fault _ _ _ _ _) ?_))
  split
  · next hx =>
    rw [hx] at e
    exact (fault _ _ _ _ _).trans e
  · next u hx =>
    rw [hx] at e
    rw [← e]
    split
    · rfl
    · next r' hr => exact ite_keeps rfl (result u r' hx hr)

end

end Sys2Proof.Machine
end

section
/-! SUPPORT. What a command may change of the cold part: one case split over the commands (R201 to R392). -/

namespace Sys2Proof.Machine

section
variable {as : List Area}

theorem ite_cold {p : Prop} [Decidable p] {a b s : State} (ha : a.cold = s.cold) (hb : b.cold = s.cold) : (if p then a else b).cold = s.cold :=
  ite_keeps (m := State.cold) ha hb

theorem State.directWrite_but (hb : Area.directBad ∈ as) (s : State) (a : Nat) (data : Bytes) :
    (s.directWrite a data).cold.but as = s.cold.but as := Cold.but_directBad s.cold _ hb

theorem State.nearResult_but (hb : Area.directBad ∈ as) (s : State) (r : Req) (pages data : Bytes) :
    (s.nearResult r pages data).cold.but as = s.cold.but as := by
  have put : ∀ o data fl, (s.putDest r o data fl).cold.but as = s.cold.but as := fun o data fl => by
    unfold State.putDest
    split
    · simp
    · exact ite_but (by simp) (by simp [State.directWrite_but hb])
    · split <;> simp
  unfold State.nearResult
  dsimp only
  split
  · exact put _ _ _
  · exact put _ _ _
  · simp
  · split
    · rfl
    · exact put _ _ _

theorem State.checkedTransfer_but (hb : Area.directBad ∈ as) (s : State) (r : Req) (ok : Bool) (check : SelfCheck) (data : Bytes) :
    (s.checkedTransfer r ok check data).cold.but as = s.cold.but as := by
  have slot := State.readSlot_keeps (m := State.cold) (by simp) (by simp) (by simp) (fun _ _ => rfl) (by simp) (fun _ _ _ _ => rfl)
  have near : ∀ u : State, (u.nearTransfer r ok data).cold.but as = u.cold.but as := fun u =>
    u.nearTransfer_keeps (m := fun s => s.cold.but as) (fun s r i b l => congrArg (Cold.but as) (slot s r i b l))
      (fun _ _ _ _ _ => by simp) r ok data fun u r' _ _ => u.nearResult_but hb r' _ _
  unfold State.checkedTransfer
  split
  · split <;> simp
  · rw [← State.hashCheck_cold s check (r.hashesNow ok)]
    unfold State.transferEnd
    refine ite_but (by simp) (ite_but rfl ?_)
    split
    case h_8 | h_9 | h_10 | h_11 | h_12 | h_13 => exact near _
    all_goals simp

theorem State.cxlRead_but (hb : Area.directBad ∈ as) (hv : Area.viral ∈ as) (s : State) (line : Nat) (ok viral : Bool) :
    (s.cxlRead line ok viral).cold.but as = s.cold.but as := by
  refine ite_but rfl ?_
  unfold State.cxlFails
  rw [State.note_cold]
  exact (Cold.but_viral _ _ hv).trans (Cold.but_directBad s.cold _ hb)

theorem State.cxlWrite_but (hb : Area.directBad ∈ as) (s : State) (line : Nat) (data : Bytes) :
    (s.cxlWrite line data).cold.but as = s.cold.but as := by
  refine ite_but rfl (ite_but ?_ (s.directWrite_but hb _ _))
  unfold State.cxlFails
  rw [State.note_cold, Bool.or_false]
  rfl

end

/-- The one split over the commands: an area of the cold part changes by the commands that list it, and by full resets. -/
theorem exec_but {c : Instr} {s t : State} (h : exec c s = .next t) (hc : c.carriesReset = false) :
    t.cold.but c.changes = s.cold.but c.changes := by
  cases c
  case cxlMemRead line ok viral =>
    have h : execCxlMemRead line ok viral s = .next t := h
    unfold execCxlMemRead at h
    (repeat' split at h) <;> cases h
    · rfl
    · exact s.cxlRead_but (by simp [Instr.changes]) (by simp [Instr.changes]) _ _ _
    · rfl
  case cxlMemWrite line data =>
    have h : execCxlMemWrite line data s = .next t := h
    unfold execCxlMemWrite at h
    (repeat' split at h) <;> cases h
    · rfl
    · exact s.cxlWrite_but (by simp [Instr.changes]) _ _
    · rfl
  all_goals cases h
  -- no command that carries a full reset is left
  all_goals cases hc
  -- the schedulers, power and clocks, by their frames
  case timePageUpdate =>
    exact live_keeps (m := fun s => s.cold.but _) (congrArg (fun u => u.cold.but [.timePage, .coarse]) (s.updateTime_timeFrame s) :)
  case thymeWheelTick n =>
    exact live_keeps (m := fun s => s.cold.but _) (congrArg (fun u => u.cold.but [.egress]) (s.wheelTick_wheelFrame n s) :)
  case gateEntryBoundary n =>
    exact live_keeps (m := fun s => s.cold.but _) (congrArg (fun u => u.cold.but [.egress]) (s.gateBoundary_gateFrame n s) :)
  case railFault n => exact (congrArg (fun u => u.cold.but [.boot, .power]) (s.railFault_stopFrame n s) :)
  case holdoverExpiry => exact (congrArg (fun u => u.cold.but [.boot, .power]) (s.holdoverEnds_stopFrame s) :)
  case avsRetry ack => exact (congrArg (fun u => u.cold.but [.power]) (s.avsRetry_avsFrame ack s) :)
  case refclkSwitchover => exact (congrArg (fun u => u.cold.but [.power]) (s.switchover_switchFrame s) :)
  case clockMonitorWindow a b => exact (congrArg (fun u => u.cold.but [.boot, .power, .time]) (s.clockWindow_windowFrame a b s) :)
  case resetNRelease pri sec =>
    exact ite_but (congrArg (fun u => u.cold.but [.boot, .power, .time]) (s.release_windowFrame (!pri) (!sec) s) :) rfl
  case thermalSample => exact s.thermalSample_but (by simp [Instr.changes]) (by simp [Instr.changes]) _ _ (by simp [Instr.changes])
  -- the boot and updates
  case imageCheckEnd => exact s.imageEnd_but (by simp [Instr.changes]) _ _
  case hbmTrainingEnd =>
    exact s.hbmTrained_but (by simp [Instr.changes]) (by simp [Instr.changes]) _ _ (by simp [Instr.changes]) (by simp [Instr.changes])
  case memorySetupEnd =>
    exact s.serviceBegins_but (by simp [Instr.changes]) (by simp [Instr.changes]) (by simp [Instr.changes]) (by simp [Instr.changes])
  case imageActivate => exact s.serve_but _ _ _ _ fun t _ => t.activate_but (by simp [Instr.changes]) _ (by simp [Instr.changes])
  case imageCancel => exact s.serve_but _ _ _ _ fun t _ => t.cancel_but (by simp [Instr.changes]) _ (by simp [Instr.changes])
  -- partial resets
  case resetPartialFunction | resetPartialModuleGroup | resetPartialLinkCluster | resetPartialEngineCluster =>
    exact s.serve_but _ _ _ _ fun t _ => ite_but (t.beginPartial_but _ _ _ (by simp [Instr.changes]) (by simp [Instr.changes])) (by simp)
  case moduleGroupLinkLoss =>
    exact live_keeps (m := fun s => s.cold.but _) (ite_but (s.beginPartial_but _ _ _ (by simp [Instr.changes]) (by simp [Instr.changes])) rfl)
  case partialResetEnd => exact live_keeps (m := fun s => s.cold.but _) (s.partialEnd_but _ _ (by simp [Instr.changes]))
  -- tenants
  case tenantRemove => exact s.serve_but _ _ _ _ fun t _ => t.removeCmd_but (by simp [Instr.changes]) _ _
  case tenantRestore => exact s.serve_but _ _ _ _ fun t _ => t.restoreCmd_but (by simp [Instr.changes]) _ _ (by simp [Instr.changes])
  case debugUnlock => exact s.serve_but _ _ _ _ fun t _ => t.unlock_but (by simp [Instr.changes]) _ _
  case tenantRemovalDrained => exact live_keeps (m := fun s => s.cold.but _) (s.removalDrained_but (by simp [Instr.changes]) _)
  case tenantRemoved => exact live_keeps (m := fun s => s.cold.but _) (s.tenantGone_but (by simp [Instr.changes]) _)
  case reclaimSweepEnd => exact live_keeps (m := fun s => s.cold.but _) (s.reclaimEnds_but (by simp [Instr.changes]) _)
  -- lanes and links
  case linkTrainingEnd => exact live_keeps (m := fun s => s.cold.but _) (s.trainingEnd_but _ _ _ _ (by simp [Instr.changes]))
  case laneFailure | laneShort => exact live_keeps (m := fun s => s.cold.but _) (s.laneFails_but _ _ _ (by simp [Instr.changes]))
  case epoch => exact s.takeFrame_but _ _ _ _ _ _ _ fun t _ => t.onEpoch_but _ _ (by simp [Instr.changes])
  -- on-package memory
  case refresh | refreshManagementRequest =>
    exact live_keeps (m := fun s => s.cold.but _) (s.modStack_but (by simp [Instr.changes]) _ _)
  case patrolScrub =>
    exact live_keeps (m := fun s => s.cold.but _)
      (s.lineRead_but (by simp [Instr.changes]) (by simp [Instr.changes]) (by simp [Instr.changes]) _ _ _ _)
  case stackLost | hbmRefclkMissing =>
    exact live_keeps (m := fun s => s.cold.but _) (s.loseStack_but (by simp [Instr.changes]) (by simp [Instr.changes]) _)
  case arbiterFault =>
    exact live_keeps (m := fun s => s.cold.but _) (s.arbiterFault_but (by simp [Instr.changes]) (by simp [Instr.changes]) _ _)
  case evacuationEnd => exact live_keeps (m := fun s => s.cold.but _) (s.evacuationEnd_but (by simp [Instr.changes]) _)
  case rebuildMetadataEnd => exact live_keeps (m := fun s => s.cold.but _) (s.rebuildEnd_but (by simp [Instr.changes]) _)
  -- commands that read stored data
  case dmaTransferEnd =>
    exact (State.withReq_but _ _ _ fun t r => t.checkedTransfer_but (by simp [Instr.changes]) r _ _ _).trans
      (s.readFaults_but (by simp [Instr.changes]) (by simp [Instr.changes]) (by simp [Instr.changes]) _)
  case readAndRekeyEnd =>
    exact (State.withReq_but _ _ _ fun t r => by simp).trans
      (s.readFaults_but (by simp [Instr.changes]) (by simp [Instr.changes]) (by simp [Instr.changes]) _)
  case walkBlock | passResume | copyVerify =>
    exact (congrArg (Cold.but _) (State.live_cold _ _ fun _ => by simp)).trans
      (s.readFaults_but (by simp [Instr.changes]) (by simp [Instr.changes]) (by simp [Instr.changes]) _)
  case pageGet =>
    have faults : ∀ (t : State) found, (t.readFaults found).cold.but [.directBad, .dram, .groups] = t.cold.but [.directBad, .dram, .groups] :=
      fun t found => t.readFaults_but (by simp) (by simp) (by simp) found
    exact s.takeFrame_but _ _ _ _ _ _ _ fun t p =>
      ite_but (by rw [State.trayPage_cold]; exact faults t _) (ite_but rfl (by rw [State.servePage_cold]; exact faults t _))
  case eventRecordWrite => exact (congrArg (fun u => u.cold.but []) (s.recordEvent_recorderFrame s) :)
  -- the commands that choose among operations that leave the cold part alone
  all_goals refine congrArg (Cold.but _) ?_
  case curdOffer | curdWindowEnd | curdLatestClose | queryBlockArrival | partEnd | curdPassEnd =>
    exact State.live_cold _ _ fun _ => elim_cold_of rfl fun _ => by simp
  case controlCheckpoint => exact State.live_cold _ _ fun _ => rfl
  case prefetchArrival | addCapacity | destage | poolCxlMemAccess => exact State.live_cold _ _ fun _ => ite_cold (by simp) (by simp)
  case releaseCapacity =>
    refine State.live_cold _ _ fun _ => ite_cold (by simp) ?_
    split <;> simp
  case forcedCapacityRelease =>
    refine State.live_cold _ _ fun _ => ?_
    split <;> simp
  case drbgHealthFailure | drbgRetestPass => exact ite_cold (by simp) rfl
  case config => exact ite_cold (State.takeFrame_cold _ _ _ _ _ _ _ _ fun _ _ => rfl) (by simp)
  case credit => exact State.takeFrame_cold _ _ _ _ _ _ _ _ fun _ _ => rfl
  case dirAttach | dirRelease | dirWithdrawn | withdrawNotice | extentDone | nmo =>
    exact State.takeFrame_cold _ _ _ _ _ _ _ _ fun _ _ => ite_cold (by simp) (by simp)
  case dirPublish | dirLookup =>
    exact State.takeFrame_cold _ _ _ _ _ _ _ _ fun _ _ => ite_cold (ite_cold (by simp) rfl) (by simp)
  case extentRelease | recallDone =>
    refine State.takeFrame_cold _ _ _ _ _ _ _ _ fun _ _ => ?_
    split <;> simp
  case regionRead | regionWrite =>
    refine State.takeFrame_cold _ _ _ _ _ _ _ _ fun _ _ => ?_
    split
    · simp
    · exact ite_cold rfl (by simp)
  -- the others run one operation, whose own lemma says that it leaves the cold part alone
  all_goals simp

end Sys2Proof.Machine
end

section
/-! CLAIMS. The statement about the cold part of the state. -/

namespace Sys2Proof.Machine

/-- Settles O6: from `exec_but`, the split over the commands. -/
theorem coldAreasStand : Obligations.ColdAreasStand := by
  unfold Obligations.ColdAreasStand
  exact fun c s t h hr a ha hn => same_of_but (exec_but h hr) ha hn

end Sys2Proof.Machine
end

section
/-! SUPPORT. The direct region: a command on a line that is served, and a line that fails (R197 to R201). -/

namespace Sys2Proof.Machine

section
variable {s : State} {line : Nat} (hs : s.inService = true) (hl : line < s.directLines) (hu : s.directUp = true)
include hs hl hu

theorem exec_cxlMemWrite_served (data : Bytes) : exec (.cxlMemWrite line data) s = .next (s.cxlWrite line data) := by
  show execCxlMemWrite line data s = _
  rw [execCxlMemWrite, if_neg (by simp [hs]), if_neg (Nat.not_le.mpr hl), if_pos hu]

theorem exec_cxlMemRead_served (ok viral : Bool) : exec (.cxlMemRead line ok viral) s = .next (s.cxlRead line ok viral) := by
  show execCxlMemRead line ok viral s = _
  rw [execCxlMemRead, if_neg (by simp [hs]), if_neg (Nat.not_le.mpr hl), if_pos hu]

end

/-- A failing line is reported with an error, and changes nothing of the region (R201). -/
theorem State.cxlFails_reports (s : State) (line : Nat) (viral : Bool) :
    Output.cxlError line ∈ (s.cxlFails line viral).out ∧ (s.cxlFails line viral).direct = s.direct ∧
      (s.cxlFails line viral).directBad = s.directBad ∧ (s.cxlFails line viral).viral = (s.viral || viral) := by
  unfold State.cxlFails
  obtain ⟨q, h⟩ := State.note_eq (({ s with viral := s.viral || viral } : State).emit (.cxlError line)) "DIRECT_LINE_FAILED"
    (evSource 6 (s.params.directGroup * 4 + s.params.directModule)) line
  rw [h]
  exact ⟨List.mem_cons_self, rfl, rfl, rfl⟩

/-- A line in a sector that can be read has not failed (R199, R305). -/
theorem State.good_of_not_blocked {s : State} {line : Nat} (h : s.directBlocked (64 * line) 64 = false) : line ∉ s.directBad := by
  intro hm
  have hx := List.any_eq_false.mp h line hm
  simp only [Bool.and_eq_true, Bool.not_eq_true', decide_eq_true_eq, decide_eq_false_iff_not] at hx
  omega

end Sys2Proof.Machine
end

section
/-! CLAIMS. CXL.mem on the direct region. -/

namespace Sys2Proof.Machine

/-- Settles O43: a command on a line that is served is one write or one read, each with its own lemma. -/
theorem directRegionCompletes : Obligations.DirectRegionCompletes := by
  unfold Obligations.DirectRegionCompletes
  intro s line hs hl hu
  refine ⟨fun hk => ⟨fun data hb => ?_, fun data hb => ?_, fun viral hb => ?_⟩, fun viral => ?_⟩
  · refine ⟨_, exec_cxlMemWrite_served hs hl hu data, ?_⟩
    rw [State.cxlWrite, if_neg (by simp [hk]), if_neg (by simp [hb])]
    exact ⟨rfl, fun hm => State.good_of_not_blocked hb (List.mem_of_mem_filter hm), List.mem_cons_self⟩
  · refine ⟨_, exec_cxlMemWrite_served hs hl hu data, ?_⟩
    rw [State.cxlWrite, if_neg (by simp [hk]), if_pos hb]
    obtain ⟨error, direct, bad, -⟩ := s.cxlFails_reports line false
    exact ⟨direct, bad, error⟩
  · refine ⟨_, exec_cxlMemRead_served hs hl hu true viral, ?_⟩
    rw [State.cxlRead, if_pos (by rw [hk, hb]; rfl)]
  · refine ⟨_, exec_cxlMemRead_served hs hl hu false viral, ?_⟩
    rw [State.cxlRead, if_neg (by simp), if_neg (by simp)]
    obtain ⟨error, direct, bad, vir⟩ := State.cxlFails_reports { s with directBad := line :: s.directBad.filter (· != line) } line viral
    exact ⟨error, by rw [bad]; exact List.mem_cons_self, vir, direct⟩

end Sys2Proof.Machine
end

section
/-! SUPPORT. The wheel's tick and the selector it runs (R240 to R242). -/

namespace Sys2Proof.Machine

theorem mapIf_eq_map {α : Type} {p : α → Bool} {g : α → α} {q : α → Prop} [DecidablePred q] (h : ∀ a, p a = decide (q a)) (l : List α) :
    mapIf p g l = l.map fun a => if q a then g a else a :=
  List.map_congr_left fun a _ => by rw [h]; simp

/-- An egress point brought up to `now`: its queues ticked, its tick recorded. -/
def State.caughtUp (s : State) (e : Egress) : State :=
  { s with queues := s.queues.map fun q => if q.cfg.egress = e.n then q.tick e s.now else q
           egress := mapIf (fun x => x.n == e.n) (fun x => { x with served := s.now }) s.egress }

section
variable {s : State} {e : Egress} (he : (s.egress.find? fun x => x.n == e.n) = some e)
include he

theorem State.wheelTick_eq : s.wheelTick e.n = if s.now < e.busy then s.caughtUp e else (s.caughtUp e).select e := by
  rw [State.wheelTick, he, State.caughtUp, ← mapIf_eq_map (p := fun q : Queue => q.cfg.egress == e.n) (fun _ => rfl)]

theorem State.caughtUp_egress : ((s.caughtUp e).egress.find? fun x => x.n == e.n) = some { e with served := s.now } := by
  have h := find?_mapIf (key := Egress.n) (k := e.n) (g := fun x => { x with served := s.now }) (fun _ hx => hx) s.egress
  rw [he] at h
  exact h

end

/-- The strict and weighted modes serve the queue that the wheel picks (R240, R241). -/
theorem State.select_weighted {s : State} {e : Egress} {q : Queue} (hm : e.mode = 0)
    (hq : s.pickWeighted e (s.queues.filter fun q => s.canSend e q) = some q) : s.select e = s.serveQueue e q := by
  rw [State.select]
  dsimp only
  rw [if_neg (by omega), hq]

theorem State.serveQueue_egress {s : State} {e x : Egress} (q : Queue) (hx : (s.egress.find? fun x => x.n == e.n) = some x) :
    ∃ y, ((s.serveQueue e q).egress.find? fun x => x.n == e.n) = some y ∧ y.busy = s.now + s.sendTicks e.n q.head ∧ y.pointer = q.order + 1 := by
  have h : ((s.serveQueue e q).egress.find? fun x => x.n == e.n) = _ := find?_mapIf (key := Egress.n) (k := e.n) (by exact fun _ hx => hx) s.egress
  rw [hx] at h
  exact ⟨_, h, rfl, rfl⟩

end Sys2Proof.Machine
end

section
/-! CLAIMS. Time and scheduling. -/

namespace Sys2Proof.Machine

/-- Settles O55: each command runs its operation while the controller is in service. -/
theorem schedulingCommandsComplete : Obligations.SchedulingCommandsComplete := by
  unfold Obligations.SchedulingCommandsComplete
  intro s hs
  refine ⟨leaves_of_live rfl hs ?_, fun e he hb => leaves_of_live rfl hs ?_, fun e q he hb hm hq => leaves_of_live rfl hs ?_,
    fun n g p hg hp => leaves_of_live rfl hs ?_, fun hn => leaves_of_live rfl hs ?_⟩
  · rw [State.updateTime]
    dsimp only
    split <;> exact ⟨rfl, rfl⟩
  · rw [State.wheelTick_eq he, if_pos hb]
    exact ⟨State.caughtUp_egress he, rfl⟩
  · rw [State.wheelTick_eq he, if_neg (Nat.not_lt.mpr hb), State.select_weighted (s := s.caughtUp e) hm hq]
    exact State.serveQueue_egress q (State.caughtUp_egress he)
  · rw [State.gateBoundary, hg]
    dsimp only
    rw [hp]
    exact mapIf_eq_map (fun _ => rfl) _
  · exact if_neg (not_not.mpr hn)

end Sys2Proof.Machine
end

section
/-! SUPPORT. The function lifecycle: what attach, detach, fence, aborts and aperture words leave of the function they reach. -/

namespace Sys2Proof.Machine

/-! ### Functions and their slots -/

/-- What keeps the windows keeps the function but for its rings and its failures. -/
theorem State.fn?_of_windows {s t : State} {n : Nat} {f : Fn} (h : t.windows = s.windows) (hf : s.fn? n = some f) :
    ∃ g, t.fn? n = some g ∧ g.bare = f.bare := by
  have bare : ∀ u : State, (u.fn? n).map Fn.bare = u.windows.find? fun f => f.fn == n := fun u => by
    rw [State.windows, List.find?_map]
    rfl
  have hg : (t.fn? n).map Fn.bare = some f.bare := by rw [bare, h, ← bare, hf]; rfl
  exact Option.map_eq_some_iff.mp hg

/-- No slot is taken where the function has no stamp standing (R184). -/
theorem State.takeAllSlots_idle {s : State} {n : Nat} {f : Fn} (hf : s.fn? n = some f) (hs : f.stamped = []) (m : Nat) :
    State.takeAllSlots m s n = s := by
  cases m with
  | zero => rfl
  | succ m =>
    have none : f.submittedAt f.k = none := by simp [Fn.submittedAt, Fn.stampAt, hs]
    rw [State.takeAllSlots, hf]
    dsimp only
    rw [none]
    exact ite_self s

/-- The request that admission accepts is of the function and has the command's descriptor. -/
theorem State.admits_req {s u : State} {sub : Sub} {d : Desc} {f : Fn} {r : Req} (h : s.admits sub d = some (u, f, r)) :
    r.desc = normDesc f.version d ∧ r.fn = f.fn := by
  unfold State.admits at h
  split at h
  · cases h
  · next g hg =>
    extract_lets long r0 u0 r1 at h
    split at h
    · cases h
    · split at h
      · obtain ⟨hf, hr⟩ := Prod.mk.inj (Prod.mk.inj (Option.some.inj h)).2
        rw [← hf, ← hr]
        exact ⟨rfl, rfl⟩
      · split at h
        · obtain ⟨hf, hr⟩ := Prod.mk.inj (Prod.mk.inj (Option.some.inj h)).2
          rw [← hf, ← hr]
          constructor <;> (unfold r1; split <;> rfl)
        · cases h

/-! ### Attach, detach and fence (R180, R212 to R214, R219) -/

section
variable {s : State} {sub : Sub} {f : Fn} (hs : s.inService = true) (ht : s.isTray = false) (hu : s.faults.groupsUp.contains sub.group = true)
  (hf : s.fn? sub.fn = some f) (hg : f.group = sub.group)
include hs ht hu hf hg

/-- An ATTACH_FUNCTION in slot 0 of a window in attach mode is taken (R180). -/
theorem State.submit_attach (a : AttachFnF) (hm : f.code = .unattached ∨ f.code = .draining) (hq : sub.seq = 0) (hp : sub.phase = 0) :
    s.submit sub (.attachFn a) = s.takeAttach f sub.tag a := by
  have mode : f.attachMode = true := by
    rcases hm with h | h <;> simp [Fn.attachMode, h]
  unfold State.submit
  rw [State.aperture_reached _ hs ht hf hu hg (by rcases hm with h | h <;> simp [h]), if_pos mode]
  exact if_pos ⟨hq, hp⟩

end

/-- The record of an attach is at position 0 of its ring (R203). -/
theorem State.attachRecord_completes {s : State} {n attach : Nat} {f : Fn} {g : Ring} (hf : s.fn? n = some f) (hg : g ∈ f.rings)
    (ha : g.attach = attach) (tag status result : Nat) :
    ∃ c, Output.completion c ∈ (s.attachRecord n attach tag status result).out ∧ c.fn = n ∧ c.attach = attach ∧ c.c = 0 ∧ c.status = status ∧
      c.opcode = 0x01 ∧ c.tag = tag := by
  have found : (f.rings.find? fun g => g.attach == attach).isSome = true := List.find?_isSome.mpr ⟨g, hg, by simp [ha]⟩
  obtain ⟨x, hx⟩ := Option.isSome_iff_exists.mp found
  have hxa : x.attach = attach := by simpa using List.find?_some hx
  unfold State.attachRecord
  rw [hf]
  dsimp only [Option.bind_some]
  rw [hx]
  exact ⟨_, List.mem_cons_self, rfl, hxa, rfl, rfl, rfl, rfl⟩

theorem State.attachRecord_fn? (s : State) (n attach tag status result m : Nat) : (s.attachRecord n attach tag status result).fn? m = s.fn? m := by
  unfold State.attachRecord
  split <;> rfl

/-- A function with the layout of an accepted attach (R180, R212). -/
def Fn.attached (f : Fn) (a : AttachFnF) (id group : Nat) (code : FnCode) (held : Option HeldAttach) : Fn :=
  { f with code := code, version := a.version, attach := id, k := 0, early := [], stamped := [], abortCount := 0,
           rings := f.rings ++ [{ attach := id, group := group, base := a.ringBase, log2 := a.ringLog2, next := 1 }], held := held }

theorem State.takeAttach_eq {s : State} {f : Fn} {a : AttachFnF} (h : s.attachCheck f a = none) (tag : Nat) :
    s.takeAttach f tag a =
      if f.code = .unattached then
        (s.bumpId.modFn f.fn fun x => x.attached a s.ids f.group .ready none).attachRecord f.fn s.ids tag stOk (resAttach 0 a.version)
      else
        s.bumpId.modFn f.fn fun x =>
          x.attached a s.ids f.group .drainingHeld (some { attach := s.ids, version := a.version, tag := tag, tick := s.now }) := by
  unfold State.takeAttach
  rw [h]
  rfl

/-- A shutdown begins with the function in attach mode and its old attachment remembered (R213). -/
theorem State.beginShutdown_draining {s : State} {f g : Fn} (hg : s.fn? f.fn = some g) (tag slotSeq mode : Nat) (record : Bool) :
    ∃ h, (s.beginShutdown f tag slotSeq mode record).fn? f.fn = some h ∧ h.code = .draining ∧ h.version = 0 ∧ h.stamped = [] ∧
      h.shutdown = some { attach := f.attach, tag := tag, slotSeq := slotSeq, mode := mode, tick := s.now, record := record } := by
  unfold State.beginShutdown
  extract_lets sd s1
  have h1 : s1.fn? f.fn = _ := State.fn?_modFn _ (by exact fun _ => rfl) hg
  have hw : (if mode = 0 then s1 else s1.endAll (s1.abortable f.fn fun r => r.attach == f.attach) stAborted).windows = s1.windows :=
    ite_keeps (m := State.windows) rfl (State.endAll_windows _ _ _)
  obtain ⟨h, hh, hb⟩ := State.fn?_of_windows hw h1
  exact ⟨h, hh, (congrArg Fn.code hb :), (congrArg Fn.version hb :), (congrArg Fn.stamped hb :), (congrArg Fn.shutdown hb :)⟩

/-- After its grace a shutdown of mode 0 goes on as one of mode 1 (R213). -/
theorem State.drainGrace_ends {s : State} {n : Nat} {f : Fn} {d : Shutdown} (hf : s.fn? n = some f) (hd : f.shutdown = some d) (hm : d.mode = 0)
    (hk : d.tick + 14100 ≤ s.now) : ∃ g, (s.drainGrace n).fn? n = some g ∧ g.shutdown = some { d with mode := 1 } := by
  unfold State.drainGrace
  rw [hf, Option.bind_some, hd]
  dsimp only
  rw [if_pos ⟨hm, hk⟩]
  obtain ⟨g, hg, hb⟩ := State.fn?_of_windows (State.endAll_windows _ _ _) 
    (State.fn?_modFn (fun f => { f with shutdown := some { d with mode := 1 } }) (fun _ => rfl) hf)
  exact ⟨g, hg, (congrArg Fn.shutdown hb :)⟩

/-- The end of a shutdown leaves no ring of the old attachment, and the function unattached or ready for its held attach (R213, R214). -/
theorem State.shutdownEnd_ends {s : State} {n : Nat} {f : Fn} {d : Shutdown} (hf : s.fn? n = some f) (hd : f.shutdown = some d)
    (hn : ∀ r ∈ s.reqs, r.fn = n → r.attach ≠ d.attach) :
    ∃ g, (s.shutdownEnd n).fn? n = some g ∧ g.shutdown = none ∧ g.code = (if f.held.isSome then .ready else .unattached) ∧
      ∀ x ∈ g.rings, x.attach ≠ d.attach := by
  have idle : ¬ (s.reqs.any fun r => r.fn == n && r.attach == d.attach) = true := by simpa using hn
  have rings : ∀ l : List Ring, ∀ x ∈ l.filter fun g => g.attach != d.attach, x.attach ≠ d.attach := fun l x hx => by
    simpa using (List.mem_filter.mp hx).2
  unfold State.shutdownEnd
  rw [hf]
  dsimp only
  rw [hd]
  dsimp only
  rw [if_neg idle]
  have hw : (if d.record then s.record n d.attach 0x02 d.slotSeq d.tag stOk 0 {} else s).windows = s.windows :=
    ite_keeps (m := State.windows) (State.record_windows _ _ _ _ _ _ _ _ _) rfl
  obtain ⟨f', hf', -⟩ := State.fn?_of_windows hw hf
  have hx := State.fn?_modFn (fun f => { f with shutdown := none, rings := f.rings.filter fun g => g.attach != d.attach }) (fun _ => rfl) hf'
  split
  · next h =>
    exact ⟨_, State.fn?_modFn _ (by exact fun _ => rfl) hx, rfl, by simp [h], rings _⟩
  · next x h =>
    exact ⟨_, State.fn?_modFn _ (by exact fun _ => rfl) ((State.attachRecord_fn? _ _ _ _ _ _ _).trans hx), rfl, by simp [h], rings _⟩

/-- A FENCE that is taken stands with its count, and is the predecessor of the next (R219). -/
theorem State.beginFence_stands {s : State} {r : Req} {g : Fn} (hg : s.fn? r.fn = some g) (hr : r ∈ s.reqs) (a : FenceF) :
    (∃ h, (s.beginFence r a).fn? r.fn = some h ∧ h.lastFence = r.id ∧ h.fails = []) ∧
      (∃ x ∈ (s.beginFence r a).reqs, x.id = r.id ∧ x.phase = .fencing) ∧
      ∃ c ∈ (s.beginFence r a).fences, c.req = r.id ∧ c.after = g.lastFence ∧ c.seq = if a.mode = 1 then some a.seq else none := by
  unfold State.beginFence
  rw [hg]
  refine ⟨⟨_, State.fn?_modFn _ (by exact fun _ => rfl) hg, rfl, rfl⟩,
    ⟨{ r with phase := .fencing }, List.mem_map.mpr ⟨r, hr, if_pos (beq_self_eq_true _)⟩, rfl, rfl⟩,
    ⟨_, List.mem_append_right _ List.mem_cons_self, rfl, rfl, rfl⟩⟩

/-- The end of a FENCE that covers no outstanding request (R219). -/
theorem State.fenceComplete_eq {s : State} {id : Nat} {r : Req} {c : FenceCount} (hr : s.req? id = some r)
    (hc : (s.fences.find? fun c => c.req == id) = some c)
    (hw : ∀ x ∈ s.reqs, x.fn = c.fn → x.id < id → ∃ h, c.seq = some h ∧ h ∉ namesOf x.desc) :
    s.fenceComplete id = { s.finish r stOk (resFailed c.failed) with fences := s.fences.filter fun x => x.req != id } := by
  unfold State.fenceComplete
  rw [hr, hc]
  refine if_neg ?_
  simp only [List.any_eq_true, Bool.and_eq_true, beq_iff_eq, decide_eq_true_eq, not_exists, not_and]
  intro x hx hfn hid
  obtain ⟨h, hs, hn⟩ := hw x hx hfn.1 hfn.2
  rw [hs] at hid
  exact hn (by simpa using hid)

/-! ### Aborts (R186, R216) -/

/-- An abort that the function's counter expects is counted (R186). -/
theorem State.abort_counted {s : State} {f : Fn} {scope count q : Nat} (hf : s.fn? f.fn = some f) (hr : f.code = .ready) (hs : f.stamped = [])
    (hq : q = f.abortCount % 65536) (hc : scope < 3) (hn : scope = 1 → count ≠ 0) (tag first : Nat) :
    ∃ g, (s.abort f scope tag first count q).fn? f.fn = some g ∧ g.abortCount = (f.abortCount + 1) % 65536 := by
  unfold State.abort
  rw [if_neg (by simp [Fn.attachMode, hr]), if_neg (by simp only [not_or, not_and]; exact ⟨not_not.mpr hq, by omega, hn⟩), hs]
  extract_lets s1 s2 ks s3
  have h1 : s1.fn? f.fn = some { f with abortCount := (f.abortCount + 1) % 65536 } := State.fn?_modFn _ (by exact fun _ => rfl) hf
  obtain ⟨g, hg, hb⟩ := State.fn?_of_windows
    (State.endAll_windows s1 (s1.abortable f.fn fun r => abortMatches scope tag first count r.tag r.slotSeq) stAborted) h1
  have same : s3 = s2 := by
    have none : ks = [] := by simp [ks]
    unfold s3
    rw [none]
    rfl
  have hg3 : s3.fn? f.fn = some g := same ▸ hg
  rw [State.takeAllSlots_idle hg3 ((congrArg Fn.stamped hb).trans hs)]
  exact ⟨g, hg3, (congrArg Fn.abortCount hb :)⟩

/-! ### Aperture words (R176, R182) -/

/-- A write of one aligned word is that word, then whatever it lets be taken (R177, R183). -/
theorem State.apertureWrite_word {s : State} {group n off : Nat} {data : Bytes} {f : Fn} (hs : s.inService = true) (ht : s.isTray = false)
    (hu : s.faults.groupsUp.contains group = true) (hf : s.fn? n = some f) (hg : f.group = group) (hr : f.code = .ready)
    (hl : data.length = 8) (ho : off % 8 = 0) :
    s.apertureWrite group n off data = State.takeAllSlots (slotCount f.version + 1) (s.apertureWord n off data) n := by
  have word : words8 32 off data = [(off, data)] := by
    have he : data.isEmpty = false := by
      rw [List.isEmpty_eq_false_iff]
      rintro rfl
      cases hl
    rw [words8, he, List.take_of_length_le hl.le, List.drop_of_length_le hl.le]
    rfl
  unfold State.apertureWrite
  rw [State.aperture_reached _ hs ht hf hu hg (by simp [hr])]
  dsimp only
  rw [if_neg (by omega), word]
  cases hx : f.stampWord off <;> simp [List.filter, hx]

section
variable {s : State} {n off : Nat} {f : Fn} (hf : s.fn? n = some f) (hr : f.code = .ready)
include hf hr

/-- A word of the window that is no stamp is kept (R182). -/
theorem State.apertureWord_window (hs : f.stamped = []) (ho : off < 0x4000) (hn : off % slotBytes f.version ≠ slotBytes f.version - 8)
    (data : Bytes) : s.apertureWord n off data = s.modFn n fun f => { f with window := putBytes f.window off data } := by
  unfold State.apertureWord
  rw [hf]
  dsimp only
  rw [if_pos ho, if_neg (by simp [Fn.attachMode, hr])]
  unfold State.windowWord
  rw [hf]
  dsimp only
  rw [if_neg (by simp [hs]), if_pos (by simpa using hn)]

/-- A word of the abort slot that is not its last is kept (R176, R186). -/
theorem State.apertureWord_abortSlot (ho : 0x4000 ≤ off) (hn : off < 0x4038) (data : Bytes) :
    s.apertureWord n off data = s.modFn f.fn fun g => { g with abortSlot := putBytes f.abortSlot (off - 0x4000) data } := by
  unfold State.apertureWord
  rw [hf]
  dsimp only
  rw [if_neg (by omega), if_pos (by omega)]
  unfold State.abortWord
  rw [if_neg (by simp [Fn.attachMode, hr])]
  exact if_pos (by omega)

end

end Sys2Proof.Machine
end

section
/-! CLAIMS. The function lifecycle. -/

namespace Sys2Proof.Machine

/-- Settles O15: one part for each command, each from the lemma about its operation. -/
theorem lifecycleCommandsComplete : Obligations.LifecycleCommandsComplete := by
  unfold Obligations.LifecycleCommandsComplete
  refine ⟨fun s sub a f hs ht hu hf hg hc hq hp ha => ?_, fun s sub a f hs ht hu hf hg hc hq hp ha => ?_, fun s u sub mode f g r hd hg => ?_,
    fun s u sub a f g r hd hg => ?_, fun s n f d hs hf hd hm hk => ?_, fun s n f d hs hf hd hn => ?_,
    fun s id r c hs hr hc hg hw => ?_, fun s group n q f hs ht hu hf hg hr he hq => ?_,
    fun s group n off data f hs ht hu hf hg hr he hl ho => ⟨fun hw hn => ?_, fun hw hn => ?_⟩⟩
  · have hfn := State.fn?_fn hf
    refine ⟨_, rfl, ?_⟩
    rw [State.submit_attach hs ht hu hf hg a (.inl hc) hq hp, State.takeAttach_eq ha, if_pos hc, hfn]
    have hx := State.fn?_modFn (fun x => x.attached a s.ids f.group .ready none) (fun _ => rfl) (show s.bumpId.fn? sub.fn = some f from hf)
    exact ⟨⟨_, (State.attachRecord_fn? _ _ _ _ _ _ _).trans hx, rfl, rfl, rfl, rfl, rfl, rfl⟩,
      State.attachRecord_completes hx (List.mem_append_right _ List.mem_cons_self) rfl _ _ _⟩
  · have hfn := State.fn?_fn hf
    refine ⟨_, rfl, ?_⟩
    rw [State.submit_attach hs ht hu hf hg a (.inr hc) hq hp, State.takeAttach_eq ha, if_neg (by simp [hc]), hfn]
    exact ⟨_, State.fn?_modFn _ (by exact fun _ => rfl) (show s.bumpId.fn? sub.fn = some f from hf), rfl, rfl, rfl, rfl, rfl⟩
  · refine ⟨_, rfl, ?_⟩
    rw [State.submit_admits hd, State.enter, (State.admits_req hd).1]
    exact State.beginShutdown_draining (by exact hg) _ _ _ _
  · refine ⟨_, rfl, ?_⟩
    rw [State.submit_admits hd, State.enter, (State.admits_req hd).1]
    exact State.beginFence_stands (by exact hg) (List.mem_append_right _ List.mem_cons_self) a
  · exact leaves_of_live rfl hs (State.drainGrace_ends hf hd hm hk)
  · exact leaves_of_live rfl hs (State.shutdownEnd_ends hf hd hn)
  · refine leaves_of_live rfl hs ?_
    rw [State.fenceComplete_eq hr hc hw]
    exact ⟨State.finish_completes _ _ _ hg, fun x hx => by simpa using (List.mem_filter.mp hx).2⟩
  · have hfn := State.fn?_fn hf
    subst hfn
    have reached : ∀ {c : Instr} {k : Fn → State → State}, exec c s = .next (s.aperture group f.fn k) → exec c s = .next (k f s) := fun h => by
      rw [h, State.aperture_reached _ hs ht hf hu hg (by simp [hr])]
    exact ⟨fun tag => ⟨_, reached rfl, State.abort_counted hf hr he hq (by decide) (by simp) _ _⟩,
      fun first count hn => ⟨_, reached rfl, State.abort_counted hf hr he hq (by decide) (fun _ => hn) _ _⟩,
      ⟨_, reached rfl, State.abort_counted hf hr he hq (by decide) (by simp) _ _⟩⟩
  · refine ⟨_, rfl, ?_⟩
    have hx := State.fn?_modFn (fun f => { f with window := putBytes f.window off data }) (fun _ => rfl) hf
    rw [State.apertureWrite_word hs ht hu hf hg hr hl ho, State.apertureWord_window hf hr he hw hn, State.takeAllSlots_idle hx he]
    exact ⟨_, hx, rfl, he, rfl⟩
  · refine ⟨_, rfl, ?_⟩
    have hx := State.fn?_modFn (fun g => { g with abortSlot := putBytes f.abortSlot (off - 0x4000) data }) (fun _ => rfl) hf
    rw [State.apertureWrite_word hs ht hu hf hg hr hl ho, State.apertureWord_abortSlot hf hr hw hn, State.fn?_fn hf,
      State.takeAllSlots_idle hx he]
    exact ⟨_, hx, rfl, rfl⟩

end Sys2Proof.Machine
end

section
/-! SUPPORT. The ranges of the direct region that the manual leaves undefined (R194, R216): what a transfer does on its way leaves them, but for
an operation that ends early and one that writes its destination. -/

namespace Sys2Proof.Machine

section
variable {s t : State}

theorem directOpen_of_held (h : t.held = s.held) : t.directOpen = s.directOpen := (congrArg State.directOpen h :)
theorem directOpen_of_ended (h : t.ended = s.ended) : t.directOpen = s.directOpen := (congrArg State.directOpen h :)
theorem directOpen_of_stored (h : t.stored = s.stored) : t.directOpen = s.directOpen := (congrArg State.directOpen h :)
theorem directOpen_of_moved (h : t.moved = s.moved) : t.directOpen = s.directOpen := (congrArg State.directOpen h :)
theorem directOpen_of_placed (h : t.placed = s.placed) : t.directOpen = s.directOpen := (congrArg State.directOpen h :)
theorem directOpen_of_searched (h : t.searched = s.searched) : t.directOpen = s.directOpen := (congrArg State.directOpen h :)

end

/-! ### Events, frames and the end of a request -/

@[simp] theorem State.note_directOpen (s : State) (a b c) : (s.note a b c).directOpen = s.directOpen := directOpen_of_held (by simp)

@[simp] theorem State.hostPut_directOpen (s : State) (r : Req) (a : Nat) (data : Bytes) : (s.hostPut r a data).directOpen = s.directOpen := by
  unfold State.hostPut
  rw [directOpen_of_held (State.enqueue_held _ _ _ _ _)]
  rfl

@[simp] theorem State.finish_directOpen (s : State) (r : Req) (a b fl) : (s.finish r a b fl).directOpen = s.directOpen :=
  directOpen_of_ended (by simp)

@[simp] theorem State.writeEnds_directOpen (s : State) (r : Req) (f) : (s.writeEnds r f).directOpen = s.directOpen := by
  unfold State.writeEnds
  split <;> simp

@[simp] theorem State.faultReq_directOpen (s : State) (r : Req) (a b c) : (s.faultReq r a b c).directOpen = s.directOpen :=
  ite_keeps (m := State.directOpen) (s.writeEnds_directOpen r _) rfl

@[simp] theorem State.coderFails_directOpen (s : State) (r : Req) (h : Nat) : (s.coderFails r h).directOpen = s.directOpen := by
  simp [State.coderFails]

@[simp] theorem State.hashCheck_directOpen (s : State) (c : SelfCheck) (b : Bool) : (s.hashCheck c b).directOpen = s.directOpen :=
  (congrArg State.directOpen (s.hashCheck_hashFrame c b s) :)

/-- A command without a destination in the direct region leaves it where it fails. -/
theorem State.failReq_directOpen (s : State) (r : Req) (a b : Nat) (h : destOf r.desc = none) : (s.failReq r a b).directOpen = s.directOpen := by
  have give : ∀ (u : State) n, (u.giveBack r n).directOpen = u.directOpen := fun u n => by
    unfold State.giveBack
    split
    · rfl
    · exact directOpen_of_held (by simp)
  have spoil : ∀ u : State, u.spoil r = u := fun u => by rw [State.spoil, h]
  unfold State.failReq State.dropChain
  rw [State.finish_directOpen, spoil]
  exact (foldl_keeps State.directOpen _ (fun u (x : Nat × DirKeyF) => give u x.1) _ _).trans
    (foldl_keeps State.directOpen _ (fun u p => directOpen_of_stored (u.dropPage_stored _ _)) _ _)

/-! ### Supplies (R33, R96) -/

theorem State.loadSeq_directOpen (s : State) (i : Nat) : (s.loadSeq i).directOpen = s.directOpen := by
  unfold State.loadSeq
  split
  · rfl
  · refine ite_keeps (m := State.directOpen) rfl (ite_keeps (m := State.directOpen) (ite_keeps (m := State.directOpen) rfl ?_) ?_)
    · simp
    · exact directOpen_of_placed (s.faultSeq_placed i)

@[simp] theorem State.loadBlock_directOpen (s : State) (q : Seq) (v : Version) (b : Nat) : (s.loadBlock q v b).directOpen = s.directOpen :=
  directOpen_of_placed (s.loadBlock_placed q v b)

theorem State.loadChange_directOpen (s : State) (r : Req) (h : Nat) : (s.loadChange r h).directOpen = s.directOpen := by
  have blocks : ∀ (u : State) q v lo n, (u.loadBlocks q v lo n).directOpen = u.directOpen := fun u q v lo n =>
    foldl_keeps State.directOpen _ (fun u i => u.loadBlock_directOpen q v _) _ _
  unfold State.loadChange
  extract_lets s1
  rw [← s.loadSeq_directOpen (h % 2 ^ 24)]
  split
  · rfl
  · split
    · exact blocks _ _ _ _ _
    · exact blocks _ _ _ _ _
    · exact blocks _ _ _ _ _
    · rfl

theorem State.makeRoom_directOpen (s : State) (req tenant held rest : Nat) (home : Option Nat) :
    (s.makeRoom req tenant held rest home).2.directOpen = s.directOpen := by
  have ask : ∀ (u : State) rank req n l, (u.askDemotions rank req n l).directOpen = u.directOpen := fun u rank req n l =>
    directOpen_of_moved (State.askDemotions_moved rank req l n u)
  have drop : ∀ (u : State) n l, (u.dropCold n l).2.directOpen = u.directOpen := fun u n l => directOpen_of_moved (State.dropCold_moved l n u)
  unfold State.makeRoom
  dsimp only
  rw [ask, drop, ask, drop, ask]

theorem State.writeNew_directOpen (id : Nat) (q : Seq) (held : List (Nat × Nat)) : ∀ (l : List CodedPage) (acc : List NewPage) (s : State),
    (s.writeNew id q held l acc).2.2.directOpen = s.directOpen
  | [], _, _ => rfl
  | (b, l, data, raw, table) :: rest, acc, s => by
    unfold State.writeNew
    dsimp only
    split
    · rfl
    · rw [State.writeNew_directOpen id q held rest]
      exact (ite_keeps (m := State.directOpen) rfl (directOpen_of_held (by simp))).trans
        (directOpen_of_stored (s.writePage_stored _ _ _ _ _ _ _) :)

section
variable {s : State} {r : Req} (hd : destOf r.desc = none)
include hd

theorem State.listArrives_directOpen (f : BlocksF) (data : Bytes) : (s.listArrives r f data).directOpen = s.directOpen := by
  unfold State.listArrives
  extract_lets s1 es
  rw [← s.loadChange_directOpen r f.seq]
  split
  · exact State.failReq_directOpen _ _ _ _ hd
  · split
    · exact State.failReq_directOpen _ _ _ _ hd
    · split
      · exact State.failReq_directOpen _ _ _ _ hd
      · rfl

theorem State.supplyPlace_directOpen (f : BlocksF) (data : Bytes) : (s.supplyPlace r f data).directOpen = s.directOpen := by
  have ready : ∀ (u : State) id, (u.supplyReady id).directOpen = u.directOpen := fun u id => ite_keeps (m := State.directOpen) rfl rfl
  unfold State.supplyPlace
  split
  · exact State.failReq_directOpen _ _ _ _ hd
  · next q _ =>
    split
    · exact State.failReq_directOpen _ _ _ _ hd
    · refine ite_keeps (m := State.directOpen) (State.failReq_directOpen _ _ _ _ hd) ?_
      extract_lets coded
      have new : ∀ {x : List NewPage × Bool × State} {g : Req → Req} {held : List (Nat × Nat)},
          (s.modReq r.id g).writeNew r.id q held coded [] = x → x.2.2.directOpen = s.directOpen := fun h =>
        h ▸ State.writeNew_directOpen _ _ _ _ _ _
      split
      · next h =>
        have hu := new h
        rw [State.failReq_directOpen _ _ _ _ (by exact hd)]
        exact hu
      · next h =>
        have hu := new h
        exact (ready _ _).trans hu

theorem State.pagesArrive_directOpen (f : BlocksF) (data : Bytes) : (s.pagesArrive r f data).directOpen = s.directOpen := by
  unfold State.pagesArrive
  split
  · exact State.failReq_directOpen _ _ _ _ hd
  · next q _ =>
    split
    · exact State.failReq_directOpen _ _ _ _ hd
    · refine ite_keeps (m := State.directOpen) (State.failReq_directOpen _ _ _ _ hd) ?_
      extract_lets coded held grains
      have room : ∀ {x : List Nat × State} {g : Req → Req} {home : Option Nat},
          (s.modReq r.id g).makeRoom r.id q.tenant (grains true) (grains false) home = x → x.2.directOpen = s.directOpen := fun h =>
        h ▸ State.makeRoom_directOpen _ _ _ _ _ _
      split
      · next h => exact (State.supplyPlace_directOpen hd f data).trans (room h)
      · next h => exact (room h :)

theorem State.supplyTransfer_directOpen (f : BlocksF) (ok : Bool) (data : Bytes) : (s.supplyTransfer r f ok data).directOpen = s.directOpen := by
  unfold State.supplyTransfer
  split
  · (repeat' split) <;> simp
  · split
    · exact State.listArrives_directOpen hd f data
    · rfl
    · exact State.pagesArrive_directOpen hd f data
    · rfl

end

end Sys2Proof.Machine
end

section
/-! SUPPORT. The end of a transfer, in what it leaves of the direct region's undefined ranges. -/

namespace Sys2Proof.Machine

/-! ### Lookups, tables and weights (R54, R115, R169) -/

theorem State.runLookup_directOpen (s : State) (r : Req) (model : Nat) (ps : List PairF) (token : Bool) :
    (s.runLookup r model ps token).directOpen = s.directOpen := by
  have done : ∀ (u : State) st res fl, (u.lookupDone r st res fl).directOpen = u.directOpen := fun u st res fl => by
    unfold State.lookupDone State.answerWith
    split
    · exact ite_keeps (m := State.directOpen) (by simp) (by simp)
    · simp
  have answer : ∀ (u : State) found, (u.answerLookup r ps found token).directOpen = u.directOpen := fun u found => by
    unfold State.answerLookup
    dsimp only
    split <;> exact done _ _ _ _
  have ask : ∀ domain fp l (u v : State), u.askHomes r domain fp l = some v → v.directOpen = u.directOpen := by
    intro domain fp l
    induction l with
    | nil =>
      intro u v h
      cases h
      rfl
    | cons x l ih =>
      obtain ⟨home, hs⟩ := x
      intro u v h
      unfold State.askHomes at h
      split at h
      · cases h
      · rw [ih _ _ h]
        refine foldl_keeps State.directOpen _ (fun u c => ?_) _ _
        exact (directOpen_of_held (State.request_held _ _ _ _ _ _ _ _) :)
  have hits := State.localHits_searched (s.domainOf r.tenant) (s.fingerprintOf model) ps 0 s
  unfold State.runLookup
  extract_lets domain fp
  split
  next found u hu =>
  rw [hu] at hits
  extract_lets best missing homes
  rw [← directOpen_of_searched hits]
  refine ite_keeps (m := State.directOpen) (answer u _) ?_
  split
  · simp
  · next h => exact (ask _ _ _ _ _ h :)

theorem State.lookupTokens_directOpen (s : State) (r : Req) (f : LookupTokenF) (ok : Bool) (data : Bytes) :
    (s.lookupTokens r f ok data).directOpen = s.directOpen := by
  unfold State.lookupTokens
  refine ite_keeps (m := State.directOpen) (by simp) ?_
  split
  · simp
  · exact ite_keeps (m := State.directOpen) (by simp) (ite_keeps (m := State.directOpen) (State.runLookup_directOpen _ _ _ _ _) rfl)

theorem State.tableTransfer_directOpen (s : State) (r : Req) (ok : Bool) (data : Bytes) : (s.tableTransfer r ok data).directOpen = s.directOpen := by
  have ref : ∀ (u : State) j g, (u.streamRef j g).directOpen = u.directOpen := fun u j g => ite_keeps (m := State.directOpen) rfl rfl
  have streams : ∀ (u : State) a b f, (u.setStreams a b f).directOpen = u.directOpen := fun u a b f =>
    foldl_keeps State.directOpen _ (fun u i => ite_keeps (m := State.directOpen) rfl (by exact (ref _ _ _).trans (ref _ _ _))) _ _
  have load : ∀ f, (s.tableLoadArrives r f data).directOpen = s.directOpen := fun f => by
    unfold State.tableLoadArrives
    extract_lets im d
    refine ite_keeps (m := State.directOpen) (by simp) ?_
    split
    · simp [streams]
    · refine ite_keeps (m := State.directOpen) (by simp) (ite_keeps (m := State.directOpen) (by simp) ?_)
      split
      · simp
      · rw [State.finish_directOpen, streams]
        rfl
  unfold State.tableTransfer
  refine ite_keeps (m := State.directOpen) rfl (ite_keeps (m := State.directOpen) (by simp) ?_)
  split
  · exact load _
  · simp
  · rfl

theorem State.weightsTransfer_directOpen (s : State) (r : Req) (f : WeightsF) (ok : Bool) : (s.weightsTransfer r f ok).directOpen = s.directOpen := by
  have reads : ∀ id tenant l (u : State), (u.readChunks id tenant l).directOpen = u.directOpen := by
    intro id tenant l
    induction l with
    | nil => intro u; rfl
    | cons x l ih =>
      obtain ⟨w, c⟩ := x
      intro u
      unfold State.readChunks
      dsimp only
      split
      · exact option_elim_keeps _ fun r => by simp
      · refine ite_keeps (m := State.directOpen) rfl ((ih _).trans ?_)
        exact (directOpen_of_held (State.pageTransfer_held _ _ _ _ _ _ _ _) :)
  have more : ∀ (u : State) id, (u.chunksMore id).directOpen = u.directOpen := fun u id => by
    unfold State.chunksMore
    split
    · rfl
    · split
      · exact ite_keeps (m := State.directOpen) (reads _ _ _ _) rfl
      · rfl
  have room : ∀ u : State, u.roomInCache.directOpen = u.directOpen := fun u => by
    unfold State.roomInCache
    dsimp only
    split
    · rfl
    · split <;> rfl
  have chunk : ∀ (u : State) a b c, (u.readChunk a b c).directOpen = u.directOpen := fun u a b c => by
    unfold State.readChunk
    extract_lets v w
    exact ite_keeps (m := State.directOpen) (s := u) rfl (room v)
  unfold State.weightsTransfer
  split
  · next m _ _ _ =>
    extract_lets u reads' g n counters v cs
    have hu : u.directOpen = s.directOpen := more s r.id
    have hv : v.directOpen = s.directOpen := hu
    refine ite_keeps (m := State.directOpen) hu (ite_keeps (m := State.directOpen) ((State.faultReq_directOpen _ _ _ _ _).trans hv) ?_)
    have hw : (cs.foldl (fun s c => s.readChunk m.index m.weightsTier c) v).directOpen = s.directOpen :=
      (foldl_keeps State.directOpen _ (fun u c => chunk u _ _ c) cs v).trans hv
    split
    · split
      · exact (State.faultReq_directOpen _ _ _ _ _).trans hw
      · exact (State.finish_directOpen _ _ _ _ _).trans ((State.hostPut_directOpen _ _ _ _).trans hw)
    · exact (State.faultReq_directOpen _ _ _ _ _).trans hw
    · exact (State.faultReq_directOpen _ _ _ _ _).trans hw
    · exact (State.faultReq_directOpen _ _ _ _ _).trans hw
  · simp
  · simp

/-! ### Pages (R113, R143, R175) -/

/-- What the reads of a transfer's pages leave: the undefined ranges of the direct region, and what each request asks for. -/
def State.kept (s : State) : List OpenRange × List (Nat × Desc) := (s.directOpen, s.reqs.map fun r => (r.id, r.desc))

theorem State.pageFailed_kept (s : State) (r : Req) (q : Seq) (v : Version) (layer b st : Nat) (es : List (Nat × Nat)) :
    (s.pageFailed r q v layer b st es).kept = s.kept := by
  have note : ∀ (u : State) a b c, (u.note a b c).kept = u.kept := fun u a b c => (congrArg State.kept (u.note_held a b c) :)
  have refusal : ∀ (u : State) l st, (u.refusalEvent l st).kept = u.kept := fun u l st =>
    ite_keeps (m := State.kept) (note _ _ _ _) (ite_keeps (m := State.kept) (note _ _ _ _) rfl)
  have recheck : ∀ (u : State) a b c, (u.addRecheck a b c).kept = u.kept := fun u a b c => ite_keeps (m := State.kept) rfl rfl
  have lose : ∀ (u : State) a b c, (u.losePage a b c).kept = u.kept := fun u a b c => by
    unfold State.losePage
    split
    · rfl
    · exact (note _ _ _ _).trans (ite_keeps (m := State.kept) rfl (congrArg State.kept (u.freePage_stored _ _) :))
  have fault : ∀ (u : State) n, (u.faultEntry n).kept = u.kept := fun u n => (congrArg State.kept (u.faultEntry_linked n) :)
  have lost : ∀ (u : State) a b, (u.pageLost a b).kept = u.kept := fun u a b => by
    unfold State.pageLost
    split
    · rfl
    · refine ite_keeps (m := State.kept) rfl (ite_keeps (m := State.kept) ?_ (ite_keeps (m := State.kept) ?_ (lose u a b none)))
      · exact (congrArg State.kept (State.freeIdleProxies_held _) :).trans (congrArg State.kept (State.dropProxyCopy_moved _ _ _) :)
      · exact (foldl_keeps State.kept _ (fun u e => fault u _) _ _).trans (lose u a b none)
  unfold State.pageFailed
  split
  · unfold State.recFailed
    extract_lets l v
    have hv : v.kept = s.kept := refusal s l st
    exact ite_keeps (m := State.kept) (ite_keeps (m := State.kept) hv ((lost v _ _).trans hv))
      (ite_keeps (m := State.kept) ((recheck v _ _ _).trans hv) hv)
  · extract_lets v
    have hv : v.kept = s.kept := option_elim_keeps _ fun l => refusal s l st
    split
    · exact ite_keeps (m := State.kept) ((recheck v _ _ _).trans hv) hv
    · exact hv

theorem State.readSlot_kept (s : State) (r : Req) (i b layer : Nat) : (s.readSlot r i b layer).1.kept = s.kept :=
  State.readSlot_keeps (m := State.kept) (fun s q v b => (congrArg State.kept (s.loadBlock_placed q v b) :))
    (fun s r q v m l => (congrArg State.kept (State.askSlots_held r q v m l s) :)) State.pageFailed_kept
    (fun _ _ => rfl) (fun s b l n => (congrArg State.kept (s.ripen_moved b l n) :))
    (fun s _ _ h => Prod.ext rfl (map_mapIf_same (fun x => Prod.ext (h x).1 (h x).2) s.reqs)) s r i b layer

theorem State.pageFailed_directOpen (s : State) (r : Req) (q : Seq) (v : Version) (layer b st : Nat) (es : List (Nat × Nat)) :
    (s.pageFailed r q v layer b st es).directOpen = s.directOpen := congrArg Prod.fst (s.pageFailed_kept r q v layer b st es)

theorem State.fetchTransfer_directOpen (s : State) (r : Req) (f : FetchF) (ok : Bool) : (s.fetchTransfer r f ok).directOpen = s.directOpen := by
  unfold State.fetchTransfer
  split
  · rfl
  · next q v _ =>
    split
    · rfl
    · next m _ =>
      split
      next b layer _ =>
      extract_lets u
      have hu : u.directOpen = s.directOpen := State.loadBlock_directOpen _ _ _ _
      refine ite_keeps (m := State.directOpen) hu (ite_keeps (m := State.directOpen) ((State.faultReq_directOpen _ _ _ _ _).trans hu) ?_)
      split
      · exact (directOpen_of_held (State.askSlots_held r q v m _ u)).trans hu
      · exact (State.faultReq_directOpen _ _ _ _ _).trans ((State.pageFailed_directOpen _ _ _ _ _ _ _ _).trans hu)
      · refine ite_keeps (m := State.directOpen) ((State.finish_directOpen _ _ _ _ _).trans ?_) ?_
        all_goals exact (directOpen_of_moved (State.ripen_moved _ _ _ _) :).trans ((State.hostPut_directOpen _ _ _ _).trans hu)

end Sys2Proof.Machine
end

section
/-! SUPPORT. What a byte of the direct region reads as, and what a write elsewhere leaves of it (R194, R198, R199). -/

namespace Sys2Proof.Machine

/-! ### Bytes of the region (R194) -/

/-- The draw of the byte at `x` among undefined ranges; `none` where none of them holds it. -/
def openAt (x : Nat) (l : List OpenRange) : Option Nat :=
  (l.find? fun r => decide (r.address ≤ x ∧ x < r.address + r.length)).map fun r => r.draw + (x - r.address)

theorem State.directRead_one (s : State) (a : Nat) :
    s.directRead a 1 = [match openAt a s.directOpen with
      | some d => Config.freeByte d
      | none => s.direct.read a] := by
  unfold State.directRead openAt
  rw [List.range_one, List.map_singleton, Nat.add_zero]
  cases s.directOpen.find? fun r => decide (r.address ≤ a ∧ a < r.address + r.length) <;> rfl

theorem State.directRead_congr {s t : State} (hd : t.direct = s.direct) (ho : t.directOpen = s.directOpen) (a n : Nat) :
    t.directRead a n = s.directRead a n := by
  rw [State.directRead, State.directRead, hd, ho]

theorem openAt_append (x : Nat) (l k : List OpenRange) : openAt x (l ++ k) = (openAt x l).or (openAt x k) := by
  rw [openAt, List.find?_append, Option.map_or]
  rfl

/-- An empty range holds no byte. -/
theorem openAt_filter (x : Nat) (l : List OpenRange) : openAt x (l.filter fun y => y.length != 0) = openAt x l := by
  rw [openAt, List.find?_filter, openAt]
  congr 2
  funext r
  rw [Bool.eq_iff_iff]
  simp only [bne_iff_ne, decide_eq_true_eq]
  omega

section
variable {x a n : Nat} (h : x < a ∨ a + n ≤ x)
include h

theorem openAt_cutOpen (r : OpenRange) : openAt x (cutOpen a n r) = openAt x [r] := by
  unfold cutOpen
  rw [openAt_filter]
  have left : (r.address ≤ x ∧ x < r.address + min r.length (a - r.address)) ↔ x < a ∧ r.address ≤ x ∧ x < r.address + r.length := by omega
  have right : (max r.address (a + n) ≤ x ∧ x < max r.address (a + n) + (r.address + r.length - max r.address (a + n))) ↔
      a + n ≤ x ∧ r.address ≤ x ∧ x < r.address + r.length := by omega
  simp only [openAt, List.find?_cons, List.find?_nil, left, right]
  by_cases hr : r.address ≤ x ∧ x < r.address + r.length
  · by_cases hx : x < a
    · simp [hr, hx]
    · have hn : a + n ≤ x := h.resolve_left hx
      have draw : r.draw + (max r.address (a + n) - r.address) + (x - max r.address (a + n)) = r.draw + (x - r.address) := by omega
      simp [hr, hx, hn, draw]
  · simp [hr]

/-- A write leaves the undefined bytes outside it as they are (R194). -/
theorem openAt_flatMap_cutOpen (l : List OpenRange) : openAt x (l.flatMap (cutOpen a n)) = openAt x l := by
  induction l with
  | nil => rfl
  | cons r l ih => rw [List.flatMap_cons, openAt_append, openAt_cutOpen h, ih, ← openAt_append, List.singleton_append]

end

/-- A byte outside a write reads as before (R198, R199). -/
theorem State.directRead_directWrite {s : State} {x a : Nat} {data : Bytes} (hw : s.direct.wf = true) (h : x < a ∨ a + data.length ≤ x) :
    (s.directWrite a data).directRead x 1 = s.directRead x 1 := by
  have read : (s.directWrite a data).direct.read x = s.direct.read x := Memory.read_writeN_outside data s.direct a x hw h
  have ranges : openAt x (s.directWrite a data).directOpen = openAt x s.directOpen := openAt_flatMap_cutOpen h s.directOpen
  rw [State.directRead_one, State.directRead_one, ranges, read]

/-- Where the requests' descriptors are kept, a request keeps its own. -/
theorem State.desc_of_kept {s t : State} {id : Nat} {r r' : Req} (h : t.kept = s.kept) (hr' : t.req? id = some r') (hr : s.req? id = some r) :
    r'.desc = r.desc := by
  have asked : ∀ u : State, (u.req? id).map (fun r => (r.id, r.desc)) = u.kept.2.find? fun x => x.1 == id := fun u => by
    rw [State.kept, List.find?_map]
    rfl
  have same := (asked t).trans (h ▸ (asked s).symm)
  rw [hr', hr] at same
  exact (Prod.mk.inj (Option.some.inj same)).2

/-! ### The commands that store (R197, R199, R193) -/

/-- A CXL.mem write stores at most its line's 64 bytes. -/
theorem State.cxlWrite_directRead {s : State} {x line : Nat} (hw : s.direct.wf = true) (h : x < 64 * line ∨ 64 * line + 64 ≤ x) (data : Bytes) :
    (s.cxlWrite line data).directRead x 1 = s.directRead x 1 := by
  refine ite_keeps (m := fun s => s.directRead x 1) rfl (ite_keeps (m := fun s => s.directRead x 1) ?_ ?_)
  · exact State.directRead_congr (s.cxlFails_reports line false).2.1 ((State.note_directOpen _ _ _ _).trans rfl) x 1
  · have length : (data.take 64).length ≤ 64 := List.length_take_le 64 data
    exact State.directRead_directWrite hw (by omega)

/-- Only operations without a destination compute a hash at the end of a transfer. -/
theorem Req.hashesNow_of_destOf {r : Req} {o : MemOpF} (h : destOf r.desc = some o) (ok : Bool) : r.hashesNow ok = false := by
  unfold destOf at h
  split at h
  case h_6 => cases h
  all_goals
    next hd =>
      rw [Req.hashesNow, hd]
      exact Bool.and_false _

theorem destOf_of_reduceOf {d : Desc} {f : ReduceF} {lse : Bool} (h : reduceOf d = some (f, lse)) : destOf d = some f.dest := by
  unfold reduceOf at h
  split at h <;> cases h <;> rfl

theorem State.nearBytes_reduce {s : State} {r : Req} {data : Bytes} {f : ReduceF} {lse : Bool} (h : reduceOf r.desc = some (f, lse)) :
    s.nearBytes r data = (reduceResult r.desc f (s.reduceSources f lse data)).1.length := by
  unfold State.nearBytes
  split
  · next hd => rw [hd] at h; cases h
  · next hd => rw [hd] at h; cases h
  · rw [h]

section
variable {s : State} {r : Req} {x : Nat} (hw : s.direct.wf = true)
include hw

/-- A result put at its destination stores its own bytes. -/
theorem State.putDest_directRead {o : MemOpF} {data : Bytes} (h : o.kind = 1 → x < o.address ∨ o.address + data.length ≤ x) (fl : RecFlags) :
    (s.putDest r o data fl).directRead x 1 = s.directRead x 1 := by
  have finish : ∀ (u : State) a b fl, (u.finish r a b fl).directRead x 1 = u.directRead x 1 := fun u a b fl =>
    State.directRead_congr (direct_of_spine (by simp)) (by simp) x 1
  unfold State.putDest
  split
  · exact (finish _ _ _ _).trans (State.directRead_congr (direct_of_spine (by simp)) (by simp) x 1)
  · next hk => exact ite_keeps (m := fun s => s.directRead x 1) (finish _ _ _ _) ((finish _ _ _ _).trans (State.directRead_directWrite hw (h hk)))
  · split
    · refine State.directRead_congr (direct_of_spine (by simp)) ?_ x 1
      exact (directOpen_of_held (State.held_of_carried (State.sendPage_carried _ _ _ _ _ _ _ _ _ _ _)) :)
    · exact finish _ _ _ _

/-- The result of a near-memory operation stores the bytes that `nearBytes` counts. -/
theorem State.nearResult_directRead {data : Bytes}
    (h : ∀ o, destOf r.desc = some o → o.kind = 1 → x < o.address ∨ o.address + s.nearBytes r data ≤ x) :
    (s.nearResult r r.data data).directRead x 1 = s.directRead x 1 := by
  have put : ∀ {o bytes fl}, destOf r.desc = some o → bytes.length = s.nearBytes r data →
      (s.putDest r o bytes fl).directRead x 1 = s.directRead x 1 := fun hd hl =>
    State.putDest_directRead hw (fun hk => by rw [hl]; exact h _ hd hk) _
  unfold State.nearResult
  extract_lets bs
  split
  · next f hd => exact put (by rw [hd]; rfl) (by rw [State.nearBytes, hd]; simp [leBytes])
  · next f hd => exact put (by rw [hd]; rfl) (by rw [State.nearBytes, hd]; simp only [bs, hd]; rfl)
  · exact State.directRead_congr (direct_of_spine (by simp)) (by simp) x 1
  · split
    · rfl
    · next f lse hr => exact put (destOf_of_reduceOf hr) (State.nearBytes_reduce hr).symm

/-- The end of a near-memory operation's transfer stores the bytes that `writtenBytes` counts, at its destination. -/
theorem State.nearTransfer_directRead (hr : s.req? r.id = some r) (ok : Bool) {data : Bytes}
    (h : ∀ o, destOf r.desc = some o → o.kind = 1 → x < o.address ∨ o.address + s.writtenBytes r data ≤ x) :
    (s.nearTransfer r ok data).directRead x 1 = s.directRead x 1 := by
  refine State.nearTransfer_keeps (m := fun s => s.directRead x 1) (fun s r i b l => ?_) (fun s r a b c => ?_) s r ok data fun u r' hu hr' => ?_
  · exact State.directRead_congr (direct_of_spine (s.readSlot_spine r i b l)) (congrArg Prod.fst (s.readSlot_kept r i b l)) x 1
  · exact State.directRead_congr (direct_of_spine (by simp)) (by simp) x 1
  · have spine := State.readSlots_spine r.id r.slotsLeft s
    have kept := State.readSlots_keeps State.readSlot_kept r.id r.slotsLeft s
    rw [hu] at spine kept
    have desc : r'.desc = r.desc := State.desc_of_kept kept hr' hr
    have bytes : s.writtenBytes r data = u.nearBytes r' data := by rw [State.writtenBytes, hu]; dsimp only; rw [hr']; rfl
    exact State.nearResult_directRead (by rw [direct_of_spine spine]; exact hw) (by rw [desc, ← bytes]; exact h)

/-- The end of a transfer stores at the destination of a near-memory operation, and nowhere else (R193, R198). -/
theorem State.transferEnd_directRead (hr : s.req? r.id = some r) (ok : Bool) {data : Bytes}
    (h : ∀ o, destOf r.desc = some o → o.kind = 1 → x < o.address ∨ o.address + s.writtenBytes r data ≤ x) :
    (s.transferEnd r ok data).directRead x 1 = s.directRead x 1 := by
  have supply : ∀ f, destOf r.desc = none → (s.supplyTransfer r f ok data).directRead x 1 = s.directRead x 1 := fun f hd =>
    State.directRead_congr (direct_of_spine (by simp)) (State.supplyTransfer_directOpen hd f ok data) x 1
  have table : (s.tableTransfer r ok data).directRead x 1 = s.directRead x 1 :=
    State.directRead_congr (direct_of_spine (by simp)) (s.tableTransfer_directOpen r ok data) x 1
  have near := State.nearTransfer_directRead hw hr ok h
  unfold State.transferEnd
  refine ite_keeps (m := fun s => s.directRead x 1) ?_ (ite_keeps (m := fun s => s.directRead x 1) rfl ?_)
  · exact State.directRead_congr (direct_of_spine (by simp)) (by simp) x 1
  · split
    · next hd => exact supply _ (by rw [hd]; rfl)
    · next hd => exact supply _ (by rw [hd]; rfl)
    · exact State.directRead_congr (direct_of_spine (by simp)) (s.lookupTokens_directOpen _ _ _ _) x 1
    · exact State.directRead_congr (direct_of_spine (by simp)) (s.fetchTransfer_directOpen _ _ _) x 1
    · exact State.directRead_congr (direct_of_spine (by simp)) (s.weightsTransfer_directOpen _ _ _) x 1
    · exact table
    · exact table
    iterate 6 (· exact near)
    · rfl

theorem State.checkedTransfer_directRead (hr : s.req? r.id = some r) (ok : Bool) (check : SelfCheck) {data : Bytes}
    (h : ∀ o, destOf r.desc = some o → o.kind = 1 → x < o.address ∨ o.address + s.writtenBytes r data ≤ x) :
    (s.checkedTransfer r ok check data).directRead x 1 = s.directRead x 1 := by
  have coder : ∀ n, (s.coderFails r n).directRead x 1 = s.directRead x 1 := fun n =>
    State.directRead_congr (direct_of_spine (by simp)) (s.coderFails_directOpen r n) x 1
  have reqs : (s.hashCheck check (r.hashesNow ok)).reqs = s.reqs := (congrArg State.reqs (s.hashCheck_hashFrame check (r.hashesNow ok) s) :)
  have spine := s.hashCheck_spine check (r.hashesNow ok)
  unfold State.checkedTransfer
  split
  · split
    · exact coder _
    · exact coder _
    · rfl
  · refine (State.transferEnd_directRead ?_ ?_ ok fun o ho => ?_).trans (State.directRead_congr (direct_of_spine spine) (by simp) x 1)
    · rw [direct_of_spine spine]
      exact hw
    · rw [State.req?, reqs]
      exact hr
    · rw [Req.hashesNow_of_destOf ho ok]
      have same : s.hashCheck check false = s := by cases check <;> rfl
      rw [same]
      exact h o ho

end

end Sys2Proof.Machine
end

section
/-! CLAIMS. The bytes of the direct region that no command stores to. -/

namespace Sys2Proof.Machine

/-- Settles O13: a write of a line and the end of a transfer each store in one range, outside which a byte reads as before. -/
theorem directBytesStand : Obligations.DirectBytesStand := by
  unfold Obligations.DirectBytesStand
  refine ⟨fun s t line data a h hw ha => ?_, fun s t ok check data r a h hr hw ha => ?_⟩
  · have write := State.cxlWrite_directRead hw ha data
    change execCxlMemWrite line data s = .next t at h
    unfold execCxlMemWrite at h
    split at h
    · cases h
      rfl
    · split at h
      · cases h
      · cases h
        exact ite_keeps (m := fun s => s.directRead a 1) write rfl
  · have none : s.readFaults [] = s := ite_self s
    have transfer := State.checkedTransfer_directRead hw hr ok check (data := data) fun o ho hk => (ha o ho hk).imp_right (by omega)
    change Host.Outcome.next ((s.readFaults []).withReq r.id fun s r => s.checkedTransfer r ok check data) = .next t at h
    rw [none] at h
    cases h
    refine live_keeps (m := fun s => s.directRead a 1) ?_
    rw [hr]
    exact transfer

end Sys2Proof.Machine
end

section
/-! SUPPORT. The end of a request that an event of its tick has decided: what its completion leaves behind (R143, R208), and the tick that
settles it (R218). -/

namespace Sys2Proof.Machine

/-! ### What a completion leaves behind -/

theorem State.tableUnref_staging (s : State) (id : Nat) : (s.tableUnref id).staging = s.staging := by
  have note : ∀ (u : State) a b c, (u.note a b c).staging = u.staging := fun u a b c => by
    obtain ⟨r, h⟩ := u.note_eq a b c
    rw [h]
  have put : ∀ (u : State) a, (u.putTableId a).staging = u.staging := fun u a => ite_keeps (m := State.staging) rfl rfl
  have sweep : ∀ (u : State) a, (u.tableSweep a).staging = u.staging := fun u a => by
    unfold State.tableSweep
    split
    · exact ite_keeps (m := State.staging) ((note _ _ _ _).trans (put _ _)) rfl
    · rfl
  exact ite_keeps (m := State.staging) rfl (sweep _ _)

theorem State.deallocate_staging (s : State) (p : Page) : (s.deallocate p).staging = s.staging := by
  unfold State.deallocate
  split
  · rfl
  · split <;> rfl

theorem State.unpin1_staging (s : State) (p : Option Pin) : (s.unpin1 p).staging = s.staging := by
  unfold State.unpin1
  split <;> rfl

theorem State.sweepPages_staging (s : State) : s.sweepPages.staging = s.staging :=
  foldl_keeps State.staging _ (fun s p => (State.deallocate_staging _ p).trans (s.tableUnref_staging p.table)) _ _

theorem State.unblock_reqs_ne (s : State) (id : Nat) : ∀ x ∈ (s.unblock id).reqs, x.id ≠ id := fun x hx => by
  obtain ⟨y, hy, rfl⟩ := List.mem_map.mp hx
  have hne : y.id ≠ id := by simpa using (List.mem_filter.mp hy).2
  split <;> exact hne

/-- What a request held is released: no request of its identifier stands any more. -/
theorem State.dropReq_reqs_ne (s : State) (r : Req) : ∀ x ∈ (s.dropReq r).reqs, x.id ≠ r.id := by
  unfold State.dropReq
  extract_lets t u _ w x
  have hs : x.sweepPages.stored = w.stored := (State.sweepPages_stored _).trans (foldl_keeps State.stored _ State.tableUnref_stored _ _)
  rw [show x.sweepPages.reqs = u.reqs from (congrArg State.reqs hs :)]
  exact t.unblock_reqs_ne r.id

/-- Nothing is staged by the end of a request. -/
theorem State.dropReq_staging {s : State} {r : Req} (h : s.staging = []) : (s.dropReq r).staging = [] := by
  have hu : (s.unpin r).staging = [] := ((State.unpin1_staging _ r.pin2).trans (s.unpin1_staging r.pin)).trans h
  unfold State.dropReq
  extract_lets t u _ w x
  have hx : x.sweepPages.staging = w.staging := x.sweepPages_staging.trans (foldl_keeps State.staging _ State.tableUnref_staging _ _)
  rw [hx]
  exact List.filter_eq_nil_iff.mpr (by rw [show u.staging = [] from hu]; simp)

theorem State.finish_req? (s : State) (r : Req) (status result : Nat) (fl : RecFlags) : (s.finish r status result fl).req? r.id = none :=
  List.find?_eq_none.mpr fun x hx => by simpa using State.dropReq_reqs_ne _ r x hx

theorem State.finish_staging {s : State} (h : s.staging = []) (r : Req) (status result : Nat) (fl : RecFlags) :
    (s.finish r status result fl).staging = [] := by
  obtain ⟨f, o, h1⟩ := s.record_eq r.fn r.attach r.opcode r.slotSeq r.tag status result fl
  obtain ⟨q, h2⟩ := (s.record r.fn r.attach r.opcode r.slotSeq r.tag status result fl).enqueue_eq (s.groupOfFn r.fn) r.fn r.cls 32
  obtain ⟨f', fs, h3⟩ := (((s.record r.fn r.attach r.opcode r.slotSeq r.tag status result fl).enqueue (s.groupOfFn r.fn) r.fn r.cls 32).trackRecord
    r status).fenceCount_eq r status
  refine State.dropReq_staging ?_
  rw [h3, h2, h1]
  exact h

/-! ### The end of a request (R143, R208) -/

theorem State.dropMovesOf_keeps (s : State) (id : Nat) : (s.dropMovesOf id).fns = s.fns ∧ (s.dropMovesOf id).staging = s.staging := by
  have drop : ∀ (u : State) m, (u.dropMove m).fns = u.fns ∧ (u.dropMove m).staging = u.staging := fun u m => by
    obtain ⟨a, b, c, h⟩ := u.dropMove_eq m
    rw [h]
    exact ⟨rfl, rfl⟩
  exact ⟨foldl_keeps State.fns _ (fun u m => (drop u m).1) _ _, foldl_keeps State.staging _ (fun u m => (drop u m).2) _ _⟩

theorem State.freePlace_keeps (s : State) (r : Req) : (s.freePlace r).fns = s.fns ∧ (s.freePlace r).staging = s.staging := by
  unfold State.freePlace
  split <;> exact ⟨rfl, rfl⟩

theorem State.spoil_keeps (s : State) (r : Req) : (s.spoil r).fns = s.fns ∧ (s.spoil r).staging = s.staging := by
  unfold State.spoil State.directUndefined
  (repeat' split) <;> exact ⟨rfl, rfl⟩

/-- `t` is where the completion of `r` with status `st` leads from a state with the functions and the staged pages of `s`. -/
def State.endsIn (s t : State) (r : Req) (st : Nat) : Prop :=
  ∃ (u : State) (result : Nat), t = u.finish r st result ∧ u.fns = s.fns ∧ u.staging = s.staging

section
variable {s : State} {r : Req} {st : Nat}

/-- A command that holds no new grain and no reference fails with nothing to free. -/
theorem State.failReq_endsIn {t : State} (hp : r.pages = []) (hc : r.chain = []) (ht : t.fns = s.fns ∧ t.staging = s.staging) (result : Nat) :
    s.endsIn (t.failReq r st result) r st := by
  obtain ⟨hfns, hstaging⟩ := t.spoil_keeps r
  refine ⟨t.spoil r, result, ?_, hfns.trans ht.1, hstaging.trans ht.2⟩
  rw [State.failReq, hp, hc]
  rfl

theorem State.endNow_endsIn (he : r.ended = some st) (hattend : ∀ f, r.desc ≠ .attend f) (hfence : ∀ f, r.desc ≠ .fence f) (hp : r.pages = [])
    (hc : r.chain = []) : s.endsIn (s.endNow r) r st := by
  simp only [State.endNow, he]
  split
  · next f hd => exact absurd hd (hattend f)
  · -- a fetch has nothing to free
    exact ⟨s, _, rfl, rfl, rfl⟩
  · -- a publication gives its version place back
    exact State.failReq_endsIn hp hc (s.freePlace_keeps r) _
  · -- a range command drops the moves that it asked for
    exact State.failReq_endsIn hp hc (s.dropMovesOf_keeps r.id) _
  · -- and so does a hint
    exact State.failReq_endsIn hp hc (s.dropMovesOf_keeps r.id) _
  · next f hd => exact absurd hd (hfence f)
  · exact State.failReq_endsIn hp hc ⟨rfl, rfl⟩ _

/-- Of a completed request its record is left, and no page is staged that was not. -/
theorem State.completed_of_endsIn {t : State} (h : s.endsIn t r st) (hring : (s.ringOf r).isSome = true) (hstaging : s.staging = []) :
    t.req? r.id = none ∧ t.recorded r st ∧ t.staging = [] := by
  obtain ⟨u, result, rfl, hfns, hu⟩ := h
  have hring' : (u.ringOf r).isSome = true := by rwa [State.ringOf_of_fns hfns]
  exact ⟨u.finish_req? r st result _, State.finish_recorded _ _ _ hring', State.finish_staging (hu.trans hstaging) _ _ _ _⟩

end

/-! ### The tick that settles it (R218) -/

theorem State.recorded_of_out {s t : State} {r : Req} {st : Nat} (h : t.out = s.out) (hr : s.recorded r st) : t.recorded r st := by
  unfold State.recorded at hr ⊢
  rwa [h]

theorem State.out_of_curdFrame {s t d : State} (h : curdFrame t d = curdFrame s d) : t.out = s.out := (congrArg State.out h :)

theorem State.dispatch_out (s : State) : s.dispatch.out = s.out := State.out_of_curdFrame (s.placeWork_curdFrame s)

theorem State.dispatch_req?_none {s : State} {id : Nat} (h : s.req? id = none) : s.dispatch.req? id = none := by
  have hread := State.req?_unmarked s.dispatch_unmarked id
  rw [h] at hread
  exact Option.map_eq_none_iff.mp hread

theorem State.askTables_of_unstaged {s : State} (h : s.staging = []) : s.askTables = s := by
  rw [State.askTables, State.tableless, h]
  rfl

/-- With one request, marked to end, and no curd the tick's end settles that request first. -/
theorem State.endTick_settles {s : State} {r : Req} (hreqs : s.reqs = [r]) (hended : r.ended.isSome = true) (hcurds : s.curds = []) :
    s.endTick = (s.endNow r).askTables.dispatch := by
  have hclose : s.closeDue = s := by
    rw [State.closeDue, hcurds]
    rfl
  have hsettle : s.settleEnds = s.endNow r := by
    rw [State.settleEnds, hreqs, List.filter_singleton, hended]
    simp [State.req?, hreqs]
  rw [State.endTick, hclose, hsettle]

/-- A tick in service that has something to decide shows the requests and the outputs of its end. -/
theorem State.tick_ends {s : State} (hs : s.inService = true) (hdue : s.undecided = true) :
    s.tick.reqs = s.endTick.reqs ∧ s.tick.out = s.endTick.out := by
  unfold State.tick State.live
  rw [if_pos hdue, if_pos hs]
  dsimp only
  exact ⟨rfl, rfl⟩

/-- The only request, marked to end, completes with the tick. -/
theorem State.tick_completes {s : State} {r : Req} {st : Nat} (hs : s.inService = true) (hreqs : s.reqs = [r]) (hended : r.ended = some st)
    (hcurds : s.curds = []) (hend : (s.endNow r).req? r.id = none ∧ (s.endNow r).recorded r st ∧ (s.endNow r).staging = []) :
    s.tick.req? r.id = none ∧ s.tick.recorded r st := by
  obtain ⟨hgone, hrec, hstaging⟩ := hend
  obtain ⟨htick, hout⟩ := State.tick_ends hs (by simp [State.undecided, hreqs, hended])
  have hsettled : s.endTick = (s.endNow r).dispatch := by
    rw [State.endTick_settles hreqs (by rw [hended]; rfl) hcurds, State.askTables_of_unstaged hstaging]
  rw [hsettled] at htick hout
  exact ⟨(State.req?_of_reqs htick _).trans (State.dispatch_req?_none hgone), State.recorded_of_out (hout.trans (State.dispatch_out _)) hrec⟩

/-! ### The deadline (R226) -/

/-- A deadline that has come marks its request to end (R226). -/
theorem State.deadlineReached_ends {s : State} {r : Req} {d : Nat} (hr : s.req? r.id = some r) (hd : s.monitored r.id = some d) (hdue : d ≤ s.now)
    (hab : r.ended ≠ some stAborted) (hev : ¬(r.ended.isSome = true ∧ r.endedAt = d)) :
    (s.deadlineReached r).ends r stDeadlineFault noBlock noLayer := by
  have hopen : ¬(s.now < d ∨ r.ended = some stAborted ∨ (r.ended.isSome = true ∧ r.endedAt = d)) := not_or.mpr ⟨by omega, not_or.mpr ⟨hab, hev⟩⟩
  simp only [State.deadlineReached, hd]
  rw [if_neg hopen]
  exact ⟨_, by rw [State.req?_modReq _ _ (by intro; rfl), hr]; rfl, rfl, rfl, rfl⟩

end Sys2Proof.Machine
end

section
/-! CLAIMS. The obligation on deadlines and the requests that a tick's events have ended. -/

namespace Sys2Proof.Machine

/-- Settles O25: the deadline marks its request, and the end of the tick completes a marked one, its only request. -/
theorem deadlinesEnd : Obligations.DeadlinesEnd := by
  unfold Obligations.DeadlinesEnd
  refine ⟨fun s r tick hs hr hd hdue hab hev => ?_, fun s r st hpend hs hreqs hended hattend hfence hring hpages hchain hcurds _ hstaging => ?_⟩
  · exact ⟨_, rfl, by rw [State.withReq_service hs hr]; exact State.deadlineReached_ends hr hd hdue hab hev⟩
  · have hend := State.completed_of_endsIn (State.endNow_endsIn hended hattend hfence hpages hchain) hring hstaging
    exact ⟨s.tick, step_idle hpend, State.tick_completes hs hreqs hended hcurds hend⟩

end Sys2Proof.Machine
end

section
/-! SUPPORT. The management port (17_management_port): a command that a connection is served, its answer, and the end of a connection. -/

namespace Sys2Proof.Machine

/-! ### A command that a connection is served, and its answer (R380 to R382) -/

theorem State.serves_iff {s : State} {conn : Nat} {c : Conn} {roles : List Nat} {before : Bool} :
    s.serves conn c roles before = true ↔
      s.conn? conn = some c ∧ s.portOn = true ∧ s.boot.phase ≠ .failed ∧ roles.contains c.role = true ∧ (s.inService || before) = true := by
  simp only [State.serves, Bool.and_eq_true, beq_iff_eq, bne_iff_ne, ne_eq, and_assoc]

/-- A command that is served to these roles is served where more roles, or more boot states, have it. -/
theorem State.serves_mono {s : State} {conn : Nat} {c : Conn} {roles roles' : List Nat} {before before' : Bool}
    (h : s.serves conn c roles before = true) (hr : roles ⊆ roles') (hb : before = true → before' = true) :
    s.serves conn c roles' before' = true := by
  obtain ⟨hc, hon, hf, hrole, hs⟩ := State.serves_iff.mp h
  refine State.serves_iff.mpr ⟨hc, hon, hf, List.contains_iff_mem.mpr (hr (List.contains_iff_mem.mp hrole)), ?_⟩
  rw [Bool.or_eq_true] at hs ⊢
  exact hs.imp_right hb

theorem State.inService_of_serves {s : State} {conn : Nat} {c : Conn} {roles : List Nat} (h : s.serves conn c roles false = true) :
    s.inService = true := by
  obtain ⟨-, -, -, -, hs⟩ := State.serves_iff.mp h
  simpa using hs

theorem State.touch_conn? (s : State) (conn : Nat) : (s.touch conn).conn? conn = (s.conn? conn).map fun c => { c with last := s.now } :=
  find?_mapIf (key := Conn.n) (g := fun c => { c with last := s.now }) (fun _ h => h) s.mgmt.conns

/-- A connection that stands gets its answer. -/
theorem State.reply_of_conn {s : State} {conn : Nat} (h : (s.conn? conn).isSome = true) (st : Nat) (body : List Nat) :
    s.reply conn st body = s.emit (.mgmt conn st body) := if_pos (.inr h)

theorem State.reply_says {s : State} {conn : Nat} (h : (s.conn? conn).isSome = true) (st : Nat) (body : List Nat) :
    (s.reply conn st body).says conn st body := by
  rw [State.reply_of_conn h]
  exact List.mem_cons_self

section
variable {s : State} {conn : Nat} {c : Conn} {roles : List Nat} {before : Bool} (h : s.serves conn c roles before = true)
include h

theorem State.serve_of_serves (k : State → Conn → State) : s.serve conn roles before k = k (s.touch conn) c := by
  obtain ⟨hc, hon, hf, hrole, hs⟩ := State.serves_iff.mp h
  have hf' : (s.touch conn).boot.phase ≠ .failed := hf
  have hs' : ((s.touch conn).inService || before) = true := hs
  unfold State.serve
  rw [hc]
  dsimp only
  rw [if_neg (by simp [hon]), if_neg hf', if_neg (by simp [List.contains_iff_mem.mp hrole]), if_pos hs']

/-- The connection of a served command stands while it is answered. -/
theorem State.touch_conn_isSome : ((s.touch conn).conn? conn).isSome = true := by
  obtain ⟨hc, -⟩ := State.serves_iff.mp h
  rw [State.touch_conn?, hc]
  rfl

/-- A read that boot failed offers too is answered to a served connection of the network attachment. -/
theorem State.serveRead_of_serves (hn : conn < 8) (hb : before = true) (board : Bool) (k : State → Bool → State) :
    s.serveRead conn roles board k = k (s.touch conn) (exactRole c.role) := by
  obtain ⟨-, -, hf, -⟩ := State.serves_iff.mp h
  subst hb
  unfold State.serveRead
  rw [if_neg (by simp only [boardConn]; omega), if_neg hf, State.serve_of_serves h]

end

/-! ### Reads (R384 to R386) -/

/-- The ring still holds every record that was written, while it has not come round (R351). -/
theorem Recorder.oldest_of_next {q : Recorder} (h : q.next ≤ 65536) : q.oldest = 0 := by
  unfold Recorder.oldest; omega

theorem State.eventsFrom_of_next {s : State} {count : Nat} (hlo : 1 ≤ count) (hhi : count ≤ 64) (hnext : s.recorder.next ≤ 65536) (conn first : Nat) :
    s.eventsFrom conn first count = s.emit (.events conn (s.recorder.next - 1)
      ((((List.range count).map fun i => first + i).filter fun n => n < s.recorder.next).filterMap s.recorder.find)) := by
  unfold State.eventsFrom
  rw [if_neg (by omega)]
  dsimp only
  rw [Recorder.oldest_of_next hnext, if_neg (by simp)]

section
variable {s : State} {conn : Nat} {c : Conn}

theorem State.statusRead_answers (h : s.serves conn c [1, 2, 3, 4] true = true) (hn : conn < 8) (hstop : s.boot.phase ≠ .stopped .thermal) :
    (s.statusRead conn).says conn msOk [s.statusBlock (exactRole c.role)] ∧ (s.statusRead conn).reqs = s.reqs := by
  have hread : s.statusRead conn = (s.touch conn).emit (.mgmt conn msOk [s.statusBlock (exactRole c.role)]) := by
    unfold State.statusRead
    rw [if_neg hstop, State.serveRead_of_serves h hn rfl]
    exact State.reply_of_conn (State.touch_conn_isSome h) _ _
  rw [hread]
  exact ⟨List.mem_cons_self, rfl⟩

/-- Roles 1 to 3 read exactly. -/
theorem State.telemetryRead_exact {group : Nat} (h : s.serves conn c [1, 2, 3] false = true) (hn : conn < 8) (hg : group ≤ 7) (inst : Nat) :
    (s.telemetryRead conn group inst).says conn msOk (s.exactGroup group inst) := by
  obtain ⟨-, -, -, hrole, -⟩ := State.serves_iff.mp h
  have hexact : exactRole c.role = true := by simpa [exactRole, or_assoc] using hrole
  have hall := State.serves_mono (roles' := [1, 2, 3, 4]) h (by simp) id
  unfold State.telemetryRead
  rw [if_neg (by simp only [boardConn]; omega), State.serve_of_serves hall, if_neg (by omega), if_pos hexact]
  exact State.reply_says (State.touch_conn_isSome h) _ _

/-- A tenant reader reads what is its own, coarsened (R326). -/
theorem State.telemetryRead_coarse {group inst : Nat} {body : List Nat} (h : s.serves conn c [4] false = true) (hn : conn < 8) (hg : group ≤ 7)
    (hb : s.coarseGroup c.tenant group inst = some body) : (s.telemetryRead conn group inst).says conn msOk body := by
  obtain ⟨-, -, -, hrole, -⟩ := State.serves_iff.mp h
  have hcoarse : ¬exactRole c.role = true := by simp [exactRole, show c.role = 4 by simpa using hrole]
  have hall := State.serves_mono (roles' := [1, 2, 3, 4]) h (by simp) id
  unfold State.telemetryRead
  rw [if_neg (by simp only [boardConn]; omega), State.serve_of_serves hall, if_neg (by omega), if_neg hcoarse,
    show (s.touch conn).coarseGroup c.tenant group inst = some body from hb]
  exact State.reply_says (State.touch_conn_isSome h) _ _

theorem State.eventRead_answers {count : Nat} (h : s.serves conn c [1, 2, 3] true = true) (hn : conn < 8) (hlo : 1 ≤ count) (hhi : count ≤ 64)
    (hnext : s.recorder.next ≤ 65536) (first : Nat) : Output.events conn (s.recorder.next - 1)
      ((((List.range count).map fun i => first + i).filter fun n => n < s.recorder.next).filterMap s.recorder.find) ∈
        (s.eventRead conn first count).out := by
  have hread : s.eventRead conn first count = (s.touch conn).eventsFrom conn first count := State.serveRead_of_serves h hn rfl _ _
  rw [hread, State.eventsFrom_of_next hlo hhi (by exact hnext)]
  exact List.mem_cons_self

theorem State.traceRead_answers {n : Nat} (h : s.serves conn c [1, 3] false = true) (hfn : (s.fn? n).isSome = true) :
    Output.traces conn (((s.trace.filter fun x => x.fn == n).take traceKept).map fun x =>
      [x.stamp, x.admission, x.firstByte, x.slotSeq, x.status, x.opcode]) ∈ (s.traceRead conn n).out := by
  have hthere : ¬((s.touch conn).fn? n).isNone = true := by
    rw [show (s.touch conn).fn? n = s.fn? n from rfl, Option.isNone_iff_eq_none]
    exact Option.isSome_iff_ne_none.mp hfn
  unfold State.traceRead
  rw [State.serve_of_serves h, if_neg hthere]
  exact List.mem_cons_self

theorem State.unknownCommand_answers {kind bytes : Nat} (hc : s.conn? conn = some c) (hon : s.portOn = true) (hk : kind < 3)
    (hb : bytes ≤ bodyLimit) : (s.unknownCommand conn kind bytes).says conn msUnknown [] := by
  unfold State.unknownCommand
  rw [hc]
  dsimp only
  rw [if_neg (by simp [hon]), if_neg (by omega)]
  exact State.reply_says (by rw [State.touch_conn?, hc]; rfl) _ _

end

/-! ### Connections end (R380, R388) -/

/-- The keys of a session, and the keys and counter of its group, are the island's. -/
theorem State.dropKeys_eq (s : State) (x : Session) : ∃ i, s.dropKeys x = { s with island := i } ∧ i.sessions = s.island.sessions := by
  unfold State.dropKeys
  dsimp only
  cases x.slot <;> cases x.transport <;> exact ⟨_, rfl, rfl⟩

theorem State.endSession_eq (s : State) (tr : Transport) (st : SessionSt) : ∃ i, s.endSession tr st = { s with island := i } := by
  unfold State.endSession
  cases s.session? tr with
  | none => exact ⟨_, rfl⟩
  | some x =>
    obtain ⟨i, h, -⟩ := s.dropKeys_eq x
    dsimp only
    rw [h]
    exact ⟨_, rfl⟩

/-- Nothing of a forgotten transport is left. -/
theorem State.forgetSession_eq (s : State) (tr : Transport) :
    ∃ i, s.forgetSession tr = { s with island := i } ∧ ∀ x ∈ i.sessions, x.transport ≠ tr := by
  obtain ⟨i, h⟩ := s.endSession_eq tr .ended
  unfold State.forgetSession
  rw [h]
  exact ⟨_, rfl, fun x hx => by simpa using (List.mem_filter.mp hx).2⟩

/-- A connection closes with close_notify, and its session goes with it. -/
theorem State.closeConn_eq (s : State) (n : Nat) :
    ∃ i, s.closeConn n = { s with mgmt := { s.mgmt with conns := s.mgmt.conns.filter fun c => c.n != n }, island := i, out := .closed n :: s.out } ∧
      ∀ x ∈ i.sessions, x.transport ≠ .mgmt n := by
  unfold State.closeConn
  extract_lets conns
  obtain ⟨i, h, hi⟩ := State.forgetSession_eq { s with mgmt := { s.mgmt with conns := conns } } (.mgmt n)
  exact ⟨i, congrArg (State.emit · (.closed n)) h, hi⟩

theorem State.closeConn_closes (s : State) (n : Nat) : (∀ x ∈ (s.closeConn n).mgmt.conns, x.n ≠ n) ∧
    (∀ x ∈ (s.closeConn n).island.sessions, x.transport ≠ .mgmt n) ∧ Output.closed n ∈ (s.closeConn n).out := by
  obtain ⟨i, h, hi⟩ := s.closeConn_eq n
  rw [h]
  exact ⟨fun x hx => by simpa using (List.mem_filter.mp hx).2, hi, List.mem_cons_self⟩

end Sys2Proof.Machine
end

section
/-! CLAIMS. The obligations on reads of the management port and on its connections. -/

namespace Sys2Proof.Machine

/-- Settles O52: each read is served, and answered at once. -/
theorem managementReadsComplete : Obligations.ManagementReadsComplete := by
  unfold Obligations.ManagementReadsComplete
  intro s conn c hn hstop
  exact ⟨fun h => ⟨_, rfl, State.statusRead_answers h hn hstop⟩,
    fun _ inst h hg => ⟨_, rfl, State.telemetryRead_exact h hn hg inst⟩,
    fun _ _ _ h hg hb => ⟨_, rfl, State.telemetryRead_coarse h hn hg hb⟩,
    fun first _ h hlo hhi hnext => ⟨_, rfl, State.eventRead_answers h hn hlo hhi hnext first⟩,
    fun _ h hfn => ⟨_, rfl, State.traceRead_answers h hfn⟩,
    fun _ _ _ hc hon hk hb => ⟨_, rfl, State.unknownCommand_answers hc hon hk hb⟩⟩

/-- Settles O54: the free connection that a certificate opens, and what closes one. -/
theorem connectionCommandsComplete : Obligations.ConnectionCommandsComplete := by
  unfold Obligations.ConnectionCommandsComplete
  refine ⟨fun s n k owner a hon hf hfid hfree ha => ⟨_, rfl, ?_⟩, fun s tls k owner hport => ⟨_, rfl, ?_⟩, fun s conn c hc hon => ⟨⟨_, rfl, ?_⟩, fun hidle => ⟨_, rfl, ?_⟩⟩,
    fun s address hon => ⟨⟨_, rfl, ?_⟩, fun hstatic => ⟨_, rfl, ?_⟩⟩⟩
  · have hclosed : ¬(!s.portOn ∨ s.boot.phase = .failedNoId ∨ s.params.tcpPort ≠ s.params.tcpPort) := by simp [hon, hfid]
    unfold State.connect
    rw [if_neg hclosed, hfree]
    dsimp only
    rw [if_neg (by simp), if_neg hf, Option.bind_some, ha]
  · exact if_pos (.inr (.inr hport))
  · have hclose : s.clientClose conn = s.closeConn conn := if_pos ⟨by rw [hc]; rfl, hon⟩
    rw [hclose]
    exact s.closeConn_closes conn
  · have hclose : s.idleClose conn = s.closeConn conn := by
      unfold State.idleClose
      rw [hc]
      exact if_pos ⟨hon, hidle⟩
    rw [hclose]
    exact s.closeConn_closes conn
  · exact if_pos hon
  · exact (if_pos ⟨rfl, hstatic⟩).trans (if_pos hon)

end Sys2Proof.Machine
end

section
/-! SUPPORT. One tick of the block, and a command outside service (log entries 1 and 22). -/

namespace Sys2Proof.Machine

/-! ### One step (log entry 1) -/

theorem State.tick_of_decided {s : State} (h : s.undecided = false) :
    s.tick = { s with now := s.now + 1, monitor := { s.monitor with count := s.monitor.count + 1 } } := by
  unfold State.tick
  rw [h]
  rfl

theorem State.tick_of_undecided {s : State} (h : s.undecided = true) :
    s.tick = { s.live State.endTick with
      now := (s.live State.endTick).now + 1, monitor := { (s.live State.endTick).monitor with count := (s.live State.endTick).monitor.count + 1 } } := by
  unfold State.tick
  rw [if_pos h]

/-! ### Outside service (log entry 22) -/

section
variable {s : State} (hs : s.inService = false)
include hs

theorem State.live_outside (g : State → State) : s.live g = s := if_neg (by simp [hs])

theorem State.readFaults_outside (found : List ReadFault) : s.readFaults found = s := State.live_outside hs _

theorem State.regionCmd_outside {d : RegionScope} (hd : d.conn.isSome = false) (k : State → State) : s.regionCmd d k = s := by
  unfold State.regionCmd
  rw [Option.isSome_eq_false_iff.mp hd |> Option.isNone_iff_eq_none.mp]
  exact State.live_outside hs k

/-- A command that needs service does nothing outside it: all that it does, on a request, at an aperture, for a frame or for itself, is the
work of a live controller. -/
theorem exec_outside (c : Instr) (hc : c.anytime = false) : exec c s = .next s := by
  cases c
  -- the direct region's lines
  case cxlMemRead | cxlMemWrite => exact if_pos (by simp [hs])
  -- region commands of a CXL host's mailbox
  case regionOpen | regionPublish | regionGrant | regionWithdraw | regionRelease =>
    exact congrArg _ (State.regionCmd_outside hs hc _)
  -- no command that is taken at any time is left
  all_goals cases hc
  -- commands that first report what their reads find
  case walkBlock | passResume | copyVerify | readAndRekeyEnd | dmaTransferEnd =>
    exact congrArg _ ((congrArg (State.live · _) (State.readFaults_outside hs _)).trans (State.live_outside hs _))
  -- CONFIG, on a link that is up and on one that is not
  case config => exact congrArg _ (ite_keeps (m := fun t => t) (State.live_outside hs _) (State.live_outside hs _))
  all_goals exact congrArg Host.Outcome.next (if_neg (c := s.inService = true) (by simp [hs]))

end

end Sys2Proof.Machine
end

section
/-! CLAIMS. The statements about one step and about a controller outside service. -/

namespace Sys2Proof.Machine

/-- Settles O1: the front of the queue (`step_front`), and the tick. -/
theorem stepRunsFront : Obligations.StepRunsFront := by
  unfold Obligations.StepRunsFront
  refine ⟨fun s c rest h => step_front h, fun s h => ?_⟩
  rw [step_idle h]
  exact ⟨fun hd => by rw [State.tick_of_decided hd], fun hd =>
    ⟨by rw [State.tick_of_undecided hd], live_keeps (m := State.now) (now_of_spine s.endTick_spine)⟩⟩

/-- Settles O8: from `exec_outside`, the split over the commands. -/
theorem outOfService : Obligations.OutOfService := by
  unfold Obligations.OutOfService
  exact fun c s hc hs => exec_outside hs c hc

end Sys2Proof.Machine
end

section
/-! SUPPORT. The event recorder's writes (R351 to R354), and the blocks that a failed arbiter takes out of service (R341). -/

namespace Sys2Proof.Machine

/-! ### The event recorder (R352 to R354) -/

/-- An event touches the recorder's queue and its count of lost events. -/
theorem State.event_recorder (s : State) (name : String) (code : Option Nat) (source detail : Nat) :
    ∃ q d, s.event name code source detail = { s with recorder := { s.recorder with queue := q, dropped := d } } := by
  unfold State.event
  dsimp only
  split <;> exact ⟨_, _, rfl⟩

theorem Recorder.write_repeat {q : Recorder} {e l : Event} {ls : List Event} (hr : q.ring = l :: ls) (he : e.repeats l = true) :
    (q.write e).ring = l.again e :: ls ∧ (q.write e).next = q.next := by
  unfold Recorder.write
  rw [hr]
  dsimp only
  rw [if_pos he]
  exact ⟨rfl, rfl⟩

theorem Recorder.write_new {q : Recorder} {e : Event} (he : ∀ l ls, q.ring = l :: ls → e.repeats l = false) :
    (q.write e).ring = ({ e with seq := q.next % 2 ^ 32 } :: q.ring).take 65536 ∧ (q.write e).next = q.next + 1 := by
  unfold Recorder.write
  cases hr : q.ring with
  | nil => exact ⟨rfl, rfl⟩
  | cons l ls =>
    dsimp only
    rw [if_neg (by simp [he l ls hr])]
    exact ⟨rfl, rfl⟩

theorem Recorder.write_queue (q : Recorder) (e : Event) : (q.write e).queue = q.queue ∧ (q.write e).dropped = q.dropped := by
  unfold Recorder.write
  split
  · split <;> exact ⟨rfl, rfl⟩
  · exact ⟨rfl, rfl⟩

/-- The recorder takes the head of its queue; where it had lost events, their count follows in the queue. -/
theorem State.recordEvent_eq {s : State} {e : Event} {rest : List Event} (hb : s.recorder.booted = true) (hq : s.recorder.queue = e :: rest) :
    ∃ q d, s.recordEvent = { s with recorder := { ({ s.recorder with queue := rest } : Recorder).write e with queue := q, dropped := d } } ∧
      (s.recorder.dropped = 0 → q = rest) := by
  let w := ({ s.recorder with queue := rest } : Recorder).write e
  obtain ⟨hrest, hdropped⟩ := Recorder.write_queue { s.recorder with queue := rest } e
  have hrun : s.recordEvent = if w.dropped = 0 then { s with recorder := w } else
      State.event { s with recorder := { w with dropped := 0 } } "EVENTS_LOST" (some 0x0002) (evSource 0 0) (w.dropped % 2 ^ 32) := by
    unfold State.recordEvent
    extract_lets q
    rw [if_neg (by simp [q, hb]), show q.queue = e :: rest from hq]
  rw [hrun]
  split
  · exact ⟨w.queue, w.dropped, rfl, fun _ => hrest⟩
  · next hd =>
    obtain ⟨q, d, h⟩ := State.event_recorder { s with recorder := { w with dropped := 0 } } "EVENTS_LOST" (some 0x0002) (evSource 0 0)
      (w.dropped % 2 ^ 32)
    exact ⟨q, d, h, fun h0 => absurd (hdropped.trans h0) hd⟩

theorem Event.repeats_iff {e l : Event} :
    e.repeats l = true ↔ e.code = l.code ∧ e.name = l.name ∧ e.source = l.source ∧ e.first ≤ l.last + 470000 := by
  simp only [Event.repeats, Bool.and_eq_true, beq_iff_eq, decide_eq_true_eq, and_assoc]

/-! ### Arbiters (R341) -/

/-- What an operation leaves of the faults but for spares and the advice. -/
def State.worn (s : State) : Faults := s.faults.unspent

theorem State.worn_of_ended {s t : State} (h : t.ended = s.ended) : t.worn = s.worn := (congrArg (fun x => x.faults.unspent) h :)

theorem State.event_worn (s : State) (name code source detail) : (s.event name code source detail).worn = s.worn :=
  congrArg Faults.unspent (s.event_faults name code source detail)

theorem State.advise_worn (s : State) (detail : Nat) : (s.advise detail).worn = s.worn :=
  (congrArg Faults.unspent (s.advise_faults detail) :)

theorem State.faultReq_worn (s : State) (r : Req) (status block layer : Nat) : (s.faultReq r status block layer).worn = s.worn := by
  have ends : ∀ f, (s.writeEnds r f).worn = s.worn := fun f => by
    unfold State.writeEnds
    split
    · rfl
    · exact State.worn_of_ended (State.finish_ended _ _ _ _ _)
    · exact State.worn_of_ended (State.finish_ended _ _ _ _ _)
  exact ite_keeps (m := State.worn) (ends _) rfl

theorem State.endServed_worn (s : State) (ids : List Nat) : (s.endServed ids).worn = s.worn :=
  foldl_keeps State.worn _ (fun s id => by
    split
    · exact ite_keeps (m := State.worn) rfl (s.faultReq_worn _ _ _ _)
    · rfl) _ _

theorem State.hashOut_worn (s : State) (out : List Nat) : (s.hashOut out).worn = s.worn := by
  refine foldl_keeps State.worn _ (fun s n => ?_) _ _
  exact (State.spend_unspent _ 9 0).trans (ite_keeps (m := State.worn) (State.event_worn _ _ _ _ _) rfl)

theorem State.keyBankFault_worn (s : State) (bank : Nat) : (s.keyBankFault bank).worn = s.worn := by
  unfold State.keyBankFault
  dsimp only
  refine ite_keeps (m := State.worn) rfl (ite_keeps (m := State.worn) (State.advise_worn _ _) ?_)
  exact ite_keeps (m := State.worn) ((State.spend_unspent _ 7 0).trans (State.event_worn _ _ _ _ _))
    ((State.advise_worn _ _).trans (State.event_worn _ _ _ _ _))

theorem State.islandOut_worn (s : State) (i : Nat) : (s.islandOut i).worn = s.worn :=
  ite_keeps (m := State.worn) (ite_keeps (m := State.worn) (s.hashOut_worn _) rfl) (s.keyBankFault_worn _)

/-- The faults of a controller whose block leaves service, before what its own section provides. -/
theorem State.arbiterFault_island {s : State} (a : Nat) {block : Nat} (h : 8 ≤ block % 65536 / 4096) :
    (s.arbiterFault a block).faults.blocksOut = block % 65536 :: s.faults.blocksOut.filter fun b => b != block % 65536 := by
  let u := s.event "ARBITER_FAULT" (some 0xC407) (block % 65536) (a % 65536)
  let v : State := { u with faults := { u.faults with blocksOut := block % 65536 :: u.faults.blocksOut.filter (· != block % 65536) } }
  have hv : (s.arbiterFault a block).worn = v.worn := by
    have served := v.endServed_worn (v.servedBy (block % 65536 / 4096) (block % 65536 % 4096))
    refine Eq.trans ?_ served
    unfold State.arbiterFault State.blockOut
    split
    case h_8 => exact State.islandOut_worn _ _
    case h_9 => rfl
    all_goals omega
  have hu : u.faults = s.faults := s.event_faults _ _ _ _
  rw [show (s.arbiterFault a block).faults.blocksOut = v.faults.blocksOut from (congrArg Faults.blocksOut hv :), ← hu]

/-- An arbiter's fault halts a control pair that runs no partition. -/
theorem State.arbiterFault_pair {s : State} (a : Nat) {n : Nat} {p : ControlPair} (hn : n < 4096)
    (hp : (s.faults.pairs.find? fun p => p.n == n) = some p) (hh : p.halted = false) (hj : p.partition = none) :
    ((s.arbiterFault a (7 * 4096 + n)).faults.pairs.find? fun p => p.n == n) = some { p with halted := true } ∧
      (7 * 4096 + n) ∈ (s.arbiterFault a (7 * 4096 + n)).faults.blocksOut := by
  have hmod : (7 * 4096 + n) % 65536 = 7 * 4096 + n := by omega
  have hkind : (7 * 4096 + n) / 4096 = 7 := by omega
  have hinst : (7 * 4096 + n) % 4096 = n := by omega
  let u := s.event "ARBITER_FAULT" (some 0xC407) (7 * 4096 + n) (a % 65536)
  let v : State := { u with faults := { u.faults with blocksOut := (7 * 4096 + n) :: u.faults.blocksOut.filter (· != 7 * 4096 + n) } }
  have hu : u.faults = s.faults := s.event_faults _ _ _ _
  have hvp : (v.faults.pairs.find? fun p => p.n == n) = some p := by
    rw [← hp, ← hu]
  have hout : s.arbiterFault a (7 * 4096 + n) = v.pairFault n := by
    have hserved : v.servedBy 7 n = [] := by
      rw [State.servedBy, hvp, Option.bind_some, hj]
    unfold State.arbiterFault State.blockOut
    rw [hmod, hkind, hinst]
    show (v.endServed (v.servedBy 7 n)).pairFault n = v.pairFault n
    rw [hserved]
    rfl
  rw [hout]
  refine ⟨State.pairFault_halts_spare hvp hh hj, ?_⟩
  have hhalt : v.pairFault n = (v.modPair n fun p => { p with halted := true }).spend 6 0 := by
    simp only [State.pairFault, hvp, hh, hj, Bool.false_eq_true, if_false]
  have hb : (v.pairFault n).faults.blocksOut = v.faults.blocksOut := by
    rw [hhalt]
    exact (congrArg Faults.blocksOut (State.spend_unspent _ 6 0) :)
  rw [hb]
  exact List.mem_cons_self

end Sys2Proof.Machine
end

section
/-! CLAIMS. The obligations on the event recorder and on arbiters. -/

namespace Sys2Proof.Machine

/-- Settles O11: the two ways to write an event. -/
theorem repeatsCount : Obligations.RepeatsCount := by
  unfold Obligations.RepeatsCount
  intro s e rest hb hq hcount
  obtain ⟨q, d, ht, -⟩ := State.recordEvent_eq hb hq
  refine ⟨fun l ls hr hcode hname hsource htime => ⟨_, rfl, ?_⟩, fun hnew => ⟨_, rfl, ?_⟩⟩
  · obtain ⟨hring, hnext⟩ := Recorder.write_repeat (q := { s.recorder with queue := rest }) hr
      (Event.repeats_iff.mpr ⟨hcode, hname, hsource, htime⟩)
    rw [ht]
    refine ⟨hnext, hring.trans ?_⟩
    have hn : min (l.count + 1) 65535 = if l.count < 65535 then l.count + 1 else 65535 := by split <;> omega
    rw [Event.again, hn]
  · obtain ⟨hring, hnext⟩ := Recorder.write_new (q := { s.recorder with queue := rest }) (e := e) fun l ls hr =>
      Bool.eq_false_iff.mpr fun h => hnew l ls hr (Event.repeats_iff.mp h)
    rw [ht]
    refine ⟨hnext, hring.trans ?_⟩
    rw [← hcount]

/-- Settles O46: the write of an event, and the block that an arbiter's fault takes out. -/
theorem recorderCommandsComplete : Obligations.RecorderCommandsComplete := by
  unfold Obligations.RecorderCommandsComplete
  refine ⟨fun s e rest hb hq hd => ⟨_, rfl, ?_⟩, fun s a block hs hk => leaves_of_live rfl hs (State.arbiterFault_island a hk),
    fun s a n p hs hn hp hh hj => leaves_of_live rfl hs (State.arbiterFault_pair a hn hp hh hj)⟩
  obtain ⟨q, d, ht, hrest⟩ := State.recordEvent_eq hb hq
  rw [ht]
  refine ⟨hrest hd, ?_⟩
  split
  · next hr =>
    obtain ⟨hring, hnext⟩ := Recorder.write_new (q := { s.recorder with queue := rest }) (e := e) fun l ls h => by
      rw [show s.recorder.ring = l :: ls from h] at hr; cases hr
    refine ⟨hring.trans ?_, hnext⟩
    show ({ e with seq := s.recorder.next % 2 ^ 32 } :: s.recorder.ring).take 65536 = _
    rw [hr]
    rfl
  · next l ls hr =>
    split
    · next he => exact Recorder.write_repeat (q := { s.recorder with queue := rest }) hr he
    · next he =>
      obtain ⟨hring, hnext⟩ := Recorder.write_new (q := { s.recorder with queue := rest }) (e := e) fun l' ls' h => by
        cases hr.symm.trans (show s.recorder.ring = l' :: ls' from h)
        exact Bool.eq_false_iff.mpr he
      exact ⟨hring.trans (by rw [← hr]), hnext⟩

end Sys2Proof.Machine
end

section
/-! SUPPORT. Temperature (R401 to R403): the state that a sample is decided on, and the change of stage. -/

namespace Sys2Proof.Machine

/-! ### Temperature (R401 to R403) -/

/-- A change of stage: the reading stands for the new stage, and the in-band interrupt has left. -/
theorem State.toStage_leaves (s : State) (new : Nat) :
    (s.toStage new).power = { s.power with stage := new, leaveSince := none, thermAlert := decide (0 < new) } ∧ Output.inBand ∈ (s.toStage new).out := by
  unfold State.toStage
  extract_lets old p u v
  have hv : v.power = { s.power with stage := new, leaveSince := none, thermAlert := decide (0 < new) } ∧ Output.inBand ∈ v.out := by
    obtain ⟨r, hr⟩ := u.event_eq "THERMAL_STAGE" (some 0x0E01) (evSource 14 0) (new + u.power.dieC % 256 * 256 + u.power.stackC % 256 * 65536)
    unfold v
    rw [hr]
    exact ⟨rfl, List.mem_cons_self⟩
  split
  · have hp := State.recompute_plan (v.reprice old new)
    rw [State.power_of_plan hp, State.out_of_plan hp]
    exact hv
  · exact hv

/-- What a thermal sample notes before it decides: the readings. -/
def State.read (s : State) (pairs : List PairReading) (temps : List Nat) : Power :=
  { s.power with dieC := dieReading pairs, stackC := stackReading temps, disagree := disagreeing s.power.disagree pairs, powerW := Config.powerW s.free }

/-- The state that a sample is decided on. -/
def State.sampled (s : State) (pairs : List PairReading) (temps : List Nat) : State :=
  ({ s with power := { s.power with dieC := dieReading pairs, stackC := stackReading temps,
                                    disagree := disagreeing s.power.disagree pairs } } : State).readPower.sensorEvents pairs

theorem State.sampled_reads (s : State) (pairs : List PairReading) (temps : List Nat) :
    (s.sampled pairs temps).power = s.read pairs temps ∧ (s.sampled pairs temps).now = s.now ∧ (s.sampled pairs temps).boot = s.boot := by
  let u : State := { s with power := { s.power with dieC := dieReading pairs, stackC := stackReading temps, disagree := disagreeing s.power.disagree pairs } }
  have hread : (u.readPower.power, u.readPower.now, u.readPower.boot) = (s.read pairs temps, s.now, s.boot) := by
    unfold State.readPower
    dsimp only
    split <;> rfl
  have hsensor : ((u.readPower.sensorEvents pairs).power, (u.readPower.sensorEvents pairs).now, (u.readPower.sensorEvents pairs).boot) =
      (u.readPower.power, u.readPower.now, u.readPower.boot) := by
    refine foldl_keeps (fun t : State => (t.power, t.now, t.boot)) _ (fun t x => ?_) _ _
    obtain ⟨r, hr⟩ := t.event_eq "SENSOR_DISAGREE" (some 0x4E09) (evSource 14 0) (x.2 % 32 + x.1.a % 256 * 256 + x.1.b % 256 * 65536)
    rw [hr]
  obtain ⟨hp, h⟩ := Prod.mk.inj (hsensor.trans hread)
  obtain ⟨hn, hb⟩ := Prod.mk.inj h
  exact ⟨hp, hn, hb⟩

section
variable {s : State} {pairs : List PairReading} {temps : List Nat} (hrun : s.boot.phase = .training ∨ s.boot.phase = .service)
include hrun

theorem State.thermalSample_trips {x : PairReading × Nat} (hx : trippedPair pairs = some x) :
    (s.thermalSample pairs temps).boot.phase = .stopped .thermal ∧ (s.thermalSample pairs temps).power.thermTrip = true := by
  unfold State.thermalSample
  rw [if_neg (by rcases hrun with h | h <;> simp [h])]
  dsimp only
  rw [hx]
  exact ⟨rfl, rfl⟩

theorem State.thermalSample_steps (hx : trippedPair pairs = none) : s.thermalSample pairs temps = (s.sampled pairs temps).stageStep := by
  unfold State.thermalSample
  rw [if_neg (by rcases hrun with h | h <;> simp [h])]
  dsimp only
  rw [hx]
  rfl

end

end Sys2Proof.Machine
end

section
/-! CLAIMS. The obligation on thermal samples. -/

namespace Sys2Proof.Machine

/-- Settles O57: the sample's readings, and the step of the stage that they call for. -/
theorem thermalSampleCompletes : Obligations.ThermalSampleCompletes := by
  unfold Obligations.ThermalSampleCompletes
  intro s pairs temps hrun
  obtain ⟨hpower, hnow, -⟩ := s.sampled_reads pairs temps
  have step : ∀ {P : State → Prop}, trippedPair pairs = none → P (s.sampled pairs temps).stageStep → Leaves (.thermalSample pairs temps) s P :=
    fun hx h => ⟨_, rfl, by rw [State.thermalSample_steps hrun hx]; exact h⟩
  refine ⟨fun htrip => ?_, fun hnone => ⟨fun henter => step hnone ?_, fun hstay hleave => ⟨fun hlong => step hnone ?_, fun hshort => step hnone ?_⟩,
    fun hstay hleave => step hnone ?_⟩⟩
  · obtain ⟨x, hx⟩ := Option.isSome_iff_exists.mp htrip
    exact ⟨_, rfl, State.thermalSample_trips hrun hx⟩
  all_goals
    unfold State.stageStep
    rw [hpower, hnow]
    dsimp only [State.read]
  · rw [if_pos henter]
    obtain ⟨hp, hout⟩ := (s.sampled pairs temps).toStage_leaves (stageEntered (dieReading pairs) (stackReading temps))
    rw [hp]
    exact ⟨rfl, rfl, decide_eq_true (by omega), hout⟩
  · rw [if_neg (by omega), if_pos hleave, if_pos (show _ + leaveTicks ≤ _ from hlong)]
    obtain ⟨hp, hout⟩ := (s.sampled pairs temps).toStage_leaves (s.power.stage - 1)
    rw [hp]
    exact ⟨rfl, rfl, decide_eq_decide.mpr (by omega), hout⟩
  · rw [if_neg (by omega), if_pos hleave, if_neg (by simp only [leaveTicks]; omega)]
    exact ⟨rfl, rfl⟩
  · rw [if_neg (by omega), if_neg (by simp [hleave])]
    exact ⟨rfl, rfl⟩

end Sys2Proof.Machine
end

section
/-! SUPPORT. Ports that leave traffic, and the lanes of their clusters (R250, R261, 12). -/

namespace Sys2Proof.Machine

/-! ### A port that leaves traffic (R261) -/

/-- The element found by its key, after an update of it. -/
theorem find?_mapIf_some {α κ : Type} [BEq κ] [LawfulBEq κ] {key : α → κ} {k : κ} {g : α → α} {l : List α} {x : α}
    (hx : (l.find? fun x => key x == k) = some x) (hg : ∀ x, key x = k → key (g x) = k) :
    (mapIf (fun x => key x == k) g l).find? (fun x => key x == k) = some (g x) := by
  rw [find?_mapIf hg, hx]
  rfl

/-- The port after an update of it. -/
theorem State.modPort_port {s : State} {q : PortId} {p : Port} {g : Port → Port} (hp : s.port? q = some p) (hg : ∀ x, (g x).id = x.id) :
    (s.modPort q g).port? q = some (g p) := by
  rw [s.port?_modPort q g hg, hp]
  rfl

@[simp] theorem State.zeroise_empties (s : State) (n : Nat) : (s.zeroise n).slotFilled n = false := by
  simp [State.slotFilled, State.zeroise]

theorem State.endTxns_of_quiet {s : State} {port : PortId} (h : s.quiet port = true) (st : Nat) : s.endTxns port st = s := by
  have hnone : s.txns.filter (fun t => t.port == port) = [] := by
    simpa [State.quiet, List.filter_eq_nil_iff] using h
  rw [State.endTxns, hnone]
  rfl

theorem State.endSessions_eq (s : State) (port : PortId) : ∃ i, s.endSessions port = { s with island := i } := by
  unfold State.endSessions
  split
  · next t _ => cases (s.session? t).bind (·.slot) <;> exact ⟨_, rfl⟩
  · exact ⟨_, rfl⟩

/-- A port without open transactions that leaves traffic: it enters its state, and its keys are gone. -/
theorem State.leaveUp_of_quiet {s : State} {port : PortId} (h : s.quiet port = true) (st : PortSt) :
    ∃ i, s.leaveUp port st = { s.modPort port fun p => p.enter st s.now with island := i } ∧ (s.leaveUp port st).slotFilled (portSlot port) = false := by
  obtain ⟨i, hi⟩ := (s.modPort port fun p => p.enter st s.now).endSessions_eq port
  have he : s.leaveUp port st = ((s.modPort port fun p => p.enter st s.now).endSessions port).zeroise (portSlot port) := by
    unfold State.leaveUp
    rw [hi]
    exact State.endTxns_of_quiet (by exact h) _
  rw [he]
  exact ⟨_, by rw [hi]; rfl, State.zeroise_empties _ _⟩

theorem State.leaveUp_port {s : State} {port : PortId} {p : Port} (h : s.quiet port = true) (hp : s.port? port = some p) (st : PortSt) :
    (s.leaveUp port st).port? port = some (p.enter st s.now) := by
  obtain ⟨i, hi, -⟩ := State.leaveUp_of_quiet h st
  rw [hi]
  exact State.modPort_port hp fun _ => rfl

/-! ### Lanes (R250) -/

theorem LinkCluster.logical_lt {x : LinkCluster} {lane l : Nat} (h : x.logical lane = some l) : l < 8 := by
  unfold LinkCluster.logical at h
  split at h
  · cases h
  · split at h
    · cases h; assumption
    · split at h
      · cases h
      · simpa using List.find?_some h

theorem clusterOfPort_lanePort (mode c : Nat) {l : Nat} (h : l < 8) : clusterOfPort (lanePort mode c l) = c := by
  unfold lanePort
  split
  · simp only [clusterOfPort]; omega
  · rfl
  · rfl

theorem State.quiet_of_cluster {s : State} {port : PortId} (h : ∀ y ∈ s.txns, clusterOfPort y.port ≠ clusterOfPort port) : s.quiet port = true := by
  simp only [State.quiet, List.all_eq_true, bne_iff_ne]
  exact fun y hy he => h y hy (by rw [he])

/-- What reports and spares leave alone: ports, lanes and transactions. -/
def State.wiring (s : State) : List Port × List LinkCluster × List Txn × Nat := (s.ports, s.clusters, s.txns, s.now)

theorem State.wiring_of_serviceFrame {s t : State} (d : State) (h : serviceFrame t d = serviceFrame s d) : t.wiring = s.wiring :=
  (congrArg State.wiring h :)

@[simp] theorem State.event_wiring (s : State) (name : String) (code : Option Nat) (source detail : Nat) :
    (s.event name code source detail).wiring = s.wiring := State.wiring_of_serviceFrame s (s.event_serviceFrame ..)

@[simp] theorem State.spend_wiring (s : State) (pool inst : Nat) : (s.spend pool inst).wiring = s.wiring :=
  State.wiring_of_serviceFrame s (s.spend_serviceFrame ..)

/-- The state in which a retired lane is counted and reported, and its port, if any, is to answer. -/
def State.laneRetired (s : State) (c lane cause : Nat) (x : LinkCluster) : State :=
  let s := { s with clusters := mapIf (fun y => y.n == c) (fun y => { y with lanesBad := y.lanesBad ++ [lane], spareSpent := true }) s.clusters }
  let s := s.event "LANE_RETIRED" (some 0x8E06) (evSource 5 c) (lane + cause * 16)
  if x.spareSpent then s else s.spend 3 c

theorem State.laneRetired_wiring (s : State) (c lane cause : Nat) (x : LinkCluster) :
    (s.laneRetired c lane cause x).wiring = (s.ports,
      mapIf (fun y => y.n == c) (fun y => { y with lanesBad := y.lanesBad ++ [lane], spareSpent := true }) s.clusters, s.txns, s.now) := by
  unfold State.laneRetired
  dsimp only
  split
  · exact State.event_wiring _ _ _ _ _
  · exact (State.spend_wiring _ _ _).trans (State.event_wiring _ _ _ _ _)

/-- What the port of a retired lane does, where its cluster's spare was spent before or not. -/
def State.laneLost (s : State) (port : PortId) (spent : Bool) (mode : Nat) : State :=
  let st : Option PortSt := (s.port? port).map (·.st)
  let s := if spent ∧ mode ≠ 1 then s.modPort port fun p => { p with narrow := true } else s
  if st ≠ some .up ∧ st ≠ some .training then s
  else if spent ∧ mode = 1 then s.linkDown port
  else if st = some .up then s.toTraining port else s

theorem State.laneFails_eq {s : State} {c lane : Nat} {x : LinkCluster} (hx : (s.clusters.find? fun x => x.n == c) = some x) (hm : x.mode ≠ 0)
    (hl : lane ≤ 8) (hb : x.lanesBad.contains lane = false) (cause : Nat) :
    s.laneFails c lane cause = (x.logical lane).elim (s.laneRetired c lane cause x) fun l =>
      (s.laneRetired c lane cause x).laneLost (lanePort x.mode c l) x.spareSpent x.mode := by
  unfold State.laneFails
  rw [hx]
  dsimp -zeta only
  rw [if_neg (by simp only [hm, Nat.not_lt.mpr hl, hb, Bool.false_eq_true, or_self, not_false_eq_true])]
  cases hs : x.spareSpent <;> cases x.logical lane <;> simp [State.laneRetired, State.laneLost, hs]

/-- A lane lost under traffic trains its port again, or takes an Asvis link down where the spare was spent. -/
theorem State.laneLost_up {s : State} {port : PortId} {p : Port} (hq : s.quiet port = true) (hp : s.port? port = some p) (hup : p.st = .up)
    (spent : Bool) (mode : Nat) :
    ∃ q, (s.laneLost port spent mode).port? port = some q ∧ q.st = if spent ∧ mode = 1 then .down else .training := by
  unfold State.laneLost
  extract_lets st u
  have hst : st = some .up := by simp [st, hp, hup]
  obtain ⟨p', hp', hq'⟩ : ∃ p', u.port? port = some p' ∧ u.quiet port = true := by
    unfold u
    split
    · exact ⟨_, State.modPort_port hp fun _ => rfl, hq⟩
    · exact ⟨p, hp, hq⟩
  rw [if_neg (by simp [hst]), if_pos hst]
  split
  · exact ⟨_, State.leaveUp_port hq' hp' _, rfl⟩
  · exact ⟨_, State.leaveUp_port hq' hp' _, rfl⟩

theorem State.laneLost_clusters {s : State} {port : PortId} (hq : s.quiet port = true) (spent : Bool) (mode : Nat) :
    (s.laneLost port spent mode).clusters = s.clusters := by
  have leave : ∀ (u : State) (st : PortSt), u.quiet port = true → (u.leaveUp port st).clusters = u.clusters := fun u st hu => by
    obtain ⟨i, hi, -⟩ := State.leaveUp_of_quiet hu st
    rw [hi]
    rfl
  unfold State.laneLost
  extract_lets st u
  have hu : u.clusters = s.clusters ∧ u.quiet port = true := by
    unfold u
    split <;> exact ⟨rfl, hq⟩
  rw [← hu.1]
  exact ite_keeps rfl (ite_keeps (leave _ _ hu.2) (ite_keeps (leave _ _ hu.2) rfl))

/-- A failed lane of a cluster without open transactions: the cluster knows it, and the port that carried it leaves traffic. -/
theorem State.laneFails_retires {s : State} {c lane : Nat} {x : LinkCluster} (hx : (s.clusters.find? fun x => x.n == c) = some x) (hm : x.mode ≠ 0)
    (hl : lane ≤ 8) (hb : x.lanesBad.contains lane = false) (hq : ∀ y ∈ s.txns, clusterOfPort y.port ≠ c) (cause : Nat) :
    ((s.laneFails c lane cause).clusters.find? fun x => x.n == c) = some { x with lanesBad := x.lanesBad ++ [lane], spareSpent := true } ∧
      ∀ l p, x.logical lane = some l → s.port? (lanePort x.mode c l) = some p → p.st = .up →
        ∃ q, (s.laneFails c lane cause).port? (lanePort x.mode c l) = some q ∧ q.st = if x.spareSpent ∧ x.mode = 1 then .down else .training := by
  have hw := s.laneRetired_wiring c lane cause x
  simp only [State.wiring, Prod.mk.injEq] at hw
  obtain ⟨hports, hclusters, htxns, -⟩ := hw
  have hfind : ((s.laneRetired c lane cause x).clusters.find? fun x => x.n == c) =
      some { x with lanesBad := x.lanesBad ++ [lane], spareSpent := true } := by
    rw [hclusters]
    exact find?_mapIf_some (key := LinkCluster.n) hx fun _ h => h
  rw [State.laneFails_eq hx hm hl hb]
  cases hlog : x.logical lane with
  | none => exact ⟨hfind, fun l p h => nomatch h⟩
  | some l =>
    have hquiet : (s.laneRetired c lane cause x).quiet (lanePort x.mode c l) = true := State.quiet_of_cluster fun y hy => by
      rw [clusterOfPort_lanePort _ _ (LinkCluster.logical_lt hlog)]
      exact hq y (htxns ▸ hy)
    refine ⟨(congrArg _ (State.laneLost_clusters hquiet _ _)).trans hfind, fun l' p h hp hup => ?_⟩
    cases h
    exact State.laneLost_up hquiet ((congrArg (List.find? _) hports).trans hp) hup _ _

end Sys2Proof.Machine
end

section
/-! CLAIMS. What takes a port out of traffic (12). -/

namespace Sys2Proof.Machine

/-- Settles O33: a port that leaves traffic without open transactions enters its state with its keys gone; a retired lane does so to the
port that its logical lane belongs to. -/
theorem portFailuresComplete : Obligations.PortFailuresComplete := by
  refine ⟨fun s port p hs hp hasvis hst hq => leaves_of_live rfl hs ?_, fun s c lane x hs hx hm hl hb hq => ?_⟩
  · have hdown : s.surpriseDown port = (s.linkDown port).linkNote "SURPRISE_DOWN" port 0 := by
      cases port with
      | asvis l => exact absurd rfl (hasvis l)
      | cxl c => simp [State.surpriseDown, hp, hst]
      | nvme c n => simp [State.surpriseDown, hp, hst]
    obtain ⟨r, hr⟩ := (s.linkDown port).note_eq "SURPRISE_DOWN" (evSource 5 (clusterOfPort port)) 0
    obtain ⟨-, -, hkeys⟩ := State.leaveUp_of_quiet hq .down
    rw [hdown, State.linkNote, hr]
    exact ⟨⟨_, State.leaveUp_port hq hp .down, rfl, rfl, rfl⟩, hkeys⟩
  · exact ⟨leaves_of_live rfl hs (State.laneFails_retires hx hm hl hb hq 3), leaves_of_live rfl hs (State.laneFails_retires hx hm hl hb hq 1)⟩

end Sys2Proof.Machine
end

section
/-! SUPPORT. Frames of a link that is up, and what reads of a tray's objects leave alone (R255 to R257, R277). -/

namespace Sys2Proof.Machine

/-! ### The port that sends and hears (R255) -/

theorem Port.deriveKey_eq (p : Port) (h : Hdr) : ∃ k, p.deriveKey h = { p with ownerKeys := k } := by
  unfold Port.deriveKey
  dsimp only
  split <;> exact ⟨_, rfl⟩

/-- A frame that a port sends: it bears the port's next number, and the port counts it and keeps it. -/
theorem State.sendFrame_counts {s : State} {link : Nat} {p : Port} (hp : s.port? (.asvis link) = some p)
    (hi : s.portIssues (.asvis link) = true) (hk : s.slotFilled (portSlot (.asvis link)) = true) (f : Sent) :
    ∃ g k, Output.frame link g ∈ (s.sendFrame link f).out ∧ g.frameSeq = p.txSeq ∧ g.aux = f.aux ∧
      (s.sendFrame link f).port? (.asvis link) =
        some { p with ownerKeys := k, txSeq := p.txSeq + 1, lastTx := s.now, buffer := (g :: p.buffer).take replayFrames } := by
  obtain ⟨x, hx⟩ : ∃ x, s.keySlot? (portSlot (.asvis link)) = some x :=
    Option.isSome_iff_exists.mp (List.find?_isSome.mpr (List.any_eq_true.mp hk))
  unfold State.sendFrame
  rw [hx]
  dsimp -zeta only
  rw [if_neg (by simp [hi])]
  extract_lets _ n _ g u
  have hn : n = p.txSeq := congrArg (fun x : Option Port => x.elim 0 (·.txSeq)) hp
  obtain ⟨o, hu⟩ : ∃ o, u = { s with out := o } := by
    unfold u
    split <;> exact ⟨_, rfl⟩
  obtain ⟨q, hq⟩ := (u.emit (.frame link g)).enqueue_eq (4 + link) (g.hdr.queueFn (g.msg == msgPageGet || g.msg == msgPagePut)) g.hdr.cls
    (64 + g.data.length)
  obtain ⟨k, hkey⟩ := p.deriveKey_eq g.hdr
  refine ⟨g, k, ?_, hn, rfl, ?_⟩
  · rw [hq]
    exact List.mem_cons_self
  · rw [hq, hu]
    refine (State.modPort_port (p := p) ?_ ?_).trans ?_
    · exact hp
    · exact fun x => Port.deriveKey_id x g.hdr
    · rw [hkey]

section
variable {s : State} {link v n : Nat} {p : Port} {fr : Frame} {kinds : List Nat} (h : s.hears link p fr v kinds n = true)
include h

theorem State.service_of_hears : s.inService = true := by
  simp only [State.hears, Bool.and_eq_true] at h
  exact h.1.1.1.1.1.1.1.1.1

theorem State.port_of_hears : s.port? (.asvis link) = some p ∧ p.st = .up := by
  simp only [State.hears, Bool.and_eq_true, beq_iff_eq] at h
  obtain ⟨⟨⟨⟨⟨⟨⟨⟨⟨-, hp⟩, hup⟩, -⟩, -⟩, -⟩, -⟩, -⟩, -⟩, -⟩ := h
  exact ⟨hp, hup⟩

/-- The port of a link that has heard a frame. -/
theorem State.heard_port : ∃ k, (s.heard link fr).port? (.asvis link) = some { p with ownerKeys := k, rxSeq := p.rxSeq + 1, lastRx := s.now } := by
  obtain ⟨k, hk⟩ := p.deriveKey_eq { hdrOf fr with keyEpoch := fr.keyEpoch }
  exact ⟨k, (State.modPort_port (State.port_of_hears h).1 (fun x => by exact Port.deriveKey_id x _)).trans (by rw [hk])⟩

end

/-- The same of a message of one frame. -/
theorem State.send_counts {s : State} {link : Nat} {p : Port} (hp : s.port? (.asvis link) = some p)
    (hi : s.portIssues (.asvis link) = true) (hk : s.slotFilled (portSlot (.asvis link)) = true) (msg xid object aux status : Nat) (data : Bytes) (h : Hdr) :
    ∃ g k, Output.frame link g ∈ (s.send link msg xid object aux status data h).out ∧ g.frameSeq = p.txSeq ∧ g.aux = aux ∧
      (s.send link msg xid object aux status data h).port? (.asvis link) =
        some { p with ownerKeys := k, txSeq := p.txSeq + 1, lastTx := s.now, buffer := (g :: p.buffer).take replayFrames } :=
  State.sendFrame_counts hp hi hk _

/-! ### Reads of a tray's objects (R277) -/

/-- What reads of a tray's objects never touch. -/
def State.fetched (s : State) : State :=
  { s.carried with ports := s.linked.ports, tray := { s.tray with gets := [], objects := [] } }

/-- A state that differs from another in what frames carry alone, with the same lines and the same tray, is as fetched as it. -/
theorem State.fetched_of_carried {s t : State} (hc : t.carried = s.carried) (hl : t.linked = s.linked) : t.fetched = s.fetched := by
  have ht : t.tray = s.tray := (congrArg State.tray hc :)
  unfold State.fetched
  rw [hc, hl, ht]

@[simp] theorem State.sendFrame_fetched (s : State) (l) (f) : (s.sendFrame l f).fetched = s.fetched := State.fetched_of_carried (by simp) (by simp)
@[simp] theorem State.send_fetched (s : State) (a) (b) (c) (d) (e) (f) (g) (h) : (s.send a b c d e f g h).fetched = s.fetched :=
  s.sendFrame_fetched _ _
@[simp] theorem State.enqueue_fetched (s : State) (a) (b) (c) (d) : (s.enqueue a b c d).fetched = s.fetched := State.fetched_of_carried (by simp) (by simp)
@[simp] theorem State.openTxn_fetched (s : State) (a) (b) (c) (d) (e) : (s.openTxn a b c d e).fetched = s.fetched := rfl
@[simp] theorem State.emit_fetched (s : State) (o : Output) : (s.emit o).fetched = s.fetched := rfl

@[simp] theorem State.nvmeIssue_fetched (s : State) (a) (b) (c) (d) : (s.nvmeIssue a b c d).fetched = s.fetched :=
  ite_keeps (m := State.fetched) rfl rfl

theorem State.sendPage_fetched (link msg xid object aux : Nat) (coded : Bool) (h : Hdr) : ∀ (n off : Nat) (s : State) (data : Bytes),
    (State.sendPage link msg xid object aux coded h n off s data).fetched = s.fetched
  | 0, _, _, _ => rfl
  | n + 1, off, s, data => by
    unfold State.sendPage
    dsimp only
    refine ite_keeps (m := State.fetched) (by simp) ?_
    rw [State.sendPage_fetched link msg xid object aux coded h n, State.sendFrame_fetched]

@[simp] theorem State.modObjects_fetched (s : State) (p) (g) : (s.modObjects p g).fetched = s.fetched := rfl

@[simp] theorem State.ssdIssue_fetched (s : State) (a) (b) (c) (k) (n) : (s.ssdIssue a b c k n).fetched = s.fetched := by
  unfold State.ssdIssue
  split
  · exact ite_keeps (m := State.fetched) rfl (by simp)
  · rfl

@[simp] theorem State.readGrain_fetched (s : State) (o) (x) (w) (r) : (s.readGrain o x w r).fetched = s.fetched := by
  unfold State.readGrain
  exact ite_keeps (m := State.fetched) (foldl_keeps State.fetched _ (fun s i => ite_keeps (m := State.fetched) rfl (by simp)) _ _) (by simp)

@[simp] theorem State.serveGet_fetched (s : State) (o) (w) : (s.serveGet o w).fetched = s.fetched := by
  unfold State.serveGet
  cases w with
  | page link fr => exact ite_keeps (m := State.fetched) (by simp) (State.sendPage_fetched _ _ _ _ _ _ _ _ _ _ _)
  | line host line write =>
    refine ite_keeps (m := State.fetched) rfl ?_
    cases write <;> rfl

@[simp] theorem State.getObject_fetched (s : State) (o) (w) : (s.getObject o w).fetched = s.fetched := by
  unfold State.getObject
  exact ite_keeps (m := State.fetched) (by simp) (ite_keeps (m := State.fetched) rfl (foldl_keeps State.fetched _ (fun s k => by simp) _ _))

@[simp] theorem State.nextGets_fetched (s : State) : s.nextGets.fetched = s.fetched := by
  unfold State.nextGets
  refine foldl_keeps State.fetched _ (fun u g => ?_) _ _
  split
  · exact State.getObject_fetched _ _ _
  · rfl

/-! ### EPOCH, REPLAY and KEEPALIVE (R255 to R257) -/

/-- The owner that an EPOCH names. -/
def epochOwner (fr : Frame) : Nat := if bit fr.object 63 then 4096 + fr.object % 1024 else fr.object % 4096

/-- What EPOCH leaves of the epochs, and of the puts under the owner's old key. -/
theorem State.onEpoch_notes (s : State) (link : Nat) (fr : Frame) :
    (s.onEpoch link fr).peerEpochs = (link, epochOwner fr, fr.aux % 65536) ::
        s.peerEpochs.filter (fun x => !(x.1 == link && x.2.1 == epochOwner fr)) ∧
      (s.onEpoch link fr).tray.puts = s.tray.puts.filter fun x =>
        !(x.link == link && ((x.keyKind == 1 && x.tenant == epochOwner fr) || (x.keyKind == 2 && 4096 + x.domain == epochOwner fr))) := by
  unfold State.onEpoch
  extract_lets owner u v owns waits _ w
  exact ⟨(congrArg State.peerEpochs (State.nextGets_fetched _) :), (congrArg (fun x : State => x.tray.puts) (State.nextGets_fetched _) :)⟩

/-- What a replay sends again is out. -/
theorem State.onReplay_sends {s : State} {link : Nat} {p : Port} (hp : s.port? (.asvis link) = some p) (fr : Frame) :
    (s.onReplay link fr).ports = s.ports ∧ ∀ f ∈ p.buffer, fr.object ≤ f.frameSeq → Output.frame link f ∈ (s.onReplay link fr).out := by
  have h : ∀ (l : List Sent) (u : State), (l.foldl (fun (s : State) f => s.emit (.frame link f)) u).ports = u.ports ∧
      ∀ o, o ∈ u.out ∨ o ∈ l.map (Output.frame link) → o ∈ (l.foldl (fun (s : State) f => s.emit (.frame link f)) u).out := by
    intro l
    induction l with
    | nil => simp
    | cons f l ih =>
      intro u
      refine ⟨(ih _).1, fun o ho => (ih _).2 o ?_⟩
      simp only [List.map_cons, List.mem_cons] at ho
      simp only [State.emit, List.mem_cons]
      tauto
  unfold State.onReplay
  rw [hp]
  exact ⟨(h _ _).1, fun f hf hseq => (h _ _).2 _ (.inr (List.mem_map_of_mem (by simpa using ⟨hf, hseq⟩)))⟩

theorem State.portIssues_of_up {s : State} {port : PortId} {p : Port} (hp : s.port? port = some p) (hup : p.st = .up) (hr : p.resetting = false) :
    s.portIssues port = true := by
  simp [State.portIssues, hp, hup, hr]

end Sys2Proof.Machine
end

section
/-! CLAIMS. A link that is up (12). -/

namespace Sys2Proof.Machine

/-- Settles O32: each message reads or updates the port that has heard it, or the epochs and the tray's puts. -/
theorem linkFramesComplete : Obligations.LinkFramesComplete := by
  refine ⟨fun s link p fr f h => ?_, fun s link p fr x h hx he => leaves_of_hears rfl h (by simp [State.onKeepalive, hx, he]),
    fun s link p fr h => ⟨leaves_of_hears rfl h ?_, leaves_of_hears rfl h ?_, leaves_of_hears rfl h ?_⟩, fun s link p hs hp hup => ⟨fun hr hk => ?_, fun hq => ?_⟩⟩
  · obtain ⟨hp, hup⟩ := State.port_of_hears h
    exact ⟨_, by rw [exec, execConfig, if_pos (by simp [hp, hup])], State.takeFrame_of_hears h ..⟩
  · obtain ⟨k, hk⟩ := State.heard_port h
    refine ⟨_, State.modPort_port hk fun _ => rfl, by simp, fun c hc => ?_⟩
    simp [List.getD, hc]
  · obtain ⟨k, hk⟩ := State.heard_port h
    obtain ⟨hports, hout⟩ := State.onReplay_sends hk fr
    exact ⟨⟨_, (congrArg (List.find? _) hports).trans hk, rfl, rfl⟩, hout⟩
  · obtain ⟨hepochs, hputs⟩ := (s.heard link fr).onEpoch_notes link fr
    refine ⟨fun e => ?_, fun x hx hl => ?_⟩
    · rw [hepochs]
      simp [epochOwner]
    · rw [hputs] at hx
      simpa [hl, epochOwner, imp_iff_not_or] using (List.mem_filter.mp hx).2
  · have hi := State.portIssues_of_up hp hup hr
    refine leaves_of_live (g := fun s => s.keepaliveSend link) rfl hs ?_
    rw [State.keepaliveSend, if_pos (by simp [hp, hup])]
    obtain ⟨g, k, hg, hseq, haux, hport⟩ := State.send_counts hp hi hk msgKeepalive 0 0 s.boot.bootEpoch 0 [] {}
    exact ⟨⟨_, hport, rfl, rfl⟩, (State.send_sends hi hk ..).1, g, hg, hseq, haux⟩
  · refine leaves_of_live (g := fun s => s.keepaliveLost link) rfl hs ?_
    rw [State.keepaliveLost, if_pos (by simp [hp, hup])]
    exact ⟨_, State.leaveUp_port hq hp .down, rfl, rfl, rfl, by simp [Port.enter, hup]⟩

end Sys2Proof.Machine
end

section
/-! SUPPORT. The steps of a port's training and securing, and its way up (R251 to R253, R261, 12). -/

namespace Sys2Proof.Machine

theorem State.port?_id {s : State} {port : PortId} {p : Port} (h : s.port? port = some p) : p.id = port := by
  simpa using List.find?_some h

/-! ### A port comes up (R261, R264, R269) -/

/-- What bringing volumes into use and offering extents never touch: keys, sessions, and a port but for the frames it sends. -/
def State.secured (s : State) : Island × List Port := (s.island, s.ports.map Port.line)

@[simp] theorem State.joinVolumes_secured (s : State) (port : PortId) : (s.joinVolumes port).secured = s.secured := by
  unfold State.joinVolumes
  refine foldl_keeps State.secured _ (fun u v => ite_keeps (m := State.secured) ?_ ?_) _ _
  · obtain ⟨r, hr⟩ := u.note_eq "VOLUME_HELD_DOWN" (evSource 13 v.index) 0
    rw [hr]
    rfl
  · exact ite_keeps (m := State.secured) (ite_keeps (m := State.secured) rfl rfl) rfl

theorem State.send_secured (s : State) (a b c d e f : Nat) (g : Bytes) (h : Hdr) : (s.send a b c d e f g h).secured = s.secured := by
  have hi : (s.send a b c d e f g h).island = s.island := (congrArg State.island (s.send_linked a b c d e f g h) :)
  have hp : (s.send a b c d e f g h).ports.map Port.line = s.ports.map Port.line := (congrArg State.ports (s.send_linked a b c d e f g h) :)
  rw [State.secured, hi, hp]
  rfl

@[simp] theorem State.offerExtents_secured (s : State) (port : PortId) : (s.offerExtents port).secured = s.secured := by
  unfold State.offerExtents
  refine ite_keeps (m := State.secured) rfl (foldl_keeps State.secured _ (fun u e => ?_) _ _)
  cases port with
  | asvis l => exact ite_keeps (m := State.secured) (State.send_secured _ _ _ _ _ _ _ _ _) rfl
  | cxl c => exact ite_keeps (m := State.secured) (ite_keeps (m := State.secured) rfl rfl) rfl
  | nvme _ _ => rfl

theorem Port.line_id (p : Port) : p.line.id = p.id := rfl

/-- Ports of one line are found in the same places. -/
theorem State.port_of_secured {s t : State} {port : PortId} {p : Port} (h : t.secured = s.secured) (hp : s.port? port = some p) :
    ∃ q, t.port? port = some q ∧ q.line = p.line := by
  have hl : t.ports.map Port.line = s.ports.map Port.line := congrArg Prod.snd h
  have find : ∀ l : List Port, (l.map Port.line).find? (·.id == port) = (l.find? (·.id == port)).map Port.line := fun l => by
    rw [List.find?_map]
    rfl
  have hq : (t.port? port).map Port.line = some p.line := by
    rw [State.port?, ← find, hl, find]
    exact congrArg (Option.map Port.line) hp
  exact Option.map_eq_some_iff.mp hq

/-- A port that comes up: its keys stand, and it is as it was but for its new state and the frames it sends. -/
theorem State.portUp_up {s : State} {port : PortId} {p : Port} (hp : s.port? port = some p) :
    (s.portUp port).island = s.island ∧
      ∃ q, (s.portUp port).port? port = some q ∧
        q.line = { p with st := .up, since := s.now, left := none, lastRx := s.now, txSeq := 0, buffer := [], lastTx := 0, ownerKeys := [] } := by
  have h : (s.portUp port).secured = (s.modPort port fun p => { p with st := .up, since := s.now, left := none, lastRx := s.now }).secured := by
    unfold State.portUp
    simp
  exact ⟨congrArg Prod.fst h, State.port_of_secured h (State.modPort_port hp fun _ => rfl)⟩

/-! ### Training (R250 to R252) -/

theorem State.askStep_asks {s : State} {port : PortId} {p : Port} {m : SecureStep} (hp : s.port? port = some p)
    (hm : (s.secureSteps p)[p.asked]? = some m) : s.askStep port = s.emit (.secure port m) := by
  rw [State.askStep, hp]
  simp [hm]

theorem State.askStep_ports (s : State) (port : PortId) : (s.askStep port).ports = s.ports := by
  unfold State.askStep
  split
  · rfl
  · next p _ => cases (s.secureSteps p)[p.asked]? <;> rfl

/-- A training that passes: the port begins to secure, with HELLO or the first step. -/
theorem State.trained_passes {s : State} {port : PortId} {p : Port} {rate width : Nat} {cxl31 : Bool} (hp : s.port? port = some p)
    (hst : p.st = .training) (hl : s.listedRate port rate width = true) :
    (∃ q, (s.trained port (.pass rate width cxl31)).port? port = some q ∧ q.rate = rate ∧ q.width = width ∧ q.st = .securing ∧ q.gen31 = cxl31 ∧ q.asked = 0) ∧
      (∀ l, port = .asvis l → ∃ f, Output.frame l f ∈ (s.trained port (.pass rate width cxl31)).out ∧ f.msg = msgHello ∧ f.version = 1 ∧
        f.src = s.params.deviceId) ∧
      ((∃ c n, port = .nvme c n) ∨ (∃ c, port = .cxl c ∧ s.isTray = false) →
        Output.secure port .enumerate ∈ (s.trained port (.pass rate width cxl31)).out) := by
  have hid := State.port?_id hp
  unfold State.trained
  rw [if_neg (by simp [hp, hst])]
  dsimp -zeta only
  rw [if_neg (by simp [hl])]
  extract_lets u
  obtain ⟨q, hq, hqid, hfields⟩ : ∃ q, u.port? port = some q ∧ q.id = port ∧
      (q.rate = rate ∧ q.width = width ∧ q.st = .securing ∧ q.gen31 = cxl31 ∧ q.asked = 0) :=
    ⟨_, State.modPort_port hp fun _ => rfl, hid, rfl, rfl, rfl, rfl, rfl⟩
  have asks : ∀ m, (u.secureSteps q)[0]? = some m → (u.askStep port).out = .secure port m :: u.out := fun m hm => by
    rw [State.askStep_asks hq (m := m) (by rw [hfields.2.2.2.2]; exact hm)]
    rfl
  cases port with
  | asvis l => exact ⟨⟨q, hq, hfields⟩, fun _ h => by cases h; exact ⟨_, List.mem_cons_self, rfl, rfl, rfl⟩, by rintro (⟨_, _, h⟩ | ⟨_, h, -⟩) <;> cases h⟩
  | cxl c =>
    refine ⟨⟨q, (congrArg (List.find? _) (u.askStep_ports _)).trans hq, hfields⟩, by simp, ?_⟩
    rintro (⟨_, _, h⟩ | ⟨_, -, ht⟩)
    · cases h
    · have htray : u.isTray = false := ht
      rw [asks .enumerate (by simp [State.secureSteps, State.deviceSteps, hqid, htray])]
      exact List.mem_cons_self
  | nvme c n =>
    refine ⟨⟨q, (congrArg (List.find? _) (u.askStep_ports _)).trans hq, hfields⟩, by simp, fun _ => ?_⟩
    rw [asks .enumerate (by simp [State.secureSteps, State.deviceSteps, hqid])]
    exact List.mem_cons_self

/-! ### HELLO (R252) -/

/-- A HELLO whose boot_epoch its member's links know already resets no member. -/
theorem State.memberReset_known {s : State} {f : HelloF}
    (h : ∀ x ∈ s.memberPorts f.device, ∀ h, x.peer = some h → h.bootEpoch = f.bootEpoch) : s.memberReset f = s := by
  unfold State.memberReset
  refine if_neg ?_
  rintro ⟨hne, hnew⟩
  obtain ⟨x, l, hx⟩ : ∃ x l, s.memberPorts f.device = x :: l := List.exists_cons_of_ne_nil (by simpa using hne)
  have hmem : x ∈ s.memberPorts f.device := hx ▸ List.mem_cons_self
  obtain ⟨g, hg⟩ : ∃ g, x.peer = some g := by
    have := (List.mem_filter.mp hmem).2
    cases hpeer : x.peer with
    | none => simp [hpeer] at this
    | some g => exact ⟨g, rfl⟩
  have := (List.all_eq_true.mp hnew) x hmem
  simp [hg, h x hmem g hg] at this

/-- A HELLO while its link is secured settles the version. -/
theorem State.onHello_settles {s : State} {link v : Nat} {p : Port} {f : HelloF} (hp : s.port? (.asvis link) = some p) (hst : p.st = .securing)
    (hsession : p.session = false) (hv : topVersion ownVersions f.versions = some v)
    (hknown : ∀ x ∈ s.memberPorts f.device, ∀ h, x.peer = some h → h.bootEpoch = f.bootEpoch) :
    ∃ q, (s.onHello link f).port? (.asvis link) = some q ∧ q.peer = some f ∧ q.version = v ∧
      if v = 1 ∧ p.rate = 224 then q.st = .training ∧ q.rate = 112 else q = { p with peer := some f, version := v, hello := true } := by
  unfold State.onHello
  dsimp only
  rw [hp]
  dsimp only
  rw [if_neg (by simp [hst]), if_neg (by simp [hst, hsession]), hv]
  dsimp only
  rw [State.memberReset_known hknown]
  have hq : (s.modPort (.asvis link) fun p => { p with peer := some f, version := v, hello := true }).port? (.asvis link) =
      some { p with peer := some f, version := v, hello := true } := State.modPort_port hp fun _ => rfl
  split
  · exact ⟨_, State.modPort_port hq fun _ => rfl, rfl, rfl, rfl, rfl⟩
  · exact ⟨_, (congrArg (List.find? _) (State.askStep_ports _ _)).trans hq, rfl, rfl, rfl⟩

/-! ### The session of a link (R252, R311) -/

theorem State.keySlot?_setKey_ne (s : State) {n m : Nat} (h : m ≠ n) (e : Nat) (k k2 k3 : BitVec 256) :
    (s.setKey n e k k2 k3).keySlot? m = s.keySlot? m := by
  have hf : ∀ x : KeySlot, decide ((x.n != n) = true ∧ (x.n == m) = true) = (x.n == m) := fun x => by
    by_cases hx : x.n = m <;> simp [hx, h]
  simp only [State.keySlot?, State.setKey, List.find?_cons, beq_eq_false_iff_ne.mpr (Ne.symm h), List.find?_filter, hf]

/-- What CONFIG says rests on the image and on the hash keys of the domains. -/
theorem State.configBytes_of {s t : State} (himage : t.image = s.image) (hkey : ∀ d ∈ s.image.domains, t.hashKey d.domain = s.hashKey d.domain)
    (link : Nat) : t.configBytes link = s.configBytes link := by
  have hd : (s.image.domains.flatMap fun d => leBytes 2 d.domain ++ leBytes 2 d.keyGen ++ leBytes 8 (keyCheckValue (t.hashKey d.domain)).toNat) =
      s.image.domains.flatMap fun d => leBytes 2 d.domain ++ leBytes 2 d.keyGen ++ leBytes 8 (keyCheckValue (s.hashKey d.domain)).toNat :=
    List.flatMap_congr fun d hmem => by rw [hkey d hmem]
  simp only [State.configBytes, State.homeDigest, himage, hd]

/-- The end of a link's authentication: its session stands under its keys, and CONFIG leaves. -/
theorem State.openSession_opens {s : State} {link : Nat} {p : Port} (hp : s.port? (.asvis link) = some p) (hst : p.st = .securing)
    (hr : p.resetting = false) (hd : ∀ d ∈ s.image.domains, d.domain < 1024) :
    (∃ q, (s.openSession link).port? (.asvis link) = some q ∧ q.session = true ∧ q.txSeq = 1 ∧ q.rxSeq = 0) ∧
      (s.openSession link).slotFilled (portSlot (.asvis link)) = true ∧ (s.openSession link).sent link msgConfig 0 0 0 (s.configBytes link) := by
  unfold State.openSession
  extract_lets port answered u w
  have hu : u.ports = s.ports ∧ u.slotFilled (portSlot port) = true ∧ u.image = s.image ∧
      ∀ d ∈ s.image.domains, u.hashKey d.domain = s.hashKey d.domain := by
    unfold u
    split
    · next h => exact ⟨rfl, (Bool.and_eq_true_iff.mp h).2, rfl, fun _ _ => rfl⟩
    · refine ⟨rfl, by rw [State.setKey_slotFilled]; simp, rfl, fun d hmem => ?_⟩
      have hne : hashKeySlot d.domain ≠ portSlot port := by
        have := hd d hmem
        simp only [hashKeySlot, portSlot, port]
        omega
      unfold State.hashKey
      rw [State.keySlot?_setKey_ne _ hne]
      rfl
  obtain ⟨hports, hkey, himage, hhash⟩ := hu
  have hw : w.port? port = some { p with session := true, txSeq := 0, rxSeq := 0, responder := answered, ownerKeys := [] } :=
    State.modPort_port ((congrArg (List.find? _) hports).trans hp) fun _ => rfl
  have hi : w.portIssues port = true := by simp [State.portIssues, hw, hr, hst, port]
  have hk : w.slotFilled (portSlot port) = true := hkey
  have hbytes : w.configBytes link = s.configBytes link := State.configBytes_of himage hhash link
  obtain ⟨hsent, q, ps, o, he⟩ := State.send_sends hi hk msgConfig 0 0 0 0 (w.configBytes link) {}
  obtain ⟨g, k, -, -, -, hport⟩ := State.send_counts hw hi hk msgConfig 0 0 0 0 (w.configBytes link) {}
  refine ⟨⟨_, hport, rfl, rfl, rfl⟩, ?_, hbytes ▸ hsent⟩
  rw [he]
  exact hk

/-! ### CONFIG (R252, R253) -/

theorem State.onConfig_up {s : State} {link : Nat} {p : Port} {fr : Frame} (f : ConfigF) (hp : s.port? (.asvis link) = some p)
    (hst : p.st = .securing) (hsession : p.session = true) (hlegal : frameLegal p fr [0] 0 = true) (hseq : fr.frameSeq = p.rxSeq)
    (htag : fr.tagOk = true) :
    ∃ q, (s.onConfig link fr f).port? (.asvis link) = some q ∧ q.st = .up ∧ q.rxSeq = p.rxSeq + 1 ∧
      q.credits = f.credits ∧ q.peerCycle = f.cycleTicks ∧ q.peerGates = f.gates ∧ q.dirOk = s.dirAgrees p f := by
  unfold State.onConfig
  extract_lets port
  rw [show s.port? port = some p from hp]
  dsimp -zeta only
  rw [if_neg (by simp [hst, hsession]), if_neg (by simp [hlegal]), if_neg (by simp [hseq, htag])]
  extract_lets ok u w
  have hu : u.port? (.asvis link) =
      some { p with rxSeq := p.rxSeq + 1, credits := f.credits, peerCycle := f.cycleTicks, peerGates := f.gates, dirOk := ok } :=
    State.modPort_port hp fun _ => rfl
  have hw : w.ports = u.ports := by
    unfold w
    split
    · rfl
    · obtain ⟨r, hr⟩ := u.note_eq "DIRECTORY_CHECK_DIFFERS" (evSource 5 (clusterOfPort (.asvis link))) (u.dirMismatch p link f)
      rw [State.linkNote, hr]
  obtain ⟨-, q, hq, hline⟩ := State.portUp_up ((congrArg (List.find? _) hw).trans hu)
  exact ⟨q, hq, congrArg Port.st hline, congrArg Port.rxSeq hline, congrArg Port.credits hline, congrArg Port.peerCycle hline,
    congrArg Port.peerGates hline, congrArg Port.dirOk hline⟩

/-! ### Devices (R251, R268, R269, R321) -/

section
variable {s : State} {port : PortId} {p : Port} (hp : s.port? port = some p) (hasvis : ∀ l, port ≠ .asvis l) (hst : p.st = .securing)
include hp hasvis hst

/-- A device's step is answered: the next one follows. -/
theorem State.doeStep_asks {ide : Bool} {m : SecureStep}
    (hq : s.authenticates { p with asked := p.asked + 1, ide := p.ide && ide } = true ∨
      p.asked + 1 < (s.deviceSteps { p with asked := p.asked + 1, ide := p.ide && ide }).length)
    (hm : (s.secureSteps { p with asked := p.asked + 1, ide := p.ide && ide })[p.asked + 1]? = some m) :
    (s.doeStep port (.more ide)).port? port = some { p with asked := p.asked + 1, ide := p.ide && ide } ∧
      Output.secure port m ∈ (s.doeStep port (.more ide)).out := by
  have hdoe : s.doeStep port (.more ide) = s.stepDone port ide := by
    cases port with
    | asvis l => exact absurd rfl (hasvis l)
    | cxl c => simp [State.doeStep, hp, hst]
    | nvme c n => simp [State.doeStep, hp, hst]
  rw [hdoe]
  unfold State.stepDone
  extract_lets u
  have hu : u.port? port = some { p with asked := p.asked + 1, ide := p.ide && ide } := State.modPort_port hp fun _ => rfl
  rw [hu]
  dsimp only
  have hopen : ¬((!u.authenticates { p with asked := p.asked + 1, ide := p.ide && ide }) = true ∧
      (u.deviceSteps { p with asked := p.asked + 1, ide := p.ide && ide }).length ≤ p.asked + 1) := by
    rintro ⟨ha, hn⟩
    rw [Bool.not_eq_true'] at ha
    exact hq.elim (fun h => Bool.false_ne_true (ha.symm.trans h)) (Nat.not_lt.mpr hn)
  rw [if_neg hopen, State.askStep_asks hu hm]
  exact ⟨hu, List.mem_cons_self⟩

/-- The end of a device's authentication brings its port up, with the keys of IDE where it runs. -/
theorem State.doeStep_up (root : BitVec 256) (hn : (s.deviceSteps p).length ≤ p.asked) (hk : s.linkKeys = true) :
    (∃ q, (s.doeStep port (.authenticated root)).port? port = some q ∧ q.st = .up ∧ q.left = none) ∧
      (p.runsIde = true → (s.doeStep port (.authenticated root)).slotFilled (portSlot port) = true) := by
  have hdoe : s.doeStep port (.authenticated root) = (s.setIdeKeys p).portUp port := by
    cases port with
    | asvis l => exact absurd rfl (hasvis l)
    | cxl c => simp [State.doeStep, hp, hst, Nat.not_lt.mpr hn, hk]
    | nvme c n => simp [State.doeStep, hp, hst, Nat.not_lt.mpr hn, hk]
  have hkeys : (s.setIdeKeys p).ports = s.ports ∧ (p.runsIde = true → (s.setIdeKeys p).slotFilled (portSlot port) = true) := by
    rw [State.setIdeKeys, State.port?_id hp]
    split
    · next h => exact ⟨rfl, fun hr => by simp [hr] at h⟩
    · split
      · exact ⟨rfl, fun _ => by rw [State.setKey_slotFilled]; simp⟩
      · exact ⟨(congrArg State.ports (State.fillSlot_keysFrame s (portSlot port) 0 s) :), fun _ => by rw [State.fillSlot_slotFilled]; simp⟩
  obtain ⟨hisland, q, hq, hline⟩ := State.portUp_up ((congrArg (List.find? _) hkeys.1).trans hp)
  rw [hdoe]
  refine ⟨⟨q, hq, congrArg Port.st hline, congrArg Port.left hline⟩, fun hr => ?_⟩
  rw [State.slotFilled, hisland]
  exact hkeys.2 hr

end

end Sys2Proof.Machine
end

section
/-! CLAIMS. A link comes up (12). -/

namespace Sys2Proof.Machine

/-- Settles O31, step by step: each step's command does what the step's lemma says. -/
theorem linkUpCompletes : Obligations.LinkUpCompletes := by
  refine ⟨fun s port p rate width cxl31 retired corrected => ?_,
    fun s link v p f hs hp hst hsession hv hknown => leaves_of_live rfl hs (State.onHello_settles hp hst hsession hv hknown),
    fun s link p hs hp hst hsession hhello hr hk hd root hroot => leaves_of_live rfl hs ?_,
    fun s link p fr f hs hp hst hsession hlegal hseq htag => ?_,
    fun s port p hs hp hasvis hst => ⟨fun ide m hq hm => leaves_of_live rfl hs (State.doeStep_asks hp hasvis hst hq hm),
      fun root hn hk => leaves_of_live rfl hs (State.doeStep_up hp hasvis hst root hn hk)⟩,
    fun s port p hs hp hst hsince hq => leaves_of_live rfl hs ?_⟩
  · intro u hs hst hact hp hpst hl
    refine leaves_of_live (g := fun s => s.trainingEnd port (.pass rate width cxl31) retired corrected) rfl hs ?_
    have himage : u.image = s.image := congrArg Spine.image (s.trainingLanes_spine (clusterOfPort port) retired corrected)
    have hparams : u.params = s.params := by simp only [State.params, himage]
    have htray : u.isTray = s.isTray := by simp only [State.isTray, himage]
    rw [State.trainingEnd, if_neg (by simp [hst, hact]), ← hparams, ← htray]
    exact State.trained_passes hp hpst hl
  · have h : s.onSpdm link (.authenticated root) = s.openSession link := by
      have hok : s.linkKeys = true ∧ (s.image.peerOwnerRoot = 0 ∨ root = s.image.peerOwnerRoot) := ⟨hk, hroot⟩
      simp only [State.onSpdm, hp, hst, hsession, hhello, if_pos hok]
      simp
    rw [h]
    exact State.openSession_opens hp hst hr hd
  · refine leaves_of_live (g := fun s => s.onConfig link fr f) ?_ hs (State.onConfig_up f hp hst hsession hlegal hseq htag)
    rw [exec, execConfig, if_neg (by simp [hp, hst])]
  · rw [State.retryEnd, hp]
    dsimp only
    rw [if_pos ⟨hst, hsince⟩]
    exact ⟨_, State.leaveUp_port hq hp .training, rfl, rfl⟩

end Sys2Proof.Machine
end

section
/-! SUPPORT. Transactions that fail or are issued again, and the release of an extent (R257, R265 to R270). -/

namespace Sys2Proof.Machine

/-! ### The read of a far page fails (R93, R257) -/

/-- A copy whose read gets no answer: it goes, or stands as failed for its request. -/
theorem State.copyFails_linkFault (s : State) (id : Nat) :
    ∃ l, s.copyFails id stLinkFault = { s with staging := l } ∧ ∀ y ∈ l, y.id = id → y.failed = some stLinkFault := by
  have hne : ¬stLinkFault = stDataIntegrity := by decide
  unfold State.copyFails
  split
  · next h =>
    exact ⟨s.staging, rfl, fun y hy he => absurd he (by simpa using List.find?_eq_none.mp h y hy)⟩
  · extract_lets u
    have hu : u = s := if_neg fun h => hne h.1
    rw [hu]
    split
    · exact ⟨_, rfl, fun y hy he => absurd he (by simpa using (List.mem_filter.mp hy).2)⟩
    · refine ⟨_, rfl, fun y hy he => ?_⟩
      obtain ⟨x, -, rfl⟩ := List.mem_map.mp hy
      split at he
      · next hx => rw [if_pos hx]
      · next hx => exact absurd he (by simpa using hx)

/-- The transaction of a far page ends without an answer, with nothing else waiting for staging: it and its copy alone change. -/
theorem State.endTxn_farPage {s : State} {x : Txn} {copy : Nat} (hk : x.kind = .farPage copy) (hd : ∀ e ∈ s.dir, e.refetch = [])
    (hr : ∀ r ∈ s.reqs, r.settles = false) :
    ∃ l, s.endTxn x stLinkFault = { s.dropTxn x.xid with staging := l } ∧ ∀ y ∈ l, y.id = copy → y.failed = some stLinkFault := by
  obtain ⟨l, hl, hfailed⟩ := (s.dropTxn x.xid).copyFails_linkFault copy
  refine ⟨l, ?_, hfailed⟩
  unfold State.endTxn
  rw [hk]
  dsimp only
  rw [hl]
  exact State.stagingFreed_idle hd hr

/-! ### Releases (R265 to R267) -/

theorem State.drainExtent_still {s : State} {e : Extent} (he : s.extent? e.id = some e) (hm : s.moves = []) :
    (s.drainExtent e).extent? e.id = some { e with st := .draining, forced := true, releasing := false, since := s.now, drainAt := s.now } := by
  have hx : s.drainExtent e =
      s.modExtent e.id fun e => { e with st := .draining, forced := true, releasing := false, since := s.now, drainAt := s.now } := by
    simp [State.drainExtent, hm]
  rw [hx]
  exact State.extent?_modExtent he fun _ => rfl

/-- An extent that nothing uses any more is revoked, and its source is told. -/
theorem State.drainEnd_revokes {s : State} {e : Extent} (he : s.extent? e.id = some e) (hst : e.st = .draining)
    (ht : ∀ x ∈ s.txns, x.extent ≠ some e.id) :
    (s.drainEnd e.id).extent? e.id = some { e with st := .revoked, since := s.now } ∧
      (e.route < 96 → s.portIssues (.asvis e.route) = true → s.slotFilled (portSlot (.asvis e.route)) = true →
        (s.drainEnd e.id).sent e.route msgExtentDone 0 e.targetBase 0 []) := by
  have hx : s.drainEnd e.id = (s.modExtent e.id fun e => { e with st := .revoked, since := s.now }).ackRelease e := by
    unfold State.drainEnd
    rw [he]
    exact if_pos ⟨hst, by simpa using ht⟩
  have hext : (s.drainEnd e.id).extents = (s.modExtent e.id fun e => { e with st := .revoked, since := s.now }).extents := by
    rw [hx]
    exact (congrArg State.extents (State.ackRelease_carried _ e) :)
  refine ⟨(congrArg (List.find? _) hext).trans (State.extent?_modExtent he fun _ => rfl), fun hroute hi hk => ?_⟩
  rw [hx, State.ackRelease, if_pos hroute]
  exact (State.send_sends (by exact hi) (by exact hk) msgExtentDone 0 e.targetBase 1 0 [] {}).1

theorem State.sweepExtent_frees {s : State} {e : Extent} (he : s.extent? e.id = some e) (hst : e.st = .revoked) :
    ∀ x ∈ (s.sweepExtent e.id).extents, x.id ≠ e.id := by
  unfold State.sweepExtent
  rw [he]
  dsimp only
  rw [if_pos hst]
  exact fun x hx => by simpa using (List.mem_filter.mp hx).2

/-- The one transaction still out on an extent ends in its draining's timeout. -/
theorem State.drainTimeout_ends {s : State} {e : Extent} {x : Txn} {copy : Nat} (he : s.extent? e.id = some e) (hst : e.st = .draining)
    (hdue : e.drainAt + 70500 ≤ s.now) (hout : (s.txns.filter fun t => t.extent == some e.id) = [x]) (hx : s.txn? x.xid = some x)
    (hk : x.kind = .farPage copy) (hd : ∀ e ∈ s.dir, e.refetch = []) (hr : ∀ r ∈ s.reqs, r.settles = false) :
    (∀ y ∈ (s.drainTimeout e.id).txns, y.extent ≠ some e.id) ∧ ∀ y ∈ (s.drainTimeout e.id).staging, y.id = copy → y.failed = some stLinkFault := by
  have hend : s.drainTimeout e.id = s.endTxn x stLinkFault := by
    unfold State.drainTimeout
    rw [he]
    dsimp only
    rw [if_pos ⟨hst, hdue⟩, hout]
    simp [hx]
  obtain ⟨l, hl, hfailed⟩ := State.endTxn_farPage hk hd hr
  rw [hend, hl]
  refine ⟨fun y hy hext => ?_, hfailed⟩
  obtain ⟨hmem, hne⟩ := List.mem_filter.mp hy
  have hyx : y ∈ s.txns.filter fun t => t.extent == some e.id := List.mem_filter.mpr ⟨hmem, by simp [hext]⟩
  rw [hout, List.mem_singleton] at hyx
  simp [hyx] at hne

/-! ### Devices (R268 to R270) -/

theorem State.portTxn_xid {s : State} {port : PortId} {xid : Nat} {x : Txn} (h : s.portTxn port xid = some x) : x.xid = xid := by
  have := List.find?_some h
  simp only [Bool.and_eq_true, beq_iff_eq] at this
  exact this.1

theorem State.deviceAnswer_done {s : State} {port : PortId} {xid : Nat} {x : Txn} (h : s.portTxn port xid = some x) :
    s.deviceAnswer port xid true = s.txnDone x := by
  rw [State.deviceAnswer, h]
  rfl

/-- Commands issued again on a port leave its state and its transactions. -/
theorem State.reissue_eq (s : State) (c p : Nat) (t : Txn) : ∃ o, s.reissue c p t = { s with out := o } ∧ ∀ m ∈ s.out, m ∈ o := by
  unfold State.reissue
  split
  · unfold State.nvmeIssue State.emitOn
    split
    · exact ⟨_, rfl, fun _ h => List.mem_cons_of_mem _ h⟩
    · exact ⟨_, rfl, fun _ h => h⟩
  · exact ⟨_, rfl, fun _ h => h⟩

theorem State.reissues_eq (c p : Nat) (l : List Txn) (s : State) :
    ∃ o, l.foldl (fun (s : State) t => s.reissue c p t) s = { s with out := o } ∧ (∀ m ∈ s.out, m ∈ o) ∧
      (s.portIssues (.nvme c p) = true → ∀ y ∈ l, ∀ n, y.nvme = some n → n.data = none → Output.nvmeRead c p y.xid n.nsid n.lba n.blocks ∈ o) := by
  induction l generalizing s with
  | nil => exact ⟨s.out, rfl, fun _ h => h, by simp⟩
  | cons t l ih =>
    obtain ⟨o, ho, hkeep⟩ := s.reissue_eq c p t
    obtain ⟨o', ho', hkeep', hreads⟩ := ih (s.reissue c p t)
    refine ⟨o', by rw [List.foldl_cons, ho', ho], fun m hm => hkeep' m (by rw [ho]; exact hkeep m hm), fun hi y hy n hn hdata => ?_⟩
    rcases List.mem_cons.mp hy with rfl | hy
    · refine hkeep' _ ?_
      simp [State.reissue, hn, State.nvmeIssue, hdata, State.emitOn, hi, State.emit]
    · exact hreads (by rw [ho]; exact hi) y hy n hn hdata

/-- The end of an SSD controller's reset issues what is open again. -/
theorem State.nvmeResetEnd_reissues {s : State} {c p : Nat} {q : Port} (hq : s.port? (.nvme c p) = some q) (hr : q.resetting = true) :
    (s.nvmeResetEnd c p true).port? (.nvme c p) = some { q with resetting := false } ∧ (s.nvmeResetEnd c p true).txns = s.txns ∧
      (q.st = .up → ∀ y ∈ s.txns, y.port = .nvme c p → ∀ n, y.nvme = some n → n.data = none →
        Output.nvmeRead c p y.xid n.nsid n.lba n.blocks ∈ (s.nvmeResetEnd c p true).out) := by
  have hport : (s.modPort (.nvme c p) fun p => { p with resetting := false }).port? (.nvme c p) = some { q with resetting := false } :=
    State.modPort_port hq fun _ => rfl
  unfold State.nvmeResetEnd
  extract_lets port u
  rw [if_neg (by simp [port, hq, hr]), if_pos rfl]
  obtain ⟨o, ho, -, hreads⟩ := State.reissues_eq c p (u.txns.filter fun t => t.port == port) u
  rw [ho]
  refine ⟨hport, rfl, fun hup y hy hyp n hn hdata => hreads ?_ y (List.mem_filter.mpr ⟨hy, by simp [port, hyp]⟩) n hn hdata⟩
  exact State.portIssues_of_up hport hup rfl

/-- A command that does not complete in time ends its read and resets its SSD's controller. -/
theorem State.nvmeTimeout_resets {s : State} {c p xid copy : Nat} {x : Txn} {q : Port} (hx : s.portTxn (.nvme c p) xid = some x) (hdue : x.due ≤ s.now)
    (hk : x.kind = .farPage copy) (hd : ∀ e ∈ s.dir, e.refetch = []) (hr : ∀ x ∈ s.reqs, x.settles = false)
    (hq : s.port? (.nvme c p) = some q) (hup : q.st = .up) (hreset : q.resetting = false) :
    Output.nvmeReset c p ∈ (s.nvmeTimeout c p xid).out ∧ (∀ z ∈ (s.nvmeTimeout c p xid).txns, z.xid ≠ xid) ∧
      (s.nvmeTimeout c p xid).port? (.nvme c p) = some { q with resetting := true } := by
  obtain ⟨l, hl, -⟩ := State.endTxn_farPage hk hd hr
  let u : State := { s.dropTxn x.xid with staging := l }
  have hport : u.port? (.nvme c p) = some q := hq
  have ht : s.nvmeTimeout c p xid = (u.emit (.nvmeReset c p)).modPort (.nvme c p) fun p => { p with resetting := true } := by
    unfold State.nvmeTimeout
    dsimp only
    rw [hx]
    dsimp only
    rw [if_neg (Nat.not_lt.mpr hdue), hl, show ({ s.dropTxn x.xid with staging := l } : State) = u from rfl, hport]
    simp only [Option.elim, hreset, Bool.false_eq_true, if_false, State.emitOn, State.portIssues_of_up hport hup hreset, if_true]
  rw [ht]
  refine ⟨List.mem_cons_self, fun z hz => ?_, State.modPort_port (s := u.emit (.nvmeReset c p)) hport fun _ => rfl⟩
  have hz' : z ∈ s.txns.filter fun t => t.xid != x.xid := hz
  rw [← State.portTxn_xid hx]
  simpa using (List.mem_filter.mp hz').2

end Sys2Proof.Machine
end

section
/-! CLAIMS. Extents that are released, and devices behind CXL and NVMe ports (12). -/

namespace Sys2Proof.Machine

/-- Settles O37: each step of a release by the lemma on its command. -/
theorem releasesRunTheirCourse : Obligations.ReleasesRunTheirCourse := by
  refine ⟨fun s e hs he => ⟨fun hst hrel hsince hm => leaves_of_live (g := fun s => s.evacuateTimeout e.id) rfl hs ?_,
    fun hst ht => leaves_of_live rfl hs (State.drainEnd_revokes he hst ht), fun hst => leaves_of_live rfl hs (State.sweepExtent_frees he hst)⟩,
    fun s e x c hs he hst hdue hout hx hk _ hd hr => leaves_of_live rfl hs (State.drainTimeout_ends he hst hdue hout hx hk hd hr)⟩
  have ht : s.evacuateTimeout e.id = s.drainExtent e := by
    unfold State.evacuateTimeout
    rw [he]
    exact if_pos ⟨hst, hrel, hsince⟩
  rw [ht]
  exact State.drainExtent_still he hm

/-- Settles O38: a device's answer closes its transaction and hands on; a timeout and the end of a reset by the lemmas on them. -/
theorem farDevicesAnswer : Obligations.FarDevicesAnswer := by
  refine ⟨fun s xid x hs => ?_, fun s c p xid copy x q hs hx hdue hk hd hr hq hup hreset =>
      leaves_of_live rfl hs (State.nvmeTimeout_resets hx hdue hk hd hr hq hup hreset),
    fun s c p q hs hq hr => leaves_of_live rfl hs (State.nvmeResetEnd_reissues hq hr)⟩
  intro done
  have hdone : ∀ port, s.portTxn port xid = some x → done (s.deviceAnswer port xid true) := fun port hx => by
    obtain rfl := State.portTxn_xid hx
    rw [State.deviceAnswer_done hx]
    obtain ⟨_, _, kind, _⟩ := x
    cases kind <;> rfl
  exact ⟨fun c hx => leaves_of_live (g := fun s => s.deviceAnswer (.cxl c) xid true) rfl hs (hdone _ hx),
    fun c p hx => leaves_of_live (g := fun s => s.deviceAnswer (.nvme c p) xid true) rfl hs (hdone _ hx)⟩

end Sys2Proof.Machine
end

section
/-! SUPPORT. The flash path of a tray: destaging, and the failure of its SSDs (R277, R278, R281). -/

namespace Sys2Proof.Machine

/-- A fold in which every element brings about its own, and none undoes another's. -/
theorem foldl_reaches {α : Type} {f : State → α → State} {I : State → Prop} {R : α → State → Prop} (hI : ∀ s a, I s → I (f s a))
    (hR : ∀ s a b, R b s → R b (f s a)) (hadd : ∀ s a, I s → R a (f s a)) (l : List α) {s : State} (hs : I s) :
    I (l.foldl f s) ∧ (∀ b, R b s → R b (l.foldl f s)) ∧ ∀ a ∈ l, R a (l.foldl f s) := by
  induction l generalizing s with
  | nil => exact ⟨hs, fun _ h => h, by simp⟩
  | cons a l ih =>
    obtain ⟨hI', hkeep, hall⟩ := ih (hI s a hs)
    refine ⟨hI', fun b hb => hkeep b (hR s a b hb), fun b hb => ?_⟩
    rcases List.mem_cons.mp hb with rfl | hb
    · exact hkeep b (hadd s b hs)
    · exact hall b hb

/-! ### Commands to an SSD (R281) -/

@[simp] theorem State.ssdIssue_carried (s : State) (a) (b) (c) (k) (n) : (s.ssdIssue a b c k n).carried = s.carried := by
  unfold State.ssdIssue
  split
  · exact ite_keeps (m := State.carried) rfl (by simp)
  · rfl

theorem State.ssdIssue_wired (s : State) (group ssd cls : Nat) (kind : TxnKind) (n : NvmeCmd) :
    (s.ssdIssue group ssd cls kind n).ports = s.ports ∧ (s.ssdIssue group ssd cls kind n).tray = s.tray :=
  ⟨(congrArg State.ports (s.ssdIssue_ssdFrame group ssd cls kind n s) :), (congrArg State.tray (s.ssdIssue_carried group ssd cls kind n) :)⟩

/-- A command opens a transaction on its SSD's port, unless the SSD is missing or has failed. -/
theorem State.ssdIssue_txns (s : State) (group ssd cls : Nat) (kind : TxnKind) (n : NvmeCmd) :
    (∀ y ∈ s.txns, y ∈ (s.ssdIssue group ssd cls kind n).txns) ∧
      ∀ c p, s.ssdPorts[9 * group + ssd]? = some (.nvme c p) → s.ssdDown group ssd = false →
        ∃ y ∈ (s.ssdIssue group ssd cls kind n).txns, y.kind = kind ∧ y.port = .nvme c p := by
  have issue : ∀ c p, ∃ y, (((s.nvmeIssue c p s.ids n).enqueue (100 + c) wheyFn cls (n.data.elim 64 (·.length))).openTxn (.nvme c p) kind 0 none (some n)).txns =
      y :: s.txns ∧ y.kind = kind ∧ y.port = .nvme c p := fun c p => by
    obtain ⟨q, hq⟩ := (s.nvmeIssue c p s.ids n).enqueue_eq (100 + c) wheyFn cls (n.data.elim 64 (·.length))
    have ht : (s.nvmeIssue c p s.ids n).txns = s.txns := ite_keeps rfl rfl
    rw [hq]
    exact ⟨_, congrArg (_ :: ·) ht, rfl, rfl⟩
  unfold State.ssdIssue
  split
  · next c p hport =>
    obtain ⟨y, hy, hk, hp⟩ := issue c p
    constructor
    · intro z hz
      split
      · exact hz
      · rw [hy]
        exact List.mem_cons_of_mem _ hz
    · intro c' p' hport' hup
      rw [hport] at hport'
      obtain ⟨rfl, rfl⟩ : c = c' ∧ p = p' := by simpa using hport'
      rw [hup, if_neg Bool.false_ne_true, hy]
      exact ⟨y, List.mem_cons_self, hk, hp⟩
  · next hno => exact ⟨fun _ h => h, fun c p hport => absurd hport (hno c p)⟩

/-! ### Destaging (R277) -/

/-- In `t` a write of grain k of an object at x is open, unless the SSD that is to hold it is missing or has failed in `s`. -/
def State.grainWritten (s t : State) (o : PoolObj) (x k : Nat) : Prop :=
  ∀ c p, s.ssdPorts[9 * o.ssdGroup + grainSsd (x + k)]? = some (.nvme c p) → s.ssdDown o.ssdGroup (grainSsd (x + k)) = false →
    ∃ y ∈ t.txns, y.kind = .destage o.id ∧ y.port = .nvme c p

theorem State.grainWritten_mono {s t u : State} {o : PoolObj} {x k : Nat} (h : s.grainWritten t o x k) (hmono : ∀ y ∈ t.txns, y ∈ u.txns) :
    s.grainWritten u o x k := fun c p hport hup =>
  let ⟨y, hy, hk⟩ := h c p hport hup
  ⟨y, hmono y hy, hk⟩

theorem State.ssdPorts_of_ports {s t : State} (h : t.ports = s.ports) : t.ssdPorts = s.ssdPorts := by
  unfold State.ssdPorts
  rw [h]

/-- An object that is destaged gets its place, and a write of each grain goes to the SSD that holds it. -/
theorem State.destage_writes {s : State} {o : PoolObj} {x : Nat} (ho : s.object? o.id = some o) (hres : o.resident = false) (hlost : o.lost = false)
    (hflash : o.onFlash = false) (hplace : o.place = none) (hfailed : (s.tray.ssdFailed.filter fun x => x.1 == o.ssdGroup).length < 2)
    (hports : 9 * o.ssdGroup + 9 ≤ s.ssdPorts.length) (hroom : s.stagingFree 0 o.grains = true)
    (hfit : firstFit (s.flashRuns o.ssdGroup) 0 (2 ^ 40) o.grains = some x) :
    (∃ y ∈ (s.destage o.id).tray.objects, y.id = o.id ∧ y.place = some x ∧ y.data = o.data ∧ y.lost = false) ∧
      ∀ k, k < o.grains → s.grainWritten (s.destage o.id) o x k := by
  unfold State.destage
  rw [ho]
  dsimp -zeta only
  extract_lets failed
  rw [if_neg (by simp [hres, hlost, hflash, hplace, failed, hfailed, hports, hroom]), hfit]
  dsimp -zeta only
  extract_lets u cls v
  obtain ⟨⟨hvports, hvtray⟩, -, hwritten⟩ := foldl_reaches (I := fun t => t.ports = s.ports ∧ t.tray = u.tray) (R := fun k t => s.grainWritten t o x k)
    (f := fun (s : State) k => s.ssdIssue o.ssdGroup (grainSsd (x + k)) cls (.destage o.id) (stripeCmd ((x + k) / 8) (some (s.flashBytes o k))))
    (fun t k ⟨hp, ht⟩ => ⟨(t.ssdIssue_wired ..).1.trans hp, (t.ssdIssue_wired ..).2.trans ht⟩)
    (fun t k j hj => State.grainWritten_mono hj (t.ssdIssue_txns ..).1)
    (fun t k ⟨hp, ht⟩ c p hport hup => (t.ssdIssue_txns ..).2 c p (by rw [State.ssdPorts_of_ports hp]; exact hport)
      (by rw [State.ssdDown, ht]; exact hup))
    (List.range o.grains) (s := u) ⟨rfl, rfl⟩
  have hrest : ∀ (l : List Nat) (w : State), let z := l.foldl (fun (s : State) t =>
      s.ssdIssue o.ssdGroup (paritySsd t) cls (.destage o.id) (stripeCmd t (some (s.stripeParity o.ssdGroup t)))) w
      z.tray = w.tray ∧ ∀ y ∈ w.txns, y ∈ z.txns := fun l w =>
    ⟨foldl_keeps State.tray _ (fun t k => (t.ssdIssue_wired ..).2) l w,
      fun y hy => List.foldlRecOn l _ (motive := fun z : State => y ∈ z.txns) hy fun t ht k _ => (State.ssdIssue_txns t ..).1 y ht⟩
  obtain ⟨htray, hmono⟩ := hrest (stripesOf x o.grains) v
  refine ⟨?_, fun k hk => State.grainWritten_mono (hwritten k (List.mem_range.mpr hk)) hmono⟩
  rw [htray, hvtray]
  exact ⟨{ o with place := some x }, List.mem_map.mpr ⟨o, List.mem_of_find?_eq_some ho, if_pos (by simp)⟩, rfl, rfl, rfl, hlost⟩

/-- The last write of a destaging, where no read waits for staging: the object lies on flash. -/
theorem State.destaged_onFlash {s : State} {o : PoolObj} (hlast : ∀ y ∈ s.txns, y.kind ≠ .destage o.id) (ho : o ∈ s.tray.objects)
    (hplace : o.place.isSome = true) (hlost : o.lost = false) (hgets : s.tray.gets = []) :
    ∃ y ∈ (s.flashDone (.destage o.id)).tray.objects, y.id = o.id ∧ y.onFlash = true ∧ y.data = o.data ∧ y.lost = false := by
  have hany : (s.txns.any fun t => t.kind == TxnKind.destage o.id) = false := by simpa using hlast
  have hidle : ∀ u : State, u.tray.gets = [] → u.nextGets = u := fun u hu => by
    unfold State.nextGets
    rw [hu]
    rfl
  unfold State.flashDone State.destaged
  dsimp only
  rw [hany, if_neg Bool.false_ne_true, hidle _ (by exact hgets)]
  exact ⟨_, List.mem_map.mpr ⟨o, ho, if_pos (by simp [hplace, hlost])⟩, rfl, rfl, rfl, hlost⟩

/-! ### SSDs that fail (R281) -/

theorem State.spend_tray (s : State) (pool inst : Nat) : (s.spend pool inst).tray = s.tray := (congrArg State.tray (s.spend_serviceFrame pool inst s) :)
theorem State.advise_tray (s : State) (detail : Nat) : (s.advise detail).tray = s.tray := (congrArg State.tray (s.advise_serviceFrame detail s) :)
theorem State.note_tray (s : State) (name : String) (source detail : Nat) : (s.note name source detail).tray = s.tray :=
  (congrArg State.tray (s.note_serviceFrame name source detail s) :)

section
variable {s : State} (ht : s.isTray = true)
include ht

/-- The first failure of a group is covered by its parity. -/
theorem State.ssdFails_first {group ssd : Nat} (hnew : s.tray.ssdFailed.contains (group, ssd) = false)
    (hfirst : (s.tray.ssdFailed.any fun x => x.1 == group) = false) :
    (s.ssdFails false group ssd).tray = { s.tray with ssdFailed := (group, ssd) :: s.tray.ssdFailed } := by
  unfold State.ssdFails
  simp only [ht, hnew, hfirst, Bool.not_true, Bool.not_false, Bool.false_eq_true, if_false, if_true]
  exact State.spend_tray _ _ _

/-- The second one loses what lies on flash alone. -/
theorem State.ssdFails_second {group ssd : Nat} (hnew : s.tray.ssdFailed.contains (group, ssd) = false)
    (hsecond : (s.tray.ssdFailed.any fun x => x.1 == group) = true) :
    (s.ssdFails false group ssd).tray = { s.tray with
      ssdFailed := (group, ssd) :: s.tray.ssdFailed,
      objects := mapIf (fun o => o.ssdGroup == group && o.onFlash) (fun o => { o with lost := !o.inStack, onFlash := false }) s.tray.objects } := by
  unfold State.ssdFails
  simp only [ht, hnew, hsecond, Bool.not_true, Bool.false_eq_true, if_false]
  rw [State.advise_tray, State.note_tray]
  rfl

/-- The spare of the metadata pair is rebuilt. -/
theorem State.ssdFails_pair (hspare : s.tray.pairSpare = true) (group ssd : Nat) :
    (s.ssdFails true group ssd).tray = { s.tray with pairFailed := s.tray.pairFailed + 1, pairSpare := false, rebuilding := true } := by
  have hspare' : (s.modTray fun t => { t with pairFailed := t.pairFailed + 1 }).tray.pairSpare = true := hspare
  unfold State.ssdFails
  simp only [ht, hspare', Bool.not_true, Bool.false_eq_true, if_false, if_true]
  exact State.spend_tray _ _ _

end

end Sys2Proof.Machine
end

section
/-! CLAIMS. A tray's flash (12). -/

namespace Sys2Proof.Machine

/-- Settles O41: a destaging by the writes it opens and by its last one's end, failures by what each leaves of the tray. -/
theorem trayFlashCompletes : Obligations.TrayFlashCompletes := by
  refine ⟨fun s o x hs ht ho hres hlost hflash hplace hfailed hports hroom hfit => leaves_of_live (g := fun s => if s.isTray then s.destage o.id else s) rfl hs ?_,
    fun s o c p xid x hs hx hk ho hplace hlost hlast hgets => leaves_of_live (g := fun s => s.deviceAnswer (.nvme c p) xid true) rfl hs ?_,
    fun s group ssd hs ht hnew => ⟨fun hfirst => leaves_of_live rfl hs ?_, fun hsecond => leaves_of_live rfl hs ?_⟩,
    fun s group ssd hs ht hspare => leaves_of_live rfl hs (State.ssdFails_pair ht hspare group ssd),
    fun s hs hr => leaves_of_live rfl hs (if_pos hr)⟩
  · rw [if_pos ht]
    obtain ⟨hobject, hwritten⟩ := State.destage_writes ho hres hlost hflash hplace hfailed hports hroom hfit
    exact ⟨hobject, fun k c p hk => hwritten k hk c p⟩
  · have hdone : s.deviceAnswer (.nvme c p) xid true = (s.dropTxn x.xid).flashDone (.destage o.id) := by
      rw [State.deviceAnswer_done hx, State.txnDone, hk]
    rw [hdone]
    refine State.destaged_onFlash (fun y hy hky => ?_) ho hplace hlost hgets
    obtain ⟨hmem, hne⟩ := List.mem_filter.mp hy
    simp [hlast y hmem hky, State.portTxn_xid hx] at hne
  · rw [State.ssdFails_first ht hnew hfirst]
    exact ⟨List.mem_cons_self, rfl⟩
  · rw [State.ssdFails_second ht hnew hsecond]
    exact ⟨List.mem_cons_self, fun o ho hg hf => List.mem_map.mpr ⟨o, ho, if_pos (by simp [hg, hf])⟩⟩

end Sys2Proof.Machine
end

section
/-! SUPPORT. Regions of a tray: grants, recalls and the answers to region commands (R272 to R275). -/

namespace Sys2Proof.Machine

/-! ### A region command that is heeded (log entry 141) -/

/-- What a region command is answered on stands: a CXL host's mailbox always, a management connection while it is open. -/
def State.answersTo (s : State) (d : RegionScope) : Prop := ∀ c, d.conn = some c → (s.conn? c).isSome = true

theorem State.answersTo_of_mgmt {s t : State} {d : RegionScope} (h : s.answersTo d) (hm : t.mgmt = s.mgmt) : t.answersTo d := fun c hc => by
  have hconn : t.conn? c = s.conn? c := by
    unfold State.conn?
    rw [hm]
  rw [hconn]
  exact h c hc

/-- A region command that is heeded at a tray runs, with the time of its connection alone noted before. -/
theorem leaves_of_heeds {c : Instr} {s : State} {d : RegionScope} {k : State → State} {P : State → Prop} (hc : exec c s = .next (s.regionCmd d k))
    (h : s.heeds d) (ht : s.isTray = true) (hp : ∀ m, ({ s with mgmt := m } : State).answersTo d → P (k { s with mgmt := m })) : Leaves c s P := by
  obtain ⟨domain, conn⟩ := d
  cases conn with
  | none => exact leaves_of_live hc h (hp s.mgmt fun _ h => nomatch h)
  | some n =>
    obtain ⟨x, hx⟩ := h
    refine ⟨_, hc, ?_⟩
    have hrun : s.regionCmd { domain := domain, conn := some n } k = k (s.touch n) := by
      unfold State.regionCmd
      dsimp only
      rw [State.serve_of_serves hx, if_pos (show (s.touch n).isTray = true from ht)]
    rw [hrun]
    exact hp (s.touch n).mgmt fun m hm => by
      obtain rfl : n = m := by simpa using hm
      exact State.touch_conn_isSome hx

theorem State.regionAnswer_told {s : State} {d : RegionScope} (h : s.answersTo d) (host id version : Nat) :
    (s.regionAnswer d.conn host d.domain id version stOk 0).regionTold d host id version := by
  obtain ⟨domain, conn⟩ := d
  cases conn with
  | none => exact List.mem_cons_self
  | some n => exact State.reply_says (h n rfl) _ _

theorem State.regionTold_mono {s t : State} {d : RegionScope} {host id version : Nat} (h : s.regionTold d host id version)
    (ho : ∀ o ∈ s.out, o ∈ t.out) : t.regionTold d host id version := by
  obtain ⟨domain, conn⟩ := d
  cases conn <;> exact ho _ h

theorem State.regionAnswer_tray (s : State) (conn : Option Nat) (host domain id version st : Nat) (digest : BitVec 256) :
    (s.regionAnswer conn host domain id version st digest).tray = s.tray := by
  obtain ⟨o, h⟩ := s.regionAnswer_eq conn host domain id version st digest
  rw [h]

/-! ### Records that change (R272) -/

/-- The record that an update names is there updated. -/
theorem mem_mapIf_self {α : Type} [BEq α] [LawfulBEq α] {x : α} {l : List α} (h : x ∈ l) (g : α → α) : g x ∈ mapIf (fun y => y == x) g l :=
  List.mem_map.mpr ⟨x, h, if_pos (by simp)⟩

/-- A record is gone where the update that names it makes others of it. -/
theorem not_mem_mapIf_self {α : Type} [BEq α] [LawfulBEq α] {x : α} {g : α → α} (h : ∀ y, g y ≠ x) (l : List α) : x ∉ mapIf (fun y => y == x) g l := by
  intro hx
  obtain ⟨y, -, hy⟩ := List.mem_map.mp hx
  split at hy
  · exact h y hy
  · next hne => exact hne (by simp [hy])

/-- An update brings back no record that it does not make. -/
theorem not_mem_mapIf {α : Type} {x : α} {p : α → Bool} {g : α → α} {l : List α} (hx : x ∉ l) (h : ∀ y, g y ≠ x) : x ∉ mapIf p g l := by
  intro hm
  obtain ⟨y, hy, he⟩ := List.mem_map.mp hm
  split at he
  · exact h y he
  · exact hx (he ▸ hy)

/-! ### Grants (R272, R279) -/

theorem State.makeKey_tray (s : State) (host : Nat) : (s.makeKey host).tray = s.tray := (congrArg State.tray (s.makeKey_keysFrame host s) :)

theorem State.settleKeys_kept (l : List Nat) (s : State) :
    (l.foldl (fun (s : State) h => s.settleKey h) s).tray = s.tray ∧ (l.foldl (fun (s : State) h => s.settleKey h) s).out = s.out :=
  have h := foldl_keeps (keysFrame · s) _ (fun s h => s.settleKey_keysFrame h _) l s
  ⟨(congrArg State.tray h :), (congrArg State.out h :)⟩

theorem State.addGrant_grants {r : Region} {host : Nat} (h : r.grants.contains host = false) (s : State) :
    (s.addGrant r host).tray = { s.tray with regions := mapIf (fun x => x == r) (fun r => { r with grants := r.grants ++ [host] }) s.tray.regions } ∧
      (s.addGrant r host).slotFilled (ownerSlot 1 host) = true := by
  unfold State.addGrant
  rw [h, if_neg Bool.false_ne_true]
  exact ⟨State.makeKey_tray _ _, by rw [State.makeKey_slotFilled, beq_self_eq_true, Bool.true_or]⟩

theorem State.addGrant_mgmt (s : State) (r : Region) (host : Nat) : (s.addGrant r host).mgmt = s.mgmt :=
  (congrArg State.mgmt (s.addGrant_regionFrame r host s) :)

theorem State.dropGrant_mgmt (s : State) (r : Region) (host : Nat) : (s.dropGrant r host).mgmt = s.mgmt :=
  (congrArg State.mgmt (s.dropGrant_regionFrame r host s) :)

theorem State.dropGrant_now (s : State) (r : Region) (host : Nat) : (s.dropGrant r host).now = s.now :=
  (congrArg State.now (s.dropGrant_regionFrame r host s) :)

/-- The record of a host whose grant is dropped, whether it had one or not. -/
theorem State.dropGrant_record {s : State} {r : Region} (h : r ∈ s.tray.regions) (host : Nat) :
    { r with grants := r.grants.filter fun h => h != host } ∈ (s.dropGrant r host).tray.regions := by
  unfold State.dropGrant
  cases hc : r.grants.contains host with
  | false =>
    have hsame : (r.grants.filter fun h => h != host) = r.grants := List.filter_eq_self.mpr fun x hx => by
      have hne : x ≠ host := fun he => by
        rw [← he, List.contains_iff_mem.mpr hx] at hc
        exact Bool.noConfusion hc
      simpa using hne
    rw [hsame]
    exact h
  | true =>
    rw [Bool.not_true, if_neg Bool.false_ne_true]
    dsimp only
    rw [State.settleKey_tray]
    exact mem_mapIf_self h fun r => { r with grants := r.grants.filter fun h => h != host }

theorem State.freeRegion_leaves (s : State) (r : Region) :
    (s.freeRegion_ r).tray = { s.tray with regions := s.tray.regions.filter fun x => x != r } ∧ (s.freeRegion_ r).out = s.out :=
  State.settleKeys_kept _ _

/-! ### Recalls (R275) -/

/-- Asking for a recall changes nothing of the tray, and takes back nothing that has left. -/
theorem State.askRecall_asks (s : State) (r : Region) (host : Nat) : (s.askRecall r host).tray = s.tray ∧ ∀ o ∈ s.out, o ∈ (s.askRecall r host).out := by
  unfold State.askRecall
  split
  · exact ⟨rfl, fun _ h => List.mem_cons_of_mem _ h⟩
  · exact ⟨(congrArg State.tray (State.send_linked _ _ _ _ _ _ _ _ _) :), fun _ h => State.sendFrame_out (by exact h) _ _⟩
  · exact ⟨rfl, fun _ h => h⟩

theorem State.askRecalls_asks (r : Region) (l : List Nat) (s : State) :
    (l.foldl (fun (s : State) h => s.askRecall r h) s).tray = s.tray ∧ ∀ o ∈ s.out, o ∈ (l.foldl (fun (s : State) h => s.askRecall r h) s).out :=
  ⟨foldl_keeps State.tray _ (fun s h => (s.askRecall_asks r h).1) l s,
    fun _ h => foldl_out _ (fun s a ho => (s.askRecall_asks r a).2 _ ho) l s h⟩

/-- A recall that has hosts to wait for stands. -/
theorem State.beginRecall_waits {s : State} {r : Region} {hosts : List Nat} (hr : r ∈ s.tray.regions) (hh : hosts ≠ []) (why : RecallFor) :
    { r with st := .recalling, waiting := hosts, recallFor := some why, recallAt := s.now } ∈ (s.beginRecall r hosts why).tray.regions ∧
      ∀ o ∈ s.out, o ∈ (s.beginRecall r hosts why).out := by
  unfold State.beginRecall
  extract_lets r' u
  rw [if_neg (by simpa using hh)]
  obtain ⟨htray, hout⟩ := State.askRecalls_asks r hosts u
  rw [htray]
  exact ⟨mem_mapIf_self hr fun _ => r', hout⟩

/-- A withdrawal of a version that no host holds frees it at once. -/
theorem State.beginRecall_frees (s : State) (r : Region) : ∃ r' : Region, r'.st = .recalling ∧
    (s.beginRecall r [] .withdraw).tray.regions = (mapIf (fun x => x == r) (fun _ => r') s.tray.regions).filter (fun x => x != r') ∧
      (s.beginRecall r [] .withdraw).out = s.out := by
  refine ⟨{ r with st := .recalling, waiting := [], recallFor := some .withdraw, recallAt := s.now }, rfl, ?_⟩
  unfold State.beginRecall
  extract_lets r' u
  obtain ⟨htray, hout⟩ := u.freeRegion_leaves r'
  exact ⟨congrArg (·.regions) htray, hout⟩

/-- A recall that still has hosts to wait for goes on without the one that has answered. -/
theorem State.recallAnswered_waits {s : State} {r : Region} {host : Nat} (hr : r ∈ s.tray.regions) (hw : (r.waiting.filter fun h => h != host) ≠ []) :
    { r with waiting := r.waiting.filter fun h => h != host } ∈ (s.recallAnswered r host).tray.regions := by
  unfold State.recallAnswered
  extract_lets r' u
  rw [if_neg (by simpa [r'] using hw)]
  exact mem_mapIf_self hr fun _ => r'

/-! ### Region commands (R273, R274) -/

section
variable {s : State} {d : RegionScope} (ha : s.answersTo d) (ht : s.isTray = true)
include ha ht

theorem State.regionOpenFor_opens {host id version grains : Nat} (hv : version ≠ 0) (hg : grains ≠ 0)
    (hnone : s.draft? host d.domain id version = none) (hrecall : s.canRecall host = true) (hroom : s.grantRoom grains = true)
    (hbase : s.regionBase grains + grains ≤ 2 ^ 40) :
    (s.regionOpenFor host d id version grains).regionTold d host id version ∧
      ∃ r ∈ (s.regionOpenFor host d id version grains).tray.regions, r.named d.domain id version = true ∧ r.st = .draft ∧ r.writer = host ∧
        r.grains = grains ∧ r.base = s.regionBase grains ∧ r.grants = [host] ∧ r.bytes = [] := by
  unfold State.regionOpenFor
  rw [if_neg (by simp [ht]), if_neg (by simp [hv, hg, hnone, hrecall]), if_neg (by simp only [hroom, Nat.not_lt.mpr hbase, Bool.not_true, Bool.false_eq_true, or_self, not_false_eq_true])]
  extract_lets r
  obtain ⟨htray, -⟩ := State.addGrant_grants (r := r) (host := host) rfl (s.modTray fun t => { t with regions := t.regions ++ [r] })
  refine ⟨State.regionAnswer_told (by exact State.answersTo_of_mgmt ha (State.addGrant_mgmt _ _ _)) _ _ _, ?_⟩
  rw [State.regionAnswer_tray, htray]
  exact ⟨_, mem_mapIf_self (List.mem_append_right _ List.mem_cons_self) _, by simp [Region.named, r], rfl, rfl, rfl, rfl, rfl, rfl⟩

theorem State.regionGrantTo_grants {id version host : Nat} {r : Region} (hr : s.publishedRegion d.domain id version = some r)
    (hrecall : s.canRecall host = true) (hnew : r.grants.contains host = false) (hroom : s.grantRoom r.grains = true) :
    (s.regionGrantTo d id version host).regionTold d host id version ∧
      { r with grants := r.grants ++ [host] } ∈ (s.regionGrantTo d id version host).tray.regions ∧
        (s.regionGrantTo d id version host).slotFilled (ownerSlot 1 host) = true := by
  unfold State.regionGrantTo
  rw [if_neg (by simp [ht]), hr]
  dsimp only
  rw [if_neg (by simp [hrecall]), if_neg (by simp [hroom])]
  obtain ⟨htray, hkey⟩ := State.addGrant_grants hnew s
  refine ⟨State.regionAnswer_told (by exact State.answersTo_of_mgmt ha (State.addGrant_mgmt _ _ _)) _ _ _, ?_, ?_⟩
  · rw [State.regionAnswer_tray, htray]
    exact mem_mapIf_self (List.mem_of_find?_eq_some hr) _
  · obtain ⟨o, ho⟩ := (s.addGrant r host).regionAnswer_eq d.conn host d.domain id version stOk 0
    rw [ho]
    exact hkey

omit ha in
theorem State.regionPublishBy_recalls {host id version : Nat} {r : Region} (hr : s.draftFor host d.domain id version = some r)
    (hmem : r ∈ s.tray.regions) (hhost : r.grants.contains host = true) :
    { r with version := version, by_ := d.conn, st := .recalling, waiting := r.grants.filter fun h => h == host,
             recallFor := some .publish, recallAt := s.now } ∈ (s.regionPublishBy host d id version).tray.regions := by
  have hhosts : (r.grants.filter fun h => h == host) ≠ [] :=
    List.ne_nil_of_mem (List.mem_filter.mpr ⟨List.contains_iff_mem.mp hhost, beq_self_eq_true host⟩)
  unfold State.regionPublishBy
  rw [if_neg (by simp [ht]), hr]
  dsimp -zeta only
  extract_lets r'
  refine (State.beginRecall_waits (r := r') ?_ hhosts .publish).1
  exact mem_mapIf_self (mem_mapIf_self hmem fun x => { x with version := version }) fun _ => r'

theorem State.regionWithdrawn_recalls {id version : Nat} {r : Region} (hr : s.publishedRegion d.domain id version = some r) :
    (s.regionWithdrawn d id version).regionTold d 0 id version ∧
      if r.grants = [] then r ∉ (s.regionWithdrawn d id version).tray.regions
      else { r with st := .recalling, waiting := r.grants, recallFor := some .withdraw, recallAt := s.now } ∈ (s.regionWithdrawn d id version).tray.regions := by
  have hst : r.st = .published := by
    have := List.find?_some hr
    simp only [Bool.and_eq_true, beq_iff_eq] at this
    exact this.2
  unfold State.regionWithdrawn
  rw [if_neg (by simp [ht]), hr]
  dsimp -zeta only [Option.orElse]
  extract_lets r'
  obtain ⟨o, ho⟩ := (s.modRegion r fun _ => r').regionAnswer_eq d.conn 0 d.domain id version stOk 0
  have htold : ((s.modRegion r fun _ => r').regionAnswer d.conn 0 d.domain id version stOk 0).regionTold d 0 id version :=
    State.regionAnswer_told (by exact State.answersTo_of_mgmt ha rfl) _ _ _
  have htray := (s.modRegion r fun _ => r').regionAnswer_tray d.conn 0 d.domain id version stOk 0
  generalize hw : (s.modRegion r fun _ => r').regionAnswer d.conn 0 d.domain id version stOk 0 = w at *
  have hnow : w.now = s.now := by rw [ho]; rfl
  have hgone : r ∉ w.tray.regions := by
    rw [htray]
    exact not_mem_mapIf_self (fun _ he => nomatch (show RegionSt.withdrawn = .published from (congrArg Region.st he).trans hst)) _
  split
  · next hnone =>
    obtain ⟨r'', hst'', hregions, hout⟩ := w.beginRecall_frees r'
    rw [hnone]
    refine ⟨State.regionTold_mono htold fun m hm => by rw [hout]; exact hm, ?_⟩
    rw [hregions]
    exact fun hm => not_mem_mapIf hgone (fun _ he => nomatch hst''.symm.trans ((congrArg Region.st he).trans hst)) (List.mem_filter.mp hm).1
  · next hsome =>
    have hr' : r' ∈ w.tray.regions := by
      rw [htray]
      exact mem_mapIf_self (List.mem_of_find?_eq_some hr) fun _ => r'
    obtain ⟨hmem, hout⟩ := State.beginRecall_waits hr' hsome .withdraw
    rw [hnow] at hmem
    exact ⟨State.regionTold_mono htold hout, hmem⟩

theorem State.regionReleased_ends {id version host : Nat} {r : Region}
    (hr : (s.tray.regions.find? fun r => r.named d.domain id version && r.grants.contains host) = some r) :
    (r.st = .published → (s.regionReleased d id version host).regionTold d host id version ∧
      { r with grants := r.grants.filter fun h => h != host } ∈ (s.regionReleased d id version host).tray.regions) ∧
    (r.st = .draft → (s.regionReleased d id version host).regionTold d host id version ∧
      { r with grants := r.grants.filter (fun h => h != host), st := .recalling, waiting := [host], recallFor := some .free,
               recallAt := s.now } ∈ (s.regionReleased d id version host).tray.regions) := by
  unfold State.regionReleased
  rw [if_neg (by simp [ht]), hr]
  dsimp -zeta only
  extract_lets r' w
  have htold : w.regionTold d host id version := State.regionAnswer_told (State.answersTo_of_mgmt ha (s.dropGrant_mgmt r host)) _ _ _
  have hmem : r' ∈ w.tray.regions := by
    unfold w
    rw [State.regionAnswer_tray]
    exact State.dropGrant_record (List.mem_of_find?_eq_some hr) host
  have hnow : w.now = s.now := by
    obtain ⟨o, ho⟩ := (s.dropGrant r host).regionAnswer_eq d.conn host d.domain id version stOk 0
    unfold w
    rw [ho]
    exact s.dropGrant_now r host
  refine ⟨fun hst => ?_, fun hst => ?_⟩
  · rw [if_neg (by simp [hst]), if_neg (by simp [hst])]
    exact ⟨htold, hmem⟩
  · rw [if_neg (by simp [hst]), if_pos hst, ← hnow]
    obtain ⟨hwait, hout⟩ := State.beginRecall_waits hmem (List.cons_ne_nil host []) .free
    exact ⟨State.regionTold_mono htold hout, hwait⟩

end

/-! ### A publication's draft, and answers to a recall (R274, R275) -/

theorem State.isTray_of_image {s t : State} (h : t.image = s.image) : t.isTray = s.isTray := by
  unfold State.isTray
  rw [h]

theorem State.hashCheck_leaves (s : State) (check : SelfCheck) (computes : Bool) :
    (s.hashCheck check computes).tray = s.tray ∧ (s.hashCheck check computes).now = s.now ∧ (s.hashCheck check computes).image = s.image :=
  have h := s.hashCheck_hashFrame check computes s
  ⟨(congrArg State.tray h :), (congrArg State.now h :), (congrArg State.image h :)⟩

theorem State.draftFor_of_tray {s t : State} (h : t.tray = s.tray) (host domain id version : Nat) :
    t.draftFor host domain id version = s.draftFor host domain id version := by
  unfold State.draftFor State.draft?
  rw [h]

theorem State.draftFor_mem {s : State} {host domain id version : Nat} {r : Region} (h : s.draftFor host domain id version = some r) :
    r ∈ s.tray.regions := by
  unfold State.draftFor at h
  cases hd : s.draft? host domain id version with
  | some x =>
    rw [hd] at h
    cases h
    exact List.mem_of_find?_eq_some hd
  | none =>
    rw [hd] at h
    exact List.mem_of_find?_eq_some h

section
variable {s : State} {host id version : Nat} {r : Region} (hr : s.recallOf host id version = some r) (hw : (r.waiting.filter fun h => h != host) ≠ [])
include hr hw

/-- A host that does not answer in time loses its grant and its place in the recall. -/
theorem State.recallTimeout_waits (hdue : r.recallAt + s.params.recallUs * ticksPerUs ≤ s.now) :
    { r with grants := r.grants.filter (fun h => h != host), waiting := r.waiting.filter fun h => h != host } ∈
      (s.recallTimeout id version host).tray.regions := by
  unfold State.recallTimeout
  rw [hr]
  dsimp -zeta only
  rw [if_neg (Nat.not_lt.mpr hdue)]
  extract_lets r'
  refine State.recallAnswered_waits (r := r') ?_ hw
  rw [State.note_tray]
  exact State.dropGrant_record (List.mem_of_find?_eq_some hr) host

/-- A writer gives back a line of the draft that it publishes. -/
theorem State.backInvalidate_waits (hwriter : r.writer = host) (hfor : r.recallFor = some .publish) {line : Nat} (hsize : 64 * line + 64 ≤ r.size)
    (data : Bytes) :
    { r with bytes := r.bytes.writeN (64 * line) (data.take 64), waiting := r.waiting.filter fun h => h != host } ∈
      (s.backInvalidate host id version [(line, data)]).tray.regions := by
  unfold State.backInvalidate
  rw [hr]
  dsimp -zeta only
  extract_lets lines r'
  have hlines : lines = [(line, data)] := by simp [lines, hwriter, hfor, hsize]
  have hr' : r' = { r with bytes := r.bytes.writeN (64 * line) (data.take 64) } := by
    unfold r'
    rw [hlines]
    rfl
  have := State.recallAnswered_waits (s := s.modRegion r fun _ => r') (r := r') (mem_mapIf_self (List.mem_of_find?_eq_some hr) fun _ => r') hw
  rw [hr'] at this ⊢
  exact this

end

end Sys2Proof.Machine
end

section
/-! CLAIMS. Regions of a tray (12). -/

namespace Sys2Proof.Machine

/-- Settles O39: region commands on the state that heeds them, and the answers to a recall by the lemma on the recall that goes on. -/
theorem regionCommandsComplete : Obligations.RegionCommandsComplete := by
  refine ⟨fun s host id version grains d h ht hv hg hnone hrecall hroom hbase => leaves_of_heeds rfl h ht fun m ha =>
      State.regionOpenFor_opens ha ht hv hg hnone hrecall hroom hbase,
    fun s id version host d r h ht hr hrecall hnew hroom => leaves_of_heeds rfl h ht fun m ha =>
      State.regionGrantTo_grants ha ht hr hrecall hnew hroom,
    fun s host id version d check r h ht hr hhost => leaves_of_heeds rfl h ht fun m ha => ?_,
    fun s id version d r h ht hr => leaves_of_heeds rfl h ht fun m ha => State.regionWithdrawn_recalls ha ht hr,
    fun s id version host d r h ht hr => ⟨fun hst => leaves_of_heeds rfl h ht fun m ha => (State.regionReleased_ends ha ht hr).1 hst,
      fun hst => leaves_of_heeds rfl h ht fun m ha => (State.regionReleased_ends ha ht hr).2 hst⟩,
    fun s host id version r hr hw => ⟨fun link p fr h hdev hnamed => leaves_of_hears rfl h ?_, fun hs ht hdue => leaves_of_live rfl hs ?_,
      fun line data hs hwriter hfor hsize => leaves_of_live rfl hs ?_⟩⟩
  · obtain ⟨htray, hnow, himage⟩ := State.hashCheck_leaves { s with mgmt := m } check (s.isTray && (s.draftFor host d.domain id version).isSome)
    have := State.regionPublishBy_recalls (d := d) ((State.isTray_of_image himage).trans ht) ((State.draftFor_of_tray htray _ _ _ _).trans hr)
      (htray.symm ▸ (State.draftFor_mem hr : r ∈ ({ s with mgmt := m } : State).tray.regions)) hhost
    rw [hnow] at this
    exact this
  · have hr' : (s.heard link fr).recallOf p.device (regionNamed fr).1 (regionNamed fr).2 = some r := by
      rw [hdev, hnamed]
      exact hr
    rw [hr', hdev]
    exact State.recallAnswered_waits (List.mem_of_find?_eq_some hr) hw
  · exact State.recallTimeout_waits hr hw hdue
  · exact State.backInvalidate_waits hr hw hwriter hfor hsize data

end Sys2Proof.Machine
end

section
/-! SUPPORT. Reads, writes and near-memory operations at a tray (R272, R273, R275, R276, R280). -/

namespace Sys2Proof.Machine

/-! ### The search of a grant (R87, R272) -/

@[simp] theorem State.reachFalse_searched (s : State) (r) (host) (off) (len) : (s.reachFalse r host off len).searched = s.searched :=
  foldl_keeps State.searched _ (fun s _ => s.hitsFail_searched _ _) _ _

/-- What a search of the directory table leaves: the link still issues, and the tray is as it was. -/
theorem State.reachFalse_leaves (s : State) (r : Region) (host off len : Nat) :
    (s.reachFalse r host off len).portIssues = s.portIssues ∧ (s.reachFalse r host off len).slotFilled = s.slotFilled ∧
      (s.reachFalse r host off len).tray = s.tray :=
  have h := s.reachFalse_searched r host off len
  ⟨(congrArg State.portIssues h :), (congrArg State.slotFilled h :), (congrArg State.tray h :)⟩

/-! ### Messages of regions (R272, R275) -/

section
variable {s : State} {link : Nat} (hi : s.portIssues (.asvis link) = true) (hk : s.slotFilled (portSlot (.asvis link)) = true)
include hi hk

/-- A message leaves, and the tray is as it was. -/
theorem State.send_says (msg xid object aux status : Nat) (data : Bytes) (h : Hdr) :
    (s.send link msg xid object aux status data h).sent link msg xid object status data ∧
      (s.send link msg xid object aux status data h).tray = s.tray := by
  obtain ⟨hsent, q, ps, o, he⟩ := State.send_sends hi hk msg xid object aux status data h
  exact ⟨hsent, by rw [he]⟩

theorem State.onRegionRead_sends {length : Nat} {p : Port} {fr : Frame} {r : Region} (ht : s.isTray = true)
    (hr : s.readable p.device fr.domain (regionNamed fr).1 (regionNamed fr).2 = some r) (hsize : fr.aux + length ≤ r.size)
    (hreach : s.reaches r p.device fr.aux length = true) :
    (s.onRegionRead link p fr length).sentPage link msgRegionRead fr.xid ((regionNamed fr).1 + r.version * 2 ^ 32) (r.bytes.readN fr.aux length) ∧
      (s.onRegionRead link p fr length).tray = s.tray := by
  obtain ⟨hissue, hslot, htray⟩ := s.reachFalse_leaves r p.device fr.aux length
  unfold State.onRegionRead
  dsimp only
  rw [if_neg (by simp [ht]), hr]
  dsimp only
  rw [if_neg (Nat.not_lt.mpr hsize), hreach, if_neg (by simp)]
  exact ⟨State.sendPage_sentPage (by rw [hissue]; exact hi) (by rw [hslot]; exact hk) _ _ _ _ _ _ _,
    (congrArg State.tray (State.sendPage_carried _ _ _ _ _ _ _ _ _ _ _) :).trans htray⟩

theorem State.onRegionWrite_writes {p : Port} {fr : Frame} {data : Bytes} {r : Region} (ht : s.isTray = true)
    (hr : s.writable p.device fr.domain (regionNamed fr).1 (regionNamed fr).2 = some r) (hlast : fr.last = true) {whole : Bytes}
    (hwhole : (s.tray.puts.find? fun x => x.link == link && x.xid == fr.xid).elim [] (·.data) ++ data = whole)
    (hsize : fr.aux + whole.length ≤ r.size) (hreach : s.reaches r p.device fr.aux whole.length = true) :
    (s.onRegionWrite link p fr data).sent link msgRegionWrite fr.xid fr.object 0 [] ∧
      { r with bytes := r.bytes.writeN fr.aux whole } ∈ (s.onRegionWrite link p fr data).tray.regions := by
  let u := (s.gathered link fr).2
  obtain ⟨hissue, hslot, htray⟩ := u.reachFalse_leaves r p.device fr.aux whole.length
  let w := (u.reachFalse r p.device fr.aux whole.length).modRegion r fun r => { r with bytes := r.bytes.writeN fr.aux whole }
  have ho : s.onRegionWrite link p fr data = w.send link msgRegionWrite fr.xid fr.object fr.aux 0 [] (hdrOf fr) := by
    have hr' : u.writable p.device fr.domain (regionNamed fr).1 (regionNamed fr).2 = some r := hr
    have hreach' : u.reaches r p.device fr.aux whole.length = true := hreach
    have hwhole' : (s.gathered link fr).1 ++ data = whole := hwhole
    unfold State.onRegionWrite
    dsimp only
    rw [if_neg (by simp [ht]), if_neg (by simp [hlast]), hr']
    dsimp only
    rw [hwhole', hreach', if_neg (by simp only [Bool.not_true, Bool.false_eq_true, Nat.not_lt.mpr hsize, or_self, not_false_eq_true])]
  obtain ⟨hsent, hwtray⟩ := State.send_says (s := w) (link := link) ((congrFun hissue _).trans hi) ((congrFun hslot _).trans hk)
    msgRegionWrite fr.xid fr.object fr.aux 0 [] (hdrOf fr)
  rw [ho]
  refine ⟨hsent, ?_⟩
  rw [hwtray]
  refine mem_mapIf_self (x := r) ?_ fun r => { r with bytes := r.bytes.writeN fr.aux whole }
  rw [htray]
  exact List.mem_of_find?_eq_some hr

/-- A recall of a version that no request is on is answered, and no request ends. -/
theorem State.onRegionRecall_idle {fr : Frame} (hr : ∀ r ∈ s.reqs, r.onRegion (regionNamed fr).1 (regionNamed fr).2 = false) :
    (s.onRegionRecall link fr).sent link msgRecallDone fr.xid fr.object 0 [] ∧ (s.onRegionRecall link fr).reqs = s.reqs := by
  have hnone : (s.reqs.filter fun r => r.onRegion (regionNamed fr).1 (regionNamed fr).2 && s.domainOf r.tenant == fr.domain &&
      (r.phase == .started || r.phase == .remote || (r.phase == .writing && s.regionWaits r))) = [] :=
    List.filter_eq_nil_iff.mpr fun r hm => by simp [hr r hm]
  unfold State.onRegionRecall
  dsimp only
  rw [hnone]
  obtain ⟨hsent, q, ps, o, he⟩ := State.send_sends hi hk msgRecallDone fr.xid fr.object fr.aux 0 [] (hdrOf fr)
  exact ⟨hsent, (congrArg State.reqs he :)⟩

omit hi hk in
/-- At a tray no frame of a region answers a request of its own. -/
theorem State.regionTxn_tray (ht : s.isTray = true) (fr : Frame) : s.regionTxn link fr = none := if_pos ht

/-! ### Near-memory operations (R280) -/

theorem State.onNmo_fills {p : Port} {fr : Frame} {f : FillF} {r : Region} (ht : s.isTray = true) (hkind : f.dst.kind = 3)
    (hr : s.writable p.device fr.domain f.dst.handle 0 = some r) (hsize : f.dst.address + f.dst.length ≤ r.size) (hlen : f.dst.length % 8 = 0)
    (hreach : s.reaches r p.device f.dst.address f.dst.length = true) :
    (s.onNmo link p fr (.fill f)).sent link msgNmoDone fr.xid 0 0 [] ∧
      { r with bytes := r.bytes.writeN f.dst.address ((List.range (f.dst.length / 8)).flatMap fun _ => leBytes 8 f.pattern.toNat) } ∈
        (s.onNmo link p fr (.fill f)).tray.regions := by
  let data : Bytes := (List.range (f.dst.length / 8)).flatMap fun _ => leBytes 8 f.pattern.toNat
  have hdata : data.length = f.dst.length := by
    have h8 : ∀ n, (leBytes 8 n).length = 8 := fun n => by simp [leBytes]
    simp only [data, List.length_flatMap, h8, List.map_const', List.length_range, List.sum_replicate, smul_eq_mul]
    omega
  have hdest : s.regionDest p.device fr.domain f.dst data = some (s.modRegion r fun r => { r with bytes := r.bytes.writeN f.dst.address data }) := by
    unfold State.regionDest
    rw [hr]
    exact if_pos ⟨hkind, by rw [hdata]; exact hsize, by rw [hdata]; exact hreach⟩
  have ho : s.onNmo link p fr (.fill f) =
      (s.modRegion r fun r => { r with bytes := r.bytes.writeN f.dst.address data }).send link msgNmoDone fr.xid 0 fr.aux 0 [] (hdrOf fr) := by
    unfold State.onNmo State.runNmo
    dsimp only
    rw [if_neg (by simp [ht]), hdest]
  rw [ho]
  obtain ⟨hsent, htray⟩ := State.send_says (s := s.modRegion r fun r => { r with bytes := r.bytes.writeN f.dst.address data }) hi hk msgNmoDone fr.xid 0
    fr.aux 0 [] (hdrOf fr)
  rw [htray]
  exact ⟨hsent, mem_mapIf_self (List.mem_of_find?_eq_some hr) _⟩

theorem State.onNmo_compares {p : Port} {fr : Frame} {f : TwoOpF} {a b : Bytes} (ht : s.isTray = true)
    (ha : s.regionSource p.device fr.domain f.a = some a) (hb : s.regionSource p.device fr.domain f.b = some b) :
    (s.onNmo link p fr (.compare f)).sent link msgNmoDone fr.xid (firstDiff a b) 0 [] := by
  unfold State.onNmo State.runNmo
  dsimp only
  rw [if_neg (by simp [ht]), ha, hb]
  exact (State.send_says hi hk _ _ _ _ _ _ _).1

end

/-! ### Loads and stores of CXL hosts (R272, R276) -/

section
variable {s : State} {host line : Nat} {o : PoolObj} (hlost : o.lost = false)
include hlost

/-- A load of a line that stack memory holds, and a store to it. -/
theorem State.getObject_line (hin : o.inStack = true) :
    Output.cxlRegion host line ((o.data.drop (o.lineAt line)).take 64) ∈ (s.getObject o (.line host line none)).out ∧
      (s.getObject o (.line host line none)).tray = s.tray ∧
      ∀ data, Output.cxlDone line ∈ (s.getObject o (.line host line (some data))).out ∧
        (o ∈ s.tray.objects → ∃ y ∈ (s.getObject o (.line host line (some data))).tray.objects, y.id = o.id ∧
          y.data = putLine o.data (o.lineAt line) (data.take 64) ∧ y.onFlash = false) := by
  have hget : ∀ w, s.getObject o (.line host line w) = s.serveGet o (.line host line w) := fun w => if_pos (.inr hin)
  have hload : s.serveGet o (.line host line none) = s.emit (.cxlRegion host line ((o.data.drop (o.lineAt line)).take 64)) := by
    unfold State.serveGet
    dsimp only
    rw [hlost, if_neg Bool.false_ne_true]
  have hstore : ∀ data, s.serveGet o (.line host line (some data)) = (s.modObjects (fun x => x.id == o.id) fun x =>
      { x with data := putLine x.data (x.lineAt line) (data.take 64), onFlash := false, inStack := true, place := none }).emit (.cxlDone line) := by
    intro data
    unfold State.serveGet
    dsimp only
    rw [hlost, if_neg Bool.false_ne_true]
  rw [hget, hload]
  refine ⟨List.mem_cons_self, rfl, fun data => ?_⟩
  rw [hget, hstore]
  exact ⟨List.mem_cons_self, fun hm => ⟨_, List.mem_map.mpr ⟨o, hm, if_pos (by simp)⟩, rfl, rfl, rfl⟩⟩

end

theorem State.poolAccess_object {s : State} {host line : Nat} {resident : Bool} {o : PoolObj} (hmay : s.hostMay host (line / 256) 1 = some resident)
    (ho : (s.tray.objects.find? fun o => o.overlaps host (line / 256) 1) = some o) (hkey : s.slotFilled (ownerSlot 1 host) = true)
    (write : Option Bytes) : s.poolAccess host line write = s.getObject o (.line host line write) := by
  unfold State.poolAccess
  dsimp only
  rw [hmay]
  dsimp only
  rw [hkey, if_neg (by simp), ho]

/-- An access of a CXL host to a region version that it reaches. -/
theorem State.poolMem_region {s : State} {host id version line : Nat} {r : Region} {write : Option Bytes} (ht : s.isTray = true) (hv : version ≠ 0)
    (hsize : 64 * line + 64 ≤ r.size) (hreach : s.reaches r host (64 * line) 64 = true) (hr : s.cxlRegionOf host id version write.isSome = some r) :
    s.poolMem host id version line write = match write with
      | none => (s.reachFalse r host (64 * line) 64).emit (.cxlRegion host line (r.bytes.readN (64 * line) 64))
      | some b => ((s.reachFalse r host (64 * line) 64).modRegion r fun r => { r with bytes := r.bytes.writeN (64 * line) (b.take 64) }).emit (.cxlDone line) := by
  unfold State.poolMem
  rw [if_neg (by simp [ht]), if_neg hv, hr]
  dsimp only
  rw [hreach, if_neg (by simp only [Bool.not_true, Bool.false_eq_true, Nat.not_lt.mpr hsize, or_self, not_false_eq_true])]
  cases write <;> rfl

end Sys2Proof.Machine
end

section
/-! CLAIMS. What reaches a tray's regions and pool (12). -/

namespace Sys2Proof.Machine

/-- Settles O40: each access by the lemma on it, from the state that has heard it. -/
theorem trayAccessesComplete : Obligations.TrayAccessesComplete := by
  refine ⟨fun s link length p fr r h ht hup hr hsize hreach => leaves_of_hears rfl h ?_, fun s link p fr data r h ht hup hr hlast => ?_,
    fun s link length p fr h ht hup => leaves_of_hears rfl h ?_,
    fun s link p fr h hr => leaves_of_hears rfl h (State.onRegionRecall_idle (State.heard_issues h).1 (State.heard_issues h).2 hr),
    fun s link p fr f r h ht hup hkind hr hsize hlen hreach => leaves_of_hears rfl h ?_,
    fun s link p fr f a b h ht hup ha hb => leaves_of_hears rfl h ?_,
    fun s host line resident o hs ht hmay ho hlost hin hkey => ⟨fun id => leaves_of_live rfl hs ?_, fun id data => leaves_of_live rfl hs ?_⟩,
    fun s host id version line r hs ht hv hsize hup hreach => ⟨fun hr => leaves_of_live rfl hs ?_, fun data hr => leaves_of_live rfl hs ?_⟩⟩
  · obtain ⟨hi, hk⟩ := State.heard_issues h
    have ht' : (s.heard link fr).isTray = true := ht
    have hup' : (s.heard link fr).tableUp 6 = true := hup
    simp only [State.regionTxn_tray ht', hup', Bool.not_true, Bool.false_eq_true, and_false, if_false]
    exact State.onRegionRead_sends (s := s.heard link fr) hi hk ht hr hsize hreach
  · intro whole hsize hreach
    obtain ⟨hi, hk⟩ := State.heard_issues h
    have ht' : (s.heard link fr).isTray = true := ht
    have hup' : (s.heard link fr).tableUp 6 = true := hup
    refine leaves_of_hears rfl h ?_
    simp only [State.regionTxn_tray ht', hup', Bool.not_true, Bool.false_eq_true, and_false, if_false]
    exact State.onRegionWrite_writes (s := s.heard link fr) hi hk ht hr hlast rfl hsize hreach
  · have ht' : (s.heard link fr).isTray = true := ht
    have hup' : (s.heard link fr).tableUp 6 = false := hup
    simp only [State.regionTxn_tray ht', ht', hup', Bool.not_false, and_self, if_true]
    exact ⟨rfl, rfl, rfl⟩
  · obtain ⟨hi, hk⟩ := State.heard_issues h
    have hup' : (s.heard link fr).tableUp 6 = true := hup
    simp only [hup', Bool.not_true, Bool.false_eq_true, and_false, if_false]
    exact State.onNmo_fills (s := s.heard link fr) hi hk ht hkind hr hsize hlen hreach
  · obtain ⟨hi, hk⟩ := State.heard_issues h
    have hup' : (s.heard link fr).tableUp 6 = true := hup
    simp only [hup', Bool.not_true, Bool.false_eq_true, and_false, if_false]
    exact State.onNmo_compares (s := s.heard link fr) hi hk ht ha hb
  · obtain ⟨hload, htray, -⟩ := State.getObject_line (s := s) (host := host) (line := line) hlost hin
    simp only [ne_eq, not_true_eq_false, false_and, and_false, if_false, State.poolMem, ht, Bool.not_true, Bool.false_eq_true, if_true,
      State.poolAccess_object hmay ho hkey]
    exact ⟨hload, htray⟩
  · obtain ⟨-, -, hstore⟩ := State.getObject_line (s := s) (host := host) (line := line) hlost hin
    simp only [ne_eq, not_true_eq_false, false_and, and_false, if_false, State.poolMem, ht, Bool.not_true, Bool.false_eq_true, if_true,
      State.poolAccess_object hmay ho hkey]
    exact ⟨(hstore data).1, (hstore data).2 (List.mem_of_find?_eq_some ho)⟩
  · simp only [hup, Bool.not_true, Bool.false_eq_true, and_false, if_false, State.poolMem_region (write := none) ht hv hsize hreach hr]
    exact ⟨List.mem_cons_self, (s.reachFalse_leaves r host (64 * line) 64).2.2⟩
  · simp only [hup, Bool.not_true, Bool.false_eq_true, and_false, if_false, State.poolMem_region (write := some data) ht hv hsize hreach hr]
    refine ⟨List.mem_cons_self, mem_mapIf_self (x := r) ?_ fun r => { r with bytes := r.bytes.writeN (64 * line) (data.take 64) }⟩
    rw [(s.reachFalse_leaves r host (64 * line) 64).2.2]
    exact List.mem_of_find?_eq_some hr

end Sys2Proof.Machine
end

section
/-! SUPPORT. Stacks and parity groups: the scrub of a row, the loss of a stack, and a rebuild (R289 to R299). -/

namespace Sys2Proof.Machine

/-! ### Stacks (R293, R295) -/

theorem State.stackUp_of_dram {s t : State} (h : t.dram = s.dram) (k : Nat) : t.stackUp k = s.stackUp k := by
  unfold State.stackUp State.stack?
  rw [h]

theorem State.stack?_modStack {s : State} {k : Nat} {x : Stack} (hx : s.stack? k = some x) {g : Stack → Stack} (hg : ∀ x, (g x).n = x.n) :
    (s.modStack k g).stack? k = some (g x) :=
  find?_mapIf_some (key := Stack.n) hx fun x h => (hg x).trans h

theorem State.stack?_modStack_ne (s : State) {k j : Nat} (h : j ≠ k) {g : Stack → Stack} (hg : ∀ x, (g x).n = x.n) :
    (s.modStack k g).stack? j = s.stack? j :=
  find?_mapIf_ne (key := Stack.n) hg h s.dram

theorem State.stack_of_up {s : State} {k : Nat} (h : s.stackUp k = true) : ∃ x, s.stack? k = some x := by
  unfold State.stackUp at h
  split at h
  · next x hx => exact ⟨x, hx⟩
  · cases h

/-- What the loss of a stack leaves of the stacks in service: the others. -/
theorem State.stackUp_lost (s : State) {k : Nat} (hup : s.stackUp k = true) :
    (s.modStack k fun x => { x with lost := true }).stackUp k = false ∧
      ∀ j, j ≠ k → (s.modStack k fun x => { x with lost := true }).stackUp j = s.stackUp j := by
  obtain ⟨x, hx⟩ := State.stack_of_up hup
  refine ⟨?_, fun j hj => ?_⟩
  · have h : (s.modStack k fun x => { x with lost := true }).stack? k = some { x with lost := true } := State.stack?_modStack hx fun _ => rfl
    unfold State.stackUp
    rw [h]
    rfl
  · have h : (s.modStack k fun x => { x with lost := true }).stack? j = s.stack? j := State.stack?_modStack_ne s hj fun _ => rfl
    unfold State.stackUp
    rw [h]

/-! ### Corrected errors of a row (R289, R292) -/

/-- The count of a row after it is set. -/
theorem State.rowCount_setRowCount {s : State} {k : Nat} {x : Stack} (hx : s.stack? k = some x) (row n : Nat) :
    (s.setRowCount k row n).rowCount k row = n := by
  have h : (s.setRowCount k row n).stack? k = some { x with rowErrs := (row, s.scrubPeriod, n) :: x.rowErrs.filter fun e => e.1 != row } :=
    State.stack?_modStack hx fun _ => rfl
  have hp : (s.setRowCount k row n).scrubPeriod = s.scrubPeriod := rfl
  unfold State.rowCount
  rw [h, hp]
  simp

theorem State.rowCount_of {s t : State} {k : Nat} {x y : Stack} (hx : s.stack? k = some x) (hy : t.stack? k = some y) (he : y.rowErrs = x.rowErrs)
    (hp : t.scrubPeriod = s.scrubPeriod) (row : Nat) : t.rowCount k row = s.rowCount k row := by
  unfold State.rowCount
  rw [hx, hy, hp]
  simp [he]

/-- A row goes out of use on one stack. -/
def State.retireOn (s : State) (row k : Nat) : State := s.modStack k fun x => { x with retired := row :: x.retired.filter fun r => r != row }

theorem State.retireOn_self {s : State} {k : Nat} {x : Stack} (hx : s.stack? k = some x) (row : Nat) :
    (s.retireOn row k).stack? k = some { x with retired := row :: x.retired.filter fun r => r != row } := State.stack?_modStack hx fun _ => rfl

theorem State.retireOn_ne (s : State) (row : Nat) {j k : Nat} (h : k ≠ j) : (s.retireOn row j).stack? k = s.stack? k :=
  State.stack?_modStack_ne s h fun _ => rfl

/-- Rows that go out of use are listed on every stack that holds them, and change nothing else of it. -/
theorem State.retireRows_lists (row : Nat) (l : List Nat) {s : State} {k : Nat} {x : Stack} (hx : s.stack? k = some x) :
    ∃ y, (l.foldl (fun (s : State) k => s.retireOn row k) s).stack? k = some y ∧
      y.rowErrs = x.rowErrs ∧ (k ∈ l ∨ row ∈ x.retired → row ∈ y.retired) := by
  induction l generalizing s x with
  | nil => exact ⟨x, hx, rfl, fun h => h.resolve_left (by simp)⟩
  | cons j l ih =>
    by_cases hj : k = j
    · subst hj
      obtain ⟨y, hy, herr, hret⟩ := ih (State.retireOn_self hx row)
      exact ⟨y, hy, herr, fun _ => hret (.inr List.mem_cons_self)⟩
    · obtain ⟨y, hy, herr, hret⟩ := ih ((s.retireOn_ne row hj).trans hx)
      exact ⟨y, hy, herr, fun h => hret (h.imp_left fun hm => (List.mem_cons.mp hm).resolve_left hj)⟩

theorem State.groupOf_mem {s : State} {k : Nat} {g : PGroup} (h : s.groupOf k = some g) : k ∈ g.layout := by
  simpa using List.find?_some h

/-- A row that is retired is listed on its own stack. -/
theorem State.retireRow_lists {s : State} {k : Nat} {x : Stack} (hx : s.stack? k = some x) (row : Nat) :
    ∃ y, (s.retireRow k row).stack? k = some y ∧ y.rowErrs = x.rowErrs ∧ row ∈ y.retired := by
  unfold State.retireRow
  extract_lets l
  have hk : k ∈ l := by
    unfold l
    split
    · cases hg : s.groupOf k with
      | none => exact List.mem_cons_self
      | some g => exact State.groupOf_mem hg
    · exact List.mem_cons_self
  obtain ⟨y, hy, herr, hret⟩ := State.retireRows_lists row l hx
  exact ⟨y, hy, herr, hret (.inl hk)⟩

/-- What a report leaves of stacks, time and counters. -/
theorem State.reported {s t : State} (h : serviceFrame t s = serviceFrame s s) :
    t.dram = s.dram ∧ t.scrubPeriod = s.scrubPeriod ∧ t.telemetry = s.telemetry :=
  ⟨(congrArg State.dram h :), (congrArg State.scrubPeriod h :), (congrArg State.telemetry h :)⟩

theorem State.lowSpares_serviceFrame (s : State) (pool inst left : Nat) (d : State) : serviceFrame (s.lowSpares pool inst left) d = serviceFrame s d :=
  ite_keeps (m := (serviceFrame · d)) (State.advise_serviceFrame _ _ d) rfl

/-- A row that is repaired, or retired, begins to count anew. -/
theorem State.repairRow_ends {s : State} {k : Nat} {x : Stack} (hx : s.stack? k = some x) (row : Nat) :
    (s.repairRow k row).rowCount k row = 0 ∧ ((s.repairRow k row).telemetry.repairs = s.telemetry.repairs + 1 ∨
      ∃ y, (s.repairRow k row).stack? k = some y ∧ row ∈ y.retired) := by
  have hcount := State.rowCount_setRowCount hx row 0
  have hset : (s.setRowCount k row 0).stack? k = some { x with rowErrs := (row, s.scrubPeriod, 0) :: x.rowErrs.filter fun e => e.1 != row } :=
    State.stack?_modStack hx fun _ => rfl
  unfold State.repairRow
  extract_lets u left v
  split
  · obtain ⟨y, hy, herr, hret⟩ := State.retireRow_lists (s := v) hset row
    obtain ⟨hdram, hperiod, -⟩ := State.reported ((v.retireRow k row).advise_serviceFrame (poolDetail 10 k) (v.retireRow k row))
    have hstack : ((v.retireRow k row).advise (poolDetail 10 k)).stack? k = some y := (congrArg (List.find? _) hdram).trans hy
    have hperiod' : (v.retireRow k row).scrubPeriod = u.scrubPeriod :=
      foldl_keeps State.scrubPeriod (fun (s : State) k => s.retireOn row k) (fun _ _ => rfl) _ v
    exact ⟨(State.rowCount_of hset hstack herr (hperiod.trans hperiod') row).trans hcount, .inr ⟨y, hstack, hret⟩⟩
  · obtain ⟨hdram, hperiod, htel⟩ := State.reported (State.lowSpares_serviceFrame
      { v with telemetry := { v.telemetry with repairs := v.telemetry.repairs + 1 } } 10 k (left - 1) _)
    refine ⟨(State.rowCount_of hset ((congrArg (List.find? _) hdram).trans hset) rfl hperiod row).trans hcount, .inl ?_⟩
    rw [htel]
    rfl

/-! ### The loss of a stack (R295, R296, R299) -/

theorem State.group_modGroup {s : State} {g : PGroup} (hg : (s.groups.find? fun x => x.n == g.n) = some g) {f : PGroup → PGroup}
    (hf : ∀ x, (f x).n = x.n) : ((s.modGroup g.n f).groups.find? fun x => x.n == g.n) = some (f g) :=
  find?_mapIf_some (key := PGroup.n) hg fun x h => (hf x).trans h

/-- A healthy group of three or more stacks that loses one, with one left, degrades. -/
theorem State.groupLoses_degrades {s : State} {g : PGroup} (hg : (s.groups.find? fun x => x.n == g.n) = some g) (hst : g.st = .healthy)
    (h3 : 3 ≤ g.layout.length) (hleft : ∃ j ∈ g.layout, s.stackUp j = true) :
    (s.groupLoses g).dram = s.dram ∧ ((s.groupLoses g).groups.find? fun x => x.n == g.n) = some { g with st := .degraded, rebuild := 1 } := by
  obtain ⟨j, hj, hup⟩ := hleft
  have hne : (g.layout.filter fun k => s.stackUp k).isEmpty = false := by
    rw [List.isEmpty_eq_false_iff]
    exact List.ne_nil_of_mem (List.mem_filter.mpr ⟨hj, hup⟩)
  have he : s.groupLoses g = (s.modGroup g.n fun g => { g with st := .degraded, rebuild := 1 }).evacuateGroup g := by
    unfold State.groupLoses
    dsimp only
    rw [hne, if_neg Bool.false_ne_true, hst]
    exact if_pos h3
  have hcold := State.evacuateGroup_cold (s.modGroup g.n fun g => { g with st := .degraded, rebuild := 1 }) g
  rw [he]
  exact ⟨(congrArg Cold.dram hcold :), (congrArg (List.find? _) (congrArg Cold.groups hcold)).trans (State.group_modGroup hg fun _ => rfl)⟩

theorem State.loseStack_degrades {s : State} {k : Nat} {g : PGroup} (hup : s.stackUp k = true) (hof : s.groupOf k = some g) (hst : g.st = .healthy)
    (h3 : 3 ≤ g.layout.length) (hleft : (g.layout.filter fun j => j != k && s.stackUp j) ≠ [])
    (hg : (s.groups.find? fun x => x.n == g.n) = some g) :
    (s.loseStack k).stackUp k = false ∧ ((s.loseStack k).groups.find? fun x => x.n == g.n) = some { g with st := .degraded, rebuild := 1 } := by
  unfold State.loseStack
  rw [if_neg (by simp [hup])]
  extract_lets cache u v w
  have hv : v.cold = (u.modStack k fun x => { x with lost := true }).cold := State.memNote_cold _ _ _ _
  obtain ⟨hlost, hothers⟩ := u.stackUp_lost (k := k) hup
  have hvof : v.groupOf k = some g := (congrArg (List.find? _) (congrArg Cold.groups hv)).trans hof
  have hw : w = (v.spend 11 g.n).groupLoses g := by
    unfold w
    rw [hvof]
  clear_value w
  subst hw
  have hspend : (v.spend 11 g.n).cold = (u.modStack k fun x => { x with lost := true }).cold := (State.spend_cold _ _ _).trans hv
  have hdram : (v.spend 11 g.n).dram = (u.modStack k fun x => { x with lost := true }).dram := congrArg Cold.dram hspend
  obtain ⟨j, hj⟩ := List.exists_mem_of_ne_nil _ hleft
  obtain ⟨hmem, hne, hjup⟩ : j ∈ g.layout ∧ j ≠ k ∧ s.stackUp j = true := by simpa using hj
  obtain ⟨hwdram, hwgroup⟩ := State.groupLoses_degrades (s := v.spend 11 g.n) ((congrArg (List.find? _) (congrArg Cold.groups hspend)).trans hg) hst h3
    ⟨j, hmem, (State.stackUp_of_dram hdram j).trans ((hothers j hne).trans hjup)⟩
  have hend : (((((v.spend 11 g.n).groupLoses g).losePages cache).rehomeSeqs fun q => q.homeStack == k).recompute).cold = ((v.spend 11 g.n).groupLoses g).cold := by
    simp only [State.recompute_cold, State.rehomeSeqs_cold, State.losePages_cold]
  refine ⟨(State.stackUp_of_dram (congrArg Cold.dram hend) k).trans ?_, (congrArg (List.find? _) (congrArg Cold.groups hend)).trans hwgroup⟩
  exact (State.stackUp_of_dram (hwdram.trans hdram) k).trans hlost

/-! ### A rebuild (R297, R299) -/

section
variable {s : State} {g : PGroup} (hg : (s.groups.find? fun x => x.n == g.n) = some g)
include hg

/-- An empty degraded group is laid out over its survivors. -/
theorem State.evacuationEnd_lays (hst : g.st = .degraded) (hr : g.rebuild = 1) (hp : s.groupPages g = 0) (hc : (s.t1ChunksAt g.holds).isEmpty = true) :
    ((s.evacuationEnd g.n).groups.find? fun x => x.n == g.n) =
        some { g with layout := g.layout.filter fun k => s.stackUp k, rebuild := 2, copyOk := false } ∧
      ∀ x ∈ (s.evacuationEnd g.n).parity, x.group ≠ g.n := by
  unfold State.evacuationEnd
  rw [hg]
  dsimp -zeta only
  rw [if_neg (by simp [hst, hr]), if_pos ⟨hp, hc⟩]
  extract_lets left
  have hlaid : (((s.unwriteRows g.n).modGroup g.n fun g => { g with layout := left, rebuild := 2, copyOk := false }).groups.find? fun x => x.n == g.n) =
      some { g with layout := left, rebuild := 2, copyOk := false } := State.group_modGroup hg fun _ => rfl
  refine ⟨hlaid, fun x hx => ?_⟩
  have hx' : x ∈ s.parity.filter fun r => r.group != g.n := hx
  simpa using (List.mem_filter.mp hx').2

/-- A group whose copy is written is healthy. -/
theorem State.rebuildEnd_heals (hr : g.rebuild = 2) :
    ((s.rebuildEnd g.n).groups.find? fun x => x.n == g.n) = some { g with st := .healthy, rebuild := 0, copyOk := true } := by
  unfold State.rebuildEnd
  rw [hg]
  dsimp only
  rw [if_neg (by simp [hr])]
  have hcold := State.note_cold ((s.modGroup g.n fun g => { g with st := .healthy, rebuild := 0, copyOk := true }).copyWritten) "GROUP_HEALTHY"
    (evSource 4 (6 * g.n)) g.layout.length
  exact (congrArg (List.find? _) (congrArg Cold.groups hcold)).trans (State.group_modGroup hg fun _ => rfl)

end

end Sys2Proof.Machine
end

section
/-! CLAIMS. On-package memory (13). -/

namespace Sys2Proof.Machine

/-- Settles O42: the scrub by what counting and repairing a row leave, refreshes on their stack, a loss and a rebuild by their lemmas. -/
theorem memoryCommandsComplete : Obligations.MemoryCommandsComplete := by
  refine ⟨fun s k row sector hs hup => ?_, fun s x hs hx => ⟨fun tempC => leaves_of_live rfl hs (State.stack?_modStack hx fun _ => rfl),
      leaves_of_live rfl hs (State.stack?_modStack hx fun _ => rfl)⟩,
    fun s k g hs hup _ _ hof hst h3 hleft hg => ?_,
    fun s g hs hg => ⟨fun hst hr hp hc => leaves_of_live rfl hs (State.evacuationEnd_lays hg hst hr hp hc),
      fun hr => leaves_of_live rfl hs (State.rebuildEnd_heals hg hr)⟩⟩
  · obtain ⟨x, hx⟩ := State.stack_of_up hup
    let u : State := { s with telemetry := { s.telemetry with corrected := s.telemetry.corrected + 1 } }
    have hcount := State.rowCount_setRowCount (s := u) hx row (s.rowCount k row + 1)
    have hset : (u.setRowCount k row (s.rowCount k row + 1)).stack? k = _ := State.stack?_modStack hx fun _ => rfl
    have hfew : s.lineRead k row sector .few = if s.params.rowCeLimit ≤ s.rowCount k row + 1 then (u.setRowCount k row (s.rowCount k row + 1)).repairRow k row
        else u.setRowCount k row (s.rowCount k row + 1) := by
      unfold State.lineRead
      rw [if_neg (by simp [hup])]
      rfl
    refine ⟨leaves_of_live (g := fun s => s.lineRead k row sector .clean) rfl hs (by simp [State.lineRead]),
      fun hlt => leaves_of_live (g := fun s => s.lineRead k row sector .few) rfl hs ?_,
      fun hle => leaves_of_live (g := fun s => s.lineRead k row sector .few) rfl hs ?_, fun x => rfl⟩
    · rw [hfew, if_neg (Nat.not_le.mpr hlt)]
      exact ⟨hcount, rfl, rfl⟩
    · rw [hfew, if_pos hle]
      exact State.repairRow_ends hset row
  · intro P
    have hP : P (s.loseStack k) := State.loseStack_degrades hup hof hst h3 hleft hg
    exact ⟨leaves_of_live rfl hs hP, leaves_of_live rfl hs hP⟩

end Sys2Proof.Machine
end

section
/-! SUPPORT. Full resets: the debug state, and the records of the event recorder (R335, R351, R356). -/

namespace Sys2Proof.Machine

/-! ### Records (R351) -/

/-- What the event recorder has written: the ring, the first-events area, and the next number. -/
def Recorder.records (q : Recorder) : List Event × List Event × Nat := (q.ring, q.firsts, q.next)

def State.records (s : State) : List Event × List Event × Nat := s.recorder.records

theorem State.records_of_cold {s t : State} (h : t.cold = s.cold) : t.records = s.records :=
  congrArg (fun x : Cold => (x.ring, x.firsts, x.nextSeq)) h

/-! ### What a reset leaves of both (R335, R351, R357) -/

/-- Nothing of the debug state or of the records has changed. -/
def Stays (s t : State) : Prop := t.dbg = s.dbg ∧ t.records = s.records

/-- A full reset: debug is locked, and the recorder, with records as before it, has written what its queue held. -/
def Wipes (s t : State) : Prop := t.dbg = State.reset.dbg ∧ ∃ q : Recorder, q.records = s.records ∧ t.records = q.flush.records

theorem Stays.of_spine {s t : State} (h : t.spine = s.spine) (hc : t.cold = s.cold) : Stays s t :=
  ⟨congrArg Spine.dbg h, State.records_of_cold hc⟩

theorem Stays.trans {s t u : State} (h : Stays s t) (hu : Stays t u) : Stays s u := ⟨hu.1.trans h.1, hu.2.trans h.2⟩

theorem Stays.wipes {s t u : State} (h : Stays s t) (hu : Wipes t u) : Wipes s u :=
  ⟨hu.1, let ⟨q, hq, hr⟩ := hu.2; ⟨q, hq.trans h.2, hr⟩⟩

theorem Wipes.stays {s t u : State} (h : Wipes s t) (hu : Stays t u) : Wipes s u :=
  ⟨hu.1.trans h.1, let ⟨q, hq, hr⟩ := h.2; ⟨q, hq, hu.2.trans hr⟩⟩

theorem State.note_stays (s : State) (name : String) (source detail : Nat) : Stays s (s.note name source detail) := .of_spine (by simp) (by simp)
theorem State.reply_stays (s : State) (conn st : Nat) (body : List Nat) : Stays s (s.reply conn st body) := .of_spine (by simp) (by simp)

theorem State.wiped_wipes (s : State) (phase : Phase) : Wipes s (s.wiped phase) := by
  unfold State.wiped
  extract_lets fresh b t
  have ht : Wipes s t := ⟨rfl, s.recorder, rfl, rfl⟩
  split
  · exact ht.stays (t.note_stays _ _ _)
  · exact ht

theorem State.release_stays (s : State) (pri sec : Bool) : Stays s (s.release pri sec) := by
  unfold State.release
  extract_lets p u b v
  split
  · exact ⟨rfl, rfl⟩
  · split
    · exact Stays.trans (t := v) ⟨rfl, rfl⟩ (.of_spine (by simp) (by simp))
    · exact ⟨rfl, rfl⟩

theorem State.commandReset_wipes (s : State) : Wipes s s.commandReset := (s.wiped_wipes .identity).stays (State.release_stays _ _ _)

/-- The connections close before a reset that a command begins. -/
theorem State.closeAll_stays (s : State) (l : List Conn) : Stays s (l.foldl (fun (s : State) c => s.closeConn c.n) s) :=
  .of_spine (foldl_keeps State.spine _ (fun _ _ => by simp) _ _) (foldl_keeps State.cold _ (fun _ _ => by simp) _ _)

/-! ### Uploads that end in a reset (R370, R373) -/

theorem State.setFlash_stays (s : State) (b : Bool) (g : Flash → Flash) : Stays s (s.setFlash b g) := by
  unfold State.setFlash
  split <;> exact ⟨rfl, rfl⟩

theorem State.abandon_stays (s : State) : Stays s s.abandon :=
  Stays.trans (t := { s.eraseSlot with update := { s.update with st := 0, staged := none, next := 0, total := 0 } })
    (Stays.trans (s.setFlash_stays _ _) ⟨rfl, rfl⟩) (State.note_stays _ _ _ _)

theorem State.endStaging_reaches (s : State) (conn : Nat) (i : Image) : Stays s (s.endStaging conn i) ∨ Wipes s (s.endStaging conn i) := by
  unfold State.endStaging
  extract_lets n u v
  have hu : Stays s u := s.setFlash_stays _ _
  split
  · exact .inl (s.abandon_stays.trans (State.reply_stays _ _ _ _))
  · split
    · exact .inr (((hu.trans (u.reply_stays conn msOk [])).trans (State.closeAll_stays _ _)).wipes (State.commandReset_wipes _))
    · exact .inl ((hu.trans (t := u) ⟨rfl, rfl⟩).trans (State.reply_stays _ _ _ _))

theorem State.chunk_reaches (s : State) (conn offset length : Nat) (i : Image) :
    Stays s (s.chunk conn offset length i) ∨ Wipes s (s.chunk conn offset length i) := by
  unfold State.chunk
  split
  · exact .inl (s.abandon_stays.trans (State.reply_stays _ _ _ _))
  · extract_lets u v
    have hv : Stays s v := ⟨rfl, rfl⟩
    split
    · exact (v.endStaging_reaches conn i).imp hv.trans hv.wipes
    · exact .inl (hv.trans (State.reply_stays _ _ _ _))

theorem State.beginStaging_stays (s : State) (recovery : Bool) (total : Nat) : Stays s (s.beginStaging recovery total) := by
  unfold State.beginStaging
  extract_lets _ u
  have hu : Stays s u := by
    unfold u
    split <;> exact ⟨rfl, rfl⟩
  exact hu.trans (Stays.trans (t := { u with update := { st := 1, staged := none, next := 0, total := total, recovery := recovery } }) ⟨rfl, rfl⟩
    (State.setFlash_stays _ _ _))

theorem State.upload_reaches (s : State) (conn offset length : Nat) (i : Image) (recovery : Bool) :
    Stays s (s.upload conn offset length i recovery) ∨ Wipes s (s.upload conn offset length i recovery) := by
  unfold State.upload
  split
  · exact .inl (State.reply_stays _ _ _ _)
  · split
    · split
      · exact .inl (State.reply_stays _ _ _ _)
      · have hb := s.beginStaging_stays recovery i.imageBytes
        exact (State.chunk_reaches _ _ _ _ _).imp hb.trans hb.wipes
    · split
      · exact State.chunk_reaches _ _ _ _ _
      · exact .inl (State.reply_stays _ _ _ _)

theorem State.serve_reaches (s : State) (conn : Nat) (roles : List Nat) (before : Bool) (k : State → Conn → State)
    (h : ∀ t c, Stays t (k t c) ∨ Wipes t (k t c)) : Stays s (s.serve conn roles before k) ∨ Wipes s (s.serve conn roles before k) := by
  have touched : Stays s (s.touch conn) := ⟨rfl, rfl⟩
  unfold State.serve
  split
  · exact .inl ⟨rfl, rfl⟩
  · next c _ =>
    dsimp only
    split
    · exact .inl ⟨rfl, rfl⟩
    · split
      · exact .inl (touched.trans (State.reply_stays _ _ _ _))
      · split
        · exact .inl (touched.trans (State.reply_stays _ _ _ _))
        · split
          · exact (h _ c).imp touched.trans touched.wipes
          · exact .inl (touched.trans (State.reply_stays _ _ _ _))

/-- A command that carries a full reset stays, or wipes; a power-on reset loses the recorder as well. -/
theorem exec_reaches {c : Instr} {s t : State} (h : exec c s = .next t) (hc : c.carriesReset = true) :
    (Stays s t ∨ Wipes s t) ∨ c = .fullReset .powerOn ∧ t.dbg = State.reset.dbg := by
  cases c
  case fullReset cause =>
    cases h
    unfold State.fullReset
    extract_lets low
    have wipes : Wipes s (low (s.wiped .inReset)) := (s.wiped_wipes .inReset).stays ⟨rfl, rfl⟩
    cases cause with
    | powerOn => exact .inr ⟨rfl, (s.wiped_wipes .inReset).1⟩
    | resetN =>
      dsimp only
      split
      · exact .inl (.inl ⟨rfl, rfl⟩)
      · exact .inl (.inr wipes)
    | command =>
      dsimp only
      split
      case h_1 | h_2 | h_3 => exact .inl (.inr s.commandReset_wipes)
      all_goals exact .inl (.inl ⟨rfl, rfl⟩)
  case trialTimeout =>
    cases h
    unfold State.trialTimeout
    split
    · exact .inl (.inl ⟨rfl, rfl⟩)
    · exact .inl (.inr (((s.note_stays _ _ _).trans ⟨rfl, rfl⟩).wipes (State.commandReset_wipes _)))
  case imageUpload conn offset length i =>
    cases h
    refine .inl ?_
    unfold State.uploadCmd
    split
    · split
      · have touched : Stays s (s.touch conn) := ⟨rfl, rfl⟩
        exact (State.upload_reaches _ _ _ _ _ _).imp touched.trans touched.wipes
      · exact .inl ⟨rfl, rfl⟩
    · exact s.serve_reaches _ _ _ _ fun _ _ => State.upload_reaches _ _ _ _ _ _
  case resetFull conn =>
    cases h
    exact .inl (s.serve_reaches _ _ _ _ fun t _ =>
      .inr (((t.reply_stays conn msOk []).trans (State.closeAll_stays _ _)).wipes (State.commandReset_wipes _)))
  case vddAonLow =>
    cases h
    exact .inl (.inr (s.wiped_wipes .aonOff))
  all_goals cases hc

/-! ### The debug unlock (R335, R336) -/

/-- JTAG opens at the highest level of the tokens that stand, and no token stands any more. -/
theorem State.openJtag_dbg (s : State) :
    s.openJtag.dbg = { s.dbg with st := s.debugLevel, unlocks := s.dbg.unlocks + s.dbg.opening.length, opening := [] } := by
  unfold State.openJtag
  extract_lets tokens u v _ w x level _ y z
  have hu : u.spine = s.spine := foldl_keeps State.spine _ (fun _ _ => by simp) _ _
  have hv : v.spine = s.spine := (foldl_keeps State.spine _ (fun _ _ => by simp) _ _).trans hu
  have hx : x.dbg = s.dbg := congrArg Spine.dbg ((State.brineDevice_spine w).trans (show w.spine = s.spine from hv))
  have hend : ∀ l : List Conn, (l.foldl (fun (s : State) c => s.closeConn c.n) z).spine = y.spine := fun l =>
    (foldl_keeps State.spine _ (fun _ _ => by simp) _ _).trans (foldl_keeps State.spine _ (fun _ _ => by simp) _ _)
  refine (congrArg Spine.dbg (hend _)).trans ?_
  have hy : y.dbg = { x.dbg with st := tokens.foldl (fun n t => max n t.2) x.dbg.st, unlocks := x.dbg.unlocks + tokens.length, opening := [] } := rfl
  change y.dbg = _
  rw [hy, hx]
  exact rfl

theorem State.settleUnlock_dbg (s : State) : s.settleUnlock.dbg = s.dbg ∨
    s.settleUnlock.dbg = { s.dbg with st := s.debugLevel, unlocks := s.dbg.unlocks + s.dbg.opening.length, opening := [] } := by
  unfold State.settleUnlock
  split
  · exact .inr s.openJtag_dbg
  · exact .inl rfl

/-- The level of a list of tokens lies between where debug stands and the highest scope. -/
theorem tokenLevel_bounds (l : List (Nat × Nat)) {n : Nat} (hn : n ≤ 2) (hl : ∀ x ∈ l, x.2 ≤ 2) :
    n ≤ l.foldl (fun n x => max n x.2) n ∧ l.foldl (fun n x => max n x.2) n ≤ 2 := by
  induction l generalizing n with
  | nil => exact ⟨le_rfl, hn⟩
  | cons x l ih =>
    obtain ⟨hlo, hhi⟩ := ih (max_le hn (hl x List.mem_cons_self)) fun y hy => hl y (List.mem_cons_of_mem _ hy)
    exact ⟨(le_max_left _ _).trans hlo, hhi⟩

/-- The debug state is in its range, and so is what waits to open. -/
def Debug.bounded (d : Debug) : Prop := d.st ≤ 2 ∧ ∀ x ∈ d.opening, x.2 ≤ 2

theorem State.settleUnlock_bounded {s : State} (h : s.dbg.bounded) : s.settleUnlock.dbg.bounded ∧ s.dbg.st ≤ s.settleUnlock.dbg.st := by
  obtain ⟨hst, hopen⟩ := h
  obtain he | he := s.settleUnlock_dbg
  · rw [he]
    exact ⟨⟨hst, hopen⟩, le_rfl⟩
  · obtain ⟨hlo, hhi⟩ := tokenLevel_bounds s.dbg.opening hst hopen
    rw [he]
    exact ⟨⟨hhi, by simp⟩, hlo⟩

theorem State.scope_of_tokenFails {s : State} {k : Token} (h : s.tokenFails k = 0) : k.scope ≤ 2 := by
  unfold State.tokenFails at h
  by_contra hs
  have hne : k.scope ≠ 1 ∧ k.scope ≠ 2 := by omega
  by_cases hl : k.layout = 1
  · simp only [hl, hne, ne_eq, not_true_eq_false, not_false_eq_true, if_false, and_self, if_true] at h
    cases h
  · simp only [hl, ne_eq, not_false_eq_true, if_true] at h
    cases h

/-- A token that passes: it stands, and every active tenant's removal begins. -/
def State.accepted (s : State) (conn : Nat) (k : Token) : State :=
  s.tenants.foldl (fun (s : State) x => s.beginRemoval x.tenant none)
    { s with dbg := { s.dbg with nonce := none, stands := true, opening := s.dbg.opening ++ [(conn, k.scope)] } }

theorem State.unlock_accepts {s : State} {k : Token} (h : s.tokenFails k = 0) (conn : Nat) : s.unlock conn k = (s.accepted conn k).settleUnlock := by
  unfold State.unlock
  dsimp only
  rw [if_neg (by simp [h])]
  rfl

theorem State.accepted_dbg (s : State) (conn : Nat) (k : Token) :
    (s.accepted conn k).dbg = { s.dbg with nonce := none, stands := true, opening := s.dbg.opening ++ [(conn, k.scope)] } :=
  congrArg Spine.dbg (foldl_keeps State.spine (fun (s : State) (x : TenantSt) => s.beginRemoval x.tenant none) (fun _ _ => by simp) s.tenants
    { s with dbg := { s.dbg with nonce := none, stands := true, opening := s.dbg.opening ++ [(conn, k.scope)] } })

theorem State.unlock_refuses {s : State} {k : Token} (h : s.tokenFails k ≠ 0) (conn : Nat) :
    s.unlock conn k = (({ s with dbg := { s.dbg with nonce := none } } : State).note "DEBUG_TOKEN_REFUSED" (evSource 8 0) (s.tokenFails k)).reply
      conn msCheckFailed [s.tokenFails k] := by
  unfold State.unlock
  exact if_pos h

theorem State.unlock_bounded {s : State} (h : s.dbg.bounded) (conn : Nat) (k : Token) :
    (s.unlock conn k).dbg.bounded ∧ s.dbg.st ≤ (s.unlock conn k).dbg.st := by
  by_cases hk : s.tokenFails k = 0
  · have hd := s.accepted_dbg conn k
    have hb : (s.accepted conn k).dbg.bounded := by
      rw [hd]
      refine ⟨h.1, fun x hx => ?_⟩
      rcases List.mem_append.mp hx with hx | hx
      · exact h.2 x hx
      · rw [List.mem_singleton.mp hx]
        exact State.scope_of_tokenFails hk
    rw [State.unlock_accepts hk]
    obtain ⟨hb', hle⟩ := State.settleUnlock_bounded hb
    exact ⟨hb', (congrArg Debug.st hd).ge.trans hle⟩
  · rw [State.unlock_refuses hk]
    have hd := congrArg Spine.dbg ((State.reply_spine _ conn msCheckFailed [s.tokenFails k]).trans
      (State.note_spine { s with dbg := { s.dbg with nonce := none } } "DEBUG_TOKEN_REFUSED" (evSource 8 0) (s.tokenFails k)))
    change State.dbg _ = _ at hd
    rw [hd]
    exact ⟨h, le_rfl⟩

/-- With no tenant active or being removed, a token reaches its level at once. -/
theorem State.unlock_opens {s : State} {k : Token} (h : s.tokenFails k = 0) (ht : ∀ x ∈ s.tenants, x.life ≠ .active ∧ x.life ≠ .removing)
    (ho : s.dbg.opening = []) (conn : Nat) :
    (s.unlock conn k).dbg = { st := max s.dbg.st k.scope, unlocks := s.dbg.unlocks + 1, nonce := none, stands := true, opening := [] } := by
  let u : State := { s with dbg := { s.dbg with nonce := none, stands := true, opening := s.dbg.opening ++ [(conn, k.scope)] } }
  have hstep : ∀ x : TenantSt, u.beginRemoval x.tenant none = u := fun x => by
    unfold State.beginRemoval
    split
    · rfl
    · next y hy => exact if_pos (ht y (List.mem_of_find?_eq_some hy)).1
  have hu : s.accepted conn k = u := foldl_whole hstep s.tenants
  have hnone : u.noneRemoving = true := List.all_eq_true.mpr fun x hx => by simpa using (ht x hx).2
  have hopen : u.settleUnlock = u.openJtag := if_pos ⟨by simp [u], hnone⟩
  rw [State.unlock_accepts h, hu, hopen, State.openJtag_dbg]
  simp [State.debugLevel, u, ho]

/-- A removal's end settles an unlock that waits for it. -/
theorem State.tenantGone_bounded {s : State} (h : s.dbg.bounded) (tenant : Nat) :
    (s.tenantGone tenant).dbg.bounded ∧ s.dbg.st ≤ (s.tenantGone tenant).dbg.st := by
  unfold State.tenantGone
  split
  · exact ⟨h, le_rfl⟩
  · split
    · exact ⟨h, le_rfl⟩
    · next x _ _ =>
      extract_lets u
      have answered : ∀ v : State, v.dbg = s.dbg → v.settleUnlock.dbg.bounded ∧ s.dbg.st ≤ v.settleUnlock.dbg.st := fun v hv => by
        rw [← hv] at h ⊢
        exact State.settleUnlock_bounded h
      cases x.answerTo with
      | none => exact answered u rfl
      | some n => exact answered _ (congrArg Spine.dbg (State.reply_spine u n msOk []))

/-! ### A command and the debug state (R335) -/

/-- The debug state that `t` reaches from `s` on a command `c` (R335). -/
def dbgRises (c : Instr) (s t : State) : Prop :=
  t.dbg.st ≤ 2 ∧ (∀ x ∈ t.dbg.opening, x.2 ≤ 2) ∧ (s.dbg.st ≤ t.dbg.st ∨ c.carriesReset = true ∧ t.dbg.st = 0) ∧
    (s.dbg.st < t.dbg.st → (∃ n k, c = .debugUnlock n k) ∨ ∃ n, c = .tenantRemoved n)

theorem dbgRises_of_kept {c : Instr} {s t : State} (h : s.dbg.bounded) (hst : t.dbg.st = s.dbg.st) (ho : t.dbg.opening = s.dbg.opening) :
    dbgRises c s t := by
  unfold dbgRises
  rw [hst, ho]
  exact ⟨h.1, h.2, .inl le_rfl, fun hlt => absurd hlt (lt_irrefl _)⟩

theorem dbgRises_of_locked {c : Instr} {s t : State} (hc : c.carriesReset = true) (h : t.dbg = State.reset.dbg) : dbgRises c s t := by
  unfold dbgRises
  rw [h]
  exact ⟨Nat.zero_le _, fun _ hx => absurd hx List.not_mem_nil, .inr ⟨hc, rfl⟩, fun hlt => absurd hlt (Nat.not_lt_zero _)⟩

theorem dbgRises_of_raised {c : Instr} {s t : State} (h : t.dbg.bounded ∧ s.dbg.st ≤ t.dbg.st)
    (hc : (∃ n k, c = .debugUnlock n k) ∨ ∃ n, c = .tenantRemoved n) : dbgRises c s t := ⟨h.1.1, h.1.2, .inl h.2, fun _ => hc⟩

/-- Serving a command of the management port changes the debug state as what it runs does, or not at all. -/
theorem State.serve_dbg {R : Debug → Debug → Prop} (refl : ∀ d, R d d) {k : State → Conn → State} (hk : ∀ (t : State) c, R t.dbg (k t c).dbg)
    (s : State) (conn : Nat) (roles : List Nat) (before : Bool) : R s.dbg (s.serve conn roles before k).dbg := by
  have refused : ∀ st, R s.dbg ((s.touch conn).reply conn st []).dbg := fun st => by
    have hd : ((s.touch conn).reply conn st []).dbg = s.dbg := congrArg Spine.dbg (State.reply_spine (s.touch conn) conn st [])
    exact hd ▸ refl s.dbg
  unfold State.serve
  split
  · exact refl _
  · next c _ =>
    dsimp only
    split
    · exact refl _
    · split
      · exact refused _
      · split
        · exact refused _
        · split
          · exact hk (s.touch conn) c
          · exact refused _

theorem State.openRefusal_dbg (s : State) (conn : Nat) : (s.openRefusal conn).dbg = s.dbg :=
  congrArg Spine.dbg (State.reply_spine s.freeNat.2 conn _ [])

theorem State.issueNonce_dbg (s : State) (conn : Nat) : ∃ n, (s.issueNonce conn).dbg = { s.dbg with nonce := n } := by
  unfold State.issueNonce
  split
  · exact ⟨s.dbg.nonce, s.openRefusal_dbg conn⟩
  · exact ⟨_, congrArg Spine.dbg (State.reply_spine _ conn msOk _)⟩

theorem State.lapseNonce_dbg (s : State) : ∃ n, s.lapseNonce.dbg = { s.dbg with nonce := n } := by
  unfold State.lapseNonce
  split
  · split
    · exact ⟨none, rfl⟩
    · exact ⟨s.dbg.nonce, rfl⟩
  · exact ⟨s.dbg.nonce, rfl⟩

/-- The four commands that list the debug state: a nonce leaves its level, a token and the end of a removal raise it. -/
theorem dbgRises_of_listed {c : Instr} {s t : State} (h : exec c s = .next t) (hc : .dbg ∈ c.changes) (hb : s.dbg.bounded) : dbgRises c s t := by
  cases c
  case debugNonce conn =>
    cases h
    obtain ⟨hst, ho⟩ := State.serve_dbg (R := fun d e => e.st = d.st ∧ e.opening = d.opening) (fun _ => ⟨rfl, rfl⟩)
      (fun t _ => by obtain ⟨n, hn⟩ := t.issueNonce_dbg conn; rw [hn]; exact ⟨rfl, rfl⟩) s conn [2] false
    exact dbgRises_of_kept hb hst ho
  case nonceLapse =>
    cases h
    obtain ⟨n, hn⟩ := s.lapseNonce_dbg
    exact dbgRises_of_kept hb (by rw [hn]) (by rw [hn])
  case debugUnlock conn k =>
    cases h
    exact dbgRises_of_raised (State.serve_dbg (R := fun d e => d.bounded → e.bounded ∧ d.st ≤ e.st) (fun _ hd => ⟨hd, le_rfl⟩)
      (fun t _ ht => State.unlock_bounded ht conn k) s conn [2] false hb) (.inl ⟨conn, k, rfl⟩)
  case tenantRemoved tenant =>
    cases h
    refine dbgRises_of_raised ?_ (.inr ⟨tenant, rfl⟩)
    unfold State.live
    split
    · exact State.tenantGone_bounded hb tenant
    · exact ⟨hb, le_rfl⟩
  all_goals simp [Instr.changes] at hc

end Sys2Proof.Machine
end

section
/-! CLAIMS. The debug state (14). -/

namespace Sys2Proof.Machine

/-- Settles O10: but for the commands that list the debug state and the full resets nothing touches it; a nonce leaves its level, tokens and
the end of a removal raise it within its range. -/
theorem debugStateOnlyRises : Obligations.DebugStateOnlyRises := by
  refine ⟨fun c s t hst hopen h => ?_, fun s conn c k h hk ht ho hlevel => ?_⟩
  · have hb : s.dbg.bounded := ⟨hst, hopen⟩
    by_cases hc : c.carriesReset = true
    · rcases exec_reaches h hc with (stays | wipes) | ⟨_, hd⟩
      · exact dbgRises_of_kept hb (congrArg Debug.st stays.1) (congrArg Debug.opening stays.1)
      · exact dbgRises_of_locked hc wipes.1
      · exact dbgRises_of_locked hc hd
    · by_cases hd : .dbg ∈ c.changes
      · exact dbgRises_of_listed h hd hb
      · have same : t.dbg = s.dbg := (guardedAreasStand c s t h).2 (Bool.eq_false_iff.mpr hc) .dbg (by simp) hd
        exact dbgRises_of_kept hb (congrArg Debug.st same) (congrArg Debug.opening same)
  · refine ⟨_, rfl, ?_⟩
    rw [s.serve_of_serves h]
    have opened := State.unlock_opens (s := s.touch conn) hk ht ho conn
    refine (congrArg Debug.st opened).trans ?_
    simp only [List.mem_cons, Prod.mk.injEq, List.not_mem_nil, or_false] at hlevel
    change max s.dbg.st k.scope = k.scope
    omega

end Sys2Proof.Machine
end

section
/-! SUPPORT. The whole-device brine, model keys and the debug unlock (R324, R329, R334). -/

namespace Sys2Proof.Machine

/-- A brine ends every engine's debts at the tick it runs. -/
theorem State.brineDevice_clean (s : State) : ∀ e ∈ s.brineDevice.engines, e.dirty = [] ∧ e.brined = s.now := by
  intro e he
  have hnow : s.brineDevice.now = s.now := congrArg Spine.now s.brineDevice_spine
  rw [← hnow]
  unfold State.brineDevice at he ⊢
  extract_lets at he ⊢
  obtain ⟨e', -, rfl⟩ := List.mem_map.mp he
  exact ⟨rfl, rfl⟩

/-- With nothing running and no record, a brine empties staging and the curds, and cleans the engines. -/
theorem State.brineDevice_of_idle {s : State} (hreq : s.reqs = []) (hpass : s.passes = []) (hrec : s.recs = []) :
    s.brineDevice = { s with
      staging := []
      passes := []
      curds := []
      engines := s.engines.map fun (e : Engine) => { e with dirty := [], brined := s.now } } := by
  unfold State.brineDevice State.endAll State.t0PagesIn
  simp only [hreq, hpass, hrec, List.filter_nil, List.map_nil, List.foldl_nil, List.flatMap_nil]

/-- The broker's connection is on SPDM in service. -/
theorem State.spdmOn_mgmt {s : State} {conn : Nat} (hon : s.inService = true) (hc : (s.conn? conn).isSome = true) :
    s.spdmOn (.mgmt conn) = true := by
  simp only [State.spdmOn, hon, hc, Bool.and_self]

theorem State.deliverKey_holds {s : State} {conn : Nat} {fp : BitVec 64} {m : ModelRec} {key : BitVec 256} {check : BitVec 64}
    (hon : s.inService = true) (hc : (s.conn? conn).isSome = true) (hm : s.modelOf fp = some m) (ha : s.keyAccepted conn m key check = true) :
    s.deliverKey conn fp key check = ((s.touch conn).setKey (modelKeySlot m.index) 0 key).spdm (.mgmt conn) spdmVendorResponse [] := by
  have hm' : (s.touch conn).modelOf fp = some m := hm
  unfold State.deliverKey
  rw [if_neg (by simp [State.spdmOn_mgmt hon hc])]
  dsimp only
  rw [hm']
  exact if_pos ha

theorem State.withdrawKey_drops {s : State} {conn : Nat} {fp : BitVec 64} {m : ModelRec} (hon : s.inService = true)
    (hc : (s.conn? conn).isSome = true) (hm : s.modelOf fp = some m) (hb : s.brokerSession conn = true) :
    s.withdrawKey conn fp = ((s.touch conn).zeroise (modelKeySlot m.index)).spdm (.mgmt conn) spdmVendorResponse [] := by
  have hm' : (s.touch conn).modelOf fp = some m := hm
  unfold State.withdrawKey
  rw [if_neg (by simp [State.spdmOn_mgmt hon hc])]
  dsimp only
  rw [hm']
  exact if_pos hb

/-- A token that fails a check consumes the nonce and is answered with the check's number. -/
theorem State.unlock_answers {s : State} {k : Token} (h : s.tokenFails k ≠ 0) {conn : Nat} (hc : (s.conn? conn).isSome = true) :
    (s.unlock conn k).dbg = { s.dbg with nonce := none } ∧ (s.unlock conn k).says conn msCheckFailed [s.tokenFails k] := by
  let t : State := { s with dbg := { s.dbg with nonce := none } }
  obtain ⟨r, hr⟩ := t.note_eq "DEBUG_TOKEN_REFUSED" (evSource 8 0) (s.tokenFails k)
  have he : s.unlock conn k = State.reply { t with recorder := r } conn msCheckFailed [s.tokenFails k] := by
    rw [State.unlock_refuses h, ← hr]
  rw [he]
  exact ⟨congrArg Spine.dbg (State.reply_spine _ _ _ _), State.reply_says (s := { t with recorder := r }) hc _ _⟩

/-- A token that passes stands and consumes the nonce, whether or not JTAG opens at once. -/
theorem State.unlock_stands {s : State} {k : Token} (h : s.tokenFails k = 0) (conn : Nat) :
    (s.unlock conn k).dbg.stands = true ∧ (s.unlock conn k).dbg.nonce = none := by
  have accepted := s.accepted_dbg conn k
  rw [State.unlock_accepts h]
  rcases (s.accepted conn k).settleUnlock_dbg with hd | hd
  · rw [hd, accepted]
    exact ⟨rfl, rfl⟩
  · have hstands : (s.accepted conn k).dbg.stands = true := congrArg Debug.stands accepted
    have hnonce : (s.accepted conn k).dbg.nonce = none := congrArg Debug.nonce accepted
    rw [hd]
    exact ⟨hstands, hnonce⟩

end Sys2Proof.Machine
end

section
/-! CLAIMS. Nonces, tokens, the brine, the DRBG and model keys (14). -/

namespace Sys2Proof.Machine

/-- Settles O48: each command in turn; a served one runs on the touched connection, a key's delivery and withdrawal on the broker's session. -/
theorem debugAndKeyCommandsComplete : Obligations.DebugAndKeyCommandsComplete := by
  refine ⟨fun s conn c h => ⟨fun hd => ⟨_, rfl, ?_⟩, fun k hk => ⟨_, rfl, ?_⟩, fun k hk => ⟨_, rfl, ?_⟩, fun k hk ht ho => ⟨_, rfl, ?_⟩,
      ⟨_, rfl, ?_⟩, fun hreq hpass hrec => ⟨_, rfl, ?_⟩⟩,
    fun s v issued hn hlate => ⟨_, rfl, ?_⟩, fun s hon => ⟨⟨_, rfl, ?_⟩, ⟨_, rfl, if_pos hon⟩⟩,
    fun s conn fp m hon hc hm => ⟨fun key check ha => ⟨_, rfl, ?_⟩, fun hb => ⟨_, rfl, ?_⟩⟩⟩
  · have issued : (s.touch conn).issueNonce conn = State.reply
        { (s.touch conn).draw.2 with dbg := { s.dbg with nonce := some (Config.drbg s.free, s.now) } } conn msOk [(Config.drbg s.free).toNat] := by
      unfold State.issueNonce
      rw [if_neg (by simp [State.touch, hd])]
      rfl
    rw [s.serve_of_serves h, issued]
    refine ⟨congrArg (fun x : Spine => x.dbg.nonce) (State.reply_spine _ _ _ _), State.reply_says ?_ _ _⟩
    exact State.touch_conn_isSome h
  · rw [s.serve_of_serves h]
    exact State.unlock_answers (s := s.touch conn) hk (State.touch_conn_isSome h)
  · rw [s.serve_of_serves h]
    exact State.unlock_stands (s := s.touch conn) hk conn
  · rw [s.serve_of_serves h]
    exact State.unlock_opens (s := s.touch conn) hk ht ho conn
  · rw [s.serve_of_serves h]
    obtain ⟨o, ho⟩ := State.reply_eq (s.touch conn).brineDevice conn msOk []
    unfold State.commandBrine
    rw [ho]
    exact (s.touch conn).brineDevice_clean
  · rw [s.serve_of_serves h]
    unfold State.commandBrine
    have idle := State.brineDevice_of_idle (s := s.touch conn) hreq hpass hrec
    have hc : ((s.touch conn).brineDevice.conn? conn).isSome = true := idle ▸ State.touch_conn_isSome h
    rw [State.reply_of_conn hc, idle]
    exact ⟨rfl, rfl, List.mem_cons_self⟩
  · unfold State.lapseNonce
    rw [hn]
    exact if_pos hlate
  · rw [if_pos hon]
    obtain ⟨r, hr⟩ := State.note_eq { s with island := { s.island with drbgOn := false } } "DRBG_HEALTH_FAILURE" (evSource 8 0) 0
    rw [show s.drbgFails = _ from hr]
    exact ⟨rfl, rfl⟩
  · rw [State.deliverKey_holds hon hc hm ha]
    exact ⟨List.mem_cons_self, _, List.mem_cons_self, rfl, rfl⟩
  · rw [State.withdrawKey_drops hon hc hm hb]
    exact ⟨List.mem_cons_self, (s.touch conn).zeroise_empties _⟩

end Sys2Proof.Machine
end

section
/-! SUPPORT. The removal and the restore of a tenant (R330 to R333). -/

namespace Sys2Proof.Machine

/-! ### The record of a tenant -/

theorem State.tenant_of_cold {s t : State} (h : t.cold = s.cold) (n : Nat) : t.tenant? n = s.tenant? n :=
  congrArg (fun x : Cold => x.tenants.find? fun y : TenantSt => y.tenant == n) h

theorem State.modTenant_tenant {s : State} {n : Nat} {x : TenantSt} {g : TenantSt → TenantSt} (hx : s.tenant? n = some x)
    (hg : ∀ x, (g x).tenant = x.tenant) : (s.modTenant n g).tenant? n = some (g x) :=
  find?_mapIf_some (key := TenantSt.tenant) hx fun _ h => (hg _).trans h

theorem State.tenant_id {s : State} {n : Nat} {x : TenantSt} (h : s.tenant? n = some x) : x.tenant = n := by
  simpa using List.find?_some h

/-- The removal of an active tenant writes its record, and nothing after touches it. -/
theorem State.beginRemoval_tenant {s : State} {n : Nat} {x : TenantSt} (hx : s.tenant? n = some x) (hl : x.life = .active) (conn : Option Nat) :
    (s.beginRemoval n conn).tenant? n = some { x with
      life := .removing, epoch := (x.epoch + 1) % 65536, removeTick := s.now, swept := false, drained := false, answerTo := conn } := by
  let g : TenantSt → TenantSt := fun y =>
    { y with life := .removing, epoch := (x.epoch + 1) % 65536, removeTick := s.now, swept := false, drained := false, answerTo := conn }
  have hcold : (s.beginRemoval n conn).cold = (s.modTenant n g).cold := by
    unfold State.beginRemoval
    rw [hx]
    dsimp only
    rw [if_neg (by simp [hl]), foldl_keeps State.cold _ (fun _ _ => by simp)]
    simp only [State.endAll_cold, State.revokeFns_cold, State.sendEpoch_cold]
    rfl
  rw [State.tenant_of_cold hcold]
  exact State.modTenant_tenant hx fun _ => rfl

/-! ### Keys, rules and engines (R331) -/

/-- Steps 4 to 6 leave nothing of the tenant in its slot, in the policy array and in the engines, and its record as it was. -/
theorem State.scrubTenant_scrubs (s : State) (n : Nat) :
    (s.scrubTenant n).tenants = s.tenants ∧ (s.scrubTenant n).slotFilled (ownerSlot 1 n) = false ∧
      (∀ p ∈ (s.scrubTenant n).array.policy, p.rule.tenant = n → p.present = false) ∧
      ∀ e ∈ (s.scrubTenant n).engines, (s.scrubTenant n).holdsTenant n e = false := by
  refine ⟨rfl, ?_, fun p hp hn => ?_, fun e he => ?_⟩
  · exact State.zeroise_empties s (ownerSlot 1 n)
  · obtain ⟨q, -, rfl⟩ := List.mem_map.mp hp
    split
    · rfl
    · next hne =>
      rw [if_neg hne] at hn
      exact absurd hn hne
  · have hheld : ∀ e, (s.scrubTenant n).holdsTenant n e = s.holdsTenant n e := fun _ => rfl
    obtain ⟨e', -, rfl⟩ := List.mem_map.mp he
    rw [hheld]
    split
    · rfl
    · next hne => exact Bool.eq_false_iff.mpr hne

theorem State.removalDrained_scrubs {s : State} {n : Nat} {x : TenantSt} (hx : s.tenant? n = some x) (hl : x.life = .removing)
    (hd : x.drained = false) (hw : s.workOf n = []) : s.removalDrained n = (s.scrubTenant n).modTenant n fun x => { x with drained := true } := by
  unfold State.removalDrained
  rw [hx]
  exact if_neg (by simp [hl, hd, hw])

/-- With no unlock waiting, the end of a removal is the tenant's record and the answer. -/
theorem State.tenantGone_answers {s : State} {n conn : Nat} {x : TenantSt} (hx : s.tenant? n = some x) (hl : x.life = .removing)
    (hd : x.drained = true) (ha : x.answerTo = some conn) (ho : s.dbg.opening = []) :
    s.tenantGone n = (s.modTenant n fun x => { x with life := .removed, answerTo := none }).reply conn msOk [] := by
  have hopen : ∀ t : State, t.dbg = s.dbg → t.settleUnlock = t := fun t ht => by
    unfold State.settleUnlock
    rw [ht, ho]
    exact if_neg (by simp)
  unfold State.tenantGone
  rw [hx]
  dsimp only
  rw [if_neg (by simp [hl, hd]), ha]
  exact hopen _ (congrArg Spine.dbg (State.reply_spine _ _ _ _))

/-! ### The sweep (R332) -/

/-- What is left when a sequence is freed: no sequence of its slot, and none that was not there with its slot and tenant. -/
theorem State.freeSeq_leaves (s : State) (i : Nat) : ∀ p ∈ (s.freeSeq i).seqs, p.index ≠ i ∧ ∃ q ∈ s.seqs, q.index = p.index ∧ q.tenant = p.tenant := by
  intro p hp
  cases h : s.seq? i with
  | none =>
    have hsame : s.freeSeq i = s := by
      unfold State.freeSeq
      rw [h]
    rw [hsame] at hp
    exact ⟨by simpa using List.find?_eq_none.mp h p hp, p, hp, rfl, rfl⟩
  | some q =>
    refine ⟨s.freeSeq_seqs i q h p hp, ?_⟩
    let a : State := { s.removeFlow q.handle with seqs := s.seqs.filter fun x => x.index != i }
    let b : State := (List.flatMap Version.recIds q.versions).eraseDups.foldl (fun s r => s.unrefRec r) a
    let c : State := if q.cur.prefixHandle = 0 then b.refreshShares else b.refreshShares.releaseHandle q.cur.prefixHandle
    have hb : b.held = a.held := foldl_keeps State.held _ (fun s r => by simp) _ _
    have hc : c.held = b.refreshShares.held := ite_keeps (m := State.held) rfl (by simp)
    have hkern : c.kerns = a.kerns := calc
      c.kerns = b.refreshShares.kerns := congrArg (List.map Seq.kern) (State.seqs_of_held hc)
      _ = b.kerns := State.kerns_of_ended b.refreshShares_ended
      _ = a.kerns := congrArg (List.map Seq.kern) (State.seqs_of_held hb)
    have he : (s.freeSeq i).seqs = c.seqs := by
      unfold State.freeSeq
      rw [h]
      rfl
    have hp' : p.kern ∈ a.kerns := hkern ▸ List.mem_map_of_mem (he ▸ hp)
    obtain ⟨r, hr, hk⟩ := List.mem_map.mp hp'
    exact ⟨r, (List.mem_filter.mp hr).1, (congrArg Seq.index hk :), (congrArg Seq.tenant hk :)⟩

theorem State.freeSeqs_leave (l : List Seq) : ∀ (s : State), ∀ p ∈ (l.foldl (fun (s : State) q => s.freeSeq q.index) s).seqs,
    (∀ x ∈ l, p.index ≠ x.index) ∧ ∃ q ∈ s.seqs, q.index = p.index ∧ q.tenant = p.tenant := by
  induction l with
  | nil => exact fun s p hp => ⟨fun _ hx => absurd hx List.not_mem_nil, p, hp, rfl, rfl⟩
  | cons x l ih =>
    intro s p hp
    obtain ⟨hne, q, hq, hi, ht⟩ := ih (s.freeSeq x.index) p hp
    obtain ⟨hx, r, hr, hi', ht'⟩ := s.freeSeq_leaves x.index q hq
    refine ⟨fun y hy => ?_, r, hr, hi'.trans hi, ht'.trans ht⟩
    rcases List.mem_cons.mp hy with rfl | hy
    · exact hi ▸ hx
    · exact hne y hy

theorem State.reclaimEnds_sweeps {s : State} {n : Nat} {x : TenantSt} (hx : s.tenant? n = some x) (hl : x.life = .removed) (hs : x.swept = false) :
    (∀ q ∈ (s.reclaimEnds n).seqs, q.tenant ≠ n) ∧ (s.reclaimEnds n).tenant? n = some { x with swept := true } := by
  let l := s.seqs.filter fun q => q.tenant == n
  let u := l.foldl (fun (s : State) q => s.freeSeq q.index) s
  let v := (u.dropPins n).modTenant n fun x => { x with swept := true }
  obtain ⟨r, hr⟩ := v.note_eq "TENANT_SWEPT" (evSource 10 n) 0
  have he : s.reclaimEnds n = { v with recorder := r } := by
    unfold State.reclaimEnds
    rw [hx]
    dsimp only
    rw [if_neg (by simp [hl, hs])]
    exact hr
  have hcold : (u.dropPins n).cold = s.cold := (u.dropPins_cold n).trans (foldl_keeps State.cold _ (fun _ _ => by simp) _ _)
  rw [he]
  refine ⟨fun q hq hn => ?_, State.modTenant_tenant ((State.tenant_of_cold hcold n).trans hx) fun _ => rfl⟩
  obtain ⟨hne, p, hp, hi, ht⟩ := State.freeSeqs_leave l s q hq
  exact hne p (List.mem_filter.mpr ⟨hp, by simp [ht, hn]⟩) hi.symm

/-! ### The restore (R333) -/

theorem State.restoreCmd_restores {s : State} {n : Nat} {x : TenantSt} (hx : s.tenant? n = some x) (hl : x.life = .removed) (hs : x.swept = true)
    (hd : s.dbg.stands = false) (hon : s.island.drbgOn = true) (conn : Nat) : s.restoreCmd conn n = (s.restore x).reply conn msOk [] := by
  unfold State.restoreCmd
  rw [hx]
  dsimp only
  rw [hl]
  dsimp only
  rw [if_neg (by simp [hs]), if_neg (by simp [hd, hon])]

/-- The tenant's key is drawn afresh, and nothing but the island and the DRBG's count is touched by it. -/
theorem State.fillSlot_eq (s : State) (n epoch : Nat) : ∃ i f, s.fillSlot n epoch = { s with island := i, free := f } := by
  unfold State.fillSlot
  dsimp only
  split
  · exact ⟨_, _, rfl⟩
  · split <;> exact ⟨_, _, rfl⟩

/-- The state of a restore once the tenant's record and key are written. -/
theorem State.restore_leaves {s : State} {x : TenantSt} (hx : s.tenant? x.tenant = some x) :
    (s.restore x).tenant? x.tenant = some { x with life := .active, activeSince := s.now, removeTick := 0 } ∧
    (s.restore x).slotFilled (ownerSlot 1 x.tenant) = true ∧ (s.restore x).mgmt = s.mgmt ∧
    (∀ p ∈ (s.restore x).array.policy, p.rule.tenant = x.tenant → p.present = true ∧ p.lost = false) ∧
    (s.params.directBytes ≠ 0 → s.params.directTenant = x.tenant →
      (s.restore x).direct = [] ∧ (s.restore x).directOpen = [] ∧ (s.restore x).directBad = []) ∧
    ∀ f ∈ (s.restore x).fns, f.tenant = x.tenant → f.code ≠ .revoked := by
  let d : State := { s with island := { s.island with draws := 0 } }
  obtain ⟨i, f, hf⟩ := d.fillSlot_eq (ownerSlot 1 x.tenant) x.epoch
  have hfilled : (d.fillSlot (ownerSlot 1 x.tenant) x.epoch).slotFilled (ownerSlot 1 x.tenant) = true := by
    rw [State.fillSlot_slotFilled]
    simp
  rw [hf] at hfilled
  have htenant := State.modTenant_tenant (s := s) hx (g := fun x => { x with life := .active, activeSince := s.now, removeTick := 0 }) fun _ => rfl
  have policy : ∀ (m : Bool × Bool), ∀ p ∈ s.array.policy.map fun (p : PolicyRow) => if p.rule.tenant = x.tenant then p.rewritten m else p,
      p.rule.tenant = x.tenant → p.present = true ∧ p.lost = false := by
    intro m p hp hn
    obtain ⟨q, -, rfl⟩ := List.mem_map.mp hp
    split
    · exact ⟨rfl, rfl⟩
    · next hne =>
      rw [if_neg hne] at hn
      exact absurd hn hne
  have fns : ∀ f ∈ mapIf (fun (f : Fn) => f.tenant == x.tenant && f.code == FnCode.revoked) (fun f => { f with code := .ready }) s.fns,
      f.tenant = x.tenant → f.code ≠ .revoked := by
    intro f hfn hn
    obtain ⟨g, -, rfl⟩ := List.mem_map.mp hfn
    split
    · simp
    · next hne =>
      rw [if_neg hne] at hn
      intro hc
      exact hne (by simp [hn, hc])
  unfold State.restore
  dsimp only
  rw [show State.fillSlot _ _ _ = _ from hf]
  split_ifs with hdir
  · exact ⟨htenant, hfilled, rfl, policy _, fun _ _ => ⟨rfl, rfl, rfl⟩, fns⟩
  · exact ⟨htenant, hfilled, rfl, policy _, fun hb ht => absurd ⟨hb, ht⟩ hdir, fns⟩

/-! ### A removal asked for again -/

theorem State.removeCmd_repeats {s : State} {n : Nat} {x : TenantSt} (hx : s.tenant? n = some x) (hl : x.life = .removing ∨ x.life = .removed)
    (conn : Nat) : s.removeCmd conn n = s.reply conn msOk [] := by
  unfold State.removeCmd
  rw [hx]
  dsimp only
  rcases hl with hl | hl <;> rw [hl]

theorem State.removeCmd_begins {s : State} {n : Nat} {x : TenantSt} (hx : s.tenant? n = some x) (hl : x.life = .active) (conn : Nat) :
    s.removeCmd conn n = s.beginRemoval n (some conn) := by
  unfold State.removeCmd
  rw [hx]
  dsimp only
  rw [hl]

end Sys2Proof.Machine
end

section
/-! CLAIMS. Tenants are removed and restored (14). -/

namespace Sys2Proof.Machine

/-- Settles O47: each command on the tenant's record, which nothing but the removal, its steps and the restore writes. -/
theorem tenantCommandsComplete : Obligations.TenantCommandsComplete := by
  refine ⟨fun s conn tenant c x h hx => ⟨fun hl _ => ⟨_, rfl, ?_⟩, fun hl => ⟨_, rfl, ?_⟩, fun hl hs hd hon => ⟨_, rfl, ?_⟩⟩,
    fun s tenant x hin hx => ⟨fun hl hd hw => ⟨_, rfl, ?_⟩, fun n hl hd ha hc ho => ⟨_, rfl, ?_⟩,
      fun hl hs => ⟨⟨_, rfl, ?_⟩, fun _ => ⟨_, rfl, ?_⟩⟩⟩⟩
  · have ht : (s.touch conn).tenant? tenant = some x := hx
    rw [s.serve_of_serves h, State.removeCmd_begins ht hl]
    exact State.beginRemoval_tenant ht hl _
  · have ht : (s.touch conn).tenant? tenant = some x := hx
    rw [s.serve_of_serves h, State.removeCmd_repeats ht hl, State.reply_of_conn (State.touch_conn_isSome h)]
    exact ⟨List.mem_cons_self, rfl⟩
  · have ht : (s.touch conn).tenant? tenant = some x := hx
    obtain rfl := State.tenant_id hx
    obtain ⟨htenant, hslot, hmgmt, hpolicy, hdirect, hfns⟩ := State.restore_leaves ht
    have hc : (((s.touch conn).restore x).conn? conn).isSome = true := by
      unfold State.conn?
      rw [hmgmt]
      exact State.touch_conn_isSome h
    rw [s.serve_of_serves h, State.restoreCmd_restores ht hl hs hd hon, State.reply_of_conn hc]
    exact ⟨htenant, hslot, List.mem_cons_self, hpolicy, hdirect, hfns⟩
  · obtain ⟨htenants, hslot, hpolicy, hengines⟩ := s.scrubTenant_scrubs tenant
    have ht : (s.scrubTenant tenant).tenant? tenant = some x := by
      unfold State.tenant?
      rw [htenants]
      exact hx
    rw [show s.live _ = _ from if_pos hin, State.removalDrained_scrubs hx hl hd hw]
    exact ⟨State.modTenant_tenant ht fun _ => rfl, hslot, hpolicy, hengines⟩
  · rw [show s.live _ = _ from if_pos hin, State.tenantGone_answers hx hl hd ha ho]
    refine ⟨?_, State.reply_says ?_ _ _⟩
    · rw [State.tenant_of_cold (State.reply_cold _ _ _ _)]
      exact State.modTenant_tenant hx fun _ => rfl
    · exact hc
  · rw [show s.live _ = _ from if_pos hin]
    exact (State.reclaimEnds_sweeps hx hl hs).1
  · rw [show s.live _ = _ from if_pos hin]
    exact (State.reclaimEnds_sweeps hx hl hs).2

end Sys2Proof.Machine
end

section
/-! SUPPORT. Partial resets begin and end (R318, R376, R377). -/

namespace Sys2Proof.Machine

/-! ### What stands of a partial reset -/

/-- What a reset does to its domain leaves the list of partial resets. -/
theorem State.resetDomainNow_resets (s : State) (domain inst : Nat) : (s.resetDomainNow domain inst).resets = s.resets :=
  same_of_but (a := .resets) (State.resetDomainNow_but (as := [.egress]) s domain inst (by simp)) (by simp [coldAreas]) (by simp)

/-- The state in which a fresh partial reset reaches its domain: its epoch is counted, and it stands. -/
def State.resetStands (s : State) (domain inst : Nat) (wait : List Nat) : State :=
  { s with resets := { epoch := (s.resets.epoch + 1) % 2 ^ 32, active := s.resets.active ++ [(domain, inst, wait)], lastDomain := domain } }

theorem State.beginPartial_begins {s : State} {domain inst : Nat} (h : (s.resets.active.any fun x => x.1 == domain && x.2.1 == inst) = false)
    (conn : Option Nat) : s.beginPartial domain inst conn = (s.resetStands domain inst conn.toList).resetDomainNow domain inst := by
  unfold State.beginPartial
  dsimp only
  rw [if_neg (by simp [h])]
  rfl

section
variable {s : State} {conn inst : Nat} {c : Conn} {domain : Nat} {there : State → Bool} (h : s.serves conn c [1] false = true)
  (hthere : there (s.touch conn) = true) (hnone : (s.resets.active.any fun x => x.1 == domain && x.2.1 == inst) = false)
include h hthere hnone

/-- The command for a domain that exists and is in no partial reset. -/
theorem State.partialCmd_begins :
    s.serve conn [1] false (fun s _ => s.partialCmd conn domain inst (there s)) =
      ((s.touch conn).resetStands domain inst [conn]).resetDomainNow domain inst := by
  rw [s.serve_of_serves h]
  exact (if_pos hthere).trans (State.beginPartial_begins (s := s.touch conn) hnone (some conn))

theorem State.partialCmd_stands : (s.serve conn [1] false fun s _ => s.partialCmd conn domain inst (there s)).resets =
    { epoch := (s.resets.epoch + 1) % 2 ^ 32, active := s.resets.active ++ [(domain, inst, [conn])], lastDomain := domain } := by
  rw [State.partialCmd_begins h hthere hnone]
  exact State.resetDomainNow_resets _ _ _

end

/-! ### What a partial reset does to its domain -/

/-- A function's reset begins its shutdown as a DETACH_FUNCTION of mode 1 does, without a record. -/
theorem State.resetFn_shuts {s : State} {n : Nat} {f : Fn} (hf : s.fn? n = some f) (hc : f.code = .ready) :
    ∃ g, (s.resetFn n).fn? n = some g ∧ g.code = .draining ∧ g.version = 0 ∧
      g.shutdown = some { attach := f.attach, tag := 0, slotSeq := 0, mode := 1, tick := s.now, record := false } := by
  obtain rfl := State.fn?_fn hf
  obtain ⟨g, hg, hcode, hversion, -, hsd⟩ := State.beginShutdown_draining hf 0 0 1 false
  have he : s.resetFn f.fn = s.beginShutdown f 0 0 1 false := by
    unfold State.resetFn
    rw [hf]
    dsimp only
    rw [hc]
  exact ⟨g, he ▸ hg, hcode, hversion, hsd⟩

theorem State.resetGroup_down (s : State) (g : Nat) : g ∉ (s.resetGroup g).faults.groupsUp := by
  intro hg
  simpa using (List.mem_filter.mp hg).2

/-- A session that is cut changes the security island alone. -/
theorem State.cutSession_eq (s : State) (tr : Transport) : ∃ i, s.cutSession tr = { s with island := i } := by
  unfold State.cutSession
  split
  · split
    · exact ⟨_, rfl⟩
    · exact s.endSession_eq tr .ended
  · exact ⟨_, rfl⟩

theorem State.cutPort_eq (s : State) (q : PortId) : ∃ i, s.cutPort q = { s with island := i } := by
  cases q with
  | asvis l => exact s.cutSession_eq _
  | cxl c => exact s.cutSession_eq _
  | nvme c p => exact ⟨_, rfl⟩

/-- A port without open transactions that trains again: the other ports and the transactions stay. -/
theorem State.cutTraining_eq {s : State} {q : PortId} (h : s.quiet q = true) :
    ((s.cutPort q).toTraining q).ports = mapIf (·.id == q) (fun p => p.enter .training s.now) s.ports ∧
      ((s.cutPort q).toTraining q).txns = s.txns := by
  obtain ⟨i, hi⟩ := s.cutPort_eq q
  rw [hi]
  obtain ⟨i', hi', -⟩ := State.leaveUp_of_quiet (s := { s with island := i }) h .training
  rw [State.toTraining, hi']
  exact ⟨rfl, rfl⟩

section
variable {f : State → PortId → State} {st : PortSt}
  (hf : ∀ (s : State) q, s.quiet q = true → (f s q).ports = mapIf (·.id == q) (fun p => p.enter st s.now) s.ports ∧ (f s q).txns = s.txns)
include hf

/-- Ports without open transactions that enter a state, one after another: each of them is in it, and every other is as it was. -/
theorem enterAll_ports (l : List PortId) : ∀ (s : State), (∀ q ∈ l, s.quiet q = true) →
    ∀ p ∈ (l.foldl f s).ports, p.st = st ∨ p ∈ s.ports ∧ p.id ∉ l := by
  induction l with
  | nil => exact fun s _ p hp => .inr ⟨hp, List.not_mem_nil⟩
  | cons q l ih =>
    intro s hq p hp
    obtain ⟨hports, htxns⟩ := hf s q (hq q List.mem_cons_self)
    have hquiet : ∀ r ∈ l, (f s q).quiet r = true := fun r hr => by
      have h := hq r (List.mem_cons_of_mem _ hr)
      rw [State.quiet] at h ⊢
      rw [htxns]
      exact h
    rcases ih _ hquiet p hp with ht | ⟨hp', hnot⟩
    · exact .inl ht
    · rw [hports] at hp'
      obtain ⟨p0, hp0, he⟩ := List.mem_map.mp hp'
      split at he
      · exact .inl (he ▸ rfl)
      · next hne =>
        subst he
        exact .inr ⟨hp0, List.not_mem_cons_of_ne_of_not_mem (by simpa using hne) hnot⟩

/-- So of all ports of a link cluster that are not held. -/
theorem enterCluster_ports {s : State} {k : Nat} (h : ∀ y ∈ s.txns, clusterOfPort y.port ≠ k) :
    ∀ p ∈ ((s.portsOf k).foldl f s).ports, clusterOfPort p.id = k → p.st = .held ∨ p.st = st := by
  have hquiet : ∀ q ∈ s.portsOf k, s.quiet q = true := fun q hq => by
    obtain ⟨p, hp, rfl⟩ := List.mem_map.mp hq
    have hk : clusterOfPort p.id = k := by
      have hmem := (List.mem_filter.mp hp).2
      rw [Bool.and_eq_true, beq_iff_eq] at hmem
      exact hmem.1
    refine List.all_eq_true.mpr fun y hy => ?_
    have hne : y.port ≠ p.id := fun he => h y hy (he ▸ hk)
    simpa using hne
  intro p hp hk
  rcases enterAll_ports hf (s.portsOf k) s hquiet p hp with ht | ⟨hmem, hnot⟩
  · exact .inr ht
  · refine .inl (by_contra fun hheld => hnot ?_)
    exact List.mem_map.mpr ⟨p, List.mem_filter.mpr ⟨hmem, by simp [hk, hheld]⟩, rfl⟩

end

/-- A link cluster's reset trains every port of it that is not held. -/
theorem State.resetLinks_train {s : State} {k : Nat} (h : ∀ y ∈ s.txns, clusterOfPort y.port ≠ k) :
    ∀ p ∈ (s.resetDomainNow domLinks k).ports, clusterOfPort p.id = k → p.st = .held ∨ p.st = .training :=
  enterCluster_ports (f := fun (s : State) q => (s.cutPort q).toTraining q) (fun _ _ => State.cutTraining_eq) h

/-! ### The end -/

/-- Answers to several connections: each that stands gets its own, and nothing else changes. -/
theorem replies_say (l : List Nat) (st : Nat) : ∀ (s : State), (l.foldl (fun (s : State) n => s.reply n st []) s).resets = s.resets ∧
    (∀ o ∈ s.out, o ∈ (l.foldl (fun (s : State) n => s.reply n st []) s).out) ∧
    ∀ n ∈ l, (s.conn? n).isSome = true → (l.foldl (fun (s : State) n => s.reply n st []) s).says n st [] := by
  induction l with
  | nil => exact fun s => ⟨rfl, fun _ h => h, fun n hn => absurd hn List.not_mem_nil⟩
  | cons m l ih =>
    intro s
    obtain ⟨hresets, hout, hsays⟩ := ih (s.reply m st [])
    obtain ⟨o, ho⟩ := s.reply_eq m st []
    have hkept : ∀ x ∈ s.out, x ∈ (s.reply m st []).out := fun x hx => by
      unfold State.reply
      split
      · exact List.mem_cons_of_mem _ hx
      · exact hx
    have hsame : (s.reply m st []).resets = s.resets ∧ ∀ n, (s.reply m st []).conn? n = s.conn? n := by
      rw [ho]
      exact ⟨rfl, fun _ => rfl⟩
    refine ⟨hresets.trans hsame.1, fun x hx => hout x (hkept x hx), fun n hn hc => ?_⟩
    rcases List.mem_cons.mp hn with rfl | hn
    · exact hout _ (State.reply_says hc st [])
    · exact hsays n hn ((hsame.2 n).symm ▸ hc)

theorem State.partialEnd_links {s : State} {k : Nat} {waiting : List Nat}
    (h : (s.resets.active.find? fun x => x.1 == 2 && x.2.1 == k) = some (2, k, waiting)) :
    s.partialEnd 2 k = waiting.foldl (fun (s : State) n => s.reply n msOk [])
      { s with resets := { s.resets with active := s.resets.active.filter fun y => !(y.1 == 2 && y.2.1 == k), lastDomain := 2 } } := by
  have settled : ∀ t : State, t.domainSettled 2 k = true := fun t => List.all_eq_true.mpr fun f _ => by simp [domFunction, domGroup]
  unfold State.partialEnd
  rw [h]
  exact if_neg (by simp [settled])

end Sys2Proof.Machine
end

section
/-! CLAIMS. Partial resets begin and end (16). -/

namespace Sys2Proof.Machine

/-- Settles O51: a partial reset that its domain is not in yet stands with its command, whatever its domain loses. -/
theorem partialResetsComplete : Obligations.PartialResetsComplete := by
  refine ⟨fun s conn c h => ⟨fun n f hf hc hnone => ?_, fun g hg hnone => ?_, fun k hk hnone hq => ?_, fun k hk hnone _ _ _ => ?_⟩,
    fun s k waiting hin hw => ⟨_, rfl, ?_⟩, fun s g hin hup hnone => ⟨_, rfl, ?_⟩⟩
  · have there : ((s.touch conn).fn? n).isSome = true := Option.isSome_iff_exists.mpr ⟨f, hf⟩
    refine ⟨⟨_, rfl, ?_⟩, fun _ => ⟨_, rfl, State.partialCmd_stands (domain := domFunction) h there hnone⟩⟩
    rw [State.partialCmd_begins (domain := domFunction) h there hnone]
    exact State.resetFn_shuts (s := (s.touch conn).resetStands domFunction n [conn]) hf hc
  · have there : ((s.touch conn).ucie? g).isSome = true := hg
    refine ⟨⟨_, rfl, ?_⟩, fun _ => ⟨_, rfl, State.partialCmd_stands (domain := domGroup) h there hnone⟩⟩
    rw [State.partialCmd_begins (domain := domGroup) h there hnone]
    exact State.resetGroup_down _ _
  · have there : decide (k < 24) = true := decide_eq_true hk
    refine ⟨_, rfl, State.partialCmd_stands (domain := domLinks) h there hnone, ?_⟩
    rw [State.partialCmd_begins (domain := domLinks) h there hnone]
    exact State.resetLinks_train (s := (s.touch conn).resetStands domLinks k [conn]) hq
  · exact ⟨_, rfl, State.partialCmd_stands (domain := domEngines) h (decide_eq_true hk) hnone⟩
  · rw [show s.live _ = _ from if_pos hin, State.partialEnd_links hw]
    obtain ⟨hresets, -, hsays⟩ := replies_say waiting msOk
      { s with resets := { s.resets with active := s.resets.active.filter fun y => !(y.1 == 2 && y.2.1 == k), lastDomain := 2 } }
    exact ⟨hresets, hsays⟩
  · have hbegin : s.groupLinkLoss g = s.beginPartial domGroup g none := if_pos hup
    rw [show s.live _ = _ from if_pos hin, hbegin, State.beginPartial_begins (domain := domGroup) hnone]
    exact State.resetGroup_down _ _

end Sys2Proof.Machine
end

section
/-! SUPPORT. Updates, resets, holds, weights and volumes of the management port (R261, R269, R373 to R375, R383). -/

namespace Sys2Proof.Machine

/-- An answer in a state with the same connections. -/
theorem State.reply_of_mgmt {s t : State} {conn : Nat} (hc : (s.conn? conn).isSome = true) (h : t.mgmt = s.mgmt) (st : Nat) (body : List Nat) :
    t.reply conn st body = t.emit (.mgmt conn st body) :=
  State.reply_of_conn (by unfold State.conn? at hc ⊢; rw [h]; exact hc) st body

/-! ### Uploads (R373) -/

section
variable {s : State} {conn : Nat} {c : Conn} (h : s.serves conn c [1] false = true)
include h

/-- A chunk after the first goes to the staging that runs. -/
theorem State.uploadCmd_chunk {offset length : Nat} (hlo : 1 ≤ length) (hhi : length ≤ 65536) (hst : s.update.st = 1) (ho : offset ≠ 0) (i : Image) :
    s.uploadCmd conn offset length i = (s.touch conn).chunk conn offset length i := by
  obtain ⟨-, -, hf, -⟩ := State.serves_iff.mp h
  have hst' : (s.touch conn).update.st = 1 := hst
  unfold State.uploadCmd
  rw [if_neg hf, s.serve_of_serves h]
  unfold State.upload
  rw [if_neg (by simp only [chunkLimit]; omega), if_neg ho, if_pos hst']

end

/-- A chunk in its place counts; the last one ends the staging. -/
theorem State.chunk_counts {s : State} {offset length : Nat} (ho : offset = s.update.next) (hl : offset + length ≤ s.update.total) (conn : Nat) (i : Image) :
    let u : State := { s with update := { s.update with next := offset + length } }
    s.chunk conn offset length i = if offset + length = s.update.total then u.endStaging conn i else u.reply conn msOk [] := by
  unfold State.chunk
  rw [if_neg (by omega)]

/-- An image that passes is in its slot and staged. -/
theorem State.endStaging_ok {s : State} {i : Image} (hr : s.update.recovery = false) (hi : s.stagedFails i = 0) (conn : Nat) :
    s.endStaging conn i = State.reply { s.setFlash s.stageB (fun f => { f with slot := some i }) with
      update := { s.update with st := 2, staged := some i } } conn msOk [] := by
  have hu : (s.setFlash s.stageB fun f => { f with slot := some i }).update = s.update := by
    unfold State.setFlash
    split <;> rfl
  unfold State.endStaging
  dsimp only
  rw [if_neg (by simp [hi]), if_neg (by simp [hu, hr]), hu]

theorem State.setFlash_slot (s : State) (b : Bool) (i : Image) (u : Update) :
    (State.flash { s.setFlash b (fun f => { f with slot := some i }) with update := u } b).slot = some i := by
  cases b <;> rfl

theorem State.setFlash_mgmt (s : State) (b : Bool) (g : Flash → Flash) : (s.setFlash b g).mgmt = s.mgmt := by
  cases b <;> rfl

theorem State.endStaging_leaves {s : State} {conn : Nat} {i : Image} (hc : (s.conn? conn).isSome = true) (hr : s.update.recovery = false)
    (hi : s.stagedFails i = 0) : (s.endStaging conn i).update.st = 2 ∧ (s.endStaging conn i).update.staged = some i ∧
      ((s.endStaging conn i).flash s.stageB).slot = some i ∧ (s.endStaging conn i).says conn msOk [] := by
  rw [State.endStaging_ok hr hi, State.reply_of_mgmt hc]
  · exact ⟨rfl, rfl, s.setFlash_slot s.stageB i { s.update with st := 2, staged := some i }, List.mem_cons_self⟩
  · exact s.setFlash_mgmt s.stageB fun f => { f with slot := some i }

theorem Flash.append_head {f : Flash} (h : f.writable = true) (e : BootEntry) : (f.append e).log.head? = some e := by
  unfold Flash.append
  rw [if_neg (by simp [h])]
  rfl

theorem State.activate_sets {s : State} (hst : s.update.st = 2) (ha : s.flashA.writable = true) (hb : s.flashB.writable = true) (conn : Nat) :
    s.activate conn = State.reply { s.writeEntry { s.boot.entry with pending := true } with update := { s.update with st := 3 } } conn msOk [] := by
  unfold State.activate
  rw [if_neg (by omega), if_neg (by simp [hst]), if_neg (by simp [ha, hb])]
  rfl

/-- The state a cancellation is answered in. -/
def State.cancelled (s : State) : State :=
  { (if s.update.st = 3 then s.writeEntry { s.boot.entry with pending := false } else s) with update := { s.update with st := 0, staged := none } }

theorem State.cancel_clears {s : State} (hst : s.update.st = 2 ∨ s.update.st = 3) (conn : Nat) : s.cancel conn = s.cancelled.reply conn msOk [] := by
  unfold State.cancel State.cancelled
  rw [if_neg (by omega), if_neg (by omega)]
  dsimp only
  split <;> rfl

theorem State.cancelled_pending {s : State} (hst : s.update.st = 3) : s.cancelled.boot.entry.pending = false := by
  unfold State.cancelled
  rw [if_pos hst]
  rfl

theorem State.cancelled_mgmt (s : State) : s.cancelled.mgmt = s.mgmt := by
  unfold State.cancelled
  dsimp only
  split <;> rfl

/-! ### Links (R261) -/

theorem State.leaveUp_mgmt {s : State} {port : PortId} (h : s.quiet port = true) (st : PortSt) : (s.leaveUp port st).mgmt = s.mgmt := by
  obtain ⟨i, hi, -⟩ := State.leaveUp_of_quiet h st
  rw [hi]
  rfl

/-- A port that leaves traffic for a command is in its new state, and the command is answered. -/
theorem State.leaveUp_answers {s : State} {port : PortId} {p : Port} {conn : Nat} (hp : s.port? port = some p) (hq : s.quiet port = true)
    (hc : (s.conn? conn).isSome = true) (st : PortSt) :
    (∃ q, ((s.leaveUp port st).reply conn msOk []).port? port = some q ∧ q.st = st) ∧ ((s.leaveUp port st).reply conn msOk []).says conn msOk [] := by
  rw [State.reply_of_mgmt hc (State.leaveUp_mgmt hq st)]
  exact ⟨⟨_, State.leaveUp_port hq hp st, rfl⟩, List.mem_cons_self⟩

/-! ### Weights (R115) -/

theorem State.placeChunks_places {s : State} {tier : Nat} : ∀ {n : Nat} {w w' : Weights}, s.placeChunks tier n w = some w' →
    w'.model = w.model ∧ w'.header = w.header ∧ w'.locs.length = w.locs.length + n := by
  intro n
  induction n with
  | zero =>
    intro w w' h
    cases h
    exact ⟨rfl, rfl, rfl⟩
  | succ n ih =>
    intro w w' h
    unfold State.placeChunks at h
    split at h
    · obtain ⟨hmodel, hheader, hlocs⟩ := ih h
      refine ⟨hmodel, hheader, hlocs.trans ?_⟩
      simp only [List.length_append, List.length_singleton]
      omega
    · cases h

/-- Writing the chunks out touches neither the weights nor the connections. -/
theorem State.writeChunks_carried (s : State) (model : Nat) (w : Weights) : (s.writeChunks model w).carried = s.carried :=
  foldl_keeps State.carried _ (fun s _ => ite_keeps (m := State.carried) rfl (State.pageTransfer_carried s _ _ _ _ _ _ _)) _ _

/-- The record of a sealed image before any of its chunks has a place. -/
def Weights.sealed (model : Nat) (h : SealedHeader) : Weights :=
  { model := model, header := h, counts := List.replicate h.chunks 0, swept := List.replicate h.chunks 0, cached := [] }

section
variable {s : State} {conn model : Nat} {m : ModelRec} {h : SealedHeader} (hc : (s.conn? conn).isSome = true) (hm : s.model? model = some m)
  (hl : headerLegal m h = true)
include hc hm hl

/-- A sealed image goes to its home tier where there is room for it. -/
theorem State.loadWeights_loads {w : Weights}
    (hw : State.placeChunks { s with weights := s.weights.filter fun x => x.model != model } m.weightsTier h.chunks (.sealed model h) = some w) :
    w ∈ (s.loadWeights conn model h).weights ∧ w.model = model ∧ w.header = h ∧ w.locs.length = h.chunks ∧
      (s.loadWeights conn model h).says conn msOk [] := by
  obtain ⟨hmodel, hheader, hlocs⟩ := State.placeChunks_places hw
  let t : State := { s with weights := w :: s.weights.filter fun x => x.model != model }
  have hcarried := t.writeChunks_carried model w
  have hweights : (t.writeChunks model w).weights = t.weights := (congrArg State.weights hcarried :)
  have he : s.loadWeights conn model h = (t.writeChunks model w).emit (.mgmt conn msOk []) := by
    rw [← State.reply_of_mgmt (t := t.writeChunks model w) hc (congrArg State.mgmt hcarried :)]
    unfold State.loadWeights
    rw [hm]
    dsimp only
    unfold Weights.sealed at hw
    rw [if_neg (by simp [hl]), hw]
  rw [he]
  exact ⟨hweights.symm ▸ List.mem_cons_self, hmodel, hheader, by simpa [Weights.sealed] using hlocs, List.mem_cons_self⟩

/-- Without room it is refused. -/
theorem State.loadWeights_refuses
    (hw : State.placeChunks { s with weights := s.weights.filter fun x => x.model != model } m.weightsTier h.chunks (.sealed model h) = none) :
    (s.loadWeights conn model h).says conn msInvalid [] ∧ (s.loadWeights conn model h).weights = s.weights := by
  have he : s.loadWeights conn model h = s.emit (.mgmt conn msInvalid []) := by
    rw [← State.reply_of_conn hc]
    unfold State.loadWeights
    rw [hm]
    dsimp only
    unfold Weights.sealed at hw
    rw [if_neg (by simp [hl]), hw]
  rw [he]
  exact ⟨List.mem_cons_self, rfl⟩

end

/-! ### A full reset by command (R374) -/

theorem State.commandReset_leaves {s : State} (h : s.power.priGone = false) : s.commandReset.out = s.out ∧ s.commandReset.mgmt = State.reset.mgmt := by
  obtain ⟨q, hw⟩ := s.wiped_eq .identity
  obtain ⟨r, hr⟩ := (s.wiped .identity).release_eq _ _ (.inl h)
  unfold State.commandReset
  rw [hr, hw]
  exact ⟨rfl, rfl⟩

theorem closeAll_says {o : Output} (l : List Conn) : ∀ s : State, o ∈ s.out → o ∈ (l.foldl (fun (s : State) c => s.closeConn c.n) s).out := by
  induction l with
  | nil => exact fun _ h => h
  | cons c l ih =>
    intro s h
    obtain ⟨i, hi, -⟩ := s.closeConn_eq c.n
    refine ih (s.closeConn c.n) ?_
    rw [hi]
    exact List.mem_cons_of_mem _ h

/-- The answer of a full reset by command leaves before the controller boots again. -/
theorem State.resetCmd_boots {s : State} {conn : Nat} (hc : (s.conn? conn).isSome = true) (h : s.power.priGone = false) :
    (s.resetCmd conn).says conn msOk [] ∧ (s.resetCmd conn).mgmt.conns = [] ∧ (s.resetCmd conn).boot.phase = .identity ∧ (s.resetCmd conn).now = 0 := by
  let u := s.reply conn msOk []
  let v := u.mgmt.conns.foldl (fun (s : State) c => s.closeConn c.n) u
  have hcold : v.cold = s.cold := (foldl_keeps State.cold _ (fun _ _ => by simp) _ _).trans (State.reply_cold s conn msOk [])
  have hpower : v.power.priGone = false := (congrArg (fun x : Cold => x.power.priGone) hcold).trans h
  obtain ⟨hout, hmgmt⟩ := State.commandReset_leaves hpower
  obtain ⟨hphase, hnow, -⟩ := v.commandReset_boots (.inl hpower)
  refine ⟨?_, congrArg Mgmt.conns hmgmt, hphase, hnow⟩
  have hv : Output.mgmt conn msOk [] ∈ v.out := closeAll_says u.mgmt.conns u (State.reply_says hc msOk [])
  change Output.mgmt conn msOk [] ∈ v.commandReset.out
  rw [hout]
  exact hv

end Sys2Proof.Machine
end

section
/-! CLAIMS. Updates, resets, holds, weights and volumes (17). -/

namespace Sys2Proof.Machine

/-- Settles O53: each command in its case; what a command leaves is read off the state it is answered in. -/
theorem managementActionsComplete : Obligations.ManagementActionsComplete := by
  refine ⟨fun s conn c h => ⟨fun offset length i hlo hhi hst ho hnext hlt => ⟨_, rfl, ?_⟩,
      fun offset length i hlo hhi hst ho hnext hend hr hi => ⟨_, rfl, ?_⟩, fun hst ha hb => ⟨_, rfl, ?_⟩, fun hst => ⟨_, rfl, ?_⟩,
      fun port p hp hq => ⟨⟨_, rfl, ?_⟩, fun hquar => ⟨_, rfl, ?_⟩⟩, fun model m hd hm => ⟨fun hl => ⟨_, rfl, ?_⟩, fun hl => ?_⟩,
      fun volume hv => ⟨_, rfl, ?_⟩⟩,
    fun s conn c h hpri => ⟨_, rfl, ?_⟩⟩
  all_goals have hc := State.touch_conn_isSome h
  · rw [State.uploadCmd_chunk h hlo hhi hst ho, State.chunk_counts (s := s.touch conn) hnext hlt.le,
      if_neg (show ¬offset + length = (s.touch conn).update.total from hlt.ne), State.reply_of_mgmt (s := s.touch conn) hc]
    · exact ⟨rfl, List.mem_cons_self⟩
    · rfl
  · rw [State.uploadCmd_chunk h hlo hhi hst ho, State.chunk_counts (s := s.touch conn) hnext hend.le,
      if_pos (show offset + length = (s.touch conn).update.total from hend)]
    exact State.endStaging_leaves (s := { s.touch conn with update := { s.update with next := offset + length } }) hc hr hi
  · rw [s.serve_of_serves h, State.activate_sets (s := s.touch conn) hst ha hb, State.reply_of_mgmt (s := s.touch conn) hc]
    · exact ⟨rfl, rfl, Flash.append_head ha _, Flash.append_head hb _, List.mem_cons_self⟩
    · rfl
  · rw [s.serve_of_serves h, State.cancel_clears (s := s.touch conn) hst, State.reply_of_mgmt hc (s.touch conn).cancelled_mgmt]
    exact ⟨rfl, fun h3 => State.cancelled_pending (s := s.touch conn) h3, List.mem_cons_self⟩
  · have hheld : (s.touch conn).holdLink conn port = ((s.touch conn).quarantine port).reply conn msOk [] :=
      if_neg (by simp [show (s.touch conn).port? port = some p from hp])
    rw [s.serve_of_serves h, hheld]
    exact State.leaveUp_answers (s := s.touch conn) hp hq hc _
  · have hheld : (s.touch conn).releaseLink conn port = ((s.touch conn).toTraining port).reply conn msOk [] := by
      unfold State.releaseLink
      rw [show (s.touch conn).port? port = some p from hp]
      exact if_pos hquar
    rw [s.serve_of_serves h, hheld]
    exact State.leaveUp_answers (s := s.touch conn) hp hq hc _
  · have hrefused : (s.touch conn).loadWeights conn model hd = (s.touch conn).reply conn msInvalid [] := by
      unfold State.loadWeights
      rw [show (s.touch conn).model? model = some m from hm]
      exact if_pos (by simp [hl])
    rw [s.serve_of_serves h, hrefused, State.reply_of_conn hc]
    exact ⟨List.mem_cons_self, rfl⟩
  · have hexec : exec (.weightsLoad conn model hd) s = .next ((s.touch conn).loadWeights conn model hd) :=
      congrArg Host.Outcome.next (s.serve_of_serves h _)
    dsimp only
    split
    · next w hw => exact ⟨_, hexec, State.loadWeights_loads (s := s.touch conn) hc hm hl hw⟩
    · next hw => exact ⟨_, hexec, State.loadWeights_refuses (s := s.touch conn) hc hm hl hw⟩
  · have hgone : (s.touch conn).releaseVolume conn volume = State.reply (State.emit
        { s.touch conn with volumes := s.volumes.filter (· != volume) } (.nvmeFlush volume)) conn msOk [] :=
      if_neg (by rw [show (s.touch conn).volumes.contains volume = true from hv]; simp)
    rw [s.serve_of_serves h, hgone, State.reply_of_mgmt (s := s.touch conn) hc]
    · exact ⟨fun hmem => by simpa using (List.mem_filter.mp hmem).2, List.mem_cons_of_mem _ List.mem_cons_self, List.mem_cons_self⟩
    · rfl
  · rw [s.serve_of_serves h]
    exact State.resetCmd_boots hc hpri

end Sys2Proof.Machine
end

section
/-! SUPPORT. SPDM requests on a transport that answers (R315 to R318). -/

namespace Sys2Proof.Machine

/-! ### The session record of a transport -/

theorem State.modSession_session {s : State} {tr : Transport} {x : Session} {g : Session → Session} (hx : s.session? tr = some x)
    (hg : ∀ x, (g x).transport = x.transport) : (s.modSession tr g).session? tr = some (g x) :=
  find?_mapIf_some (key := Session.transport) hx fun _ h => (hg _).trans h

/-- Two updates of one record are one. -/
theorem State.modSession_modSession (s : State) (tr : Transport) {f g : Session → Session} (hf : ∀ x, (f x).transport = x.transport) :
    (s.modSession tr f).modSession tr g = s.modSession tr fun x => g (f x) := by
  have hl : mapIf (fun x : Session => x.transport == tr) g (mapIf (fun x => x.transport == tr) f s.island.sessions) =
      mapIf (fun x => x.transport == tr) (fun x => g (f x)) s.island.sessions := by
    unfold mapIf
    rw [List.map_map]
    refine List.map_congr_left fun x _ => ?_
    by_cases hx : x.transport = tr <;> simp [hx, hf]
  unfold State.modSession
  rw [← hl]

/-- The end of a session: its record is as after GET_VERSION and the algorithms, and its slot is empty. -/
theorem State.dropKeys_empties {s : State} {x : Session} {n : Nat} (h : x.slot = some n) : (s.dropKeys x).slotFilled n = false := by
  have still : ∀ (t : State) (m : Nat), t.slotFilled n = false → (t.zeroise m).slotFilled n = false := fun t m ht => by
    refine List.any_eq_false.mpr fun k hk => ?_
    exact List.any_eq_false.mp ht k (List.mem_filter.mp hk).1
  have hz := s.zeroise_empties n
  unfold State.dropKeys
  rw [h]
  cases x.transport with
  | ucie g => exact still _ _ hz
  | mgmt c => exact hz
  | i3c => exact hz
  | asvis l => exact hz
  | cxl c => exact hz

theorem State.endSession_session {s : State} {tr : Transport} {x : Session} (hx : s.session? tr = some x) (st : SessionSt) :
    (s.endSession tr st).session? tr = some { x with st := st, slot := none, root := 0 } ∧
      ∀ n, x.slot = some n → (s.endSession tr st).slotFilled n = false := by
  obtain ⟨i, hi, hsessions⟩ := s.dropKeys_eq x
  have he : s.endSession tr st = (s.dropKeys x).modSession tr fun x => { x with st := st, slot := none, root := 0 } := by
    unfold State.endSession
    rw [hx]
  have hx' : (s.dropKeys x).session? tr = some x := by
    unfold State.session?
    rw [hi]
    exact hsessions ▸ hx
  rw [he]
  exact ⟨State.modSession_session hx' fun _ => rfl, fun n hn => State.dropKeys_empties (s := s) hn⟩

/-- The end of a session does not look at the connections. -/
theorem State.endSession_mgmt (s : State) (m : Mgmt) (tr : Transport) (st : SessionSt) :
    State.endSession { s with mgmt := m } tr st = { s.endSession tr st with mgmt := m } := by
  have hsame : State.session? { s with mgmt := m } tr = s.session? tr := rfl
  unfold State.endSession
  rw [hsame]
  cases s.session? tr with
  | none => rfl
  | some x =>
    dsimp only
    unfold State.dropKeys
    cases x.slot <;> cases x.transport <;> rfl

theorem State.sessionSlot_mgmt (s : State) (m : Mgmt) (tr : Transport) : State.sessionSlot { s with mgmt := m } tr = s.sessionSlot tr := by
  cases tr <;> rfl

/-! ### Requests are answered -/

/-- A request on a transport that answers, with the version that GET_VERSION agreed, restarts its connection's idle time, and is run. -/
theorem State.respond_runs {s : State} {tr : Transport} {x : Session} (hon : s.spdmOn tr = true) (hx : s.session? tr = some x)
    (hv : x.version ≠ 0) : ∃ m, ∀ k, s.respond tr k = k { s with mgmt := m } x := by
  unfold State.respond
  simp only [hon, Bool.not_true, Bool.false_eq_true, if_false]
  cases tr with
  | mgmt n =>
    dsimp only
    rw [show (s.touch n).session? (.mgmt n) = some x from hx]
    exact ⟨_, fun k => if_neg hv⟩
  | i3c => exact ⟨s.mgmt, fun k => by rw [hx]; exact if_neg hv⟩
  | asvis l => exact ⟨s.mgmt, fun k => by rw [hx]; exact if_neg hv⟩
  | cxl c => exact ⟨s.mgmt, fun k => by rw [hx]; exact if_neg hv⟩
  | ucie g => exact ⟨s.mgmt, fun k => by rw [hx]; exact if_neg hv⟩

theorem State.respond_declines {s : State} {tr : Transport} {x : Session} (hon : s.spdmOn tr = true) (hx : s.session? tr = some x)
    (hv : x.version = 0) (k : State → Session → State) : (s.respond tr k).tells tr spdmErrorCode [errVersionMismatch] := by
  unfold State.respond
  rw [if_neg (by simp [hon])]
  cases tr with
  | mgmt n =>
    dsimp only
    rw [show (s.touch n).session? (.mgmt n) = some x from hx]
    dsimp only
    rw [if_pos hv]
    exact List.mem_cons_self
  | i3c => dsimp only; rw [hx]; dsimp only; rw [if_pos hv]; exact List.mem_cons_self
  | asvis l => dsimp only; rw [hx]; dsimp only; rw [if_pos hv]; exact List.mem_cons_self
  | cxl c => dsimp only; rw [hx]; dsimp only; rw [if_pos hv]; exact List.mem_cons_self
  | ucie g => dsimp only; rw [hx]; dsimp only; rw [if_pos hv]; exact List.mem_cons_self

/-- The record that GET_VERSION leaves of a transport. -/
def Session.agreed (tr : Transport) (v : Nat) : Session :=
  { transport := tr, st := .negotiated, secret := 0, version := v, slot := none, root := 0, chunks := [], large := [], updates := 0 }

/-- GET_VERSION forgets what the transport had, and agrees a version. -/
theorem State.spdmGetVersion_agrees {s : State} {tr : Transport} (hon : s.spdmOn tr = true) (versions : Nat) :
    (s.spdmGetVersion tr versions).tells tr spdmVersion [0x12, 0x13] ∧
      ∃ x, (s.spdmGetVersion tr versions).session? tr = some x ∧ x.st = .negotiated ∧ x.slot = none ∧
        x.version = if bit versions 1 then 0x13 else if bit versions 0 then 0x12 else 0 := by
  obtain ⟨i, hi, hnone⟩ := s.forgetSession_eq tr
  let y := Session.agreed tr (if bit versions 1 then 0x13 else if bit versions 0 then 0x12 else 0)
  have hfind : (i.sessions ++ [y]).find? (fun x => x.transport == tr) = some y := by
    have hgone : i.sessions.find? (fun x => x.transport == tr) = none := List.find?_eq_none.mpr fun x hx => by simpa using hnone x hx
    rw [List.find?_append, hgone]
    simp [y, Session.agreed]
  unfold State.spdmGetVersion
  rw [if_neg (show ¬(!s.spdmOn tr) = true by simp [hon]), hi]
  exact ⟨List.mem_cons_self, y, hfind, rfl, rfl, rfl⟩

section
variable {s : State} {tr : Transport} {x : Session} (hon : s.spdmOn tr = true) (hx : s.session? tr = some x) (hv : x.version ≠ 0)
include hon hx hv

theorem State.spdmCaps_tells : (s.spdmCaps tr).tells tr spdmCapabilities [x.version] := by
  obtain ⟨m, h⟩ := State.respond_runs hon hx hv
  rw [State.spdmCaps, h]
  exact List.mem_cons_self

theorem State.spdmAlgos_tells : (s.spdmAlgos tr true).tells tr spdmAlgorithms [3072, 256, 3072, 256] := by
  obtain ⟨m, h⟩ := State.respond_runs hon hx hv
  rw [State.spdmAlgos, h]
  exact List.mem_cons_self

/-- The digests of slot 0, and of slot 1 where the running image has brought one. -/
theorem State.spdmDigests_tells : (s.spdmDigests tr).tells tr Machine.spdmDigests (if s.island.slot1 then
    [0, (digest256 (s.certChain 0)).toNat, 1, (digest256 (s.certChain 1)).toNat] else [0, (digest256 (s.certChain 0)).toNat]) := by
  have hslots : (List.range 8).filter (fun i => s.certSlot i) = if s.island.slot1 then [0, 1] else [0] := by
    unfold State.certSlot
    cases s.island.slot1 <;> decide
  have hbody : (((List.range 8).filter fun i => s.certSlot i).map fun i => (i, (digest256 (s.certChain i)).toNat)).flatMap (fun x => [x.1, x.2]) =
      if s.island.slot1 then [0, (digest256 (s.certChain 0)).toNat, 1, (digest256 (s.certChain 1)).toNat]
      else [0, (digest256 (s.certChain 0)).toNat] := by
    rw [hslots]
    cases s.island.slot1 <;> rfl
  obtain ⟨m, h⟩ := State.respond_runs hon hx hv
  rw [State.spdmDigests, h, ← hbody]
  exact List.mem_cons_self

theorem State.spdmCert_tells {slot : Nat} (hs : s.certSlot slot = true) :
    (s.spdmCert tr slot).tells tr spdmCertificate (slot :: (s.certChain slot).map fun b => b.toNat) ∧
      (s.spdmCert tr slot).session? tr = some { x with large := s.certChain slot } := by
  obtain ⟨m, h⟩ := State.respond_runs hon hx hv
  have hs' : ({ s with mgmt := m } : State).certSlot slot = true := hs
  rw [State.spdmCert, h, if_neg (by simp [hs'])]
  exact ⟨List.mem_cons_self, State.modSession_session (s := { s with mgmt := m }) hx fun _ => rfl⟩

theorem State.spdmChallenge_tells {slot : Nat} (hs : s.certSlot slot = true) (nonce : BitVec 256) : (s.spdmChallenge tr slot nonce).tells tr
    spdmChallengeAuth [slot, (Config.sign [spdmChallengeAuth, slot, nonce.toNat]).toNat] := by
  obtain ⟨m, h⟩ := State.respond_runs hon hx hv
  have hs' : ({ s with mgmt := m } : State).certSlot slot = true := hs
  rw [State.spdmChallenge, h, if_neg (by simp [hs'])]
  exact List.mem_cons_self

/-- One measurement block, signed over the requester's nonce. -/
theorem State.spdmMeasure_tells {index : Nat} (hlo : 1 ≤ index) (hhi : index ≤ 8) (nonce : BitVec 256) :
    (s.spdmMeasure tr index nonce).tells tr spdmMeasurements
      [index, blockType index, s.block index, (Config.sign [spdmMeasurements, nonce.toNat, index, blockType index, s.block index]).toNat] := by
  have hasked : blocksAsked index = [index] := by
    unfold blocksAsked
    rw [if_neg (by omega), if_pos ⟨hlo, hhi⟩]
  obtain ⟨m, h⟩ := State.respond_runs hon hx hv
  rw [State.spdmMeasure, h, hasked, if_neg (by simp)]
  dsimp only
  rw [if_neg (by omega)]
  exact List.mem_cons_self

/-- The number of blocks. -/
theorem State.spdmMeasure_counts (nonce : BitVec 256) :
    (s.spdmMeasure tr 0 nonce).tells tr spdmMeasurements [8, (Config.sign [spdmMeasurements, nonce.toNat, 8]).toNat] := by
  obtain ⟨m, h⟩ := State.respond_runs hon hx hv
  rw [State.spdmMeasure, h, if_neg (by simp)]
  exact List.mem_cons_self

/-- A key exchange ends what the transport had and takes a slot for the new session's secrets. -/
theorem State.spdmExchange_takes {n : Nat} (ho : s.exchangeOpen tr = true) (hd : s.island.drbgOn = true)
    (hn : (s.endSession tr .negotiated).sessionSlot tr = some n) :
    (s.spdmExchange tr true).tells tr spdmKeyExchangeRsp [n] ∧ (s.spdmExchange tr true).slotFilled n = true ∧
      ∃ y, (s.spdmExchange tr true).session? tr = some y ∧ y.st = .exchanged ∧ y.slot = some n ∧ y.secret = s.ids := by
  obtain ⟨m, h⟩ := State.respond_runs hon hx hv
  let u : State := { s with mgmt := m }
  let e := u.endSession tr .negotiated
  have he : e = { s.endSession tr .negotiated with mgmt := m } := s.endSession_mgmt m tr .negotiated
  have hslot : e.sessionSlot tr = some n := by
    rw [he, State.sessionSlot_mgmt]
    exact hn
  have hids : e.ids = s.ids := by
    obtain ⟨i, hi⟩ := u.endSession_eq tr .negotiated
    exact (congrArg State.ids hi :)
  let k : State := e.bumpId.setKey n 0 (Config.sessionSecret e.ids false) (Config.sessionSecret e.ids true)
  have hrun : s.spdmExchange tr true =
      (k.modSession tr fun x => { x with st := .exchanged, secret := e.ids, slot := some n, updates := 0 }).spdm tr spdmKeyExchangeRsp [n] := by
    have hopen : ¬((!u.exchangeOpen tr) = true ∨ (!u.island.drbgOn) = true) := by
      simp [show u.exchangeOpen tr = true from ho, show u.island.drbgOn = true from hd]
    rw [State.spdmExchange, h]
    dsimp only
    rw [if_neg (by simp), if_neg hopen]
    rw [show (State.endSession _ tr .negotiated).sessionSlot tr = _ from hslot]
  have hsession : k.session? tr = some { x with st := .negotiated, slot := none, root := 0 } := (State.endSession_session (s := u) hx .negotiated).1
  rw [hrun]
  refine ⟨List.mem_cons_self, ?_, _, State.modSession_session hsession fun _ => rfl, rfl, rfl, hids⟩
  exact (e.bumpId.setKey_slotFilled n 0 _ _ _ n).trans (by simp)

/-- FINISH of an exchange that verifies establishes the session; a group's takes its weights key and a counter from 0. -/
theorem State.spdmFinish_establishes (hst : x.st = .exchanged) (root : BitVec 256) : (s.spdmFinish tr true root).tells tr spdmFinishRsp [] ∧
    (s.spdmFinish tr true root).session? tr = some { x with st := .established, root := root } ∧
    ∀ g, tr = .ucie g → (s.spdmFinish tr true root).slotFilled (groupKeySlot g) = true ∧ (g, 0) ∈ (s.spdmFinish tr true root).island.counters := by
  obtain ⟨m, h⟩ := State.respond_runs hon hx hv
  have hsession := State.modSession_session (s := { s with mgmt := m }) (g := fun x => { x with st := .established, root := root }) hx fun _ => rfl
  rw [State.spdmFinish, h, hst]
  cases tr with
  | ucie g =>
    refine ⟨List.mem_cons_self, hsession, fun g' hg => ?_⟩
    cases hg
    exact ⟨(State.setKey_slotFilled _ _ _ _ _ _ _).trans (by simp), List.mem_cons_self⟩
  | mgmt n => exact ⟨List.mem_cons_self, hsession, fun g hg => by cases hg⟩
  | i3c => exact ⟨List.mem_cons_self, hsession, fun g hg => by cases hg⟩
  | asvis l => exact ⟨List.mem_cons_self, hsession, fun g hg => by cases hg⟩
  | cxl c => exact ⟨List.mem_cons_self, hsession, fun g hg => by cases hg⟩

theorem State.inSession_runs (hst : x.st = .established) : ∃ m, ∀ k, s.inSession tr k = k { s with mgmt := m } x := by
  obtain ⟨m, h⟩ := State.respond_runs hon hx hv
  refine ⟨m, fun k => ?_⟩
  rw [State.inSession, h, hst]

theorem State.spdmHeartbeat_tells (hst : x.st = .established) : (s.spdmHeartbeat tr).tells tr spdmHeartbeatAck [] := by
  obtain ⟨m, h⟩ := State.inSession_runs hon hx hv hst
  rw [State.spdmHeartbeat, h]
  exact List.mem_cons_self

theorem State.spdmUpdate_updates (hst : x.st = .established) : (s.spdmUpdate tr).tells tr spdmKeyUpdateAck [] ∧
    (s.spdmUpdate tr).session? tr = some { x with updates := x.updates + 1 } := by
  obtain ⟨m, h⟩ := State.inSession_runs hon hx hv hst
  rw [State.spdmUpdate, h]
  dsimp only
  cases x.slot.bind ({ s with mgmt := m } : State).keySlot? with
  | none => exact ⟨List.mem_cons_self, State.modSession_session (s := { s with mgmt := m }) hx fun _ => rfl⟩
  | some k =>
    refine ⟨List.mem_cons_self, ?_⟩
    exact State.modSession_session (s := State.setKey { s with mgmt := m } k.n k.epoch (updatedSecret 1 k.key) (updatedSecret 1 k.key2)) hx fun _ => rfl

theorem State.spdmEnd_ends (hst : x.st = .established) : (s.spdmEnd tr).tells tr spdmEndSessionAck [] ∧
    (s.spdmEnd tr).session? tr = some { x with st := .negotiated, slot := none, root := 0 } ∧
      ∀ n, x.slot = some n → (s.spdmEnd tr).slotFilled n = false := by
  obtain ⟨m, h⟩ := State.inSession_runs hon hx hv hst
  let u : State := State.spdm { s with mgmt := m } tr spdmEndSessionAck []
  obtain ⟨hsession, hslot⟩ := State.endSession_session (s := u) hx .negotiated
  rw [State.spdmEnd, h]
  refine ⟨?_, hsession, hslot⟩
  obtain ⟨i, hi⟩ := u.endSession_eq tr .negotiated
  rw [show State.endSession _ _ _ = _ from hi]
  exact List.mem_cons_self

/-- A chunk of a large message is held for the next. -/
theorem State.spdmChunkIn_holds (data : Bytes) : (s.spdmChunkIn tr data .more).tells tr spdmChunkSendAck [(x.chunks ++ data).length] ∧
    (s.spdmChunkIn tr data .more).session? tr = some { x with chunks := x.chunks ++ data } := by
  obtain ⟨m, h⟩ := State.respond_runs hon hx hv
  rw [State.spdmChunkIn, h, hx]
  exact ⟨List.mem_cons_self, State.modSession_session (s := { s with mgmt := m }) hx fun _ => rfl⟩

/-- The last chunk runs the message, with no chunk held any more. -/
theorem State.spdmChunkIn_runs (data : Bytes) (r : SpdmRequest) : s.spdmChunkIn tr data (.last r) =
    ((s.spdmChunkIn tr data .more).modSession tr fun x => { x with chunks := [] }).spdmRun tr r := by
  obtain ⟨m, h⟩ := State.respond_runs hon hx hv
  have twice := State.modSession_modSession { s with mgmt := m } tr (f := fun y => { y with chunks := x.chunks ++ data })
    (g := fun y => { y with chunks := [] }) fun _ => rfl
  unfold State.spdmChunkIn
  dsimp only
  rw [h, h, hx]
  refine congrArg (fun u => State.spdmRun u tr r) ?_
  exact congrArg (fun u : State => u.spdm tr spdmChunkSendAck [(x.chunks ++ data).length]) twice.symm

theorem State.spdmChunkOut_tells (index : Nat) : let part := (x.large.drop (index * Config.chunkBytes)).take Config.chunkBytes
    if part.isEmpty then (s.spdmChunkOut tr index).tells tr spdmErrorCode [errInvalidRequest]
    else (s.spdmChunkOut tr index).tells tr spdmChunkResponse (index :: part.map fun b => b.toNat) := by
  intro part
  obtain ⟨m, h⟩ := State.respond_runs hon hx hv
  rw [State.spdmChunkOut, h]
  split
  · next he =>
    dsimp only
    rw [if_pos he]
    exact List.mem_cons_self
  · next he =>
    dsimp only
    rw [if_neg he]
    exact List.mem_cons_self

end

end Sys2Proof.Machine
end

section
/-! CLAIMS. SPDM requests are answered (14). -/

namespace Sys2Proof.Machine

/-- Settles O49: each request by what it answers on the session record of its transport. -/
theorem spdmCommandsComplete : Obligations.SpdmCommandsComplete := by
  refine ⟨fun s tr versions hon => ⟨_, rfl, State.spdmGetVersion_agrees hon versions⟩, fun s tr code hon => ⟨_, rfl, ?_⟩,
    fun s tr x hon hx hv => ⟨_, rfl, State.respond_declines hon hx hv _⟩,
    fun s tr x hon hx hv => ⟨⟨_, rfl, State.spdmCaps_tells hon hx hv⟩, ⟨_, rfl, State.spdmAlgos_tells hon hx hv⟩,
      ⟨_, rfl, State.spdmDigests_tells hon hx hv⟩,
      fun slot hs => ⟨⟨_, rfl, State.spdmCert_tells hon hx hv hs⟩, fun nonce => ⟨_, rfl, State.spdmChallenge_tells hon hx hv hs nonce⟩⟩,
      fun index nonce hlo hhi => ⟨_, rfl, State.spdmMeasure_tells hon hx hv hlo hhi nonce⟩,
      fun nonce => ⟨_, rfl, State.spdmMeasure_counts hon hx hv nonce⟩,
      fun n ho hd hn => ⟨_, rfl, State.spdmExchange_takes hon hx hv ho hd hn⟩,
      fun root hst => ⟨_, rfl, State.spdmFinish_establishes hon hx hv hst root⟩,
      fun hst => ⟨⟨_, rfl, State.spdmHeartbeat_tells hon hx hv hst⟩, ⟨_, rfl, State.spdmUpdate_updates hon hx hv hst⟩,
        ⟨_, rfl, State.spdmEnd_ends hon hx hv hst⟩⟩,
      fun data => ⟨_, rfl, State.spdmChunkIn_holds hon hx hv data⟩, fun data m t ht => ?_,
      fun index => ⟨_, rfl, State.spdmChunkOut_tells hon hx hv index⟩⟩⟩
  · rw [show s.spdmOther tr code = _ from if_pos hon]
    exact List.mem_cons_self
  · cases ht
    exact congrArg Host.Outcome.next (State.spdmChunkIn_runs hon hx hv data m)

end Sys2Proof.Machine
end

section
/-! SUPPORT. Frames of the management port and of SPDM (R315, R316, R325, R382 to R388): each operation of theirs, and what it leaves
unchanged, with `d` in place of the parts that it may change. -/

namespace Sys2Proof.Machine

/-! ### Reads of the management port (R384 to R386) -/

def readFrame (s t : State) : State := { s with mgmt := t.mgmt, out := t.out }

theorem State.reply_readFrame (s : State) (conn st : Nat) (body : List Nat) (d : State) : readFrame (s.reply conn st body) d = readFrame s d :=
  ite_keeps (m := (readFrame · d)) rfl rfl

theorem State.serve_readFrame (s : State) (conn : Nat) (roles : List Nat) (before : Bool) {k : State → Conn → State} {d : State}
    (hk : ∀ t c, readFrame (k t c) d = readFrame t d) : readFrame (s.serve conn roles before k) d = readFrame s d :=
  s.serve_keeps (m := (readFrame · d)) conn roles before k rfl (fun _ _ => rfl) hk

theorem State.serveRead_readFrame (s : State) (conn : Nat) (roles : List Nat) (board : Bool) {k : State → Bool → State} {d : State}
    (hk : ∀ t b, readFrame (k t b) d = readFrame t d) : readFrame (s.serveRead conn roles board k) d = readFrame s d := by
  unfold State.serveRead
  refine ite_keeps (m := (readFrame · d)) (ite_keeps (m := (readFrame · d)) (hk _ _) rfl) (ite_keeps (m := (readFrame · d)) ?_ ?_)
  · split
    · exact ite_keeps (m := (readFrame · d)) ((hk _ _).trans rfl) ((State.reply_readFrame _ _ _ _ d).trans rfl)
    · rfl
  · exact s.serve_readFrame _ _ _ fun t c => hk t _

theorem State.statusRead_readFrame (s : State) (conn : Nat) (d : State) : readFrame (s.statusRead conn) d = readFrame s d := by
  unfold State.statusRead
  refine ite_keeps (m := (readFrame · d)) ?_ (s.serveRead_readFrame _ _ _ fun t b => t.reply_readFrame _ _ _ d)
  split
  · exact ite_keeps (m := (readFrame · d)) (s.reply_readFrame _ _ _ d) (s.reply_readFrame _ _ _ d)
  · rfl

theorem State.telemetryRead_readFrame (s : State) (conn group inst : Nat) (d : State) :
    readFrame (s.telemetryRead conn group inst) d = readFrame s d := by
  have reply := fun (t : State) st body => t.reply_readFrame conn st body d
  unfold State.telemetryRead
  refine ite_keeps (m := (readFrame · d)) ?_ (s.serve_readFrame _ _ _ fun t c => ?_)
  · exact ite_keeps (m := (readFrame · d)) rfl (ite_keeps (m := (readFrame · d)) (reply _ _ _) (reply _ _ _))
  · refine ite_keeps (m := (readFrame · d)) (reply _ _ _) (ite_keeps (m := (readFrame · d)) (reply _ _ _) ?_)
    split
    · exact reply _ _ _
    · exact reply _ _ _

theorem State.eventRead_readFrame (s : State) (conn first count : Nat) (d : State) :
    readFrame (s.eventRead conn first count) d = readFrame s d :=
  s.serveRead_readFrame _ _ _ fun t _ => ite_keeps (m := (readFrame · d)) (t.reply_readFrame _ _ _ d)
    (ite_keeps (m := (readFrame · d)) (t.reply_readFrame _ _ _ d) rfl)

theorem State.traceRead_readFrame (s : State) (conn fn : Nat) (d : State) : readFrame (s.traceRead conn fn) d = readFrame s d :=
  s.serve_readFrame _ _ _ fun t _ => ite_keeps (m := (readFrame · d)) (t.reply_readFrame _ _ _ d) rfl

/-! ### SPDM requests (R315 to R318) -/

def talkFrame (s t : State) : State := { s with island := t.island, mgmt := t.mgmt, out := t.out }

theorem talkFrame_of_readFrame {s t d : State} (h : readFrame t d = readFrame s d) : talkFrame t d = talkFrame s d :=
  congrArg (fun x : State => ({ x with island := d.island } : State)) h

/-- What a request does to a frame: answering touches the connection and the messages that leave. -/
theorem State.respond_keeps {β : Type} {m : State → β} (s : State) (tr : Transport) {k : State → Session → State} (ht : ∀ n, m (s.touch n) = m s)
    (ho : ∀ (t : State) o, m { t with out := o } = m t) (hk : ∀ t x, m (k t x) = m t) : m (s.respond tr k) = m s := by
  have runs : ∀ t : State, m t = m s → m (match t.session? tr with
      | some x => if x.version = 0 then t.spdmError tr errVersionMismatch else k t x
      | none => t.spdmError tr errUnexpectedRequest) = m s := fun t h => by
    split
    · exact (ite_keeps (m := m) (ho _ _) (hk _ _)).trans h
    · exact (ho _ _).trans h
  unfold State.respond
  refine ite_keeps rfl ?_
  cases tr with
  | mgmt n => exact runs _ (ht n)
  | i3c => exact runs s rfl
  | asvis l => exact runs s rfl
  | cxl c => exact runs s rfl
  | ucie g => exact runs s rfl

theorem State.inSession_keeps {β : Type} {m : State → β} (s : State) (tr : Transport) {k : State → Session → State} (ht : ∀ n, m (s.touch n) = m s)
    (ho : ∀ (t : State) o, m { t with out := o } = m t) (hk : ∀ t x, m (k t x) = m t) : m (s.inSession tr k) = m s :=
  s.respond_keeps tr ht ho fun t x => by
    split
    · exact hk t x
    · exact ho _ _
    · exact ho _ _
    · exact ho _ _

section
variable (s : State) (tr : Transport) (d : State)

theorem State.respond_readFrame {k : State → Session → State} (hk : ∀ t x, readFrame (k t x) d = readFrame t d) :
    readFrame (s.respond tr k) d = readFrame s d := s.respond_keeps (m := (readFrame · d)) tr (fun _ => rfl) (fun _ _ => rfl) hk

theorem State.respond_talkFrame {k : State → Session → State} (hk : ∀ t x, talkFrame (k t x) d = talkFrame t d) :
    talkFrame (s.respond tr k) d = talkFrame s d := s.respond_keeps (m := (talkFrame · d)) tr (fun _ => rfl) (fun _ _ => rfl) hk

theorem State.inSession_talkFrame {k : State → Session → State} (hk : ∀ t x, talkFrame (k t x) d = talkFrame t d) :
    talkFrame (s.inSession tr k) d = talkFrame s d := s.inSession_keeps (m := (talkFrame · d)) tr (fun _ => rfl) (fun _ _ => rfl) hk

theorem State.endSession_talkFrame (st : SessionSt) : talkFrame (s.endSession tr st) d = talkFrame s d := by
  obtain ⟨i, hi⟩ := s.endSession_eq tr st
  rw [hi]
  rfl

theorem State.spdmCaps_readFrame : readFrame (s.spdmCaps tr) d = readFrame s d := s.respond_readFrame tr d fun _ _ => rfl

theorem State.spdmAlgos_readFrame (b : Bool) : readFrame (s.spdmAlgos tr b) d = readFrame s d :=
  s.respond_readFrame tr d fun _ _ => ite_keeps (m := (readFrame · d)) rfl rfl

theorem State.spdmDigests_talkFrame : talkFrame (s.spdmDigests tr) d = talkFrame s d := s.respond_talkFrame tr d fun _ _ => rfl

theorem State.spdmChallenge_readFrame (slot : Nat) (nonce : BitVec 256) : readFrame (s.spdmChallenge tr slot nonce) d = readFrame s d :=
  s.respond_readFrame tr d fun _ _ => ite_keeps (m := (readFrame · d)) rfl rfl

theorem State.spdmMeasure_talkFrame (index : Nat) (nonce : BitVec 256) : talkFrame (s.spdmMeasure tr index nonce) d = talkFrame s d :=
  s.respond_talkFrame tr d fun _ _ => ite_keeps (m := (talkFrame · d)) rfl rfl

theorem State.spdmHeartbeat_readFrame : readFrame (s.spdmHeartbeat tr) d = readFrame s d :=
  s.inSession_keeps (m := (readFrame · d)) tr (fun _ => rfl) (fun _ _ => rfl) fun _ _ => rfl

theorem State.spdmChunkOut_readFrame (index : Nat) : readFrame (s.spdmChunkOut tr index) d = readFrame s d :=
  s.respond_readFrame tr d fun _ _ => ite_keeps (m := (readFrame · d)) rfl rfl

theorem State.spdmCert_talkFrame (slot : Nat) : talkFrame (s.spdmCert tr slot) d = talkFrame s d :=
  s.respond_talkFrame tr d fun _ _ => ite_keeps (m := (talkFrame · d)) rfl rfl

theorem State.spdmFinish_talkFrame (verified : Bool) (root : BitVec 256) : talkFrame (s.spdmFinish tr verified root) d = talkFrame s d :=
  s.respond_talkFrame tr d fun t x => by
    split
    · rfl
    · rfl
    · rfl
    · refine ite_keeps (m := (talkFrame · d)) (t.endSession_talkFrame tr d .negotiated) ?_
      cases tr <;> simp only [talkFrame, State.spdm, State.emit, State.setKey, State.modSession]

theorem State.spdmUpdate_talkFrame : talkFrame (s.spdmUpdate tr) d = talkFrame s d :=
  s.inSession_talkFrame tr d fun t x => by
    cases x.slot.bind t.keySlot? <;> simp only [talkFrame, State.spdm, State.emit, State.setKey, State.modSession]

theorem State.spdmEnd_talkFrame : talkFrame (s.spdmEnd tr) d = talkFrame s d :=
  s.inSession_talkFrame tr d fun t _ => ((t.spdm tr spdmEndSessionAck []).endSession_talkFrame tr d .negotiated).trans rfl

end

def answerFrame (s t : State) : State := { s with out := t.out }

theorem State.spdmOther_answerFrame (s : State) (tr : Transport) (code : Nat) (d : State) : answerFrame (s.spdmOther tr code) d = answerFrame s d :=
  ite_keeps (m := (answerFrame · d)) rfl rfl

def versionFrame (s t : State) : State := { s with island := t.island, out := t.out }

theorem State.spdmGetVersion_versionFrame (s : State) (tr : Transport) (versions : Nat) (d : State) :
    versionFrame (s.spdmGetVersion tr versions) d = versionFrame s d := by
  refine ite_keeps (m := (versionFrame · d)) rfl ?_
  obtain ⟨i, hi, -⟩ := s.forgetSession_eq tr
  rw [hi]
  rfl

/-! ### Key exchanges, model keys, and messages in chunks (R312, R315, R324) -/

def runFrame (s t : State) : State :=
  { s with island := t.island, mgmt := t.mgmt, out := t.out, ids := t.ids, free := t.free, recorder := t.recorder }

theorem runFrame_of_talkFrame {s t d : State} (h : talkFrame t d = talkFrame s d) : runFrame t d = runFrame s d :=
  congrArg (fun x : State => ({ x with ids := d.ids, free := d.free, recorder := d.recorder } : State)) h

theorem runFrame_of_versionFrame {s t d : State} (h : versionFrame t d = versionFrame s d) : runFrame t d = runFrame s d :=
  congrArg (fun x : State => ({ x with mgmt := d.mgmt, ids := d.ids, free := d.free, recorder := d.recorder } : State)) h

theorem runFrame_of_answerFrame {s t d : State} (h : answerFrame t d = answerFrame s d) : runFrame t d = runFrame s d :=
  congrArg (fun x : State => ({ x with island := d.island, mgmt := d.mgmt, ids := d.ids, free := d.free, recorder := d.recorder } : State)) h

theorem State.spdmExchange_runFrame (s : State) (tr : Transport) (supported : Bool) (d : State) :
    runFrame (s.spdmExchange tr supported) d = runFrame s d :=
  s.respond_keeps (m := (runFrame · d)) tr (fun _ => rfl) (fun _ _ => rfl) fun t x => by
    refine ite_keeps (m := (runFrame · d)) rfl (ite_keeps (m := (runFrame · d)) rfl ?_)
    have he : runFrame (t.endSession tr .negotiated) d = runFrame t d := runFrame_of_talkFrame (t.endSession_talkFrame tr d _)
    dsimp only
    split
    · obtain ⟨r, hr⟩ := State.note_eq ((t.endSession tr .negotiated).spdmError tr errBusy) "SESSION_POOL_FULL" (evSource 8 0) 0
      rw [hr]
      exact he
    · exact he

theorem State.deliverKey_talkFrame (s : State) (conn : Nat) (fp : BitVec 64) (key : BitVec 256) (check : BitVec 64) (d : State) :
    talkFrame (s.deliverKey conn fp key check) d = talkFrame s d := by
  refine ite_keeps (m := (talkFrame · d)) rfl ?_
  dsimp only
  split
  · split <;> simp only [talkFrame, State.spdm, State.emit, State.setKey, State.touch, State.spdmError]
  · rfl

theorem State.withdrawKey_talkFrame (s : State) (conn : Nat) (fp : BitVec 64) (d : State) :
    talkFrame (s.withdrawKey conn fp) d = talkFrame s d := by
  refine ite_keeps (m := (talkFrame · d)) rfl ?_
  dsimp only
  split
  · split <;> simp only [talkFrame, State.spdm, State.emit, State.zeroise, State.touch, State.spdmError]
  · rfl

/-- Whatever a message asks for. -/
theorem State.spdmRun_runFrame (s : State) (tr : Transport) (r : SpdmRequest) (d : State) : runFrame (s.spdmRun tr r) d = runFrame s d := by
  have read : ∀ {t : State}, readFrame t d = readFrame s d → runFrame t d = runFrame s d := fun h =>
    runFrame_of_talkFrame (talkFrame_of_readFrame h)
  have refused : runFrame (if s.spdmOn tr then s.spdmError tr errInvalidRequest else s) d = runFrame s d := ite_keeps (m := (runFrame · d)) rfl rfl
  cases r with
  | getVersion v => exact runFrame_of_versionFrame (s.spdmGetVersion_versionFrame tr v d)
  | getCapabilities => exact read (s.spdmCaps_readFrame tr d)
  | negotiateAlgorithms ok => exact read (s.spdmAlgos_readFrame tr d ok)
  | getDigests => exact runFrame_of_talkFrame (s.spdmDigests_talkFrame tr d)
  | getCertificate slot => exact runFrame_of_talkFrame (s.spdmCert_talkFrame tr d slot)
  | challenge slot nonce => exact read (s.spdmChallenge_readFrame tr d slot nonce)
  | getMeasurements index nonce => exact runFrame_of_talkFrame (s.spdmMeasure_talkFrame tr d index nonce)
  | keyExchange ok => exact s.spdmExchange_runFrame tr ok d
  | finish ok root => exact runFrame_of_talkFrame (s.spdmFinish_talkFrame tr d ok root)
  | heartbeat => exact read (s.spdmHeartbeat_readFrame tr d)
  | keyUpdate => exact runFrame_of_talkFrame (s.spdmUpdate_talkFrame tr d)
  | endSession => exact runFrame_of_talkFrame (s.spdmEnd_talkFrame tr d)
  | modelKeyDeliver f key check => cases tr with
    | mgmt conn => exact runFrame_of_talkFrame (s.deliverKey_talkFrame conn f key check d)
    | i3c => exact refused
    | asvis l => exact refused
    | cxl c => exact refused
    | ucie g => exact refused
  | modelKeyWithdraw f => cases tr with
    | mgmt conn => exact runFrame_of_talkFrame (s.withdrawKey_talkFrame conn f d)
    | i3c => exact refused
    | asvis l => exact refused
    | cxl c => exact refused
    | ucie g => exact refused
  | other code => exact runFrame_of_answerFrame (s.spdmOther_answerFrame tr code d)

theorem State.spdmChunkIn_runFrame (s : State) (tr : Transport) (data : Bytes) (last : ChunkEnd) (d : State) :
    runFrame (s.spdmChunkIn tr data last) d = runFrame s d := by
  have held : ∀ (g : Session → Session) (n : Nat),
      runFrame (s.respond tr fun s _ => (s.modSession tr g).spdm tr spdmChunkSendAck [n]) d = runFrame s d := fun g n =>
    s.respond_keeps (m := (runFrame · d)) tr (fun _ => rfl) (fun _ _ => rfl) fun _ _ => rfl
  cases last with
  | more => exact held _ _
  | last r => exact (State.spdmRun_runFrame _ tr r d).trans (held _ _)

/-! ### Connections (R378 to R381, R387, R388) -/

theorem State.closeConn_talkFrame (s : State) (n : Nat) (d : State) : talkFrame (s.closeConn n) d = talkFrame s d := by
  obtain ⟨i, hi, -⟩ := s.closeConn_eq n
  rw [hi]
  rfl

theorem State.unknownCommand_talkFrame (s : State) (conn kind bytes : Nat) (d : State) :
    talkFrame (s.unknownCommand conn kind bytes) d = talkFrame s d := by
  unfold State.unknownCommand
  split
  · rfl
  · refine ite_keeps (m := (talkFrame · d)) rfl (ite_keeps (m := (talkFrame · d)) (s.closeConn_talkFrame conn d) ?_)
    exact talkFrame_of_readFrame ((s.touch conn).reply_readFrame conn msUnknown [] d)

theorem State.idleClose_talkFrame (s : State) (conn : Nat) (d : State) : talkFrame (s.idleClose conn) d = talkFrame s d := by
  unfold State.idleClose
  split
  · exact ite_keeps (m := (talkFrame · d)) (s.closeConn_talkFrame conn d) rfl
  · rfl

def connectFrame (s t : State) : State := { s with mgmt := t.mgmt, recorder := t.recorder }

theorem State.connect_connectFrame (s : State) (port : Nat) (tlsOk : Bool) (cert : Option (BitVec 256)) (owner : Bool) (d : State) :
    connectFrame (s.connect port tlsOk cert owner) d = connectFrame s d := by
  have noted : ∀ name, connectFrame (s.note name (evSource 0 0) 0) d = connectFrame s d := fun name => by
    obtain ⟨r, hr⟩ := s.note_eq name (evSource 0 0) 0
    rw [hr]
    rfl
  unfold State.connect
  refine ite_keeps (m := (connectFrame · d)) rfl ?_
  split
  · exact noted _
  · refine ite_keeps (m := (connectFrame · d)) rfl (ite_keeps (m := (connectFrame · d)) rfl ?_)
    split
    · rfl
    · exact noted _

def mgmtFrame (s t : State) : State := { s with mgmt := t.mgmt }

theorem State.takeAddress_mgmtFrame (s : State) (address : Nat) (d : State) : mgmtFrame (s.takeAddress address) d = mgmtFrame s d :=
  ite_keeps (m := (mgmtFrame · d)) rfl rfl

theorem State.setAddress_mgmtFrame (s : State) (static address : Nat) (d : State) : mgmtFrame (s.setAddress static address) d = mgmtFrame s d :=
  ite_keeps (m := (mgmtFrame · d)) (s.takeAddress_mgmtFrame address d) rfl

/-! ### Weights, volumes and nonces (R115, R269, R334) -/

def weightFrame (s t : State) : State :=
  { s with weights := t.weights, array := t.array, recorder := t.recorder, mgmt := t.mgmt, out := t.out, ids := t.ids, ports := t.ports,
           queues := t.queues, txns := t.txns }

def volumeFrame (s t : State) : State := { s with volumes := t.volumes, mgmt := t.mgmt, out := t.out }

def drawFrame (s t : State) : State := { s with dbg := t.dbg, island := t.island, mgmt := t.mgmt, out := t.out, free := t.free }

theorem weightFrame_of_carried {s t : State} (h : t.carried = s.carried) (d : State) : weightFrame t d = weightFrame s d :=
  (congrArg (weightFrame · d) h :)

theorem State.loadWeights_weightFrame (s : State) (conn model : Nat) (h : SealedHeader) (d : State) :
    weightFrame (s.loadWeights conn model h) d = weightFrame s d := by
  have reply : ∀ (t : State) st, weightFrame (t.reply conn st []) d = weightFrame t d := fun t st => by
    obtain ⟨o, ho⟩ := t.reply_eq conn st []
    rw [ho]
    rfl
  unfold State.loadWeights
  split
  · exact reply s _
  · refine ite_keeps (m := (weightFrame · d)) (reply s _) ?_
    dsimp only
    split
    · exact reply s _
    · exact (reply _ _).trans ((weightFrame_of_carried (State.writeChunks_carried _ _ _) d).trans rfl)

theorem State.releaseVolume_volumeFrame (s : State) (conn volume : Nat) (d : State) :
    volumeFrame (s.releaseVolume conn volume) d = volumeFrame s d := by
  have reply : ∀ (t : State) st, volumeFrame (t.reply conn st []) d = volumeFrame t d := fun t st => by
    obtain ⟨o, ho⟩ := t.reply_eq conn st []
    rw [ho]
    rfl
  exact ite_keeps (m := (volumeFrame · d)) (reply s _) ((reply _ _).trans rfl)

theorem State.issueNonce_drawFrame (s : State) (conn : Nat) (d : State) : drawFrame (s.issueNonce conn) d = drawFrame s d := by
  have reply : ∀ (t : State) st body, drawFrame (t.reply conn st body) d = drawFrame t d := fun t st body => by
    obtain ⟨o, ho⟩ := t.reply_eq conn st body
    rw [ho]
    rfl
  exact ite_keeps (m := (drawFrame · d)) ((reply _ _ _).trans rfl) ((reply _ _ _).trans rfl)

end Sys2Proof.Machine
end

section
/-! CLAIMS. Frames of the management port and of SPDM (17). -/

namespace Sys2Proof.Machine

/-- Settles O59, one frame for each command: what its operations leave unchanged, with `d` in place of the parts that they may change. -/
theorem managementFrames : Obligations.ManagementFrames := by
  unfold Obligations.ManagementFrames
  intro reads talks runs
  exact ⟨fun n => changesOnly_of (fun _ => rfl) (fun _ => rfl) fun s => s.statusRead_readFrame n,
    fun n a b => changesOnly_of (fun _ => rfl) (fun _ => rfl) fun s => s.telemetryRead_readFrame n a b,
    fun n a b => changesOnly_of (fun _ => rfl) (fun _ => rfl) fun s => s.eventRead_readFrame n a b,
    fun n a => changesOnly_of (fun _ => rfl) (fun _ => rfl) fun s => s.traceRead_readFrame n a,
    fun tr => changesOnly_of (fun _ => rfl) (fun _ => rfl) fun s d => s.spdmCaps_readFrame tr d,
    fun tr b => changesOnly_of (fun _ => rfl) (fun _ => rfl) fun s d => s.spdmAlgos_readFrame tr d b,
    fun tr => changesOnly_of (fun _ => rfl) (fun _ => rfl) fun s d => s.spdmDigests_talkFrame tr d,
    fun tr a b => changesOnly_of (fun _ => rfl) (fun _ => rfl) fun s d => s.spdmChallenge_readFrame tr d a b,
    fun tr a b => changesOnly_of (fun _ => rfl) (fun _ => rfl) fun s d => s.spdmMeasure_talkFrame tr d a b,
    fun tr => changesOnly_of (fun _ => rfl) (fun _ => rfl) fun s d => s.spdmHeartbeat_readFrame tr d,
    fun tr a => changesOnly_of (fun _ => rfl) (fun _ => rfl) fun s d => s.spdmChunkOut_readFrame tr d a,
    fun tr a => changesOnly_of (fun _ => rfl) (fun _ => rfl) fun s => s.spdmOther_answerFrame tr a,
    fun tr a => changesOnly_of (fun _ => rfl) (fun _ => rfl) fun s => s.spdmGetVersion_versionFrame tr a,
    fun tr a => changesOnly_of (fun _ => rfl) (fun _ => rfl) fun s d => s.spdmCert_talkFrame tr d a,
    fun tr a b => changesOnly_of (fun _ => rfl) (fun _ => rfl) fun s d => s.spdmFinish_talkFrame tr d a b,
    fun tr => changesOnly_of (fun _ => rfl) (fun _ => rfl) fun s d => s.spdmUpdate_talkFrame tr d,
    fun tr => changesOnly_of (fun _ => rfl) (fun _ => rfl) fun s d => s.spdmEnd_talkFrame tr d,
    fun tr a b => changesOnly_of (fun _ => rfl) (fun _ => rfl) fun s => s.spdmChunkIn_runFrame tr a b,
    fun tr a => changesOnly_of (fun _ => rfl) (fun _ => rfl) fun s => s.spdmExchange_runFrame tr a,
    fun n a b c => changesOnly_of (fun _ => rfl) (fun _ => rfl) fun s => s.deliverKey_talkFrame n a b c,
    fun n a => changesOnly_of (fun _ => rfl) (fun _ => rfl) fun s => s.withdrawKey_talkFrame n a,
    fun n => changesOnly_of (fun _ => rfl) (fun _ => rfl) fun s => s.idleClose_talkFrame n,
    fun n => changesOnly_of (fun _ => rfl) (fun _ => rfl) fun s d => ite_keeps (m := (talkFrame · d)) (s.closeConn_talkFrame n d) rfl,
    fun n a _ c => changesOnly_of (fun _ => rfl) (fun _ => rfl) fun s => s.unknownCommand_talkFrame n a c,
    fun _ b c => changesOnly_of (fun _ => rfl) (fun _ => rfl) fun s => s.connect_connectFrame _ _ b c,
    fun a => changesOnly_of (fun _ => rfl) (fun _ => rfl) fun s => s.takeAddress_mgmtFrame a,
    fun a b => changesOnly_of (fun _ => rfl) (fun _ => rfl) fun s => s.setAddress_mgmtFrame a b,
    fun n a b => changesOnly_of (fun _ => rfl) (fun _ => rfl) fun s d =>
      s.serve_keeps (m := (weightFrame · d)) n [1] false _ rfl (fun _ _ => rfl) fun t _ => t.loadWeights_weightFrame n a b d,
    fun n a => changesOnly_of (fun _ => rfl) (fun _ => rfl) fun s d =>
      s.serve_keeps (m := (volumeFrame · d)) n [1] false _ rfl (fun _ _ => rfl) fun t _ => t.releaseVolume_volumeFrame n a d,
    fun n => changesOnly_of (fun _ => rfl) (fun _ => rfl) fun s d =>
      s.serve_keeps (m := (drawFrame · d)) n [2] false _ rfl (fun _ _ => rfl) fun t _ => t.issueNonce_drawFrame n d⟩

end Sys2Proof.Machine
end

section
/-! SUPPORT. Power and clocks (R391, R392, R396, R399, R400). -/

namespace Sys2Proof.Machine

theorem State.railFault_stops {s : State} (h : s.running = true) {rail : Nat} (hr : rail ≠ 6) :
    (s.railFault rail).boot.phase = .stopped .rail ∧ (s.railFault rail).power.pwrFault = true ∧ (s.railFault rail).direct = s.direct := by
  obtain ⟨r, hr'⟩ := s.event_eq "RAIL_FAULT" (some 0xCE04) (evSource 14 0) (rail % 16)
  unfold State.railFault
  rw [if_neg (by simp [railAon, hr, h]), hr']
  exact ⟨rfl, rfl, rfl⟩

theorem State.aonLow_empties (s : State) : s.aonLow.boot.phase = .aonOff ∧ s.aonLow.now = 0 ∧ s.aonLow.flashA = s.flashA ∧
    s.aonLow.flashB = s.flashB ∧ s.aonLow.reqs = [] ∧ s.aonLow.seqs = [] ∧ s.aonLow.island.keys = [] := by
  obtain ⟨r, h⟩ := s.wiped_eq .aonOff
  rw [State.aonLow, h]
  exact ⟨rfl, rfl, rfl, rfl, rfl, rfl, rfl⟩

theorem State.avsRetry_settles {s : State} {mv : Nat} (hw : s.power.avsWaiting = some mv) (h : s.running = true) :
    s.avsRetry true = { s with power := { s.power with vddCoreMv := mv, avsWaiting := none } } := by
  unfold State.avsRetry
  rw [hw]
  dsimp only
  rw [if_neg (by simp [h])]
  rfl

theorem State.avsRetry_asksAgain {s : State} {mv : Nat} (hw : s.power.avsWaiting = some mv) (h : s.running = true) :
    (s.avsRetry false).power = s.power ∧ Output.avs mv ∈ (s.avsRetry false).out := by
  obtain ⟨r, hr⟩ := s.note_eq "AVS_NOT_ACKNOWLEDGED" (evSource 14 0) mv
  unfold State.avsRetry
  rw [hw]
  dsimp only
  rw [if_neg (by simp [h]), if_neg (by simp), hr]
  exact ⟨rfl, List.mem_cons_self⟩

/-! ### The clock monitor (R399, R400) -/

theorem State.clockWindow_runs {s : State} (h : s.running = true) (pri sec : Nat) :
    s.clockWindow pri sec = s.windowRuns (edgesMissing pri) (edgesMissing sec) := by
  have hheld : s.boot.phase ≠ .heldInReset := fun hp => by
    rw [State.running, hp] at h
    cases h
  unfold State.clockWindow
  dsimp only
  rw [if_neg hheld, if_pos h]

/-- What a window of a running controller leaves of the clocks. -/
theorem State.windowRuns_power (s : State) (pri sec : Bool) : ∃ alarm, (s.windowRuns pri sec).power =
    { s.power with
      priGone := pri
      secGone := sec
      holdover := if (if s.power.onPrimary then pri else sec) then some (s.power.holdover.getD s.now) else none
      clkAlarm := alarm } ∧ ((pri || sec) = true → alarm = true) := by
  unfold State.windowRuns
  extract_lets old u v h
  have hv : v.power = u.power ∧ v.now = s.now := by
    unfold v
    split
    · obtain ⟨r, hr⟩ := u.event_eq "REFCLK_SWITCHOVER" (some 0x8E02) (evSource 14 0) _
      rw [State.clockEvent, hr]
      exact ⟨rfl, rfl⟩
    · exact ⟨rfl, rfl⟩
  obtain ⟨hpower, hnow⟩ := hv
  have hh : h = if (if s.power.onPrimary then pri else sec) then some (s.power.holdover.getD s.now) else none := by
    unfold h
    rw [hpower, hnow]
    exact rfl
  refine ⟨v.power.priGone || v.power.secGone || v.sparesUsed 12 0 != 0, ?_, fun ha => ?_⟩
  · rw [← hh]
    change ({ v.power with holdover := h, clkAlarm := v.power.priGone || v.power.secGone || v.sparesUsed 12 0 != 0 } : Power) = _
    rw [hpower]
  · rw [hpower]
    exact Bool.or_eq_true_iff.mpr (.inl ha)

theorem edgesMissing_of_present {n : Nat} (hlo : 38 ≤ n) (hhi : n ≤ 42) : edgesMissing n = false := by
  unfold edgesMissing
  simp only [Bool.or_eq_false_iff, decide_eq_false_iff_not]
  omega

theorem State.switchover_switches {s : State} {began : Nat} (hh : s.power.holdover = some began) (h : s.running = true)
    (hs : s.power.secGone = false) : s.switchover.power.onPrimary = false ∧ s.switchover.power.holdover = none ∧
      s.switchover.sparesUsed 12 0 = s.sparesUsed 12 0 + if s.power.onPrimary then 1 else 0 := by
  let u : State := { s with power := { s.power with onPrimary := false, holdover := none } }
  have he : s.switchover = (if s.power.onPrimary then u.spend 12 0 else u).setAlarm := by
    unfold State.switchover
    exact if_neg (by simp [hh, hs, h])
  rw [he]
  cases s.power.onPrimary with
  | true =>
    have hp : (u.spend 12 0).power = u.power := congrArg Cold.power (u.spend_cold 12 0)
    exact ⟨congrArg Power.onPrimary hp, congrArg Power.holdover hp, u.spend_sparesUsed 12 0⟩
  | false => exact ⟨rfl, rfl, rfl⟩

theorem State.holdoverEnds_stops {s : State} {began : Nat} (hh : s.power.holdover = some began) (h : s.running = true)
    (hp : s.power.priGone = true) (hs : s.power.secGone = true) (ht : began + 470000 ≤ s.now) :
    s.holdoverEnds.boot.phase = .stopped .clock ∧ s.holdoverEnds.power.clkAlarm = true := by
  unfold State.holdoverEnds
  rw [hh]
  dsimp only
  rw [if_pos ⟨h, hp, hs, ht⟩]
  exact ⟨rfl, rfl⟩

/-- A cluster without its reference quarantines every port of it that is not held. -/
theorem State.linkClockGone_quarantines {s : State} {k : Nat} (h : ∀ y ∈ s.txns, clusterOfPort y.port ≠ k) :
    ∀ p ∈ (s.linkClockGone k).ports, clusterOfPort p.id = k → p.st = .held ∨ p.st = .quarantined := by
  obtain ⟨r, hr⟩ := State.note_eq ((s.portsOf k).foldl (fun (s : State) p => s.quarantine p) s) "LINK_REFERENCE_MISSING" (evSource 5 k) 0
  rw [State.linkClockGone, hr]
  refine enterCluster_ports (f := fun (s : State) p => s.quarantine p) (fun s q hq => ?_) h
  obtain ⟨i, hi, -⟩ := State.leaveUp_of_quiet hq .quarantined
  rw [State.quarantine, hi]
  exact ⟨rfl, rfl⟩

end Sys2Proof.Machine
end

section
/-! CLAIMS. Power and clocks (18). -/

namespace Sys2Proof.Machine

/-- Settles O56: each command in its case. -/
theorem powerCommandsComplete : Obligations.PowerCommandsComplete := by
  refine ⟨fun s rail h hr => ⟨_, rfl, State.railFault_stops h hr⟩, fun s => ⟨_, rfl, s.aonLow_empties⟩,
    fun s mv hw h => ⟨⟨_, rfl, State.avsRetry_settles hw h⟩, ⟨_, rfl, State.avsRetry_asksAgain hw h⟩⟩,
    fun s sec h hp hh hlo hhi => ⟨⟨_, rfl, ?_⟩, ⟨_, rfl, ?_⟩⟩,
    fun s began hh h => ⟨fun hs => ⟨_, rfl, State.switchover_switches hh h hs⟩,
      fun hp hs ht => ⟨_, rfl, State.holdoverEnds_stops hh h hp hs ht⟩⟩,
    fun s c hin hq => ⟨_, rfl, ?_⟩⟩
  · obtain ⟨alarm, hpower, halarm⟩ := s.windowRuns_power true false
    rw [State.clockWindow_runs h, edgesMissing_of_present hlo hhi, show edgesMissing 0 = true from rfl, hpower, hp, hh]
    exact ⟨rfl, rfl, rfl, halarm rfl⟩
  · obtain ⟨alarm, hpower, -⟩ := s.windowRuns_power false false
    rw [State.clockWindow_runs h, edgesMissing_of_present hlo hhi, show edgesMissing 40 = false from rfl, hpower, hp]
    exact ⟨rfl, rfl, rfl⟩
  · rw [show s.live _ = _ from if_pos hin]
    exact State.linkClockGone_quarantines hq

end Sys2Proof.Machine
end

section
/-! SUPPORT. What the recorder has written stands in every command but EVENT_RECORD_WRITE and the full resets (R351). -/

namespace Sys2Proof.Machine

/-- The records of the event recorder, in the part of the state that most operations leave alone. -/
def Cold.records (x : Cold) : List Event × List Event × Nat := (x.ring, x.firsts, x.nextSeq)

theorem foldl_records {α : Type} {f : State → α → State} (h : ∀ s a, (f s a).cold.records = s.cold.records) (l : List α) (s : State) :
    (l.foldl f s).cold.records = s.cold.records := foldl_keeps (fun s => s.cold.records) f h l s

theorem ite_records {p : Prop} [Decidable p] {a b s : State} (ha : a.cold.records = s.cold.records) (hb : b.cold.records = s.cold.records) :
    (if p then a else b).cold.records = s.cold.records := ite_keeps (m := fun s => s.cold.records) ha hb

/-! ### Stacks, groups and what their lines hold (R289 to R299, R304) -/

@[simp] theorem State.modStack_records (s : State) (n : Nat) (g : Stack → Stack) : (s.modStack n g).cold.records = s.cold.records := rfl
@[simp] theorem State.modGroup_records (s : State) (n : Nat) (g : PGroup → PGroup) : (s.modGroup n g).cold.records = s.cold.records := rfl
@[simp] theorem State.setRowCount_records (s : State) (stack row n : Nat) : (s.setRowCount stack row n).cold.records = s.cold.records := rfl

@[simp] theorem State.retireRow_records (s : State) (stack row : Nat) : (s.retireRow stack row).cold.records = s.cold.records :=
  foldl_records (fun s k => s.modStack_records k _) _ s

@[simp] theorem State.repairRow_records (s : State) (stack row : Nat) : (s.repairRow stack row).cold.records = s.cold.records := by
  unfold State.repairRow
  exact ite_records (by simp) (by simp)

@[simp] theorem State.noteLost_records (s : State) (stack row sector : Nat) : (s.noteLost stack row sector).cold.records = s.cold.records := by
  simp [State.noteLost]

@[simp] theorem State.emptyGroup_records (s : State) (g : PGroup) (f : PGroup → PGroup) : (s.emptyGroup g f).cold.records = s.cold.records := by
  simp [State.emptyGroup]

@[simp] theorem State.groupLoses_records (s : State) (g : PGroup) : (s.groupLoses g).cold.records = s.cold.records := by
  unfold State.groupLoses
  refine ite_records (by simp) ?_
  split
  · exact ite_records (by simp) (by simp)
  · simp
  · simp
  · rfl

@[simp] theorem State.evacuationEnd_records (s : State) (n : Nat) : (s.evacuationEnd n).cold.records = s.cold.records := by
  unfold State.evacuationEnd
  split
  · rfl
  · exact ite_records rfl (ite_records (by simp) (ite_records (by simp) (by simp)))

@[simp] theorem State.rebuildEnd_records (s : State) (n : Nat) : (s.rebuildEnd n).cold.records = s.cold.records := by
  unfold State.rebuildEnd
  split
  · rfl
  · exact ite_records rfl (by simp)

@[simp] theorem State.sectorLost_records (s : State) (stack row sector : Nat) : (s.sectorLost stack row sector).cold.records = s.cold.records := by
  have kept : ∀ (s : State) (d : Nat), (s.keptLost d sector).cold.records = s.cold.records := fun s d => ite_records rfl rfl
  unfold State.sectorLost
  split
  · rfl
  · dsimp only
    split
    · simp [foldl_cold]
    · split
      · simp [foldl_cold]
      · simp [kept, foldl_cold]
      · simp [foldl_cold]

@[simp] theorem State.tagFails_records (s : State) (stack row sector : Nat) (repaired : Bool) :
    (s.tagFails stack row sector repaired).cold.records = s.cold.records := by
  unfold State.tagFails
  exact ite_records (by simp) (by simp)

@[simp] theorem State.loseStack_records (s : State) (stack : Nat) : (s.loseStack stack).cold.records = s.cold.records := by
  unfold State.loseStack
  refine ite_records rfl ?_
  extract_lets cache s1 s2 s3
  have h2 : s2.cold.records = s.cold.records := by simp [s2, s1]
  have h3 : s3.cold.records = s.cold.records := by
    unfold s3
    split
    · simpa using h2
    · exact h2
  simpa using h3

@[simp] theorem State.blockOut_records (s : State) (block : Nat) : (s.blockOut block).cold.records = s.cold.records := by
  unfold State.blockOut
  dsimp only
  split <;> simp [foldl_cold]

@[simp] theorem State.lineRead_records (s : State) (stack row sector : Nat) (r : LineResult) :
    (s.lineRead stack row sector r).cold.records = s.cold.records := by
  unfold State.lineRead
  refine ite_records rfl ?_
  split
  · rfl
  · rfl
  · exact ite_records (by simp) rfl
  · extract_lets s1 s2
    have h2 : s2.cold.records = s.cold.records := by
      unfold s2 s1
      split <;> simp
    exact ite_records ((s2.loseStack_records _).trans h2) h2

@[simp] theorem State.readFaults_records (s : State) (found : List ReadFault) : (s.readFaults found).cold.records = s.cold.records := by
  refine live_keeps (m := fun s => s.cold.records) (foldl_records (fun s f => ?_) found s)
  unfold State.readFault
  split
  · simp
  · exact ite_records (by simp) rfl
  · simp
  · simp
  · simp

/-! ### Tenants and the debug unlock (R330 to R336) -/

@[simp] theorem State.modTenant_records (s : State) (n : Nat) (g : TenantSt → TenantSt) : (s.modTenant n g).cold.records = s.cold.records := rfl

@[simp] theorem State.beginRemoval_records (s : State) (tenant : Nat) (conn : Option Nat) :
    (s.beginRemoval tenant conn).cold.records = s.cold.records := by
  unfold State.beginRemoval
  split
  · rfl
  · exact ite_records rfl (by simp [foldl_cold])

@[simp] theorem State.removeCmd_records (s : State) (conn tenant : Nat) : (s.removeCmd conn tenant).cold.records = s.cold.records := by
  unfold State.removeCmd
  split
  · simp
  · split <;> simp

@[simp] theorem State.removalDrained_records (s : State) (tenant : Nat) : (s.removalDrained tenant).cold.records = s.cold.records := by
  unfold State.removalDrained
  split
  · rfl
  · exact ite_records rfl (by simp)

@[simp] theorem State.reclaimEnds_records (s : State) (tenant : Nat) : (s.reclaimEnds tenant).cold.records = s.cold.records := by
  unfold State.reclaimEnds
  split
  · rfl
  · exact ite_records rfl (by simp [foldl_cold])

@[simp] theorem State.tenantGone_records (s : State) (tenant : Nat) : (s.tenantGone tenant).cold.records = s.cold.records := by
  unfold State.tenantGone
  split
  · rfl
  · refine ite_records rfl ?_
    dsimp only
    split <;> simp

@[simp] theorem State.unlock_records (s : State) (conn : Nat) (t : Token) : (s.unlock conn t).cold.records = s.cold.records := by
  unfold State.unlock
  refine ite_records (by simp) ?_
  rw [State.settleUnlock_cold]
  exact (foldl_records (fun s _ => by simp) _ _).trans rfl

@[simp] theorem State.restore_records (s : State) (x : TenantSt) : (s.restore x).cold.records = s.cold.records := by
  unfold State.restore
  extract_lets t island s1 s2 s3
  have h2 : s2.cold.records = s.cold.records := by
    simp only [s2, s1, State.modTenant_records, State.fillSlot_cold]
    rfl
  have h3 : s3.cold.records = s2.cold.records := by
    unfold s3
    split
    · simp only [State.cold_mk]
      rfl
    · rfl
  exact h3.trans h2

@[simp] theorem State.restoreCmd_records (s : State) (conn tenant : Nat) : (s.restoreCmd conn tenant).cold.records = s.cold.records := by
  unfold State.restoreCmd
  split
  · simp
  · split
    · simp
    · simp
    · simp
    · exact ite_records (by simp) (ite_records (by simp) (by simp))

/-! ### Lanes, links and partial resets (R250, R256, R376) -/

@[simp] theorem State.laneFails_records (s : State) (c lane cause : Nat) : (s.laneFails c lane cause).cold.records = s.cold.records := by
  unfold State.laneFails
  split
  · rfl
  · refine ite_records rfl ?_
    extract_lets first s1 s2 s3
    have h2 : s2.cold.records = s.cold.records := by
      simp only [s2, State.event_cold]
      rfl
    have h3 : s3.cold.records = s.cold.records := by
      unfold s3
      split
      · simpa using h2
      · exact h2
    split
    · exact h3
    · extract_lets port st s4
      have h4 : s4.cold.records = s.cold.records := by
        unfold s4
        split <;> simpa using h3
      exact (ite_records (s := s4) rfl (ite_records (by simp) (ite_records (by simp) rfl))).trans h4

@[simp] theorem State.trainingEnd_records (s : State) (port : PortId) (r : TrainResult) (retired : List (Nat × Nat)) (corrected : List LaneFix) :
    (s.trainingEnd port r retired corrected).cold.records = s.cold.records := by
  refine ite_records rfl ?_
  rw [State.trained_cold, State.trainingLanes, foldl_cold _ fun s x => s.event_cold _ _ _ _]
  exact foldl_records (fun s x => s.laneFails_records _ _ _) _ _

@[simp] theorem State.onEpoch_records (s : State) (link : Nat) (fr : Frame) : (s.onEpoch link fr).cold.records = s.cold.records := by
  unfold State.onEpoch
  dsimp only
  rw [State.nextGets_cold]
  rfl

@[simp] theorem State.resetDomainNow_records (s : State) (domain inst : Nat) : (s.resetDomainNow domain inst).cold.records = s.cold.records := by
  have group : ∀ g, (s.resetGroup g).cold.records = s.cold.records := fun g =>
    (congrArg Cold.records (show ((s.resetGroupFns g).cutSession (.ucie g)).cold = s.cold by simp) :)
  unfold State.resetDomainNow
  exact ite_records (by simp) (ite_records (group inst) (ite_records (by simp [foldl_cold]) (by simp)))

@[simp] theorem State.beginPartial_records (s : State) (domain inst : Nat) (conn : Option Nat) :
    (s.beginPartial domain inst conn).cold.records = s.cold.records := by
  unfold State.beginPartial
  exact ite_records rfl ((State.resetDomainNow_records _ _ _).trans rfl)

@[simp] theorem State.partialEnd_records (s : State) (domain inst : Nat) : (s.partialEnd domain inst).cold.records = s.cold.records := by
  unfold State.partialEnd
  split
  · rfl
  · dsimp only
    refine ite_records rfl ?_
    rw [foldl_cold _ fun s n => by simp, State.endDomain_cold]
    rfl

/-! ### Boot, power and temperature (R367 to R375, R392 to R403) -/

@[simp] theorem State.writeEntry_records (s : State) (e : BootEntry) : (s.writeEntry e).cold.records = s.cold.records := rfl

@[simp] theorem State.imageRefused_records (s : State) : s.imageRefused.cold.records = s.cold.records :=
  ite_records rfl (by rw [State.note_cold]; rfl)

@[simp] theorem State.imagePasses_records (s : State) (i : Image) : (s.imagePasses i).cold.records = s.cold.records := by
  unfold State.imagePasses
  dsimp only
  rw [State.bootSpares_cold, State.bootRecord_cold, State.ownerChain_cold, State.bootKeys_cold, State.writeEntry_records]
  rfl

@[simp] theorem State.imageEnd_records (s : State) (ok : Bool) (i : Option Image) : (s.imageEnd ok i).cold.records = s.cold.records := by
  unfold State.imageEnd
  refine ite_records rfl ?_
  extract_lets idOk s1 b
  have h1 : s1.cold.records = s.cold.records := by
    unfold s1
    split <;> simp
  rw [← h1]
  refine ite_records rfl ?_
  split
  · simp
  · exact ite_records (by simp) (by simp)

@[simp] theorem State.proven_records (s : State) : s.proven.cold.records = s.cold.records := by
  unfold State.proven
  exact ite_records rfl ((State.writeEntry_records _ _).trans rfl)

@[simp] theorem State.activate_records (s : State) (conn : Nat) : (s.activate conn).cold.records = s.cold.records := by
  unfold State.activate
  refine ite_records (by simp) (ite_records (by simp) (ite_records (by simp) ?_))
  rw [State.reply_cold]
  rfl

@[simp] theorem State.cancel_records (s : State) (conn : Nat) : (s.cancel conn).cold.records = s.cold.records := by
  unfold State.cancel
  refine ite_records (by simp) (ite_records (by simp) ?_)
  dsimp only
  rw [State.reply_cold]
  split <;> rfl

@[simp] theorem State.serviceBegins_records (s : State) : s.serviceBegins.cold.records = s.cold.records := by
  unfold State.serviceBegins
  exact ite_records rfl (Eq.trans (b := s.memorySetup.proven.cold.records) rfl ((State.proven_records _).trans rfl))

@[simp] theorem State.hbmTrained_records (s : State) (failed weak : List Nat) : (s.hbmTrained failed weak).cold.records = s.cold.records := by
  unfold State.hbmTrained
  refine ite_records rfl ?_
  extract_lets lose start boot s1 s2
  have h1 : s1.cold.records = s.cold.records := rfl
  have h2 : s2.cold.records = s.cold.records := (foldl_records (fun s k => by simp) _ _).trans h1
  exact (foldl_records (fun s w => s.repairRow_records _ _) _ _).trans h2

@[simp] theorem State.railFault_records (s : State) (rail : Nat) : (s.railFault rail).cold.records = s.cold.records := by
  unfold State.railFault
  exact ite_records rfl (congrArg Cold.records (s.event_cold "RAIL_FAULT" (some 0xCE04) (evSource 14 0) (rail % 16)) :)

theorem State.clockEvent_records (s : State) : s.clockEvent.cold.records = s.cold.records := by
  unfold State.clockEvent
  dsimp only
  rw [State.event_cold]

@[simp] theorem State.holdoverEnds_records (s : State) : s.holdoverEnds.cold.records = s.cold.records := by
  unfold State.holdoverEnds
  split
  · exact ite_records (Eq.trans (b := s.clockEvent.cold.records) rfl s.clockEvent_records) rfl
  · rfl

@[simp] theorem State.avsRetry_records (s : State) (ack : Bool) : (s.avsRetry ack).cold.records = s.cold.records := by
  unfold State.avsRetry
  split
  · rfl
  · exact ite_records rfl (ite_records rfl (by simp))

@[simp] theorem State.switchover_records (s : State) : s.switchover.cold.records = s.cold.records := by
  unfold State.switchover
  dsimp only
  refine ite_records rfl ?_
  split
  · exact Eq.trans (b := Cold.records (State.cold (State.spend { s with power := { s.power with onPrimary := false, holdover := none } } 12 0))) rfl
      ((congrArg Cold.records (State.spend_cold _ _ _)).trans rfl)
  · rfl

@[simp] theorem State.release_records (s : State) (pri sec : Bool) : (s.release pri sec).cold.records = s.cold.records := by
  unfold State.release
  dsimp only
  refine ite_records rfl (ite_records ?_ rfl)
  rw [State.event_cold]
  rfl

@[simp] theorem State.clockWindow_records (s : State) (pri sec : Nat) : (s.clockWindow pri sec).cold.records = s.cold.records := by
  have held : ∀ a b, (s.windowHeld a b).cold.records = s.cold.records := fun a b => by
    unfold State.windowHeld
    dsimp only
    exact ite_records rfl (ite_records ((State.release_records _ _ _).trans rfl) rfl)
  have runs : ∀ a b, (s.windowRuns a b).cold.records = s.cold.records := fun a b => by
    unfold State.windowRuns
    extract_lets old u v h
    have hv : v.cold.records = s.cold.records := (ite_records (s := u) u.clockEvent_records rfl).trans rfl
    exact Eq.trans (b := v.cold.records) rfl hv
  unfold State.clockWindow
  exact ite_records (held _ _) (ite_records (runs _ _) rfl)

@[simp] theorem State.thermalSample_records (s : State) (pairs : List PairReading) (temps : List Nat) :
    (s.thermalSample pairs temps).cold.records = s.cold.records := by
  have stage : ∀ (u : State) n, (u.toStage n).cold.records = u.cold.records := fun u n => by
    unfold State.toStage
    extract_lets old p s1 s2
    have h2 : s2.cold.records = u.cold.records := (congrArg Cold.records (s1.event_cold "THERMAL_STAGE" (some 0x0E01) (evSource 14 0) _) :)
    rw [← h2]
    exact ite_records (by simp) rfl
  have step : ∀ u : State, u.stageStep.cold.records = u.cold.records := fun u =>
    ite_records (stage u _) (ite_records (ite_records (stage u _) rfl) rfl)
  have read : ∀ u : State, u.readPower.cold.records = u.cold.records := fun u => ite_records rfl rfl
  unfold State.thermalSample
  refine ite_records rfl ?_
  extract_lets old s1 s2
  have h2 : s2.cold.records = s.cold.records := (congrArg Cold.records (State.sensorEvents_cold _ _)).trans ((read s1).trans rfl)
  rw [← h2]
  split
  · exact (congrArg Cold.records (s2.event_cold "THERMAL_TRIP" (some 0xCE03) (evSource 14 0) _) :)
  · exact step s2

/-! ### Lines of the direct region, and transfers (R193 to R201) -/

theorem State.cxlFails_records (s : State) (line : Nat) (viral : Bool) : (s.cxlFails line viral).cold.records = s.cold.records := by
  unfold State.cxlFails
  rw [State.note_cold]
  rfl

@[simp] theorem State.cxlRead_records (s : State) (line : Nat) (ok viral : Bool) : (s.cxlRead line ok viral).cold.records = s.cold.records :=
  ite_records rfl ((State.cxlFails_records _ _ _).trans rfl)

@[simp] theorem State.cxlWrite_records (s : State) (line : Nat) (data : Bytes) : (s.cxlWrite line data).cold.records = s.cold.records :=
  ite_records rfl (ite_records (s.cxlFails_records _ _) rfl)

theorem State.nearResult_records (s : State) (r : Req) (pages data : Bytes) : (s.nearResult r pages data).cold.records = s.cold.records := by
  have put : ∀ o data fl, (s.putDest r o data fl).cold.records = s.cold.records := fun o data fl => by
    unfold State.putDest
    split
    · simp
    · refine ite_records (by simp) ?_
      simp only [State.finish_cold]
      rfl
    · split <;> simp
  unfold State.nearResult
  dsimp only
  split
  · exact put _ _ _
  · exact put _ _ _
  · simp
  · split
    · rfl
    · exact put _ _ _

theorem State.checkedTransfer_records (s : State) (r : Req) (ok : Bool) (check : SelfCheck) (data : Bytes) :
    (s.checkedTransfer r ok check data).cold.records = s.cold.records := by
  have slot := State.readSlot_keeps (m := State.cold) (by simp) (by simp) (by simp) (fun _ _ => rfl) (by simp) (fun _ _ _ _ => rfl)
  have near : ∀ u : State, (u.nearTransfer r ok data).cold.records = u.cold.records := fun u =>
    u.nearTransfer_keeps (m := fun s => s.cold.records) (fun s r i b l => congrArg Cold.records (slot s r i b l))
      (fun _ _ _ _ _ => by simp) r ok data fun u r' _ _ => u.nearResult_records r' _ _
  unfold State.checkedTransfer
  split
  · split <;> simp
  · rw [← State.hashCheck_cold s check (r.hashesNow ok)]
    unfold State.transferEnd
    refine ite_records (by simp) (ite_records rfl ?_)
    split
    case h_8 | h_9 | h_10 | h_11 | h_12 | h_13 => exact near _
    all_goals simp

/-! ### Commands -/

theorem State.serve_records (s : State) (conn : Nat) (roles : List Nat) (before : Bool) {k : State → Conn → State}
    (hk : ∀ t c, (k t c).cold.records = t.cold.records) : (s.serve conn roles before k).cold.records = s.cold.records :=
  s.serve_keeps (m := fun s => s.cold.records) _ _ _ _ rfl (fun _ _ => rfl) hk

theorem State.takeFrame_records (s : State) (link : Nat) (fr : Frame) (v : Nat) (kinds : List Nat) (payload : Nat) (answer : Bool)
    {k : State → Port → State} (hk : ∀ t p, (k t p).cold.records = t.cold.records) :
    (s.takeFrame link fr v kinds payload answer k).cold.records = s.cold.records := by
  unfold State.takeFrame
  refine live_keeps (m := fun s => s.cold.records) ?_
  split
  · rfl
  · refine ite_records rfl (ite_records (by simp) (ite_records (by simp) (ite_records (by simp) ?_)))
    dsimp only
    refine ite_records ?_ (ite_records (by simp) ((hk _ _).trans rfl))
    (repeat' split) <;> simp

theorem live_records {s : State} {g : State → State} (h : (g s).cold.records = s.cold.records) : (s.live g).cold.records = s.cold.records :=
  live_keeps (m := fun s => s.cold.records) h

theorem State.withReq_records (s : State) (id : Nat) {g : State → Req → State} (h : ∀ s r, (g s r).cold.records = s.cold.records) :
    (s.withReq id g).cold.records = s.cold.records := by
  refine live_records ?_
  split
  · exact h _ _
  · rfl

/-- The one split over the commands: what is recorded stands but in EVENT_RECORD_WRITE and the full resets. -/
theorem exec_records {c : Instr} {s t : State} (h : exec c s = .next t) (hc : c.carriesReset = false) (hw : c ≠ .eventRecordWrite) :
    t.cold.records = s.cold.records := by
  cases c
  case cxlMemRead line ok viral =>
    have h : execCxlMemRead line ok viral s = .next t := h
    unfold execCxlMemRead at h
    (repeat' split at h) <;> cases h
    · rfl
    · simp
    · rfl
  case cxlMemWrite line data =>
    have h : execCxlMemWrite line data s = .next t := h
    unfold execCxlMemWrite at h
    (repeat' split at h) <;> cases h
    · rfl
    · simp
    · rfl
  all_goals cases h
  -- no command that carries a full reset is left
  all_goals cases hc
  case eventRecordWrite => exact absurd rfl hw
  -- the schedulers, by their frames; power and clocks
  case timePageUpdate => exact live_records (congrArg (fun u => u.cold.records) (s.updateTime_timeFrame s) :)
  case thymeWheelTick n => exact live_records (congrArg (fun u => u.cold.records) (s.wheelTick_wheelFrame n s) :)
  case gateEntryBoundary n => exact live_records (congrArg (fun u => u.cold.records) (s.gateBoundary_gateFrame n s) :)
  case railFault | holdoverExpiry | avsRetry | refclkSwitchover | clockMonitorWindow => simp
  case resetNRelease => exact ite_records (by simp) rfl
  -- the boot, updates, tenants and partial resets
  case imageActivate | imageCancel | tenantRemove | tenantRestore | debugUnlock => exact s.serve_records _ _ _ fun t _ => by simp
  case resetPartialFunction | resetPartialModuleGroup | resetPartialLinkCluster | resetPartialEngineCluster =>
    exact s.serve_records _ _ _ fun t _ => ite_records (by simp) (by simp)
  case moduleGroupLinkLoss => exact live_records (ite_records (by simp) rfl)
  case partialResetEnd | tenantRemovalDrained | tenantRemoved | reclaimSweepEnd => exact live_records (by simp)
  -- lanes and links, and on-package memory
  case linkTrainingEnd | laneFailure | laneShort | patrolScrub | stackLost | hbmRefclkMissing | evacuationEnd | rebuildMetadataEnd =>
    exact live_records (by simp)
  case epoch => exact s.takeFrame_records _ _ _ _ _ _ fun t _ => by simp
  case refresh | refreshManagementRequest => exact live_records (s.modStack_records _ _)
  case arbiterFault => exact live_records (by simp [State.arbiterFault])
  -- commands that read stored data
  case dmaTransferEnd =>
    exact (State.withReq_records _ _ fun t r => t.checkedTransfer_records r _ _ _).trans (s.readFaults_records _)
  case readAndRekeyEnd => exact (State.withReq_records _ _ fun t r => by simp).trans (s.readFaults_records _)
  case walkBlock | passResume | copyVerify =>
    exact (congrArg Cold.records (State.live_cold _ _ fun _ => by simp)).trans (s.readFaults_records _)
  case pageGet =>
    exact s.takeFrame_records _ _ _ _ _ _ fun t p => ite_records (by simp) (ite_records rfl (by simp))
  -- the commands that choose among operations that leave the cold part alone
  case curdOffer | curdWindowEnd | curdLatestClose | queryBlockArrival | partEnd | curdPassEnd =>
    exact congrArg Cold.records (State.live_cold _ _ fun _ => elim_cold_of rfl fun _ => by simp)
  case controlCheckpoint => exact live_records rfl
  case prefetchArrival | addCapacity | destage | poolCxlMemAccess => exact live_records (ite_records (by simp) (by simp))
  case releaseCapacity =>
    refine live_records (ite_records (by simp) ?_)
    split <;> simp
  case forcedCapacityRelease =>
    refine live_records ?_
    split <;> simp
  case drbgHealthFailure | drbgRetestPass => exact ite_records (by simp) rfl
  case config => exact ite_records (s.takeFrame_records _ _ _ _ _ _ fun _ _ => rfl) (by simp)
  case credit => exact s.takeFrame_records _ _ _ _ _ _ fun _ _ => rfl
  case dirAttach | dirRelease | dirWithdrawn | withdrawNotice | extentDone | nmo =>
    exact s.takeFrame_records _ _ _ _ _ _ fun _ _ => ite_records (by simp) (by simp)
  case dirPublish | dirLookup =>
    exact s.takeFrame_records _ _ _ _ _ _ fun _ _ => ite_records (ite_records (by simp) rfl) (by simp)
  case extentRelease | recallDone =>
    refine s.takeFrame_records _ _ _ _ _ _ fun _ _ => ?_
    split <;> simp
  case regionRead | regionWrite =>
    refine s.takeFrame_records _ _ _ _ _ _ fun _ _ => ?_
    split
    · simp
    · exact ite_records rfl (by simp)
  -- the others run one operation, whose own lemma says that it leaves the records alone
  all_goals simp

/-! ### What a write of the recorder leaves of its records (R351 to R353) -/

/-- A record of the first-events area still says what its event was. -/
def Event.tells (y x : Event) : Prop := y.seq = x.seq ∧ y.code = x.code ∧ y.source = x.source ∧ y.first = x.first ∧ y.detail = x.detail

theorem Event.tells_refl (x : Event) : x.tells x := ⟨rfl, rfl, rfl, rfl, rfl⟩

theorem Event.tells_again (x e : Event) : (x.again e).tells x := ⟨rfl, rfl, rfl, rfl, rfl⟩

theorem Event.tells_trans {x y z : Event} (h : z.tells y) (h' : y.tells x) : z.tells x := by
  obtain ⟨hseq, hcode, hsource, hfirst, hdetail⟩ := h
  obtain ⟨hseq', hcode', hsource', hfirst', hdetail'⟩ := h'
  exact ⟨hseq.trans hseq', hcode.trans hcode', hsource.trans hsource', hfirst.trans hfirst', hdetail.trans hdetail'⟩

/-- The records go on: no number falls, heads that are one record still are, and no record of the first-events area is lost. -/
def Recorder.GoesOn (q w : Recorder) : Prop :=
  q.next ≤ w.next ∧ (q.paired → w.paired ∧ ∀ x ∈ q.firsts, ∃ y ∈ w.firsts, y.tells x)

theorem Recorder.goesOn_of_records {q w : Recorder} (h : w.records = q.records) : q.GoesOn w := by
  obtain ⟨hring, hrest⟩ := Prod.mk.inj h
  obtain ⟨hfirsts, hnext⟩ := Prod.mk.inj hrest
  unfold Recorder.GoesOn Recorder.paired
  rw [hring, hfirsts, hnext]
  exact ⟨le_rfl, fun hp => ⟨hp, fun x hx => ⟨x, hx, x.tells_refl⟩⟩⟩

theorem Recorder.GoesOn.trans {q v w : Recorder} (h : q.GoesOn v) (h' : v.GoesOn w) : q.GoesOn w := by
  refine ⟨h.1.trans h'.1, fun hp => ?_⟩
  obtain ⟨hv, hkept⟩ := h.2 hp
  obtain ⟨hw, hkept'⟩ := h'.2 hv
  refine ⟨hw, fun x hx => ?_⟩
  obtain ⟨y, hy, hyx⟩ := hkept x hx
  obtain ⟨z, hz, hzy⟩ := hkept' y hy
  exact ⟨z, hz, Event.tells_trans hzy hyx⟩

/-- A repeat counts in the last record, and in its copy at the head of the first-events area. -/
theorem Recorder.goesOn_again {q w : Recorder} {e last : Event} {rest : List Event} (hr : q.ring = last :: rest) (hw : w.ring = last.again e :: rest)
    (hn : w.next = q.next) (hf : w.firsts = match q.firsts with
      | x :: xs => if x.seq = last.seq ∧ q.next ≤ 1024 then last.again e :: xs else x :: xs
      | [] => []) : q.GoesOn w := by
  refine ⟨hn.ge, fun hp => ?_⟩
  cases hq : q.firsts with
  | nil =>
    rw [hq] at hf
    exact ⟨fun x l hx => by simp [hf] at hx, fun x hx => absurd hx List.not_mem_nil⟩
  | cons x xs =>
    rw [hq] at hf
    dsimp only at hf
    by_cases hone : x.seq = last.seq ∧ q.next ≤ 1024
    · rw [if_pos hone] at hf
      have hx : x = last := hp x last (by rw [hq]; rfl) (by rw [hr]; rfl) hone.2 hone.1
      refine ⟨fun y l hy hl _ _ => ?_, fun y hy => ?_⟩
      · rw [hf] at hy
        rw [hw] at hl
        exact (Option.some.inj hy).symm.trans (Option.some.inj hl)
      · rw [hf]
        rcases List.mem_cons.mp hy with rfl | hy
        · exact ⟨last.again e, List.mem_cons_self, hx ▸ last.tells_again e⟩
        · exact ⟨y, List.mem_cons_of_mem _ hy, y.tells_refl⟩
    · rw [if_neg hone] at hf
      refine ⟨fun y l hy hl hle hseq => ?_, fun y hy => ⟨y, hf ▸ hy, y.tells_refl⟩⟩
      rw [hf] at hy
      rw [hw] at hl
      obtain rfl : x = y := Option.some.inj hy
      obtain rfl : last.again e = l := Option.some.inj hl
      exact absurd ⟨hseq, hn ▸ hle⟩ hone

/-- A new record leads the ring, and the first-events area while it fills. -/
theorem Recorder.goesOn_new {q w : Recorder} {x : Event} (hw : w.ring.head? = some x) (hn : w.next = q.next + 1)
    (hf : w.firsts = if q.next < 1024 then x :: q.firsts else q.firsts) : q.GoesOn w := by
  refine ⟨by omega, fun _ => ⟨fun y l hy hl hle _ => ?_, fun y hy => ⟨y, ?_, y.tells_refl⟩⟩⟩
  · rw [hf, if_pos (by omega)] at hy
    rw [hw] at hl
    exact (Option.some.inj hy).symm.trans (Option.some.inj hl)
  · rw [hf]
    split
    · exact List.mem_cons_of_mem _ hy
    · exact hy

theorem Recorder.write_goesOn (q : Recorder) (e : Event) : q.GoesOn (q.write e) := by
  unfold Recorder.write
  split
  · next last rest hr =>
    split
    · exact Recorder.goesOn_again hr rfl rfl rfl
    · exact Recorder.goesOn_new rfl rfl rfl
  · exact Recorder.goesOn_new rfl rfl rfl

theorem writes_goOn (l : List Event) : ∀ q : Recorder, q.GoesOn (l.foldl (fun (w : Recorder) e => w.write e) q) := by
  induction l with
  | nil => exact fun q => Recorder.goesOn_of_records rfl
  | cons e l ih => exact fun q => (q.write_goesOn e).trans (ih _)

theorem Recorder.flush_goesOn (q : Recorder) : q.GoesOn q.flush := by
  unfold Recorder.flush
  split
  · exact Recorder.goesOn_of_records rfl
  · extract_lets w lost v
    have hw : q.GoesOn w := (Recorder.goesOn_of_records (w := { q with queue := [], dropped := 0 }) rfl).trans (writes_goOn _ _)
    have hend : ∀ v : Recorder, v.GoesOn { v with booted := false } := fun v => Recorder.goesOn_of_records rfl
    refine Recorder.GoesOn.trans ?_ (hend _)
    unfold v
    split
    · exact hw
    · exact hw.trans (w.write_goesOn lost)

/-! ### So in every command (R351) -/

theorem recordEvent_goesOn (s : State) : s.recorder.GoesOn s.recordEvent.recorder := by
  by_cases hb : s.recorder.booted = true
  · cases hq : s.recorder.queue with
    | nil =>
      have hsame : s.recordEvent = s := by
        unfold State.recordEvent
        dsimp only
        rw [if_neg (by simp [hb]), hq]
      rw [hsame]
      exact Recorder.goesOn_of_records rfl
    | cons e rest =>
      obtain ⟨queue, dropped, h, -⟩ := State.recordEvent_eq hb hq
      rw [h]
      have hwrite := Recorder.write_goesOn { s.recorder with queue := rest } e
      exact (Recorder.goesOn_of_records rfl).trans (hwrite.trans (Recorder.goesOn_of_records rfl))
  · have hsame : s.recordEvent = s := if_pos (by simp [hb])
    rw [hsame]
    exact Recorder.goesOn_of_records rfl

theorem Wipes.goesOn {s t : State} (h : Wipes s t) : s.recorder.GoesOn t.recorder := by
  obtain ⟨-, q, hq, ht⟩ := h
  exact (Recorder.goesOn_of_records hq).trans (q.flush_goesOn.trans (Recorder.goesOn_of_records ht))

theorem exec_goesOn {c : Instr} {s t : State} (h : exec c s = .next t) (hp : c ≠ .fullReset .powerOn) : s.recorder.GoesOn t.recorder := by
  by_cases hc : c.carriesReset = true
  · rcases exec_reaches h hc with (stays | wipes) | ⟨hpower, -⟩
    · exact Recorder.goesOn_of_records stays.2
    · exact wipes.goesOn
    · exact absurd hpower hp
  · by_cases hw : c = .eventRecordWrite
    · subst hw
      cases h
      exact recordEvent_goesOn s
    · exact Recorder.goesOn_of_records (exec_records h (Bool.eq_false_iff.mpr hc) hw)

end Sys2Proof.Machine
end

section
/-! CLAIMS. Records of the event recorder stand (15). -/

namespace Sys2Proof.Machine

/-- Settles O9: but for EVENT_RECORD_WRITE and full resets no command touches the records; a write, and the writes of a reset, take them on. -/
theorem recordsStand : Obligations.RecordsStand := by
  intro c s t h hp
  obtain ⟨hnext, hfirsts⟩ := exec_goesOn h hp
  refine ⟨fun hc hw => ?_, hnext, hfirsts⟩
  obtain ⟨hring, hrest⟩ := Prod.mk.inj (exec_records h hc hw)
  obtain ⟨hfirst, hseq⟩ := Prod.mk.inj hrest
  exact ⟨hring, hfirst, hseq⟩

end Sys2Proof.Machine
end
